-- ==== Sys2Proof/Word.lean ====
section
/-! DEFINITION. The words of the sled: bytes, 32-bit register words and byte strings. Everything a test could show wrong
(field extraction, byte order, the sparse tables) stands in Machine/Bits.lean and Machine/Tbl.lean instead. -/
namespace Sys2Proof

/-- One byte of a frame, a record or a Logbook row. -/
abbrev Byte := BitVec 8

/-- One 32-bit word of the OF BAR0 set-up window (R381, 18_register_map). -/
abbrev Word := BitVec 32

/-- A byte string in ascending offset order (R6, 00_scope). -/
abbrev Bytes := List Byte

end Sys2Proof
end

