-- ==== Sys2Proof/Syntax.lean ====
section
/-! DEFINITION. The commands of the block: one constructor per row of spec/opcode_table.json, in the table's order.
The table gives a row no operand bits, so the operands are what the rule of the row says comes from outside the block. -/
namespace Sys2Proof

/-- The two frame engines (R23, 01_the_sled). -/
inductive Eng where
  | a | b
deriving DecidableEq, Repr

/-- The PCI Express errors of Table 4-3 that a link can detect (R79, 04_host_links). A completion timeout, an unexpected
completion and a request outside every BAR have rows of their own. `poisoned` names the tag of the read it answers. -/
inductive AerKind where
  | receiver | badTlp | badDllp | replayRollover | replayTimer
  | poisoned (tag : Nat)
  | malformed | surpriseDown
deriving DecidableEq, Repr

/-- A mailbox request record as latched at the write of MBX_GO, field by field (Table 4-6, R84). `rsv` is byte 3
followed by bytes 20 to 29. -/
structure MbxReq where
  opcode : BitVec 8
  seq    : BitVec 8
  status : BitVec 8
  rsv    : BitVec 88
  op0    : BitVec 64
  op1    : BitVec 64
  check  : BitVec 16
deriving DecidableEq, Repr

/-- What a configuration write leaves in the bits R81 and Table 4-2 name for one function; the first three fields are a physical
function's alone. -/
structure CfgBits where
  vfEn   : Bool   -- VF Enable
  numVfs : Fin 17 -- NumVFs
  mrrs   : Fin 6  -- max read request size, 128 x 2^mrrs bytes
  d0     : Bool   -- the function is in D0
  bme    : Bool   -- Bus Master Enable
  msixEn : Bool   -- MSI-X Enable
  ro     : Bool   -- Relaxed Ordering Enable
deriving DecidableEq, Repr

/-- The BAR0 that a register write reaches (Table 4-4, R80): an OF's set-up window, a TF's, or a carrier function's. -/
inductive Bar where
  | of (n : Fin 4) | tf (f : Fin 64) | cf (n : Fin 4)
deriving DecidableEq, Repr

/-- A frame as it crosses the reference plane of an instance: its bytes from the first destination-address byte up to
the FCS, whether the start delimiter is the normal one, whether the FCS is good, the fraction of a nanosecond
(1/65,536 ns) of the timestamp point after the J-cycle's start (R49, R189), the FEC codewords corrected and found uncorrectable
since the frame before it, and whether an uncorrectable one touches it (R191). -/
structure RxFrame where
  bytes   : Bytes
  sofGood : Bool
  fcsGood : Bool
  offset  : Nat
  corrected : Nat
  uncorrected : Nat
  marked  : Bool
deriving DecidableEq, Repr

/-- How a cold start begins (16.1). -/
inductive StartBy where
  | mains | wakePin | mainsReturn | aoBrownout
deriving DecidableEq, Repr

/-- What the full self-test of the two engines gives (R357). -/
structure SelfTest where
  passA : Bool
  passB : Bool
deriving DecidableEq, Repr

/-- Which Crosscut link direction a flit arrives on (10.10): outbound from an engine or inbound to it, or the mirror link
towards an engine. -/
inductive FlitPath where
  | fromEng (e : Eng) | toEng (e : Eng) | mirrorTo (e : Eng)
deriving DecidableEq, Repr

/-- The rails of Table 12-4 in the order of RAIL_STATUS. -/
inductive Rail where
  | coreA | coreB | junction | serdes | ao | aux | cage
deriving DecidableEq, Repr

/-- The result of one attempt on the Tether (R332, R334, R354). -/
inductive TxResult where
  | acked | noAck | arbLost | bitError | lateCollision
deriving DecidableEq, Repr

/-- What the receiver finds on the bus before the check (R333): a well-formed frame, a stuff error or a form error. -/
inductive RxForm where
  | ok | stuffError | formError
deriving DecidableEq, Repr

/-- A Tether frame as received: the bits read from the bus, from SOF to the end of EOF, dominant as false (Table 15-1), and the TIME64 stamp of
its SOF. -/
structure TetherFrame where
  wire  : List Bool
  stamp : Nat
deriving DecidableEq, Repr

/-- The commands of the block, one per row of spec/opcode_table.json. -/
inductive Instr where
  -- set-up
  | registerWrite (bar : Bar) (offset size : Nat) (value : BitVec 64)
  | commit (of : Fin 4) (seq : BitVec 16)
  | discard (of : Fin 4)
  | commitApply
  | setupLock (of : Fin 4)
  -- time
  | timeNowRead (of : Fin 4)
  | timeCtrlRate (src : BitVec 2)
  | timeCtrlStep (src : BitVec 2)
  | timeCtrlSet (src : BitVec 2)
  | timeHoldExpiry
  | rtcAlarm
  | rtcAlarmWrite (hi : BitVec 16)
  | rtcCountWrite (hi : BitVec 16)
  | rtcCountRead
  -- host links and check-value units
  | ptmRequest (link : Fin 8)
  | readCompletion (tag : Nat) (good : Bool) (data : Bytes)
  | cvuAssign
  | checkDone (unit : Fin 16)
  | completionTimeout (tag : Nat)
  | unexpectedCompletion (link : Fin 8)
  | unsupportedRequest (link : Fin 8)
  | aerError (link : Fin 8) (kind : AerKind)
  | hlLinkUp (link : Fin 8) (speed width : Nat)
  | hlLinkDown (link : Fin 8)
  | perstAssert (link : Fin 8)
  | flr (fn : Fin 72)
  | vfDisable (pf : Fin 8) (numVfs : Option (Fin 17))
  | d3hotEntry (fn : Fin 72)
  | busMasterClear (fn : Fin 72)
  | configWrite (fn : Fin 72) (bits : CfgBits)
  | l1Exit (link : Fin 8)
  -- mailbox, enrolment, eviction
  | enrol (fn : Fin 68) (go : BitVec 8) (req : MbxReq)
  | enrolReadDone (fn : Fin 68) (good : Bool) (data : Bytes)
  | leave (fn : Fin 68) (go : BitVec 8) (req : MbxReq)
  | query (fn : Fin 68) (go : BitVec 8) (req : MbxReq)
  | txrCreate (fn : Fin 68) (go : BitVec 8) (req : MbxReq)
  | rxrCreate (fn : Fin 68) (go : BitVec 8) (req : MbxReq)
  | cqCreate (fn : Fin 68) (go : BitVec 8) (req : MbxReq)
  | evrCreate (fn : Fin 68) (go : BitVec 8) (req : MbxReq)
  | ringDestroy (fn : Fin 68) (go : BitVec 8) (req : MbxReq)
  | ringDestroyDone (fn : Fin 68)
  | fnCmdEvict (fn : Fin 68)
  | fnCmdRelease (fn : Fin 68)
  | evictionComplete (fn : Fin 68)
  -- doorbells, descriptors, queues
  | doorbellTx (fn : Fin 68) (whole : Bool) (value : BitVec 64)
  | doorbellRx (fn : Fin 68) (whole : Bool) (value : BitVec 64)
  | doorbellCq (fn : Fin 68) (whole : Bool) (value : BitVec 64)
  | doorbellEvr (fn : Fin 68) (whole : Bool) (value : BitVec 64)
  | doorbellRecall (fn : Fin 68) (whole : Bool) (value : BitVec 64)
  | doorbellArm (fn : Fin 68) (evr whole : Bool) (value : BitVec 64)
  | descriptorFetch (rx : Bool) (ring : Fin 640)
  | txBufferRead (ring : Fin 640)
  | cqModTime (queue : Fin 256)
  | rxStoreWrite (ring : Fin 640)
  | rxEarlyStart (ring : Fin 640)
  | rxWaitExpiry (ring : Fin 640)
  -- transmit
  | grant (m : Fin 16) (ready : Nat)
  | frameDeparture (m : Fin 16)
  | gateEvent (m : Fin 16)
  | gclApplied (m : Fin 16)
  | txEarlyWake (m : Fin 16)
  | lpiEntry (m : Fin 16) (rx : Bool)
  -- receive
  | frameReceived (m : Fin 16) (frame : RxFrame)
  | flowWrite (of : Fin 4) (index : Fin 8192)
  | flowDelete (of : Fin 4) (index : Fin 8192)
  | flowRead (of : Fin 4) (index : Fin 8192)
  -- the wire
  | linkTrainingStart (m : Fin 16)
  | linkUp (m : Fin 16) (far : BitVec 4)
  | linkTrainTimeout (m : Fin 16)
  | linkTrainRetry (m : Fin 16)
  | laneLoss (lane : Fin 16)
  | remoteFault (m : Fin 16)
  | macControlFrame (m : Fin 16) (frame : RxFrame)
  | pauseRegister (m : Fin 16)
  | pauseEnd (m : Fin 16) (c : Fin 8)
  | pauseWdExpiry (m : Fin 16) (c : Fin 8)
  | fcWdRearm (m : Fin 16)
  | controlFrameSend (m : Fin 16)
  | pfcRefresh (m : Fin 16) (c : Fin 8)
  | pauseRefresh (m : Fin 16)
  | lldpSend (m : Fin 16)
  | watchFrame (p : Fin 2) (frame : RxFrame)
  | watchLinkUp (p : Fin 2)
  | watchLinkFail (p : Fin 2)
  | cageInserted (p : Fin 2) (maxPower : BitVec 8) (copper : Bool)
  | cageRemoved (p : Fin 2)
  | cageReset (p : Fin 2)
  | cageResetDone (p : Fin 2) (maxPower : BitVec 8) (copper : Bool)
  | cageReenable (p : Fin 2)
  | cageFault (p : Fin 2)
  | modulePoll (p : Fin 2) (flags : BitVec 8)
  | cageMirrorCopy (p : Fin 2) (data : Bytes)
  -- the Tally
  | tallyRead (of : Fin 4)
  | snapshotTrigger (of : Fin 4) (set : BitVec 4) (seq : BitVec 16)
  | tallySnapshot (of : Fin 4)
  | energyWindow (measured : List Nat)
  | mirrorBoundary
  -- the engine pair
  | relinquish (e : Eng)
  | lockstepHandoverEnd
  | divergence
  | verdictResult (test : SelfTest)
  | drainEnd
  | warmHandoverEnd
  | heartbeatMiss (e : Eng)
  | flitReceived (path : FlitPath) (lane : Fin 12) (flit : BitVec 288)
  | roleSwap
  | pairCmdSwap
  | pairCmdRequalify (e : Eng)
  | warmStandbyReady
  | bistCycleDone (e : Eng) (pass : Bool) (ecc : BitVec 16)
  | requalifyDone (e : Eng) (pass : Bool)
  | bulkCopyDone
  | resyncDone
  | resyncTimeout
  | junctionFault
  -- the Lookout
  | lookoutServe (ch : Fin 5)
  | badServe (ch : Fin 5) (pc : Word)
  | lookoutExpiry (ch : Fin 5) (pc : Word)
  | warningPeriodClose (ch : Fin 5) (pc : Word)
  | loCmdTest (ch : Fin 5) (pc : Word)
  | lookoutClockTrip (ch : Fin 5) (otherStopped : Bool)
  | lookoutResetHold
  | warningDelivery
  | mgmtRestart
  | supervisorRestarted
  | lookoutEvidenceCopy
  -- supply and backup cell
  | acFailRise
  | acFailFall
  | mainsGraceExpiry
  | mainsReturn (test : SelfTest)
  | supplyWarn (mv crossing : Nat)
  | supplyRecovered
  | bulkReset (mv : Nat)
  | bulkResetRelease (test : SelfTest)
  | railFault (rail : Rail) (mv : Nat)
  | auxReenable
  | aoBudgetSample (ua : Nat)
  | aoBrownout
  | cellCvReached
  | chargeComplete
  | chargeTempHold
  | chargeTempResume
  | cellRemoved
  | cellProbe (mv : Nat)
  -- power modes
  | pwrCmdSleep
  | pwrCmdDeepSleep (hottest : Int)
  | pwrCmdOff
  | pwrEntered
  | idleEntry
  | wakePin
  | readyStageDone (test : SelfTest)
  | readyTimeout (test : SelfTest)
  | pwrExited
  | islandAutoWake (i : Fin 20)
  | dvfsCommand (mhz mv : Nat) (islands : List (Fin 20))
  | vReady
  | dvfsTimeout
  -- Foreman
  | foremanLoop (busy : List (Nat × Nat × Nat))
  | thermalWindow (hottest : Int)
  -- Tether and the Stand
  | tetherTxStart (stamp : Nat)
  | tetherTxEnd (res : TxResult)
  | tetherTxSend (slot : Fin 8)
  | tetherTxCancel (slot : Fin 8)
  | gsCmdPropose (mode : BitVec 2) (hottest : Int)
  | gsCmdVeto
  | gsCmdWakeAll
  | wakeVeto (frame : TetherFrame)
  | wakeAll (frame : TetherFrame)
  | abort (frame : TetherFrame)
  | sync (frame : TetherFrame)
  | follow (frame : TetherFrame)
  | propose (frame : TetherFrame) (hottest : Int)
  | agree (frame : TetherFrame)
  | refuse (frame : TetherFrame)
  | tetherCommit (frame : TetherFrame)
  | failover (frame : TetherFrame)
  | claim (frame : TetherFrame)
  | object (frame : TetherFrame)
  | heartbeat (frame : TetherFrame)
  | operator (frame : TetherFrame)
  | listenWindowEnd
  | claimWindowEnd
  | backoffEnd
  | heartbeatSend
  | tetherStationGone (station : Fin 64)
  | syncSend
  | gsAgreeWindowEnd
  | gsMemberTimeout
  | gsCommitTime (hottest : Int)
  | tetherRxPop
  -- start-up and Logbook
  | coldStart (how : StartBy) (test : SelfTest)
  | sledReset (key : BitVec 16) (test : SelfTest)
  | chassisReset (test : SelfTest)
  | sledStarted (ms : BitVec 16)
  | fwCmdStage (of : Fin 4)
  | fwStaged (sigGood : Bool) (svn : BitVec 16) (line : Nat) (raiseFlag : Bool) (build : BitVec 16)
  | fwCmdActivate (of : Fin 4)
  | logCmdSave (lockAfterLoad : Bool)
  | setupImageSaved
  | logbookScrub (row : Fin 32768) (corrected uncorrectable : Bool)
  | ledgerEntry
  | evAlertAck
  | evTest (of : Fin 4) (key : BitVec 16)
  -- SMBus and fans
  | smbStatus
  | smbBulkMv
  | smbInletTemp
  | smbInputPower
  | smbFanFault
  | smbLogSeq
  | smbSerial
  | smbWake
  | smbAlertResponse
  | fanFailure (fan : Fin 5)
  -- added rows
  | timePairRecord
  | gsCommitDeadline
  | bulkRailRecoveryCrossing (mv : Nat)
  | msixVectorUnmask (fn : Fin 68) (dword : Fin 256) (value : Word)
deriving DecidableEq, Repr

end Sys2Proof
end

