-- ==== Sys2Proof/Decode.lean ====
section
/-! DEFINITION. The decoder of table words. Every row of spec/opcode_table.json has an empty list of fields and gives no bits, so
no word spells a command. -/
namespace Sys2Proof

/-- The command that a word of a table row spells: none, whatever the word. -/
def decodeTableWord (_nbits _w : Nat) : Option Instr := none

end Sys2Proof
end

