-- ==== Sys2Proof/Machine/Bits.lean ====
section
/-! DEFINITION. Bit fields, byte orders, the check-value codes of 03_check_values, the Toeplitz hash and the Internet
checksum. Multi-byte fields are little-endian (R6, 00_scope) except where a network header is read. -/
namespace Sys2Proof.Machine

/-- Bits [lo + n - 1 : lo] of a number. -/
def bits (x lo n : Nat) : Nat := x / 2 ^ lo % 2 ^ n

/-- One bit of a number. -/
def bit (x i : Nat) : Bool := x / 2 ^ i % 2 = 1

/-- A flag as a number. -/
def ofBool (b : Bool) : Nat := if b then 1 else 0

/-- The low n bits read as a signed number. -/
def signed (n x : Nat) : Int := if x % 2 ^ n < 2 ^ (n - 1) then (x % 2 ^ n : Nat) else (x % 2 ^ n : Nat) - (2 ^ n : Nat)

/-- A signed number as n bits, two's complement. -/
def unsigned (n : Nat) (x : Int) : Nat := (x % (2 ^ n : Nat)).toNat

/-- The first n bytes of a number, least significant first (R6, 00_scope). -/
def le : Nat → Nat → Bytes
  | 0, _ => []
  | n + 1, x => BitVec.ofNat 8 x :: le n (x / 256)

/-- The number that bytes spell, least significant first (R6, 00_scope). -/
def ofLe : Bytes → Nat
  | [] => 0
  | b :: r => b.toNat + 256 * ofLe r

/-- A number as n bytes, most significant first (network order). -/
def be (n x : Nat) : Bytes := (le n x).reverse

/-- The number that bytes spell, most significant first (network order). -/
def ofBe (l : Bytes) : Nat := ofLe l.reverse

/-- n bytes from offset i, fewer where the string ends. -/
def slice (l : Bytes) (i n : Nat) : Bytes := (l.drop i).take n

/-- The byte at offset i as a number; 0 past the end. -/
def byteAt (l : Bytes) (i : Nat) : Nat := ((l.drop i).headD 0).toNat

/-- A field of n bytes at offset i, little-endian. -/
def leAt (l : Bytes) (i n : Nat) : Nat := ofLe (slice l i n)

/-- A field of n bytes at offset i in network order. -/
def beAt (l : Bytes) (i n : Nat) : Nat := ofBe (slice l i n)

/-- The string with the bytes at offset i replaced. -/
def splice (l : Bytes) (i : Nat) (new : Bytes) : Bytes := l.take i ++ new ++ l.drop (i + new.length)

/-- The string filled up with zero bytes to a length. -/
def padTo (n : Nat) (l : Bytes) : Bytes := l ++ List.replicate (n - l.length) 0

/-- A counter that saturates at 2^w - 1. -/
def satAdd (w x n : Nat) : Nat := min (x + n) (2 ^ w - 1)

/-- The parameters of a check-value code (Table 3-1, R63, 03_check_values); `poly` is the reflected form where the code
is reflected. -/
structure CrcCode where
  width : Nat
  poly  : Nat
  init  : Nat
  refl  : Bool
  xor   : Nat
deriving DecidableEq, Repr

/-- The codes 0 to 3 of Table 3-1 (R63, 03_check_values). -/
def crcCode (code : Nat) : CrcCode :=
  match code with
  | 0 => ⟨16, 0x1021, 0xFFFF, false, 0⟩
  | 1 => ⟨32, 0xEDB88320, 0xFFFFFFFF, true, 0xFFFFFFFF⟩
  | 2 => ⟨32, 0x82F63B78, 0xFFFFFFFF, true, 0xFFFFFFFF⟩
  | _ => ⟨64, 0xC96C5795D7870F42, 0xFFFFFFFFFFFFFFFF, true, 0xFFFFFFFFFFFFFFFF⟩

/-- One bit step of a check-value unit (R63, 03_check_values). -/
def crcBit (c : CrcCode) (r : Nat) : Nat :=
  if c.refl then (if r % 2 = 1 then Nat.xor (r / 2) c.poly else r / 2)
  else if r / 2 ^ (c.width - 1) % 2 = 1 then Nat.xor (2 * r) c.poly % 2 ^ c.width else 2 * r % 2 ^ c.width

/-- One byte step of a check-value unit (R63, 03_check_values). -/
def crcByte (c : CrcCode) (r : Nat) (b : Byte) : Nat :=
  let r := if c.refl then Nat.xor r b.toNat else Nat.xor r (b.toNat * 2 ^ (c.width - 8))
  crcBit c (crcBit c (crcBit c (crcBit c (crcBit c (crcBit c (crcBit c (crcBit c r)))))))

/-- The register after a byte string (R63, 03_check_values). -/
def crcRun (c : CrcCode) : Nat → Bytes → Nat
  | r, [] => r
  | r, b :: l => crcRun c (crcByte c r b) l

/-- A check without folds: message, then final XOR (R64, 03_check_values). -/
def crcPlain (code : Nat) (msg : Bytes) : Nat :=
  Nat.xor (crcRun (crcCode code) (crcCode code).init msg) (crcCode code).xor

/-- A folded check: message, the address word least significant byte first, the alive byte, then the final XOR (R64,
03_check_values). -/
def crcFold (code : Nat) (msg : Bytes) (addr alive : Nat) : Nat := crcPlain code (msg ++ le 4 addr ++ le 1 alive)

/-- The Internet checksum of a byte string: the ones'-complement sum of its 16-bit words in network order, an odd byte
filled up with zero (R148, 06_transmit; R162, 07_receive). -/
def onesSum : Nat → Bytes → Nat
  | acc, [] => acc
  | acc, [a] => acc + a.toNat * 256
  | acc, a :: b :: r => onesSum (acc + a.toNat * 256 + b.toNat) r

/-- Folding the carries of a ones'-complement sum; three folds settle any sum below 2^48. -/
def onesFold (x : Nat) : Nat :=
  let f := fun y => y % 65536 + y / 65536
  f (f (f x))

/-- The checksum field value for a byte string: the complement of the folded sum. -/
def inetChecksum (l : Bytes) : Nat := 65535 - onesFold (onesSum 0 l)

/-- One bit of a byte string, the most significant bit of byte 0 first. -/
def bitBe (l : Bytes) (i : Nat) : Bool := bit (byteAt l (i / 8)) (7 - i % 8)

/-- The 32 key bits from bit i on, most significant first. -/
def keyWindow (key : Bytes) (i : Nat) : Nat := beAt key (i / 8) 5 / 2 ^ (8 - i % 8) % 2 ^ 32

/-- The Toeplitz hash of the input's bits from bit i on, with n bits to go (R168, 07_receive). -/
def toeplitzFrom (key input : Bytes) : Nat → Nat → Nat → Nat
  | 0, _, acc => acc
  | n + 1, i, acc => toeplitzFrom key input n (i + 1) (if bitBe input i then Nat.xor acc (keyWindow key i) else acc)

/-- The Toeplitz hash of an input (R168, 07_receive). -/
def toeplitz (key input : Bytes) : Nat := toeplitzFrom key input (8 * input.length) 0 0

end Sys2Proof.Machine
end

