-- ==== Sys2Proof/Machine/Packet.lean ====
section
/-! DEFINITION. Frames as bytes on the transmit side: tags (6.6), the supported stack and checksums (6.7), segmentation
(6.8) and the one-step rewrite (2.3). -/
namespace Sys2Proof.Machine

/-- The number of tags from byte 12 on, by a TPID of 0x8100 or 0x88A8 (6.6). -/
def tagsFrom (l : Bytes) : Nat → Nat → Nat
  | 0, _ => 0
  | n + 1, off => if beAt l off 2 = 0x8100 ∨ beAt l off 2 = 0x88A8 then 1 + tagsFrom l n (off + 4) else 0

/-- The number of buffer tags of a frame. -/
def bufTags (l : Bytes) : Nat := tagsFrom l 64 12

/-- The chain of IPv6 extension headers from a next-header value and an offset: at most `n` of Hop-by-Hop (0), Routing (43)
and Destination Options (60), no Routing header with Segments Left above 0. It answers the upper protocol and its offset
(R146). -/
def ip6Chain (l : Bytes) : Nat → Nat → Nat → Option (Nat × Nat)
  | 0, nh, off => if nh = 6 ∨ nh = 17 then some (nh, off) else none
  | n + 1, nh, off =>
    if nh = 0 ∨ nh = 43 ∨ nh = 60 then
      if nh = 43 ∧ byteAt l (off + 3) ≠ 0 then none
      else ip6Chain l n (byteAt l off) (off + 8 * (byteAt l (off + 1) + 1))
    else if nh = 6 ∨ nh = 17 then some (nh, off) else none

/-- The upper protocol and its offset behind an IP header at an offset, for an EtherType; none where the stack is not
supported or the packet is a fragment (R146). -/
def upperOf (l : Bytes) (etype l3 : Nat) : Option (Nat × Nat) :=
  if etype = 0x0800 then
    if byteAt l l3 / 16 = 4 ∧ 5 ≤ byteAt l l3 % 16 ∧ beAt l (l3 + 6) 2 % 2 ^ 14 = 0 ∧
        (byteAt l (l3 + 9) = 6 ∨ byteAt l (l3 + 9) = 17) then
      some (byteAt l (l3 + 9), l3 + 4 * (byteAt l l3 % 16))
    else none
  else if etype = 0x86DD then ip6Chain l 2 (byteAt l (l3 + 6)) (l3 + 40)
  else none

/-- The length of a TCP or UDP header at an offset. -/
def l4Header (l : Bytes) (proto l4 : Nat) : Nat := if proto = 6 then 4 * (byteAt l (l4 + 12) / 16) else 8

/-- What the first descriptor of a send asks of its frame (Table 5-6, Table 5-7). -/
structure TxAsk where
  seg   : Bool
  l3c   : Bool
  l4c   : Bool
  tag   : Bool
  tci   : Nat
  mss   : Nat
  l3    : Nat
  l4    : Nat
  hdr   : Nat
  stag  : Option Nat     -- TCI of the forced S-tag (R144)
deriving DecidableEq, Repr

/-- The number of inserted tags. -/
def TxAsk.ins (a : TxAsk) : Nat := ofBool a.tag + ofBool a.stag.isSome

/-- The tests of R146 for a send whose first descriptor sets SEG, L3_CSUM or L4_CSUM. -/
def TxAsk.stackOk (a : TxAsk) (l : Bytes) : Bool :=
  let n := bufTags l
  let et := beAt l (12 + 4 * n) 2
  decide (n + a.ins ≤ 2) && decide (a.l3 = 14 + 4 * n) && (et = 0x0800 || (et = 0x86DD && !a.l3c)) &&
    match upperOf l et a.l3 with
    | some (p, off) =>
      decide (a.l4 = off) && decide (off + (if p = 6 then 20 else 8) ≤ l.length) && decide (off + l4Header l p off ≤ l.length)
    | none => false

/-- The protocol of a send that passed R146. -/
def TxAsk.proto (a : TxAsk) (l : Bytes) : Nat :=
  match upperOf l (beAt l (12 + 4 * bufTags l) 2) a.l3 with
  | some (p, _) => p
  | none => 0

/-- The limits of R148 for a segmentation send. -/
def TxAsk.segOk (a : TxAsk) (l : Bytes) : Bool :=
  let p := a.proto l
  let fl := byteAt l (a.l4 + 13)
  decide (64 ≤ a.mss) && decide (a.mss ≤ 16000) && decide (a.hdr ≤ 256) && decide (a.hdr = a.l4 + l4Header l p a.l4) &&
    decide (a.hdr < l.length) && (p ≠ 6 || (!bit fl 1 && !bit fl 2 && !bit fl 5))

/-- The number of frames of a send: its segments, or 1 (6.8). -/
def TxAsk.frames (a : TxAsk) (len : Nat) : Nat := if a.seg then (len - a.hdr + a.mss - 1) / a.mss else 1

/-- Inserting the forced S-tag and the C-tag after the source address (R144). -/
def TxAsk.insert (a : TxAsk) (l : Bytes) : Bytes :=
  l.take 12 ++ (match a.stag with | some t => be 2 0x88A8 ++ be 2 t | none => []) ++
    (if a.tag then be 2 0x8100 ++ be 2 a.tci else []) ++ l.drop 12

/-- Writing the IPv4 header checksum over the IHL x 4 bytes at an offset (R147). -/
def putL3 (l : Bytes) (l3 : Nat) : Bytes :=
  let z := splice l (l3 + 10) [0, 0]
  splice l (l3 + 10) (be 2 (inetChecksum (slice z l3 (4 * (byteAt l l3 % 16)))))

/-- The pseudo-header of a TCP or UDP checksum (R147). -/
def pseudo (l : Bytes) (etype l3 proto len : Nat) : Bytes :=
  if etype = 0x0800 then slice l (l3 + 12) 8 ++ [0] ++ le 1 proto ++ be 2 len
  else slice l (l3 + 8) 32 ++ be 4 len ++ [0, 0, 0] ++ le 1 proto

/-- Writing the TCP or UDP checksum from an offset to the end of the frame (R147); a UDP checksum of 0 is sent as 0xFFFF. -/
def putL4 (l : Bytes) (etype l3 proto l4 : Nat) : Bytes :=
  let f := if proto = 6 then l4 + 16 else l4 + 6
  let z := splice l f [0, 0]
  let c := inetChecksum (pseudo l etype l3 proto (l.length - l4) ++ z.drop l4)
  splice l f (be 2 (if proto = 17 ∧ c = 0 then 0xFFFF else c))

/-- Frame k of a send before insertion: the whole send with the checksums it asks for (R147), or segment k with the header
fields of Table 6-3 (R149). -/
def TxAsk.frame (a : TxAsk) (l : Bytes) (k : Nat) : Bytes :=
  let et := beAt l (12 + 4 * bufTags l) 2
  let p := a.proto l
  if a.seg then
    let last := k + 1 = a.frames l.length
    let pay := slice l (a.hdr + k * a.mss) a.mss
    let f0 := l.take a.hdr ++ pay
    let f1 := if et = 0x0800 then
        putL3 (splice (splice f0 (a.l3 + 2) (be 2 (a.hdr - a.l3 + pay.length))) (a.l3 + 4)
          (be 2 ((beAt l (a.l3 + 4) 2 + k) % 2 ^ 16))) a.l3
      else splice f0 (a.l3 + 4) (be 2 (a.hdr - a.l3 - 40 + pay.length))
    let f2 := if p = 6 then
        let fl := byteAt l (a.l4 + 13)
        let fl1 := if k = 0 then fl else fl % 128
        let fl2 := if last then fl1 else fl1 - (fl1 % 2) - (fl1 / 8 % 2) * 8
        splice (splice f1 (a.l4 + 4) (be 4 ((beAt l (a.l4 + 4) 4 + k * a.mss) % 2 ^ 32))) (a.l4 + 13) (le 1 fl2)
      else splice f1 (a.l4 + 4) (be 2 (a.hdr - a.l4 + pay.length))
    putL4 f2 et a.l3 p a.l4
  else
    let f1 := if a.l3c then putL3 l a.l3 else l
    if a.l4c then putL4 f1 et a.l3 p a.l4 else f1

/-- The bytes of frame k on the wire before the FCS: tags inserted, padded to 60 (R144, R152). -/
def TxAsk.wire (a : TxAsk) (l : Bytes) (k : Nat) : Bytes := padTo 60 (a.insert (a.frame l k))

/-- The wire length L of frame k (R151). -/
def TxAsk.wireLen (a : TxAsk) (len k : Nat) : Nat :=
  let body := if a.seg then a.hdr + min a.mss (len - a.hdr - k * a.mss) else len
  max 60 (body + 4 * a.ins) + 4

/-- Frame k is short before padding (R152). -/
def TxAsk.short (a : TxAsk) (len k : Nat) : Bool :=
  let body := if a.seg then a.hdr + min a.mss (len - a.hdr - k * a.mss) else len
  decide (body + 4 * a.ins < 60)

/-- The FCS that the MAC appends: CRC-32, least significant byte first (R189, 08_the_wire). -/
def withFcs (l : Bytes) : Bytes := l ++ le 4 (crcPlain 1 l)

/-! ### One-step (Table 2-2, R51, 02_time_and_windows) -/

/-- The offset of the PTP message of a frame and, over UDP, the offset of the UDP header (Table 2-2). The fragment fields of an IPv4 header are
not looked at (DESIGN CHOICE, log 74). -/
def ptpAt (l : Bytes) : Option (Nat × Option Nat) :=
  let n := tagsFrom l 2 12
  let et := beAt l (12 + 4 * n) 2
  let l3 := 14 + 4 * n
  if et = 0x88F7 then some (l3, none)
  else if et = 0x0800 ∧ byteAt l (l3 + 9) = 17 ∧ byteAt l l3 / 16 = 4 then
    let u := l3 + 4 * (byteAt l l3 % 16)
    if beAt l (u + 2) 2 = 319 then some (u + 8, some u) else none
  else if et = 0x86DD ∧ byteAt l (l3 + 6) = 17 then
    let u := l3 + 40
    if beAt l (u + 2) 2 = 319 then some (u + 8, some u) else none
  else none

/-- A PTP version 2 Sync (messageType 0) with twoStepFlag clear. -/
def isSync (l : Bytes) (p : Nat) : Bool :=
  decide (byteAt l p % 16 = 0) && decide (byteAt l (p + 1) % 16 = 2) && !bit (byteAt l (p + 6)) 1

/-- The one-step rewrite of a frame without FCS for a departure timestamp in u (R51): seconds and nanoseconds into
originTimestamp, the fraction added to correctionField, and the UDP checksum updated. -/
def oneStep (l : Bytes) (u : Nat) : Option Bytes :=
  match ptpAt l with
  | some (p, udp) =>
    if isSync l p then
      let sec := u / (1000000000 * 2 ^ 32) % 2 ^ 48
      let ns := u / 2 ^ 32 % 1000000000
      let frac := u / 2 ^ 16 % 2 ^ 16
      let f := splice (splice l (p + 34) (be 6 sec ++ be 4 ns)) (p + 8) (be 8 ((beAt l (p + 8) 8 + frac) % 2 ^ 64))
      match udp with
      | none => some f
      | some o =>
        let old := beAt l (o + 6) 2
        if old = 0 then some f
        else
          let from_ := o - o % 2
          let sum := onesFold (65535 - old + onesSum 0 (padTo 2 (f.drop from_)) + 65535 * 100000 - onesSum 0 (padTo 2 (l.drop from_)))
          let c := 65535 - sum
          some (splice f (o + 6) (be 2 (if c = 0 then 0xFFFF else c)))
    else none
  | none => none

end Sys2Proof.Machine
end

