-- ==== Sys2Proof/Config.lean ====
section
/-! DEFINITION. What one sled fixes and the spec leaves open. Every constant here is opaque: no proof can see a value. -/
namespace Sys2Proof.Config

/-- The 64-bit serial number set at manufacture (R388, 18_register_map): one for each sled; the spec gives no number. -/
opaque serial : BitVec 64

/-- The inlet temperature sensor in °C, signed (R393, 19_electrical_and_mechanical), for the n-th reading. -/
opaque inletTemp : Nat → BitVec 8

/-- The measured mains input power in W (R393, 19_electrical_and_mechanical), for the n-th reading. -/
opaque inputPower : Nat → BitVec 16

/-- Whether a FEC mode supports LPI at a rate in Gb/s on copper (`LPI_CAP`, R200, 08_the_wire). -/
opaque lpiCap : Nat → Nat → Bool

/-- The smallest wake time of a PCS in ns for a rate in Gb/s and a FEC mode (`LPI_TW_MIN`, R203, 08_the_wire). -/
opaque lpiTwMin : Nat → Nat → BitVec 20

/-- The PHY's sleep time in ns, for a rate in Gb/s and a FEC mode: how long entry signalling to transmit LPI takes (R201, 08_the_wire). -/
opaque lpiSleep : Nat → Nat → BitVec 20

/-- Which part of the sled reports an event (FLAGS [3:2] of Table 5-12, 05_rings_and_doorbells), by event code: the spec
gives the encoding and names no reporter for each event. -/
opaque reporter : Nat → BitVec 2

/-- The BIST share, in percent, that lets the self-test cycle in progress end within 50 ms (R249, 10_engine_pair; R317, 14_foreman), by
the instant in u since the first reset: the spec does not say how far a cycle has run at an instant. -/
opaque bistNeed : Nat → Nat

/-- What an engine's core or the Junction hands the PHY of a lane for its n-th flit (Table 10-6, 10_engine_pair): FILLER in bit 0, TYPE in bits
5 to 1, and the 31 bytes of stream data; the spec gives the streams no layout. -/
opaque flitCore : Nat → BitVec 254

/-- ISLAND_IDLE of an island in mW (R225, R229, 09_tally), by calibration, island, DVFS point and state code: the spec gives no figure. -/
opaque islandIdle : Nat → Nat → Nat → Nat → BitVec 16

/-- A value the spec leaves open, for the n-th use: nothing constrains it. -/
opaque freeValue : Nat → BitVec 64

end Sys2Proof.Config
end

