-- ==== Sys2Proof/Machine/Registers.lean ====
section
/-! DEFINITION. Every register of OF BAR0 (Table 18-2, R380 to R383, 18_register_map), block by block, with the bits, the
class, the reset value and the range its home table gives each field, and the lookup of an offset. -/
namespace Sys2Proof.Machine

/-- The registers of OF BAR0, by the names of Table 18-2. An array has one name. -/
inductive Reg where
  | idVendor | idRev | idSerialLo | idSerialHi | idCaps | idFunc | commitDoorbell | commitStatus | commitFault
  | commitView | setupLock | setupRejectCount | pwrCtrl | pwrCmd | wakeEn | retSet | pwrStatus | wakeCause
  | wakeOthers | wakeTimeLo | wakeTimeHi | readyRetryCount | wakeReplayCount | islTarget | islState | dvfsStatus
  | hlCtrl | hlStatus | hlDownCount | hlAerCount | mbxRequest | mbxGo | mbxStatus | mbxReply | fnState | fnCmd
  | profCtrl | profQuota | imageTagLo | imageTagHi | tbRate | tbBurst | fenceLimit | imageTagSeenLo
  | imageTagSeenHi | fenceBaseLo | fenceBaseHi | fenceLimitLo | fenceLimitHi | rxWait | evrCtrl | ringAlloc
  | txrStatus | rxrStatus | cqStatus | evrStatus | rxCtrl | rxPcpMap | headroom | hamperAlpha | hamperStatus
  | hamperPool | rxFn | rxFnCap | pfcXoff | pfcXon | flowKey | flowAction | flowCmd | flowStatus | rxFnSel
  | mcastHash | vlanFilter | hashKey | indir | daEntryLo | daEntryHi | schCtrl | gclCycle | gclLen | gclBaseNs
  | gclBaseSLo | gclBaseSHi | gclStatus | cbsSlope | gclGates | gclInterval | fnTx | tbLevel | macCfg | maxlen
  | macAddrLo | macAddrHi | fcQuanta | pauseThresh | pauseWd | fcWdRearm | lpiIdle | lpiTw | lpiTwMin | macStatus
  | portCfg | watchCtrl | watchMacLo | watchMacHi | watchStatus | patMask | patCtrl | cageStatus | cageCmd
  | cageMirror | timeNow | timeSet | timeRate | timeStep | timeCtrl | timeStatus | timeHold | timeSrcEn
  | timeStepCount | timeAdjIgnored | tsOnestepEn | tsAdj | rtcCountLo | rtcCountHi | rtcAlarmLo | rtcAlarmHi
  | rtcCtrl | rtcStatus | tallySel | tallyValLo | tallyValHi | snapAddrLo | snapAddrHi | snapLen | snapCtrl
  | snapStatus | energyCtrl | tallyStatus | islandIdle | islandPower | pairMode | pairSwap | pairGuard | pairCtrl
  | pairCmd | pairStatus | pairLast | pairHealthBist | pairHealthEcc | pairHealthFails | loLCtrl | loFCtrl
  | loSCtrl | loCmd | loStatus | loLastServeLo | loLastServeHi | loWarnPc | loResetCause | loWarnCount
  | loResetCount | loBadServeCount | supCtrl | supStatus | supBulk | railStatus | aoBudget | aoStatus | cellStatus
  | supCmd | supplyCount | tetherCtrl | tetherDelay | tetherGsLead | tetherStatus | tetherSession | tetherPresentLo
  | tetherPresentHi | tetherPeerSel | tetherPeerSerialLo | tetherPeerSerialHi | tetherPeerInfo | tetherGsCmd
  | tetherGsStatus | tetherGsTLo | tetherGsTHi | tetherTxCmd | tetherTxData | tetherTxLen | tetherTxStatus
  | tetherRxCount | tetherRxPop | tetherRxHead | tetherRxTimeLo | tetherRxTimeHi | tetherRxData | tetherCount
  | fmCtrl | fmThermal | fmMode | fmFloor | fmCeiling | fmPin | fmDwell | fmStatus | fmChanges | startStatus
  | imageGen | startTime | logCmd | logStatus | logRowSel | logRowStatus | logRowData | logHead | ledgerPeriod
  | logbookRateDrop | sledReset | fwAddrLo | fwAddrHi | fwLen | fwCmd | fwStatus | evAlert | evAlertAck | evSeq
  | evLogSeq | evTest
deriving DecidableEq, Repr

/-- The class of a field (Table 0-5, R12, 00_scope): staged, locked, live and writable, read-only, or a live field whose
write is a command of its own. -/
inductive RCls where
  | s | k | live | ro | cmd
deriving DecidableEq, Repr

/-- One field of a register: its lowest bit, its width, its class, its reset value, and the range its home table gives. A
range with a negative end reads the field as signed. -/
structure RField where
  lo    : Nat
  n     : Nat
  cls   : RCls
  reset : Nat
  range : Option (Int × Int)
deriving DecidableEq, Repr

/-- One register or array of registers: the offset of its first word, the strides and counts of its indices from the
outermost in, and its fields. -/
structure RegRow where
  reg    : Reg
  base   : Nat
  dims   : List (Nat × Nat)
  fields : List RField
deriving DecidableEq, Repr

/-- The IDENT block (R388, 18_register_map). -/
def regsIdent : List RegRow := [
  ⟨.idVendor, 0x0, [], [⟨0, 16, .ro, 0x1f5a, none⟩, ⟨16, 16, .ro, 0x820, none⟩]⟩,
  ⟨.idRev, 0x4, [], [⟨0, 8, .ro, 0x43, none⟩, ⟨8, 8, .ro, 4, none⟩, ⟨16, 16, .ro, 0, none⟩]⟩,
  ⟨.idSerialLo, 0x8, [], [⟨0, 32, .ro, 0, none⟩]⟩,
  ⟨.idSerialHi, 0xC, [], [⟨0, 32, .ro, 0, none⟩]⟩,
  ⟨.idCaps, 0x10, [], [⟨0, 8, .ro, 0x40, none⟩, ⟨8, 8, .ro, 4, none⟩, ⟨16, 8, .ro, 0x10, none⟩, ⟨24, 8, .ro, 2,
    none⟩]⟩,
  ⟨.idFunc, 0x14, [], [⟨0, 8, .ro, 0, none⟩, ⟨8, 2, .ro, 0, none⟩, ⟨10, 1, .ro, 0, none⟩]⟩]

/-- The COMMIT block (R22, 00_scope). -/
def regsCommit : List RegRow := [
  ⟨.commitDoorbell, 0x1000, [], [⟨0, 16, .cmd, 0, none⟩, ⟨16, 1, .cmd, 0, none⟩]⟩,
  ⟨.commitStatus, 0x1004, [], [⟨0, 16, .ro, 0, none⟩, ⟨16, 2, .ro, 0, none⟩, ⟨18, 1, .ro, 0, none⟩, ⟨19, 1, .ro, 0,
    none⟩]⟩,
  ⟨.commitFault, 0x1008, [], [⟨0, 20, .ro, 0, none⟩, ⟨20, 4, .ro, 0, none⟩]⟩,
  ⟨.commitView, 0x100C, [], [⟨0, 1, .live, 0, none⟩]⟩,
  ⟨.setupLock, 0x1010, [], [⟨0, 1, .cmd, 0, none⟩]⟩,
  ⟨.setupRejectCount, 0x1014, [], [⟨0, 32, .ro, 0, none⟩]⟩]

/-- The POWER block (R311, 13_islands_and_power_states). -/
def regsPower : List RegRow := [
  ⟨.pwrCtrl, 0x2000, [], [⟨0, 1, .k, 0, none⟩, ⟨1, 1, .s, 1, none⟩, ⟨2, 1, .s, 0, none⟩]⟩,
  ⟨.pwrCmd, 0x2004, [], [⟨0, 2, .cmd, 0, none⟩]⟩,
  ⟨.wakeEn, 0x2008, [], [⟨5, 5, .s, 6, none⟩]⟩,
  ⟨.retSet, 0x200C, [], [⟨0, 16, .s, 0, none⟩, ⟨16, 1, .s, 0, none⟩, ⟨17, 1, .s, 0, none⟩, ⟨18, 1, .s, 0, none⟩]⟩,
  ⟨.pwrStatus, 0x2010, [], [⟨0, 3, .ro, 0, none⟩, ⟨4, 2, .ro, 0, none⟩, ⟨6, 2, .ro, 0, none⟩]⟩,
  ⟨.wakeCause, 0x2014, [], [⟨0, 8, .ro, 0, none⟩, ⟨8, 8, .ro, 0, none⟩, ⟨16, 1, .ro, 0, none⟩, ⟨17, 3, .ro, 0, none⟩]⟩,
  ⟨.wakeOthers, 0x2018, [], [⟨0, 32, .ro, 0, none⟩]⟩,
  ⟨.wakeTimeLo, 0x201C, [], [⟨0, 32, .ro, 0, none⟩]⟩,
  ⟨.wakeTimeHi, 0x2020, [], [⟨0, 32, .ro, 0, none⟩]⟩,
  ⟨.readyRetryCount, 0x2024, [], [⟨0, 32, .ro, 0, none⟩]⟩,
  ⟨.wakeReplayCount, 0x2028, [], [⟨0, 32, .ro, 0, none⟩]⟩,
  ⟨.islTarget, 0x2040, [(0x4, 20)], [⟨0, 2, .s, 0, some (0, 2)⟩]⟩,
  ⟨.islState, 0x2100, [(0x4, 20)], [⟨0, 2, .ro, 0, none⟩, ⟨2, 1, .ro, 0, none⟩, ⟨3, 1, .ro, 0, none⟩, ⟨4, 2, .ro, 0,
    none⟩]⟩,
  ⟨.dvfsStatus, 0x2200, [(0x4, 2)], [⟨0, 2, .ro, 0, none⟩, ⟨2, 1, .ro, 0, none⟩, ⟨3, 1, .ro, 1, none⟩, ⟨4, 2, .ro, 0,
    none⟩]⟩]

/-- The HOSTLINK block (R102, 04_host_links). -/
def regsHostlink : List RegRow := [
  ⟨.hlCtrl, 0x4000, [(0x40, 4)], [⟨0, 1, .k, 0, none⟩, ⟨1, 3, .k, 5, some (1, 5)⟩]⟩,
  ⟨.hlStatus, 0x4004, [(0x40, 4)], [⟨0, 4, .ro, 0, none⟩, ⟨4, 4, .ro, 0, none⟩, ⟨16, 4, .ro, 0, none⟩, ⟨20, 4, .ro,
    0, none⟩]⟩,
  ⟨.hlDownCount, 0x4008, [(0x40, 4)], [⟨0, 32, .ro, 0, none⟩]⟩,
  ⟨.hlAerCount, 0x400C, [(0x40, 4)], [⟨0, 32, .ro, 0, none⟩]⟩,
  ⟨.mbxRequest, 0x4400, [(0x4, 8)], [⟨0, 32, .live, 0, none⟩]⟩,
  ⟨.mbxGo, 0x4420, [], [⟨0, 8, .cmd, 0, none⟩]⟩,
  ⟨.mbxStatus, 0x4424, [], [⟨0, 8, .ro, 0, none⟩, ⟨8, 1, .ro, 0, none⟩]⟩,
  ⟨.mbxReply, 0x4440, [(0x4, 8)], [⟨0, 32, .ro, 0, none⟩]⟩,
  ⟨.fnState, 0x4800, [(0x4, 68)], [⟨0, 3, .ro, 0, none⟩, ⟨8, 8, .ro, 0, none⟩, ⟨16, 8, .ro, 0, none⟩]⟩,
  ⟨.fnCmd, 0x4A00, [], [⟨0, 8, .cmd, 0, none⟩, ⟨8, 2, .cmd, 0, none⟩]⟩,
  ⟨.profCtrl, 0x5000, [(0x20, 64)], [⟨0, 1, .s, 0, none⟩, ⟨1, 2, .k, 0, some (0, 2)⟩, ⟨3, 1, .k, 0, none⟩, ⟨16, 12,
    .k, 0, none⟩, ⟨31, 1, .ro, 0, none⟩]⟩,
  ⟨.profQuota, 0x5004, [(0x20, 64)], [⟨0, 4, .s, 8, some (0, 8)⟩, ⟨4, 4, .s, 8, some (0, 8)⟩, ⟨8, 2, .s, 2, some (0,
    2)⟩]⟩,
  ⟨.imageTagLo, 0x5008, [(0x20, 64)], [⟨0, 32, .k, 0, none⟩]⟩,
  ⟨.imageTagHi, 0x500C, [(0x20, 64)], [⟨0, 32, .k, 0, none⟩]⟩,
  ⟨.tbRate, 0x5010, [(0x20, 64)], [⟨0, 20, .s, 0, some (0, 800000)⟩]⟩,
  ⟨.tbBurst, 0x5014, [(0x20, 64)], [⟨0, 20, .s, 0x4000, some (2048, 1048575)⟩]⟩,
  ⟨.fenceLimit, 0x5018, [(0x20, 64)], [⟨0, 11, .s, 0x10, some (1, 1024)⟩]⟩,
  ⟨.imageTagSeenLo, 0x501C, [(0x20, 64)], [⟨0, 32, .ro, 0, none⟩]⟩,
  ⟨.imageTagSeenHi, 0x5800, [(0x4, 64)], [⟨0, 32, .ro, 0, none⟩]⟩,
  ⟨.fenceBaseLo, 0x6000, [(0x100, 68), (0x10, 16)], [⟨12, 20, .s, 0, none⟩]⟩,
  ⟨.fenceBaseHi, 0x6004, [(0x100, 68), (0x10, 16)], [⟨0, 32, .s, 0, none⟩]⟩,
  ⟨.fenceLimitLo, 0x6008, [(0x100, 68), (0x10, 16)], [⟨12, 20, .s, 0, none⟩]⟩,
  ⟨.fenceLimitHi, 0x600C, [(0x100, 68), (0x10, 16)], [⟨0, 32, .s, 0, none⟩]⟩]

/-- The RINGS block (R129, 05_rings_and_doorbells). -/
def regsRings : List RegRow := [
  ⟨.rxWait, 0x10000, [], [⟨0, 14, .s, 0x32, some (0, 10000)⟩]⟩,
  ⟨.evrCtrl, 0x10010, [(0x4, 4)], [⟨0, 3, .s, 0, some (0, 4)⟩]⟩,
  ⟨.ringAlloc, 0x10100, [(0x4, 68)], [⟨0, 10, .k, 0, none⟩, ⟨10, 10, .k, 0, none⟩, ⟨20, 8, .k, 0, none⟩]⟩,
  ⟨.txrStatus, 0x11000, [(0x8, 640), (0x4, 2)], [⟨0, 32, .ro, 0, none⟩]⟩,
  ⟨.rxrStatus, 0x13000, [(0x8, 640), (0x4, 2)], [⟨0, 32, .ro, 0, none⟩]⟩,
  ⟨.cqStatus, 0x15000, [(0x8, 256), (0x4, 2)], [⟨0, 32, .ro, 0, none⟩]⟩,
  ⟨.evrStatus, 0x15800, [(0x8, 4), (0x4, 2)], [⟨0, 32, .ro, 0, none⟩]⟩]

/-- The FILTERS block (R181, 07_receive). -/
def regsFilters : List RegRow := [
  ⟨.rxCtrl, 0x20000, [(0x20, 16)], [⟨0, 1, .s, 0, none⟩, ⟨1, 1, .s, 0, none⟩, ⟨2, 3, .s, 0, none⟩, ⟨8, 2, .s, 0,
    none⟩, ⟨16, 5, .s, 0, none⟩]⟩,
  ⟨.rxPcpMap, 0x20004, [(0x20, 16)], [⟨0, 24, .s, 0xfac688, none⟩]⟩,
  ⟨.headroom, 0x20008, [(0x20, 16)], [⟨0, 14, .s, 0, some (0, 8192)⟩]⟩,
  ⟨.hamperAlpha, 0x20400, [], [⟨0, 4, .s, 0xf, some (-4, 3)⟩, ⟨4, 4, .s, 0xf, some (-4, 3)⟩, ⟨8, 4, .s, 0xf,
    some (-4, 3)⟩, ⟨12, 4, .s, 0xf, some (-4, 3)⟩, ⟨16, 4, .s, 0xf, some (-4, 3)⟩, ⟨20, 4, .s, 0xf, some (-4, 3)⟩,
    ⟨24, 4, .s, 0xf, some (-4, 3)⟩, ⟨28, 4, .s, 0xf, some (-4, 3)⟩]⟩,
  ⟨.hamperStatus, 0x20404, [], [⟨0, 16, .ro, 0x5c00, none⟩, ⟨16, 11, .ro, 0x400, none⟩]⟩,
  ⟨.hamperPool, 0x20408, [], [⟨0, 16, .ro, 0x5c00, none⟩]⟩,
  ⟨.rxFn, 0x20800, [(0x4, 68)], [⟨0, 1, .s, 0, none⟩, ⟨1, 1, .s, 0, none⟩, ⟨2, 1, .s, 0, none⟩, ⟨3, 1, .s, 1, none⟩,
    ⟨4, 1, .s, 0, none⟩, ⟨5, 1, .s, 0, none⟩, ⟨6, 5, .s, 0, none⟩]⟩,
  ⟨.rxFnCap, 0x20A00, [(0x4, 68)], [⟨0, 16, .s, 0x1000, some (16, 23552)⟩]⟩,
  ⟨.pfcXoff, 0x21000, [(0x8, 128)], [⟨0, 16, .s, 0x100, none⟩]⟩,
  ⟨.pfcXon, 0x21004, [(0x8, 128)], [⟨0, 16, .s, 0x80, none⟩]⟩,
  ⟨.flowKey, 0x22000, [(0x4, 10)], [⟨0, 32, .live, 0, none⟩]⟩,
  ⟨.flowAction, 0x22028, [], [⟨0, 5, .live, 0, none⟩, ⟨31, 1, .live, 0, none⟩]⟩,
  ⟨.flowCmd, 0x2202C, [], [⟨0, 13, .cmd, 0, none⟩, ⟨16, 2, .cmd, 0, none⟩]⟩,
  ⟨.flowStatus, 0x22030, [], [⟨0, 2, .ro, 0, none⟩, ⟨16, 14, .ro, 0, none⟩]⟩,
  ⟨.rxFnSel, 0x23000, [], [⟨0, 7, .live, 0, none⟩]⟩,
  ⟨.mcastHash, 0x23200, [(0x4, 128)], [⟨0, 32, .s, 0, none⟩]⟩,
  ⟨.vlanFilter, 0x23400, [(0x4, 128)], [⟨0, 32, .s, 0, none⟩]⟩,
  ⟨.hashKey, 0x23600, [(0x4, 10)], [⟨0, 32, .s, 0, none⟩]⟩,
  ⟨.indir, 0x23680, [(0x4, 32)], [⟨0, 5, .s, 0, none⟩, ⟨8, 5, .s, 0, none⟩, ⟨16, 5, .s, 0, none⟩, ⟨24, 5, .s, 0,
    none⟩]⟩,
  ⟨.daEntryLo, 0x28000, [(0x8, 4096)], [⟨0, 32, .s, 0, none⟩]⟩,
  ⟨.daEntryHi, 0x28004, [(0x8, 4096)], [⟨0, 16, .s, 0, none⟩, ⟨16, 7, .s, 0, some (0, 67)⟩, ⟨23, 2, .s, 0, none⟩,
    ⟨31, 1, .s, 0, none⟩]⟩]

/-- The SCHED block (R157, 06_transmit). -/
def regsSched : List RegRow := [
  ⟨.schCtrl, 0x30000, [(0x40, 16)], [⟨0, 1, .s, 1, none⟩, ⟨1, 1, .s, 0, none⟩, ⟨8, 8, .s, 0, none⟩]⟩,
  ⟨.gclCycle, 0x30004, [(0x40, 16)], [⟨0, 30, .s, 0xf4240, some (1000, 1000000000)⟩]⟩,
  ⟨.gclLen, 0x30008, [(0x40, 16)], [⟨0, 9, .s, 1, some (1, 256)⟩]⟩,
  ⟨.gclBaseNs, 0x3000C, [(0x40, 16)], [⟨0, 30, .s, 0, some (0, 999999999)⟩]⟩,
  ⟨.gclBaseSLo, 0x30010, [(0x40, 16)], [⟨0, 32, .s, 0, none⟩]⟩,
  ⟨.gclBaseSHi, 0x30014, [(0x40, 16)], [⟨0, 16, .s, 0, none⟩]⟩,
  ⟨.gclStatus, 0x30018, [(0x40, 16)], [⟨0, 8, .ro, 0, none⟩, ⟨8, 1, .ro, 0, none⟩, ⟨16, 8, .ro, 0, none⟩]⟩,
  ⟨.cbsSlope, 0x30800, [(0x20, 16), (0x4, 8)], [⟨0, 20, .s, 0, none⟩]⟩,
  ⟨.gclGates, 0x34000, [(0x800, 16), (0x8, 256)], [⟨0, 8, .s, 0xff, none⟩]⟩,
  ⟨.gclInterval, 0x34004, [(0x800, 16), (0x8, 256)], [⟨0, 30, .s, 0xf4240, none⟩]⟩,
  ⟨.fnTx, 0x3C000, [(0x4, 68)], [⟨0, 16, .s, 0x800, some (64, 65535)⟩, ⟨16, 10, .s, 0x80, some (64, 512)⟩]⟩,
  ⟨.tbLevel, 0x3D000, [(0x4, 64)], [⟨0, 32, .ro, 0, none⟩]⟩]

/-- The MAC block (R211, 08_the_wire). -/
def regsMac : List RegRow := [
  ⟨.macCfg, 0x40000, [(0x100, 16)], [⟨0, 1, .s, 0, none⟩, ⟨1, 3, .s, 4, some (0, 4)⟩, ⟨4, 1, .s, 1, none⟩, ⟨5, 2, .s,
    0, some (0, 2)⟩, ⟨8, 8, .s, 0, none⟩, ⟨16, 1, .s, 1, none⟩, ⟨17, 1, .s, 0, none⟩, ⟨18, 1, .s, 0, none⟩]⟩,
  ⟨.maxlen, 0x40004, [(0x100, 16)], [⟨0, 15, .s, 0x5ee, some (1518, 16384)⟩]⟩,
  ⟨.macAddrLo, 0x40008, [(0x100, 16)], [⟨0, 32, .s, 0, none⟩]⟩,
  ⟨.macAddrHi, 0x4000C, [(0x100, 16)], [⟨0, 16, .s, 0, none⟩]⟩,
  ⟨.fcQuanta, 0x40010, [(0x100, 16)], [⟨0, 16, .s, 0xffff, none⟩, ⟨16, 16, .s, 0x8000, none⟩]⟩,
  ⟨.pauseThresh, 0x40014, [(0x100, 16)], [⟨0, 16, .s, 0x200, none⟩, ⟨16, 16, .s, 0x100, none⟩]⟩,
  ⟨.pauseWd, 0x40018, [(0x100, 16)], [⟨0, 14, .s, 0x64, some (1, 10000)⟩, ⟨16, 1, .s, 0, none⟩]⟩,
  ⟨.fcWdRearm, 0x4001C, [(0x100, 16)], [⟨0, 1, .cmd, 0, none⟩]⟩,
  ⟨.lpiIdle, 0x40020, [(0x100, 16)], [⟨0, 16, .s, 0x14, some (1, 65535)⟩]⟩,
  ⟨.lpiTw, 0x40024, [(0x100, 16)], [⟨0, 20, .live, 0, none⟩]⟩,
  ⟨.lpiTwMin, 0x40028, [(0x100, 16)], [⟨0, 20, .ro, 0, none⟩]⟩,
  ⟨.macStatus, 0x40030, [(0x100, 16)], [⟨0, 3, .ro, 0, none⟩, ⟨3, 3, .ro, 0, none⟩, ⟨6, 1, .ro, 0, none⟩, ⟨7, 1, .ro,
    0, none⟩, ⟨8, 1, .ro, 0, none⟩, ⟨9, 1, .ro, 0, none⟩, ⟨16, 8, .ro, 0, none⟩, ⟨24, 8, .ro, 0, none⟩]⟩,
  ⟨.portCfg, 0x42000, [(0x40, 2)], [⟨0, 3, .k, 0, some (0, 4)⟩, ⟨8, 7, .s, 1, some (0, 100)⟩]⟩,
  ⟨.watchCtrl, 0x42010, [(0x40, 2)], [⟨0, 1, .s, 0, none⟩, ⟨1, 1, .s, 0, none⟩, ⟨2, 2, .s, 2, some (0, 2)⟩]⟩,
  ⟨.watchMacLo, 0x42014, [(0x40, 2)], [⟨0, 32, .s, 0, none⟩]⟩,
  ⟨.watchMacHi, 0x42018, [(0x40, 2)], [⟨0, 16, .s, 0, none⟩]⟩,
  ⟨.watchStatus, 0x4201C, [(0x40, 2)], [⟨0, 1, .ro, 0, none⟩, ⟨8, 6, .ro, 0, none⟩, ⟨14, 1, .ro, 0, none⟩]⟩,
  ⟨.patMask, 0x44000, [(0x400, 2), (0x20, 32), (0x4, 4)], [⟨0, 32, .s, 0, none⟩]⟩,
  ⟨.patCtrl, 0x44010, [(0x400, 2), (0x20, 32)], [⟨0, 16, .s, 0, none⟩, ⟨16, 1, .s, 0, none⟩]⟩,
  ⟨.cageStatus, 0x46000, [(0x400, 2)], [⟨0, 1, .ro, 0, none⟩, ⟨1, 1, .ro, 0, none⟩, ⟨2, 1, .ro, 0, none⟩, ⟨3, 1, .ro,
    0, none⟩, ⟨8, 8, .ro, 0, none⟩]⟩,
  ⟨.cageCmd, 0x46004, [(0x400, 2)], [⟨0, 1, .cmd, 0, none⟩, ⟨1, 1, .cmd, 0, none⟩]⟩,
  ⟨.cageMirror, 0x46100, [(0x400, 2), (0x4, 64)], [⟨0, 32, .ro, 0, none⟩]⟩]

/-- The TIME block (R62, 02_time_and_windows). -/
def regsTime : List RegRow := [
  ⟨.timeNow, 0x50000, [(0x4, 3)], [⟨0, 32, .ro, 0, none⟩]⟩,
  ⟨.timeSet, 0x50010, [(0x4, 3)], [⟨0, 32, .live, 0, none⟩]⟩,
  ⟨.timeRate, 0x5001C, [], [⟨0, 32, .live, 0, none⟩]⟩,
  ⟨.timeStep, 0x50020, [(0x4, 2)], [⟨0, 32, .live, 0, none⟩]⟩,
  ⟨.timeCtrl, 0x50028, [], [⟨0, 2, .cmd, 0, none⟩, ⟨2, 2, .cmd, 3, none⟩]⟩,
  ⟨.timeStatus, 0x5002C, [], [⟨0, 3, .ro, 0, none⟩, ⟨4, 1, .ro, 0, none⟩]⟩,
  ⟨.timeHold, 0x50030, [], [⟨0, 16, .s, 0x7d0, some (100, 60000)⟩]⟩,
  ⟨.timeSrcEn, 0x50034, [], [⟨0, 1, .s, 1, none⟩, ⟨1, 1, .s, 1, none⟩, ⟨2, 1, .s, 1, none⟩]⟩,
  ⟨.timeStepCount, 0x50038, [], [⟨0, 32, .ro, 0, none⟩]⟩,
  ⟨.timeAdjIgnored, 0x5003C, [], [⟨0, 32, .ro, 0, none⟩]⟩,
  ⟨.tsOnestepEn, 0x50040, [], [⟨0, 16, .s, 0, none⟩]⟩,
  ⟨.tsAdj, 0x50100, [(0x4, 16)], [⟨0, 16, .s, 0, none⟩, ⟨16, 16, .s, 0, none⟩]⟩,
  ⟨.rtcCountLo, 0x50200, [], [⟨0, 32, .live, 0, none⟩]⟩,
  ⟨.rtcCountHi, 0x50204, [], [⟨0, 16, .cmd, 0, none⟩]⟩,
  ⟨.rtcAlarmLo, 0x50208, [], [⟨0, 32, .live, 0, none⟩]⟩,
  ⟨.rtcAlarmHi, 0x5020C, [], [⟨0, 16, .cmd, 0, none⟩]⟩,
  ⟨.rtcCtrl, 0x50210, [], [⟨0, 1, .live, 0, none⟩]⟩,
  ⟨.rtcStatus, 0x50214, [], [⟨0, 1, .live, 0, none⟩, ⟨1, 1, .live, 0, none⟩, ⟨2, 1, .ro, 0, none⟩]⟩]

/-- The TALLY block (R229, 09_tally). -/
def regsTally : List RegRow := [
  ⟨.tallySel, 0x60000, [], [⟨0, 12, .live, 0, none⟩, ⟨12, 3, .live, 0, none⟩, ⟨16, 16, .live, 0, none⟩]⟩,
  ⟨.tallyValLo, 0x60004, [], [⟨0, 32, .ro, 0, none⟩]⟩,
  ⟨.tallyValHi, 0x60008, [], [⟨0, 16, .ro, 0, none⟩]⟩,
  ⟨.snapAddrLo, 0x60010, [], [⟨6, 26, .live, 0, none⟩]⟩,
  ⟨.snapAddrHi, 0x60014, [], [⟨0, 32, .live, 0, none⟩]⟩,
  ⟨.snapLen, 0x60018, [], [⟨0, 24, .live, 0, none⟩]⟩,
  ⟨.snapCtrl, 0x6001C, [], [⟨0, 4, .cmd, 0, none⟩, ⟨16, 16, .cmd, 0, none⟩]⟩,
  ⟨.snapStatus, 0x60020, [], [⟨0, 2, .ro, 0, none⟩, ⟨4, 4, .ro, 0, none⟩, ⟨16, 16, .ro, 0, none⟩]⟩,
  ⟨.energyCtrl, 0x60040, [], [⟨0, 2, .s, 1, some (0, 2)⟩, ⟨2, 1, .s, 1, none⟩]⟩,
  ⟨.tallyStatus, 0x60044, [], [⟨0, 16, .ro, 0, none⟩]⟩,
  ⟨.islandIdle, 0x60100, [(0x4, 20)], [⟨0, 16, .ro, 0, none⟩]⟩,
  ⟨.islandPower, 0x60200, [(0x4, 20)], [⟨0, 16, .ro, 0, none⟩]⟩]

/-- The PAIR block (R259, 10_engine_pair). -/
def regsPair : List RegRow := [
  ⟨.pairMode, 0x70000, [], [⟨0, 1, .s, 0, none⟩, ⟨1, 1, .s, 0, none⟩]⟩,
  ⟨.pairSwap, 0x70004, [], [⟨0, 12, .s, 0xa, some (0, 3600)⟩]⟩,
  ⟨.pairGuard, 0x70008, [], [⟨0, 13, .s, 0x40, some (16, 4096)⟩]⟩,
  ⟨.pairCtrl, 0x7000C, [], [⟨0, 1, .s, 1, none⟩, ⟨1, 1, .s, 1, none⟩]⟩,
  ⟨.pairCmd, 0x70010, [], [⟨0, 2, .cmd, 0, none⟩, ⟨4, 1, .cmd, 0, none⟩]⟩,
  ⟨.pairStatus, 0x70014, [], [⟨0, 2, .ro, 1, none⟩, ⟨2, 3, .ro, 0, none⟩, ⟨8, 3, .ro, 0, none⟩, ⟨12, 3, .ro, 1,
    none⟩, ⟨16, 1, .ro, 1, none⟩, ⟨17, 1, .ro, 0, none⟩, ⟨18, 1, .ro, 0, none⟩]⟩,
  ⟨.pairLast, 0x70018, [], [⟨0, 4, .ro, 0, none⟩, ⟨16, 16, .ro, 0, none⟩]⟩,
  ⟨.pairHealthBist, 0x70020, [(0x10, 2)], [⟨0, 32, .ro, 0, none⟩]⟩,
  ⟨.pairHealthEcc, 0x70024, [(0x10, 2)], [⟨0, 16, .ro, 0, none⟩]⟩,
  ⟨.pairHealthFails, 0x70028, [(0x10, 2)], [⟨0, 8, .ro, 0, none⟩]⟩]

/-- The LOOKOUT block (R275, 11_lookout). -/
def regsLookout : List RegRow := [
  ⟨.loLCtrl, 0x78000, [], [⟨0, 16, .s, 0x3e8, some (1, 60000)⟩, ⟨16, 1, .s, 0, none⟩]⟩,
  ⟨.loFCtrl, 0x78004, [], [⟨0, 20, .s, 0x3e8, some (1, 1000000)⟩]⟩,
  ⟨.loSCtrl, 0x78008, [], [⟨0, 16, .s, 0x1388, some (1, 60000)⟩]⟩,
  ⟨.loCmd, 0x7800C, [], [⟨0, 3, .cmd, 0, none⟩, ⟨8, 1, .cmd, 0, none⟩]⟩,
  ⟨.loStatus, 0x78100, [(0x40, 5)], [⟨0, 2, .ro, 0, none⟩, ⟨2, 1, .ro, 0, none⟩, ⟨3, 1, .live, 0, none⟩]⟩,
  ⟨.loLastServeLo, 0x78108, [(0x40, 5)], [⟨0, 32, .ro, 0, none⟩]⟩,
  ⟨.loLastServeHi, 0x7810C, [(0x40, 5)], [⟨0, 32, .ro, 0, none⟩]⟩,
  ⟨.loWarnPc, 0x78110, [(0x40, 5)], [⟨0, 32, .ro, 0, none⟩]⟩,
  ⟨.loResetCause, 0x78114, [(0x40, 5)], [⟨0, 1, .ro, 0, none⟩, ⟨1, 1, .ro, 0, none⟩, ⟨2, 1, .ro, 0, none⟩, ⟨8, 1,
    .ro, 0, none⟩]⟩,
  ⟨.loWarnCount, 0x78118, [(0x40, 5)], [⟨0, 32, .ro, 0, none⟩]⟩,
  ⟨.loResetCount, 0x7811C, [(0x40, 5)], [⟨0, 32, .ro, 0, none⟩]⟩,
  ⟨.loBadServeCount, 0x78120, [(0x40, 5)], [⟨0, 32, .ro, 0, none⟩]⟩]

/-- The SUPPLY block (R292, 12_supply_and_backup_cell). -/
def regsSupply : List RegRow := [
  ⟨.supCtrl, 0x80000, [], [⟨0, 12, .s, 0x3e8, some (0, 2000)⟩, ⟨16, 1, .s, 1, none⟩]⟩,
  ⟨.supStatus, 0x80004, [], [⟨0, 1, .ro, 0, none⟩, ⟨1, 1, .ro, 0, none⟩]⟩,
  ⟨.supBulk, 0x80008, [], [⟨0, 16, .ro, 0, none⟩, ⟨16, 16, .ro, 0xffff, none⟩]⟩,
  ⟨.railStatus, 0x8000C, [], [⟨0, 6, .live, 0, none⟩]⟩,
  ⟨.aoBudget, 0x80010, [], [⟨0, 15, .s, 0x4650, some (5000, 19500)⟩, ⟨16, 8, .s, 0xa, some (0, 30)⟩]⟩,
  ⟨.aoStatus, 0x80014, [], [⟨0, 15, .ro, 0, none⟩, ⟨16, 1, .ro, 0, none⟩, ⟨17, 1, .ro, 0, none⟩]⟩,
  ⟨.cellStatus, 0x80018, [], [⟨0, 3, .ro, 0, none⟩, ⟨16, 16, .ro, 0, none⟩]⟩,
  ⟨.supCmd, 0x8001C, [], [⟨0, 1, .cmd, 0, none⟩]⟩,
  ⟨.supplyCount, 0x80020, [(0x4, 6)], [⟨0, 32, .ro, 0, none⟩]⟩]

/-- The TETHER block, part 1 (R355, 15_tether). -/
def regsTether1 : List RegRow := [
  ⟨.tetherCtrl, 0x88000, [], [⟨0, 1, .s, 1, none⟩, ⟨1, 1, .s, 0, none⟩, ⟨2, 6, .s, 0, none⟩, ⟨8, 1, .s, 1, none⟩]⟩,
  ⟨.tetherDelay, 0x88004, [], [⟨0, 9, .s, 0x64, some (0, 400)⟩]⟩,
  ⟨.tetherGsLead, 0x88008, [], [⟨0, 10, .s, 0x14, some (20, 1000)⟩]⟩,
  ⟨.tetherStatus, 0x8800C, [], [⟨0, 3, .ro, 0, none⟩, ⟨8, 6, .ro, 0, none⟩, ⟨16, 6, .ro, 0, none⟩, ⟨24, 6, .ro, 0,
    none⟩, ⟨30, 1, .ro, 0, none⟩, ⟨31, 1, .ro, 0, none⟩]⟩,
  ⟨.tetherSession, 0x88010, [], [⟨0, 8, .ro, 0, none⟩]⟩,
  ⟨.tetherPresentLo, 0x88014, [], [⟨0, 32, .ro, 0, none⟩]⟩,
  ⟨.tetherPresentHi, 0x88018, [], [⟨0, 32, .ro, 0, none⟩]⟩,
  ⟨.tetherPeerSel, 0x88020, [], [⟨0, 6, .live, 0, none⟩]⟩,
  ⟨.tetherPeerSerialLo, 0x88024, [], [⟨0, 32, .ro, 0, none⟩]⟩,
  ⟨.tetherPeerSerialHi, 0x88028, [], [⟨0, 32, .ro, 0, none⟩]⟩,
  ⟨.tetherPeerInfo, 0x8802C, [], [⟨0, 8, .ro, 0, none⟩, ⟨8, 1, .ro, 0, none⟩, ⟨9, 3, .ro, 0, none⟩]⟩,
  ⟨.tetherGsCmd, 0x88030, [], [⟨0, 2, .cmd, 0, none⟩, ⟨2, 2, .cmd, 0, none⟩]⟩,
  ⟨.tetherGsStatus, 0x88034, [], [⟨0, 3, .ro, 0, none⟩, ⟨8, 8, .ro, 0, none⟩, ⟨16, 6, .ro, 0, none⟩, ⟨24, 4, .ro, 0,
    none⟩]⟩,
  ⟨.tetherGsTLo, 0x88038, [], [⟨0, 32, .ro, 0, none⟩]⟩,
  ⟨.tetherGsTHi, 0x8803C, [], [⟨0, 32, .ro, 0, none⟩]⟩,
  ⟨.tetherTxCmd, 0x88040, [], [⟨0, 3, .cmd, 0, none⟩, ⟨8, 2, .cmd, 0, none⟩]⟩,
  ⟨.tetherTxData, 0x88100, [(0x40, 8), (0x4, 8)], [⟨0, 32, .live, 0, none⟩]⟩,
  ⟨.tetherTxLen, 0x88120, [(0x40, 8)], [⟨0, 6, .live, 0, none⟩]⟩,
  ⟨.tetherTxStatus, 0x88124, [(0x40, 8)], [⟨0, 3, .ro, 0, none⟩, ⟨8, 8, .ro, 0, none⟩]⟩,
  ⟨.tetherRxCount, 0x88300, [], [⟨0, 5, .ro, 0, none⟩]⟩,
  ⟨.tetherRxPop, 0x88304, [], [⟨0, 1, .cmd, 0, none⟩]⟩,
  ⟨.tetherRxHead, 0x88340, [], [⟨0, 6, .ro, 0, none⟩, ⟨8, 6, .ro, 0, none⟩, ⟨16, 8, .ro, 0, none⟩]⟩,
  ⟨.tetherRxTimeLo, 0x88344, [], [⟨0, 32, .ro, 0, none⟩]⟩,
  ⟨.tetherRxTimeHi, 0x88348, [], [⟨0, 32, .ro, 0, none⟩]⟩]

/-- The TETHER block, part 2 (R355, 15_tether). -/
def regsTether2 : List RegRow := [
  ⟨.tetherRxData, 0x88350, [(0x4, 8)], [⟨0, 32, .ro, 0, none⟩]⟩,
  ⟨.tetherCount, 0x88500, [(0x4, 12)], [⟨0, 32, .ro, 0, none⟩]⟩]

/-- The TETHER block. -/
def regsTether : List RegRow := regsTether1 ++ regsTether2

/-- The FOREMAN block (R323, 14_foreman). -/
def regsForeman : List RegRow := [
  ⟨.fmCtrl, 0x90000, [], [⟨0, 1, .s, 1, none⟩]⟩,
  ⟨.fmThermal, 0x90004, [], [⟨0, 7, .s, 0x5f, some (70, 105)⟩, ⟨8, 2, .ro, 0, none⟩]⟩,
  ⟨.fmMode, 0x90100, [(0x20, 28)], [⟨0, 1, .s, 0, none⟩, ⟨1, 1, .s, 0, none⟩]⟩,
  ⟨.fmFloor, 0x90104, [(0x20, 28)], [⟨0, 16, .s, 0, none⟩]⟩,
  ⟨.fmCeiling, 0x90108, [(0x20, 28)], [⟨0, 16, .s, 0, none⟩]⟩,
  ⟨.fmPin, 0x9010C, [(0x20, 28)], [⟨0, 16, .s, 0, none⟩]⟩,
  ⟨.fmDwell, 0x90110, [(0x20, 28)], [⟨0, 20, .s, 0, some (100, 1000000)⟩]⟩,
  ⟨.fmStatus, 0x90114, [(0x20, 28)], [⟨0, 16, .ro, 0, none⟩, ⟨16, 1, .ro, 0, none⟩, ⟨17, 1, .ro, 0, none⟩, ⟨18, 3,
    .ro, 0, none⟩]⟩,
  ⟨.fmChanges, 0x90118, [(0x20, 28)], [⟨0, 32, .ro, 0, none⟩]⟩]

/-- The LOGBOOK block (R369, 16_start_up_and_logbook). -/
def regsLogbook : List RegRow := [
  ⟨.startStatus, 0xA0000, [], [⟨0, 3, .ro, 0, none⟩, ⟨3, 1, .ro, 0, none⟩, ⟨4, 2, .ro, 0, none⟩, ⟨8, 4, .ro, 0,
    none⟩]⟩,
  ⟨.imageGen, 0xA0004, [], [⟨0, 32, .ro, 0, none⟩]⟩,
  ⟨.startTime, 0xA0008, [], [⟨0, 16, .ro, 0, none⟩]⟩,
  ⟨.logCmd, 0xA0010, [], [⟨0, 2, .cmd, 0, none⟩, ⟨2, 1, .cmd, 0, none⟩]⟩,
  ⟨.logStatus, 0xA0014, [], [⟨0, 2, .ro, 0, none⟩, ⟨4, 4, .ro, 0, none⟩, ⟨16, 8, .ro, 0x80, none⟩]⟩,
  ⟨.logRowSel, 0xA0018, [], [⟨0, 15, .live, 0, none⟩]⟩,
  ⟨.logRowStatus, 0xA001C, [], [⟨0, 1, .ro, 0, none⟩, ⟨1, 1, .ro, 0, none⟩, ⟨2, 1, .ro, 0, none⟩]⟩,
  ⟨.logRowData, 0xA0040, [(0x4, 16)], [⟨0, 32, .ro, 0, none⟩]⟩,
  ⟨.logHead, 0xA0088, [(0x4, 4)], [⟨0, 15, .ro, 0, none⟩, ⟨16, 8, .ro, 0, none⟩]⟩,
  ⟨.ledgerPeriod, 0xA00A0, [], [⟨0, 11, .s, 0x3c, some (1, 1440)⟩]⟩,
  ⟨.logbookRateDrop, 0xA00A4, [], [⟨0, 32, .ro, 0, none⟩]⟩,
  ⟨.sledReset, 0xA0100, [], [⟨0, 16, .cmd, 0, none⟩]⟩,
  ⟨.fwAddrLo, 0xA0200, [], [⟨0, 32, .live, 0, none⟩]⟩,
  ⟨.fwAddrHi, 0xA0204, [], [⟨0, 32, .live, 0, none⟩]⟩,
  ⟨.fwLen, 0xA0208, [], [⟨0, 25, .live, 0, none⟩]⟩,
  ⟨.fwCmd, 0xA020C, [], [⟨0, 2, .cmd, 0, none⟩]⟩,
  ⟨.fwStatus, 0xA0210, [], [⟨0, 1, .ro, 0, none⟩, ⟨1, 1, .ro, 0, none⟩, ⟨2, 2, .ro, 0, none⟩, ⟨4, 4, .ro, 0, none⟩,
    ⟨16, 16, .ro, 0, none⟩]⟩]

/-- The EVENTS block (R389, 18_register_map). -/
def regsEvents : List RegRow := [
  ⟨.evAlert, 0xF0000, [], [⟨0, 3, .s, 3, some (0, 4)⟩, ⟨8, 1, .ro, 0, none⟩]⟩,
  ⟨.evAlertAck, 0xF0004, [], [⟨0, 1, .cmd, 0, none⟩]⟩,
  ⟨.evSeq, 0xF0008, [], [⟨0, 16, .ro, 0, none⟩]⟩,
  ⟨.evLogSeq, 0xF000C, [], [⟨0, 32, .ro, 0, none⟩]⟩,
  ⟨.evTest, 0xF0010, [], [⟨0, 16, .cmd, 0, none⟩]⟩]

/-- The block of an offset (Table 18-1, R380, 18_register_map). -/
def regBlock (off : Nat) : List RegRow :=
  if off < 0x1000 then regsIdent
  else if off < 0x2000 then regsCommit
  else if off < 0x4000 then regsPower
  else if off < 0x10000 then regsHostlink
  else if off < 0x20000 then regsRings
  else if off < 0x30000 then regsFilters
  else if off < 0x40000 then regsSched
  else if off < 0x50000 then regsMac
  else if off < 0x60000 then regsTime
  else if off < 0x70000 then regsTally
  else if off < 0x78000 then regsPair
  else if off < 0x80000 then regsLookout
  else if off < 0x88000 then regsSupply
  else if off < 0x90000 then regsTether
  else if off < 0xA0000 then regsForeman
  else if off < 0xF0000 then regsLogbook
  else regsEvents

/-- The indices of an offset relative to the base of an array; none where it is outside every element (R382,
18_register_map). -/
def regIndices : List (Nat × Nat) → Nat → Option (List Nat)
  | [], rel => if rel = 0 then some [] else none
  | (stride, count) :: r, rel =>
    if rel / stride < count then (regIndices r (rel % stride)).map (fun l => rel / stride :: l) else none

/-- The first row of a list that holds an offset, with its indices. -/
def regFind : List RegRow → Nat → Option (RegRow × List Nat)
  | [], _ => none
  | r :: rest, off =>
    if off < r.base then regFind rest off
    else match regIndices r.dims (off - r.base) with
      | some ix => some (r, ix)
      | none => regFind rest off

/-- The register at an offset of OF BAR0; none where the offset is reserved (R382, 18_register_map). -/
def regAt (off : Nat) : Option (RegRow × List Nat) := if off < 0x100000 then regFind (regBlock off) off else none

/-- One row of Table 14-1 (R312, R323, 14_foreman): the base at reset, LOOP_EN, FLOOR, CEILING and DWELL in µs. Exponents
are 16-bit two's complement. -/
structure KnobRow where
  base    : Int
  loopOn  : Bool
  floor   : Int
  ceiling : Int
  dwell   : Nat
deriving DecidableEq, Repr

/-- The rows of Table 14-1 (R312, 14_foreman). -/
def knobRow (k : Nat) : KnobRow :=
  if k < 7 then ⟨800, true, 200, 800, 1000⟩
  else if k = 7 then ⟨50, true, 10, 1000, 100000⟩
  else if k = 8 then ⟨20, true, 5, 1000, 1000000⟩
  else if k < 17 then ⟨-1, false, -4, 3, 10000⟩
  else if k = 17 then ⟨16, true, 1, 16, 10000⟩
  else if k = 18 then ⟨100, true, 25, 100, 1000000⟩
  else ⟨0, false, 0, 2, 100000⟩

/-- The reset word of a register whose reset value depends on its index: RING_ALLOC (R129, 05_rings_and_doorbells) and the
FM registers (R323, 14_foreman). Function 0x40 + n is index 64 + n. -/
def resetByIndex (r : Reg) (i : Nat) : Option Nat :=
  let k := knobRow i
  match r with
  | .ringAlloc =>
    if i < 64 then some ((128 + 8 * i) + (128 + 8 * i) * 2 ^ 10 + (128 + 2 * i) * 2 ^ 20)
    else some (32 * (i - 64) + 32 * (i - 64) * 2 ^ 10 + 32 * (i - 64) * 2 ^ 20)
  | .fmMode => some (ofBool k.loopOn)
  | .fmFloor => some (unsigned 16 k.floor)
  | .fmCeiling => some (unsigned 16 k.ceiling)
  | .fmPin => some (unsigned 16 k.base)
  | .fmDwell => some k.dwell
  | _ => none

/-- The word that the fields' reset values make. -/
def fieldsReset : List RField → Nat
  | [] => 0
  | f :: r => f.reset * 2 ^ f.lo + fieldsReset r

/-- The reset value of a set-up word, by its key in the active table (R12, R382). Keys from 0x100000 on are the
per-function copies of the windows behind RX_FN_SEL, which reset to 0 (R181, 07_receive). -/
def resetWord (off : Nat) : Word :=
  match regAt off with
  | none => 0
  | some (r, ix) => BitVec.ofNat 32 ((resetByIndex r.reg (ix.headD 0)).getD (fieldsReset r.fields))

/-- The bits of a register that belong to fields of the classes a test accepts. -/
def clsMask (p : RCls → Bool) : List RField → Nat
  | [] => 0
  | f :: r => (if p f.cls then (2 ^ f.n - 1) * 2 ^ f.lo else 0) + clsMask p r

/-- The bits of a register that a write stages (R12, 00_scope). -/
def stagedMask (r : RegRow) : Nat := clsMask (fun c => c = .s ∨ c = .k) r.fields

/-- The bits of a register that hold K fields (R17, 00_scope). -/
def lockedMask (r : RegRow) : Nat := clsMask (fun c => c = .k) r.fields

/-- The bits of a command register's fields. -/
def commandMask (r : RegRow) : Nat := clsMask (fun c => c = .cmd) r.fields

/-- Whether a field's value in a word lies in the range of its home table (R14, 00_scope). -/
def RField.inRange (f : RField) (word : Nat) : Bool :=
  match f.range with
  | none => true
  | some (lo, hi) =>
    let v : Int := if lo < 0 then signed f.n (bits word f.lo f.n) else (bits word f.lo f.n : Nat)
    decide (lo ≤ v) && decide (v ≤ hi)

end Sys2Proof.Machine
end

