-- ==== Sys2Proof/Machine/Tbl.lean ====
section
/-! DEFINITION. Sparse tables: lists of (key, value) pairs with strictly rising keys and no entry equal to the default of
its key, so that equal tables are equal data. The counters, the register words, the functions, the rings and the Logbook
memory are such tables. -/
namespace Sys2Proof.Machine

variable {α : Type}

/-- The listed value of a key, if any. -/
def Tbl.find (t : List (Nat × α)) (k : Nat) : Option α :=
  match t with
  | [] => none
  | (j, v) :: r => if j = k then some v else Tbl.find r k

/-- The value of a key: the listed one, or the default `d k`. -/
def Tbl.get (d : Nat → α) (t : List (Nat × α)) (k : Nat) : α := (Tbl.find t k).getD (d k)

/-- The table without an entry for a key. -/
def Tbl.erase (t : List (Nat × α)) (k : Nat) : List (Nat × α) :=
  match t with
  | [] => []
  | (j, v) :: r => if j = k then Tbl.erase r k else (j, v) :: Tbl.erase r k

/-- The table with an entry for a key, in its place in the order. -/
def Tbl.insert (t : List (Nat × α)) (k : Nat) (v : α) : List (Nat × α) :=
  match t with
  | [] => [(k, v)]
  | (j, w) :: r => if k < j then (k, v) :: (j, w) :: r else if j = k then (k, v) :: r else (j, w) :: Tbl.insert r k v

/-- Writing a value: a value equal to the default removes the entry. -/
def Tbl.put [DecidableEq α] (d : Nat → α) (t : List (Nat × α)) (k : Nat) (v : α) : List (Nat × α) :=
  if v = d k then Tbl.erase t k else Tbl.insert t k v

/-- Changing the value of a key. -/
def Tbl.modify [DecidableEq α] (d : Nat → α) (t : List (Nat × α)) (k : Nat) (f : α → α) : List (Nat × α) :=
  Tbl.put d t k (f (Tbl.get d t k))

/-- The keys rise strictly from `lo` on, and no entry holds its default. -/
def Tbl.wfFrom [DecidableEq α] (d : Nat → α) (lo : Nat) (t : List (Nat × α)) : Bool :=
  match t with
  | [] => true
  | (j, v) :: r => decide (lo ≤ j) && decide (v ≠ d j) && Tbl.wfFrom d (j + 1) r

/-- The canonical form of a table. -/
def Tbl.wf [DecidableEq α] (d : Nat → α) (t : List (Nat × α)) : Bool := Tbl.wfFrom d 0 t

end Sys2Proof.Machine
end

