-- ==== Sys2Proof/Machine/Types.lean ====
section
/-! DEFINITION. The parts of the state, one structure for each block of the sled. Each field's comment gives its width,
the rule that names it with the number of its section file, and its value at reset. Sparse tables are lists of (key,
value) pairs with strictly rising keys and no entry equal to the table's default (Machine/Tbl.lean). Device time is
counted in units of 2^-32 ns (section 2.1); an instant or a duration in these units is written "u". -/
namespace Sys2Proof.Machine

/-! ### Set-up (00_scope) -/

/-- A staged word: which of its bits have been written, and their values. -/
structure StagedW where
  mask : Word
  val  : Word
deriving DecidableEq, Repr

/-- One flow-table entry (Table 7-12, FLOW_ACTION): the 40-byte key and the local ring. -/
structure FlowEntry where
  key  : Bytes
  ring : Nat
deriving DecidableEq, Repr

/-- A set sealed by a COMMIT (R12): its SEQ, its staged words, its flow-table writes, whether a DISCARD has been
accepted since it was sealed (R14), and whether COMMIT_DEFERRED has been raised for it (R19). -/
structure SealedSet where
  seq       : Nat
  words     : List (Nat × StagedW)
  flows     : List (Nat × Option FlowEntry)
  discarded : Bool
  deferred  : Bool
deriving DecidableEq, Repr

/-- STATE of COMMIT_STATUS (Table 0-8). -/
inductive CommitState where
  | idle | pending | deferred | refused
deriving DecidableEq, Repr

structure SetupSt where
  active     : List (Nat × Word)       -- 32 bit a word; R12, 00; reset: empty, every S and K field at its table's value
  staged     : List (Nat × StagedW)    -- 32 bit a word; R12, 00; reset: empty
  pendingSet : Option SealedSet        -- R13, 00; reset: none
  queuedSet  : Option SealedSet        -- R21, 00; reset: none
  flows      : List (Nat × FlowEntry)  -- 8,192 entries; R167, 07; reset: empty
  flowStaged : List (Nat × Option FlowEntry) -- R181, 07; reset: empty
  seq        : Nat                     -- 16 bit COMMIT_DOORBELL.SEQ; R22, 00; reset 0
  appliedSeq : Nat                     -- 16 bit APPLIED_SEQ; R22, 00; reset 0
  state      : CommitState             -- 2 bit STATE; R22, 00; reset Idle
  faultOff   : Nat                     -- 20 bit COMMIT_FAULT.OFFSET; R22, 00; reset 0
  faultWhy   : Nat                     -- 4 bit COMMIT_FAULT.REASON; R22, 00; reset 0
  lock       : Bool                    -- SETUP_LOCK.LOCK; R17, 00; reset 0
  cmds       : List (Nat × Word)       -- fields of the command registers as last written, by offset, of OF n from 2^20 x n on where each OF has its own; R12, 00; reset 0
  rejects    : Nat                     -- 32 bit SETUP_REJECT_COUNT, saturating; R17, 00; reset 0
  flowKey    : List (Nat × Word)       -- 10 x 32 bit FLOW_KEY; R181, 07; reset 0
  flowRing   : Nat                     -- 5 bit FLOW_ACTION.RING; R181, 07; reset 0
  flowValid  : Bool                    -- FLOW_ACTION.VALID; R181, 07; reset 0
  flowResult : Nat                     -- 2 bit FLOW_STATUS.RESULT; R181, 07; reset 0
deriving DecidableEq, Repr

/-! ### Registers held separately for each OF (R383, 18_register_map) -/

/-- A snapshot in progress (R220 to R222): its SET and SEQ, the buffer's address, the header and the entries as of s, its STATUS word, and
the J-cycle whose start its values stand at. -/
structure Snapshot where
  set    : Nat
  seq    : Nat
  addr   : Nat
  header : Bytes
  body   : List Nat
  status : Nat
  upto   : Nat
deriving DecidableEq, Repr

structure OfSt where
  activeView : Bool               -- COMMIT_VIEW; R22, 00; reset 0
  timeLatch  : Nat                -- 96 bit TIME_NOW latch; R43, 02; reset 0
  tallyObj   : Nat                -- 12 bit TALLY_SEL.OBJECT; R229, 09; reset 0
  tallyCls   : Nat                -- 3 bit TALLY_SEL.CLASS; R229, 09; reset 0
  tallyCode  : Nat                -- 16 bit TALLY_SEL.CODE; R229, 09; reset 0
  tallyLatch : Nat                -- 48 bit TALLY_VAL latch; R219, 09; reset 0
  snapAddr   : Nat                -- 64 bit SNAP_ADDR; R229, 09; reset 0
  snapLen    : Nat                -- 24 bit SNAP_LEN; R229, 09; reset 0
  snapSet    : Nat                -- 4 bit SNAP_CTRL.SET; R229, 09; reset 0
  snapSeq    : Nat                -- 16 bit SNAP_STATUS.SEQ; R229, 09; reset 0
  snapState  : Nat                -- 2 bit SNAP_STATUS.STATE; R229, 09; reset 0
  snapWhy    : Nat                -- 4 bit SNAP_STATUS.REASON; R229, 09; reset 0
  snapNow    : Option Snapshot    -- the snapshot in progress; R221, 09; reset none
  snapPrev   : List (Nat × Nat)   -- per set, the J-cycle p of the previous completed snapshot; R222, 09; reset 0
  rxFnSel    : Nat                -- 7 bit RX_FN_SEL; R181, 07; reset 0
  peerSel    : Nat                -- 6 bit TETHER_PEER_SEL; R355, 15; reset 0
  rowSel     : Nat                -- 15 bit LOG_ROW_SEL; R369, 16; reset 0
  fwAddr     : Nat                -- 64 bit FW_ADDR; R369, 16; reset 0
  fwLen      : Nat                -- 25 bit FW_LEN; R369, 16; reset 0
  evSeq      : Nat                -- 16 bit EV_SEQ, next SEQ of this OF; R121, 05; reset 0
  evLost     : Nat                -- records discarded since the last EVENT_LOST; R122, 05; reset 0
  evFirst    : Nat                -- 16 bit first SEQ lost; R122, 05; reset 0
deriving DecidableEq, Repr

/-! ### Time (02_time_and_windows) -/

/-- TIME_STATUS.SOURCE (Table 2-4). -/
inductive TimeSource where
  | freeRun | ptp | ptm | tether | holdover | restored
deriving DecidableEq, Repr

structure TimeSt where
  now      : Nat               -- 96 bit device time and 16 more bits of fraction, in u; R40 to R42, 02; reset 0 (DESIGN CHOICE, log 3)
  elapsed  : Nat               -- advance of device time by increments alone, in u, for durations; R56, 02; reset 0 (DESIGN CHOICE, log 3)
  jcycle   : Nat               -- number of the J-cycle; R7, 00; reset 0 (DESIGN CHOICE, log 3)
  rate     : Int               -- the rate in force, signed, 2^-32 ns a J-cycle; R41, 02; reset 0
  rateOp   : Word              -- 32 bit TIME_RATE operand; R62, 02; reset 0
  setOp    : List (Nat × Word) -- 3 x 32 bit TIME_SET; R62, 02; reset 0
  stepOp   : List (Nat × Word) -- 2 x 32 bit TIME_STEP; R62, 02; reset 0
  ctrlAct  : Nat               -- 2 bit TIME_CTRL.ACTION last written; R62, 02; reset 0
  ctrlSrc  : Nat               -- 2 bit TIME_CTRL.SOURCE last written; R62, 02; reset 3
  source   : TimeSource        -- 3 bit TIME_STATUS.SOURCE; R46, 02; reset Free-run
  valid    : Bool              -- TIME_STATUS.VALID; R54, 02; reset 0
  accepted : Bool              -- an adjustment has been accepted since the cold start; R46, 02; reset 0
  due      : List (Nat × Int)  -- actions accepted in this J-cycle, with their operands, that take effect in the next; R47, 02; reset none
  curSrc   : Nat               -- code of the current source, in the record of R60; R44, 02; reset 0
  current  : Option Nat        -- close, in u of `elapsed`, of the current source's TIME_HOLD window; R44, 02; reset none
  steps    : Nat               -- 32 bit TIME_STEP_COUNT, saturating; R59, 02; reset 0
  ignored  : Nat               -- 32 bit TIME_ADJ_IGNORED, saturating; R60, 02; reset 0
deriving DecidableEq, Repr

structure RtcSt where
  count    : Nat   -- 48 bit RTC_COUNT; R52, 02; reset: the saved value, 0 where nothing was saved (DESIGN CHOICE, log 4)
  phase    : Nat   -- part of a tick gone by, in 1/390,625 ticks; R52, 02; reset 0 (DESIGN CHOICE, log 4)
  latchHi  : Nat   -- 16 bit latch of RTC_COUNT_HI; R62, 02; reset 0
  loadLo   : Word  -- 32 bit RTC_COUNT_LO as written; R62, 02; reset 0
  alarmLo  : Word  -- 32 bit RTC_ALARM_LO as written; R62, 02; reset 0
  alarm    : Nat   -- 48 bit alarm value; R52, 02; reset 0
  armed    : Bool  -- an alarm has been written and not disarmed; R52, 02; reset 0
  alarmEn  : Bool  -- RTC_CTRL.ALARM_EN; R62, 02; reset 0
  fired    : Bool  -- RTC_STATUS.FIRED; R62, 02; reset 0
  past     : Bool  -- RTC_STATUS.PAST; R52, 02; reset 0
  valid    : Bool  -- RTC_STATUS.VALID; R54, 02; reset 0
  pairD    : Nat   -- D or D0 of the recorded pair, in u; R53, R358, 02 and 16; reset 0 (DESIGN CHOICE, log 4)
  pairC    : Nat   -- 48 bit C or C0 of the recorded pair; R53, R358, 02 and 16; reset 0 (DESIGN CHOICE, log 4)
  savedC   : Nat   -- 48 bit RTC_COUNT of the last shutdown record; R54, 02; reset 0 (DESIGN CHOICE, log 4)
  savedD   : Nat   -- D0 of that record, in u; R54, 02; reset 0 (DESIGN CHOICE, log 4)
  savedP   : Nat   -- 48 bit C0 of that record; R54, 02; reset 0 (DESIGN CHOICE, log 4)
deriving DecidableEq, Repr

/-! ### Host links and functions (04_host_links) -/

structure LinkSt where
  up    : Bool  -- DL_Up on the link or half; R83, 04; reset down
  speed : Nat   -- 4 bit HL_STATUS SPEED; R102, 04; reset 0
  width : Nat   -- 4 bit HL_STATUS WIDTH; R102, 04; reset 0
  l12   : Bool  -- the link is in L1.2; R302, 13; reset 0
deriving DecidableEq, Repr

/-- FN_STATE (Table 4-13). -/
inductive FnState where
  | absent | idle | checking | enrolled | evicting | quarantined | disabled
deriving DecidableEq, Repr

/-- What a mailbox request in progress still waits for: its own check, the enrolment record, with the record that has passed the end of
the J-cycle (R101), the end of the eviction of a LEAVE or of a re-enrolment (with the ENROL's OPERAND0 and OPERAND1), or the end of a
RING_DESTROY (kind and local index). -/
inductive MbxWait where
  | check | enrol | enrolled (record : Bytes) | leave | reenrol (op0 op1 : Nat) | destroy (kind loc : Nat)
deriving DecidableEq, Repr

structure FnSt where
  state     : FnState           -- 3 bit FN_STATE; R92, 04; reset Absent
  gen       : Nat               -- 8 bit FN_GEN; R92, 04; reset 0
  cause     : Nat               -- 8 bit last eviction cause; R102, 04; reset 0
  evT0      : Nat               -- 64 bit t0 of the eviction in progress; R98, 04; reset 0
  evCause   : Nat               -- cause of the eviction in progress; R98, 04; reset 0
  vfEn      : Bool              -- VF Enable, of a physical function; R81, 04; reset 0
  numVfs    : Nat               -- 5 bit NumVFs, of a physical function; R81, 04; reset 0 (PRESUMED, log 5)
  mrrs      : Nat               -- 3 bit max read request size, 128 x 2^mrrs bytes, of a physical function; R79, 04; reset 2 (PRESUMED, log 5)
  d0        : Bool              -- function in D0; R81, 04; reset 1 (DESIGN CHOICE, log 5)
  bme       : Bool              -- Bus Master Enable; R81, 04; reset 0 (DESIGN CHOICE, log 5)
  msixEn    : Bool              -- MSI-X Enable; R79, 04; reset 0 (DESIGN CHOICE, log 5)
  ro        : Bool              -- Relaxed Ordering Enable; R79, 04; reset 0 (DESIGN CHOICE, log 5)
  msixMask  : BitVec 64         -- MSI-X vector mask bits; R80, R114, 04 and 05; reset all 1 (PRESUMED, log 5)
  msixPend  : BitVec 64         -- MSI-X pending-bit array; R80, 04; reset 0
  msixAddr  : List (Nat × Nat)  -- 64 bit message address by vector; R80, 04; reset 0 (PRESUMED, log 5)
  msixData  : List (Nat × Nat)  -- 32 bit message data by vector; R80, 04; reset 0 (PRESUMED, log 5)
  req       : List (Nat × Word) -- 32 bytes mailbox request record; R84, R102, 04; reset 0
  replySeq  : Nat               -- 8 bit MBX_STATUS.REPLY_SEQ; R86, 04; reset 0
  busy      : Bool              -- MBX_STATUS.BUSY; R85, 04; reset 0
  goSeq     : Nat               -- 8 bit SEQ of the request in progress; R86, 04; reset 0
  goOp      : Nat               -- 8 bit OPCODE of the request in progress; R86, 04; reset 0
  wait      : Option MbxWait    -- what the request in progress waits for; R86, 04; reset none
  reply     : Bytes             -- 32 bytes reply record, empty for all zeros; R84, 04; reset 0
  grantTx   : Nat               -- 8 bit granted transmit rings; R92, 04; reset 0
  grantRx   : Nat               -- 8 bit granted receive rings; R92, 04; reset 0
  grantCq   : Nat               -- 8 bit granted completion queues; R92, 04; reset 0
  fenceN    : Nat               -- violations in the current second; R97, 04; reset 0
  fenceWin  : Nat               -- index k of that second; R97, 04; reset 0
  seen      : Bool              -- PROF_CTRL.SEEN; R90, 04; reset 0
  tagSeen   : Nat               -- 64 bit IMAGE_TAG_SEEN; R90, 04; reset 0
  tbLevel   : Int               -- token level in 1/(8,000 x 2^32) byte; R135, 06; reset 0
  tbAt      : Nat               -- `elapsed` u at which tbLevel held; R135, 06; reset 0
  throttled : List Nat          -- rings whose head frame the bucket has deferred; R135, 06; reset none
deriving DecidableEq, Repr

/-! ### Rings, queues and the check-value units (03_check_values, 05_rings_and_doorbells) -/

inductive RingState where
  | unused | active | closing
deriving DecidableEq, Repr

/-- A transmit descriptor after its check (Table 5-6). -/
structure TxDesc where
  pos     : Nat
  addr    : Nat
  len     : Nat
  flags   : Nat
  tci     : Nat
  mss     : Nat
  l3      : Nat
  l4      : Nat
  hdr     : Nat
  sendLen : Nat
  cookie  : Nat
  rsv     : Bool    -- bytes 28 and 29 are not 0
  ok      : Bool    -- the check verified
deriving DecidableEq, Repr

/-- Where a send stands between its descriptors and its completion (R110, R118, R133, R150). -/
inductive SendSt where
  | reads             -- its descriptors passed; its buffer reads wait under R136
  | filling           -- buffer reads are outstanding
  | ready             -- every byte is held, and the tests of Table 6-4 have passed
  | granted (k : Nat) -- segments 0 to k - 1 have been granted
  | done              -- its completion can be written in ring order
deriving DecidableEq, Repr

structure Send where
  first   : Nat            -- position of its first descriptor
  last    : Nat            -- position of its last descriptor
  descs   : List TxDesc    -- its descriptors in ring order
  data    : List (Nat × Bytes)  -- bytes held, by descriptor index x 2^17 + offset in its buffer
  st      : SendSt
  sent    : Nat            -- frames departed
  status  : Nat            -- status of Table 5-10
  len     : Nat            -- wire length summed over its frames
  time64  : Nat            -- departure of its first frame
  late    : Bool           -- a recall covered it after its grant
  skip    : Bool           -- one-step was skipped (R61)
  reissue : Bool           -- sent again after a warm hand-over (R245)
  rsvCq   : Bool           -- its completion-queue entry is reserved (R111)
deriving DecidableEq, Repr

structure TxRing where
  state : RingState        -- 2 bit STATE; Table 5-15, 05; reset Unused
  fn    : Nat              -- owning function
  base  : Nat              -- 64 bit ring base address
  size  : Nat              -- 4 bit SIZE, N = 64 x 2^size
  cq    : Nat              -- sled-wide number of the bound completion queue
  inst  : Nat              -- MAC instance
  cls   : Nat              -- traffic class
  c     : Nat              -- position C
  h     : Nat              -- position H
  f     : Nat              -- next position to fetch
  cur   : List TxDesc      -- descriptors of the send being assembled
  recalls : List (Nat × Nat) -- positions [R, H) of the recalls accepted; R118, R119, 05
  sends : List Send        -- sends in ring order
  reTo  : Option Nat       -- after a warm hand-over, the end of the slots that had been fetched (R245)
  commit : Nat             -- mirrored commit position (Table 10-3)
deriving DecidableEq, Repr

/-- A receive slot after its check (R112): a good buffer (`hole` 0), a hole with its status, a buffer taken by the frame being written (254),
completed with a frame (255), or used by the incoming engine of a warm hand-over, which completes it later (253; R243, 10). -/
structure RxSlot where
  pos    : Nat
  addr   : Nat
  len    : Nat
  cookie : Nat
  hole   : Nat
deriving DecidableEq, Repr

/-- The fields of a completion (Table 5-9); `flags` without PHASE. -/
structure Cpl where
  time64 : Nat
  aux    : Nat
  src    : Nat
  slot   : Nat
  status : Nat
  nbuf   : Nat
  flags  : Nat
  len    : Nat
  tci    : Nat
  cookie : Nat
  port   : Nat
deriving DecidableEq, Repr

structure RxRing where
  state : RingState        -- 2 bit STATE; Table 5-15, 05; reset Unused
  fn    : Nat
  base  : Nat
  size  : Nat
  cq    : Nat
  early : Bool             -- EARLY; R115, R116, 05
  c     : Nat              -- position C
  h     : Nat              -- position H
  f     : Nat              -- next position to fetch
  slots : List RxSlot      -- checked slots in [C, f), in ring order
  wait  : List Nat         -- identifiers of the Hamper frames waiting, in arrival order (R117)
  tw    : Option (Nat × Nat) -- opening, in u of `elapsed`, and length in u of the RX_WAIT window of the head frame (R125, R56)
  due   : Option Nat       -- the window has closed while slots handed inside it, before this position, were still being fetched (R125)
  guard : Option Nat       -- the guard slot of a Drain-overlap hand-over, while the drain runs (R243, 10)
  ret   : Option Nat       -- the guard slot up to which unused buffers are still to be returned (R243, 10)
  inc   : List (Cpl × Nat) -- completions that wait behind the returned buffers, each with its slots (R243, 10)
deriving DecidableEq, Repr

structure CqRing where
  state    : RingState     -- 2 bit STATE; Table 5-15, 05; reset Unused
  fn       : Nat
  base     : Nat
  size     : Nat
  vector   : Nat           -- MSI-X vector
  modCount : Nat           -- 8 bit MOD_COUNT
  modTime  : Nat           -- 10 bit MOD_TIME in microseconds
  w        : Nat           -- position W
  c        : Nat           -- position C
  armed    : Bool          -- ARMED; R114, 05; reset 0
  unsig    : Nat           -- unsignalled completions
  t1       : Nat           -- `elapsed` u of the first unsignalled completion
  tSum     : Nat           -- sum of the `elapsed` u of the unsignalled completions; Table 14-1, 14; reset 0
  t1Len    : Nat           -- length in u of the MOD_TIME window that it opened (R114, R56)
  reserved : Nat           -- entries reserved under R111 and R116
deriving DecidableEq, Repr

/-- What a DMA read was issued for. -/
inductive ReadKind where
  | txDesc (ring pos count : Nat) | rxDesc (ring pos count : Nat)
  | txBuf (ring first key : Nat) | enrol | firmware
deriving DecidableEq, Repr

structure ReadReq where
  tag  : Nat
  fn   : Nat
  kind : ReadKind
  addr : Nat
  len  : Nat
  void : Bool              -- marked void by eviction step 5, or timed out
  timedOut : Bool          -- the request's completion timeout has expired
deriving DecidableEq, Repr

/-- The bindings of an inbound check-value unit (Table 3-4): a transmit or a receive descriptor with its ring and position, a mailbox request
record, and an enrolment record. -/
inductive MsgKind where
  | tx (ring pos : Nat) | rx (ring pos : Nat) | mailbox (req : MbxReq) | enrol
deriving DecidableEq, Repr

/-- One complete message waiting for, or in, an inbound check-value unit (R69). -/
structure Msg where
  fn   : Nat
  kind : MsgKind
  data : Bytes
deriving DecidableEq, Repr

/-- A busy inbound unit (R68): its message, and its running register once the message and both folds have passed through it. -/
structure Cvu where
  msg : Msg
  reg : Nat
deriving DecidableEq, Repr

/-- A read request that waits for a free tag (R79; R404, 05). -/
structure ReadAsk where
  fn   : Nat
  kind : ReadKind
  addr : Nat
  len  : Nat
deriving DecidableEq, Repr

structure HostSt where
  reads   : List ReadReq       -- outstanding read requests; at most 768 for each link or half; R79, 04; reset none
  asks    : List ReadAsk       -- read requests that wait for a tag, in arrival order; R79, R404, 04 and 05; reset none
  msgs    : List Msg           -- complete messages in the descriptor cache; R69, 03; reset none
  units   : List (Nat × Cvu)   -- the 16 inbound check-value units that are busy; R68, 03; reset none
  lastFn  : Nat                -- function served last in the round robin; R69, 03; reset 67 (DESIGN CHOICE, log 6)
deriving DecidableEq, Repr

/-! ### Transmit scheduler (06_transmit) -/

/-- A granted frame: its ring, the send's first position, the segment number, the class, its departure time in u, its
bytes without FCS, and the function it is charged to. `quiet` marks a frame of an evicted function,
which completes nothing (R98 step 3). -/
structure CurFrame where
  ring  : Nat
  first : Nat
  seg   : Nat
  cls   : Nat
  at_   : Nat
  start : Nat              -- its departure in u of `elapsed`
  bytes : Bytes
  flags : Nat              -- FLAGS of its send's first descriptor (Table 5-7)
  padded : Bool            -- padding was added
  fn    : Nat
  quiet : Bool
  held  : Bool             -- its grant was kept through a Down (R188)
deriving DecidableEq, Repr

/-- A gate control list in force or pending (R139, R140): entries of (gates, interval in ns), the cycle in ns, the base
in ns of device time, the instant in u at which it starts, and the cycle number it starts with. -/
structure GateList where
  entries : List (Nat × Nat)
  cycle   : Nat
  base    : Nat
  start   : Nat
deriving DecidableEq, Repr

/-- A control frame that waits to depart (R197): a PFC or PAUSE frame with its vector and quanta, or an LLDPDU. -/
inductive CtrlFrame where
  | pfc (vector : Nat) (quanta : Nat) | pause (quanta : Nat) | lldp
deriving DecidableEq, Repr

structure SchInst where
  cur     : Option CurFrame        -- current frame; R131, 06; reset none
  free    : Nat                    -- end of the last frame plus its gap, in u of `elapsed`; R131, 06; reset 0
  sending : Option (Nat × Nat × Nat) -- class of the last frame departed, and the start and the end of its transmission in u of `elapsed`; R137, 06; reset none
  idle    : Option (Nat × Nat)     -- t and the length, in u of `elapsed`, of the LPI_IDLE window in progress; R201, 08; reset none
  oper    : Option GateList        -- operating list; R139, 06; reset none
  pend    : Option GateList        -- pending list; R140, 06; reset none
  entry   : Nat                    -- 8 bit GCL_STATUS.ENTRY; R157, 06; reset 0
  gates   : Nat                    -- 8 gate bits in force; R139, 06; reset 0xFF
  stuck   : Nat                    -- 8 bit GCL_STATUS.STUCK; R155, 06; reset 0
  lastFn  : List (Nat × Nat)       -- per class, function being served; R134, 06; reset 0 (DESIGN CHOICE, log 7)
  lastRg  : List (Nat × Nat)       -- per class and function, ring served last; Table 6-1, 06; reset 0 (DESIGN CHOICE, log 7)
  deficit : List (Nat × Nat)       -- per class and function, deficit in bytes; R134, 06; reset 0
  credit  : List (Nat × Int)       -- per class, credit in 2^-32 x 10^-3 bit; R137, 06; reset 0
  creditAt : List (Nat × Nat)      -- per class, `elapsed` u of that credit; R137, 06; reset 0
  deferAt : List (Nat × Nat)       -- per class, close of the window already counted in GATE_DEFER; R130, 06; reset none
  ctrl    : List CtrlFrame         -- control frames waiting; R197, 08; reset none
  wakeReq : Option Nat             -- a wake request's instant, in u of `elapsed`; R143, R202, 06 and 08; reset none
deriving DecidableEq, Repr

/-! ### The Hamper (07_receive) -/

/-- One function's copy of a received frame. -/
structure RxCopy where
  fn      : Nat
  ring    : Nat            -- sled-wide receive ring
  flowHit : Bool
  hash    : Option Nat     -- Toeplitz result where it is computed
  strip   : Nat            -- 0 none, otherwise 1 + offset of the C-tag to strip
  tci     : Nat
  stag    : Bool           -- the outer S-tag is stripped (R171)
  store   : Bool           -- delivered in Store mode whatever its ring's mode (R161)
  dma     : Bool           -- Early-mode DMA has begun
  written : Nat            -- bytes written so far
  slotsN  : Nat            -- buffers taken so far
  lastPos : Nat            -- position of the last buffer taken
  cookie  : Nat            -- cookie of the first buffer taken
  reserve : Bool           -- held in the management reserve
deriving DecidableEq, Repr

structure HFrame where
  id      : Nat
  inst    : Nat
  cls     : Nat
  bytes   : Bytes          -- the frame without its FCS, truncated to the limit
  wireLen : Nat            -- L on the wire
  time64  : Nat
  fcs     : Nat            -- FCS field of the completion
  oversize : Bool           -- OVERSIZE
  l3      : Nat
  l4      : Nat
  copies  : List RxCopy
  pipeAt  : Nat            -- `elapsed` u at which its port's pipeline takes it up; R370, 17
  pipeTo  : Nat            -- `elapsed` u at which the pipeline has done with it; R370, 17
  inc     : Bool           -- held by the incoming engine of a planned warm hand-over (R246, 10)
  pool    : Nat            -- cells from the shared pool
  head    : Nat            -- cells from the headroom
  resv    : Nat            -- cells from the management reserve
deriving DecidableEq, Repr

structure HamperSt where
  frames : List HFrame         -- frames held, in arrival order; R172, 07; reset none
  nextId : Nat                 -- next frame identifier, the model's own; reset 0 (DESIGN CHOICE, log 6)
  pipe   : List (Nat × Nat)    -- per port, `elapsed` u at which its pipeline is free; R370, 17; reset 0
  xoff   : List (Nat × Nat)    -- per instance, the classes with a standing XOFF request; R174, 07; reset 0
  low    : Bool                -- the pool's free cells have fallen below 25 % since the last 1 ms window closed; Table 14-1, 14; reset 0
  dropLow : Nat                -- 8 bit: classes that recorded HAMPER_Q_DROP in that time while free cells were below 10 %; Table 14-1, 14; reset 0
  dropHigh : Nat               -- 8 bit: the same while free cells were at or above 25 %; Table 14-1, 14; reset 0
deriving DecidableEq, Repr

/-! ### Ports, instances, cages and the watch lane (08_the_wire) -/

inductive LinkStage where
  | disabled | down | training | up
deriving DecidableEq, Repr

structure MacInst where
  link     : LinkStage         -- 3 bit MAC_STATUS.LINK; R186, 08; reset Disabled
  fec      : Nat               -- 3 bit MAC_STATUS.FEC; R185, 08; reset 0
  lpiCap   : Bool              -- MAC_STATUS.LPI_CAP; R200, 08; reset 0
  twMin    : Nat               -- 20 bit LPI_TW_MIN; R211, 08; reset 0
  tw       : Nat               -- 20 bit LPI_TW; R203, 08; reset LPI_TW_MIN
  txLpi    : Bool              -- MAC_STATUS.TX_LPI; R201, 08; reset 0
  rxLpi    : Bool              -- MAC_STATUS.RX_LPI; R211, 08; reset 0
  rxLpiAt  : Nat               -- `elapsed` u at which receive LPI began; R202, 08; reset 0
  entering : Option Nat        -- `elapsed` u at which entry signalling to transmit LPI ends; R201, R202, 08; reset none
  lpiAt    : Nat               -- `elapsed` u at which transmit LPI began; R202, 08; reset 0
  lpiShort : Nat               -- link-idle periods shorter than 2 x LPI_TW that ended since the last 1 ms window closed; Table 14-1, 14; reset 0
  ignoring : Bool              -- MAC_STATUS.IGNORING; R199, 08; reset 0
  laneOk   : Nat               -- 8 bit MAC_STATUS.LANE_OK; R211, 08; reset 0
  train    : Bool              -- a training run is in progress; R185, 08; reset 0
  fails    : Nat               -- failed training runs in a row; R185, 08; reset 0
  paused   : List (Nat × Nat)  -- per class, end of its pause in u; R193, 08; reset none
  pausedJ  : List (Nat × Nat)  -- per class, the J-cycle in which its pause was registered; R373, 17; reset none
  wd       : List (Nat × Nat)  -- per class, the close of its watchdog run in u of `elapsed`; R198, R56, 08 and 02; reset none
  wdS      : List (Nat × Nat)  -- per class, TIME64 stamp s of its watchdog run; R198, 08; reset none
  ctrlIn   : List (Nat × List (Nat × Nat)) -- received pauses awaiting registration, in arrival order: its instant in u of `elapsed`, and (class, quanta); R193, 08; reset none
  xoffOn   : Bool              -- in PAUSE mode, a pause stands; R196, 08; reset 0
deriving DecidableEq, Repr

structure CageSt where
  present   : Bool    -- CAGE_STATUS.PRESENT; R209, 08; reset 0
  highPower : Bool    -- CAGE_STATUS.HIGH_POWER; R207, 08; reset 0
  fault     : Bool    -- CAGE_STATUS.FAULT; R208, 08; reset 0
  copper    : Bool    -- CAGE_STATUS.COPPER; R211, 08; reset 0
  maxPower  : Nat     -- 8 bit MAX_POWER; R211, 08; reset 0
  mirror    : Bytes   -- 256 bytes CAGE_MIRROR, empty for all zeros; R211, 08; reset 0
  supply    : Bool    -- the cage's 3.3 V supply is on; R208, 08; reset 1
  inReset   : Bool    -- the module is held in reset; R209, 08; reset 0
deriving DecidableEq, Repr

structure WatchSt where
  running : Bool   -- lane 0 runs as the watch lane; R204, 08; reset 0
  ready   : Bool   -- WATCH_STATUS.READY; R204, 08; reset 0
  last    : Nat    -- 6 bit WATCH_STATUS.LAST; R206, 08; reset 0
  matched : Bool   -- WATCH_STATUS.MATCHED; R206, 08; reset 0
deriving DecidableEq, Repr

/-! ### The Tally (09_tally) -/

structure TallySt where
  count   : List (Nat × Nat)          -- 48 bit counters by key code x 2^15 + class x 2^12 + object; R212, 09; reset 0
  atJ     : Nat                       -- J-cycle of the last increment; R214, R221, 09; reset 0
  base    : List (Nat × Nat)          -- the counters incremented in that J-cycle, each with its value at the cycle's start; R214, R221, 09; reset none
  mirror  : List (Nat × Nat)          -- the counters at the last mirror boundary; R223, 09; reset 0
  mirror64 : Nat                      -- TIME64 of that boundary; R223, 09; reset 0
  mirrorJ : Nat                       -- J-cycle of that boundary; R223, 09; reset 0
  mfrac   : List (Nat × Nat)          -- the fractions of the energy counters at that boundary; R223, R227, 09; reset 0
  cross   : List (Nat × Nat × Bool)   -- half-range crossings: (J-cycle of the increment, key, WRAP); R222, 09; reset none
  pend    : List (Nat × Nat × Bool)   -- in warm mode, crossings not yet mirrored; R223, 09; reset none
  frac    : List (Nat × Nat)          -- fractions of the energy counters in 2^-16 microjoule; R227, 09; reset 0
  gaps    : Nat                       -- 16 bit TALLY_STATUS.GAPS, saturating; R224, 09; reset 0
  calib   : Nat                       -- the calibration of ISLAND_IDLE made at the last cold start, by the free values used before it; R225, 09; reset 0 (DESIGN CHOICE, log 8)
  powerMw : List (Nat × Nat)          -- 16 bit ISLAND_POWER; R229, 09; reset 0
  act     : List (Nat × Nat)          -- activity units of the window in progress, in 1/actScale of a unit, by kind x 128 + function; R226, Table 9-6, 09; reset 0
  rxLoad  : List (Nat × Nat)          -- bytes received on each port since the last 1 ms window closed; Table 14-1, 14; reset 0
  skipEnergy : Bool                   -- the window in progress began before the first mirror boundary after t_h; R224, 09; reset 0
deriving DecidableEq, Repr

/-! ### The engine pair (10_engine_pair) -/

/-- STATE_A and STATE_B (Table 10-9). -/
inductive EngState where
  | active | standby | failed | requalifying | resyncing | retired
deriving DecidableEq, Repr

/-- The signals that leave an island, by the classes of Table 13-1 (R294, 13_islands_and_power_states). -/
inductive Crossing where
  | request   -- data, address, requests, interrupt and event requests
  | ready     -- ready and credit returns; 1 is ready
  | resetN    -- active-low resets to neighbours
  | isolated  -- the ISOLATED status
deriving DecidableEq, Repr

/-- What a front light shows (R397, 19_electrical_and_mechanical). -/
inductive Lamp where
  | off | red | green | amber | green1Hz | greenHalfHz | amber1Hz
deriving DecidableEq, Repr

/-- The front lights of Table 19-8 (R397, 19_electrical_and_mechanical): what each shows. -/
structure Lights where
  pwr  : Lamp
  pair : Lamp
  attn : Lamp
  lnk0 : Lamp
  lnk1 : Lamp
deriving DecidableEq, Repr

/-- The level outputs (R34, 01_the_sled) as they stood when they began to be held (R236, R237): the SMBus alert and the lights. -/
structure Levels where
  alert  : Bool
  lights : Lights
deriving DecidableEq, Repr

/-- A hand-over in progress (10.3, 10.6): whether it is warm, whether it is a swap, its outgoing engine, its cause of
Table 10-10, the J-cycle x and t0 in u it began with, whether the outgoing ACT line has fallen (R248) and the J-cycle in which it did
(R230), and whether its drain has ended. -/
structure Handover where
  warm    : Bool
  swap    : Bool
  out     : Eng
  cause   : Nat
  x       : Nat
  t0      : Nat
  fallen  : Bool
  lowAt   : Nat
  drained : Bool
deriving DecidableEq, Repr

/-- A partner transaction registered while no engine is active (R242): a doorbell, a write of the mailbox request record at its offset,
a mailbox request, another L-class write that an engine acts on, and a snapshot trigger with what it had captured at its stamp (R220). -/
inductive HeldOp where
  | doorbell (fn page : Nat) (whole : Bool) (value : Nat)
  | record (fn offset value : Nat)
  | mailbox (fn go : Nat)
  | write (of offset value : Nat)
  | snap (of set seq : Nat) (shot : Snapshot)
deriving DecidableEq, Repr

/-- A held transaction with its TIME64 stamp (R242). -/
structure HeldTx where
  op    : HeldOp
  stamp : Nat
deriving DecidableEq, Repr

/-- A received frame whose lane words the hold buffer keeps (R239): its instance, the frame, whether it was cut short by a Down, the start of its
timestamp in u, and the `elapsed` u at which its first and its last word have come. -/
structure HeldFrame where
  m     : Nat
  frame : RxFrame
  cut   : Bool
  stamp : Nat
  start : Nat
  stop  : Nat
deriving DecidableEq, Repr

/-- The lock of one lane (Table 10-7); Lost passes on to Search at once. -/
inductive LaneLock where
  | search | align | locked
deriving DecidableEq, Repr

/-- The receiver of one lane (R253, R254): its lock, how many bits before the last 288 its flits begin, those last 288 bits, the run of
epoch flits in Align and of bad flits in Locked, the sequence number of the next data flit, the epoch it has seen, and the 58 bits of
its descrambler. -/
structure LaneRx where
  st   : LaneLock
  back : Nat
  prev : Nat
  run  : Nat
  bads : Nat
  seq  : Nat
  ep   : Nat
  scr  : Nat
deriving DecidableEq, Repr

/-- The sender of one lane (R253): its next sequence number and the 58 bits of its scrambler. -/
structure LaneTx where
  seq : Nat
  scr : Nat
deriving DecidableEq, Repr

/-- One direction of a Crosscut link (R253, R254): the PEER_LOCKED its flits report, its receiver's lanes, and its sender: the epoch,
whether a run of epoch flits is being sent, the J-cycle in which the epoch began, and its lanes. -/
structure LockSt where
  peer  : Bool
  rx    : List (Nat × LaneRx)
  epoch : Nat
  train : Bool
  began : Nat
  tx    : List (Nat × LaneTx)
deriving DecidableEq, Repr

/-- A flit that is present for the comparator (R233): its 288 bits, and its marker and descrambled payload without the heartbeat flag. -/
structure CmpFlit where
  raw   : Nat
  clear : Nat
deriving DecidableEq, Repr

/-- One slot of the delay line (R234): its J-cycle, and by lane Engine A's and Engine B's entry; a lane that is not listed holds a filler
flit for both. -/
structure LineSlot where
  cycle : Nat
  lanes : List (Nat × Nat × Nat)
deriving DecidableEq, Repr

structure EngSt where
  state    : EngState  -- 3 bit STATE; R259, 10; reset: A Active, B Standby
  act      : Bool      -- ACT line; R230, 10; reset: A 1, B 0
  fails    : List Nat  -- `elapsed` u of its failures in the last hour; R250, 10; reset none
  cause    : Nat       -- cause of its last failure; R259, 10; reset 0
  bistS    : Nat       -- 32 bit LAST_BIST_S; R259, 10; reset 0
  ecc      : Nat       -- 16 bit ECC_CORRECTED; R259, 10; reset 0
  bistAt   : Nat       -- `elapsed` u at which its last self-test cycle ended; R249, 10; reset 0
  bistDur  : Nat       -- length in u of that cycle; R249, 10; Table 14-1, 14; reset 0
deriving DecidableEq, Repr

/-- Where a resynchronisation stands (R250). -/
inductive ResyncSt where
  | copy | quiesce | stall
deriving DecidableEq, Repr

structure PairSt where
  a        : EngSt             -- Engine A
  b        : EngSt             -- Engine B
  warm     : Bool              -- the pair runs in warm mode; R251, 10; reset lockstep
  handover : Option Handover   -- hand-over in progress; R236, R241, 10; reset none
  verdict  : Bool              -- the Junction is frozen for a Verdict; R237, 10; reset 0
  resync   : Option ResyncSt   -- resynchronisation in progress; R250, 10; reset none
  suspect  : Bool              -- PAIR_STATUS.SUSPECT; R238, 10; reset 0
  fenced   : Bool              -- the sled is Fenced; R252, 10; reset 0
  fencedWhy : Nat              -- cause of Fenced; R252, 10; reset 0
  lastWhy  : Nat               -- 4 bit PAIR_LAST.CAUSE; R259, 10; reset 0
  lastDur  : Nat               -- 16 bit PAIR_LAST.DURATION, saturating; R259, 10; reset 0
  ready    : Bool              -- a planned warm hand-over readies the standby; R248, 10; reset 0
  swapDue  : Bool              -- a role swap fell due and waits to be paired; R247, 10; reset 0
  held     : List HeldTx       -- transactions queued while no engine is active; R242, 10; reset none
  merge    : List HeldTx       -- merge store; R242, 10; reset none
  reads    : List (Nat × Nat)  -- read queue: OFs whose TALLY_READ waits, each with the 48-bit value latched when it was registered, in arrival order; R219, R242, R385, 09, 10 and 18; reset none
  locks    : List (Nat × LockSt) -- each link direction; R253, R254, 10; reset Locked, epoch 1 (DESIGN CHOICE, log 9)
  slotA    : List (Nat × CmpFlit) -- Engine A's flits present in this J-cycle, by lane; R233, 10; reset none
  slotB    : List (Nat × CmpFlit) -- Engine B's flits present in this J-cycle, by lane; R233, 10; reset none
  line     : List LineSlot     -- the 16 slots of the delay line, oldest first; a slot that is not listed holds filler flits; R234, 10; reset none
  diverged : Option (Nat × Nat × Nat) -- J-cycle e, TYPE, and the TIME64 of the start of e, of the unexplained divergence; R233, R237, 10; reset none
  frozenAt : Nat               -- J-cycle of the freeze; R237, 10; reset 0
  relq     : List (Eng × Nat)  -- engines whose failure was registered too late to explain a divergence or while a Verdict runs, with its cause; R231, R257, 10; reset none
  hold     : List HeldFrame    -- frames whose words the hold buffer keeps, in arrival order; R239, 10; reset none
  holdAt   : Option Nat        -- `elapsed` u at which lane words began to go to the hold buffer; R237, R241, R250, 10; reset none
  levels   : Option Levels     -- level outputs while they are held; R236, R237, 10; reset none
  cutTlp   : Nat               -- links whose TLP the freeze cut, to be sent again, a bit each; R237, R238, 10; reset 0
  latched  : Option (Eng × Nat)  -- a hand-over cause latched during sleep entry; R374, 17; reset none
deriving DecidableEq, Repr

/-! ### The Lookout (11_lookout) -/

/-- STATE of LO_STATUS (Table 11-5). -/
inductive LoState where
  | counting | warning | held
deriving DecidableEq, Repr

structure LoChan where
  state     : LoState   -- 2 bit STATE; R275, 11; reset Counting
  ref32     : Bool      -- CLK_IN_USE; R268, 11; reset MAIN
  tripped   : Bool      -- TRIPPED; R268, 11; reset 0
  moved     : Bool      -- the monitor has moved the channel off the clock of CLK_SEL; R268, 11; reset 0
  lastServe : Nat       -- 64 bit LAST_SERVE; R263, 11; reset 0
  latched   : Nat       -- 64 bit LO_LAST_SERVE, set at each warning; R274, 11; reset 0
  warnPc    : Nat       -- 32 bit WARN_PC; R265, 11; reset 0
  expiry    : Bool      -- RESET_CAUSE.EXPIRY; R266, 11; reset 0
  badServe  : Bool      -- RESET_CAUSE.BAD_SERVE; R264, 11; reset 0
  clockLoss : Bool      -- RESET_CAUSE.CLOCK_LOSS; R268, 11; reset 0
  common    : Bool      -- RESET_CAUSE.COMMON; R271, 11; reset 0
  warns     : Nat       -- 32 bit WARN_COUNT, saturating; R265, 11; reset 0
  resets    : Nat       -- 32 bit RESET_COUNT, saturating; R266, 11; reset 0
  bads      : Nat       -- 32 bit BAD_SERVE_COUNT, saturating; R264, 11; reset 0
  opened    : Nat       -- `elapsed` u at which the period in progress opened; R263, 11; reset 0
  len       : Nat       -- length of the period in progress, in u; R262, 11; reset: the period of the reset values
  test      : Bool      -- the warning is marked TEST; R267, 11; reset 0
  stalled   : Bool      -- the warning period is held until LOGIC_RDY; R273, 11; reset 0
deriving DecidableEq, Repr

structure LookoutSt where
  chans    : List (Nat × LoChan)     -- L-A, L-B, F-A, F-B, S; R260, 11
  hold     : List (Nat × Nat × Bool) -- reset requests held: channel, J-cycle of registration, and whether the other engine's channel of the kind requested too; R270, R271, 11; reset none
  warnAt   : List (Nat × Nat)        -- warnings waiting for delivery: (channel, J-cycle); R271, 11; reset none
  warnInt  : List Nat                -- channels whose warning interrupt is raised; R265, 11; reset none
  restart  : Bool                    -- a management restart is in progress; R271, 11; reset 0
  supRest  : Bool                    -- a Supervisor restart is in progress; R272, 11; reset 0
  evidence : List (Nat × Nat × Nat × Nat × Nat × Nat) -- records to copy: channel, active engine, RESET_CAUSE, WARN_PC, LAST_SERVE, TIME64; R274, 11; reset none
deriving DecidableEq, Repr

/-! ### Supply and backup cell (12_supply_and_backup_cell) -/

/-- STATE of CELL_STATUS (Table 12-8). -/
inductive CellState where
  | absent | chargingCc | chargingCv | charged | tempHold
deriving DecidableEq, Repr

/-- A record bound for a circular region of the Logbook: region, kind, severity, whether it is kept (R283), TIME64 and
body bytes; an event row takes its LOG_SEQ when it is written (R405). -/
structure LogRec where
  region : Nat
  kind   : Nat
  sev    : Nat
  keep   : Bool
  time64 : Nat
  body   : Bytes
deriving DecidableEq, Repr

structure SupplySt where
  acFail   : Bool            -- SUP_STATUS.AC_FAIL; R276, 12; reset 0
  graceAt  : Option Nat      -- t_f of the open MAINS_GRACE window, in u of `elapsed`; R277, 12; reset none
  shutdown : Bool            -- the power-loss shutdown has run; R278, 12; reset 0
  braced   : Bool            -- SUP_STATUS.BRACED; R280, 12; reset 0
  nowMv    : Nat             -- 16 bit SUP_BULK.NOW_MV; R292, 12; reset 12,000 (DESIGN CHOICE, log 10)
  minMv    : Nat             -- 16 bit SUP_BULK.MIN_MV; R281, 12; reset 0xFFFF
  recovery : Option Nat      -- opening t of the 5 ms recovery window, in u of `elapsed`; R282, 12; reset none
  inReset  : Bool            -- the Shell package is held in bulk reset; R284, 12; reset 0
  rails    : Nat             -- 6 bit RAIL_STATUS; R285, 12; reset 0
  auxOn    : Bool            -- service auxiliary output on; R285, 12; reset 1
  lastEst  : Nat             -- 15 bit AO_STATUS.LAST_EST_UA; R286, 12; reset 0
  refused  : Bool            -- AO_STATUS.LAST_REFUSED; R286, 12; reset 0
  lowPower : Bool            -- AO_STATUS.LOW_POWER; R292, 12; reset 0
  cell     : CellState       -- 3 bit CELL_STATUS.STATE; R292, 12; reset Charged (DESIGN CHOICE, log 10)
  cellMv   : Nat             -- 16 bit CELL_MV; R292, 12; reset 3,000 (DESIGN CHOICE, log 10)
  cellLow  : Bool            -- CELL_LOW is in force; R289, 12; reset 0
  cellLowAt : Option Nat     -- RTC_COUNT of the last CELL_LOW; R289, 12; reset none
  warns    : Nat             -- 32 bit SUPPLY_WARN_COUNT, saturating; R280, 12; kept by every reset
  dips     : Nat             -- 32 bit MAINS_DIP_COUNT, saturating; R277, 12; kept
  bulks    : Nat             -- 32 bit BULK_RESET_COUNT, saturating; R284, 12; kept
  losses   : Nat             -- 32 bit POWER_LOSS_COUNT, saturating; R278, 12; kept
  absents  : Nat             -- 32 bit CELL_ABSENT_COUNT, saturating; R289, 12; kept
  defDrops : Nat             -- 32 bit LOGBOOK_DEFER_DROP, saturating; R283, 12; kept
  deferred : List LogRec     -- at most 256 deferred Logbook records; R283, 12; reset none
  tries    : Nat             -- wake-pin attempts counted by the latch; R304, 13; reset 0
  brownout : Bool            -- brown-out flag of the latch; R287, 12; reset 0
  latchBit : Bool            -- the copied RESTART_ON_MAINS; R279, 12; reset 0
  retRun   : Option Nat      -- the latch's mains-return timer, in steps of 1.25 ns: how long AC_FAIL has been clear in Off; R25, R279, 01 and 12; reset none
  latchOk  : Bool            -- the latch has kept its power; R290, 12; reset 1
  offOnCell : Bool           -- the last shutdown record says "Off on cell"; R290, 12; reset 0
  mains    : Bool            -- mains is present; R276, R304, 12 and 13; reset 1 (DESIGN CHOICE, log 10)
deriving DecidableEq, Repr

/-! ### Power modes, islands and DVFS (13_islands_and_power_states) -/

/-- PWR_STATUS.MODE, with Off (FROM_MODE 6). -/
inductive PwrMode where
  | run | idle | sleep | deepSleep | entering | exiting | off
deriving DecidableEq, Repr

inductive IslState where
  | on | retention | off
deriving DecidableEq, Repr

structure IslSt where
  state    : IslState  -- 2 bit ISL_STATE.STATE; R311, 13; reset On
  isolated : Bool      -- ISOLATED; R294, 13; reset 0
  auto     : Bool      -- AUTO; R308, 13; reset 0
  freq     : Nat       -- 2 bit FREQ; R311, 13; reset 0
deriving DecidableEq, Repr

/-- A wake that has been registered: SOURCE, DETAIL, TIME64 stamp and the sources of the same instant (Table 13-5). -/
structure Wake where
  source : Nat
  detail : Nat
  stamp  : Nat
  others : Nat
deriving DecidableEq, Repr

structure PowerSt where
  mode     : PwrMode            -- 3 bit PWR_STATUS.MODE; R311, 13; reset Run
  target   : Option PwrMode     -- mode being entered; R299, 13; reset none
  entryAt  : Nat                -- entry start e, TIME64; R299, 13; reset 0
  pendCmd  : Option PwrMode     -- an entry deferred under R300; reset none
  latched  : Option Wake        -- wake latched during entry; R301, 13; reset none
  exitFrom : PwrMode            -- mode being left; R311, 13; reset Run
  stage    : Nat                -- 2 bit PWR_STATUS.STAGE, 4 once LOGIC_RDY has come; R305, 13; reset 0
  retry    : Nat                -- 2 bit PWR_STATUS.RETRY; R305, 13; reset 0
  wakeSrc  : Nat                -- 8 bit WAKE_CAUSE.SOURCE; R311, 13; reset 0, kept by a sled reset
  wakeDet  : Nat                -- 8 bit DETAIL; R311, 13; reset 0, kept
  replayed : Bool               -- REPLAYED; R301, 13; reset 0, kept
  wakeFrom : PwrMode            -- 3 bit FROM_MODE; R311, 13; reset Run, kept
  wakeOth  : Nat                -- 32 bit WAKE_OTHERS; R302, 13; reset 0, kept
  wakeTime : Nat                -- 64 bit WAKE_TIME; R302, 13; reset 0, kept
  retries  : Nat                -- 32 bit READY_RETRY_COUNT, saturating; R305, 13; reset 0
  replays  : Nat                -- 32 bit WAKE_REPLAY_COUNT, saturating; R301, 13; reset 0
  islands  : List (Nat × IslSt) -- the 20 islands of R229; reset On
  point    : Nat                -- 2 bit DVFS_STATUS.POINT of both engines; R29, R311, 13; reset 0
  newPoint : Option Nat         -- row of the DVFS step in progress (STEP_BUSY); R310, 13; reset none
  stepIsl  : List (Nat × Nat)   -- island frequencies the step in progress will set; R310, 13; reset none
  vReady   : Bool               -- V_READY; R311, 13; reset 1
  queued   : Option (Nat × List (Nat × Nat)) -- a DVFS command that waits for the step in progress: its row and its islands' rows; R291, R310, 13; reset none
  ceiling  : Nat                -- 2 bit CEILING; R311, 13; reset 0
  domain   : Bool               -- the power style in effect is Domain; R293, 13; reset Ladder
  idleSince : Option (Nat × Nat) -- the conditions of Idle hold since then, in u of `elapsed`, with the idle-entry time in force; R298, 13; reset none
  idleAt   : Nat                -- `elapsed` u at which Idle was entered; Table 14-1, 14; reset 0
  shortIdle : Nat               -- Idle periods under 20 us that ended since the last 1 ms window closed; Table 14-1, 14; reset 0
deriving DecidableEq, Repr

/-! ### The Foreman (14_foreman) -/

structure KnobSt where
  applied  : Int    -- 16 bit FM_STATUS.APPLIED; R312, 14; reset: base
  loop     : Int    -- the loop's own value; R313, 14; reset: base (DESIGN CHOICE, log 11)
  clamped  : Bool   -- CLAMPED; R315, 14; reset 0
  src      : Nat    -- 3 bit CLAMP_SOURCE; R323, 14; reset 0
  changes  : Nat    -- 32 bit FM_CHANGES, saturating; R320, 14; reset 0
  changed  : Nat    -- `elapsed` u of the last change, from which DWELL runs; R319, 14; reset 0
  dwell    : Nat    -- us; the DWELL in force at that change; R319, 14; R56, 02; reset as FM_DWELL
  wasPin   : Bool   -- PIN_EN was 1 in the last evaluation; R316, 14; reset 0
  reported : Bool   -- POLICY_CLAMP has been raised and not ended; R315, 14; reset 0
deriving DecidableEq, Repr

/-- What one 1 ms window gives the loops to measure (Table 14-1): received bytes per port, whether the pool's free cells fell below 25 %, the
classes with HAMPER_Q_DROP below 10 % and from 25 % of free cells, short Idle and link-idle periods, signals sent, the completions they signalled and
the sum in u of the times those had waited, and per island its busy E-cycles and all its E-cycles. -/
structure FmWin where
  load      : List (Nat × Nat)
  low       : Bool
  dropLow   : Nat
  dropHigh  : Nat
  shortIdle : Nat
  shortLpi  : Nat
  signals   : Nat
  waits     : Nat
  waited    : Nat
  busy      : List (Nat × Nat × Nat)
deriving DecidableEq, Repr

structure ForemanSt where
  knobs : List (Nat × KnobSt)   -- the 28 knobs of Table 14-1
  level : Nat                   -- 2 bit FM_THERMAL.LEVEL; R318, 14; reset 0
  cool  : Nat                   -- consecutive windows below the lifting threshold; R318, 14; reset 0
  hist  : List FmWin            -- the last 1,000 windows of 1 ms, newest first; R319, 14; reset none
deriving DecidableEq, Repr

/-! ### The Tether and the Stand (15_tether) -/

/-- CLAIM_STATE (Table 15-8). -/
inductive ClaimState where
  | disabled | listening | claiming | joined | backoff
deriving DecidableEq, Repr

/-- What is known of another station: presence, its last frame's RTC_COUNT, serial, session, TIME_GOOD, last FAILOVER
KIND, and the last accepted identifier, SEQ and RTC_COUNT (R335, R340). -/
structure PeerSt where
  present  : Bool
  lastAt   : Nat
  serial   : Nat
  known    : Bool
  session  : Nat
  timeGood : Bool
  kind     : Nat
  lastId   : Nat
  lastSeq  : Nat
  lastOk   : Option Nat
deriving DecidableEq, Repr

/-- GS_STATUS.STATE (Table 15-8). -/
inductive GsState where
  | none | proposed | agreed | committed | aborted | refused
deriving DecidableEq, Repr

/-- A frame that waits in the Supervisor's queue, or is being sent: type, payload, its operator slot if any, the station of
its identifier, its SEQ once it has been offered, and the retries it has used. -/
structure TxFrame where
  typ     : Nat
  payload : Bytes
  slot    : Option Nat
  seq     : Option Nat
  tries   : Nat
  cancel  : Bool
deriving DecidableEq, Repr

structure SlotSt where
  data  : List (Nat × Word)  -- 32 bytes TETHER_TX_DATA; R355, 15; reset 0
  len   : Nat                -- 6 bit TETHER_TX_LEN; R355, 15; reset 0
  state : Nat                -- 3 bit TETHER_TX_STATUS.STATE; R355, 15; reset 0
  seq   : Nat                -- 8 bit TETHER_TX_STATUS.SEQ; R355, 15; reset 0
deriving DecidableEq, Repr

structure FifoEntry where
  station : Nat
  seq     : Nat
  stamp   : Nat
  data    : Bytes
deriving DecidableEq, Repr

structure TetherSt where
  claim    : ClaimState          -- 3 bit CLAIM_STATE; R355, 15; reset Disabled
  station  : Nat                 -- 6 bit STATION; R355, 15; reset 0
  lastNum  : Option Nat          -- station number last held, in the Logbook; R338, 15; reset none
  excluded : List Nat            -- numbers excluded in this claim; Table 15-3, 15; reset none
  session  : Nat                 -- 8 bit session counter; R337, 15; reset 0 (DESIGN CHOICE, log 12)
  term     : Bool                -- termination switch; R324, 15; reset off (DESIGN CHOICE, log 12)
  peers    : List (Nat × PeerSt) -- the 64 stations; R340, 15; reset absent
  elder    : Nat                 -- 6 bit ELDER; R341, 15; reset 0
  timeRef  : Nat                 -- 6 bit TIME_REF; R342, 15; reset 0
  queue    : List TxFrame        -- frames waiting; R331, 15; reset none
  sending  : Option TxFrame      -- frame whose attempt is in progress; R336, 15; reset none
  sendAt   : Nat                 -- TIME64 stamp of its SOF; R342, 15; reset 0
  seq      : Nat                 -- 8 bit SEQ of the next new frame; R334, 15; reset 0 (DESIGN CHOICE, log 12)
  slots    : List (Nat × SlotSt) -- the 8 operator slots; R355, 15; reset empty
  fifo     : List FifoEntry      -- receive FIFO of 16 entries; R353, 15; reset empty
  counts   : List (Nat × Nat)    -- 12 x 32 bit counters, saturating; R355, 15; reset 0
  gs       : GsState             -- state of the round at this station; Table 15-4, 15; reset None
  gsStat   : GsState             -- 3 bit GS_STATUS.STATE; R355, 15; reset None
  round    : Nat                 -- 8 bit ROUND; R355, 15; reset 0
  proposer : Nat                 -- 6 bit PROPOSER; R355, 15; reset 0
  reason   : Nat                 -- 4 bit REASON; R355, 15; reset 0
  gsMode   : Nat                 -- MODE of the round: 1 Sleep, 2 Deep sleep; R345, 15; reset 0
  members  : Nat                 -- 64 bit MEMBERS of the round; R345, 15; reset 0
  agreed   : Nat                 -- 64 bit map of the AGREEs received; R347, 15; reset 0
  gsP      : Nat                 -- P, TIME64; R345, 15; reset 0
  gsT      : Nat                 -- 64 bit TETHER_GS_T; R355, 15; reset 0
  syncSeq  : Option (Nat × Nat)  -- SEQ and stamp of the last SYNC from the reference; R343, 15; reset none
  offsets  : List Int            -- the last 16 offsets in ns; R343, 15; reset none
  gsCmdBits : Nat                -- 4 bit TETHER_GS_CMD as written; R355, 15; reset 0
  heldWake : Option Wake         -- the wake whose WAKE_VETO waits for its SOF; R350, 15; reset none
  group    : Bool                -- the entry in progress is a group's; R350, 15; reset 0
deriving DecidableEq, Repr

/-! ### Start-up, firmware and the Logbook (16_start_up_and_logbook) -/

/-- A save in progress (R367): whether its target is copy A, GENERATION, LOCK_AFTER_LOAD, and the active values as captured. -/
structure SaveJob where
  isA   : Bool
  gen   : Nat
  lock  : Bool
  words : List (Nat × Word)
deriving DecidableEq, Repr

/-- One slot of the code store (R359): whether every signature verifies, SVN, firmware line, the RAISE flag, the build
number, and whether the slot has been verified by STAGE. -/
structure FwSlot where
  good  : Bool
  svn   : Nat
  line  : Nat
  raise : Bool
  build : Nat
deriving DecidableEq, Repr

/-- A circular region's head (R362, R363): row of the next write within the region, and the region's lap. -/
structure RegionSt where
  head : Nat
  lap  : Nat
deriving DecidableEq, Repr

structure LogSt where
  stage    : Nat                     -- 3 bit START_STATUS.STAGE; R369, 16; reset 0
  ready    : Bool                    -- SETUP_READY; R356, 16; reset 0
  imgUsed  : Nat                     -- 2 bit IMAGE_USED; R369, 16; reset 0
  reason   : Nat                     -- 4 bit RESET_REASON; R369, 16; reset 0
  imgGen   : Nat                     -- 32 bit IMAGE_GEN; R369, 16; reset 0
  startMs  : Nat                     -- 16 bit START_TIME; R369, 16; reset 0
  bootRom  : Bool                    -- the Supervisor stays in boot ROM; R359, 16; reset 0
  saving   : Option SaveJob          -- a save in progress; R367, 16; reset none
  saveSt   : Nat                     -- 2 bit LOG_STATUS.SAVE_STATE; R369, 16; reset 0
  saveWhy  : Nat                     -- 4 bit LOG_STATUS.REASON; R369, 16; reset 0
  logCmd   : Nat                     -- 3 bit LOG_CMD as written; R369, 16; reset 0
  spares   : Nat                     -- 8 bit SPARES_FREE; R365, 16; reset 128
  badRows  : List Nat                -- rows marked for retirement; R365, 16; reset none
  wornRows : List Nat                -- rows passed over for want of a spare; R365, 16; reset none
  corrRows : List Nat                -- rows with a corrected bit; R369, 16; reset none
  remapped : List Nat                -- rows remapped to a spare; R365, 16; reset none
  regions  : List (Nat × RegionSt)   -- heads of regions 2 to 5; R369, 16; reset head 0, lap 1
  mem      : List Host.Cell          -- 32,768 rows of 64 bytes, by address row x 64 + byte; R362, 16; unlisted bytes read 0 (DESIGN CHOICE, log 14)
  sumCounts : List Nat               -- the SUPPLY counts in the newest kind 2 row of region 5; R292, 12; R363, 16; reset 0
  sumSup   : Nat × Nat               -- SESSION and STATION in the newest kind 3 row; R363, 16; reset 0
  sumSec   : Nat                     -- 1 + the second of the last health summary; R366, 16; reset none
  logSeq   : Nat                     -- 32 bit LOG_SEQ of the newest event row; R405, 16; reset: found at mount
  rateWin  : Nat                     -- index of the second counted for R366, 16; reset 0
  rateN    : Nat                     -- rows accepted in that second; R366, 16; reset 0
  rateDrop : Nat                     -- 32 bit LOGBOOK_RATE_DROP, saturating; R366, 16; reset 0
  slot0    : FwSlot                  -- code store slot 0; R359, 16; reset: a valid line 4 bundle (DESIGN CHOICE, log 15)
  slot1    : FwSlot                  -- code store slot 1; R359, 16; reset: empty (DESIGN CHOICE, log 15)
  running  : Nat                     -- FW_STATUS.RUNNING; R369, 16; reset 0 (DESIGN CHOICE, log 15)
  next     : Nat                     -- FW_STATUS.NEXT; R369, 16; reset 0 (DESIGN CHOICE, log 15)
  fwState  : Nat                     -- 2 bit FW_STATUS.STATE; R369, 16; reset 0
  fwWhy    : Nat                     -- 4 bit FW_STATUS.REASON; R369, 16; reset 0
  fwLast   : Nat                     -- FW_CMD as written; R369, 16; reset 0
  minSvn   : Nat                     -- fused minimum SVN; R359, 16; reset 0 (DESIGN CHOICE, log 15)
deriving DecidableEq, Repr

/-! ### Events, alert and the rear connector (05, 18, 19) -/

structure EventSt where
  alert  : Bool               -- EV_ALERT.ASSERTED; R389, 18; reset 0
  kept   : List (Nat × Nat)   -- per event and object, 1 + index of the second of its last raise; R402, 00; reset none
  rings  : List (Nat × CqRing) -- the event rings of OF0 to OF3; R121, 05; reset Unused
  fans   : Nat                -- 5 bit FAN_FAULT; R393, 19; reset 0
  sigN   : Nat                -- completion queue signals since the last 1 ms window closed; Table 14-1, 14; reset 0
  sigCpl : Nat                -- completions that they signalled; Table 14-1, 14; reset 0
  sigU   : Nat                -- sum in u of the times from completion to signal; Table 14-1, 14; reset 0
  msixHeld : List (Nat × Nat) -- interrupt messages (function, vector) signalled while the level outputs are held; R236, 10; reset none
deriving DecidableEq, Repr

/-- What leaves the block, in the order in which it leaves: DMA writes and reads, read completions, interrupt messages,
frames on a network lane, frames and TLPs cut short and TLPs sent again, Crosscut flits and the flits that leave the delay line, Tether frames, SMBus answers, and each event as it is raised. -/
inductive Out where
  | memWrite (fn addr : Nat) (data : Bytes) (relaxed : Bool)
  | memRead (fn tag addr len : Nat)
  | ptm (link time64 : Nat)
  | unsupported (link : Nat)
  | msix (fn vector addr data : Nat)
  | wire (m startU : Nat) (bytes : Bytes)
  | cut (m : Nat)
  | nullified (links : Nat)
  | resent (links : Nat)
  | crosscut (dir lane : Nat) (flit : BitVec 288)
  | line (lane : Nat) (flit : BitVec 288)
  | tether (wire : List Bool)
  | tetherAck
  | smb (data : Bytes) (pec : Nat)
  | read (of : Nat) (value : Word)
  | rtcRead (value : Word)
  | event (code time64 : Nat) (payload : Bytes)
deriving DecidableEq, Repr

end Sys2Proof.Machine
end

