-- ==== Sys2Proof/Machine/State.lean ====
section
/-! DEFINITION. The state of the sled as plain data, its value right after reset, and the ways a step can stop. -/
namespace Sys2Proof.Machine

/-- The sled. Each field's comment says what it holds and, for a table, its keys; the parts' own fields, widths, rules and
reset values stand in Machine/Types.lean. -/
structure State where
  setup    : SetupSt              -- the COMMIT mechanism and every S and K field; 00_scope
  ofs      : List (Nat × OfSt)    -- what each OF holds separately, by OF 0 to 3; R383, 18; reset: all at OfSt.init
  time     : TimeSt               -- device time; 02_time_and_windows
  rtc      : RtcSt                -- the RTC; 02_time_and_windows
  links    : List (Nat × LinkSt)  -- host links and halves H0a to H3b, by 2n + half; 04; reset: all down
  linkDown : List (Nat × Nat)     -- 32 bit HL_DOWN_COUNT_n, saturating, by link 0 to 3; R102, 04; reset 0
  linkAer  : List (Nat × Nat)     -- 32 bit HL_AER_COUNT_n, saturating, by link 0 to 3; R102, 04; reset 0
  fns      : List (Nat × FnSt)    -- functions: TF n is n, OF n is 64 + n, the carrier function CFn 68 + n; 04; reset: all Absent
  tx       : List (Nat × TxRing)  -- transmit rings by sled-wide number; 05; reset: all Unused
  rx       : List (Nat × RxRing)  -- receive rings by sled-wide number; 05; reset: all Unused
  cq       : List (Nat × CqRing)  -- completion queues by sled-wide number; 05; reset: all Unused
  host     : HostSt               -- reads in flight, the descriptor cache and the check-value units; 03, 04
  sched    : List (Nat × SchInst) -- transmit scheduler by MAC instance; 06
  hamper   : HamperSt             -- the Hamper; 07
  macs     : List (Nat × MacInst) -- MAC instances; 08
  cages    : List (Nat × CageSt)  -- cages by port; 08
  watch    : List (Nat × WatchSt) -- watch lanes by port; 08
  tally    : TallySt              -- the Tally; 09
  pair     : PairSt               -- the engine pair; 10
  lookout  : LookoutSt            -- the Lookout; 11
  supply   : SupplySt             -- mains, rails and the backup cell; 12
  power    : PowerSt              -- power modes, islands and DVFS; 13
  foreman  : ForemanSt            -- the Foreman; 14
  tether   : TetherSt             -- the Tether and the Stand; 15
  log      : LogSt                -- start-up, firmware and the Logbook; 16
  events   : EventSt              -- event rings, the alert and the fans; 05, 18, 19
  out      : List Out             -- what the sled has put out, oldest first; the model's own; reset none (DESIGN CHOICE, log 16)
  free     : Nat                  -- count of free values used so far; the model's own; reset 0 (DESIGN CHOICE, log 17)
  pending  : List Instr           -- commands waiting, first in first out; the model's own; reset none (DESIGN CHOICE, log 1)
deriving DecidableEq, Repr

/-- A step never stops with a fault: the spec names no condition that stops the sled (Fenced, a lost rail or Off are
states of it). -/
inductive Fault where
deriving DecidableEq, Repr

/-- Why a step refuses a command. -/
inductive Refusal where
  /-- Raised by an arm of Dispatch.lean whose command has no meaning in the model yet. Safe: the machine stops. -/
  | notModelled (mnemonic : String)
deriving DecidableEq, Repr

/-- The canonical form of the Logbook's memory: addresses strictly rising, and no entry equal to what an unlisted address reads as,
0 (DESIGN CHOICE, log 14). -/
def Memory.wf (m : List Host.Cell) : Bool := Tbl.wf (fun _ => 0#8) m

/-- One millisecond in u, units of 2^-32 ns (section 2.1, 02_time_and_windows). -/
def uMs : Nat := 1000000 * 2 ^ 32

/-! ### The parts at reset -/

def SetupSt.init : SetupSt :=
  { active := [], staged := [], pendingSet := none, queuedSet := none, flows := [], flowStaged := [], seq := 0,
    appliedSeq := 0, state := .idle, faultOff := 0, faultWhy := 0, lock := false, cmds := [], rejects := 0, flowKey := [],
    flowRing := 0, flowValid := false, flowResult := 0 }

def OfSt.init : OfSt :=
  { activeView := false, timeLatch := 0, tallyObj := 0, tallyCls := 0, tallyCode := 0, tallyLatch := 0, snapAddr := 0,
    snapLen := 0, snapSet := 0, snapSeq := 0, snapState := 0, snapWhy := 0, snapNow := none, snapPrev := [],
    rxFnSel := 0, peerSel := 0, rowSel := 0, fwAddr := 0, fwLen := 0, evSeq := 0, evLost := 0,
    evFirst := 0 }

def TimeSt.init : TimeSt :=
  { now := 0, elapsed := 0, jcycle := 0, rate := 0, rateOp := 0, setOp := [], stepOp := [], ctrlAct := 0, ctrlSrc := 3,
    source := .freeRun, valid := false, accepted := false, due := [], curSrc := 0, current := none, steps := 0, ignored := 0 }

def RtcSt.init : RtcSt :=
  { count := 0, phase := 0, latchHi := 0, loadLo := 0, alarmLo := 0, alarm := 0, armed := false, alarmEn := false,
    fired := false, past := false, valid := false, pairD := 0, pairC := 0, savedC := 0, savedD := 0,
    savedP := 0 }

def LinkSt.init : LinkSt := { up := false, speed := 0, width := 0, l12 := false }

def FnSt.init : FnSt :=
  { state := .absent, gen := 0, cause := 0, evT0 := 0, evCause := 0, vfEn := false, numVfs := 0, mrrs := 2, d0 := true, bme := false,
    msixEn := false, ro := false, msixMask := BitVec.allOnes 64, msixPend := 0, msixAddr := [], msixData := [],
    req := [], replySeq := 0, busy := false, goSeq := 0, goOp := 0,
    wait := none, reply := [], grantTx := 0, grantRx := 0, grantCq := 0, fenceN := 0, fenceWin := 0, seen := false,
    tagSeen := 0, tbLevel := 0, tbAt := 0, throttled := [] }

def TxRing.init : TxRing :=
  { state := .unused, fn := 0, base := 0, size := 0, cq := 0, inst := 0, cls := 0, c := 0, h := 0, f := 0, cur := [],
    recalls := [], sends := [], reTo := none, commit := 0 }

def RxRing.init : RxRing :=
  { state := .unused, fn := 0, base := 0, size := 0, cq := 0, early := false, c := 0, h := 0, f := 0, slots := [],
    wait := [], tw := none, due := none, guard := none, ret := none, inc := [] }

def CqRing.init : CqRing :=
  { state := .unused, fn := 0, base := 0, size := 0, vector := 0, modCount := 0, modTime := 0, w := 0, c := 0,
    armed := false, unsig := 0, t1 := 0, tSum := 0, t1Len := 0, reserved := 0 }

def HostSt.init : HostSt := { reads := [], asks := [], msgs := [], units := [], lastFn := 67 }

def SchInst.init : SchInst :=
  { cur := none, free := 0, sending := none, idle := none, oper := none, pend := none, entry := 0, gates := 0xFF, stuck := 0, lastFn := [],
    lastRg := [], deficit := [], credit := [], creditAt := [], deferAt := [], ctrl := [], wakeReq := none }

def HamperSt.init : HamperSt := { frames := [], pipe := [], nextId := 0, xoff := [], low := false, dropLow := 0, dropHigh := 0 }

def MacInst.init : MacInst :=
  { link := .disabled, fec := 0, lpiCap := false, twMin := 0, tw := 0, txLpi := false, rxLpi := false, rxLpiAt := 0,
    entering := none, lpiAt := 0, lpiShort := 0, ignoring := false, laneOk := 0, train := false, fails := 0, paused := [], pausedJ := [], wd := [], wdS := [], ctrlIn := [], xoffOn := false }

def CageSt.init : CageSt :=
  { present := false, highPower := false, fault := false, copper := false, maxPower := 0, mirror := [], supply := true,
    inReset := false }

def WatchSt.init : WatchSt := { running := false, ready := false, last := 0, matched := false }

def TallySt.init : TallySt :=
  { count := [], atJ := 0, base := [], mirror := [], mirror64 := 0, mirrorJ := 0, mfrac := [], cross := [], pend := [],
    frac := [], gaps := 0, calib := 0, powerMw := [], act := [], rxLoad := [], skipEnergy := false }

def EngSt.init : EngSt :=
  { state := .standby, act := false, fails := [], cause := 0, bistS := 0, ecc := 0, bistAt := 0, bistDur := 0 }

def LaneRx.init : LaneRx := { st := .locked, back := 0, prev := 0, run := 0, bads := 0, seq := 0, ep := 1, scr := 0 }

def LaneTx.init : LaneTx := { seq := 0, scr := 0 }

def LockSt.init : LockSt := { peer := true, rx := [], epoch := 1, train := false, began := 0, tx := [] }

def PairSt.init : PairSt :=
  { a := { EngSt.init with state := .active, act := true }, b := EngSt.init, warm := false, handover := none,
    verdict := false, resync := none, suspect := false, fenced := false, fencedWhy := 0, lastWhy := 0, lastDur := 0,
    ready := false, swapDue := false, held := [], merge := [], reads := [], locks := [], slotA := [], slotB := [],
    line := [], diverged := none, frozenAt := 0, relq := [], hold := [], holdAt := none, levels := none, cutTlp := 0,
    latched := none }

/-- A channel at reset: its period is that of the reset values of LO_L_CTRL, LO_F_CTRL and LO_S_CTRL (R275, 11_lookout). -/
def LoChan.init (ch : Nat) : LoChan :=
  { state := .counting, ref32 := false, tripped := false, moved := false, lastServe := 0, latched := 0, warnPc := 0, expiry := false,
    badServe := false, clockLoss := false, common := false, warns := 0, resets := 0, bads := 0, opened := 0,
    len := if ch < 2 then 1000 * uMs else if ch < 4 then uMs else 5000 * uMs, test := false, stalled := false }

def LookoutSt.init : LookoutSt :=
  { chans := [], hold := [], warnAt := [], warnInt := [], restart := false, supRest := false, evidence := [] }

def SupplySt.init : SupplySt :=
  { acFail := false, graceAt := none, shutdown := false, braced := false, nowMv := 12000, minMv := 0xFFFF,
    recovery := none, inReset := false, rails := 0, auxOn := true, lastEst := 0, refused := false, lowPower := false,
    cell := .charged, cellMv := 3000, cellLow := false, cellLowAt := none, warns := 0, dips := 0, bulks := 0,
    losses := 0, absents := 0, defDrops := 0, deferred := [], tries := 0, brownout := false, latchBit := false,
    retRun := none, latchOk := true, offOnCell := false, mains := true }

def IslSt.init : IslSt := { state := .on, isolated := false, auto := false, freq := 0 }

def PowerSt.init : PowerSt :=
  { mode := .run, target := none, entryAt := 0, pendCmd := none, latched := none, exitFrom := .run, stage := 0,
    retry := 0, wakeSrc := 0, wakeDet := 0, replayed := false, wakeFrom := .run, wakeOth := 0, wakeTime := 0,
    retries := 0, replays := 0, islands := [], point := 0, newPoint := none, stepIsl := [],
    vReady := true, queued := none, ceiling := 0, domain := false, idleSince := none, idleAt := 0,
    shortIdle := 0 }

/-- A knob at reset: its applied value and its loop's value are its base (R312, Table 14-1, 14_foreman). -/
def KnobSt.init (k : Nat) : KnobSt :=
  { applied := (knobRow k).base, loop := (knobRow k).base, clamped := false, src := 0, changes := 0, changed := 0,
    dwell := (knobRow k).dwell, wasPin := false, reported := false }

def ForemanSt.init : ForemanSt := { knobs := [], level := 0, cool := 0, hist := [] }

def PeerSt.init : PeerSt :=
  { present := false, lastAt := 0, serial := 0, known := false, session := 0, timeGood := false, kind := 0, lastId := 0,
    lastSeq := 0, lastOk := none }

def SlotSt.init : SlotSt := { data := [], len := 0, state := 0, seq := 0 }

def TetherSt.init : TetherSt :=
  { claim := .disabled, station := 0, lastNum := none, excluded := [], session := 0, term := false, peers := [],
    elder := 0, timeRef := 0, queue := [], sending := none, sendAt := 0, seq := 0, slots := [], fifo := [],
    counts := [], gs := .none, gsStat := .none, round := 0, proposer := 0, reason := 0, gsMode := 0, members := 0,
    agreed := 0, gsP := 0, gsT := 0, syncSeq := none, offsets := [], gsCmdBits := 0, heldWake := none, group := false }

def RegionSt.init : RegionSt := { head := 0, lap := 1 }

def LogSt.init : LogSt :=
  { stage := 0, ready := false, imgUsed := 0, reason := 0, imgGen := 0, startMs := 0, bootRom := false,
    saving := none, saveSt := 0, saveWhy := 0, logCmd := 0, spares := 128,
    badRows := [], wornRows := [], corrRows := [], remapped := [], regions := [], mem := [], sumCounts := [0, 0, 0, 0, 0, 0], sumSup := (0, 0), sumSec := 0, logSeq := 0, rateWin := 0, rateN := 0,
    rateDrop := 0, slot0 := { good := true, svn := 0, line := 4, raise := false, build := 0 },
    slot1 := { good := false, svn := 0, line := 0, raise := false, build := 0 }, running := 0, next := 0,
    fwState := 0, fwWhy := 0, fwLast := 0, minSvn := 0 }

def EventSt.init : EventSt := { alert := false, kept := [], rings := [], fans := 0, sigN := 0, sigCpl := 0, sigU := 0, msixHeld := [] }

/-- The sled right after a sled reset, every register at its reset value (R16, 00_scope; the register tables). The start
stages, the set-up image and the links come as commands. -/
def State.reset : State :=
  { setup := .init, ofs := [], time := .init, rtc := .init, links := [], linkDown := [], linkAer := [], fns := [],
    tx := [], rx := [], cq := [], host := .init, sched := [], hamper := .init, macs := [], cages := [], watch := [],
    tally := .init, pair := .init, lookout := .init, supply := .init, power := .init, foreman := .init,
    tether := .init, log := .init, events := .init, out := [], free := 0, pending := [] }

end Sys2Proof.Machine
end

