-- ==== Sys2Proof/Machine/Fields.lean ====
section
/-! DEFINITION. The active value of every S and K field, by the name of its register and field (Table 18-2,
18_register_map; the home tables of each block). -/
namespace Sys2Proof.Machine

/-- The active word of a set-up register (R12, 00_scope). -/
def State.activeWord (s : State) (off : Nat) : Nat := (Tbl.get resetWord s.setup.active off).toNat

/-- A field of an active set-up word. -/
def State.field (s : State) (off lo n : Nat) : Nat := bits (s.activeWord off) lo n

/-- The key of the per-function copy of a word behind RX_FN_SEL (R181, 07_receive). -/
def fnWindowKey (f off : Nat) : Nat := 0x100000 + 0x1000 * f + (off - 0x23000)

/-- pwrCtrl (R311, 13_islands_and_power_states). -/
def State.pwrCtrlPowerStyle (s : State) : Nat := s.field 0x2000 0 1
/-- pwrCtrl. -/
def State.pwrCtrlIdleEn (s : State) : Nat := s.field 0x2000 1 1
/-- pwrCtrl. -/
def State.pwrCtrlDeepStandbyOff (s : State) : Nat := s.field 0x2000 2 1

/-- wakeEn (R311, 13_islands_and_power_states). -/
def State.wakeEnEn (s : State) : Nat := s.field 0x2008 5 5

/-- retSet (R311, 13_islands_and_power_states). -/
def State.retSetHamperGroups (s : State) : Nat := s.field 0x200C 0 16
/-- retSet. -/
def State.retSetPort0 (s : State) : Nat := s.field 0x200C 16 1
/-- retSet. -/
def State.retSetPort1 (s : State) : Nat := s.field 0x200C 17 1
/-- retSet. -/
def State.retSetSched (s : State) : Nat := s.field 0x200C 18 1

/-- islTarget (R311, 13_islands_and_power_states). -/
def State.islTargetTarget (s : State) (i : Nat) : Nat := s.field (0x2040 + 0x4 * i) 0 2

/-- hlCtrl (R102, 04_host_links). -/
def State.hlCtrlBifurcate (s : State) (i : Nat) : Nat := s.field (0x4000 + 0x40 * i) 0 1
/-- hlCtrl. -/
def State.hlCtrlMaxSpeed (s : State) (i : Nat) : Nat := s.field (0x4000 + 0x40 * i) 1 3

/-- profCtrl (R102, 04_host_links). -/
def State.profCtrlEnable (s : State) (i : Nat) : Nat := s.field (0x5000 + 0x20 * i) 0 1
/-- profCtrl. -/
def State.profCtrlTagMode (s : State) (i : Nat) : Nat := s.field (0x5000 + 0x20 * i) 1 2
/-- profCtrl. -/
def State.profCtrlStagForce (s : State) (i : Nat) : Nat := s.field (0x5000 + 0x20 * i) 3 1
/-- profCtrl. -/
def State.profCtrlStagVid (s : State) (i : Nat) : Nat := s.field (0x5000 + 0x20 * i) 16 12

/-- profQuota (R102, 04_host_links). -/
def State.profQuotaTxRings (s : State) (i : Nat) : Nat := s.field (0x5004 + 0x20 * i) 0 4
/-- profQuota. -/
def State.profQuotaRxRings (s : State) (i : Nat) : Nat := s.field (0x5004 + 0x20 * i) 4 4
/-- profQuota. -/
def State.profQuotaCqs (s : State) (i : Nat) : Nat := s.field (0x5004 + 0x20 * i) 8 2

/-- imageTagLo (R102, 04_host_links). -/
def State.imageTagLoTag (s : State) (i : Nat) : Nat := s.field (0x5008 + 0x20 * i) 0 32

/-- imageTagHi (R102, 04_host_links). -/
def State.imageTagHiTag (s : State) (i : Nat) : Nat := s.field (0x500C + 0x20 * i) 0 32

/-- tbRate (R102, 04_host_links). -/
def State.tbRateMbps (s : State) (i : Nat) : Nat := s.field (0x5010 + 0x20 * i) 0 20

/-- tbBurst (R102, 04_host_links). -/
def State.tbBurstBytes (s : State) (i : Nat) : Nat := s.field (0x5014 + 0x20 * i) 0 20

/-- fenceLimit (R102, 04_host_links). -/
def State.fenceLimitLimit (s : State) (i : Nat) : Nat := s.field (0x5018 + 0x20 * i) 0 11

/-- fenceBaseLo (R102, 04_host_links). -/
def State.fenceBaseLoBase (s : State) (i j : Nat) : Nat := s.field (0x6000 + 0x100 * i + 0x10 * j) 12 20

/-- fenceBaseHi (R102, 04_host_links). -/
def State.fenceBaseHiBase (s : State) (i j : Nat) : Nat := s.field (0x6004 + 0x100 * i + 0x10 * j) 0 32

/-- fenceLimitLo (R102, 04_host_links). -/
def State.fenceLimitLoLimit (s : State) (i j : Nat) : Nat := s.field (0x6008 + 0x100 * i + 0x10 * j) 12 20

/-- fenceLimitHi (R102, 04_host_links). -/
def State.fenceLimitHiLimit (s : State) (i j : Nat) : Nat := s.field (0x600C + 0x100 * i + 0x10 * j) 0 32

/-- rxWait (R129, 05_rings_and_doorbells). -/
def State.rxWaitUs (s : State) : Nat := s.field 0x10000 0 14

/-- evrCtrl (R129, 05_rings_and_doorbells). -/
def State.evrCtrlMinSev (s : State) (i : Nat) : Nat := s.field (0x10010 + 0x4 * i) 0 3

/-- ringAlloc (R129, 05_rings_and_doorbells). -/
def State.ringAllocTxBase (s : State) (i : Nat) : Nat := s.field (0x10100 + 0x4 * i) 0 10
/-- ringAlloc. -/
def State.ringAllocRxBase (s : State) (i : Nat) : Nat := s.field (0x10100 + 0x4 * i) 10 10
/-- ringAlloc. -/
def State.ringAllocCqBase (s : State) (i : Nat) : Nat := s.field (0x10100 + 0x4 * i) 20 8

/-- rxCtrl (R181, 07_receive). -/
def State.rxCtrlFcsKeep (s : State) (i : Nat) : Nat := s.field (0x20000 + 0x20 * i) 0 1
/-- rxCtrl. -/
def State.rxCtrlUnmatched (s : State) (i : Nat) : Nat := s.field (0x20000 + 0x20 * i) 1 1
/-- rxCtrl. -/
def State.rxCtrlDefaultClass (s : State) (i : Nat) : Nat := s.field (0x20000 + 0x20 * i) 2 3
/-- rxCtrl. -/
def State.rxCtrlDefOf (s : State) (i : Nat) : Nat := s.field (0x20000 + 0x20 * i) 8 2
/-- rxCtrl. -/
def State.rxCtrlDefRing (s : State) (i : Nat) : Nat := s.field (0x20000 + 0x20 * i) 16 5

/-- rxPcpMap (R181, 07_receive). -/
def State.rxPcpMapMap (s : State) (i : Nat) : Nat := s.field (0x20004 + 0x20 * i) 0 24

/-- headroom (R181, 07_receive). -/
def State.headroomCells (s : State) (i : Nat) : Nat := s.field (0x20008 + 0x20 * i) 0 14

/-- hamperAlpha (R181, 07_receive). -/
def State.hamperAlphaE0 (s : State) : Nat := s.field 0x20400 0 4
/-- hamperAlpha. -/
def State.hamperAlphaE1 (s : State) : Nat := s.field 0x20400 4 4
/-- hamperAlpha. -/
def State.hamperAlphaE2 (s : State) : Nat := s.field 0x20400 8 4
/-- hamperAlpha. -/
def State.hamperAlphaE3 (s : State) : Nat := s.field 0x20400 12 4
/-- hamperAlpha. -/
def State.hamperAlphaE4 (s : State) : Nat := s.field 0x20400 16 4
/-- hamperAlpha. -/
def State.hamperAlphaE5 (s : State) : Nat := s.field 0x20400 20 4
/-- hamperAlpha. -/
def State.hamperAlphaE6 (s : State) : Nat := s.field 0x20400 24 4
/-- hamperAlpha. -/
def State.hamperAlphaE7 (s : State) : Nat := s.field 0x20400 28 4

/-- rxFn (R181, 07_receive). -/
def State.rxFnBcastEn (s : State) (i : Nat) : Nat := s.field (0x20800 + 0x4 * i) 0 1
/-- rxFn. -/
def State.rxFnMcastEn (s : State) (i : Nat) : Nat := s.field (0x20800 + 0x4 * i) 1 1
/-- rxFn. -/
def State.rxFnVlanEn (s : State) (i : Nat) : Nat := s.field (0x20800 + 0x4 * i) 2 1
/-- rxFn. -/
def State.rxFnUntaggedOk (s : State) (i : Nat) : Nat := s.field (0x20800 + 0x4 * i) 3 1
/-- rxFn. -/
def State.rxFnStripC (s : State) (i : Nat) : Nat := s.field (0x20800 + 0x4 * i) 4 1
/-- rxFn. -/
def State.rxFnHashEn (s : State) (i : Nat) : Nat := s.field (0x20800 + 0x4 * i) 5 1
/-- rxFn. -/
def State.rxFnDefaultRing (s : State) (i : Nat) : Nat := s.field (0x20800 + 0x4 * i) 6 5

/-- rxFnCap (R181, 07_receive). -/
def State.rxFnCapCells (s : State) (i : Nat) : Nat := s.field (0x20A00 + 0x4 * i) 0 16

/-- pfcXoff (R181, 07_receive). -/
def State.pfcXoffCells (s : State) (i : Nat) : Nat := s.field (0x21000 + 0x8 * i) 0 16

/-- pfcXon (R181, 07_receive). -/
def State.pfcXonCells (s : State) (i : Nat) : Nat := s.field (0x21004 + 0x8 * i) 0 16

/-- mcastHash of function f (R181, 07_receive). -/
def State.mcastHash (s : State) (f i : Nat) : Nat := s.activeWord (fnWindowKey f (0x23200 + 4 * i))

/-- vlanFilter of function f (R181, 07_receive). -/
def State.vlanFilter (s : State) (f i : Nat) : Nat := s.activeWord (fnWindowKey f (0x23400 + 4 * i))

/-- hashKey of function f (R181, 07_receive). -/
def State.hashKey (s : State) (f i : Nat) : Nat := s.activeWord (fnWindowKey f (0x23600 + 4 * i))

/-- indir of function f (R181, 07_receive). -/
def State.indir (s : State) (f i : Nat) : Nat := s.activeWord (fnWindowKey f (0x23680 + 4 * i))

/-- daEntryLo (R181, 07_receive). -/
def State.daEntryLoAddr (s : State) (i : Nat) : Nat := s.field (0x28000 + 0x8 * i) 0 32

/-- daEntryHi (R181, 07_receive). -/
def State.daEntryHiAddr (s : State) (i : Nat) : Nat := s.field (0x28004 + 0x8 * i) 0 16
/-- daEntryHi. -/
def State.daEntryHiFn (s : State) (i : Nat) : Nat := s.field (0x28004 + 0x8 * i) 16 7
/-- daEntryHi. -/
def State.daEntryHiPorts (s : State) (i : Nat) : Nat := s.field (0x28004 + 0x8 * i) 23 2
/-- daEntryHi. -/
def State.daEntryHiValid (s : State) (i : Nat) : Nat := s.field (0x28004 + 0x8 * i) 31 1

/-- schCtrl (R157, 06_transmit). -/
def State.schCtrlPadEn (s : State) (i : Nat) : Nat := s.field (0x30000 + 0x40 * i) 0 1
/-- schCtrl. -/
def State.schCtrlGateEn (s : State) (i : Nat) : Nat := s.field (0x30000 + 0x40 * i) 1 1
/-- schCtrl. -/
def State.schCtrlCbsEn (s : State) (i : Nat) : Nat := s.field (0x30000 + 0x40 * i) 8 8

/-- gclCycle (R157, 06_transmit). -/
def State.gclCycleNs (s : State) (i : Nat) : Nat := s.field (0x30004 + 0x40 * i) 0 30

/-- gclLen (R157, 06_transmit). -/
def State.gclLenLen (s : State) (i : Nat) : Nat := s.field (0x30008 + 0x40 * i) 0 9

/-- gclBaseNs (R157, 06_transmit). -/
def State.gclBaseNsNs (s : State) (i : Nat) : Nat := s.field (0x3000C + 0x40 * i) 0 30

/-- gclBaseSLo (R157, 06_transmit). -/
def State.gclBaseSLoS (s : State) (i : Nat) : Nat := s.field (0x30010 + 0x40 * i) 0 32

/-- gclBaseSHi (R157, 06_transmit). -/
def State.gclBaseSHiS (s : State) (i : Nat) : Nat := s.field (0x30014 + 0x40 * i) 0 16

/-- cbsSlope (R157, 06_transmit). -/
def State.cbsSlopeMbps (s : State) (i j : Nat) : Nat := s.field (0x30800 + 0x20 * i + 0x4 * j) 0 20

/-- gclGates (R157, 06_transmit). -/
def State.gclGatesGates (s : State) (i j : Nat) : Nat := s.field (0x34000 + 0x800 * i + 0x8 * j) 0 8

/-- gclInterval (R157, 06_transmit). -/
def State.gclIntervalNs (s : State) (i j : Nat) : Nat := s.field (0x34004 + 0x800 * i + 0x8 * j) 0 30

/-- fnTx (R157, 06_transmit). -/
def State.fnTxQuantum (s : State) (i : Nat) : Nat := s.field (0x3C000 + 0x4 * i) 0 16
/-- fnTx. -/
def State.fnTxHold (s : State) (i : Nat) : Nat := s.field (0x3C000 + 0x4 * i) 16 10

/-- macCfg (R211, 08_the_wire). -/
def State.macCfgEnable (s : State) (i : Nat) : Nat := s.field (0x40000 + 0x100 * i) 0 1
/-- macCfg. -/
def State.macCfgFecMode (s : State) (i : Nat) : Nat := s.field (0x40000 + 0x100 * i) 1 3
/-- macCfg. -/
def State.macCfgAnEn (s : State) (i : Nat) : Nat := s.field (0x40000 + 0x100 * i) 4 1
/-- macCfg. -/
def State.macCfgFcMode (s : State) (i : Nat) : Nat := s.field (0x40000 + 0x100 * i) 5 2
/-- macCfg. -/
def State.macCfgPfcEn (s : State) (i : Nat) : Nat := s.field (0x40000 + 0x100 * i) 8 8
/-- macCfg. -/
def State.macCfgTagAllow (s : State) (i : Nat) : Nat := s.field (0x40000 + 0x100 * i) 16 1
/-- macCfg. -/
def State.macCfgLpiEn (s : State) (i : Nat) : Nat := s.field (0x40000 + 0x100 * i) 17 1
/-- macCfg. -/
def State.macCfgLldpAgent (s : State) (i : Nat) : Nat := s.field (0x40000 + 0x100 * i) 18 1

/-- maxlen (R211, 08_the_wire). -/
def State.maxlenBytes (s : State) (i : Nat) : Nat := s.field (0x40004 + 0x100 * i) 0 15

/-- macAddrLo (R211, 08_the_wire). -/
def State.macAddrLoAddr (s : State) (i : Nat) : Nat := s.field (0x40008 + 0x100 * i) 0 32

/-- macAddrHi (R211, 08_the_wire). -/
def State.macAddrHiAddr (s : State) (i : Nat) : Nat := s.field (0x4000C + 0x100 * i) 0 16

/-- fcQuanta (R211, 08_the_wire). -/
def State.fcQuantaQuanta (s : State) (i : Nat) : Nat := s.field (0x40010 + 0x100 * i) 0 16
/-- fcQuanta. -/
def State.fcQuantaRefresh (s : State) (i : Nat) : Nat := s.field (0x40010 + 0x100 * i) 16 16

/-- pauseThresh (R211, 08_the_wire). -/
def State.pauseThreshXoff (s : State) (i : Nat) : Nat := s.field (0x40014 + 0x100 * i) 0 16
/-- pauseThresh. -/
def State.pauseThreshXon (s : State) (i : Nat) : Nat := s.field (0x40014 + 0x100 * i) 16 16

/-- pauseWd (R211, 08_the_wire). -/
def State.pauseWdMs (s : State) (i : Nat) : Nat := s.field (0x40018 + 0x100 * i) 0 14
/-- pauseWd. -/
def State.pauseWdMode (s : State) (i : Nat) : Nat := s.field (0x40018 + 0x100 * i) 16 1

/-- lpiIdle (R211, 08_the_wire). -/
def State.lpiIdleUs (s : State) (i : Nat) : Nat := s.field (0x40020 + 0x100 * i) 0 16

/-- portCfg (R211, 08_the_wire). -/
def State.portCfgBreakout (s : State) (i : Nat) : Nat := s.field (0x42000 + 0x40 * i) 0 3
/-- portCfg. -/
def State.portCfgDebounce (s : State) (i : Nat) : Nat := s.field (0x42000 + 0x40 * i) 8 7

/-- watchCtrl (R211, 08_the_wire). -/
def State.watchCtrlEn (s : State) (i : Nat) : Nat := s.field (0x42010 + 0x40 * i) 0 1
/-- watchCtrl. -/
def State.watchCtrlMagicEn (s : State) (i : Nat) : Nat := s.field (0x42010 + 0x40 * i) 1 1
/-- watchCtrl. -/
def State.watchCtrlFec (s : State) (i : Nat) : Nat := s.field (0x42010 + 0x40 * i) 2 2

/-- watchMacLo (R211, 08_the_wire). -/
def State.watchMacLoAddr (s : State) (i : Nat) : Nat := s.field (0x42014 + 0x40 * i) 0 32

/-- watchMacHi (R211, 08_the_wire). -/
def State.watchMacHiAddr (s : State) (i : Nat) : Nat := s.field (0x42018 + 0x40 * i) 0 16

/-- patMask (R211, 08_the_wire). -/
def State.patMaskMask (s : State) (i j k : Nat) : Nat := s.field (0x44000 + 0x400 * i + 0x20 * j + 0x4 * k) 0 32

/-- patCtrl (R211, 08_the_wire). -/
def State.patCtrlCrc (s : State) (i j : Nat) : Nat := s.field (0x44010 + 0x400 * i + 0x20 * j) 0 16
/-- patCtrl. -/
def State.patCtrlEn (s : State) (i j : Nat) : Nat := s.field (0x44010 + 0x400 * i + 0x20 * j) 16 1

/-- timeHold (R62, 02_time_and_windows). -/
def State.timeHoldMs (s : State) : Nat := s.field 0x50030 0 16

/-- timeSrcEn (R62, 02_time_and_windows). -/
def State.timeSrcEnPtp (s : State) : Nat := s.field 0x50034 0 1
/-- timeSrcEn. -/
def State.timeSrcEnPtm (s : State) : Nat := s.field 0x50034 1 1
/-- timeSrcEn. -/
def State.timeSrcEnTether (s : State) : Nat := s.field 0x50034 2 1

/-- tsOnestepEn (R62, 02_time_and_windows). -/
def State.tsOnestepEnEn (s : State) : Nat := s.field 0x50040 0 16

/-- tsAdj (R62, 02_time_and_windows). -/
def State.tsAdjRxAdj (s : State) (i : Nat) : Nat := s.field (0x50100 + 0x4 * i) 0 16
/-- tsAdj. -/
def State.tsAdjTxAdj (s : State) (i : Nat) : Nat := s.field (0x50100 + 0x4 * i) 16 16

/-- energyCtrl (R229, 09_tally). -/
def State.energyCtrlStaticSplit (s : State) : Nat := s.field 0x60040 0 2
/-- energyCtrl. -/
def State.energyCtrlPairCharge (s : State) : Nat := s.field 0x60040 2 1

/-- pairMode (R259, 10_engine_pair). -/
def State.pairModeMode (s : State) : Nat := s.field 0x70000 0 1
/-- pairMode. -/
def State.pairModePairHandover (s : State) : Nat := s.field 0x70000 1 1

/-- pairSwap (R259, 10_engine_pair). -/
def State.pairSwapSwapPeriod (s : State) : Nat := s.field 0x70004 0 12

/-- pairGuard (R259, 10_engine_pair). -/
def State.pairGuardGuardSlots (s : State) : Nat := s.field 0x70008 0 13

/-- pairCtrl (R259, 10_engine_pair). -/
def State.pairCtrlBistEn (s : State) : Nat := s.field 0x7000C 0 1
/-- pairCtrl. -/
def State.pairCtrlAutoResync (s : State) : Nat := s.field 0x7000C 1 1

/-- loLCtrl (R275, 11_lookout). -/
def State.loLCtrlPeriodMs (s : State) : Nat := s.field 0x78000 0 16
/-- loLCtrl. -/
def State.loLCtrlClkSel (s : State) : Nat := s.field 0x78000 16 1

/-- loFCtrl (R275, 11_lookout). -/
def State.loFCtrlPeriodUs (s : State) : Nat := s.field 0x78004 0 20

/-- loSCtrl (R275, 11_lookout). -/
def State.loSCtrlPeriodMs (s : State) : Nat := s.field 0x78008 0 16

/-- supCtrl (R292, 12_supply_and_backup_cell). -/
def State.supCtrlMainsGrace (s : State) : Nat := s.field 0x80000 0 12
/-- supCtrl. -/
def State.supCtrlRestartOnMains (s : State) : Nat := s.field 0x80000 16 1

/-- aoBudget (R292, 12_supply_and_backup_cell). -/
def State.aoBudgetUa (s : State) : Nat := s.field 0x80010 0 15
/-- aoBudget. -/
def State.aoBudgetTempMargin (s : State) : Nat := s.field 0x80010 16 8

/-- tetherCtrl (R355, 15_tether). -/
def State.tetherCtrlEn (s : State) : Nat := s.field 0x88000 0 1
/-- tetherCtrl. -/
def State.tetherCtrlPrefEn (s : State) : Nat := s.field 0x88000 1 1
/-- tetherCtrl. -/
def State.tetherCtrlPreferred (s : State) : Nat := s.field 0x88000 2 6
/-- tetherCtrl. -/
def State.tetherCtrlGsAllow (s : State) : Nat := s.field 0x88000 8 1

/-- tetherDelay (R355, 15_tether). -/
def State.tetherDelayNs (s : State) : Nat := s.field 0x88004 0 9

/-- tetherGsLead (R355, 15_tether). -/
def State.tetherGsLeadMs (s : State) : Nat := s.field 0x88008 0 10

/-- fmCtrl (R323, 14_foreman). -/
def State.fmCtrlLoopsEn (s : State) : Nat := s.field 0x90000 0 1

/-- fmThermal (R323, 14_foreman). -/
def State.fmThermalHot (s : State) : Nat := s.field 0x90004 0 7

/-- fmMode (R323, 14_foreman). -/
def State.fmModeLoopEn (s : State) (i : Nat) : Nat := s.field (0x90100 + 0x20 * i) 0 1
/-- fmMode. -/
def State.fmModePinEn (s : State) (i : Nat) : Nat := s.field (0x90100 + 0x20 * i) 1 1

/-- fmFloor (R323, 14_foreman). -/
def State.fmFloorValue (s : State) (i : Nat) : Nat := s.field (0x90104 + 0x20 * i) 0 16

/-- fmCeiling (R323, 14_foreman). -/
def State.fmCeilingValue (s : State) (i : Nat) : Nat := s.field (0x90108 + 0x20 * i) 0 16

/-- fmPin (R323, 14_foreman). -/
def State.fmPinValue (s : State) (i : Nat) : Nat := s.field (0x9010C + 0x20 * i) 0 16

/-- fmDwell (R323, 14_foreman). -/
def State.fmDwellUs (s : State) (i : Nat) : Nat := s.field (0x90110 + 0x20 * i) 0 20

/-- ledgerPeriod (R369, 16_start_up_and_logbook). -/
def State.ledgerPeriodMin (s : State) : Nat := s.field 0xA00A0 0 11

/-- evAlert (R389, 18_register_map). -/
def State.evAlertMinSev (s : State) : Nat := s.field 0xF0000 0 3

end Sys2Proof.Machine
end

