-- ==== Sys2Proof/Machine/Names.lean ====
section
/-! DEFINITION. The names of the events (Table 18-3, R387, 18_register_map) and of the Tally counters (Table 9-2, R215,
09_tally; Table 10-11, 10_engine_pair), with their codes. -/
namespace Sys2Proof.Machine

/-- The events of Table 18-3 in code order (R387, 18_register_map). -/
inductive Ev where
  | commitApplied | commitDeferred | commitRefused | setupLocked | lockedWrite | pwrEntered | pwrExited
  | pwrEntryRefused | readyTimeout | dvfsRefused | dvfsTimeout | wakePinNoMains | partnerCheckFail
  | logbookCheckFail | hlLinkUp | hlLinkDown | hlLinkDegraded | fnPresent | fnEnrolled | fnEnrolRefused | fnEvicted
  | fnQuarantined | fnReleased | fenceHit | hlAer | timeStepped | timeSourceChanged | timeAdjIgnored | timeRestored
  | rtcAlarm | tsOnestepSkip | dbRejected | descBadFormat | rxNoBuffer | rxAbandoned | cqFull | eventLost
  | ringCreated | ringDestroyed | rxHamperDrop | pfcHeadroomDrop | hamperReserveEntered | rxUnmatchedDrop
  | rxOversize | gclApplied | gateStuck | txStagSpoof | txRejected | linkUp | linkDown | laneLoss | linkTrainFail
  | pauseBroken | pauseRearmed | lpiTwClamped | watchLinkFail | wakeFrame | cageInserted | cageRemoved
  | cagePowerDenied | cageFault | moduleAlarm | tallyHalf | tallySnapshot | tallyGap | handover | soloEntered
  | divergence | verdictResult | engineFailed | engineSuspect | engineRetired | resyncDone | resyncFailed | fenced
  | linkLockLost | pairCmdRefused | lookoutWarning | lookoutReset | lookoutClockTrip | mgmtRestart
  | supervisorRestarted | supplyWarn | supplyRecovered | bulkReset | mainsLost | mainsRestored | powerLossShutdown
  | railFault | aoBudgetRefused | aoBrownout | cellAbsent | cellPresent | cellLost | cellLow | chargeTempHold
  | tetherJoined | tetherStationUp | tetherStationGone | tetherElderChanged | tetherDuplicate | tetherLateCollision
  | tetherFull | timeRefChanged | gsCommitted | gsAborted | standFailover | tetherMsg | policyClamp
  | policyClampEnd | fmThermalLevel | sledStarted | setupImageFallback | setupImageNone | setupImageSaved
  | fwFallback | fwStaged | logbookRowRetired | logbookWorn | eventTest
deriving DecidableEq, Repr

/-- The code of an event (Table 18-3, R387, 18_register_map). -/
def Ev.code : Ev → Nat
  | .commitApplied => 0x0101
  | .commitDeferred => 0x0102
  | .commitRefused => 0x0103
  | .setupLocked => 0x0104
  | .lockedWrite => 0x0105
  | .pwrEntered => 0x0201
  | .pwrExited => 0x0202
  | .pwrEntryRefused => 0x0203
  | .readyTimeout => 0x0204
  | .dvfsRefused => 0x0205
  | .dvfsTimeout => 0x0206
  | .wakePinNoMains => 0x0207
  | .partnerCheckFail => 0x0301
  | .logbookCheckFail => 0x0302
  | .hlLinkUp => 0x0401
  | .hlLinkDown => 0x0402
  | .hlLinkDegraded => 0x0403
  | .fnPresent => 0x0404
  | .fnEnrolled => 0x0405
  | .fnEnrolRefused => 0x0406
  | .fnEvicted => 0x0407
  | .fnQuarantined => 0x0408
  | .fnReleased => 0x0409
  | .fenceHit => 0x040A
  | .hlAer => 0x040B
  | .timeStepped => 0x0501
  | .timeSourceChanged => 0x0502
  | .timeAdjIgnored => 0x0503
  | .timeRestored => 0x0504
  | .rtcAlarm => 0x0505
  | .tsOnestepSkip => 0x0506
  | .dbRejected => 0x1001
  | .descBadFormat => 0x1002
  | .rxNoBuffer => 0x1003
  | .rxAbandoned => 0x1004
  | .cqFull => 0x1005
  | .eventLost => 0x1006
  | .ringCreated => 0x1007
  | .ringDestroyed => 0x1008
  | .rxHamperDrop => 0x2001
  | .pfcHeadroomDrop => 0x2002
  | .hamperReserveEntered => 0x2003
  | .rxUnmatchedDrop => 0x2004
  | .rxOversize => 0x2005
  | .gclApplied => 0x3001
  | .gateStuck => 0x3002
  | .txStagSpoof => 0x3003
  | .txRejected => 0x3004
  | .linkUp => 0x4001
  | .linkDown => 0x4002
  | .laneLoss => 0x4003
  | .linkTrainFail => 0x4004
  | .pauseBroken => 0x4005
  | .pauseRearmed => 0x4006
  | .lpiTwClamped => 0x4007
  | .watchLinkFail => 0x4008
  | .wakeFrame => 0x4009
  | .cageInserted => 0x400A
  | .cageRemoved => 0x400B
  | .cagePowerDenied => 0x400C
  | .cageFault => 0x400D
  | .moduleAlarm => 0x400E
  | .tallyHalf => 0x6001
  | .tallySnapshot => 0x6002
  | .tallyGap => 0x6003
  | .handover => 0x7001
  | .soloEntered => 0x7002
  | .divergence => 0x7003
  | .verdictResult => 0x7004
  | .engineFailed => 0x7005
  | .engineSuspect => 0x7006
  | .engineRetired => 0x7007
  | .resyncDone => 0x7008
  | .resyncFailed => 0x7009
  | .fenced => 0x700A
  | .linkLockLost => 0x700B
  | .pairCmdRefused => 0x700C
  | .lookoutWarning => 0x7801
  | .lookoutReset => 0x7802
  | .lookoutClockTrip => 0x7803
  | .mgmtRestart => 0x7804
  | .supervisorRestarted => 0x7805
  | .supplyWarn => 0x8001
  | .supplyRecovered => 0x8002
  | .bulkReset => 0x8003
  | .mainsLost => 0x8004
  | .mainsRestored => 0x8005
  | .powerLossShutdown => 0x8006
  | .railFault => 0x8007
  | .aoBudgetRefused => 0x8008
  | .aoBrownout => 0x8009
  | .cellAbsent => 0x800A
  | .cellPresent => 0x800B
  | .cellLost => 0x800C
  | .cellLow => 0x800D
  | .chargeTempHold => 0x800E
  | .tetherJoined => 0x8801
  | .tetherStationUp => 0x8802
  | .tetherStationGone => 0x8803
  | .tetherElderChanged => 0x8804
  | .tetherDuplicate => 0x8805
  | .tetherLateCollision => 0x8806
  | .tetherFull => 0x8807
  | .timeRefChanged => 0x8808
  | .gsCommitted => 0x8809
  | .gsAborted => 0x880A
  | .standFailover => 0x880B
  | .tetherMsg => 0x880C
  | .policyClamp => 0x9001
  | .policyClampEnd => 0x9002
  | .fmThermalLevel => 0x9003
  | .sledStarted => 0xA001
  | .setupImageFallback => 0xA002
  | .setupImageNone => 0xA003
  | .setupImageSaved => 0xA004
  | .fwFallback => 0xA005
  | .fwStaged => 0xA006
  | .logbookRowRetired => 0xA007
  | .logbookWorn => 0xA008
  | .eventTest => 0xF001

/-- The severity of an event: 0 Info, 1 Notice, 2 Warning, 3 Error, 4 Critical (Table 18-3, R387, 18_register_map). -/
def Ev.severity : Ev → Nat
  | .setupLocked | .wakePinNoMains | .hlLinkDown | .fnEvicted | .fnReleased | .timeStepped | .timeSourceChanged
  | .timeRestored | .hamperReserveEntered | .linkDown | .pauseRearmed | .cageRemoved | .handover | .resyncDone
  | .supplyRecovered | .mainsRestored | .chargeTempHold | .tetherStationGone | .tetherElderChanged
  | .timeRefChanged | .gsAborted | .standFailover | .policyClamp | .sledStarted | .fwStaged => 1
  | .commitRefused | .lockedWrite | .pwrEntryRefused | .dvfsRefused | .partnerCheckFail | .hlLinkDegraded
  | .fnEnrolRefused | .fenceHit | .hlAer | .tsOnestepSkip | .dbRejected | .descBadFormat | .rxAbandoned | .cqFull
  | .eventLost | .rxHamperDrop | .rxOversize | .gateStuck | .txStagSpoof | .txRejected | .laneLoss | .linkTrainFail
  | .pauseBroken | .watchLinkFail | .cagePowerDenied | .moduleAlarm | .tallyGap | .engineSuspect | .pairCmdRefused
  | .lookoutWarning | .lookoutClockTrip | .supplyWarn | .mainsLost | .aoBudgetRefused | .cellAbsent | .cellLow
  | .tetherDuplicate | .tetherLateCollision | .tetherFull | .fmThermalLevel | .setupImageFallback
  | .logbookRowRetired => 2
  | .readyTimeout | .dvfsTimeout | .logbookCheckFail | .fnQuarantined | .pfcHeadroomDrop | .cageFault
  | .soloEntered | .divergence | .verdictResult | .engineFailed | .resyncFailed | .linkLockLost | .lookoutReset
  | .mgmtRestart | .supervisorRestarted | .railFault | .aoBrownout | .cellLost | .setupImageNone | .fwFallback
  | .logbookWorn => 3
  | .engineRetired | .fenced | .bulkReset | .powerLossShutdown => 4
  | _ => 0

/-- Whether an event is copied to the Logbook (one asterisk or two in Table 18-3, R387, 18_register_map). -/
def Ev.logged : Ev → Bool
  | .commitRefused | .setupLocked | .lockedWrite | .pwrEntered | .pwrExited | .pwrEntryRefused | .readyTimeout
  | .dvfsTimeout | .wakePinNoMains | .partnerCheckFail | .hlLinkDown | .hlLinkDegraded | .fnEnrolled
  | .fnEnrolRefused | .fnEvicted | .fnQuarantined | .fnReleased | .hlAer | .timeStepped | .timeSourceChanged
  | .timeRestored | .eventLost | .pfcHeadroomDrop | .gateStuck | .txStagSpoof | .linkDown | .laneLoss
  | .linkTrainFail | .pauseBroken | .watchLinkFail | .cageRemoved | .cagePowerDenied | .cageFault | .moduleAlarm
  | .tallyGap | .handover | .soloEntered | .divergence | .verdictResult | .engineFailed | .engineSuspect
  | .engineRetired | .resyncDone | .resyncFailed | .fenced | .linkLockLost | .lookoutWarning | .lookoutReset
  | .lookoutClockTrip | .mgmtRestart | .supervisorRestarted | .supplyWarn | .supplyRecovered | .bulkReset
  | .mainsLost | .mainsRestored | .powerLossShutdown | .railFault | .aoBudgetRefused | .aoBrownout | .cellAbsent
  | .cellLost | .cellLow | .tetherJoined | .tetherStationGone | .tetherElderChanged | .tetherDuplicate
  | .tetherLateCollision | .tetherFull | .timeRefChanged | .gsCommitted | .gsAborted | .standFailover
  | .policyClamp | .fmThermalLevel | .sledStarted | .setupImageFallback | .setupImageNone | .setupImageSaved
  | .fwFallback | .fwStaged | .logbookRowRetired | .logbookWorn => true
  | _ => false

/-- Whether an event is written to the Logbook only (two asterisks in Table 18-3, R387, 18_register_map). -/
def Ev.logOnly : Ev → Bool
  | .fenced | .powerLossShutdown => true
  | _ => false

/-- The counters of Table 9-2 and Table 10-11 (R215, 09_tally); a counter kept in several scopes has one name for each. -/
inductive Ctr where
  | laneLoss | watchFrames | watchMatch | rxRunt | rxOversize | rxFcsErr | rxFragment | rxBadSof | rxL3Bad
  | rxL4Bad | rxUnmatched | rxUnmatchedDrop | rxUcast | rxMcast | rxBcast | rxSize0 | rxSize1 | rxSize2 | rxSize3
  | rxSize4 | rxSize5 | rxSize6 | rxSize7 | rxSize8 | rxSize9 | rxSizeOver | txUcast | txMcast | txBcast | txSize0
  | txSize1 | txSize2 | txSize3 | txSize4 | txSize5 | txSize6 | txSize7 | txSize8 | txSize9 | txSegments | txPadded
  | txEarlyWake | onestepSkip | linkDownCount | fecCorrected | fecUncorrected | ctrlBad | ctrlIgnored | ctrlUnknown
  | pauseRx | pauseTx | pauseHeld | pauseIgnored | txLpiEntries | txLpiTime | rxLpiTime | lldpRx | lldpTx
  | rxFrames | rxOctets | txFrames | txOctets | gateDefer | pfcRx | pfcTx | pauseWdExpire | pfcHeadroomDrop
  | dbNotEnrolled | mbxIgnored | fnCheckFail | fenceViolation | evictDrop | evictCount | dbBadFormat | dbNotOwned
  | dbBadIndex | dbBadLap | rxVlanFiltered | flowHit | rxFnDown | rxNoRing | txStagSpoof | tbThrottled | fnRxFrames
  | fnRxOctets | fnTxFrames | fnTxOctets | energyUj | hamperPoolDrop | hamperFnDrop | hamperQDrop | txDbAccepted
  | txDbRepeat | txRingCheckFail | txDescBadFormat | txRecalled | txRecallLate | txBadHeader | txTooLong
  | txTooShort | txGateTooLong | rxDbAccepted | rxDbRepeat | rxRingCheckFail | rxDescBadFormat | noBuffer
  | cqFullDrop | rxAbandoned | cqDbAccepted | cqDbRepeat | ofDbAccepted | ofDbRepeat | evrLost | reserveUsed
  | shellEnergyUj | operatorEnergyUj | unmeasuredMs | handoverCount | swapCount | divergenceCount | verdictCount
  | verdictDrop | verdictResent | holdGapNs | warmHamperLost | handoverRxDrop | reissuedSends | guardReturned
  | guardOverrun | handoverDbMerged | resyncCount | bistCycles | flitBadAj | flitBadBj | flitBadMirror | lockLossAj
  | lockLossBj | lockLossMirror | heartbeatMiss | handoverWrMerged
deriving DecidableEq, Repr

/-- The code of a counter: scope x 256 plus its position (R215, 09_tally). -/
def Ctr.code : Ctr → Nat
  | .laneLoss => 0x0000
  | .watchFrames => 0x0100
  | .watchMatch => 0x0101
  | .rxRunt => 0x0200
  | .rxOversize => 0x0201
  | .rxFcsErr => 0x0202
  | .rxFragment => 0x0203
  | .rxBadSof => 0x0204
  | .rxL3Bad => 0x0205
  | .rxL4Bad => 0x0206
  | .rxUnmatched => 0x0207
  | .rxUnmatchedDrop => 0x0208
  | .rxUcast => 0x0209
  | .rxMcast => 0x020A
  | .rxBcast => 0x020B
  | .rxSize0 => 0x020C
  | .rxSize1 => 0x020D
  | .rxSize2 => 0x020E
  | .rxSize3 => 0x020F
  | .rxSize4 => 0x0210
  | .rxSize5 => 0x0211
  | .rxSize6 => 0x0212
  | .rxSize7 => 0x0213
  | .rxSize8 => 0x0214
  | .rxSize9 => 0x0215
  | .rxSizeOver => 0x0216
  | .txUcast => 0x0217
  | .txMcast => 0x0218
  | .txBcast => 0x0219
  | .txSize0 => 0x021A
  | .txSize1 => 0x021B
  | .txSize2 => 0x021C
  | .txSize3 => 0x021D
  | .txSize4 => 0x021E
  | .txSize5 => 0x021F
  | .txSize6 => 0x0220
  | .txSize7 => 0x0221
  | .txSize8 => 0x0222
  | .txSize9 => 0x0223
  | .txSegments => 0x0224
  | .txPadded => 0x0225
  | .txEarlyWake => 0x0226
  | .onestepSkip => 0x0227
  | .linkDownCount => 0x0228
  | .fecCorrected => 0x0229
  | .fecUncorrected => 0x022A
  | .ctrlBad => 0x022B
  | .ctrlIgnored => 0x022C
  | .ctrlUnknown => 0x022D
  | .pauseRx => 0x022E
  | .pauseTx => 0x022F
  | .pauseHeld => 0x0230
  | .pauseIgnored => 0x0231
  | .txLpiEntries => 0x0232
  | .txLpiTime => 0x0233
  | .rxLpiTime => 0x0234
  | .lldpRx => 0x0235
  | .lldpTx => 0x0236
  | .rxFrames => 0x0300
  | .rxOctets => 0x0301
  | .txFrames => 0x0302
  | .txOctets => 0x0303
  | .gateDefer => 0x0304
  | .pfcRx => 0x0305
  | .pfcTx => 0x0306
  | .pauseWdExpire => 0x0307
  | .pfcHeadroomDrop => 0x0308
  | .dbNotEnrolled => 0x0400
  | .mbxIgnored => 0x0401
  | .fnCheckFail => 0x0402
  | .fenceViolation => 0x0403
  | .evictDrop => 0x0404
  | .evictCount => 0x0405
  | .dbBadFormat => 0x0406
  | .dbNotOwned => 0x0407
  | .dbBadIndex => 0x0408
  | .dbBadLap => 0x0409
  | .rxVlanFiltered => 0x040A
  | .flowHit => 0x040B
  | .rxFnDown => 0x040C
  | .rxNoRing => 0x040D
  | .txStagSpoof => 0x040E
  | .tbThrottled => 0x040F
  | .fnRxFrames => 0x0410
  | .fnRxOctets => 0x0411
  | .fnTxFrames => 0x0412
  | .fnTxOctets => 0x0413
  | .energyUj => 0x0414
  | .hamperPoolDrop => 0x0500
  | .hamperFnDrop => 0x0501
  | .hamperQDrop => 0x0502
  | .txDbAccepted => 0x0600
  | .txDbRepeat => 0x0601
  | .txRingCheckFail => 0x0602
  | .txDescBadFormat => 0x0603
  | .txRecalled => 0x0604
  | .txRecallLate => 0x0605
  | .txBadHeader => 0x0606
  | .txTooLong => 0x0607
  | .txTooShort => 0x0608
  | .txGateTooLong => 0x0609
  | .rxDbAccepted => 0x0700
  | .rxDbRepeat => 0x0701
  | .rxRingCheckFail => 0x0702
  | .rxDescBadFormat => 0x0703
  | .noBuffer => 0x0704
  | .cqFullDrop => 0x0705
  | .rxAbandoned => 0x0706
  | .cqDbAccepted => 0x0800
  | .cqDbRepeat => 0x0801
  | .ofDbAccepted => 0x0900
  | .ofDbRepeat => 0x0901
  | .evrLost => 0x0902
  | .reserveUsed => 0x0903
  | .shellEnergyUj => 0x0A00
  | .operatorEnergyUj => 0x0A01
  | .unmeasuredMs => 0x0A02
  | .handoverCount => 0x0A80
  | .swapCount => 0x0A81
  | .divergenceCount => 0x0A82
  | .verdictCount => 0x0A83
  | .verdictDrop => 0x0A84
  | .verdictResent => 0x0A85
  | .holdGapNs => 0x0A86
  | .warmHamperLost => 0x0A87
  | .handoverRxDrop => 0x0A88
  | .reissuedSends => 0x0A89
  | .guardReturned => 0x0A8A
  | .guardOverrun => 0x0A8B
  | .handoverDbMerged => 0x0A8C
  | .resyncCount => 0x0A8D
  | .bistCycles => 0x0A8E
  | .flitBadAj => 0x0A8F
  | .flitBadBj => 0x0A90
  | .flitBadMirror => 0x0A91
  | .lockLossAj => 0x0A92
  | .lockLossBj => 0x0A93
  | .lockLossMirror => 0x0A94
  | .heartbeatMiss => 0x0A95
  | .handoverWrMerged => 0x0A96

/-- The number of objects of a scope (Table 9-1, R215, 09_tally). -/
def scopeObjects : Nat → Nat
  | 0 => 16
  | 1 => 2
  | 2 | 3 => 16
  | 4 | 5 => 68
  | 6 | 7 => 640
  | 8 => 256
  | 9 => 4
  | _ => 1

/-- The number of classes of a scope, 1 where it has none (Table 9-1, R215, 09_tally). -/
def scopeClasses : Nat → Nat
  | 3 | 5 => 8
  | _ => 1

/-- The positions of a scope in order (Table 9-2, R215, 09_tally; Table 10-11, 10_engine_pair). -/
def scopePositions : Nat → List Nat
  | 0 => List.range 1
  | 1 => List.range 2
  | 2 => List.range 55
  | 3 => List.range 9
  | 4 => List.range 21
  | 5 => List.range 3
  | 6 => List.range 10
  | 7 => List.range 7
  | 8 => List.range 2
  | 9 => List.range 4
  | 10 => List.range 3 ++ (List.range 23).map (fun i => 128 + i)
  | _ => []

end Sys2Proof.Machine
end

