-- ==== Sys2Proof/Machine/Update.lean ====
section
/-! DEFINITION. One update for each part of the state; every command is built from them. Laws/State.lean says of each that
it changes that part alone. -/
namespace Sys2Proof.Machine

/-- Changing `setup`. -/
def State.onSetup (s : State) (f : SetupSt → SetupSt) : State := { s with setup := f s.setup }

/-- Changing `ofs`. -/
def State.onOfs (s : State) (f : (List (Nat × OfSt)) → (List (Nat × OfSt))) : State := { s with ofs := f s.ofs }

/-- Changing `time`. -/
def State.onTime (s : State) (f : TimeSt → TimeSt) : State := { s with time := f s.time }

/-- Changing `rtc`. -/
def State.onRtc (s : State) (f : RtcSt → RtcSt) : State := { s with rtc := f s.rtc }

/-- Changing `links`. -/
def State.onLinks (s : State) (f : (List (Nat × LinkSt)) → (List (Nat × LinkSt))) : State := { s with links := f s.links }

/-- Changing `linkDown`. -/
def State.onLinkDown (s : State) (f : (List (Nat × Nat)) → (List (Nat × Nat))) : State := { s with linkDown := f s.linkDown }

/-- Changing `linkAer`. -/
def State.onLinkAer (s : State) (f : (List (Nat × Nat)) → (List (Nat × Nat))) : State := { s with linkAer := f s.linkAer }

/-- Changing `fns`. -/
def State.onFns (s : State) (f : (List (Nat × FnSt)) → (List (Nat × FnSt))) : State := { s with fns := f s.fns }

/-- Changing `tx`. -/
def State.onTx (s : State) (f : (List (Nat × TxRing)) → (List (Nat × TxRing))) : State := { s with tx := f s.tx }

/-- Changing `rx`. -/
def State.onRx (s : State) (f : (List (Nat × RxRing)) → (List (Nat × RxRing))) : State := { s with rx := f s.rx }

/-- Changing `cq`. -/
def State.onCq (s : State) (f : (List (Nat × CqRing)) → (List (Nat × CqRing))) : State := { s with cq := f s.cq }

/-- Changing `host`. -/
def State.onHost (s : State) (f : HostSt → HostSt) : State := { s with host := f s.host }

/-- Changing `sched`. -/
def State.onSched (s : State) (f : (List (Nat × SchInst)) → (List (Nat × SchInst))) : State := { s with sched := f s.sched }

/-- Changing `hamper`. -/
def State.onHamper (s : State) (f : HamperSt → HamperSt) : State := { s with hamper := f s.hamper }

/-- Changing `macs`. -/
def State.onMacs (s : State) (f : (List (Nat × MacInst)) → (List (Nat × MacInst))) : State := { s with macs := f s.macs }

/-- Changing `cages`. -/
def State.onCages (s : State) (f : (List (Nat × CageSt)) → (List (Nat × CageSt))) : State := { s with cages := f s.cages }

/-- Changing `watch`. -/
def State.onWatch (s : State) (f : (List (Nat × WatchSt)) → (List (Nat × WatchSt))) : State := { s with watch := f s.watch }

/-- Changing `tally`. -/
def State.onTally (s : State) (f : TallySt → TallySt) : State := { s with tally := f s.tally }

/-- Changing `pair`. -/
def State.onPair (s : State) (f : PairSt → PairSt) : State := { s with pair := f s.pair }

/-- Changing `lookout`. -/
def State.onLookout (s : State) (f : LookoutSt → LookoutSt) : State := { s with lookout := f s.lookout }

/-- Changing `supply`. -/
def State.onSupply (s : State) (f : SupplySt → SupplySt) : State := { s with supply := f s.supply }

/-- Changing `power`. -/
def State.onPower (s : State) (f : PowerSt → PowerSt) : State := { s with power := f s.power }

/-- Changing `foreman`. -/
def State.onForeman (s : State) (f : ForemanSt → ForemanSt) : State := { s with foreman := f s.foreman }

/-- Changing `tether`. -/
def State.onTether (s : State) (f : TetherSt → TetherSt) : State := { s with tether := f s.tether }

/-- Changing `log`. -/
def State.onLog (s : State) (f : LogSt → LogSt) : State := { s with log := f s.log }

/-- Changing `events`. -/
def State.onEvents (s : State) (f : EventSt → EventSt) : State := { s with events := f s.events }

/-- Changing `out`. -/
def State.onOut (s : State) (f : (List Out) → (List Out)) : State := { s with out := f s.out }

/-- Changing `free`. -/
def State.onFree (s : State) (f : Nat → Nat) : State := { s with free := f s.free }

/-- Changing `pending`. -/
def State.onPending (s : State) (f : (List Instr) → (List Instr)) : State := { s with pending := f s.pending }

end Sys2Proof.Machine
end

