-- ==== Sys2Proof/Machine/Ops.lean ====
section
/-! DEFINITION. The named operations over the parts of the state: reading and changing one object of a table, device time
and its stamps, and what leaves the sled. -/
namespace Sys2Proof.Machine

/-! ### One object of a table -/

def State.of (s : State) (n : Nat) : OfSt := Tbl.get (fun _ => OfSt.init) s.ofs n
def State.setOf (s : State) (n : Nat) (f : OfSt → OfSt) : State := s.onOfs (fun t => Tbl.modify (fun _ => OfSt.init) t n f)
def State.link (s : State) (n : Nat) : LinkSt := Tbl.get (fun _ => LinkSt.init) s.links n
def State.setLink (s : State) (n : Nat) (f : LinkSt → LinkSt) : State :=
  s.onLinks (fun t => Tbl.modify (fun _ => LinkSt.init) t n f)
def State.fn (s : State) (n : Nat) : FnSt := Tbl.get (fun _ => FnSt.init) s.fns n
def State.setFn (s : State) (n : Nat) (f : FnSt → FnSt) : State := s.onFns (fun t => Tbl.modify (fun _ => FnSt.init) t n f)
def State.txr (s : State) (n : Nat) : TxRing := Tbl.get (fun _ => TxRing.init) s.tx n
def State.setTxr (s : State) (n : Nat) (f : TxRing → TxRing) : State :=
  s.onTx (fun t => Tbl.modify (fun _ => TxRing.init) t n f)
def State.rxr (s : State) (n : Nat) : RxRing := Tbl.get (fun _ => RxRing.init) s.rx n
def State.setRxr (s : State) (n : Nat) (f : RxRing → RxRing) : State :=
  s.onRx (fun t => Tbl.modify (fun _ => RxRing.init) t n f)
def State.cqr (s : State) (n : Nat) : CqRing := Tbl.get (fun _ => CqRing.init) s.cq n
def State.setCqr (s : State) (n : Nat) (f : CqRing → CqRing) : State :=
  s.onCq (fun t => Tbl.modify (fun _ => CqRing.init) t n f)
def State.sch (s : State) (m : Nat) : SchInst := Tbl.get (fun _ => SchInst.init) s.sched m
def State.setSch (s : State) (m : Nat) (f : SchInst → SchInst) : State :=
  s.onSched (fun t => Tbl.modify (fun _ => SchInst.init) t m f)
def State.mac (s : State) (m : Nat) : MacInst := Tbl.get (fun _ => MacInst.init) s.macs m
def State.setMac (s : State) (m : Nat) (f : MacInst → MacInst) : State :=
  s.onMacs (fun t => Tbl.modify (fun _ => MacInst.init) t m f)
def State.cage (s : State) (p : Nat) : CageSt := Tbl.get (fun _ => CageSt.init) s.cages p
def State.setCage (s : State) (p : Nat) (f : CageSt → CageSt) : State :=
  s.onCages (fun t => Tbl.modify (fun _ => CageSt.init) t p f)
def State.watchLane (s : State) (p : Nat) : WatchSt := Tbl.get (fun _ => WatchSt.init) s.watch p
def State.setWatchLane (s : State) (p : Nat) (f : WatchSt → WatchSt) : State :=
  s.onWatch (fun t => Tbl.modify (fun _ => WatchSt.init) t p f)
def State.evr (s : State) (n : Nat) : CqRing := Tbl.get (fun _ => CqRing.init) s.events.rings n
def State.setEvr (s : State) (n : Nat) (f : CqRing → CqRing) : State :=
  s.onEvents (fun e => { e with rings := Tbl.modify (fun _ => CqRing.init) e.rings n f })
def State.chan (s : State) (c : Nat) : LoChan := Tbl.get LoChan.init s.lookout.chans c
def State.setChan (s : State) (c : Nat) (f : LoChan → LoChan) : State :=
  s.onLookout (fun l => { l with chans := Tbl.modify LoChan.init l.chans c f })
def State.island (s : State) (i : Nat) : IslSt := Tbl.get (fun _ => IslSt.init) s.power.islands i
def State.setIsland (s : State) (i : Nat) (f : IslSt → IslSt) : State :=
  s.onPower (fun p => { p with islands := Tbl.modify (fun _ => IslSt.init) p.islands i f })
def State.knob (s : State) (k : Nat) : KnobSt := Tbl.get KnobSt.init s.foreman.knobs k
def State.setKnob (s : State) (k : Nat) (f : KnobSt → KnobSt) : State :=
  s.onForeman (fun m => { m with knobs := Tbl.modify KnobSt.init m.knobs k f })
def State.peer (s : State) (n : Nat) : PeerSt := Tbl.get (fun _ => PeerSt.init) s.tether.peers n
def State.setPeer (s : State) (n : Nat) (f : PeerSt → PeerSt) : State :=
  s.onTether (fun t => { t with peers := Tbl.modify (fun _ => PeerSt.init) t.peers n f })
def State.slot (s : State) (n : Nat) : SlotSt := Tbl.get (fun _ => SlotSt.init) s.tether.slots n
def State.setSlot (s : State) (n : Nat) (f : SlotSt → SlotSt) : State :=
  s.onTether (fun t => { t with slots := Tbl.modify (fun _ => SlotSt.init) t.slots n f })
def State.region (s : State) (r : Nat) : RegionSt := Tbl.get (fun _ => RegionSt.init) s.log.regions r
def State.eng (s : State) (e : Eng) : EngSt := match e with | .a => s.pair.a | .b => s.pair.b
def State.setEng (s : State) (e : Eng) (f : EngSt → EngSt) : State :=
  s.onPair (fun p => match e with | .a => { p with a := f p.a } | .b => { p with b := f p.b })

/-- The other engine. -/
def engOther : Eng → Eng
  | .a => .b
  | .b => .a

/-- An engine in a record: 1 A, 2 B (Table 5-18, R403, 05_rings_and_doorbells). -/
def engCode : Eng → Nat
  | .a => 1
  | .b => 2

/-- A table of numbers with default 0. -/
def tget (t : List (Nat × Nat)) (k : Nat) : Nat := Tbl.get (fun _ => 0) t k
def tput (t : List (Nat × Nat)) (k v : Nat) : List (Nat × Nat) := Tbl.put (fun _ => 0) t k v
def wget (t : List (Nat × Word)) (k : Nat) : Nat := (Tbl.get (fun _ => 0#32) t k).toNat
def wput (t : List (Nat × Word)) (k v : Nat) : List (Nat × Word) := Tbl.put (fun _ => 0#32) t k (BitVec.ofNat 32 v)

/-! ### Identifiers -/

/-- The function identifier of R65: TF n is n, OF n is 0x40 + n. Functions are numbered 0 to 67 in the same way, and the carrier functions,
which have no identifier (R77), 68 to 71. -/
def isOf (f : Nat) : Bool := decide (64 ≤ f) && decide (f < 68)

/-- A write to a command register leaves its fields as written (class L, R12, 00_scope). -/
def State.wrote (s : State) (off v : Nat) : State := s.onSetup (fun u => { u with cmds := wput u.cmds off v })

/-! ### Device time (02_time_and_windows) -/

/-- One nanosecond in u. -/
def uNs : Nat := 2 ^ 32
/-- One microsecond in u. -/
def uUs : Nat := 1000 * 2 ^ 32
/-- One second in u. -/
def uSec : Nat := 1000000000 * 2 ^ 32
/-- The nominal increment of one J-cycle in u: 1.25 ns (section 2.1). -/
def uJ : Nat := 0x140000000

/-- TIME64: device time in nanoseconds, truncated, modulo 2^64 (R42). -/
def time64Of (u : Nat) : Nat := u / uNs % 2 ^ 64

/-- A number of RTC ticks in u: one tick is 30,517.578125 ns (section 2.4). -/
def ticksU (n : Nat) : Nat := n * (30517 * uNs + 37888 * 2 ^ 16)

/-- The Junction's CORE island runs: not in Deep sleep nor Off, nor before LOGIC_RDY of an exit from Deep sleep (R53, R7); nor
while a bulk reset holds the Shell package or the Supervisor stays in boot ROM (R284, 12_supply_and_backup_cell; R359,
16_start_up_and_logbook). -/
def State.coreRuns (s : State) : Bool :=
  if s.supply.inReset || s.log.bootRom then false
  else
  match s.power.mode with
  | .deepSleep | .off => false
  | .exiting => s.power.exitFrom ≠ .deepSleep || s.power.stage = 4
  | _ => true

/-- Device time as the RTC extends a recorded pair (R53, R272, R302, R358); RTC_COUNT wraps at 2^48. -/
def State.rtcTime (s : State) : Nat := s.rtc.pairD + ticksU ((s.rtc.count + 2 ^ 48 - s.rtc.pairC) % 2 ^ 48)

/-- The stamp of an event registered now: device time while CORE runs (R55), and the recorded pair extended on the RTC while
it is stopped (R272, 11_lookout; R302, 13_islands_and_power_states). -/
def State.time64 (s : State) : Nat := time64Of (if s.coreRuns then s.time.now else s.rtcTime)

/-- The index k of the aligned second that holds the present instant (R402, 00_scope). -/
def State.second (s : State) : Nat := s.time.now / uSec

/-- Device time in the layout of Table 0-4: 48 bits of seconds, 32 of nanoseconds, 16 of fraction. -/
def time96 (u : Nat) : Nat := u / uSec % 2 ^ 48 * 2 ^ 48 + u / uNs % 1000000000 * 2 ^ 16 + u / 2 ^ 16 % 2 ^ 16

/-- The device time in u of a value in the layout of Table 0-4. -/
def ofTime96 (x : Nat) : Nat := bits x 48 48 * uSec + bits x 16 32 * uNs + bits x 0 16 * 2 ^ 16

/-! ### What leaves the sled, and the free values -/

def State.emit (s : State) (o : Out) : State := s.onOut (fun l => l ++ [o])

/-- The next free value: a value the spec leaves open, that nothing constrains. -/
def State.freeNat (s : State) (w : Nat) : Nat := (Config.freeValue s.free).toNat % 2 ^ w

/-- Using up a free value. -/
def State.useFree (s : State) : State := s.onFree (· + 1)

/-! ### The engine pair, read everywhere -/

/-- The active engine, if any: the one whose ACT line is up (R230, 10_engine_pair). -/
def State.active (s : State) : Option Eng := if s.pair.a.act then some .a else if s.pair.b.act then some .b else none

/-- The code of the active engine in a record: 1 A, 2 B; 0 while none is active (R259, 10_engine_pair). -/
def State.activeCode (s : State) : Nat := match s.active with | some e => engCode e | none => 0

/-- Whether an engine is in service: Active or Standby. -/
def EngSt.healthy (e : EngSt) : Bool := e.state = .active ∨ e.state = .standby

/-- The sled is paired: one engine Active and the other Standby (R248, 10_engine_pair). -/
def State.paired (s : State) : Bool := s.pair.a.healthy && s.pair.b.healthy && !s.pair.fenced

/-- A hand-over, a Verdict or the final stall of a resynchronisation is in progress (R19, 00_scope). -/
def State.transition (s : State) : Bool := s.pair.handover.isSome || s.pair.verdict || s.pair.resync = some .stall

end Sys2Proof.Machine
end

