-- ==== Sys2Proof/Machine/Flags.lean ====
section
/-! DEFINITION. The flags a command raises: Tally counters, events with their event rings, the alert and their Logbook
rows, MSI-X messages, and the rows of the circular Logbook regions. Raising one can raise others (a record lost for want
of space counts; a counter that crosses half range raises an event), so they are run from a work list. -/
namespace Sys2Proof.Machine

/-! ### Activity units (Table 9-6, R226, 09_tally) -/

/-- What an activity unit counts: the wire bytes of a port, those of a watch lane, DMA and its records, cells, frames sent, and TLP payload. -/
inductive Act where
  | port (p : Nat) | watch | host | hamper | sched | tlp
deriving DecidableEq, Repr

def Act.code : Act → Nat
  | .port p => if p = 0 then 0 else 1
  | .watch => 2
  | .host => 3
  | .hamper => 4
  | .sched => 5
  | .tlp => 6

/-- Activity is held in fractions of a unit, so that a frame's wire bytes divide equally among up to 68 copies: the least common multiple of
1 to 68. -/
def actScale : Nat := 79211881234889091923261227200

/-- The operator's own activity, beside the functions 0 to 67. -/
def actOperator : Nat := 68

/-- Units used by a function, or by the operator, in the window in progress, in 1/actScale. -/
def State.use (s : State) (k : Act) (f units : Nat) : State :=
  let key := k.code * 128 + f
  s.onTally (fun t => { t with act := tput t.act key (tget t.act key + units) })

/-- Whole units used. -/
def State.uses (s : State) (k : Act) (f n : Nat) : State := s.use k f (n * actScale)

/-- DMA payload of a function: activity of HOST, and of PCIE and XCUT as TLP payload. -/
def State.dmaUse (s : State) (f n : Nat) : State := (s.uses .host f n).uses .tlp f n

/-- A descriptor, a completion or a doorbell of a function, of n bytes: 64 units of HOST, and its bytes as TLP payload. -/
def State.recordUse (s : State) (f n : Nat) : State := (s.uses .host f 64).uses .tlp f n

/-- Wire bytes on an instance's port by a function or the operator. -/
def State.wireUse (s : State) (m f n : Nat) : State := s.uses (.port (m / 8)) f n

/-! ### MSI-X -/

/-- The message of a vector leaves: a write of the entry's data to its address (R80, 04_host_links; PCI Express). -/
def State.msixSend (s : State) (fn vector : Nat) : State :=
  s.emit (.msix fn vector (tget (s.fn fn).msixAddr vector) (tget (s.fn fn).msixData vector))

/-- Signalling a vector: a masked vector, or MSI-X disabled, sets the pending bit, otherwise the message leaves (R114, 05_rings_and_doorbells;
R80, 04_host_links), once the level outputs are not held (R236, 10_engine_pair). -/
def State.msix (s : State) (fn vector : Nat) : State :=
  if (s.fn fn).msixMask.getLsbD vector ∨ (s.fn fn).msixEn = false then
    s.setFn fn (fun f => { f with msixPend := f.msixPend ||| BitVec.ofNat 64 (2 ^ vector) })
  else if s.pair.levels.isSome then s.onEvents (fun v => { v with msixHeld := v.msixHeld ++ [(fn, vector)] })
  else s.msixSend fn vector

/-! ### Ring positions (5.1) -/

/-- The number of entries of a ring of a size code (Table 5-1, R105, 05_rings_and_doorbells). -/
def ringN (size : Nat) : Nat := 64 * 2 ^ size

/-- dist(x, y) = (y - x) mod (256 x N) (section 5.1). -/
def dist (n x y : Nat) : Nat := (y + 256 * n - x) % (256 * n)

/-- The position k entries further on. -/
def advance (n x k : Nat) : Nat := (x + k) % (256 * n)

/-- The slot index of a position. -/
def posIndex (n x : Nat) : Nat := x % n

/-- The lap of a position. -/
def posLap (n x : Nat) : Nat := x / n % 256

/-- The address word of a ring record (Table 3-2, R65, 03_check_values): kind 0 transmit, 1 receive, 2 completion queue,
3 event ring. -/
def ringWord (kind ring index : Nat) : Nat := index + ring * 2 ^ 16 + kind * 2 ^ 26

/-- The address word of a function record (Table 3-2, R65, 03_check_values). -/
def fnWord (fn : Nat) : Nat := 0x10000000 + fn

/-- A record of n bytes with its CRC-16 in the two bytes after it (Table 3-3, R67, 03_check_values). -/
def withCheck16 (body : Bytes) (addr alive : Nat) : Bytes := body ++ le 2 (crcFold 0 body addr alive)

/-! ### The circular Logbook regions (16.4) -/

/-- The first row of a circular region (Table 16-3, 16_start_up_and_logbook). -/
def regionBase (r : Nat) : Nat := if r = 2 then 16384 else if r = 3 then 28672 else if r = 4 then 29696 else 31744

/-- The number of rows of a circular region (Table 16-3). -/
def regionRows (r : Nat) : Nat := if r = 2 then 12288 else if r = 3 then 1024 else if r = 4 then 2048 else 1024

/-- A row of a circular region (Table 16-4, R362): CRC-32 over bytes 0 to 59, the row number and the lap. -/
def circularRow (region kind lap row t64 : Nat) (body : Bytes) : Bytes :=
  let b := (le 1 region ++ le 1 kind ++ le 1 lap ++ [0]) ++ le 8 t64 ++ (padTo 48 body).take 48
  b ++ le 4 (crcFold 1 b row lap)

/-- Storing bytes in the Logbook memory from an address on. -/
def memStore (m : List Host.Cell) (a : Nat) : Bytes → List Host.Cell
  | [] => m
  | b :: r => memStore (Tbl.put (fun _ => 0#8) m a b) (a + 1) r

/-- One byte of the Logbook memory; a byte that nothing has written reads 0. -/
def State.memByte (s : State) (a : Nat) : Byte := Tbl.get (fun _ => 0#8) s.log.mem a

/-- n bytes of the Logbook memory. -/
def State.memBytes (s : State) (a n : Nat) : Bytes := (List.range n).map (fun i => s.memByte (a + i))

/-- The next head of a region: the lap advances by 1, modulo 256, each time the writes wrap (R362). -/
def RegionSt.next (rows : Nat) (h : RegionSt) : RegionSt :=
  if h.head + 1 < rows then { h with head := h.head + 1 } else { head := 0, lap := (h.lap + 1) % 256 }

def State.setRegion (s : State) (r : Nat) (f : RegionSt → RegionSt) : State :=
  s.onLog (fun l => { l with regions := Tbl.modify (fun _ => RegionSt.init) l.regions r f })

/-! ### The work list -/

/-- What a command can raise. -/
inductive Eff where
  | ev (e : Ev) (payload : Bytes)
  | count (code cls obj n : Nat)
  | row (r : LogRec)
deriving DecidableEq, Repr

/-- The key of a counter in the Tally. -/
def tallyKey (code cls obj : Nat) : Nat := code * 2 ^ 15 + cls * 2 ^ 12 + obj

/-- The Tally identifier of a key, laid out as FIRST in Table 9-4 (R222, 09_tally). -/
def tallyIdent (key : Nat) : Nat := key / 2 ^ 15 * 2 ^ 16 + key % 2 ^ 15

/-- A counter takes a value in a J-cycle; the value it had at the cycle's start stays known (R214, R221, 09_tally). -/
def TallySt.put (t : TallySt) (jcycle key v : Nat) : TallySt :=
  let b := if t.atJ = jcycle then t.base else []
  { t with count := tput t.count key v, atJ := jcycle,
           base := if (Tbl.find b key).isSome then b else Tbl.insert b key (tget t.count key) }

/-- A counter with the increments stamped before a J-cycle alone (R219, R221, 09_tally). -/
def TallySt.before (t : TallySt) (jcycle key : Nat) : Nat :=
  if t.atJ = jcycle then (Tbl.find t.base key).getD (tget t.count key) else tget t.count key

/-- An increment of a counter (R212 to R214, 09_tally): it wraps at 2^48; a crossing of half range or a wrap raises
TALLY_HALF, at once or, in warm mode, at the next mirror boundary (R223). -/
def runCount (s : State) (key n : Nat) : State × List Eff :=
  let old := tget s.tally.count key
  let tot := old + n
  let wrap := decide (2 ^ 48 ≤ tot)
  let half := decide (old < 2 ^ 47) && decide (2 ^ 47 ≤ tot)
  let s1 := s.onTally (fun t => t.put s.time.jcycle key (tot % 2 ^ 48))
  if half || wrap then
    if s.pair.warm then (s1.onTally (fun t => { t with pend := t.pend ++ [(s.time.jcycle, key, wrap)] }), [])
    else (s1.onTally (fun t => { t with cross := t.cross ++ [(s.time.jcycle, key, wrap)] }),
      [.ev .tallyHalf (le 4 (tallyIdent key) ++ le 1 (ofBool wrap))])
  else (s1, [])

/-- The FLAGS byte of an event record (Table 5-12): PHASE, LOGGED and the reporter, which the spec does not name for each
event (Config.reporter). -/
def evFlags (e : Ev) (phase : Nat) : Nat :=
  phase + 2 * ofBool e.logged + 4 * (Config.reporter e.code).toNat

/-- The free slots of an event ring or a completion queue (R113). -/
def CqRing.freeSlots (q : CqRing) : Nat := ringN q.size - dist (ringN q.size) q.c q.w - q.reserved

/-- Signalling a queue: its vector leaves, it disarms, and every written completion is signalled (R114). -/
def evrSignal (s : State) (n : Nat) : State :=
  let q := s.evr n
  if q.armed ∧ 0 < q.unsig then (s.setEvr n (fun q => { q with armed := false, unsig := 0 })).msix (64 + n) q.vector
  else s

/-- Writing one record into the next slot of an event ring with this OF's next SEQ (Table 5-12, R121). -/
def evrWrite (s : State) (n : Nat) (e : Ev) (payload : Bytes) : State :=
  let q := s.evr n
  let size := ringN q.size
  let b := le 8 s.time64 ++ le 2 e.code ++ le 1 e.severity ++ le 1 (evFlags e (posLap size q.w % 2))
    ++ le 2 (s.of n).evSeq ++ (padTo 16 payload).take 16
  let rec_ := withCheck16 b (ringWord 3 n (posIndex size q.w)) (posLap size q.w)
  evrSignal
    ((((s.emit (.memWrite (64 + n) (q.base + 32 * posIndex size q.w) rec_ false)).recordUse (64 + n) 32).setEvr n
      (fun q => { q with w := advance size q.w 1, unsig := q.unsig + 1 })).setOf n
      (fun o => { o with evSeq := (o.evSeq + 1) % 2 ^ 16 })) n

/-- The Logbook row of an event (Table 16-5; 16.6). -/
def evRow (s : State) (e : Ev) (payload : Bytes) : LogRec :=
  { region := 2, kind := 1, sev := e.severity, keep := decide (3 ≤ e.severity), time64 := s.time64,
    body := le 2 e.code ++ le 1 e.severity ++ le 1 (evFlags e 0) ++ (padTo 16 payload).take 16 }

/-- Once an event ring has space again, the first record written is EVENT_LOST, with the count of the records lost and the
first SEQ lost (R122). -/
def evrLost (s : State) (n : Nat) : State × List Eff :=
  let o := s.of n
  if (s.evr n).state ≠ .unused ∧ 0 < o.evLost ∧ 0 < (s.evr n).freeSlots then
    let p := le 1 (64 + n) ++ le 4 (min o.evLost (2 ^ 32 - 1)) ++ le 2 o.evFirst
    let s1 := s.emit (.event Ev.eventLost.code s.time64 p)
    ((evrWrite s1 n .eventLost p).setOf n (fun o => { o with evLost := 0, evFirst := 0 }), [.row (evRow s .eventLost p)])
  else (s, [])

/-- One event at one OF's ring (R121, R122): written, or discarded and counted in EVR_LOST; SEQ advances either way. -/
def evrOne (s : State) (n : Nat) (e : Ev) (payload : Bytes) : State × List Eff :=
  if (s.evr n).state ≠ .unused ∧ s.evrCtrlMinSev n ≤ e.severity then
    let r := evrLost s n
    if 0 < (r.1.evr n).freeSlots then (evrWrite r.1 n e payload, r.2)
    else (r.1.setOf n (fun o => { o with evFirst := if o.evLost = 0 then o.evSeq else o.evFirst, evLost := o.evLost + 1,
                                         evSeq := (o.evSeq + 1) % 2 ^ 16 }),
      r.2 ++ [.count Ctr.evrLost.code 0 n 1])
  else (s, [])

/-- One event at the rings of OF0 to OF3 in turn. -/
def evrAll (s : State) (e : Ev) (payload : Bytes) : State × List Eff :=
  let r0 := evrOne s 0 e payload
  let r1 := evrOne r0.1 1 e payload
  let r2 := evrOne r1.1 2 e payload
  let r3 := evrOne r2.1 3 e payload
  (r3.1, r0.2 ++ r1.2 ++ r2.2 ++ r3.2)

/-- Raising an event: its trace, the event rings, the alert (R389, 18_register_map) and its Logbook row. -/
def runEv (s : State) (e : Ev) (payload : Bytes) : State × List Eff :=
  let s1 := s.emit (.event e.code s.time64 payload)
  let s2 := if s.evAlertMinSev ≤ e.severity then s1.onEvents (fun v => { v with alert := true }) else s1
  let r := if e.logOnly then (s2, []) else evrAll s2 e payload
  (r.1, r.2 ++ (if e.logged then [.row (evRow s e payload)] else []))

/-- A row bound for the event log is accepted within the rate of R366: at most 1,000 in each aligned second, records of
severity Error or Critical always. -/
def rateTest (s : State) (r : LogRec) : State × Bool :=
  if r.region = 2 then
    let n := if s.log.rateWin = s.second then s.log.rateN else 0
    if n < 1000 ∨ 3 ≤ r.sev then (s.onLog (fun l => { l with rateWin := s.second, rateN := n + 1 }), true)
    else (s.onLog (fun l => { l with rateWin := s.second, rateN := n, rateDrop := satAdd 32 l.rateDrop 1 }), false)
  else (s, true)

/-- LOG_SEQ after the newest: 0 is never written (R405). -/
def nextLogSeq (q : Nat) : Nat := if q + 1 < 2 ^ 32 then q + 1 else 1

/-- Writing one circular row at the head of its region (R362). An event row takes its LOG_SEQ as it is written (R405). -/
def rowWrite (s : State) (r : LogRec) : State :=
  let h := s.region r.region
  let row := regionBase r.region + h.head
  let q := nextLogSeq s.log.logSeq
  let body := if r.region = 2 then r.body ++ le 4 q else r.body
  (s.onLog (fun l => { l with mem := memStore l.mem (64 * row) (circularRow r.region r.kind h.lap row r.time64 body),
                              logSeq := if r.region = 2 then q else l.logSeq })).setRegion r.region
    (RegionSt.next (regionRows r.region))

/-- Writing a circular row now (R365): a row marked for retirement is remapped to a spare and LOGBOOK_ROW_RETIRED raised;
with no spare left LOGBOOK_WORN is raised and the write passes over the row. -/
def runRow (s : State) (r : LogRec) : State × List Eff :=
  let row := regionBase r.region + (s.region r.region).head
  if row ∈ s.log.badRows then
    if 0 < s.log.spares then
      (rowWrite (s.onLog (fun l => { l with spares := l.spares - 1, badRows := l.badRows.filter (· ≠ row),
                                            remapped := row :: l.remapped.filter (· ≠ row) })) r,
        [.ev .logbookRowRetired (le 2 row)])
    else
      ((s.onLog (fun l => { l with wornRows := row :: l.wornRows.filter (· ≠ row) })).setRegion r.region
        (RegionSt.next (regionRows r.region)),
        .row r :: (if row ∈ s.log.wornRows then [] else [.ev .logbookWorn []]))
  else (rowWrite s r, [])

/-- The newest queued record of lower severity than a kept one, taken out (R283, 12_supply_and_backup_cell). -/
def dropNewest : List LogRec → Option (List LogRec)
  | [] => none
  | r :: rest =>
    match dropNewest rest with
    | some l => some (r :: l)
    | none => if r.keep then none else some rest

/-- Deferring a row while the sled is braced (R283, 12_supply_and_backup_cell). -/
def deferRow (s : State) (r : LogRec) : State × List Eff :=
  if s.supply.deferred.length < 256 then (s.onSupply (fun p => { p with deferred := p.deferred ++ [r] }), [])
  else if r.keep then
    match dropNewest s.supply.deferred with
    | some l => (s.onSupply (fun p => { p with deferred := l ++ [r], defDrops := satAdd 32 p.defDrops 1 }), [])
    | none =>
      match s.supply.deferred with
      | [] => (s, [])
      | o :: rest =>
        let w := runRow s o
        (w.1.onSupply (fun p => { p with deferred := rest ++ [r] }), w.2)
  else (s.onSupply (fun p => { p with defDrops := satAdd 32 p.defDrops 1 }), [])

/-- A record bound for the Logbook: the rate of R366, then at once, or deferred while the sled is braced (R280, R283,
12_supply_and_backup_cell). -/
def acceptRow (s : State) (r : LogRec) : State × List Eff :=
  let t := rateTest s r
  if t.2 then (if s.supply.braced then deferRow t.1 r else runRow t.1 r) else (t.1, [])

/-- One entry of the work list. -/
def Eff.run (e : Eff) (s : State) : State × List Eff :=
  match e with
  | .ev e p => runEv s e p
  | .count code cls obj n => runCount s (tallyKey code cls obj) n
  | .row r => acceptRow s r

/-- The work list: what an entry raises is run before the entries behind it. The bound is the model's; no chain of the
spec comes near it. -/
def runEffs : Nat → List Eff → State → State
  | 0, _, s => s
  | _ + 1, [], s => s
  | n + 1, e :: r, s =>
    let t := e.run s
    runEffs n (t.2 ++ r) t.1

/-- The bound of a work list. -/
def effFuel : Nat := 40000

/-- Raising an event now. -/
def State.raise (s : State) (e : Ev) (payload : Bytes) : State := runEffs effFuel [.ev e payload] s

/-- Counting in the Tally. -/
def State.countN (s : State) (c : Ctr) (cls obj n : Nat) : State := runEffs effFuel [.count c.code cls obj n] s
def State.count (s : State) (c : Ctr) (obj : Nat) : State := s.countN c 0 obj 1
def State.countCls (s : State) (c : Ctr) (cls obj : Nat) : State := s.countN c cls obj 1

/-- Writing a record of a circular region. -/
def State.logRow (s : State) (r : LogRec) : State := runEffs effFuel [.row r] s

/-- Writing records at once, in order, whatever the brace says (R282, R284, 12_supply_and_backup_cell). -/
def State.logNow (s : State) : List LogRec → State
  | [] => s
  | r :: rest =>
    let t := runRow s r
    State.logNow (runEffs effFuel t.2 t.1) rest

/-- An event raised at most once in each aligned second for an object (R402, 00_scope). -/
def State.raiseOnce (s : State) (e : Ev) (obj : Nat) (payload : Bytes) : State :=
  let key := e.code * 2 ^ 16 + obj
  if tget s.events.kept key = s.second + 1 then s
  else (s.onEvents (fun v => { v with kept := tput v.kept key (s.second + 1) })).raise e payload

end Sys2Proof.Machine
end

