-- ==== Sys2Proof/Machine/Hamper.lean ====
section
/-! DEFINITION. Hamper cells: the shared pool, the headroom and the management reserve (7.6, 7.7 of 07_receive; R136,
06_transmit). -/
namespace Sys2Proof.Machine

/-- Cells of a number of bytes. -/
def cellsOf (bytes : Nat) : Nat := (bytes + 255) / 256

/-- A planned warm hand-over is in progress: the frames that start from t0 on belong to the incoming engine (R246, 10_engine_pair). -/
def State.planned (s : State) : Bool := s.pair.handover.any (fun h => h.warm && h.swap)

/-- The frames held by the engine that takes received frames: in a planned warm hand-over the incoming one (R246, 10_engine_pair). -/
def State.frames (s : State) : List HFrame := s.hamper.frames.filter (fun h => h.inc = s.planned)

/-- The headroom cells of all instances (R172, R176). -/
def State.headroomSum (s : State) : Nat := ((List.range 16).map s.headroomCells).sum

/-- The size of the shared pool (7.6). -/
def State.poolSize (s : State) : Nat := 23552 - s.headroomSum

/-- A send's bytes (Table 5-6). -/
def Send.bytes (x : Send) : Nat := (x.descs.map (fun d => d.len)).sum

/-- The send's buffers are read, or being read, into the Hamper (R136). -/
def Send.holdsCells (x : Send) : Bool :=
  match x.st with
  | .filling | .ready => true
  | .granted _ => true
  | _ => false

/-- The bytes of transmit data held for a function (R136). -/
def State.txHeld (s : State) (f : Nat) : Nat :=
  (s.tx.map (fun e => if e.2.fn = f then ((e.2.sends.filter Send.holdsCells).map Send.bytes).sum else 0)).sum

/-- The cells of the pool that transmit data holds (R136). -/
def State.txCells (s : State) : Nat :=
  (s.tx.map (fun e => ((e.2.sends.filter Send.holdsCells).map (fun x => cellsOf x.bytes)).sum)).sum

/-- Free cells of the shared pool (R172). The incoming engine of a planned warm hand-over holds no transmit data yet (R246, 10_engine_pair). -/
def State.poolFree (s : State) : Nat := s.poolSize - ((s.frames.map (fun h => h.pool)).sum + (if s.planned then 0 else s.txCells))

/-- Free headroom cells of an instance (R172). -/
def State.headFree (s : State) (m : Nat) : Nat :=
  s.headroomCells m - ((s.frames.filter (fun h => h.inst = m)).map (fun h => h.head)).sum

/-- Free cells of the management reserve (R172). -/
def State.reserveFree (s : State) : Nat := 1024 - (s.frames.map (fun h => h.resv)).sum

/-- The cells a frame holds. -/
def HFrame.cells (h : HFrame) : Nat := h.pool + h.head + h.resv

/-- Cells of a function in a class, and in all classes: a frame is charged in full to every copy it still holds (7.6). -/
def State.occFn (s : State) (f : Nat) : Nat :=
  (s.frames.map (fun h => h.cells * (h.copies.filter (fun c => c.fn = f)).length)).sum
def State.occQ (s : State) (f c : Nat) : Nat :=
  ((s.frames.filter (fun h => h.cls = c)).map (fun h => h.cells * (h.copies.filter (fun x => x.fn = f)).length)).sum

/-- The ingress occupancy of (m, c) (7.7), and the headroom cells of it. -/
def State.ingress (s : State) (m c : Nat) : Nat :=
  ((s.frames.filter (fun h => h.inst = m ∧ h.cls = c)).map HFrame.cells).sum
def State.ingressHead (s : State) (m c : Nat) : Nat :=
  ((s.frames.filter (fun h => h.inst = m ∧ h.cls = c)).map (fun h => h.head)).sum

/-- occ < α × free, with the exponent that the Foreman applies (R172; knobs 9 to 16 of Table 14-1). -/
def alphaOk (occ : Nat) (e : Int) (free : Nat) : Bool :=
  if 0 ≤ e then decide (occ < 2 ^ e.toNat * free) else decide (occ * 2 ^ (-e).toNat < free)

/-- Priority flow control is enabled on a class of an instance (FC_MODE 2 with PFC_EN; 8.4 of 08_the_wire). -/
def State.pfcOn (s : State) (m c : Nat) : Bool := s.macCfgFcMode m = 2 && bit (s.macCfgPfcEn m) c

/-- Which class maps to a priority: the vector of a PFC frame for a class (R195, 08_the_wire). -/
def State.pfcVector (s : State) (m c : Nat) : Nat :=
  ((List.range 8).map (fun p => if bits (s.rxPcpMapMap m) (3 * p) 3 = c then 2 ^ p else 0)).sum

/-- A wake of a link that is in LPI or entering it is requested now, unless one stands; during entry signalling it abandons the entry (R143,
06_transmit; R202, 08_the_wire). -/
def State.wakeLink (s : State) (m : Nat) : State :=
  if ((s.mac m).txLpi ∨ (s.mac m).entering.isSome) ∧ (s.sch m).wakeReq = none then
    (s.setSch m (fun x => { x with wakeReq := some s.time.elapsed })).setMac m (fun x => { x with entering := none })
  else s

/-- Queuing a control frame of the MAC on an instance that is Up; a link in LPI is woken at once (R197, 08_the_wire). -/
def State.queueCtrl (s : State) (m : Nat) (x : CtrlFrame) : State :=
  if (s.mac m).link = .up then
    s.setSch m (fun c =>
      { c with ctrl := c.ctrl ++ [x] }) |> fun t => t.wakeLink m
  else s

/-- A standing XOFF request of a class (R174), recorded as bits of `xoff`; a request queues the PFC frame of R195. -/
def State.xoffSet (s : State) (m c : Nat) (on : Bool) : State :=
  let v := tget s.hamper.xoff m
  if bit v c = on then s
  else
    (s.onHamper (fun h => { h with xoff := tput h.xoff m (if on then v + 2 ^ c else v - 2 ^ c) })).queueCtrl m
      (.pfc (s.pfcVector m c) (if on then s.fcQuantaQuanta m else 0))

/-- In PAUSE mode, the flow control of R196 (08_the_wire): a PAUSE at XOFF, one of quanta 0 at XON. -/
def State.pauseSet (s : State) (m : Nat) (on : Bool) : State :=
  if (s.mac m).xoffOn = on then s
  else (s.setMac m (fun x => { x with xoffOn := on })).queueCtrl m (.pause (if on then s.fcQuantaQuanta m else 0))

/-- The cells held for frames of an instance, every class. -/
def State.ingressAll (s : State) (m : Nat) : Nat := ((s.frames.filter (fun h => h.inst = m)).map HFrame.cells).sum

/-- Re-evaluating the requests of one class of an instance (R174): XOFF at the XOFF threshold, XON at or below the XON
threshold with no headroom held. -/
def State.flowOne (m : Nat) (s : State) (c : Nat) : State :=
  if s.pfcOn m c then
    if s.pfcXoffCells (8 * m + c) ≤ s.ingress m c ∨ 0 < s.ingressHead m c then s.xoffSet m c true
    else if s.ingress m c ≤ s.pfcXonCells (8 * m + c) then s.xoffSet m c false
    else s
  else s

/-- The pool's free cells have fallen below 25 %: a measure of knob 0 (Table 14-1, 14_foreman). -/
def State.poolMark (s : State) : State := if s.poolFree * 4 < s.poolSize then s.onHamper (fun x => { x with low := true }) else s

/-- HAMPER_Q_DROP of a class, by the free cells it meets: a measure of knobs 9 to 16 (Table 14-1, 14_foreman). -/
def State.dropMark (s : State) (c : Nat) : State :=
  if s.poolFree * 10 < s.poolSize then s.onHamper (fun x => { x with dropLow := Nat.lor x.dropLow (2 ^ c) })
  else if s.poolSize ≤ s.poolFree * 4 then s.onHamper (fun x => { x with dropHigh := Nat.lor x.dropHigh (2 ^ c) })
  else s

/-- Re-evaluating the flow control of an instance after its occupancy has changed (R174; R196, 08_the_wire). -/
def State.flowCheck (s : State) (m : Nat) : State :=
  let s1 := (List.range 8).foldl (State.flowOne m) s
  if s1.macCfgFcMode m = 1 then
    if s1.pauseThreshXoff m ≤ s1.ingressAll m then s1.pauseSet m true
    else if s1.ingressAll m ≤ s1.pauseThreshXon m then s1.pauseSet m false
    else s1
  else s1

/-- Cells that the transmit side or a receive ring frees can end a pause on any instance. -/
def State.flowAll (s : State) : State := (List.range 16).foldl State.flowCheck s

/-- The frequency in MHz and the voltage in mV of a DVFS point (Table 13-7). -/
def rowMhz (r : Nat) : Nat := if r = 0 then 800 else if r = 1 then 600 else if r = 2 then 400 else 200

/-! ### The port pipeline (R370, R371, 17_when_subsystems_meet) -/

/-- The frequency in MHz of a port's PORT island in the active engine. -/
def State.portMhz (s : State) (p : Nat) : Nat := rowMhz (s.island (p + if s.active = some .b then 7 else 0)).freq

/-- What a frame of L wire bytes costs its port pipeline, in u: L / 64 E-cycles (R370), at the frequency of the
instant it is admitted at (DESIGN CHOICE, log 88). -/
def State.pipeCost (s : State) (p len : Nat) : Nat := len * uUs / (64 * s.portMhz p)

/-- The capacity of a port in Mb/s at a frequency (Table 1-5, 01_the_sled): 64 bytes in each E-cycle. -/
def portMb (mhz : Nat) : Nat := 512 * mhz

/-- The wire rate in Mb/s that a port of wire rate W sustains for frames of L bytes (R370, Table 17-1). -/
def sustainable (wire cap len : Nat) : Nat := min wire (cap * (len + 20) / len)

/-- An admitted frame takes its turn in its port's pipeline, which drains towards DMA in order of arrival. -/
def State.pipeIn (s : State) (h : HFrame) : HFrame :=
  let p := h.inst / 8
  let at_ := max s.time.elapsed (tget s.hamper.pipe p)
  { h with pipeAt := at_, pipeTo := at_ + s.pipeCost p h.wireLen }

end Sys2Proof.Machine
end

