-- ==== Sys2Proof/Machine/Functions.lean ====
section
/-! DEFINITION. Functions of the host links: presence, the fences and quarantine, eviction, the mailbox and enrolment
(04_host_links), as the operations that the commands share. -/
namespace Sys2Proof.Machine

/-! ### Which link and which functions (Table 4-1) -/

/-- The link or half a function sits on: 2n for Hn or Hna, 2n + 1 for Hnb (R76); CFn, function 68 + n here, sits on Hnb (R77). -/
def State.fnLink (s : State) (f : Nat) : Nat :=
  if isOf f then 2 * (f - 64)
  else if 68 ≤ f then 2 * (f - 68) + 1
  else if s.hlCtrlBifurcate (f / 16) = 1 ∧ 8 ≤ f % 16 then 2 * (f / 16) + 1 else 2 * (f / 16)

/-- The functions of a link or half, the OF first (R76). -/
def State.linkFns (s : State) (l : Nat) : List Nat :=
  ((64 + l / 2) :: (List.range 16).map (fun i => 16 * (l / 2) + i)).filter (fun f => s.fnLink f = l)

/-- The physical function of a link or half: OFn on Hn and Hna, CFn on Hnb (R76, R77). -/
def linkPf (l : Nat) : Nat := if l % 2 = 0 then 64 + l / 2 else 68 + l / 2

/-- The link or half a physical function sits on. -/
def pfLink (p : Nat) : Nat := if p < 68 then 2 * (p - 64) else 2 * (p - 68) + 1

/-- The tenant functions of a link or half, in the order of their virtual-function numbers (Table 4-1). -/
def State.linkTfs (s : State) (l : Nat) : List Nat :=
  ((List.range 16).map (fun i => 16 * (l / 2) + i)).filter (fun f => s.fnLink f = l)

/-- VF Enable is set on the physical function of a TF, and NumVFs covers the TF (R81). -/
def State.vfOn (s : State) (f : Nat) : Bool :=
  let p := s.fn (linkPf (s.fnLink f))
  p.vfEn && decide (f % (if s.fnLink f % 2 = 1 then 8 else 16) < p.numVfs)

/-- A function is present (R81). -/
def State.present (s : State) (f : Nat) : Bool :=
  (s.link (s.fnLink f)).up && (s.fn f).d0 && (s.fn f).bme && (isOf f || s.vfOn f)

/-- The largest read request that a function may issue, in bytes, as the partner has set it on the physical function (Table 4-2). -/
def State.maxRead (s : State) (f : Nat) : Nat := 128 * 2 ^ min 5 (s.fn (linkPf (s.fnLink f))).mrrs

/-- Whether the operator's profile lets a function leave Disabled: an OF has no profile (4.7). -/
def State.enabled (s : State) (f : Nat) : Bool := isOf f || s.profCtrlEnable f = 1

/-- The number of MSI-X vectors of a function: none of a carrier function (Table 4-2, R79). -/
def vectors (f : Nat) : Nat := if isOf f then 64 else if f < 64 then 8 else 0

/-- The profile's quota of transmit rings, receive rings and completion queues (R90, Table 4-14). -/
def State.quota (s : State) (f : Nat) : Nat × Nat × Nat :=
  if isOf f then (32, 32, 32) else (s.profQuotaTxRings f, s.profQuotaRxRings f, s.profQuotaCqs f)

/-! ### Fences (4.8) -/

/-- Window w of a function: [BASE, LIMIT) of partner addresses. -/
def State.fenceBase (s : State) (f w : Nat) : Nat := s.fenceBaseLoBase f w * 2 ^ 12 + s.fenceBaseHiBase f w * 2 ^ 32
def State.fenceEnd (s : State) (f w : Nat) : Nat := s.fenceLimitLoLimit f w * 2 ^ 12 + s.fenceLimitHiLimit f w * 2 ^ 32

/-- The access lies wholly inside one active window of the function (R95). -/
def State.fenceOk (s : State) (f addr len : Nat) : Bool :=
  (List.range 16).any (fun w => decide (s.fenceBase f w < s.fenceEnd f w) && decide (s.fenceBase f w ≤ addr)
    && decide (addr + len ≤ s.fenceEnd f w))

/-! ### The mailbox reply (R86) -/

/-- The reply record (Table 4-6): OPCODE, SEQ, STATUS, a zero byte, OPERAND0 and zeros, with its CRC-16. Table 4-7 gives OPERAND0 of an
accepted request alone: OPERAND1 of every reply, and OPERAND0 of a refused one, are 0 (DESIGN CHOICE, log 68). -/
def replyRecord (f op seq status op0 : Nat) : Bytes :=
  withCheck16 (le 1 op ++ le 1 seq ++ le 1 status ++ [0] ++ le 8 op0 ++ List.replicate 18 0) (fnWord f) seq

/-- Writing the reply of the request in progress: REPLY_SEQ, BUSY and MSI-X vector 0 (R86). -/
def State.mbxReply (s : State) (f status op0 : Nat) : State :=
  let q := s.fn f
  (s.setFn f (fun n => { n with replySeq := q.goSeq, busy := false, wait := none,
                                reply := replyRecord f q.goOp q.goSeq status op0 })).msix f 0

/-- The message is a mailbox request record. -/
def Msg.isMailbox (m : Msg) : Bool := match m.kind with | .mailbox _ => true | _ => false

/-- A request that is abandoned leaves the descriptor cache and its unit. -/
def State.dropRequest (s : State) (f : Nat) : State :=
  s.onHost (fun h => { h with msgs := h.msgs.filter (fun m => m.fn ≠ f ∨ m.isMailbox = false),
                              units := h.units.filter (fun u => u.2.msg.fn ≠ f ∨ u.2.msg.isMailbox = false) })

/-- Resetting a mailbox (R87). -/
def State.mbxReset (s : State) (f : Nat) : State :=
  (s.dropRequest f).setFn f (fun n => { n with replySeq := 0, busy := false, wait := none, reply := [] })

/-! ### Eviction (4.9) -/

/-- Steps 2 and 7 for the rings: every ring, queue and event ring of the function is reset (R98); left with no ready frame, it has no deficit
(R134, 06_transmit). -/
def State.dropRings (s : State) (f : Nat) : State :=
  ((((s.onSched (fun t => t.map (fun e => (e.1, { e.2 with deficit := e.2.deficit.filter (fun d => d.1 % 128 ≠ f) })))).onTx (fun t => t.filter (fun e => e.2.fn ≠ f))).onRx
    (fun t => t.filter (fun e => e.2.fn ≠ f))).onCq
    (fun t => t.filter (fun e => e.2.fn ≠ f))).onEvents
    (fun v => { v with rings := v.rings.filter (fun e => e.2.fn ≠ f) })

/-- Steps 2, 5 and 7 for the reads and the check-value units: tags void, cache entries and units freed (R98, R74). -/
def State.dropReads (s : State) (f : Nat) : State :=
  s.onHost (fun h => { h with reads := h.reads.map (fun r => if r.fn = f then { r with void := true } else r),
                              asks := h.asks.filter (fun r => r.fn ≠ f), msgs := h.msgs.filter (fun m => m.fn ≠ f),
                              units := h.units.filter (fun u => u.2.msg.fn ≠ f) })

/-- Step 3: frames already granted are sent in full and complete nothing (R98). -/
def State.quietFrames (s : State) (f : Nat) : State :=
  s.onSched (fun t => t.map (fun e =>
    (e.1, { e.2 with cur := e.2.cur.map (fun c => if c.fn = f then { c with quiet := true } else c) })))

/-- Step 6: a held frame without the copies of a function. -/
def HFrame.dropFn (f : Nat) (h : HFrame) : HFrame := { h with copies := h.copies.filter (fun c => c.fn ≠ f) }

/-- A held frame that an eviction frees: in a warm hand-over those of the outgoing engine are lost with its Hamper (R376,
17_when_subsystems_meet). -/
def State.evictable (s : State) (h : HFrame) : Bool := h.inc || !s.pair.handover.any (fun x => x.warm)

/-- The number of copies of such frames that belong to a function. -/
def State.copiesOf (s : State) (f : Nat) : Nat :=
  ((s.hamper.frames.filter s.evictable).map (fun h => (h.copies.filter (fun c => c.fn = f)).length)).sum

/-- Step 6: received frames held for the function are freed and count in EVICT_DROP (R98). The function's transmit
cells are freed with its sends. -/
def State.dropFrames (s : State) (f : Nat) : State :=
  (s.countN .evictDrop 0 f (s.copiesOf f)).onHamper (fun h =>
    { h with frames := (h.frames.map (fun x => if s.evictable x then x.dropFn f else x)).filter (fun x => x.copies ≠ []) })

/-- A snapshot of the OF in progress is aborted (R224, 09_tally): Refused, reason Aborted. -/
def State.abortSnap (s : State) (f : Nat) : State :=
  if isOf f ∧ (s.of (f - 64)).snapNow.isSome then
    s.setOf (f - 64) (fun o => { o with snapNow := none, snapState := 3, snapWhy := 4 })
  else s

/-- Beginning an eviction (R98, Table 4-12): steps 1 to 7. A request in progress that did not cause it is answered ABORTED
(R86). -/
def State.beginEvict (s : State) (f cause : Nat) (keep : Bool) : State :=
  let s1 := if (s.fn f).busy ∧ keep = false then s.mbxReply f 0x0A 0 else s
  let s2 := if (s.fn f).state = .checking then s1.raise .fnEnrolRefused (le 1 f ++ le 1 0x0A) else s1
  let s3 := s2.setFn f (fun n => { n with state := .evicting, evT0 := s.time64, evCause := cause, msixPend := 0 })
  (((((s3.dropFrames f).quietFrames f).dropReads f).dropRings f).flowAll).abortSnap f

/-- The state an eviction leaves (Table 4-11). -/
def State.afterEvict (s : State) (f : Nat) : FnState :=
  if (s.fn f).evCause = 7 then .quarantined else if s.present f = false then .absent
  else if s.enabled f = false then .disabled else .idle

/-- The end of presence for a cause (R82, R87, Table 4-11). -/
def State.endPresence (s : State) (f cause : Nat) (reset : Bool) : State :=
  let s1 := if reset then s.mbxReset f else s
  match (s.fn f).state with
  | .enrolled | .checking => s1.beginEvict f cause false
  | .idle | .disabled => s1.setFn f (fun n => { n with state := .absent })
  | _ => s1

/-- A function whose presence conditions are met becomes present (R81, Table 4-11): FN_PRESENT each time, also in a state that its presence
does not end. -/
def State.becomePresent (s : State) (f : Nat) : State :=
  match (s.fn f).state with
  | .absent => (s.setFn f (fun n => { n with state := if s.enabled f then .idle else .disabled })).raise .fnPresent (le 1 f)
  | .quarantined | .evicting => s.raise .fnPresent (le 1 f)
  | _ => s

/-- What a reset of a function leaves in its configuration: every bit at its reset value. -/
def FnSt.configReset (n : FnSt) : FnSt :=
  { n with vfEn := false, numVfs := 0, mrrs := 2, msixAddr := [], msixData := [], d0 := true, bme := false, msixEn := false, ro := false, msixMask := BitVec.allOnes 64, msixPend := 0 }

/-- The present functions of a link, which a reset of the link ends, one by one. -/
def State.endAll (s : State) (cause : Nat) : List Nat → State
  | [] => s
  | f :: r => State.endAll ((s.setFn f FnSt.configReset).endPresence f cause true) cause r

/-- DL_Down or PERST# on a link (R83, R99): every present function is evicted with cause LINK_DOWN. HL_LINK_DOWN is no record of an event ring
whose OF is evicted (R98 step 7). -/
def State.linkLost (s : State) (l : Nat) : State :=
  let k := s.link l
  if k.up then
    let s1 := (((s.setLink l (fun _ => LinkSt.init)).onLinkDown (fun t => tput t (l / 2) (satAdd 32 (tget t (l / 2)) 1))).endAll 3
      (s.linkFns l)).setFn (linkPf l) FnSt.configReset
    s1.raise .hlLinkDown (le 1 l ++ le 1 k.speed ++ le 1 k.width)
  else s

/-- Every host link goes down (Table 12-2 step 2; Table 13-4 step 4; R252). -/
def State.allLinksLost (s : State) : State :=
  (((((((s.linkLost 0).linkLost 1).linkLost 2).linkLost 3).linkLost 4).linkLost 5).linkLost 6).linkLost 7

/-- A fence violation (R96, R97): counted, reported once a second, and quarantine at FENCE_LIMIT. -/
def State.violation (s : State) (f : Nat) : State :=
  let n := if (s.fn f).fenceWin = s.second then (s.fn f).fenceN + 1 else 1
  let s1 := ((s.setFn f (fun q => { q with fenceN := n, fenceWin := s.second })).count .fenceViolation f).raiseOnce
    .fenceHit f (le 1 f)
  if isOf f = false ∧ n = s.fenceLimitLimit f then
    match (s.fn f).state with
    | .enrolled => (s1.raise .fnQuarantined (le 1 f)).beginEvict f 7 false
    | .idle => (s1.setFn f (fun q => { q with state := .quarantined })).raise .fnQuarantined (le 1 f)
    | _ => s1
  else s1

/-- Several violations in turn. -/
def State.violations (s : State) (f : Nat) : Nat → State
  | 0 => s
  | n + 1 => State.violations (s.violation f) f n

/-- A check failure of a mailbox or enrolment record (R72): FN_CHECK_FAIL and PARTNER_CHECK_FAIL. `binding` is the row of
Table 3-3. -/
def State.checkFail (s : State) (binding f ring slot got want : Nat) : State :=
  s.raiseOnce .partnerCheckFail f (le 1 binding ++ le 1 f ++ le 2 ring ++ le 2 slot ++ le 4 got ++ le 4 want)

/-! ### Enrolment (4.6) -/

/-- A refused ENROL: its event and its reply (R92). -/
def State.enrolFail (s : State) (f status : Nat) : State :=
  (s.raise .fnEnrolRefused (le 1 f ++ le 1 status)).mbxReply f status 0

/-- The lowest free read tag of a link or half: 768 of its 10-bit tags are used at most (R79); a tag is numbered link x 1,024 + its 10 bits. -/
def State.freeTag (s : State) (l : Nat) : Option Nat :=
  ((List.range 768).map (fun t => 1024 * l + t)).find? (fun t => s.host.reads.all (fun r => r.tag ≠ t))

/-- A read request leaves with a tag. -/
def State.sendRead (s : State) (q : ReadAsk) (t : Nat) : State :=
  (s.onHost (fun h => { h with reads := h.reads ++ [{ tag := t, fn := q.fn, kind := q.kind, addr := q.addr, len := q.len,
                                                      void := false, timedOut := false }] })).emit (.memRead q.fn t q.addr q.len)

/-- Issuing a DMA read of a function: it leaves now, or waits until a tag frees (R79; R404, 05_rings_and_doorbells). -/
def State.issueRead (s : State) (f : Nat) (k : ReadKind) (addr len : Nat) : State :=
  let q : ReadAsk := { fn := f, kind := k, addr := addr, len := len }
  match s.freeTag (s.fnLink f) with
  | some t => if s.host.asks.any (fun r => s.fnLink r.fn = s.fnLink f) then s.onHost (fun h => { h with asks := h.asks ++ [q] }) else s.sendRead q t
  | none => s.onHost (fun h => { h with asks := h.asks ++ [q] })

/-- A tag is free again, and the first read that waits on its link takes it. -/
def State.dropTag (s : State) (tag : Nat) : State :=
  let s1 := s.onHost (fun h => { h with reads := h.reads.filter (fun r => r.tag ≠ tag) })
  match s1.host.asks.find? (fun r => s1.fnLink r.fn = tag / 1024), s1.freeTag (tag / 1024) with
  | some q, some t => (s1.onHost (fun h => { h with asks := h.asks.erase q })).sendRead q t
  | _, _ => s1

/-- ENROL from step 2 on (Table 4-10, R89): the format and fence tests, then the read of the record. -/
def State.enrolRead (s : State) (f op0 op1 : Nat) : State :=
  if op0 % 64 ≠ 0 ∨ op1 ≠ 0 then s.enrolFail f 2
  else if s.fenceOk f op0 64 then
    (s.setFn f (fun n => { n with state := .checking, wait := some .enrol })).issueRead f .enrol op0 64
  else (s.violation f).enrolFail f 6

/-- ENROL (R89 step 1, R91). -/
def State.enrolStart (s : State) (f op0 op1 : Nat) : State :=
  match (s.fn f).state with
  | .idle => s.enrolRead f op0 op1
  | .enrolled => (s.setFn f (fun n => { n with wait := some (.reenrol op0 op1) })).beginEvict f 2 true
  | .disabled | .quarantined => s.enrolFail f 7
  | _ => s.enrolFail f 0x0B

/-- The image-tag test (R90): TAG_MODE 0 Any, 1 Exact, 2 Sticky; an OF enrols under Any. -/
def State.tagOk (s : State) (f tag : Nat) : Bool :=
  if isOf f ∨ s.profCtrlTagMode f = 0 then true
  else if s.profCtrlTagMode f = 1 then tag = s.imageTagLoTag f + s.imageTagHiTag f * 2 ^ 32
  else !(s.fn f).seen || tag = (s.fn f).tagSeen

/-- The first failing step of 4 to 8 of Table 4-10 for a record, or 0 (R88, R89). -/
def State.enrolStatus (s : State) (f : Nat) (d : Bytes) : Nat :=
  let gen := ((s.fn f).gen + 1) % 256
  if leAt d 60 4 ≠ crcFold 2 (d.take 60) (fnWord f) gen then 1
  else if leAt d 0 2 ≠ 1 ∨ byteAt d 2 ≠ f ∨ leAt d 15 45 ≠ 0 then 2
  else if byteAt d 3 ≠ gen then 4
  else if s.tagOk f (leAt d 4 8) = false then 3
  else if (s.quota f).1 < byteAt d 12 ∨ (s.quota f).2.1 < byteAt d 13 ∨ (s.quota f).2.2 < byteAt d 14 then 5
  else 0

/-- A full token bucket at enrolment (R135, 06_transmit), in 1/(8,000 x 2^32) byte. -/
def State.bucketFull (s : State) (f : Nat) : Int := (s.tbBurstBytes f * (8000 * 2 ^ 32) : Nat)

/-- Success (R92): FN_GEN, Enrolled, the grants and the reply; under Sticky the tag is recorded (R90). It takes effect at the end of its J-cycle,
so that an eviction trigger of the same J-cycle wins (R101). -/
def State.enrolDone (s : State) (f : Nat) (d : Bytes) : State :=
  let tag := leAt d 4 8
  let sticky := isOf f = false ∧ s.profCtrlTagMode f = 2
  let s1 := s.setFn f (fun n =>
    { n with state := .enrolled, gen := byteAt d 3, grantTx := byteAt d 12, grantRx := byteAt d 13, grantCq := byteAt d 14,
             seen := if sticky then true else n.seen, tagSeen := if sticky then tag else n.tagSeen,
             tbLevel := s.bucketFull f, tbAt := s.time.elapsed, throttled := [] })
  (s1.raise .fnEnrolled (le 1 f ++ le 8 tag ++ le 1 (byteAt d 3))).mbxReply f 0
    (byteAt d 12 + byteAt d 13 * 2 ^ 8 + byteAt d 14 * 2 ^ 16 + vectors f * 2 ^ 24)

/-- The enrolments whose last step has passed in a J-cycle take effect at its end (R92, R101). -/
def State.enrolEnd (s : State) (f : Nat) : State :=
  match (s.fn f).wait with
  | some (.enrolled d) => s.enrolDone f d
  | _ => s

def State.enrolEnds (s : State) : State :=
  ((s.fns.filter (fun e => e.2.busy)).map (fun e => e.1)).foldl State.enrolEnd s

/-- Steps 4 to 8 of Table 4-10 on a record of 64 bytes (R88, R89). -/
def State.enrolChecked (s : State) (f : Nat) (d : Bytes) : State :=
  let st := s.enrolStatus f d
  if st = 0 then s.setFn f (fun n => { n with wait := some (.enrolled d) })
  else
    let back := s.setFn f (fun n => { n with state := .idle })
    let s1 := if st = 1 then
        (back.count .fnCheckFail f).checkFail 6 f 0 0 (leAt d 60 4) (crcFold 2 (d.take 60) (fnWord f) (((s.fn f).gen + 1) % 256))
      else back
    s1.enrolFail f st

/-- The lowest free inbound unit of the 16 (R68). The units of the other pools of Table 3-4 serve one message within the step in which it is
complete, so that none of them is busy between two steps (DEDUCED, log 91). -/
def State.freeUnit (s : State) : Option Nat := (List.range 16).find? (fun u => s.host.units.all (fun e => e.1 ≠ u))

/-- A mailbox or enrolment record takes an inbound unit at once where one is free and no message waits; otherwise it waits in the descriptor
cache (R69). -/
def State.unitNow (s : State) : Bool := s.freeUnit.isSome && s.host.msgs.isEmpty

/-- A message waits for a unit (R69). -/
def State.msgWaits (s : State) (m : Msg) : State := s.onHost (fun h => { h with msgs := h.msgs ++ [m] })

/-- The read of the enrolment record has completed (R89, steps 3 to 8). -/
def State.enrolRecord (s : State) (f : Nat) (good : Bool) (d : Bytes) : State :=
  let s0 := ((s.host.reads.filter (fun r => r.fn = f ∧ r.kind = .enrol ∧ r.void = false)).map (fun r => r.tag)).foldl State.dropTag s
  if good = false then (s0.setFn f (fun n => { n with state := .idle })).enrolFail f 8
  else if s0.unitNow then s0.enrolChecked f (padTo 64 d)
  else s0.msgWaits { fn := f, kind := .enrol, data := padTo 64 d }

/-- A read error of a function (R79): an eviction trigger while Enrolled; for the enrolment record, step 3 fails. -/
def State.readError (s : State) (f : Nat) : State :=
  match (s.fn f).state with
  | .enrolled => s.beginEvict f 6 false
  | .checking => s.enrolRecord f false []
  | _ => s

/-- The end of an eviction (R98 step 8, Table 4-11): the grants return, FN_EVICTED is raised, and a LEAVE or a
re-enrolment goes on (R86, R91). -/
def State.finishEvict (s : State) (f : Nat) : State :=
  let n := s.fn f
  let next := s.afterEvict f
  let s1 := ((s.setFn f (fun q => { q with state := next, cause := n.evCause, grantTx := 0, grantRx := 0, grantCq := 0 })).count
    .evictCount f).raise .fnEvicted (le 1 f ++ le 1 n.evCause ++ le 8 n.evT0)
  match n.wait with
  | some .leave => s1.mbxReply f 0 0
  | some (.reenrol op0 op1) =>
    match next with
    | .idle => s1.enrolRead f op0 op1
    | .absent => s1.enrolFail f 0x0A
    | _ => s1.enrolFail f 7
  | _ => s1

/-! ### AER (Table 4-3) -/

/-- Counting an error in HL_AER_COUNT_n; an uncorrectable one raises HL_AER (R79). -/
def State.aer (s : State) (l : Nat) (uncorrectable : Bool) : State :=
  let s1 := s.onLinkAer (fun t => tput t (l / 2) (satAdd 32 (tget t (l / 2)) 1))
  if uncorrectable then s1.raise .hlAer (le 1 l) else s1

end Sys2Proof.Machine
end

