-- ==== Sys2Proof/Machine/TetherOps.lean ====
section
/-! DEFINITION. The bits of a Tether frame on the bus (15.2 of 15_tether), and the transmit queue and counters as operations that other blocks'
commands use: a frame of the Supervisor's own waits, and a fail-over is announced. -/
namespace Sys2Proof.Machine

/-! ### Bits on the bus (15.2) -/

/-- The n low bits of a number, the most significant first. -/
def msbBits : Nat → Nat → List Bool
  | 0, _ => []
  | n + 1, x => bit x n :: msbBits n x

/-- The number that bits spell, the most significant first. -/
def ofMsb (l : List Bool) : Nat := l.foldl (fun n b => 2 * n + ofBool b) 0

/-- Bytes as bits, each byte bit 7 first, and back. -/
def byteBits (p : Bytes) : List Bool := p.flatMap (fun b => msbBits 8 b.toNat)
def bitsBytes (n : Nat) (l : List Bool) : Bytes := (List.range n).map (fun i => BitVec.ofNat 8 (ofMsb ((l.drop (8 * i)).take 8)))

/-- Stuffing (R328): after five equal bits a bit of the opposite value, which counts as the first of the next run; so too
after the last bit (DEDUCED, log 89). `prev` is the bit before and `run` the length of its run. -/
def stuffBits (prev : Bool) (run : Nat) : List Bool → List Bool
  | [] => if run = 5 then [!prev] else []
  | b :: r =>
    if run = 5 then (!prev) :: b :: stuffBits b (if b = prev then 1 else 2) r
    else b :: stuffBits b (if b = prev then run + 1 else 1) r

/-- Reading a number of bits of the stuffed part: the bits without stuff bits, the run that they end in, and the bits behind them. None is a stuff
error: six equal bits (R328). -/
def destuff : Nat → Bool → Nat → List Bool → Option (List Bool × Bool × Nat × List Bool)
  | _, prev, run, [] => some ([], prev, run, [])
  | n, prev, run, b :: r =>
    if run = 5 then (if b = prev then none else destuff n b 1 r)
    else
      match n with
      | 0 => some ([], prev, run, b :: r)
      | k + 1 => (destuff k b (if b = prev then run + 1 else 1) r).map (fun e => (b :: e.1, e.2))

/-- The stuffed part of a frame before stuffing (Table 15-1): SOF, ID, SW, LEN, SEQ, PAYLOAD, CHECK. -/
def tetherFields (id seq : Nat) (payload : Bytes) (check : Nat) : List Bool :=
  false :: msbBits 16 id ++ true :: msbBits 6 payload.length ++ msbBits 8 seq ++ byteBits payload ++ msbBits 16 check

/-- A frame as its sender puts it on the bus (R327): the stuffed part, CRC delimiter, the ACK slot sent recessive, ACK delimiter and EOF. -/
def tetherWire (id seq : Nat) (payload : Bytes) (check : Nat) : List Bool :=
  stuffBits true 0 (tetherFields id seq payload check) ++ List.replicate 10 true

/-- The delimiters and EOF of a received frame are recessive; the ACK slot is what the receivers make of it. -/
def tailGood (l : List Bool) : Bool := decide (10 ≤ l.length) && ((l.take 1) ++ (l.drop 2).take 8).all (fun b => b)

/-- What a receiver finds (R327, R328, R333): the form, ID, SEQ, PAYLOAD and CHECK. A dominant SW, a LEN above 32, a delimiter or an EOF that is
not recessive, and a frame that ends early are form errors. -/
def readWire (w : List Bool) : RxForm × Nat × Nat × Bytes × Nat :=
  match destuff 24 true 0 w with
  | none => (.stuffError, 0, 0, [], 0)
  | some (h, prev, run, r) =>
    let id := ofMsb ((h.drop 1).take 16)
    let n := ofMsb (h.drop 18)
    if h.length < 24 ∨ h.headD true = true ∨ h.getD 17 false = false ∨ 32 < n then (.formError, id, 0, [], 0)
    else
      match destuff (24 + 8 * n) prev run r with
      | none => (.stuffError, id, 0, [], 0)
      | some (d, _, _, t) =>
        (if d.length = 24 + 8 * n ∧ tailGood t then .ok else .formError, id, ofMsb (d.take 8), bitsBytes n (d.drop 8), ofMsb (d.drop (8 + 8 * n)))

end Sys2Proof.Machine

namespace Sys2Proof

/-- The fields of a received frame (Table 15-1). -/
def TetherFrame.form (f : TetherFrame) : RxForm := (Machine.readWire f.wire).1
def TetherFrame.id (f : TetherFrame) : BitVec 16 := BitVec.ofNat 16 (Machine.readWire f.wire).2.1
def TetherFrame.seq (f : TetherFrame) : BitVec 8 := BitVec.ofNat 8 (Machine.readWire f.wire).2.2.1
def TetherFrame.payload (f : TetherFrame) : Bytes := (Machine.readWire f.wire).2.2.2.1
def TetherFrame.check (f : TetherFrame) : BitVec 16 := BitVec.ofNat 16 (Machine.readWire f.wire).2.2.2.2

end Sys2Proof

namespace Sys2Proof.Machine

/-! ### The transmit queue -/

/-- Changing the Tether. -/
def State.tetherCount (s : State) (n : Nat) : State :=
  s.onTether (fun t => { t with counts := tput t.counts n (satAdd 32 (tget t.counts n) 1) })

/-- A frame of the Supervisor's own waits (15.4); a Disabled station queues none. -/
def State.tetherQueue (s : State) (typ : Nat) (payload : Bytes) : State :=
  if s.tether.claim = .disabled then s
  else s.onTether (fun t => { t with queue := t.queue ++
    [{ typ := typ, payload := payload, slot := none, seq := none, tries := 0, cancel := false }] })

/-- A FAILOVER frame is queued (R352): KIND of Table 15-5, CAUSE of Table 10-10 and the event's stamp. -/
def State.announce (s : State) (kind cause : Nat) : State :=
  s.tetherQueue 0x30 (le 1 kind ++ le 1 cause ++ le 8 s.time64)

/-- The mode that a group-sleep round names: 1 Sleep, 2 Deep sleep (Table 15-2). -/
def TetherSt.gsTarget (t : TetherSt) : PwrMode := if t.gsMode = 2 then .deepSleep else .sleep

/-- A wake source of the target mode registered by a member that has agreed makes it veto (R348). -/
def State.vetoWake (s : State) (w : Wake) : State :=
  match s.tether.gs with
  | .agreed | .committed =>
    if s.tether.heldWake.isSome then s
    else (s.tetherQueue 0x10 (le 1 s.tether.round ++ le 1 s.tether.proposer)).onTether (fun t => { t with heldWake := some w })
  | _ => s

end Sys2Proof.Machine
end

