-- ==== Sys2Proof/Machine/Wakes.lean ====
section
/-! DEFINITION. Wakes and the wake-cause record (13.4, 13_islands_and_power_states), the start of an exit, and the islands that a request
meets (R31, 01_the_sled). -/
namespace Sys2Proof.Machine

/-- STATE of ISL_STATE (Table 13-8, 13_islands_and_power_states). -/
def IslState.code : IslState → Nat
  | .on => 0
  | .retention => 1
  | .off => 2

/-! ### Wakes (13.4) -/

/-- PWR_STATUS.MODE and FROM_MODE (Table 13-8); 6 is Off. -/
def PwrMode.code : PwrMode → Nat
  | .run => 0
  | .idle => 1
  | .sleep => 2
  | .deepSleep => 3
  | .entering => 4
  | .exiting => 5
  | .off => 6

/-- The WAKE_CAUSE register (Table 13-8). -/
def State.wakeWord (s : State) : Nat :=
  s.power.wakeSrc + s.power.wakeDet * 2 ^ 8 + ofBool s.power.replayed * 2 ^ 16 + s.power.wakeFrom.code * 2 ^ 17

/-- The wake sources of a mode (Table 13-3). -/
def wakeSources : PwrMode → List Nat
  | .sleep => [2, 3, 5, 6, 7, 8, 9]
  | .deepSleep => [2, 3, 4, 5, 6]
  | .off => [2]
  | _ => []

/-- A source is taken: codes 5 to 9 only while their bit of WAKE_EN is 1 (R303). -/
def State.wakeTaken (s : State) (src : Nat) : Bool := if 5 ≤ src ∧ src ≤ 9 then bit s.wakeEnEn (src - 5) else true

/-- Two wakes of one instant: the lowest code is SOURCE, the others are recorded in OTHERS (R302). -/
def Wake.join (v w : Wake) : Wake :=
  if w.source < v.source then { w with others := Nat.lor v.others (2 ^ v.source) }
  else if w.source = v.source then v
  else { v with others := Nat.lor v.others (2 ^ w.source) }

/-- The watch lanes stop, and lane 0 returns to its instance (R206). -/
def State.watchStop (s : State) : State :=
  (List.range 2).foldl (fun t p => t.setWatchLane p (fun w => { w with running := false, ready := false })) s

/-- Exit begins with a wake (R301, R302): the wake-cause record, stage 1, and the regulator back in full mode (R287). -/
def State.beginExit (s : State) (w : Wake) (replay : Bool) : State :=
  (s.watchStop.onPower (fun p =>
    { p with mode := .exiting, exitFrom := p.mode, stage := 0, retry := 0, wakeSrc := w.source, wakeDet := w.detail,
             replayed := replay, wakeFrom := p.mode, wakeOth := w.others, wakeTime := w.stamp, latched := none,
             replays := if replay then satAdd 32 p.replays 1 else p.replays })).onSupply (fun x => { x with lowPower := false })

/-- Registering a wake (R301 to R303): latched during an entry, the start of an exit in the mode itself; after that only
the sources of the same instant are recorded. A member of a group-sleep round vetoes (R348, 15_tether). -/
def State.registerWake (s : State) (src det : Nat) : State :=
  let w : Wake := { source := src, detail := det, stamp := s.time64, others := 0 }
  if s.wakeTaken src = false then s
  else
    match s.power.mode with
    | .entering =>
      if src ∈ wakeSources (s.power.target.getD .sleep) then
        s.onPower (fun p => { p with latched := some (match p.latched with
          | none => w
          | some v => if v.stamp = w.stamp then v.join w else v) })
      else s
    | .sleep | .deepSleep => if src ∈ wakeSources s.power.mode then s.beginExit w false else s
    | .exiting =>
      if src ∈ wakeSources s.power.exitFrom ∧ s.power.replayed = false ∧ s.power.wakeTime = w.stamp then
        s.onPower (fun p =>
          let j := ({ source := p.wakeSrc, detail := p.wakeDet, stamp := p.wakeTime, others := p.wakeOth } : Wake).join w
          { p with wakeSrc := j.source, wakeDet := j.detail, wakeOth := j.others })
      else s
    | .run | .idle => if src ∈ wakeSources s.tether.gsTarget then s.vetoWake w else s
    | .off => s

/-- Table 13-1: any broadcast input ends Idle. The wake that ends it has source 0x01 (R298). -/
def State.endIdle (s : State) : State :=
  if s.power.mode = .idle then
    s.onPower (fun p => { p with mode := .run, wakeSrc := 1, wakeDet := 0, replayed := false, wakeFrom := .idle,
                                 wakeOth := 0, wakeTime := s.time64,
                                 shortIdle := if s.time.elapsed < p.idleAt + 20 * uUs then p.shortIdle + 1 else p.shortIdle })
  else s

/-- A partner's TLP on a link is a partner wake in Sleep and in an entry to it (Table 13-5, R301, 13_islands_and_power_states; R385,
18_register_map); the row L1_EXIT brings the same wake. -/
def State.partnerWake (s : State) (f : Nat) : State :=
  match s.power.mode with
  | .sleep | .entering => s.registerWake 7 (s.fnLink f)
  | _ => s

/-- An island of the active engine in the list, by its place in Table 1-4, is isolated: a request into it is held (R31). -/
def State.engIsolated (s : State) (l : List Nat) : Bool :=
  match s.active with
  | some e => l.any (fun i => (s.island (i + match e with | .a => 0 | .b => 7)).isolated)
  | none => false

/-- The host links are down, so that no partner transaction arrives: Deep sleep, Off, Fenced (Table 13-3; R252, 10_engine_pair). -/
def State.noPartner (s : State) : Bool := s.pair.fenced || s.power.mode = .deepSleep || s.power.mode = .off

/-- A write of function f arrives: in Sleep it is a partner wake, and it ends Idle. A command of the block that names no OF counts as OF0's
(log 69). -/
def State.arrives (s : State) (f : Nat) : State := (s.partnerWake f).endIdle

end Sys2Proof.Machine
end

