-- ==== Sys2Proof/Machine/Levels.lean ====
section
/-! DEFINITION. The instances of a breakout (8.1, 08_the_wire), and the level outputs of the sled (R34, 01_the_sled): the SMBus alert and the front
lights (R397, 19_electrical_and_mechanical), which hold while the Junction holds them (R236, R237, 10_engine_pair). -/
namespace Sys2Proof.Machine

/-! ### Breakouts (Table 8-1, R182, 08_the_wire) -/

/-- Lanes per instance of a breakout. -/
def lanesPer (b : Nat) : Nat := if b = 0 then 8 else if b = 1 then 4 else if b = 2 then 2 else 1

/-- The instance rate of a breakout in Mb/s. -/
def rateOf (b : Nat) : Nat :=
  if b = 0 then 400000 else if b = 1 then 200000 else if b = 2 then 100000 else if b = 3 then 50000 else 25000

/-- The breakout of an instance's port. -/
def State.breakout (s : State) (m : Nat) : Nat := s.portCfgBreakout (m / 8)

/-- The instance exists under the active breakout (R182). -/
def State.instExists (s : State) (m : Nat) : Bool := m % 8 % lanesPer (s.breakout m) = 0

/-- The rate of an instance in Mb/s. -/
def State.rate (s : State) (m : Nat) : Nat := rateOf (s.breakout m)

/-- The instance that a physical lane belongs to. -/
def State.laneInst (s : State) (lane : Nat) : Nat :=
  8 * (lane / 8) + lane % 8 / lanesPer (s.portCfgBreakout (lane / 8)) * lanesPer (s.portCfgBreakout (lane / 8))

/-- The instances of a port under its breakout. -/
def State.portInsts (s : State) (p : Nat) : List Nat :=
  ((List.range 8).map (fun j => 8 * p + j)).filter (fun m => s.instExists m)

/-! ### Isolation clamps (R294, Table 13-1 of 13_islands_and_power_states) -/

/-- The clamp value of a signal class. -/
def Crossing.clamp : Crossing → Bool
  | .request | .ready | .resetN => false
  | .isolated => true

/-- What a signal that leaves an island shows where the island drives v: while its isolation cells are closed, the clamp value. -/
def State.leaving (s : State) (i : Nat) (c : Crossing) (v : Bool) : Bool := if (s.island i).isolated then c.clamp else v

/-! ### Level outputs -/

/-- PAIR_STATUS.SLED (Table 10-9, 10_engine_pair): 0 Paired, 1 Handing over, 2 Verdict, 3 Solo, 4 Resyncing, 5 Fenced. -/
def State.sledCode (s : State) : Nat :=
  if s.pair.fenced then 5 else if s.pair.verdict then 2 else if s.pair.handover.isSome then 1
  else if s.pair.resync.isSome then 4 else if s.paired then 0 else 3

/-- The cell bit of STATUS and of ATTN: the cell is absent, or CELL_LOW is in force. -/
def State.cellBad (s : State) : Bool := decide (s.supply.cell = .absent) || s.supply.cellLow

/-- A port's light: green where every enabled instance is Up, amber where some are, off where none is Up or none enabled (Table 19-8). -/
def State.portLamp (s : State) (p : Nat) : Lamp :=
  let l := (s.portInsts p).filter (fun m => s.macCfgEnable m = 1)
  if l.all (fun m => (s.mac m).link ≠ .up) then .off else if l.all (fun m => (s.mac m).link = .up) then .green else .amber

/-- The lights as the sled's state gives them (Table 19-8, R397): the first state of each row that holds; all off in Deep sleep and Off. -/
def State.lightsNow (s : State) : Lights :=
  if s.power.mode = .deepSleep ∨ s.power.mode = .off then { pwr := .off, pair := .off, attn := .off, lnk0 := .off, lnk1 := .off }
  else
    { pwr := match s.power.mode with
        | .entering | .exiting => .green1Hz
        | .sleep => .greenHalfHz
        | _ => .green,
      pair := if s.pair.fenced then .red else if s.pair.resync.isSome then .amber1Hz else if s.paired then .green else .amber,
      attn := if s.pair.fenced then .red else if s.events.alert then .amber
        else if s.events.fans ≠ 0 ∨ s.cellBad then .amber1Hz else .off,
      lnk0 := s.portLamp 0, lnk1 := s.portLamp 1 }

/-- The level outputs of this instant (R34, 01_the_sled). -/
def State.levelsNow (s : State) : Levels := { alert := s.events.alert, lights := s.lightsNow }

/-- The level outputs as they stand at the connector and the panel: held through a lockstep hand-over and a Verdict (R236, R237,
10_engine_pair). -/
def State.levelsOut (s : State) : Levels := s.pair.levels.getD s.levelsNow

/-- The SMBus alert as it stands at the connector and in EV_ALERT (R389, 18_register_map). -/
def State.alertOut (s : State) : Bool := s.levelsOut.alert

/-- The front lights as they show (R397, 19_electrical_and_mechanical). -/
def State.lights (s : State) : Lights := s.levelsOut.lights

/-- The pins of the rear service connector that the sled drives (Table 19-4, R392, 19_electrical_and_mechanical): SMB_ALERT_N is low while the
alert is asserted, and high impedance in Off; AUX_3V3 is there in Run, Idle and Sleep, and in their entries and exits, while its output is on;
PRESENT_N is ground. -/
def State.smbAlertLow (s : State) : Bool := s.alertOut && decide (s.power.mode ≠ .off)
def State.aux3v3 (s : State) : Bool := s.supply.auxOn && decide (s.power.mode ≠ .deepSleep) && decide (s.power.mode ≠ .off)
def presentLow : Bool := true

/-- The level outputs begin to be held, at their present values (R236, R237, 10_engine_pair). -/
def State.holdLevels (s : State) : State := s.onPair (fun p => { p with levels := some (p.levels.getD s.levelsNow) })

/-- The level outputs pass on again, and the interrupts signalled meanwhile leave (R236, R237, 10_engine_pair). -/
def State.freeLevels (s : State) : State :=
  (s.events.msixHeld.foldl (fun t e => t.msixSend e.1 e.2) (s.onPair (fun p => { p with levels := none }))).onEvents
    (fun v => { v with msixHeld := [] })

end Sys2Proof.Machine
end

