-- ==== Sys2Proof/Machine/PairOps.lean ====
section
/-! DEFINITION. The engine pair as operations that the commands share (10_engine_pair): failing an engine, Fenced, the
start of a hand-over, resynchronisation, and the queue of transactions while no engine is active. -/
namespace Sys2Proof.Machine

/-- The failures of an engine in the last hour of device time (R250). -/
def State.failsHour (s : State) (e : Eng) : List Nat :=
  (s.eng e).fails.filter (fun t => decide (s.time.elapsed < t + 3600 * uSec))

/-- An engine enters Failed (Table 10-1): ENGINE_FAILED; then, unless the sled is Fenced, with AUTO_RESYNC it goes to
Requalifying, or to Retired at the third failure within an hour. -/
def State.failEngine (s : State) (e : Eng) (cause : Nat) : State :=
  let l := s.failsHour e ++ [s.time.elapsed]
  let s1 := (s.setEng e (fun g => { g with state := .failed, act := false, cause := cause, fails := l })).raise
    .engineFailed (le 1 (engCode e) ++ le 1 cause)
  if s.pairCtrlAutoResync = 1 ∧ s.pair.fenced = false then
    if l.length < 3 then s1.setEng e (fun g => { g with state := .requalifying })
    else ((s1.setEng e (fun g => { g with state := .retired })).raise .engineRetired (le 1 (engCode e))).announce 5 cause
  else s1

/-- Every frame on the wire is ended with an error control block and leaves its instance (R237, R241, R252; Table 12-2). -/
def State.cutOne (s : State) (m : Nat) : State :=
  match (s.sch m).cur with
  | some _ => (s.setSch m (fun c => { c with cur := none })).emit (.cut m)
  | none => s

/-- Cutting the frames of all instances in turn. -/
def State.cutFrames (s : State) : State := (List.range 16).foldl State.cutOne s

/-- The host links on which a TLP is in progress at this instant, a bit each: the spec gives a TLP no duration, so which they are is a
free value (log 62). -/
def State.tlpsBusy (s : State) : Nat := s.freeNat 8

/-- The TLPs in progress are nullified (R237, R241). -/
def State.cutTlps (s : State) : State := (s.emit (.nullified s.tlpsBusy)).useFree

/-- Lane words go to the hold buffer from now on (R237, R241, R250). -/
def State.holdWords (s : State) : State := s.onPair (fun p => { p with holdAt := some (p.holdAt.getD s.time.elapsed) })

/-- Nothing is left in the hold buffer, the delay line and the queues of partner transactions: no engine will take them (R252). -/
def PairSt.emptied (p : PairSt) : PairSt :=
  { p with slotA := [], slotB := [], line := [], diverged := none, relq := [], hold := [], holdAt := none, cutTlp := 0,
           held := [], merge := [], reads := [] }

/-- The sled enters Fenced (R252): transmitters off, host links down, the alert asserted, FENCED in the Logbook only. -/
def State.fence (s : State) (cause : Nat) : State :=
  if s.pair.fenced then s
  else
    let s1 := (s.onPair (fun p => { p.emptied with
      fenced := true, fencedWhy := cause, handover := none, verdict := false, resync := none, ready := false,
      a := { p.a with act := false }, b := { p.b with act := false } })).freeLevels
    (((s1.cutFrames.allLinksLost).onEvents (fun v => { v with alert := true })).raise .fenced (le 1 cause)).announce 4 cause

/-- A COMMIT that is pending when a hand-over, a Verdict or a final stall begins is deferred (R19, R20, 00_scope). -/
def State.deferCommit (s : State) : State :=
  match s.setup.pendingSet with
  | some p =>
    if p.deferred then s
    else (s.onSetup (fun u => { u with pendingSet := some { p with deferred := true }, state := .deferred })).raise
      .commitDeferred (le 2 p.seq)
  | none => s

/-- The send has been granted: a frame of it has been, or it completed after its grant. -/
def Send.wasGranted (x : Send) : Bool :=
  match x.st with
  | .granted _ => true
  | .done => decide (0 < x.sent) || x.late
  | _ => false

/-- The slot after the last send granted of a ring (Table 10-3); a send that was rejected before any grant does not move it. -/
def TxRing.commitPos (r : TxRing) : Nat :=
  r.sends.foldl (fun p x => if x.wasGranted then advance (ringN r.size) x.last 1 else p) r.c

/-- The Tally at a warm hand-over (R224, 09_tally): the values of the last mirror boundary; a snapshot in progress is aborted;
TALLY_GAP carries t_m and t_h. -/
def State.tallyBack (s : State) : State :=
  let s1 := (List.range 4).foldl (fun t n => t.abortSnap (64 + n)) s
  (s1.onTally (fun t => { t with count := t.mirror, base := [], frac := t.mfrac, pend := [], gaps := satAdd 16 t.gaps 1,
                                 skipEnergy := true })).raise
    .tallyGap (le 8 s.tally.mirror64 ++ le 8 s.time64)

/-- The next free slot of a receive ring (Table 10-3): after the last slot that a frame has taken. -/
def RxRing.nextFree (r : RxRing) : Nat :=
  r.slots.foldl (fun p x => if x.hole < 253 then p else advance (ringN r.size) x.pos 1) r.c

/-- The guard slot that a Drain-overlap hand-over sets on a receive ring: GUARD_SLOTS beyond the mirrored next free slot (R243). -/
def RxRing.guarded (r : RxRing) (overlap : Bool) (slots : Nat) : RxRing :=
  if overlap then { r with guard := some (advance (ringN r.size) r.nextFree slots) } else r

/-- A warm hand-over begins: the mirrored commit position of each transmit ring and the mirrored next free slot of each receive
ring stand (R241, R243; Table 10-3), and so does the mirrored Tally. -/
def State.warmStart (s : State) : State :=
  ((s.onTx (fun t => t.map (fun e => (e.1, { e.2 with commit := e.2.commitPos })))).onRx
    (fun t => t.map (fun e => (e.1, e.2.guarded (s.pairModePairHandover = 1) s.pairGuardGuardSlots)))).tallyBack

/-- A frame of the active engine is on the wire, or granted. -/
def State.onWire (s : State) : Bool := (List.range 16).any (fun m => (s.sch m).cur.isSome)

/-- The outgoing ACT line falls in a hand-over (Table 10-2, Table 10-4): low from the next J-cycle on. -/
def State.lowerAct (s : State) (h : Handover) : State :=
  (s.setEng h.out (fun g => { g with act := false })).onPair (fun p =>
    { p with handover := some { h with fallen := true, lowAt := s.time.jcycle + 1 }, ready := false })

/-- The start of a hand-over in the J-cycle in which its cause is registered (10.3, 10.6). The outgoing ACT line falls at once, but in a
planned warm hand-over only once its frames on the wire have ended (R248). In lockstep the level outputs are held (R236); in a warm hand-over
from a fault the wire is cut and lane words go to the hold buffer (R241). -/
def State.startHandover (s : State) (out : Eng) (cause : Nat) (swap : Bool) : State :=
  let h : Handover := { warm := s.pair.warm, swap := swap, out := out, cause := cause, x := s.time.jcycle,
                        t0 := s.time.now, fallen := false, lowAt := s.time.jcycle + 1, drained := false }
  let s0 := if s.pair.warm then (if swap then s.warmStart else (s.warmStart.cutFrames.cutTlps).holdWords) else s.holdLevels
  if s.pair.warm && swap && s.onWire then (s0.onPair (fun p => { p with handover := some h, ready := false })).deferCommit
  else
    let s1 := s0.lowerAct h
    (if swap then s1.setEng out (fun g => { g with state := .standby }) else s1.failEngine out cause).deferCommit

/-- In a planned warm hand-over the outgoing ACT line falls once its frames on the wire have ended (R248). -/
def State.actFalls (s : State) : State :=
  match s.pair.handover with
  | some h => if h.fallen = false ∧ s.onWire = false ∧ s.active = some h.out then (s.lowerAct h).setEng h.out (fun g => { g with state := .standby }) else s
  | none => s

/-- A resynchronisation's Quiesce ends once the frames in progress have ended; the final stall follows (R250): lane words go to the hold
buffer and COMMITs are deferred. -/
def State.quiesceEnds (s : State) : State :=
  if s.pair.resync = some .quiesce ∧ s.onWire = false then
    (s.onPair (fun p => { p with resync := some .stall })).holdWords.deferCommit
  else s

/-- What waits for the last frame on the wire to end: the fall of an ACT line, or a final stall. -/
def State.wireIdle (s : State) : State := s.actFalls.quiesceEnds

/-- The engines' clocks are stopped, or isolation is closed, so that a cause is latched until LOGIC_RDY (R306, R374). -/
def State.isolated (s : State) : Bool :=
  s.power.mode = .sleep ∨ s.power.mode = .deepSleep ∨ (s.power.mode = .exiting ∧ s.power.stage ≠ 4) ∨ s.power.mode = .off

/-- An unexplained divergence has reached J-cycle e + 16, and a RELINQUISH of now is too late (R237, R257). -/
def State.divergedLate (s : State) : Bool := s.pair.diverged.any (fun d => decide (d.1 + 16 ≤ s.time.jcycle))

/-- A registered failure of an engine while nothing stands in the way (R231, R254, R255, R258; Table 10-1). -/
def State.faultAlone (s : State) (e : Eng) (cause : Nat) : State :=
  match (s.eng e).state with
  | .active =>
    if (s.eng (engOther e)).state = .standby then s.startHandover e cause false
    else (s.failEngine e cause).fence cause
  | .standby =>
    (((s.onPair (fun p => { p with ready := false })).failEngine e cause).raise .soloEntered []).announce 2 cause
  | .resyncing =>
    ((s.onPair (fun p => { p with resync := none })).raise .resyncFailed (le 1 (engCode e))).failEngine e cause
  | .requalifying => s.failEngine e cause
  | _ => s

/-- A failure of an engine registered during a hand-over (R248, R257). The outgoing engine of a fault is disregarded; a planned hand-over
whose outgoing engine faults becomes the fault's: at once while its ACT line is high or in the J-cycle of its start. An incoming engine
that fails fences the sled; one that fails before a planned outgoing ACT line has fallen leaves the active engine alone (log 63). -/
def State.faultInHandover (s : State) (h : Handover) (e : Eng) (cause : Nat) : State :=
  if e ≠ h.out then
    if h.fallen then (s.failEngine e cause).fence cause
    else (((s.onPair (fun p => { p with handover := none })).failEngine e cause).raise .soloEntered []).announce 2 cause
  else if h.swap = false then s
  else if h.fallen = false ∧ s.active = some e then
    (((s.cutFrames.cutTlps).holdWords).lowerAct { h with swap := false, cause := cause }).failEngine e cause
  else if h.x = s.time.jcycle then
    (s.onPair (fun p => { p with handover := some { h with swap := false, cause := cause } })).failEngine e cause
  else ((s.failEngine e cause).raise .soloEntered []).announce 2 cause

/-- An engine gives up control or is found faulty (R231, R254, R255, R257, R258; Table 10-1). In a Verdict, or once a divergence has reached
e + 16, the failure is registered and counts in the Verdict; a registration before that explains the divergence (10.4). -/
def State.engineFault (s : State) (e : Eng) (cause : Nat) : State :=
  if s.pair.fenced then s
  else if s.pair.verdict ∨ s.divergedLate then
    s.onPair (fun p => { p with relq := if p.relq.any (fun x => x.1 = e) then p.relq else p.relq ++ [(e, cause)] })
  else if s.isolated then s.onPair (fun p => { p with latched := some (p.latched.getD (e, cause)) })
  else
    let s1 := s.onPair (fun p => { p with diverged := none })
    match s1.pair.handover with
    | some h => s1.faultInHandover h e cause
    | none => s1.faultAlone e cause

/-- Partner transactions are held: no engine is active in a warm hand-over, a Verdict runs, or the final stall of a
resynchronisation (R237, R242, R250). -/
def State.holding (s : State) : Bool :=
  s.pair.verdict || s.pair.resync = some .stall ||
    match s.pair.handover with
    | some h => h.warm && s.active.isNone
    | none => false

/-- A partner transaction into the named islands of the active engine is held: no engine takes it (R242), or an island is isolated (R31,
01_the_sled). -/
def State.partnerHeld (s : State) (l : List Nat) : Bool := s.holding || s.engIsolated l

/-- No frame, TLP or completion is started: no engine is active, the pipelines are halted, the active engine quiesces, or a planned warm
hand-over has begun (R230, R237, R248, R250). -/
def State.mute (s : State) : Bool :=
  s.pair.fenced || s.holding || s.pair.resync = some .quiesce || s.pair.handover.any (fun h => h.warm)

/-- The engines start nothing that needs the named islands: the outputs are mute, or an island is isolated (R31, 01_the_sled). -/
def State.idleEngine (s : State) (l : List Nat) : Bool := s.mute || s.engIsolated l

/-- The function of a held transaction. -/
def HeldOp.fn (o : HeldOp) : Nat :=
  match o with
  | .doorbell f _ _ _ => f
  | .record f _ _ => f
  | .mailbox f _ => f
  | .write of _ _ => 64 + of
  | .snap of _ _ _ => 64 + of

/-- The engine islands that a live write at an offset goes to: a PORT island for the MAC's registers, HOST and MGMT for FN_CMD, otherwise MGMT. -/
def writeIslands (off : Nat) : List Nat :=
  if 0x40000 ≤ off ∧ off < 0x42000 then [(off - 0x40000) / 0x800] else if off = 0x4A00 then [2, 5] else [5]

/-- The islands of the active engine that a held transaction goes to (R31, 01_the_sled). -/
def HeldOp.islands (o : HeldOp) : List Nat :=
  match o with
  | .doorbell _ _ _ _ => [2]
  | .record _ _ _ => [2, 5]
  | .mailbox _ _ => [2, 5]
  | .write _ off _ => writeIslands off
  | .snap _ _ _ _ => [5]

/-- The link or half a held transaction arrived on. -/
def State.heldLink (s : State) (o : HeldOp) : Nat := s.fnLink o.fn

/-- The key of a held write (R242): kind, function, and the ring and doorbell offset of a doorbell, or the offset of any other write. -/
def HeldOp.key (o : HeldOp) : Nat × Nat × Nat :=
  match o with
  | .doorbell f p _ v => (0, f, p * 2 ^ 10 + v % 2 ^ 10)
  | .record f off _ => (1, f, off)
  | .mailbox f _ => (1, f, 0x20)
  | .write of off _ => (2, of, off)
  | .snap of _ _ _ => (2, of, 0x6001C)

/-- Two held writes with the same key. -/
def HeldOp.sameKey (a b : HeldOp) : Bool := a.key = b.key

/-- In a warm hand-over the outgoing engine still delivers the frames of its Hamper: a planned one, until the drain ends
(R248). -/
def State.draining (s : State) : Bool := s.pair.handover.any (fun h => h.warm && h.swap && !h.drained)

/-- Queuing a transaction with its stamp (R242): up to 8,192 for each link or half while no engine is active, then the merge store. Those
of a function that is being evicted are discarded (R376, 17_when_subsystems_meet). What waits for an isolated island alone is all held (R31,
01_the_sled). -/
def State.hold (s : State) (o : HeldOp) : State :=
  let x : HeldTx := { op := o, stamp := s.time64 }
  if s.pair.handover.isSome ∧ (s.fn o.fn).state = .evicting then s
  else if s.holding = false ∨ (s.pair.held.filter (fun y => s.heldLink y.op = s.heldLink o)).length < 8192 then
    s.onPair (fun p => { p with held := p.held ++ [x] })
  else
    let old := s.pair.merge.any (fun y => y.op.sameKey o)
    let s1 := s.onPair (fun p => { p with merge := p.merge.filter (fun y => y.op.sameKey o = false) ++ [x] })
    if old then
      match o with
      | .doorbell .. => s1.count .handoverDbMerged 0
      | _ => s1.count .handoverWrMerged 0
    else s1

/-- A partner transaction that is held; its TLP can be a wake. -/
def State.takeIn (s : State) (o : HeldOp) : State := (s.hold o).partnerWake o.fn

/-- The code of a Crosscut link in LINK_LOCK_LOST: 1 A-J, 2 B-J, 3 mirror, and of a direction: 1 towards an engine (for the
mirror link, towards Engine A), 2 from an engine (R403, 05_rings_and_doorbells). -/
def flitLink : FlitPath → Nat
  | .fromEng .a | .toEng .a => 1
  | .fromEng .b | .toEng .b => 2
  | .mirrorTo _ => 3

def flitDir : FlitPath → Nat
  | .toEng _ | .mirrorTo .a => 1
  | .fromEng _ | .mirrorTo .b => 2

/-- The key of a link direction, its number of lanes, and its counters (Table 1-2; Table 10-11). -/
def flitKey : FlitPath → Nat
  | .fromEng .a => 0
  | .fromEng .b => 1
  | .toEng .a => 2
  | .toEng .b => 3
  | .mirrorTo .a => 4
  | .mirrorTo .b => 5

def flitLanes : FlitPath → Nat
  | .mirrorTo _ => 4
  | _ => 12

def flitBad : FlitPath → Ctr
  | .fromEng .a | .toEng .a => .flitBadAj
  | .fromEng .b | .toEng .b => .flitBadBj
  | .mirrorTo _ => .flitBadMirror

def flitLoss : FlitPath → Ctr
  | .fromEng .a | .toEng .a => .lockLossAj
  | .fromEng .b | .toEng .b => .lockLossBj
  | .mirrorTo _ => .lockLossMirror

def State.lockOf (s : State) (p : FlitPath) : LockSt := Tbl.get (fun _ => LockSt.init) s.pair.locks (flitKey p)
def State.setLockOf (s : State) (p : FlitPath) (f : LockSt → LockSt) : State :=
  s.onPair (fun q => { q with locks := Tbl.modify (fun _ => LockSt.init) q.locks (flitKey p) f })

end Sys2Proof.Machine
end

