-- ==== Sys2Proof/Machine/Crosscut.lean ====
section
/-! DEFINITION. The Crosscut links at the level of flits (10.2 and 10.10 of 10_engine_pair): framing, scrambler and check, the lock of a lane and
of a direction, what a sender sends, the comparator, and the delay line of 16 slots. -/
namespace Sys2Proof.Machine

/-! ### Link directions -/

/-- The other direction of the same link. -/
def flitReverse : FlitPath → FlitPath
  | .fromEng e => .toEng e
  | .toEng e => .fromEng e
  | .mirrorTo e => .mirrorTo (engOther e)

def LockSt.lane (l : LockSt) (i : Nat) : LaneRx := Tbl.get (fun _ => LaneRx.init) l.rx i
def LockSt.setLane (l : LockSt) (i : Nat) (x : LaneRx) : LockSt := { l with rx := Tbl.put (fun _ => LaneRx.init) l.rx i x }
def LockSt.sendLane (l : LockSt) (i : Nat) : LaneTx := Tbl.get (fun _ => LaneTx.init) l.tx i
def LockSt.setSendLane (l : LockSt) (i : Nat) (x : LaneTx) : LockSt := { l with tx := Tbl.put (fun _ => LaneTx.init) l.tx i x }

/-- A direction is Locked while every one of its lanes is, with one epoch (R254). -/
def LockSt.locked (l : LockSt) (lanes : Nat) : Bool :=
  (List.range lanes).all (fun i => decide ((l.lane i).st = .locked) && decide ((l.lane i).ep = (l.lane 0).ep))

/-- A link direction is Locked. -/
def State.lockedDir (s : State) (p : FlitPath) : Bool := (s.lockOf p).locked (flitLanes p)

/-! ### Flits (Table 10-5, Table 10-6, R253) -/

/-- The 32 payload bytes of a flit, bit 16 first. -/
def flitPayload (x : Nat) : Nat := bits x 16 256

/-- The check of a flit: code 0 over the payload as sent, folded with a sequence number and an epoch. -/
def flitCheck (payload seq epoch : Nat) : Nat := crcFold 0 (le 32 payload) seq epoch

/-- A flit of its fields. -/
def flitOf (marker payload seq epoch : Nat) : Nat := marker + payload * 2 ^ 16 + flitCheck payload seq epoch * 2 ^ 272

/-- Bit n of the scrambler x^58 + x^39 + 1 over the 58 bits before it, the latest in bit 0 (R253). -/
def scrTap (scr : Nat) : Bool := bit scr 38 != bit scr 57

/-- One bit moves into the 58 bits of a scrambler. -/
def scrPush (scr : Nat) (b : Bool) : Nat := (2 * scr + ofBool b) % 2 ^ 58

/-- Scrambling n bits from bit i on (R253): the scrambled bits, and the register after them. -/
def scramble : Nat → Nat → Nat → Nat → Nat × Nat
  | 0, _, _, scr => (0, scr)
  | n + 1, x, i, scr =>
    let b := bit x i != scrTap scr
    let r := scramble n x (i + 1) (scrPush scr b)
    (ofBool b * 2 ^ i + r.1, r.2)

/-- Descrambling n bits from bit i on (R253). -/
def descramble : Nat → Nat → Nat → Nat → Nat × Nat
  | 0, _, _, scr => (0, scr)
  | n + 1, x, i, scr =>
    let r := descramble n x (i + 1) (scrPush scr (bit x i))
    (ofBool (bit x i != scrTap scr) * 2 ^ i + r.1, r.2)

/-- An epoch flit (R253): the epoch, PEER_LOCKED, and its check with sequence number 0. -/
def epochFlit (epoch : Nat) (peer : Bool) : Nat := flitOf 0xA1D4 (epoch + 256 * ofBool peer) 0 epoch

/-- What the receiver of a lane finds in a flit (Table 10-7): an epoch flit with its epoch and PEER_LOCKED, a data flit with its descrambled
payload and the descrambler after it, or a bad flit. -/
inductive FlitIn where
  | epoch (n : Nat) (peer : Bool)
  | data (payload scr : Nat)
  | bad
deriving DecidableEq, Repr

/-- An epoch flit with a valid check. -/
def readEpoch (x : Nat) : FlitIn :=
  let p := flitPayload x
  if bits x 0 16 = 0xA1D4 ∧ bits x 272 16 = flitCheck p 0 (bits p 0 8) then .epoch (bits p 0 8) (bit p 8) else .bad

/-- A flit on a Locked lane: an epoch flit, or a data flit under the lane's sequence number and epoch. -/
def LaneRx.read (l : LaneRx) (x : Nat) : FlitIn :=
  let p := flitPayload x
  if bits x 0 16 = 0x5E2B ∧ bits x 272 16 = flitCheck p l.seq l.ep then
    let d := descramble 256 p 0 l.scr
    .data d.1 d.2
  else readEpoch x

/-! ### The lock of a lane (Table 10-7) -/

/-- The 288 bits that begin `back` bits before the last 288 received. -/
def LaneRx.flit (l : LaneRx) (cur : Nat) : Nat := bits (l.prev + cur * 2 ^ 288) (288 - l.back) 288

/-- In Search, the first alignment at which the window holds an epoch flit with a valid check, from `n` bits back on; a look-alike is
discarded and the search goes on from the next bit (10.13; DEDUCED, log 85). -/
def LaneRx.search (l : LaneRx) (cur : Nat) : Nat → Option (Nat × Nat)
  | 0 => none
  | n + 1 =>
    match readEpoch (({ l with back := n } : LaneRx).flit cur) with
    | .epoch e _ => some (n, e)
    | _ => l.search cur n

/-- A lane in Search or Align takes 288 more bits: eight consecutive epoch flits of one epoch lock it. -/
def LaneRx.train (l : LaneRx) (cur : Nat) : LaneRx :=
  let l0 := { l with prev := cur }
  let again := match ({ l with st := .search } : LaneRx).search cur 288 with
    | some (b, e) => { l0 with st := .align, back := b, run := 1, ep := e, bads := 0 }
    | none => { l0 with st := .search, run := 0, bads := 0 }
  match l.st with
  | .align =>
    match readEpoch (l.flit cur) with
    | .epoch e _ =>
      if e = l.ep then
        (if l.run + 1 < 8 then { l0 with run := l.run + 1 } else { l0 with st := .locked, run := 0, bads := 0, seq := 0, scr := 0 })
      else again
    | _ => again
  | _ => again

/-- A Locked lane after a good flit: the run of bad flits ends; an epoch flit starts its epoch's sequence numbers (R253). -/
def LaneRx.good (l : LaneRx) (x : FlitIn) : LaneRx :=
  match x with
  | .epoch e _ => { l with bads := 0, ep := e, seq := 0, scr := 0 }
  | .data _ scr => { l with bads := 0, seq := (l.seq + 1) % 2 ^ 32, scr := scr }
  | .bad => l

/-- A Locked lane after a bad flit, whose place in the count of flits is taken all the same (DEDUCED, log 85). -/
def LaneRx.missed (l : LaneRx) : LaneRx := { l with bads := l.bads + 1, seq := (l.seq + 1) % 2 ^ 32 }

/-- Every lane of a direction that has lost lock returns to Search (R254). -/
def LockSt.lost (l : LockSt) (lanes : Nat) : LockSt :=
  { l with peer := false,
           rx := (List.range lanes).foldl (fun t i => Tbl.modify (fun _ => LaneRx.init) t i
             (fun x => { x with st := .search, run := 0, bads := 0 })) l.rx }

/-! ### The sender (R253, R254) -/

/-- The sender of a direction sends epoch flits while its own receiver is not Locked or the far end reports that it is not. -/
def State.sendsEpochs (s : State) (p : FlitPath) : Bool := !s.lockedDir (flitReverse p) || !(s.lockOf (flitReverse p)).peer

/-- A HEARTBEAT falls due in this J-cycle's flit (R255): from an engine core, on lane 0, in every 64th J-cycle of its link's epoch. -/
def State.beatDue (s : State) (p : FlitPath) (lane : Nat) : Bool :=
  match p with
  | .fromEng _ => lane = 0 && (s.time.jcycle - (s.lockOf p).began) % 64 = 0
  | _ => false

/-- What a data flit carries of the core's (Table 10-6): FILLER, TYPE and 31 bytes, the 254 bits that the spec leaves to the streams. -/
def flitBody (peer beat : Bool) (core : Nat) : Nat := ofBool peer + 2 * ofBool beat + 4 * core

/-- A sender starts a run of epoch flits and advances its epoch, or ends one (R254). -/
def State.sendMode (s : State) (p : FlitPath) : State :=
  let train := s.sendsEpochs p
  if train = (s.lockOf p).train then s
  else if train then s.setLockOf p (fun l => { l with train := true, epoch := (l.epoch + 1) % 256, tx := [] })
  else s.setLockOf p (fun l => { l with train := false, began := s.time.jcycle })

/-- The flit that a sender sends on a lane in this J-cycle, for what its core hands it, and the sender after it (R253). -/
def State.sendOn (s : State) (p : FlitPath) (lane core : Nat) : State × Nat :=
  let l := s.lockOf p
  let peer := s.lockedDir (flitReverse p)
  if l.train then (s, epochFlit l.epoch peer)
  else
    let x := l.sendLane lane
    let d := scramble 256 (flitBody peer (s.beatDue p lane) core) 0 x.scr
    (s.setLockOf p (fun q => q.setSendLane lane { seq := (x.seq + 1) % 2 ^ 32, scr := d.2 }), flitOf 0x5E2B d.1 x.seq l.epoch)

/-- One flit is sent on a lane of a direction. What the core hands its PHY is free: the spec gives no layout of the streams (log 64). -/
def State.sendFlit (s : State) (p : FlitPath) (lane : Nat) : State :=
  let s0 := s.sendMode p
  let r := s0.sendOn p lane (Config.flitCore s.free).toNat
  (r.1.emit (.crosscut (flitKey p) lane (BitVec.ofNat 288 r.2))).useFree

/-! ### The comparator and the delay line (R233, R234) -/

/-- Both streams reach the comparator: lockstep, one engine Active and one Standby. -/
def State.comparing (s : State) : Bool := !s.pair.warm && s.paired

/-- The engine whose entries leave the line: the active one, and from the J-cycle after its cause the incoming one of a lockstep
hand-over (R234, Table 10-2). -/
def State.lineEng (s : State) : Option Eng :=
  match s.pair.handover with
  | some h => if h.warm then none else if h.x < s.time.jcycle then some (engOther h.out) else some h.out
  | none => s.active

/-- A flit is present for the comparator (R233); in warm mode the line is bypassed, and only the active engine's leaves (R35). -/
def State.present_ (s : State) (e : Eng) (lane raw payload : Nat) : State :=
  if s.pair.warm then (if s.active = some e then s.emit (.line lane (BitVec.ofNat 288 raw)) else s)
  else
    let x : CmpFlit := { raw := raw, clear := bits raw 0 16 + 2 ^ 16 * (payload - 2 * ofBool (bit payload 1)) }
    match e with
    | .a => s.onPair (fun p => { p with slotA := Tbl.insert p.slotA lane x })
    | .b => s.onPair (fun p => { p with slotB := Tbl.insert p.slotB lane x })

/-- The entries of one lane (R233): both engines' flits, or the one that is present for both. -/
def slotLane (a b : Option CmpFlit) : Option (Nat × Nat) :=
  match a, b with
  | some x, some y => some (x.raw, y.raw)
  | some x, none => some (x.raw, x.raw)
  | none, some y => some (y.raw, y.raw)
  | none, none => none

/-- The slot that the flits of a J-cycle fill. -/
def PairSt.slot (p : PairSt) (cycle : Nat) : LineSlot :=
  { cycle := cycle,
    lanes := (List.range 12).filterMap (fun i => (slotLane (Tbl.find p.slotA i) (Tbl.find p.slotB i)).map (fun e => (i, e))) }

/-- The TYPE of the first lane on which two present flits differ (R233). -/
def PairSt.differs (p : PairSt) : Option Nat :=
  (List.range 12).findSome? (fun i =>
    match Tbl.find p.slotA i, Tbl.find p.slotB i with
    | some x, some y => if x.clear = y.clear then none else some (bits x.clear 19 5)
    | _, _ => none)

/-- The end of a J-cycle at the comparator (R233, R234): the flits present fill the slot of the cycle, and a first difference is a
divergence. -/
def State.fillSlot (s : State) : State :=
  if s.pair.slotA = [] ∧ s.pair.slotB = [] then s
  else s.onPair (fun p =>
    { p with slotA := [], slotB := [], line := p.line ++ [p.slot s.time.jcycle],
             diverged := if s.comparing ∧ p.diverged = none then (p.differs).map (fun t => (s.time.jcycle, t, s.time64)) else p.diverged })

/-- A slot may leave the line (R234, R237): it is 16 J-cycles old, and no unexplained divergence stands at or before it. -/
def State.slotLeaves (s : State) (x : LineSlot) : Bool :=
  decide (x.cycle + 16 ≤ s.time.jcycle) && s.pair.diverged.all (fun d => decide (x.cycle < d.1))

/-- The entries of a slot for one engine leave the sled (R234). -/
def State.emitSlot (s : State) (e : Eng) (x : LineSlot) : State :=
  x.lanes.foldl (fun t l => t.emit (.line l.1 (BitVec.ofNat 288 (match e with | .a => l.2.1 | .b => l.2.2)))) s

/-- The delay line in a J-cycle that begins: its due slots leave, but not while the Junction is frozen (R234, R237). -/
def State.lineMoves (s : State) : State :=
  if s.pair.verdict then s
  else
    match s.lineEng with
    | some e => ((s.pair.line.filter s.slotLeaves).foldl (fun t x => t.emitSlot e x) s).onPair
        (fun p => { p with line := p.line.filter (fun x => !s.slotLeaves x) })
    | none => s

/-- After a Verdict the line goes on from the slot it was frozen at (R238). -/
def State.thawLine (s : State) : State :=
  s.onPair (fun p => { p with diverged := none,
                              line := p.line.map (fun x => { x with cycle := x.cycle + (s.time.jcycle - p.frozenAt) }) })

/-! ### Received flits (R254) -/

/-- The consequence of a lost flit by its link and direction (10.10, R240): the lock of the mirror link is lost with either direction. -/
def State.flitLost (s : State) (p : FlitPath) (lock : Bool) : State :=
  match p with
  | .toEng e => s.engineFault e (if lock then 4 else 1)
  | .fromEng e => if lock then s.engineFault e 4 else s
  | .mirrorTo e =>
    let hit := fun (g : Eng) => match (s.eng g).state with
      | .standby => s.pair.warm
      | .resyncing => true
      | _ => false
    if hit e then s.engineFault e 9 else if lock && hit (engOther e) then s.engineFault (engOther e) 9 else s

/-- A bad flit on a Locked lane (Table 10-7): counted; the fourth in a row loses the direction's lock. A flit is lost where its direction was
Locked. -/
def State.badFlit (s : State) (p : FlitPath) (lane : Nat) (x : LaneRx) : State :=
  let was := s.lockedDir p
  let s1 := (s.count (flitBad p) 0).setLockOf p (fun l => l.setLane lane x.missed)
  if x.bads + 1 < 4 then (if was then s1.flitLost p false else s1)
  else
    let s2 := ((s1.setLockOf p (fun l => l.lost (flitLanes p))).count (flitLoss p) 0).raise
      .linkLockLost (le 1 (flitLink p) ++ le 1 (flitDir p))
    if was then s2.flitLost p true else s2

/-- A good flit on a Locked lane: PEER_LOCKED is taken, and a flit of an engine's link reaches the comparator (R233). -/
def State.goodFlit (s : State) (p : FlitPath) (lane raw : Nat) (x : LaneRx) (d : FlitIn) : State :=
  let peer := match d with | .epoch _ q => q | .data w _ => bit w 0 | .bad => false
  let s1 := s.setLockOf p (fun l => { (l.setLane lane (x.good d)) with peer := peer })
  match p, d with
  | .fromEng e, .data w _ => if s1.lockedDir p then s1.present_ e lane raw w else s1
  | _, _ => s1

/-- A flit on a Locked lane. -/
def State.flitLocked (s : State) (p : FlitPath) (lane raw : Nat) (x : LaneRx) : State :=
  match x.read raw with
  | .bad => s.badFlit p lane x
  | d => s.goodFlit p lane raw x d

/-- 288 bits arrive on a lane (FLIT_RECEIVED). -/
def State.flitOn (s : State) (p : FlitPath) (lane cur : Nat) (x : LaneRx) : State :=
  match x.st with
  | .locked => s.flitLocked p lane (x.flit cur) { x with prev := cur }
  | _ => s.setLockOf p (fun l => l.setLane lane (x.train cur))

def State.flitIn (s : State) (p : FlitPath) (lane cur : Nat) : State := s.flitOn p lane cur ((s.lockOf p).lane lane)

end Sys2Proof.Machine
end

