-- ==== Sys2Proof/Machine/Gates.lean ====
section
/-! DEFINITION. Wire time (R57, 02_time_and_windows) and the time gates (6.4). -/
namespace Sys2Proof.Machine

/-- The time of a number of bits at a rate in Mb/s, in u, truncated. -/
def bitsU (n rate : Nat) : Nat := n * (1000 * 2 ^ 32) / rate

/-- The wire time of a frame of length L: (8 + L) x 8 bit times (R57). -/
def wireU (len rate : Nat) : Nat := bitsU ((8 + len) * 8) rate

/-- A frame that starts at t ends by `close` (R10, 00_scope), compared exactly. -/
def fits (t len rate close : Nat) : Bool := decide (t ≤ close) && decide ((8 + len) * 8 * (1000 * 2 ^ 32) ≤ (close - t) * rate)

/-! ### Gate control lists (R139 to R141) -/

/-- The entries of a list as (gates, length in ns) that fill its cycle exactly: cut at the cycle's end, the last entry
staying in force until it (R139). -/
def gclFill : List (Nat × Nat) → Nat → List (Nat × Nat)
  | [], _ => []
  | [e], left => [(e.1, left)]
  | e :: r, left => if left ≤ e.2 then [(e.1, left)] else e :: gclFill r (left - e.2)

/-- The entry of a filled list that covers an offset in ns x 2^32 into the cycle: its index, its gates, and the offset at
which it ends. -/
def gclWalk : List (Nat × Nat) → Nat → Nat → Nat → Nat × Nat × Nat
  | [], i, at_, _ => (i, 0xFF, at_)
  | e :: r, i, at_, x => if r = [] ∨ x < at_ + e.2 * uNs then (i, e.1, at_ + e.2 * uNs) else gclWalk r (i + 1) (at_ + e.2 * uNs) x

/-- The entry in force at an instant at or after the list's base: its index, its gates and the instant at which it ends. -/
def GateList.entryAt (g : GateList) (t : Nat) : Nat × Nat × Nat :=
  let c := g.cycle * uNs
  let x := (t - g.base) % c
  let w := gclWalk (gclFill g.entries g.cycle) 0 0 x
  (w.1, w.2.1, t - x + w.2.2)

/-- The first instant after t and before `limit` at which the gate of a class closes under one list; none within a whole
cycle. -/
def GateList.closeFrom (g : GateList) (c : Nat) : Nat → Nat → Option Nat
  | 0, _ => none
  | n + 1, t =>
    let e := g.entryAt t
    if bit e.2.1 c then GateList.closeFrom g c n e.2.2 else some t

/-- The list that governs an instant: the pending list from its start on, otherwise the operating list (R140). -/
def SchInst.listAt (x : SchInst) (t : Nat) : Option GateList :=
  match x.pend with
  | some p => if p.start ≤ t then some p else x.oper
  | none => x.oper

/-- The gate bits in force at an instant: all open without a list, and before a list's base (R139). -/
def SchInst.gatesAt (x : SchInst) (t : Nat) : Nat :=
  match x.listAt t with
  | some g => if t < g.base then 0xFF else (g.entryAt t).2.1
  | none => 0xFF

/-- The close of the window of a class that is open at t, under the operating and the pending list (R141). -/
def SchInst.closeOf (x : SchInst) (c t : Nat) : Option Nat :=
  let under := fun (g : GateList) (t : Nat) => GateList.closeFrom g c (2 * g.entries.length + 2) (max t g.base)
  match x.listAt t with
  | none => x.pend.bind (fun p => under p p.start)
  | some g =>
    match x.pend with
    | some p =>
      if p.start ≤ t then under g t
      else match under g t with
        | some k => if k < p.start then some k else under p p.start
        | none => under p p.start
    | none => under g t

/-- The first instant at or after t at which the gate of a class is open; none where it stays closed for two cycles. -/
def GateList.openFrom (g : GateList) (c : Nat) : Nat → Nat → Option Nat
  | 0, _ => none
  | n + 1, t =>
    let e := g.entryAt t
    if bit e.2.1 c then some t else GateList.openFrom g c n e.2.2

/-- The longest run of open entries of a class in ns, over a list written twice so that runs wrap; the whole cycle means the
gate never closes (R155). -/
def longestRun (c : Nat) : List (Nat × Nat) → Nat → Nat → Nat
  | [], run, best => max run best
  | e :: r, run, best => if bit e.1 c then longestRun c r (run + e.2) best else longestRun c r 0 (max run best)

/-- A frame of length L fits some window of its class in the operating list (R155, Table 6-4 row 4). -/
def SchInst.fitsSome (x : SchInst) (c len rate : Nat) : Bool :=
  match x.oper with
  | none => true
  | some g =>
    let l := gclFill g.entries g.cycle
    l.all (fun e => bit e.1 c) || decide ((8 + len) * 8 * 1000 ≤ longestRun c (l ++ l) 0 0 * rate)

/-- The lists that gate an instance: none while GATE_EN is 0, when every gate is open (R139). -/
def State.gated (s : State) (m : Nat) : SchInst := if s.schCtrlGateEn m = 1 then s.sch m else { s.sch m with oper := none, pend := none }

/-- The first instant at or after t at which the gate of a class is open, under the operating and the pending list (R140, R143). -/
def SchInst.nextOpen (x : SchInst) (c t : Nat) : Option Nat :=
  let under := fun (g : GateList) (t : Nat) => g.openFrom c (2 * g.entries.length + 2) t
  match x.pend, x.oper with
  | some p, _ =>
    if p.start ≤ t then under p t
    else
      let o := match x.oper with
        | some g => if t < g.base then some t else under g t
        | none => some t
      match o with
      | some k => if k < p.start then some k else under p p.start
      | none => under p p.start
  | none, some g => if t < g.base then some t else under g t
  | none, none => some t

/-- The gate state of an instance at the present instant (R9, R139). -/
def State.gateRefresh (s : State) (m : Nat) : State :=
  s.setSch m (fun x =>
    { x with gates := (s.gated m).gatesAt s.time.now,
             entry := match x.listAt s.time.now with
               | some g => if s.time.now < g.base then 0 else (g.entryAt s.time.now).1
               | none => 0 })

/-- The gate list that the active set-up of an instance describes, with the instant it starts at (R140). -/
def State.gateListOf (s : State) (m : Nat) : GateList :=
  let cycle := s.gclCycleNs m
  let base := (s.gclBaseSLoS m + s.gclBaseSHiS m * 2 ^ 32) * uSec + s.gclBaseNsNs m * uNs
  let c := cycle * uNs
  let start := if s.time.now ≤ base then base else base + (s.time.now - base + c - 1) / c * c
  { entries := (List.range (s.gclLenLen m)).map (fun e => (s.gclGatesGates m e, s.gclIntervalNs m e)), cycle := cycle,
    base := base, start := start }

end Sys2Proof.Machine
end

