-- ==== Sys2Proof/Machine/TimeOps.lean ====
section
/-! DEFINITION. Device time and the RTC (02_time_and_windows): the J-cycle, adjustments under the source precedence, and
the commands of the TIME block. The RTC alarm, a wake source, stands in Machine/Power.lean. -/
namespace Sys2Proof.Machine

/-- TIME_STATUS.SOURCE (Table 2-4). -/
def TimeSource.code : TimeSource → Nat
  | .freeRun => 0
  | .ptp => 1
  | .ptm => 2
  | .tether => 3
  | .holdover => 4
  | .restored => 5

/-- The source of an adjustment by its code in the record of R60. -/
def sourceOf (code : Nat) : TimeSource := if code = 1 then .ptp else if code = 2 then .ptm else .tether

/-- The source code of TIME_CTRL.SOURCE in the record of R60: 0b00 is 0, 0b01 PTP, 0b10 PTM, 0b11 Manual. -/
def ctrlSource (src : BitVec 2) : Nat := if src = 3 then 4 else src.toNat

/-- A change of TIME_STATUS.SOURCE raises TIME_SOURCE_CHANGED with the old and the new source (R60, Table 2-7). -/
def State.setSource (s : State) (n : TimeSource) : State :=
  if s.time.source = n then s
  else (s.onTime (fun t => { t with source := n })).raise .timeSourceChanged (le 1 s.time.source.code ++ le 1 n.code)

/-- The current source's TIME_HOLD window closes (R46): the rate stays and SOURCE becomes Holdover. -/
def State.holdExpire (s : State) : State :=
  if s.time.current.isSome then (s.onTime (fun t => { t with current := none })).setSource .holdover else s

/-- The source of an adjustment is enabled in TIME_SRC_EN (R44); Manual always is (Table 2-1). -/
def State.srcEnabled (s : State) (code : Nat) : Bool :=
  if code = 1 then s.timeSrcEnPtp = 1 else if code = 2 then s.timeSrcEnPtm = 1 else if code = 3 then s.timeSrcEnTether = 1
  else true

/-- A source of higher precedence is current (R44, Table 2-1). -/
def State.outranked (s : State) (code : Nat) : Bool := s.time.current.isSome && decide (code < 4) && decide (s.time.curSrc < code)

/-- The increment of this J-cycle (R41). -/
def State.increment (s : State) : Nat := (uJ + s.time.rate).toNat

/-- The device time that an action leaves, in u, from a time on: Step adds its operand in 1/65,536 ns, Set loads its 96-bit operand
(Table 2-5). -/
def adjustedFrom (now action : Nat) (x : Int) : Int :=
  if action = 2 then now + x * 2 ^ 16 else if action = 3 then ofTime96 x.toNat else now

/-- The device time that an action registered now leaves in the J-cycle that follows (R47). -/
def State.adjusted (s : State) (action : Nat) (x : Int) : Int := adjustedFrom (s.time.now + s.increment) action x

/-- The first row of Table 2-8 that applies to an adjustment, or 0 (R44, R47, R60). -/
def State.adjustReason (s : State) (code action : Nat) (x : Int) : Nat :=
  if code = 0 then 1
  else if s.srcEnabled code = false then 2
  else if s.outranked code then 3
  else if action = 1 ∧ (x < -2684354 ∨ 2684354 < x) then 4
  else if action = 3 ∧ 999999999 < bits x.toNat 16 32 then 5
  else if s.adjusted action x < 0 then 6
  else 0

/-- What an accepted adjustment does to the sources (R44 to R46): a source other than Manual becomes current for the
TIME_HOLD in force. -/
def State.adoptSource (s : State) (code : Nat) : State :=
  if code = 4 then
    match s.time.source with
    | .freeRun | .restored => s.setSource .holdover
    | _ => s
  else
    (s.onTime (fun t => { t with current := some (t.elapsed + s.timeHoldMs * uMs), curSrc := code })).setSource (sourceOf code)

/-- Every gate takes the state of the list entry that covers the present instant (R59). -/
def State.gatesRefresh (s : State) : State := (List.range 16).foldl State.gateRefresh s

/-- A granted frame that has not started departs at the new device time of its instant (2.3). -/
def CurFrame.shift (elapsed : Nat) (d : Int) (f : CurFrame) : CurFrame :=
  if f.start ≤ elapsed then f else { f with at_ := (f.at_ + d).toNat }

/-- A jump of device time by a Step or a Set (R48, R59): TIME_STEP_COUNT and TIME_STEPPED with the signed step in 1/65,536 ns. The record holds
64 bits of it: a greater difference is taken modulo 2^64 (DESIGN CHOICE, log 73). -/
def State.jump (s : State) (dest : Nat) : State :=
  let d : Int := ((dest / 2 ^ 16 : Nat) : Int) - ((s.time.now / 2 ^ 16 : Nat) : Int)
  ((((s.onTime (fun t => { t with now := dest, steps := satAdd 32 t.steps 1 })).onSched (fun t =>
    t.map (fun e => (e.1, { e.2 with cur := e.2.cur.map (CurFrame.shift s.time.elapsed ((dest : Int) - s.time.now)) })))).raise .timeStepped
    (le 8 (unsigned 64 d)))).gatesRefresh

/-- An accepted action takes effect (R47): the rate, or a jump. -/
def State.takeEffect (s : State) (a : Nat × Int) : State :=
  if a.1 = 1 then s.onTime (fun t => { t with rate := a.2 }) else s.jump (adjustedFrom s.time.now a.1 a.2).toNat

/-- The actions accepted in the J-cycle before take effect, in their order (R47). -/
def State.takeDue (s : State) : State := s.time.due.foldl State.takeEffect (s.onTime (fun t => { t with due := [] }))

/-- An adjustment (R44 to R47, R60): `code` is 1 PTP, 2 PTM, 3 Tether, 4 Manual, 0 none; `action` is that of Table 2-5. An
expired TIME_HOLD window is closed first (section 2.8). An accepted action takes effect in the next J-cycle; VALID becomes 1 at the first
accepted Set or Step (R54). -/
def State.adjust (s : State) (code action : Nat) (x : Int) : State :=
  let s0 := match s.time.current with
    | some c => if c ≤ s.time.elapsed then s.holdExpire else s
    | none => s
  let why := s0.adjustReason code action x
  if why ≠ 0 then
    (s0.onTime (fun t => { t with ignored := satAdd 32 t.ignored 1 })).raiseOnce .timeAdjIgnored 0
      (le 1 code ++ le 1 why ++ le 1 action)
  else
    (s0.onTime (fun t => { t with due := t.due ++ [(action, x)], accepted := true, valid := t.valid || decide (action ≠ 1) })).adoptSource code

/-- Time moves on by one J-cycle (R40, R41): device time by 1.25 ns plus the rate in force, then the adjustments registered in the cycle that
closes take effect (R47), and the RTC moves on by 16/390,625 of a tick (section 2.4); the RTC stands in Off (R54). The delay line moves on by
one slot (R34, 01_the_sled; R234, 10_engine_pair). -/
def State.advanceTime (s : State) : State :=
  let inc := s.increment
  let s1 := if s.coreRuns then
      ((s.fillSlot.onTime (fun t => { t with now := t.now + inc, elapsed := t.elapsed + inc, jcycle := t.jcycle + 1 })).takeDue).lineMoves
    else s
  if s.power.mode = .off then s1
  else s1.onRtc (fun r =>
    if r.phase + 16 < 390625 then { r with phase := r.phase + 16 }
    else { r with phase := r.phase + 16 - 390625, count := (r.count + 1) % 2 ^ 48 })

/-- TIME_CTRL as written (Table 2-4). -/
def State.ctrlWritten (s : State) (action : Nat) (src : BitVec 2) : State :=
  s.onTime (fun t => { t with ctrlAct := action, ctrlSrc := src.toNat })

/-- The operand of each action (Table 2-4). -/
def State.rateOperand (s : State) : Int := s.time.rateOp.toInt
def State.stepOperand (s : State) : Int := signed 64 (wget s.time.stepOp 0 + wget s.time.stepOp 1 * 2 ^ 32)
def State.setOperand (s : State) : Nat :=
  wget s.time.setOp 0 + wget s.time.setOp 1 * 2 ^ 32 + wget s.time.setOp 2 * 2 ^ 64

/-- TIME_NOW_READ (R43): the 96 bits are latched for the reading OF and bits [31:0] returned. -/
def State.timeNowRead (s : State) (of : Nat) : State :=
  let v := time96 s.time.now
  (s.setOf of (fun o => { o with timeLatch := v })).emit (.read of (BitVec.ofNat 32 v))

def execTimeNowRead (of : Fin 4) (s : State) : Host.Outcome State Fault Refusal := 
  .next (if s.noPartner then s else (s.partnerWake (64 + of)).timeNowRead of)

/-- TIME_CTRL_RATE (R44, R47). -/
def execTimeCtrlRate (src : BitVec 2) (s : State) : Host.Outcome State Fault Refusal :=
  .next (if s.noPartner then s else ((s.partnerWake 64).ctrlWritten 1 src).adjust (ctrlSource src) 1 s.rateOperand)

/-- TIME_CTRL_STEP (R44, R47, R59). -/
def execTimeCtrlStep (src : BitVec 2) (s : State) : Host.Outcome State Fault Refusal :=
  .next (if s.noPartner then s else ((s.partnerWake 64).ctrlWritten 2 src).adjust (ctrlSource src) 2 s.stepOperand)

/-- TIME_CTRL_SET (R44, R47, R59). -/
def execTimeCtrlSet (src : BitVec 2) (s : State) : Host.Outcome State Fault Refusal :=
  .next (if s.noPartner then s else ((s.partnerWake 64).ctrlWritten 3 src).adjust (ctrlSource src) 3 s.setOperand)

/-- TIME_HOLD_EXPIRY (R46). -/
def execTimeHoldExpiry (s : State) : Host.Outcome State Fault Refusal := .next s.holdExpire

/-- RTC_ALARM_WRITE (R52, R11): both halves are armed; an alarm at or below RTC_COUNT sets PAST. In Off the RTC does not run (R54), and no
register is reached. -/
def execRtcAlarmWrite (hi : BitVec 16) (s : State) : Host.Outcome State Fault Refusal :=
  .next (if s.noPartner then s else (s.partnerWake 64).onRtc (fun r =>
    let a := hi.toNat * 2 ^ 32 + r.alarmLo.toNat
    { r with alarm := a, armed := true, past := r.past || decide (a ≤ r.count) }))

/-- RTC_COUNT_WRITE (R62, R54): the write of the HI register loads both halves and sets VALID. The part of a tick gone by goes on (DESIGN
CHOICE, log 71). -/
def execRtcCountWrite (hi : BitVec 16) (s : State) : Host.Outcome State Fault Refusal :=
  .next (if s.noPartner then s
    else (s.partnerWake 64).onRtc (fun r => { r with count := hi.toNat * 2 ^ 32 + r.loadLo.toNat, valid := true }))

/-- RTC_COUNT_READ (R62): a read of RTC_COUNT_LO latches 48 bits and returns bits [31:0]. The latch is one for the sled (DESIGN CHOICE, log 72). -/
def execRtcCountRead (s : State) : Host.Outcome State Fault Refusal :=
  .next (if s.noPartner then s
    else ((s.partnerWake 64).onRtc (fun r => { r with latchHi := r.count / 2 ^ 32 })).emit (.rtcRead (BitVec.ofNat 32 s.rtc.count)))

end Sys2Proof.Machine
end

