-- ==== Sys2Proof/Machine/Rings.lean ====
section
/-! DEFINITION. Completions, interrupt moderation and ring maintenance (5.4 to 5.6, 05_rings_and_doorbells), as the operations
that the commands share. -/
namespace Sys2Proof.Machine

/-! ### Completions -/

/-- Bytes 0 to 29 of a completion (Table 5-9). -/
def Cpl.body (c : Cpl) (phase : Nat) : Bytes :=
  le 8 c.time64 ++ le 4 c.aux ++ le 2 c.src ++ le 2 c.slot ++ le 1 c.status ++ le 1 c.nbuf ++ le 2 (c.flags + phase)
    ++ le 4 c.len ++ le 2 c.tci ++ le 2 c.cookie ++ le 1 c.port ++ [0]

/-- The moderation in force: the Foreman's knob 17 acts within MOD_COUNT and MOD_TIME, in sixteenths (R114; Table 14-1). -/
def State.moderation (s : State) : Nat := (s.knob 17).applied.toNat
def State.modCount (s : State) (q : CqRing) : Nat := max 1 ((q.modCount * s.moderation + 15) / 16)
def State.modTime (s : State) (q : CqRing) : Nat := q.modTime * s.moderation / 16 * uUs

/-- An armed queue that holds unsignalled completions meets a condition of R114. -/
def State.signalDue (s : State) (q : CqRing) : Bool :=
  q.armed && decide (0 < q.unsig) &&
    (decide (s.modCount q ≤ q.unsig) || decide (q.t1 + q.t1Len ≤ s.time.elapsed))

/-- Signalling a queue: it disarms, every written completion is signalled, and its vector leaves (R114). The signal and how long each completion
has waited are what the Foreman measures for knob 17 (Table 14-1). -/
def State.cqSignal (s : State) (n : Nat) : State :=
  let q := s.cqr n
  ((s.setCqr n (fun q => { q with armed := false, unsig := 0, tSum := 0 })).onEvents (fun v =>
    { v with sigN := v.sigN + 1, sigCpl := v.sigCpl + q.unsig, sigU := v.sigU + (q.unsig * s.time.elapsed - q.tSum) })).msix q.fn q.vector

/-- Signalling where a condition of R114 is met. -/
def State.cqMaybe (s : State) (n : Nat) : State := if s.signalDue (s.cqr n) then s.cqSignal n else s

/-- Writing a completion into the next slot of a queue (R113, R67); `held` when its entry was reserved. -/
def State.cqWrite (s : State) (n : Nat) (c : Cpl) (held : Bool) : State :=
  let q := s.cqr n
  let size := ringN q.size
  let i := posIndex size q.w
  let lap := posLap size q.w
  (((s.emit (.memWrite q.fn (q.base + 32 * i) (withCheck16 (c.body (lap % 2)) (ringWord 2 n i) lap) false)).recordUse q.fn 32).setCqr n
    (fun q => { q with w := advance size q.w 1, unsig := q.unsig + 1,
                       t1 := if q.unsig = 0 then s.time.elapsed else q.t1, tSum := q.tSum + s.time.elapsed,
                       t1Len := if q.unsig = 0 then s.modTime q else q.t1Len,
                       reserved := if held then q.reserved - 1 else q.reserved })).cqMaybe n

/-- Reserving an entry of a queue (R111, R115, R116), and giving a reservation back. -/
def State.cqReserve (s : State) (n : Nat) : State := s.setCqr n (fun q => { q with reserved := q.reserved + 1 })
def State.cqRelease (s : State) (n : Nat) : State := s.setCqr n (fun q => { q with reserved := q.reserved - 1 })

/-! ### Transmit completions -/

/-- What the first descriptor of a send asks for (Table 5-7). -/
def Send.flags (x : Send) : Nat := match x.descs with | d :: _ => d.flags | [] => 0
def Send.cookie (x : Send) : Nat := match x.descs with | d :: _ => d.cookie | [] => 0

/-- The send was put on the wire: OK or SENT_RECALL_LATE (Table 5-10). -/
def Send.wasSent (x : Send) : Bool := x.status = 0 || x.status = 5

/-- The completion of a send (Table 5-9, Table 5-11; R61). -/
def Send.cpl (x : Send) (ring : Nat) (r : TxRing) : Cpl :=
  let ts := x.wasSent && (bit x.flags 1 || bit x.flags 2)
  { time64 := if ts then x.time64 else 0, aux := x.cookie, src := ring, slot := posIndex (ringN r.size) x.last,
    status := x.status, nbuf := x.descs.length,
    flags := 2 * ofBool ts + 4 * ofBool (x.skip && x.wasSent) + 8 * ofBool x.reissue,
    len := if x.wasSent then x.len else 0, tci := 0, cookie := 0, port := r.inst + 16 * r.cls }

/-- The completion at the head of a transmit ring, written where it is done and its queue has an entry (R111, R113);
TX_RECALLED and TX_RECALL_LATE count at the completion (Table 5-16). -/
def State.txCompleteOne (s : State) (n : Nat) : State × Bool :=
  let r := s.txr n
  match r.sends with
  | x :: rest =>
    if x.st = .done ∧ (x.rsvCq = true ∨ 0 < (s.cqr r.cq).freeSlots) then
      let s1 := (s.cqWrite r.cq (x.cpl n r) x.rsvCq).setTxr n
        (fun r => { r with sends := rest, c := advance (ringN r.size) x.last 1,
                           recalls := r.recalls.filter (fun i => i.2 ≠ advance (ringN r.size) x.last 1) })
      ((if x.status = 4 then s1.count .txRecalled n else if x.status = 5 then s1.count .txRecallLate n else s1), true)
    else (s, false)
  | [] => (s, false)

/-- Writing the completions of a transmit ring in slot order as far as they are ready. -/
def State.txCompleteN (n : Nat) : Nat → State → State
  | 0, s => s
  | k + 1, s =>
    let t := s.txCompleteOne n
    if t.2 then State.txCompleteN n k t.1 else t.1

def State.txComplete (s : State) (n : Nat) : State := State.txCompleteN n (s.txr n).sends.length s

/-- Every transmit ring bound to a queue is tried again, because entries have been freed (R128). -/
def State.txCompleteAll (s : State) (q : Nat) : State :=
  ((s.tx.filter (fun e => e.2.cq = q)).map (fun e => e.1)).foldl State.txComplete s

/-! ### Sends (R110, R118, R119) -/

/-- A send that a completion status ends: it is done, with nothing sent. -/
def Send.fail (x : Send) (status : Nat) : Send := { x with st := .done, status := status }

/-- A new send from its descriptors in ring order. -/
def Send.of (ds : List TxDesc) (st : SendSt) (status : Nat) : Send :=
  { first := match ds with | d :: _ => d.pos | [] => 0, last := match ds.getLast? with | some d => d.pos | none => 0,
    descs := ds, data := [], st := st, sent := 0, status := status, len := 0, time64 := 0, late := false, skip := false,
    reissue := false, rsvCq := false }

/-- A descriptor's own format tests: reserved bits and the ranges of BUF_LEN, and of SEND_LEN on a first descriptor;
first-descriptor fields are 0 on a later one (Table 5-6, R110, R119). -/
def TxDesc.formOk (d : TxDesc) (first : Bool) : Bool :=
  !d.rsv && decide (0 < d.len) &&
    if first then decide (d.flags < 128) && decide (0 < d.sendLen) && decide (d.sendLen ≤ 262144)
    else decide (d.flags ≤ 1) && d.tci = 0 && d.mss = 0 && d.l3 = 0 && d.l4 = 0 && d.hdr = 0 && d.sendLen = 0 && d.cookie = 0

/-- The format tests of each descriptor of a send. -/
def descsOk : List TxDesc → Bool → Bool
  | [], _ => true
  | d :: r, first => d.formOk first && descsOk r false

/-- The format tests that concern the whole send (R110). -/
def sendOk (ds : List TxDesc) : Bool :=
  match ds with
  | d :: _ => d.sendLen = (ds.map (fun d => d.len)).sum && (ds.getLast?.map (fun d => bit d.flags 0)).getD false
  | [] => false

/-- The descriptors of a send whose buffer fails the fence check (R95, R96). -/
def State.fenceFails (s : State) (fn : Nat) (ds : List TxDesc) : Nat :=
  (ds.filter (fun d => s.fenceOk fn d.addr d.len = false)).length

/-- A send with a bad format: DESC_BAD_FORMAT of the ring, and the event once a second (R110, Table 5-16). -/
def State.badFormat (s : State) (n : Nat) (rx : Bool) : State :=
  let obj := n + 1024 * ofBool rx
  ((if rx then s.count .rxDescBadFormat n else s.count .txDescBadFormat n)).raiseOnce .descBadFormat obj (le 2 obj)

/-- A position lies in one of the recalled intervals of a ring. -/
def TxRing.recalled (r : TxRing) (pos : Nat) : Bool :=
  let n := ringN r.size
  r.recalls.any (fun i => decide (dist n i.1 pos < dist n i.1 i.2))

/-- The status that the tests of R110 (whole send) or R119 (part of one) give a run of checked descriptors, with the
counting of R96 and Table 5-16: 0 where they pass. -/
def State.testSend (s : State) (n : Nat) (ds : List TxDesc) (whole : Bool) : State × Nat :=
  let r := s.txr n
  if (ds.all (fun d => d.ok)) = false then (s, 1)
  else if descsOk ds true = false ∨ (whole && !sendOk ds) then (s.badFormat n false, 3)
  else
    let k := s.fenceFails r.fn ds
    if 0 < k then (s.violations r.fn k, 2) else (s, 0)

/-- A position lies before another, within one lap of it. -/
def behind (n p e : Nat) : Bool := decide (0 < dist n p e) && decide (dist n p e ≤ n)

/-- A send is re-issued (R245, 10_engine_pair): the outgoing engine had fetched it. -/
def TxRing.reissued (r : TxRing) (pos : Nat) : Bool := r.reTo.any (fun e => behind (ringN r.size) pos e)

/-- A complete run of descriptors becomes a send (R110): with its status where a test fails; RECALLED where a recall covers
it; otherwise its buffer reads are due. After a warm hand-over a re-issued send is marked, and one at or behind the mirrored
commit position counts as committed (R245, 10_engine_pair). -/
def State.closeSend (s : State) (n : Nat) (ds : List TxDesc) (whole : Bool) : State :=
  let r := s.txr n
  let t := s.testSend n ds whole
  let first := (ds.head?.map (fun d => d.pos)).getD r.c
  let re := r.reissued first
  let kept := re && behind (ringN r.size) first r.commit
  let cov := ds.any (fun d => r.recalled d.pos)
  let x := if t.2 ≠ 0 then Send.of ds .done t.2
    else if (cov ∧ kept = false) ∨ whole = false then Send.of ds .done 4
    else { Send.of ds .reads 0 with late := cov }
  let s1 := t.1.setTxr n (fun r => { r with sends := r.sends ++ [{ x with reissue := re }], reTo := if re then r.reTo else none })
  (if re then s1.count .reissuedSends 0 else s1).txComplete n

/-- The first position of the run being assembled: the slot after the last send, or C. -/
def TxRing.runStart (r : TxRing) : Nat :=
  match r.sends.getLast? with
  | some x => advance (ringN r.size) x.last 1
  | none => r.c

/-- The consecutive checked descriptors from a position on. -/
def runFrom (n : Nat) (ds : List TxDesc) : Nat → Nat → List TxDesc
  | 0, _ => []
  | k + 1, p =>
    match ds.find? (fun d => d.pos = p) with
    | some d => d :: runFrom n ds k (advance n p 1)
    | none => []

/-- The first send that a run of descriptors completes: up to a failed check, an EOP, or the 64th descriptor (R110), or up to
the end of the slots that a recall of a partly handed send covers (R119). Answers the descriptors and whether all of the
send was handed. -/
def TxRing.cutRun (r : TxRing) : List TxDesc → List TxDesc → Option (List TxDesc × Bool)
  | [], _ => none
  | d :: rest, acc =>
    let run := acc ++ [d]
    let next := advance (ringN r.size) d.pos 1
    if d.ok = false ∨ bit d.flags 0 ∨ run.length = 64 then some (run, true)
    else if r.recalls.any (fun i => i.2 = next ∧ run.any (fun e => decide (dist (ringN r.size) i.1 e.pos < dist (ringN r.size) i.1 i.2)))
    then some (run, false)
    else TxRing.cutRun r rest run

/-- Assembling sends from the checked descriptors of a ring, as far as they reach. -/
def State.assembleN (n : Nat) : Nat → State → State
  | 0, s => s
  | k + 1, s =>
    let r := s.txr n
    match r.cutRun (runFrom (ringN r.size) r.cur 64 r.runStart) [] with
    | some (ds, whole) =>
      State.assembleN n k ((s.setTxr n (fun r =>
        { r with cur := r.cur.filter (fun d => ds.all (fun e => e.pos ≠ d.pos)) })).closeSend n ds whole)
    | none => s

def State.assemble (s : State) (n : Nat) : State := State.assembleN n (s.txr n).cur.length s

/-- An accepted recall (R118, R119): the sends with a descriptor in [R, H) that are not granted are withdrawn; a granted one
completes SENT_RECALL_LATE. -/
def State.recall (s : State) (n pos : Nat) : State :=
  let hit := fun (x : Send) => x.descs.any (fun d => decide (dist (ringN (s.txr n).size) pos d.pos < dist (ringN (s.txr n).size) pos (s.txr n).h))
  let s1 := s.setTxr n (fun r =>
    { r with recalls := r.recalls ++ [(pos, r.h)],
             sends := r.sends.map (fun x =>
               if hit x then
                 match x.st with
                 | .reads | .filling | .ready =>
                   if x.reissue && behind (ringN r.size) x.first r.commit then { x with late := true } else x.fail 4
                 | .granted _ => { x with late := true }
                 | .done =>
                   if x.status = 0 then { x with status := 5, late := true }
                   else if 6 ≤ x.status ∧ x.status ≤ 8 ∧ (x.reissue && behind (ringN r.size) x.first r.commit) = false then x.fail 4 else x
               else x) })
  (s1.assemble n).txComplete n

/-! ### The head of a receive ring (R112, R113; R243 of 10_engine_pair) -/

/-- The completion of a hole (5.4.1). -/
def holeCpl (ring : Nat) (r : RxRing) (x : RxSlot) : Cpl :=
  { time64 := 0, aux := 0, src := ring + 1024, slot := posIndex (ringN r.size) x.pos, status := x.hole, nbuf := 0,
    flags := 0, len := 0, tci := 0, cookie := x.cookie, port := 0 }

/-- The completion of a guard slot that the outgoing engine did not use: a buffer returned unused (R243, 10_engine_pair). -/
def returnCpl (ring : Nat) (r : RxRing) (x : RxSlot) : Cpl :=
  { time64 := 0, aux := 0, src := ring + 1024, slot := posIndex (ringN r.size) x.pos, status := 0, nbuf := 1,
    flags := 8, len := 0, tci := 0, cookie := x.cookie, port := 0 }

/-- C passes over the slot at the head of a ring. -/
def State.rxPass (s : State) (n : Nat) (rest : List RxSlot) : State :=
  s.setRxr n (fun r =>
    let c := advance (ringN r.size) r.c 1
    { r with slots := rest, c := c, ret := if r.ret = some c then none else r.ret })

/-- The first k slots that wait with the incoming engine's completions are completed. -/
def doneSlots : List RxSlot → Nat → List RxSlot
  | [], _ => []
  | l, 0 => l
  | x :: r, k + 1 => if x.hole = 253 then { x with hole := 255 } :: doneSlots r k else x :: doneSlots r (k + 1)

/-- A slot below the guard slot up to which buffers are returned. -/
def RxRing.returns (r : RxRing) (x : RxSlot) : Bool :=
  r.ret.any (fun g => decide (dist (ringN r.size) r.c x.pos < dist (ringN r.size) r.c g))

/-- C passes over completed slots of an Active ring; holes, returned buffers and waiting completions among them complete as entries of the
queue allow (R112, R113; R243, 10_engine_pair). -/
def State.rxAdvanceN (n : Nat) : Nat → State → State
  | 0, s => s
  | k + 1, s =>
    let r := s.rxr n
    match r.slots with
    | x :: rest =>
      if x.pos ≠ r.c then s
      else if x.hole = 255 then State.rxAdvanceN n k (s.rxPass n rest)
      else if x.hole = 253 then
        match r.inc with
        | e :: more =>
          State.rxAdvanceN n k ((s.cqWrite r.cq e.1 true).setRxr n (fun r => { r with inc := more, slots := doneSlots r.slots e.2 }))
        | [] => s
      else if x.hole = 254 ∨ (s.cqr r.cq).freeSlots = 0 then s
      else if x.hole ≠ 0 then
        (if r.state = .active then State.rxAdvanceN n k ((s.cqWrite r.cq (holeCpl n r x) false).rxPass n rest) else s)
      else if r.returns x then
        State.rxAdvanceN n k (((s.cqWrite r.cq (returnCpl n r x) false).rxPass n rest).count .guardReturned 0)
      else s
    | [] => s

def State.rxAdvance (s : State) (n : Nat) : State := State.rxAdvanceN n (2 * (s.rxr n).slots.length + (s.rxr n).inc.length) s

/-- Every receive ring bound to a queue is tried again, because entries have been freed (R128). -/
def State.rxAdvanceAll (s : State) (q : Nat) : State :=
  ((s.rx.filter (fun e => e.2.cq = q)).map (fun e => e.1)).foldl State.rxAdvance s

end Sys2Proof.Machine
end

