-- ==== Sys2Proof/Machine/Delivery.lean ====
section
/-! DEFINITION. Delivery of received frames into receive rings (5.5 and 5.10 of 05_rings_and_doorbells), in a warm hand-over by two engines
(R243, 10_engine_pair), as the operations that the commands share. -/
namespace Sys2Proof.Machine

/-! ### The frame at the head of a ring, and the buffers it may take -/

/-- The bytes of a copy after stripping (R171, 07_receive). -/
def RxCopy.payload (c : RxCopy) (l : Bytes) : Bytes :=
  let l1 := if 0 < c.strip then l.take (c.strip - 1) ++ l.drop (c.strip + 3) else l
  if c.stag then l1.take 12 ++ l1.drop 16 else l1

/-- The head frame of a ring and its copy (R117). -/
def State.rxHead (s : State) (n : Nat) : Option (HFrame × RxCopy) :=
  match (s.rxr n).wait with
  | id :: _ =>
    (s.hamper.frames.find? (fun h => h.id = id)).bind (fun h => (h.copies.find? (fun c => c.ring = n)).map (fun c => (h, c)))
  | [] => none

/-- A frame that Early mode delivers early: its ring is Early and it holds more than 512 bytes (R116); a frame kept with a bad FCS is
delivered in Store mode (R161, 07_receive). -/
def earlyFrame (r : RxRing) (h : HFrame) (c : RxCopy) : Bool := r.early && !c.store && decide (512 < h.bytes.length)

/-- The good slots from a position on, without a gap: holes are passed over, and slots already taken are left out (R112). -/
def freeSlots (n : Nat) : List RxSlot → Nat → List RxSlot
  | [], _ => []
  | x :: r, p => if x.pos = p then (if x.hole = 0 then [x] else []) ++ freeSlots n r (advance n p 1) else []

/-- Where an engine's frames begin to take buffers: at C, or past the guard slot of a Drain-overlap hand-over for the incoming engine
(R243, 10_engine_pair). -/
def RxRing.start (r : RxRing) (inc : Bool) : Nat :=
  match r.ret with
  | some g => g
  | none => if inc then r.guard.getD r.c else r.c

/-- The buffers that a frame of an engine may take; once its RX_WAIT window has closed, those alone that were handed inside it (R125). -/
def RxRing.buffers (r : RxRing) (inc : Bool) : List RxSlot :=
  let l := freeSlots (ringN r.size) (r.slots.dropWhile (fun x => decide (x.pos ≠ r.start inc))) (r.start inc)
  match r.due with
  | some p => l.filter (fun x => decide (dist (ringN r.size) r.c x.pos < dist (ringN r.size) r.c p))
  | none => l

/-- The slots that n bytes need, from the free ones: filled completely in order (R112); none where they do not hold them. -/
def takeSlots : List RxSlot → Nat → Option (List RxSlot)
  | _, 0 => some []
  | [], _ => none
  | x :: r, n => (takeSlots r (n - x.len)).map (fun l => x :: l)

/-- As many free slots as a number of bytes takes. -/
def fillSlots : List RxSlot → Nat → List RxSlot
  | [], _ => []
  | _, 0 => []
  | x :: r, n => x :: fillSlots r (n - x.len)

/-- Buffers are lacking for a frame at the head of its ring: in Store mode for all of it, in Early mode the next one (R115, R116). -/
def RxRing.noBuffer (r : RxRing) (h : HFrame) (c : RxCopy) : Bool :=
  if earlyFrame r h c then (r.buffers h.inc).isEmpty else (takeSlots (r.buffers h.inc) (c.payload h.bytes).length).isNone

/-- The frame at the head of a ring lacks buffers or a queue entry (R125); an Early frame whose DMA has begun holds its entry. -/
def State.rxLacks (s : State) (n : Nat) (h : HFrame) (c : RxCopy) : Bool :=
  (s.rxr n).noBuffer h c || (!c.dma && decide ((s.cqr (s.rxr n).cq).freeSlots = 0))

/-- Slots that were handed before a position are still being fetched or checked. -/
def RxRing.fetching (r : RxRing) (p : Nat) : Bool :=
  decide ((r.slots.filter (fun x => decide (dist (ringN r.size) r.c x.pos < dist (ringN r.size) r.c p))).length < dist (ringN r.size) r.c p)

/-! ### Writing -/

/-- Writing bytes into the buffers of slots. -/
def State.writeSlots (s : State) (fn : Nat) (ro : Bool) : List RxSlot → Bytes → State
  | [], _ => s
  | x :: r, l =>
    if l = [] then s
    else State.writeSlots ((s.emit (.memWrite fn x.addr (l.take x.len) ro)).dmaUse fn (l.take x.len).length) fn ro r (l.drop x.len)

/-- Marking slots of a ring (Machine/Types.lean, RxSlot). -/
def State.markSlots (s : State) (n : Nat) (used : List RxSlot) (mark : Nat) : State :=
  s.setRxr n (fun r => { r with slots := r.slots.map (fun x =>
    if used.any (fun y => y.pos = x.pos) then { x with hole := mark } else x) })

/-- The slots of the frame being written. -/
def RxRing.taken254 (r : RxRing) : List RxSlot := r.slots.filter (fun x => decide (x.hole = 254))

/-- Completions wait behind buffers that are still to be returned, or for the end of the drain (R243, 10_engine_pair). -/
def RxRing.defers (r : RxRing) (inc : Bool) : Bool := (inc && r.guard.isSome) || r.ret.isSome || !r.inc.isEmpty

/-- The completion of a frame with the slots it has used; `held` when its entry was reserved. -/
def State.rxFinish (s : State) (n : Nat) (inc : Bool) (e : Cpl) (held : Bool) (used : List RxSlot) : State :=
  let q := (s.rxr n).cq
  if (s.rxr n).defers inc then
    (((if held then s else s.cqReserve q).markSlots n used 253)).setRxr n (fun r => { r with inc := r.inc ++ [(e, used.length)] })
  else (s.cqWrite q e held).markSlots n used 255

/-- A held frame without the copies bound for a receive ring. -/
def dropRing (n : Nat) (h : HFrame) : HFrame := { h with copies := h.copies.filter (fun c => c.ring ≠ n) }

/-- A held frame without its copy for a ring, where it is the frame named. -/
def dropCopyOf (n id : Nat) (g : HFrame) : HFrame := if g.id = id then dropRing n g else g

/-- A copy leaves the Hamper, and its frame with the last copy (7.6 of 07_receive). -/
def State.dropCopy (s : State) (n : Nat) (h : HFrame) : State :=
  ((s.onHamper (fun x =>
    { x with frames := (x.frames.map (dropCopyOf n h.id)).filter (fun g => g.copies ≠ []) })).setRxr n (fun r =>
      { r with wait := r.wait.filter (· ≠ h.id), tw := none, due := none })).flowCheck h.inst

/-- The completion of a received frame (Table 5-9, Table 5-11). -/
def rxCpl (n : Nat) (r : RxRing) (h : HFrame) (c : RxCopy) (status nbuf len last cookie : Nat) : Cpl :=
  { time64 := h.time64, aux := c.hash.getD 0, src := n + 1024, slot := posIndex (ringN r.size) last, status := status,
    nbuf := nbuf,
    flags := 16 * ofBool h.oversize + 32 * h.fcs + 128 * h.l3 + 512 * h.l4 + 2048 * ofBool (0 < c.strip)
      + 4096 * ofBool c.hash.isSome,
    len := len, tci := c.tci, cookie := cookie, port := h.inst + 16 * h.cls }

/-- A frame written with STATUS OK: its counters (R216, Table 9-3), and the cells read for it (Table 9-6, 09_tally). -/
def State.rxWritten (s : State) (h : HFrame) (c : RxCopy) (len : Nat) : State :=
  let s1 := ((s.count .fnRxFrames c.fn).countN .fnRxOctets 0 c.fn len).uses .hamper c.fn (cellsOf h.bytes.length)
  if c.flowHit then s1.count .flowHit c.fn else s1

/-- Changing the copy of a frame that a ring holds. -/
def State.setCopy (s : State) (n id : Nat) (f : RxCopy → RxCopy) : State :=
  s.onHamper (fun x => { x with frames := x.frames.map (fun g =>
    if g.id = id then { g with copies := g.copies.map (fun c => if c.ring = n then f c else c) } else g) })

/-! ### The RX_WAIT window (R125, R126) -/

/-- Buffers or an entry are lacking: RX_NO_BUFFER or CQ_FULL (R126, R128). -/
def State.rxDry (s : State) (n : Nat) (r : RxRing) (h : HFrame) (noBuf : Bool) : State :=
  if noBuf then (s.count .noBuffer n).raiseOnce .rxNoBuffer n (le 2 (n + 1024) ++ le 2 h.wireLen)
  else (s.count .cqFullDrop n).raiseOnce .cqFull r.cq (le 2 (r.cq + 2048))

/-- RX_ABANDONED of a ring (R126, R178 of 07_receive). -/
def State.rxAbandon (s : State) (n nbuf len : Nat) : State :=
  (s.count .rxAbandoned n).raiseOnce .rxAbandoned n (le 2 (n + 1024) ++ le 1 nbuf ++ le 4 len)

/-- The outcome of R126 for the head frame of a ring. A frame of Early mode whose DMA has not begun is dropped as in Store mode (log 65). -/
def State.rxDrop (s : State) (n : Nat) : State :=
  let r := s.rxr n
  match s.rxHead n with
  | some (h, c) =>
    if c.dma then
      let s1 := s.rxFinish n h.inc (rxCpl n r h c 9 c.slotsN c.written c.lastPos c.cookie) true r.taken254
      ((s1.rxAbandon n c.slotsN c.written).dropCopy n h).rxAdvance n
    else (s.rxDry n r h (r.noBuffer h c)).dropCopy n h
  | none => s

/-- The head frame is found short: its RX_WAIT window opens, with the length then in force (R56), or is empty (R125). -/
def State.rxShort (s : State) (n : Nat) : State :=
  match (s.rxr n).tw with
  | some _ => s
  | none =>
    if s.rxWaitUs = 0 then s.rxDrop n
    else s.setRxr n (fun r => { r with tw := some (s.time.elapsed, s.rxWaitUs * uUs) })

/-- The wait of a ring's head frame ends. -/
def State.rxEndWait (s : State) (n : Nat) : State := s.setRxr n (fun r => { r with tw := none, due := none })

/-- The RX_WAIT window of a ring's head frame closes (R125, R126): where what was lacking has been supplied the frame is delivered; where it was
handed inside the window and is still being fetched, that decides; otherwise the frame is lost. -/
def State.rxExpire (s : State) (n : Nat) : State :=
  let r := s.rxr n
  match s.rxHead n with
  | some (h, c) =>
    if s.rxLacks n h c = false then s.rxEndWait n
    else if r.noBuffer h c ∧ r.fetching r.h then s.setRxr n (fun r => { r with due := some r.h })
    else s.rxDrop n
  | none => s

/-- A supply for the waiting head frame of a ring: it ends the wait where nothing is lacking any more (R125); after the close of the window the
last slot handed inside it decides. -/
def State.rxSupplied (s : State) (n : Nat) : State :=
  let r := s.rxr n
  match r.tw, s.rxHead n with
  | some _, some (h, c) =>
    if s.rxLacks n h c = false then s.rxEndWait n
    else
      match r.due with
      | some p => if r.fetching p then s else s.rxDrop n
      | none => s
  | _, _ => s

/-- Every receive ring bound to a queue whose entries have been freed: holes and returned buffers complete, and waits end (R125, R128). -/
def State.rxRefill (s : State) (q : Nat) : State :=
  ((s.rx.filter (fun e => e.2.cq = q)).map (fun e => e.1)).foldl State.rxSupplied (s.rxAdvanceAll q)

/-! ### Store and Early mode (R115, R116) -/

/-- A slot at or beyond the guard slot of a Drain-overlap hand-over. -/
def RxRing.pastGuard (r : RxRing) (x : RxSlot) : Bool :=
  r.guard.any (fun g => decide (dist (ringN r.size) r.c g ≤ dist (ringN r.size) r.c x.pos))

/-- The Junction aborts an outgoing write at or beyond the guard: the frame is lost, and its buffers stay unused (R243, 10_engine_pair). -/
def State.guardLost (s : State) (n : Nat) (h : HFrame) (c : RxCopy) : State :=
  let s1 := (if c.dma then s.cqRelease (s.rxr n).cq else s).markSlots n (s.rxr n).taken254 0
  (s1.count .guardOverrun 0).dropCopy n h

/-- An outgoing engine's write would reach the guard. -/
def RxRing.overruns (r : RxRing) (inc : Bool) (used : List RxSlot) : Bool := !inc && used.any r.pastGuard

/-- Store-mode delivery of the head frame of a ring (R115, R112). -/
def State.rxStore (s : State) (n : Nat) (h : HFrame) (c : RxCopy) : State :=
  let r := s.rxr n
  let l := c.payload h.bytes
  match takeSlots (r.buffers h.inc) l.length with
  | some used =>
    if (s.cqr r.cq).freeSlots = 0 then s.rxShort n
    else if r.overruns h.inc used then s.guardLost n h c
    else
      let last := (used.getLast?.map (fun x => x.pos)).getD 0
      let cookie := (used.head?.map (fun x => x.cookie)).getD 0
      let s1 := (s.writeSlots c.fn (s.fn c.fn).ro used l).rxFinish n h.inc (rxCpl n r h c 0 used.length l.length last cookie) false used
      ((s1.rxWritten h c l.length).dropCopy n h).rxAdvance n
  | none => s.rxShort n

/-- Early-mode writing as far as buffers reach; the completion with the last byte (R116, R125, R127). A buffer that arrives ends the wait for it. -/
def State.earlyGo (s : State) (n : Nat) (h : HFrame) (c : RxCopy) : State :=
  let r := s.rxr n
  let l := c.payload h.bytes
  let rest := l.drop c.written
  let used := fillSlots (r.buffers h.inc) rest.length
  let room := (used.map (fun x => x.len)).sum
  let last := (used.getLast?.map (fun x => x.pos)).getD c.lastPos
  let cookie := if c.slotsN = 0 then (used.head?.map (fun x => x.cookie)).getD 0 else c.cookie
  let nbuf := c.slotsN + used.length
  if r.overruns h.inc used then s.guardLost n h c
  else
    let s1 := (s.writeSlots c.fn (s.fn c.fn).ro used rest).markSlots n used 254
    if rest.length ≤ room then
      let s2 := s1.rxFinish n h.inc (rxCpl n r h c 0 nbuf l.length last cookie) true (s1.rxr n).taken254
      ((s2.rxWritten h c l.length).dropCopy n h).rxAdvance n
    else
      let s2 := s1.setCopy n h.id (fun c => { c with dma := true, written := c.written + room, slotsN := nbuf, lastPos := last,
                                                     cookie := cookie })
      (if used = [] then s2 else s2.rxEndWait n).rxShort n

/-- Early-mode DMA of the head frame starts, with its queue entry reserved, or goes on (R116). -/
def State.rxEarly (s : State) (n : Nat) (h : HFrame) (c : RxCopy) : State :=
  if c.dma then s.earlyGo n h c
  else if s.rxLacks n h c then s.rxShort n
  else (s.cqReserve (s.rxr n).cq).earlyGo n h { c with dma := true }

/-! ### When an engine writes -/

/-- The incoming engine of a planned warm hand-over may emit writes during the drain (R243, 10_engine_pair): Drain overlap is selected, and the
outgoing ACT line has been low for 8 J-cycles (R230; DEDUCED, log 90). -/
def State.overlaps (s : State) (h : Handover) : Bool :=
  s.pairModePairHandover = 1 && h.swap && h.fallen && !h.drained && decide (h.lowAt + 8 ≤ s.time.jcycle)

/-- An engine writes no received frame: it is Fenced, halted or quiet, its HOST or HAMPER island is isolated (R31, 01_the_sled), or a warm
hand-over leaves the frame to the other engine or to nobody (R241, R243, R246, 10_engine_pair). -/
def State.rxHalted (s : State) (inc : Bool) : Bool :=
  s.pair.fenced || s.engIsolated [2, 3] ||
    match s.pair.handover with
    | some h => if h.warm then (if inc then !s.overlaps h else !(h.swap && !h.drained)) else s.mute
    | none => s.mute

end Sys2Proof.Machine
end

