-- ==== Sys2Proof/Machine/Sched.lean ====
section
/-! DEFINITION. The transmit scheduler's tiers (6.1 to 6.5 of 06_transmit): candidates, deficit round robin, token buckets,
credits and pauses, as the operations that the commands share. -/
namespace Sys2Proof.Machine

/-- The forced S-tag of a function for a class (R144). -/
def State.forcedTag (s : State) (f cls : Nat) : Option Nat :=
  if isOf f = false ∧ s.profCtrlStagForce f = 1 then some (cls * 2 ^ 13 + s.profCtrlStagVid f) else none

/-- What a send asks of its frames (Table 5-6, R144). -/
def State.sendAsk (s : State) (r : TxRing) (x : Send) : TxAsk :=
  let d := x.descs.headD ⟨0, 0, 0, 0, 0, 0, 0, 0, 0, 0, 0, false, true⟩
  { seg := bit d.flags 3, l3c := bit d.flags 4, l4c := bit d.flags 5, tag := bit d.flags 6, tci := d.tci, mss := d.mss,
    l3 := d.l3, l4 := d.l4, hdr := d.hdr, stag := s.forcedTag r.fn r.cls }

/-- The send's bytes in buffer order, as held. -/
def Send.held (x : Send) : Bytes := (x.data.map (fun e => e.2)).flatten

/-- The segment of a send that is granted next, if it has one. -/
def Send.nextSeg (x : Send) (frames : Nat) : Option Nat :=
  match x.st with
  | .ready => some 0
  | .granted k => if k < frames then some k else none
  | _ => none

/-- A candidate frame: its ring, function, the send's first position, its segment and its wire length (R130). -/
structure Cand where
  ring  : Nat
  fn    : Nat
  first : Nat
  seg   : Nat
  len   : Nat
deriving DecidableEq, Repr

/-- The candidate of a ring: the next frame in slot order (R132), where its completion entry is or can be reserved (R111,
R128). -/
def State.ringCand (s : State) (n : Nat) (r : TxRing) : List Send → Option Cand
  | [] => none
  | x :: rest =>
    let a := s.sendAsk r x
    match x.st with
    | .done => State.ringCand s n r rest
    | _ =>
      match x.nextSeg (a.frames x.bytes) with
      | some k =>
        if x.rsvCq = true ∨ 0 < (s.cqr r.cq).freeSlots then
          some { ring := n, fn := r.fn, first := x.first, seg := k, len := a.wireLen x.bytes k }
        else none
      | none =>
        match x.st with
        | .granted _ => State.ringCand s n r rest
        | _ => none

/-- The candidates of class c on instance m, by rising ring number. -/
def State.cands (s : State) (m c : Nat) : List Cand :=
  (s.tx.filter (fun e => e.2.state ≠ .unused && e.2.inst = m && e.2.cls = c)).filterMap
    (fun e => s.ringCand e.1 e.2 e.2.sends)

/-- The frame that a function offers: round robin across its rings (Table 6-1). -/
def candOf (l : List Cand) (last f : Nat) : Option Cand :=
  match (l.filter (fun x => x.fn = f)).find? (fun x => last < x.ring) with
  | some x => some x
  | none => (l.filter (fun x => x.fn = f)).head?

/-- The key of a class and a function in the scheduler's tables. -/
def cfKey (c f : Nat) : Nat := c * 128 + f

/-- A function left with no ready frame in (m, c) has its deficit reset to 0 (R134). -/
def State.tidy (s : State) (m c : Nat) : State :=
  let l := s.cands m c
  s.setSch m (fun x => { x with deficit := x.deficit.filter (fun e => e.1 / 128 ≠ c || l.any (fun y => y.fn = e.1 % 128)) })

/-- The token level of a TF now, in 1/(8,000 x 2^32) byte (R135). -/
def State.tokens (s : State) (f : Nat) : Int :=
  let q := s.fn f
  min (s.bucketFull f) (q.tbLevel + ((s.tbRateMbps f * (s.time.elapsed - q.tbAt) : Nat) : Int))

/-- A function may be served: an OF always, a TF while its level is at or above 0 (R130 item 6, R135). -/
def State.tokenOk (s : State) (f : Nat) : Bool := isOf f || decide (0 ≤ s.tokens f)

/-- Charging a grant to the bucket (R135). -/
def State.charge (s : State) (f len : Nat) : State :=
  if isOf f then s
  else s.setFn f (fun q => { q with tbLevel := s.tokens f - ((len + 20) * (8000 * 2 ^ 32) : Nat), tbAt := s.time.elapsed })

/-- The next function of a round: the least member above the last one, else the least. -/
def nextOf (last : Nat) (l : List Nat) : Nat := (l.find? (fun f => last < f)).getD (l.headD 0)

/-- The rounds of the deficit round robin (R134): each visit adds the quantum; the first function whose deficit covers its
frame is chosen. -/
def dwrrGo (c : Nat) (quantum len : Nat → Nat) (l : List Nat) : Nat → Nat → List (Nat × Nat) → Option (Nat × List (Nat × Nat))
  | 0, _, _ => none
  | n + 1, last, d =>
    let f := nextOf last l
    let v := tget d (cfKey c f) + quantum f
    let d1 := tput d (cfKey c f) v
    if len f ≤ v then some (f, d1) else dwrrGo c quantum len l n f d1

/-- The bound of the rounds: no quantum is below 64 bytes and no frame above 16,396 bytes, for 68 functions. -/
def dwrrFuel : Nat := 20500

/-- The functions of a list of candidates, each once, rising. -/
def candFns (l : List Cand) : List Nat := (List.range 68).filter (fun f => l.any (fun x => x.fn = f))

/-- The choice of R130 item 6 in (m, c): the function, and the deficits after the visits. -/
def State.dwrr (s : State) (m c : Nat) (l : List Cand) : Option (Cand × List (Nat × Nat)) :=
  let x := s.sch m
  let rg := fun f => tget x.lastRg (cfKey c f)
  let len := fun f => ((candOf l (rg f) f).map (fun y => y.len)).getD 0
  let ok := (candFns l).filter s.tokenOk
  let cur := tget x.lastFn c
  let pick := fun (f : Nat) (d : List (Nat × Nat)) => (candOf l (rg f) f).map (fun y => (y, d))
  if ok = [] then none
  else if cur ∈ ok ∧ len cur ≤ tget x.deficit (cfKey c cur) then pick cur x.deficit
  else (dwrrGo c s.fnTxQuantum len ok dwrrFuel cur x.deficit).bind (fun r => pick r.1 r.2)

/-- The frames that the buckets defer here for the first time (TB_THROTTLED, Table 9-2; 6.15). -/
def State.throttle (s : State) (m c : Nat) (l : List Cand) : State :=
  ((candFns l).filter (fun f => s.tokenOk f = false)).foldl (fun t f =>
    match candOf l (tget (t.sch m).lastRg (cfKey c f)) f with
    | some y =>
      if y.ring ∈ (t.fn f).throttled then t
      else (t.setFn f (fun q => { q with throttled := y.ring :: q.throttled })).count .tbThrottled f
    | none => t) s

/-- A class of an instance is paused (R142, R193): its pause has neither ended nor run out. -/
def State.paused (s : State) (m c : Nat) : Bool :=
  match Tbl.find (s.mac m).paused c with
  | some t => decide (s.time.elapsed < t)
  | none => false

/-- A class uses the credit-based shaper (6.3). -/
def State.cbsOn (s : State) (m c : Nat) : Bool := bit (s.schCtrlCbsEn m) c

/-- The credit of a class, in 2^-32 x 10^-3 bit. -/
def State.creditOf (s : State) (m c : Nat) : Int := Tbl.get (fun _ => (0 : Int)) (s.sch m).credit c

def State.setCredit (s : State) (m c : Nat) (v : Int) : State :=
  s.setSch m (fun x => { x with credit := Tbl.put (fun _ => (0 : Int)) x.credit c v, creditAt := tput x.creditAt c s.time.elapsed })

/-- How much of [a, b) lies in [x, y). -/
def overlap (a b x y : Nat) : Nat := min b y - max a x

/-- How long frames of a class were on the wire between two instants: the last one departed, and the current one (R137). -/
def State.wireSince (s : State) (m c a b : Nat) : Nat :=
  let x := s.sch m
  (match x.sending with
    | some (k, u, v) => if k = c then overlap a b u v else 0
    | none => 0) +
  (match x.cur with
    | some f => if f.cls = c ∧ f.held = false then overlap a b f.start (f.start + wireU (f.bytes.length + 4) (s.rate m)) else 0
    | none => 0)

/-- Bringing a class's credit up to the present under Table 6-2: at I - P while a frame of it is on the wire; otherwise at I while a frame
waits with its gate open, held while it waits closed or paused, towards 0 from below and at 0 from above while none waits. -/
def State.settleOne (m : Nat) (s : State) (c : Nat) : State :=
  if s.cbsOn m c then
    let x := s.sch m
    let a := tget x.creditAt c
    let b := s.time.elapsed
    let w := s.wireSince m c a b
    let k := s.creditOf m c + ((s.cbsSlopeMbps m c : Nat) - (s.rate m : Nat) : Int) * (w : Nat)
    let up := k + ((s.cbsSlopeMbps m c * (b - a - w) : Nat) : Int)
    let on := (x.sending.any (fun e => e.1 = c ∧ e.2.1 ≤ b ∧ b < e.2.2)) || x.cur.any (fun f => f.cls = c ∧ f.held = false ∧ f.start ≤ b)
    let v := if on then up
      else if s.cands m c ≠ [] then (if s.paused m c ∨ bit x.gates c = false then k else up)
      else if k < 0 then min 0 up else 0
    s.setCredit m c v
  else s

/-- Every credit of an instance set to 0 now (R137). -/
def State.zeroCredits (s : State) (m : Nat) : State :=
  s.setSch m (fun x => { x with sending := none, credit := [], creditAt := (List.range 8).foldl (fun t c => tput t c s.time.elapsed) [] })

def State.settle (s : State) (m : Nat) : State := (List.range 8).foldl (State.settleOne m) s

/-- A class is eligible at t before its candidate is known: not paused, gate open, credit at or above 0 (R130 items 2 to
4). -/
def State.classOpen (s : State) (m c t : Nat) : Bool :=
  !s.paused m c && bit ((s.gated m).gatesAt t) c && (!s.cbsOn m c || decide (0 ≤ s.creditOf m c))

/-- The engine may grant on an instance (R230, R252; step 1 of Table 13-4): its outputs are not mute, its port and scheduler islands are not
isolated (R31, 01_the_sled), and the engines run. -/
def State.canGrant (s : State) (m : Nat) : Bool :=
  !s.idleEngine [m / 8, 4] && (s.power.mode = .run || s.power.mode = .idle)

/-- The link leaves transmit LPI, or its entry; the time spent in LPI counts in TX_LPI_TIME, in µs (R202, 08_the_wire). -/
def State.endLpi (s : State) (m : Nat) : State :=
  let s1 := if (s.mac m).txLpi then s.countN .txLpiTime 0 m ((s.time.elapsed - (s.mac m).lpiAt) / uUs) else s
  if (s.mac m).txLpi ∨ (s.mac m).entering.isSome ∨ (s.sch m).wakeReq.isSome then
    (s1.setMac m (fun x =>
      { x with txLpi := false, entering := none,
               lpiShort := if x.txLpi ∧ s.time.elapsed < x.lpiAt + 2 * x.tw * uNs then x.lpiShort + 1 else x.lpiShort })).setSch m (fun x => { x with wakeReq := none })
  else s1

/-! ### The pause watchdog (8.6 of 08_the_wire) -/

/-- A class is held: paused with a candidate; in PAUSE mode, any class with a candidate holds them all (8.6). -/
def State.heldClass (s : State) (m c : Nat) : Bool :=
  s.paused m c && (!(s.cands m c).isEmpty ||
    (s.macCfgFcMode m = 1 && (List.range 8).any (fun d => s.paused m d && !(s.cands m d).isEmpty)))

/-- A watchdog run begins in the E-cycle in which a class becomes held (R198). -/
def State.wdOne (m : Nat) (s : State) (c : Nat) : State :=
  if s.heldClass m c ∧ (Tbl.find (s.mac m).wd c).isNone then
    s.setMac m (fun x => { x with wd := Tbl.insert x.wd c (s.time.elapsed + s.pauseWdMs m * (1000 * uUs)),
                                  wdS := Tbl.insert x.wdS c s.time64 })
  else s

/-- The classes of an instance whose watchdog run begins now. -/
def State.wdCheck (s : State) (m : Nat) : State := (List.range 8).foldl (State.wdOne m) s
def State.wdAll (s : State) : State := (List.range 16).foldl State.wdCheck s

/-- The earliest departure on an instance, in u of `elapsed` (R131, R143; R202, 08_the_wire): the end of the last frame and its gap, the instant
at which the link can carry the frame, and LPI_TW after a wake request. -/
def State.startAt (s : State) (m ready : Nat) : Nat :=
  let t := max (s.sch m).free (s.time.elapsed + ready)
  match (s.sch m).wakeReq with
  | some w => max t (w + (s.mac m).tw * uNs)
  | none => if (s.mac m).txLpi ∨ (s.mac m).entering.isSome then max t (s.time.elapsed + (s.mac m).tw * uNs) else t

/-- The device time of a coming instant of `elapsed`, truncated to 1/65,536 ns (2.3, 02_time_and_windows). -/
def State.timeAt (s : State) (start : Nat) : Nat := (s.time.now + (start - s.time.elapsed)) / 2 ^ 16 * 2 ^ 16

/-- The departure time of a frame granted now (R131). -/
def State.departAt (s : State) (m ready : Nat) : Nat := s.timeAt (s.startAt m ready)

end Sys2Proof.Machine
end

