-- ==== Sys2Proof/Machine/Mailbox.lean ====
section
/-! DEFINITION. The mailbox commands: enrolment, LEAVE, QUERY and the ring operations (4.5, 4.6 of 04_host_links; 5.1.1 of
05_rings_and_doorbells), and the operator's FN_CMD. -/
namespace Sys2Proof.Machine

/-- The fields of OPERAND1 of a ring create (Table 5-1). -/
structure RingAsk where
  loc      : Nat
  size     : Nat
  cq       : Nat
  inst     : Nat
  cls      : Nat
  vector   : Nat
  modCount : Nat
  modTime  : Nat
  early    : Bool
deriving DecidableEq, Repr

/-- Reading OPERAND1 for an opcode (Table 5-1). -/
def ringAsk (op1 : Nat) : RingAsk :=
  { loc := bits op1 0 5, size := bits op1 5 4, cq := bits op1 9 5, inst := bits op1 14 4, cls := bits op1 18 3,
    vector := bits op1 9 6, modCount := bits op1 15 8, modTime := bits op1 23 10, early := bit op1 21 }

/-- The bits of OPERAND1 that an opcode defines (Table 5-1). -/
def op1Mask (op : Nat) : Nat :=
  if op = 0x10 then 2 ^ 21 - 1
  else if op = 0x11 then 2 ^ 14 - 1 + 2 ^ 21
  else if op = 0x12 then 2 ^ 33 - 1
  else if op = 0x13 then 2 ^ 15 - 2 ^ 5
  else 0

/-- A reserved bit of OPERAND1 is set. -/
def op1Rsv (op op1 : Nat) : Bool := Nat.land op1 (op1Mask op) ≠ op1

/-- The kind of ring an opcode creates: 0 transmit, 1 receive, 2 completion queue, 3 event ring. -/
def opKind (op : Nat) : Nat := op - 0x10

/-- The size of an entry of a kind (5.1). -/
def entrySize (kind : Nat) : Nat := if kind = 1 then 16 else 32

/-- The sled-wide number of a local ring (5.1). -/
def State.ringNumber (s : State) (f kind loc : Nat) : Nat :=
  if kind = 0 then s.ringAllocTxBase f + loc else if kind = 1 then s.ringAllocRxBase f + loc
  else if kind = 2 then s.ringAllocCqBase f + loc else f - 64

/-- The state of a ring, Unused where another function owns the number. -/
def State.ringState (s : State) (f kind n : Nat) : RingState :=
  if kind = 0 then (if (s.txr n).fn = f then (s.txr n).state else .unused)
  else if kind = 1 then (if (s.rxr n).fn = f then (s.rxr n).state else .unused)
  else if kind = 2 then (if (s.cqr n).fn = f then (s.cqr n).state else .unused)
  else (s.evr n).state

/-- The grant of a kind (R92). -/
def State.grantOf (s : State) (f kind : Nat) : Nat :=
  if kind = 0 then (s.fn f).grantTx else if kind = 1 then (s.fn f).grantRx else if kind = 2 then (s.fn f).grantCq else 1

/-- A completion queue still has rings bound to it (R105). -/
def State.cqBound (s : State) (q : Nat) : Bool :=
  s.tx.any (fun e => e.2.state ≠ .unused && e.2.cq = q) || s.rx.any (fun e => e.2.state ≠ .unused && e.2.cq = q)

/-- The first status that refuses a ring create, 0 where none does (R105). -/
def State.createStatus (s : State) (f op op0 op1 : Nat) : Nat :=
  let a := ringAsk op1
  let kind := opKind op
  let loc := if kind = 3 then 0 else a.loc
  if isOf f = false ∧ kind = 3 then 7
  else if (s.fn f).state ≠ .enrolled ∨ s.ringState f kind (s.ringNumber f kind loc) ≠ .unused ∨
      (kind < 2 ∧ s.ringState f 2 (s.ringNumber f 2 a.cq) ≠ .active) then 0x0B
  else if op1Rsv op op1 ∨ op0 % 4096 ≠ 0 ∨ 10 < a.size ∨ (kind = 2 ∧ a.modCount = 0) ∨
      (2 ≤ kind ∧ vectors f ≤ a.vector) then 2
  else if s.grantOf f kind ≤ loc then 5
  else if s.fenceOk f op0 (ringN a.size * entrySize kind) = false then 6
  else 0

/-- Creating a ring: every position at lap 1, index 0 (R103). -/
def State.createRing (s : State) (f op op0 op1 : Nat) : State :=
  let a := ringAsk op1
  let kind := opKind op
  let n := s.ringNumber f kind a.loc
  let p := ringN a.size
  let q := s.ringNumber f 2 a.cq
  if kind = 0 then s.setTxr n (fun _ =>
    { TxRing.init with state := .active, fn := f, base := op0, size := a.size, cq := q, inst := a.inst, cls := a.cls,
                       c := p, h := p, f := p, commit := p })
  else if kind = 1 then s.setRxr n (fun _ =>
    { RxRing.init with state := .active, fn := f, base := op0, size := a.size, cq := q, early := a.early, c := p, h := p,
                       f := p })
  else
    let c : CqRing := { CqRing.init with state := .active, fn := f, base := op0, size := a.size, vector := a.vector,
                                         modCount := if kind = 2 then a.modCount else 1,
                                         modTime := if kind = 2 then a.modTime else 0, w := p, c := p }
    if kind = 2 then s.setCqr n (fun _ => c) else s.setEvr (f - 64) (fun _ => c)

/-- The payload of RING_CREATED and RING_DESTROYED: the function, the kind and the sled-wide number (Table 5-17,
Table 5-18). -/
def ringPayload (f kind n : Nat) : Bytes := le 1 f ++ le 1 kind ++ le 2 (n + 1024 * kind)

/-- A ring create (R105): refused with its status, or carried out. An OUT_OF_FENCE is answered before its violation is counted, which can evict
the function (R86, R96, R97). -/
def State.mbxCreate (s : State) (f op op0 op1 : Nat) : State :=
  let st := s.createStatus f op op0 op1
  let kind := opKind op
  let n := s.ringNumber f kind (ringAsk op1).loc
  if st = 0 then ((s.createRing f op op0 op1).raise .ringCreated (ringPayload f kind n)).mbxReply f 0 n
  else
    let s1 := s.mbxReply f st 0
    if st = 6 then s1.violation f else s1

/-- The first status that refuses a RING_DESTROY, 0 where none does (R105). -/
def State.destroyStatus (s : State) (f op0 op1 : Nat) : Nat :=
  let kind := bits op0 0 2
  let loc := bits op0 2 5
  let n := s.ringNumber f kind loc
  if isOf f = false ∧ kind = 3 then 7
  else if (s.fn f).state ≠ .enrolled ∨ (s.ringState f kind n ≠ .active ∧ (kind ≠ 3 ∨ loc = 0)) ∨
      (kind = 2 ∧ s.cqBound n) then 0x0B
  else if op1 ≠ 0 ∨ 2 ^ 7 ≤ op0 ∨ (kind = 3 ∧ loc ≠ 0) then 2
  else if s.grantOf f kind ≤ loc then 5
  else 0

/-- A held frame's copy waits for a ring, with no DMA begun (R106). -/
def HFrame.waitsFor (n : Nat) (h : HFrame) : Bool := h.copies.any (fun c => c.ring = n && !c.dma)

/-- The frames that wait for a receive ring with no DMA begun are handled as for a missing ring (R106; R175, 07_receive). -/
def State.dropWaiting (s : State) (n : Nat) : State :=
  let ids := (s.hamper.frames.filter (HFrame.waitsFor n)).map (fun h => h.id)
  (((s.countN .rxNoRing 0 (s.rxr n).fn ids.length).onHamper (fun x =>
    { x with frames := (x.frames.map (fun h => if h.id ∈ ids then dropRing n h else h)).filter (fun h => h.copies ≠ []) })).setRxr n
    (fun r => { r with wait := r.wait.filter (fun i => i ∉ ids) })).flowAll

/-- What RING_DESTROY does at once (R106): the ring is Closing; ungranted sends, waiting frames and unused buffers are given up. -/
def State.closeRing (s : State) (kind n : Nat) : State :=
  if kind = 0 then (s.setTxr n (fun r =>
    { r with state := .closing, cur := [], f := r.h,
             sends := r.sends.filter (fun x => match x.st with | .granted _ => true | .done => x.wasSent | _ => false) })).tidy
    (s.txr n).inst (s.txr n).cls
  else if kind = 1 then (s.dropWaiting n).setRxr n (fun r => { r with state := .closing })
  else if kind = 2 then s.setCqr n (fun r => { r with state := .closing })
  else s.setEvr n (fun r => { r with state := .closing })

/-- RING_DESTROY (R105, R106). -/
def State.mbxDestroy (s : State) (f op0 op1 : Nat) : State :=
  let st := s.destroyStatus f op0 op1
  let kind := bits op0 0 2
  let loc := bits op0 2 5
  if st = 0 then
    (s.closeRing kind (s.ringNumber f kind loc)).setFn f (fun q => { q with wait := some (.destroy kind loc) })
  else s.mbxReply f st 0

/-- The copies of frames whose DMA into a receive ring has begun (R106). -/
def State.dmaBegun (s : State) (ring : Nat) : Bool :=
  s.hamper.frames.any (fun h => h.copies.any (fun c => c.ring = ring && c.dma))

/-- Whether a closing ring still has granted sends or begun DMA (R106). -/
def State.ringIdle (s : State) (kind n : Nat) : Bool :=
  if kind = 0 then (s.txr n).sends = [] else if kind = 1 then s.dmaBegun n = false else true

/-- Removing a destroyed ring. -/
def State.removeRing (s : State) (kind n : Nat) : State :=
  if kind = 0 then s.setTxr n (fun _ => TxRing.init)
  else if kind = 1 then (s.dropWaiting n).setRxr n (fun _ => RxRing.init)
  else if kind = 2 then s.setCqr n (fun _ => CqRing.init)
  else s.setEvr n (fun _ => CqRing.init)

/-- RING_DESTROY_DONE (R106): once nothing of the ring is in flight, it is gone and the reply is written. -/
def State.destroyDone (s : State) (f : Nat) : State :=
  match (s.fn f).wait with
  | some (.destroy kind loc) =>
    let n := s.ringNumber f kind loc
    if s.ringIdle kind n then
      ((s.removeRing kind n).raise .ringDestroyed (ringPayload f kind n)).mbxReply f 0 0
    else s
  | _ => s

/-- LEAVE (R86). -/
def State.mbxLeave (s : State) (f op0 op1 : Nat) : State :=
  match (s.fn f).state with
  | .enrolled =>
    if op0 ≠ 0 ∨ op1 ≠ 0 then s.mbxReply f 2 0
    else (s.setFn f (fun q => { q with wait := some .leave })).beginEvict f 1 true
  | .disabled | .quarantined => s.mbxReply f 7 0
  | _ => s.mbxReply f 0x0B 0

/-- The encoding of FN_STATE (Table 4-13). -/
def FnState.code : FnState → Nat
  | .absent => 0
  | .idle => 1
  | .checking => 2
  | .enrolled => 3
  | .evicting => 4
  | .quarantined => 5
  | .disabled => 6

/-- QUERY (R86): FN_STATE, FN_GEN and the last eviction cause. -/
def State.mbxQuery (s : State) (f op0 op1 : Nat) : State :=
  let q := s.fn f
  if op0 ≠ 0 ∨ op1 ≠ 0 then s.mbxReply f 2 0
  else s.mbxReply f 0 (q.state.code + q.gen * 2 ^ 8 + q.cause * 2 ^ 16)

/-- Bytes 0 to 29 of a request record (Table 4-6). -/
def mbxBody (r : MbxReq) : Bytes :=
  le 1 r.opcode.toNat ++ le 1 r.seq.toNat ++ le 1 r.status.toNat ++ le 1 (r.rsv.toNat % 256) ++ le 8 r.op0.toNat
    ++ le 8 r.op1.toNat ++ le 10 (r.rsv.toNat / 256)

/-- A request past its check and common fields (R86, tests 3 and 4). -/
def State.mbxOpcode (s : State) (f : Nat) (req : MbxReq) : State :=
  let op := req.opcode.toNat
  if op = 1 then s.enrolStart f req.op0.toNat req.op1.toNat
  else if op = 2 then s.mbxLeave f req.op0.toNat req.op1.toNat
  else if op = 3 then s.mbxQuery f req.op0.toNat req.op1.toNat
  else if 0x10 ≤ op ∧ op ≤ 0x13 then s.mbxCreate f op req.op0.toNat req.op1.toNat
  else if op = 0x14 then s.mbxDestroy f req.op0.toNat req.op1.toNat
  else s.mbxReply f 9 0

/-- The request's check has been made (R86, test 1); the tests of its fields follow. -/
def State.mbxChecked (s : State) (f : Nat) (req : MbxReq) (want : Nat) : State :=
  if req.check.toNat ≠ want then
    ((s.count .fnCheckFail f).checkFail 5 f 0 0 req.check.toNat want).mbxReply f 1 0
  else if req.seq.toNat ≠ (s.fn f).goSeq ∨ req.status ≠ 0 ∨ req.rsv ≠ 0 then s.mbxReply f 2 0
  else s.mbxOpcode f req

/-- The running register of a request record's check (R84). -/
def mbxWant (f : Nat) (req : MbxReq) : Nat := crcFold 0 (mbxBody req) (fnWord f) req.seq.toNat

/-- A write to MBX_GO at the engines (R85, R86): ignored and counted in MBX_IGNORED, or latched; its check is made at once, or waits for a unit
(R69). -/
def State.mbxRun (s : State) (f go : Nat) (req : MbxReq) : State :=
  let q := s.fn f
  if s.present f = false ∨ q.state = .evicting ∨ go ≠ (q.replySeq + 1) % 256 ∨ q.busy ∨ s.lookout.restart then
    s.count .mbxIgnored f
  else
    let s1 := s.setFn f (fun n => { n with busy := true, goSeq := go, goOp := req.opcode.toNat, wait := none })
    if s.unitNow then s1.mbxChecked f req (mbxWant f req)
    else (s1.setFn f (fun n => { n with wait := some .check })).msgWaits
      { fn := f, kind := .mailbox req, data := mbxBody req ++ le 2 req.check.toNat }

/-- The words of a request record as the partner writes it (Table 4-6). -/
def mbxWords (req : MbxReq) : List (Nat × Nat) :=
  (List.range 8).map (fun i => (4 * i, leAt (mbxBody req ++ le 2 req.check.toNat) (4 * i) 4))

/-- A word of the request record is written (R85). -/
def State.recordPut (s : State) (f off v : Nat) : State := s.setFn f (fun n => { n with req := wput n.req (off / 4) v })

/-- The request record as it stands (R84). -/
def State.mbxRecord (s : State) (f : Nat) : MbxReq :=
  let l := ((List.range 8).map (fun i => le 4 (wget (s.fn f).req i))).flatten
  { opcode := BitVec.ofNat 8 (byteAt l 0), seq := BitVec.ofNat 8 (byteAt l 1), status := BitVec.ofNat 8 (byteAt l 2),
    rsv := BitVec.ofNat 88 (byteAt l 3 + 256 * leAt l 20 10), op0 := BitVec.ofNat 64 (leAt l 4 8), op1 := BitVec.ofNat 64 (leAt l 12 8),
    check := BitVec.ofNat 16 (leAt l 30 2) }

/-- The key of a function's MBX_GO among the command registers. -/
def goKey (f : Nat) : Nat := 2 ^ 20 * f + 0x4420

/-- MBX_GO of an OF as written (R102). -/
def State.wroteGo (s : State) (f go : Nat) : State := s.wrote (goKey f) go

/-- A request record and its MBX_GO at the Junction: each write is queued while no engine takes it (R242, 10_engine_pair; R31, 01_the_sled).
Nothing arrives over a host link that is down. -/
def State.mbxGo (s : State) (f : Nat) (go : BitVec 8) (req : MbxReq) : State :=
  if s.noPartner then s
  else
    let s0 := s.endIdle.wroteGo f go.toNat
    (if s.partnerHeld [2, 5] then
      ((mbxWords req).foldl (fun t w => t.hold (.record f w.1 w.2)) s0).hold (.mailbox f go.toNat)
    else ((mbxWords req).foldl (fun t w => t.recordPut f w.1 w.2) s0).mbxRun f go.toNat req).partnerWake f

/-- A mailbox request whose opcode is its command's. -/
def mbxWithOp (r : MbxReq) (op : Nat) : MbxReq := { r with opcode := BitVec.ofNat 8 op }

/-- ENROL (R85, R86, R89). -/
def execEnrol (fn : Fin 68) (go : BitVec 8) (req : MbxReq) (s : State) : Host.Outcome State Fault Refusal :=
  .next (s.mbxGo fn go (mbxWithOp req 0x01))

/-- LEAVE (R86). -/
def execLeave (fn : Fin 68) (go : BitVec 8) (req : MbxReq) (s : State) : Host.Outcome State Fault Refusal :=
  .next (s.mbxGo fn go (mbxWithOp req 0x02))

/-- QUERY, with the record as written: an undefined opcode is answered BAD_OPCODE (R86). -/
def execQuery (fn : Fin 68) (go : BitVec 8) (req : MbxReq) (s : State) : Host.Outcome State Fault Refusal :=
  .next (s.mbxGo fn go req)

/-- TXR_CREATE (R105). -/
def execTxrCreate (fn : Fin 68) (go : BitVec 8) (req : MbxReq) (s : State) : Host.Outcome State Fault Refusal :=
  .next (s.mbxGo fn go (mbxWithOp req 0x10))

/-- RXR_CREATE (R105). -/
def execRxrCreate (fn : Fin 68) (go : BitVec 8) (req : MbxReq) (s : State) : Host.Outcome State Fault Refusal :=
  .next (s.mbxGo fn go (mbxWithOp req 0x11))

/-- CQ_CREATE (R105). -/
def execCqCreate (fn : Fin 68) (go : BitVec 8) (req : MbxReq) (s : State) : Host.Outcome State Fault Refusal :=
  .next (s.mbxGo fn go (mbxWithOp req 0x12))

/-- EVR_CREATE (R105). -/
def execEvrCreate (fn : Fin 68) (go : BitVec 8) (req : MbxReq) (s : State) : Host.Outcome State Fault Refusal :=
  .next (s.mbxGo fn go (mbxWithOp req 0x13))

/-- RING_DESTROY (R105, R106). -/
def execRingDestroy (fn : Fin 68) (go : BitVec 8) (req : MbxReq) (s : State) : Host.Outcome State Fault Refusal :=
  .next (s.mbxGo fn go (mbxWithOp req 0x14))

/-- RING_DESTROY_DONE (R106), where an engine is there to do it. During a management restart no reply is written (R271, 11_lookout). -/
def execRingDestroyDone (fn : Fin 68) (s : State) : Host.Outcome State Fault Refusal :=
  .next (if s.lookout.restart ∨ s.partnerHeld [2, 5] then s else s.destroyDone fn)

/-- The read of the enrolment record of a Checking function is outstanding. -/
def State.enrolReading (s : State) (f : Nat) : Bool :=
  decide ((s.fn f).state = .checking) && s.host.reads.any (fun r => r.fn = f && r.kind = .enrol && !r.void)

/-- ENROL_READ_DONE (R89, steps 3 to 8): the read of the enrolment record of a Checking function completes. -/
def execEnrolReadDone (fn : Fin 68) (good : Bool) (data : Bytes) (s : State) : Host.Outcome State Fault Refusal :=
  .next (if s.enrolReading fn then s.enrolRecord fn good data else s)

/-- FN_CMD EVICT (Table 4-11): cause OPERATOR for an Enrolled or Checking function; no effect in any other state. -/
def State.fnEvict (s : State) (f : Nat) : State :=
  match (s.fn f).state with
  | .enrolled | .checking => s.beginEvict f 8 false
  | _ => s

/-- FN_CMD RELEASE (R97, Table 4-11): a Quarantined function is released and its window's count returns to 0. -/
def State.fnRelease (s : State) (f : Nat) : State :=
  if (s.fn f).state = .quarantined then
    let st : FnState := if s.present f = false then .absent else if s.enabled f = false then .disabled else .idle
    (s.setFn f (fun q => { q with state := st, fenceN := 0 })).raise .fnReleased (le 1 f)
  else s

/-- FN_CMD at the engines (R102): 1 EVICT, 2 RELEASE. -/
def State.fnCmd (s : State) (f cmd : Nat) : State := if cmd = 1 then s.fnEvict f else if cmd = 2 then s.fnRelease f else s

/-- FN_CMD at the Junction: an L-class write that an engine acts on is queued while none is active (R242, 10_engine_pair; R31, 01_the_sled).
Which OF writes it does not matter; OF0 stands for it (log 69). -/
def State.fnCmdGo (s : State) (f cmd : Nat) : State :=
  let v := f + 256 * cmd
  if s.noPartner then s
  else
    let s0 := s.endIdle.wrote 0x4A00 v
    if s.partnerHeld [2, 5] then s0.takeIn (.write 0 0x4A00 v) else (s0.fnCmd f cmd).partnerWake 64

/-- FN_CMD EVICT (Table 4-11). -/
def execFnCmdEvict (fn : Fin 68) (s : State) : Host.Outcome State Fault Refusal := .next (s.fnCmdGo fn 1)

/-- FN_CMD RELEASE (R97). -/
def execFnCmdRelease (fn : Fin 68) (s : State) : Host.Outcome State Fault Refusal := .next (s.fnCmdGo fn 2)

/-- EVICTION_COMPLETE (R98 step 8). -/
def execEvictionComplete (fn : Fin 68) (s : State) : Host.Outcome State Fault Refusal :=
  .next (if (s.fn fn).state = .evicting then (s.finishEvict fn).flowAll else s)

end Sys2Proof.Machine
end

