-- ==== Sys2Proof/Machine/HostLinks.lean ====
section
/-! DEFINITION. The commands of the host links: training, resets, configuration writes, PCI Express errors and MSI-X masks
(04_host_links). L1_EXIT, a wake, stands in Machine/Power.lean. -/
namespace Sys2Proof.Machine

/-- Sending the pending messages of a function whose vectors are no longer masked (R80, R114; PCI Express). -/
def State.msixFlush (s : State) (f : Nat) : Nat → State
  | 0 => s
  | k + 1 =>
    let t := State.msixFlush s f k
    let q := t.fn f
    if q.msixEn ∧ q.msixPend.getLsbD k ∧ q.msixMask.getLsbD k = false then
      (t.setFn f (fun n => { n with msixPend := n.msixPend &&& ~~~(BitVec.ofNat 64 (2 ^ k)) })).msix f k
    else t

/-- The functions that a list names and that now meet the presence conditions become present (R81). -/
def State.arrive (s : State) : List Nat → State
  | [] => s
  | f :: r => State.arrive (if s.present f then s.becomePresent f else s) r

/-- The full width of a link or half (R76). -/
def State.fullWidth (s : State) (l : Nat) : Nat := if s.hlCtrlBifurcate (l / 2) = 1 then 4 else 8

/-- The link or half can train: it exists under BIFURCATE, the host links have been enabled by the start stages, and the sled
is neither Fenced nor in a mode whose host links are down (R76, R252, R296, R356). -/
def State.linkCan (s : State) (l : Nat) : Bool :=
  (l % 2 = 0 || s.hlCtrlBifurcate (l / 2) = 1) && !s.pair.fenced && decide (4 ≤ s.log.stage) &&
    (s.power.mode ≠ .deepSleep && s.power.mode ≠ .off && !(s.power.mode = .exiting && s.power.exitFrom ≠ .sleep))

/-- What a link trains to when the partner offers a speed code and a number of lanes: no more than MAX_SPEED, and a width of Table 4-2
within the link's own (R79). -/
def State.trainSpeed (s : State) (l speed : Nat) : Nat := min speed (s.hlCtrlMaxSpeed (l / 2))
def State.trainWidth (s : State) (l width : Nat) : Nat :=
  let w := min width (s.fullWidth l)
  if 8 ≤ w then 8 else if 4 ≤ w then 4 else if 2 ≤ w then 2 else w

/-- DL_Up on a link or half (R83), for what the partner offers; an offer of nothing does not train. -/
def State.linkUp (s : State) (l speed width : Nat) : State :=
  let v := s.trainSpeed l speed
  let w := s.trainWidth l width
  if s.linkCan l ∧ (s.link l).up = false ∧ 0 < v ∧ 0 < w then
    let s1 := (s.setLink l (fun _ => { up := true, speed := v, width := w, l12 := false })).raise .hlLinkUp
      (le 1 l ++ le 1 v ++ le 1 w)
    let s2 := if w < s.fullWidth l ∨ v < s.hlCtrlMaxSpeed (l / 2) then s1.raise .hlLinkDegraded (le 1 l) else s1
    s2.arrive (s2.linkFns l)
  else s

/-- HL_LINK_UP (R83, R81): the fastest speed, as MAX_SPEED encodes it, and the widest width that the partner offers (R79). -/
def execHlLinkUp (link : Fin 8) (speed width : Nat) (s : State) : Host.Outcome State Fault Refusal :=
  .next (s.linkUp link speed width)

/-- HL_LINK_DOWN (R83, R99). -/
def execHlLinkDown (link : Fin 8) (s : State) : Host.Outcome State Fault Refusal := .next (s.linkLost link)

/-- PERST_ASSERT (R82, R99). -/
def execPerstAssert (link : Fin 8) (s : State) : Host.Outcome State Fault Refusal := .next (s.endIdle.linkLost link)

/-- PTM_REQUEST (R79, section 2.2): answered with TIME64 on a link that is up. -/
def execPtmRequest (link : Fin 8) (s : State) : Host.Outcome State Fault Refusal :=
  .next (if (s.link link).up then s.emit (.ptm link s.time64) else s)

/-- UNEXPECTED_COMPLETION (R79): counted, reported and discarded. -/
def execUnexpectedCompletion (link : Fin 8) (s : State) : Host.Outcome State Fault Refusal := .next (s.aer link true)

/-- UNSUPPORTED_REQUEST (Table 4-3): completed with Unsupported Request. -/
def execUnsupportedRequest (link : Fin 8) (s : State) : Host.Outcome State Fault Refusal :=
  .next (s.emit (.unsupported link))

/-- The request a tag names. -/
def State.readOf (s : State) (tag : Nat) : Option ReadReq := s.host.reads.find? (fun r => r.tag = tag)

/-- COMPLETION_TIMEOUT (R79; Table 4-12 step 5): a read error of its function, its tag void until the late completion
arrives; a tag that eviction made void is free again. HL_AER is no record for a function that the read error evicts (R98 step 7). -/
def execCompletionTimeout (tag : Nat) (s : State) : Host.Outcome State Fault Refusal :=
  .next (match s.readOf tag with
    | some r =>
      if r.void then s.dropTag tag
      else
        let s1 := s.onHost (fun h => { h with reads := h.reads.map (fun q =>
          if q.tag = tag then { q with void := true, timedOut := true } else q) })
        (s1.readError r.fn).aer (s.fnLink r.fn) true
    | none => s)

/-- AER_ERROR (Table 4-3): correctable errors count; a poisoned completion is a read error; malformed and surprise down take
the link down. -/
def execAerError (link : Fin 8) (kind : AerKind) (s : State) : Host.Outcome State Fault Refusal :=
  .next (match kind with
    | .receiver | .badTlp | .badDllp | .replayRollover | .replayTimer => s.aer link false
    | .poisoned tag =>
      match s.readOf tag with
      | some r =>
        let s1 := s.dropTag tag
        (if r.void then s1 else s1.readError r.fn).aer link true
      | none => s.aer link true
    | .malformed | .surpriseDown => (s.linkLost link).aer link true)

/-- The functions that a function-level reset takes with it: of a physical function, its own OF if it is one, and every TF of its link or half
(R79, R82). -/
def State.flrFns (s : State) (f : Nat) : List Nat :=
  if isOf f then s.linkFns (s.fnLink f) else if f < 64 then [f] else s.linkTfs (pfLink f)

/-- A function-level reset of one function: its presence ends with cause FLR. -/
def State.flrOne (s : State) (f : Nat) : State := (s.endPresence f 4 true).setFn f FnSt.configReset

/-- FLR (R82, R87). The carrier function's resets its TFs (Table 4-2). -/
def execFlr (fn : Fin 72) (s : State) : Host.Outcome State Fault Refusal :=
  .next (((s.flrFns fn).foldl State.flrOne s.endIdle).setFn fn FnSt.configReset)

/-- The presence of the TFs of a list that VF Enable and NumVFs covered and cover no more ends, cause VF_DISABLE (R82, R87). -/
def State.vfsGone (was : State) (s : State) : List Nat → State
  | [] => s
  | f :: r => State.vfsGone was (if was.vfOn f ∧ s.vfOn f = false then s.endPresence f 0x0A true else s) r

/-- VF Enable and NumVFs of a physical function as written (R81, R82). -/
def State.setVfs (s : State) (p : Nat) (en : Bool) (n : Nat) : State :=
  State.vfsGone s (s.setFn p (fun q => { q with vfEn := en, numVfs := n })) (s.linkTfs (pfLink p))

/-- A move to D3hot, cause POWER_STATE (R82, R87). -/
def State.toD3 (s : State) (f : Nat) : State :=
  if (s.fn f).d0 then (s.setFn f (fun q => { q with d0 := false })).endPresence f 5 true else s

/-- The return from D3hot to D0: No_Soft_Reset is 0, so that the function's configuration is reset (Table 4-2; PCI Express); a physical
function's VFs go with its VF Enable. -/
def State.toD0 (s : State) (f : Nat) : State :=
  (if f < 64 then s else s.setVfs f false 0).setFn f FnSt.configReset

/-- Bus Master Enable cleared, cause BUS_MASTER (R82); the mailbox is not reset (R87). -/
def State.bmeOff (s : State) (f : Nat) : State :=
  if (s.fn f).bme then (s.setFn f (fun q => { q with bme := false })).endPresence f 0x0B false else s

/-- The physical function of a number 0 to 7: OF0 to OF3, CF0 to CF3. -/
def pfFn (p : Nat) : Nat := 64 + p

/-- VF_DISABLE (R82, R87): VF Enable of a physical function cleared, or its NumVFs lowered. -/
def execVfDisable (pf : Fin 8) (numVfs : Option (Fin 17)) (s : State) : Host.Outcome State Fault Refusal :=
  .next (match numVfs with
    | none => s.endIdle.setVfs (pfFn pf) false (s.fn (pfFn pf)).numVfs
    | some n => s.endIdle.setVfs (pfFn pf) (s.fn (pfFn pf)).vfEn (min n.val (s.fn (pfFn pf)).numVfs))

/-- D3HOT_ENTRY (R82, R87). A carrier function is neither present nor evicted (R77): its power state is its own alone. -/
def execD3hotEntry (fn : Fin 72) (s : State) : Host.Outcome State Fault Refusal :=
  .next (if fn < 68 then s.endIdle.toD3 fn else s.endIdle.setFn fn (fun q => { q with d0 := false }))

/-- BUS_MASTER_CLEAR (R82). A carrier function's Bus Master Enable is its own alone. -/
def execBusMasterClear (fn : Fin 72) (s : State) : Host.Outcome State Fault Refusal :=
  .next (if fn < 68 then s.endIdle.bmeOff fn else s.endIdle.setFn fn (fun q => { q with bme := false }))

/-- The functions that a configuration write of one can make present: itself, and the TFs of a physical function. -/
def State.configFns (s : State) (f : Nat) : List Nat := if f < 64 then [f] else (if f < 68 then [f] else []) ++ s.linkTfs (pfLink f)

/-- The functions of a list that were not present and now are become present (R81). -/
def State.arriveNew (was : State) (s : State) : List Nat → State
  | [] => s
  | f :: r => State.arriveNew was (if was.present f = false ∧ s.present f then s.becomePresent f else s) r

/-- CONFIG_WRITE (R81, R82): what it clears ends presence first; a write that returns a function to D0 leaves its configuration at reset;
otherwise its bits stand, and pending messages of vectors that may now send leave. Functions that meet the conditions become present. -/
def State.configWrite (s : State) (f : Nat) (b : CfgBits) : State :=
  if b.d0 ∧ (s.fn f).d0 = false then s.toD0 f
  else
    let s1 := if f < 64 then s else s.setVfs f b.vfEn b.numVfs.val
    let s2 := if b.d0 then s1 else s1.toD3 f
    let s3 := if b.bme then s2 else s2.bmeOff f
    let s4 := (s3.setFn f (fun q =>
      { q with d0 := b.d0, bme := b.bme, mrrs := if f < 64 then q.mrrs else b.mrrs.val, msixEn := b.msixEn, ro := b.ro })).msixFlush f (vectors f)
    State.arriveNew s s4 (s4.configFns f)

def execConfigWrite (fn : Fin 72) (bits : CfgBits) (s : State) : Host.Outcome State Fault Refusal :=
  .next (s.endIdle.configWrite fn bits)

/-- A write of one word of an MSI-X table entry (R80; PCI Express): address, data, and the mask bit in the vector control. -/
def FnSt.msixEntry (n : FnSt) (v dw : Nat) (x : Nat) : FnSt :=
  let a := tget n.msixAddr v
  if dw = 0 then { n with msixAddr := tput n.msixAddr v (a / 2 ^ 32 * 2 ^ 32 + x / 4 * 4) }
  else if dw = 1 then { n with msixAddr := tput n.msixAddr v (a % 2 ^ 32 + x * 2 ^ 32) }
  else if dw = 2 then { n with msixData := tput n.msixData v x }
  else
    { n with msixMask := (n.msixMask &&& ~~~(BitVec.ofNat 64 (2 ^ v))) ||| BitVec.ofNat 64 (x % 2 * 2 ^ v) }

/-- MSIX_VECTOR_UNMASK (R114; R80, 04_host_links; PCI Express): a partner's write to the MSI-X table, by its word; where it unmasks a vector, its
pending message leaves. -/
def execMsixVectorUnmask (fn : Fin 68) (dword : Fin 256) (value : Word) (s : State) : Host.Outcome State Fault Refusal :=
  .next (if dword.val / 4 < vectors fn ∧ s.noPartner = false then
      ((s.arrives fn).setFn fn (fun n => n.msixEntry (dword.val / 4) (dword.val % 4) value.toNat)).msixFlush fn (vectors fn)
    else s)

end Sys2Proof.Machine
end

