-- ==== Sys2Proof/Machine/Operands.lean ====
section
/-! DEFINITION. The operands of doorbells: the fields of the 64-bit value (Table 5-3), the order of the tests (Table 5-4) and
the position test (Table 5-5) of 05_rings_and_doorbells. The operands of the mailbox commands stand in Machine/Mailbox.lean,
those of register writes in Machine/SetupOps.lean. -/
namespace Sys2Proof.Machine

/-- What a doorbell's offset selects (Table 5-2). -/
inductive DbKind where
  | tx | rx | cq | evr
deriving DecidableEq, Repr

/-- The offset of a doorbell in its page (Table 5-2), and the kind at an offset. -/
def DbKind.page : DbKind → Nat
  | .tx => 0x000
  | .rx => 0x008
  | .cq => 0x010
  | .evr => 0x018

def dbKindAt (page : Nat) : DbKind := if page = 0 then .tx else if page = 8 then .rx else if page = 0x10 then .cq else .evr

/-- Doorbell fields (Table 5-3). -/
structure Db where
  ring   : Nat
  index  : Nat
  lap    : Nat
  wd     : Bool
  arm    : Bool
  rsv    : Nat
deriving DecidableEq, Repr

def dbFields (v : Nat) : Db :=
  { ring := bits v 0 10, index := bits v 10 16, lap := bits v 26 8, wd := bit v 34, arm := bit v 35, rsv := v / 2 ^ 36 }

/-- What the position test needs of a ring: whether it is this function's and Active, its size, C, and H or W. -/
structure DbRing where
  owned : Bool
  n     : Nat
  c     : Nat
  h     : Nat
deriving DecidableEq, Repr

def State.dbRing (s : State) (f : Nat) (k : DbKind) (ring : Nat) : DbRing :=
  match k with
  | .tx => let r := s.txr ring; ⟨r.state = .active ∧ r.fn = f, ringN r.size, r.c, r.h⟩
  | .rx => let r := s.rxr ring; ⟨r.state = .active ∧ r.fn = f, ringN r.size, r.c, r.h⟩
  | .cq => let r := s.cqr ring; ⟨r.state = .active ∧ r.fn = f, ringN r.size, r.c, r.w⟩
  | .evr => let r := s.evr ring; ⟨r.state = .active ∧ isOf f ∧ ring = f - 64, ringN r.size, r.c, r.w⟩

/-- The row of Table 5-4 that a doorbell meets (R108, R109). -/
def State.dbRow (s : State) (f : Nat) (k : DbKind) (whole : Bool) (v : Nat) : Nat :=
  let d := dbFields v
  let r := s.dbRing f k d.ring
  let pos := d.lap * r.n + d.index
  let a := dist r.n r.c r.h
  let b := dist r.n r.c pos
  if (s.fn f).state ≠ .enrolled then 1
  else if whole = false ∨ d.rsv ≠ 0 ∨ (d.wd ∧ k ≠ .tx) ∨ (d.arm ∧ (k = .tx ∨ k = .rx)) ∨ (k = .evr ∧ isOf f = false) then 2
  else if r.owned = false then 3
  else if r.n ≤ d.index then 4
  else
    match k with
    | .tx | .rx =>
      if d.wd then (if b < a then 7 else if b = a then 6 else 5)
      else (if a < b ∧ b ≤ r.n then 7 else if b = a then 6 else 5)
    | .cq | .evr => if (0 < b ∧ b ≤ a) ∨ (b = 0 ∧ d.arm) then 7 else if b = 0 then 6 else 5

end Sys2Proof.Machine
end

