-- ==== Sys2Proof/Machine/Doorbells.lean ====
section
/-! DEFINITION. The doorbell commands, MOD_TIME and the fetching and checking of descriptors (5.2 to 5.6 of
05_rings_and_doorbells; 3.3, 3.4 of 03_check_values). -/
namespace Sys2Proof.Machine

/-- The counter of a rejected row of Table 5-4. -/
def dbRejectCtr (row : Nat) : Ctr :=
  if row = 2 then .dbBadFormat else if row = 3 then .dbNotOwned else if row = 4 then .dbBadIndex else .dbBadLap

/-- Counting an accepted or a repeated doorbell of a ring (Table 5-16). -/
def State.dbCount (s : State) (k : DbKind) (ring : Nat) (accepted : Bool) : State :=
  match k with
  | .tx => s.count (if accepted then .txDbAccepted else .txDbRepeat) ring
  | .rx => s.count (if accepted then .rxDbAccepted else .rxDbRepeat) ring
  | .cq => s.count (if accepted then .cqDbAccepted else .cqDbRepeat) ring
  | .evr => s.count (if accepted then .ofDbAccepted else .ofDbRepeat) ring

/-- What an accepted doorbell does (R109, R114, R118, R122, R128). -/
def State.dbAct (s : State) (k : DbKind) (d : Db) (pos : Nat) : State :=
  match k with
  | .tx => if d.wd then (s.recall d.ring pos).tidy (s.txr d.ring).inst (s.txr d.ring).cls else s.setTxr d.ring (fun r => { r with h := pos })
  | .rx => s.setRxr d.ring (fun r => { r with h := pos })
  | .cq =>
    let s1 := (s.setCqr d.ring (fun q => { q with c := pos, armed := q.armed || d.arm })).cqMaybe d.ring
    ((s1.txCompleteAll d.ring).rxRefill d.ring).wdAll
  | .evr =>
    let s1 := s.setEvr d.ring (fun q => { q with c := pos, armed := q.armed || d.arm })
    let t := evrLost (evrSignal s1 d.ring) d.ring
    runEffs effFuel t.2 t.1

/-- A doorbell at the engines, in its registration cycle (R107 to R109). -/
def State.dbRun (s : State) (f : Nat) (k : DbKind) (whole : Bool) (v : Nat) : State :=
  let row := s.dbRow f k whole v
  let d := dbFields v
  if row = 1 then s.count .dbNotEnrolled f
  else if row < 6 then
    (s.count (dbRejectCtr row) f).raiseOnce .dbRejected f (le 1 f ++ le 8 v ++ le 1 row)
  else if row = 6 then s.dbCount k d.ring false
  else (s.dbCount k d.ring true).dbAct k d (d.lap * (s.dbRing f k d.ring).n + d.index)

/-- A doorbell at the Junction: queued while no engine takes it (R242, 10_engine_pair), or while the engine's HOST island is isolated (R31,
01_the_sled). It counts as activity of its function (Table 9-6). Nothing arrives over a host link that is down. -/
def State.doorbell (s : State) (f : Nat) (k : DbKind) (whole : Bool) (v : Nat) : State :=
  if s.noPartner then s
  else
    (if s.partnerHeld [2] then s.endIdle.hold (.doorbell f k.page whole v)
      else (s.endIdle.recordUse f 8).dbRun f k whole v).partnerWake f

/-- DOORBELL_TX: the transmit offset with RECALL 0 (R109). -/
def execDoorbellTx (fn : Fin 68) (whole : Bool) (value : BitVec 64) (s : State) : Host.Outcome State Fault Refusal :=
  .next (s.doorbell fn .tx whole (value &&& ~~~(1#64 <<< 34)).toNat)

/-- DOORBELL_RX (R109). -/
def execDoorbellRx (fn : Fin 68) (whole : Bool) (value : BitVec 64) (s : State) : Host.Outcome State Fault Refusal :=
  .next (s.doorbell fn .rx whole value.toNat)

/-- DOORBELL_CQ (R109). -/
def execDoorbellCq (fn : Fin 68) (whole : Bool) (value : BitVec 64) (s : State) : Host.Outcome State Fault Refusal :=
  .next (s.doorbell fn .cq whole value.toNat)

/-- DOORBELL_EVR (R109). -/
def execDoorbellEvr (fn : Fin 68) (whole : Bool) (value : BitVec 64) (s : State) : Host.Outcome State Fault Refusal :=
  .next (s.doorbell fn .evr whole value.toNat)

/-- DOORBELL_RECALL: the transmit offset with RECALL 1 (R109, R118). -/
def execDoorbellRecall (fn : Fin 68) (whole : Bool) (value : BitVec 64) (s : State) : Host.Outcome State Fault Refusal :=
  .next (s.doorbell fn .tx whole (value ||| 1#64 <<< 34).toNat)

/-- DOORBELL_ARM: a consumer doorbell with ARM 1 (R109, R114). -/
def execDoorbellArm (fn : Fin 68) (evr whole : Bool) (value : BitVec 64) (s : State) : Host.Outcome State Fault Refusal :=
  .next (s.doorbell fn (if evr then .evr else .cq) whole (value ||| 1#64 <<< 35).toNat)

/-- CQ_MOD_TIME (R114): the MOD_TIME window of an armed queue closes, once its length has passed; a mute engine signals nothing (R230,
10_engine_pair). -/
def execCqModTime (queue : Fin 256) (s : State) : Host.Outcome State Fault Refusal :=
  .next (if s.idleEngine [2] then s else s.cqMaybe queue)

/-! ### Fetching descriptors -/

/-- How many descriptors one read may take: up to H, the end of the ring and the partner's max read request size (R109). -/
def fetchCount (n size f h mrrs : Nat) : Nat := min (min (dist n f h) (n - posIndex n f)) (max 1 (mrrs / size))

/-- DESCRIPTOR_FETCH (R109, R404): one read of the next slots of an Active ring; it waits for a tag where none is free. It comes once the
descriptor cache has room, whose size the spec does not give (log 70). -/
def execDescriptorFetch (rx : Bool) (ring : Fin 640) (s : State) : Host.Outcome State Fault Refusal :=
  .next (if s.idleEngine [2] then s
    else if rx then
      let r := s.rxr ring
      let n := ringN r.size
      let k := fetchCount n 16 r.f r.h (s.maxRead r.fn)
      if r.state = .active ∧ r.f ≠ r.h then
        (s.setRxr ring (fun r => { r with f := advance n r.f k })).issueRead r.fn (.rxDesc ring r.f k)
          (r.base + 16 * posIndex n r.f) (16 * k)
      else s
    else
      let r := s.txr ring
      let n := ringN r.size
      let k := fetchCount n 32 r.f r.h (s.maxRead r.fn)
      if r.state = .active ∧ r.f ≠ r.h then
        (s.setTxr ring (fun r => { r with f := advance n r.f k })).issueRead r.fn (.txDesc ring r.f k)
          (r.base + 32 * posIndex n r.f) (32 * k)
      else s)

/-! ### The check-value units -/

/-- The next message to take a unit: the first waiting message of the next function, in round-robin order after the one
served last (R69). -/
def State.nextMsg (s : State) : Option Msg :=
  ((List.range 68).map (fun i => (s.host.lastFn + 1 + i) % 68)).findSome? (fun f => s.host.msgs.find? (fun m => m.fn = f))

/-- The check that the sled computes for a message (R65, R67; Table 3-3). -/
def State.msgWant (s : State) (m : Msg) : Nat :=
  match m.kind with
  | .tx ring pos => let n := ringN (s.txr ring).size
    crcFold 0 (m.data.take 30) (ringWord 0 ring (posIndex n pos)) (posLap n pos)
  | .rx ring pos => let n := ringN (s.rxr ring).size
    crcFold 0 (m.data.take 14) (ringWord 1 ring (posIndex n pos)) (posLap n pos)
  | .mailbox req => mbxWant m.fn req
  | .enrol => crcFold 2 (m.data.take 60) (fnWord m.fn) (((s.fn m.fn).gen + 1) % 256)

/-- Taking the first occurrence of a message out of the cache. -/
def dropMsg (m : Msg) : List Msg → List Msg
  | [] => []
  | x :: r => if x = m then r else x :: dropMsg m r

/-- CVU_ASSIGN (R68, R69): one waiting message takes a free unit, which holds its running register. -/
def execCvuAssign (s : State) : Host.Outcome State Fault Refusal :=
  .next (match s.nextMsg, s.freeUnit with
    | some m, some u =>
      s.onHost (fun h => { h with msgs := dropMsg m h.msgs, units := Tbl.insert h.units u { msg := m, reg := s.msgWant m }, lastFn := m.fn })
    | _, _ => s)

/-- A transmit descriptor from its 32 bytes (Table 5-6). -/
def txDescOf (pos : Nat) (d : Bytes) (ok : Bool) : TxDesc :=
  { pos := pos, addr := leAt d 0 8, len := leAt d 8 2, flags := leAt d 10 2, tci := leAt d 12 2, mss := leAt d 14 2,
    l3 := byteAt d 16, l4 := byteAt d 17, hdr := leAt d 18 2, sendLen := leAt d 20 4, cookie := leAt d 24 4,
    rsv := leAt d 28 2 ≠ 0, ok := ok }

/-- A checked receive slot (R112, Table 5-8), with the violations it counts. -/
def State.rxSlotOf (s : State) (fn pos : Nat) (d : Bytes) (ok : Bool) : RxSlot :=
  let addr := leAt d 0 8
  let len := leAt d 8 2
  let hole := if ok = false then 1
    else if addr % 64 ≠ 0 ∨ len < 256 ∨ 65472 < len ∨ len % 64 ≠ 0 ∨ leAt d 12 2 ≠ 0 then 3
    else if s.fenceOk fn addr len = false then 2 else 0
  { pos := pos, addr := addr, len := len, cookie := leAt d 10 2, hole := hole }

/-- Inserting a slot in ring order from C; a slot that stands there already stays. -/
def slotInsert (n c : Nat) (x : RxSlot) : List RxSlot → List RxSlot
  | [] => [x]
  | y :: r => if x.pos = y.pos then y :: r else if dist n c x.pos < dist n c y.pos then x :: y :: r else y :: slotInsert n c x r

/-- CHECK_DONE of a transmit descriptor (R72, R110). -/
def State.txChecked (s : State) (fn ring pos : Nat) (data : Bytes) (want : Nat) : State :=
  let r := s.txr ring
  let got := leAt data 30 2
  let s1 := if got = want then s
    else (s.count .txRingCheckFail ring).checkFail 1 fn ring (posIndex (ringN r.size) pos) got want
  if r.state = .active ∧ r.fn = fn then
    (s1.setTxr ring (fun r => { r with cur := r.cur ++ [txDescOf pos data (got = want)] })).assemble ring
  else s1

/-- CHECK_DONE of a receive descriptor (R72, R112): its slot may supply a waiting frame (R125). -/
def State.rxChecked (s : State) (fn ring pos : Nat) (data : Bytes) (want : Nat) : State :=
  let n := ringN (s.rxr ring).size
  let got := leAt data 14 2
  let x := s.rxSlotOf fn pos data (got = want)
  let s1 := if x.hole = 1 then
      (s.count .rxRingCheckFail ring).checkFail 2 fn (ring + 1024) (posIndex n pos) got want
    else if x.hole = 3 then s.badFormat ring true
    else if x.hole = 2 then s.violation fn else s
  if (s1.rxr ring).state ≠ .unused ∧ (s1.rxr ring).fn = fn then
    ((s1.setRxr ring (fun r => { r with slots := slotInsert n r.c x r.slots })).rxAdvance ring).rxSupplied ring
  else s1

/-- A checked message is acted on (R72, R86, R89). -/
def State.msgChecked (s : State) (u : Cvu) : State :=
  match u.msg.kind with
  | .tx ring pos => s.txChecked u.msg.fn ring pos u.msg.data u.reg
  | .rx ring pos => s.rxChecked u.msg.fn ring pos u.msg.data u.reg
  | .mailbox req => (s.setFn u.msg.fn (fun n => { n with wait := none })).mbxChecked u.msg.fn req u.reg
  | .enrol => s.enrolChecked u.msg.fn u.msg.data

/-- CHECK_DONE (R70, R72): the unit is free again and the record is acted on, where an engine is there to do it (R230, 10_engine_pair; R31,
01_the_sled). -/
def execCheckDone (unit : Fin 16) (s : State) : Host.Outcome State Fault Refusal :=
  .next (if s.idleEngine [2] then s
    else
      match Tbl.find s.host.units unit with
      | some u => (s.onHost (fun h => { h with units := Tbl.erase h.units unit })).msgChecked u
      | none => s)

end Sys2Proof.Machine
end

