-- ==== Sys2Proof/Machine/Image.lean ====
section
/-! DEFINITION. The set-up images as rows of the Logbook (16.4, 16.7 of 16_start_up_and_logbook): the body and the trailer of a copy, what makes a
copy valid, and a save. -/
namespace Sys2Proof.Machine

/-! ### The words of an image -/

/-- The words of one register or array. -/
def regWords : List (Nat × Nat) → Nat → List Nat
  | [], base => [base]
  | (stride, count) :: r, base => (List.range count).flatMap (fun i => regWords r (base + stride * i))

/-- Every register with an S or K field (16.7). -/
def imageRows : List RegRow :=
  (regsIdent ++ regsCommit ++ regsPower ++ regsHostlink ++ regsRings ++ regsFilters ++ regsSched ++ regsMac ++
    regsTime ++ regsTally ++ regsPair ++ regsLookout ++ regsSupply ++ regsTether ++ regsForeman ++ regsLogbook ++
    regsEvents).filter (fun r => stagedMask r ≠ 0)

/-- A register of the windows behind RX_FN_SEL (R181, 07_receive). -/
def RegRow.windowed (r : RegRow) : Bool := decide (0x23200 ≤ r.base) && decide (r.base < 0x23700)

/-- Every word of an image in ascending order of its key, which is its OFFSET: the set-up window, then the windows of the 68 functions, whose
OFFSET is 0x100000 + 0x1000 x function + offset into the window's block (DESIGN CHOICE, log 13), with the mask of its S and K fields. -/
def imageKeys : List (Nat × Nat) :=
  let place := fun (t : List (Nat × Nat)) (e : Nat × Nat) => Tbl.insert t e.1 e.2
  (imageRows.flatMap (fun r =>
    if r.windowed then
      (List.range 68).flatMap (fun f => (regWords r.dims r.base).map (fun o => (fnWindowKey f o, stagedMask r)))
    else (regWords r.dims r.base).map (fun o => (o, stagedMask r)))).foldl place []

/-- A key joins the runs of those above it. -/
def addRun (k : Nat) : List (Nat × Nat) → List (Nat × Nat)
  | (b, n) :: r => if k + 4 = b then (k, n + 1) :: r else (k, 1) :: (b, n) :: r
  | [] => [(k, 1)]

/-- The runs of consecutive words: first key and number of words. -/
def imageRuns : List (Nat × Nat) := (imageKeys.map (fun e => e.1)).foldr addRun []

/-- A run record's header (16.7). -/
def runHeader (offset typ count : Nat) : Bytes := le 3 offset ++ le 1 typ ++ le 4 count

/-- The body of an image: the run records of the captured words, and an end record. Section 16.7 does not say how the words are cut into runs:
each run is as long as it can be (DESIGN CHOICE, log 13). -/
def imageBody (words : List (Nat × Word)) : Bytes :=
  (imageRuns.flatMap (fun r => runHeader r.1 1 r.2 ++
    ((List.range r.2).map (fun i => le 4 (Tbl.get resetWord words (r.1 + 4 * i)).toNat)).flatten)) ++ runHeader 0 0 0

/-- The words that a body's run records hold. -/
def bodyWords : Nat → Bytes → List (Nat × Word)
  | 0, _ => []
  | n + 1, l =>
    if byteAt l 3 = 1 then
      let k := leAt l 4 4
      (List.range k).map (fun i => (leAt l 0 3 + 4 * i, BitVec.ofNat 32 (leAt l (8 + 4 * i) 4))) ++ bodyWords n (l.drop (8 + 4 * k))
    else []

/-! ### Rows -/

/-- The first row of a copy, 1 A or 2 B (Table 16-3). -/
def copyBase (c : Nat) : Nat := if c = 1 then 0 else 8192

/-- The address word of a copy (Table 3-2, R65, 03_check_values). -/
def copyWord (c : Nat) : Nat := if c = 1 then 0 else 1

/-- A row number put in ascending order. -/
def sortIn (x : Nat) : List Nat → List Nat
  | [] => [x]
  | y :: r => if x ≤ y then x :: y :: r else y :: sortIn x r

/-- The rows of a copy that writes pass over (R365), in ascending order. -/
def State.wornOf (s : State) (c : Nat) : List Nat :=
  (s.log.wornRows.filter (fun r => decide (copyBase c ≤ r) && decide (r < copyBase c + 8192))).foldr sortIn []

/-- The k-th row of a copy that is not passed over. -/
def State.copyRow (s : State) (c k : Nat) : Nat := (s.wornOf c).foldl (fun r w => if w ≤ r then r + 1 else r) (copyBase c + k)

/-- The last row of a copy that is not passed over: its trailer. -/
def State.trailerRow (s : State) (c : Nat) : Nat :=
  (s.wornOf c).reverse.foldl (fun r w => if w = r then r - 1 else r) (copyBase c + 8191)

/-- The check of a Logbook row holds under an alive fold (Table 3-3, R67, 03_check_values). -/
def State.rowChecks (s : State) (row alive : Nat) : Bool :=
  crcFold 1 (s.memBytes (64 * row) 60) row (alive % 256) = leAt (s.memBytes (64 * row + 60) 4) 0 4

/-- A row of an image (R362): 60 bytes and their check under GENERATION. -/
def imageRow (row gen : Nat) (b : Bytes) : Bytes := let x := (padTo 60 b).take 60; x ++ le 4 (crcFold 1 x row (gen % 256))

/-- Writing one row of an image, within the 16,384 rows of the two copies (Table 16-3). -/
def State.writeImageRow (s : State) (row gen : Nat) (b : Bytes) : State :=
  if row < 16384 then s.onLog (fun l => { l with mem := memStore l.mem (64 * row) (imageRow row gen b) }) else s

/-! ### A copy as it stands -/

/-- The fields of a copy's trailer (16.7). -/
def State.trailer (s : State) (c : Nat) : Bytes := s.memBytes (64 * s.trailerRow c) 60
def State.copyGen (s : State) (c : Nat) : Nat := leAt (s.trailer c) 4 4
def State.copyLock (s : State) (c : Nat) : Bool := bit (byteAt (s.trailer c) 2) 0
def State.copyLen (s : State) (c : Nat) : Nat := leAt (s.trailer c) 8 4

/-- The body of a copy, row by row. -/
def State.copyBody (s : State) (c : Nat) : Bytes :=
  ((List.range ((s.copyLen c + 59) / 60)).flatMap (fun k => s.memBytes (64 * s.copyRow c k) 60)).take (s.copyLen c)

/-- A row that has no uncorrectable word and verifies (R365, R368). -/
def State.rowGood (s : State) (row alive : Nat) : Bool := decide (row ∉ s.log.badRows) && s.rowChecks row alive

/-- A copy is valid (R368): its trailer row and every body row verify under its GENERATION, and so does IMAGE_CHECK. A body is at most 491,460
bytes. -/
def State.copyGood (s : State) (c : Nat) : Bool :=
  s.rowGood (s.trailerRow c) (s.copyGen c) && decide (s.copyLen c ≤ 491460) &&
    (List.range ((s.copyLen c + 59) / 60)).all (fun k => s.rowGood (s.copyRow c k) (s.copyGen c)) &&
    decide (crcFold 3 (s.copyBody c) (copyWord c) (s.copyGen c % 256) = leAt (s.trailer c) 12 8)

/-- The words that a copy holds. -/
def State.copyWords (s : State) (c : Nat) : List (Nat × Word) := bodyWords (s.copyLen c) (s.copyBody c)

/-- The valid copies in the order in which they are tried (R368): the higher GENERATION first, A first of two equal ones. -/
def State.imageOrder (s : State) : List Nat :=
  (if s.copyGen 1 < s.copyGen 2 then [2, 1] else [1, 2]).filter s.copyGood

/-! ### A save (R367) -/

/-- A row that is marked for retirement is remapped at its next write (R365): to a spare, with LOGBOOK_ROW_RETIRED, or passed over once no spare is
left, with LOGBOOK_WORN. -/
def State.retire (s : State) (row : Nat) : State :=
  let s1 := s.onLog (fun l => { l with badRows := l.badRows.filter (· ≠ row) })
  if 0 < s.log.spares then
    (s1.onLog (fun l => { l with spares := l.spares - 1, remapped := row :: l.remapped.filter (· ≠ row) })).raise
      .logbookRowRetired (le 2 row)
  else (s1.onLog (fun l => { l with wornRows := row :: l.wornRows.filter (· ≠ row) })).raise .logbookWorn []

/-- The copy that a save writes. -/
def SaveJob.copy (x : SaveJob) : Nat := if x.isA then 1 else 2

/-- The marked rows that a body of n rows and its trailer are written to are retired. -/
def State.retireCopy (s : State) (c n : Nat) : State :=
  (s.log.badRows.filter (fun r => (decide (copyBase c ≤ r) && decide (r < copyBase c + n)) || decide (r = copyBase c + 8191))).foldl
    State.retire s

/-- Writing the first n body rows of a save. -/
def State.saveRows (s : State) (x : SaveJob) (body : Bytes) (n : Nat) : State :=
  let s1 := s.retireCopy x.copy n
  (List.range n).foldl (fun t k => t.writeImageRow (s1.copyRow x.copy k) x.gen (slice body (60 * k) 60)) s1

/-- The trailer of a save (16.7). -/
def SaveJob.trailer (x : SaveJob) (body : Bytes) : Bytes :=
  le 2 1 ++ le 1 (ofBool x.lock) ++ [0] ++ le 4 x.gen ++ le 4 body.length ++ le 8 (crcFold 3 body (copyWord x.copy) (x.gen % 256))

/-- The trailer is written (R367): the copy is whole, and SETUP_IMAGE_SAVED is raised. -/
def State.savedAs (s : State) (x : SaveJob) (body : Bytes) : State :=
  let s1 := s.saveRows x body ((body.length + 59) / 60)
  ((s1.writeImageRow (s1.trailerRow x.copy) x.gen (x.trailer body)).onLog (fun l =>
    { l with saving := none, saveSt := 2, saveWhy := 0 })).raise .setupImageSaved (le 4 x.gen ++ le 1 x.copy)

def State.saved (s : State) (x : SaveJob) : State := s.savedAs x (imageBody x.words)

/-- A save of a body ends without its trailer (R367, section 16.8). How many of its rows have been written by then is a free value, at least
the one in flight (log 83). -/
def State.savedPart (s : State) (x : SaveJob) (body : Bytes) : State :=
  (s.useFree.saveRows x body (1 + s.freeNat 13 % ((body.length + 59) / 60))).onLog (fun l =>
    { l with saving := none, saveSt := 3, saveWhy := 2 })

/-- A save in progress is abandoned. -/
def State.abandonSave (s : State) : State :=
  match s.log.saving with
  | some x => s.savedPart x (imageBody x.words)
  | none => s

/-- The copy that holds the newest valid generation: 1 A, 2 B, 0 none. -/
def State.newestCopy (s : State) : Nat := s.imageOrder.headD 0

/-- The copy that a save writes (R367): the one that does not hold the newest valid generation; A where none is valid. -/
def State.saveTarget (s : State) : Nat := if s.newestCopy = 1 then 2 else 1

/-- LOG_CMD SAVE (R367): the active values are captured, and the rows of the older copy begin to be overwritten; BUSY during a save. The first
GENERATION is 1 (DESIGN CHOICE, log 13). -/
def State.save (s : State) (lock : Bool) : State :=
  let s0 := s.onLog (fun l => { l with logCmd := 1 + (if lock then 4 else 0) })
  if s.log.saving.isSome then s0.onLog (fun l => { l with saveSt := 3, saveWhy := 1 })
  else
    let gen := if s.newestCopy = 0 then 1 else (s.copyGen s.newestCopy + 1) % 2 ^ 32
    s0.onLog (fun l =>
      { l with saving := some { isA := decide (s.saveTarget = 1), gen := gen, lock := lock, words := s.setup.active },
               saveSt := 1, saveWhy := 0 })

end Sys2Proof.Machine
end

