-- ==== Sys2Proof/Machine/RxParse.lean ====
section
/-! DEFINITION. Parsing of received frames (7.1 of 07_receive): tags, the IP and L4 headers within the first 256 bytes, the
checksums of R162, and the keys of R167 and R168. -/
namespace Sys2Proof.Machine

/-- The chain of IPv6 extension headers of the supported receive stack: at most `n` of Hop-by-Hop (0), Routing (43) and
Destination Options (60) (7.1; 6.7 of 06_transmit). -/
def rxChain (l : Bytes) : Nat → Nat → Nat → Option (Nat × Nat)
  | 0, nh, off => if nh = 6 ∨ nh = 17 then some (nh, off) else none
  | n + 1, nh, off =>
    if nh = 0 ∨ nh = 43 ∨ nh = 60 then rxChain l n (byteAt l off) (off + 8 * (byteAt l (off + 1) + 1))
    else if nh = 6 ∨ nh = 17 then some (nh, off) else none

/-- What the parser finds (R159): the number of tags taken, the IP version (0 for non-IP) and the offset of its header, and
the protocol and offset of the L4 header. -/
structure Parsed where
  tags : Nat
  ver  : Nat
  l3   : Nat
  l4   : Option (Nat × Nat)
deriving DecidableEq, Repr

/-- An L4 header that ends within the first 256 bytes (7.1). -/
def l4Seen (p : Bytes) (x : Option (Nat × Nat)) : Option (Nat × Nat) :=
  match x with
  | some (proto, off) =>
    if off + (if proto = 6 then 20 else 8) ≤ p.length ∧ off + l4Header p proto off ≤ p.length then some (proto, off) else none
  | none => none

/-- Parsing a frame (R159, Table 7-1). -/
def parse (l : Bytes) : Parsed :=
  let p := l.take 256
  let n := tagsFrom p 2 12
  let l3 := 14 + 4 * n
  let et := beAt p (12 + 4 * n) 2
  let v := byteAt p l3 / 16
  let ihl := byteAt p l3 % 16
  if et = 0x0800 ∧ v = 4 ∧ 5 ≤ ihl ∧ l3 + 4 * ihl ≤ p.length then
    let pr := byteAt p (l3 + 9)
    { tags := n, ver := 4, l3 := l3,
      l4 := if bits (beAt p (l3 + 6) 2) 0 14 = 0 ∧ (pr = 6 ∨ pr = 17) then l4Seen p (some (pr, l3 + 4 * ihl)) else none }
  else if et = 0x86DD ∧ v = 6 ∧ l3 + 40 ≤ p.length then
    { tags := n, ver := 6, l3 := l3, l4 := l4Seen p (rxChain p 2 (byteAt p (l3 + 6)) (l3 + 40)) }
  else { tags := n, ver := 0, l3 := l3, l4 := none }

/-- L3_CSUM of a frame (R162): 0 not checked, 1 good, 2 bad. -/
def rxL3 (l : Bytes) (p : Parsed) : Nat :=
  if p.ver = 4 then (if onesFold (onesSum 0 (slice l p.l3 (4 * (byteAt l p.l3 % 16)))) = 65535 then 1 else 2) else 0

/-- L4_CSUM of a frame (R162). A UDP checksum of 0 over IPv4 is 0b00 also where the IP length runs past the frame's end, for which R162 has 0b10
as well (DESIGN CHOICE, log 87). -/
def rxL4 (l : Bytes) (p : Parsed) : Nat :=
  match p.l4 with
  | some (proto, off) =>
    let stop := if p.ver = 4 then p.l3 + beAt l (p.l3 + 2) 2 else p.l3 + 40 + beAt l (p.l3 + 4) 2
    if proto = 17 ∧ beAt l (off + 6) 2 = 0 then (if p.ver = 4 then 0 else 2)
    else if l.length < stop ∨ stop < off then 2
    else if onesFold (onesSum 0 (pseudo l (if p.ver = 4 then 0x0800 else 0x86DD) p.l3 proto (stop - off) ++ slice l off (stop - off)))
        = 65535 then 1 else 2
  | none => 0

/-- The addresses of an IP header, as (source, destination). -/
def ipAddrs (l : Bytes) (p : Parsed) : Bytes × Bytes :=
  if p.ver = 4 then (slice l (p.l3 + 12) 4, slice l (p.l3 + 16) 4) else (slice l (p.l3 + 8) 16, slice l (p.l3 + 24) 16)

/-- The flow key of a frame for a function (R167, Table 7-12). -/
def flowKeyOf (l : Bytes) (p : Parsed) (f : Nat) : Option Bytes :=
  match p.l4 with
  | some (proto, off) =>
    let a := ipAddrs l p
    some (le 1 f ++ le 1 p.ver ++ le 1 proto ++ [0] ++ padTo 16 a.1 ++ padTo 16 a.2 ++ slice l off 4)
  | none => none

/-- The input of the hash (Table 7-3); none for a non-IP frame. -/
def hashInput (l : Bytes) (p : Parsed) : Option Bytes :=
  if p.ver = 0 then none
  else
    let a := ipAddrs l p
    some (a.1 ++ a.2 ++ match p.l4 with | some (_, off) => slice l off 4 | none => [])

/-- A tag of a frame: its offset, TPID and TCI. -/
def tagAt (l : Bytes) (i : Nat) : Nat × Nat × Nat := (12 + 4 * i, beAt l (12 + 4 * i) 2, beAt l (14 + 4 * i) 2)

/-- The first 0x8100 tag among the tags from index i on (R166). -/
def ctagFrom (l : Bytes) (n i : Nat) : Option (Nat × Nat × Nat) :=
  (((List.range n).filter (fun j => i ≤ j)).map (tagAt l)).find? (fun t => t.2.1 = 0x8100)

end Sys2Proof.Machine
end

