-- ==== Sys2Proof/Machine/Transmit.lean ====
section
/-! DEFINITION. The transmit commands: buffer reads and the send tests, the grant, the departure, the gates and link idle
(06_transmit; 2.3 of 02_time_and_windows; R201, R202 of 08_the_wire). -/
namespace Sys2Proof.Machine

/-- Changing the send of a ring that begins at a position. -/
def State.setSend (s : State) (n first : Nat) (f : Send → Send) : State :=
  s.setTxr n (fun r => { r with sends := r.sends.map (fun x => if x.first = first then f x else x) })

/-- The bytes of one read request of a buffer from an address on: no more than the max read request size, and none across a 4 KiB boundary
(R79, 04_host_links; PCI Express). -/
def chunkLen (mrrs addr len : Nat) : Nat := min len (min mrrs (4096 - addr % 4096))

/-- Issuing the read requests of one buffer from an offset on. -/
def State.readBuffer (s : State) (fn ring first mrrs i addr len : Nat) : Nat → Nat → State
  | 0, _ => s
  | k + 1, off =>
    if len ≤ off then s
    else
      let n := chunkLen mrrs (addr + off) (len - off)
      State.readBuffer (s.issueRead fn (.txBuf ring first (i * 2 ^ 17 + off)) (addr + off) n) fn ring first mrrs i addr len k (off + n)

/-- Issuing the buffer reads of a send, descriptor by descriptor. A buffer of 65,535 bytes takes at most 529 requests. -/
def State.readBuffers (s : State) (fn ring first : Nat) : Nat → List TxDesc → State
  | _, [] => s
  | i, d :: r => State.readBuffers (s.readBuffer fn ring first (s.maxRead fn) i d.addr d.len 600 0) fn ring first (i + 1) r

/-- TX_BUFFER_READ (R136): the reads of the ring's next send, where the function's allowance and the pool have room. -/
def execTxBufferRead (ring : Fin 640) (s : State) : Host.Outcome State Fault Refusal :=
  .next (let r := s.txr ring
    match r.sends.find? (fun x => x.st = .reads) with
    | some x =>
      if r.state = .active ∧ s.idleEngine [2, 3] = false ∧ s.txHeld r.fn + x.bytes ≤ s.fnTxHold r.fn * 4096 ∧
          cellsOf x.bytes ≤ s.poolFree then
        (s.setSend ring x.first (fun y => { y with st := .filling })).poolMark.readBuffers r.fn ring x.first 0 x.descs
      else s
    | none => s)

/-- The length limit of a frame with T tags on an instance (R151; 7.2 of 07_receive). -/
def State.lenLimit (s : State) (m tags : Nat) : Nat := s.maxlenBytes m + if s.macCfgTagAllow m = 1 then 4 * min tags 2 else 0

/-- The first row of Table 6-4 that a send meets, or 0 (R153). -/
def State.sendTest (s : State) (r : TxRing) (x : Send) : Nat :=
  let a := s.sendAsk r x
  let l := x.held
  let n := l.length
  let big := a.wireLen n 0
  if a.stag.isSome ∧ beAt l 12 2 = 0x88A8 then 1
  else if (a.seg ∨ a.l3c ∨ a.l4c) ∧ (a.stackOk l = false ∨ (a.seg ∧ a.segOk l = false)) then 2
  else if s.lenLimit r.inst (bufTags l + a.ins) < big then 3
  else if (s.gated r.inst).fitsSome r.cls big (s.rate r.inst) = false then 4
  else if a.short n (a.frames n - 1) ∧ s.schCtrlPadEn r.inst = 0 then 5
  else 0

/-- The status that a row of Table 6-4 gives (Table 5-10). -/
def rowStatus (row : Nat) : Nat := if row ≤ 2 then 8 else if row ≤ 4 then 7 else 6

/-- Counting a row of Table 6-4, with its events (R145, R153). -/
def State.rejectSend (s : State) (n : Nat) (r : TxRing) (x : Send) (row : Nat) : State :=
  let s1 := if row = 1 then
      (((s.count .txStagSpoof r.fn).count .txBadHeader n).raiseOnce .txStagSpoof r.fn (le 1 r.fn))
    else if row = 2 then s.count .txBadHeader n
    else if row = 3 then s.count .txTooLong n
    else if row = 4 then s.count .txGateTooLong n
    else s.count .txTooShort n
  s1.raiseOnce .txRejected n (le 2 n ++ le 2 (posIndex (ringN r.size) x.last) ++ le 1 (rowStatus row))

/-- A send whose bytes are all held: the tests of Table 6-4, then it is ready; a candidate in an open class wakes an idle link
(R153, R202). -/
def State.sendHeld (s : State) (n first : Nat) : State :=
  let r := s.txr n
  match r.sends.find? (fun x => x.first = first) with
  | some x =>
    let row := s.sendTest r x
    if row = 0 then
      let s1 := s.setSend n first (fun y => { y with st := .ready })
      if s1.paused r.inst r.cls then s1.wdCheck r.inst
      else if bit ((s1.sch r.inst).gates) r.cls then s1.wakeLink r.inst
      else s1
    else ((s.rejectSend n r x row).setSend n first (fun y => y.fail (rowStatus row))).txComplete n
  | none => s

/-- Buffer bytes arrive for a send (R136): its DMA payload and, once it is whole, its cells written are activity (Table 9-6, 09_tally). -/
def State.bufferIn (s : State) (n first i len : Nat) (data : Bytes) : State :=
  match (s.txr n).sends.find? (fun x => x.first = first) with
  | some x =>
    if x.st = .filling then
      let s1 := (((s.settle (s.txr n).inst).dmaUse (s.txr n).fn len).setSend n first (fun y =>
        { y with data := Tbl.insert y.data i ((padTo len data).take len) }))
      if (x.data.map (fun e => e.2.length)).sum + len = x.bytes then
        (s1.uses .hamper (s.txr n).fn (cellsOf x.bytes)).sendHeld n first
      else s1
    else s
  | none => s

/-- Descriptors arrive as complete messages of the descriptor cache (R69); each is activity of its function (Table 9-6, 09_tally). -/
def State.messagesIn (s : State) (fn : Nat) (rx : Bool) (ring size pos : Nat) (data : Bytes) : Nat → State
  | 0 => s
  | k + 1 =>
    let t := State.messagesIn s fn rx ring size pos data k
    let p := advance (if rx then ringN (s.rxr ring).size else ringN (s.txr ring).size) pos k
    (t.msgWaits { fn := fn, kind := if rx then .rx ring p else .tx ring p, data := padTo size (slice data (size * k) size) }).recordUse fn size

/-- READ_COMPLETION (R69, R79): the tag is free again; a void tag's completion is discarded, and after a timeout it counts as
unexpected; an error is a read error of the function. -/
def execReadCompletion (tag : Nat) (good : Bool) (data : Bytes) (s : State) : Host.Outcome State Fault Refusal :=
  .next (match s.readOf tag with
    | some r =>
      let s1 := s.dropTag tag
      if r.void then (if r.timedOut then s1.aer (s.fnLink r.fn) true else s1)
      else if r.kind = .enrol then s.enrolRecord r.fn good data
      else if good = false then s1.readError r.fn
      else
        match r.kind with
        | .txDesc ring pos k => s1.messagesIn r.fn false ring 32 pos data k
        | .rxDesc ring pos k => s1.messagesIn r.fn true ring 16 pos data k
        | .txBuf ring first i => s1.bufferIn ring first i r.len data
        | .enrol | .firmware => s1
    | none => s)

/-! ### The grant -/

/-- A gate-deferred candidate counts once for each window of its class (R130, 6.11). -/
def State.gateDefer (s : State) (m c close : Nat) : State :=
  if Tbl.find (s.sch m).deferAt c = some close then s
  else (s.setSch m (fun x => { x with deferAt := Tbl.insert x.deferAt c close })).countCls .gateDefer c m

/-- The grant of a candidate with its departure at t of `elapsed` (R130 to R135, R111): its send is committed, its queue entry reserved, its function
charged. -/
def State.grantCand (s : State) (m c : Nat) (y : Cand) (t : Nat) : State :=
  let r := s.txr y.ring
  match r.sends.find? (fun x => x.first = y.first) with
  | some x =>
    let a := s.sendAsk r x
    let f : CurFrame := { ring := y.ring, first := y.first, seg := y.seg, cls := c, at_ := s.timeAt t, start := t,
                          bytes := a.wire x.held y.seg, flags := x.flags, padded := a.short x.bytes y.seg, fn := y.fn,
                          quiet := false, held := false }
    let s1 := if x.rsvCq then s else s.cqReserve r.cq
    let s2 := (s1.setSend y.ring y.first (fun z => { z with st := .granted (y.seg + 1), rsvCq := true })).setSch m (fun q =>
      { q with cur := some f, lastFn := tput q.lastFn c y.fn, lastRg := tput q.lastRg (cfKey c y.fn) y.ring,
               deficit := tput q.deficit (cfKey c y.fn) (tget q.deficit (cfKey c y.fn) - y.len),
               deferAt := Tbl.erase q.deferAt c })
    let s3 := (s2.charge y.fn y.len).setFn y.fn (fun q => { q with throttled := q.throttled.filter (· ≠ y.ring) })
    (s3.endLpi m).tidy m c
  | none => s

/-- The decision for one instance, from the highest class down (6.1): answers the state and whether a frame was granted. -/
def State.grantScan (m t : Nat) : Nat → State → State
  | 0, s => s
  | c + 1, s =>
    let l := s.cands m c
    if s.classOpen m c (s.timeAt t) ∧ l ≠ [] then
      let s0 := s.throttle m c l
      match s0.dwrr m c l with
      | some (y, d) =>
        let s1 := s0.setSch m (fun x => { x with deficit := d, lastFn := tput x.lastFn c y.fn })
        match (s1.gated m).closeOf c (s.timeAt t) with
        | some close =>
          if fits (s.timeAt t) y.len (s1.rate m) close then s1.grantCand m c y t
          else State.grantScan m t c (s1.gateDefer m c close)
        | none => s1.grantCand m c y t
      | none => State.grantScan m t c s0
    else State.grantScan m t c s

/-- GRANT (R130): the scheduler's decision for an instance with no current frame whose link is Up; a control frame that waits goes ahead (R197,
08_the_wire). `ready` is how long from now, in u, until the link can carry a frame (R131). With a current frame or a waiting control frame
there is nothing to decide yet (DEDUCED, log 75). -/
def execGrant (m : Fin 16) (ready : Nat) (s : State) : Host.Outcome State Fault Refusal :=
  .next (if s.canGrant m ∧ s.instExists m ∧ (s.mac m).link = .up ∧ (s.sch m).cur = none ∧ (s.sch m).ctrl = [] then
      let s1 := s.settle m
      State.grantScan m (s1.startAt m ready) 8 s1
    else s)

/-! ### The departure -/

/-- The bucket of a frame size by its wire length (R216, 09_tally). -/
def sizeBucket (l : Nat) : Nat :=
  if l ≤ 64 then 0 else if l ≤ 127 then 1 else if l ≤ 255 then 2 else if l ≤ 511 then 3 else if l ≤ 1023 then 4
  else if l ≤ 1518 then 5 else if l ≤ 2047 then 6 else if l ≤ 4095 then 7 else if l ≤ 8191 then 8 else 9

def txSize (b : Nat) : Ctr :=
  match b with
  | 0 => .txSize0
  | 1 => .txSize1
  | 2 => .txSize2
  | 3 => .txSize3
  | 4 => .txSize4
  | 5 => .txSize5
  | 6 => .txSize6
  | 7 => .txSize7
  | 8 => .txSize8
  | _ => .txSize9

/-- 0 unicast, 1 multicast, 2 broadcast, by the destination address (R216, 09_tally). -/
def castOf (l : Bytes) : Nat := if beAt l 0 6 = 2 ^ 48 - 1 then 2 else byteAt l 0 % 2

/-- The counters of a departed frame built from a send (R216, R218, 09_tally), and its activity (Table 9-6). -/
def State.txCounters (s : State) (m : Nat) (f : CurFrame) (len : Nat) (seg padded : Bool) : State :=
  let k := castOf f.bytes
  let s1 := ((s.countCls .txFrames f.cls m).countN .txOctets f.cls m len).count
    (if k = 2 then .txBcast else if k = 1 then .txMcast else .txUcast) m
  let s2 := s1.count (txSize (sizeBucket len)) m
  let s3 := if seg then s2.count .txSegments m else s2
  let s4 := if padded then s3.count .txPadded m else s3
  ((((s4.count .fnTxFrames f.fn).countN .fnTxOctets 0 f.fn len).wireUse m f.fn len).uses .sched f.fn len).uses .hamper f.fn
    (cellsOf f.bytes.length)

/-- The departure timestamp in u: the departure time plus TX_ADJ, truncated to 1/65,536 ns (2.3). -/
def State.txStamp (s : State) (m at_ : Nat) : Nat :=
  let u := ((at_ : Int) + signed 16 (s.tsAdjTxAdj m) * 2 ^ 32 / 1000).toNat
  u / 2 ^ 16 * 2 ^ 16

/-- A send's frame has departed (R150, R111): its completion when it was the last. -/
def Send.departed (x : Send) (frames len t64 : Nat) (skip : Bool) : Send :=
  { x with sent := x.sent + 1, len := x.len + len, time64 := if x.sent = 0 then t64 else x.time64, skip := x.skip || skip,
           st := if frames ≤ x.sent + 1 then .done else x.st,
           status := if frames ≤ x.sent + 1 ∧ x.late then 5 else x.status }

/-- A one-step request that is not honoured (R61): counted, and reported once a second for the instance. -/
def State.oneStepSkip (s : State) (m : Nat) : State := (s.count .onestepSkip m).raiseOnce .tsOnestepSkip m (le 1 m)

/-- The frame on an instance departs (R131, R51, R61, R111, R214): bytes on the wire, counters, and its send; a frame of an evicted function
completes nothing (R98 step 3, 04_host_links). -/
def State.depart (s : State) (m : Nat) (f : CurFrame) : State :=
  let stamp := s.txStamp m f.at_
  let r := s.txr f.ring
  let x := if f.quiet then none else r.sends.find? (fun x => x.first = f.first)
  let seg := bit f.flags 3
  let ask := bit f.flags 2
  let done := if ask ∧ seg = false ∧ bit s.tsOnestepEnEn m then oneStep f.bytes stamp else none
  let skip := ask && done.isNone
  let len := f.bytes.length + 4
  let s0 := if skip ∧ f.seg = 0 then s.oneStepSkip m else s
  let s1 := ((s0.emit (.wire m f.at_ (withFcs (done.getD f.bytes)))).txCounters m f len seg f.padded).setSch m (fun q =>
    { q with cur := none, free := f.start + bitsU ((8 + len + 12) * 8) (s.rate m),
             sending := some (f.cls, f.start, f.start + wireU len (s.rate m)) })
  match x with
  | some y =>
    ((s1.setSend f.ring f.first (fun z =>
      z.departed ((s.sendAsk r y).frames y.bytes) len (time64Of stamp) skip)).txComplete f.ring).flowAll.wdCheck m
  | none => s1

/-- FRAME_DEPARTURE (R131): the current frame leaves; one whose grant was kept through a Down waits for the link (R188), and none
leaves in a Verdict (R237, 10_engine_pair). What waits for the last frame on the wire follows (R248, R250, 10_engine_pair). -/
def execFrameDeparture (m : Fin 16) (s : State) : Host.Outcome State Fault Refusal :=
  .next (match (s.sch m).cur with
    | some f => if f.held ∨ s.pair.verdict then s else ((s.settle m).depart m f).wireIdle
    | none => s)

/-! ### Gates -/

/-- GATE_EVENT (R139, R9): the gates of the list entry at the present instant take effect. -/
def execGateEvent (m : Fin 16) (s : State) : Host.Outcome State Fault Refusal := .next ((s.settle m).gateRefresh m)

/-- The ring of a committed segmentation send of class c whose next segment fits no window of the operating list (R155). -/
def State.stuckRing (s : State) (m c : Nat) : Option Nat :=
  ((s.cands m c).find? (fun y => 0 < y.seg && !(s.gated m).fitsSome c y.len (s.rate m))).map (fun y => y.ring)

/-- STUCK of one class (R155): set, with GATE_STUCK once, or cleared. -/
def State.stuckOne (m : Nat) (s : State) (c : Nat) : State :=
  let was := bit (s.sch m).stuck c
  match s.stuckRing m c with
  | some ring =>
    if was then s
    else (s.setSch m (fun x => { x with stuck := x.stuck + 2 ^ c })).raise .gateStuck (le 1 m ++ le 1 c ++ le 2 ring)
  | none => if was then s.setSch m (fun x => { x with stuck := x.stuck - 2 ^ c }) else s

def State.stuckCheck (s : State) (m : Nat) : State := (List.range 8).foldl (State.stuckOne m) s

/-- A ready send, never granted, whose wire time exceeds every window of its class completes under row 4 of Table 6-4 (R155); one that counts as
committed does not (R245, 10_engine_pair). -/
def State.retestSend (n : Nat) (s : State) (x : Send) : State :=
  let r := s.txr n
  let big := (s.sendAsk r x).wireLen x.bytes 0
  if x.st = .ready ∧ (x.reissue && behind (ringN r.size) x.first r.commit) = false ∧
      (s.gated r.inst).fitsSome r.cls big (s.rate r.inst) = false then
    (s.rejectSend n r x 4).setSend n x.first (fun y => y.fail 7)
  else s

/-- The sends of one ring are held against the instance's list. -/
def State.retestRing (s : State) (n : Nat) : State := ((s.txr n).sends.foldl (State.retestSend n) s).txComplete n

/-- The gate lists of an instance have changed: sends that fit no window complete, and committed ones are stuck, or resume (R155). -/
def State.gateLists (s : State) (m : Nat) : State :=
  (((s.tx.filter (fun e => e.2.state ≠ .unused && e.2.inst = m)).map (fun e => e.1)).foldl State.retestRing s).stuckCheck m

/-- GCL_APPLIED (R140): at its start instant S the pending list becomes the operating one. -/
def execGclApplied (m : Fin 16) (s : State) : Host.Outcome State Fault Refusal :=
  .next (match (s.sch m).pend with
    | some g =>
      let s1 := ((s.settle m).setSch m (fun x => { x with oper := some g, pend := none })).gateRefresh m
      (s1.raise .gclApplied (le 1 m ++ le 8 (time64Of g.start))).gateLists m
    | none => s)

/-! ### Link idle (R143, R201, R202) -/

/-- The gate of a class with a candidate is closed now and opens next at an instant before now + Tw (R143). -/
def State.opensSoon (s : State) (m c : Nat) : Bool :=
  !(s.cands m c).isEmpty && !bit ((s.gated m).gatesAt s.time.now) c &&
    ((s.gated m).nextOpen c s.time.now).any (fun t => decide (t ≤ s.time.now + (s.mac m).tw * uNs))

/-- TX_EARLY_WAKE (R143): the wake requested Tw ahead of the opening of a class with a candidate. -/
def execTxEarlyWake (m : Fin 16) (s : State) : Host.Outcome State Fault Refusal :=
  .next (if ((s.mac m).txLpi ∨ (s.mac m).entering.isSome) ∧ (s.sch m).wakeReq = none ∧ (List.range 8).any (s.opensSoon m) then
      (s.wakeLink m).count .txEarlyWake m
    else s)

/-- A class has a candidate that could be granted but for the instance's state (R201). -/
def State.wantsWire (s : State) (m c : Nat) : Bool :=
  !(s.cands m c).isEmpty && !s.paused m c && bit ((s.gated m).gatesAt s.time.now) c

/-- The conditions of R201 for transmit LPI, but for the length of the window. -/
def State.lpiIdles (s : State) (m : Nat) : Bool :=
  s.macCfgLpiEn m = 1 && (s.mac m).lpiCap && decide ((s.mac m).link = .up) && !(s.mac m).txLpi && (s.mac m).entering.isNone &&
    (s.sch m).cur.isNone && (s.sch m).ctrl.isEmpty && (List.range 8).all (fun c => !s.wantsWire m c && !s.opensSoon m c)

/-- LPI_IDLE of an instance in force, in u: the Foreman's knob 8 where it has left its base, otherwise the instance's own (Table 14-1, log 76). -/
def State.lpiIdleLen (s : State) (m : Nat) : Nat :=
  (if (s.knob 8).applied = s.lpiIdleUs 0 then s.lpiIdleUs m else (s.knob 8).applied.toNat) * uUs

/-- LPI_ENTRY: the LPI_IDLE window closes, its conditions having held throughout, and entry signalling begins (R201); or the far end puts the
receive direction into LPI (R202). -/
def execLpiEntry (m : Fin 16) (rx : Bool) (s : State) : Host.Outcome State Fault Refusal :=
  .next (if rx then
      (if (s.mac m).link = .up ∧ (s.mac m).lpiCap ∧ (s.mac m).rxLpi = false then
        s.setMac m (fun x => { x with rxLpi := true, rxLpiAt := s.time.elapsed })
      else s)
    else if s.lpiIdles m ∧ (s.sch m).idle.any (fun w => decide (w.1 + w.2 ≤ s.time.elapsed)) then
      (s.setMac m (fun x => { x with entering := some (s.time.elapsed + (Config.lpiSleep (s.rate m / 1000) x.fec).toNat * uNs) })).setSch m
        (fun x => { x with idle := none, wakeReq := none })
    else s)

/-- One instance in a J-cycle that begins (R201): entry signalling ends, with the entry counted, and the LPI_IDLE window opens where its
conditions have come to hold, or ends where they hold no more. -/
def State.lpiTick (s : State) (m : Nat) : State :=
  match (s.mac m).entering with
  | some e =>
    if e ≤ s.time.elapsed then
      (s.setMac m (fun x => { x with txLpi := true, entering := none, lpiAt := s.time.elapsed })).count .txLpiEntries m
    else s
  | none =>
    if s.lpiIdles m then
      (if (s.sch m).idle.isSome then s else s.setSch m (fun x => { x with idle := some (s.time.elapsed, s.lpiIdleLen m) }))
    else if (s.sch m).idle.isSome then s.setSch m (fun x => { x with idle := none })
    else s

/-- Link idle on every instance in a J-cycle that begins. -/
def State.lpiTicks (s : State) : State := (List.range 16).foldl State.lpiTick s

end Sys2Proof.Machine
end

