-- ==== Sys2Proof/Machine/Receive.lean ====
section
/-! DEFINITION. Received frames: the length and FCS tests, classification, admission to the Hamper, MAC control frames, and
delivery into the receive rings (07_receive; 5.5, 5.10 of 05_rings_and_doorbells; R192 of 08_the_wire). -/
namespace Sys2Proof.Machine

/-! ### MAC control frames (8.4 of 08_the_wire) -/

/-- The MAC address of an instance, byte 0 of the field first (Table 8-9). -/
def State.macAddr (s : State) (m : Nat) : Nat := s.macAddrLoAddr m + s.macAddrHiAddr m * 2 ^ 32

/-- A received pause, with its classes and their quanta, is registered 40 ns after its last bit (R193). -/
def State.pauseIn (s : State) (m : Nat) (l : List (Nat × Nat)) : State :=
  if l = [] then s else s.setMac m (fun x => { x with ctrlIn := x.ctrlIn ++ [(s.time.elapsed + 40 * uNs, l)] })

/-- The classes that a PFC frame names and that are enabled (Table 8-4 row 3). -/
def State.pfcClasses (s : State) (m : Nat) (l : Bytes) : List Nat :=
  (List.range 8).filter (fun p => bit (beAt l 16 2) p && bit (s.macCfgPfcEn m) p)

/-- A received MAC control frame (R192, Table 8-4; R199 while the instance ignores pauses). -/
def State.macControl (s : State) (m : Nat) (f : RxFrame) : State :=
  let l := f.bytes
  let len := l.length + 4
  let op := beAt l 14 2
  if f.fcsGood = false ∨ len < 64 ∨ s.maxlenBytes m < len ∨ (beAt l 0 6 ≠ 0x0180C2000001 ∧ leAt l 0 6 ≠ s.macAddr m) then
    s.count .ctrlBad m
  else if op = 1 ∧ s.macCfgFcMode m = 1 then
    let s1 := s.count .pauseRx m
    if (s.mac m).ignoring then s1.count .pauseIgnored m else s1.pauseIn m ((List.range 8).map (fun c => (c, beAt l 16 2)))
  else if op = 0x0101 ∧ s.macCfgFcMode m = 2 then
    let cs := s.pfcClasses m l
    let s1 := cs.foldl (fun t c => t.countCls .pfcRx c m) s
    if (s.mac m).ignoring then s1.count .pauseIgnored m
    else s1.pauseIn m (cs.map (fun c => (c, beAt l (18 + 2 * c) 2)))
  else if op = 1 ∨ op = 0x0101 then s.count .ctrlIgnored m
  else s.count .ctrlUnknown m

/-! ### The LLDP agent (R203, 08_the_wire) -/

/-- The Receive Tw in µs of the IEEE 802.3 EEE TLV (type 127, OUI 00-12-0F, subtype 5) of an LLDPDU, from an offset on. -/
def lldpTw (l : Bytes) : Nat → Nat → Option Nat
  | 0, _ => none
  | n + 1, off =>
    let h := beAt l off 2
    let len := h % 512
    if h = 0 then none
    else if h / 512 = 127 ∧ beAt l (off + 2) 3 = 0x00120F ∧ byteAt l (off + 5) = 5 then some (beAt l (off + 8) 2)
    else lldpTw l n (off + 2 + len)

/-- A write of LPI_TW: a value below LPI_TW_MIN is raised to it, and reported (R203). -/
def State.lpiTwWrite (s : State) (m v : Nat) : State :=
  let min_ := (s.mac m).twMin
  let s1 := s.setMac m (fun x => { x with tw := max v min_ })
  if v < min_ then s1.raise .lpiTwClamped (le 1 m ++ le 3 v ++ le 3 min_) else s1

/-- The firmware agent consumes an LLDP frame and settles LPI_TW (R203): the far end's Receive Tw, raised to LPI_TW_MIN. -/
def State.lldpIn (s : State) (m : Nat) (l : Bytes) : State :=
  let s1 := s.count .lldpRx m
  match lldpTw l 64 14 with
  | some us => s1.lpiTwWrite m (min (2 ^ 20 - 1) (us * 1000))
  | none => s1

/-! ### Classification (7.4) -/

/-- The TF whose forced S-tag a frame carries (R164). -/
def State.stagOwner (s : State) (l : Bytes) : Option Nat :=
  if beAt l 12 2 = 0x88A8 then
    (List.range 64).find? (fun t => s.profCtrlStagForce t = 1 && s.profCtrlStagVid t = beAt l 14 2 % 4096)
  else none

/-- The candidates of a frame (R163). -/
def State.rxCands (s : State) (owner : Option Nat) : List Nat :=
  match owner with
  | some t => [t]
  | none => (List.range 68).filter (fun f => isOf f || s.profCtrlStagForce f = 0)

/-- The DA entries that may be in use, by rising index: an entry in use has its HI word set. -/
def State.daEntries (s : State) : List Nat :=
  (s.setup.active.filter (fun e => decide (0x28000 ≤ e.1 ∧ e.1 < 0x30000 ∧ e.1 % 8 = 4))).map (fun e => (e.1 - 0x28004) / 8)

/-- A DA entry matches an address on a port for one of the candidates (R165). -/
def State.daHit (s : State) (l : Bytes) (m : Nat) (cands : List Nat) (i : Nat) : Bool :=
  s.daEntryHiValid i = 1 && decide (s.daEntryLoAddr i + s.daEntryHiAddr i * 2 ^ 32 = leAt l 0 6) &&
    bit (s.daEntryHiPorts i) (m / 8) && cands.contains (s.daEntryHiFn i)

/-- The destination-address match (R165). -/
def State.daMatch (s : State) (l : Bytes) (m : Nat) (cands : List Nat) : List Nat :=
  let hits := s.daEntries.filter (s.daHit l m cands)
  match castOf l with
  | 0 => (hits.take 1).map s.daEntryHiFn
  | 2 => cands.filter (fun f => s.rxFnBcastEn f = 1)
  | _ =>
    let h := crcPlain 1 (l.take 6) % 4096
    cands.filter (fun f => hits.any (fun i => s.daEntryHiFn i = f) || (s.rxFnMcastEn f = 1 && bit (s.mcastHash f (h / 32)) (h % 32)))

/-- The C-tag filter (R166). -/
def State.ctagOk (s : State) (f : Nat) (tag : Option (Nat × Nat × Nat)) : Bool :=
  if s.rxFnVlanEn f = 0 then true
  else
    match tag with
    | some (_, _, tci) =>
      if tci % 4096 = 0 then s.rxFnUntaggedOk f = 1 else bit (s.vlanFilter f (tci % 4096 / 32)) (tci % 4096 % 32)
    | none => s.rxFnUntaggedOk f = 1

/-- A local receive ring of a function that exists (R177). -/
def State.rxLocal (s : State) (f loc : Nat) : Option Nat :=
  let n := s.ringAllocRxBase f + loc
  if (s.rxr n).state = .active ∧ (s.rxr n).fn = f then some n else none

/-- The 40-byte Toeplitz key of a function, and its indirection entry j (Table 7-9). -/
def State.hashKeyOf (s : State) (f : Nat) : Bytes := ((List.range 10).map (fun i => le 4 (s.hashKey f i))).flatten
def State.indirOf (s : State) (f j : Nat) : Nat := bits (s.field (fnWindowKey f (0x23680 + 4 * (j / 4))) 0 32) (8 * (j % 4)) 5

/-- The active flow entry of a key (R167). -/
def State.flowOf (s : State) (key : Option Bytes) : Option FlowEntry :=
  key.bind (fun k => (s.setup.flows.find? (fun e => e.2.key = k)).map (fun e => e.2))

/-- One function's copy (R163, R167, R168, R171, R177): its ring, or none where it has none. -/
def State.copyFor (s : State) (l : Bytes) (p : Parsed) (owner : Option Nat) (f : Nat) : Option RxCopy :=
  let flow := s.flowOf (flowKeyOf l p f)
  let hash := if s.rxFnHashEn f = 1 then (hashInput l p).map (toeplitz (s.hashKeyOf f)) else none
  let loc := match flow, hash with
    | some e, _ => e.ring
    | none, some h => s.indirOf f (h % 128)
    | none, none => s.rxFnDefaultRing f
  let tag := ctagFrom l p.tags (if owner.isSome then 1 else 0)
  let strip := if s.rxFnStripC f = 1 then tag else none
  (match s.rxLocal f loc with | some n => some n | none => s.rxLocal f (s.rxFnDefaultRing f)).map (fun n =>
    { fn := f, ring := n, flowHit := flow.isSome, hash := hash,
      strip := match strip with | some (off, _, _) => 1 + off | none => 0,
      tci := match strip with | some (_, _, tci) => tci | none => 0, stag := owner.isSome, store := false, dma := false, written := 0,
      slotsN := 0, lastPos := 0, cookie := 0, reserve := false })

/-- The traffic class of a frame on receive (R170). -/
def State.rxClass (s : State) (m : Nat) (l : Bytes) (p : Parsed) : Nat :=
  if p.tags = 0 then s.rxCtrlDefaultClass m else bits (s.rxPcpMapMap m) (3 * (beAt l 14 2 / 2 ^ 13)) 3

/-- The copy for an instance's default ring (R161, R169), if that ring exists. An unmatched frame is stripped under R171, the mapped S-tag and the
C-tag considered under R166; one with a bad FCS (`kept`) is never classified, keeps its tags, and is delivered in Store mode (log 66). -/
def State.defaultCopy (s : State) (m : Nat) (l : Bytes) (p : Parsed) (kept : Bool) : Option RxCopy :=
  let f := 64 + s.rxCtrlDefOf m
  let owner := s.stagOwner l
  let strip := if kept = false ∧ s.rxFnStripC f = 1 then ctagFrom l p.tags (if owner.isSome then 1 else 0) else none
  (s.rxLocal f (s.rxCtrlDefRing m)).map (fun n =>
    { fn := f, ring := n, flowHit := false, hash := none,
      strip := match strip with | some (off, _, _) => 1 + off | none => 0,
      tci := match strip with | some (_, _, tci) => tci | none => 0, stag := !kept && owner.isSome, store := kept, dma := false,
      written := 0, slotsN := 0, lastPos := 0, cookie := 0, reserve := false })

/-- A frame dropped under R169 or R177. -/
def State.unmatchedDrop (s : State) (m : Nat) : State := (s.count .rxUnmatchedDrop m).raiseOnce .rxUnmatchedDrop m (le 1 m)

/-! ### Admission (R172, R175) -/

/-- The walk over a frame's cells: the cells it has taken so far, cells from each part, and the copies still held with those refused. -/
structure Adm where
  cell    : Nat
  pool    : Nat
  head    : Nat
  resv    : Nat
  copies  : List RxCopy
  refused : List (RxCopy × Nat × Nat)   -- with the cause: 1 pool, 2 function, 3 queue, 4 headroom; and the cells held before
deriving DecidableEq, Repr

/-- The shared test of R172 for a copy at a cell, with the cells the frame already holds: 0 passes, otherwise the cause. -/
def State.sharedTest (s : State) (cls : Nat) (a : Adm) (x : RxCopy) : Nat :=
  let free := s.poolFree - a.pool
  let own := a.pool + a.head + a.resv
  if free = 0 then 1
  else if s.rxFnCapCells x.fn ≤ s.occFn x.fn + own then 2
  else if alphaOk (s.occQ x.fn cls + own) (s.knob (9 + cls)).applied free then 0
  else 3

/-- One cell of a single-copy frame (R172). -/
def State.admitSingle (s : State) (m cls : Nat) (a : Adm) (x : RxCopy) : Adm :=
  let t := s.sharedTest cls a x
  if t = 0 then { a with cell := a.cell + 1, pool := a.pool + 1 }
  else if s.pfcOn m cls ∧ 0 < s.headFree m - a.head then { a with cell := a.cell + 1, head := a.head + 1 }
  else if isOf x.fn ∧ 0 < s.reserveFree - a.resv then { a with cell := a.cell + 1, resv := a.resv + 1 }
  else { a with copies := [], refused := [(x, if s.pfcOn m cls then 4 else t, a.cell)] }

/-- One cell of a replicated frame (R172): every copy it still holds is tested. -/
def State.admitMany (s : State) (cls : Nat) (a : Adm) : Adm :=
  let bad := a.copies.filter (fun x => s.sharedTest cls a x ≠ 0)
  let ok := a.copies.filter (fun x => s.sharedTest cls a x = 0)
  { a with cell := a.cell + 1, copies := ok, refused := a.refused ++ bad.map (fun x => (x, s.sharedTest cls a x, a.cell)),
           pool := if ok = [] then a.pool else a.pool + 1 }

/-- Admitting a frame cell by cell (R172). -/
def State.admitCells (s : State) (m cls : Nat) (single : Bool) : Nat → Adm → Adm
  | 0, a => a
  | n + 1, a =>
    match a.copies with
    | [] => a
    | x :: _ => State.admitCells s m cls single n (if single then s.admitSingle m cls a x else s.admitMany cls a)

/-- Early-mode DMA of a copy has begun by the time that some cells of its frame are held (R116): 512 bytes are in the Hamper, its ring is idle, and
its first buffer and an entry are free. -/
def State.dmaStarts (s : State) (c : RxCopy) (inc : Bool) (cells : Nat) : Bool :=
  let r := s.rxr c.ring
  r.early && !c.store && decide (2 ≤ cells) && r.wait.isEmpty && !(r.buffers inc).isEmpty && decide (0 < (s.cqr r.cq).freeSlots) &&
    s.rxHalted inc = false

/-- A copy refused after its DMA has begun completes ABANDONED (R178, R126). How many of the bytes held had been written by then is a free value,
at least 1 and at most what the cells and the buffers hold (log 67). -/
def State.abortCopy (s : State) (h : HFrame) (c : RxCopy) (cells : Nat) : State :=
  let r := s.rxr c.ring
  let l := (c.payload h.bytes).take (256 * cells)
  let room := ((r.buffers h.inc).map (fun x => x.len)).sum
  let len := 1 + s.freeNat 32 % min l.length room
  let used := fillSlots (r.buffers h.inc) len
  let last := (used.getLast?.map (fun x => x.pos)).getD 0
  let cookie := (used.head?.map (fun x => x.cookie)).getD 0
  let s1 := s.useFree.writeSlots c.fn (s.fn c.fn).ro used (l.take len)
  let s2 := s1.rxFinish c.ring h.inc (rxCpl c.ring r h c 9 used.length len last cookie) false used
  (s2.rxAbandon c.ring used.length len).rxAdvance c.ring

/-- A refused copy: its cause counts (R172, R175), and where its DMA had begun it completes as abandoned (R178). -/
def State.refuse (h : HFrame) (s : State) (r : RxCopy × Nat × Nat) : State :=
  let f := r.1.fn
  let s1 := if s.dmaStarts r.1 h.inc r.2.2 then s.abortCopy h r.1 r.2.2 else s
  if r.2.1 = 4 then (s1.countCls .pfcHeadroomDrop h.cls h.inst).raise .pfcHeadroomDrop (le 1 h.inst ++ le 1 h.cls)
  else
    let s2 := if r.2.1 = 1 ∨ r.2.1 = 2 then s1 else s1.dropMark h.cls
    (s2.countCls (if r.2.1 = 1 then .hamperPoolDrop else if r.2.1 = 2 then .hamperFnDrop else .hamperQDrop) h.cls f).raiseOnce
      .rxHamperDrop f (le 1 f ++ le 1 h.cls ++ le 1 r.2.1)

/-- The copies of a frame join the queues of their rings in arrival order (R117); those held in the reserve count (Table 9-3), and the cells
written for each are its activity (Table 9-6, 09_tally). -/
def State.queueCopies (s : State) (g : HFrame) : State :=
  g.copies.foldl (fun t c =>
    let t1 := (t.setRxr c.ring (fun r => { r with wait := r.wait ++ [g.id] })).uses .hamper c.fn g.cells
    if c.reserve then t1.count .reserveUsed (c.fn - 64) else t1) s

/-- Admitting a frame with its copies: the refused ones counted, the others queued (R172). The cells it takes on the way can reach XOFF, and those
that a frame without copies gives back XON (R174). -/
def State.takeFrame (s : State) (h : HFrame) : State :=
  let single := decide (h.copies.length = 1)
  let a := s.admitCells h.inst h.cls single (cellsOf h.bytes.length)
    { cell := 0, pool := 0, head := 0, resv := 0, copies := h.copies, refused := [] }
  let id := s.hamper.nextId
  let first := 0 < a.resv ∧ s.reserveFree = 1024
  let g := s.pipeIn { h with id := id, pool := a.pool, head := a.head, resv := a.resv,
                             copies := a.copies.map (fun c => { c with reserve := 0 < a.resv }) }
  let s1 := (s.onHamper (fun x =>
    { x with frames := x.frames ++ [g], nextId := id + 1,
             pipe := if a.copies = [] then x.pipe else tput x.pipe (h.inst / 8) g.pipeTo })).poolMark.flowCheck h.inst
  let s2 := a.refused.foldl (State.refuse h) s1
  let s3 := if first then s2.raise .hamperReserveEntered [] else s2
  if a.copies = [] then (s3.onHamper (fun x => { x with frames := x.frames.filter (fun y => y.id ≠ id) })).flowCheck h.inst
  else s3.queueCopies g

/-! ### A received frame -/

/-- The receive timestamp (2.3) of an instant inside the present J-cycle: scaled by the J-cycle's increment, truncated to 1/65,536 ns,
less RX_ADJ. -/
def State.rxStamp (s : State) (m offset : Nat) : Nat :=
  let inc : Int := Int.ofNat uJ + s.time.rate
  let part := (Int.ofNat (offset * 2 ^ 16) * inc / Int.ofNat uJ).toNat
  let u : Nat := (s.time.now + part) / 2 ^ 16 * 2 ^ 16
  ((u : Int) - signed 16 (s.tsAdjRxAdj m) * 2 ^ 32 / 1000).toNat

def rxSize (b : Nat) : Ctr :=
  match b with
  | 0 => .rxSize0
  | 1 => .rxSize1
  | 2 => .rxSize2
  | 3 => .rxSize3
  | 4 => .rxSize4
  | 5 => .rxSize5
  | 6 => .rxSize6
  | 7 => .rxSize7
  | 8 => .rxSize8
  | _ => .rxSize9

/-- The counters of a classified frame (Table 9-3, R216). -/
def State.rxCounters (s : State) (m cls len : Nat) (big : Bool) (cast l3 l4 : Nat) : State :=
  let s1 := if big then (s.count .rxOversize m).raiseOnce .rxOversize m (le 1 m) else s
  let s2 := (s1.countCls .rxFrames cls m).countN .rxOctets cls m len
  let s3 := s2.count (if cast = 2 then .rxBcast else if cast = 1 then .rxMcast else .rxUcast) m
  let s4 := s3.count (if big then .rxSizeOver else rxSize (sizeBucket len)) m
  let s5 := if l3 = 2 then s4.count .rxL3Bad m else s4
  if l4 = 2 then s5.count .rxL4Bad m else s5

/-- The held frame before admission. -/
def State.hframe (s : State) (m cls len fcs : Nat) (big : Bool) (stamp l3 l4 : Nat) (l : Bytes) (copies : List RxCopy) :
    HFrame :=
  { id := s.hamper.nextId, inst := m, cls := cls, bytes := l, wireLen := len, time64 := time64Of stamp, fcs := fcs,
    oversize := big, l3 := l3, l4 := l4, copies := copies, pipeAt := 0, pipeTo := 0, inc := s.planned, pool := 0, head := 0, resv := 0 }

/-- The wire bytes of a frame are activity of the functions of its copies in equal parts, or of the operator (R226, Table 9-6, 09_tally). -/
def State.rxUse (s : State) (m len : Nat) (copies : List RxCopy) : State :=
  if copies = [] then s.wireUse m actOperator len
  else copies.foldl (fun t c => t.use (.port (m / 8)) c.fn (len * actScale / copies.length)) s

/-- A frame with its copies is admitted, and its wire bytes are theirs. -/
def State.enterHamper (s : State) (h : HFrame) (copies : List RxCopy) : State :=
  let s1 := s.rxUse h.inst h.wireLen copies
  if copies = [] then s1 else s1.takeFrame { h with copies := copies }

/-- A copy chosen for a function that is not Enrolled, or without a ring, is dropped before admission (R177). -/
def State.copyOne (l : Bytes) (p : Parsed) (owner : Option Nat) (t : State × List RxCopy) (f : Nat) : State × List RxCopy :=
  match (t.1.fn f).state with
  | .enrolled =>
    match t.1.copyFor l p owner f with
    | some c => (t.1, t.2 ++ [c])
    | none => (t.1.count .rxNoRing f, t.2)
  | .evicting => (t.1.count .evictDrop f, t.2)
  | _ => (t.1.count .rxFnDown f, t.2)

/-- Classification and admission of a frame that passed 7.2 and 7.3 (R163, R169). -/
def State.classify (s : State) (m : Nat) (h : HFrame) (p : Parsed) : State :=
  let l := h.bytes
  let owner := s.stagOwner l
  let tag := ctagFrom l p.tags (if owner.isSome then 1 else 0)
  let fns0 := s.daMatch l m (s.rxCands owner)
  let fns := fns0.filter (fun f => s.ctagOk f tag)
  let s1 := (fns0.filter (fun f => s.ctagOk f tag = false)).foldl (fun t f => t.count .rxVlanFiltered f) s
  if fns = [] then
    if s.rxCtrlUnmatched m = 1 then
      match s1.defaultCopy m l p false with
      | some c => (s1.count .rxUnmatched m).enterHamper h [c]
      | none => (s1.unmatchedDrop m).enterHamper h []
    else (s1.unmatchedDrop m).enterHamper h []
  else
    let t := fns.foldl (State.copyOne l p owner) (s1, [])
    t.1.enterHamper h t.2

/-- The Early-mode copies of a frame with a bad FCS whose DMA has begun by the time the FCS is seen (R116, R127). -/
def State.earlyCopies (s : State) (m : Nat) (l : Bytes) (p : Parsed) : List RxCopy :=
  if l.length ≤ 512 then []
  else
    let owner := s.stagOwner l
    let tag := ctagFrom l p.tags (if owner.isSome then 1 else 0)
    (((s.daMatch l m (s.rxCands owner)).filter (fun f => s.ctagOk f tag && (s.fn f).state = .enrolled)).filterMap
      (s.copyFor l p owner)).filter (fun c => s.dmaStarts c s.planned 2)

/-- A frame of 64 bytes or more, not truncated, whose FCS fails (R161, R127). One that FCS_KEEP keeps reports its checksums (R162). -/
def State.badFcs (s : State) (m len stamp : Nat) (l : Bytes) : State :=
  let p := parse l
  let s1 := s.count .rxFcsErr m
  let early := s1.earlyCopies m l p
  let h := s1.hframe m (s1.rxClass m l p) len 2 false stamp (rxL3 l p) (rxL4 l p) l []
  if early ≠ [] then s1.enterHamper h early
  else
    let s2 := s1.enterHamper h []
    if s1.rxCtrlFcsKeep m = 1 then
      match s1.defaultCopy m l p true with
      | some c => s2.takeFrame { h with copies := [c] }
      | none => s2.unmatchedDrop m
    else s2

/-- A frame at the reference plane of an instance with its timestamp: the first row of Table 9-3 that matches (R158 to R162, R188, R189, R217);
`cut` where the instance has gone Down under it. -/
def State.rxClassify (s : State) (m : Nat) (f : RxFrame) (cut : Bool) (stamp : Nat) : State :=
  let l := f.bytes
  let len := l.length + 4
  let tags := bufTags l
  let limit := s.lenLimit m tags
  if f.sofGood = false then (s.count .rxBadSof m).wireUse m actOperator len
  else if len ≤ 63 then (s.count .rxRunt m).wireUse m actOperator len
  else if beAt l 12 2 = 0x8808 then (s.macControl m f).wireUse m actOperator len
  else if f.fcsGood ∧ s.macCfgLldpAgent m = 1 ∧ beAt l 12 2 = 0x88CC ∧ beAt l 0 6 = 0x0180C200000E then
    (s.lldpIn m l).wireUse m actOperator len
  else if cut then (s.count .rxFragment m).badFcs m len stamp l
  else if limit < len then
    let kept := l.take (limit - 4)
    let p := parse kept
    let cls := s.rxClass m kept p
    (s.rxCounters m cls len true (castOf l) 0 0).classify m (s.hframe m cls len 1 true stamp 0 0 kept []) p
  else if f.fcsGood = false then s.badFcs m len stamp l
  else
    let p := parse l
    let cls := s.rxClass m l p
    (s.rxCounters m cls len false (castOf l) (rxL3 l p) (rxL4 l p)).classify m
      (s.hframe m cls len 0 false stamp (rxL3 l p) (rxL4 l p) l []) p

/-! ### The reference plane and the hold buffer (R239, 10_engine_pair; R31, 01_the_sled) -/

/-- A frame at the reference plane of an instance: its bytes are load of its port, which the Foreman measures for knob 0 (Table 14-1, 14_foreman). -/
def State.rxFrame (s : State) (m : Nat) (f : RxFrame) (cut : Bool) (stamp : Nat) : State :=
  (s.onTally (fun t => { t with rxLoad := tput t.rxLoad (m / 8) (tget t.rxLoad (m / 8) + (f.bytes.length + 4)) })).rxClassify m f cut stamp

/-- The network side runs: not Fenced, and in a mode that keeps its links (Table 13-3). -/
def State.netRuns (s : State) : Bool :=
  !s.pair.fenced && (s.power.mode = .run || s.power.mode = .idle || s.power.mode = .entering)

/-- The FEC decoder of an instance counts its codewords (R191); the counts are those of the RS modes. -/
def State.fecCount (s : State) (m : Nat) (f : RxFrame) : State :=
  if 2 ≤ (s.mac m).fec then (s.countN .fecCorrected 0 m f.corrected).countN .fecUncorrected 0 m f.uncorrected else s

/-- A frame that an uncorrectable codeword touches fails its FCS (R191). -/
def rxSettled (f : RxFrame) : RxFrame := { f with fcsGood := f.fcsGood && !f.marked }

/-- Receive LPI of an instance ends with the first frame; the time spent there counts in RX_LPI_TIME, in µs (R202, 08_the_wire). -/
def State.endRxLpi (s : State) (m : Nat) : State :=
  if (s.mac m).rxLpi then
    (s.countN .rxLpiTime 0 m ((s.time.elapsed - (s.mac m).rxLpiAt) / uUs)).setMac m (fun x => { x with rxLpi := false })
  else s

/-- Lane words go to the hold buffer: the engines are halted or none is active (R237, R241, R250, 10_engine_pair), but a planned warm hand-over
feeds the incoming engine (R246); and the words for a PORT or HAMPER island that is isolated are held (R31, 01_the_sled). -/
def State.rxHeld (s : State) (m : Nat) : Bool := (s.holding && !s.planned) || s.engIsolated [m / 8, 3]

/-- The hold buffer takes a frame's lane words (R239): the `elapsed` at its first and its last one. -/
def State.holdFrame (s : State) (m : Nat) (f : RxFrame) (cut : Bool) : State :=
  let len := wireU (f.bytes.length + 4) (s.rate m)
  s.holdWords.onPair (fun p => { p with hold := p.hold ++
    [{ m := m, frame := f, cut := cut, stamp := s.rxStamp m f.offset, start := s.time.elapsed, stop := s.time.elapsed + len }] })

/-- A frame's lane words reach the Junction. One whose instance is not Up has been cut short by the Down (R188), and its FCS fails. -/
def State.rxArrives (s : State) (m : Nat) (frame : RxFrame) : State :=
  let f := rxSettled frame
  let cut := !s.instExists m || decide ((s.mac m).link ≠ .up)
  if s.netRuns = false ∨ ((s.watchLane (m / 8)).running ∧ m % 8 = 0) ∨ (cut ∧ f.fcsGood) then s
  else
    let s1 := (s.fecCount m frame).endRxLpi m
    if s1.rxHeld m then s1.holdFrame m f cut else s1.endIdle.rxFrame m f cut (s1.rxStamp m f.offset)

/-- FRAME_RECEIVED (R158, R160). -/
def execFrameReceived (m : Fin 16) (frame : RxFrame) (s : State) : Host.Outcome State Fault Refusal :=
  .next (s.rxArrives m frame)

/-- MAC_CONTROL_FRAME (R192): a received frame with EtherType 0x8808; the rows of Table 9-3 before it apply first (R217, 09_tally). -/
def execMacControlFrame (m : Fin 16) (frame : RxFrame) (s : State) : Host.Outcome State Fault Refusal :=
  .next (if beAt frame.bytes 12 2 = 0x8808 then s.rxArrives m frame else s)

/-! ### Delivery (5.5) -/

/-- RX_STORE_WRITE (R115): the head frame of a ring, in Store mode or of 512 bytes or fewer (R116), once its port's pipeline has done with it
(R370, 17_when_subsystems_meet). -/
def execRxStoreWrite (ring : Fin 640) (s : State) : Host.Outcome State Fault Refusal :=
  .next (let s0 := if s.rxHalted false then s else s.rxAdvance ring
    match s0.rxHead ring with
    | some (h, c) =>
      if s.rxHalted h.inc ∨ earlyFrame (s0.rxr ring) h c ∨ s.time.elapsed < h.pipeTo then s0 else s0.rxStore ring h c
    | none => s0)

/-- RX_EARLY_START (R116): DMA of the head frame starts, or goes on, with the buffers available, once the pipeline has taken it up. -/
def execRxEarlyStart (ring : Fin 640) (s : State) : Host.Outcome State Fault Refusal :=
  .next (let s0 := if s.rxHalted false then s else s.rxAdvance ring
    match s0.rxHead ring with
    | some (h, c) =>
      if s.rxHalted h.inc ∨ earlyFrame (s0.rxr ring) h c = false ∨ s.time.elapsed < h.pipeAt then s0 else s0.rxEarly ring h c
    | none => s0)

/-- RX_WAIT_EXPIRY (R126): the window of the head frame of a ring closes. -/
def execRxWaitExpiry (ring : Fin 640) (s : State) : Host.Outcome State Fault Refusal :=
  .next (match (s.rxr ring).tw, s.rxHead ring with
    | some (t, len), some (h, _) =>
      if t + len ≤ s.time.elapsed ∧ (s.rxr ring).due = none ∧ s.rxHalted h.inc = false then s.rxExpire ring else s
    | _, _ => s)

/-! ### The flow table (Table 7-11) -/

/-- The value that a later write of an entry gives, over an earlier one. -/
def flowOver (w : List (Nat × Option FlowEntry)) (t : List (Nat × FlowEntry)) : List (Nat × FlowEntry) :=
  w.foldl (fun t e => match e.2 with | some x => Tbl.insert t e.1 x | none => Tbl.erase t e.1) t

/-- The flow writes of a sealed set that staging still shows. -/
def sealedFlows (x : Option SealedSet) : List (Nat × Option FlowEntry) :=
  match x with
  | some p => if p.discarded then [] else p.flows
  | none => []

/-- The staging copy of the flow table (R181): the active table with the sealed and the staged writes over it. -/
def State.flowStaging (s : State) : List (Nat × FlowEntry) :=
  flowOver s.setup.flowStaged (flowOver (sealedFlows s.setup.queuedSet) (flowOver (sealedFlows s.setup.pendingSet) s.setup.flows))

/-- The key in FLOW_KEY_0..9. -/
def State.flowKeyReg (s : State) : Bytes := ((List.range 10).map (fun i => le 4 (wget s.setup.flowKey i))).flatten

/-- RESULT of a flow command. -/
def State.flowSet (s : State) (result : Nat) : State := s.onSetup (fun u => { u with flowResult := result })

/-- FLOW_WRITE (Table 7-11): a key with a reserved byte set, or one that another valid entry holds, is not written; an entry
whose VALID is 0 is taken out. -/
def State.flowWrite (s : State) (index : Nat) : State :=
  let key := s.flowKeyReg
  if byteAt key 3 ≠ 0 then s.flowSet 2
  else if s.setup.flowValid ∧ s.flowStaging.any (fun e => e.1 ≠ index && e.2.key = key) then s.flowSet 1
  else
    let e : Option FlowEntry := if s.setup.flowValid then some { key := key, ring := s.setup.flowRing } else none
    (s.onSetup (fun u => { u with flowStaged := Tbl.insert u.flowStaged index e })).flowSet 0

/-- FLOW_DELETE (Table 7-11). -/
def State.flowDelete (s : State) (index : Nat) : State :=
  (s.onSetup (fun u => { u with flowStaged := Tbl.insert u.flowStaged index none })).flowSet 0

/-- The words of a key. -/
def keyWords (k : Bytes) : List (Nat × Word) :=
  (List.range 10).foldl (fun t i => wput t i (leAt k (4 * i) 4)) []

/-- FLOW_READ (Table 7-11): the entry in staging is read into KEY and ACTION; an entry not in use reads as zeros. -/
def State.flowRead (s : State) (index : Nat) : State :=
  let e := Tbl.find s.flowStaging index
  (s.onSetup (fun u =>
    { u with flowKey := match e with | some x => keyWords x.key | none => [],
             flowRing := match e with | some x => x.ring | none => 0, flowValid := e.isSome })).flowSet 0

/-- A write to FLOW_CMD at the active engine: 1 write, 2 delete, 3 read (Table 7-11). -/
def State.flowCmd (s : State) (index op : Nat) : State :=
  if op = 1 then s.flowWrite index else if op = 2 then s.flowDelete index else if op = 3 then s.flowRead index else s

/-- A write to FLOW_CMD at the Junction: an L-class write that an engine acts on is queued while none is active (R242, 10_engine_pair), or while
its MGMT island is isolated (R31, 01_the_sled). -/
def State.flowGo (s : State) (of index op : Nat) : State :=
  let v := index + op * 2 ^ 16
  if s.noPartner then s
  else
    let s0 := s.endIdle.wrote 0x2202C v
    (if s.partnerHeld [5] then s0.hold (.write of 0x2202C v) else s0.flowCmd index op).partnerWake (64 + of)

def execFlowWrite (of : Fin 4) (index : Fin 8192) (s : State) : Host.Outcome State Fault Refusal := .next (s.flowGo of index 1)
def execFlowDelete (of : Fin 4) (index : Fin 8192) (s : State) : Host.Outcome State Fault Refusal := .next (s.flowGo of index 2)
def execFlowRead (of : Fin 4) (index : Fin 8192) (s : State) : Host.Outcome State Fault Refusal := .next (s.flowGo of index 3)

end Sys2Proof.Machine
end

