-- ==== Sys2Proof/Machine/Policy.lean ====
section
/-! DEFINITION. The knobs of the Foreman, the DVFS sequencer and the islands in Domain style, as operations that the
commands share (14_foreman; 13.6, 13.7 of 13_islands_and_power_states). -/
namespace Sys2Proof.Machine

/-! ### DVFS (13.7) -/

def rowMv (r : Nat) : Nat := if r = 0 then 800 else if r = 1 then 720 else if r = 2 then 650 else 580

/-- The row of Table 13-7 with a frequency. -/
def rowOf (mhz : Nat) : Option Nat := (List.range 4).find? (fun r => rowMhz r = mhz)

/-- The engine islands whose frequency the sequencer sets: all but AO (R229, 09_tally; Table 1-4). -/
def freqIslands : List Nat := [0, 1, 2, 3, 4, 5, 7, 8, 9, 10, 11, 12]

/-- Setting island frequencies, never above MAIN (R309, R310). -/
def State.setFreqs (s : State) (row : Nat) (l : List (Nat × Nat)) : State :=
  l.foldl (fun t e => t.setIsland e.1 (fun x => { x with freq := max e.2 row })) s

/-- Island frequencies fall to at most a row's frequency (R310). -/
def State.capFreqs (s : State) (row : Nat) : State :=
  freqIslands.foldl (fun t i => t.setIsland i (fun x => { x with freq := max x.freq row })) s

/-- A DVFS command at the sequencer (R310): during a step it waits; a lower row takes the frequencies down before the voltage
command, a higher row raises the voltage first. -/
def State.dvfsGo (s : State) (row : Nat) (isl : List (Nat × Nat)) : State :=
  if s.power.newPoint.isSome then s.onPower (fun p => { p with queued := some (row, isl) })
  else if row = s.power.point then s.setFreqs row isl
  else if s.power.point < row then
    ((s.capFreqs row).setFreqs row isl).onPower (fun p => { p with newPoint := some row, stepIsl := [], vReady := false })
  else s.onPower (fun p => { p with newPoint := some row, stepIsl := isl, vReady := false })

/-- A command that arrived during a step is executed when the step ends (R310). -/
def State.dvfsNext (s : State) : State :=
  match s.power.queued with
  | some q => (s.onPower (fun p => { p with queued := none })).dvfsGo q.1 q.2
  | none => s

/-- The envelope ceiling as a point number (R309, R317, R318): the brace and the thermal ceiling. -/
def State.envRow (s : State) : Nat := max (if s.supply.braced then 2 else 0) (if s.foreman.level = 0 then 0 else s.foreman.level + 1)

/-- The point that MAIN has, or has been commanded to. -/
def State.mainRow (s : State) : Nat := s.power.newPoint.getD s.power.point

/-! ### Island states (13.2, 13.6) -/

def islStateOf (n : Nat) : IslState := if n = 0 then .on else if n = 1 then .retention else .off

/-- An island takes a state; it is isolated while it is not On, and a written target ends AUTO (R294, R308). -/
def State.islandTo (s : State) (i : Nat) (st : IslState) : State :=
  s.setIsland i (fun x => { x with state := st, isolated := decide (st ≠ .on), auto := false })

/-- Several islands take one state. -/
def State.islandsTo (s : State) (l : List Nat) (st : IslState) : State := l.foldl (fun t i => t.islandTo i st) s

/-- The knob that governs an island's state in Domain style, if any (Table 14-1). -/
def islandKnob (i : Nat) : Option Nat :=
  if i < 14 then (if i % 7 < 6 then some (19 + i % 7) else none)
  else if i < 17 then some (11 + i) else none

/-- The islands of an engine that does not act in warm mode: their entries are ignored (R307). -/
def State.ignoredIsland (s : State) (i : Nat) : Bool :=
  s.pair.warm && decide (i < 14) && decide (s.active ≠ some (if i < 7 then .a else .b))

/-- One island in Domain style takes its target: the applied value of its knob, or ISL_TARGET. An island that a held request
woke stays On until its target is written again (R307, R308). -/
def State.domainOne (written : Nat → Bool) (s : State) (i : Nat) : State :=
  let n := match islandKnob i with
    | some k => (s.knob k).applied.toNat
    | none => s.islTargetTarget i
  let st := islStateOf n
  if s.ignoredIsland i ∨ (s.island i).state = st ∨ ((s.island i).auto ∧ written i = false) then s else s.islandTo i st

/-! ### The Lookout's clocks (11_lookout) -/

/-- The length of a channel's period from the set-up and the clock it counts on (R262, Table 11-4). -/
def State.loLen (s : State) (ch : Nat) (ref32 : Bool) : Nat :=
  if ch < 2 then (if ref32 then ticksU ((s.loLCtrlPeriodMs * 32768 + 999) / 1000) else s.loLCtrlPeriodMs * uMs)
  else if ch < 4 then s.loFCtrlPeriodUs * uUs else s.loSCtrlPeriodMs * uMs

/-- The MGMT island of an engine channel's engine (Table 1-4, R229). -/
def loIsland (ch : Nat) : Nat := if ch % 2 = 0 then 5 else 12

/-- The power controller has stopped the clock of a channel's MGMT island in Domain style (R269, Table 11-3). -/
def State.loStopped (s : State) (ch : Nat) : Bool := decide (ch < 4) && decide ((s.island (loIsland ch)).state ≠ .on)

/-- The clock that an L channel counts on when it starts a period (R268, R269). -/
def State.loRef (s : State) (ch : Nat) : Bool := decide (ch < 2) && (s.loStopped ch || s.loLCtrlClkSel = 1)

/-- A channel starts a full period (R263, R266; Table 11-2). -/
def State.loStart (s : State) (ch : Nat) : State :=
  s.setChan ch (fun x =>
    { x with state := .counting, opened := s.time.elapsed, len := s.loLen ch x.ref32, test := false, stalled := false })

/-- One channel follows its MGMT island in Domain style (Table 11-2, Table 11-3): F is held while its clock is stopped and
restarts with it; L counts on REF32 meanwhile. -/
def State.loFollow (s : State) (ch : Nat) : State :=
  if ch < 2 then s.setChan ch (fun x => if x.moved then x else { x with ref32 := s.loRef ch })
  else if s.loStopped ch then s.setChan ch (fun x => { x with state := .held })
  else if (s.chan ch).state = .held then s.loStart ch
  else s

/-- The engine channels of both engines. -/
def State.loFollowAll (s : State) : State := (List.range 4).foldl State.loFollow s

/-- Every island in Domain style while the sled runs (R293, R307), and the Lookout channels that live in MGMT islands. -/
def State.domainSync (s : State) (written : Nat → Bool) : State :=
  if s.power.domain ∧ (s.power.mode = .run ∨ s.power.mode = .idle) then
    ((List.range 20).foldl (State.domainOne written) s).loFollowAll
  else s

/-! ### Knobs (14.2, 14.3) -/

/-- A knob's register field as a number: knobs 9 to 16 are signed (R323). -/
def knobValue (k v : Nat) : Int := if 9 ≤ k ∧ k ≤ 16 then signed 16 v else (v : Int)

/-- HAMPER_ALPHA.E_c as a signed number (R172, 07_receive). -/
def State.alphaE (s : State) (c : Nat) : Int :=
  signed 4 (if c = 0 then s.hamperAlphaE0 else if c = 1 then s.hamperAlphaE1 else if c = 2 then s.hamperAlphaE2
    else if c = 3 then s.hamperAlphaE3 else if c = 4 then s.hamperAlphaE4 else if c = 5 then s.hamperAlphaE5
    else if c = 6 then s.hamperAlphaE6 else s.hamperAlphaE7)

/-- The island whose target is the base of a knob from 19 to 27: that of the active engine, or of the Junction. -/
def State.knobIsland (s : State) (k : Nat) : Nat :=
  if k < 25 then k - 19 + (if s.active = some .b then 7 else 0) else k - 11

/-- A knob's base (Table 14-1). Knob 8 governs every instance with LPI_EN; its status shows instance 0's LPI_IDLE. -/
def State.knobBase (s : State) (k : Nat) : Int :=
  if k = 0 then 800
  else if k < 7 then (s.knob 0).applied
  else if k = 7 then 50
  else if k = 8 then (s.lpiIdleUs 0 : Int)
  else if k < 17 then s.alphaE (k - 9)
  else if k = 17 then 16
  else if k = 18 then 100
  else (s.islTargetTarget (s.knobIsland k) : Int)

/-- A knob's loop is in use (R313; LOOPS_EN, R323). -/
def State.loopOn (s : State) (k : Nat) : Bool := s.fmCtrlLoopsEn = 1 && s.fmModeLoopEn k = 1

/-- The frequency limit of knobs 0 to 6 in MHz, and which limit it is (R317): 2 BRACE, 3 THERMAL, 4 STRUCTURE. -/
def State.knobLimit (s : State) (k : Nat) : Int × Nat :=
  let brace : Int := if s.supply.braced then 400 else 800
  let heat : Int := (rowMhz (if s.foreman.level = 0 then 0 else s.foreman.level + 1) : Int)
  let main := (s.knob 0).applied
  if 0 < k ∧ main < min brace heat then (main, 4) else if brace ≤ heat then (brace, 2) else (heat, 3)

/-- An instance of a port is enabled (R307). -/
def State.portEnabled (s : State) (p : Nat) : Bool := (s.portInsts p).any (fun m => s.macCfgEnable m = 1)

/-- The envelope of a knob (R317): the applied value of a target, and the limit that changed it. The guarantee of knob 18 raises the
BIST share to a value of Config (log entry 46). -/
def State.knobClamp (s : State) (k : Nat) (target : Int) : Int × Nat :=
  if k < 7 then
    let l := s.knobLimit k
    if target ≤ l.1 then (target, 0) else l
  else if k = 18 ∧ target < 100 then
    let need := min 100 (Sys2Proof.Config.bistNeed s.time.elapsed)
    if target < need then (need, 5) else (target, 0)
  else if k < 19 then (target, 0)
  else if 21 ≤ k ∧ k ≤ 24 then (if target = 2 then (1, 4) else (target, 0))
  else if k < 27 then
    if target ≠ 0 ∧ s.portEnabled (if k = 19 ∨ k = 25 then 0 else 1) then (0, 4) else (target, 0)
  else (target, 0)

/-- The precedence of R313 for one knob: the target, the applied value with the clamp's source, and whether the loop gave the
target. -/
def State.knobEval (s : State) (k : Nat) (loop : Int) : Int × (Int × Nat) × Bool :=
  let pin := s.fmModePinEn k = 1
  let on := s.loopOn k
  let target := if pin then knobValue k (s.fmPinValue k)
    else if on then min (max loop (knobValue k (s.fmFloorValue k))) (knobValue k (s.fmCeilingValue k))
    else s.knobBase k
  (target, s.knobClamp k target, !pin && on)

/-- Bringing one knob up to date (R313 to R316, R320). `restart` says that its DWELL restarts whatever its value does; a pin
that has been taken off restarts the loop from the applied value. -/
def State.knobUpdate (restart : Nat → Bool) (s : State) (k : Nat) : State :=
  let q := s.knob k
  let pin : Bool := s.fmModePinEn k = 1
  let back := q.wasPin && !pin
  let loop := if back then q.applied else q.loop
  let e := s.knobEval k loop
  let a := e.2.1.1
  let cut := decide (a ≠ e.1)
  let clamped := cut || (e.2.2 && q.clamped && decide (k < 7) && decide (a = (s.knobLimit k).1) && decide (a < 800))
  let moved := decide (a ≠ q.applied)
  let report := cut && !e.2.2
  let again := moved || back || restart k
  let s1 := s.setKnob k (fun _ =>
    { applied := a, loop := if e.2.2 then a else loop, clamped := clamped,
      src := if cut then e.2.1.2 else if clamped then q.src else 0,
      changes := if moved then satAdd 32 q.changes 1 else q.changes,
      changed := if again then s.time.elapsed else q.changed,
      dwell := if again then s.fmDwellUs k else q.dwell, wasPin := pin,
      reported := report || (q.reported && clamped) })
  if report && (!q.reported || moved) then
    s1.raise .policyClamp (le 1 k ++ le 2 (unsigned 16 e.1) ++ le 2 (unsigned 16 a) ++ le 1 e.2.1.2)
  else if q.reported && !clamped then s1.raise .policyClampEnd (le 1 k)
  else s1

/-- The rows that knobs 1 to 6 give the islands of the engines they govern (R317, R321). -/
def State.knobRows (s : State) : List (Nat × Nat) :=
  (freqIslands.filter (fun i => s.ignoredIsland i = false)).map (fun i =>
    (i, (rowOf (s.knob (i % 7 + 1)).applied.toNat).getD 0))

/-- The DVFS command that the knobs give (R320). -/
def State.dvfsSync (s : State) : State := s.dvfsGo ((rowOf (s.knob 0).applied.toNat).getD 0) s.knobRows

/-- The engines fall under the envelope's ceiling at once, or when the step in progress ends (R280, R291, R309). -/
def State.ceilingApply (s : State) : State :=
  let s1 := s.onPower (fun p => { p with ceiling := s.envRow })
  if s1.mainRow < s1.envRow then s1.dvfsGo s1.envRow [] else s1

/-- Bringing every knob up to date, and what they govern: the DVFS sequencer, and in Domain style the islands. -/
def State.fmRefresh (s : State) (restart : Nat → Bool) : State :=
  let s1 := (List.range 28).foldl (State.knobUpdate restart) s
  let s2 := if (List.range 7).any (fun k => (s1.knob k).applied ≠ (s.knob k).applied) then s1.dvfsSync else s1
  let s3 := s2.ceilingApply
  s3.domainSync (fun i => (islandKnob i).any (fun k => (s3.knob k).applied ≠ (s.knob k).applied))

/-- A change of the envelope applies at once and restarts the DWELL of the knobs it bears on (R320). -/
def State.fmEnvelope (s : State) : State := s.fmRefresh (fun k => decide (k < 7))

end Sys2Proof.Machine
end

