-- ==== Sys2Proof/Machine/LinkOps.lean ====
section
/-! DEFINITION. The network links as operations that the commands share (8.1, 8.2 and 8.9 of 08_the_wire): an instance going
Down and coming Up, FEC, and the cages' modules. -/
namespace Sys2Proof.Machine

/-! ### Modules (8.9) -/

/-- The module of a port's cage is usable: present, powered and in high-power mode (R207, R208). -/
def State.usable (s : State) (p : Nat) : Bool :=
  let k := s.cage p
  k.present && k.highPower && k.supply && !k.fault && !k.inReset

/-- The power check of R207: a module of 20 W or less, 80 units of 0.25 W, goes to high-power mode. -/
def State.powerCheck (s : State) (p maxPower : Nat) (copper : Bool) : State :=
  let s1 := s.setCage p (fun k => { k with maxPower := maxPower, copper := copper, highPower := decide (maxPower ≤ 80) })
  if maxPower ≤ 80 then s1 else s1.raise .cagePowerDenied (le 1 p ++ le 1 maxPower)

/-! ### FEC (8.2) -/

/-- The FEC modes that a rate in Mb/s offers, the default first: 0 none, 1 BASE-R, 2 RS(528,514), 3 RS(544,514)
(Table 8-2). -/
def fecModes (rate : Nat) : List Nat := if rate = 100000 then [3, 2] else if rate = 25000 then [2, 1, 0] else [3]

/-- Auto-negotiation and training run: AN_EN is 1 and the module is copper (R185). -/
def State.anRuns (s : State) (m : Nat) : Bool := s.macCfgAnEn m = 1 && (s.cage (m / 8)).copper

/-- The FEC modes that an instance advertises: those of its rate, a bit for each mode of `fecModes` (R185). -/
def State.advertised (s : State) (m : Nat) : Nat := ((fecModes (s.rate m)).map (fun k => 2 ^ k)).sum

/-- The FEC in use (R184, R185): where auto-negotiation runs, the first mode in the order of Table 8-2 that the far end advertises too (`far`,
a bit for each mode), if there is one; otherwise FEC_MODE, where 4 is the rate's default. -/
def State.fecOf (s : State) (m far : Nat) : Option Nat :=
  if s.anRuns m then (fecModes (s.rate m)).find? (fun k => bit far k)
  else some (if s.macCfgFecMode m = 4 then (fecModes (s.rate m)).headD 3 else s.macCfgFecMode m)

/-! ### Down and Up (R186 to R188, R194) -/

/-- A current frame that has not begun keeps its grant through a Down (R188). -/
def State.keepGrant (s : State) (m : Nat) : State :=
  s.setSch m (fun x => { x with cur := x.cur.map (fun f => if s.time.elapsed < f.start then { f with held := true } else f),
                                ctrl := [], wakeReq := none, idle := none })

/-- An instance leaves Up (R186): LINK_DOWN with its cause, 1 lane loss, 2 remote fault, 3 removal, 4 commit; pauses, watchdog
runs and link idle end (R194). -/
def State.leaveUp (s : State) (m cause : Nat) : State :=
  if (s.mac m).link = .up then
    (((((s.settle m).endLpi m).endRxLpi m).keepGrant m).count .linkDownCount m).raise .linkDown (le 1 m ++ le 1 cause)
  else s

/-- The SerDes of a port's lanes run: NETp is On and the sled is not Fenced (Table 13-2; R252). -/
def State.netOn (s : State) (p : Nat) : Bool := decide ((s.island (14 + p)).state = .on) && !s.pair.fenced

/-- The transmit lanes of an instance's module are on (Table 8-3): in every state but Disabled, while its lanes run. -/
def State.lanesOn (s : State) (m : Nat) : Bool := s.instExists m && decide ((s.mac m).link ≠ .disabled) && s.netOn (m / 8)

/-- The MAC sends local fault: the instance is Down or Training, and its lanes are on (R186). -/
def State.localFault (s : State) (m : Nat) : Bool := s.lanesOn m && decide ((s.mac m).link ≠ .up)

/-- An instance goes to Down or Disabled (Table 8-3); received pauses and watchdog runs are cleared (R194). -/
def State.instDown (s : State) (m cause : Nat) (next : LinkStage) : State :=
  (s.leaveUp m cause).setMac m (fun x =>
    { x with link := next, paused := [], pausedJ := [], wd := [], wdS := [], ctrlIn := [], train := false })

/-- A lane is lost (R187): counted and reported, LANE_OK of it cleared, and an instance that is Up or in Training goes Down. -/
def State.laneLost (s : State) (cause lane : Nat) : State :=
  let m := s.laneInst lane
  let s1 := ((s.count .laneLoss lane).raise .laneLoss (le 1 lane)).setMac m (fun x =>
    { x with laneOk := if bit x.laneOk (lane - m) then x.laneOk - 2 ^ (lane - m) else x.laneOk })
  match (s.mac m).link with
  | .up | .training => s1.instDown m cause .down
  | _ => s1

/-- The lanes of a port that are still good fail, one after the other (R187; R208, R209). -/
def State.lanesFail (s : State) (p cause : Nat) : State :=
  ((List.range 8).map (fun j => 8 * p + j)).foldl (fun t lane =>
    if bit (t.mac (t.laneInst lane)).laneOk (lane - t.laneInst lane) then t.laneLost cause lane else t) s

/-- Every instance of a port that is in Training or Up goes Down. -/
def State.portDown (s : State) (p cause : Nat) : State :=
  ((List.range 8).map (fun j => 8 * p + j)).foldl (fun t m =>
    match (t.mac m).link with
    | .up | .training => t.instDown m cause .down
    | _ => t) s

/-- The first instant from t on at which the gate of a class admits a frame (R10, R188). -/
def SchInst.admitAt (x : SchInst) (c len rate : Nat) : Nat → Nat → Nat
  | 0, t => t
  | n + 1, t =>
    let start := if bit (x.gatesAt t) c then t
      else match x.listAt t with
        | some g => (g.openFrom c (2 * g.entries.length + 2) (max t g.base)).getD t
        | none => t
    match x.closeOf c start with
    | some k => if fits start len rate k then start else SchInst.admitAt x c len rate n k
    | none => start

/-- The bound of the search of R188: a list holds at most 256 entries, and a class's windows repeat with its cycle. -/
def admitFuel : Nat := 600

/-- The first instant of `elapsed` from now on at which a kept grant can depart: the wire is free, and the class's gate admits the frame in
device time (R188, R131). -/
def State.admitStart (s : State) (m : Nat) (f : CurFrame) : Nat :=
  let u := max (s.sch m).free s.time.elapsed
  let d := s.time.now + (u - s.time.elapsed)
  u + ((s.gated m).admitAt f.cls (f.bytes.length + 4) (s.rate m) admitFuel d - d)

/-- A frame whose grant was kept departs at the first instant at which its class's gate admits it (R188). -/
def State.releaseGrant (s : State) (m : Nat) : State :=
  s.setSch m (fun x => { x with cur := x.cur.map (fun f =>
    if f.held then { f with held := false, start := s.admitStart m f, at_ := s.timeAt (s.admitStart m f) } else f) })

/-- The XOFF that the Hamper still requests when an instance comes Up (R197). -/
def State.xoffAgain (s : State) (m : Nat) : State :=
  if s.macCfgFcMode m = 2 then
    (List.range 8).foldl (fun t c =>
      if bit (tget t.hamper.xoff m) c then t.queueCtrl m (.pfc (t.pfcVector m c) (t.fcQuantaQuanta m)) else t) s
  else if s.macCfgFcMode m = 1 ∧ (s.mac m).xoffOn then s.queueCtrl m (.pause (s.fcQuantaQuanta m))
  else s

/-- An instance enters Up (Table 8-3): credits at 0 (R137), LPI_CAP and LPI_TW_MIN from the PHY (8.7), LINK_UP, the grant kept
through the Down, and an XOFF still requested. -/
def State.instUp (s : State) (m fec : Nat) : State :=
  let rate := s.rate m
  let idle := (rate = 25000 ∨ rate = 100000) ∧ Config.lpiCap (rate / 1000) fec
  let twMin := (Config.lpiTwMin (rate / 1000) fec).toNat
  let s1 := (s.setMac m (fun x =>
    { x with link := .up, fec := fec, lpiCap := idle, twMin := if idle then twMin else 0,
             tw := if idle then max x.tw twMin else x.tw, laneOk := 2 ^ lanesPer (s.breakout m) - 1, train := false,
             fails := 0 })).zeroCredits m
  ((s1.raise .linkUp (le 1 m ++ le 4 rate ++ le 1 fec)).releaseGrant m).xoffAgain m

/-- A commit sets ENABLE to 1 (Table 8-3): the module's lanes are turned on. -/
def State.instEnable (s : State) (m : Nat) : State :=
  if s.instExists m ∧ (s.mac m).link = .disabled then
    s.setMac m (fun x => { x with link := if s.usable (m / 8) then .training else .down, train := s.usable (m / 8), fails := 0 })
  else s

/-- A commit sets ENABLE to 0 (Table 8-3): the module's transmit lanes are turned off. -/
def State.instDisable (s : State) (m : Nat) : State :=
  (s.instDown m 4 .disabled).setMac m (fun x => { x with laneOk := 0, fails := 0 })

end Sys2Proof.Machine
end

