-- ==== Sys2Proof/Machine/PowerOps.lean ====
section
/-! DEFINITION. Power modes as operations that the commands share (13_islands_and_power_states): the AO budget, the shutdown record, the start
of an entry and what an entry does. Wakes stand in Machine/Wakes.lean. -/
namespace Sys2Proof.Machine

/-! ### The AO budget (R286, 12_supply_and_backup_cell) -/

/-- The number of bits set in the low 16 bits of a number. -/
def ones16 (n : Nat) : Nat := ((List.range 16).filter (bit n)).length

/-- The temperature factor of Table 12-6 in 1/10,000, linear between the rows: exact for whole degrees. -/
def aoFactor (t : Int) : Nat :=
  let at_ := fun (t0 : Int) (k0 k1 span : Nat) => k0 + (k1 - k0) * (t - t0).toNat / span
  if t ≤ 0 then 6000
  else if t ≤ 25 then at_ 0 6000 10000 25
  else if t ≤ 35 then at_ 25 10000 13500 10
  else if t ≤ 45 then at_ 35 13500 18000 10
  else if t ≤ 55 then at_ 45 18000 24000 10
  else if t ≤ 65 then at_ 55 24000 32000 10
  else 32000

/-- Retention current of one engine in a Deep sleep, in µA (Table 12-5): HOST, MGMT and AO, and what RET_SET names. -/
def State.engineRet (s : State) : Nat :=
  1100 + 1100 + 300 + 400 * ones16 s.retSetHamperGroups + 200 * (s.retSetPort0 + s.retSetPort1 + s.retSetSched)

/-- The standby engine keeps only AO in a Deep sleep: DEEP_STANDBY_OFF in warm mode (R296). -/
def State.standbyOff (s : State) : Bool := s.pair.warm && s.pwrCtrlDeepStandbyOff = 1

/-- Retention current of the other engine: the same states as the active one, and nothing under DEEP_STANDBY_OFF or from an
engine that is out of service (R296; section 12.11 counts nothing for an engine that is off). -/
def State.otherRet (s : State) : Nat :=
  match s.active with
  | some e => if (s.eng (engOther e)).healthy then (if s.standbyOff then 0 else s.engineRet) else 0
  | none => s.engineRet

/-- E in µA, rounded up to a whole µA (R286). -/
def State.aoEstimate (s : State) (hottest : Int) : Nat :=
  (aoFactor (hottest + (s.aoBudgetTempMargin : Int)) * (3000 + 500 + s.engineRet + s.otherRet) + 9999) / 10000

/-- The check of R286 before an entry to Deep sleep: the estimate is kept, and a refusal is reported. -/
def State.aoCheck (s : State) (hottest : Int) : State × Bool :=
  let e := s.aoEstimate hottest
  let ok := decide (e ≤ s.aoBudgetUa)
  let s1 := s.onSupply (fun p => { p with lastEst := min e (2 ^ 15 - 1), refused := !ok })
  (if ok then s1 else s1.raise .aoBudgetRefused (le 4 e ++ le 1 (unsigned 8 (hottest + (s.aoBudgetTempMargin : Int)))), ok)

/-! ### The energy ledger and the shutdown record (R364; Table 16-5, 16_start_up_and_logbook) -/

/-- The Tally key of the i-th value of a ledger entry: ENERGY_UJ of TF0 to TF63, SHELL_ENERGY_UJ, OPERATOR_ENERGY_UJ. -/
def ledgerKey (i : Nat) : Nat :=
  if i < 64 then tallyKey Ctr.energyUj.code 0 i
  else if i = 64 then tallyKey Ctr.shellEnergyUj.code 0 0 else tallyKey Ctr.operatorEnergyUj.code 0 0

/-- Part k of a ledger entry: eight 6-byte values, of which part 8 holds two. -/
def State.ledgerPart (s : State) (k : Nat) : LogRec :=
  { region := 4, kind := k, sev := 0, keep := false, time64 := s.time64,
    body := (((List.range 8).filter (fun i => decide (8 * k + i < 66))).map (fun i =>
      le 6 (tget s.tally.count (ledgerKey (8 * k + i))))).flatten }

/-- One ledger entry: parts 0 to 8 (R364). -/
def State.ledger (s : State) : State := (List.range 9).foldl (fun t k => t.logRow (t.ledgerPart k)) s

/-- CELL_STATUS.STATE (Table 12-8). -/
def CellState.code : CellState → Nat
  | .absent => 0
  | .chargingCc => 1
  | .chargingCv => 2
  | .charged => 3
  | .tempHold => 4

/-- The shutdown record: RTC_COUNT, the pair (D0, C0), the cell state and the cause, 1 power loss, 2 command, 3 Deep sleep
entry (Table 16-5). It is never deferred (R291). -/
def State.shutdownRow (s : State) (cause : Nat) : LogRec :=
  { region := 5, kind := 1, sev := 0, keep := true, time64 := s.time64,
    body := le 6 s.rtc.count ++ le 12 (time96 s.rtc.pairD) ++ le 6 s.rtc.pairC ++ le 1 s.supply.cell.code ++ le 1 cause }

/-- The shutdown record is written, and what a cold start restores is saved with it (R54, 02_time_and_windows). -/
def State.saveShutdown (s : State) (cause : Nat) : State :=
  (s.logNow [s.shutdownRow cause]).onRtc (fun r => { r with savedC := r.count, savedD := r.pairD, savedP := r.pairC })

/-! ### Entry (13.3.1) -/

/-- The Supervisor records the pair (D0, C0) (R53). -/
def State.recordPair (s : State) : State := s.onRtc (fun r => { r with pairD := s.time.now, pairC := s.rtc.count })

/-- Step 2 of Table 13-4 for one ring: each waiting frame is delivered, or dropped under R126. -/
def State.rxFlush (n : Nat) : Nat → State → State
  | 0, s => s
  | k + 1, s =>
    match s.rxHead n with
    | some (h, c) =>
      let s1 := if c.dma then s.earlyGo n h c else s.rxStore n h c
      let s2 := if ((s1.rxHead n).map (fun x => x.1.id)) = some h.id then s1.rxExpire n else s1
      State.rxFlush n k s2
    | none => s

/-- Step 2 of Table 13-4. -/
def State.rxFlushAll (s : State) : State :=
  (s.rx.map (fun e => e.1)).foldl (fun t n => State.rxFlush n (t.rxr n).wait.length (t.rxAdvance n)) s

/-- No lane of an instance is good any more: its lanes have been turned off. -/
def State.noLanes (s : State) (m : Nat) : State := s.setMac m (fun x => { x with laneOk := 0 })

/-- NET0 and NET1 go Off: every instance that is Up or trains goes Down. The spec gives LINK_DOWN no cause for this, so the
record's cause is a free value. -/
def State.netsOff (s : State) : State :=
  let c := s.freeNat 8
  (List.range 16).foldl State.noLanes ((s.useFree.portDown 0 c).portDown 1 c)

/-- The state of an engine island in a mode (Table 13-2): the local index runs as in Table 1-4. -/
def State.engIsland (s : State) (mode : PwrMode) (bare : Bool) (i : Nat) : IslState :=
  match mode with
  | .sleep => if i = 6 then .on else .retention
  | .deepSleep =>
    if i = 6 then .on
    else if bare then .off
    else if i = 0 then (if s.retSetPort0 = 1 then .retention else .off)
    else if i = 1 then (if s.retSetPort1 = 1 then .retention else .off)
    else if i = 4 then (if s.retSetSched = 1 then .retention else .off)
    else if i = 3 then (if s.retSetHamperGroups = 0 then .off else .retention)
    else .retention
  | .off => .off
  | _ => .on

/-- The state of a Junction island in a mode (Table 13-2), 14 to 19. -/
def State.junctionIsland (s : State) (mode : PwrMode) (i : Nat) : IslState :=
  match mode with
  | .sleep =>
    if i < 16 then .off
    else if i = 16 then (if s.watchCtrlEn 0 = 1 ∨ s.watchCtrlEn 1 = 1 then .on else .off)
    else if i = 18 then .retention else .on
  | .deepSleep => if i = 19 then .retention else .off
  | .off => .off
  | _ => .on

/-- Step 7 of Table 13-4 and the Junction's islands: the states of Table 13-2. -/
def State.modeIslands (s : State) (mode : PwrMode) : State :=
  let bareA := s.standbyOff && s.active = some .b
  let bareB := s.standbyOff && s.active = some .a
  (List.range 20).foldl (fun t i =>
    t.islandTo i (if i < 7 then s.engIsland mode bareA i else if i < 14 then s.engIsland mode bareB (i - 7)
      else s.junctionIsland mode i)) s

/-- Cage supplies go off (step 6 of Table 13-4). -/
def State.cagesOff (s : State) : State :=
  (List.range 2).foldl (fun t p => t.setCage p (fun k => { k with supply := false, highPower := false, inReset := false })) s

/-- Cage supplies come back, where no fault holds them off, and R207 is applied to the modules present (R207, R208): a module of more than
20 W is refused anew. -/
def State.cagesOn (s : State) : State :=
  (List.range 2).foldl (fun t p =>
    let k := t.cage p
    if k.fault then t
    else
      let t1 := t.setCage p (fun k => { k with supply := true })
      if k.present then t1.powerCheck p k.maxPower k.copper else t1) s

/-- F channels hold where MAIN stops, and L channels count on REF32 (R269, Table 11-3 of 11_lookout). -/
def State.lookoutSleep (s : State) : State :=
  let s1 := [2, 3].foldl (fun t c => t.setChan c (fun x => { x with state := .held })) s
  [0, 1].foldl (fun t c => t.setChan c (fun x => { x with ref32 := true })) s1

/-- An entry begins at e (R299, Table 13-4): grants stop; the ledger writes an entry before Deep sleep and Off (R364); towards
Sleep the changeover of lane 0 to the watch lane begins (8.12 of 08_the_wire). In a group sleep a wake held by a veto that was
cancelled at T is latched (R350, 15_tether). -/
def State.beginEntry (s : State) (target : PwrMode) : State :=
  let s1 := (s.onPower (fun p => { p with mode := .entering, target := some target, entryAt := s.time64,
                                          latched := if s.tether.group then s.tether.heldWake else none,
                                          pendCmd := none })).onTether (fun t => { t with heldWake := none })
  if target = .sleep then
    (List.range 2).foldl (fun t p => if t.watchCtrlEn p = 1 then t.setWatchLane p (fun w => { w with running := true }) else t) s1
  else s1.ledger

/-- An entry that is refused: 1 BUSY, 2 FENCED, 3 STYLE, 4 BUDGET (R299). -/
def State.entryRefused (s : State) (reason : Nat) : State := s.raise .pwrEntryRefused (le 1 reason)

/-- The reason that refuses an entry before the budget check, or 0 (R299). -/
def State.entryReason (s : State) (target : PwrMode) : Nat :=
  if (s.power.mode ≠ .run ∧ s.power.mode ≠ .idle) ∨ s.power.pendCmd.isSome then 1
  else if s.pair.fenced then 2
  else if s.power.domain ∧ target ≠ .off then 3
  else 0

/-- An entry by command or at a group's T (R299, R300): answers the state and the reason of a refusal, or 0. An entry whose
start falls in a hand-over, a Verdict or a final stall is deferred to its end. In Off nothing is registered. -/
def State.enter (s : State) (target : PwrMode) (hottest : Int) : State × Nat :=
  let why := s.entryReason target
  if s.power.mode = .off then (s, 1)
  else if why ≠ 0 then (s.entryRefused why, why)
  else
    let b := if target = .deepSleep then s.aoCheck hottest else (s, true)
    if b.2 = false then (b.1.entryRefused 4, 4)
    else if s.transition then (b.1.onPower (fun p => { p with pendCmd := some target }), 0)
    else (b.1.beginEntry target, 0)

/-- A group's entry that is refused makes the member send WAKE_ALL (R349, 15_tether; R375, 17_when_subsystems_meet). -/
def State.groupRefused (s : State) : State :=
  if s.tether.group then (s.tetherQueue 0x11 []).onTether (fun t => { t with group := false, heldWake := none }) else s

/-- An entry deferred under R300 begins. -/
def State.resumeEntry (s : State) : State :=
  match s.power.pendCmd with
  | some t =>
    if s.transition then s
    else if s.pair.fenced then ((s.onPower (fun p => { p with pendCmd := none })).entryRefused 2).groupRefused
    else s.beginEntry t
  | none => s

/-- The steps of Table 13-4 up to the islands. -/
def State.entrySteps (s : State) (target : PwrMode) : State :=
  let s1 := s.rxFlushAll
  match target with
  | .sleep =>
    let v := s1.freeNat 8
    ((s1.useFree.onLinks (fun t => t.map (fun e => (e.1, { e.2 with l12 := e.2.up && bit v e.1 })))).netsOff).modeIslands .sleep
  | _ => ((s1.allLinksLost.netsOff).cagesOff).modeIslands target

/-- In Off the wake-pin latch is fed by the standby converter, or by the cell: without either it loses what it holds (R25,
01_the_sled; R290, 12_supply_and_backup_cell). -/
def State.latchCheck (s : State) : State :=
  if s.power.mode = .off ∧ s.supply.mains = false ∧ s.supply.cell = .absent then
    s.onSupply (fun p => { p with latchOk := false, latchBit := false, retRun := none, brownout := false, tries := 0 })
  else s

/-- The records that still wait are written (R283, 12_supply_and_backup_cell). -/
def State.writeDeferred (s : State) : State :=
  let l := s.supply.deferred
  (s.onSupply (fun p => { p with deferred := [] })).logNow l

/-- The sled is in Off: a wake latched in the entry stays latched for the cold start that replays it (R301); what waited for the Logbook is written, the latch takes the copied RESTART_ON_MAINS (Table 12-2 step 4,
R279), and every channel of the Lookout stops (R260). A save in progress is abandoned (R367, 16_start_up_and_logbook). -/
def State.intoOff (s : State) : State :=
  ((((s.writeDeferred.abandonSave).onSupply (fun p =>
    { p with latchBit := decide (s.supCtrlRestartOnMains = 1), retRun := none, offOnCell := !p.mains, lowPower := false, braced := false,
             graceAt := none, recovery := none })).onPower (fun p =>
    { p with mode := .off, target := none, pendCmd := none, newPoint := none, queued := none,
             stepIsl := [] })).latchCheck)

/-- A wake latched during the entry is replayed at c (R301); in a group sleep the station sends WAKE_ALL (R350, 15_tether). -/
def State.replayLatched (s : State) : State :=
  let s1 := s.onTether (fun t => { t with group := false })
  match s.power.latched with
  | some w => if s.tether.group then (s1.beginExit w true).tetherQueue 0x11 [] else s1.beginExit w true
  | none => s1

/-- An entry completes at c (R301, Table 13-4): its effects, the mode, PWR_ENTERED, and the replay of a latched wake. -/
def State.completeEntry (s : State) (target : PwrMode) : State :=
  let done := fun (t : State) => t.raise .pwrEntered (le 1 target.code ++ le 8 s.power.entryAt)
  let s1 := s.entrySteps target
  match target with
  | .off => done ((s1.recordPair.saveShutdown 2).intoOff)
  | .deepSleep =>
    let s2 := s1.recordPair
    let s3 := (s2.saveShutdown 3).onSupply (fun p => { p with lowPower := true })
    let s4 := done ((s3.onPower (fun p => { p with mode := .deepSleep, target := none })).lookoutSleep)
    s4.replayLatched
  | _ =>
    let s4 := done ((s1.onPower (fun p => { p with mode := .sleep, target := none })).lookoutSleep)
    s4.replayLatched

end Sys2Proof.Machine
end

