-- ==== Sys2Proof/Machine/Tally.lean ====
section
/-! DEFINITION. The Tally's commands (09_tally): direct reads, snapshots, the mirror boundary of warm mode and the energy
windows. -/
namespace Sys2Proof.Machine

/-! ### Direct reads (R219, R223) -/

/-- A counter as a read or a snapshot of this J-cycle sees it: in lockstep with the increments stamped before, in warm mode its value at the last
mirror boundary (R219, R221, R223). -/
def State.tallySeen (s : State) (key : Nat) : Nat :=
  if s.pair.warm then tget s.tally.mirror key else s.tally.before s.time.jcycle key

/-- The J-cycle whose start the values of `tallySeen` stand at. -/
def State.seenJ (s : State) : Nat := if s.pair.warm then s.tally.mirrorJ else s.time.jcycle

/-- The counter that an OF has selected (R219). -/
def State.tallySelected (s : State) (n : Nat) : Nat :=
  s.tallySeen (tallyKey (s.of n).tallyCode (s.of n).tallyCls (s.of n).tallyObj)

/-- A read's answer (R219): the 48-bit value is latched for the reading OF, and bits [31:0] returned. -/
def State.tallyAnswer (s : State) (n v : Nat) : State :=
  (s.setOf n (fun o => { o with tallyLatch := v })).emit (.read n (BitVec.ofNat 32 v))

/-- TALLY_READ (R219). -/
def State.tallyRead (s : State) (n : Nat) : State := s.tallyAnswer n (s.tallySelected n)

/-- A read that waits: its value is latched in the J-cycle in which the Junction registers it (R219). -/
def State.queueRead (s : State) (n : Nat) : State := s.onPair (fun p => { p with reads := p.reads ++ [(n, s.tallySelected n)] })

/-- The read queue is answered in arrival order (R242, 10_engine_pair; R385, 18_register_map). -/
def State.answerReads (s : State) : State :=
  s.pair.reads.foldl (fun t r => t.tallyAnswer r.1 r.2) (s.onPair (fun p => { p with reads := [] }))

/-- TALLY_READ (R219), a read that the active engine answers (R385, 18_register_map): it waits while no engine is active and
while MGMT is isolated (R31, 01_the_sled); in Sleep it is a partner wake where WAKE_EN has that source, and otherwise completes at once with
ones; in Deep sleep, Off and Fenced no read arrives. -/
def execTallyRead (of : Fin 4) (s : State) : Host.Outcome State Fault Refusal :=
  .next (if s.pair.fenced then s
    else match s.power.mode with
      | .deepSleep | .off => s
      | .sleep =>
        if s.wakeTaken 7 then (s.queueRead of).registerWake 7 (s.fnLink (64 + of))
        else s.emit (.read of 0xFFFFFFFF)
      | _ => if s.partnerHeld [5] then s.queueRead of else (s.endIdle.partnerWake (64 + of)).tallyRead of)

/-! ### Snapshots (R220 to R222) -/

/-- The entries of one scope in order: object, class, position (R221). -/
def scopeKeys (c : Nat) : List Nat :=
  (List.range (scopeObjects c)).flatMap (fun o => (List.range (scopeClasses c)).flatMap (fun k =>
    (scopePositions c).map (fun p => tallyKey (256 * c + p) k o)))

/-- The scopes of a SET (Table 9-5). -/
def setScopes (set : Nat) : List Nat :=
  if set = 0 then [0, 1, 2] else if set = 1 then [3] else if set = 2 then [4, 5] else if set = 3 then [6, 7, 8]
  else if set = 4 then [9, 10] else if set = 7 then List.range 11 else []

/-- The entries of a SET in order (Table 9-5). -/
def setKeys (set : Nat) : List Nat :=
  if set = 5 then (List.range 66).map ledgerKey else (setScopes set).flatMap scopeKeys

/-- The number of entries of a SET. -/
def setSize (set : Nat) : Nat :=
  if set = 5 then 66
  else ((setScopes set).map (fun c => scopeObjects c * scopeClasses c * (scopePositions c).length)).sum

/-- SET is in Table 9-5. -/
def setGood (set : Nat) : Bool := decide (set ≤ 5) || decide (set = 7)

/-- A counter belongs to a SET. -/
def inSet (set key : Nat) : Bool :=
  if set = 5 then (List.range 66).any (fun i => ledgerKey i = key) else decide (key / 2 ^ 23 ∈ setScopes set)

/-- The place of a counter in entry order: scope, object, class, position. -/
def entryOrder (key : Nat) : Nat :=
  key / 2 ^ 23 * 2 ^ 23 + key % 2 ^ 12 * 2 ^ 11 + key / 2 ^ 12 % 8 * 2 ^ 8 + key / 2 ^ 15 % 2 ^ 8

/-- The earlier of two crossings, the lower in entry order within one J-cycle (R222). -/
def firstCross (a b : Nat × Nat × Bool) : Nat × Nat × Bool :=
  if b.1 < a.1 ∨ (b.1 = a.1 ∧ entryOrder b.2.1 < entryOrder a.2.1) then b else a

/-- The crossings of a SET stamped in [p, s) (R222): p is the instant of the previous completed snapshot of the same set by the same OF. -/
def State.crossings (s : State) (n set : Nat) : List (Nat × Nat × Bool) :=
  s.tally.cross.filter (fun e => decide (tget (s.of n).snapPrev set ≤ e.1) && decide (e.1 < s.seenJ) && inSet set e.2.1)

/-- The STATUS word (Table 9-4). -/
def crossStatus (l : List (Nat × Nat × Bool)) : Nat :=
  ofBool (!l.isEmpty) + 2 * ofBool (l.any (fun e => e.2.2)) + min l.length 65535 * 2 ^ 16

/-- FIRST (Table 9-4). -/
def crossFirst : List (Nat × Nat × Bool) → Nat
  | [] => 0
  | a :: r => tallyIdent (r.foldl firstCross a).2.1

/-- The snapshot header (Table 9-4). -/
def State.snapHeader (s : State) (n set seq : Nat) : Bytes :=
  let l := s.crossings n set
  padTo 64 (le 2 1 ++ le 1 set ++ [0] ++ le 2 seq ++ le 2 0 ++ le 8 (if s.pair.warm then s.tally.mirror64 else s.time64)
    ++ le 4 (setSize set) ++ le 4 (crossStatus l) ++ le 4 (crossFirst l) ++ le 1 s.activeCode ++ le 1 (ofBool s.pair.warm))

/-- The address of an OF's snapshot buffer. -/
def OfSt.snapBuf (o : OfSt) : Nat := o.snapAddr / 64 * 64

/-- The reason that refuses a trigger, or 0: 1 Busy, 5 Bad set, 3 Short, 2 Fence, in that order (R220, Table 9-8). -/
def State.snapRefusal (s : State) (n set : Nat) : Nat :=
  let o := s.of n
  if o.snapNow.isSome then 1
  else if setGood set = false then 5
  else if o.snapLen < 64 + 8 * setSize set then 3
  else if s.fenceOk (64 + n) o.snapBuf o.snapLen then 0
  else 2

/-- What a trigger captures at its instant s (R220 to R223). -/
def State.snapShot (s : State) (n set seq : Nat) : Snapshot :=
  { set := set, seq := seq, addr := (s.of n).snapBuf, header := s.snapHeader n set seq,
    body := (setKeys set).map s.tallySeen, status := crossStatus (s.crossings n set), upto := s.seenJ }

/-- A trigger at the active engine, with what it captured (R220, R221). -/
def State.snapStart (s : State) (n set seq : Nat) (shot : Snapshot) : State :=
  let why := s.snapRefusal n set
  let s1 := s.setOf n (fun o => { o with snapSet := set, snapSeq := seq })
  if why ≠ 0 then s1.setOf n (fun o => { o with snapState := 3, snapWhy := why })
  else s1.setOf n (fun o => { o with snapState := 1, snapWhy := 0, snapNow := some shot })

/-- A write to SNAP_CTRL at the active engine (R220 to R222). -/
def State.snapTrigger (s : State) (n set seq : Nat) : State := s.snapStart n set seq (s.snapShot n set seq)

/-- SNAPSHOT_TRIGGER (R220): queued, with what it captured, while no engine is active (R242) or MGMT is isolated (R31, 01_the_sled). -/
def execSnapshotTrigger (of : Fin 4) (set : BitVec 4) (seq : BitVec 16) (s : State) : Host.Outcome State Fault Refusal :=
  .next (if s.noPartner then s
    else let t := s.endIdle
    if t.partnerHeld [5] then t.takeIn (.snap of set.toNat seq.toNat (t.snapShot of set.toNat seq.toNat))
    else (t.partnerWake (64 + of)).snapTrigger of set.toNat seq.toNat)

/-- TALLY_SNAPSHOT (R221): the last body write is emitted, STATE reads Done, and the event is raised. -/
def State.snapDone (s : State) (n : Nat) : State :=
  match (s.of n).snapNow with
  | some x =>
    let data := x.header ++ (x.body.map (le 8)).flatten
    let s1 := (s.emit (.memWrite (64 + n) x.addr data false)).dmaUse actOperator data.length
    (s1.setOf n (fun o => { o with snapNow := none, snapState := 2, snapWhy := 0,
                                   snapPrev := tput o.snapPrev x.set x.upto })).raise
      .tallySnapshot (le 1 (64 + n) ++ le 2 x.seq ++ le 4 x.status)
  | none => s

def execTallySnapshot (of : Fin 4) (s : State) : Host.Outcome State Fault Refusal :=
  .next (if s.idleEngine [2, 5] then s else s.snapDone of)

/-! ### The mirror boundary (R223) -/

/-- A crossing that is mirrored: TALLY_HALF is raised with its boundary's stamp. -/
def State.mirrorCross (s : State) (e : Nat × Nat × Bool) : State :=
  (s.onTally (fun t => { t with cross := t.cross ++ [e] })).raise .tallyHalf (le 4 (tallyIdent e.2.1) ++ le 1 (ofBool e.2.2))

/-- The mirror takes the increments stamped before a J-cycle; later crossings wait (R223, R224). -/
def TallySt.mirrored (t : TallySt) (jcycle t64 : Nat) : TallySt :=
  { t with mirror := if t.atJ = jcycle then t.base.foldl (fun m e => tput m e.1 e.2) t.count else t.count,
           mirror64 := t64, mirrorJ := jcycle, mfrac := t.frac, pend := t.pend.filter (fun e => decide (jcycle ≤ e.1)) }

/-- The Tally crosses the mirror link (R223, R224): at a boundary, and with the bulk state copy. -/
def State.mirrorNow (s : State) : State :=
  (s.tally.pend.filter (fun e => decide (e.1 < s.time.jcycle))).foldl State.mirrorCross
    (s.onTally (fun t => t.mirrored s.time.jcycle s.time64))

/-- MIRROR_BOUNDARY (R223): in warm mode. -/
def State.mirrorBoundary (s : State) : State := if s.pair.warm then s.mirrorNow else s

def execMirrorBoundary (s : State) : Host.Outcome State Fault Refusal := .next s.mirrorBoundary

/-! ### Energy (R225 to R227) -/

/-- One µJ in the units of R227. -/
def ujUnit : Nat := 2 ^ 16

/-- Island i belongs to the standby engine (R226 step 4). -/
def State.standbyIsland (s : State) (i : Nat) : Bool :=
  (decide (i < 7) && decide (s.pair.a.state = .standby)) || (decide (7 ≤ i) && decide (i < 14) && decide (s.pair.b.state = .standby))

/-- ISLAND_IDLE of an island in mW: the calibrated idle power at its present DVFS point and state (R225). -/
def State.idleMw (s : State) (i : Nat) : Nat :=
  (Config.islandIdle s.tally.calib i (s.island i).freq (s.island i).state.code).toNat

/-- An island's measured energy in µJ for a window of 1 ms: what its monitor reports, and 0 while it is off (R225). -/
def State.measured (s : State) (w : List Nat) (i : Nat) : Nat := if (s.island i).state = .off then 0 else w.getD i 0

/-- The dynamic part of an island's energy in µJ: measured less idle (R226 step 1). 1 mW for 1 ms is 1 µJ. -/
def State.winDynamic (s : State) (w : List Nat) (i : Nat) : Nat := s.measured w i - s.idleMw i

/-- The kinds of activity of an island (Table 9-6; the islands in the order of R229). WATCH holds a lane of each port. -/
def islandActs (i : Nat) : List Act :=
  let k := if i < 14 then i % 7 else i
  if k = 0 ∨ k = 14 then [.port 0] else if k = 1 ∨ k = 15 then [.port 1] else if k = 2 then [.host] else if k = 3 then [.hamper]
  else if k = 4 then [.sched] else if k = 16 then [.port 0, .port 1, .watch] else if k = 17 ∨ k = 18 then [.tlp] else []

/-- The activity units of a function in an island in the window; the standby's islands carry none in warm mode (R226). -/
def State.winUnits (s : State) (i f : Nat) : Nat :=
  if s.pair.warm && s.standbyIsland i then 0 else ((islandActs i).map (fun k => tget s.tally.act (k.code * 128 + f))).sum

/-- A function's share of an island's dynamic part, rounded down (R226 step 2, R227). -/
def State.winShare (s : State) (w : List Nat) (i f : Nat) : Nat :=
  let t := ((List.range 69).map (s.winUnits i)).sum
  if t = 0 then 0 else s.winDynamic w i * ujUnit * s.winUnits i f / t

/-- A function's total dynamic share over the islands that take part. -/
def State.dynShare (s : State) (w l : List Nat) (f : Nat) : Nat := (l.map (fun i => s.winShare w i f)).sum

/-- A TF's share of the static part, rounded down (R226 step 3). -/
def State.staticShare (s : State) (w l : List Nat) (f : Nat) : Nat :=
  let stat := ((l.map (fun i => s.measured w i - s.winDynamic w i)).sum) * ujUnit
  let dyn := (l.map (s.winDynamic w)).sum * ujUnit
  let en := (List.range 64).filter (fun g => (s.fn g).state = .enrolled)
  if s.energyCtrlStaticSplit = 1 then (if dyn = 0 then 0 else stat * s.dynShare w l f / dyn)
  else if s.energyCtrlStaticSplit = 2 then (if f ∈ en then stat / en.length else 0)
  else 0

/-- The islands that take part in a window's split (R226 step 4). -/
def State.winIslands (s : State) : List Nat :=
  (List.range 20).filter (fun i => s.energyCtrlPairCharge = 1 || !s.standbyIsland i)

/-- The energy of a window in 2^-16 µJ, all islands together. -/
def State.winAll (s : State) (w : List Nat) : Nat := ((List.range 20).map (s.measured w)).sum * ujUnit

/-- A TF's energy in a window in 2^-16 µJ (R226). -/
def State.winPart (s : State) (w : List Nat) (f : Nat) : Nat := s.dynShare w s.winIslands f + s.staticShare w s.winIslands f

/-- Adding energy in 2^-16 µJ to a counter, which carries its fraction (R227). -/
def State.addEnergy (s : State) (c : Ctr) (obj units : Nat) : State :=
  let key := tallyKey c.code 0 obj
  let t := tget s.tally.frac key + units
  let s1 := s.onTally (fun x => { x with frac := tput x.frac key (t % ujUnit) })
  if t / ujUnit = 0 then s1 else s1.countN c 0 obj (t / ujUnit)

/-- One attributed window (R226, R227): each TF's share, the rest to the operator, and all of it to SHELL_ENERGY_UJ. -/
def State.attribute (s : State) (w : List Nat) : State :=
  let given := ((List.range 64).map (s.winPart w)).sum
  (((List.range 64).foldl (fun t f => if s.winPart w f = 0 then t else t.addEnergy .energyUj f (s.winPart w f)) s).addEnergy
    .operatorEnergyUj 0 (s.winAll w - given)).addEnergy .shellEnergyUj 0 (s.winAll w)

/-- The window closes: ISLAND_POWER is each island's mean power in mW (Table 9-8), and the activity units start again. -/
def State.closeWindow (s : State) (w : List Nat) : State :=
  s.onTally (fun t => { t with act := [], powerMw := (List.range 20).foldl (fun p i => tput p i (min (s.measured w i) 65535)) t.powerMw })

/-- ENERGY_WINDOW (R224 to R227): what the 20 monitors report, in µJ. A window that is not measured, or that a warm hand-over fell into, adds
its millisecond to UNMEASURED_MS; SHELL_ENERGY_UJ accumulates every measured window. -/
def execEnergyWindow (measured : List Nat) (s : State) : Host.Outcome State Fault Refusal :=
  .next (
    if s.coreRuns = false then (s.onTally (fun t => { t with act := [] })).count .unmeasuredMs 0
    else if s.tally.skipEnergy then
      (((s.onTally (fun t => { t with skipEnergy := false })).addEnergy .shellEnergyUj 0 (s.winAll measured)).count
        .unmeasuredMs 0).closeWindow measured
    else (s.attribute measured).closeWindow measured)

end Sys2Proof.Machine
end

