-- ==== Sys2Proof/Machine/Wire.lean ====
section
/-! DEFINITION. The commands of the network links: training, Up and Down, flow control on receive and send, the pause
watchdog and LLDP (8.2 to 8.7 of 08_the_wire). -/
namespace Sys2Proof.Machine

/-! ### Training and the link states (8.2) -/

/-- LINK_TRAINING_START (Table 8-3): from Down, with a usable module and signal on every lane. -/
def execLinkTrainingStart (m : Fin 16) (s : State) : Host.Outcome State Fault Refusal :=
  .next (if s.instExists m ∧ (s.mac m).link = .down ∧ s.usable (m / 8) ∧ s.netOn (m / 8) then
      s.setMac m (fun x => { x with link := .training, train := true, laneOk := 2 ^ lanesPer (s.breakout m) - 1 })
    else s)

/-- LINK_UP (Table 8-3, R185): lock, alignment and FEC have held for the debounce time. `far` is what the far end advertises where
auto-negotiation runs, a bit for each FEC mode; FEC is resolved only where one is common to both ends. -/
def execLinkUp (m : Fin 16) (far : BitVec 4) (s : State) : Host.Outcome State Fault Refusal :=
  .next (if s.instExists m ∧ (s.mac m).link = .training ∧ s.netOn (m / 8) ∧ (s.anRuns m = false ∨ (s.mac m).train) then
      match s.fecOf m far.toNat with
      | some fec => s.instUp m fec
      | none => s
    else s)

/-- LINK_TRAIN_TIMEOUT (R185): a training run of 500 ms fails and is restarted; after the third in a row LINK_TRAIN_FAIL is
raised and the restart waits for the 1 s retry. -/
def execLinkTrainTimeout (m : Fin 16) (s : State) : Host.Outcome State Fault Refusal :=
  .next (if (s.mac m).link = .training ∧ (s.mac m).train ∧ s.anRuns m then
      let n := (s.mac m).fails + 1
      let s1 := s.setMac m (fun x => { x with fails := n, train := decide (n < 3) })
      if n = 3 then s1.raise .linkTrainFail (le 1 m.val) else s1
    else s)

/-- LINK_TRAIN_RETRY (R185): after three failures a run is tried again every 1 s. -/
def execLinkTrainRetry (m : Fin 16) (s : State) : Host.Outcome State Fault Refusal :=
  .next (if (s.mac m).link = .training ∧ 3 ≤ (s.mac m).fails then s.setMac m (fun x => { x with train := true }) else s)

/-- LANE_LOSS (R187, Table 8-3): a lane of an instance that is Up or in Training is lost, or a further good lane of one that is Down. -/
def execLaneLoss (lane : Fin 16) (s : State) : Host.Outcome State Fault Refusal :=
  .next (let m := s.laneInst lane
    match (s.mac m).link with
    | .up | .training => s.laneLost 1 lane
    | .down => if bit (s.mac m).laneOk (lane - m) then s.laneLost 1 lane else s
    | .disabled => s)

/-- REMOTE_FAULT (Table 8-3): an Up instance goes Down. -/
def execRemoteFault (m : Fin 16) (s : State) : Host.Outcome State Fault Refusal :=
  .next (if (s.mac m).link = .up then s.instDown m 2 .down else s)

/-! ### PAUSE and PFC on receive (8.4, 8.6) -/

/-- A class stops being paused: its pause and its watchdog run end, and a candidate whose gate is open wakes an idle link
(R193, R198; R379, 17_when_subsystems_meet). -/
def State.unpause (s : State) (m c : Nat) : State :=
  let s1 := s.setMac m (fun x => { x with paused := Tbl.erase x.paused c, pausedJ := Tbl.erase x.pausedJ c, wd := Tbl.erase x.wd c, wdS := Tbl.erase x.wdS c })
  if s1.wantsWire m c then s1.wakeLink m else s1

/-- A pause of one class as it is registered (R193): quanta 0 ends the pause; otherwise the class is paused for quanta x 512 bit times. -/
def State.pauseOne (m : Nat) (s : State) (p : Nat × Nat) : State :=
  if p.2 = 0 then s.unpause m p.1
  else s.setMac m (fun x => { x with paused := Tbl.insert x.paused p.1 (s.time.elapsed + bitsU (512 * p.2) (s.rate m)),
                                     pausedJ := Tbl.insert x.pausedJ p.1 s.time.jcycle })

/-- One received pause is registered (R193): ignored and counted in IGNORING (R199); otherwise its classes are paused, and a current frame of
one of them counts. -/
def State.pauseRegister (m : Nat) (s : State) (l : List (Nat × Nat)) : State :=
  if (s.mac m).ignoring then s.count .pauseIgnored m
  else
    let s1 := l.foldl (State.pauseOne m) s
    let found := (s.sch m).cur.any (fun f => l.any (fun p => p.1 = f.cls ∧ 0 < p.2))
    (if found then s1.count .pauseHeld m else s1).wdCheck m

/-- PAUSE_END (R193): the quanta of a class's pause run out. -/
def execPauseEnd (m : Fin 16) (c : Fin 8) (s : State) : Host.Outcome State Fault Refusal :=
  .next (match Tbl.find (s.mac m).paused c with
    | some t => if t ≤ s.time.elapsed then (s.settle m).unpause m c else s
    | none => s)

/-- A class's watchdog run has closed by now. -/
def State.wdClosed (s : State) (m c : Nat) : Bool := (Tbl.find (s.mac m).wd c).any (fun t => decide (t ≤ s.time.elapsed))

/-- The window of a class's run has closed (R198): still held, its pause is ended, counted and reported, and in IGNORE_AFTER the instance
ignores pauses from here on (R199); otherwise the run is over. -/
def State.wdClose (m : Nat) (held : Bool) (s : State) (c : Nat) : State :=
  if held then
    let s1 := ((s.settle m).unpause m c).countCls .pauseWdExpire c m
    let s2 := s1.raise .pauseBroken (le 1 m ++ le 1 c ++ le 8 (tget (s.mac m).wdS c))
    if s.pauseWdMode m = 1 then s2.setMac m (fun x => { x with ignoring := true }) else s2
  else s.setMac m (fun x => { x with wd := Tbl.erase x.wd c, wdS := Tbl.erase x.wdS c })

/-- Every run of an instance that has closed; whether its classes are held is judged before any pause ends (R198; R401, 00_scope). -/
def State.wdCloses (s : State) (m : Nat) : State :=
  ((List.range 8).filter (fun c => s.wdClosed m c)).foldl (fun t c => t.wdClose m (s.heldClass m c) c) s

/-- PAUSE_WD_EXPIRY (R198): the window of a class's watchdog run closes, and with it any other of the instance that closes at this instant. -/
def execPauseWdExpiry (m : Fin 16) (c : Fin 8) (s : State) : Host.Outcome State Fault Refusal :=
  .next (if s.wdClosed m c then s.wdCloses m else s)

/-- PAUSE_REGISTER (R193): the received pauses whose 40 ns have passed take effect one by one, after any watchdog run that closes at this
instant (R210). -/
def execPauseRegister (m : Fin 16) (s : State) : Host.Outcome State Fault Refusal :=
  .next (let due := (s.mac m).ctrlIn.filter (fun e => decide (e.1 ≤ s.time.elapsed))
    if due = [] then s
    else
      let s1 := ((s.wdCloses m).settle m).setMac m (fun x => { x with ctrlIn := x.ctrlIn.filter (fun e => decide (s.time.elapsed < e.1)) })
      (due.map (fun e => e.2)).foldl (State.pauseRegister m) s1)

/-- A write of 1 to FC_WD_REARM (R199). -/
def State.rearm (s : State) (m : Nat) : State :=
  (s.setMac m (fun x => { x with ignoring := false })).raise .pauseRearmed (le 1 m)

/-- FC_WD_REARM (R199): an L-class write that an engine acts on, queued while none is active (R242). -/
def execFcWdRearm (m : Fin 16) (s : State) : Host.Outcome State Fault Refusal :=
  .next (if s.noPartner then s
    else if s.partnerHeld [m / 8] then s.takeIn (.write 0 (0x4001C + 0x100 * m.val) 1) else (s.arrives 64).rearm m)

/-! ### Control frames (8.5) -/

/-- A MAC control frame (R197): destination, source, EtherType 0x8808, opcode and operands, padded to 64 bytes with its FCS. -/
def macFrame (addr opcode : Nat) (operands : Bytes) : Bytes :=
  withFcs (padTo 60 (be 6 0x0180C2000001 ++ le 6 addr ++ be 2 0x8808 ++ be 2 opcode ++ operands))

/-- Putting a waiting PFC frame into the vector and the times of the frame that departs (R195). -/
def pfcMerge (t : Nat × List Nat) (x : CtrlFrame) : Nat × List Nat :=
  match x with
  | .pfc v q => (Nat.lor t.1 v, (List.range 8).map (fun p => if bit v p then q else t.2.getD p 0))
  | _ => t

/-- The IEEE 802.3 EEE TLV (type 127, OUI 00-12-0F, subtype 5) with transmit, receive, fallback and echo Tw in µs. -/
def eeeTlv (tx rx : Nat) : Bytes :=
  be 2 (127 * 512 + 14) ++ be 3 0x00120F ++ [5] ++ be 2 tx ++ be 2 rx ++ be 2 rx ++ be 2 0 ++ be 2 0

/-- The LLDPDU of the firmware agent (R197, R203): Chassis ID and Port ID by the station address, TTL 120, the EEE TLV, End. -/
def lldpFrame (addr tx rx : Nat) : Bytes :=
  withFcs (padTo 60 (be 6 0x0180C200000E ++ le 6 addr ++ be 2 0x88CC ++ be 2 (1 * 512 + 7) ++ [4] ++ le 6 addr
    ++ be 2 (2 * 512 + 7) ++ [3] ++ le 6 addr ++ be 2 (3 * 512 + 2) ++ be 2 120 ++ eeeTlv tx rx ++ be 2 0))

/-- A control frame leaves at its start instant: the bytes, the end of its gap (R197), and its wire bytes, the operator's own (R226, 09_tally). -/
def State.ctrlOut (s : State) (m : Nat) (bytes : Bytes) (rest : List CtrlFrame) : State :=
  let start := s.startAt m 0
  (((s.endLpi m).emit (.wire m (s.timeAt start) bytes)).wireUse m actOperator bytes.length).setSch m (fun x =>
    { x with ctrl := rest, free := start + bitsU ((8 + bytes.length + 12) * 8) (s.rate m) })

/-- The classes of a PFC vector: those with a priority in it (PFC_TX, Table 8-9). -/
def State.vectorClasses (s : State) (m v : Nat) : List Nat := (List.range 8).filter (fun c => Nat.land (s.pfcVector m c) v ≠ 0)

/-- CONTROL_FRAME_SEND (R195 to R197): the oldest waiting control frame departs once no frame is current; waiting XOFFs and
XONs go out in one frame. -/
def execControlFrameSend (m : Fin 16) (s : State) : Host.Outcome State Fault Refusal :=
  .next (if (s.mac m).link = .up ∧ (s.sch m).cur = none ∧ s.netOn (m / 8) ∧ s.idleEngine [m / 8] = false then
      match (s.sch m).ctrl with
      | [] => s
      | .pause q :: rest => (s.ctrlOut m (macFrame (s.macAddr m) 1 (be 2 q)) rest).count .pauseTx m
      | .lldp :: rest =>
        (s.ctrlOut m (lldpFrame (s.macAddr m) (((s.mac m).tw + 999) / 1000) (((s.mac m).twMin + 999) / 1000)) rest).count .lldpTx m
      | .pfc v q :: rest =>
        let t := (CtrlFrame.pfc v q :: rest).foldl pfcMerge (0, [])
        let others := rest.filter (fun x => match x with | .pfc _ _ => false | _ => true)
        let s1 := s.ctrlOut m (macFrame (s.macAddr m) 0x0101 (be 2 t.1 ++ (t.2.map (be 2)).flatten)) others
        (s.vectorClasses m t.1).foldl (fun u c => u.countCls .pfcTx c m) s1
    else s)

/-- PFC_REFRESH (R195): the XOFF of a class is sent again while its request stands. -/
def execPfcRefresh (m : Fin 16) (c : Fin 8) (s : State) : Host.Outcome State Fault Refusal :=
  .next (if s.pfcOn m c ∧ bit (tget s.hamper.xoff m) c then
      s.queueCtrl m (.pfc (s.pfcVector m c) (s.fcQuantaQuanta m))
    else s)

/-- PAUSE_REFRESH (R196): PAUSE is sent again while the pause is still needed. -/
def execPauseRefresh (m : Fin 16) (s : State) : Host.Outcome State Fault Refusal :=
  .next (if s.macCfgFcMode m = 1 ∧ (s.mac m).xoffOn then s.queueCtrl m (.pause (s.fcQuantaQuanta m)) else s)

/-- LLDP_SEND (R203): the firmware agent's LLDPDU, every 30 s. -/
def execLldpSend (m : Fin 16) (s : State) : Host.Outcome State Fault Refusal :=
  .next (if s.macCfgLldpAgent m = 1 then s.queueCtrl m .lldp else s)

/-! ### The watch lane (8.8) -/

/-- The bytes that a pattern's mask selects from the window, in order (R205). -/
def State.maskedBytes (s : State) (p i : Nat) (l : Bytes) : Bytes :=
  ((List.range 128).filter (fun b => bit (s.patMaskMask p i (b / 32)) (b % 32))).map (fun b => (l.drop b).headD 0)

/-- Pattern i of a port matches a frame (R205). -/
def State.patMatch (s : State) (p : Nat) (l : Bytes) (i : Nat) : Bool :=
  s.patCtrlEn p i = 1 &&
    (List.range 128).all (fun b => !bit (s.patMaskMask p i (b / 32)) (b % 32) || decide (b < l.length)) &&
    decide (crcPlain 0 (s.maskedBytes p i l) = s.patCtrlCrc p i)

/-- Six 0xFF bytes and 16 copies of an address. -/
def magicBody (addr : Nat) : Bytes := List.replicate 6 0xFF ++ (List.replicate 16 (le 6 addr)).flatten

/-- The frame is a magic packet (R205): the body stands at some offset from byte 14 on. -/
def State.magic (s : State) (p : Nat) (l : Bytes) : Bool :=
  let body := magicBody (s.watchMacLoAddr p + s.watchMacHiAddr p * 2 ^ 32)
  s.watchCtrlMagicEn p = 1 && (List.range l.length).any (fun i => decide (14 ≤ i) && slice l i 102 == body)

/-- A match (R206): WATCH_MATCH, LAST, MATCHED, WAKE_FRAME and one wake: by the pattern, or by the magic packet where no
pattern matches or pattern wakes are not enabled. -/
def State.watchMatch (s : State) (p : Nat) (pat : Option Nat) (magic : Bool) : State :=
  let n := pat.getD 32
  let s1 := ((s.count .watchMatch p).setWatchLane p (fun w => { w with last := n, matched := true })).raise .wakeFrame
    (le 1 p ++ le 1 n)
  if pat.isSome ∧ (s.wakeTaken 8 ∨ magic = false) then s1.registerWake 8 (32 * p + n) else s1.registerWake 9 (32 * p)

/-- WATCH_FRAME (R205, R206): examined while the watch lane's link is up; never delivered. Its wire bytes are the operator's (Table 9-6,
09_tally). -/
def execWatchFrame (p : Fin 2) (frame : RxFrame) (s : State) : Host.Outcome State Fault Refusal :=
  .next (if (s.watchLane p).running ∧ (s.watchLane p).ready then
      let len := frame.bytes.length + 4
      let s0 := s.uses .watch actOperator len
      if frame.fcsGood ∧ frame.sofGood ∧ 64 ≤ len ∧ len ≤ 2048 then
        let s1 := s0.count .watchFrames p
        let pat := (List.range 32).find? (s.patMatch p frame.bytes)
        let magic := s.magic p frame.bytes
        if pat.isSome ∨ magic then s1.watchMatch p pat magic else s1
      else s0
    else s)

/-- WATCH_LINK_UP (R204). -/
def execWatchLinkUp (p : Fin 2) (s : State) : Host.Outcome State Fault Refusal :=
  .next (if (s.watchLane p).running then s.setWatchLane p (fun w => { w with ready := true }) else s)

/-- WATCH_LINK_FAIL (R204): the link has not come up within 1 s; Sleep goes on without the port's wakes. -/
def execWatchLinkFail (p : Fin 2) (s : State) : Host.Outcome State Fault Refusal :=
  .next (if (s.watchLane p).running ∧ (s.watchLane p).ready = false then
      (s.setWatchLane p (fun w => { w with running := false })).raise .watchLinkFail (le 1 p.val)
    else s)

/-! ### Cages (8.9) -/

/-- The Supervisor sees the cages in every mode but Off. -/
def State.cagesSeen (s : State) : Bool := s.power.mode ≠ .off && !s.log.bootRom

/-- CAGE_INSERTED (R207 to R209): presence is reported; with the cage's supply on, the module is read and powered. -/
def execCageInserted (p : Fin 2) (maxPower : BitVec 8) (copper : Bool) (s : State) : Host.Outcome State Fault Refusal :=
  .next (if s.cagesSeen ∧ (s.cage p).present = false then
      let on := s.power.mode ≠ .deepSleep
      let s1 := (s.setCage p (fun k => { k with present := true, fault := false, supply := decide on })).raise .cageInserted
        (le 1 p.val)
      if on then s1.powerCheck p maxPower.toNat copper
      else s1.setCage p (fun k => { k with maxPower := maxPower.toNat, copper := copper })
    else s)

/-- CAGE_REMOVED (R209, Table 8-3): the module's lanes fail first, the port's instances are Down, and the removal is reported. -/
def execCageRemoved (p : Fin 2) (s : State) : Host.Outcome State Fault Refusal :=
  .next (if s.cagesSeen ∧ (s.cage p).present then
      (((s.lanesFail p 3).portDown p 3).setCage p (fun k =>
        { k with present := false, highPower := false, fault := false, copper := false, maxPower := 0, inReset := false })).raise
        .cageRemoved (le 1 p.val)
    else s)

/-- CAGE_RESET (R209): the module is held in reset. -/
def execCageReset (p : Fin 2) (s : State) : Host.Outcome State Fault Refusal :=
  .next (if s.noPartner then s
    else
      let t := (s.arrives 64).wrote (0x46004 + 0x400 * p) 1
      if (s.cage p).present ∧ (s.cage p).supply then t.setCage p (fun k => { k with inReset := true }) else t)

/-- CAGE_RESET_DONE (R209): after 10 ms the reset ends and R207 is repeated. -/
def execCageResetDone (p : Fin 2) (maxPower : BitVec 8) (copper : Bool) (s : State) : Host.Outcome State Fault Refusal :=
  .next (if (s.cage p).inReset then
      (s.setCage p (fun k => { k with inReset := false })).powerCheck p maxPower.toNat copper
    else s)

/-- CAGE_REENABLE (R208): a faulted cage's supply returns. -/
def execCageReenable (p : Fin 2) (s : State) : Host.Outcome State Fault Refusal :=
  .next (if s.noPartner then s
    else
      let s0 := (s.arrives 64).wrote (0x46004 + 0x400 * p) 2
      if (s0.cage p).fault then
        let s1 := s0.setCage p (fun k => { k with fault := false, supply := true })
        if (s0.cage p).present then s1.powerCheck p (s0.cage p).maxPower (s0.cage p).copper else s1
      else s0)

/-- CAGE_FAULT (R208): more than 6.7 A for 1 ms takes the supply away, and with it the module's lanes; the port goes Down. -/
def execCageFault (p : Fin 2) (s : State) : Host.Outcome State Fault Refusal :=
  .next (if (s.cage p).supply ∧ (s.cage p).fault = false then
      (((s.lanesFail p 1).portDown p 1).setCage p (fun k => { k with fault := true, supply := false, highPower := false, inReset := false })).raise
        .cageFault (le 1 p.val)
    else s)

/-- MODULE_POLL (R207): an alarm flag raises MODULE_ALARM, at most once a second for the cage. -/
def execModulePoll (p : Fin 2) (flags : BitVec 8) (s : State) : Host.Outcome State Fault Refusal :=
  .next (if (s.cage p).present ∧ (s.cage p).supply ∧ flags ≠ 0 then
      s.raiseOnce .moduleAlarm p (le 1 p.val ++ le 1 flags.toNat)
    else s)

/-- CAGE_MIRROR_COPY (8.9): lower memory and upper page 00h, 256 bytes. -/
def execCageMirrorCopy (p : Fin 2) (data : Bytes) (s : State) : Host.Outcome State Fault Refusal :=
  .next (if (s.cage p).present ∧ (s.cage p).supply then
      let l := (padTo 256 data).take 256
      s.setCage p (fun k => { k with mirror := if l.all (· = 0) then [] else l })
    else s)

end Sys2Proof.Machine
end

