-- ==== Sys2Proof/Machine/PairCmds.lean ====
section
/-! DEFINITION. The engine pair's commands (10_engine_pair): faults, hand-overs, the Verdict, role swaps, the background
self-test, requalification and resynchronisation, and the Crosscut flits. -/
namespace Sys2Proof.Machine

/-! ### What was held is delivered (R31, 01_the_sled; R239, R242) -/

/-- A live word of one OF's own registers is written (R383, 18_register_map). -/
def OfSt.written (o : OfSt) (r : Reg) (v : Nat) : OfSt :=
  match r with
  | .commitView => { o with activeView := bit v 0 }
  | .rxFnSel => { o with rxFnSel := bits v 0 7 }
  | .tallySel => { o with tallyObj := bits v 0 12, tallyCls := bits v 12 3, tallyCode := bits v 16 16 }
  | .snapAddrLo => { o with snapAddr := o.snapAddr / 2 ^ 32 * 2 ^ 32 + v / 64 * 64 }
  | .snapAddrHi => { o with snapAddr := o.snapAddr % 2 ^ 32 + v * 2 ^ 32 }
  | .snapLen => { o with snapLen := bits v 0 24 }
  | .tetherPeerSel => { o with peerSel := bits v 0 6 }
  | .logRowSel => { o with rowSel := bits v 0 15 }
  | .fwAddrLo => { o with fwAddr := o.fwAddr / 2 ^ 32 * 2 ^ 32 + v }
  | .fwAddrHi => { o with fwAddr := o.fwAddr % 2 ^ 32 + v * 2 ^ 32 }
  | .fwLen => { o with fwLen := bits v 0 25 }
  | _ => o

/-- A live register that the active engine acts on (R242; R384, 18_register_map): those of the flow table, the MAC, the Tally, the Lookout and
the functions. -/
def engineReg (r : Reg) : Bool :=
  match r with
  | .flowKey | .flowAction | .flowCmd | .fcWdRearm | .lpiTw | .tallySel | .snapAddrLo | .snapAddrHi | .snapLen | .fnCmd | .loStatus
  | .mbxRequest => true
  | _ => false

/-- A live write of OF n at the active engine, by its offset. -/
def State.engWrite (s : State) (n off v : Nat) : State :=
  match regAt off with
  | none => s
  | some (r, ix) =>
    let i := ix.headD 0
    match r.reg with
    | .flowKey => s.onSetup (fun u => { u with flowKey := wput u.flowKey i v })
    | .flowAction => s.onSetup (fun u => { u with flowRing := bits v 0 5, flowValid := bit v 31 })
    | .flowCmd => s.flowCmd (bits v 0 13) (bits v 16 2)
    | .fcWdRearm => if bit v 0 then s.rearm i else s
    | .lpiTw => s.lpiTwWrite i (bits v 0 20)
    | .fnCmd => s.fnCmd (bits v 0 8) (bits v 8 2)
    | .loStatus => if bit v 3 then s.setChan i (fun x => { x with tripped := false }) else s
    | .mbxRequest => s.recordPut (64 + n) (4 * i) v
    | r => s.setOf n (fun o => o.written r v)

/-- Delivering one held transaction to the active engine; one whose island is still isolated waits on. -/
def State.deliver (s : State) (x : HeldTx) : State :=
  if s.partnerHeld x.op.islands then s.onPair (fun p => { p with held := p.held ++ [x] })
  else
    match x.op with
    | .doorbell f page whole v => (s.recordUse f 8).dbRun f (dbKindAt page) whole v
    | .record f off v => s.recordPut f off v
    | .mailbox f go => s.mbxRun f go (s.mbxRecord f)
    | .write n off v => s.engWrite n off v
    | .snap n set seq shot => s.snapStart n set seq shot

/-- The queue, in arrival order, then the merge store (R242), then the read queue (R385, 18_register_map). -/
def State.deliverHeld (s : State) : State :=
  let s1 := (s.pair.held ++ s.pair.merge).foldl State.deliver (s.onPair (fun p => { p with held := [], merge := [] }))
  if s1.partnerHeld [5] then s1 else s1.answerReads

/-- The raw rate of a lane in units of 10 kb/s (Table 8-2, 08_the_wire). -/
def laneRate (rate fec : Nat) : Nat :=
  if rate = 25000 then 2578125 else if rate = 100000 ∧ fec = 2 then 5156250 else 5312500

/-- The raw rate of a port in units of 10 kb/s: that of its good lanes. -/
def State.portRaw (s : State) (p : Nat) : Nat :=
  ((s.portInsts p).map (fun m => ((List.range 8).filter (bit (s.mac m).laneOk)).length * laneRate (s.rate m) (s.mac m).fec)).sum

/-- The instant, in u of `elapsed`, at which the lane words that a port stores from t0 on fill its 256 KiB of the hold buffer (R239). The
port's rate is that of the end of the interval (log 78). -/
def State.holdFull (s : State) (t0 p : Nat) : Option Nat :=
  if s.portRaw p = 0 then none else some (t0 + 262144 * 8 * 100000 * uNs / s.portRaw p)

/-- One frame of the hold buffer (R239): one whose words are all stored is delivered with its stamp, one that a gap cuts is discarded and counted,
and one in a gap is not seen. A frame for an island that is still isolated waits on (R31, 01_the_sled). -/
def State.deliverFrame (drop : Option Ctr) (t0 : Nat) (s : State) (x : HeldFrame) : State :=
  if s.rxHeld x.m then s.onPair (fun p => { p with hold := p.hold ++ [x], holdAt := some (p.holdAt.getD t0) })
  else
    match drop, s.holdFull t0 (x.m / 8) with
    | some c, some f =>
      if x.stop ≤ f then s.rxFrame x.m x.frame x.cut x.stamp else if x.start < f then s.count c 0 else s
    | _, _ => s.rxFrame x.m x.frame x.cut x.stamp

/-- The gap of a port in ns: from the instant its hold buffer was full to now (R239). -/
def State.holdGap (s : State) (t0 p : Nat) : Nat := ((s.holdFull t0 p).map (fun f => (s.time.elapsed - f) / uNs)).getD 0

/-- The hold buffer is delivered (R239, R241). After a Verdict or a warm hand-over, frames that a gap cuts are discarded under the counter
named, and the gaps are added to HOLD_GAP_NS; a final stall never fills it (R250). -/
def State.deliverFrames (s : State) (drop : Option Ctr) : State :=
  match s.pair.holdAt with
  | none => s
  | some t0 =>
    let s1 := s.pair.hold.foldl (State.deliverFrame drop t0) (s.onPair (fun p => { p with hold := [], holdAt := none }))
    let gap := s.holdGap t0 0 + s.holdGap t0 1
    if drop.isSome ∧ 0 < gap then s1.countN .holdGapNs 0 0 gap else s1

/-- A COMMIT that was deferred waits for its safe point again (R19, 00_scope). -/
def State.releaseCommit (s : State) : State :=
  match s.setup.pendingSet with
  | some p =>
    if p.deferred then s.onSetup (fun u => { u with pendingSet := some { p with deferred := false }, state := .pending }) else s
  | none => s

/-- A role swap that fell due while the sled was not paired starts once it is (R247). -/
def State.dueSwap (s : State) : State :=
  if s.pair.swapDue ∧ s.paired ∧ s.pair.warm = false ∧ s.transition = false ∧ s.isolated = false then
    match s.active with
    | some e => (s.onPair (fun p => { p with swapDue := false })).startHandover e 6 true
    | none => s
  else s

/-- What was held for an engine or an island is delivered: the hold buffer, then the transactions (Table 10-4). -/
def State.released (s : State) : State := if s.holding then s else (s.deliverFrames none).deliverHeld

/-- What follows the end of a hand-over, a Verdict or a final stall: what was held, a deferred COMMIT, a deferred entry and
a role swap that fell due. -/
def State.pairSettled (s : State) : State :=
  if s.transition then s else s.released.releaseCommit.resumeEntry.dueSwap

/-! ### Hand-overs (R236, R241) -/

/-- The cycles of a hand-over, saturating (Table 10-9, Table 5-18). -/
def State.handoverCycles (s : State) (h : Handover) : Nat := s.time.jcycle - h.x

/-- The incoming ACT line may rise: the outgoing one has been low for 8 consecutive J-cycles (R230). -/
def State.canRaise (s : State) (h : Handover) : Bool := h.fallen && decide (h.lowAt + 8 ≤ s.time.jcycle)

/-- A hand-over ends: the incoming engine is Active, the hand-over is counted and announced; after a fault the sled is solo
(R236, R246; Table 10-1). -/
def State.handoverEnds (s : State) (h : Handover) : State :=
  let d := s.handoverCycles h
  let s1 := (s.setEng (engOther h.out) (fun g => { g with state := .active, act := true })).onPair (fun p =>
    { p with handover := none, lastWhy := h.cause, lastDur := min d 65535 })
  let s2 := ((s1.count (if h.swap then .swapCount else .handoverCount) 0).raise .handover
    (le 1 h.cause ++ le 1 (engCode h.out) ++ le 4 (min d (2 ^ 32 - 1)))).announce 1 h.cause
  if h.swap then s2 else (s2.raise .soloEntered []).announce 2 h.cause

/-- LOCKSTEP_HANDOVER_END (R236): the level outputs pass on from the incoming engine. -/
def execLockstepHandoverEnd (s : State) : Host.Outcome State Fault Refusal :=
  .next (match s.pair.handover with
    | some h => if h.warm ∨ s.canRaise h = false then s else (s.handoverEnds h).freeLevels.pairSettled
    | none => s)

/-- A receive ring when the drain ends (R243): the frames lost leave it, with the buffers of one in progress unused, and the buffers before
the guard are to be returned. -/
def RxRing.drained (lost : List Nat) (r : RxRing) : RxRing :=
  let cut := r.wait.head?.any (fun id => lost.contains id)
  { r with wait := r.wait.filter (fun id => !lost.contains id), tw := if cut then none else r.tw, due := if cut then none else r.due,
           slots := r.slots.map (fun x => if x.hole = 254 ∧ r.pastGuard x = false then { x with hole := 0 } else x),
           ret := r.guard, guard := none }

/-- The warm drain ends (R243, R246): the outgoing engine's frames still held are lost, and then under Drain overlap the incoming engine
returns the guard slots that were not used, and completes its own frames. -/
def State.drainEnds (s : State) (h : Handover) : State :=
  let lost := s.hamper.frames.filter (fun x => !x.inc)
  let ids := lost.map (fun x => x.id)
  let s1 := (s.onPair (fun p => { p with handover := some { h with drained := true } })).countN .warmHamperLost 0 0 lost.length
  let s2 := (lost.flatMap (fun x => x.copies)).foldl (fun t c => if c.dma then t.cqRelease (t.rxr c.ring).cq else t) s1
  let s3 := (s2.onHamper (fun x => { x with frames := x.frames.filter (fun g => g.inc) })).onRx (fun t =>
    t.map (fun e => (e.1, e.2.drained ids)))
  ((s3.rx.map (fun e => e.1)).foldl State.rxAdvance s3).flowAll

/-- DRAIN_END (R243). The drain runs from the fall of the outgoing ACT line (R248). -/
def execDrainEnd (s : State) : Host.Outcome State Fault Refusal :=
  .next (match s.pair.handover with
    | some h => if h.warm ∧ h.fallen ∧ h.drained = false then s.drainEnds h else s
    | none => s)

/-- A transmit ring at the incoming engine (R245, R75): fetched again from C; what had been fetched is re-issued. -/
def TxRing.taken (r : TxRing) : TxRing :=
  let e := match r.reTo with | some e => if behind (ringN r.size) r.f e then e else r.f | none => r.f
  { r with f := r.c, cur := [], sends := [], reTo := if e = r.c then none else some e }

/-- A receive ring at the incoming engine: fetched again from C, but where that engine has already written frames into slots of its own
fetching (R243). -/
def RxRing.taken (r : RxRing) : RxRing := if r.inc = [] ∧ r.wait = [] then { r with f := r.c, slots := [], tw := none, due := none } else r

/-- Entries of a queue that the incoming engine's receive rings hold: completions that wait, and Early frames in progress (R111, R116). -/
def State.incReserved (s : State) (q : Nat) : Nat :=
  ((s.rx.filter (fun e => e.2.cq = q)).map (fun e => e.2.inc.length)).sum +
    ((s.hamper.frames.flatMap (fun h => h.copies)).filter (fun c => c.dma && decide ((s.rxr c.ring).cq = q))).length

/-- A read that the outgoing engine issued for its rings is void (R75, R245). -/
def ReadReq.orphan (r : ReadReq) : ReadReq :=
  match r.kind with
  | .txDesc .. | .rxDesc .. | .txBuf .. => { r with void := true }
  | .enrol | .firmware => r

/-- A read that waits for a tag is not one of the outgoing engine's rings. -/
def ReadAsk.kept (a : ReadAsk) : Bool :=
  match a.kind with
  | .enrol | .firmware => true
  | _ => false

/-- A message that is not a descriptor: a mailbox or an enrolment record, which is checked again from its first byte (R75; log 79). -/
def Msg.kept (x : Msg) : Bool :=
  match x.kind with
  | .mailbox _ | .enrol => true
  | _ => false

/-- The incoming engine's state after a warm hand-over: rings and queues from their mirrored positions (R245), deficits, token
levels and credits 0 (R154, 06_transmit), DWELL restarted (R321, 14_foreman). Where its round robins begin the spec does not give: they
go on from the outgoing engine's positions (DESIGN CHOICE, log 77). -/
def State.takeOver (s : State) : State :=
  let s1 := ((s.onTx (fun t => t.map (fun e => (e.1, e.2.taken)))).onRx (fun t => t.map (fun e => (e.1, e.2.taken)))).onCq
    (fun t => t.map (fun e => (e.1, { e.2 with reserved := s.incReserved e.1 })))
  let s2 := s1.onHost (fun h =>
    { h with reads := h.reads.map ReadReq.orphan, asks := h.asks.filter ReadAsk.kept, units := [],
             msgs := (h.units.map (fun e => e.2.msg) ++ h.msgs).filter Msg.kept })
  let s3 := (s2.onSched (fun t => t.map (fun e => (e.1, { e.2 with cur := none, deficit := [] })))).onHamper (fun h =>
    { h with frames := h.frames.map (fun x => { x with inc := false }) })
  let s4 := (List.range 16).foldl State.zeroCredits s3
  let s5 := (List.range 64).foldl (fun t f => t.setFn f (fun q => { q with tbLevel := 0, tbAt := t.time.elapsed, throttled := [] })) s4
  (List.range 28).foldl (fun t k => t.setKnob k (fun q => { q with changed := t.time.elapsed, dwell := t.fmDwellUs k })) s5

/-- A pause that the outgoing engine registered in [t0 - 2 us, t0) may be missing from the mirror, and then no watchdog run of it exists (R373,
17_when_subsystems_meet): which are missing is free. -/
def State.pausesMissed (t0 : Nat) (s : State) (m : Nat) : State :=
  let v := s.freeNat 8
  let gone := ((s.mac m).pausedJ.filter (fun e => decide (t0 ≤ e.2 + 1600) && decide (e.2 < t0) && bit v e.1)).map (fun e => e.1)
  s.useFree.setMac m (fun x =>
    { x with paused := x.paused.filter (fun e => e.1 ∉ gone), pausedJ := x.pausedJ.filter (fun e => e.1 ∉ gone),
             wd := x.wd.filter (fun e => e.1 ∉ gone), wdS := x.wdS.filter (fun e => e.1 ∉ gone) })

/-- The islands of an engine that warm standby keeps in retention (10.5): PORT0, PORT1, HAMPER and SCHED. -/
def warmIslands (e : Eng) : List Nat := [0, 1, 3, 4].map (fun i => i + match e with | .a => 0 | .b => 7)

/-- The standby engine's islands in warm mode (10.5). -/
def State.warmRest (s : State) (e : Eng) : State := s.islandsTo (warmIslands e) .retention

/-- An engine's islands are brought out of retention: MEM_RDY, then LOGIC_RDY (Table 10-4 step 3, R248). -/
def State.warmWake (s : State) (e : Eng) : State := s.islandsTo (warmIslands e) .on

/-- WARM_HANDOVER_END (R241, R246): the drain has ended and the incoming ACT line rises; the hold buffer is delivered, then the transactions. -/
def execWarmHandoverEnd (s : State) : Host.Outcome State Fault Refusal :=
  .next (match s.pair.handover with
    | some h =>
      if h.warm ∧ h.drained ∧ s.canRaise h then
        let s1 := ((List.range 16).foldl (State.pausesMissed h.x) (s.warmWake (engOther h.out)).takeOver).handoverEnds h
        let s2 := if h.swap then s1.warmRest h.out else s1
        (s2.deliverFrames (some .handoverRxDrop)).pairSettled
      else s
    | none => s)

/-! ### Faults (R231, R240, R252, R254, R255) -/

/-- RELINQUISH (R231). -/
def execRelinquish (e : Eng) (s : State) : Host.Outcome State Fault Refusal := .next (s.engineFault e 1).pairSettled

/-- The engine's core should send heartbeats: it is in service or joining, and its clocks run. -/
def State.beats (s : State) (e : Eng) : Bool :=
  !s.isolated && !s.pair.fenced && ((s.eng e).healthy || (s.eng e).state = .resyncing)

/-- HEARTBEAT_MISS (R255). -/
def execHeartbeatMiss (e : Eng) (s : State) : Host.Outcome State Fault Refusal :=
  .next (if s.beats e then ((s.count .heartbeatMiss 0).engineFault e 3).pairSettled else s)

/-- JUNCTION_FAULT (R252): while the Junction is powered. -/
def execJunctionFault (s : State) : Host.Outcome State Fault Refusal := .next (if s.coreRuns then s.fence 0xA else s)

/-- FLIT_RECEIVED (R253, R254, Table 10-7): 288 bits arrive on a lane, while one leaves on the same lane of the other direction (R232). -/
def execFlitReceived (path : FlitPath) (lane : Fin 12) (flit : BitVec 288) (s : State) : Host.Outcome State Fault Refusal :=
  .next (if s.isolated ∨ flitLanes path ≤ lane then s
    else ((s.flitIn path lane flit.toNat).sendFlit (flitReverse path) lane).pairSettled)

/-! ### The Verdict (R237 to R239) -/

/-- The freeze cuts a frame on the wire; it is kept, to be sent again (R237, R238). -/
def State.freezeOne (s : State) (m : Nat) : State :=
  match (s.sch m).cur with
  | some f =>
    if (s.mac m).link = .up ∧ f.start ≤ s.time.elapsed then
      (s.setSch m (fun x => { x with cur := some { f with held := true } })).emit (.cut m)
    else s
  | none => s

/-- The Junction freezes (R237): frames and TLPs are cut, level outputs hold, lane words go to the hold buffer. -/
def State.freeze (s : State) : State :=
  let s1 := ((List.range 16).foldl State.freezeOne s).cutTlps
  (s1.onPair (fun p => { p with verdict := true, frozenAt := s.time.jcycle, cutTlp := s.tlpsBusy })).holdLevels.holdWords

/-- DIVERGENCE (R237): an unexplained divergence has reached J-cycle e + 16; the Junction freezes, and the Verdict starts. -/
def execDivergence (s : State) : Host.Outcome State Fault Refusal :=
  .next (match s.pair.diverged with
    | some (_, typ, t64) =>
      if s.divergedLate ∧ s.comparing ∧ s.transition = false ∧ s.isolated = false then
        ((s.freeze.count .divergenceCount 0).raise .divergence (le 1 typ ++ le 8 t64)).deferCommit
      else s
    | none => s)

/-- A frame that the freeze cut is sent again in full from now on, and counts in VERDICT_RESENT; one whose departure fell into the freeze
departs now (R238). -/
def State.resumeOne (s : State) (m : Nat) : State :=
  let again := fun (f : CurFrame) => s.setSch m (fun x =>
    { x with cur := some { f with held := false, start := s.time.elapsed, at_ := s.timeAt s.time.elapsed } })
  match (s.sch m).cur with
  | some f =>
    if (s.mac m).link = .up then
      (if f.held then (again f).count .verdictResent 0 else if f.start < s.time.elapsed then again f else s)
    else s
  | none => s

/-- The outputs resume (R238): every frame and TLP cut is sent again in full, and the delay line goes on from the slot of the divergence. -/
def State.resumeAll (s : State) : State :=
  let s1 := s.thawLine
  let s2 := (s1.emit (.resent s1.pair.cutTlp)).onPair (fun p => { p with cutTlp := 0 })
  (List.range 16).foldl State.resumeOne s2

/-- What a full self-test gives for one engine; one that has asserted RELINQUISH is no subject of a vote, and has failed (R231). -/
def State.selfPass (s : State) (t : SelfTest) (e : Eng) : Bool :=
  (match e with | .a => t.passA | .b => t.passB) && !s.pair.relq.any (fun x => x.1 = e)

/-- The cause with which an engine fails in a Verdict: that of the failure it registered, or 2 VERDICT. -/
def State.voteCause (s : State) (e : Eng) : Nat := ((s.pair.relq.find? (fun x => x.1 = e)).map (fun x => x.2)).getD 2

/-- The outcome of the Verdict for the engines (R238). -/
def State.judge (s : State) (act : Eng) (a b : Bool) : State :=
  let sb := engOther act
  let s0 := s.onPair (fun p => { p with relq := [] })
  if a ∧ b then
    (((s0.setEng sb (fun g => { g with state := .resyncing })).onPair (fun p => { p with suspect := true, resync := some .copy })).raise
      .engineSuspect (le 1 (engCode sb)) |>.raise .soloEntered []).announce 2 2
  else if a then ((s0.failEngine sb (s.voteCause sb)).raise .soloEntered []).announce 2 2
  else if b then s0.startHandover act 2 false
  else ((s0.failEngine act (s.voteCause act)).failEngine sb (s.voteCause sb)).fence 2

/-- After the Verdict (R238, R239): unless the sled is Fenced the outputs resume, and the hold buffer and the queue are delivered; level outputs
hold on through a hand-over. -/
def State.verdictEnds (s : State) : State :=
  if s.pair.fenced then s
  else
    let s1 := if s.pair.handover.isSome then s else s.freeLevels
    (s1.resumeAll.deliverFrames (some .verdictDrop)).deliverHeld.pairSettled

/-- VERDICT_RESULT (R238, R239). -/
def execVerdictResult (test : SelfTest) (s : State) : Host.Outcome State Fault Refusal :=
  .next (match s.pair.verdict, s.active with
    | true, some act =>
      let s1 := (s.onPair (fun p => { p with verdict := false, diverged := none })).count .verdictCount 0
      let s2 := s1.raise .verdictResult (le 1 (if s.selfPass test .a then 1 else 2) ++ le 1 (if s.selfPass test .b then 1 else 2))
      (s2.judge act (s.selfPass test act) (s.selfPass test (engOther act))).verdictEnds
    | _, _ => s)

/-! ### Role swaps (R247, R248) -/

/-- ROLE_SWAP (R247): in lockstep with both engines healthy; otherwise it waits until the sled is paired. -/
def execRoleSwap (s : State) : Host.Outcome State Fault Refusal :=
  .next (if s.pair.warm ∨ s.pair.fenced ∨ s.pairSwapSwapPeriod = 0 then s
    else (s.onPair (fun p => { p with swapDue := true })).dueSwap)

/-- A command of PAIR_CMD SWAP is refused (R248): the other engine is not Standby, or the sled is not paired. -/
def State.swapRefused (s : State) : Bool := !s.paired || s.transition || s.isolated

/-- PAIR_CMD_SWAP (R248): at once in lockstep; in warm mode the standby is readied first. -/
def execPairCmdSwap (s : State) : Host.Outcome State Fault Refusal :=
  .next (if s.noPartner then s
    else
      let s0 := (s.arrives 64).wrote 0x70010 1
      match s0.swapRefused, s0.active with
      | false, some e => if s0.pair.warm then s0.onPair (fun p => { p with ready := true }) else s0.startHandover e 7 true
      | _, _ => s0.raise .pairCmdRefused [])

/-- WARM_STANDBY_READY (R248): every island of the standby is out of retention, and control passes from t0. -/
def execWarmStandbyReady (s : State) : Host.Outcome State Fault Refusal :=
  .next (match s.pair.ready && s.pair.warm && s.paired && !s.transition, s.active with
    | true, some e => (s.warmWake (engOther e)).startHandover e 7 true
    | _, _ => s)

/-- PAIR_CMD_REQUALIFY (Table 10-1): a Failed or Retired engine is reset and tested; only a sled reset leaves Fenced (R252). -/
def execPairCmdRequalify (e : Eng) (s : State) : Host.Outcome State Fault Refusal :=
  .next (if s.noPartner then s
    else
      let s0 := (s.arrives 64).wrote 0x70010 (16 * engCode e - 14)
      match (s0.eng e).state with
      | .failed | .retired => s0.setEng e (fun g => { g with state := .requalifying })
      | _ => s0)

/-! ### Self-test, requalification and resynchronisation (R249, R250) -/

/-- The background self-test runs on an engine (R249): on both in lockstep, on the standby alone in warm mode, whose retained islands it wakes in
turn and leaves as they were. -/
def State.bistRuns (s : State) (e : Eng) : Bool :=
  s.pairCtrlBistEn = 1 && (if s.pair.warm then decide ((s.eng e).state = .standby) else (s.eng e).healthy)

/-- BIST_CYCLE_DONE (R249): a completed cycle is counted and recorded; a failed one makes its engine Failed. -/
def execBistCycleDone (e : Eng) (pass : Bool) (ecc : BitVec 16) (s : State) : Host.Outcome State Fault Refusal :=
  .next (if s.bistRuns e then
      let s1 := (s.count .bistCycles 0).setEng e (fun g =>
        { g with ecc := ecc.toNat, bistS := if pass then s.time.now / uSec % 2 ^ 32 else g.bistS,
                 bistAt := s.time.elapsed, bistDur := s.time.elapsed - g.bistAt })
      if pass then s1 else (s1.engineFault e 8).pairSettled
    else s)

/-- REQUALIFY_DONE (R250): a passed engine begins the bulk copy. -/
def execRequalifyDone (e : Eng) (pass : Bool) (s : State) : Host.Outcome State Fault Refusal :=
  .next (match (s.eng e).state with
    | .requalifying =>
      if pass then (s.setEng e (fun g => { g with state := .resyncing })).onPair (fun p => { p with resync := some .copy })
      else s.failEngine e 1
    | _ => s)

/-- BULK_COPY_DONE (R250): the active engine quiesces; the final stall follows once the frames in progress have ended. -/
def execBulkCopyDone (s : State) : Host.Outcome State Fault Refusal :=
  .next (match s.pair.resync with
    | some .copy => (s.onPair (fun p => { p with resync := some .quiesce })).quiesceEnds
    | _ => s)

/-- The engine that is joining. -/
def State.joining (s : State) : Option Eng :=
  if s.pair.a.state = .resyncing then some .a else if s.pair.b.state = .resyncing then some .b else none

/-- The join (R250, R251): the pair's mode is that of PAIR_MODE. In warm mode the joining engine's islands go to retention and mirroring begins; on
leaving warm mode the Tally is read directly again. -/
def State.join (s : State) (e : Eng) : State :=
  let warm := decide (s.pairModeMode = 1)
  let s1 := if warm then (s.mirrorNow.warmRest e) else (s.mirrorBoundary.warmWake e)
  let s2 := (s1.setEng e (fun g => { g with state := .standby })).onPair (fun p =>
    { p with resync := none, suspect := false, warm := warm })
  let c := s2.freeNat 8
  ((s2.count .resyncCount 0).raise .resyncDone (le 1 (engCode e))).useFree.announce 3 c

/-- RESYNC_DONE (R250). -/
def execResyncDone (s : State) : Host.Outcome State Fault Refusal :=
  .next (match s.pair.resync, s.joining with
    | some .stall, some e => (s.join e).pairSettled
    | _, _ => s)

/-- RESYNC_TIMEOUT (R250, Table 10-1): the joining engine returns to Failed; the spec names no cause for it. -/
def execResyncTimeout (s : State) : Host.Outcome State Fault Refusal :=
  .next (match s.pair.resync, s.joining with
    | some _, some e =>
      let c := s.freeNat 8
      (((s.useFree.onPair (fun p => { p with resync := none })).raise .resyncFailed (le 1 (engCode e))).failEngine e c).pairSettled
    | _, _ => s)

end Sys2Proof.Machine
end

