-- ==== Sys2Proof/Machine/Lookout.lean ====
section
/-! DEFINITION. The Lookout's channels (11_lookout): serves, expiries and warnings, resets and what they do, the clock monitor,
and the evidence. -/
namespace Sys2Proof.Machine

/-- RESET_CAUSE (Table 11-5). -/
def LoChan.cause (x : LoChan) : Nat := ofBool x.expiry + 2 * ofBool x.badServe + 4 * ofBool x.clockLoss + 256 * ofBool x.common

/-- The engine of an engine channel. -/
def loEngine (ch : Nat) : Eng := if ch % 2 = 0 then .a else .b

/-- The channel of the same kind on the other engine. -/
def loPartner (ch : Nat) : Nat := if ch % 2 = 0 then ch + 1 else ch - 1

/-- A channel counts: it is not stopped in Off (R260), not held, and the Supervisor is not restarting under it. -/
def State.loCounts (s : State) (ch : Nat) : Bool :=
  decide (s.power.mode ≠ .off) && decide ((s.chan ch).state ≠ .held) && !(decide (ch = 4) && s.lookout.supRest)

/-- A warning or a reset waits to be copied to the Logbook as one record (R274). -/
def State.loEvidence (s : State) (ch : Nat) : State :=
  let x := s.chan ch
  s.onLookout (fun l => { l with evidence := l.evidence ++ [(ch, s.activeCode, x.cause, x.warnPc, x.latched, s.time64)] })

/-- The warning interrupt is cleared (Table 11-2). -/
def State.loClear (s : State) (ch : Nat) : State :=
  s.onLookout (fun l => { l with warnInt := l.warnInt.filter (· ≠ ch), warnAt := l.warnAt.filter (fun e => e.1 ≠ ch) })

/-- The warning interrupt of a channel: that of S is raised at once; an engine's waits 16 J-cycles, and in lockstep the first
engine's warning stands for both (R265, R271). -/
def State.loInterrupt (s : State) (ch : Nat) : State :=
  if ch = 4 then s.onLookout (fun l => { l with warnInt := l.warnInt.filter (· ≠ ch) ++ [ch] })
  else if s.pair.warm = false ∧ s.lookout.warnAt.any (fun e => e.1 = loPartner ch) then s
  else s.onLookout (fun l => { l with warnAt := l.warnAt ++ [(ch, s.time.jcycle)] })

/-- The watched island is not running, so the warning period is held until it passes LOGIC_RDY (R273). -/
def State.loAsleep (s : State) : Bool :=
  s.power.mode = .sleep || s.power.mode = .deepSleep || s.power.mode = .exiting || s.power.mode = .entering

/-- In Domain style a warning of an L channel whose MGMT island is not On powers that island up (R273). -/
def State.loPowerUp (s : State) (ch : Nat) : State :=
  if ch < 2 ∧ s.power.domain ∧ s.loStopped ch ∧ s.loAsleep = false then
    (s.setIsland (loIsland ch) (fun i => { i with state := .on, isolated := false, auto := true })).loFollowAll.released
  else s

/-- A channel expires (R265): WARN_PC and LAST_SERVE, Warning, WARN_COUNT, the interrupt, LOOKOUT_WARNING, the warning period of
the same length, and the wake of R273. -/
def State.loExpire (s : State) (ch pc : Nat) (test : Bool) : State :=
  let s1 := s.setChan ch (fun x =>
    { x with state := .warning, warnPc := pc, latched := x.lastServe, warns := satAdd 32 x.warns 1, test := test,
             opened := s.time.elapsed, stalled := s.loAsleep })
  let s2 := (s1.loInterrupt ch).raise .lookoutWarning
    (le 1 ch ++ le 4 pc ++ le 8 (s1.chan ch).latched ++ le 1 (ofBool test))
  ((s2.loEvidence ch).registerWake 3 ch).loPowerUp ch

/-- A reset request at the Junction (R270, R271): held for 16 J-cycles; a request of the same kind from the other engine within
a hold makes the fault common to both. -/
def State.loRequest (s : State) (ch : Nat) : State :=
  if s.lookout.hold.any (fun e => decide (e.1 = loPartner ch) && decide (s.time.jcycle < e.2.1 + 16)) then
    ((s.onLookout (fun l => { l with hold := l.hold.map (fun e => if e.1 = loPartner ch then (e.1, e.2.1, true) else e) })).setChan
      ch (fun x => { x with common := true })).setChan (loPartner ch) (fun x => { x with common := true })
  else s.onLookout (fun l => { l with hold := l.hold ++ [(ch, s.time.jcycle, false)] })

/-- The reset itself: an engine's is requested of the Junction, the Supervisor's begins (R270, R272). -/
def State.loTarget (s : State) (ch : Nat) : State :=
  if ch = 4 then s.onLookout (fun l => { l with supRest := true }) else s.loRequest ch

/-- A channel resets what it watches (R266): `mark` sets the cause bit; RESET_COUNT, LOOKOUT_RESET, the evidence; the channel
restarts on the clock of the set-up. -/
def State.loReset (s : State) (ch : Nat) (mark : LoChan → LoChan) : State :=
  let s1 := (s.setChan ch (fun x =>
    { mark { x with expiry := false, badServe := false, clockLoss := false, common := false } with
        resets := satAdd 32 x.resets 1, moved := false, ref32 := s.loRef ch })).loTarget ch
  ((((s1.loStart ch).loClear ch).raise .lookoutReset (le 1 ch ++ le 2 (s1.chan ch).cause)).loEvidence ch)

/-- A serve (R262, R263): a new period, on the clock of CLK_SEL unless the monitor has moved the channel; LAST_SERVE and
Counting; the warning interrupt is cleared. -/
def State.loServe (s : State) (ch : Nat) : State :=
  ((s.setChan ch (fun x => { x with lastServe := s.time64, ref32 := if x.moved then x.ref32 else s.loRef ch })).loStart ch).loClear
    ch

/-- A period closes without a serve (R265 to R267): a Counting channel expires; in Warning a test expiry becomes an ordinary one, and any other
resets what the channel watches. -/
def State.loClose (s : State) (ch pc : Nat) : State :=
  if (s.chan ch).state = .counting ∨ (s.chan ch).test then s.loExpire ch pc false else s.loReset ch (fun x => { x with expiry := true })

/-- The period of a channel on MAIN has closed by now; that of the others runs on a clock of its own (R262). -/
def State.loOver (s : State) (ch : Nat) : Bool :=
  let x := s.chan ch
  decide (ch < 4) && !x.ref32 && !x.stalled && decide (x.opened + x.len ≤ s.time.elapsed)

/-- A write of SERVE (section 11.7): a period that closes at this instant closes first, and a serve at the close of a warning period that resets
comes too late. -/
def State.loWrite (s : State) (ch pc : Nat) (act : State → State) : State :=
  if s.loCounts ch = false then s
  else if s.loOver ch then
    let s1 := s.loClose ch pc
    if (s.chan ch).state = .counting ∨ (s.chan ch).test then act s1 else s1
  else act s

/-- LOOKOUT_SERVE (R263). The program counter of an expiry at this very instant is a free value. -/
def execLookoutServe (ch : Fin 5) (s : State) : Host.Outcome State Fault Refusal :=
  .next (if s.loOver ch then s.useFree.loWrite ch (s.freeNat 32) (fun t => t.loServe ch) else s.loWrite ch 0 (fun t => t.loServe ch))

/-- BAD_SERVE (R264): the channel expires at once in Counting, and resets at once in Warning. -/
def State.loBad (ch pc : Nat) (s : State) : State :=
  let s1 := s.setChan ch (fun x => { x with bads := satAdd 32 x.bads 1 })
  if (s.chan ch).state = .warning then s1.loReset ch (fun x => { x with badServe := true }) else s1.loExpire ch pc false

def execBadServe (ch : Fin 5) (pc : Word) (s : State) : Host.Outcome State Fault Refusal :=
  .next (s.loWrite ch pc.toNat (State.loBad ch pc.toNat))

/-- LOOKOUT_EXPIRY (R265): the period of a Counting channel closes. -/
def execLookoutExpiry (ch : Fin 5) (pc : Word) (s : State) : Host.Outcome State Fault Refusal :=
  .next (if s.loCounts ch ∧ (s.chan ch).state = .counting then s.loExpire ch pc.toNat false else s)

/-- WARNING_PERIOD_CLOSE (R266, R267). -/
def execWarningPeriodClose (ch : Fin 5) (pc : Word) (s : State) : Host.Outcome State Fault Refusal :=
  .next (if s.loCounts ch ∧ (s.chan ch).state = .warning ∧ (s.chan ch).stalled = false then s.loClose ch pc.toNat else s)

/-- LO_CMD TEST (R267): the channel expires at once, and the warning record is marked TEST. -/
def execLoCmdTest (ch : Fin 5) (pc : Word) (s : State) : Host.Outcome State Fault Refusal :=
  .next (if s.noPartner then s
    else
      let t := (s.arrives 64).wrote 0x7800C (ch + 256)
      if t.loCounts ch then t.loExpire ch pc.toNat true else t)

/-- The monitor of an L channel trips (R268). -/
def State.loTrip (s : State) (ch : Nat) (otherStopped : Bool) : State :=
  let was := (s.chan ch).ref32
  let s1 := (s.setChan ch (fun x => { x with tripped := true, moved := true, ref32 := !was })).raise .lookoutClockTrip
    (le 1 ch ++ le 1 (ofBool was))
  if otherStopped then s1.loReset ch (fun x => { x with clockLoss := true }) else s1

/-- LOOKOUT_CLOCK_TRIP (R268): only L channels have a monitor (Table 11-1). -/
def execLookoutClockTrip (ch : Fin 5) (otherStopped : Bool) (s : State) : Host.Outcome State Fault Refusal :=
  .next (if ch.val < 2 ∧ s.power.mode ≠ .off then s.loTrip ch otherStopped else s)

/-- A management restart begins (R271): what the management processors had in progress for a mailbox is given up. -/
def State.mgmtBegin (s : State) : State :=
  let s1 := (List.range 68).foldl (fun t f =>
    let t1 := if (t.fn f).state = .checking then
        (t.setFn f (fun q => { q with state := .idle })).onHost (fun h =>
          { h with reads := h.reads.map (fun r => if r.fn = f ∧ r.kind = .enrol then { r with void := true } else r) })
      else t
    t1.setFn f (fun q => { q with wait := match q.wait with | some (.destroy k l) => some (.destroy k l) | _ => none })) s
  (s1.onHost (fun h =>
    { h with msgs := h.msgs.filter (fun m => !m.kept), units := h.units.filter (fun e => !e.2.msg.kept),
             asks := h.asks.filter (fun a => decide (a.kind ≠ .enrol)) })).onLookout (fun l => { l with restart := true })

/-- The hold of a reset request ends (R270, R271): the engine's RELINQUISH with cause LOOKOUT; or, common to both engines, a
management restart (L) or Fenced (F). -/
def State.loHoldEnd (s : State) (e : Nat × Nat × Bool) : State :=
  if e.2.2 then (if e.1 < 2 then s.mgmtBegin else (s.fence 5).pairSettled) else (s.engineFault (loEngine e.1) 5).pairSettled

/-- LOOKOUT_RESET_HOLD (R270, R271): 16 J-cycles after the request. -/
def execLookoutResetHold (s : State) : Host.Outcome State Fault Refusal :=
  .next (match s.lookout.hold with
    | e :: r => if e.2.1 + 16 ≤ s.time.jcycle then (s.onLookout (fun l => { l with hold := r })).loHoldEnd e else s
    | [] => s)

/-- An engine receives broadcast inputs: in a hand-over only the incoming one does (R236, R378 of 17_when_subsystems_meet). -/
def State.receives (s : State) (e : Eng) : Bool :=
  match s.pair.handover with
  | some h => decide (e ≠ h.out)
  | none => (s.eng e).healthy || decide ((s.eng e).state = .resyncing)

/-- WARNING_DELIVERY (R271): in lockstep one input to both engines; in warm mode to the watched one. -/
def State.loDeliver (s : State) (ch : Nat) : State :=
  let l := (if s.pair.warm then [ch] else [ch, loPartner ch]).filter (fun c => s.receives (loEngine c))
  s.onLookout (fun x => { x with warnInt := x.warnInt.filter (fun c => c ∉ l) ++ l })

def execWarningDelivery (s : State) : Host.Outcome State Fault Refusal :=
  .next (match s.lookout.warnAt with
    | e :: r => if e.2 + 16 ≤ s.time.jcycle then (s.onLookout (fun l => { l with warnAt := r })).loDeliver e.1 else s
    | [] => s)

/-- A request in progress at the end of a management restart is answered ABORTED (R271); a ring that was being destroyed has
drained. -/
def State.mgmtAbort (s : State) (f : Nat) : State :=
  let q := s.fn f
  let s1 := match q.wait with
    | some (.destroy kind loc) =>
      (s.removeRing kind (s.ringNumber f kind loc)).raise .ringDestroyed (ringPayload f kind (s.ringNumber f kind loc))
    | _ => s
  if q.busy then (if q.goOp = 1 then s1.enrolFail f 0x0A else s1.mbxReply f 0x0A 0) else s1

/-- MGMT_RESTART (R271): the restart ends; both L channels count a full period from it. -/
def State.mgmtEnd (s : State) : State :=
  let s1 := (List.range 68).foldl State.mgmtAbort (s.onLookout (fun l => { l with restart := false }))
  ((s1.loStart 0).loStart 1).raise .mgmtRestart []

def execMgmtRestart (s : State) : Host.Outcome State Fault Refusal := .next (if s.lookout.restart then s.mgmtEnd else s)

/-- An operator frame waits again from the start. -/
def TxFrame.again (f : TxFrame) : TxFrame := { f with seq := none, tries := 0 }

/-- The Tether's protocol engine restarts with the Supervisor: the station rejoins (R272; R337, 15_tether), with a new session;
what it knew of the Stand is gone. Operator frames that waited wait still. -/
def State.tetherRestart (s : State) : State :=
  s.onTether (fun t => { TetherSt.init with
    claim := if s.tetherCtrlEn = 1 then .listening else .disabled, lastNum := t.lastNum, session := (t.session + 1) % 256,
    term := t.term, queue := ((t.sending.toList ++ t.queue).filter (fun f => f.slot.isSome)).map TxFrame.again, counts := t.counts, slots := t.slots, fifo := t.fifo, gsCmdBits := t.gsCmdBits })

/-- SUPERVISOR_RESTARTED (R272). -/
def State.supEnd (s : State) : State :=
  (((s.onLookout (fun l => { l with supRest := false })).tetherRestart).loStart 4).raise .supervisorRestarted []

def execSupervisorRestarted (s : State) : Host.Outcome State Fault Refusal := .next (if s.lookout.supRest then s.supEnd else s)

/-- An evidence record (Table 16-5, 16_start_up_and_logbook). -/
def evidenceRow (e : Nat × Nat × Nat × Nat × Nat × Nat) : LogRec :=
  { region := 3, kind := 1, sev := 0, keep := true, time64 := e.2.2.2.2.2,
    body := le 1 e.1 ++ le 1 e.2.1 ++ le 2 e.2.2.1 ++ le 4 e.2.2.2.1 ++ le 8 e.2.2.2.2.1 }

/-- LOOKOUT_EVIDENCE_COPY (R274): the oldest record that waits; not while the Supervisor restarts. -/
def execLookoutEvidenceCopy (s : State) : Host.Outcome State Fault Refusal :=
  .next (match s.lookout.supRest, s.lookout.evidence with
    | false, e :: r => (s.onLookout (fun l => { l with evidence := r })).logRow (evidenceRow e)
    | _, _ => s)

end Sys2Proof.Machine
end

