-- ==== Sys2Proof/Machine/Foreman.lean ====
section
/-! DEFINITION. The Foreman's commands (14_foreman): the loops at the close of a window, and the thermal ceiling. -/
namespace Sys2Proof.Machine

/-! ### Windows (14.1) -/

/-- The window that closes, from what has been gathered since the last one, and the islands' E-cycles. -/
def State.fmWindow (s : State) (busy : List (Nat × Nat × Nat)) : FmWin :=
  { load := s.tally.rxLoad, low := s.hamper.low, dropLow := s.hamper.dropLow, dropHigh := s.hamper.dropHigh,
    shortIdle := s.power.shortIdle, shortLpi := (s.macs.map (fun e => e.2.lpiShort)).sum, signals := s.events.sigN,
    waits := s.events.sigCpl, waited := s.events.sigU, busy := busy }

/-- A 1 ms window closes: it joins the history, and gathering starts again. -/
def State.fmClose (s : State) (busy : List (Nat × Nat × Nat)) : State :=
  let s1 := (s.onForeman (fun f => { f with hist := (s.fmWindow busy :: f.hist).take 1000 })).onTally (fun t => { t with rxLoad := [] })
  let s2 := (s1.onHamper (fun x => { x with low := false, dropLow := 0, dropHigh := 0 })).onPower (fun p => { p with shortIdle := 0 })
  (s2.onMacs (fun t => t.map (fun e => (e.1, { e.2 with lpiShort := 0 })))).onEvents (fun v => { v with sigN := 0, sigCpl := 0, sigU := 0 })

/-- The windows within a knob's last DWELL (R319); at least the one that closes (DESIGN CHOICE, log 82). -/
def State.fmLast (s : State) (k : Nat) : List FmWin := s.foreman.hist.take (max 1 ((s.knob k).dwell / 1000))

/-! ### The measures of Table 14-1 -/

/-- Bytes that a port's pipeline takes in a number of 1 ms windows at a frequency (R30, Table 1-5, 01_the_sled): 64 in each E-cycle. -/
def portCapacity (mhz n : Nat) : Nat := 64 * mhz * 1000 * n

/-- The bytes received on a port over some windows. -/
def fmLoad (l : List FmWin) (p : Nat) : Nat := (l.map (fun w => tget w.load p)).sum

/-- The busy E-cycles of an island over some windows, and all of them. -/
def fmBusy (l : List FmWin) (i : Nat) : Nat × Nat :=
  let x := l.flatMap (fun w => (w.busy.filter (fun e => e.1 = i)).map (fun e => e.2))
  ((x.map (fun e => e.1)).sum, (x.map (fun e => e.2)).sum)

/-- The island that a frequency knob or a state knob governs: that of the active engine, or of the Junction. -/
def State.measuredIsland (s : State) (k : Nat) : Nat := if k < 7 then k - 1 + (if s.active = some .b then 7 else 0) else s.knobIsland k

/-- A class recorded HAMPER_Q_DROP in some window, by a mask of it. -/
def fmDrops (l : List FmWin) (m : FmWin → Nat) (c : Nat) : Bool := l.any (fun w => bit (m w) c)

/-- The engine whose self-test cycles count for knob 18: the standby in warm mode, otherwise the active one (R249, 10_engine_pair). -/
def State.bistEng (s : State) : EngSt :=
  if s.pair.warm then s.eng (engOther (s.active.getD .a)) else s.eng (s.active.getD .a)

/-- The condition of a knob's step up, and that of its step down (Table 14-1). -/
def State.knobWants (s : State) (k : Nat) : Bool × Bool :=
  let l := s.fmLast k
  let n := l.length
  let f := (s.knob k).applied.toNat
  let g := f - 200
  let low := l.any (fun w => w.low)
  if k = 0 then
    (low || [0, 1].any (fun p => decide (80 * portCapacity f n < 100 * fmLoad l p)),
      decide (0 < g) && [0, 1].all (fun p => decide (100 * fmLoad l p < 60 * portCapacity g n)))
  else if k < 7 then
    let b := fmBusy l (s.measuredIsland k)
    (low || decide (80 * b.2 < 100 * b.1), decide (0 < g) && decide (100 * b.1 * f < 60 * b.2 * g))
  else if k = 7 then (decide (10 < (l.map (fun w => w.shortIdle)).sum), l.all (fun w => w.shortIdle = 0))
  else if k = 8 then (decide (10 < (l.map (fun w => w.shortLpi)).sum), l.all (fun w => w.shortLpi = 0))
  else if k < 17 then
    let c := k - 9
    (fmDrops l (fun w => w.dropHigh) c, (List.range 8).any (fun d => decide (d ≠ c) && fmDrops l (fun w => w.dropLow) d))
  else if k = 17 then
    let sig := (l.map (fun w => w.signals)).sum
    let cpl := (l.map (fun w => w.waits)).sum
    (decide (1000 * n < sig), decide (50 * uUs * cpl < (l.map (fun w => w.waited)).sum) && decide (sig < 250 * n))
  else if k = 18 then (decide (40 * uMs < s.bistEng.bistDur), decide (0 < s.bistEng.bistDur) && decide (s.bistEng.bistDur ≤ 25 * uMs))
  else
    let i := s.measuredIsland k
    ((s.island i).auto, decide (max 1 ((s.knob k).dwell / 1000) ≤ n) && l.all (fun w => w.busy.any (fun e => e.1 = i)) && decide ((fmBusy l i).1 = 0))

/-! ### Decisions (14.4) -/

/-- The value one step away from a knob's applied value (Table 14-1): a frequency row, a factor of 2, 1, 5, or the state of an
island, to which a request gives On and idleness Retention. -/
def knobStep (k : Nat) (v : Int) (up : Bool) : Int :=
  if k < 7 then (if up then min 800 (v + 200) else max 200 (v - 200))
  else if k < 9 then (if up then 2 * v else v / 2)
  else if k < 18 then (if up then v + 1 else v - 1)
  else if k = 18 then (if up then v + 5 else v - 5)
  else if up then 0 else 1

/-- Loops make no decision (R321, R322): in a hand-over, a Verdict, a final stall, a management restart, or from AGREE to T. -/
def State.loopsHeld (s : State) : Bool :=
  s.transition || s.lookout.restart || decide (s.tether.gs = .agreed) || decide (s.tether.gs = .committed)

/-- A knob's loop may act now (R313, R316, R319): in use, not pinned, its DWELL over; the island knobs in Domain style only. -/
def State.loopDue (s : State) (k : Nat) : Bool :=
  s.loopOn k && decide (s.fmModePinEn k = 0) && decide ((s.knob k).changed + (s.knob k).dwell * uUs ≤ s.time.elapsed)
    && (decide (k < 19) || s.power.domain)

/-- One knob's decision (R319): at most one step, inside the bounds (R313). Where both conditions of a row hold over its windows, the step is up
(DESIGN CHOICE, log 82). -/
def State.loopOne (s : State) (k : Nat) : State :=
  let w := s.knobWants k
  if s.loopDue k ∧ (w.1 ∨ w.2) then
    s.setKnob k (fun q =>
      { q with loop := min (max (knobStep k q.applied w.1) (knobValue k (s.fmFloorValue k))) (knobValue k (s.fmCeilingValue k)) })
  else s

/-- FOREMAN_LOOP (R319, R321, R322): the close of a 1 ms window, with the busy E-cycles of each island and all its E-cycles. -/
def execForemanLoop (busy : List (Nat × Nat × Nat)) (s : State) : Host.Outcome State Fault Refusal :=
  .next (if s.power.mode = .run ∨ s.power.mode = .idle then
      let s1 := s.fmClose busy
      if s1.loopsHeld then s1 else ((List.range 28).foldl State.loopOne s1).fmRefresh (fun _ => false)
    else s)

/-! ### The thermal ceiling (14.3) -/

/-- The level and the count of cool windows after a reading (R318): 400 MHz at HOT, 200 MHz at HOT + 10; a step lifts after 100
consecutive windows below its threshold minus 5. -/
def thermalNext (hot level cool : Nat) (t : Int) : Nat × Nat :=
  let h : Int := (hot : Int)
  if h + 10 ≤ t ∧ level < 2 then (2, 0)
  else if h ≤ t ∧ level < 1 then (1, 0)
  else if level = 0 then (0, 0)
  else if t < (if level = 2 then h + 5 else h - 5) then (if cool + 1 < 100 then (level, cool + 1) else (level - 1, 0))
  else (level, 0)

/-- THERMAL_WINDOW (R318): a change of the ceiling raises FM_THERMAL_LEVEL and applies at once (R320). -/
def State.thermal (s : State) (t : Int) : State :=
  let n := thermalNext s.fmThermalHot s.foreman.level s.foreman.cool t
  let s1 := s.onForeman (fun f => { f with level := n.1, cool := n.2 })
  if n.1 = s.foreman.level then s1
  else (s1.raise .fmThermalLevel (le 1 s.foreman.level ++ le 1 n.1 ++ le 1 (unsigned 8 t))).fmEnvelope

def execThermalWindow (hottest : Int) (s : State) : Host.Outcome State Fault Refusal :=
  .next (match s.power.mode with
    | .run | .idle | .entering => s.thermal hottest
    | _ => s)

end Sys2Proof.Machine
end

