-- ==== Sys2Proof/Machine/Tether.lean ====
section
/-! DEFINITION. The Tether and the Stand (15_tether): frames and their check, the transmit queue, the station claim, fallback
time, group sleep, fail-over announcements and operator messages. -/
namespace Sys2Proof.Machine

/-! ### Frames (15.2) -/

/-- Priority, least and greatest LEN of a frame type (Table 15-2). -/
def tetherType (typ : Nat) : Option (Nat × Nat × Nat) :=
  if typ = 0x10 ∨ typ = 0x12 then some (0, 2, 2)
  else if typ = 0x11 then some (0, 0, 0)
  else if typ = 0x20 then some (1, 0, 0)
  else if typ = 0x21 then some (1, 10, 10)
  else if typ = 0x13 ∨ typ = 0x16 then some (2, 10, 10)
  else if typ = 0x14 then some (2, 2, 2)
  else if typ = 0x15 then some (2, 3, 3)
  else if typ = 0x30 then some (3, 10, 10)
  else if typ = 0x01 ∨ typ = 0x02 then some (4, 9, 9)
  else if typ = 0x03 then some (5, 10, 10)
  else if typ = 0x40 then some (6, 0, 32)
  else none

/-- The priority of a frame type. -/
def tetherPrio (typ : Nat) : Nat := match tetherType typ with | some p => p.1 | none => 7

/-- The identifier: priority [15:13], type [12:6], station [5:0] (R329). -/
def tetherId (typ station : Nat) : Nat := tetherPrio typ * 2 ^ 13 + typ * 2 ^ 6 + station

/-- CLAIM, OBJECT and HEARTBEAT fold 0 and carry the session (R330). -/
def tetherMember (typ : Nat) : Bool := decide (1 ≤ typ) && decide (typ ≤ 3)

/-- The check of a frame (R330). -/
def tetherCheck (id seq : Nat) (payload : Bytes) (session : Nat) : Nat :=
  crcFold 0 (be 2 id ++ le 1 payload.length ++ le 1 seq ++ payload) (bits id 0 6 + seq * 2 ^ 8)
    (if tetherMember (bits id 6 7) then 0 else session)

/-- Types that are retried up to 3 times (R334); the others are sent once. -/
def tetherRetried (typ : Nat) : Bool := !tetherMember typ && decide (typ ≠ 0x20) && decide (typ ≠ 0x21)

/-! ### The station table (15.6) -/

/-- A station is present in the local table; a Joined station counts itself (R340, R341). -/
def State.stationHere (s : State) (n : Nat) : Bool :=
  (decide (s.tether.claim = .joined) && decide (s.tether.station = n)) || (s.peer n).present

/-- The lowest present station of which a condition holds. -/
def State.lowest (s : State) (p : Nat → Bool) : Option Nat := (List.range 64).find? (fun n => s.stationHere n && p n)

/-- TIME_GOOD (R340): SOURCE is PTP or PTM. -/
def State.timeGood (s : State) : Bool := s.time.source = .ptp ∨ s.time.source = .ptm

/-- The Elder and the time reference after a change of the table (R341, R342, R344); with no station present both stay. -/
def State.elderRefresh (s : State) : State :=
  let e := (s.lowest (fun _ => true)).getD s.tether.elder
  let s1 := s.onTether (fun t => { t with elder := e })
  if e = s.tether.elder then s1 else s1.raise .tetherElderChanged (le 1 e)

def State.refRefresh (s : State) : State :=
  let r := (s.lowest (fun n => (s.peer n).timeGood)).getD s.tether.elder
  let s1 := s.onTether (fun t => { t with timeRef := r })
  if r = s.tether.timeRef then s1 else s1.raise .timeRefChanged (le 1 r)

def State.tableRefresh (s : State) : State := s.elderRefresh.refRefresh

/-! ### Sending (15.3, 15.4) -/

/-- The Tether runs: not in Off, not in a Supervisor restart (R325, R340), nor while the Supervisor stays in its boot ROM. -/
def State.tetherRuns (s : State) : Bool :=
  decide (s.tether.claim ≠ .disabled) && decide (s.power.mode ≠ .off) && !s.lookout.supRest && !s.log.bootRom

/-- A claim state lets a frame type be sent (Table 15-3, R338): all of them once Joined, CLAIM while Claiming. -/
def TetherSt.mayOffer (t : TetherSt) (f : TxFrame) : Bool :=
  match t.claim with
  | .joined => true
  | .claiming => decide (f.typ = 1)
  | _ => false

/-- The waiting frame that is offered: the lowest identifier, the oldest of its kind (R331). -/
def TetherSt.offered (t : TetherSt) : Option TxFrame :=
  (t.queue.filter t.mayOffer).foldl (fun b f =>
    match b with
    | none => some f
    | some g => if tetherId f.typ t.station < tetherId g.typ t.station then some f else some g) none

/-- The queue without its first copy of a frame. -/
def dropFirst (f : TxFrame) : List TxFrame → List TxFrame
  | [] => []
  | g :: r => if g = f then r else g :: dropFirst f r

/-- SERIAL and SESSION (Table 15-2). -/
def State.identity (s : State) : Bytes := le 8 Config.serial.toNat ++ le 1 s.tether.session

/-- The HEARTBEAT's payload (Table 15-2). -/
def State.heartbeat (s : State) : Bytes :=
  s.identity ++ le 1 (ofBool s.timeGood + 2 * s.power.mode.code + 16 * ofBool s.pair.fenced)

/-- T of a COMMIT whose SOF is at C (R347). -/
def State.commitT (s : State) (c : Nat) : Nat := max (c + s.tetherGsLeadMs * 1000000) (s.tether.gsP + 80000000)

/-- The waiting frames of a round: AGREE, PROPOSE, COMMIT and WAKE_VETO. -/
def roundFrame (f : TxFrame) : Bool :=
  decide (f.typ = 0x10) || decide (f.typ = 0x13) || decide (f.typ = 0x14) || decide (f.typ = 0x16)

/-- A round ends without sleep (R347, R348): GS_ABORTED with ROUND and the reason; what waited for it is withdrawn. -/
def State.gsAbort (s : State) (reason : Nat) : State :=
  (s.onTether (fun t => { t with gs := .none, gsStat := .aborted, reason := reason, heldWake := none,
                                 queue := t.queue.filter (fun f => !roundFrame f) })).raise .gsAborted
    (le 1 s.tether.round ++ le 1 reason)

/-- The Elder ends its round with ABORT (R347). -/
def State.elderAbort (s : State) (reason : Nat) : State :=
  (s.gsAbort reason).tetherQueue 0x12 (le 1 s.tether.round ++ le 1 reason)

/-- Every member but the Elder itself has agreed (R347). -/
def TetherSt.allAgreed (t : TetherSt) : Bool :=
  (List.range 64).all (fun n => decide (n = t.station) || !bit t.members n || bit t.agreed n)

/-- The Elder sends COMMIT once every AGREE has come (R347); its payload is made at its SOF. -/
def State.gsCommit (s : State) : State :=
  if s.tether.gs = .proposed ∧ s.tether.allAgreed then
    (s.onTether (fun t => { t with gs := .committed, gsStat := .committed })).tetherQueue 0x16 []
  else s

/-- The Elder's COMMIT has not started (R347). -/
def State.commitWaits (s : State) : Bool := s.tether.queue.any (fun f => decide (f.typ = 0x16))

/-- The SOF of the station's own WAKE_VETO falls in [P, T) (R348). -/
def State.ownVeto (s : State) (stamp : Nat) : Bool :=
  decide (s.tether.gs = .agreed) || (decide (s.tether.gs = .committed) && (s.commitWaits || decide (stamp < s.tether.gsT)))

/-- What the SOF of a frame brings about (R345, R347, R348). -/
def State.sofEffect (s : State) (f : TxFrame) (stamp : Nat) : State :=
  if f.typ = 0x13 ∧ f.seq.isNone then (s.onTether (fun t => { t with gsP := stamp })).gsCommit
  else if f.typ = 0x16 ∧ f.seq.isNone then s.onTether (fun t => { t with gsT := s.commitT stamp })
  else if f.typ = 0x10 ∧ s.ownVeto stamp then s.gsAbort 7
  else if f.typ = 3 then
    (s.setPeer s.tether.station (fun p => { p with timeGood := bit (byteAt f.payload 9) 0 })).tableRefresh
  else s

/-- An attempt starts (R331, R334): SEQ advances for a new frame and stays for a retry. -/
def State.attempt (s : State) (f : TxFrame) (stamp : Nat) : State :=
  let t := s.tether
  let seq := f.seq.getD t.seq
  let payload := if f.typ = 0x16 ∧ f.seq.isNone then le 1 t.round ++ le 1 t.gsMode ++ le 8 (s.commitT stamp) else f.payload
  let id := tetherId f.typ t.station
  let s1 := s.onTether (fun t =>
    { t with queue := dropFirst f t.queue, sending := some { f with seq := some seq, payload := payload }, sendAt := stamp,
             seq := if f.seq.isNone then (t.seq + 1) % 256 else t.seq })
  let s2 := match f.slot with
    | some n => s1.setSlot n (fun x => { x with seq := seq })
    | none => s1
  (s2.emit (.tether (tetherWire id seq payload (tetherCheck id seq payload t.session)))).sofEffect { f with payload := payload } stamp

/-- TETHER_TX_START (R331): the SOF of the lowest waiting identifier. -/
def execTetherTxStart (stamp : Nat) (s : State) : Host.Outcome State Fault Refusal :=
  .next (match s.tetherRuns, s.tether.sending, s.tether.offered with
    | true, none, some f => s.attempt f stamp
    | _, _, _ => s)

/-- The status of a frame's operator slot (Table 15-8). -/
def State.slotState (s : State) (f : TxFrame) (st : Nat) : State :=
  match f.slot with
  | some n => s.setSlot n (fun x => { x with state := st })
  | none => s

/-- The frame is offered again at the next idle, unless a held cancel takes effect (R336). -/
def State.offerAgain (s : State) (f : TxFrame) : State :=
  if f.cancel then s.slotState f 3 else s.onTether (fun t => { t with queue := f :: t.queue })

/-- An attempt that failed by a bit error or a missing ACK: a retry, or NO_ACK (R334). -/
def State.txFailed (s : State) (f : TxFrame) : State :=
  if tetherRetried f.typ ∧ f.tries < 3 then s.offerAgain { f with tries := f.tries + 1 } else s.slotState f 5

/-- The FOLLOW of a SYNC: the stamp of its SOF, its SEQ and the source (R342, Table 15-2). -/
def State.followUp (s : State) (f : TxFrame) : State :=
  if f.typ = 0x20 then s.tetherQueue 0x21 (le 8 s.tether.sendAt ++ le 1 (f.seq.getD 0) ++ le 1 s.time.source.code) else s

/-- Another station is present (R334). -/
def State.othersHere (s : State) : Bool := (List.range 64).any (fun n => decide (n ≠ s.tether.station) && (s.peer n).present)

/-- A late collision (R354, Table 15-3): the frame returns to the queue and the station backs off. -/
def State.lateCollision (s : State) (f : TxFrame) : State :=
  ((s.offerAgain f).tetherCount 9).onTether (fun t =>
    { t with claim := .backoff, queue := t.queue.filter (fun g => g.typ ≠ 1) }) |>.raise .tetherLateCollision []

/-- The end of an attempt (R332, R334, R336). -/
def State.txEnd (s : State) (f : TxFrame) (res : TxResult) : State :=
  match res with
  | .acked => ((s.tetherCount 0).slotState f (if f.cancel then 4 else 2)).followUp f
  | .noAck => ((if s.othersHere then s.tetherCount 3 else s).txFailed f).followUp f
  | .bitError => (s.tetherCount 4).txFailed f
  | .arbLost => (s.tetherCount 2).offerAgain f
  | .lateCollision => s.lateCollision f

/-- TETHER_TX_END (R334). -/
def execTetherTxEnd (res : TxResult) (s : State) : Host.Outcome State Fault Refusal :=
  .next (match s.tether.sending with
    | some f => (s.onTether (fun t => { t with sending := none })).txEnd f res
    | none => s)

/-- The payload of an operator slot (Table 15-8). -/
def SlotSt.payload (x : SlotSt) : Bytes := (((List.range 8).map (fun i => le 4 (wget x.data i))).flatten).take x.len

/-- TETHER_TX_CMD SEND (15.4, R336): ignored while the slot is Pending. -/
def State.txSend (s : State) (n : Nat) : State :=
  let x := s.slot n
  if x.state = 1 ∨ 32 < x.len then s
  else (s.setSlot n (fun x => { x with state := 1 })).onTether (fun t => { t with queue := t.queue ++
    [{ typ := 0x40, payload := x.payload, slot := some n, seq := none, tries := 0, cancel := false }] })

def execTetherTxSend (slot : Fin 8) (s : State) : Host.Outcome State Fault Refusal := 
  .next (if s.noPartner then s else ((s.arrives 64).wrote 0x88040 (slot + 256)).txSend slot)

/-- TETHER_TX_CMD CANCEL (R336): at once before SOF, held during an attempt. -/
def State.txCancel (s : State) (n : Nat) : State :=
  if s.tether.queue.any (fun f => f.slot = some n) then
    (s.onTether (fun t => { t with queue := t.queue.filter (fun f => f.slot ≠ some n) })).setSlot n (fun x => { x with state := 3 })
  else s.onTether (fun t =>
    { t with sending := t.sending.map (fun f => if f.slot = some n then { f with cancel := true } else f) })

def execTetherTxCancel (slot : Fin 8) (s : State) : Host.Outcome State Fault Refusal := 
  .next (if s.noPartner then s else ((s.arrives 64).wrote 0x88040 (slot + 512)).txCancel slot)

/-! ### The claim (15.6) -/

/-- A station number is free (R338). -/
def State.numFree (s : State) (n : Nat) : Bool := !(s.peer n).present && decide (n ∉ s.tether.excluded)

/-- The choice of R338: PREFERRED, the number last held, the lowest free number. -/
def State.pickNum (s : State) : Option Nat :=
  let low := (List.range 64).find? s.numFree
  let last := match s.tether.lastNum with | some n => if s.numFree n then some n else low | none => low
  if s.tetherCtrlPrefEn = 1 ∧ s.numFree s.tetherCtrlPreferred then some s.tetherCtrlPreferred else last

/-- A station returns to Listening with a new window (Table 15-3). -/
def State.toListening (s : State) : State :=
  s.onTether (fun t => { t with claim := .listening, excluded := [], queue := t.queue.filter (fun f => f.typ ≠ 1) })

/-- Choosing a number and sending CLAIM (R338); if none is free, TETHER_FULL. -/
def State.choose (s : State) : State :=
  match s.pickNum with
  | some n =>
    (s.onTether (fun t => { t with claim := .claiming, station := n, queue := t.queue.filter (fun f => f.typ ≠ 1) })).tetherQueue
      0x01 s.identity
  | none => s.toListening.raise .tetherFull []

/-- LISTEN_WINDOW_END (R338). -/
def execListenWindowEnd (s : State) : Host.Outcome State Fault Refusal :=
  .next (if s.tetherRuns ∧ s.tether.claim = .listening then (s.onTether (fun t => { t with excluded := [] })).choose else s)

/-- The station joins (Table 15-3). -/
def State.joinStand (s : State) : State :=
  let s1 := s.onTether (fun t => { t with claim := .joined, lastNum := some t.station, excluded := [] })
  ((s1.tetherQueue 0x03 s1.heartbeat).raise .tetherJoined (le 1 s1.tether.station)).tableRefresh

/-- CLAIM_WINDOW_END (R338): 50 ms from the SOF of the CLAIM. -/
def execClaimWindowEnd (s : State) : Host.Outcome State Fault Refusal :=
  .next (if s.tetherRuns ∧ s.tether.claim = .claiming ∧ s.tether.queue.all (fun f => decide (f.typ ≠ 1)) then s.joinStand else s)

/-- BACKOFF_END (Table 15-3). -/
def execBackoffEnd (s : State) : Host.Outcome State Fault Refusal :=
  .next (if s.tetherRuns ∧ s.tether.claim = .backoff then s.toListening else s)

/-- A commit sets EN to 1: the listen window opens (Table 15-3). -/
def State.tetherEnable (s : State) : State :=
  if s.tether.claim = .disabled then s.onTether (fun t => { t with claim := .listening, excluded := [] }) else s

/-- A commit sets EN to 0 (Table 15-3): the transceiver goes recessive; the Supervisor's own frames are dropped. -/
def State.tetherDisable (s : State) : State :=
  s.onTether (fun t => { t with claim := .disabled, sending := none, gs := .none, heldWake := none,
                                queue := (t.sending.toList ++ t.queue).filter (fun f => f.slot.isSome) })

/-- HEARTBEAT_SEND (R340). -/
def execHeartbeatSend (s : State) : Host.Outcome State Fault Refusal :=
  .next (if s.tetherRuns ∧ s.tether.claim = .joined then s.tetherQueue 0x03 s.heartbeat else s)

/-- TETHER_STATION_GONE (R340): the presence window of a station closes, 1 s of the RTC after its last accepted frame. -/
def execTetherStationGone (station : Fin 64) (s : State) : Host.Outcome State Fault Refusal :=
  .next (if (s.peer station).present ∧ 32768 ≤ (s.rtc.count + 2 ^ 48 - (s.peer station).lastAt) % 2 ^ 48 then
      ((s.setPeer station (fun p => { p with present := false, timeGood := false })).raise .tetherStationGone (le 1 station)).tableRefresh
    else s)

/-! ### Receiving (R333, R335) -/

/-- The counter of a frame that is rejected, or none (R329, R333). -/
def State.rxReject (s : State) (f : TetherFrame) : Option Nat :=
  let n := bits f.id.toNat 0 6
  let typ := bits f.id.toNat 6 7
  match f.form with
  | .stuffError => some 6
  | .formError => some 7
  | .ok =>
    match tetherType typ with
    | none => some 7
    | some p =>
      if bits f.id.toNat 13 3 ≠ p.1 ∨ f.payload.length < p.2.1 ∨ p.2.2 < f.payload.length then some 7
      else if tetherMember typ = false ∧ (s.peer n).known = false then some 5
      else if f.check.toNat ≠ tetherCheck f.id.toNat f.seq.toNat f.payload (s.peer n).session then some 5
      else none

/-- A repeat of the last accepted frame of a station within 1 s of the RTC (R335). -/
def State.rxRepeat (s : State) (f : TetherFrame) : Bool :=
  let p := s.peer (bits f.id.toNat 0 6)
  p.lastOk.any (fun t => decide ((s.rtc.count + 2 ^ 48 - t) % 2 ^ 48 < 32768)) && decide (p.lastId = f.id.toNat) && decide (p.lastSeq = f.seq.toNat)

/-- An accepted frame: acknowledged, counted, and its station present (R333, R340). -/
def State.rxAccept (s : State) (f : TetherFrame) : State :=
  let n := bits f.id.toNat 0 6
  let was := s.stationHere n
  let s1 := ((s.emit .tetherAck).tetherCount 1).setPeer n (fun p =>
    { p with present := true, lastAt := s.rtc.count, lastOk := some s.rtc.count, lastId := f.id.toNat, lastSeq := f.seq.toNat })
  (if was then s1 else s1.raise .tetherStationUp (le 1 n)).tableRefresh

/-- A received frame (R333, R335): `act` is what an accepted frame of the row's type does, given its station. A frame that is rejected is
counted under whichever row brings it; an acceptable one of another type is not that row's. -/
def State.tetherIn (s : State) (typ : Nat) (f : TetherFrame) (act : State → Nat → State) : State :=
  if s.tetherRuns = false then s
  else
    match s.rxReject f with
    | some c => s.tetherCount c
    | none =>
      if bits f.id.toNat 6 7 ≠ typ then s
      else if s.rxRepeat f then (s.emit .tetherAck).tetherCount 8 else act (s.rxAccept f) (bits f.id.toNat 0 6)

/-! ### Membership (R339, R340) -/

/-- SERIAL and SESSION of a membership frame are recorded for its station (R337). -/
def State.recordMember (s : State) (n : Nat) (f : TetherFrame) : State :=
  s.setPeer n (fun p => { p with serial := leAt f.payload 0 8, session := byteAt f.payload 8, known := true })

/-- TETHER_DUPLICATE with both serials, own first (Table 15-9). -/
def State.duplicate (s : State) (serial : Nat) : State :=
  s.raise .tetherDuplicate (le 8 Config.serial.toNat ++ le 8 serial)

/-- A Claiming station gives up its number and chooses again without it (Table 15-3). -/
def State.chooseAgain (s : State) : State :=
  (s.onTether (fun t => { t with excluded := t.station :: t.excluded })).choose

/-- Two Joined stations of one number (R339): the lower SERIAL keeps it and answers with OBJECT. -/
def State.joinedTwice (s : State) (serial : Nat) : State :=
  if serial < Config.serial.toNat then s.toListening.duplicate serial else s.tetherQueue 0x02 s.identity

/-- A CLAIM (R339). -/
def State.claimIn (f : TetherFrame) (s : State) (n : Nat) : State :=
  let serial := leAt f.payload 0 8
  let s1 := s.recordMember n f
  if n ≠ s.tether.station ∨ serial = Config.serial.toNat then s1
  else
    match s.tether.claim with
    | .joined => s1.tetherQueue 0x02 s.identity
    | .claiming => if serial < Config.serial.toNat then (s1.duplicate serial).chooseAgain else s1
    | _ => s1

def execClaim (frame : TetherFrame) (s : State) : Host.Outcome State Fault Refusal :=
  .next (s.tetherIn 0x01 frame (State.claimIn frame))

/-- An OBJECT (R339): the holder of the number keeps it. -/
def State.objectIn (f : TetherFrame) (s : State) (n : Nat) : State :=
  let serial := leAt f.payload 0 8
  let s1 := s.recordMember n f
  if n ≠ s.tether.station ∨ serial = Config.serial.toNat then s1
  else
    match s.tether.claim with
    | .claiming => s1.chooseAgain
    | .joined => s1.joinedTwice serial
    | _ => s1

def execObject (frame : TetherFrame) (s : State) : Host.Outcome State Fault Refusal :=
  .next (s.tetherIn 0x02 frame (State.objectIn frame))

/-- A HEARTBEAT (R339, R340, R342). -/
def State.heartbeatIn (f : TetherFrame) (s : State) (n : Nat) : State :=
  let serial := leAt f.payload 0 8
  let s1 := s.recordMember n f
  if n = s.tether.station ∧ s.tether.claim = .joined then
    if serial = Config.serial.toNat then s1 else s1.joinedTwice serial
  else (s1.setPeer n (fun p => { p with timeGood := bit (byteAt f.payload 9) 0 })).tableRefresh

def execHeartbeat (frame : TetherFrame) (s : State) : Host.Outcome State Fault Refusal :=
  .next (s.tetherIn 0x03 frame (State.heartbeatIn frame))

/-! ### Fallback time (15.7) -/

/-- SYNC_SEND (R342). -/
def execSyncSend (s : State) : Host.Outcome State Fault Refusal :=
  .next (if s.tetherRuns ∧ s.tether.claim = .joined ∧ s.tether.timeRef = s.tether.station ∧ s.coreRuns then s.tetherQueue 0x20 []
    else s)

/-- A SYNC of the reference is kept with its stamp (R343). -/
def State.syncIn (f : TetherFrame) (s : State) (n : Nat) : State :=
  if n = s.tether.timeRef then s.onTether (fun t => { t with syncSeq := some (f.seq.toNat, f.stamp) }) else s

def execSync (frame : TetherFrame) (s : State) : Host.Outcome State Fault Refusal :=
  .next (s.tetherIn 0x20 frame (State.syncIn frame))

/-- The SYNC that a FOLLOW names, if the FOLLOW is applied (R343): the stamp of its SOF. -/
def State.followSync (s : State) (n : Nat) (f : TetherFrame) : Option Nat :=
  match s.tether.syncSeq with
  | some (q, st) =>
    if n = s.tether.timeRef ∧ ¬(s.tether.claim = .joined ∧ n = s.tether.station) ∧ q = byteAt f.payload 8
        ∧ f.stamp < st + 10000000 ∧ s.timeSrcEnTether = 1 ∧ s.timeGood = false ∧ s.coreRuns then some st
    else none
  | none => none

/-- The rate that a small offset in ns gives (R343): the offset removed over 1 s, 800,000,000 J-cycles, plus the frequency term,
whose form the spec leaves open; TIME_RATE moves by at most 20 ppm and stays within R41. -/
def State.followRate (s : State) (offset : Int) : Int :=
  let term := signed 32 (s.freeNat 32)
  let r := -(offset * 2 ^ 32) / 800000000 + term
  max (-2684354) (min 2684354 (max (s.time.rate - 107374) (min (s.time.rate + 107374) r)))

/-- A FOLLOW (R343): a Step from an offset of 10 µs on, otherwise a Rate. -/
def State.followIn (f : TetherFrame) (s : State) (n : Nat) : State :=
  match s.followSync n f with
  | some st =>
    let offset : Int := (st : Int) - (s.tetherDelayNs : Int) - (leAt f.payload 0 8 : Int)
    let s1 := s.onTether (fun t => { t with offsets := (t.offsets ++ [offset]).drop (t.offsets.length - 15) })
    let big := decide (10000 ≤ offset.natAbs)
    let x := if big then -offset * 65536 else s.followRate offset
    let s2 := if big then s1.adjust 3 2 x else s1.useFree.adjust 3 1 x
    if s1.time.due.length < s2.time.due.length then s2.tetherCount 11 else s2
  | none => s

def execFollow (frame : TetherFrame) (s : State) : Host.Outcome State Fault Refusal :=
  .next (s.tetherIn 0x21 frame (State.followIn frame))

/-! ### Group sleep (15.8) -/

/-- The mode that a MODE field names. -/
def gsModeOf (mode : Nat) : PwrMode := if mode = 2 then .deepSleep else .sleep

/-- The first reason of Table 15-6 that refuses a proposal, or 0 (R346). -/
def State.gsRefusal (s : State) (sender mode : Nat) (hottest : Int) : Nat :=
  if s.tether.gs ≠ .none then 1
  else if sender ≠ s.tether.elder then 2
  else if s.tetherCtrlGsAllow = 0 then 3
  else if s.entryReason (gsModeOf mode) ≠ 0 ∨ (mode = 2 ∧ s.aoBudgetUa < s.aoEstimate hottest) then 4
  else if bit s.wakeEnEn 1 = false then 5
  else 0

/-- The map of the stations present (R340, R345). -/
def State.presentMap (s : State) : Nat := ((List.range 64).map (fun n => if s.stationHere n then 2 ^ n else 0)).sum

/-- GS_CMD PROPOSE (R345). -/
def State.gsPropose (s : State) (mode : Nat) (hottest : Int) : State :=
  let why := if s.tether.claim = .joined then s.gsRefusal s.tether.station mode hottest else 2
  if why ≠ 0 then s.onTether (fun t => { t with gsStat := .refused, reason := why })
  else
    let s1 := s.onTether (fun t =>
      { t with gs := .proposed, gsStat := .proposed, round := (t.round + 1) % 256, proposer := t.station, reason := 0,
               gsMode := mode, members := s.presentMap, agreed := 0 })
    s1.tetherQueue 0x13 (le 1 s1.tether.round ++ le 1 mode ++ le 8 s1.tether.members)

/-- TETHER_GS_CMD as written (Table 15-8). -/
def State.gsWritten (s : State) (v : Nat) : State := (s.arrives 64).onTether (fun t => { t with gsCmdBits := v })

def execGsCmdPropose (mode : BitVec 2) (hottest : Int) (s : State) : Host.Outcome State Fault Refusal :=
  .next (if s.noPartner then s
    else
      let s1 := s.gsWritten (1 + 4 * mode.toNat)
      if mode = 1 ∨ mode = 2 then s1.gsPropose mode.toNat hottest else s1)

/-- A veto cause of a member that has agreed (R348): one WAKE_VETO waits at a time. -/
def State.gsVeto (s : State) : State :=
  if (s.tether.gs = .agreed ∨ s.tether.gs = .committed) ∧ s.tether.queue.all (fun f => decide (f.typ ≠ 0x10)) then
    s.tetherQueue 0x10 (le 1 s.tether.round ++ le 1 s.tether.proposer)
  else s

/-- GS_CMD VETO (R348). -/
def execGsCmdVeto (s : State) : Host.Outcome State Fault Refusal := 
  .next (if s.noPartner then s else (s.gsWritten 2).gsVeto)

/-- GS_CMD WAKE_ALL (R351). -/
def execGsCmdWakeAll (s : State) : Host.Outcome State Fault Refusal := 
  .next (if s.noPartner then s else (s.gsWritten 3).tetherQueue 0x11 [])

/-- A frame belongs to the round that is open here. -/
def State.ourRound (s : State) (round proposer : Nat) : Bool :=
  decide (s.tether.gs ≠ .none) && decide (s.tether.round = round) && decide (s.tether.proposer = proposer)

/-- A WAKE_VETO (R347, R348): one whose SOF falls in [P, T) aborts the round; the Elder before its COMMIT sends ABORT. -/
def State.vetoIn (f : TetherFrame) (s : State) (_ : Nat) : State :=
  if s.ourRound (byteAt f.payload 0) (byteAt f.payload 1) ∧ s.tether.gsP ≤ f.stamp then
    if s.tether.gs = .proposed ∨ s.commitWaits then s.elderAbort 7
    else if s.tether.gs = .committed ∧ s.tether.gsT ≤ f.stamp then s
    else s.gsAbort 7
  else s

def execWakeVeto (frame : TetherFrame) (s : State) : Host.Outcome State Fault Refusal :=
  .next (s.tetherIn 0x10 frame (State.vetoIn frame))

/-- A WAKE_ALL (R351): a wake in Sleep and Deep sleep, latched during an entry; no effect in Run and Idle. -/
def State.wakeAllIn (s : State) (n : Nat) : State :=
  match s.power.mode with
  | .sleep | .deepSleep | .entering | .exiting => s.registerWake 6 n
  | _ => s

def execWakeAll (frame : TetherFrame) (s : State) : Host.Outcome State Fault Refusal :=
  .next (s.tetherIn 0x11 frame State.wakeAllIn)

/-- An ABORT of the proposer (Table 15-4). -/
def State.abortIn (f : TetherFrame) (s : State) (n : Nat) : State :=
  if s.ourRound (byteAt f.payload 0) n ∧ s.tether.gs ≠ .proposed then s.gsAbort (byteAt f.payload 1) else s

def execAbort (frame : TetherFrame) (s : State) : Host.Outcome State Fault Refusal :=
  .next (s.tetherIn 0x12 frame (State.abortIn frame))

/-- A PROPOSE that names this station is answered (R346). -/
def State.proposeIn (f : TetherFrame) (hottest : Int) (s : State) (n : Nat) : State :=
  let round := byteAt f.payload 0
  let mode := byteAt f.payload 1
  if s.tether.claim ≠ .joined ∨ bit (leAt f.payload 2 8) s.tether.station = false ∨ ¬(mode = 1 ∨ mode = 2) then s
  else
    let why := s.gsRefusal n mode hottest
    if why ≠ 0 then s.tetherQueue 0x15 (le 1 round ++ le 1 n ++ le 1 why)
    else (s.onTether (fun t =>
      { t with gs := .agreed, gsStat := .agreed, round := round, proposer := n, reason := 0, gsMode := mode,
               members := leAt f.payload 2 8, agreed := 0, gsP := f.stamp })).tetherQueue 0x14 (le 1 round ++ le 1 n)

def execPropose (frame : TetherFrame) (hottest : Int) (s : State) : Host.Outcome State Fault Refusal :=
  .next (s.tetherIn 0x13 frame (State.proposeIn frame hottest))

/-- An answer counts (R346): it names the Elder's open proposal, and its SOF falls in [P, P + 50 ms). -/
def State.answers (s : State) (f : TetherFrame) : Bool :=
  decide (s.tether.gs = .proposed) && s.ourRound (byteAt f.payload 0) (byteAt f.payload 1)
    && decide (s.tether.gsP ≤ f.stamp) && decide (f.stamp < s.tether.gsP + 50000000)

/-- An AGREE (R347). -/
def State.agreeIn (f : TetherFrame) (s : State) (n : Nat) : State :=
  if s.answers f ∧ bit s.tether.members n then
    (s.onTether (fun t => { t with agreed := Nat.lor t.agreed (2 ^ n) })).gsCommit
  else s

def execAgree (frame : TetherFrame) (s : State) : Host.Outcome State Fault Refusal :=
  .next (s.tetherIn 0x14 frame (State.agreeIn frame))

/-- A REFUSE (R347): the Elder sends ABORT with reason REFUSED. -/
def State.refuseIn (f : TetherFrame) (s : State) (n : Nat) : State :=
  if s.answers f ∧ bit s.tether.members n then s.elderAbort 8 else s

def execRefuse (frame : TetherFrame) (s : State) : Host.Outcome State Fault Refusal :=
  .next (s.tetherIn 0x15 frame (State.refuseIn frame))

/-- The group-sleep COMMIT at a member that has agreed (R349): T is recorded and GS_COMMITTED raised. -/
def State.commitIn (f : TetherFrame) (s : State) (n : Nat) : State :=
  if s.tether.gs = .agreed ∧ s.ourRound (byteAt f.payload 0) n then
    (s.onTether (fun t => { t with gs := .committed, gsStat := .committed, gsMode := byteAt f.payload 1,
                                   gsT := leAt f.payload 2 8 })).raise .gsCommitted
      (le 1 (byteAt f.payload 0) ++ le 1 (byteAt f.payload 1) ++ le 8 (leAt f.payload 2 8))
  else s

def execTetherCommit (frame : TetherFrame) (s : State) : Host.Outcome State Fault Refusal :=
  .next (s.tetherIn 0x16 frame (State.commitIn frame))

/-- GS_AGREE_WINDOW_END (R347): [P, P + 50 ms) closes without every AGREE. -/
def execGsAgreeWindowEnd (s : State) : Host.Outcome State Fault Refusal :=
  .next (if s.tether.gs = .proposed ∧ s.tether.queue.all (fun f => decide (f.typ ≠ 0x13)) ∧ s.tether.gsP + 50000000 ≤ s.time64 then s.elderAbort 6
    else s)

/-- GS_COMMIT_DEADLINE (R347): the Elder's COMMIT cannot start before P + 55 ms. -/
def execGsCommitDeadline (s : State) : Host.Outcome State Fault Refusal :=
  .next (if s.tether.gs = .committed ∧ s.commitWaits ∧ s.tether.gsP + 55000000 ≤ s.time64 then s.elderAbort 6 else s)

/-- GS_MEMBER_TIMEOUT (R348): no COMMIT or ABORT by P + 60 ms. -/
def execGsMemberTimeout (s : State) : Host.Outcome State Fault Refusal :=
  .next (if s.tether.gs = .agreed ∧ s.tether.gsP + 60000000 ≤ s.time64 then s.gsVeto else s)

/-- T (R349, R350): a WAKE_VETO that has not started is cancelled, and the entry begins; a member whose entry is refused sends
WAKE_ALL. -/
def State.gsTime (s : State) (hottest : Int) : State :=
  let s1 := s.onTether (fun t => { t with gs := .none, gsStat := .none, group := true,
                                          queue := t.queue.filter (fun f => f.typ ≠ 0x10) })
  let r := s1.enter s1.tether.gsTarget hottest
  if r.2 = 0 then r.1 else r.1.groupRefused

def execGsCommitTime (hottest : Int) (s : State) : Host.Outcome State Fault Refusal :=
  .next (if s.tether.gs = .committed ∧ s.commitWaits = false ∧ s.tether.gsT ≤ s.time64 then s.gsTime hottest else s)

/-! ### Fail-over announcements and operator messages (15.9) -/

/-- A FAILOVER (R352). -/
def State.failoverIn (f : TetherFrame) (s : State) (n : Nat) : State :=
  (s.setPeer n (fun p => { p with kind := bits (byteAt f.payload 0) 0 3 })).raise .standFailover
    (le 1 n ++ le 1 (byteAt f.payload 0) ++ le 1 (byteAt f.payload 1))

def execFailover (frame : TetherFrame) (s : State) : Host.Outcome State Fault Refusal :=
  .next (s.tetherIn 0x30 frame (State.failoverIn frame))

/-- An OPERATOR frame (R353): a FIFO entry and TETHER_MSG, or an overflow. -/
def State.operatorIn (f : TetherFrame) (s : State) (n : Nat) : State :=
  if s.tether.fifo.length < 16 then
    (s.onTether (fun t => { t with fifo := t.fifo ++
      [{ station := n, seq := f.seq.toNat, stamp := f.stamp, data := f.payload }] })).raise .tetherMsg (le 1 n)
  else s.tetherCount 10

def execOperator (frame : TetherFrame) (s : State) : Host.Outcome State Fault Refusal :=
  .next (s.tetherIn 0x40 frame (State.operatorIn frame))

/-- TETHER_RX_POP (Table 15-8): the oldest entry is removed. -/
def execTetherRxPop (s : State) : Host.Outcome State Fault Refusal :=
  .next (if s.noPartner then s else ((s.arrives 64).wrote 0x88304 1).onTether (fun t => { t with fifo := t.fifo.drop 1 }))

end Sys2Proof.Machine
end

