-- ==== Sys2Proof/Machine/SetupOps.lean ====
section
/-! DEFINITION. A sealed set: its validation (R14, 00_scope, and the refused combinations of each block) and its application
to the active set-up with what follows from it in the apply J-cycle. -/
namespace Sys2Proof.Machine

/-! ### Staged words -/

/-- A word with the staged bits over it. -/
def StagedW.over (x : StagedW) (w : Word) : Word := (w &&& ~~~x.mask) ||| (x.val &&& x.mask)

/-- Two writes of one word: the later one's bits stand. -/
def StagedW.join (old new : StagedW) : StagedW := { mask := old.mask ||| new.mask, val := new.over old.val }

/-- A word without the bits that a later write holds. -/
def StagedW.minus (x : StagedW) (m : Word) : StagedW := { x with mask := x.mask &&& ~~~m, val := x.val &&& ~~~m }

/-- Staging bits of a word. -/
def stagePut (t : List (Nat × StagedW)) (key : Nat) (x : StagedW) : List (Nat × StagedW) :=
  if x.mask = 0 then t
  else match Tbl.find t key with
    | some o => Tbl.insert t key (o.join x)
    | none => Tbl.insert t key x

/-- The active words with a set's over them. -/
def overWords (active : List (Nat × Word)) (l : List (Nat × StagedW)) : List (Nat × Word) :=
  l.foldl (fun t e => Tbl.put resetWord t e.1 (e.2.over (Tbl.get resetWord t e.1))) active

/-- The BAR0 offset of a set-up word: that of its window for the tables behind RX_FN_SEL (R181, 07_receive). -/
def keyOffset (key : Nat) : Nat := if key < 0x100000 then key else (key - 0x100000) % 0x1000 + 0x23000

/-- The candidate set-up: the active one with a set over it. -/
def State.withSet (s : State) (p : SealedSet) : State :=
  s.onSetup (fun u => { u with active := overWords u.active p.words, flows := flowOver p.flows u.flows })

/-! ### Out of range (R14) -/

/-- A written field of a word holds a value outside the range of its home table. -/
def wordBad (t : State) (e : Nat × StagedW) : Bool :=
  match regAt (keyOffset e.1) with
  | some (r, _) => r.fields.any (fun f =>
      decide (bits e.2.mask.toNat f.lo f.n ≠ 0) && !(f.inRange (t.activeWord e.1)))
  | none => false

/-- The least of a list of offsets. -/
def leastOf : List Nat → Option Nat
  | [] => none
  | x :: r => some (r.foldl min x)

/-! ### Refused combinations -/

/-- One combination: the words and bits that take part, and whether it is refused. -/
structure Combo where
  part : Nat → Nat
  bad  : Bool

/-- The bits of one word. -/
def partIn (key mask : Nat) : Nat → Nat := fun k => if k = key then mask else 0

/-- All the bits of a range of words. -/
def partRange (lo hi : Nat) : Nat → Nat := fun k => if lo ≤ k ∧ k < hi then 2 ^ 32 - 1 else 0

/-- The bits that take part in either of two. -/
def partBoth (a b : Nat → Nat) : Nat → Nat := fun k => Nat.lor (a k) (b k)

/-- The written offsets that take part in a refused combination. -/
def Combo.hits (words : List (Nat × StagedW)) (c : Combo) : List Nat :=
  let l := words.filter (fun e => Nat.land e.2.mask.toNat (c.part e.1) ≠ 0)
  if l.isEmpty then [] else if c.bad then l.map (fun e => keyOffset e.1) else []

/-- ENABLE with TB_RATE 0 (R93, 04_host_links), and STAG_VID under STAG_FORCE (Table 4-13). -/
def profCombos (t : State) (f : Nat) : List Combo :=
  [ { part := partBoth (partIn (0x5000 + 0x20 * f) 1) (partIn (0x5010 + 0x20 * f) (2 ^ 20 - 1)),
      bad := t.profCtrlEnable f = 1 && t.tbRateMbps f = 0 },
    { part := partIn (0x5000 + 0x20 * f) (8 + 0xFFF0000),
      bad := t.profCtrlStagForce f = 1 && (t.profCtrlStagVid f = 0 || t.profCtrlStagVid f = 4095) },
    { part := fun k => if 0x5000 ≤ k ∧ k < 0x5800 ∧ k % 0x20 = 0 ∧ (k = 0x5000 + 0x20 * f ∨
          (t.profCtrlStagForce ((k - 0x5000) / 0x20) = 1 ∧ t.profCtrlStagVid ((k - 0x5000) / 0x20) = t.profCtrlStagVid f))
        then 8 + 0xFFF0000 else 0,
      bad := t.profCtrlStagForce f = 1 && (List.range 64).any (fun g => decide (g ≠ f) && t.profCtrlStagForce g = 1 &&
        t.profCtrlStagVid g = t.profCtrlStagVid f) } ]

/-- The memory of a function's rings, queues and event ring lies inside its active windows (R100, 04_host_links). -/
def State.ringsInside (s t : State) (f : Nat) : Bool :=
  s.tx.all (fun e => decide (e.2.fn ≠ f) || e.2.state = .unused || t.fenceOk f e.2.base (32 * ringN e.2.size)) &&
  s.rx.all (fun e => decide (e.2.fn ≠ f) || e.2.state = .unused || t.fenceOk f e.2.base (16 * ringN e.2.size)) &&
  s.cq.all (fun e => decide (e.2.fn ≠ f) || e.2.state = .unused || t.fenceOk f e.2.base (32 * ringN e.2.size)) &&
  s.events.rings.all (fun e => decide (64 + e.1 ≠ f) || e.2.state = .unused || t.fenceOk f e.2.base (32 * ringN e.2.size))

/-- An OF's memory outside its windows (R100, 04_host_links). -/
def ofCombo (s t : State) (n : Nat) : Combo :=
  { part := partRange (0x6000 + 0x100 * (64 + n)) (0x6000 + 0x100 * (65 + n)), bad := !(s.ringsInside t (64 + n)) }

/-- Two allocations overlap (R129, 05_rings_and_doorbells). -/
def allocOver (t : State) (f g : Nat) : Bool :=
  let n := fun (x : Nat) => if isOf x then 32 else 8
  let c := fun (x : Nat) => if isOf x then 32 else 2
  let ov := fun (a b la lb : Nat) => decide (a < b + lb) && decide (b < a + la)
  ov (t.ringAllocTxBase f) (t.ringAllocTxBase g) (n f) (n g) || ov (t.ringAllocRxBase f) (t.ringAllocRxBase g) (n f) (n g)
    || ov (t.ringAllocCqBase f) (t.ringAllocCqBase g) (c f) (c g)

/-- An allocation runs past ring 639 or queue 255, or changes under a function that is in use (R129). -/
def allocBad (s t : State) (f : Nat) : Bool :=
  let n := if isOf f then 32 else 8
  let c := if isOf f then 32 else 2
  let busy := match (s.fn f).state with | .checking | .enrolled | .evicting => true | _ => false
  decide (640 < t.ringAllocTxBase f + n) || decide (640 < t.ringAllocRxBase f + n) || decide (256 < t.ringAllocCqBase f + c)
    || (busy && decide (t.activeWord (0x10100 + 4 * f) ≠ s.activeWord (0x10100 + 4 * f)))

/-- RING_ALLOC of one function (R129). -/
def allocCombo (s t : State) (f : Nat) : Combo :=
  { part := partIn (0x10100 + 4 * f) (2 ^ 28 - 1),
    bad := allocBad s t f || (List.range 68).any (fun g => decide (g ≠ f) && allocOver t f g) }

/-- The classes of an instance that use the shaper. -/
def shaped (t : State) (m : Nat) : List Nat := (List.range 8).filter (fun c => bit (t.schCtrlCbsEn m) c)

/-- The words of a port's BREAKOUT. -/
def partBreakout (m : Nat) : Nat → Nat := partIn (0x42000 + 0x40 * (m / 8)) 7

/-- The shaper (R138, 06_transmit): P in Mb/s; a missing instance is not tested (R183, 08_the_wire). -/
def shapeCombos (t : State) (m : Nat) : List Combo :=
  let here := t.instExists m
  (List.range 8).map (fun c =>
    { part := partBoth (partBoth (partIn (0x30000 + 0x40 * m) (2 ^ (8 + c))) (partIn (0x30800 + 0x20 * m + 4 * c) (2 ^ 20 - 1)))
        (partBreakout m),
      bad := here && bit (t.schCtrlCbsEn m) c && (t.cbsSlopeMbps m c = 0 || decide (t.rate m < t.cbsSlopeMbps m c)) }) ++
  [ { part := partBoth (partBoth (partIn (0x30000 + 0x40 * m) (2 ^ 8 * t.schCtrlCbsEn m)) (fun k =>
          if 0x30800 + 0x20 * m ≤ k ∧ k < 0x30820 + 0x20 * m ∧ bit (t.schCtrlCbsEn m) ((k - 0x30800 - 0x20 * m) / 4) then 2 ^ 20 - 1
          else 0)) (partBreakout m),
      bad := here && decide (t.rate m < ((shaped t m).map (fun c => t.cbsSlopeMbps m c)).sum) } ]

/-- An interval among the first GCL_LEN is 0 or above 1,000,000,000 (R140, 06_transmit). -/
def intervalBad (t : State) (m e : Nat) : Bool :=
  decide (e < t.gclLenLen m) && (t.gclIntervalNs m e = 0 || decide (1000000000 < t.gclIntervalNs m e))

def gclCombo (t : State) (m : Nat) : Combo :=
  { part := fun k =>
      if k = 0x30008 + 0x40 * m then 0x1FF
      else if 0x34000 + 0x800 * m ≤ k ∧ k < 0x34800 + 0x800 * m ∧ k % 8 = 4 ∧ intervalBad t m ((k - 0x34000 - 0x800 * m) / 8) then
        2 ^ 30 - 1
      else 0,
    bad := (List.range 256).any (intervalBad t m) }

/-- The thresholds of one class of an instance (R174, 07_receive). -/
def pfcCombo (t : State) (i : Nat) : Combo :=
  { part := partBoth (partIn (0x21000 + 8 * i) 0xFFFF) (partIn (0x21004 + 8 * i) 0xFFFF),
    bad := decide (t.pfcXoffCells i ≤ t.pfcXonCells i) }

/-- The headroom of all instances (R176, 07_receive). -/
def headCombo (t : State) : Combo :=
  { part := fun k => if 0x20000 ≤ k ∧ k < 0x20200 ∧ k % 0x20 = 8 then 0x3FFF else 0,
    bad := decide (8192 < ((List.range 16).map (fun m => t.headroomCells m)).sum) }

/-- FEC, PAUSE and link idle of an instance (R184, R196, R200, 08_the_wire). -/
def macCombos (s t : State) (m : Nat) : List Combo :=
  [ { part := partBoth (partIn (0x40000 + 0x100 * m) 0xE) (partBreakout m),
      bad := t.instExists m && decide (t.macCfgFecMode m ≠ 4) && !((fecModes (t.rate m)).contains (t.macCfgFecMode m)) },
    { part := partIn (0x40010 + 0x100 * m) (2 ^ 32 - 1),
      bad := t.fcQuantaRefresh m = 0 || decide (t.fcQuantaQuanta m ≤ t.fcQuantaRefresh m) },
    { part := partIn (0x40014 + 0x100 * m) (2 ^ 32 - 1), bad := decide (t.pauseThreshXoff m ≤ t.pauseThreshXon m) },
    { part := partIn (0x40000 + 0x100 * m) (2 ^ 17),
      bad := s.macCfgLpiEn m = 0 && t.macCfgLpiEn m = 1 && !(s.mac m).lpiCap } ]

/-- The port whose islands an island index names, if any: PORTn of an engine or NETn (R307, 13_islands_and_power_states). -/
def islandPort (i : Nat) : Option Nat :=
  if i = 0 ∨ i = 7 ∨ i = 14 then some 0 else if i = 1 ∨ i = 8 ∨ i = 15 then some 1 else none

/-- The word of ISL_TARGET_i. -/
def partTarget (i : Nat) : Nat → Nat := partIn (0x2040 + 4 * i) 3

/-- The island's engine is the active one. -/
def State.actsOn (s : State) (i : Nat) : Bool := decide (s.active = some (if i < 7 then .a else .b))

/-- Island targets (R307, 13_islands_and_power_states): what must stay On, what must not be Off, the ports in use, and equal
engines in lockstep; in warm mode the standby's entries are ignored. -/
def islandCombos (s t : State) (i : Nat) : List Combo :=
  let v := t.islTargetTarget i
  let ignored := s.ignoredIsland i
  [ { part := partTarget i, bad := (decide (i = 6) || decide (i = 13) || decide (17 ≤ i)) && decide (v ≠ 0) },
    { part := partTarget i,
      bad := decide (i < 14) && decide (2 ≤ i % 7) && decide (i % 7 ≤ 5) && s.actsOn i && decide (v = 2) },
    { part := match islandPort i with
        | some p => partBoth (partTarget i) (fun k =>
            if 0x40000 + 0x800 * p ≤ k ∧ k < 0x40800 + 0x800 * p ∧ k % 0x100 = 0 ∧ t.macCfgEnable ((k - 0x40000) / 0x100) = 1 then 1 else 0)
        | none => partTarget i,
      bad := match islandPort i with
        | some p => decide (v ≠ 0) && !ignored && t.portEnabled p
        | none => false },
    { part := partBoth (partTarget i) (partTarget (i + 7)),
      bad := decide (i < 7) && !s.pair.warm && decide (v ≠ t.islTargetTarget (i + 7)) } ]

/-- A knob's values (Table 14-1; Table 13-7 for knobs 0 to 6). -/
def knobTakes (k : Nat) (v : Int) : Bool :=
  let within := fun (lo hi : Int) => decide (lo ≤ v) && decide (v ≤ hi)
  if k < 7 then v = 200 || v = 400 || v = 600 || v = 800
  else if k = 7 then within 1 10000
  else if k = 8 then within 1 65535
  else if k < 17 then within (-4) 3
  else if k = 17 then within 1 16
  else if k = 18 then within 25 100
  else within 0 2

/-- The bounds and the pin of a knob (R314, 14_foreman). -/
def knobCombos (t : State) (k : Nat) : List Combo :=
  let at_ := 0x90100 + 0x20 * k
  let value := fun (v : Nat) => knobValue k v
  [ { part := partBoth (partIn (at_ + 4) 0xFFFF) (partIn (at_ + 8) 0xFFFF),
      bad := decide (value (t.fmCeilingValue k) < value (t.fmFloorValue k)) },
    { part := partIn (at_ + 4) 0xFFFF, bad := !(knobTakes k (value (t.fmFloorValue k))) },
    { part := partIn (at_ + 8) 0xFFFF, bad := !(knobTakes k (value (t.fmCeilingValue k))) },
    { part := partIn (at_ + 0xC) 0xFFFF, bad := !(knobTakes k (value (t.fmPinValue k))) } ]

/-- The combinations of a range of indices, looked at only where a word of the block is written. -/
def combosOf (words : List (Nat × StagedW)) (lo hi n : Nat) (f : Nat → List Combo) : List Nat :=
  if words.any (fun e => decide (lo ≤ e.1) && decide (e.1 < hi)) then
    ((List.range n).flatMap f).flatMap (fun c => c.hits words)
  else []

/-- Every written offset that takes part in a refused combination. -/
def State.comboHits (s t : State) (w : List (Nat × StagedW)) : List Nat :=
  combosOf w 0x5000 0x6000 64 (profCombos t) ++ combosOf w 0x6000 0xB000 4 (fun n => [ofCombo s t n]) ++
  combosOf w 0x10100 0x10300 68 (fun f => [allocCombo s t f]) ++ combosOf w 0x30000 0x43000 16 (shapeCombos t) ++
  combosOf w 0x30000 0x3C000 16 (fun m => [gclCombo t m]) ++ combosOf w 0x21000 0x22000 128 (fun i => [pfcCombo t i]) ++
  combosOf w 0x20000 0x20200 1 (fun _ => [headCombo t]) ++ combosOf w 0x40000 0x43000 16 (macCombos s t) ++
  (if w.any (fun e => decide (0x2040 ≤ e.1) && decide (e.1 < 0x2090)) ∨ w.any (fun e => decide (0x40000 ≤ e.1) && decide (e.1 < 0x41000))
    then ((List.range 20).flatMap (islandCombos s t)).flatMap (fun c => c.hits w) else []) ++
  combosOf w 0x90100 0x90500 28 (knobCombos t)

/-- The fault of a set (R14): none, or its offset and REASON, 1 value out of range, 2 refused combination. -/
def State.setFault (s : State) (p : SealedSet) : Option (Nat × Nat) :=
  let t := s.withSet p
  match leastOf ((p.words.filter (wordBad t)).map (fun e => keyOffset e.1)) with
  | some o => some (o, 1)
  | none => (leastOf (s.comboHits t p.words)).map (fun o => (o, 2))

/-! ### Application -/

/-- A set writes a bit of a word. -/
def SealedSet.wrote (p : SealedSet) (key mask : Nat) : Bool :=
  match Tbl.find p.words key with
  | some x => decide (Nat.land x.mask.toNat mask ≠ 0)
  | none => false

/-- A set writes a word of a range. -/
def SealedSet.wroteIn (p : SealedSet) (lo hi : Nat) : Bool := p.words.any (fun e => decide (lo ≤ e.1) && decide (e.1 < hi))

/-- BIFURCATE changes (R78, 04_host_links): both halves of the link go down, in the layout that ends. R78 names no cause for the evictions:
they take that of a link that goes down, 0x03 LINK_DOWN, with its event and count (DESIGN CHOICE, log 80). -/
def State.applyBifurcate (s t : State) (n : Nat) : State :=
  if s.hlCtrlBifurcate n = t.hlCtrlBifurcate n then s else (s.linkLost (2 * n)).linkLost (2 * n + 1)

/-- Credits and token levels are brought up to the apply J-cycle under the set-up that ends (R135, R137, 06_transmit). -/
def State.settleAll (s : State) : State :=
  let s1 := (List.range 16).foldl State.settle s
  (List.range 64).foldl (fun t f => t.setFn f (fun q => { q with tbLevel := t.tokens f, tbAt := t.time.elapsed })) s1

/-- One TF's profile (R90, R100, 04_host_links; R135, 06_transmit). -/
def State.applyProfile (p : SealedSet) (s : State) (f : Nat) : State :=
  let at_ := 0x5000 + 0x20 * f
  let tag := p.wrote at_ 6 || p.wrote (at_ + 8) (2 ^ 32 - 1) || p.wrote (at_ + 12) (2 ^ 32 - 1)
  let clip := s.setFn f (fun q => { q with tbLevel := min q.tbLevel (s.bucketFull f) })
  let s0 := if tag then clip.setFn f (fun q => { q with seen := false, tagSeen := 0 }) else clip
  let q := s0.fn f
  match q.state with
  | .enrolled =>
    if s0.profCtrlEnable f = 0 ∨ tag ∨ p.wrote at_ (8 + 0xFFF0000) ∨ s0.profQuotaTxRings f < q.grantTx ∨
        s0.profQuotaRxRings f < q.grantRx ∨ s0.profQuotaCqs f < q.grantCq ∨ s0.ringsInside s0 f = false then s0.beginEvict f 9 false
    else s0
  | .checking => if s0.profCtrlEnable f = 0 then s0.beginEvict f 9 false else s0
  | .idle => if s0.profCtrlEnable f = 0 then s0.setFn f (fun q => { q with state := .disabled }) else s0
  | .disabled =>
    if s0.profCtrlEnable f = 1 then
      s0.setFn f (fun q => { q with state := if s0.present f then .idle else .absent })
    else s0
  | _ => s0

/-- What a set does to the gate lists of one instance (R140, 06_transmit): GCL writes make a pending list, and GATE_EN written as 0 discards it.
Gates that are enabled with no list of either kind take the active set-up's as the operating list. -/
def SchInst.gcl (x : SchInst) (g : GateList) (wrote off on : Bool) : SchInst :=
  let p := if off then none else if wrote then some g else x.pend
  { x with pend := p, oper := if on && x.oper.isNone && p.isNone then some g else x.oper }

/-- One instance's scheduler (R137, R140, R155, 06_transmit): credits of newly shaped classes, the gate lists, and the sends held against them
where GATE_EN changes. -/
def State.applySched (p : SealedSet) (old : State) (s : State) (m : Nat) : State :=
  let s1 := (List.range 8).foldl (fun t c =>
    if bit (t.schCtrlCbsEn m) c ∧ bit (old.schCtrlCbsEn m) c = false then t.setCredit m c 0 else t) s
  let wrote := p.wroteIn (0x30004 + 0x40 * m) (0x30018 + 0x40 * m) || p.wroteIn (0x34000 + 0x800 * m) (0x34800 + 0x800 * m)
  let on := decide (s1.schCtrlGateEn m = 1)
  let off := p.wrote (0x30000 + 0x40 * m) 2 && !on
  let s2 := if wrote || off || on then s1.setSch m (fun x => x.gcl (s1.gateListOf m) wrote off on) else s1
  if s2.schCtrlGateEn m = old.schCtrlGateEn m then s2 else s2.gateLists m

/-- One port's BREAKOUT (R183, 08_the_wire): every instance goes Down, and those of the new layout train. -/
def State.applyBreakout (old : State) (s : State) (p : Nat) : State :=
  if s.portCfgBreakout p = old.portCfgBreakout p then s
  else
    let s1 := s.portDown p 4
    ((List.range 8).map (fun j => 8 * p + j)).foldl (fun t m =>
      (t.setMac m (fun x => { x with link := .disabled, laneOk := 0, fails := 0 })) |> fun u =>
        if u.macCfgEnable m = 1 then u.instEnable m else u) s1

/-- One instance's ENABLE (Table 8-3, 08_the_wire). -/
def State.applyEnable (old : State) (s : State) (m : Nat) : State :=
  if s.macCfgEnable m = old.macCfgEnable m then s
  else if s.macCfgEnable m = 1 then s.instEnable m else s.instDisable m

/-- PAIR_MODE (R251, 10_engine_pair). -/
def State.applyPair (s : State) : State :=
  if s.pairModeMode = 1 then
    if s.pair.warm then s
    else
      let s1 := (s.onPair (fun p => { p with warm := true })).mirrorNow
      [Eng.a, Eng.b].foldl (fun t e => if (t.eng e).state = .standby then t.warmRest e else t) s1
  else if s.pair.warm then
    match s.active, s.pair.resync with
    | some e, none =>
      if (s.eng (engOther e)).state = .standby then
        (s.setEng (engOther e) (fun g => { g with state := .resyncing })).onPair (fun p => { p with resync := some .copy, ready := false })
      else s
    | _, _ => s
  else s

/-- POWER_STYLE takes effect in Run, and every island starts from On (R293, 13_islands_and_power_states). -/
def State.applyStyle (s : State) : State :=
  let want := decide (s.pwrCtrlPowerStyle = 1)
  if s.power.mode = .run ∧ s.power.domain ≠ want then
    ((s.onPower (fun p => { p with domain := want })).islandsTo (List.range 20) .on).loFollowAll
  else s

/-- CLK_SEL is written: an L channel that the monitor moved returns to it (R268, 11_lookout). -/
def State.applyClock (p : SealedSet) (s : State) : State :=
  if p.wrote 0x78000 (2 ^ 16) ∧ s.coreRuns ∧ s.power.mode ≠ .sleep then
    [0, 1].foldl (fun t c => t.setChan c (fun x => if x.moved then { x with moved := false, ref32 := t.loRef c } else x)) s
  else s

/-- TETHER_CTRL.EN (Table 15-3, 15_tether). -/
def State.applyTether (s : State) : State := if s.tetherCtrlEn = 1 then s.tetherEnable else s.tetherDisable

/-- The DWELL of a knob restarts where its mode, bounds or pin are written (R320, 14_foreman). -/
def SealedSet.knobWritten (p : SealedSet) (k : Nat) : Bool := p.wroteIn (0x90100 + 0x20 * k) (0x90110 + 0x20 * k)

/-- A valid set is applied to every engine in one J-cycle (R13, 00_scope). -/
def State.applySet (s : State) (p : SealedSet) : State :=
  let next := s.withSet p
  let s1 := ((List.range 4).foldl (fun t n => t.applyBifurcate next n) s).settleAll
  let s2 := s1.withSet p
  let s3 := (List.range 64).foldl (State.applyProfile p) s2
  let s4 := (List.range 16).foldl (State.applySched p s) s3
  let s5 := (List.range 2).foldl (State.applyBreakout s) s4
  let s6 := (List.range 16).foldl (State.applyEnable s) s5
  let s7 := (((s6.applyPair).applyStyle).applyClock p).applyTether
  let s8 := s7.fmRefresh p.knobWritten
  let s9 := s8.domainSync (fun i => p.wrote (0x2040 + 4 * i) 3)
  s9.gatesRefresh.flowAll

/-- What a refused set gives back to staging (R14): each bit that no later write holds; nothing after a DISCARD. -/
def State.returnSet (s : State) (p : SealedSet) : State :=
  if p.discarded then s
  else s.onSetup (fun u =>
    let later := fun (k : Nat) =>
      (match u.queuedSet with | some q => ((Tbl.find q.words k).map (fun x => x.mask)).getD 0 | none => 0) |||
        ((Tbl.find u.staged k).map (fun x => x.mask)).getD 0
    let laterFlow := fun (i : Nat) =>
      (u.queuedSet.any (fun q => (Tbl.find q.flows i).isSome)) || (Tbl.find u.flowStaged i).isSome
    { u with
      staged := p.words.foldl (fun t e => stagePut t e.1 (e.2.minus (later e.1))) u.staged,
      flowStaged := p.flows.foldl (fun t e => if laterFlow e.1 then t else Tbl.insert t e.1 e.2) u.flowStaged })

/-- A refused COMMIT (R14, R21): COMMIT_FAULT, COMMIT_REFUSED, and what STATE then reads. -/
def State.refuseAs (s : State) (st : CommitState) (seq off why : Nat) : State :=
  (s.onSetup (fun u => { u with state := st, faultOff := off, faultWhy := why })).raise .commitRefused
    (le 2 seq ++ le 4 off ++ le 1 why)

/-- A COMMIT refused while none is deferred: STATE reads Refused (Table 0-8). -/
def State.refuseCommit (s : State) (seq off why : Nat) : State := s.refuseAs .refused seq off why

end Sys2Proof.Machine
end

