-- ==== Sys2Proof/Machine/Setup.lean ====
section
/-! DEFINITION. The set-up commands (00_scope; access rules of 18_register_map): writes of OF BAR0 registers that have no
command of their own, COMMIT, DISCARD, the application of a sealed set, and SETUP_LOCK; and reads. -/
namespace Sys2Proof.Machine

/-! ### Staged writes (R12, R17) -/

/-- The active-table key of a set-up word as one OF addresses it: the windows go to the function of its RX_FN_SEL; none while
that names no function (R181, 07_receive). -/
def State.setupKey (s : State) (n off : Nat) : Option Nat :=
  if 0x23200 ≤ off ∧ off < 0x23700 then
    (if (s.of n).rxFnSel < 68 then some (fnWindowKey (s.of n).rxFnSel off) else none)
  else some off

/-- A write of a word with S or K fields: the bits of K fields are dropped while SETUP_LOCK is set (R17). -/
def State.stageWrite (s : State) (n off : Nat) (r : RegRow) (v : Nat) : State :=
  match s.setupKey n off with
  | none => s
  | some key =>
    let k := lockedMask r
    let cut := if s.setup.lock then k else 0
    let s1 := if cut ≠ 0 then
        (s.onSetup (fun u => { u with rejects := satAdd 32 u.rejects 1 })).raiseOnce .lockedWrite n (le 1 (64 + n))
      else s
    s1.onSetup (fun u =>
      { u with staged := stagePut u.staged key { mask := BitVec.ofNat 32 (stagedMask r - cut), val := BitVec.ofNat 32 v } })

/-! ### Live writes -/

/-- A write of a command register that names no action: it changes nothing but what the register reads. -/
def noAction (r : Reg) (v : Nat) : Bool :=
  match r with
  | .pwrCmd | .cageCmd => bits v 0 2 = 0
  | .pairCmd => bits v 0 2 = 0 || bits v 0 2 = 3
  | .loCmd => !bit v 8 || decide (5 ≤ bits v 0 3)
  | .supCmd | .tetherRxPop => !bit v 0
  | .tetherTxCmd => bits v 8 2 = 0 || bits v 8 2 = 3
  | _ => false

/-- A live write into the active engine: it waits while none takes it (R242, 10_engine_pair; R31, 01_the_sled). -/
def State.engTake (s : State) (n off v : Nat) : State :=
  if s.partnerHeld (writeIslands off) then s.hold (.write n off v) else s.engWrite n off v

/-- A write of a live word that acts at once (R12): `i` and `j` are its indices. A command register acts by the row of its own; here it takes
what names no action. -/
def State.liveWrite (s : State) (n : Nat) (r : Reg) (i j off v : Nat) : State :=
  match r with
  | .timeSet => s.onTime (fun t => { t with setOp := wput t.setOp i v })
  | .timeRate => s.onTime (fun t => { t with rateOp := BitVec.ofNat 32 v })
  | .timeStep => s.onTime (fun t => { t with stepOp := wput t.stepOp i v })
  | .timeCtrl => if bits v 0 2 = 0 then s.ctrlWritten 0 (BitVec.ofNat 2 (bits v 2 2)) else s
  | .rtcCountLo => s.onRtc (fun x => { x with loadLo := BitVec.ofNat 32 v })
  | .rtcAlarmLo => s.onRtc (fun x => { x with alarmLo := BitVec.ofNat 32 v })
  | .rtcCtrl => s.onRtc (fun x => { x with alarmEn := bit v 0 })
  | .rtcStatus => s.onRtc (fun x => { x with fired := x.fired && !bit v 0, past := x.past && !bit v 1 })
  | .railStatus => s.onSupply (fun x => { x with rails := x.rails - Nat.land x.rails (bits v 0 6) })
  | .tetherTxData => s.setSlot i (fun x => { x with data := wput x.data j v })
  | .tetherTxLen => s.setSlot i (fun x => { x with len := bits v 0 6 })
  | .tetherGsCmd => if bits v 0 2 = 0 then s.onTether (fun t => { t with gsCmdBits := bits v 0 4 }) else s
  | .logCmd => if bits v 0 2 = 1 then s else s.onLog (fun l => { l with logCmd := Nat.land v 7 })
  | .fwCmd => if bits v 0 2 = 1 ∨ bits v 0 2 = 2 then s else s.onLog (fun l => { l with fwLast := bits v 0 2 })
  | .loStatus => if i = 4 then s.engWrite n off v else s.engTake n off v
  | r =>
    if engineReg r then s.engTake n off v
    else if noAction r v then s.wrote off v
    else s.setOf n (fun o => o.written r v)

/-- One 4-byte write (R381, R382, 18_register_map). -/
def State.writeWord (s : State) (n off v : Nat) : State :=
  match regAt off with
  | none => s
  | some (r, ix) =>
    if stagedMask r = 0 then s.liveWrite n r.reg (ix.headD 0) (ix.getD 1 0) off v else s.stageWrite n off r v

/-- REGISTER_WRITE (R12, R37, R381): 4 bytes, or 8 as two words, the lower offset first; any other access has no effect. -/
def State.registerWrite (s : State) (n off size v : Nat) : State :=
  if size = 4 ∧ off % 4 = 0 then s.writeWord n off (bits v 0 32)
  else if size = 8 ∧ off % 8 = 0 then (s.writeWord n off (bits v 0 32)).writeWord n (off + 4) (bits v 32 32)
  else s

/-- One word of a write to TF BAR0 (Table 4-5; R3, 00_scope): the request record takes it. MBX_GO, doorbells and MSI-X entries are rows of
their own, and anything else has no effect. -/
def State.tfWord (s : State) (f off v : Nat) : State :=
  if 0x20 ≤ off then s
  else if s.partnerHeld [2, 5] then s.hold (.record f off v)
  else s.recordPut f off v

/-- A write to TF BAR0, of the sizes that R381 gives. -/
def State.tfWrite (s : State) (f off size v : Nat) : State :=
  if size = 4 ∧ off % 4 = 0 then s.tfWord f off (bits v 0 32)
  else if size = 8 ∧ off % 8 = 0 then (s.tfWord f off (bits v 0 32)).tfWord f (off + 4) (bits v 32 32)
  else s

/-- REGISTER_WRITE: a write to a BAR0 that no row of its own describes. A carrier function's BAR0 is read-only (R77, 04_host_links). -/
def execRegisterWrite (bar : Bar) (offset size : Nat) (value : BitVec 64) (s : State) : Host.Outcome State Fault Refusal :=
  .next (if s.noPartner then s
    else match bar with
      | .of n => (s.arrives (64 + n)).registerWrite n offset size value.toNat
      | .tf f => (s.arrives f).tfWrite f offset size value.toNat
      | .cf n => s.arrives (68 + n))

/-! ### COMMIT (0.7) -/

/-- The set that a COMMIT seals (R12). -/
def State.seal (s : State) (seq : Nat) : SealedSet :=
  { seq := seq, words := s.setup.staged, flows := s.setup.flowStaged, discarded := false, deferred := s.transition }

/-- A COMMIT is accepted (R12, R19, R21): sealed and pending, or queued behind a pending set; a third one is refused, and while the
pending set is deferred STATE goes on reading Deferred (R20). A set that is queued raises no COMMIT_DEFERRED of its own (DESIGN CHOICE,
log 61). -/
def State.commit (s : State) (seq : Nat) : State :=
  let s0 := s.onSetup (fun u => { u with seq := seq })
  match s.setup.pendingSet, s.setup.queuedSet with
  | some _, some _ => s0.refuseAs (if s.transition then .deferred else .refused) seq 0 3
  | some _, none => s0.onSetup (fun u => { u with queuedSet := some { s.seal seq with deferred := false }, staged := [], flowStaged := [] })
  | none, _ =>
    let s1 := s0.onSetup (fun u =>
      { u with pendingSet := some (s.seal seq), staged := [], flowStaged := [],
               state := if s.transition then .deferred else .pending })
    if s.transition then s1.raise .commitDeferred (le 2 seq) else s1

def execCommit (of : Fin 4) (seq : BitVec 16) (s : State) : Host.Outcome State Fault Refusal :=
  .next (if s.noPartner then s else (s.arrives (64 + of)).commit seq.toNat)

/-- DISCARD (R15): the unsealed writes are gone, and a sealed set returns nothing. -/
def State.discard (s : State) : State :=
  let mark := fun (p : SealedSet) => { p with discarded := true }
  s.onSetup (fun u => { u with staged := [], flowStaged := [], pendingSet := u.pendingSet.map mark, queuedSet := u.queuedSet.map mark })

def execDiscard (of : Fin 4) (s : State) : Host.Outcome State Fault Refusal :=
  .next (if s.noPartner then s else (s.arrives (64 + of)).discard)

/-- The queued set moves up (R21); it is deferred in its turn while a hand-over, a Verdict or a final stall runs (R19). -/
def State.promote (s : State) : State :=
  match s.setup.queuedSet with
  | some q =>
    (s.onSetup (fun u => { u with pendingSet := some q, queuedSet := none, state := .pending })) |> fun t =>
      if t.transition then t.deferCommit else t
  | none => s

/-- COMMIT_APPLY (R13, R14, R20): the pending set is applied or refused as a whole; not in a hand-over, a Verdict or a final
stall. -/
def State.commitApply (s : State) (p : SealedSet) : State :=
  let s0 := s.onSetup (fun u => { u with pendingSet := none })
  match s.setFault p with
  | some (off, why) => ((s0.returnSet p).refuseCommit p.seq off why).promote
  | none =>
    (((s0.applySet p).onSetup (fun u => { u with appliedSeq := p.seq, state := .idle })).raise .commitApplied (le 2 p.seq)).promote

def execCommitApply (s : State) : Host.Outcome State Fault Refusal :=
  .next (match s.setup.pendingSet with
    | some p => if s.transition then s else s.commitApply p
    | none => s)

/-- SETUP_LOCK (R17): the lock is set; SETUP_LOCKED is raised on the change. -/
def State.setupLock (s : State) : State :=
  if s.setup.lock then s else (s.onSetup (fun u => { u with lock := true })).raise .setupLocked []

def execSetupLock (of : Fin 4) (s : State) : Host.Outcome State Fault Refusal :=
  .next (if s.noPartner then s else (s.arrives (64 + of)).setupLock)

end Sys2Proof.Machine
end

