-- ==== Sys2Proof/Machine/Start.lean ====
section
/-! DEFINITION. The start of the sled as operations that the commands share (16_start_up_and_logbook): firmware, what a reset
clears and keeps, the restored time, pair formation and the set-up image. -/
namespace Sys2Proof.Machine

/-! ### Firmware (16.2) -/

/-- A slot of the code store is valid (R359). -/
def FwSlot.valid (x : FwSlot) (minSvn : Nat) : Bool := x.good && decide (minSvn ≤ x.svn) && decide (x.line = 4)

/-- A slot of the code store by its number. -/
def State.fwSlot (s : State) (n : Nat) : FwSlot := if n = 0 then s.log.slot0 else s.log.slot1
def State.setFwSlot (s : State) (n : Nat) (x : FwSlot) : State :=
  s.onLog (fun l => if n = 0 then { l with slot0 := x } else { l with slot1 := x })

/-- Stage 1 chooses the slot to run (R359): the next-active one, or else the other. -/
def State.fwChoice (s : State) : Option Nat :=
  let n := s.log.next
  if (s.fwSlot n).valid s.log.minSvn then some n
  else if (s.fwSlot (1 - n)).valid s.log.minSvn then some (1 - n) else none

/-! ### What a reset clears and keeps (R361) -/

/-- LOG_STATUS after a reset: an abandoned save stays on record (section 16.8). -/
def LogSt.saveKept (l : LogSt) : LogSt := if l.saveWhy = 2 then l else { l with saveSt := 0, saveWhy := 0 }

/-- The start-up registers at t_s (R369). -/
def LogSt.startCleared (l : LogSt) (stage reason : Nat) : LogSt :=
  { l with stage := stage, ready := false, imgUsed := 0, reason := reason, imgGen := 0, startMs := 0, bootRom := false,
           rateDrop := 0 }

/-- A module stays in its cage, whose supply stays as a fault or the power check left it (R207, R208, 08_the_wire); its power mode follows the
power check again. -/
def CageSt.kept (k : CageSt) : CageSt :=
  { k with highPower := k.present && k.supply && decide (k.maxPower ≤ 80), inReset := false }

/-- The supply block across a reset: its status registers at reset, the levels, the cell, the latch and the counts kept (R361,
R292 of 12_supply_and_backup_cell). -/
def SupplySt.kept (x : SupplySt) : SupplySt :=
  { x with rails := 0, minMv := if x.braced then x.minMv else 0xFFFF, auxOn := true, lastEst := 0, refused := false,
           lowPower := false, inReset := false, shutdown := false }

/-- The wake-cause record stays (R305, R361). -/
def PowerSt.kept (p : PowerSt) : PowerSt :=
  { PowerSt.init with wakeSrc := p.wakeSrc, wakeDet := p.wakeDet, replayed := p.replayed, wakeFrom := p.wakeFrom,
                      wakeOth := p.wakeOth, wakeTime := p.wakeTime }

/-- The registers that the Supervisor holds for each OF, which a bulk reset leaves alone. -/
def OfSt.supKept (o : OfSt) : OfSt :=
  { OfSt.init with peerSel := o.peerSel, rowSel := o.rowSel, fwAddr := o.fwAddr, fwLen := o.fwLen }

/-- Channel S across a bulk reset: its status registers are cleared, its period goes on. -/
def LoChan.counting (x : LoChan) : LoChan :=
  { LoChan.init 4 with state := x.state, opened := x.opened, len := x.len, test := x.test, lastServe := x.lastServe }

/-- Device time and the durations: durations are counted by the model in one run of the clock; every register at reset. -/
def TimeSt.cleared (t : TimeSt) : TimeSt := { TimeSt.init with now := t.now, elapsed := t.elapsed, jcycle := t.jcycle, valid := t.valid }

/-- A Supervisor start on the Tether: a new session, and the station claims again (R337, Table 15-3, 15_tether); its counters are
cleared (R355). -/
def TetherSt.started (t : TetherSt) : TetherSt :=
  { TetherSt.init with claim := .listening, lastNum := t.lastNum, session := (t.session + 1) % 256, term := t.term }

/-- What every reset clears of the Shell package: set-up, lock, flow table, rings, functions, the Tally, the scheduler, the
Hamper, the ports, the pair, the Foreman and the POWER block. What a reset keeps of time, the supply and the wake-cause
record stays. -/
def State.shellCleared (s : State) : State :=
  { State.reset with
    time := s.time.cleared, rtc := s.rtc, cages := s.cages.map (fun e => (e.1, e.2.kept)), supply := s.supply.kept,
    power := s.power.kept, ofs := s.ofs, lookout := s.lookout, tether := s.tether, log := s.log,
    events := { s.events with rings := [], kept := [], sigN := 0, sigCpl := 0, sigU := 0, msixHeld := [] }, out := s.out, free := s.free, pending := s.pending }

/-- Every channel that restarts counts a full period from its reset values (R274, 11_lookout); the evidence that waits for the
Logbook is not lost. -/
def LookoutSt.restarted (l : LookoutSt) (now : Nat) (keepS : Option LoChan) : LookoutSt :=
  { LookoutSt.init with
    chans := (List.range 5).foldl (fun t c =>
      Tbl.put LoChan.init t c (match keepS with
        | some x => if c = 4 then x.counting else { LoChan.init c with opened := now }
        | none => { LoChan.init c with opened := now })) [],
    supRest := keepS.isSome && l.supRest, evidence := l.evidence }

/-- A sled reset other than a bulk reset clears (R361), with the reason of Table 16-2; stage 1 begins. -/
def State.sledCleared (s : State) (reason : Nat) : State :=
  ((((s.abandonSave.shellCleared.onOfs (fun _ => [])).onLookout (fun l => l.restarted s.time.elapsed none)).onTether
    TetherSt.started).onEvents (fun v => { v with alert := false })).onLog (fun l =>
      { (l.startCleared 0 reason).saveKept with logCmd := 0, fwState := 0, fwWhy := 0, fwLast := 0 })

/-- A bulk reset clears (R284, R361): the Supervisor keeps running. -/
def State.bulkCleared (s : State) : State :=
  ((((s.abandonSave.shellCleared.onOfs (fun t => t.map (fun e => (e.1, e.2.supKept)))).onLookout (fun l =>
    l.restarted s.time.elapsed (some (s.chan 4)))).onEvents (fun v => { v with alert := false })).onLog (fun l =>
      (l.startCleared 2 5).saveKept)).applyTether

/-! ### The mount (R363, R405) -/

/-- A row of region 2 is good (R363): it verifies under its own LAP, which is the region's lap or the one before. -/
def State.eventRowGood (s : State) (row : Nat) : Bool :=
  let lap := (s.memByte (64 * row + 2)).toNat
  decide (s.memByte (64 * row) = 2#8) && decide (lap = (s.region 2).lap ∨ lap = ((s.region 2).lap + 255) % 256) && s.rowGood row lap

/-- The LOG_SEQ of the newest good event row: looking back from the head of region 2; 0 where there is none (R405). -/
def State.newestSeq (s : State) : Nat → Nat → Nat
  | 0, _ => 0
  | n + 1, k =>
    let row := 16384 + (k + 12287) % 12288
    if s.eventRowGood row then leAt (s.memBytes (64 * row + 32) 4) 0 4
    else s.newestSeq n ((k + 12287) % 12288)

/-- The Logbook is mounted (R363): LOG_SEQ goes on from the newest good event row. -/
def State.mount (s : State) : State :=
  if s.log.logSeq = 0 then s
  else
    let q := s.newestSeq 12288 (s.region 2).head
    s.onLog (fun l => { l with logSeq := q })

/-! ### The wake-cause record of a cold start (R304, R358; Table 13-5, 13_islands_and_power_states) -/

/-- The codes that apply to a cold start: 0x10 wake pin, 0x11 mains return, 0x12 cell lost, 0x13 AO brown-out. -/
def State.coldCodes (s : State) (how : StartBy) : List Nat :=
  (match how with | .wakePin => [0x10] | .mainsReturn => [0x11] | .mains | .aoBrownout => []) ++
  (if s.supply.latchOk = false ∧ s.supply.offOnCell then [0x12] else []) ++ (if s.supply.brownout then [0x13] else [])

/-- The record: the lowest code is SOURCE, the others OTHERS; DETAIL is the attempts made without mains, at most 255. `replay`
says that a wake pin latched during the entry to Off is replayed (R301). -/
def State.coldWake (s : State) (codes : List Nat) (replay : Bool) : State :=
  s.onPower (fun p =>
    { p with wakeSrc := codes.headD 0, wakeDet := min s.supply.tries 255, replayed := replay, wakeFrom := .off,
             replays := if replay then 1 else 0,
             wakeOth := ((codes.drop 1).map (fun c => 2 ^ c)).sum, wakeTime := time64Of s.time.now })

/-- The events that a cold start reports: WAKE_PIN_NO_MAINS (R304), CELL_LOST (R290) and AO_BROWNOUT (R287). The latch is
cleared. -/
def State.coldEvents (s : State) (codes : List Nat) : State :=
  let n := s.supply.tries
  let s1 := if 0 < n then s.raise .wakePinNoMains (le 4 n) else s
  let s2 := if 0x12 ∈ codes then s1.raise .cellLost [] else s1
  let s3 := if 0x13 ∈ codes then s2.raise .aoBrownout [] else s2
  s3.onSupply (fun x => { x with tries := 0, brownout := false, latchOk := true, offOnCell := false })

/-! ### Stages 1 to 3 -/

/-- Stage 1: the firmware (R359). With no valid slot the Supervisor stays in boot ROM, and the Shell package is not powered. -/
def State.bootFirmware (s : State) : State :=
  let fell := (s.fwSlot s.log.next).valid s.log.minSvn = false
  let s1 := match s.fwChoice with
    | some n => s.onLog (fun l => { l with running := n })
    | none => ((s.islandsTo (List.range 20) .off).onLog (fun l => { l with bootRom := true })).onPower (fun p =>
        { p with mode := .exiting, exitFrom := .off })
  if fell then s1.raise .fwFallback [] else s1

/-- Device time restarts from the recorded pair on the RTC (R53, R358): SOURCE reads Restored. -/
def State.timeRestart (s : State) : State := (s.onTime (fun t => { t with now := s.rtcTime })).setSource .restored

/-- Roles (R357): both pass, A is Active and B Standby; one passes, it is Active, and the sled is solo; neither, Fenced. -/
def State.formPair (s : State) (test : SelfTest) : State :=
  match test.passA, test.passB with
  | true, true => s
  | true, false => ((s.failEngine .b 1).raise .soloEntered []).announce 2 1
  | false, true =>
    (((s.failEngine .a 1).setEng .b (fun g => { g with state := .active, act := true })).raise .soloEntered []).announce 2 1
  | false, false => ((s.failEngine .a 1).failEngine .b 1).fence 1

/-! ### Stage 4: the set-up image (16.7) -/

/-- The set that a copy makes: the words of its run records that have an S or K field. -/
def imageSet (words : List (Nat × Word)) : SealedSet :=
  { seq := 0, flows := [], discarded := false, deferred := false,
    words := words.foldl (fun t e =>
      match regAt (keyOffset e.1) with
      | some (r, _) => if stagedMask r = 0 then t else Tbl.insert t e.1 { mask := BitVec.ofNat 32 (stagedMask r), val := e.2 }
      | none => t) [] }

/-- The outcome of one image commit with SEQ 0 (R368); answers whether it was applied. A refused set returns to staging (R14,
00_scope). -/
def State.imageEnds (s : State) (c : Nat) (p : SealedSet) (fault : Option (Nat × Nat)) : State × Bool :=
  match fault with
  | some (off, why) =>
    (((s.returnSet p).refuseCommit 0 off why).raise .setupImageFallback (le 1 c), false)
  | none =>
    let s1 := ((((s.onSetup (fun u => { u with staged := [], flowStaged := [] })).applySet p).onSetup (fun u =>
      { u with appliedSeq := 0, seq := 0, state := .idle })).raise .commitApplied (le 2 0)).onLog (fun l =>
        { l with imgUsed := c, imgGen := s.copyGen c })
    (if s.copyLock c then s1.setupLock else s1, true)

/-- One image commit, checked like any other (R368). -/
def State.imageTry (s : State) (c : Nat) : State × Bool :=
  let p := imageSet (s.copyWords c)
  s.imageEnds c p (s.setFault p)

/-- The valid copies are tried in turn (R368). -/
def State.imageRun (s : State) : List Nat → State × Bool
  | [] => (s, false)
  | c :: r =>
    let t := s.imageTry c
    if t.2 then t else State.imageRun t.1 r

/-- Stage 4 (R368): SETUP_IMAGE_FALLBACK for each copy that is invalid or refused, SETUP_IMAGE_NONE where none applies. -/
def State.imageStage (s : State) : State :=
  let s1 := [1, 2].foldl (fun t c => if t.copyGood c then t else t.raise .setupImageFallback (le 1 c)) s
  let r := s1.imageRun s1.imageOrder
  if r.2 then r.1 else r.1.raise .setupImageNone []

/-- Stages 3 and 4 once device time runs (Table 16-1): the roles; unless the sled is Fenced, a cold start's exit is reported
(R306), the image is applied, and any ceiling in force bears on the engines. -/
def State.startRest (s : State) (test : SelfTest) (cold : Bool) : State :=
  let s1 := (s.onLog (fun l => { l with stage := 2 })).formPair test
  if s1.pair.fenced then s1
  else
    let s2 := if cold then s1.raise .pwrExited (le 4 s1.wakeWord ++ le 8 s1.power.wakeTime) else s1
    ((s2.onLog (fun l => { l with stage := 3 })).imageStage.onLog (fun l => { l with stage := 4 })).fmRefresh (fun _ => false)

/-! ### The starts -/

/-- The Shell package is held in reset while the bulk rail is low (R284, 12_supply_and_backup_cell): the sequence stands before
pair formation. -/
def State.heldReset (s : State) : State :=
  ((s.onSupply (fun x => { x with inReset := true })).onPower (fun p => { p with mode := .exiting, exitFrom := .run, stage := 0 })).onLog
    (fun l => { l with stage := 2 })

/-- A sled reset other than a bulk reset (R358, R361): stages 1 to 4, of which stage 3 waits for the bulk rail. -/
def State.sledReset (s : State) (reason : Nat) (test : SelfTest) : State :=
  let s1 := ((s.sledCleared reason).mount).bootFirmware
  if s1.log.bootRom then s1
  else if s.supply.inReset then s1.heldReset
  else s1.timeRestart.startRest test false

/-- The idle power of the islands is measured (R225, 09_tally): ISLAND_IDLE reads the figures of this calibration. -/
def State.calibrated (s : State) : State := s.useFree.onTally (fun t => { t with calib := s.free })

/-- A cold start (R54, R356, R358): the RTC and device time restart from the last saved values, VALID is cleared and the alarm
disarmed; ISLAND_IDLE is calibrated (R225, 09_tally); stages 1 to 4. -/
def State.coldStart (s : State) (how : StartBy) (test : SelfTest) : State :=
  let codes := s.coldCodes how
  let s1 := s.sledCleared (match how with | .aoBrownout => 6 | _ => 1)
  let s2 := (s1.onRtc (fun r => { RtcSt.init with count := r.savedC, latchHi := bits r.savedC 32 16, pairD := r.savedD, pairC := r.savedP, savedC := r.savedC,
                                                  savedD := r.savedD, savedP := r.savedP }))
  let s3 := ((s2.onTime (fun t => { t with now := s2.rtcTime, valid := false })).onSupply (fun x =>
    { x with mains := true, acFail := false, braced := false, minMv := 0xFFFF, deferred := [], graceAt := none,
             recovery := none })).calibrated.mount
  let s4 := (((s3.coldWake codes (s.power.latched.isSome && decide (0x10 ∈ codes))).raise .timeRestored []).coldEvents codes).bootFirmware
  if s4.log.bootRom then s4 else s4.startRest test true

end Sys2Proof.Machine
end

