-- ==== Sys2Proof/Machine/StartLog.lean ====
section
/-! DEFINITION. The commands of start-up, firmware and the Logbook (16_start_up_and_logbook), and of the event alert
(18_register_map). -/
namespace Sys2Proof.Machine

/-! ### Starts (16.1, 16.3) -/

/-- A cold start can begin: an assertion of the wake pin or the mains-return timer starts the sled from Off only; from no power
mains do, whatever was before; a brown-out has left its flag (16.1; R279, R287 of 12_supply_and_backup_cell). -/
def State.canStart (s : State) (how : StartBy) : Bool :=
  let off := decide (s.power.mode = .off)
  match how with
  | .mains => !(off && s.supply.latchOk && s.supply.mains)
  | .wakePin => off && s.supply.mains
  | .mainsReturn => off && s.supply.mains && s.supply.latchBit && s.supply.retRun.any (fun t => decide (360000000 ≤ t))
  | .aoBrownout => s.supply.brownout

/-- COLD_START (R356 to R359, R363, R368). -/
def execColdStart (how : StartBy) (test : SelfTest) (s : State) : Host.Outcome State Fault Refusal :=
  .next (if s.canStart how then s.coldStart how test else s)

/-- SLED_RESET (R361): only the key 0x5A3C resets. -/
def execSledReset (key : BitVec 16) (test : SelfTest) (s : State) : Host.Outcome State Fault Refusal :=
  .next (if s.power.mode = .off ∨ s.power.mode = .deepSleep then s
    else
      let t := (s.arrives 64).wrote 0xA0100 key.toNat
      if key = 0x5A3C then t.sledReset 3 test else t)

/-- CHASSIS_RESET (R361; R392 of 19_electrical_and_mechanical): in every mode but Off. -/
def execChassisReset (test : SelfTest) (s : State) : Host.Outcome State Fault Refusal :=
  .next (if s.power.mode = .off then s else s.sledReset 2 test)

/-- Stage 5 ends (R356, R358, R359): SETUP_READY, SLED_STARTED, and the fused minimum rises for a bundle flagged RAISE. -/
def State.started (s : State) (ms : Nat) : State :=
  let x := s.fwSlot s.log.running
  let s1 := s.onLog (fun l => { l with stage := 5, ready := true, startMs := ms, minSvn := if x.raise then max l.minSvn x.svn else l.minSvn })
  s1.raise .sledStarted (le 1 s.log.reason ++ le 1 s.log.imgUsed ++ le 2 ms)

/-- SLED_STARTED (R358). -/
def execSledStarted (ms : BitVec 16) (s : State) : Host.Outcome State Fault Refusal :=
  .next (if s.log.stage = 4 ∧ s.log.ready = false then s.started ms.toNat else s)

/-- TIME_PAIR_RECORD (R358): while CORE runs. -/
def execTimePairRecord (s : State) : Host.Outcome State Fault Refusal := .next (if s.coreRuns then s.recordPair else s)

/-! ### Firmware (16.2) -/

/-- FW_STATUS takes a state and a reason. -/
def State.fwSet (s : State) (st why cmd : Nat) : State := s.onLog (fun l => { l with fwState := st, fwWhy := why, fwLast := cmd })

/-- FW_CMD STAGE (R360): refused under SETUP_LOCK; the bundle is read under the OF's fences. A length above 16 MiB fails, for
which the spec names no reason. While a bundle is being staged another STAGE has no effect. -/
def State.fwStage (s : State) (n : Nat) : State :=
  let o := s.of n
  if s.setup.lock then s.fwSet 3 5 1
  else if s.log.fwState = 1 then s
  else if 16777216 < o.fwLen then s.useFree.fwSet 3 (s.freeNat 4) 1
  else if s.fenceOk (64 + n) o.fwAddr o.fwLen then (s.fwSet 1 0 1).issueRead (64 + n) .firmware o.fwAddr o.fwLen
  else (s.violation (64 + n)).fwSet 3 4 1

/-- FW_CMD_STAGE (R360). -/
def execFwCmdStage (of : Fin 4) (s : State) : Host.Outcome State Fault Refusal := 
  .next (if s.noPartner then s else (s.arrives (64 + of)).fwStage of)

/-- The reason for which a staged bundle fails, or 0 (R359, Table 16-6): 1 SIGNATURE, 2 SVN, 3 LINE. -/
def FwSlot.whyBad (x : FwSlot) (minSvn : Nat) : Nat :=
  if x.good = false then 1 else if x.svn < minSvn then 2 else if x.line ≠ 4 then 3 else 0

/-- A staged bundle has been written to the slot that is not running, and verified (R360). -/
def State.fwVerified (s : State) (x : FwSlot) : State :=
  let why := x.whyBad s.log.minSvn
  let st := if why = 0 then 2 else 3
  ((((s.setFwSlot (1 - s.log.running) x).onHost (fun h => { h with reads := h.reads.filter (fun r => r.kind ≠ .firmware) })).fwSet
    st why s.log.fwLast).raise .fwStaged (le 1 st ++ le 1 why))

/-- FW_STAGED (R360). -/
def execFwStaged (sigGood : Bool) (svn : BitVec 16) (line : Nat) (raiseFlag : Bool) (build : BitVec 16) (s : State) :
    Host.Outcome State Fault Refusal :=
  .next (if s.log.fwState = 1 then
      s.fwVerified { good := sigGood, svn := svn.toNat, line := line, raise := raiseFlag, build := build.toNat }
    else s)

/-- FW_CMD ACTIVATE (R360): refused under SETUP_LOCK; a Verified slot becomes next-active. -/
def State.fwActivate (s : State) : State :=
  if s.setup.lock then s.fwSet 3 5 2
  else if s.log.fwState = 2 then s.onLog (fun l => { l with next := 1 - l.running, fwLast := 2 })
  else s

/-- FW_CMD_ACTIVATE (R360). -/
def execFwCmdActivate (of : Fin 4) (s : State) : Host.Outcome State Fault Refusal := 
  .next (if s.noPartner then s else (s.arrives (64 + of)).fwActivate)

/-! ### The set-up image (16.7) -/

/-- LOG_CMD_SAVE (R367). -/
def execLogCmdSave (lockAfterLoad : Bool) (s : State) : Host.Outcome State Fault Refusal := 
  .next (if s.noPartner then s else (s.arrives 64).save lockAfterLoad)

/-- SETUP_IMAGE_SAVED (R367): not while the sled is braced, nor while the Supervisor restarts (R377, 17_when_subsystems_meet). -/
def execSetupImageSaved (s : State) : Host.Outcome State Fault Refusal :=
  .next (match s.log.saving, s.supply.braced || s.lookout.supRest with
    | some x, false => s.saved x
    | _, _ => s)

/-! ### Scrub and ledger (16.4, 16.5) -/

/-- The Supervisor processor runs. -/
def State.supRuns (s : State) : Bool := decide (s.power.mode ≠ .off) && !s.log.bootRom && !s.lookout.supRest

/-- The alive fold under which a row's check stands: the LAP byte of a circular row, GENERATION of a copy for its trailer and its body rows up to
BODY_LEN (R362). A row past the body, and one that nothing has written, has none (DESIGN CHOICE, log 14). -/
def State.rowAlive (s : State) (row : Nat) : Option Nat :=
  if (s.memBytes (64 * row) 64).all (· = 0) then none
  else if 16384 ≤ row then some (byteAt (s.memBytes (64 * row) 3) 2)
  else
    let c := if row < 8192 then 1 else 2
    if row = s.trailerRow c ∨ (List.range ((s.copyLen c + 59) / 60)).any (fun k => s.copyRow c k = row) then some (s.copyGen c) else none

/-- One row is scrubbed (R365): a corrected row is rewritten; one with an uncorrectable word or a failing check is reported and marked. A bad row
makes its image copy invalid (`State.copyGood`). -/
def State.scrub (s : State) (row : Nat) (corrected uncorrectable : Bool) : State :=
  let s1 := if corrected then s.onLog (fun l => { l with corrRows := row :: l.corrRows.filter (· ≠ row) }) else s
  if uncorrectable ∨ (s.rowAlive row).any (fun a => s.rowChecks row a = false) then
    (s1.onLog (fun l => { l with badRows := row :: l.badRows.filter (· ≠ row) })).raise .logbookCheckFail (le 2 row)
  else s1

/-- LOGBOOK_SCRUB (R365): one row is read; `corrected` and `uncorrectable` are what its SECDED words show. -/
def execLogbookScrub (row : Fin 32768) (corrected uncorrectable : Bool) (s : State) : Host.Outcome State Fault Refusal :=
  .next (if s.supRuns then s.scrub row corrected uncorrectable else s)

/-- The six counts of SUPPLY in offset order (Table 12-8 of 12_supply_and_backup_cell). -/
def SupplySt.counts (x : SupplySt) : List Nat := [x.warns, x.dips, x.bulks, x.losses, x.absents, x.defDrops]

/-- A row of kind 2 of region 5: the counts (Table 16-5). -/
def State.countsRow (s : State) : LogRec :=
  { region := 5, kind := 2, sev := 0, keep := false, time64 := s.time64, body := (s.supply.counts.map (le 4)).flatten }

/-- A row of kind 3 of region 5: SESSION, and STATION last held (Table 16-5). -/
def State.supRow (s : State) : LogRec :=
  { region := 5, kind := 3, sev := 0, keep := false, time64 := s.time64,
    body := le 1 s.tether.session ++ le 1 (s.tether.lastNum.getD 0) }

/-- Health summaries (R292 of 12_supply_and_backup_cell, R338 of 15_tether, R363): a row of region 5 for values that have changed since the
last one, at most once per second (R366). When they are written the spec does not say (DESIGN CHOICE, log 14). -/
def State.healthTick (s : State) : State :=
  if s.supRuns = false ∨ s.log.sumSec = s.second + 1 then s
  else if s.supply.counts ≠ s.log.sumCounts then
    (s.onLog (fun l => { l with sumCounts := s.supply.counts, sumSec := s.second + 1 })).logRow s.countsRow
  else if (s.tether.session, s.tether.lastNum.getD 0) ≠ s.log.sumSup then
    (s.onLog (fun l => { l with sumSup := (s.tether.session, s.tether.lastNum.getD 0), sumSec := s.second + 1 })).logRow s.supRow
  else s

/-- LEDGER_ENTRY (R364): every LEDGER_PERIOD minutes of device time. -/
def execLedgerEntry (s : State) : Host.Outcome State Fault Refusal := .next (if s.supRuns ∧ s.coreRuns then s.ledger else s)

/-! ### The alert (R389, 18_register_map) -/

/-- EV_ALERT_ACK (R389): the alert is released, except in Fenced. -/
def execEvAlertAck (s : State) : Host.Outcome State Fault Refusal :=
  .next (if s.noPartner then s else (s.arrives 64).onEvents (fun v => { v with alert := false }))

/-- EV_TEST (R389): the key 0x7E57 raises EVENT_TEST with the writing OF. -/
def execEvTest (of : Fin 4) (key : BitVec 16) (s : State) : Host.Outcome State Fault Refusal :=
  .next (if s.noPartner then s
    else
      let t := (s.arrives (64 + of)).wrote 0xF0010 key.toNat
      if key = 0x7E57 then t.raise .eventTest (le 1 (64 + of)) else t)

end Sys2Proof.Machine
end

