-- ==== Sys2Proof/Machine/Power.lean ====
section
/-! DEFINITION. The commands of the power modes, the ready chain, the islands and DVFS (13_islands_and_power_states), with the
two wake sources of other chapters: the RTC alarm and a link that leaves L1.2. -/
namespace Sys2Proof.Machine

/-! ### Wakes -/

/-- The alarm fires (R52, 02_time_and_windows): FIRED, RTC_ALARM with RTC_COUNT and PAST, and the wake. -/
def State.alarmFires (s : State) : State :=
  ((s.onRtc (fun r => { r with fired := true, armed := false })).raise .rtcAlarm
    (le 8 s.rtc.count ++ le 1 (ofBool s.rtc.past))).registerWake 5 0

/-- RTC_ALARM (R52): while ALARM_EN is 1; in Off the RTC does not run. -/
def execRtcAlarm (s : State) : Host.Outcome State Fault Refusal :=
  .next (if s.rtc.armed ∧ s.rtc.alarmEn ∧ s.power.mode ≠ .off then s.alarmFires else s)

/-- L1_EXIT (R302): the link leaves L1.2 at the partner's initiative, or a TLP arrives on it in L0. -/
def execL1Exit (link : Fin 8) (s : State) : Host.Outcome State Fault Refusal :=
  .next (if (s.link link).up then (s.setLink link (fun x => { x with l12 := false })).registerWake 7 link else s)

/-- In Run and Idle the wake pin is recorded in the wake-cause record and has no other effect (R392, 19_electrical_and_mechanical),
but for a member's veto (R348, 15_tether). -/
def State.pinRecorded (s : State) : State :=
  (s.onPower (fun p => { p with wakeSrc := 2, wakeDet := 0, replayed := false, wakeFrom := p.mode, wakeOth := 0,
                                wakeTime := s.time64 })).registerWake 2 0

/-- In Off without mains the latch counts the attempt (R304); with mains the cold start that begins is COLD_START. -/
def State.pinInOff (s : State) : State :=
  if s.supply.mains = false ∧ s.supply.latchOk then s.onSupply (fun x => { x with tries := min 255 (x.tries + 1) }) else s

/-- WAKE_PIN (R303, R304): WAKE_N has been low for 100 µs. -/
def execWakePin (s : State) : Host.Outcome State Fault Refusal :=
  .next (match s.power.mode with
    | .run | .idle => s.pinRecorded
    | .off => s.pinInOff
    | _ => s.registerWake 2 0)

/-! ### Entry (13.3) -/

/-- PWR_CMD_SLEEP (R299). -/
def execPwrCmdSleep (s : State) : Host.Outcome State Fault Refusal := 
  .next (if s.power.mode = .off then s else (((s.arrives 64).wrote 0x2004 1).enter .sleep 0).1)

/-- PWR_CMD_DEEP_SLEEP (R299, R286): the hottest die sensor at entry in °C. -/
def execPwrCmdDeepSleep (hottest : Int) (s : State) : Host.Outcome State Fault Refusal :=
  .next (if s.power.mode = .off then s else (((s.arrives 64).wrote 0x2004 2).enter .deepSleep hottest).1)

/-- PWR_CMD_OFF (R299, R293): in both styles. -/
def execPwrCmdOff (s : State) : Host.Outcome State Fault Refusal := 
  .next (if s.power.mode = .off then s else (((s.arrives 64).wrote 0x2004 3).enter .off 0).1)

/-- PWR_ENTERED (R301): the entry completes at c; a hand-over in progress ends first (R300). -/
def execPwrEntered (s : State) : Host.Outcome State Fault Refusal :=
  .next (match s.power.mode, s.power.target with
    | .entering, some t => if s.transition then s else s.completeEntry t
    | _, _ => s)

/-- No frame is held, nothing is on the wire, and no class of an instance has a send that may be granted now (R298). -/
def State.noSend (s : State) (m : Nat) : Bool :=
  (s.sch m).cur.isNone && (List.range 8).all (fun c =>
    (s.mac m).link ≠ .up || !(s.classOpen m c s.time.now) || (s.cands m c).all (fun y => s.tokenOk y.fn = false))

/-- A ring has nothing being fetched (R298). -/
def TxRing.quiet (r : TxRing) : Bool :=
  r.f = r.h && r.cur.isEmpty && r.sends.all (fun x => x.st ≠ .reads && x.st ≠ .filling)

/-- The conditions of Idle (R298). -/
def State.idleOk (s : State) : Bool :=
  s.hamper.frames.isEmpty && (List.range 16).all s.noSend && s.tx.all (fun e => e.2.quiet) &&
    s.host.reads.all (fun r => r.void) && s.host.asks.isEmpty && s.host.msgs.isEmpty && s.host.units.isEmpty &&
    (List.range 4).all (fun n => (s.of n).snapNow.isNone)

/-- Idle may be entered: it is a mode of Ladder style, entered from Run while IDLE_EN is 1 (R298). -/
def State.idleMay (s : State) : Bool :=
  decide (s.power.mode = .run) && !s.power.domain && decide (s.pwrCtrlIdleEn = 1) && !s.transition && !s.pair.fenced && s.idleOk

/-- The window of the conditions (R298) at a tick: it opens with the idle-entry time then in force (R56, 02_time_and_windows), knob 7 of the
Foreman, and ends when one fails. -/
def State.idleTick (s : State) : State :=
  if s.idleMay then
    if s.power.idleSince.isSome then s
    else s.onPower (fun p => { p with idleSince := some (s.time.elapsed, (s.knob 7).applied.toNat * uUs) })
  else s.onPower (fun p => { p with idleSince := none })

/-- The conditions have held for the idle-entry time. -/
def State.idleDue (s : State) : Bool := s.idleMay && s.power.idleSince.any (fun w => decide (w.1 + w.2 ≤ s.time.elapsed))

/-- IDLE_ENTRY (R298). -/
def execIdleEntry (s : State) : Host.Outcome State Fault Refusal :=
  .next (if s.idleDue then s.onPower (fun p => { p with mode := .idle, idleAt := s.time.elapsed, idleSince := none }) else s)

/-! ### The ready chain (13.5) -/

/-- A ready chain runs: an exit is in progress and the Shell package is not held in reset. -/
def State.chainRuns (s : State) : Bool :=
  decide (s.power.mode = .exiting) && decide (s.power.stage < 4) && !s.supply.inReset && !s.log.bootRom

/-- The cause for which an engine enters Failed at exit, if any: one latched during the entry (R374, 17_when_subsystems_meet), a
failed self-check (R300), or DEEP_STANDBY_OFF, for which the spec names none (R296). -/
def State.exitCause (s : State) (test : SelfTest) (deep : Bool) (e : Eng) : Option Nat :=
  if (s.eng e).healthy = false then none
  else if s.pair.latched.any (fun x => x.1 = e) then s.pair.latched.map (fun x => x.2)
  else if s.selfPass test e = false then some 1
  else if deep ∧ s.standbyOff ∧ s.active ≠ some e then some (s.freeNat 8) else none

/-- The engines at LOGIC_RDY (R296, R300, R374): the sled comes up paired, solo, or Fenced. -/
def State.enginesExit (s : State) (test : SelfTest) (deep : Bool) : State :=
  let clear := fun (t : State) => t.useFree.onPair (fun p => { p with latched := none })
  match s.active with
  | none => clear s
  | some e =>
    let o := engOther e
    match s.exitCause test deep e, s.exitCause test deep o with
    | none, none => clear s
    | none, some c => (((clear s).failEngine o c).raise .soloEntered []).announce 2 c
    | some c, none =>
      if (s.eng o).healthy then
        ((((clear s).failEngine e c).setEng o (fun g => { g with state := .active, act := true })).raise .soloEntered []).announce 2 c
      else ((clear s).failEngine e c).fence c
    | some c, some d => (((clear s).failEngine e c).failEngine o d).fence c

/-- The Lookout at LOGIC_RDY (R269, R273; Table 11-3 of 11_lookout): channels return to their clocks, a held F channel restarts,
and a warning's period that was held runs in full. -/
def State.lookoutWake (s : State) : State :=
  let s1 := s.loFollowAll
  (List.range 5).foldl (fun t c =>
    if (t.chan c).stalled then t.setChan c (fun x => { x with stalled := false, opened := t.time.elapsed }) else t) s1

/-- The islands that a healthy standby of warm mode keeps in retention are there again (10.5 of 10_engine_pair). -/
def State.warmRestAll (s : State) : State :=
  if s.pair.warm then [Eng.a, Eng.b].foldl (fun t e => if (t.eng e).state = .standby then t.warmRest e else t) s else s

/-- LOGIC_RDY (R294, R300, R306): the islands return to On; from Deep sleep device time restarts (R53) and the cages come back. -/
def State.logicReady (s : State) (test : SelfTest) : State :=
  let deep := decide (s.power.exitFrom = .deepSleep)
  let s1 := if deep then (s.timeRestart.raise .timeRestored []).cagesOn else s
  let s2 := (((s1.islandsTo (List.range 20) .on).onPower (fun p => { p with stage := 4, retry := 0 })).onPair (fun p =>
    { p with locks := [] })).enginesExit test deep
  s2.warmRestAll.lookoutWake.fmRefresh (fun _ => false)

/-- READY_STAGE_DONE (R305): the ready signal of the stage in progress; `test` is what the self-checks of LOGIC_RDY give. -/
def execReadyStageDone (test : SelfTest) (s : State) : Host.Outcome State Fault Refusal :=
  .next (if s.chainRuns then
      (if s.power.stage < 3 then s.onPower (fun p => { p with stage := p.stage + 1, retry := 0 }) else s.logicReady test)
    else s)

/-- READY_TIMEOUT (R305): two retries of a stage, then a sled reset with reason READY_CHAIN; `test` is that of the pair formation
that follows. -/
def State.readyTimeout (s : State) (test : SelfTest) : State :=
  if s.power.retry < 2 then
    (s.onPower (fun p => { p with retry := p.retry + 1, retries := satAdd 32 p.retries 1 })).raise .readyTimeout
      (le 1 s.power.stage ++ le 1 (s.power.retry + 1))
  else s.sledReset 4 test

def execReadyTimeout (test : SelfTest) (s : State) : Host.Outcome State Fault Refusal :=
  .next (if s.chainRuns then s.readyTimeout test else s)

/-- The end of the chain (R306): Run, PWR_EXITED with the wake-cause record; a style committed meanwhile takes effect (R293), and a
role swap that fell due starts (R247, 10_engine_pair). -/
def State.exited (s : State) : State :=
  ((s.onPower (fun p => { p with mode := .run, stage := 0 })).raise .pwrExited (le 4 s.wakeWord ++ le 8 s.power.wakeTime)).applyStyle.released.dueSwap

/-- PWR_EXITED (R306). -/
def execPwrExited (s : State) : Host.Outcome State Fault Refusal :=
  .next (if s.power.mode = .exiting ∧ s.power.stage = 4 then s.exited else s)

/-! ### Domain style (13.6) -/

/-- ISLAND_AUTO_WAKE (R308): an island in Retention wakes and stays On until its target is next written; the requests held at its boundary
complete (R31, 01_the_sled). -/
def execIslandAutoWake (i : Fin 20) (s : State) : Host.Outcome State Fault Refusal :=
  .next (if s.power.domain ∧ (s.island i).state = .retention then
      (s.setIsland i (fun x => { x with state := .on, isolated := false, auto := true })).loFollowAll.released
    else s)

/-! ### DVFS (13.7) -/

/-- The engine islands that a DVFS command reaches: those it names, and in lockstep their equals in the other engine (R29,
01_the_sled). -/
def State.dvfsIslands (s : State) (l : List Nat) : List Nat :=
  freqIslands.filter (fun i => decide (i ∈ l) || (!s.pair.warm && (decide (i + 7 ∈ l) || decide (7 ≤ i ∧ i - 7 ∈ l))))

/-- The command names MAIN: no island, or every island of the active engine whose frequency the sequencer sets. -/
def State.dvfsMain (s : State) (l : List Nat) : Bool :=
  l.isEmpty || (freqIslands.filter (fun i => decide (s.active = some (if i < 7 then .a else .b)))).all (fun i => decide (i ∈ l))

/-- DVFS_REFUSED with the engine and the pair (R309). -/
def State.dvfsRefused (s : State) (mhz mv : Nat) : State := s.raise .dvfsRefused (le 1 s.activeCode ++ le 2 mhz ++ le 2 mv)

/-- A command above the envelope is clamped to it, and reported (R309; R315, R317 of 14_foreman). -/
def State.dvfsClamped (s : State) (knob row : Nat) : State :=
  if row < s.envRow then
    s.raise .policyClamp (le 1 knob ++ le 2 (rowMhz row) ++ le 2 (rowMhz s.envRow) ++ le 1 (if s.supply.braced ∧ s.foreman.level ≤ 1 then 2 else 3))
  else s

/-- A DVFS command whose pair is row `row` of Table 13-7 (R309, R310). -/
def State.dvfsRow (s : State) (row mhz mv : Nat) (l : List Nat) : State :=
  let r := max row s.envRow
  if s.dvfsMain l then
    (s.dvfsClamped 0 row).dvfsGo r ((freqIslands.filter (fun i => s.ignoredIsland i = false)).map (fun i => (i, r)))
  else if r < s.mainRow then s.dvfsRefused mhz mv
  else (s.dvfsClamped ((l.headD 0) % 7 + 1) row).setFreqs s.mainRow ((s.dvfsIslands l).map (fun i => (i, r)))

/-- DVFS_COMMAND (R309): a pair that is no row of Table 13-7 is refused; the engines' clocks run in Run, Idle and during an entry. -/
def execDvfsCommand (mhz mv : Nat) (islands : List (Fin 20)) (s : State) : Host.Outcome State Fault Refusal :=
  .next (match s.power.mode with
    | .run | .idle | .entering =>
      match rowOf mhz with
      | some r => if rowMv r = mv then s.dvfsRow r mhz mv (islands.map (fun i => i.val)) else s.dvfsRefused mhz mv
      | none => s.dvfsRefused mhz mv
    | _ => s)

/-- V_READY (R310): the step ends at its row; then MAIN and the island frequencies rise. A command that waited is executed. -/
def State.stepDone (s : State) (r : Nat) : State :=
  let isl := s.power.stepIsl
  ((s.onPower (fun p => { p with point := r, newPoint := none, stepIsl := [], vReady := true })).setFreqs r isl).dvfsNext

def execVReady (s : State) : Host.Outcome State Fault Refusal :=
  .next (match s.power.newPoint with
    | some r => s.stepDone r
    | none => s)

/-- DVFS_TIMEOUT (R310): the voltage returns to the old row; the frequencies stay. -/
def State.stepTimeout (s : State) : State :=
  ((s.onPower (fun p => { p with newPoint := none, stepIsl := [], vReady := true })).raise .dvfsTimeout (le 1 s.activeCode)).dvfsNext

def execDvfsTimeout (s : State) : Host.Outcome State Fault Refusal :=
  .next (if s.power.newPoint.isSome then s.stepTimeout else s)

end Sys2Proof.Machine
end

