-- ==== Sys2Proof/Machine/Supply.lean ====
section
/-! DEFINITION. The commands of mains, the rails and the backup cell (12_supply_and_backup_cell). -/
namespace Sys2Proof.Machine

/-! ### Mains (12.1, 12.2) -/

/-- AC_FAIL rises (R276, R277): MAINS_LOST, and the MAINS_GRACE window opens. In Off only the latch notices, and its mains-return timer
stops (R279). -/
def State.acRise (s : State) : State :=
  let s1 := s.onSupply (fun x => { x with acFail := true, mains := false, retRun := none })
  if s.power.mode = .off then s1.latchCheck
  else (s1.onSupply (fun x => { x with graceAt := some s.time.elapsed })).raise .mainsLost []

/-- AC_FAIL_RISE (R276). -/
def execAcFailRise (s : State) : Host.Outcome State Fault Refusal := .next (if s.supply.acFail then s else s.acRise)

/-- AC_FAIL falls (R277): MAINS_RESTORED; inside the grace window the loss was a dip. In Off the latch's mains-return timer starts from 0
(R279). -/
def State.acFall (s : State) : State :=
  let s1 := s.onSupply (fun x => { x with acFail := false, mains := true })
  if s.power.mode = .off then s1.onSupply (fun x => { x with retRun := some 0 })
  else
    (s1.onSupply (fun x => { x with graceAt := none, dips := if x.graceAt.isSome then satAdd 32 x.dips 1 else x.dips })).raise
      .mainsRestored []

/-- AC_FAIL_FALL (R277). -/
def execAcFailFall (s : State) : Host.Outcome State Fault Refusal := .next (if s.supply.acFail then s.acFall else s)

/-- The power-loss shutdown (R278, Table 12-2): frames cut and links down; the shutdown record with cause 1; the sled in Off. A save
in progress is abandoned at its start (R367, 16_start_up_and_logbook), and the watch lanes stop (R204, 08_the_wire). -/
def State.powerLoss (s : State) : State :=
  let s1 := (s.abandonSave.onSupply (fun x => { x with shutdown := true, losses := satAdd 32 x.losses 1 })).onPower (fun p =>
    { p with latched := none })
  let s2 := s1.watchStop.cutFrames.allLinksLost.netsOff
  let s3 := (s2.raise .powerLossShutdown []).cagesOff
  let s4 := (if s3.coreRuns then s3.recordPair else s3).saveShutdown 1
  (s4.modeIslands .off).intoOff

/-- MAINS_GRACE_EXPIRY (R278): AC_FAIL is still high when the grace window closes. -/
def execMainsGraceExpiry (s : State) : Host.Outcome State Fault Refusal :=
  .next (if s.supply.acFail ∧ s.supply.graceAt.isSome then s.powerLoss else s)

/-- MAINS_RETURN (R279): AC_FAIL has been clear for 500 ms of the latch's oscillator in Off, and the copied bit is 1. -/
def execMainsReturn (test : SelfTest) (s : State) : Host.Outcome State Fault Refusal :=
  .next (if s.canStart .mainsReturn then s.coldStart .mainsReturn test else s)

/-! ### The bulk rail (12.3) -/

/-- The bulk rail and the Shell package are up. -/
def State.bulkOn (s : State) : Bool :=
  decide (s.power.mode ≠ .off) && decide (s.power.mode ≠ .deepSleep) && !s.supply.inReset && !s.log.bootRom

/-- A change of the envelope reaches the engines whose clocks run; others meet it at LOGIC_RDY (section 13.10 of
13_islands_and_power_states). -/
def State.envelopeNow (s : State) : State :=
  match s.power.mode with
  | .run | .idle | .entering => s.fmEnvelope
  | _ => s.onPower (fun p => { p with ceiling := s.envRow })

/-- The brace (R280): SUPPLY_WARN with the crossing time, its row deferred; MIN_MV begins; the ceiling of 400 MHz. -/
def State.brace (s : State) (mv crossing : Nat) : State :=
  ((s.onSupply (fun x => { x with braced := true, minMv := mv, recovery := none, warns := satAdd 32 x.warns 1 })).raise .supplyWarn
    (le 8 crossing)).envelopeNow

/-- A window closes clean (R282): SUPPLY_RECOVERED; BRACED clears, the ceiling lifts, and the deferred records follow it into the
Logbook in their order. -/
def State.recovered (s : State) : State :=
  let s1 := s.onSupply (fun x => { x with braced := false, recovery := none })
  ((s1.raise .supplyRecovered (le 2 s.supply.minMv)).writeDeferred).envelopeNow

/-- The window [t, t + 5 ms) has closed without a sample below 11.3 V (R282): a sample stamped at its close is outside it (R8). -/
def State.recoveryDue (s : State) : Bool :=
  s.supply.braced && s.supply.recovery.any (fun t => decide (t + 5000 * uUs ≤ s.time.elapsed))

/-- A window that has closed clean is acted on before what comes at its close or later (12.7). -/
def State.recoverFirst (s : State) : State := if s.recoveryDue then s.recovered else s

/-- A fall below 11.0 V (R280, R281): a further fall while braced raises no new warning. -/
def State.bulkWarn (s : State) (v crossing : Nat) : State :=
  let s1 := s.onSupply (fun x => { x with nowMv := v })
  if s.supply.braced then s1.onSupply (fun x => { x with minMv := min x.minMv v, recovery := none }) else s1.brace v crossing

/-- SUPPLY_WARN (R280, R281). -/
def execSupplyWarn (mv crossing : Nat) (s : State) : Host.Outcome State Fault Refusal :=
  .next (if s.bulkOn then s.recoverFirst.bulkWarn (mv % 2 ^ 16) crossing else s)

/-- A sample of the braced rail (R281, R282): at 11.3 V or above it opens a window, below it ends the open one; MIN_MV follows. -/
def State.bulkSample (s : State) (v : Nat) : State :=
  if s.supply.braced then
    s.onSupply (fun x =>
      { x with nowMv := v, minMv := min x.minMv v,
               recovery := if 11300 ≤ v then some (x.recovery.getD s.time.elapsed) else none })
  else s

/-- BULK_RAIL_RECOVERY_CROSSING (R282). -/
def execBulkRailRecoveryCrossing (mv : Nat) (s : State) : Host.Outcome State Fault Refusal :=
  .next (s.recoverFirst.bulkSample (mv % 2 ^ 16))

/-- SUPPLY_RECOVERED (R282). -/
def execSupplyRecovered (s : State) : Host.Outcome State Fault Refusal := .next s.recoverFirst

/-- A bulk reset (R284, R361): the deferred queue and BULK_RESET are written at once, and the Shell package is held in reset. -/
def State.bulkFalls (s : State) (mv : Nat) : State :=
  let s1 := s.onSupply (fun x => { x with braced := false, recovery := none, nowMv := mv, bulks := satAdd 32 x.bulks 1 })
  (s1.writeDeferred.bulkCleared.heldReset).raise .bulkReset []

/-- BULK_RESET (R284). -/
def execBulkReset (mv : Nat) (s : State) : Host.Outcome State Fault Refusal :=
  .next (if s.bulkOn then s.recoverFirst.bulkFalls (mv % 2 ^ 16) else s)

/-- The Shell package restarts from pair formation (R284, R358). -/
def State.bulkReleased (s : State) (test : SelfTest) : State :=
  ((((s.onSupply (fun x => { x with inReset := false })).onPower (fun p => { p with mode := .run, exitFrom := .run })).onPair
    (fun _ => PairSt.init)).timeRestart).startRest test false

/-- BULK_RESET_RELEASE (R284): the bulk rail has held 11.3 V for 5 ms. -/
def execBulkResetRelease (test : SelfTest) (s : State) : Host.Outcome State Fault Refusal :=
  .next (if s.supply.inReset then s.bulkReleased test else s)

/-! ### Rail monitors (12.4) -/

/-- The row of Table 12-4: its bit in RAIL_STATUS, and one less than its code in RAIL_FAULT (R403, 05_rings_and_doorbells). -/
def railRow : Rail → Nat
  | .coreA | .coreB => 0
  | .junction => 1
  | .serdes => 2
  | .ao => 3
  | .aux => 4
  | .cage => 5

/-- The AO domain browns out (R287): what it retained is lost, every island is off (R32, 01_the_sled), and the sled is down until the cold
start that the flag in the cell-backed latch reports. -/
def State.aoBrown (s : State) : State :=
  (((s.abandonSave.shellCleared.islandsTo (List.range 20) .off).onPower (fun p => { p with mode := .off })).onSupply (fun x =>
    { x with brownout := true, braced := false, deferred := [], graceAt := none, recovery := none })).latchCheck

/-- What a rail fault leads to (Table 12-4): RELINQUISH with cause SELF_CHECK, Fenced with cause JUNCTION, an AO brown-out, the
service output off; a cage's is CAGE_FAULT (R208, 08_the_wire). -/
def State.railOutcome (s : State) (r : Rail) : State :=
  match r with
  | .coreA => (s.engineFault .a 1).pairSettled
  | .coreB => (s.engineFault .b 1).pairSettled
  | .junction | .serdes => s.fence 0xA
  | .ao => s.aoBrown
  | .aux => s.onSupply (fun x => { x with auxOn := false })
  | .cage => s

/-- The voltages of an engine's core window (R285): the operating point's, and during a step the new row's too. -/
def State.coreMvs (s : State) : Nat × Nat :=
  let v := rowMv s.power.point
  let w := rowMv (s.power.newPoint.getD s.power.point)
  (min v w, max v w)

/-- The rail is outside its window (Table 12-4, R285), in mV; the service auxiliary is tested by its current, and a cage by R208
(08_the_wire), which the command reports. -/
def State.railOutside (s : State) (r : Rail) (mv : Nat) : Bool :=
  match r with
  | .coreA | .coreB => decide (mv * 100 < s.coreMvs.1 * 96) || decide (s.coreMvs.2 * 104 < mv * 100)
  | .junction => decide (mv < 720) || decide (780 < mv)
  | .serdes => decide (mv < 873) || decide (927 < mv)
  | .ao => decide (mv < 900)
  | .aux | .cage => true

/-- RAIL_FAULT (R285): the rail's bit, RAIL_FAULT with the rail and the voltage, and the outcome. -/
def State.railFault (s : State) (r : Rail) (mv : Nat) : State :=
  ((s.onSupply (fun x => { x with rails := Nat.lor x.rails (2 ^ railRow r) })).raise .railFault
    (le 1 (railRow r + 1) ++ le 2 mv)).railOutcome r

def execRailFault (rail : Rail) (mv : Nat) (s : State) : Host.Outcome State Fault Refusal :=
  .next (if s.power.mode ≠ .off ∧ s.railOutside rail (mv % 2 ^ 16) then s.railFault rail (mv % 2 ^ 16) else s)

/-- AUX_REENABLE (R285). -/
def execAuxReenable (s : State) : Host.Outcome State Fault Refusal :=
  .next (if s.noPartner then s else ((s.arrives 64).wrote 0x8001C 1).onSupply (fun x => { x with auxOn := true }))

/-! ### The AO regulator (12.5) -/

/-- AO_BUDGET_SAMPLE (R287): in Deep sleep 19.0 mA or more is a wake source. -/
def execAoBudgetSample (ua : Nat) (s : State) : Host.Outcome State Fault Refusal :=
  .next (if s.supply.lowPower ∧ 19000 ≤ ua then s.registerWake 4 0 else s)

/-- AO_BROWNOUT (R287): above 20 mA in low-power mode. -/
def execAoBrownout (s : State) : Host.Outcome State Fault Refusal := .next (if s.supply.lowPower then s.aoBrown else s)

/-! ### The backup cell (12.6) -/

/-- The charger is charging (Table 12-7). -/
def CellState.charging : CellState → Bool
  | .chargingCc | .chargingCv => true
  | _ => false

/-- The charger takes a state. -/
def State.cellTo (s : State) (c : CellState) : State := s.onSupply (fun x => { x with cell := c })

/-- CELL_CV_REACHED (Table 12-7): at 3.1 V. -/
def execCellCvReached (s : State) : Host.Outcome State Fault Refusal :=
  .next (match s.supply.cell with
    | .chargingCc => (s.cellTo .chargingCv).onSupply (fun x => { x with cellMv := 3100 })
    | _ => s)

/-- CHARGE_COMPLETE (Table 12-7). -/
def execChargeComplete (s : State) : Host.Outcome State Fault Refusal :=
  .next (match s.supply.cell with
    | .chargingCv => s.cellTo .charged
    | _ => s)

/-- CHARGE_TEMP_HOLD (Table 12-7). -/
def execChargeTempHold (s : State) : Host.Outcome State Fault Refusal :=
  .next (if s.supply.cell.charging then (s.cellTo .tempHold).raise .chargeTempHold [] else s)

/-- CHARGE_TEMP_RESUME (Table 12-7). -/
def execChargeTempResume (s : State) : Host.Outcome State Fault Refusal :=
  .next (match s.supply.cell with
    | .tempHold => s.cellTo .chargingCc
    | _ => s)

/-- The cell is declared absent (R289): CELL_ABSENT_COUNT and CELL_ABSENT. -/
def State.cellGone (s : State) : State :=
  (s.onSupply (fun x => { x with cell := .absent, cellLow := false, absents := satAdd 32 x.absents 1 })).raise .cellAbsent []

/-- CELL_REMOVED (R288): while charging. In Off nothing declares it, and without mains the latch loses its power (R290). -/
def execCellRemoved (s : State) : Host.Outcome State Fault Refusal :=
  .next (if s.power.mode = .off then (s.cellTo .absent).latchCheck
    else if s.supply.cell.charging then s.cellGone else s)

/-- CELL_LOW (R289): a present cell below 2.7 V, at most once in an hour of the RTC. -/
def State.cellLowCheck (s : State) (mv : Nat) : State :=
  if mv < 2700 then
    let s1 := s.onSupply (fun x => { x with cellLow := true })
    if s.supply.cellLowAt.all (fun t => decide (t + 3600 * 32768 ≤ s.rtc.count)) then
      (s1.onSupply (fun x => { x with cellLowAt := some s.rtc.count })).raise .cellLow []
    else s1
  else s.onSupply (fun x => { x with cellLow := false })

/-- A probe finds a cell (Table 12-7). -/
def State.cellFound (s : State) (mv : Nat) : State :=
  let s1 := match s.supply.cell with
    | .absent => (s.cellTo (if 2950 ≤ mv then .charged else .chargingCc)).raise .cellPresent []
    | .charged => if mv < 2950 then s.cellTo .chargingCc else s
    | _ => s
  s1.cellLowCheck mv

/-- CELL_PROBE (R289): whenever the charger is not charging; a terminal above 3.3 V during the pulse means no cell. -/
def execCellProbe (mv : Nat) (s : State) : Host.Outcome State Fault Refusal :=
  .next (if s.power.mode = .off ∨ s.supply.cell.charging then s
    else
      let v := mv % 2 ^ 16
      let s1 := s.onSupply (fun x => { x with cellMv := v })
      if v ≤ 3300 then s1.cellFound v
      else match s.supply.cell with
        | .absent => s1
        | _ => s1.cellGone)

end Sys2Proof.Machine
end

