-- ==== Sys2Proof/Machine/Smbus.lean ====
section
/-! DEFINITION. The SMBus target and the fans (19_electrical_and_mechanical). An answer leaves the sled as its data bytes and the PEC byte, which
the target appends when the host clocks one more. -/
namespace Sys2Proof.Machine

/-- The target answers (R393): not in Off, nor while the Supervisor restarts; in boot ROM only STATUS. -/
def State.smbRuns (s : State) : Bool := decide (s.power.mode ≠ .off) && !s.lookout.supRest

/-- The PEC of an answer, as SMBus 3.1 has it (R393; PRESUMED, log 86): CRC-8 with polynomial 0x07 over the address 0x5C with its write bit, the
command code, the address with its read bit, and the data. -/
def smbPec (cmd : Nat) (d : Bytes) : Nat := crcRun ⟨8, 7, 0, false, 0⟩ 0 (le 1 0xB8 ++ le 1 cmd ++ le 1 0xB9 ++ d)

/-- The answer to a command other than STATUS. -/
def State.smbAnswer (s : State) (cmd : Nat) (d : Bytes) : State :=
  if s.smbRuns ∧ s.log.bootRom = false then s.emit (.smb d (smbPec cmd d)) else s

/-- STATE of the STATUS byte (Table 19-6): PWR_STATUS.MODE, 6 Fenced, 7 boot ROM. -/
def State.smbState (s : State) : Nat := if s.log.bootRom then 7 else if s.pair.fenced then 6 else s.power.mode.code

/-- The STATUS byte (Table 19-6). -/
def State.smbStatusByte (s : State) : Nat :=
  s.smbState + 8 * ofBool s.alertOut + 16 * ofBool s.log.ready + 32 * ofBool (decide (s.sledCode = 3)) + 64 * ofBool (decide (s.events.fans ≠ 0)) +
    128 * ofBool s.cellBad

/-- SMB_STATUS (R393). -/
def execSmbStatus (s : State) : Host.Outcome State Fault Refusal :=
  .next (if s.smbRuns then s.emit (.smb (le 1 s.smbStatusByte) (smbPec 1 (le 1 s.smbStatusByte))) else s)

/-- SMB_BULK_MV (R393): SUP_BULK.NOW_MV. -/
def execSmbBulkMv (s : State) : Host.Outcome State Fault Refusal := .next (s.smbAnswer 2 (le 2 s.supply.nowMv))

/-- SMB_INLET_TEMP (R393): the sensor in °C, a free reading. -/
def execSmbInletTemp (s : State) : Host.Outcome State Fault Refusal :=
  .next ((s.smbAnswer 3 (le 1 (Config.inletTemp s.free).toNat)).useFree)

/-- SMB_INPUT_POWER (R393): the inlet power in units of 0.1 W, a free reading. -/
def execSmbInputPower (s : State) : Host.Outcome State Fault Refusal :=
  .next ((s.smbAnswer 4 (le 2 (Config.inputPower s.free).toNat)).useFree)

/-- SMB_FAN_FAULT (R393). -/
def execSmbFanFault (s : State) : Host.Outcome State Fault Refusal := .next (s.smbAnswer 5 (le 1 s.events.fans))

/-- SMB_LOG_SEQ (R393): a block of 4 bytes, EV_LOG_SEQ. -/
def execSmbLogSeq (s : State) : Host.Outcome State Fault Refusal := .next (s.smbAnswer 6 (le 1 4 ++ le 4 s.log.logSeq))

/-- SMB_SERIAL (R393): a block of 8 bytes, ID_SERIAL. -/
def execSmbSerial (s : State) : Host.Outcome State Fault Refusal := .next (s.smbAnswer 7 (le 1 8 ++ le 8 Config.serial.toNat))

/-- SMB_WAKE (R393): WAKE_CAUSE.SOURCE and DETAIL. -/
def execSmbWake (s : State) : Host.Outcome State Fault Refusal := .next (s.smbAnswer 8 (le 1 s.power.wakeSrc ++ le 1 s.power.wakeDet))

/-- SMB_ALERT_RESPONSE (19.3.1): 0x5C, the target's 7-bit address, while the alert is asserted; its PEC covers the address 0x0C with its read bit
and the data. -/
def execSmbAlertResponse (s : State) : Host.Outcome State Fault Refusal :=
  .next (if s.alertOut ∧ s.smbRuns ∧ s.log.bootRom = false then
      s.emit (.smb (le 1 0x5C) (crcRun ⟨8, 7, 0, false, 0⟩ 0 (le 1 0x19 ++ le 1 0x5C))) else s)

/-- FAN_FAILURE (R399): the fan's bit of FAN_FAULT. -/
def execFanFailure (fan : Fin 5) (s : State) : Host.Outcome State Fault Refusal :=
  .next (s.onEvents (fun v => { v with fans := Nat.lor v.fans (2 ^ fan.val) }))

end Sys2Proof.Machine
end

