-- ==== Sys2Proof/Machine/Dispatch.lean ====
section
/-! DEFINITION. The meaning of every command: one arm for each constructor of Instr, in the order of
spec/opcode_table.json. -/
namespace Sys2Proof.Machine

def exec (i : Instr) (s : State) : Host.Outcome State Fault Refusal :=
  match i with
  | .registerWrite bar offset size value => Sys2Proof.Machine.execRegisterWrite bar offset size value s
  | .commit of seq => Sys2Proof.Machine.execCommit of seq s
  | .discard of => Sys2Proof.Machine.execDiscard of s
  | .commitApply => Sys2Proof.Machine.execCommitApply s
  | .setupLock of => Sys2Proof.Machine.execSetupLock of s
  | .timeNowRead of => Sys2Proof.Machine.execTimeNowRead of s
  | .timeCtrlRate src => Sys2Proof.Machine.execTimeCtrlRate src s
  | .timeCtrlStep src => Sys2Proof.Machine.execTimeCtrlStep src s
  | .timeCtrlSet src => Sys2Proof.Machine.execTimeCtrlSet src s
  | .timeHoldExpiry => Sys2Proof.Machine.execTimeHoldExpiry s
  | .rtcAlarm => Sys2Proof.Machine.execRtcAlarm s
  | .rtcAlarmWrite hi => Sys2Proof.Machine.execRtcAlarmWrite hi s
  | .rtcCountWrite hi => Sys2Proof.Machine.execRtcCountWrite hi s
  | .rtcCountRead => Sys2Proof.Machine.execRtcCountRead s
  | .ptmRequest link => Sys2Proof.Machine.execPtmRequest link s
  | .readCompletion tag good data => Sys2Proof.Machine.execReadCompletion tag good data s
  | .cvuAssign => Sys2Proof.Machine.execCvuAssign s
  | .checkDone unit => Sys2Proof.Machine.execCheckDone unit s
  | .completionTimeout tag => Sys2Proof.Machine.execCompletionTimeout tag s
  | .unexpectedCompletion link => Sys2Proof.Machine.execUnexpectedCompletion link s
  | .unsupportedRequest link => Sys2Proof.Machine.execUnsupportedRequest link s
  | .aerError link kind => Sys2Proof.Machine.execAerError link kind s
  | .hlLinkUp link speed width => Sys2Proof.Machine.execHlLinkUp link speed width s
  | .hlLinkDown link => Sys2Proof.Machine.execHlLinkDown link s
  | .perstAssert link => Sys2Proof.Machine.execPerstAssert link s
  | .flr fn => Sys2Proof.Machine.execFlr fn s
  | .vfDisable pf numVfs => Sys2Proof.Machine.execVfDisable pf numVfs s
  | .d3hotEntry fn => Sys2Proof.Machine.execD3hotEntry fn s
  | .busMasterClear fn => Sys2Proof.Machine.execBusMasterClear fn s
  | .configWrite fn bits => Sys2Proof.Machine.execConfigWrite fn bits s
  | .l1Exit link => Sys2Proof.Machine.execL1Exit link s
  | .enrol fn go req => Sys2Proof.Machine.execEnrol fn go req s
  | .enrolReadDone fn good data => Sys2Proof.Machine.execEnrolReadDone fn good data s
  | .leave fn go req => Sys2Proof.Machine.execLeave fn go req s
  | .query fn go req => Sys2Proof.Machine.execQuery fn go req s
  | .txrCreate fn go req => Sys2Proof.Machine.execTxrCreate fn go req s
  | .rxrCreate fn go req => Sys2Proof.Machine.execRxrCreate fn go req s
  | .cqCreate fn go req => Sys2Proof.Machine.execCqCreate fn go req s
  | .evrCreate fn go req => Sys2Proof.Machine.execEvrCreate fn go req s
  | .ringDestroy fn go req => Sys2Proof.Machine.execRingDestroy fn go req s
  | .ringDestroyDone fn => Sys2Proof.Machine.execRingDestroyDone fn s
  | .fnCmdEvict fn => Sys2Proof.Machine.execFnCmdEvict fn s
  | .fnCmdRelease fn => Sys2Proof.Machine.execFnCmdRelease fn s
  | .evictionComplete fn => Sys2Proof.Machine.execEvictionComplete fn s
  | .doorbellTx fn whole value => Sys2Proof.Machine.execDoorbellTx fn whole value s
  | .doorbellRx fn whole value => Sys2Proof.Machine.execDoorbellRx fn whole value s
  | .doorbellCq fn whole value => Sys2Proof.Machine.execDoorbellCq fn whole value s
  | .doorbellEvr fn whole value => Sys2Proof.Machine.execDoorbellEvr fn whole value s
  | .doorbellRecall fn whole value => Sys2Proof.Machine.execDoorbellRecall fn whole value s
  | .doorbellArm fn evr whole value => Sys2Proof.Machine.execDoorbellArm fn evr whole value s
  | .descriptorFetch rx ring => Sys2Proof.Machine.execDescriptorFetch rx ring s
  | .txBufferRead ring => Sys2Proof.Machine.execTxBufferRead ring s
  | .cqModTime queue => Sys2Proof.Machine.execCqModTime queue s
  | .rxStoreWrite ring => Sys2Proof.Machine.execRxStoreWrite ring s
  | .rxEarlyStart ring => Sys2Proof.Machine.execRxEarlyStart ring s
  | .rxWaitExpiry ring => Sys2Proof.Machine.execRxWaitExpiry ring s
  | .grant m ready => Sys2Proof.Machine.execGrant m ready s
  | .frameDeparture m => Sys2Proof.Machine.execFrameDeparture m s
  | .gateEvent m => Sys2Proof.Machine.execGateEvent m s
  | .gclApplied m => Sys2Proof.Machine.execGclApplied m s
  | .txEarlyWake m => Sys2Proof.Machine.execTxEarlyWake m s
  | .lpiEntry m rx => Sys2Proof.Machine.execLpiEntry m rx s
  | .frameReceived m frame => Sys2Proof.Machine.execFrameReceived m frame s
  | .flowWrite of index => Sys2Proof.Machine.execFlowWrite of index s
  | .flowDelete of index => Sys2Proof.Machine.execFlowDelete of index s
  | .flowRead of index => Sys2Proof.Machine.execFlowRead of index s
  | .linkTrainingStart m => Sys2Proof.Machine.execLinkTrainingStart m s
  | .linkUp m far => Sys2Proof.Machine.execLinkUp m far s
  | .linkTrainTimeout m => Sys2Proof.Machine.execLinkTrainTimeout m s
  | .linkTrainRetry m => Sys2Proof.Machine.execLinkTrainRetry m s
  | .laneLoss lane => Sys2Proof.Machine.execLaneLoss lane s
  | .remoteFault m => Sys2Proof.Machine.execRemoteFault m s
  | .macControlFrame m frame => Sys2Proof.Machine.execMacControlFrame m frame s
  | .pauseRegister m => Sys2Proof.Machine.execPauseRegister m s
  | .pauseEnd m c => Sys2Proof.Machine.execPauseEnd m c s
  | .pauseWdExpiry m c => Sys2Proof.Machine.execPauseWdExpiry m c s
  | .fcWdRearm m => Sys2Proof.Machine.execFcWdRearm m s
  | .controlFrameSend m => Sys2Proof.Machine.execControlFrameSend m s
  | .pfcRefresh m c => Sys2Proof.Machine.execPfcRefresh m c s
  | .pauseRefresh m => Sys2Proof.Machine.execPauseRefresh m s
  | .lldpSend m => Sys2Proof.Machine.execLldpSend m s
  | .watchFrame p frame => Sys2Proof.Machine.execWatchFrame p frame s
  | .watchLinkUp p => Sys2Proof.Machine.execWatchLinkUp p s
  | .watchLinkFail p => Sys2Proof.Machine.execWatchLinkFail p s
  | .cageInserted p maxPower copper => Sys2Proof.Machine.execCageInserted p maxPower copper s
  | .cageRemoved p => Sys2Proof.Machine.execCageRemoved p s
  | .cageReset p => Sys2Proof.Machine.execCageReset p s
  | .cageResetDone p maxPower copper => Sys2Proof.Machine.execCageResetDone p maxPower copper s
  | .cageReenable p => Sys2Proof.Machine.execCageReenable p s
  | .cageFault p => Sys2Proof.Machine.execCageFault p s
  | .modulePoll p flags => Sys2Proof.Machine.execModulePoll p flags s
  | .cageMirrorCopy p data => Sys2Proof.Machine.execCageMirrorCopy p data s
  | .tallyRead of => Sys2Proof.Machine.execTallyRead of s
  | .snapshotTrigger of set seq => Sys2Proof.Machine.execSnapshotTrigger of set seq s
  | .tallySnapshot of => Sys2Proof.Machine.execTallySnapshot of s
  | .energyWindow measured => Sys2Proof.Machine.execEnergyWindow measured s
  | .mirrorBoundary => Sys2Proof.Machine.execMirrorBoundary s
  | .relinquish e => Sys2Proof.Machine.execRelinquish e s
  | .lockstepHandoverEnd => Sys2Proof.Machine.execLockstepHandoverEnd s
  | .divergence => Sys2Proof.Machine.execDivergence s
  | .verdictResult test => Sys2Proof.Machine.execVerdictResult test s
  | .drainEnd => Sys2Proof.Machine.execDrainEnd s
  | .warmHandoverEnd => Sys2Proof.Machine.execWarmHandoverEnd s
  | .heartbeatMiss e => Sys2Proof.Machine.execHeartbeatMiss e s
  | .flitReceived path lane flit => Sys2Proof.Machine.execFlitReceived path lane flit s
  | .roleSwap => Sys2Proof.Machine.execRoleSwap s
  | .pairCmdSwap => Sys2Proof.Machine.execPairCmdSwap s
  | .pairCmdRequalify e => Sys2Proof.Machine.execPairCmdRequalify e s
  | .warmStandbyReady => Sys2Proof.Machine.execWarmStandbyReady s
  | .bistCycleDone e pass ecc => Sys2Proof.Machine.execBistCycleDone e pass ecc s
  | .requalifyDone e pass => Sys2Proof.Machine.execRequalifyDone e pass s
  | .bulkCopyDone => Sys2Proof.Machine.execBulkCopyDone s
  | .resyncDone => Sys2Proof.Machine.execResyncDone s
  | .resyncTimeout => Sys2Proof.Machine.execResyncTimeout s
  | .junctionFault => Sys2Proof.Machine.execJunctionFault s
  | .lookoutServe ch => Sys2Proof.Machine.execLookoutServe ch s
  | .badServe ch pc => Sys2Proof.Machine.execBadServe ch pc s
  | .lookoutExpiry ch pc => Sys2Proof.Machine.execLookoutExpiry ch pc s
  | .warningPeriodClose ch pc => Sys2Proof.Machine.execWarningPeriodClose ch pc s
  | .loCmdTest ch pc => Sys2Proof.Machine.execLoCmdTest ch pc s
  | .lookoutClockTrip ch otherStopped => Sys2Proof.Machine.execLookoutClockTrip ch otherStopped s
  | .lookoutResetHold => Sys2Proof.Machine.execLookoutResetHold s
  | .warningDelivery => Sys2Proof.Machine.execWarningDelivery s
  | .mgmtRestart => Sys2Proof.Machine.execMgmtRestart s
  | .supervisorRestarted => Sys2Proof.Machine.execSupervisorRestarted s
  | .lookoutEvidenceCopy => Sys2Proof.Machine.execLookoutEvidenceCopy s
  | .acFailRise => Sys2Proof.Machine.execAcFailRise s
  | .acFailFall => Sys2Proof.Machine.execAcFailFall s
  | .mainsGraceExpiry => Sys2Proof.Machine.execMainsGraceExpiry s
  | .mainsReturn test => Sys2Proof.Machine.execMainsReturn test s
  | .supplyWarn mv crossing => Sys2Proof.Machine.execSupplyWarn mv crossing s
  | .supplyRecovered => Sys2Proof.Machine.execSupplyRecovered s
  | .bulkReset mv => Sys2Proof.Machine.execBulkReset mv s
  | .bulkResetRelease test => Sys2Proof.Machine.execBulkResetRelease test s
  | .railFault rail mv => Sys2Proof.Machine.execRailFault rail mv s
  | .auxReenable => Sys2Proof.Machine.execAuxReenable s
  | .aoBudgetSample ua => Sys2Proof.Machine.execAoBudgetSample ua s
  | .aoBrownout => Sys2Proof.Machine.execAoBrownout s
  | .cellCvReached => Sys2Proof.Machine.execCellCvReached s
  | .chargeComplete => Sys2Proof.Machine.execChargeComplete s
  | .chargeTempHold => Sys2Proof.Machine.execChargeTempHold s
  | .chargeTempResume => Sys2Proof.Machine.execChargeTempResume s
  | .cellRemoved => Sys2Proof.Machine.execCellRemoved s
  | .cellProbe mv => Sys2Proof.Machine.execCellProbe mv s
  | .pwrCmdSleep => Sys2Proof.Machine.execPwrCmdSleep s
  | .pwrCmdDeepSleep hottest => Sys2Proof.Machine.execPwrCmdDeepSleep hottest s
  | .pwrCmdOff => Sys2Proof.Machine.execPwrCmdOff s
  | .pwrEntered => Sys2Proof.Machine.execPwrEntered s
  | .idleEntry => Sys2Proof.Machine.execIdleEntry s
  | .wakePin => Sys2Proof.Machine.execWakePin s
  | .readyStageDone test => Sys2Proof.Machine.execReadyStageDone test s
  | .readyTimeout test => Sys2Proof.Machine.execReadyTimeout test s
  | .pwrExited => Sys2Proof.Machine.execPwrExited s
  | .islandAutoWake n => Sys2Proof.Machine.execIslandAutoWake n s
  | .dvfsCommand mhz mv islands => Sys2Proof.Machine.execDvfsCommand mhz mv islands s
  | .vReady => Sys2Proof.Machine.execVReady s
  | .dvfsTimeout => Sys2Proof.Machine.execDvfsTimeout s
  | .foremanLoop busy => Sys2Proof.Machine.execForemanLoop busy s
  | .thermalWindow hottest => Sys2Proof.Machine.execThermalWindow hottest s
  | .tetherTxStart stamp => Sys2Proof.Machine.execTetherTxStart stamp s
  | .tetherTxEnd res => Sys2Proof.Machine.execTetherTxEnd res s
  | .tetherTxSend slot => Sys2Proof.Machine.execTetherTxSend slot s
  | .tetherTxCancel slot => Sys2Proof.Machine.execTetherTxCancel slot s
  | .gsCmdPropose mode hottest => Sys2Proof.Machine.execGsCmdPropose mode hottest s
  | .gsCmdVeto => Sys2Proof.Machine.execGsCmdVeto s
  | .gsCmdWakeAll => Sys2Proof.Machine.execGsCmdWakeAll s
  | .wakeVeto frame => Sys2Proof.Machine.execWakeVeto frame s
  | .wakeAll frame => Sys2Proof.Machine.execWakeAll frame s
  | .abort frame => Sys2Proof.Machine.execAbort frame s
  | .sync frame => Sys2Proof.Machine.execSync frame s
  | .follow frame => Sys2Proof.Machine.execFollow frame s
  | .propose frame hottest => Sys2Proof.Machine.execPropose frame hottest s
  | .agree frame => Sys2Proof.Machine.execAgree frame s
  | .refuse frame => Sys2Proof.Machine.execRefuse frame s
  | .tetherCommit frame => Sys2Proof.Machine.execTetherCommit frame s
  | .failover frame => Sys2Proof.Machine.execFailover frame s
  | .claim frame => Sys2Proof.Machine.execClaim frame s
  | .object frame => Sys2Proof.Machine.execObject frame s
  | .heartbeat frame => Sys2Proof.Machine.execHeartbeat frame s
  | .operator frame => Sys2Proof.Machine.execOperator frame s
  | .listenWindowEnd => Sys2Proof.Machine.execListenWindowEnd s
  | .claimWindowEnd => Sys2Proof.Machine.execClaimWindowEnd s
  | .backoffEnd => Sys2Proof.Machine.execBackoffEnd s
  | .heartbeatSend => Sys2Proof.Machine.execHeartbeatSend s
  | .tetherStationGone station => Sys2Proof.Machine.execTetherStationGone station s
  | .syncSend => Sys2Proof.Machine.execSyncSend s
  | .gsAgreeWindowEnd => Sys2Proof.Machine.execGsAgreeWindowEnd s
  | .gsMemberTimeout => Sys2Proof.Machine.execGsMemberTimeout s
  | .gsCommitTime hottest => Sys2Proof.Machine.execGsCommitTime hottest s
  | .tetherRxPop => Sys2Proof.Machine.execTetherRxPop s
  | .coldStart how test => Sys2Proof.Machine.execColdStart how test s
  | .sledReset key test => Sys2Proof.Machine.execSledReset key test s
  | .chassisReset test => Sys2Proof.Machine.execChassisReset test s
  | .sledStarted ms => Sys2Proof.Machine.execSledStarted ms s
  | .fwCmdStage of => Sys2Proof.Machine.execFwCmdStage of s
  | .fwStaged sigGood svn line raiseFlag build => Sys2Proof.Machine.execFwStaged sigGood svn line raiseFlag build s
  | .fwCmdActivate of => Sys2Proof.Machine.execFwCmdActivate of s
  | .logCmdSave lockAfterLoad => Sys2Proof.Machine.execLogCmdSave lockAfterLoad s
  | .setupImageSaved => Sys2Proof.Machine.execSetupImageSaved s
  | .logbookScrub row corrected uncorrectable => Sys2Proof.Machine.execLogbookScrub row corrected uncorrectable s
  | .ledgerEntry => Sys2Proof.Machine.execLedgerEntry s
  | .evAlertAck => Sys2Proof.Machine.execEvAlertAck s
  | .evTest of key => Sys2Proof.Machine.execEvTest of key s
  | .smbStatus => Sys2Proof.Machine.execSmbStatus s
  | .smbBulkMv => Sys2Proof.Machine.execSmbBulkMv s
  | .smbInletTemp => Sys2Proof.Machine.execSmbInletTemp s
  | .smbInputPower => Sys2Proof.Machine.execSmbInputPower s
  | .smbFanFault => Sys2Proof.Machine.execSmbFanFault s
  | .smbLogSeq => Sys2Proof.Machine.execSmbLogSeq s
  | .smbSerial => Sys2Proof.Machine.execSmbSerial s
  | .smbWake => Sys2Proof.Machine.execSmbWake s
  | .smbAlertResponse => Sys2Proof.Machine.execSmbAlertResponse s
  | .fanFailure fan => Sys2Proof.Machine.execFanFailure fan s
  | .timePairRecord => Sys2Proof.Machine.execTimePairRecord s
  | .gsCommitDeadline => Sys2Proof.Machine.execGsCommitDeadline s
  | .bulkRailRecoveryCrossing mv => Sys2Proof.Machine.execBulkRailRecoveryCrossing mv s
  | .msixVectorUnmask fn dword value => Sys2Proof.Machine.execMsixVectorUnmask fn dword value s

end Sys2Proof.Machine
end

