-- ==== Sys2Proof/Machine/Tick.lean ====
section
/-! DEFINITION. What one J-cycle does whatever is commanded: it is what a step does on an empty queue (log 1). -/
namespace Sys2Proof.Machine

/-- The latch's mains-return timer (R25, 01_the_sled; R279, 12_supply_and_backup_cell) counts the time for which AC_FAIL has been clear in Off. -/
def State.latchTick (s : State) : State :=
  if s.power.mode = .off ∧ s.supply.retRun.isSome then s.onSupply (fun x => { x with retRun := x.retRun.map (fun t => t + 1) }) else s

/-- One J-cycle: what takes effect at the end of the one that closes (R101, 04_host_links), the advance of time (R40, 02_time_and_windows), the
windows of link idle (R201, 08_the_wire) and of Idle (R298, 13_islands_and_power_states), the latch's timer, and the rows of the health region that
changed values call for (R292, 12_supply_and_backup_cell; R338, 15_tether). -/
def State.tick (s : State) : State := ((s.enrolEnds.advanceTime).lpiTicks.idleTick.latchTick).healthTick

/-! ### The order of the broadcast (R37, 01_the_sled) -/

/-- The function that sends a transaction which a link completes; a register command that names no OF counts as OF0's (log 69). -/
def partnerOf (i : Instr) : Option Nat :=
  match i with
  | .registerWrite (.of n) _ _ _ => some (64 + n)
  | .registerWrite (.tf f) _ _ _ => some f
  | .registerWrite (.cf n) _ _ _ => some (68 + n)
  | .commit n _ | .discard n | .setupLock n | .timeNowRead n | .tallyRead n | .snapshotTrigger n _ _ | .flowWrite n _ | .flowDelete n _
  | .flowRead n _ | .fwCmdStage n | .fwCmdActivate n | .evTest n _ => some (64 + n)
  | .enrol f _ _ | .leave f _ _ | .query f _ _ | .txrCreate f _ _ | .rxrCreate f _ _ | .cqCreate f _ _ | .evrCreate f _ _ | .ringDestroy f _ _
  | .doorbellTx f _ _ | .doorbellRx f _ _ | .doorbellCq f _ _ | .doorbellEvr f _ _ | .doorbellRecall f _ _ | .doorbellArm f _ _ _
  | .msixVectorUnmask f _ _ => some f
  | .timeCtrlRate _ | .timeCtrlStep _ | .timeCtrlSet _ | .rtcAlarmWrite _ | .rtcCountWrite _ | .rtcCountRead | .fnCmdEvict _ | .fnCmdRelease _
  | .fcWdRearm _ | .cageReset _ | .cageReenable _ | .pairCmdSwap | .pairCmdRequalify _ | .loCmdTest _ _ | .auxReenable | .pwrCmdSleep
  | .pwrCmdDeepSleep _ | .pwrCmdOff | .tetherTxSend _ | .tetherTxCancel _ | .gsCmdPropose _ _ | .gsCmdVeto | .gsCmdWakeAll | .tetherRxPop
  | .sledReset _ _ | .logCmdSave _ | .evAlertAck => some 64
  | _ => none

/-- The place of an input in its J-cycle: the physical lanes 0 to 15, the links H0a to H3b, then the apply signal of a COMMIT. The frames of an
instance stand at its first lane. What is no input of the broadcast has no place. -/
def State.inputRank (s : State) (i : Instr) : Option Nat :=
  match i with
  | .frameReceived m _ | .macControlFrame m _ => some m
  | .watchFrame p _ => some (8 * p)
  | .commitApply => some 24
  | i => (partnerOf i).map (fun f => 16 + s.fnLink f)

/-- An input takes its place behind those of its own place and before those of later ones. -/
def State.placeInput (s : State) (i : Instr) : List Instr → List Instr
  | [] => [i]
  | j :: r =>
    match s.inputRank i, s.inputRank j with
    | some a, some b => if a < b then i :: j :: r else j :: s.placeInput i r
    | _, _ => j :: s.placeInput i r

/-- The inputs of one J-cycle, given in order of arrival, in the order in which the broadcast delivers them (R37). -/
def State.broadcast (s : State) (l : List Instr) : List Instr := l.foldl (fun t i => s.placeInput i t) []

/-- A queue holds the inputs of one J-cycle in the order of the broadcast: no place is followed by an earlier one. Commands are put into the
queue in that order from outside (log 1). -/
def State.inOrder (s : State) (l : List Instr) : Bool :=
  let r := l.filterMap s.inputRank
  (r.zip (r.drop 1)).all (fun e => decide (e.1 ≤ e.2))

end Sys2Proof.Machine
end

