-- ==== Sys2Proof/Machine/Step.lean ====
section
/-! DEFINITION. One step of the sled: the command at the front of the queue, or, on an empty queue, one J-cycle. -/
namespace Sys2Proof.Machine

/-- One step. With no command waiting the clock moves on by one J-cycle (DESIGN CHOICE, log 2). -/
def step (s : State) : Host.Outcome State Fault Refusal :=
  match s.pending with
  | c :: rest => exec c { s with pending := rest }
  | [] => .next s.tick

/-- The state with the command that a table word spells at the front of its queue; no row of the table gives bits, so no word
spells one and the state is unchanged. -/
def State.withFetchWord (s : State) (nbits w : Nat) : State :=
  match decodeTableWord nbits w with
  | some c => { s with pending := c :: s.pending }
  | none => s

end Sys2Proof.Machine
end

