-- ==== Sys2Proof/Machine/Reads.lean ====
section
/-! DEFINITION. What a read of a function's BARs returns (18_register_map, Tables 4-4 and 4-5 of 04_host_links, and the register tables of each
block). Plain reads are no commands: they change nothing; the reads that latch (TIME_NOW_0, TALLY_VAL_LO, RTC_COUNT_LO) are commands of their
own. -/
namespace Sys2Proof.Machine

/-! ### Encodings of the read-only fields -/

/-- STATE of COMMIT_STATUS (Table 0-8, 00_scope). -/
def CommitState.code : CommitState → Nat
  | .idle => 0
  | .pending => 1
  | .deferred => 2
  | .refused => 3

/-- STATE of a ring status entry (Table 5-15, 05_rings_and_doorbells). -/
def RingState.code : RingState → Nat
  | .unused => 0
  | .active => 1
  | .closing => 2

/-- LINK of MAC_STATUS (Table 8-5, 08_the_wire). -/
def LinkStage.code : LinkStage → Nat
  | .disabled => 0
  | .down => 1
  | .training => 2
  | .up => 3

/-- STATE_A and STATE_B (Table 10-9, 10_engine_pair). -/
def EngState.code : EngState → Nat
  | .active => 0
  | .standby => 1
  | .failed => 2
  | .requalifying => 3
  | .resyncing => 4
  | .retired => 5

/-- STATE of LO_STATUS (Table 11-5, 11_lookout). -/
def LoState.code : LoState → Nat
  | .counting => 0
  | .warning => 1
  | .held => 2

/-- CLAIM_STATE (Table 15-8, 15_tether). -/
def ClaimState.code : ClaimState → Nat
  | .disabled => 0
  | .listening => 1
  | .claiming => 2
  | .joined => 3
  | .backoff => 4

/-- STATE of TETHER_GS_STATUS (Table 15-8, 15_tether). -/
def GsState.code : GsState → Nat
  | .none => 0
  | .proposed => 1
  | .agreed => 2
  | .committed => 3
  | .aborted => 4
  | .refused => 5

/-- A word made of fields: (lowest bit, value). -/
def wordOf (l : List (Nat × Nat)) : Nat := (l.map (fun e => e.2 * 2 ^ e.1)).sum

/-- A number whose set bits are those a test accepts. -/
def bitsWhere (n : Nat) (p : Nat → Bool) : Nat := ((List.range n).map (fun i => if p i then 2 ^ i else 0)).sum

/-- A ring status entry (Table 5-15, 05_rings_and_doorbells): positions C and H or W as index and lap. -/
def ringEntry (size st c p : Nat) (armed : Bool) : Nat :=
  wordOf [(0, posIndex (ringN size) c), (16, posLap (ringN size) c), (24, st), (26, ofBool armed), (32, posIndex (ringN size) p),
    (48, posLap (ringN size) p), (56, size)]

def TxRing.entry (r : TxRing) : Nat := ringEntry r.size r.state.code r.c r.h false
def RxRing.entry (r : RxRing) : Nat := ringEntry r.size r.state.code r.c r.h false
def CqRing.entry (r : CqRing) : Nat := ringEntry r.size r.state.code r.c r.w r.armed

/-! ### The read-only and live bits, block by block -/

/-- The IDENT block (R388), as function f of link n reads it. -/
def State.readId (s : State) (f n : Nat) : Reg → Nat
  | .idVendor => wordOf [(0, 0x1F5A), (16, 0x0820)]
  | .idRev => wordOf [(0, 0x43), (8, 4), (16, (s.fwSlot s.log.running).build)]
  | .idSerialLo => bits Config.serial.toNat 0 32
  | .idSerialHi => bits Config.serial.toNat 32 32
  | .idCaps => wordOf [(0, 64), (8, 4), (16, 16), (24, 2)]
  | .idFunc => wordOf [(0, f), (8, n), (10, s.hlCtrlBifurcate n)]
  | _ => 0

/-- The COMMIT and EVENTS blocks (R22, 00_scope; R389). -/
def State.readIdent (s : State) (n : Nat) : Reg → Nat
  | .commitDoorbell => s.setup.seq
  | .commitStatus => wordOf [(0, s.setup.appliedSeq), (16, s.setup.state.code), (18, ofBool s.setup.queuedSet.isSome), (19, ofBool s.setup.lock)]
  | .commitFault => wordOf [(0, s.setup.faultOff), (20, s.setup.faultWhy)]
  | .commitView => ofBool (s.of n).activeView
  | .setupLock => ofBool s.setup.lock
  | .setupRejectCount => s.setup.rejects
  | .evAlert => 256 * ofBool s.alertOut
  | .evSeq => (s.of n).evSeq
  | .evLogSeq => s.log.logSeq
  | _ => 0

/-- The POWER block (R311, 13_islands_and_power_states). -/
def State.readPower (s : State) (i : Nat) : Reg → Nat
  | .pwrStatus => wordOf [(0, s.power.mode.code), (4, min s.power.stage 3), (6, s.power.retry)]
  | .wakeCause => s.wakeWord
  | .wakeOthers => s.power.wakeOth
  | .wakeTimeLo => bits s.power.wakeTime 0 32
  | .wakeTimeHi => bits s.power.wakeTime 32 32
  | .readyRetryCount => s.power.retries
  | .wakeReplayCount => s.power.replays
  | .islState => let x := s.island i
    wordOf [(0, x.state.code), (2, ofBool x.isolated), (3, ofBool x.auto), (4, x.freq)]
  | .dvfsStatus => wordOf [(0, s.power.point), (2, ofBool s.power.newPoint.isSome), (3, ofBool s.power.vReady), (4, s.power.ceiling)]
  | _ => 0

/-- The HOSTLINK block (R102, 04_host_links). -/
def State.readHost (s : State) (n i : Nat) : Reg → Nat
  | .hlStatus => let a := s.link (2 * i)
    let b := s.link (2 * i + 1)
    wordOf [(0, a.speed), (4, a.width), (16, b.speed), (20, b.width)]
  | .hlDownCount => tget s.linkDown i
  | .hlAerCount => tget s.linkAer i
  | .mbxRequest => wget (s.fn (64 + n)).req i
  | .mbxStatus => wordOf [(0, (s.fn (64 + n)).replySeq), (8, ofBool (s.fn (64 + n)).busy)]
  | .mbxReply => leAt (s.fn (64 + n)).reply (4 * i) 4
  | .fnState => wordOf [(0, (s.fn i).state.code), (8, (s.fn i).gen), (16, (s.fn i).cause)]
  | .profCtrl => 2 ^ 31 * ofBool (s.fn i).seen
  | .imageTagSeenLo => bits (s.fn i).tagSeen 0 32
  | .imageTagSeenHi => bits (s.fn i).tagSeen 32 32
  | _ => 0

/-- The RINGS, FILTERS and SCHED blocks (R129, 05_rings_and_doorbells; R181, 07_receive; R157, 06_transmit). -/
def State.readFlow (s : State) (n i j : Nat) : Reg → Nat
  | .txrStatus => bits (s.txr i).entry (32 * j) 32
  | .rxrStatus => bits (s.rxr i).entry (32 * j) 32
  | .cqStatus => bits (s.cqr i).entry (32 * j) 32
  | .evrStatus => bits (s.evr i).entry (32 * j) 32
  | .hamperStatus => wordOf [(0, s.poolFree), (16, s.reserveFree)]
  | .hamperPool => s.poolSize
  | .flowKey => wget s.setup.flowKey i
  | .flowAction => wordOf [(0, s.setup.flowRing), (31, ofBool s.setup.flowValid)]
  | .flowStatus => wordOf [(0, s.setup.flowResult), (16, s.flowStaging.length)]
  | .rxFnSel => (s.of n).rxFnSel
  | .gclStatus => wordOf [(0, (s.sch i).entry), (8, ofBool (s.sch i).pend.isSome), (16, (s.sch i).stuck)]
  | .tbLevel => unsigned 32 (s.tokens i / ((8000 * 2 ^ 32 : Nat) : Int))
  | _ => 0

/-- The MAC block (R211, 08_the_wire). A missing instance reads its own registers as R183 states: MAC_STATUS as Disabled. -/
def State.readMac (s : State) (i j : Nat) : Reg → Nat
  | .lpiTw => (s.mac i).tw
  | .lpiTwMin => (s.mac i).twMin
  | .macStatus => let x := s.mac i
    wordOf [(0, x.link.code), (3, x.fec), (6, ofBool x.lpiCap), (7, ofBool x.txLpi), (8, ofBool x.rxLpi), (9, ofBool x.ignoring),
      (16, bitsWhere 8 (s.paused i)), (24, x.laneOk)]
  | .watchStatus => let x := s.watchLane i
    wordOf [(0, ofBool x.ready), (8, x.last), (14, ofBool x.matched)]
  | .cageStatus => let x := s.cage i
    wordOf [(0, ofBool x.present), (1, ofBool x.highPower), (2, ofBool x.fault), (3, ofBool x.copper), (8, x.maxPower)]
  | .cageMirror => leAt (s.cage i).mirror (4 * j) 4
  | _ => 0

/-- The TIME and TALLY blocks (R62, 02_time_and_windows; R229, 09_tally): the first word of a latched value reads the value, the others the
reading OF's latch. Until the first accepted adjustment after a cold start TIME_RATE reads 0 (R46). -/
def State.readTime (s : State) (n i : Nat) : Reg → Nat
  | .timeNow => if i = 0 then bits (time96 s.time.now) 0 32 else bits (s.of n).timeLatch (32 * i) 32
  | .timeSet => wget s.time.setOp i
  | .timeRate => if s.time.accepted then s.time.rateOp.toNat else 0
  | .timeStep => wget s.time.stepOp i
  | .timeCtrl => wordOf [(0, s.time.ctrlAct), (2, s.time.ctrlSrc)]
  | .timeStatus => wordOf [(0, s.time.source.code), (4, ofBool s.time.valid)]
  | .timeStepCount => s.time.steps
  | .timeAdjIgnored => s.time.ignored
  | .rtcCountLo => bits s.rtc.count 0 32
  | .rtcCountHi => s.rtc.latchHi
  | .rtcAlarmLo => s.rtc.alarmLo.toNat
  | .rtcAlarmHi => bits s.rtc.alarm 32 16
  | .rtcCtrl => ofBool s.rtc.alarmEn
  | .rtcStatus => wordOf [(0, ofBool s.rtc.fired), (1, ofBool s.rtc.past), (2, ofBool s.rtc.valid)]
  | .tallySel => wordOf [(0, (s.of n).tallyObj), (12, (s.of n).tallyCls), (16, (s.of n).tallyCode)]
  | .tallyValLo => bits (s.tallySelected n) 0 32
  | .tallyValHi => bits (s.of n).tallyLatch 32 16
  | .snapAddrLo => bits (s.of n).snapAddr 0 32
  | .snapAddrHi => bits (s.of n).snapAddr 32 32
  | .snapLen => (s.of n).snapLen
  | .snapCtrl => wordOf [(0, (s.of n).snapSet), (16, (s.of n).snapSeq)]
  | .snapStatus => wordOf [(0, (s.of n).snapState), (4, (s.of n).snapWhy), (16, (s.of n).snapSeq)]
  | .tallyStatus => s.tally.gaps
  | .islandIdle => s.idleMw i
  | .islandPower => tget s.tally.powerMw i
  | _ => 0

/-- The engine of PAIR_HEALTH_k (Table 10-9, 10_engine_pair). -/
def healthEng (k : Nat) : Eng := if k = 0 then .a else .b

/-- The PAIR and LOOKOUT blocks (R259, 10_engine_pair; R275, 11_lookout). FAILS_HOUR counts the failures less than one hour old. -/
def State.readPair (s : State) (i : Nat) : Reg → Nat
  | .pairStatus => wordOf [(0, s.activeCode), (2, s.sledCode), (8, s.pair.a.state.code), (12, s.pair.b.state.code),
      (16, ofBool s.pair.a.act), (17, ofBool s.pair.b.act), (18, ofBool s.pair.suspect)]
  | .pairLast => wordOf [(0, s.pair.lastWhy), (16, s.pair.lastDur)]
  | .pairHealthBist => (s.eng (healthEng i)).bistS
  | .pairHealthEcc => (s.eng (healthEng i)).ecc
  | .pairHealthFails => min 255 ((s.eng (healthEng i)).fails.filter (fun t => decide (s.time.elapsed < t + 3600 * uSec))).length
  | .loStatus => let x := s.chan i
    wordOf [(0, x.state.code), (2, ofBool (x.ref32 && decide (i < 2))), (3, ofBool x.tripped)]
  | .loLastServeLo => bits (s.chan i).latched 0 32
  | .loLastServeHi => bits (s.chan i).latched 32 32
  | .loWarnPc => (s.chan i).warnPc
  | .loResetCause => let x := s.chan i
    wordOf [(0, ofBool x.expiry), (1, ofBool x.badServe), (2, ofBool x.clockLoss), (8, ofBool x.common)]
  | .loWarnCount => (s.chan i).warns
  | .loResetCount => (s.chan i).resets
  | .loBadServeCount => (s.chan i).bads
  | _ => 0

/-- The SUPPLY and FOREMAN blocks (R292, 12_supply_and_backup_cell; R323, 14_foreman). LOOP_SUSPENDED: the knob is pinned or its loop is
off (R316, R323). -/
def State.readSupply (s : State) (i : Nat) : Reg → Nat
  | .supStatus => wordOf [(0, ofBool s.supply.acFail), (1, ofBool s.supply.braced)]
  | .supBulk => wordOf [(0, s.supply.nowMv), (16, s.supply.minMv)]
  | .railStatus => s.supply.rails
  | .aoStatus => wordOf [(0, s.supply.lastEst), (16, ofBool s.supply.refused), (17, ofBool s.supply.lowPower)]
  | .cellStatus => wordOf [(0, s.supply.cell.code), (16, s.supply.cellMv)]
  | .supplyCount =>
    if i = 0 then s.supply.warns else if i = 1 then s.supply.dips else if i = 2 then s.supply.bulks else if i = 3 then s.supply.losses
    else if i = 4 then s.supply.absents else s.supply.defDrops
  | .fmThermal => 2 ^ 8 * s.foreman.level
  | .fmStatus => let x := s.knob i
    wordOf [(0, unsigned 16 x.applied), (16, ofBool (decide (s.fmModePinEn i = 1) || !s.loopOn i)), (17, ofBool x.clamped), (18, x.src)]
  | .fmChanges => (s.knob i).changes
  | _ => 0

/-- The TETHER block (R355, 15_tether). An empty FIFO reads as zeros. -/
def State.readTether (s : State) (n i j : Nat) : Reg → Nat
  | .tetherStatus => wordOf [(0, s.tether.claim.code), (8, s.tether.station), (16, s.tether.elder), (24, s.tether.timeRef),
      (30, ofBool (decide (s.tether.claim = .joined))), (31, ofBool s.tether.term)]
  | .tetherSession => s.tether.session
  | .tetherPresentLo => bits s.presentMap 0 32
  | .tetherPresentHi => bits s.presentMap 32 32
  | .tetherPeerSel => (s.of n).peerSel
  | .tetherPeerSerialLo => bits (s.peer (s.of n).peerSel).serial 0 32
  | .tetherPeerSerialHi => bits (s.peer (s.of n).peerSel).serial 32 32
  | .tetherPeerInfo => let p := s.peer (s.of n).peerSel
    wordOf [(0, p.session), (8, ofBool p.timeGood), (9, p.kind)]
  | .tetherGsCmd => s.tether.gsCmdBits
  | .tetherGsStatus => wordOf [(0, s.tether.gsStat.code), (8, s.tether.round), (16, s.tether.proposer), (24, s.tether.reason)]
  | .tetherGsTLo => bits s.tether.gsT 0 32
  | .tetherGsTHi => bits s.tether.gsT 32 32
  | .tetherTxData => wget (s.slot i).data j
  | .tetherTxLen => (s.slot i).len
  | .tetherTxStatus => wordOf [(0, (s.slot i).state), (8, (s.slot i).seq)]
  | .tetherRxCount => s.tether.fifo.length
  | .tetherRxHead => match s.tether.fifo with
    | e :: _ => wordOf [(0, e.station), (8, e.data.length), (16, e.seq)]
    | [] => 0
  | .tetherRxTimeLo => match s.tether.fifo with
    | e :: _ => bits e.stamp 0 32
    | [] => 0
  | .tetherRxTimeHi => match s.tether.fifo with
    | e :: _ => bits e.stamp 32 32
    | [] => 0
  | .tetherRxData => match s.tether.fifo with
    | e :: _ => leAt e.data (4 * i) 4
    | [] => 0
  | .tetherCount => tget s.tether.counts i
  | _ => 0

/-- A word of the Logbook row that an OF selects (R369, 16_start_up_and_logbook). -/
def State.rowWord (s : State) (row j : Nat) : Nat := ofLe (s.memBytes (64 * row + 4 * j) 4)

/-- The LOGBOOK block (R369, 16_start_up_and_logbook). -/
def State.readLog (s : State) (n i : Nat) : Reg → Nat
  | .startStatus => wordOf [(0, s.log.stage), (3, ofBool s.log.ready), (4, s.log.imgUsed), (8, s.log.reason)]
  | .imageGen => s.log.imgGen
  | .startTime => s.log.startMs
  | .logCmd => s.log.logCmd
  | .logStatus => wordOf [(0, s.log.saveSt), (4, s.log.saveWhy), (16, s.log.spares)]
  | .logRowSel => (s.of n).rowSel
  | .logRowStatus => let r := (s.of n).rowSel
    wordOf [(0, ofBool (decide (r ∈ s.log.badRows) || decide (r ∈ s.log.wornRows))), (1, ofBool (decide (r ∈ s.log.corrRows))),
      (2, ofBool (decide (r ∈ s.log.remapped)))]
  | .logRowData => s.rowWord (s.of n).rowSel i
  | .logHead => wordOf [(0, (s.region (i + 2)).head), (16, (s.region (i + 2)).lap)]
  | .logbookRateDrop => s.log.rateDrop
  | .fwAddrLo => bits (s.of n).fwAddr 0 32
  | .fwAddrHi => bits (s.of n).fwAddr 32 32
  | .fwLen => (s.of n).fwLen
  | .fwCmd => s.log.fwLast
  | .fwStatus => wordOf [(0, s.log.running), (1, s.log.next), (2, s.log.fwState), (4, s.log.fwWhy), (16, (s.fwSlot s.log.running).svn)]
  | _ => 0

/-- Command registers (class L, reset 0): they read what was last written to their fields (DEDUCED, log 18). EV_ALERT_ACK and FC_WD_REARM read 0,
and LOG_CMD, FW_CMD, TIME_CTRL and TETHER_GS_CMD are read in their blocks. -/
def Reg.command : Reg → Bool
  | .pwrCmd | .mbxGo | .fnCmd | .flowCmd | .cageCmd | .pairCmd | .loCmd | .supCmd | .tetherTxCmd | .tetherRxPop | .sledReset | .evTest => true
  | _ => false

/-- A command register as last written; MBX_GO is each OF's own (R383). -/
def State.readCommand (s : State) (n : Nat) (r : RegRow) (off : Nat) : Nat :=
  Nat.land (wget s.setup.cmds (if r.reg = .mbxGo then goKey (64 + n) else off)) (commandMask r)

/-- The bits of a register outside its S and K fields, as OF n reads them: `i` and `j` are its indices. -/
def State.readLive (s : State) (n : Nat) (r : Reg) (i j off : Nat) : Nat :=
  if off < 0x1000 then s.readId (0x40 + n) n r
  else if off < 0x2000 ∨ 0xF0000 ≤ off then s.readIdent n r
  else if off < 0x4000 then s.readPower i r
  else if off < 0x10000 then s.readHost n i r
  else if off < 0x40000 then s.readFlow n i j r
  else if off < 0x50000 then s.readMac i j r
  else if off < 0x70000 then s.readTime n i r
  else if off < 0x80000 then s.readPair i r
  else if off < 0x88000 then s.readSupply i r
  else if off < 0x90000 then s.readTether n i j r
  else if off < 0xA0000 then s.readSupply i r
  else s.readLog n i r

/-! ### Reads of set-up words -/

/-- The words of a sealed set that staging still shows: none after a DISCARD (R15, 00_scope). -/
def sealedWords (x : Option SealedSet) : List (Nat × StagedW) :=
  match x with
  | some p => if p.discarded then [] else p.words
  | none => []

/-- One layer of staged bits over a word. -/
def layer (t : List (Nat × StagedW)) (key : Nat) (w : Word) : Word :=
  match Tbl.find t key with
  | some x => x.over w
  | none => w

/-- A set-up word as staging shows it: the active word with the sealed sets and the staged writes over it (R12, R22, 00_scope). After a DISCARD
with a set still sealed the model keeps no copy of the active values of that instant: staging follows the active values, the sealed set's
too once it is applied (DESIGN CHOICE, log 81). -/
def State.stagingWord (s : State) (key : Nat) : Word :=
  layer s.setup.staged key (layer (sealedWords s.setup.queuedSet) key (layer (sealedWords s.setup.pendingSet) key
    (Tbl.get resetWord s.setup.active key)))

/-- The S and K bits of a register as OF n reads them, by its COMMIT_VIEW; a window that names no function reads as 0 (R181,
07_receive). -/
def State.readSetup (s : State) (n off : Nat) : Nat :=
  match s.setupKey n off with
  | none => 0
  | some key => if (s.of n).activeView then s.activeWord key else (s.stagingWord key).toNat

/-- A 4-byte read by OF n (R381, R382): a reserved offset reads as 0. -/
def State.readWord (s : State) (n off : Nat) : Nat :=
  match regAt off with
  | none => 0
  | some (r, ix) =>
    (if stagedMask r = 0 then 0 else Nat.land (s.readSetup n off) (stagedMask r))
      + (if stagedMask r = 2 ^ 32 - 1 then 0 else if r.reg.command then s.readCommand n r off
         else s.readLive n r.reg (ix.headD 0) (ix.getD 1 0) off)

/-- A read of any size of a window of words (R381): 4 bytes aligned, or 8 as two words, the lower offset first; any other returns 0. -/
def readSized (word : Nat → Nat) (off size : Nat) : Nat :=
  if size = 4 ∧ off % 4 = 0 then word off
  else if size = 8 ∧ off % 8 = 0 then word off + 2 ^ 32 * word (off + 4)
  else 0

/-- A read of OF BAR0. -/
def State.read (s : State) (n off size : Nat) : Nat := readSized (s.readWord n) off size

/-! ### The other windows (R77, R80, R102, 04_host_links; R129, 05_rings_and_doorbells) -/

/-- MBX_STATUS of a TF, at TF BAR0 0x0024: the layout of Table 4-13 with FN_STATE and FN_GEN (R102, 04_host_links). -/
def State.tfMbxStatus (s : State) (f : Nat) : Nat :=
  wordOf [(0, (s.fn f).replySeq), (8, ofBool (s.fn f).busy), (9, (s.fn f).state.code), (16, (s.fn f).gen)]

/-- A word of an MSI-X table (R80): address, data and the mask bit of a vector. -/
def State.msixWord (s : State) (f k : Nat) : Nat :=
  let v := k / 4
  if k % 4 = 0 then bits (tget (s.fn f).msixAddr v) 0 32
  else if k % 4 = 1 then bits (tget (s.fn f).msixAddr v) 32 32
  else if k % 4 = 2 then tget (s.fn f).msixData v
  else ofBool ((s.fn f).msixMask.getLsbD v)

/-- A word of a TF's ring status page (R129): its own entries, in the layout of Table 5-15. -/
def State.tfRingWord (s : State) (f off : Nat) : Nat :=
  let i := off % 0x100 / 8
  let half := off / 4 % 2 * 32
  if off < 0x100 ∧ i < 8 then bits (s.txr (s.ringAllocTxBase f + i)).entry half 32
  else if 0x100 ≤ off ∧ off < 0x200 ∧ i < 8 then bits (s.rxr (s.ringAllocRxBase f + i)).entry half 32
  else if 0x200 ≤ off ∧ off < 0x300 ∧ i < 2 then bits (s.cqr (s.ringAllocCqBase f + i)).entry half 32
  else 0

/-- A word of TF BAR0 (Table 4-5); an offset the table does not assign reads as 0 (R3, 00_scope). -/
def State.tfReadWord (s : State) (f off : Nat) : Nat :=
  if off < 0x20 then wget (s.fn f).req (off / 4)
  else if off = 0x20 then bits (wget s.setup.cmds (goKey f)) 0 8
  else if off = 0x24 then s.tfMbxStatus f
  else if 0x40 ≤ off ∧ off < 0x60 then leAt (s.fn f).reply (off - 0x40) 4
  else if 0x1000 ≤ off ∧ off < 0x2000 then s.tfRingWord f (off - 0x1000)
  else if 0x3000 ≤ off ∧ off < 0x3080 then s.msixWord f ((off - 0x3000) / 4)
  else if off = 0x3800 then bits (s.fn f).msixPend.toNat 0 8
  else 0

/-- A word of OF BAR2 (Table 4-4): the doorbell page is written only. -/
def State.bar2Word (s : State) (n off : Nat) : Nat :=
  if 0x1000 ≤ off ∧ off < 0x1400 then s.msixWord (64 + n) ((off - 0x1000) / 4)
  else if off = 0x1800 ∨ off = 0x1804 then bits (s.fn (64 + n)).msixPend.toNat (8 * (off - 0x1800)) 32
  else 0

/-- A word of a carrier function's BAR0: a copy of the IDENT block (R77), with its own function identifier. -/
def State.cfReadWord (s : State) (n off : Nat) : Nat :=
  match regAt off with
  | some (r, _) => if off < 0x1000 then s.readId (0x80 + n) n r.reg else 0
  | none => 0

/-- A read of a function's BAR0. The sizes that R381 gives OF BAR0 the spec gives no other window; the model takes the same (DEDUCED, log 84). -/
def State.readBar (s : State) (b : Bar) (off size : Nat) : Nat :=
  match b with
  | .of n => s.read n off size
  | .tf f => readSized (s.tfReadWord f) off size
  | .cf n => readSized (s.cfReadWord n) off size

/-- A read of OF BAR2. -/
def State.readBar2 (s : State) (n off size : Nat) : Nat := readSized (s.bar2Word n) off size

/-! ### Who answers a read (R384, R385) -/

/-- A read of OF BAR0 is answered by the active engine (R384): not one of a set-up field in the staging view, nor one of the blocks and
registers that the Junction and the Supervisor answer. -/
def State.engineRead (s : State) (n off : Nat) : Bool :=
  match regAt off with
  | none => false
  | some (r, ix) =>
    !(decide (stagedMask r ≠ 0) && !(s.of n).activeView) &&
      !(decide (off < 0x4400) || (decide (0x50000 ≤ off) && decide (off < 0x60000)) || (decide (0x70000 ≤ off) && decide (off < 0x78000)) ||
        (decide (0x80000 ≤ off) && decide (off < 0x90000)) || decide (0xA0000 ≤ off) ||
        (decide (0x78100 ≤ off) && decide (off < 0x78240) && decide (ix.headD 0 = 4)))

/-- What a read of OF BAR0 answers now, if it completes now (R385): none while no link is up to carry it, or while the active engine that is to
answer it cannot; in Sleep an engine's read completes at once with ones where WAKE_EN leaves partner wakes out. -/
def State.readAnswer (s : State) (n off size : Nat) : Option Nat :=
  if s.noPartner then none
  else if s.engineRead n off then
    (if s.power.mode = .sleep then (if s.wakeTaken 7 then none else some 0xFFFFFFFF)
     else if s.partnerHeld (writeIslands off) then none else some (s.read n off size))
  else some (s.read n off size)

end Sys2Proof.Machine
end

