-- ==== Sys2Proof/Safety.lean ====
section
/-! DEFINITION. The terms of the claims: the parts of the state and what it means to keep them, what raising a flag can change, the
invariant of the sled, and what a run is. -/
namespace Sys2Proof.Machine

/-! ### Frames -/

/-- The parts of the state, one for each field of State; `acts` is the part of `pair` that says which engine acts. -/
inductive Part where
  | setup | ofs | time | rtc | links | linkDown | linkAer | fns | tx | rx | cq | host | sched | hamper | macs | cages | watch
  | tally | pair | acts | lookout | supply | power | foreman | tether | log | events | out | free | pending
deriving DecidableEq, Repr

/-- Which engine acts, and what may change that: the ACT lines and states, the hand-over, the Verdict and Fenced. -/
structure Acts where
  actA : Bool
  actB : Bool
  stA  : EngState
  stB  : EngState
  hand : Option Eng
  verd : Bool
  fenc : Bool
deriving DecidableEq, Repr

/-- The acting part of the pair; a hand-over counts in it once its outgoing ACT line has fallen (R248). -/
def PairSt.acts (p : PairSt) : Acts :=
  { actA := p.a.act, actB := p.b.act, stA := p.a.state, stB := p.b.state, hand := p.handover.bind (fun h => if h.fallen then some h.out else none),
    verd := p.verdict, fenc := p.fenced }

/-- Two states agree on a part. -/
def Part.same (p : Part) (s t : State) : Prop :=
  match p with
  | .setup => t.setup = s.setup
  | .ofs => t.ofs = s.ofs
  | .time => t.time = s.time
  | .rtc => t.rtc = s.rtc
  | .links => t.links = s.links
  | .linkDown => t.linkDown = s.linkDown
  | .linkAer => t.linkAer = s.linkAer
  | .fns => t.fns = s.fns
  | .tx => t.tx = s.tx
  | .rx => t.rx = s.rx
  | .cq => t.cq = s.cq
  | .host => t.host = s.host
  | .sched => t.sched = s.sched
  | .hamper => t.hamper = s.hamper
  | .macs => t.macs = s.macs
  | .cages => t.cages = s.cages
  | .watch => t.watch = s.watch
  | .tally => t.tally = s.tally
  | .pair => t.pair = s.pair
  | .acts => t.pair.acts = s.pair.acts
  | .lookout => t.lookout = s.lookout
  | .supply => t.supply = s.supply
  | .power => t.power = s.power
  | .foreman => t.foreman = s.foreman
  | .tether => t.tether = s.tether
  | .log => t.log = s.log
  | .events => t.events = s.events
  | .out => t.out = s.out
  | .free => t.free = s.free
  | .pending => t.pending = s.pending

/-- Every part outside a list is as before. -/
def Keeps (l : List Part) (s t : State) : Prop := ∀ p, p ∉ l → p.same s t

/-- The parts that raising an event, counting in the Tally and writing a Logbook row can reach. -/
def flagParts : List Part := [.ofs, .fns, .tally, .supply, .log, .events, .out]

/-- The parts of the state that a command can change: every other part is as before wherever it answers a next state. The parts of
`flagParts` stand among them wherever a command can raise an event or count. -/
def touches (c : Instr) : List Part :=
  match c with
  | .registerWrite .. =>
    flagParts ++ [.setup, .time, .rtc, .tx, .rx, .cq, .host, .sched, .hamper, .macs, .watch, .pair, .lookout, .power, .tether]
  | .commit .. | .setupLock .. | .pwrCmdSleep | .pwrCmdDeepSleep .. | .pwrCmdOff | .evTest .. =>
    flagParts ++ [.setup, .watch, .power, .tether]
  | .discard .. | .auxReenable | .tetherTxSend .. | .tetherTxCancel .. | .tetherRxPop =>
    [.setup, .watch, .supply, .power, .tether]
  | .commitApply =>
    flagParts ++ [.setup, .links, .linkDown, .tx, .rx, .cq, .host, .sched, .hamper, .macs, .pair, .acts, .lookout, .power,
      .foreman, .tether]
  | .timeNowRead .. =>
    [.ofs, .watch, .supply, .power, .tether, .out]
  | .timeCtrlRate .. | .timeCtrlStep .. | .timeCtrlSet .. =>
    flagParts ++ [.time, .sched, .watch, .power, .tether]
  | .timeHoldExpiry =>
    flagParts ++ [.time]
  | .rtcAlarm =>
    flagParts ++ [.rtc, .watch, .power, .tether]
  | .rtcAlarmWrite .. | .rtcCountWrite .. =>
    [.rtc, .watch, .supply, .power, .tether]
  | .rtcCountRead =>
    [.rtc, .watch, .supply, .power, .tether, .out]
  | .ptmRequest .. | .unsupportedRequest .. | .smbStatus | .smbBulkMv | .smbFanFault | .smbLogSeq | .smbSerial | .smbWake
  | .smbAlertResponse =>
    [.out]
  | .readCompletion .. | .completionTimeout .. =>
    flagParts ++ [.linkAer, .tx, .rx, .cq, .host, .sched, .hamper, .macs]
  | .cvuAssign =>
    [.host]
  | .checkDone .. | .evictionComplete .. =>
    flagParts ++ [.tx, .rx, .cq, .host, .sched, .hamper, .macs]
  | .unexpectedCompletion .. =>
    flagParts ++ [.linkAer]
  | .aerError .. =>
    flagParts ++ [.links, .linkDown, .linkAer, .tx, .rx, .cq, .host, .sched, .hamper, .macs]
  | .hlLinkUp .. =>
    flagParts ++ [.links]
  | .hlLinkDown .. =>
    flagParts ++ [.links, .linkDown, .tx, .rx, .cq, .host, .sched, .hamper, .macs]
  | .perstAssert .. =>
    flagParts ++ [.links, .linkDown, .tx, .rx, .cq, .host, .sched, .hamper, .macs, .power]
  | .flr .. | .vfDisable .. | .d3hotEntry .. | .busMasterClear .. | .configWrite .. =>
    flagParts ++ [.tx, .rx, .cq, .host, .sched, .hamper, .macs, .power]
  | .l1Exit .. =>
    [.links, .watch, .supply, .power, .tether]
  | .enrol .. | .leave .. | .query .. | .txrCreate .. | .rxrCreate .. | .cqCreate .. | .evrCreate .. | .ringDestroy ..
  | .fnCmdEvict .. | .fnCmdRelease .. =>
    flagParts ++ [.setup, .tx, .rx, .cq, .host, .sched, .hamper, .macs, .watch, .pair, .power, .tether]
  | .enrolReadDone .. | .fwStaged .. =>
    flagParts ++ [.host]
  | .ringDestroyDone .. =>
    flagParts ++ [.tx, .rx, .cq, .sched, .hamper, .macs]
  | .doorbellTx .. | .doorbellRx .. | .doorbellCq .. | .doorbellEvr .. | .doorbellRecall .. | .doorbellArm .. =>
    flagParts ++ [.tx, .rx, .cq, .host, .sched, .hamper, .macs, .watch, .pair, .power, .tether]
  | .descriptorFetch .. =>
    [.tx, .rx, .host, .out]
  | .txBufferRead .. =>
    [.tx, .host, .hamper, .out]
  | .cqModTime .. =>
    [.fns, .cq, .events, .out]
  | .rxStoreWrite .. | .rxEarlyStart .. | .rxWaitExpiry .. =>
    flagParts ++ [.rx, .cq, .sched, .hamper, .macs]
  | .grant .. =>
    flagParts ++ [.tx, .cq, .sched, .macs]
  | .frameDeparture .. =>
    flagParts ++ [.setup, .tx, .cq, .sched, .hamper, .macs, .pair, .acts]
  | .gateEvent .. =>
    [.sched]
  | .gclApplied .. =>
    flagParts ++ [.tx, .cq, .sched]
  | .txEarlyWake .. | .linkUp .. | .laneLoss .. | .remoteFault .. | .pauseRegister .. | .pauseWdExpiry ..
  | .controlFrameSend .. =>
    flagParts ++ [.sched, .macs]
  | .lpiEntry .. | .pauseEnd .. | .pfcRefresh .. | .pauseRefresh .. | .lldpSend .. =>
    [.sched, .macs]
  | .frameReceived .. | .macControlFrame .. =>
    flagParts ++ [.rx, .cq, .sched, .hamper, .macs, .pair, .power, .free]
  | .flowWrite .. | .flowDelete .. | .flowRead .. =>
    flagParts ++ [.setup, .watch, .pair, .power, .tether]
  | .linkTrainingStart .. | .linkTrainRetry .. =>
    [.macs]
  | .linkTrainTimeout .. =>
    flagParts ++ [.macs]
  | .fcWdRearm .. =>
    flagParts ++ [.macs, .watch, .pair, .power, .tether]
  | .watchFrame .. | .wakeAll .. | .gsCommitTime .. =>
    flagParts ++ [.watch, .power, .tether]
  | .watchLinkUp .. =>
    [.watch]
  | .watchLinkFail .. =>
    flagParts ++ [.watch]
  | .cageInserted .. | .cageResetDone .. =>
    flagParts ++ [.cages]
  | .cageRemoved .. | .cageFault .. =>
    flagParts ++ [.sched, .macs, .cages]
  | .cageReset .. =>
    [.setup, .cages, .watch, .supply, .power, .tether]
  | .cageReenable .. =>
    flagParts ++ [.setup, .cages, .watch, .power, .tether]
  | .modulePoll .. | .tallySnapshot .. | .energyWindow .. | .mirrorBoundary | .acFailRise | .acFailFall | .chargeTempHold
  | .cellRemoved | .cellProbe .. | .sledStarted .. | .setupImageSaved | .logbookScrub .. | .ledgerEntry =>
    flagParts
  | .cageMirrorCopy .. =>
    [.cages]
  | .tallyRead .. =>
    [.ofs, .watch, .pair, .supply, .power, .tether, .out]
  | .snapshotTrigger .. =>
    flagParts ++ [.watch, .pair, .power, .tether]
  | .relinquish .. | .verdictResult .. | .heartbeatMiss .. | .flitReceived .. | .bistCycleDone .. | .lookoutResetHold =>
    flagParts ++ [.setup, .links, .linkDown, .tx, .rx, .cq, .host, .sched, .hamper, .macs, .watch, .pair, .acts, .lookout,
      .power, .tether, .free]
  | .lockstepHandoverEnd | .resyncDone | .resyncTimeout =>
    flagParts ++ [.setup, .tx, .rx, .cq, .host, .sched, .hamper, .macs, .watch, .pair, .acts, .lookout, .power, .tether,
      .free]
  | .divergence =>
    flagParts ++ [.setup, .sched, .pair, .acts, .free]
  | .drainEnd =>
    flagParts ++ [.rx, .cq, .sched, .hamper, .macs, .pair, .acts]
  | .warmHandoverEnd =>
    flagParts ++ [.setup, .tx, .rx, .cq, .host, .sched, .hamper, .macs, .watch, .pair, .acts, .lookout, .power, .foreman,
      .tether, .free]
  | .roleSwap =>
    flagParts ++ [.setup, .tx, .rx, .sched, .pair, .acts, .tether, .free]
  | .pairCmdSwap =>
    flagParts ++ [.setup, .tx, .rx, .sched, .watch, .pair, .acts, .power, .tether, .free]
  | .pairCmdRequalify .. =>
    [.setup, .watch, .pair, .acts, .supply, .power, .tether]
  | .warmStandbyReady =>
    flagParts ++ [.setup, .tx, .rx, .sched, .pair, .acts, .power, .tether, .free]
  | .requalifyDone .. =>
    flagParts ++ [.pair, .acts, .tether]
  | .bulkCopyDone =>
    flagParts ++ [.setup, .pair]
  | .junctionFault =>
    flagParts ++ [.links, .linkDown, .tx, .rx, .cq, .host, .sched, .hamper, .macs, .pair, .acts, .tether]
  | .lookoutServe .. | .badServe .. | .lookoutExpiry .. | .warningPeriodClose .. | .loCmdTest .. =>
    flagParts ++ [.setup, .tx, .rx, .cq, .host, .sched, .hamper, .macs, .watch, .pair, .lookout, .power, .tether, .free]
  | .lookoutClockTrip .. | .lookoutEvidenceCopy =>
    flagParts ++ [.lookout]
  | .warningDelivery =>
    [.lookout]
  | .mgmtRestart =>
    flagParts ++ [.tx, .rx, .cq, .sched, .hamper, .macs, .lookout]
  | .supervisorRestarted =>
    flagParts ++ [.lookout, .tether]
  | .mainsGraceExpiry =>
    flagParts ++ [.rtc, .links, .linkDown, .tx, .rx, .cq, .host, .sched, .hamper, .macs, .cages, .watch, .power, .free]
  | .mainsReturn .. | .bulkReset .. | .railFault .. | .aoBrownout | .readyTimeout .. | .coldStart .. | .sledReset ..
  | .chassisReset .. =>
    flagParts ++ [.setup, .time, .rtc, .links, .linkDown, .linkAer, .tx, .rx, .cq, .host, .sched, .hamper, .macs, .cages,
      .watch, .pair, .acts, .lookout, .power, .foreman, .tether, .free]
  | .supplyWarn .. | .supplyRecovered | .thermalWindow .. | .bulkRailRecoveryCrossing .. =>
    flagParts ++ [.lookout, .power, .foreman]
  | .bulkResetRelease .. =>
    flagParts ++ [.setup, .time, .links, .linkDown, .tx, .rx, .cq, .host, .sched, .hamper, .macs, .pair, .acts, .lookout,
      .power, .foreman, .tether]
  | .aoBudgetSample .. | .wakePin | .gsCmdPropose .. | .gsCmdVeto | .gsCmdWakeAll =>
    [.watch, .supply, .power, .tether]
  | .cellCvReached | .chargeComplete | .chargeTempResume =>
    [.supply]
  | .pwrEntered =>
    flagParts ++ [.rtc, .links, .linkDown, .tx, .rx, .cq, .host, .sched, .hamper, .macs, .cages, .watch, .lookout, .power,
      .tether, .free]
  | .idleEntry | .vReady =>
    [.power]
  | .readyStageDone .. =>
    flagParts ++ [.time, .links, .linkDown, .tx, .rx, .cq, .host, .sched, .hamper, .macs, .cages, .pair, .acts, .lookout,
      .power, .foreman, .tether, .free]
  | .pwrExited =>
    flagParts ++ [.setup, .tx, .rx, .cq, .host, .sched, .hamper, .macs, .pair, .acts, .lookout, .power, .tether, .free]
  | .islandAutoWake .. =>
    flagParts ++ [.setup, .tx, .rx, .cq, .host, .sched, .hamper, .macs, .pair, .lookout, .power, .free]
  | .dvfsCommand .. | .dvfsTimeout =>
    flagParts ++ [.power]
  | .foremanLoop .. =>
    flagParts ++ [.hamper, .macs, .lookout, .power, .foreman]
  | .tetherTxStart .. | .tetherTxEnd .. | .wakeVeto .. | .abort .. | .sync .. | .propose .. | .agree .. | .refuse ..
  | .tetherCommit .. | .failover .. | .claim .. | .object .. | .heartbeat .. | .operator .. | .listenWindowEnd
  | .claimWindowEnd | .tetherStationGone .. | .gsAgreeWindowEnd | .gsCommitDeadline =>
    flagParts ++ [.tether]
  | .follow .. =>
    flagParts ++ [.time, .sched, .tether, .free]
  | .backoffEnd | .heartbeatSend | .syncSend | .gsMemberTimeout =>
    [.tether]
  | .fwCmdStage .. =>
    flagParts ++ [.tx, .rx, .cq, .host, .sched, .hamper, .macs, .watch, .power, .tether, .free]
  | .fwCmdActivate .. | .logCmdSave .. =>
    [.watch, .supply, .power, .tether, .log]
  | .evAlertAck =>
    [.watch, .supply, .power, .tether, .events]
  | .smbInletTemp | .smbInputPower =>
    [.out, .free]
  | .fanFailure .. =>
    [.events]
  | .timePairRecord =>
    [.rtc]
  | .msixVectorUnmask .. =>
    [.fns, .watch, .supply, .power, .tether, .events, .out]

/-! ### What raising a flag leaves alone in those parts -/

/-- What an OF holds but for its event ring's sequence and loss record. -/
def OfSt.sans (o : OfSt) : OfSt := { o with evSeq := 0, evLost := 0, evFirst := 0 }

/-- A function but for its pending interrupts. -/
def FnSt.sans (f : FnSt) : FnSt := { f with msixPend := 0 }

/-- The Tally but for its counters, their crossings and the activity units (R226). -/
def TallySt.sans (t : TallySt) : TallySt := { t with count := [], atJ := 0, base := [], cross := [], pend := [], act := [] }

/-- The supply but for the records it defers. -/
def SupplySt.sans (p : SupplySt) : SupplySt := { p with deferred := [], defDrops := 0 }

/-- The Logbook but for its circular regions and the rows they have used up. -/
def LogSt.sans (l : LogSt) : LogSt :=
  { l with mem := [], regions := [], logSeq := 0, rateWin := 0, rateN := 0, rateDrop := 0, spares := 0, badRows := [],
           wornRows := [], remapped := [] }

/-- The events but for the alert, the event rings and the interrupts that are held. -/
def EventSt.sans (e : EventSt) : EventSt := { e with alert := false, rings := [], msixHeld := [] }

/-- From `s` to `t` nothing has happened but flags: events with their rings, the alert, counters, interrupts and Logbook rows;
an alert that is asserted stays, what left the sled before stands, and what leaves it now follows. -/
structure Flags (s t : State) : Prop where
  keeps  : Keeps flagParts s t
  ofs    : ∀ n, (t.of n).sans = (s.of n).sans
  fns    : ∀ n, (t.fn n).sans = (s.fn n).sans
  tally  : t.tally.sans = s.tally.sans
  supply : t.supply.sans = s.supply.sans
  log    : t.log.sans = s.log.sans
  events : t.events.sans = s.events.sans
  alert  : s.events.alert = true → t.events.alert = true
  out    : ∃ l, t.out = s.out ++ l

/-- No counter has moved but EVR_LOST's, which counts the event records that found no slot (R122, 05_rings_and_doorbells). -/
def CountsKept (s t : State) : Prop := ∀ k, k / 2 ^ 15 ≠ Ctr.evrLost.code → tget t.tally.count k = tget s.tally.count k

/-- From `s` to `t` an event was raised first, and nothing else happened but the flags that follow from it; its severity asserts the
alert from MIN_SEV on (R389, 18_register_map). -/
structure Raises (e : Ev) (payload : Bytes) (s t : State) : Prop extends Flags s t where
  counts : CountsKept s t
  alarm  : s.evAlertMinSev ≤ e.severity → t.events.alert = true
  first  : ∃ l, t.out = s.out ++ Out.event e.code s.time64 payload :: l

/-- From `s` to `t` a counter went up by `n`, modulo 2^48 (R212, 09_tally), and nothing else happened but the flags that follow
from it. -/
structure Counts (c : Ctr) (cls obj n : Nat) (s t : State) : Prop extends Flags s t where
  value  : tget t.tally.count (tallyKey c.code cls obj) = (tget s.tally.count (tallyKey c.code cls obj) + n) % 2 ^ 48
  others : ∀ k, k ≠ tallyKey c.code cls obj → k / 2 ^ 15 ≠ Ctr.evrLost.code → tget t.tally.count k = tget s.tally.count k

/-- An event raised at most once in each aligned second for an object (R402, 00_scope): nothing where this second has had it. -/
def RaisesOnce (e : Ev) (obj : Nat) (payload : Bytes) (s t : State) : Prop :=
  if tget s.events.kept (e.code * 2 ^ 16 + obj) = s.second + 1 then t = s
  else Raises e payload (s.onEvents (fun v => { v with kept := tput v.kept (e.code * 2 ^ 16 + obj) (s.second + 1) })) t

/-- Only what one OF holds for itself has changed. -/
def OfTo (n : Nat) (f : OfSt → OfSt) (s t : State) : Prop := Keeps [.ofs] s t ∧ t.of n = f (s.of n) ∧ ∀ k, k ≠ n → t.of k = s.of k

/-- Only staged bits of one set-up word have changed: the bits of `mask` take those of `val`, over whatever lies under them. -/
def Stages (key : Nat) (mask val : Word) (s t : State) : Prop :=
  Keeps [.setup] s t ∧ { t.setup with staged := [] } = { s.setup with staged := [] } ∧
    ∀ k w, layer t.setup.staged k w =
      if k = key then (layer s.setup.staged k w &&& ~~~mask) ||| (val &&& mask) else layer s.setup.staged k w

/-- The command answers a next state, of which `P` holds. -/
def Gives (c : Instr) (s : State) (P : State → Prop) : Prop := ∃ t, exec c s = .next t ∧ P t

/-! ### Terms of single statements -/

/-- No TIME_HOLD window is overdue. -/
def Timely (s : State) : Prop := ∀ c, s.time.current = some c → s.time.elapsed < c

/-- An adjustment by TIME_CTRL with this SOURCE is taken (R44, R45, 02_time_and_windows): 1 PTP, 2 PTM, 3 Manual. PTP and PTM are taken
while enabled and while no source of higher precedence is current. -/
def Admits (src : BitVec 2) (s : State) : Prop :=
  src ≠ 0 ∧ (src = 1 → s.timeSrcEnPtp = 1) ∧ (src = 2 → s.timeSrcEnPtm = 1) ∧
    (src ≠ 3 → s.time.current = none ∨ src.toNat ≤ s.time.curSrc)

/-- What an accepted adjustment makes of the source (R44 to R46): PTP and PTM are current for TIME_HOLD; Manual makes none current and
ends none, and device time it sets free of a source is held over. -/
def Sourced (src : BitVec 2) (s t : State) : Prop :=
  (src = 3 → t.time.current = s.time.current ∧ t.time.curSrc = s.time.curSrc ∧
    t.time.source = if s.time.source = .freeRun ∨ s.time.source = .restored then .holdover else s.time.source) ∧
  (src ≠ 3 → t.time.current = some (s.time.elapsed + s.timeHoldMs * uMs) ∧ t.time.curSrc = src.toNat ∧
    t.time.source = if src = 1 then .ptp else .ptm)

/-- What a Step and a Set have in common (R48, R54, R59), over the J-cycle in which they take effect: `d` is the signed step in
1/65,536 ns that TIME_STEPPED carries, modulo 2^64 (log 73). -/
def Jumped (d : Int) (s t : State) : Prop :=
  t.time.steps = satAdd 32 s.time.steps 1 ∧ t.time.rate = s.time.rate ∧ t.time.elapsed = s.time.elapsed + s.increment ∧ t.time.due = [] ∧
    (∀ m < 16, (t.sch m).gates = (s.gated m).gatesAt t.time.now) ∧
    ∃ l, t.out = s.out ++ l ∧ Out.event Ev.timeStepped.code t.time64 (le 8 (unsigned 64 d)) ∈ l

/-- An adjustment that is not applied (R60): TIME_CTRL holds what was written, and the count and the event follow. -/
def Ignored (src : BitVec 2) (action why : Nat) (s t : State) : Prop :=
  RaisesOnce .timeAdjIgnored 0 (le 1 (ctrlSource src) ++ le 1 why ++ le 1 action)
    ((s.partnerWake 64).onTime (fun x => { x with ctrlAct := action, ctrlSrc := src.toNat, ignored := satAdd 32 x.ignored 1 })) t

/-- A wake begins an exit (R301, R302, R305, 13_islands_and_power_states): stage 1 of the ready chain and the wake-cause record; the
watch lanes stop and the regulator leaves low-power mode. -/
def Wakes (src det : Nat) (s t : State) : Prop :=
  Keeps [.watch, .supply, .power] s t ∧
  t.power = { s.power with mode := .exiting, exitFrom := s.power.mode, stage := 0, retry := 0, wakeSrc := src, wakeDet := det,
                           replayed := false, wakeFrom := s.power.mode, wakeOth := 0, wakeTime := s.time64, latched := none } ∧
  t.supply = { s.supply with lowPower := false } ∧
  ∀ p, t.watchLane p = if p < 2 then { s.watchLane p with running := false, ready := false } else s.watchLane p

/-- An event with this payload stands among what left the sled from `s` to `t`. -/
def Reports (e : Ev) (payload : Bytes) (s t : State) : Prop :=
  ∃ l stamp, t.out = s.out ++ l ∧ Out.event e.code stamp payload ∈ l

/-- A start can come up paired with the reset values (R357, R359, R368, 16_start_up_and_logbook): the next firmware slot is valid, the
rails are up, both engines pass, no save is in progress, and no set-up image is good. -/
def Bootable (test : SelfTest) (s : State) : Prop :=
  (s.fwSlot s.log.next).valid s.log.minSvn = true ∧ s.supply.inReset = false ∧ test.passA = true ∧ test.passB = true ∧
    s.log.saving = none ∧ s.copyGood 1 = false ∧ s.copyGood 2 = false

/-- A sled reset as `Bootable` lets it (R357, R361, R368, R369): set-up, rings and roles at reset, stage 4 with the reason; the RTC, the
wake-cause record and the code store stay, and device time restarts from the recorded pair (R53). -/
def Restarted (reason : Nat) (s t : State) : Prop :=
  t.setup = SetupSt.init ∧ t.tx = [] ∧ t.rx = [] ∧ t.cq = [] ∧ t.pair.acts = PairSt.init.acts ∧ t.power.mode = .run ∧
  t.log.stage = 4 ∧ t.log.reason = reason ∧ t.log.running = s.log.next ∧ t.log.ready = false ∧ t.rtc = s.rtc ∧
  t.time.source = .restored ∧ t.time.now = s.rtcTime ∧ t.power.wakeSrc = s.power.wakeSrc ∧ t.power.wakeTime = s.power.wakeTime ∧
  Reports .setupImageNone [] s t

/-- A write to MBX_GO that is latched (R85, R86, R69, 04_host_links and 03_check_values): it arrives, no engine change, isolated island or
management restart holds it, the function is present and not Evicting, GO is the next SEQ, nothing is in progress, and a
check-value unit is free for the record. -/
def Latched (f : Nat) (go : BitVec 8) (s : State) : Prop :=
  s.noPartner = false ∧ s.partnerHeld [2, 5] = false ∧ s.unitNow = true ∧ s.lookout.restart = false ∧ s.present f = true ∧
  (s.fn f).state ≠ .evicting ∧ (s.fn f).busy = false ∧ go.toNat = ((s.fn f).replySeq + 1) % 256

/-- A request that the sled takes from a mailbox: its GO is latched, the record's CRC-16 is right and its fields are clean (R86). -/
def Posted (op f : Nat) (go : BitVec 8) (req : MbxReq) (s : State) : Prop :=
  Latched f go s ∧ req.seq = go ∧ req.status = 0 ∧ req.rsv = 0 ∧ req.check.toNat = mbxWant f (mbxWithOp req op)

/-- A mailbox command with the opcode of its record (Table 4-7): QUERY stands for every record that no other command names. -/
def Requests (c : Instr) (f : Fin 68) (go : BitVec 8) (req : MbxReq) (op : Nat) : Prop :=
  (c = .enrol f go req ∧ op = 0x01) ∨ (c = .leave f go req ∧ op = 0x02) ∨ (c = .query f go req ∧ op = req.opcode.toNat) ∨
  (c = .txrCreate f go req ∧ op = 0x10) ∨ (c = .rxrCreate f go req ∧ op = 0x11) ∨ (c = .cqCreate f go req ∧ op = 0x12) ∨
  (c = .evrCreate f go req ∧ op = 0x13) ∨ (c = .ringDestroy f go req ∧ op = 0x14)

/-- A mailbox shows the reply of its request (R86, Table 4-6), and is free for the next. -/
def Answered (f op seq status op0 : Nat) (t : State) : Prop :=
  (t.fn f).replySeq = seq ∧ (t.fn f).busy = false ∧ (t.fn f).wait = none ∧ (t.fn f).reply = replyRecord f op seq status op0

/-- The presence of a function has ended with a cause (Table 4-11, 04_host_links): an Enrolled or Checking one is Evicting from now, an
Idle or Disabled one is Absent, and any other stays. -/
def Ended (f cause : Nat) (s t : State) : Prop :=
  ((s.fn f).state = .enrolled ∨ (s.fn f).state = .checking →
    (t.fn f).state = .evicting ∧ (t.fn f).evCause = cause ∧ (t.fn f).evT0 = s.time64) ∧
  ((s.fn f).state = .idle ∨ (s.fn f).state = .disabled → (t.fn f).state = .absent) ∧
  ((s.fn f).state = .absent ∨ (s.fn f).state = .evicting ∨ (s.fn f).state = .quarantined → (t.fn f).state = (s.fn f).state)

/-- A counter of the Tally has gone up by `n`, modulo 2^48 (R212, 09_tally), whatever else has happened. -/
def Counted (c : Ctr) (cls obj n : Nat) (s t : State) : Prop :=
  tget t.tally.count (tallyKey c.code cls obj) = (tget s.tally.count (tallyKey c.code cls obj) + n) % 2 ^ 48

/-- A function is Enrolled from a record (R92, Table 4-9, 04_host_links): FN_GEN, the grants, the reply and the event. -/
def Enrols (f : Nat) (d : Bytes) (s t : State) : Prop :=
  (t.fn f).state = .enrolled ∧ (t.fn f).gen = byteAt d 3 ∧ (t.fn f).grantTx = byteAt d 12 ∧ (t.fn f).grantRx = byteAt d 13 ∧
  (t.fn f).grantCq = byteAt d 14 ∧
  Answered f (s.fn f).goOp (s.fn f).goSeq 0 (byteAt d 12 + byteAt d 13 * 2 ^ 8 + byteAt d 14 * 2 ^ 16 + vectors f * 2 ^ 24) t ∧
  Reports .fnEnrolled (le 1 f ++ le 8 (leAt d 4 8) ++ le 1 (byteAt d 3)) s t

/-- A doorbell command with its kind and the value it stands for (R109, Table 5-2, 05_rings_and_doorbells): RECALL is bit 34 of a
transmit doorbell, ARM bit 35 of a consumer one. -/
def Rung (c : Instr) (f : Fin 68) (whole : Bool) (k : DbKind) (v : BitVec 64) : Prop :=
  (∃ x, c = .doorbellTx f whole x ∧ k = .tx ∧ v = x &&& ~~~(1#64 <<< 34)) ∨ (c = .doorbellRx f whole v ∧ k = .rx) ∨
  (c = .doorbellCq f whole v ∧ k = .cq) ∨ (c = .doorbellEvr f whole v ∧ k = .evr) ∨
  (∃ x, c = .doorbellRecall f whole x ∧ k = .tx ∧ v = x ||| 1#64 <<< 34) ∨
  (∃ x, c = .doorbellArm f false whole x ∧ k = .cq ∧ v = x ||| 1#64 <<< 35) ∨
  (∃ x, c = .doorbellArm f true whole x ∧ k = .evr ∧ v = x ||| 1#64 <<< 35)

/-- A frame of an instance reaches its reference plane (R158, R188; R239, 10_engine_pair): the network side runs, the instance is Up, no
watch lane and no hold buffer takes its words; the decoder counts no codewords, and receive LPI is over. -/
def Reaches (m : Fin 16) (s : State) : Prop :=
  s.netRuns = true ∧ (s.watchLane (m / 8)).running = false ∧ s.instExists m = true ∧ (s.mac m).link = .up ∧ (s.mac m).fec < 2 ∧
  (s.mac m).rxLpi = false ∧ s.rxHeld m = false

/-- A frame ends Idle, and its bytes are load of its port (R298, 13_islands_and_power_states; Table 14-1, 14_foreman). -/
def State.loaded (s : State) (m : Nat) (x : RxFrame) : State :=
  s.endIdle.onTally (fun t => { t with rxLoad := tput t.rxLoad (m / 8) (tget t.rxLoad (m / 8) + (x.bytes.length + 4)) })

/-- A hand-over from an engine has begun in this J-cycle (10.3, R236, R241, R247, R248, 10_engine_pair): its ACT line is low from the next
J-cycle on; after a fault ENGINE_FAILED stands in the record, and a role swap leaves the engine Standby. The engine of a planned warm
hand-over stays Active, and its ACT line high, while one of its frames is on the wire. -/
def HandsOver (e : Eng) (cause : Nat) (swap : Bool) (s t : State) : Prop :=
  t.pair.handover = some { warm := s.pair.warm, swap := swap, out := e, cause := cause, x := s.time.jcycle, t0 := s.time.now,
                           fallen := !(s.pair.warm && swap && s.onWire), lowAt := s.time.jcycle + 1, drained := false } ∧
  (if s.pair.warm && swap && s.onWire then t.eng e = s.eng e
   else (t.eng e).act = false ∧ (t.eng e).state ≠ .active ∧ (swap = true → (t.eng e).state = .standby) ∧
     (swap = false → (t.eng e).cause = cause ∧ Reports .engineFailed (le 1 (engCode e) ++ le 1 cause) s t))

/-- The sled is Fenced by now (R252, 10_engine_pair): no ACT line is high, and the alert is asserted. -/
def FencedBy (cause : Nat) (s t : State) : Prop :=
  t.pair.fenced = true ∧ t.pair.fencedWhy = cause ∧ t.pair.a.act = false ∧ t.pair.b.act = false ∧ t.pair.handover = none ∧
    t.pair.verdict = false ∧ t.events.alert = true ∧ Reports .fenced (le 1 cause) s t

/-- An engine that acts, with the other Standby, and nothing in progress, no divergence among it (Table 10-1, R237, 10_engine_pair). -/
def Acting (e : Eng) (s : State) : Prop :=
  (s.eng e).state = .active ∧ (s.eng (engOther e)).state = .standby ∧ s.active = some e ∧ s.pair.fenced = false ∧
    s.pair.verdict = false ∧ s.divergedLate = false ∧ s.pair.handover = none ∧ s.isolated = false

/-- Nothing waits for the pair to settle (R19, R239, R242, R247, R300). -/
def Settled (s : State) : Prop :=
  s.pair.held = [] ∧ s.pair.merge = [] ∧ s.pair.reads = [] ∧ s.pair.hold = [] ∧ s.pair.swapDue = false ∧ s.power.pendCmd = none

/-- A command that brings a received Tether frame, with the type it stands for (Table 15-2, 15_tether). -/
def Framed (c : Instr) (typ : Nat) (f : TetherFrame) : Prop :=
  (c = .claim f ∧ typ = 0x01) ∨ (c = .object f ∧ typ = 0x02) ∨ (c = .heartbeat f ∧ typ = 0x03) ∨ (c = .wakeVeto f ∧ typ = 0x10) ∨
  (c = .wakeAll f ∧ typ = 0x11) ∨ (c = .abort f ∧ typ = 0x12) ∨ ((∃ h, c = .propose f h) ∧ typ = 0x13) ∨
  (c = .agree f ∧ typ = 0x14) ∨ (c = .refuse f ∧ typ = 0x15) ∨ (c = .tetherCommit f ∧ typ = 0x16) ∨ (c = .sync f ∧ typ = 0x20) ∨
  (c = .follow f ∧ typ = 0x21) ∨ (c = .failover f ∧ typ = 0x30) ∨ (c = .operator f ∧ typ = 0x40)

/-- A Tether frame of a type that the station accepts (R329, R330, R333, R335, 15_tether): no check rejects it, and it is no repeat of
its station's last one. -/
def Accepted (typ : Nat) (f : TetherFrame) (s : State) : Prop :=
  s.tetherRuns = true ∧ bits f.id.toNat 6 7 = typ ∧ s.rxReject f = none ∧ s.rxRepeat f = false

/-- A frame of the Supervisor's own as it waits in the Tether's queue (15.4, 15_tether). -/
def ownFrame (typ : Nat) (payload : Bytes) : TxFrame :=
  { typ := typ, payload := payload, slot := none, seq := none, tries := 0, cancel := false }

/-- The frames that wait are those from before, with one of the Supervisor's own behind them. -/
def Queued (typ : Nat) (payload : Bytes) (s t : State) : Prop := t.tether.queue = s.tether.queue ++ [ownFrame typ payload]

/-- A round of group sleep has ended without sleep (R347, R348, 15_tether): what waited for it is withdrawn; the Elder sends ABORT. -/
def RoundEnds (reason : Nat) (elder : Bool) (s t : State) : Prop :=
  t.tether.gs = .none ∧ t.tether.gsStat = .aborted ∧ t.tether.reason = reason ∧
  t.tether.queue = s.tether.queue.filter (fun f => !roundFrame f) ++
    (if elder then [ownFrame 0x12 (le 1 s.tether.round ++ le 1 reason)] else []) ∧
  Reports .gsAborted (le 1 s.tether.round ++ le 1 reason) s t

/-! ### The invariant -/

/-- The Logbook: its memory is in canonical form and lies inside its 32,768 rows of 64 bytes; every region's head lies inside its
region, and its lap is a byte (R362, 16_start_up_and_logbook). -/
structure LogOk (l : LogSt) : Prop where
  wf    : Memory.wf l.mem = true
  top   : ∀ e ∈ l.mem, e.1 < 2 ^ 21
  heads : ∀ e ∈ l.regions, e.2.head < regionRows e.1 ∧ e.2.lap < 256

/-- The active set-up words are in canonical form. -/
def SetupOk (u : SetupSt) : Prop := Tbl.wf resetWord u.active = true

/-- Every counter of the Tally, of the start of the J-cycle and of the mirror fits its 48 bits (R212, 09_tally). -/
structure TallyOk (t : TallySt) : Prop where
  count  : ∀ e ∈ t.count, e.2 < 2 ^ 48
  base   : ∀ e ∈ t.base, e.2 < 2 ^ 48
  mirror : ∀ e ∈ t.mirror, e.2 < 2 ^ 48

/-- The records deferred in a brace fit their queue (R283, 12_supply_and_backup_cell). -/
def SupplyOk (p : SupplySt) : Prop := p.deferred.length ≤ 256

/-- The Tether's receive FIFO holds at most 16 entries (R353, 15_tether). -/
def TetherOk (t : TetherSt) : Prop := t.fifo.length ≤ 16

/-- The state of an engine in the acting part. -/
def Acts.st (a : Acts) : Eng → EngState
  | .a => a.stA
  | .b => a.stB

/-- The acting part: at most one engine is Active, and never both ACT lines are high (R230, 10_engine_pair); an engine whose ACT line
is high is Active; once the outgoing ACT line of a hand-over has fallen, no ACT line is high and the outgoing engine is not Active; in
Fenced no ACT line is high, and no hand-over or Verdict is in progress. -/
structure ActsOk (a : Acts) : Prop where
  lines : (a.actA && a.actB) = false
  one   : ¬(a.stA = .active ∧ a.stB = .active)
  stA   : a.actA = true → a.stA = .active
  stB   : a.actB = true → a.stB = .active
  hand  : ∀ e, a.hand = some e → a.actA = false ∧ a.actB = false ∧ a.st e ≠ .active
  fence : a.fenc = true → a.actA = false ∧ a.actB = false ∧ a.hand = none ∧ a.verd = false

/-- The engine pair. -/
def PairOk (p : PairSt) : Prop := ActsOk p.acts

/-- The invariant of the sled. -/
structure Inv (s : State) : Prop where
  log    : LogOk s.log
  setup  : SetupOk s.setup
  tally  : TallyOk s.tally
  supply : SupplyOk s.supply
  tether : TetherOk s.tether
  pair   : PairOk s.pair

/-! ### Runs -/

/-- One step takes `s` to `t`. -/
def Steps (s t : State) : Prop := step s = .next t

/-- A run of steps takes `s` to `t`. -/
inductive Runs : State → State → Prop where
  | refl (s : State) : Runs s s
  | snoc {s t u : State} : Runs s t → Steps t u → Runs s u

/-- A run from `s` is safe: no state it reaches stops, and the invariant holds in each. -/
def Safe (s : State) : Prop := ∀ t, Runs s t → Inv t ∧ ∃ u, Steps t u

end Sys2Proof.Machine
end

