-- ==== Sys2Proof/Certificates/Slice0/Obligations.lean ====
section
/-! DEFINITION. The statements about the model, for the provers: each is a proposition that says what a command does to the state, or
what every step keeps. Each docstring names the rules of spec/ it comes from. -/
section
open Sys2Proof Sys2Proof.Machine

/-! ### Steps, frames and the invariant -/

/-- A step runs the command at the front of the queue, on the state with the queue's rest (the row's form of a block; log 1). -/
def Obligations.StepRunsTheCommandInFront : Prop :=
  ∀ (c : Instr) (rest : List Instr) (s : State), step { s with pending := c :: rest } = exec c { s with pending := rest }

/-- With no command waiting a step is one J-cycle (log 2). Device time moves on by 1.25 ns and TIME_RATE in units of 2^-32 ns (R40, R41,
02_time_and_windows) while CORE runs, by nothing while it is stopped (R53); the RTC moves on by 16/390,625 of a tick, and stands in
Off (R54). What else changes is what the time that passes brings of itself: flags, enrolments that end (R92, 04_host_links), the windows
of link idle (R201, 08_the_wire) and of Idle (R298, 13_islands_and_power_states) and the delay line (R234, 10_engine_pair); the power
mode and the acting part of the pair stay. -/
def Obligations.IdleStepIsOneJCycle : Prop :=
  ∀ s : State, s.pending = [] → s.time.due = [] → -2684354 ≤ s.time.rate → s.time.rate ≤ 2684354 →
    ∃ t, step s = .next t ∧ Keeps (flagParts ++ [.time, .rtc, .sched, .macs, .pair, .power]) s t ∧
      t.power.mode = s.power.mode ∧ t.pair.acts = s.pair.acts ∧
      (s.coreRuns = true → (t.time.now : Int) = s.time.now + uJ + s.time.rate ∧ (t.time.elapsed : Int) = s.time.elapsed + uJ + s.time.rate ∧
        t.time.jcycle = s.time.jcycle + 1 ∧ t.time.rate = s.time.rate ∧ t.time.steps = s.time.steps) ∧
      (s.coreRuns = false → t.time = s.time) ∧
      (s.power.mode = .off → t.rtc = s.rtc) ∧
      (s.power.mode ≠ .off → s.rtc.count < 2 ^ 48 → s.rtc.phase < 390625 →
        t.rtc.phase < 390625 ∧ (t.rtc.count * 390625 + t.rtc.phase) % (2 ^ 48 * 390625) =
          (s.rtc.count * 390625 + s.rtc.phase + 16) % (2 ^ 48 * 390625))

/-- Every command answers a next state, in every state: nothing that comes from outside stops the sled (no rule of spec/ names an input
that does). Choices of the model it rests on: log 16, 17. -/
def Obligations.NoCommandStopsTheSled : Prop :=
  ∀ (c : Instr) (s : State), ∃ t, exec c s = .next t

/-- The frame of every command: a part of the state that `touches` does not list for it is as before. No command touches the queue. -/
def Obligations.EveryCommandKeepsWhatItDoesNotTouch : Prop :=
  ∀ (c : Instr) (s t : State), exec c s = .next t → Keeps (touches c) s t ∧ t.pending = s.pending

/-- The state after reset meets the invariant. -/
def Obligations.ResetMeetsTheInvariant : Prop := Inv State.reset

/-- The invariant is kept by every step, from every state that meets it: the canonical form of the Logbook's memory and of the active
set-up words, the heads inside their regions (R362), the 48 bits of every counter (R212), the bounds of the deferral queue (R283)
and of the Tether's FIFO (R353), and the rules of the acting part of the engine pair (R230, R252). -/
def Obligations.EveryStepKeepsTheInvariant : Prop :=
  ∀ s t : State, Inv s → step s = .next t → Inv t

/-- From every state that meets the invariant, whatever commands wait, no run stops, and in none of its states are both ACT lines high
or both engines Active (R230, 10_engine_pair). -/
def Obligations.NoRunStopsOrHasTwoActiveEngines : Prop :=
  ∀ s : State, Inv s → Safe s ∧ ∀ t, Runs s t →
    (t.pair.a.act && t.pair.b.act) = false ∧ ¬(t.pair.a.state = .active ∧ t.pair.b.state = .active)

/-! ### Flags -/

/-- Raising an event (18_register_map, 05_rings_and_doorbells): its record leaves the sled, stamped with the present TIME64; the alert
is asserted for a severity of MIN_SEV or above (R389); beside event rings, interrupts and Logbook rows, and the TALLY_HALF and
EVR_LOST that these can bring, nothing changes. One that a rule raises at most once in each second of device time (R402, 00_scope)
is raised only where the kept index of the event and object is not that of the present second, and the index is kept. -/
def Obligations.RaisingAnEventChangesOnlyFlags : Prop :=
  (∀ (s : State) (e : Ev) (payload : Bytes),
    Raises e payload s (s.raise e payload)) ∧
  (∀ (s : State) (e : Ev) (obj : Nat) (payload : Bytes), RaisesOnce e obj payload s (s.raiseOnce e obj payload) ∧
    tget (s.raiseOnce e obj payload).events.kept (e.code * 2 ^ 16 + obj) = s.second + 1)

/-- A counter of the Tally is incremented modulo 2^48 and never saturates (R212, 09_tally); no other counter moves but EVR_LOST, where a
TALLY_HALF it brings finds no slot. -/
def Obligations.CountersWrapModulo48Bits : Prop :=
  ∀ (s : State) (c : Ctr) (cls obj n : Nat), cls < 8 → obj < 4096 → c.code ≠ Ctr.evrLost.code →
    Counts c cls obj n s (s.countN c cls obj n)

/-- The Logbook's memory (R362, 16_start_up_and_logbook): a stored row reads back byte for byte, every other byte is as before, and the
memory stays in canonical form. -/
def Obligations.LogbookMemoryReadsBackWhatIsStored : Prop :=
  ∀ (m : List Host.Cell) (a : Nat) (b : Bytes), Memory.wf m = true →
    Memory.wf (memStore m a b) = true ∧
    ∀ k, Tbl.get (fun _ => 0#8) (memStore m a b) k =
      if a ≤ k ∧ k < a + b.length then (b.getD (k - a) 0) else Tbl.get (fun _ => 0#8) m k

/-! ### Set-up (00_scope, 18_register_map) -/

/-- SETUP_LOCK (R17, 00_scope). Writing 1 sets the lock at once and raises SETUP_LOCKED on the change; writing 0 has no effect. A write
of a word stages its S and K fields; under the lock the K fields are discarded, once counted, with LOCKED_WRITE at most once a
second for the OF; S fields are staged and L fields written as before. A write that arrives ends Idle and can be a wake (R298, R301). -/
def Obligations.SetupLockDiscardsWritesOfKFields : Prop :=
  (∀ (s : State) (of : Fin 4), s.noPartner = false → s.setup.lock = false →
    Gives (.setupLock of) s (Raises .setupLocked [] ((s.arrives (64 + of)).onSetup (fun u => { u with lock := true })))) ∧
  (∀ (s : State) (of : Fin 4), s.noPartner = false → s.setup.lock = true → exec (.setupLock of) s = .next (s.arrives (64 + of))) ∧
  (∀ (s : State) (of : Fin 4) (v : BitVec 64), s.noPartner = false → Gives (.registerWrite (.of of) 0x1010 4 v) s (fun t =>
    Keeps [.ofs] (s.arrives (64 + of)) t ∧ ∀ n, t.of n = s.of n)) ∧
  (∀ (s : State) (of : Fin 4) (off : Nat) (v : BitVec 64) (r : RegRow) (ix : List Nat) (key : Nat), s.noPartner = false →
    off % 4 = 0 → regAt off = some (r, ix) → stagedMask r ≠ 0 → s.setupKey of off = some key →
    (s.setup.lock = false ∨ lockedMask r = 0 →
      Gives (.registerWrite (.of of) off 4 v) s (Stages key (BitVec.ofNat 32 (stagedMask r)) (v.setWidth 32) (s.arrives (64 + of)))) ∧
    (s.setup.lock = true → lockedMask r ≠ 0 →
      Gives (.registerWrite (.of of) off 4 v) s (fun t => ∃ u,
        RaisesOnce .lockedWrite of (le 1 (64 + of))
          ((s.arrives (64 + of)).onSetup (fun x => { x with rejects := satAdd 32 x.rejects 1 })) u ∧
        Stages key (BitVec.ofNat 32 (stagedMask r - lockedMask r)) (v.setWidth 32) u t))) ∧
  (∀ (s : State) (of : Fin 4) (off : Nat) (v : BitVec 64) (r : RegRow) (ix : List Nat), s.noPartner = false → off % 4 = 0 →
    regAt off = some (r, ix) → stagedMask r = 0 → exec (.registerWrite (.of of) off 4 v) s =
      .next ((s.arrives (64 + of)).liveWrite of r.reg (ix.headD 0) (ix.getD 1 0) off (v.toNat % 2 ^ 32)))

/-- DISCARD (R15, 00_scope): staging shows the active values again and every unsealed write is gone. A sealed set is not affected: it is
validated and applied as before; if it is refused, nothing of it returns to staging. Choices of the model it rests on: log 81. -/
def Obligations.DiscardReturnsNothingToStaging : Prop :=
  (∀ (s : State) (of : Fin 4), s.noPartner = false → Gives (.discard of) s (fun t => Keeps [.setup] (s.arrives (64 + of)) t ∧
    t.setup = { s.setup with staged := [], flowStaged := [],
                             pendingSet := s.setup.pendingSet.map (fun p => { p with discarded := true }),
                             queuedSet := s.setup.queuedSet.map (fun p => { p with discarded := true }) } ∧
    ∀ k, (t.stagingWord k).toNat = t.activeWord k)) ∧
  (∀ (s : State) (p : SealedSet), s.setFault { p with discarded := true } = s.setFault p ∧
    s.applySet { p with discarded := true } = s.applySet p) ∧
  (∀ (s : State) (p : SealedSet), s.setup.pendingSet = some p → s.setup.queuedSet = none → s.transition = false →
    p.discarded = true → s.setFault p ≠ none →
    Gives .commitApply s (fun t => t.setup.staged = s.setup.staged ∧ t.setup.flowStaged = s.setup.flowStaged))

/-- COMMIT (R12, R19, R21, 00_scope). The current staged writes are sealed into one set, whichever OF rings; in a hand-over, a Verdict
or a final stall the COMMIT is deferred and COMMIT_DEFERRED raised. A second one is sealed and queued; a third is refused with
reason Queue full and its writes remain staged; while the pending set is deferred STATE goes on reading Deferred (R20). Choices of
the model it rests on: log 26, 61. -/
def Obligations.CommitSealsTheStagedWrites : Prop :=
  (∀ (s : State) (of : Fin 4) (seq : BitVec 16), s.noPartner = false → s.setup.pendingSet = none →
    let u := (s.arrives (64 + of)).onSetup (fun x => { x with
      seq := seq.toNat, staged := [], flowStaged := [], state := if s.transition then .deferred else .pending,
      pendingSet := some { seq := seq.toNat, words := x.staged, flows := x.flowStaged, discarded := false, deferred := s.transition } })
    Gives (.commit of seq) s (fun t => if s.transition then Raises .commitDeferred (le 2 seq.toNat) u t else t = u)) ∧
  (∀ (s : State) (of : Fin 4) (seq : BitVec 16), s.noPartner = false → s.setup.pendingSet ≠ none → s.setup.queuedSet = none →
    exec (.commit of seq) s = .next ((s.arrives (64 + of)).onSetup (fun x => { x with
      seq := seq.toNat, staged := [], flowStaged := [],
      queuedSet := some { seq := seq.toNat, words := x.staged, flows := x.flowStaged, discarded := false, deferred := false } }))) ∧
  (∀ (s : State) (of : Fin 4) (seq : BitVec 16), s.noPartner = false → s.setup.pendingSet ≠ none → s.setup.queuedSet ≠ none →
    Gives (.commit of seq) s (Raises .commitRefused (le 2 seq.toNat ++ le 4 0 ++ le 1 3)
      ((s.arrives (64 + of)).onSetup (fun x => { x with
        seq := seq.toNat, state := if s.transition then .deferred else .refused, faultOff := 0, faultWhy := 3 }))))

/-- COMMIT_APPLY (R12 to R14, R19 to R21, 00_scope). In a hand-over, a Verdict or a final stall a pending set waits. A valid set is
applied whole: each word takes the set's bits and keeps the others, APPLIED_SEQ is its SEQ and COMMIT_APPLIED is raised. A set with
a fault is applied in no part: COMMIT_FAULT takes the offset and the reason, COMMIT_REFUSED is raised, and each write returns to
staging under those made since. Then the queued set is pending. The reason is 1 with the lowest offset of a value out of range, and
only where no value is out of range, 2 with the lowest offset that takes part in a refused combination. Choices of the model it
rests on: log 26. -/
def Obligations.CommitIsAllOrNothing : Prop :=
  (∀ s : State, s.setup.pendingSet = none ∨ s.transition = true → exec .commitApply s = .next s) ∧
  (∀ (s : State) (p : SealedSet), s.setup.pendingSet = some p → s.setup.queuedSet = none → s.transition = false →
    s.setFault p = none → Gives .commitApply s (fun t => ∃ u, Raises .commitApplied (le 2 p.seq) u t ∧
      u.setup = { s.setup with pendingSet := none, active := overWords s.setup.active p.words, flows := flowOver p.flows s.setup.flows,
                               appliedSeq := p.seq, state := .idle })) ∧
  (∀ (active : List (Nat × Word)) (l : List (Nat × StagedW)) (k : Nat), (l.map Prod.fst).Nodup →
    Tbl.get resetWord (overWords active l) k = layer l k (Tbl.get resetWord active k)) ∧
  (∀ (s : State) (p : SealedSet) (off why : Nat), s.setup.pendingSet = some p → s.setup.queuedSet = none → s.transition = false →
    s.setFault p = some (off, why) → Gives .commitApply s (fun t => ∃ u,
      Raises .commitRefused (le 2 p.seq ++ le 4 off ++ le 1 why) u t ∧ Keeps [.setup] s u ∧
      { u.setup with staged := [], flowStaged := [] } = { s.setup with pendingSet := none, state := .refused, faultOff := off,
                                                                       faultWhy := why, staged := [], flowStaged := [] } ∧
      (p.discarded = false → (p.words.map Prod.fst).Nodup →
        ∀ k w, layer u.setup.staged k w = layer s.setup.staged k (layer p.words k w)))) ∧
  (∀ (s : State) (p q : SealedSet), s.setup.pendingSet = some p → s.setup.queuedSet = some q → s.transition = false →
    Gives .commitApply s (fun t => t.setup.pendingSet.map (fun x => x.words) = some q.words ∧ t.setup.queuedSet = none)) ∧
  (∀ (s : State) (p : SealedSet),
    (∀ o, s.setFault p = some (o, 1) → (∃ e ∈ p.words, wordBad (s.withSet p) e = true ∧ keyOffset e.1 = o) ∧
      ∀ e ∈ p.words, wordBad (s.withSet p) e = true → o ≤ keyOffset e.1) ∧
    (∀ o, s.setFault p = some (o, 2) → (∀ e ∈ p.words, wordBad (s.withSet p) e = false) ∧
      o ∈ s.comboHits (s.withSet p) p.words ∧ ∀ x ∈ s.comboHits (s.withSet p) p.words, o ≤ x) ∧
    (s.setFault p = none ↔ (∀ e ∈ p.words, wordBad (s.withSet p) e = false) ∧ s.comboHits (s.withSet p) p.words = []))

/-- Accesses to BAR0 (R381, R382, 18_register_map; R3 and COMMIT_VIEW, R22, 00_scope). An access of 8 aligned bytes is two of 4, the lower
offset first; any other size or alignment reads 0 and writes nothing, as does a reserved offset, of an OF's BAR0 and of a TF's. A word
of S and K fields reads its staged value, or its active one under ACTIVE_VIEW. A write to a carrier function's BAR0 has no effect
(R77, 04_host_links), and no write arrives while the links are down. Choices of the model it rests on: log 22, 84. -/
def Obligations.RegisterAccessesBySizeAndView : Prop :=
  (∀ (s : State) (n off : Nat), off % 8 = 0 → s.read n off 8 = s.readWord n off + 2 ^ 32 * s.readWord n (off + 4)) ∧
  (∀ (s : State) (b : Bar) (off size : Nat), ¬(size = 4 ∧ off % 4 = 0) → ¬(size = 8 ∧ off % 8 = 0) → s.readBar b off size = 0) ∧
  (∀ (s : State) (n off : Nat), regAt off = none → s.read n off 4 = 0) ∧
  (∀ (s : State) (f : Fin 64) (off : Nat), (0x28 ≤ off ∧ off < 0x40) ∨ (0x60 ≤ off ∧ off < 0x1000) ∨ (0x1300 ≤ off ∧ off < 0x3000) ∨
    (0x3080 ≤ off ∧ off < 0x3800) ∨ 0x3804 ≤ off → s.readBar (.tf f) off 4 = 0) ∧
  (∀ (s : State) (b : Bar) (off size : Nat) (v : BitVec 64), s.noPartner = true → exec (.registerWrite b off size v) s = .next s) ∧
  (∀ (s : State) (of : Fin 4) (off size : Nat) (v : BitVec 64), s.noPartner = false → ¬(size = 4 ∧ off % 4 = 0) →
    ¬(size = 8 ∧ off % 8 = 0) → exec (.registerWrite (.of of) off size v) s = .next (s.arrives (64 + of))) ∧
  (∀ (s : State) (of : Fin 4) (off : Nat) (v : BitVec 64), s.noPartner = false → regAt off = none →
    exec (.registerWrite (.of of) off 4 v) s = .next (s.arrives (64 + of))) ∧
  (∀ (s : State) (of : Fin 4) (off : Nat) (v : BitVec 64), s.noPartner = false → off % 8 = 0 → exec (.registerWrite (.of of) off 8 v) s =
    .next (((s.arrives (64 + of)).registerWrite of off 4 (v.toNat % 2 ^ 32)).registerWrite of (off + 4) 4 (v.toNat / 2 ^ 32))) ∧
  (∀ (s : State) (of : Fin 4) (off : Nat) (v : BitVec 64), s.noPartner = false →
    exec (.registerWrite (.of of) off 4 v) s = .next ((s.arrives (64 + of)).registerWrite of off 4 (v.toNat % 2 ^ 32))) ∧
  (∀ (s : State) (f : Fin 64) (off size : Nat) (v : BitVec 64), s.noPartner = false → 0x20 ≤ off →
    exec (.registerWrite (.tf f) off size v) s = .next (s.arrives f)) ∧
  (∀ (s : State) (n : Fin 4) (off size : Nat) (v : BitVec 64), s.noPartner = false →
    exec (.registerWrite (.cf n) off size v) s = .next (s.arrives (68 + n))) ∧
  (∀ (s : State) (n off : Nat) (r : RegRow) (ix : List Nat) (key : Nat), off % 4 = 0 → regAt off = some (r, ix) →
    stagedMask r = 2 ^ 32 - 1 → s.setupKey n off = some key →
    s.read n off 4 = if (s.of n).activeView then s.activeWord key else (s.stagingWord key).toNat)

/-- Live registers (Table 0-5, R12, 00_scope): a write acts at once. TIME_SET_i, TIME_RATE, TIME_STEP_i and the low halves of the RTC
(R62, 02_time_and_windows); RTC_STATUS, RAIL_STATUS and TRIPPED clear by writing 1 (R62; R292, 12_supply_and_backup_cell; R275,
11_lookout); the flow-table staging registers (R181, 07_receive); the operator slots of the Tether (R355, 15_tether); the registers
that each OF holds for itself (R383, 18_register_map); and the words of a TF's mailbox record (Table 4-5, 04_host_links). A write into
the active engine waits while none takes it (R242, 10_engine_pair). Choices of the model it rests on: log 22. -/
def Obligations.LiveRegistersTakeTheirWriteAtOnce : Prop :=
  (∀ (s : State) (of : Fin 4) (v : BitVec 64), s.noPartner = false →
    let x := v.toNat % 2 ^ 32
    let z := s.arrives (64 + of)
    (∀ i < 3, exec (.registerWrite (.of of) (0x50010 + 4 * i) 4 v) s = .next (z.onTime (fun t => { t with setOp := wput t.setOp i x }))) ∧
    exec (.registerWrite (.of of) 0x5001C 4 v) s = .next (z.onTime (fun t => { t with rateOp := v.setWidth 32 })) ∧
    (∀ i < 2, exec (.registerWrite (.of of) (0x50020 + 4 * i) 4 v) s = .next (z.onTime (fun t => { t with stepOp := wput t.stepOp i x }))) ∧
    exec (.registerWrite (.of of) 0x50200 4 v) s = .next (z.onRtc (fun t => { t with loadLo := v.setWidth 32 })) ∧
    exec (.registerWrite (.of of) 0x50208 4 v) s = .next (z.onRtc (fun t => { t with alarmLo := v.setWidth 32 })) ∧
    exec (.registerWrite (.of of) 0x50210 4 v) s = .next (z.onRtc (fun t => { t with alarmEn := bit x 0 })) ∧
    exec (.registerWrite (.of of) 0x50214 4 v) s =
      .next (z.onRtc (fun t => { t with fired := t.fired && !bit x 0, past := t.past && !bit x 1 })) ∧
    Gives (.registerWrite (.of of) 0x8000C 4 v) s (fun t => ∀ i < 6, s.supply.rails < 2 ^ 6 →
      bit t.supply.rails i = (bit s.supply.rails i && !bit x i)) ∧
    (∀ i < 8, ∀ j < 8, Gives (.registerWrite (.of of) (0x88100 + 0x40 * i + 4 * j) 4 v) s (fun t => Keeps [.tether] z t ∧
      t.slot i = { s.slot i with data := wput (s.slot i).data j x } ∧ ∀ k, k ≠ i → t.slot k = s.slot k)) ∧
    (∀ i < 8, Gives (.registerWrite (.of of) (0x88120 + 0x40 * i) 4 v) s (fun t => Keeps [.tether] z t ∧
      t.slot i = { s.slot i with len := x % 64 } ∧ ∀ k, k ≠ i → t.slot k = s.slot k)) ∧
    Gives (.registerWrite (.of of) 0x100C 4 v) s (OfTo of (fun o => { o with activeView := bit x 0 }) z) ∧
    Gives (.registerWrite (.of of) 0x23000 4 v) s (OfTo of (fun o => { o with rxFnSel := x % 128 }) z) ∧
    Gives (.registerWrite (.of of) 0x88020 4 v) s (OfTo of (fun o => { o with peerSel := x % 64 }) z) ∧
    Gives (.registerWrite (.of of) 0xA0018 4 v) s (OfTo of (fun o => { o with rowSel := x % 2 ^ 15 }) z) ∧
    Gives (.registerWrite (.of of) 0xA0200 8 v) s (OfTo of (fun o => { o with fwAddr := v.toNat }) z) ∧
    Gives (.registerWrite (.of of) 0xA0208 4 v) s (OfTo of (fun o => { o with fwLen := x % 2 ^ 25 }) z) ∧
    (s.partnerHeld [5] = true → ∀ i < 10, exec (.registerWrite (.of of) (0x22000 + 4 * i) 4 v) s =
      .next (z.hold (.write of (0x22000 + 4 * i) x))) ∧
    (s.partnerHeld [5] = false →
      (∀ ch < 5, Gives (.registerWrite (.of of) (0x78100 + 0x40 * ch) 4 v) s (fun t => Keeps [.lookout] z t ∧
        (t.chan ch).tripped = ((s.chan ch).tripped && !bit x 3) ∧ ∀ c, c ≠ ch → t.chan c = s.chan c)) ∧
      (∀ i < 10, exec (.registerWrite (.of of) (0x22000 + 4 * i) 4 v) s = .next (z.onSetup (fun t => { t with flowKey := wput t.flowKey i x }))) ∧
      exec (.registerWrite (.of of) 0x22028 4 v) s = .next (z.onSetup (fun t => { t with flowRing := x % 32, flowValid := bit x 31 })) ∧
      (∀ i < 8, exec (.registerWrite (.of of) (0x4400 + 4 * i) 4 v) s = .next (z.recordPut (64 + of) (4 * i) x)) ∧
      Gives (.registerWrite (.of of) 0x60000 4 v) s (OfTo of (fun o =>
        { o with tallyObj := x % 2 ^ 12, tallyCls := x / 2 ^ 12 % 8, tallyCode := x / 2 ^ 16 }) z) ∧
      Gives (.registerWrite (.of of) 0x60010 8 v) s (OfTo of (fun o => { o with snapAddr := v.toNat / 64 * 64 }) z) ∧
      Gives (.registerWrite (.of of) 0x60018 4 v) s (OfTo of (fun o => { o with snapLen := x % 2 ^ 24 }) z))) ∧
  (∀ (s : State) (f : Fin 64) (i : Nat) (v : BitVec 64), i < 8 → s.noPartner = false →
    (s.partnerHeld [2, 5] = false → exec (.registerWrite (.tf f) (4 * i) 4 v) s = .next ((s.arrives f).recordPut f (4 * i) (v.toNat % 2 ^ 32))) ∧
    (s.partnerHeld [2, 5] = true → exec (.registerWrite (.tf f) (4 * i) 4 v) s = .next ((s.arrives f).hold (.record f (4 * i) (v.toNat % 2 ^ 32)))))

/-! ### Time (02_time_and_windows) -/

/-- TIME64 (R42): seconds times 1,000,000,000 plus nanoseconds of the device time in the layout of Table 0-4, modulo 2^64, without the
fraction. -/
def Obligations.Time64IsNanosecondsModulo64Bits : Prop :=
  ∀ u : Nat, u < 2 ^ 48 * uSec →
    time64Of u = (bits (time96 u) 48 48 * 1000000000 + bits (time96 u) 16 32) % 2 ^ 64 ∧ bits (time96 u) 16 32 < 1000000000

/-- TIME_NOW (R43): a read of TIME_NOW_0 latches the 96 bits for the reading OF alone and returns bits [31:0]; the other two words
return what that OF's latch holds, for each OF its own. -/
def Obligations.TimeNowIsLatchedForEachOf : Prop :=
  (∀ (s : State) (of : Fin 4), s.noPartner = false → Gives (.timeNowRead of) s (fun t => Keeps [.ofs, .out] (s.partnerWake (64 + of)) t ∧
    (∀ n, t.of n = if n = of then { s.of n with timeLatch := time96 s.time.now } else s.of n) ∧
    t.out = s.out ++ [.read of (BitVec.ofNat 32 (time96 s.time.now))])) ∧
  (∀ (s : State) (n : Nat), s.read n 0x50004 4 = bits (s.of n).timeLatch 32 32 ∧ s.read n 0x50008 4 = bits (s.of n).timeLatch 64 32)

/-- Accepted rates, and TIME_HOLD (R44 to R47, R60). PTP and PTM are taken while enabled and no source of higher precedence is current,
Manual always. An accepted rate within the range of R41 is in force from the J-cycle that follows, and device time does not jump. An
accepted source is current for TIME_HOLD; Manual leaves the current source as it is. As the current source's window closes, the rate
stays and SOURCE is Holdover; TIME_SOURCE_CHANGED is raised on a change. With no source current nothing happens. -/
def Obligations.RatesAreTakenAndHeldOver : Prop :=
  (∀ (s : State) (src : BitVec 2), s.noPartner = false → Timely s → Admits src s → -2684354 ≤ s.rateOperand → s.rateOperand ≤ 2684354 →
    Gives (.timeCtrlRate src) s (fun t => t.time.due = s.time.due ++ [(1, s.rateOperand)] ∧ t.time.rate = s.time.rate ∧
      t.time.now = s.time.now ∧ t.time.steps = s.time.steps ∧ t.time.ignored = s.time.ignored ∧ t.time.valid = s.time.valid ∧ Sourced src s t)) ∧
  (∀ (s : State) (x : Int), s.pending = [] → s.coreRuns = true → s.time.due = [(1, x)] → ∃ t, step s = .next t ∧ t.time.rate = x ∧
    t.time.now = s.time.now + s.increment ∧ t.time.due = [] ∧ t.time.steps = s.time.steps) ∧
  (∀ s : State, s.time.current ≠ none → s.time.source ≠ .holdover → Gives .timeHoldExpiry s
    (Raises .timeSourceChanged (le 1 s.time.source.code ++ le 1 4) (s.onTime (fun t => { t with current := none, source := .holdover })))) ∧
  (∀ s : State, s.time.current ≠ none → s.time.source = .holdover →
    exec .timeHoldExpiry s = .next (s.onTime (fun t => { t with current := none }))) ∧
  (∀ s : State, s.time.current = none → exec .timeHoldExpiry s = .next s)

/-- Step and Set (R47, R48, R54, R59). An accepted one sets VALID and takes effect in the J-cycle that follows: device time jumps by
TIME_STEP in 1/65,536 ns, or to TIME_SET; TIME_STEP_COUNT counts, TIME_STEPPED carries the signed step; every gate takes the state of
the list entry that covers the new time. The rate and the RTC's counting stay (R52). Choices of the model it rests on: log 73. -/
def Obligations.StepAndSetMoveDeviceTimeAtOnce : Prop :=
  (∀ (s : State) (src : BitVec 2), s.noPartner = false → Timely s → Admits src s →
    (0 ≤ (s.time.now : Int) + s.increment + s.stepOperand * 2 ^ 16 → Gives (.timeCtrlStep src) s (fun t =>
      t.time.due = s.time.due ++ [(2, s.stepOperand)] ∧ t.time.now = s.time.now ∧ t.time.rate = s.time.rate ∧ t.time.valid = true ∧ Sourced src s t)) ∧
    (bits s.setOperand 16 32 ≤ 999999999 → Gives (.timeCtrlSet src) s (fun t =>
      t.time.due = s.time.due ++ [(3, (s.setOperand : Int))] ∧ t.time.now = s.time.now ∧ t.time.rate = s.time.rate ∧ t.time.valid = true ∧
      Sourced src s t))) ∧
  (∀ (s : State) (x : Int), s.pending = [] → s.coreRuns = true → s.time.due = [(2, x)] → 0 ≤ (s.time.now : Int) + s.increment + x * 2 ^ 16 →
    ∃ t, step s = .next t ∧ (t.time.now : Int) = s.time.now + s.increment + x * 2 ^ 16 ∧ Jumped x s t) ∧
  (∀ (s : State) (x : Nat), s.pending = [] → s.coreRuns = true → s.time.due = [(3, (x : Int))] →
    ∃ t, step s = .next t ∧ t.time.now = ofTime96 x ∧
      Jumped (((ofTime96 x / 2 ^ 16 : Nat) : Int) - (((s.time.now + s.increment) / 2 ^ 16 : Nat) : Int)) s t)

/-- Refused adjustments (R47, R60, Table 2-8). Each one increments TIME_ADJ_IGNORED, and TIME_ADJ_IGNORED is raised at most once a
second with the source, the first reason that applies and the action; nothing is applied. -/
def Obligations.RefusedAdjustmentsAreCountedAndReported : Prop :=
  (∀ (s : State) (src : BitVec 2), s.noPartner = false → Timely s → s.adjustReason (ctrlSource src) 1 s.rateOperand ≠ 0 →
    Gives (.timeCtrlRate src) s (Ignored src 1 (s.adjustReason (ctrlSource src) 1 s.rateOperand) s)) ∧
  (∀ (s : State) (src : BitVec 2), s.noPartner = false → Timely s → s.adjustReason (ctrlSource src) 2 s.stepOperand ≠ 0 →
    Gives (.timeCtrlStep src) s (Ignored src 2 (s.adjustReason (ctrlSource src) 2 s.stepOperand) s)) ∧
  (∀ (s : State) (src : BitVec 2), s.noPartner = false → Timely s → s.adjustReason (ctrlSource src) 3 s.setOperand ≠ 0 →
    Gives (.timeCtrlSet src) s (Ignored src 3 (s.adjustReason (ctrlSource src) 3 s.setOperand) s)) ∧
  (∀ (s : State) (action : Nat) (x : Int),
    s.adjustReason 0 action x = 1 ∧
    (s.timeSrcEnPtp = 0 → s.adjustReason 1 action x = 2) ∧ (s.timeSrcEnPtm = 0 → s.adjustReason 2 action x = 2) ∧
    (s.timeSrcEnTether = 0 → s.adjustReason 3 action x = 2) ∧
    (∀ code, 1 ≤ code → code < 4 → s.srcEnabled code = true → s.time.current.isSome = true → s.time.curSrc < code →
      s.adjustReason code action x = 3) ∧
    (x < -2684354 ∨ 2684354 < x → s.adjustReason 4 1 x = 4) ∧
    (0 ≤ x → 999999999 < bits x.toNat 16 32 → s.adjustReason 4 3 x = 5) ∧
    ((s.time.now : Int) + s.increment + x * 2 ^ 16 < 0 → s.adjustReason 4 2 x = 6))

/-- The RTC (R11, R52, R54, R62). A write of the alarm's high half arms both halves and sets PAST where the value is at or below
RTC_COUNT; a write of RTC_COUNT_HI loads both halves and sets VALID; a read of RTC_COUNT_LO latches the rest; and while ALARM_EN is
1 the armed alarm fires once, with RTC_ALARM, and in Sleep or Deep sleep it is a wake where WAKE_EN takes it. TIME_PAIR_RECORD
records (D0, C0) while CORE runs (R358, 16_start_up_and_logbook). Choices of the model it rests on: log 4, 22, 71, 72. -/
def Obligations.RtcCountsAlarmsAndPairs : Prop :=
  (∀ (s : State) (hi : BitVec 16), s.noPartner = false → exec (.rtcAlarmWrite hi) s = .next ((s.partnerWake 64).onRtc (fun r =>
    { r with alarm := hi.toNat * 2 ^ 32 + r.alarmLo.toNat, armed := true,
             past := r.past || decide (hi.toNat * 2 ^ 32 + r.alarmLo.toNat ≤ r.count) }))) ∧
  (∀ (s : State) (hi : BitVec 16), s.noPartner = false → exec (.rtcCountWrite hi) s =
    .next ((s.partnerWake 64).onRtc (fun r => { r with count := hi.toNat * 2 ^ 32 + r.loadLo.toNat, valid := true }))) ∧
  (∀ s : State, s.noPartner = false → exec .rtcCountRead s = .next (((s.partnerWake 64).onRtc (fun r =>
    { r with latchHi := r.count / 2 ^ 32 })).emit (.rtcRead (BitVec.ofNat 32 s.rtc.count)))) ∧
  (∀ s : State, s.rtc.armed = true → s.rtc.alarmEn = true → s.power.mode ≠ .off → Gives .rtcAlarm s (fun t => ∃ u,
    Raises .rtcAlarm (le 8 s.rtc.count ++ le 1 (ofBool s.rtc.past)) (s.onRtc (fun r => { r with fired := true, armed := false })) u ∧
    (bit s.wakeEnEn 0 = false → t = u) ∧
    (bit s.wakeEnEn 0 = true → s.power.mode = .sleep ∨ s.power.mode = .deepSleep → Wakes 5 0 u t))) ∧
  (∀ s : State, s.rtc.armed = false ∨ s.rtc.alarmEn = false ∨ s.power.mode = .off → exec .rtcAlarm s = .next s) ∧
  (∀ s : State, s.coreRuns = true →
    exec .timePairRecord s = .next (s.onRtc (fun r => { r with pairD := s.time.now, pairC := s.rtc.count })))

/-! ### Islands and power modes (13_islands_and_power_states) -/

/-- Wakes (R301 to R304; R392, 19_electrical_and_mechanical; R385, 18_register_map). The wake pin wakes from Sleep and Deep sleep, is
latched during an entry, is only recorded in Run and Idle, and in Off without mains counts an attempt, at most 255. A link that leaves
L1.2, or takes a partner's TLP, wakes from Sleep where WAKE_EN takes it; what arrives in Idle ends it (R298). While the host links are
down, in Deep sleep, Off and Fenced, no partner's command arrives; the power commands and SLED_RESET keep the refusals of R299 and
R361. Choices of the model it rests on: log 32, 69. -/
def Obligations.WakesAreTakenByTheModeTheyMeet : Prop :=
  (∀ s : State, s.power.mode = .sleep ∨ s.power.mode = .deepSleep → Gives .wakePin s (Wakes 2 0 s)) ∧
  (∀ (s : State) (m : PwrMode), s.power.mode = .entering → s.power.target = some m → m = .sleep ∨ m = .deepSleep ∨ m = .off →
    s.power.latched = none → exec .wakePin s =
      .next (s.onPower (fun p => { p with latched := some { source := 2, detail := 0, stamp := s.time64, others := 0 } }))) ∧
  (∀ s : State, s.power.mode = .run ∨ s.power.mode = .idle → Gives .wakePin s (fun t => Keeps [.power, .tether] s t ∧
    t.power = { s.power with wakeSrc := 2, wakeDet := 0, replayed := false, wakeFrom := s.power.mode, wakeOth := 0, wakeTime := s.time64 })) ∧
  (∀ s : State, s.power.mode = .off → s.supply.mains = false → s.supply.latchOk = true →
    exec .wakePin s = .next (s.onSupply (fun x => { x with tries := min 255 (s.supply.tries + 1) }))) ∧
  (∀ (s : State) (n : Fin 8), (s.link n).up = true → s.power.mode = .sleep → bit s.wakeEnEn 2 = true →
    Gives (.l1Exit n) s (Wakes 7 n (s.setLink n (fun x => { x with l12 := false })))) ∧
  (∀ (s : State) (n : Fin 8), (s.link n).up = true → s.power.mode = .sleep → bit s.wakeEnEn 2 = false →
    exec (.l1Exit n) s = .next (s.setLink n (fun x => { x with l12 := false }))) ∧
  (∀ (s : State) (f : Nat),
    (s.power.mode = .sleep → bit s.wakeEnEn 2 = true → Wakes 7 (s.fnLink f) s (s.arrives f)) ∧
    (s.power.mode = .sleep → bit s.wakeEnEn 2 = false → s.arrives f = s) ∧ (s.power.mode = .run → s.arrives f = s) ∧
    (s.power.mode = .idle → Keeps [.power] s (s.arrives f) ∧ (s.arrives f).power.mode = .run ∧ (s.arrives f).power.wakeSrc = 1)) ∧
  (∀ (s : State) (c : Instr) (f : Nat), partnerOf c = some f → s.noPartner = true → c ≠ .pwrCmdSleep → (∀ h, c ≠ .pwrCmdDeepSleep h) →
    c ≠ .pwrCmdOff → (∀ k x, c ≠ .sledReset k x) → exec c s = .next s)

/-- An entry by command (R299, R300, R293; R286, 12_supply_and_backup_cell). In Run and Idle it begins at e, the instant of the command,
with ENTERING; to Deep sleep only where the AO estimate fits the budget. During a transition of the pair it waits. A refusal raises
PWR_ENTRY_REFUSED with 1 BUSY, 2 FENCED, 3 STYLE or 4 BUDGET, the first that applies. Choices of the model it rests on: log 37, 45. -/
def Obligations.EntryCommandsBeginOrAreRefused : Prop :=
  (∀ (s : State) (c : Instr) (m : PwrMode) (k : Nat), (c = .pwrCmdSleep ∧ m = .sleep ∧ k = 1) ∨ (c = .pwrCmdOff ∧ m = .off ∧ k = 3) →
    s.power.mode = .run ∨ s.power.mode = .idle → s.power.pendCmd = none → s.pair.fenced = false → s.power.domain = false ∨ m = .off →
      (s.transition = false → Gives c s (fun t => t.power.mode = .entering ∧ t.power.target = some m ∧ t.power.entryAt = s.time64 ∧
        t.power.pendCmd = none)) ∧
      (s.transition = true → exec c s = .next (((s.arrives 64).wrote 0x2004 k).onPower (fun p => { p with pendCmd := some m })))) ∧
  (∀ (s : State) (h : Int), s.power.mode = .run ∨ s.power.mode = .idle → s.power.pendCmd = none → s.pair.fenced = false →
    s.power.domain = false → s.transition = false →
      (s.aoEstimate h ≤ s.aoBudgetUa → Gives (.pwrCmdDeepSleep h) s (fun t => t.power.mode = .entering ∧
        t.power.target = some .deepSleep ∧ t.power.entryAt = s.time64 ∧ t.supply.refused = false ∧
        t.supply.lastEst = min (s.aoEstimate h) (2 ^ 15 - 1))) ∧
      (s.aoBudgetUa < s.aoEstimate h → Gives (.pwrCmdDeepSleep h) s (fun t => ∃ u,
        Raises .aoBudgetRefused (le 4 (s.aoEstimate h) ++ le 1 (unsigned 8 (h + (s.aoBudgetTempMargin : Int))))
          (((s.arrives 64).wrote 0x2004 2).onSupply (fun p => { p with lastEst := min (s.aoEstimate h) (2 ^ 15 - 1), refused := true })) u ∧
        Raises .pwrEntryRefused (le 1 4) u t))) ∧
  (∀ (s : State) (c : Instr) (m : PwrMode) (k : Nat), (c = .pwrCmdSleep ∧ m = .sleep ∧ k = 1) ∨
      ((∃ h, c = .pwrCmdDeepSleep h) ∧ m = .deepSleep ∧ k = 2) ∨ (c = .pwrCmdOff ∧ m = .off ∧ k = 3) →
    (s.power.mode = .entering ∨ s.power.mode = .sleep ∨ s.power.mode = .deepSleep ∨ s.power.mode = .exiting ∨
      ((s.power.mode = .run ∨ s.power.mode = .idle) ∧ s.power.pendCmd ≠ none) →
        Gives c s (Raises .pwrEntryRefused (le 1 1) ((s.arrives 64).wrote 0x2004 k))) ∧
    (s.power.mode = .run ∨ s.power.mode = .idle → s.power.pendCmd = none →
      (s.pair.fenced = true → Gives c s (Raises .pwrEntryRefused (le 1 2) ((s.arrives 64).wrote 0x2004 k))) ∧
      (s.pair.fenced = false → s.power.domain = true → m ≠ .off →
        Gives c s (Raises .pwrEntryRefused (le 1 3) ((s.arrives 64).wrote 0x2004 k)))) ∧
    (s.power.mode = .off → exec c s = .next s))

/-- An entry ends and Idle begins (R298, R299, R301, Table 13-2). At c the mode is that of the target, PWR_ENTERED carries it with e,
and the islands of Table 13-2 stand: in Sleep the engines' AO islands are On and their others in Retention, in Off every island is
Off. A wake latched on the way is replayed: the exit begins, REPLAYED is 1 and WAKE_REPLAY_COUNT counts, but in Off the wake stays
latched. Idle is entered from Run in Ladder style while IDLE_EN is 1 and the conditions of R298 have held for the idle-entry time.
Choices of the model it rests on: log 31, 37. -/
def Obligations.EntriesEndInTheirModeOrReplayTheWake : Prop :=
  (∀ (s : State) (m : PwrMode), s.power.mode = .entering → s.power.target = some m → m = .sleep ∨ m = .deepSleep ∨ m = .off →
    s.transition = false → Gives .pwrEntered s (fun t =>
      Reports .pwrEntered (le 1 m.code ++ le 8 s.power.entryAt) s t ∧ t.power.target = none ∧
      (s.power.latched = none ∨ m = .off → t.power.mode = m ∧ t.power.latched = s.power.latched) ∧
      (∀ w, s.power.latched = some w → m ≠ .off → t.power.mode = .exiting ∧ t.power.exitFrom = m ∧ t.power.stage = 0 ∧
        t.power.wakeSrc = w.source ∧ t.power.wakeDet = w.detail ∧ t.power.wakeTime = w.stamp ∧ t.power.replayed = true ∧
        t.power.replays = satAdd 32 s.power.replays 1) ∧
      (m = .off → ∀ i < 20, (t.island i).state = .off) ∧ (m = .deepSleep → (t.island 6).state = .on ∧ (t.island 13).state = .on) ∧
      (m = .sleep → ∀ i < 14, (t.island i).state = if i % 7 = 6 then .on else .retention))) ∧
  (∀ (s : State) (w : Nat × Nat), s.power.mode = .run → s.power.domain = false → s.pwrCtrlIdleEn = 1 → s.transition = false →
    s.pair.fenced = false → s.idleOk = true → s.power.idleSince = some w →
    (w.1 + w.2 ≤ s.time.elapsed → exec .idleEntry s =
      .next (s.onPower (fun p => { p with mode := .idle, idleAt := s.time.elapsed, idleSince := none }))) ∧
    (s.time.elapsed < w.1 + w.2 → exec .idleEntry s = .next s))

/-- The ready chain (R294, R305, R306, R53). A ready signal moves to the next stage and clears RETRY; the fourth, LOGIC_RDY, brings
every island On that no warm standby keeps in retention, and from Deep sleep device time back from the recorded pair. A timeout
retries its stage twice with READY_TIMEOUT; the third resets the sled with reason 4. The end of the chain is Run, with PWR_EXITED.
Choices of the model it rests on: log 33. -/
def Obligations.TheReadyChainEndsInRun : Prop :=
  (∀ (s : State) (test : SelfTest), s.power.mode = .exiting → s.power.stage < 3 → s.supply.inReset = false → s.log.bootRom = false →
    exec (.readyStageDone test) s = .next (s.onPower (fun p => { p with stage := s.power.stage + 1, retry := 0 }))) ∧
  (∀ (s : State) (test : SelfTest), s.power.mode = .exiting → s.power.stage = 3 → s.supply.inReset = false → s.log.bootRom = false →
    Gives (.readyStageDone test) s (fun t => t.power.stage = 4 ∧ t.power.mode = .exiting ∧
      (s.pair.warm = false → ∀ i < 20, (t.island i).state = .on ∧ (t.island i).isolated = false) ∧
      (s.power.exitFrom = .deepSleep → t.time.now = s.rtcTime ∧ t.time.source = .restored) ∧
      (s.power.exitFrom ≠ .deepSleep → t.time = s.time))) ∧
  (∀ (s : State) (test : SelfTest), s.power.mode = .exiting → s.power.stage < 4 → s.supply.inReset = false → s.log.bootRom = false →
    (s.power.retry < 2 → Gives (.readyTimeout test) s (Raises .readyTimeout (le 1 s.power.stage ++ le 1 (s.power.retry + 1))
      (s.onPower (fun p => { p with retry := p.retry + 1, retries := satAdd 32 p.retries 1 })))) ∧
    (2 ≤ s.power.retry → Bootable test s → Gives (.readyTimeout test) s (Restarted 4 s))) ∧
  (∀ s : State, s.power.mode = .exiting → s.power.stage = 4 → Gives .pwrExited s (fun t => t.power.mode = .run ∧
    Reports .pwrExited (le 4 s.wakeWord ++ le 8 s.power.wakeTime) s t))

/-- DVFS (R309, R310, Table 13-7). A pair of frequency and voltage that is no row is refused, with DVFS_REFUSED. A higher row first
raises the voltage: the frequencies rise at V_READY; a lower row takes them down first. On a timeout the voltage returns and the
frequencies stay. An island in Retention wakes by itself in Domain style (R308); where nothing was held for it nothing else happens
(R31, 01_the_sled). Choices of the model it rests on: log 34. -/
def Obligations.DvfsMovesVoltageBeforeFrequencyGoingUp : Prop :=
  (∀ (s : State) (mhz mv : Nat) (l : List (Fin 20)), s.power.mode = .run ∨ s.power.mode = .idle ∨ s.power.mode = .entering →
    (∀ r < 4, ¬(rowMhz r = mhz ∧ rowMv r = mv)) →
    Gives (.dvfsCommand mhz mv l) s (Raises .dvfsRefused (le 1 s.activeCode ++ le 2 mhz ++ le 2 mv) s)) ∧
  (∀ (s : State) (r : Nat), s.power.mode = .run ∨ s.power.mode = .idle ∨ s.power.mode = .entering → r < 4 → s.envRow ≤ r →
    s.power.newPoint = none →
    (r < s.power.point → Gives (.dvfsCommand (rowMhz r) (rowMv r) []) s (fun t => Keeps [.power] s t ∧ t.power.newPoint = some r ∧
      t.power.point = s.power.point ∧ t.power.vReady = false ∧ ∀ i, t.island i = s.island i)) ∧
    (s.power.point < r → Gives (.dvfsCommand (rowMhz r) (rowMv r) []) s (fun t => Keeps [.power] s t ∧ t.power.newPoint = some r ∧
      t.power.point = s.power.point ∧ t.power.vReady = false ∧
      (∀ i ∈ freqIslands, s.ignoredIsland i = false → (t.island i).freq = r) ∧ ∀ i, i ∉ freqIslands → t.island i = s.island i))) ∧
  (∀ (s : State) (r : Nat), s.power.newPoint = some r → s.power.queued = none → Gives .vReady s (fun t => Keeps [.power] s t ∧
    t.power.point = r ∧ t.power.newPoint = none ∧ t.power.vReady = true ∧
    ∀ i, i ∉ s.power.stepIsl.map (fun e => e.1) → t.island i = s.island i)) ∧
  (∀ s : State, s.power.newPoint ≠ none → s.power.queued = none → Gives .dvfsTimeout s (Raises .dvfsTimeout (le 1 s.activeCode)
    (s.onPower (fun p => { p with newPoint := none, stepIsl := [], vReady := true })))) ∧
  (∀ (s : State) (i : Fin 20), s.power.domain = true → (s.island i).state = .retention → Settled s → s.pair.holdAt = none →
    Gives (.islandAutoWake i) s (fun t =>
    Keeps [.power, .lookout] s t ∧ t.island i = { s.island i with state := .on, isolated := false, auto := true } ∧
    ∀ k, k ≠ i.val → t.island k = s.island k))

/-! ### Start-up, firmware, the Logbook and the SMBus target (16_start_up_and_logbook, 19_electrical_and_mechanical) -/

/-- Sled resets (R361, R357, R368, R369). SLED_RESET with its key, where it arrives, and the chassis reset from every mode but Off clear
the set-up and the rings, form the pair and end at stage 4 with reason 3 or 2; another key resets nothing. Choices of the model it rests
on: log 27. -/
def Obligations.SledResetsClearSetupAndRings : Prop :=
  (∀ (s : State) (test : SelfTest), Bootable test s → s.power.mode ≠ .off → s.power.mode ≠ .deepSleep →
    Gives (.sledReset 0x5A3C test) s (Restarted 3 (s.arrives 64))) ∧
  (∀ (s : State) (test : SelfTest), Bootable test s → s.power.mode ≠ .off → Gives (.chassisReset test) s (Restarted 2 s)) ∧
  (∀ (s : State) (key : BitVec 16) (test : SelfTest), key ≠ 0x5A3C → s.power.mode ≠ .off → s.power.mode ≠ .deepSleep →
    exec (.sledReset key test) s = .next ((s.arrives 64).wrote 0xA0100 key.toNat)) ∧
  (∀ (s : State) (key : BitVec 16) (test : SelfTest), s.power.mode = .off ∨ s.power.mode = .deepSleep →
    exec (.sledReset key test) s = .next s)

/-- A cold start (R54, R304, R356 to R358, Table 13-5). From Off by the pin with power, by the mains-return timer where RESTART_ON_MAINS
was latched, and with the mains where there was none: device time and the RTC restart from the saved values, VALID is 0, and
PWR_EXITED tells the wake-cause record: SOURCE 0x10 for the pin, and as DETAIL the attempts without mains. Stage 5 reports
SLED_STARTED. Choices of the model it rests on: log 27, 28. -/
def Obligations.ColdStartsRestoreTimeAndReportTheCause : Prop :=
  (∀ (s : State) (how : StartBy) (test : SelfTest), s.canStart how = true → Bootable test s → Gives (.coldStart how test) s (fun t =>
      t.power.mode = .run ∧ t.log.stage = 4 ∧ t.log.reason = (if how = .aoBrownout then 6 else 1) ∧ t.time.valid = false ∧ t.time.source = .freeRun ∧
      t.rtc.count = s.rtc.savedC ∧ t.rtc.valid = false ∧ t.rtc.armed = false ∧
      t.time.now = s.rtc.savedD + ticksU ((s.rtc.savedC + 2 ^ 48 - s.rtc.savedP) % 2 ^ 48) ∧ t.pair.acts = PairSt.init.acts ∧
      t.setup = SetupSt.init ∧ t.power.wakeFrom = .off ∧ t.power.wakeDet = min s.supply.tries 255 ∧
      (how = .wakePin → t.power.wakeSrc = 0x10) ∧ (how = .mainsReturn → t.power.wakeSrc = 0x11) ∧
      Reports .timeRestored [] s t ∧ Reports .pwrExited (le 4 t.wakeWord ++ le 8 t.power.wakeTime) s t)) ∧
  (∀ (s : State) (ms : BitVec 16), s.log.stage = 4 → s.log.ready = false → Gives (.sledStarted ms) s
    (Raises .sledStarted (le 1 s.log.reason ++ le 1 s.log.imgUsed ++ le 2 ms.toNat) (s.onLog (fun l =>
      { l with stage := 5, ready := true, startMs := ms.toNat,
               minSvn := if (s.fwSlot l.running).raise then max l.minSvn (s.fwSlot l.running).svn else l.minSvn }))))

/-- Firmware bundles (R359, R360). STAGE under the OF's fences reads the bundle and holds FW_STATUS at Staging; what was read is
verified: SIGNATURE, SVN and LINE are tried in this order, and FW_STAGED reports state and reason. ACTIVATE makes the other slot the
next-active one once it is Verified. Under SETUP_LOCK both fail with reason 5. Choices of the model it rests on: log 6, 15. -/
def Obligations.FirmwareIsStagedVerifiedThenActivated : Prop :=
  (∀ (s : State) (n : Fin 4), s.noPartner = false → s.setup.lock = true →
    exec (.fwCmdStage n) s = .next ((s.arrives (64 + n)).onLog (fun l => { l with fwState := 3, fwWhy := 5, fwLast := 1 })) ∧
    exec (.fwCmdActivate n) s = .next ((s.arrives (64 + n)).onLog (fun l => { l with fwState := 3, fwWhy := 5, fwLast := 2 }))) ∧
  (∀ (s : State) (n : Fin 4) (tag : Nat), s.noPartner = false → s.setup.lock = false → s.log.fwState ≠ 1 → (s.of n).fwLen ≤ 16777216 →
    s.fenceOk (64 + n) (s.of n).fwAddr (s.of n).fwLen = true → s.freeTag (s.fnLink (64 + n)) = some tag → s.host.asks = [] →
    Gives (.fwCmdStage n) s (fun t =>
      t.log = { s.log with fwState := 1, fwWhy := 0, fwLast := 1 } ∧ t.host.reads = s.host.reads ++
        [{ tag := tag, fn := 64 + n.val, kind := .firmware, addr := (s.of n).fwAddr, len := (s.of n).fwLen, void := false,
           timedOut := false }] ∧ t.out = s.out ++ [.memRead (64 + n) tag (s.of n).fwAddr (s.of n).fwLen])) ∧
  (∀ (s : State) (good : Bool) (svn : BitVec 16) (line : Nat) (r : Bool) (build : BitVec 16), s.log.fwState = 1 →
    Gives (.fwStaged good svn line r build) s (fun t =>
      let why := if good = false then 1 else if svn.toNat < s.log.minSvn then 2 else if line ≠ 4 then 3 else 0
      t.log.fwState = (if why = 0 then 2 else 3) ∧ t.log.fwWhy = why ∧
      t.fwSlot (if s.log.running = 0 then 1 else 0) = { good := good, svn := svn.toNat, line := line, raise := r, build := build.toNat } ∧
      Reports .fwStaged (le 1 (if why = 0 then 2 else 3) ++ le 1 why) s t)) ∧
  (∀ (s : State) (n : Fin 4), s.noPartner = false → s.setup.lock = false → s.log.fwState = 2 →
    exec (.fwCmdActivate n) s = .next ((s.arrives (64 + n)).onLog (fun l => { l with next := 1 - s.log.running, fwLast := 2 })))

/-- The set-up image, the scrub and the ledger (R362, R364, R365, R367, R368). SAVE captures the active set-up for the copy that does not
hold the newest valid generation; its rows are written, and last its trailer under GENERATION and IMAGE_CHECK, with SETUP_IMAGE_SAVED.
A row with an uncorrectable word or a check that fails is reported and marked, and spoils the image copy whose trailer it is. A ledger
entry writes nine rows of region 4. Choices of the model it rests on: log 13, 14. -/
def Obligations.ImageSavesAlternateBetweenTheCopies : Prop :=
  (∀ (s : State) (lock : Bool), s.noPartner = false → s.log.saving = none → exec (.logCmdSave lock) s =
    .next ((s.arrives 64).onLog (fun l => { l with
      logCmd := 1 + (if lock then 4 else 0), saveSt := 1, saveWhy := 0,
      saving := some { isA := decide (s.saveTarget = 1), lock := lock, words := s.setup.active,
                       gen := if s.newestCopy = 0 then 1 else (s.copyGen s.newestCopy + 1) % 2 ^ 32 } }))) ∧
  (∀ s : State, s.newestCopy ≠ 0 → s.saveTarget ≠ s.newestCopy ∧ s.copyGood s.newestCopy = true) ∧
  (∀ (s : State) (lock : Bool), s.noPartner = false → s.log.saving ≠ none → exec (.logCmdSave lock) s =
    .next ((s.arrives 64).onLog (fun l => { l with logCmd := 1 + (if lock then 4 else 0), saveSt := 3, saveWhy := 1 }))) ∧
  (∀ (s : State) (x : SaveJob), s.log.saving = some x → s.supply.braced = false → s.lookout.supRest = false →
    Gives .setupImageSaved s (fun t => t.log.saving = none ∧ t.log.saveSt = 2 ∧ t.log.saveWhy = 0 ∧
      Reports .setupImageSaved (le 4 x.gen ++ le 1 x.copy) s t ∧
      (s.log.badRows = [] → s.log.wornRows = [] → t.memBytes (64 * (copyBase x.copy + 8191)) 64 =
        imageRow (copyBase x.copy + 8191) x.gen (x.trailer (imageBody x.words))))) ∧
  (∀ (s : State) (row : Fin 32768) (c : Bool), s.supRuns = true → Gives (.logbookScrub row c true) s (fun t =>
    (row.val < 16384 → row.val ∈ t.log.badRows ∧ ∀ k, t.trailerRow k = row.val → t.copyGood k = false) ∧
    Reports .logbookCheckFail (le 2 row.val) s t)) ∧
  (∀ (s : State) (row : Fin 32768) (c : Bool) (a : Nat), s.supRuns = true → s.rowAlive row = some a → s.rowChecks row a = false →
    Gives (.logbookScrub row c false) s (Reports .logbookCheckFail (le 2 row.val) s)) ∧
  (∀ (s : State) (row : Fin 32768) (c : Bool), s.supRuns = true → (∀ a, s.rowAlive row = some a → s.rowChecks row a = true) →
    exec (.logbookScrub row c false) s =
      .next (if c then s.onLog (fun l => { l with corrRows := row.val :: l.corrRows.filter (· ≠ row.val) }) else s)) ∧
  (∀ s : State, s.supRuns = true → s.coreRuns = true → s.supply.braced = false → s.log.badRows = [] →
    (s.region 4).head < regionRows 4 → Gives .ledgerEntry s (fun t => Flags s t ∧ t.out = s.out ∧
      (t.region 4).head = ((s.region 4).head + 9) % regionRows 4))

/-- The alert, EVENT_TEST, the SMBus target and the lights (R389, 18_register_map; R393, R397, R399, Tables 19-6 and 19-8,
19_electrical_and_mechanical). ALERT_ACK releases the alert; in Fenced no write arrives, and it stays; the key 0x7E57 raises EVENT_TEST
with the writing OF, another key nothing; a fan that fails has its bit set. The target answers in every mode but Off: STATUS in boot ROM
as well, where STATE reads 7, the other commands only while the Supervisor runs its firmware. The two sensor readings are free (log 17).
Choices of the model it rests on: log 24, 36, 86. -/
def Obligations.TheAlertAndTheSmbusTargetReportTheSled : Prop :=
  (∀ s : State, s.noPartner = false → exec .evAlertAck s = .next ((s.arrives 64).onEvents (fun v => { v with alert := false }))) ∧
  (∀ s : State, s.pair.fenced = true → exec .evAlertAck s = .next s) ∧
  (∀ (s : State) (n : Fin 4), s.noPartner = false →
    Gives (.evTest n 0x7E57) s (Raises .eventTest (le 1 (64 + n.val)) ((s.arrives (64 + n)).wrote 0xF0010 0x7E57))) ∧
  (∀ (s : State) (n : Fin 4) (key : BitVec 16), s.noPartner = false → key ≠ 0x7E57 →
    exec (.evTest n key) s = .next ((s.arrives (64 + n)).wrote 0xF0010 key.toNat)) ∧
  (∀ (s : State) (fan : Fin 5), exec (.fanFailure fan) s = .next (s.onEvents (fun v => { v with fans := Nat.lor v.fans (2 ^ fan.val) }))) ∧
  (∀ s : State, s.power.mode ≠ .off → s.lookout.supRest = false →
    Gives .smbStatus s (fun t => Keeps [.out] s t ∧ ∃ b : BitVec 8, t.out = s.out ++ [.smb [b] (smbPec 1 [b])] ∧
      b.toNat % 8 = (if s.log.bootRom then 7 else if s.pair.fenced then 6 else s.power.mode.code) ∧
      (b.getLsbD 3 = s.alertOut) ∧ (b.getLsbD 4 = s.log.ready) ∧ (b.getLsbD 5 = decide (s.sledCode = 3)) ∧
      (b.getLsbD 6 = decide (s.events.fans ≠ 0)) ∧ (b.getLsbD 7 = s.cellBad)) ∧
    (s.log.bootRom = false →
      exec .smbBulkMv s = .next (s.emit (.smb (le 2 s.supply.nowMv) (smbPec 2 (le 2 s.supply.nowMv)))) ∧
      exec .smbFanFault s = .next (s.emit (.smb (le 1 s.events.fans) (smbPec 5 (le 1 s.events.fans)))) ∧
      exec .smbLogSeq s = .next (s.emit (.smb (le 1 4 ++ le 4 s.log.logSeq) (smbPec 6 (le 1 4 ++ le 4 s.log.logSeq)))) ∧
      exec .smbSerial s = .next (s.emit (.smb (le 1 8 ++ le 8 Config.serial.toNat) (smbPec 7 (le 1 8 ++ le 8 Config.serial.toNat)))) ∧
      exec .smbWake s = .next (s.emit (.smb (le 1 s.power.wakeSrc ++ le 1 s.power.wakeDet)
        (smbPec 8 (le 1 s.power.wakeSrc ++ le 1 s.power.wakeDet)))) ∧
      Gives .smbInletTemp s (fun t => Keeps [.out, .free] s t ∧ t.out = s.out ++
        [.smb (le 1 (Config.inletTemp s.free).toNat) (smbPec 3 (le 1 (Config.inletTemp s.free).toNat))]) ∧
      Gives .smbInputPower s (fun t => Keeps [.out, .free] s t ∧ t.out = s.out ++
        [.smb (le 2 (Config.inputPower s.free).toNat) (smbPec 4 (le 2 (Config.inputPower s.free).toNat))]) ∧
      (s.alertOut = true → Gives .smbAlertResponse s (fun t => Keeps [.out] s t ∧ ∃ p, t.out = s.out ++ [.smb (le 1 0x5C) p])) ∧
      (s.alertOut = false → exec .smbAlertResponse s = .next s))) ∧
  (∀ s : State, s.pair.levels = none → s.power.mode ≠ .deepSleep → s.power.mode ≠ .off →
    (s.lights.pwr = .green ↔ s.power.mode = .run ∨ s.power.mode = .idle) ∧ (s.power.mode = .sleep → s.lights.pwr = .greenHalfHz) ∧
    (s.pair.fenced = true → s.lights.pair = .red ∧ s.lights.attn = .red) ∧
    (s.pair.fenced = false → s.pair.resync ≠ none → s.lights.pair = .amber1Hz) ∧
    (s.pair.fenced = false → s.pair.resync = none → s.lights.pair = if s.paired then .green else .amber) ∧
    (s.pair.fenced = false → s.events.alert = true → s.lights.attn = .amber))

/-! ### Host links, functions and mailboxes (04_host_links) -/

/-- Host links (R79, R81, R83, R99, Table 4-3). DL_Up trains to what the partner offers and the link allows, reports HL_LINK_UP and
brings the link's functions to presence; DL_Down and PERST# reset the link, count, report HL_LINK_DOWN and end the presence of its
functions with cause 3, LINK_DOWN. Errors count in HL_AER_COUNT_n; an uncorrectable one raises HL_AER; malformed and surprise down
take the link down. PTM is answered with TIME64. Choices of the model it rests on: log 47. -/
def Obligations.HostLinksComeUpAndGoDown : Prop :=
  (∀ (s : State) (n : Fin 8) (speed width : Nat), s.linkCan n = true → (s.link n).up = false → 0 < s.trainSpeed n speed →
    0 < s.trainWidth n width → Gives (.hlLinkUp n speed width) s (fun t =>
      t.link n = { up := true, speed := s.trainSpeed n speed, width := s.trainWidth n width, l12 := false } ∧
      s.trainSpeed n speed ≤ s.hlCtrlMaxSpeed (n.val / 2) ∧ s.trainWidth n width ≤ s.fullWidth n ∧ (∀ k, k ≠ n.val → t.link k = s.link k) ∧
      Reports .hlLinkUp (le 1 n.val ++ le 1 (s.trainSpeed n speed) ++ le 1 (s.trainWidth n width)) s t ∧
      ∀ f ∈ s.linkFns n, (s.fn f).state = .absent → (s.fn f).d0 = true → (s.fn f).bme = true → isOf f = true ∨ s.vfOn f = true →
        (t.fn f).state = if s.enabled f then .idle else .disabled)) ∧
  (∀ (s : State) (n : Fin 8) (c : Instr), c = .hlLinkDown n ∨ c = .perstAssert n ∨ c = .aerError n .malformed ∨ c = .aerError n .surpriseDown →
    (s.link n).up = true → Gives c s (fun t => t.link n = LinkSt.init ∧ (∀ k, k ≠ n.val → t.link k = s.link k) ∧
      tget t.linkDown (n.val / 2) = satAdd 32 (tget s.linkDown (n.val / 2)) 1 ∧
      Reports .hlLinkDown (le 1 n.val ++ le 1 (s.link n).speed ++ le 1 (s.link n).width) s t ∧
      (∀ f ∈ s.linkFns n, Ended f 3 s t) ∧ ∀ f, f ∉ s.linkFns n → (t.fn f).state = (s.fn f).state)) ∧
  (∀ (s : State) (n : Fin 8), (s.link n).up = true → exec (.ptmRequest n) s = .next (s.emit (.ptm n s.time64))) ∧
  (∀ (s : State) (n : Fin 8), exec (.unsupportedRequest n) s = .next (s.emit (.unsupported n))) ∧
  (∀ (s : State) (n : Fin 8), Gives (.unexpectedCompletion n) s (Raises .hlAer (le 1 n.val)
    (s.onLinkAer (fun t => tput t (n.val / 2) (satAdd 32 (tget t (n.val / 2)) 1))))) ∧
  (∀ (s : State) (n : Fin 8) (k : AerKind), k = .receiver ∨ k = .badTlp ∨ k = .badDllp ∨ k = .replayRollover ∨ k = .replayTimer →
    exec (.aerError n k) s = .next (s.onLinkAer (fun t => tput t (n.val / 2) (satAdd 32 (tget t (n.val / 2)) 1)))) ∧
  (∀ (s : State) (r : ReadReq), s.readOf r.tag = some r → r.void = false → (s.fn r.fn).state = .enrolled →
    Gives (.completionTimeout r.tag) s (fun t => Ended r.fn 6 s t ∧ Reports .hlAer (le 1 (s.fnLink r.fn)) s t ∧
      ∀ q ∈ t.host.reads, q.tag = r.tag → q.void = true ∧ q.timedOut = true) ∧
    ∀ n : Fin 8, Gives (.aerError n (.poisoned r.tag)) s (fun t => Ended r.fn 6 s t ∧ Reports .hlAer (le 1 n.val) s t ∧
      (s.host.asks = [] → ∀ q ∈ t.host.reads, q.tag ≠ r.tag)))

/-- The end of presence, and release (R80, R81, R82, R87, R97, R98, R101, Table 4-11). A function-level reset ends presence with cause 4
and resets the configuration, of a physical function that of its whole link; VF Disable has cause 0x0A, D3hot 5, Bus Master 0x0B; the
operator's EVICT 8, and it answers ABORTED what its mailbox waits for. A configuration write leaves its bits, and what it makes present
reports FN_PRESENT; a return to D0 leaves the configuration at reset. The end of an eviction leaves the state of Table 4-11 and raises
FN_EVICTED. A vector that is unmasked sends its pending message. Choices of the model it rests on: log 5, 69. -/
def Obligations.PresenceEndsWithItsCause : Prop :=
  (∀ (s : State) (f : Fin 72), Gives (.flr f) s (fun t => (∀ k ∈ s.flrFns f, Ended k 4 s t ∧ (t.fn k).d0 = true ∧ (t.fn k).bme = false ∧
      (t.fn k).msixEn = false ∧ (t.fn k).ro = false) ∧
    (t.fn f).vfEn = false ∧ (t.fn f).numVfs = 0 ∧ (t.fn f).mrrs = 2 ∧ (t.fn f).msixMask = BitVec.allOnes 64)) ∧
  (∀ (s : State) (p : Fin 8) (k : Option (Fin 17)), Gives (.vfDisable p k) s (fun t =>
    (t.fn (pfFn p)).vfEn = (k.isSome && (s.fn (pfFn p)).vfEn) ∧
    (t.fn (pfFn p)).numVfs = (match k with | none => (s.fn (pfFn p)).numVfs | some n => min n.val (s.fn (pfFn p)).numVfs) ∧
    ∀ f ∈ s.linkTfs (pfLink (pfFn p)), (s.vfOn f = true → t.vfOn f = false → Ended f 0x0A s t) ∧
      (s.vfOn f = t.vfOn f → (t.fn f).state = (s.fn f).state))) ∧
  (∀ (s : State) (f : Fin 72), Gives (.d3hotEntry f) s (fun t => (t.fn f).d0 = false ∧
    (f.val < 68 → (s.fn f).d0 = true → Ended f 5 s t))) ∧
  (∀ (s : State) (f : Fin 72), Gives (.busMasterClear f) s (fun t => (t.fn f).bme = false ∧
    (f.val < 68 → (s.fn f).bme = true → Ended f 0x0B s t))) ∧
  (∀ (s : State) (f : Fin 72) (b : CfgBits),
    ((b.d0 = true → (s.fn f).d0 = true) → Gives (.configWrite f b) s (fun t => (t.fn f).d0 = b.d0 ∧ (t.fn f).bme = b.bme ∧
      (t.fn f).msixEn = b.msixEn ∧ (t.fn f).ro = b.ro ∧ (64 ≤ f.val → (t.fn f).vfEn = b.vfEn ∧ (t.fn f).numVfs = b.numVfs.val ∧
        (t.fn f).mrrs = b.mrrs.val) ∧
      (f.val < 68 → b.d0 = false → (s.fn f).d0 = true → Ended f 5 s t) ∧
      (f.val < 68 → b.d0 = true → b.bme = false → (s.fn f).bme = true → Ended f 0x0B s t) ∧
      (f.val < 68 → s.present f = false → t.present f = true →
        ((s.fn f).state = .absent → (t.fn f).state = if s.enabled f then .idle else .disabled) ∧
        ((s.fn f).state = .absent ∨ (s.fn f).state = .evicting ∨ (s.fn f).state = .quarantined → Reports .fnPresent (le 1 f.val) s t)))) ∧
    (b.d0 = true → (s.fn f).d0 = false → Gives (.configWrite f b) s (fun t => (t.fn f).d0 = true ∧ (t.fn f).bme = false ∧
      (t.fn f).msixEn = false ∧ (t.fn f).ro = false ∧ (t.fn f).vfEn = false ∧ (t.fn f).msixMask = BitVec.allOnes 64))) ∧
  (∀ (s : State) (f : Fin 68), s.noPartner = false → s.partnerHeld [2, 5] = false →
    ((s.fn f).state = .enrolled ∨ (s.fn f).state = .checking → Gives (.fnCmdEvict f) s (fun t => Ended f 8 s t ∧
      ((s.fn f).busy = true → Answered f (s.fn f).goOp (s.fn f).goSeq 0x0A 0 t))) ∧
    ((s.fn f).state = .quarantined → Gives (.fnCmdRelease f) s (fun t => ∃ u, Raises .fnReleased (le 1 f.val)
      ((s.endIdle.wrote 0x4A00 (f.val + 512)).setFn f (fun q =>
        { q with state := if s.present f = false then .absent else if s.enabled f = false then .disabled else .idle, fenceN := 0 })) u ∧
      t = u.partnerWake 64))) ∧
  (∀ (s : State) (f : Fin 68), (s.fn f).state = .evicting → (s.fn f).wait = none ∨ (s.fn f).wait = some .leave →
    Gives (.evictionComplete f) s (fun t =>
      (t.fn f).state = (if (s.fn f).evCause = 7 then .quarantined else if s.present f = false then .absent
        else if s.enabled f = false then .disabled else .idle) ∧ (t.fn f).cause = (s.fn f).evCause ∧
      (t.fn f).grantTx = 0 ∧ (t.fn f).grantRx = 0 ∧ (t.fn f).grantCq = 0 ∧
      Reports .fnEvicted (le 1 f.val ++ le 1 (s.fn f).evCause ++ le 8 (s.fn f).evT0) s t ∧
      ((s.fn f).wait = some .leave → Answered f (s.fn f).goOp (s.fn f).goSeq 0 0 t))) ∧
  (∀ (s : State) (f : Fin 68) (dw : Fin 256) (x : Word), s.noPartner = false → dw.val / 4 < vectors f →
    Gives (.msixVectorUnmask f dw x) s (fun t =>
      let v := dw.val / 4
      let n := (s.fn f).msixEntry v (dw.val % 4) x.toNat
      (t.fn f).msixMask = n.msixMask ∧ (t.fn f).msixAddr = n.msixAddr ∧ (t.fn f).msixData = n.msixData ∧
      (dw.val % 4 = 3 → (t.fn f).msixMask.getLsbD v = x.getLsbD 0) ∧
      ((s.fn f).msixEn = true → n.msixMask.getLsbD v = false → (s.fn f).msixPend.getLsbD v = true →
        (t.fn f).msixPend.getLsbD v = false ∧ (s.pair.levels = none →
          ∃ l, t.out = s.out ++ l ∧ Out.msix f v (tget n.msixAddr v) (tget n.msixData v) ∈ l)) ∧
      ((s.fn f).msixEn = false → (t.fn f).msixPend = (s.fn f).msixPend ∧ t.out = s.out)))

/-- The mailbox (R85, R86, R88 to R92, R101). ENROL of an Idle function reads the record under its fences; of an Enrolled one evicts it
with cause 2 first; any other is answered 7. The first failing test of Table 4-10 refuses the record; where none does, success gives
FN_GEN, the grants and Enrolled at the end of the J-cycle, unless an eviction trigger of that J-cycle wins. LEAVE evicts an Enrolled
function with cause 1. QUERY answers FN_STATE, FN_GEN and the last cause. A request that fails its CRC is answered 1, unclean fields 2,
an unknown opcode 9; one that comes out of turn is ignored and counted. What an engine change or an isolated island holds changes no
function. Choices of the model it rests on: log 6, 68. -/
def Obligations.MailboxRequestsAreTestedInOrder : Prop :=
  (∀ (s : State) (f : Fin 68) (go : BitVec 8) (req : MbxReq), Posted 1 f go req s →
    ((s.fn f).state = .idle → req.op0.toNat % 64 = 0 → req.op1 = 0 → s.fenceOk f req.op0.toNat 64 = true → Gives (.enrol f go req) s (fun t =>
      (t.fn f).state = .checking ∧ (t.fn f).busy = true ∧ (t.fn f).goSeq = go.toNat ∧ (t.fn f).goOp = 1 ∧ (t.fn f).wait = some .enrol ∧
      (∀ tag, s.freeTag (s.fnLink f) = some tag → s.host.asks = [] → t.out = s.out ++ [.memRead f tag req.op0.toNat 64] ∧
        t.host.reads = s.host.reads ++
          [{ tag := tag, fn := f, kind := .enrol, addr := req.op0.toNat, len := 64, void := false, timedOut := false }]) ∧
      (s.freeTag (s.fnLink f) = none →
        t.host.asks = s.host.asks ++ [{ fn := f, kind := .enrol, addr := req.op0.toNat, len := 64 }]))) ∧
    ((s.fn f).state = .idle → req.op0.toNat % 64 ≠ 0 ∨ req.op1 ≠ 0 → Gives (.enrol f go req) s (fun t =>
      (t.fn f).state = .idle ∧ Answered f 1 go.toNat 2 0 t ∧ Reports .fnEnrolRefused (le 1 f.val ++ le 1 2) s t)) ∧
    ((s.fn f).state = .idle → req.op0.toNat % 64 = 0 → req.op1 = 0 → s.fenceOk f req.op0.toNat 64 = false →
      Gives (.enrol f go req) s (fun t => Answered f 1 go.toNat 6 0 t ∧ Counted .fenceViolation 0 f 1 s t ∧
        Reports .fnEnrolRefused (le 1 f.val ++ le 1 6) s t)) ∧
    ((s.fn f).state = .enrolled → Gives (.enrol f go req) s (fun t => Ended f 2 s t ∧
      (t.fn f).wait = some (.reenrol req.op0.toNat req.op1.toNat) ∧ (t.fn f).busy = true)) ∧
    ((s.fn f).state = .disabled ∨ (s.fn f).state = .quarantined → Gives (.enrol f go req) s (fun t =>
      (t.fn f).state = (s.fn f).state ∧ Answered f 1 go.toNat 7 0 t ∧ Reports .fnEnrolRefused (le 1 f.val ++ le 1 7) s t))) ∧
  (∀ (s : State) (f : Fin 68) (d : Bytes), s.enrolReading f = true → d.length = 64 →
    (s.unitNow = true → s.enrolStatus f d = 0 → Gives (.enrolReadDone f true d) s (fun t =>
      (t.fn f).state = .checking ∧ (t.fn f).wait = some (.enrolled d) ∧ (t.fn f).goOp = (s.fn f).goOp ∧
      (t.fn f).goSeq = (s.fn f).goSeq ∧ (t.fn f).busy = (s.fn f).busy ∧
      ((s.fn f).busy = true → ∃ u, step { t with pending := [] } = .next u ∧ Enrols f d s u))) ∧
    (∀ good : Bool, good = false ∨ (s.unitNow = true ∧ s.enrolStatus f d ≠ 0) → Gives (.enrolReadDone f good d) s (fun t =>
      (t.fn f).state = .idle ∧ Answered f (s.fn f).goOp (s.fn f).goSeq (if good then s.enrolStatus f d else 8) 0 t ∧
      Reports .fnEnrolRefused (le 1 f.val ++ le 1 (if good then s.enrolStatus f d else 8)) s t)) ∧
    (s.unitNow = false → Gives (.enrolReadDone f true d) s (fun t => (t.fn f).state = .checking ∧
      t.host.msgs = s.host.msgs ++ [({ fn := f, kind := .enrol, data := d } : Msg)]))) ∧
  (∀ (s : State) (f : Fin 68) (d : Bytes), s.pending = [] → (s.fn f).busy = true → (s.fn f).wait = some (.enrolled d) →
    ∃ t, step s = .next t ∧ Enrols f d s t) ∧
  (∀ (s : State) (f : Fin 68) (go : BitVec 8) (req : MbxReq), Posted 2 f go req s →
    ((s.fn f).state = .enrolled → req.op0 = 0 → req.op1 = 0 → Gives (.leave f go req) s (fun t =>
      Ended f 1 s t ∧ (t.fn f).wait = some .leave ∧ (t.fn f).busy = true ∧ (t.fn f).goOp = 2 ∧ (t.fn f).goSeq = go.toNat)) ∧
    ((s.fn f).state = .enrolled → req.op0 ≠ 0 ∨ req.op1 ≠ 0 → Gives (.leave f go req) s (fun t =>
      (t.fn f).state = .enrolled ∧ Answered f 2 go.toNat 2 0 t)) ∧
    ((s.fn f).state = .disabled ∨ (s.fn f).state = .quarantined → Gives (.leave f go req) s (Answered f 2 go.toNat 7 0)) ∧
    ((s.fn f).state = .idle → Gives (.leave f go req) s (Answered f 2 go.toNat 0x0B 0))) ∧
  (∀ (s : State) (f : Fin 68) (go : BitVec 8) (req : MbxReq), Posted req.opcode.toNat f go req s →
    (req.opcode = 3 → req.op0 = 0 → req.op1 = 0 → Gives (.query f go req) s (fun t => (t.fn f).state = (s.fn f).state ∧
      Answered f 3 go.toNat 0 ((s.fn f).state.code + (s.fn f).gen * 2 ^ 8 + (s.fn f).cause * 2 ^ 16) t)) ∧
    (req.opcode = 3 → req.op0 ≠ 0 ∨ req.op1 ≠ 0 → Gives (.query f go req) s (Answered f 3 go.toNat 2 0)) ∧
    (req.opcode = 0 ∨ (3 < req.opcode.toNat ∧ req.opcode.toNat < 0x10) ∨ 0x14 < req.opcode.toNat →
      Gives (.query f go req) s (Answered f req.opcode.toNat go.toNat 9 0))) ∧
  (∀ (s : State) (f : Fin 68) (go : BitVec 8) (req : MbxReq) (c : Instr) (op : Nat), Requests c f go req op →
    (Latched f go s → req.check.toNat ≠ mbxWant f (mbxWithOp req op) → Gives c s (fun t => Answered f op go.toNat 1 0 t ∧
      Counted .fnCheckFail 0 f 1 s t)) ∧
    (Latched f go s → req.check.toNat = mbxWant f (mbxWithOp req op) → req.seq ≠ go ∨ req.status ≠ 0 ∨ req.rsv ≠ 0 →
      Gives c s (Answered f op go.toNat 2 0)) ∧
    (s.noPartner = false → s.partnerHeld [2, 5] = false →
      s.present f = false ∨ (s.fn f).state = .evicting ∨ (s.fn f).busy = true ∨ go.toNat ≠ ((s.fn f).replySeq + 1) % 256 ∨
        s.lookout.restart = true → Gives c s (fun t => ∃ u, Counts .mbxIgnored 0 f 1
          ((mbxWords (mbxWithOp req op)).foldl (fun x w => x.recordPut f w.1 w.2) (s.endIdle.wroteGo f go.toNat)) u ∧
          t = u.partnerWake f)) ∧
    (s.noPartner = false → s.partnerHeld [2, 5] = true → Gives c s (fun t => t.host = s.host ∧ t.tx = s.tx ∧ t.rx = s.rx ∧ t.cq = s.cq ∧
      ∀ k, (t.fn k).sans = (s.fn k).sans)))

/-- Rings (R103, R105, R106, R86). A create that no test refuses makes the ring with every position at lap 1, index 0, raises
RING_CREATED and answers the sled-wide number; a refusal makes none, and one for the fences counts a violation after its reply.
RING_DESTROY closes the ring; once nothing of it is in flight it is gone, with RING_DESTROYED and the reply. Choices of the model it
rests on: log 40. -/
def Obligations.RingsAreMadeAndDestroyedByMailbox : Prop :=
  (∀ (s : State) (f : Fin 68) (go : BitVec 8) (req : MbxReq), Posted 0x10 f go req s →
    s.createStatus f 0x10 req.op0.toNat req.op1.toNat = 0 → Gives (.txrCreate f go req) s (fun t =>
      let a := ringAsk req.op1.toNat
      let n := s.ringAllocTxBase f + a.loc
      t.txr n = { TxRing.init with state := .active, fn := f, base := req.op0.toNat, size := a.size, cq := s.ringAllocCqBase f + a.cq,
                                   inst := a.inst, cls := a.cls, c := ringN a.size, h := ringN a.size, f := ringN a.size,
                                   commit := ringN a.size } ∧
      (∀ k, k ≠ n → t.txr k = s.txr k) ∧ Answered f 0x10 go.toNat 0 n t ∧ Reports .ringCreated (ringPayload f 0 n) s t)) ∧
  (∀ (s : State) (f : Fin 68) (go : BitVec 8) (req : MbxReq), Posted 0x11 f go req s →
    s.createStatus f 0x11 req.op0.toNat req.op1.toNat = 0 → Gives (.rxrCreate f go req) s (fun t =>
      let a := ringAsk req.op1.toNat
      let n := s.ringAllocRxBase f + a.loc
      t.rxr n = { RxRing.init with state := .active, fn := f, base := req.op0.toNat, size := a.size, cq := s.ringAllocCqBase f + a.cq,
                                   early := a.early, c := ringN a.size, h := ringN a.size, f := ringN a.size } ∧
      (∀ k, k ≠ n → t.rxr k = s.rxr k) ∧ Answered f 0x11 go.toNat 0 n t ∧ Reports .ringCreated (ringPayload f 1 n) s t)) ∧
  (∀ (s : State) (f : Fin 68) (go : BitVec 8) (req : MbxReq), Posted 0x12 f go req s →
    s.createStatus f 0x12 req.op0.toNat req.op1.toNat = 0 → Gives (.cqCreate f go req) s (fun t =>
      let a := ringAsk req.op1.toNat
      let n := s.ringAllocCqBase f + a.loc
      t.cqr n = { CqRing.init with state := .active, fn := f, base := req.op0.toNat, size := a.size, vector := a.vector,
                                   modCount := a.modCount, modTime := a.modTime, w := ringN a.size, c := ringN a.size } ∧
      (∀ k, k ≠ n → t.cqr k = s.cqr k) ∧ Answered f 0x12 go.toNat 0 n t ∧ Reports .ringCreated (ringPayload f 2 n) s t)) ∧
  (∀ (s : State) (f : Fin 68) (go : BitVec 8) (req : MbxReq), Posted 0x13 f go req s →
    s.createStatus f 0x13 req.op0.toNat req.op1.toNat = 0 → Gives (.evrCreate f go req) s (fun t =>
      (t.evr (f.val - 64)).state = .active ∧ (t.evr (f.val - 64)).base = req.op0.toNat ∧ (t.evr (f.val - 64)).size = (ringAsk req.op1.toNat).size ∧
      (t.evr (f.val - 64)).vector = (ringAsk req.op1.toNat).vector ∧ (t.evr (f.val - 64)).c = ringN (ringAsk req.op1.toNat).size ∧
      Answered f 0x13 go.toNat 0 (f.val - 64) t ∧ Reports .ringCreated (ringPayload f 3 (f.val - 64)) s t)) ∧
  (∀ (s : State) (f : Fin 68) (go : BitVec 8) (req : MbxReq) (c : Instr) (op : Nat), Requests c f go req op → 0x10 ≤ op → op ≤ 0x13 →
    Posted op f go req s →
    (s.createStatus f op req.op0.toNat req.op1.toNat ≠ 0 → s.createStatus f op req.op0.toNat req.op1.toNat ≠ 6 →
      Gives c s (fun t => Keeps [.setup, .fns, .watch, .supply, .power, .tether, .events, .out] s t ∧
        Answered f op go.toNat (s.createStatus f op req.op0.toNat req.op1.toNat) 0 t)) ∧
    (s.createStatus f op req.op0.toNat req.op1.toNat = 6 → Gives c s (fun t => Answered f op go.toNat 6 0 t ∧
      Counted .fenceViolation 0 f 1 s t))) ∧
  (∀ (s : State) (f : Fin 68) (go : BitVec 8) (req : MbxReq), Posted 0x14 f go req s →
    (s.destroyStatus f req.op0.toNat req.op1.toNat = 0 → Gives (.ringDestroy f go req) s (fun t =>
      let kind := bits req.op0.toNat 0 2
      t.ringState f kind (s.ringNumber f kind (bits req.op0.toNat 2 5)) = .closing ∧
      (t.fn f).wait = some (.destroy kind (bits req.op0.toNat 2 5)) ∧ (t.fn f).busy = true)) ∧
    (s.destroyStatus f req.op0.toNat req.op1.toNat ≠ 0 → Gives (.ringDestroy f go req) s
      (Answered f 0x14 go.toNat (s.destroyStatus f req.op0.toNat req.op1.toNat) 0))) ∧
  (∀ (s : State) (f : Fin 68) (kind loc : Nat), kind < 4 → (s.fn f).wait = some (.destroy kind loc) →
    s.ringIdle kind (s.ringNumber f kind loc) = true → s.lookout.restart = false → s.partnerHeld [2, 5] = false →
      Gives (.ringDestroyDone f) s (fun t =>
        t.ringState f kind (s.ringNumber f kind loc) = .unused ∧ Answered f (s.fn f).goOp (s.fn f).goSeq 0 0 t ∧
        Reports .ringDestroyed (ringPayload f kind (s.ringNumber f kind loc)) s t))

/-! ### Doorbells, descriptors and check-value units (05_rings_and_doorbells, 03_check_values) -/

/-- Doorbells (R107 to R109, R114, R118, Table 5-4). The first row that applies decides: not Enrolled is counted only; a bad format,
ring, index or position is counted and DB_REJECTED raised once a second; a repeat is counted; an accepted one is counted and moves H
of a transmit or receive ring, C of a queue or event ring, or withdraws the sends of a recall that are not granted. ARM arms the
queue, which signals and disarms at once where a condition of R114 is met. One that an engine change or an isolated island holds
waits, in order of arrival. Choices of the model it rests on: log 58. -/
def Obligations.DoorbellsMeetTheFirstRowThatApplies : Prop :=
  ∀ (s : State) (c : Instr) (f : Fin 68) (whole : Bool) (k : DbKind) (v : BitVec 64), Rung c f whole k v → s.noPartner = false →
    (s.partnerHeld [2] = true → exec c s = .next ((s.endIdle.hold (.doorbell f k.page whole v.toNat)).partnerWake f)) ∧
    (s.partnerHeld [2] = false →
      (s.dbRow f k whole v.toNat = 1 → Gives c s (fun t => ∃ u, Counts .dbNotEnrolled 0 f 1 (s.endIdle.recordUse f 8) u ∧
        t = u.partnerWake f)) ∧
      (∀ row, s.dbRow f k whole v.toNat = row → 2 ≤ row → row ≤ 5 → Gives c s (fun t => ∃ u w,
        Counts (if row = 2 then .dbBadFormat else if row = 3 then .dbNotOwned else if row = 4 then .dbBadIndex else .dbBadLap) 0 f 1
          (s.endIdle.recordUse f 8) u ∧
        RaisesOnce .dbRejected f (le 1 f.val ++ le 8 v.toNat ++ le 1 row) u w ∧ t = w.partnerWake f)) ∧
      (s.dbRow f k whole v.toNat = 6 → Gives c s (fun t => ∃ u, Counts
        (match k with | .tx => .txDbRepeat | .rx => .rxDbRepeat | .cq => .cqDbRepeat | .evr => .ofDbRepeat) 0 (bits v.toNat 0 10) 1
        (s.endIdle.recordUse f 8) u ∧ t = u.partnerWake f)) ∧
      (s.dbRow f k whole v.toNat = 7 →
        let ring := bits v.toNat 0 10
        let pos := bits v.toNat 26 8 * (s.dbRing f k ring).n + bits v.toNat 10 16
        (k = .tx → bit v.toNat 34 = false → Gives c s (fun t => ∃ u, Counts .txDbAccepted 0 ring 1 (s.endIdle.recordUse f 8) u ∧
          t = (u.setTxr ring (fun r => { r with h := pos })).partnerWake f)) ∧
        (k = .rx → Gives c s (fun t => ∃ u, Counts .rxDbAccepted 0 ring 1 (s.endIdle.recordUse f 8) u ∧
          t = (u.setRxr ring (fun r => { r with h := pos })).partnerWake f)) ∧
        (k = .tx → bit v.toNat 34 = true → (s.txr ring).cur = [] → (∀ x ∈ (s.txr ring).sends, x.reissue = false) → Gives c s (fun t =>
          (t.txr ring).h = (s.txr ring).h ∧ ∀ x ∈ (t.txr ring).sends, (∃ d ∈ x.descs,
            dist (ringN (s.txr ring).size) pos d.pos < dist (ringN (s.txr ring).size) pos (s.txr ring).h) →
              x.st ≠ .reads ∧ x.st ≠ .filling ∧ x.st ≠ .ready ∧ (x.st = .done → x.status < 6 ∨ 8 < x.status))) ∧
        (k = .cq → Gives c s (fun t => (t.cqr ring).c = pos ∧ (t.cqr ring).size = (s.cqr ring).size)) ∧
        (k = .cq → (∀ e ∈ s.tx, e.2.cq ≠ ring) → (∀ e ∈ s.rx, e.2.cq ≠ ring) → Gives c s (fun t =>
          let q := { s.cqr ring with c := pos, armed := (s.cqr ring).armed || bit v.toNat 35 }
          t.cqr ring = if s.signalDue q then { q with armed := false, unsig := 0, tSum := 0 } else q)) ∧
        (k = .evr → Gives c s (fun t => (t.evr ring).c = pos ∧ (t.evr ring).size = (s.evr ring).size))))

/-- Descriptors on their way (R65, R68, R69, R72, R79, R109, R110, R136, R404). A fetch takes the slots up to H, the end of the ring or
the partner's read size, in one read, or waits for a tag; its completion brings them to the descriptor cache; the next function's
message takes the lowest free unit, which holds its running register; a failed check is counted; a whole checked send waits for its
buffers, whose reads are issued as the Hamper has room, none above the partner's read size and none across 4 KiB. A mailbox or
enrolment record that waited for a unit goes on like one that did not. The MOD_TIME window of an armed queue signals it. Choices of
the model it rests on: log 6, 70. -/
def Obligations.DescriptorsAreFetchedCheckedAndTurnedIntoSends : Prop :=
  (∀ (s : State) (n : Fin 640), s.idleEngine [2] = false → (s.txr n).state = .active → (s.txr n).f ≠ (s.txr n).h →
    Gives (.descriptorFetch false n) s (fun t =>
      let r := s.txr n
      let k := min (min (dist (ringN r.size) r.f r.h) (ringN r.size - posIndex (ringN r.size) r.f)) (max 1 (s.maxRead r.fn / 32))
      t.txr n = { r with f := advance (ringN r.size) r.f k } ∧
      (∀ tag, s.freeTag (s.fnLink r.fn) = some tag → s.host.asks = [] → t.host.reads = s.host.reads ++
        [{ tag := tag, fn := r.fn, kind := .txDesc n r.f k, addr := r.base + 32 * posIndex (ringN r.size) r.f,
           len := 32 * k, void := false, timedOut := false }]) ∧
      (s.freeTag (s.fnLink r.fn) = none → t.host.asks = s.host.asks ++
        [{ fn := r.fn, kind := .txDesc n r.f k, addr := r.base + 32 * posIndex (ringN r.size) r.f, len := 32 * k }]))) ∧
  (∀ (s : State) (n : Fin 640), s.idleEngine [2] = false → (s.rxr n).state = .active → (s.rxr n).f ≠ (s.rxr n).h →
    Gives (.descriptorFetch true n) s (fun t =>
      let r := s.rxr n
      let k := min (min (dist (ringN r.size) r.f r.h) (ringN r.size - posIndex (ringN r.size) r.f)) (max 1 (s.maxRead r.fn / 16))
      t.rxr n = { r with f := advance (ringN r.size) r.f k } ∧
      ∀ tag, s.freeTag (s.fnLink r.fn) = some tag → s.host.asks = [] → t.host.reads = s.host.reads ++
        [{ tag := tag, fn := r.fn, kind := .rxDesc n r.f k, addr := r.base + 16 * posIndex (ringN r.size) r.f,
           len := 16 * k, void := false, timedOut := false }])) ∧
  (∀ (s : State) (r : ReadReq) (ring pos k : Nat) (d : Bytes), s.readOf r.tag = some r → r.void = false → r.kind = .txDesc ring pos k →
    s.host.asks = [] → Gives (.readCompletion r.tag true d) s (fun t => t.host.reads = s.host.reads.filter (fun q => q.tag ≠ r.tag) ∧
      t.host.msgs = s.host.msgs ++ (List.range k).map (fun i =>
        let p := advance (ringN (s.txr ring).size) pos i
        ({ fn := r.fn, kind := .tx ring p, data := padTo 32 (slice d (32 * i) 32) } : Msg)))) ∧
  (∀ (s : State) (r : ReadReq) (good : Bool) (d : Bytes), s.readOf r.tag = some r → r.void = true → r.timedOut = false →
    s.host.asks = [] → exec (.readCompletion r.tag good d) s =
      .next (s.onHost (fun h => { h with reads := h.reads.filter (fun q => q.tag ≠ r.tag) }))) ∧
  (∀ (s : State) (r : ReadReq) (d : Bytes), s.readOf r.tag = some r → r.void = false → r.kind ≠ .enrol → (s.fn r.fn).state = .enrolled →
    Gives (.readCompletion r.tag false d) s (Ended r.fn 6 s)) ∧
  (∀ (s : State) (m : Msg) (u : Nat), s.nextMsg = some m → s.freeUnit = some u → Gives .cvuAssign s (fun t => Keeps [.host] s t ∧
    Tbl.find t.host.units u = some { msg := m, reg := s.msgWant m } ∧ t.host.msgs = dropMsg m s.host.msgs ∧ t.host.lastFn = m.fn)) ∧
  (∀ (s : State) (u : Fin 16) (x : Cvu) (ring pos : Nat), s.idleEngine [2] = false → Tbl.find s.host.units u = some x →
    x.msg.kind = .tx ring pos → ring < 1024 → (s.txr ring).fn < 68 →
    (leAt x.msg.data 30 2 ≠ x.reg → Gives (.checkDone u) s (fun t => Tbl.find t.host.units u = none ∧
      Counted .txRingCheckFail 0 ring 1 s t)) ∧
    (leAt x.msg.data 30 2 = x.reg → (s.txr ring).state = .active → (s.txr ring).fn = x.msg.fn → (s.txr ring).sends = [] →
      (s.txr ring).cur = [] → (s.txr ring).recalls = [] → (s.txr ring).reTo = none → (s.txr ring).c = pos →
      bit (leAt x.msg.data 10 2) 0 = true → descsOk [txDescOf pos x.msg.data true] true = true →
      sendOk [txDescOf pos x.msg.data true] = true → s.fenceOk x.msg.fn (leAt x.msg.data 0 8) (leAt x.msg.data 8 2) = true →
      Gives (.checkDone u) s (fun t => Tbl.find t.host.units u = none ∧ (t.txr ring).cur = [] ∧
        (t.txr ring).sends = [Send.of [txDescOf pos x.msg.data true] .reads 0]))) ∧
  (∀ (s : State) (u : Fin 16) (x : Cvu) (ring pos : Nat), s.idleEngine [2] = false → Tbl.find s.host.units u = some x →
    x.msg.kind = .rx ring pos → ring < 1024 → leAt x.msg.data 14 2 ≠ x.reg → Gives (.checkDone u) s (Counted .rxRingCheckFail 0 ring 1 s)) ∧
  (∀ (s : State) (u : Fin 16) (x : Cvu), s.idleEngine [2] = false → Tbl.find s.host.units u = some x →
    (∀ req, x.msg.kind = .mailbox req → req.check.toNat ≠ x.reg →
      Gives (.checkDone u) s (Answered x.msg.fn (s.fn x.msg.fn).goOp (s.fn x.msg.fn).goSeq 1 0)) ∧
    (x.msg.kind = .enrol → s.enrolStatus x.msg.fn x.msg.data = 0 →
      Gives (.checkDone u) s (fun t => (t.fn x.msg.fn).wait = some (.enrolled x.msg.data)))) ∧
  (∀ (s : State) (n : Fin 640) (x : Send), (s.txr n).sends.find? (fun x => x.st = .reads) = some x → (s.txr n).state = .active →
    s.idleEngine [2, 3] = false → s.txHeld (s.txr n).fn + x.bytes ≤ s.fnTxHold (s.txr n).fn * 4096 → cellsOf x.bytes ≤ s.poolFree →
    Gives (.txBufferRead n) s (fun t =>
      t.txr n = { s.txr n with sends := (s.txr n).sends.map (fun y => if y.first = x.first then { y with st := .filling } else y) } ∧
      (∀ q ∈ t.host.reads, q ∈ s.host.reads ∨ (q.fn = (s.txr n).fn ∧ q.void = false ∧ q.len ≤ s.maxRead (s.txr n).fn ∧
        q.addr % 4096 + q.len ≤ 4096)) ∧
      (∀ d, x.descs = [d] → 0 < d.len → d.len ≤ s.maxRead (s.txr n).fn → d.addr % 4096 + d.len ≤ 4096 → s.host.asks = [] →
        ∀ tag, s.freeTag (s.fnLink (s.txr n).fn) = some tag → t.out = s.out ++ [.memRead (s.txr n).fn tag d.addr d.len]))) ∧
  (∀ (s : State) (q : Fin 256), s.idleEngine [2] = false → (s.cqr q).armed = true → 0 < (s.cqr q).unsig →
    (s.cqr q).t1 + (s.cqr q).t1Len ≤ s.time.elapsed → Gives (.cqModTime q) s (fun t =>
      t.cqr q = { s.cqr q with armed := false, unsig := 0, tSum := 0 } ∧
      ((s.fn (s.cqr q).fn).msixEn = true → (s.fn (s.cqr q).fn).msixMask.getLsbD (s.cqr q).vector = false → s.pair.levels = none →
        t.out = s.out ++ [.msix (s.cqr q).fn (s.cqr q).vector (tget (s.fn (s.cqr q).fn).msixAddr (s.cqr q).vector)
          (tget (s.fn (s.cqr q).fn).msixData (s.cqr q).vector)])))

/-! ### Transmit (06_transmit) -/

/-- The grant (R130, R131, R134, R135, R197). On an instance that is Up with nothing current and no control frame waiting, the only
candidate of the highest class with one is granted once its class is open and credit, tokens and quantum let it: it becomes the current
frame, for the instant at which the link can carry it. Choices of the model it rests on: log 7, 39, 75. -/
def Obligations.TheHighestOpenClassIsGranted : Prop :=
  ∀ (s : State) (m : Fin 16) (ready c : Nat) (y : Cand), s.canGrant m = true → s.instExists m = true → (s.mac m).link = .up →
    (s.sch m).cur = none → (s.sch m).ctrl = [] → c < 8 → (∀ d, c < d → d < 8 → s.cands m d = []) → s.cands m c = [y] → y.fn < 68 →
    (∃ x ∈ (s.txr y.ring).sends, x.first = y.first) →
    s.tokenOk y.fn = true → y.len ≤ s.fnTxQuantum y.fn → (s.settle m).classOpen m c (s.departAt m ready) = true →
    (∀ k, (s.gated m).closeOf c (s.departAt m ready) = some k → fits (s.departAt m ready) y.len (s.rate m) k = true) →
    Gives (.grant m ready) s (fun t => ∃ f : CurFrame, (t.sch m).cur = some f ∧ f.ring = y.ring ∧ f.first = y.first ∧ f.seg = y.seg ∧
      f.cls = c ∧ f.fn = y.fn ∧ f.at_ = s.departAt m ready ∧ f.start = s.startAt m ready ∧ f.quiet = false ∧ f.held = false)

/-- Departures, gates and link idle (R51, R61, R98, R131, R139, R140, R143, R201, R202, R216). The current frame leaves on the wire with
its FCS, a one-step Sync with its departure written into it, is counted for its class, instance and function, and the instance is free
after the frame, preamble and gap; a one-step request that is not honoured counts once for its send. A pending gate list becomes the
operating one at its start. Entry signalling begins once nothing has wanted the wire for LPI_IDLE, and LPI is counted when it ends; a
gate that is about to open wakes the link early. Choices of the model it rests on: log 54, 55, 76. -/
def Obligations.FramesDepartUnderTheirGates : Prop :=
  (∀ (s : State) (m : Fin 16) (f : CurFrame), (s.sch m).cur = some f → f.held = false → s.pair.verdict = false → f.cls < 8 → f.fn < 68 →
    f.ring < 1024 → Gives (.frameDeparture m) s (fun t =>
      let one := if bit f.flags 2 = true ∧ bit f.flags 3 = false ∧ bit s.tsOnestepEnEn m = true then oneStep f.bytes (s.txStamp m f.at_) else none
      (t.sch m).cur = none ∧
      (t.sch m).free = f.start + bitsU ((8 + (f.bytes.length + 4) + 12) * 8) (s.rate m) ∧
      Counted .txFrames f.cls m 1 s t ∧ Counted .txOctets f.cls m (f.bytes.length + 4) s t ∧ Counted .fnTxFrames 0 f.fn 1 s t ∧
      (bit f.flags 2 = true → one = none → f.seg = 0 → Counted .onestepSkip 0 m 1 s t) ∧
      ∃ l, t.out = s.out ++ l ∧ Out.wire m f.at_ (withFcs (one.getD f.bytes)) ∈ l)) ∧
  (∀ (s : State) (m : Fin 16), Gives (.gateEvent m) s (fun t => Keeps [.sched] s t ∧ (t.sch m).gates = (s.gated m).gatesAt s.time.now ∧
    (t.sch m).cur = (s.sch m).cur ∧ ∀ k, k ≠ m.val → t.sch k = s.sch k)) ∧
  (∀ (s : State) (m : Fin 16) (g : GateList), (s.sch m).pend = some g → Gives (.gclApplied m) s (fun t => (t.sch m).oper = some g ∧
    (t.sch m).pend = none ∧ (t.sch m).gates = (t.gated m).gatesAt s.time.now ∧
    Reports .gclApplied (le 1 m.val ++ le 8 (time64Of g.start)) s t)) ∧
  (∀ (s : State) (m : Fin 16), (s.mac m).txLpi = true ∨ (s.mac m).entering.isSome = true → (s.sch m).wakeReq = none →
    (∃ c < 8, s.opensSoon m c = true) → Gives (.txEarlyWake m) s (Counts .txEarlyWake 0 m 1
      ((s.setSch m (fun x => { x with wakeReq := some s.time.elapsed })).setMac m (fun x => { x with entering := none })))) ∧
  (∀ (s : State) (m : Fin 16) (t0 len : Nat), s.lpiIdles m = true → (s.sch m).idle = some (t0, len) → t0 + len ≤ s.time.elapsed →
    exec (.lpiEntry m false) s = .next ((s.setMac m (fun x =>
      { x with entering := some (s.time.elapsed + (Config.lpiSleep (s.rate m / 1000) x.fec).toNat * uNs) })).setSch m
        (fun x => { x with idle := none, wakeReq := none }))) ∧
  (∀ (s : State) (m : Fin 16), (s.mac m).link = .up → (s.mac m).lpiCap = true → (s.mac m).rxLpi = false →
    exec (.lpiEntry m true) s = .next (s.setMac m (fun x => { x with rxLpi := true, rxLpiAt := s.time.elapsed }))) ∧
  (∀ (s : State) (m : Fin 16) (e : Nat), s.pending = [] → (s.mac m).entering = some e → e ≤ s.time.elapsed →
    ∃ t, step s = .next t ∧ (t.mac m).txLpi = true ∧ (t.mac m).entering = none ∧ Counted .txLpiEntries 0 m 1 s t)

/-! ### Receive (07_receive) and the flow table -/

/-- A received frame (R158, R160, R161, R163, R169, R172, R117, R188, R191; R192, R193, 08_the_wire; R239, 10_engine_pair). Bad starts
and runts are counted only, and so is a frame that a Down cuts short. A good frame that exactly one Enrolled function takes, each of
whose cells passes the shared test, is held in the Hamper and waits on its ring in arrival order; one that nobody takes is counted as
unmatched. A PAUSE that is honoured reaches all classes 40 ns later; bad, unexpected and unknown MAC control frames are counted. The
FEC decoder counts its codewords. While lane words go to the hold buffer, the frame waits there with its timestamp. Choices of the
model it rests on: log 6, 39, 66. -/
def Obligations.ReceivedFramesAreHeldOrCounted : Prop :=
  (∀ (s : State) (m : Fin 16) (x : RxFrame), Reaches m s →
    (x.sofGood = false → Gives (.frameReceived m x) s (Counts .rxBadSof 0 m 1 (s.loaded m x))) ∧
    (x.sofGood = true → x.bytes.length + 4 ≤ 63 → Gives (.frameReceived m x) s (Counts .rxRunt 0 m 1 (s.loaded m x))) ∧
    (x.sofGood = true → x.fcsGood = true → x.marked = false → 64 ≤ x.bytes.length + 4 → x.bytes.length + 4 ≤ s.lenLimit m (bufTags x.bytes) →
      beAt x.bytes 12 2 ≠ 0x8808 → beAt x.bytes 12 2 ≠ 0x88CC →
      (∀ (f : Nat) (c : RxCopy), f < 68 → s.daMatch x.bytes m (s.rxCands (s.stagOwner x.bytes)) = [f] →
        s.ctagOk f (ctagFrom x.bytes (parse x.bytes).tags (if (s.stagOwner x.bytes).isSome then 1 else 0)) = true →
        (s.fn f).state = .enrolled → s.copyFor x.bytes (parse x.bytes) (s.stagOwner x.bytes) f = some c →
        (∀ k < cellsOf x.bytes.length, s.sharedTest (s.rxClass m x.bytes (parse x.bytes))
          { cell := k, pool := k, head := 0, resv := 0, copies := [c], refused := [] } c = 0) →
        Gives (.frameReceived m x) s (fun t => (t.rxr c.ring).wait = (s.rxr c.ring).wait ++ [s.hamper.nextId] ∧
          t.hamper.nextId = s.hamper.nextId + 1 ∧ ∃ h ∈ t.hamper.frames, h.id = s.hamper.nextId ∧ h.bytes = x.bytes ∧ h.inst = m.val ∧
            h.cls = s.rxClass m x.bytes (parse x.bytes) ∧ h.copies = [c] ∧ h.pool = cellsOf x.bytes.length)) ∧
      (s.daMatch x.bytes m (s.rxCands (s.stagOwner x.bytes)) = [] → s.rxCtrlUnmatched m = 0 → Gives (.frameReceived m x) s (fun t =>
        Counted .rxUnmatchedDrop 0 m 1 s t ∧ t.hamper = s.hamper ∧ t.rx = s.rx)))) ∧
  (∀ (s : State) (m : Fin 16) (x : RxFrame), s.netRuns = true → (s.watchLane (m / 8)).running = false → s.rxHeld m = false →
    (2 ≤ (s.mac m).fec → s.instExists m = true → (s.mac m).link = .up → x.sofGood = false → Gives (.frameReceived m x) s (fun t =>
      Counted .fecCorrected 0 m x.corrected s t ∧ Counted .fecUncorrected 0 m x.uncorrected s t)) ∧
    ((s.mac m).link ≠ .up → x.fcsGood = false → x.sofGood = true → 64 ≤ x.bytes.length + 4 → x.bytes.length ≤ 512 →
      beAt x.bytes 12 2 ≠ 0x8808 → s.rxCtrlFcsKeep m = 0 → Gives (.frameReceived m x) s (fun t => Counted .rxFragment 0 m 1 s t ∧
        Counted .rxFcsErr 0 m 1 s t ∧ t.hamper = s.hamper ∧ t.rx = s.rx))) ∧
  (∀ (s : State) (m : Fin 16) (x : RxFrame), s.netRuns = true → (s.watchLane (m / 8)).running = false → s.instExists m = true →
    (s.mac m).link = .up → (s.mac m).fec < 2 → (s.mac m).rxLpi = false → s.rxHeld m = true →
    Gives (.frameReceived m x) s (fun t => Keeps [.pair] s t ∧ t.pair.hold = s.pair.hold ++
      [{ m := m, frame := rxSettled x, cut := false, stamp := s.rxStamp m x.offset, start := s.time.elapsed,
         stop := s.time.elapsed + wireU (x.bytes.length + 4) (s.rate m) }])) ∧
  (∀ (s : State) (m : Fin 16) (x : RxFrame), Reaches m s → x.sofGood = true → beAt x.bytes 12 2 = 0x8808 →
    (x.bytes.length + 4 ≤ 63 → Gives (.macControlFrame m x) s (Counts .rxRunt 0 m 1 (s.loaded m x))) ∧
    (64 ≤ x.bytes.length + 4 → x.fcsGood = false → Gives (.macControlFrame m x) s (Counts .ctrlBad 0 m 1 (s.loaded m x))) ∧
    (x.fcsGood = true → x.marked = false → 64 ≤ x.bytes.length + 4 → x.bytes.length + 4 ≤ s.maxlenBytes m →
      beAt x.bytes 0 6 = 0x0180C2000001 →
      (beAt x.bytes 14 2 = 1 → s.macCfgFcMode m = 1 → (s.mac m).ignoring = false → Gives (.macControlFrame m x) s (fun t =>
        Counted .pauseRx 0 m 1 s t ∧ (t.mac m).ctrlIn = (s.mac m).ctrlIn ++
          [(s.time.elapsed + 40 * uNs, (List.range 8).map (fun c => (c, beAt x.bytes 16 2)))])) ∧
      (beAt x.bytes 14 2 = 1 → s.macCfgFcMode m ≠ 1 → Gives (.macControlFrame m x) s (Counts .ctrlIgnored 0 m 1 (s.loaded m x))) ∧
      (beAt x.bytes 14 2 ≠ 1 → beAt x.bytes 14 2 ≠ 0x0101 →
        Gives (.macControlFrame m x) s (Counts .ctrlUnknown 0 m 1 (s.loaded m x)))))

/-- Delivery (R112, R113, R115, R116, R125, R126). In Store mode the head frame of a ring is written into its slots and completed once
buffers and an entry are free; in Early mode it starts with the buffers there are; either way it leaves the Hamper and is counted for
its function. When the RX_WAIT window closes, what has been supplied in time ends the wait, slots that are still being fetched decide
it, and otherwise the frame is lost: dropped, counted as short of buffers or of an entry, or abandoned once its DMA has begun. Choices
of the model it rests on: log 65. -/
def Obligations.HeadFramesAreWrittenOrDropped : Prop :=
  (∀ (s : State) (n : Fin 640) (h : HFrame) (c : RxCopy) (used : List RxSlot), s.rxHalted h.inc = false →
    (∀ x ∈ (s.rxr n).slots.head?, x.hole = 0) → (s.rxr n).guard = none → (s.rxr n).ret = none → (s.rxr n).inc = [] →
    s.rxHead n = some (h, c) → c.fn < 68 → takeSlots ((s.rxr n).buffers h.inc) (c.payload h.bytes).length = some used →
    0 < (s.cqr (s.rxr n).cq).freeSlots →
    (earlyFrame (s.rxr n) h c = false → h.pipeTo ≤ s.time.elapsed → Gives (.rxStoreWrite n) s (fun t => h.id ∉ (t.rxr n).wait ∧
      Counted .fnRxFrames 0 c.fn 1 s t ∧ Counted .fnRxOctets 0 c.fn (c.payload h.bytes).length s t ∧
      ∀ x, used = [x] → c.payload h.bytes ≠ [] →
        ∃ l, t.out = s.out ++ .memWrite c.fn x.addr ((c.payload h.bytes).take x.len) (s.fn c.fn).ro :: l)) ∧
    (earlyFrame (s.rxr n) h c = true → h.pipeAt ≤ s.time.elapsed → c.dma = false → c.written = 0 → used ≠ [] →
      Gives (.rxEarlyStart n) s (fun t => h.id ∉ (t.rxr n).wait ∧ Counted .fnRxFrames 0 c.fn 1 s t))) ∧
  (∀ (s : State) (n : Fin 640) (h : HFrame) (c : RxCopy) (t0 len : Nat), (s.rxr n).tw = some (t0, len) → t0 + len ≤ s.time.elapsed →
    (s.rxr n).due = none → s.rxHalted h.inc = false → s.rxHead n = some (h, c) →
    (s.rxLacks n h c = false → exec (.rxWaitExpiry n) s = .next (s.setRxr n (fun r => { r with tw := none, due := none }))) ∧
    (s.rxLacks n h c = true → (s.rxr n).noBuffer h c = true → (s.rxr n).fetching (s.rxr n).h = true →
      exec (.rxWaitExpiry n) s = .next (s.setRxr n (fun r => { r with due := some (s.rxr n).h }))) ∧
    (s.rxLacks n h c = true → (s.rxr n).noBuffer h c = false ∨ (s.rxr n).fetching (s.rxr n).h = false →
      Gives (.rxWaitExpiry n) s (fun t => h.id ∉ (t.rxr n).wait ∧ (t.rxr n).tw = none ∧
        (c.dma = true → Counted .rxAbandoned 0 n 1 s t) ∧
        (c.dma = false → (s.rxr n).noBuffer h c = true → Counted .noBuffer 0 n 1 s t) ∧
        (c.dma = false → (s.rxr n).noBuffer h c = false → Counted .cqFullDrop 0 n 1 s t))))

/-- The flow table in staging (R181, Table 7-11). FLOW_WRITE stages an entry, or its removal where VALID is 0; a reserved byte gives
result 2 and a key that another valid entry holds result 1, and nothing is staged. FLOW_DELETE stages a removal. FLOW_READ brings an
entry as staging shows it to the KEY and ACTION registers; one not in use reads as zeros. A command that an engine change holds waits. -/
def Obligations.FlowEntriesAreStagedByIndex : Prop :=
  (∀ (s : State) (n : Fin 4) (i : Fin 8192), s.noPartner = false → s.partnerHeld [5] = false →
    (byteAt s.flowKeyReg 3 = 0 → s.setup.flowValid = false ∨ (∀ e ∈ s.flowStaging, e.1 = i.val ∨ e.2.key ≠ s.flowKeyReg) →
      exec (.flowWrite n i) s = .next (((s.endIdle.wrote 0x2202C (i + 1 * 2 ^ 16)).onSetup (fun u => { u with
        flowStaged := Tbl.insert u.flowStaged i (if s.setup.flowValid then some { key := s.flowKeyReg, ring := s.setup.flowRing } else none),
        flowResult := 0 })).partnerWake (64 + n))) ∧
    (byteAt s.flowKeyReg 3 = 0 → s.setup.flowValid = true → (∃ e ∈ s.flowStaging, e.1 ≠ i.val ∧ e.2.key = s.flowKeyReg) →
      exec (.flowWrite n i) s = .next (((s.endIdle.wrote 0x2202C (i + 1 * 2 ^ 16)).onSetup (fun u =>
        { u with flowResult := 1 })).partnerWake (64 + n))) ∧
    (byteAt s.flowKeyReg 3 ≠ 0 → exec (.flowWrite n i) s = .next (((s.endIdle.wrote 0x2202C (i + 1 * 2 ^ 16)).onSetup (fun u =>
      { u with flowResult := 2 })).partnerWake (64 + n))) ∧
    exec (.flowDelete n i) s = .next (((s.endIdle.wrote 0x2202C (i + 2 * 2 ^ 16)).onSetup (fun u =>
      { u with flowStaged := Tbl.insert u.flowStaged i none, flowResult := 0 })).partnerWake (64 + n)) ∧
    (Tbl.find s.flowStaging i = none → Gives (.flowRead n i) s (fun t => Keeps [.setup, .watch, .supply, .power, .tether] s t ∧
      t.setup.flowValid = false ∧ t.flowKeyReg = List.replicate 40 0#8 ∧ t.setup.flowRing = 0 ∧ t.setup.flowResult = 0)) ∧
    (∀ e : FlowEntry, Tbl.find s.flowStaging i = some e → e.key.length = 40 → Gives (.flowRead n i) s (fun t =>
      Keeps [.setup, .watch, .supply, .power, .tether] s t ∧
      t.setup.flowValid = true ∧ t.flowKeyReg = e.key ∧ t.setup.flowRing = e.ring ∧ t.setup.flowStaged = s.setup.flowStaged))) ∧
  (∀ (s : State) (n : Fin 4) (i : Fin 8192) (c : Instr) (op : Nat), (c = .flowWrite n i ∧ op = 1) ∨ (c = .flowDelete n i ∧ op = 2) ∨
    (c = .flowRead n i ∧ op = 3) → s.noPartner = false → s.partnerHeld [5] = true → exec c s =
      .next (((s.endIdle.wrote 0x2202C (i + op * 2 ^ 16)).hold (.write n 0x2202C (i + op * 2 ^ 16))).partnerWake (64 + n)))

/-! ### The wire and the cages (08_the_wire) -/

/-- Link states (R184 to R188, Table 8-3, R137). Training starts from Down with a usable module; where auto-negotiation runs, the FEC is
the first mode of Table 8-2 that the far end advertises too; Up carries LINK_UP with the rate and the FEC and zero credits; three
failed training runs raise LINK_TRAIN_FAIL and wait for the retry; lane loss and remote fault take an instance Down, counted and
reported with their cause, and its pauses end; a lane that is lost leaves LANE_OK. Choices of the model it rests on: log 41. -/
def Obligations.LinksTrainComeUpAndGoDown : Prop :=
  (∀ (s : State) (m : Fin 16), s.instExists m = true → (s.mac m).link = .down → s.usable (m / 8) = true → s.netOn (m / 8) = true →
    exec (.linkTrainingStart m) s =
      .next (s.setMac m (fun x => { x with link := .training, train := true, laneOk := 2 ^ lanesPer (s.breakout m) - 1 }))) ∧
  (∀ (s : State) (m : Fin 16) (far : BitVec 4), s.instExists m = true → (s.mac m).link = .training → s.netOn (m / 8) = true →
    s.anRuns m = false ∨ (s.mac m).train = true →
    (∀ fec, s.fecOf m far.toNat = some fec → Gives (.linkUp m far) s (fun t =>
      (t.mac m).link = .up ∧ (t.mac m).fec = fec ∧ (t.mac m).fails = 0 ∧ (∀ c < 8, t.creditOf m c = 0) ∧
      Reports .linkUp (le 1 m.val ++ le 4 (s.rate m) ++ le 1 fec) s t)) ∧
    (s.fecOf m far.toNat = none → exec (.linkUp m far) s = .next s) ∧
    (s.anRuns m = true → s.fecOf m far.toNat = (fecModes (s.rate m)).find? (fun k => far.getLsbD k)) ∧
    (s.anRuns m = false → ∃ fec, s.fecOf m far.toNat = some fec)) ∧
  (∀ (s : State) (m : Fin 16), (s.mac m).link = .training → (s.mac m).train = true → s.anRuns m = true →
    ((s.mac m).fails = 2 → Gives (.linkTrainTimeout m) s (Raises .linkTrainFail (le 1 m.val)
      (s.setMac m (fun x => { x with fails := 3, train := false })))) ∧
    ((s.mac m).fails < 2 → exec (.linkTrainTimeout m) s =
      .next (s.setMac m (fun x => { x with fails := (s.mac m).fails + 1, train := true })))) ∧
  (∀ (s : State) (m : Fin 16), (s.mac m).link = .training → 3 ≤ (s.mac m).fails →
    exec (.linkTrainRetry m) s = .next (s.setMac m (fun x => { x with train := true }))) ∧
  (∀ (s : State) (lane : Fin 16), (s.mac (s.laneInst lane)).link = .up ∨ (s.mac (s.laneInst lane)).link = .training ∨
    ((s.mac (s.laneInst lane)).link = .down ∧ bit (s.mac (s.laneInst lane)).laneOk (lane - s.laneInst lane) = true) →
    Gives (.laneLoss lane) s (fun t => (t.mac (s.laneInst lane)).link = .down ∧
      bit (t.mac (s.laneInst lane)).laneOk (lane - s.laneInst lane) = false ∧
      Counted .laneLoss 0 lane 1 s t ∧ Reports .laneLoss (le 1 lane.val) s t ∧
      ((s.mac (s.laneInst lane)).link = .up → (t.mac (s.laneInst lane)).paused = [] ∧ Counted .linkDownCount 0 (s.laneInst lane) 1 s t ∧
        Reports .linkDown (le 1 (s.laneInst lane) ++ le 1 1) s t))) ∧
  (∀ (s : State) (m : Fin 16), (s.mac m).link = .up → Gives (.remoteFault m) s (fun t => (t.mac m).link = .down ∧ (t.mac m).paused = [] ∧
    Counted .linkDownCount 0 m 1 s t ∧ Reports .linkDown (le 1 m.val ++ le 1 2) s t))

/-- Pauses and control frames (R193 to R199, R203, R210, R401). A pause whose 40 ns have passed holds its classes for quanta times 512
bit times, and quanta 0 ends one; an instance that ignores pauses only counts each. The watchdog ends a pause that still holds
candidates, counted and reported. Waiting control frames leave one at a time, with every PFC in one frame, and are counted. Choices
of the model it rests on: log 43. -/
def Obligations.PausesHoldTheirClassesForTheirQuanta : Prop :=
  (∀ (s : State) (m : Fin 16), (∀ c < 8, s.wdClosed m c = false) →
    let due := (s.mac m).ctrlIn.filter (fun e => decide (e.1 ≤ s.time.elapsed))
    let rest := (s.mac m).ctrlIn.filter (fun e => decide (s.time.elapsed < e.1))
    (due = [] → exec (.pauseRegister m) s = .next s) ∧
    (due ≠ [] → (s.mac m).ignoring = true → Gives (.pauseRegister m) s (fun t => Counted .pauseIgnored 0 m due.length s t ∧
      (t.mac m).ctrlIn = rest ∧ (t.mac m).paused = (s.mac m).paused)) ∧
    (∀ e l, due = [(e, l)] → (s.mac m).ignoring = false → (l.map (fun p => p.1)).Nodup → Gives (.pauseRegister m) s (fun t =>
      (t.mac m).ctrlIn = rest ∧ (∀ p ∈ l, Tbl.find (t.mac m).paused p.1 =
        if p.2 = 0 then none else some (s.time.elapsed + bitsU (512 * p.2) (s.rate m))) ∧
      (∀ f p, (s.sch m).cur = some f → p ∈ l → p.1 = f.cls → 0 < p.2 → Counted .pauseHeld 0 m 1 s t)))) ∧
  (∀ (s : State) (m : Fin 16) (c : Fin 8) (e : Nat), Tbl.find (s.mac m).paused c = some e →
    (e ≤ s.time.elapsed → Gives (.pauseEnd m c) s (fun t =>
      Tbl.find (t.mac m).paused c = none ∧ Tbl.find (t.mac m).wd c = none ∧ Keeps [.sched, .macs] s t)) ∧
    (s.time.elapsed < e → exec (.pauseEnd m c) s = .next s)) ∧
  (∀ (s : State) (m : Fin 16) (c : Fin 8), s.wdClosed m c = true →
    (s.heldClass m c = true → Gives (.pauseWdExpiry m c) s (fun t => Tbl.find (t.mac m).paused c = none ∧ Counted .pauseWdExpire c m 1 s t ∧
      Reports .pauseBroken (le 1 m.val ++ le 1 c.val ++ le 8 (tget (s.mac m).wdS c)) s t ∧
      (t.mac m).ignoring = ((s.mac m).ignoring || decide (s.pauseWdMode m = 1)))) ∧
    (s.heldClass m c = false → (∀ d < 8, d ≠ c.val → s.wdClosed m d = false) → exec (.pauseWdExpiry m c) s =
      .next (s.setMac m (fun x => { x with wd := Tbl.erase x.wd c, wdS := Tbl.erase x.wdS c })))) ∧
  (∀ (s : State) (m : Fin 16), s.noPartner = false → s.partnerHeld [m / 8] = false → Gives (.fcWdRearm m) s (Raises .pauseRearmed (le 1 m.val)
    ((s.arrives 64).setMac m (fun x => { x with ignoring := false })))) ∧
  (∀ (s : State) (m : Fin 16) (rest : List CtrlFrame), (s.mac m).link = .up → (s.sch m).cur = none → s.netOn (m / 8) = true →
    s.idleEngine [m / 8] = false →
    (∀ q, (s.sch m).ctrl = .pause q :: rest → Gives (.controlFrameSend m) s (fun t => (t.sch m).ctrl = rest ∧ Counted .pauseTx 0 m 1 s t ∧
      ∃ l, t.out = s.out ++ l ∧ Out.wire m (s.departAt m 0) (macFrame (s.macAddr m) 1 (be 2 q)) ∈ l)) ∧
    ((s.sch m).ctrl = .lldp :: rest → Gives (.controlFrameSend m) s (fun t => (t.sch m).ctrl = rest ∧ Counted .lldpTx 0 m 1 s t)) ∧
    (∀ v q, (s.sch m).ctrl = .pfc v q :: rest → Gives (.controlFrameSend m) s (fun t =>
      (∀ w r, .pfc w r ∉ (t.sch m).ctrl) ∧ (∀ r, .pause r ∈ rest → .pause r ∈ (t.sch m).ctrl) ∧
      (∀ c ∈ s.vectorClasses m (((s.sch m).ctrl.foldl pfcMerge (0, [])).1), Counted .pfcTx c m 1 s t)))) ∧
  (∀ (s : State) (m : Fin 16), (s.mac m).link = .up →
    (∀ c : Fin 8, s.pfcOn m c = true → bit (tget s.hamper.xoff m) c = true → Gives (.pfcRefresh m c) s (fun t => Keeps [.sched, .macs] s t ∧
      (t.sch m).ctrl = (s.sch m).ctrl ++ [.pfc (s.pfcVector m c) (s.fcQuantaQuanta m)])) ∧
    (s.macCfgFcMode m = 1 → (s.mac m).xoffOn = true → Gives (.pauseRefresh m) s (fun t => Keeps [.sched, .macs] s t ∧
      (t.sch m).ctrl = (s.sch m).ctrl ++ [.pause (s.fcQuantaQuanta m)])) ∧
    (s.macCfgLldpAgent m = 1 → Gives (.lldpSend m) s (fun t => Keeps [.sched, .macs] s t ∧ (t.sch m).ctrl = (s.sch m).ctrl ++ [.lldp])))

/-- Watch lanes and cages (R204 to R209). A frame that meets a pattern on a watch lane wakes the sled from Sleep with source 8 and the
pattern, or 9 for a magic packet. A module of at most 20 W goes to high power, one above is denied; with removal and fault its lanes
fail and the port goes Down; reset and re-enable repeat the power check. Choices of the model it rests on: log 31, 69. -/
def Obligations.WatchLanesWakeAndCagesPowerModules : Prop :=
  (∀ (s : State) (p : Fin 2) (x : RxFrame), (s.watchLane p).running = true → (s.watchLane p).ready = true → x.fcsGood = true →
    x.sofGood = true → 64 ≤ x.bytes.length + 4 → x.bytes.length + 4 ≤ 2048 →
    (∀ i, (List.range 32).find? (s.patMatch p x.bytes) = some i → s.power.mode = .sleep → bit s.wakeEnEn 3 = true →
      Gives (.watchFrame p x) s (fun t => t.power.mode = .exiting ∧ t.power.wakeSrc = 8 ∧ t.power.wakeDet = 32 * p.val + i ∧
        Counted .watchFrames 0 p 1 s t ∧ Counted .watchMatch 0 p 1 s t ∧ Reports .wakeFrame (le 1 p.val ++ le 1 i) s t)) ∧
    ((List.range 32).find? (s.patMatch p x.bytes) = none → s.magic p x.bytes = true → s.power.mode = .sleep → bit s.wakeEnEn 4 = true →
      Gives (.watchFrame p x) s (fun t => t.power.mode = .exiting ∧ t.power.wakeSrc = 9 ∧ t.power.wakeDet = 32 * p.val ∧
        Counted .watchMatch 0 p 1 s t ∧ Reports .wakeFrame (le 1 p.val ++ le 1 32) s t)) ∧
    ((List.range 32).find? (s.patMatch p x.bytes) = none → s.magic p x.bytes = false →
      Gives (.watchFrame p x) s (Counts .watchFrames 0 p 1 s))) ∧
  (∀ (s : State) (p : Fin 2), (s.watchLane p).running = true →
    exec (.watchLinkUp p) s = .next (s.setWatchLane p (fun w => { w with ready := true })) ∧
    ((s.watchLane p).ready = false → Gives (.watchLinkFail p) s (Raises .watchLinkFail (le 1 p.val)
      (s.setWatchLane p (fun w => { w with running := false }))))) ∧
  (∀ (s : State) (p : Fin 2) (w : BitVec 8) (cu : Bool), s.cagesSeen = true → (s.cage p).present = false → s.power.mode ≠ .deepSleep →
    Gives (.cageInserted p w cu) s (fun t => (t.cage p).present = true ∧ (t.cage p).supply = true ∧
      (t.cage p).highPower = decide (w.toNat ≤ 80) ∧ (t.cage p).maxPower = w.toNat ∧ (t.cage p).copper = cu ∧
      Reports .cageInserted (le 1 p.val) s t ∧ (80 < w.toNat → Reports .cagePowerDenied (le 1 p.val ++ le 1 w.toNat) s t))) ∧
  (∀ (s : State) (p : Fin 2), s.cagesSeen = true → (s.cage p).present = true → Gives (.cageRemoved p) s (fun t =>
    (t.cage p).present = false ∧ (t.cage p).highPower = false ∧ Reports .cageRemoved (le 1 p.val) s t ∧
    ∀ j < 8, (t.mac (8 * p.val + j)).link ≠ .up ∧ (t.mac (8 * p.val + j)).link ≠ .training ∧
      (bit (s.mac (s.laneInst (8 * p.val + j))).laneOk (8 * p.val + j - s.laneInst (8 * p.val + j)) = true →
        Counted .laneLoss 0 (8 * p.val + j) 1 s t))) ∧
  (∀ (s : State) (p : Fin 2), (s.cage p).supply = true → (s.cage p).fault = false → Gives (.cageFault p) s (fun t =>
    (t.cage p).fault = true ∧ (t.cage p).supply = false ∧ Reports .cageFault (le 1 p.val) s t ∧
    ∀ j < 8, (t.mac (8 * p.val + j)).link ≠ .up ∧ (t.mac (8 * p.val + j)).link ≠ .training)) ∧
  (∀ (s : State) (p : Fin 2), (s.cage p).present = true → (s.cage p).supply = true →
    (s.noPartner = false → exec (.cageReset p) s =
      .next (((s.arrives 64).wrote (0x46004 + 0x400 * p) 1).setCage p (fun k => { k with inReset := true }))) ∧
    (∀ d : Bytes, d.length = 256 → exec (.cageMirrorCopy p d) s =
      .next (s.setCage p (fun k => { k with mirror := if d.all (· = 0) then [] else d }))) ∧
    (∀ v : BitVec 8, v ≠ 0 → Gives (.modulePoll p v) s (RaisesOnce .moduleAlarm p (le 1 p.val ++ le 1 v.toNat) s))) ∧
  (∀ (s : State) (p : Fin 2) (w : BitVec 8) (cu : Bool), (s.cage p).inReset = true → Gives (.cageResetDone p w cu) s (fun t =>
    (t.cage p).inReset = false ∧ (t.cage p).highPower = decide (w.toNat ≤ 80) ∧
    (80 < w.toNat → Reports .cagePowerDenied (le 1 p.val ++ le 1 w.toNat) s t))) ∧
  (∀ (s : State) (p : Fin 2), s.noPartner = false → (s.cage p).fault = true → (s.cage p).present = true → Gives (.cageReenable p) s (fun t =>
    (t.cage p).fault = false ∧ (t.cage p).supply = true ∧ (t.cage p).highPower = decide ((s.cage p).maxPower ≤ 80)))

/-! ### The Tally (09_tally) -/

/-- Reads, snapshots, the mirror and energy (R31, 01_the_sled; R219 to R227). A read latches the selected 48-bit counter for its OF and
returns the low word: as it stood before this J-cycle, and in warm mode as the mirror last held it. While no engine is there to answer,
the value waits as it was latched. A snapshot is refused with 1 Busy, 5 Bad set, 3 Short or 2 Fence, in that order, or captures its
header and every entry of its set at once; it ends with the write, Done and TALLY_SNAPSHOT. In warm mode the mirror takes the counters
at its boundary. A window that is not measured counts in UNMEASURED_MS; of a measured one each TF is charged its share and the Shell
all of it. Choices of the model it rests on: log 23, 53. -/
def Obligations.TallyReadsFreezeWhatTheyShow : Prop :=
  (∀ (s : State) (n : Fin 4), s.pair.fenced = false → s.power.mode = .run ∨ s.power.mode = .idle ∨ s.power.mode = .entering →
    let k := tallyKey (s.of n).tallyCode (s.of n).tallyCls (s.of n).tallyObj
    let v := if s.pair.warm then tget s.tally.mirror k else s.tally.before s.time.jcycle k
    (s.partnerHeld [5] = false → Gives (.tallyRead n) s (fun t => Keeps [.ofs, .power, .out] s t ∧
      t.of n = { s.of n with tallyLatch := v } ∧ (∀ m, m ≠ n.val → t.of m = s.of m) ∧
      t.out = s.out ++ [.read n (BitVec.ofNat 32 v)])) ∧
    (s.partnerHeld [5] = true → exec (.tallyRead n) s =
      .next (s.onPair (fun p => { p with reads := p.reads ++ [(n.val, v)] })))) ∧
  (∀ (s : State) (n : Fin 4) (set : BitVec 4) (seq : BitVec 16), s.noPartner = false → s.partnerHeld [5] = false →
    Gives (.snapshotTrigger n set seq) s (fun t =>
      Keeps [.ofs, .watch, .supply, .power] s t ∧ (t.of n).snapSet = set.toNat ∧ (t.of n).snapSeq = seq.toNat ∧
      ((s.of n).snapNow ≠ none → (t.of n).snapState = 3 ∧ (t.of n).snapWhy = 1) ∧
      ((s.of n).snapNow = none → setGood set.toNat = false → (t.of n).snapState = 3 ∧ (t.of n).snapWhy = 5) ∧
      ((s.of n).snapNow = none → setGood set.toNat = true → (s.of n).snapLen < 64 + 8 * setSize set.toNat →
        (t.of n).snapState = 3 ∧ (t.of n).snapWhy = 3) ∧
      ((s.of n).snapNow = none → setGood set.toNat = true → 64 + 8 * setSize set.toNat ≤ (s.of n).snapLen →
        if s.fenceOk (64 + n.val) (s.of n).snapBuf (s.of n).snapLen then (t.of n).snapState = 1 ∧
          (t.of n).snapNow.map (fun x => (x.addr, x.header, x.body)) =
            some ((s.of n).snapAddr / 64 * 64, s.snapHeader n set.toNat seq.toNat, (setKeys set.toNat).map s.tallySeen)
        else (t.of n).snapState = 3 ∧ (t.of n).snapWhy = 2))) ∧
  (∀ (s : State) (n : Fin 4) (x : Snapshot), s.idleEngine [2, 5] = false → (s.of n).snapNow = some x → Gives (.tallySnapshot n) s (fun t =>
    (t.of n).snapNow = none ∧ (t.of n).snapState = 2 ∧ Reports .tallySnapshot (le 1 (64 + n.val) ++ le 2 x.seq ++ le 4 x.status) s t ∧
    ∃ l, t.out = s.out ++ .memWrite (64 + n.val) x.addr (x.header ++ (x.body.map (le 8)).flatten) false :: l)) ∧
  (∀ s : State, (s.pair.warm = false → exec .mirrorBoundary s = .next s) ∧
    (s.pair.warm = true → (s.tally.base.map (fun e => e.1)).Nodup → Gives .mirrorBoundary s (fun t =>
      (∀ k, tget t.tally.mirror k = s.tally.before s.time.jcycle k) ∧ t.tally.mirror64 = s.time64))) ∧
  (∀ (s : State) (w : List Nat),
    (s.coreRuns = false → Gives (.energyWindow w) s (Counts .unmeasuredMs 0 0 1 s)) ∧
    (s.coreRuns = true → tget s.tally.frac (tallyKey Ctr.shellEnergyUj.code 0 0) < 2 ^ 16 →
      tget s.tally.count (tallyKey Ctr.shellEnergyUj.code 0 0) < 2 ^ 48 → Gives (.energyWindow w) s (fun t =>
        Counted .shellEnergyUj 0 0 ((List.range 20).map (s.measured w)).sum s t ∧ t.tally.act = [] ∧
        (∀ i < 20, tget t.tally.powerMw i = min (s.measured w i) 65535) ∧
        (s.tally.skipEnergy = true → t.tally.skipEnergy = false ∧ Counted .unmeasuredMs 0 0 1 s t) ∧
        (s.tally.skipEnergy = false → ∀ f < 64, tget s.tally.count (tallyKey Ctr.energyUj.code 0 f) < 2 ^ 48 →
          tget s.tally.frac (tallyKey Ctr.energyUj.code 0 f) < 2 ^ 16 →
          Counted .energyUj 0 f ((tget s.tally.frac (tallyKey Ctr.energyUj.code 0 f) + s.winPart w f) / 2 ^ 16) s t))))

/-! ### The engine pair (10_engine_pair) -/

/-- Faults and flits (R231, R249, R252 to R255, Tables 10-1 and 10-7). An engine that relinquishes, stops its heartbeats, fails its
self-test or loses its link's lock hands over with cause 1, 3, 8 or 4 where the other is Standby; a faulty Standby leaves the sled
solo; with no engine left the sled is Fenced, by a Junction fault with cause 0xA. What a sender scrambles a receiver in step with it
reads; each bad flit is counted, and the fourth in a row on a lane loses the direction's lock. Choices of the model it rests on: log 9,
49, 64. -/
def Obligations.FaultsHandOverOrFence : Prop :=
  (∀ (s : State) (e : Eng), Acting e s →
    Gives (.relinquish e) s (HandsOver e 1 false s) ∧
    Gives (.heartbeatMiss e) s (fun t => HandsOver e 3 false s t ∧ (s.pair.warm = false → Counted .heartbeatMiss 0 0 1 s t)) ∧
    (∀ ecc, s.bistRuns e = true → Gives (.bistCycleDone e false ecc) s (fun t => HandsOver e 8 false s t ∧ Counted .bistCycles 0 0 1 s t)) ∧
    (∀ (lane : Fin 12) (w : BitVec 288), let x := (s.lockOf (.toEng e)).lane lane
      s.lockedDir (.toEng e) = true → ({ x with prev := w.toNat } : LaneRx).read (x.flit w.toNat) = .bad → 3 ≤ x.bads →
      Gives (.flitReceived (.toEng e) lane w) s (fun t => HandsOver e 4 false s t ∧ t.lockedDir (.toEng e) = false ∧
        (s.pair.warm = false → Counted (flitBad (.toEng e)) 0 0 1 s t ∧ Counted (flitLoss (.toEng e)) 0 0 1 s t) ∧
        Reports .linkLockLost (le 1 (engCode e) ++ le 1 1) s t)) ∧
    Gives (.relinquish (engOther e)) s (fun t => (t.eng (engOther e)).act = false ∧ (t.eng (engOther e)).state ≠ .standby ∧
      (t.eng (engOther e)).state ≠ .active ∧ t.pair.fenced = false ∧
      Reports .engineFailed (le 1 (engCode (engOther e)) ++ le 1 1) s t ∧ Reports .soloEntered [] s t)) ∧
  (∀ (s : State) (e : Eng), s.pair.fenced = false → s.pair.verdict = false → s.divergedLate = false → s.pair.handover = none →
    s.isolated = false → (s.eng e).state = .active → (s.eng (engOther e)).state ≠ .standby →
    Gives (.relinquish e) s (FencedBy 1 s)) ∧
  (∀ (s : State) (e : Eng), s.pair.fenced = false → s.pair.verdict = true → (∀ x ∈ s.pair.relq, x.1 ≠ e) →
    exec (.relinquish e) s = .next (s.onPair (fun p => { p with relq := p.relq ++ [(e, 1)] }))) ∧
  (∀ s : State, s.coreRuns = true → s.pair.fenced = false → Gives .junctionFault s (FencedBy 0xA s)) ∧
  (∀ (s : State) (e : Eng) (ecc : BitVec 16), s.bistRuns e = true → Gives (.bistCycleDone e true ecc) s (fun t =>
    Counted .bistCycles 0 0 1 s t ∧ Keeps (flagParts ++ [.pair]) s t ∧
    t.eng e = { s.eng e with ecc := ecc.toNat, bistS := s.time.now / uSec % 2 ^ 32, bistAt := s.time.elapsed,
                             bistDur := s.time.elapsed - (s.eng e).bistAt })) ∧
  (∀ (payload seq ep scr : Nat) (l : LaneRx), payload < 2 ^ 256 → l.seq = seq → l.ep = ep → l.scr = scr →
    l.read (flitOf 0x5E2B (scramble 256 payload 0 scr).1 seq ep) = .data payload (scramble 256 payload 0 scr).2) ∧
  (∀ (e : Nat) (peer : Bool), e < 256 → readEpoch (epochFlit e peer) = .epoch e peer) ∧
  (∀ (s : State) (p : FlitPath) (lane : Fin 12) (w : BitVec 288), s.isolated = false → lane.val < flitLanes p → Settled s →
    let x := (s.lockOf p).lane lane
    (x.st ≠ .locked → Gives (.flitReceived p lane w) s (fun t => (t.lockOf p).lane lane = x.train w.toNat)) ∧
    (∀ d, x.st = .locked → ({ x with prev := w.toNat } : LaneRx).read (x.flit w.toNat) = d → d ≠ .bad →
      Gives (.flitReceived p lane w) s (fun t => (t.lockOf p).lane lane = ({ x with prev := w.toNat } : LaneRx).good d)))

/-- Hand-overs (R230, R236, R241, R243, R245, R247, R248). A role swap, by its period or by PAIR_CMD, leaves the outgoing engine Standby;
what is not paired refuses the command, and the swap that fell due waits. Once the outgoing ACT line has been low for 8 J-cycles the
other engine is Active, the hand-over is counted and HANDOVER raised, and after a fault the sled is solo. A warm one drains first: the
outgoing engine's frames still held are lost and counted, and the transmit rings are fetched again from C. Choices of the model it
rests on: log 48, 51, 77, 78. -/
def Obligations.HandOversEndWithTheOtherEngineActive : Prop :=
  (∀ (s : State) (e : Eng), s.paired = true → s.active = some e → s.transition = false → s.isolated = false →
    (s.noPartner = false → s.pair.warm = false → Gives .pairCmdSwap s (HandsOver e 7 true s)) ∧
    (s.noPartner = false → s.pair.warm = true →
      exec .pairCmdSwap s = .next (((s.arrives 64).wrote 0x70010 1).onPair (fun p => { p with ready := true }))) ∧
    (s.pair.warm = false → s.pairSwapSwapPeriod ≠ 0 → Gives .roleSwap s (fun t => HandsOver e 6 true s t ∧ t.pair.swapDue = false))) ∧
  (∀ (s : State) (e : Eng), s.paired = true → s.active = some e → s.transition = false → s.pair.ready = true → s.pair.warm = true →
    Gives .warmStandbyReady s (fun t => HandsOver e 7 true s t ∧ t.pair.ready = false ∧
      ∀ i ∈ warmIslands (engOther e), (t.island i).state = .on ∧ (t.island i).isolated = false)) ∧
  (∀ s : State, s.paired = false →
    (s.noPartner = false → Gives .pairCmdSwap s (Raises .pairCmdRefused [] ((s.arrives 64).wrote 0x70010 1))) ∧
    (s.pair.warm = false → s.pair.fenced = false → s.pairSwapSwapPeriod ≠ 0 →
      exec .roleSwap s = .next (s.onPair (fun p => { p with swapDue := true })))) ∧
  (∀ (s : State) (h : Handover), s.pair.handover = some h → h.warm = false →
    (s.canRaise h = false → exec .lockstepHandoverEnd s = .next s) ∧
    (s.canRaise h = true → Settled s → Gives .lockstepHandoverEnd s (fun t =>
      (t.eng (engOther h.out)).state = .active ∧ (t.eng (engOther h.out)).act = true ∧ t.pair.handover = none ∧ t.pair.lastWhy = h.cause ∧
      t.pair.lastDur = min (s.time.jcycle - h.x) 65535 ∧ Counted (if h.swap then .swapCount else .handoverCount) 0 0 1 s t ∧
      t.pair.levels = none ∧ t.events.msixHeld = [] ∧
      Reports .handover (le 1 h.cause ++ le 1 (engCode h.out) ++ le 4 (min (s.time.jcycle - h.x) (2 ^ 32 - 1))) s t ∧
      (h.swap = false → Reports .soloEntered [] s t)))) ∧
  (∀ (s : State) (h : Handover), s.pair.handover = some h → h.warm = true → h.fallen = true → h.drained = false →
    Gives .drainEnd s (fun t => t.hamper.frames = s.hamper.frames.filter (fun x => x.inc) ∧
      t.pair.handover = some { h with drained := true } ∧
      Counted .warmHamperLost 0 0 (s.hamper.frames.filter (fun x => !x.inc)).length s t)) ∧
  (∀ (s : State) (h : Handover), s.pair.handover = some h → h.warm = true → h.drained = true → s.canRaise h = true → Settled s →
    Gives .warmHandoverEnd s (fun t => (t.eng (engOther h.out)).state = .active ∧ (t.eng (engOther h.out)).act = true ∧
      t.pair.handover = none ∧ t.pair.lastWhy = h.cause ∧ t.pair.holdAt = none ∧
      (∀ t0, s.pair.holdAt = some t0 → tget s.tally.count (tallyKey Ctr.holdGapNs.code 0 0) < 2 ^ 48 →
        Counted .holdGapNs 0 0 (s.holdGap t0 0 + s.holdGap t0 1) s t) ∧
      Counted (if h.swap then .swapCount else .handoverCount) 0 0 1 s t ∧
      ∀ n, (t.txr n).f = (s.txr n).c ∧ (t.txr n).c = (s.txr n).c ∧ (t.txr n).sends = []))

/-- The comparator and the Verdict (R233, R234, R237 to R239; R403, 05_rings_and_doorbells). A first difference of two present flits
is kept with its J-cycle, TYPE and stamp. Unexplained after 16 J-cycles it freezes a paired sled and is counted: frames on the wire are
cut and kept, level outputs hold, lane words go to the hold buffer. Both self-tests passing make the Standby resynchronise as a
suspect; one that fails is handed over from, or leaves the sled solo; both failing fence it; unless it is Fenced the frames cut are sent
again. The result carries 1 for an engine that passed and 2 for one that failed. Choices of the model it rests on: log 25, 62, 78. -/
def Obligations.DivergencesEndInAVerdict : Prop :=
  (∀ (s : State) (typ : Nat), s.pending = [] → s.coreRuns = true → s.comparing = true → s.pair.differs = some typ → s.pair.diverged = none →
    s.time.due = [] → ∃ t, step s = .next t ∧ t.pair.diverged = some (s.time.jcycle, typ, s.time64) ∧ t.pair.slotA = [] ∧ t.pair.slotB = []) ∧
  (∀ (s : State) (e typ t64 : Nat), s.pair.diverged = some (e, typ, t64) → s.comparing = true → s.transition = false → s.isolated = false →
    (s.time.jcycle < e + 16 → exec .divergence s = .next s) ∧
    (e + 16 ≤ s.time.jcycle → Gives .divergence s (fun t => t.pair.verdict = true ∧ t.pair.frozenAt = s.time.jcycle ∧
      Counted .divergenceCount 0 0 1 s t ∧ Reports .divergence (le 1 typ ++ le 8 t64) s t ∧ t.pair.acts = { s.pair.acts with verd := true } ∧
      t.pair.levels = some (s.pair.levels.getD s.levelsNow) ∧ t.pair.holdAt = some (s.pair.holdAt.getD s.time.elapsed) ∧
      ∀ m < 16, ∀ f, (s.sch m).cur = some f → (s.mac m).link = .up → f.start ≤ s.time.elapsed →
        (t.sch m).cur = some { f with held := true }))) ∧
  (∀ (s : State) (e : Eng) (test : SelfTest), s.pair.verdict = true → s.active = some e → s.pair.handover = none →
    s.pair.fenced = false → s.pair.warm = false → Settled s → Gives (.verdictResult test) s (fun t => t.pair.verdict = false ∧
      Counted .verdictCount 0 0 1 s t ∧
      Reports .verdictResult (le 1 (if s.selfPass test .a then 1 else 2) ++ le 1 (if s.selfPass test .b then 1 else 2)) s t ∧
      (s.selfPass test .a = true → s.selfPass test .b = true → (t.eng (engOther e)).state = .resyncing ∧ t.pair.suspect = true ∧
        t.pair.resync = some .copy ∧ (t.eng e).act = true ∧ Reports .engineSuspect (le 1 (engCode (engOther e))) s t) ∧
      (s.selfPass test e = true → s.selfPass test (engOther e) = false → (t.eng (engOther e)).act = false ∧ (t.eng e).act = true ∧
        Reports .engineFailed (le 1 (engCode (engOther e)) ++ le 1 (s.voteCause (engOther e))) s t ∧ Reports .soloEntered [] s t) ∧
      (s.selfPass test e = false → s.selfPass test (engOther e) = true → HandsOver e 2 false s t) ∧
      (s.selfPass test .a = false → s.selfPass test .b = false → FencedBy 2 s t) ∧
      (s.selfPass test .a = true ∨ s.selfPass test .b = true → t.pair.holdAt = none ∧
        (∀ t0, s.pair.holdAt = some t0 → tget s.tally.count (tallyKey Ctr.holdGapNs.code 0 0) < 2 ^ 48 →
          Counted .holdGapNs 0 0 (s.holdGap t0 0 + s.holdGap t0 1) s t) ∧
        ∀ m < 16, ∀ f, (s.sch m).cur = some f → f.held = true → (s.mac m).link = .up →
          (t.sch m).cur = some { f with held := false, start := s.time.elapsed, at_ := s.timeAt s.time.elapsed })))

/-- Requalification, resynchronisation and what waits (R242, R250, R251; R376, 17_when_subsystems_meet). A Failed or Retired engine is
tested again by command; passing begins the bulk copy, failing makes it Failed; after the copy the active engine quiesces, and once no
frame is on the wire the final stall begins; the join makes the engine Standby in the mode that PAIR_MODE asks for. On a timeout it is
Failed. While no engine takes them, doorbells, mailbox writes and snapshot triggers wait with their stamps in order of arrival, 8,192
of a link, and then in the merge store. Choices of the model it rests on: log 38, 50. -/
def Obligations.EnginesRejoinThroughTheBulkCopy : Prop :=
  (∀ (s : State) (e : Eng), s.noPartner = false → (s.eng e).state = .failed ∨ (s.eng e).state = .retired →
    exec (.pairCmdRequalify e) s =
      .next (((s.arrives 64).wrote 0x70010 (16 * engCode e - 14)).setEng e (fun g => { g with state := .requalifying }))) ∧
  (∀ (s : State) (e : Eng), (s.eng e).state = .requalifying →
    Gives (.requalifyDone e true) s (fun t => Keeps [.pair, .acts] s t ∧ t.eng e = { s.eng e with state := .resyncing } ∧
      t.eng (engOther e) = s.eng (engOther e) ∧ t.pair.resync = some .copy) ∧
    Gives (.requalifyDone e false) s (fun t => (t.eng e).act = false ∧ (t.eng e).cause = 1 ∧ (t.eng e).state ≠ .resyncing ∧
      Reports .engineFailed (le 1 (engCode e) ++ le 1 1) s t)) ∧
  (∀ s : State, s.pair.resync = some .copy →
    (s.onWire = true → exec .bulkCopyDone s = .next (s.onPair (fun p => { p with resync := some .quiesce }))) ∧
    (s.onWire = false → Gives .bulkCopyDone s (fun t => t.pair.resync = some .stall ∧
      t.pair.holdAt = some (s.pair.holdAt.getD s.time.elapsed) ∧
      ∀ p, s.setup.pendingSet = some p → p.deferred = false → t.setup.state = .deferred ∧ Reports .commitDeferred (le 2 p.seq) s t))) ∧
  (∀ (s : State) (e : Eng), s.pair.resync = some .stall → s.joining = some e → Settled s → s.pair.handover = none → s.pair.verdict = false →
    Gives .resyncDone s (fun t => (t.eng e).state = .standby ∧ t.pair.resync = none ∧ t.pair.suspect = false ∧ t.pair.holdAt = none ∧
      t.pair.warm = decide (s.pairModeMode = 1) ∧ Counted .resyncCount 0 0 1 s t ∧ Reports .resyncDone (le 1 (engCode e)) s t)) ∧
  (∀ (s : State) (e : Eng), s.pair.resync ≠ none → s.joining = some e → Settled s → Gives .resyncTimeout s (fun t =>
    t.pair.resync = none ∧ (t.eng e).act = false ∧ (t.eng e).state ≠ .resyncing ∧ (t.eng e).state ≠ .standby ∧
    Reports .resyncFailed (le 1 (engCode e)) s t)) ∧
  (∀ (s : State) (c : Instr) (f : Fin 68) (whole : Bool) (k : DbKind) (v : BitVec 64), Rung c f whole k v → s.noPartner = false →
    s.partnerHeld [2] = true →
    let x : HeldTx := { op := .doorbell f k.page whole v.toNat, stamp := s.time64 }
    let n := (s.pair.held.filter (fun y => s.heldLink y.op = s.fnLink f)).length
    (s.pair.handover.isSome = true → (s.fn f).state = .evicting → Gives c s (fun t => t.pair = s.pair)) ∧
    (s.pair.handover = none ∨ (s.fn f).state ≠ .evicting →
      (s.holding = false ∨ n < 8192 → Gives c s (fun t => Keeps [.watch, .supply, .power, .pair] s t ∧
        t.pair = { s.pair with held := s.pair.held ++ [x] })) ∧
      (s.holding = true → 8192 ≤ n → Gives c s (fun t => t.pair.held = s.pair.held ∧
        t.pair.merge = s.pair.merge.filter (fun y => y.op.sameKey x.op = false) ++ [x] ∧
        ((∃ y ∈ s.pair.merge, y.op.sameKey x.op = true) → Counted .handoverDbMerged 0 0 1 s t))))) ∧
  (∀ (s : State) (c : Instr) (f : Fin 68) (go : BitVec 8) (req : MbxReq) (op : Nat), Requests c f go req op → s.noPartner = false →
    s.partnerHeld [2, 5] = true → s.pair.handover = none ∨ (s.fn f).state ≠ .evicting →
    (s.pair.held.filter (fun y => s.heldLink y.op = s.fnLink f)).length + 9 ≤ 8192 → Gives c s (fun t =>
      t.pair.held = s.pair.held ++ ((mbxWords (mbxWithOp req op)).map (fun w : Nat × Nat => HeldOp.record f w.1 w.2) ++ [HeldOp.mailbox f go.toNat]).map
        (fun o => ({ op := o, stamp := s.time64 } : HeldTx)))) ∧
  (∀ (s : State) (n : Fin 4) (set : BitVec 4) (seq : BitVec 16), s.noPartner = false → s.partnerHeld [5] = true →
    s.pair.handover = none ∨ (s.fn (64 + n)).state ≠ .evicting →
    (s.pair.held.filter (fun y => s.heldLink y.op = s.fnLink (64 + n))).length < 8192 → Gives (.snapshotTrigger n set seq) s (fun t =>
      t.pair.held = s.pair.held ++
        [{ op := .snap n set.toNat seq.toNat (s.snapShot n set.toNat seq.toNat), stamp := s.time64 }]))

/-! ### The Lookout (11_lookout) -/

/-- Serves, expiries and resets (R262 to R268, R273, Table 11-2). A serve opens a new period and clears the warning interrupt; one at the
close of a period comes after what the close brings. A bad serve, the end of the period or a TEST warns, with the program counter and
the last serve; the end of the warning period, or a bad serve in it, resets what the channel watches, but a test becomes an ordinary
warning. A reset of an engine channel is requested of the Junction, jointly where the other engine's channel of the kind has requested;
that of S restarts the Supervisor. Choices of the model it rests on: log 56. -/
def Obligations.ChannelsWarnThenReset : Prop :=
  (∀ (s : State) (ch : Fin 5), s.loCounts ch = false → s.loOver ch = false → exec (.lookoutServe ch) s = .next s) ∧
  (∀ (s : State) (ch : Fin 5), s.loCounts ch = true → s.loOver ch = false → Gives (.lookoutServe ch) s (fun t =>
    (t.chan ch).state = .counting ∧ (t.chan ch).lastServe = s.time64 ∧ (t.chan ch).opened = s.time.elapsed ∧
    (t.chan ch).len = s.loLen ch (t.chan ch).ref32 ∧ ch.val ∉ t.lookout.warnInt ∧ ∀ c, c ≠ ch.val → t.chan c = s.chan c)) ∧
  (∀ (s : State) (ch : Fin 5), s.loCounts ch = true → s.loOver ch = true → Settled s →
    ((s.chan ch).state = .counting → Gives (.lookoutServe ch) s (fun t => (t.chan ch).state = .counting ∧
      (t.chan ch).lastServe = s.time64 ∧ (t.chan ch).warns = satAdd 32 (s.chan ch).warns 1 ∧
      ∃ pc, Reports .lookoutWarning (le 1 ch.val ++ le 4 pc ++ le 8 (s.chan ch).lastServe ++ le 1 0) s t)) ∧
    ((s.chan ch).state = .warning → (s.chan ch).test = false → Gives (.lookoutServe ch) s (fun t => (t.chan ch).state = .counting ∧
      (t.chan ch).lastServe = (s.chan ch).lastServe ∧ (t.chan ch).resets = satAdd 32 (s.chan ch).resets 1 ∧ (t.chan ch).expiry = true))) ∧
  (∀ (s : State) (ch : Fin 5) (pc : Word) (c : Instr) (test : Bool), s.loCounts ch = true → Settled s →
    ((s.chan ch).state = .counting ∧ c = .lookoutExpiry ch pc ∧ test = false) ∨ (s.noPartner = false ∧ c = .loCmdTest ch pc ∧ test = true) ∨
      ((s.chan ch).state = .counting ∧ s.loOver ch = false ∧ c = .badServe ch pc ∧ test = false) →
    Gives c s (fun t => (t.chan ch).state = .warning ∧ (t.chan ch).warnPc = pc.toNat ∧ (t.chan ch).latched = (s.chan ch).lastServe ∧
      (t.chan ch).warns = satAdd 32 (s.chan ch).warns 1 ∧ (t.chan ch).test = test ∧
      (ch.val < 2 → s.power.domain = true → s.loStopped ch = true → s.power.mode = .run ∨ s.power.mode = .idle →
        (t.island (loIsland ch)).state = .on ∧ (t.island (loIsland ch)).isolated = false) ∧
      Reports .lookoutWarning (le 1 ch.val ++ le 4 pc.toNat ++ le 8 (s.chan ch).lastServe ++ le 1 (ofBool test)) s t)) ∧
  (∀ (s : State) (ch : Fin 5) (pc : Word) (c : Instr) (x : LoChan), s.loCounts ch = true → (s.chan ch).state = .warning →
    (c = .badServe ch pc ∧ s.loOver ch = false ∧ x = { LoChan.init ch with badServe := true }) ∨
      (c = .warningPeriodClose ch pc ∧ (s.chan ch).stalled = false ∧ (s.chan ch).test = false ∧
        x = { LoChan.init ch with expiry := true }) →
    Gives c s (fun t => (t.chan ch).state = .counting ∧ (t.chan ch).opened = s.time.elapsed ∧
      (t.chan ch).resets = satAdd 32 (s.chan ch).resets 1 ∧ (t.chan ch).expiry = x.expiry ∧ (t.chan ch).badServe = x.badServe ∧
      (t.chan ch).clockLoss = false ∧ ch.val ∉ t.lookout.warnInt ∧
      (ch.val = 4 → t.lookout.supRest = true ∧ Reports .lookoutReset (le 1 ch.val ++ le 2 x.cause) s t) ∧
      (ch.val ≠ 4 → (∀ e ∈ s.lookout.hold, e.1 ≠ loPartner ch ∨ e.2.1 + 16 ≤ s.time.jcycle) →
        t.lookout.hold = s.lookout.hold ++ [(ch.val, s.time.jcycle, false)] ∧ (t.chan ch).common = false ∧
        Reports .lookoutReset (le 1 ch.val ++ le 2 x.cause) s t) ∧
      (ch.val ≠ 4 → (∃ e ∈ s.lookout.hold, e.1 = loPartner ch ∧ s.time.jcycle < e.2.1 + 16) →
        (∀ e ∈ t.lookout.hold, e.1 = loPartner ch → e.2.2 = true) ∧ (t.chan ch).common = true ∧
        Reports .lookoutReset (le 1 ch.val ++ le 2 (x.cause + 256)) s t))) ∧
  (∀ (s : State) (ch : Fin 5) (pc : Word), s.loCounts ch = true → (s.chan ch).state = .warning → (s.chan ch).stalled = false →
    (s.chan ch).test = true → Settled s → Gives (.warningPeriodClose ch pc) s (fun t => (t.chan ch).state = .warning ∧
      (t.chan ch).test = false ∧ (t.chan ch).warns = satAdd 32 (s.chan ch).warns 1 ∧
      Reports .lookoutWarning (le 1 ch.val ++ le 4 pc.toNat ++ le 8 (s.chan ch).lastServe ++ le 1 0) s t)) ∧
  (∀ (s : State) (ch : Fin 5), ch.val < 2 → s.power.mode ≠ .off →
    Gives (.lookoutClockTrip ch false) s (Raises .lookoutClockTrip (le 1 ch.val ++ le 1 (ofBool (s.chan ch).ref32))
      (s.setChan ch (fun x => { x with tripped := true, moved := true, ref32 := !(s.chan ch).ref32 }))) ∧
    Gives (.lookoutClockTrip ch true) s (fun t => (t.chan ch).clockLoss = true ∧ (t.chan ch).tripped = true ∧
      (t.chan ch).resets = satAdd 32 (s.chan ch).resets 1 ∧ (t.chan ch).state = .counting))

/-- What a reset does (R270 to R274). At the end of its hold an engine's request makes the engine relinquish with cause 5; both engines'
L requests begin a management restart, both F requests fence the sled. The warning interrupt is delivered to the engines that
receive. The management restart answers what was in progress with 10 and starts both L channels; the Supervisor restarts with a new
session; the oldest evidence goes to the head of its region of the Logbook. Choices of the model it rests on: log 56. -/
def Obligations.ResetsRelinquishRestartOrFence : Prop :=
  (∀ (s : State) (e : Nat × Nat × Bool) (r : List (Nat × Nat × Bool)), s.lookout.hold = e :: r →
    (s.time.jcycle < e.2.1 + 16 → exec .lookoutResetHold s = .next s) ∧
    (e.2.1 + 16 ≤ s.time.jcycle → e.2.2 = false → Acting (loEngine e.1) s →
      Gives .lookoutResetHold s (fun t => HandsOver (loEngine e.1) 5 false s t ∧ t.lookout.hold = r)) ∧
    (e.2.1 + 16 ≤ s.time.jcycle → e.2.2 = true → e.1 < 2 → Gives .lookoutResetHold s (fun t => t.lookout.restart = true ∧
      t.lookout.hold = r ∧ t.host.msgs = s.host.msgs.filter (fun m => !m.kept) ∧
      ∀ f < 68, (s.fn f).state = .checking → (t.fn f).state = .idle)) ∧
    (e.2.1 + 16 ≤ s.time.jcycle → e.2.2 = true → 2 ≤ e.1 → s.pair.fenced = false →
      Gives .lookoutResetHold s (fun t => FencedBy 5 s t ∧ t.lookout.hold = r))) ∧
  (∀ (s : State) (e : Nat × Nat) (r : List (Nat × Nat)), s.lookout.warnAt = e :: r →
    (s.time.jcycle < e.2 + 16 → exec .warningDelivery s = .next s) ∧
    (e.2 + 16 ≤ s.time.jcycle → Gives .warningDelivery s (fun t =>
      t.lookout.warnAt = r ∧ ∀ c, c ∈ t.lookout.warnInt ↔ c ∈ s.lookout.warnInt ∨
        ((c = e.1 ∨ (s.pair.warm = false ∧ c = loPartner e.1)) ∧ s.receives (loEngine c) = true)))) ∧
  (∀ s : State, s.lookout.restart = true → Gives .mgmtRestart s (fun t => t.lookout.restart = false ∧
    (t.chan 0).state = .counting ∧ (t.chan 1).state = .counting ∧ Reports .mgmtRestart [] s t ∧
    ∀ f < 68, (s.fn f).busy = true → Answered f (s.fn f).goOp (s.fn f).goSeq 0x0A 0 t)) ∧
  (∀ s : State, s.lookout.supRest = true → Gives .supervisorRestarted s (fun t => t.lookout.supRest = false ∧
    (t.chan 4).state = .counting ∧ t.tether.session = (s.tether.session + 1) % 256 ∧ t.tether.counts = s.tether.counts ∧
    t.tether.claim = (if s.tetherCtrlEn = 1 then .listening else .disabled) ∧ Reports .supervisorRestarted [] s t)) ∧
  (∀ (s : State) (e : Nat × Nat × Nat × Nat × Nat × Nat) (r : List (Nat × Nat × Nat × Nat × Nat × Nat)), s.lookout.evidence = e :: r →
    (s.lookout.supRest = true → exec .lookoutEvidenceCopy s = .next s) ∧
    (s.lookout.supRest = false → s.supply.braced = false → regionBase 3 + (s.region 3).head ∉ s.log.badRows →
      Gives .lookoutEvidenceCopy s (fun t => Keeps [.lookout, .log] s t ∧ t.lookout.evidence = r ∧
        t.region 3 = RegionSt.next (regionRows 3) (s.region 3) ∧
        t.log.mem = memStore s.log.mem (64 * (regionBase 3 + (s.region 3).head))
          (circularRow 3 1 (s.region 3).lap (regionBase 3 + (s.region 3).head) e.2.2.2.2.2 (evidenceRow e).body))))

/-! ### Supply and the backup cell (12_supply_and_backup_cell) -/

/-- Mains and the bulk rail (R276 to R284, Table 12-2). A fall of the mains opens the grace window, their return closes it as a dip; in Off
they stop and start the latch's mains-return timer. At the end of the grace window the sled saves its clock and goes Off, and
cold-starts once the mains are back and RESTART_ON_MAINS was latched. A fall of the bulk rail braces the sled once, with the crossing
time and a ceiling of 400 MHz; a window of 5 ms without a sample below 11.3 V lifts the brace and empties the deferral queue; a bulk
reset holds the Shell package, set-up at reset and reason 5, until its release forms the pair again. Choices of the model it rests on:
log 10, 29, 30. -/
def Obligations.SupplyLossBracesResetsAndShutsDown : Prop :=
  (∀ s : State, s.power.mode ≠ .off →
    (s.supply.acFail = false → Gives .acFailRise s (Raises .mainsLost []
      (s.onSupply (fun x => { x with acFail := true, mains := false, retRun := none, graceAt := some s.time.elapsed })))) ∧
    (s.supply.acFail = true → Gives .acFailFall s (Raises .mainsRestored []
      (s.onSupply (fun x =>
        { x with acFail := false, mains := true, graceAt := none,
                 dips := if s.supply.graceAt.isSome then satAdd 32 s.supply.dips 1 else s.supply.dips }))))) ∧
  (∀ s : State, s.power.mode = .off →
    (s.supply.acFail = false → exec .acFailRise s =
      .next (s.onSupply (fun x => { x with acFail := true, mains := false, retRun := none })).latchCheck) ∧
    (s.supply.acFail = true → exec .acFailFall s =
      .next (s.onSupply (fun x => { x with acFail := false, mains := true, retRun := some 0 })))) ∧
  (∀ s : State, s.supply.acFail = true → s.supply.graceAt.isSome = true → Gives .mainsGraceExpiry s (fun t => t.power.mode = .off ∧
    t.supply.shutdown = true ∧ t.supply.losses = satAdd 32 s.supply.losses 1 ∧ t.supply.graceAt = none ∧ t.rtc.savedC = s.rtc.count ∧
    (s.coreRuns = true → t.rtc.savedD = s.time.now ∧ t.rtc.savedP = s.rtc.count) ∧ (∀ i < 20, (t.island i).state = .off) ∧
    (∀ n < 8, (t.link n).up = false) ∧ (∀ m < 16, (t.mac m).link ≠ .up ∧ (t.sch m).cur = none) ∧
    (∀ p < 2, (t.watchLane p).running = false ∧ (t.watchLane p).ready = false) ∧ Reports .powerLossShutdown [] s t)) ∧
  (∀ (s : State) (test : SelfTest), s.canStart .mainsReturn = true → Bootable test s → Gives (.mainsReturn test) s (fun t =>
    t.power.mode = .run ∧ t.log.stage = 4 ∧ t.power.wakeSrc = 0x11 ∧ t.pair.acts = PairSt.init.acts ∧ t.rtc.count = s.rtc.savedC ∧
    Reports .timeRestored [] s t ∧ Reports .pwrExited (le 4 t.wakeWord ++ le 8 t.power.wakeTime) s t)) ∧
  (∀ (s : State) (mv crossing : Nat), s.bulkOn = true →
    (s.supply.braced = false ∨ s.recoveryDue = true → Gives (.supplyWarn mv crossing) s (fun t => t.supply.braced = true ∧
      t.supply.minMv = mv % 2 ^ 16 ∧ t.supply.warns = satAdd 32 s.supply.warns 1 ∧ 2 ≤ t.power.ceiling ∧
      Reports .supplyWarn (le 8 crossing) s t ∧ (s.recoveryDue = true → Reports .supplyRecovered (le 2 s.supply.minMv) s t) ∧
      (s.power.mode = .run → ∀ k < 7, (t.knob k).applied ≤ 400))) ∧
    (s.supply.braced = true → s.recoveryDue = false → exec (.supplyWarn mv crossing) s = .next (s.onSupply (fun x =>
      { x with nowMv := mv % 2 ^ 16, minMv := min x.minMv (mv % 2 ^ 16), recovery := none })))) ∧
  (∀ (s : State) (mv : Nat), s.supply.braced = true → s.recoveryDue = false →
    exec (.bulkRailRecoveryCrossing mv) s = .next (s.onSupply (fun x =>
      { x with nowMv := mv % 2 ^ 16, minMv := min x.minMv (mv % 2 ^ 16),
               recovery := if 11300 ≤ mv % 2 ^ 16 then some (x.recovery.getD s.time.elapsed) else none }))) ∧
  (∀ s : State, s.recoveryDue = false → exec .supplyRecovered s = .next s) ∧
  (∀ (s : State) (c : Instr), s.recoveryDue = true → c = .supplyRecovered ∨ (∃ mv, c = .bulkRailRecoveryCrossing mv) → Gives c s (fun t =>
    t.supply.braced = false ∧ t.supply.recovery = none ∧ t.supply.deferred = [] ∧ Reports .supplyRecovered (le 2 s.supply.minMv) s t)) ∧
  (∀ (s : State) (mv : Nat), s.bulkOn = true → Gives (.bulkReset mv) s (fun t => t.supply.inReset = true ∧ t.supply.braced = false ∧
    t.supply.bulks = satAdd 32 s.supply.bulks 1 ∧ t.setup = SetupSt.init ∧ t.tx = [] ∧ t.rx = [] ∧ t.cq = [] ∧ t.log.reason = 5 ∧
    t.log.stage = 2 ∧ t.log.ready = false ∧ t.rtc = s.rtc ∧ Reports .bulkReset [] s t)) ∧
  (∀ (s : State) (test : SelfTest), s.supply.inReset = true → test.passA = true → test.passB = true → s.copyGood 1 = false →
    s.copyGood 2 = false → Gives (.bulkResetRelease test) s (fun t => t.supply.inReset = false ∧ t.power.mode = .run ∧ t.log.stage = 4 ∧
      t.pair.acts = PairSt.init.acts ∧ t.time.source = .restored ∧ t.time.now = s.rtcTime ∧ Reports .setupImageNone [] s t))

/-- Rails, the AO regulator and the cell (R285, R287, R289, Tables 12-4 and 12-7). A rail outside its window sets its bit and raises
RAIL_FAULT with the rail's code and the voltage: CORE_A's makes that engine relinquish, JCT's and SERDES's fence the sled, AO's browns
it out, AUX's switches the service output off. In Deep sleep 19.0 mA wakes. The charger follows its table; a probe above 3.3 V declares
the cell absent, any other present, and below 2.7 V low. Choices of the model it rests on: log 10, 35, 69. -/
def Obligations.RailsAndTheCellFollowTheirTables : Prop :=
  (∀ (s : State) (r : Rail) (mv : Nat),
    (s.power.mode = .off ∨ s.railOutside r (mv % 2 ^ 16) = false → exec (.railFault r mv) s = .next s) ∧
    (s.power.mode ≠ .off → s.railOutside r (mv % 2 ^ 16) = true → Gives (.railFault r mv) s (fun t =>
      Reports .railFault (le 1 (railRow r + 1) ++ le 2 (mv % 2 ^ 16)) s t ∧
      (r ≠ .ao → Settled s → bit t.supply.rails (railRow r) = true) ∧
      (r = .coreA → Acting .a s → HandsOver .a 1 false s t) ∧ (r = .coreB → Acting .b s → HandsOver .b 1 false s t) ∧
      (r = .junction ∨ r = .serdes → s.pair.fenced = false → FencedBy 0xA s t) ∧
      (r = .ao → s.supply.mains = true ∨ s.supply.cell ≠ .absent → t.power.mode = .off ∧ t.supply.brownout = true ∧
        ∀ i < 20, (t.island i).state = .off ∧ (t.island i).isolated = true) ∧
      (r = .aux → t.supply.auxOn = false) ∧
      (r = .cage → Raises .railFault (le 1 (railRow r + 1) ++ le 2 (mv % 2 ^ 16))
        (s.onSupply (fun x => { x with rails := Nat.lor x.rails (2 ^ railRow r) })) t)))) ∧
  (∀ s : State, (s.noPartner = true → exec .auxReenable s = .next s) ∧
    (s.noPartner = false → exec .auxReenable s = .next (((s.arrives 64).wrote 0x8001C 1).onSupply (fun x => { x with auxOn := true })))) ∧
  (∀ (s : State) (ua : Nat), (s.supply.lowPower = false ∨ ua < 19000 → exec (.aoBudgetSample ua) s = .next s) ∧
    (s.supply.lowPower = true → 19000 ≤ ua → s.power.mode = .deepSleep → Gives (.aoBudgetSample ua) s (Wakes 4 0 s))) ∧
  (∀ s : State, s.supply.lowPower = true → s.supply.mains = true ∨ s.supply.cell ≠ .absent → Gives .aoBrownout s (fun t =>
    t.power.mode = .off ∧ t.supply.brownout = true ∧ t.supply.braced = false ∧ t.supply.deferred = [])) ∧
  (∀ s : State,
    (s.supply.cell = .chargingCc → exec .cellCvReached s = .next (s.onSupply (fun x => { x with cell := .chargingCv, cellMv := 3100 }))) ∧
    (s.supply.cell = .chargingCv → exec .chargeComplete s = .next (s.cellTo .charged)) ∧
    (s.supply.cell = .tempHold → exec .chargeTempResume s = .next (s.cellTo .chargingCc)) ∧
    (s.supply.cell.charging = true → Gives .chargeTempHold s (Raises .chargeTempHold [] (s.cellTo .tempHold)) ∧
      (s.power.mode ≠ .off → Gives .cellRemoved s (Raises .cellAbsent [] (s.onSupply (fun x =>
        { x with cell := .absent, cellLow := false, absents := satAdd 32 x.absents 1 })))))) ∧
  (∀ (s : State) (mv : Nat), s.power.mode ≠ .off → s.supply.cell.charging = false →
    (3300 < mv % 2 ^ 16 → s.supply.cell ≠ .absent → Gives (.cellProbe mv) s (Raises .cellAbsent [] (s.onSupply (fun x =>
      { x with cellMv := mv % 2 ^ 16, cell := .absent, cellLow := false, absents := satAdd 32 x.absents 1 })))) ∧
    (3300 < mv % 2 ^ 16 → s.supply.cell = .absent → exec (.cellProbe mv) s =
      .next (s.onSupply (fun x => { x with cellMv := mv % 2 ^ 16 }))) ∧
    (mv % 2 ^ 16 ≤ 3300 → Gives (.cellProbe mv) s (fun t => t.supply.cellMv = mv % 2 ^ 16 ∧
      t.supply.cellLow = decide (mv % 2 ^ 16 < 2700) ∧
      (s.supply.cell = .absent → t.supply.cell = (if 2950 ≤ mv % 2 ^ 16 then .charged else .chargingCc) ∧ Reports .cellPresent [] s t) ∧
      (s.supply.cell = .charged → t.supply.cell = (if 2950 ≤ mv % 2 ^ 16 then .charged else .chargingCc)) ∧
      (mv % 2 ^ 16 < 2700 → s.supply.cellLowAt = none → Reports .cellLow [] s t ∧ t.supply.cellLowAt = some s.rtc.count))))

/-! ### The Foreman (14_foreman) -/

/-- The loops and the thermal ceiling (R313, R317 to R319, R321, R322). Each window joins the history. At its close a loop that may act,
and whose row of Table 14-1 asks for a step, moves its knob one step inside its floor and ceiling; the brace and the thermal level limit
the frequency, and the guarantee of R317 can raise the BIST share of knob 18; in a transition of the pair, a management restart or the
end of a group-sleep round none acts. At HOT the ceiling is 400 MHz and at HOT + 10 200 MHz; a step lifts after 100 windows below its
threshold minus 5; each change raises FM_THERMAL_LEVEL with the old level, the new one and the temperature. Choices of the model it
rests on: log 11, 46, 82. -/
def Obligations.LoopsStepKnobsUnderTheThermalCeiling : Prop :=
  (∀ (s : State) (l : List (Nat × Nat × Nat)), s.power.mode ≠ .run → s.power.mode ≠ .idle → exec (.foremanLoop l) s = .next s) ∧
  (∀ (s : State) (l : List (Nat × Nat × Nat)), s.power.mode = .run ∨ s.power.mode = .idle →
    Gives (.foremanLoop l) s (fun t => t.foreman.hist = (s.fmWindow l :: s.foreman.hist).take 1000) ∧
    (s.loopsHeld = true → exec (.foremanLoop l) s = .next (s.fmClose l))) ∧
  (∀ (s : State) (k : Nat) (l : List (Nat × Nat × Nat)), k = 0 ∨ (7 ≤ k ∧ k < 19) → s.loopsHeld = false →
    s.power.mode = .run ∨ s.power.mode = .idle → s.loopDue k = true → (s.knob k).wasPin = false →
    let w := (s.fmClose l).knobWants k
    w.1 = true ∨ w.2 = true → Gives (.foremanLoop l) s (fun t =>
      (let x := min (max (knobStep k (s.knob k).applied w.1) (knobValue k (s.fmFloorValue k))) (knobValue k (s.fmCeilingValue k))
       (t.knob k).applied = if k = 0 then min x (s.knobLimit 0).1
         else if k = 18 ∧ x < 100 then max x (min 100 (Config.bistNeed s.time.elapsed : Int)) else x) ∧
      ((t.knob k).applied ≠ (s.knob k).applied →
        (t.knob k).changed = s.time.elapsed ∧ (t.knob k).changes = satAdd 32 (s.knob k).changes 1))) ∧
  (∀ (s : State) (h : Int), s.power.mode = .run ∨ s.power.mode = .idle ∨ s.power.mode = .entering →
    (s.foreman.level < 2 → (s.fmThermalHot : Int) + 10 ≤ h → Gives (.thermalWindow h) s (fun t => t.foreman.level = 2 ∧
      t.foreman.cool = 0 ∧ (∀ k < 7, (t.knob k).applied ≤ 200) ∧
      Reports .fmThermalLevel (le 1 s.foreman.level ++ le 1 2 ++ le 1 (unsigned 8 h)) s t)) ∧
    (s.foreman.level = 0 → (s.fmThermalHot : Int) ≤ h → h < (s.fmThermalHot : Int) + 10 → Gives (.thermalWindow h) s (fun t =>
      t.foreman.level = 1 ∧ t.foreman.cool = 0 ∧ (∀ k < 7, (t.knob k).applied ≤ 400) ∧
      Reports .fmThermalLevel (le 1 0 ++ le 1 1 ++ le 1 (unsigned 8 h)) s t)) ∧
    (∀ L : Nat, s.foreman.level = L → L = 1 ∨ L = 2 → h < (s.fmThermalHot : Int) + (if L = 2 then 5 else -5) →
      (s.foreman.cool + 1 < 100 → exec (.thermalWindow h) s = .next (s.onForeman (fun f => { f with cool := f.cool + 1 }))) ∧
      (100 ≤ s.foreman.cool + 1 → Gives (.thermalWindow h) s (fun t => t.foreman.level = L - 1 ∧ t.foreman.cool = 0 ∧
        Reports .fmThermalLevel (le 1 L ++ le 1 (L - 1) ++ le 1 (unsigned 8 h)) s t)))) ∧
  (∀ (s : State) (h : Int), s.power.mode ≠ .run → s.power.mode ≠ .idle → s.power.mode ≠ .entering →
    exec (.thermalWindow h) s = .next s)

/-! ### The Tether and the Stand (15_tether) -/

/-- Frames on the bus and received frames (R327 to R330, R333, R335, R340). What a sender stuffs its receivers read. A frame with a
stuffing or a form error, of no type of Table 15-2, or with a wrong priority or length is counted; so is one whose sender or check is
wrong; a repeat is acknowledged again and counted. An accepted frame is acknowledged and counted, and its station is present from now;
one that was not is announced. A Tether that does not run receives none. Choices of the model it rests on: log 12, 57. -/
def Obligations.TetherFramesAreCheckedThenTaken : Prop :=
  (∀ (id seq check : Nat) (p : Bytes), id < 2 ^ 16 → seq < 2 ^ 8 → check < 2 ^ 16 → p.length ≤ 32 →
    readWire (tetherWire id seq p check) = (.ok, id, seq, p, check)) ∧
  ∀ (s : State) (c : Instr) (typ : Nat) (f : TetherFrame), Framed c typ f →
    (s.tetherRuns = false → exec c s = .next s) ∧
    (s.tetherRuns = true →
      (∀ k, s.rxReject f = some k → exec c s = .next (s.tetherCount k)) ∧
      (f.form = .stuffError → s.rxReject f = some 6) ∧
      (f.form = .formError → s.rxReject f = some 7) ∧
      (f.form = .ok → tetherType (bits f.id.toNat 6 7) = none → s.rxReject f = some 7) ∧
      (∀ prio lo hi, f.form = .ok → tetherType (bits f.id.toNat 6 7) = some (prio, lo, hi) →
        (bits f.id.toNat 13 3 ≠ prio ∨ f.payload.length < lo ∨ hi < f.payload.length → s.rxReject f = some 7) ∧
        (bits f.id.toNat 13 3 = prio → lo ≤ f.payload.length → f.payload.length ≤ hi →
          f.check.toNat ≠ tetherCheck f.id.toNat f.seq.toNat f.payload (s.peer (bits f.id.toNat 0 6)).session ∨
            (tetherMember (bits f.id.toNat 6 7) = false ∧ (s.peer (bits f.id.toNat 0 6)).known = false) → s.rxReject f = some 5)) ∧
      (s.rxReject f = none → bits f.id.toNat 6 7 ≠ typ → exec c s = .next s) ∧
      (s.rxReject f = none → bits f.id.toNat 6 7 = typ → s.rxRepeat f = true → exec c s = .next ((s.emit .tetherAck).tetherCount 8))) ∧
    (Accepted typ f s → Gives c s (fun t => (t.peer (bits f.id.toNat 0 6)).present = true ∧
      (t.peer (bits f.id.toNat 0 6)).lastOk = some s.rtc.count ∧ (t.peer (bits f.id.toNat 0 6)).lastId = f.id.toNat ∧
      (t.peer (bits f.id.toNat 0 6)).lastSeq = f.seq.toNat ∧ tget t.tether.counts 1 = satAdd 32 (tget s.tether.counts 1) 1 ∧
      (∃ l, t.out = s.out ++ .tetherAck :: l) ∧
      (s.stationHere (bits f.id.toNat 0 6) = false → Reports .tetherStationUp (le 1 (bits f.id.toNat 0 6)) s t)))

/-- Sending (R327, R328, R331, R332, R334, R336, R347, R348, R351, Table 15-8). At an idle bus the lowest waiting identifier starts, with
the next SEQ; an acknowledged frame is counted and a SYNC followed up; one without an acknowledge or with a bit error is offered up to
three times more where its type is retried; one that lost arbitration waits again, and a late collision backs off. Operator slots are
sent and cancelled by command, and entries of the receive FIFO removed; TETHER_GS_CMD proposes a round, vetoes one, or wakes all.
Choices of the model it rests on: log 12, 57, 69. -/
def Obligations.TheLowestWaitingFrameIsSentAndRetried : Prop :=
  (∀ (s : State) (stamp : Nat), (s.tetherRuns = false ∨ s.tether.sending ≠ none ∨ s.tether.offered = none →
      exec (.tetherTxStart stamp) s = .next s) ∧
    ∀ f, s.tetherRuns = true → s.tether.sending = none → s.tether.offered = some f → Gives (.tetherTxStart stamp) s (fun t =>
      let q := f.seq.getD s.tether.seq
      let p := if f.typ = 0x16 ∧ f.seq = none then le 1 s.tether.round ++ le 1 s.tether.gsMode ++ le 8 (s.commitT stamp) else f.payload
      f ∈ s.tether.queue ∧ (∀ g ∈ s.tether.queue, s.tether.mayOffer g = true → tetherId f.typ s.tether.station ≤ tetherId g.typ s.tether.station) ∧
      t.tether.sending = some { f with seq := some q, payload := p } ∧ t.tether.sendAt = stamp ∧
      t.tether.seq = (if f.seq = none then (s.tether.seq + 1) % 256 else s.tether.seq) ∧
      ∃ l, t.out = s.out ++ .tether (tetherWire (tetherId f.typ s.tether.station) q p
        (tetherCheck (tetherId f.typ s.tether.station) q p s.tether.session)) :: l)) ∧
  (∀ (s : State) (f : TxFrame), s.tether.sending = some f → s.tether.claim ≠ .disabled →
    Gives (.tetherTxEnd .acked) s (fun t => t.tether.sending = none ∧
      tget t.tether.counts 0 = satAdd 32 (tget s.tether.counts 0) 1 ∧
      (∀ n, f.slot = some n → (t.slot n).state = if f.cancel then 4 else 2) ∧
      (f.typ ≠ 0x20 → t.tether.queue = s.tether.queue) ∧
      (f.typ = 0x20 → Queued 0x21 (le 8 s.tether.sendAt ++ le 1 (f.seq.getD 0) ++ le 1 s.time.source.code) s t)) ∧
    (∀ r, r = .bitError ∨ r = .noAck → f.typ ≠ 0x20 → Gives (.tetherTxEnd r) s (fun t => t.tether.sending = none ∧
      (r = .bitError → tget t.tether.counts 4 = satAdd 32 (tget s.tether.counts 4) 1) ∧
      (r = .noAck → s.othersHere = true → tget t.tether.counts 3 = satAdd 32 (tget s.tether.counts 3) 1) ∧
      (tetherRetried f.typ = true → f.tries < 3 → f.cancel = false →
        t.tether.queue = { f with tries := f.tries + 1 } :: s.tether.queue) ∧
      (tetherRetried f.typ = true → f.tries < 3 → f.cancel = true → t.tether.queue = s.tether.queue ∧
        ∀ n, f.slot = some n → (t.slot n).state = 3) ∧
      (tetherRetried f.typ = false ∨ 3 ≤ f.tries → t.tether.queue = s.tether.queue ∧
        ∀ n, f.slot = some n → (t.slot n).state = 5))) ∧
    Gives (.tetherTxEnd .arbLost) s (fun t => t.tether.sending = none ∧ tget t.tether.counts 2 = satAdd 32 (tget s.tether.counts 2) 1 ∧
      (f.cancel = false → t.tether.queue = f :: s.tether.queue) ∧
      (f.cancel = true → t.tether.queue = s.tether.queue ∧ ∀ n, f.slot = some n → (t.slot n).state = 3)) ∧
    Gives (.tetherTxEnd .lateCollision) s (fun t => t.tether.sending = none ∧ t.tether.claim = .backoff ∧
      tget t.tether.counts 9 = satAdd 32 (tget s.tether.counts 9) 1 ∧ Reports .tetherLateCollision [] s t)) ∧
  (∀ (s : State) (n : Fin 8), s.noPartner = false →
    ((s.slot n).state ≠ 1 → (s.slot n).len ≤ 32 → Gives (.tetherTxSend n) s (fun t => (t.slot n).state = 1 ∧
      t.tether.queue = s.tether.queue ++ [{ ownFrame 0x40 (s.slot n).payload with slot := some n.val }])) ∧
    ((s.slot n).state = 1 ∨ 32 < (s.slot n).len → exec (.tetherTxSend n) s = .next ((s.arrives 64).wrote 0x88040 (n + 256))) ∧
    ((∃ f ∈ s.tether.queue, f.slot = some n.val) → Gives (.tetherTxCancel n) s (fun t => (t.slot n).state = 3 ∧
      t.tether.queue = s.tether.queue.filter (fun f => f.slot ≠ some n.val))) ∧
    ((∀ f ∈ s.tether.queue, f.slot ≠ some n.val) → ∀ f, s.tether.sending = some f → f.slot = some n.val →
      Gives (.tetherTxCancel n) s (fun t => t.tether.sending = some { f with cancel := true } ∧ t.tether.queue = s.tether.queue))) ∧
  (∀ s : State, s.noPartner = false → exec .tetherRxPop s =
    .next (((s.arrives 64).wrote 0x88304 1).onTether (fun t => { t with fifo := t.fifo.drop 1 }))) ∧
  (∀ (s : State) (c : Instr), s.noPartner = true → (∃ n, c = .tetherTxSend n ∨ c = .tetherTxCancel n) ∨ c = .tetherRxPop ∨
    (∃ m h, c = .gsCmdPropose m h) ∨ c = .gsCmdVeto ∨ c = .gsCmdWakeAll → exec c s = .next s) ∧
  (∀ (s : State) (mode : BitVec 2) (h : Int), s.noPartner = false → mode = 1 ∨ mode = 2 →
    let u := s.gsWritten (1 + 4 * mode.toNat)
    let why := if s.tether.claim = .joined then u.gsRefusal s.tether.station mode.toNat h else 2
    (why = 0 → Gives (.gsCmdPropose mode h) s (fun t => t.tether.gs = .proposed ∧ t.tether.proposer = s.tether.station ∧
      t.tether.round = (s.tether.round + 1) % 256 ∧ t.tether.gsMode = mode.toNat ∧ t.tether.members = s.presentMap ∧
      Queued 0x13 (le 1 ((s.tether.round + 1) % 256) ++ le 1 mode.toNat ++ le 8 s.presentMap) s t)) ∧
    (why ≠ 0 → Gives (.gsCmdPropose mode h) s (fun t => t.tether.gsStat = .refused ∧ t.tether.reason = why ∧
      t.tether.gs = s.tether.gs ∧ t.tether.queue = s.tether.queue))) ∧
  (∀ (s : State) (mode : BitVec 2) (h : Int), s.noPartner = false → mode ≠ 1 → mode ≠ 2 →
    exec (.gsCmdPropose mode h) s = .next (s.gsWritten (1 + 4 * mode.toNat))) ∧
  (∀ s : State, s.noPartner = false → s.tether.claim ≠ .disabled → Gives .gsCmdWakeAll s (Queued 0x11 [] s) ∧
    (s.tether.gs = .agreed ∨ s.tether.gs = .committed → (∀ f ∈ s.tether.queue, f.typ ≠ 0x10) →
      Gives .gsCmdVeto s (Queued 0x10 (le 1 s.tether.round ++ le 1 s.tether.proposer) s)) ∧
    (s.tether.gs = .none → Gives .gsCmdVeto s (fun t => t.tether.queue = s.tether.queue)))

/-- The claim, the station table and fallback time (R337 to R344, Table 15-3). A station claims a free number, its preferred one first,
joins at the end of the claim window, and objects to claims of its number; of two stations with one number the lower serial keeps
it. Membership frames record serial and session; a station silent for 1 s of the RTC is gone. The reference sends SYNC; a FOLLOW of its
SYNC has device time step from 10 µs of offset on, and below that moves the rate by at most 20 ppm, from the next J-cycle on (R47).
Choices of the model it rests on: log 12, 17, 57. -/
def Obligations.StationsClaimJoinAndFollowTheReference : Prop :=
  (∀ s : State, s.tetherRuns = true → s.tether.claim = .listening →
    ((∃ n < 64, (s.peer n).present = false) → Gives .listenWindowEnd s (fun t => t.tether.claim = .claiming ∧
      (s.peer t.tether.station).present = false ∧
      (s.tetherCtrlPrefEn = 1 → (s.peer s.tetherCtrlPreferred).present = false → t.tether.station = s.tetherCtrlPreferred) ∧
      t.tether.queue = s.tether.queue.filter (fun f => f.typ ≠ 1) ++ [ownFrame 0x01 s.identity])) ∧
    ((∀ n < 64, (s.peer n).present = true) → (∀ n, s.tether.lastNum = some n → n < 64) → Gives .listenWindowEnd s (fun t =>
      t.tether.claim = .listening ∧ Reports .tetherFull [] s t))) ∧
  (∀ s : State, s.tetherRuns = true → s.tether.claim = .claiming → (∀ f ∈ s.tether.queue, f.typ ≠ 1) → Gives .claimWindowEnd s (fun t =>
    t.tether.claim = .joined ∧ t.tether.lastNum = some s.tether.station ∧ Queued 0x03 s.heartbeat s t ∧
    Reports .tetherJoined (le 1 s.tether.station) s t)) ∧
  (∀ s : State, s.tetherRuns = true → s.tether.claim = .backoff → Gives .backoffEnd s (fun t => Keeps [.tether] s t ∧
    t.tether.claim = .listening ∧ t.tether.excluded = [])) ∧
  (∀ s : State, s.tetherRuns = true → s.tether.claim = .joined → Gives .heartbeatSend s (Queued 0x03 s.heartbeat s) ∧
    (s.tether.timeRef = s.tether.station → s.coreRuns = true → Gives .syncSend s (Queued 0x20 [] s))) ∧
  (∀ (s : State) (n : Fin 64), (s.peer n).present = true →
    ((s.rtc.count + 2 ^ 48 - (s.peer n).lastAt) % 2 ^ 48 < 32768 → exec (.tetherStationGone n) s = .next s) ∧
    (32768 ≤ (s.rtc.count + 2 ^ 48 - (s.peer n).lastAt) % 2 ^ 48 → Gives (.tetherStationGone n) s (fun t => (t.peer n).present = false ∧
      (t.peer n).timeGood = false ∧ Reports .tetherStationGone (le 1 n.val) s t ∧ ∀ k, k ≠ n.val → t.peer k = s.peer k))) ∧
  (∀ (s : State) (c : Instr) (typ : Nat) (f : TetherFrame), Framed c typ f → Accepted typ f s → typ ≤ 3 →
    let n := bits f.id.toNat 0 6
    let serial := leAt f.payload 0 8
    Gives c s (fun t => (t.peer n).serial = serial ∧ (t.peer n).session = byteAt f.payload 8 ∧ (t.peer n).known = true ∧
      (typ = 3 → n ≠ s.tether.station ∨ s.tether.claim ≠ .joined → (t.peer n).timeGood = bit (byteAt f.payload 9) 0) ∧
      (n = s.tether.station → s.tether.claim = .joined → serial ≠ Config.serial.toNat →
        (typ = 1 → t.tether.claim = .joined ∧ Queued 0x02 s.identity s t) ∧
        (typ ≠ 1 → t.tether.claim = (if serial < Config.serial.toNat then .listening else .joined) ∧
          if serial < Config.serial.toNat then Reports .tetherDuplicate (le 8 Config.serial.toNat ++ le 8 serial) s t
          else Queued 0x02 s.identity s t)) ∧
      (n = s.tether.station → s.tether.claim = .claiming → serial ≠ Config.serial.toNat →
        (typ ≠ 3 → if typ = 2 ∨ serial < Config.serial.toNat then
            (t.tether.claim = .claiming ∧ t.tether.station ≠ s.tether.station) ∨ t.tether.claim = .listening
          else t.tether.claim = .claiming ∧ t.tether.station = s.tether.station)))) ∧
  (∀ (s : State) (f : TetherFrame), Accepted 0x20 f s → Gives (.sync f) s (fun t =>
    t.tether.syncSeq = if bits f.id.toNat 0 6 = t.tether.timeRef then some (f.seq.toNat, f.stamp) else s.tether.syncSeq)) ∧
  (∀ (s : State) (f : TetherFrame) (st : Nat), Accepted 0x21 f s → s.tether.syncSeq = some (byteAt f.payload 8, st) →
    (s.rxAccept f).tether.timeRef = bits f.id.toNat 0 6 → ¬(s.tether.claim = .joined ∧ bits f.id.toNat 0 6 = s.tether.station) →
    f.stamp < st + 10000000 → s.timeSrcEnTether = 1 → s.timeGood = false → s.coreRuns = true → Timely s →
    s.time.current = none ∨ 3 ≤ s.time.curSrc → -2684354 ≤ s.time.rate → s.time.rate ≤ 2684354 →
    let offset : Int := (st : Int) - (s.tetherDelayNs : Int) - (leAt f.payload 0 8 : Int)
    (10000 ≤ offset.natAbs → 0 ≤ (s.time.now : Int) + s.increment - offset * 2 ^ 32 → Gives (.follow f) s (fun t =>
      t.time.due = s.time.due ++ [(2, -offset * 65536)] ∧ t.time.now = s.time.now ∧ t.time.rate = s.time.rate ∧
      t.time.source = .tether ∧ t.time.current = some (s.time.elapsed + s.timeHoldMs * uMs) ∧
      tget t.tether.counts 11 = satAdd 32 (tget s.tether.counts 11) 1)) ∧
    (offset.natAbs < 10000 → Gives (.follow f) s (fun t => t.time.now = s.time.now ∧ t.time.rate = s.time.rate ∧
      (∃ r : Int, t.time.due = s.time.due ++ [(1, r)] ∧
        -2684354 ≤ r ∧ r ≤ 2684354 ∧ s.time.rate - 107374 ≤ r ∧ r ≤ s.time.rate + 107374) ∧
      t.time.source = .tether ∧ tget t.tether.counts 11 = satAdd 32 (tget s.tether.counts 11) 1)))

/-- Group sleep and the other messages (R345 to R353, Tables 15-4 and 15-6). A member that PROPOSE names agrees, or refuses with the
first reason that applies; the Elder commits once every member has agreed, and aborts on a refusal, on a veto before its COMMIT, or
when a window closes, 50 and 55 ms after the proposal; a member aborts on ABORT and on a veto in [P, T), and vetoes where no COMMIT came
by P + 60 ms; at T the entry begins. WAKE_ALL wakes; a FAILOVER and an OPERATOR message are reported. Choices of the model it rests on:
log 12, 57. -/
def Obligations.GroupSleepRoundsAgreeCommitOrAbort : Prop :=
  (∀ (s : State) (f : TetherFrame) (h : Int), Accepted 0x13 f s →
    let n := bits f.id.toNat 0 6
    let why := (s.rxAccept f).gsRefusal n (byteAt f.payload 1) h
    (s.tether.claim = .joined → bit (leAt f.payload 2 8) s.tether.station = true → byteAt f.payload 1 = 1 ∨ byteAt f.payload 1 = 2 →
      (why = 0 → Gives (.propose f h) s (fun t => t.tether.gs = .agreed ∧ t.tether.round = byteAt f.payload 0 ∧ t.tether.proposer = n ∧
        t.tether.gsP = f.stamp ∧ t.tether.gsMode = byteAt f.payload 1 ∧ Queued 0x14 (le 1 (byteAt f.payload 0) ++ le 1 n) s t)) ∧
      (why ≠ 0 → Gives (.propose f h) s (fun t => t.tether.gs = s.tether.gs ∧ t.tether.round = s.tether.round ∧
        Queued 0x15 (le 1 (byteAt f.payload 0) ++ le 1 n ++ le 1 why) s t))) ∧
    (s.tether.claim ≠ .joined ∨ bit (leAt f.payload 2 8) s.tether.station = false → Gives (.propose f h) s (fun t =>
      t.tether.gs = s.tether.gs ∧ t.tether.queue = s.tether.queue))) ∧
  (∀ (s : State) (f : TetherFrame), s.answers f = true → bit s.tether.members (bits f.id.toNat 0 6) = true →
    (Accepted 0x14 f s → Gives (.agree f) s (fun t =>
      t.tether.agreed = Nat.lor s.tether.agreed (2 ^ bits f.id.toNat 0 6) ∧
      ({ s.tether with agreed := t.tether.agreed }.allAgreed = true → t.tether.gs = .committed ∧ Queued 0x16 [] s t) ∧
      ({ s.tether with agreed := t.tether.agreed }.allAgreed = false → t.tether.gs = .proposed ∧ t.tether.queue = s.tether.queue))) ∧
    (Accepted 0x15 f s → Gives (.refuse f) s (RoundEnds 8 true s))) ∧
  (∀ (s : State) (f : TetherFrame), Accepted 0x16 f s → s.tether.gs = .agreed → s.tether.round = byteAt f.payload 0 →
    s.tether.proposer = bits f.id.toNat 0 6 → Gives (.tetherCommit f) s (fun t => t.tether.gs = .committed ∧
      t.tether.gsT = leAt f.payload 2 8 ∧ t.tether.gsMode = byteAt f.payload 1 ∧
      Reports .gsCommitted (le 1 (byteAt f.payload 0) ++ le 1 (byteAt f.payload 1) ++ le 8 (leAt f.payload 2 8)) s t)) ∧
  (∀ (s : State) (f : TetherFrame), Accepted 0x12 f s → s.tether.gs = .agreed ∨ s.tether.gs = .committed →
    s.tether.round = byteAt f.payload 0 → s.tether.proposer = bits f.id.toNat 0 6 →
      Gives (.abort f) s (RoundEnds (byteAt f.payload 1) false s)) ∧
  (∀ (s : State) (f : TetherFrame), Accepted 0x10 f s → s.ourRound (byteAt f.payload 0) (byteAt f.payload 1) = true →
    s.tether.gsP ≤ f.stamp →
    (s.tether.gs = .proposed ∨ s.commitWaits = true → Gives (.wakeVeto f) s (RoundEnds 7 true s)) ∧
    (s.commitWaits = false → s.tether.gs = .agreed ∨ (s.tether.gs = .committed ∧ f.stamp < s.tether.gsT) →
      Gives (.wakeVeto f) s (RoundEnds 7 false s)) ∧
    (s.commitWaits = false → s.tether.gs = .committed → s.tether.gsT ≤ f.stamp → Gives (.wakeVeto f) s (fun t =>
      t.tether.gs = .committed ∧ t.tether.queue = s.tether.queue))) ∧
  (∀ s : State, s.tether.claim ≠ .disabled →
    (s.tether.gs = .proposed → (∀ f ∈ s.tether.queue, f.typ ≠ 0x13) →
      (s.tether.gsP + 50000000 ≤ s.time64 → Gives .gsAgreeWindowEnd s (RoundEnds 6 true s)) ∧
      (s.time64 < s.tether.gsP + 50000000 → exec .gsAgreeWindowEnd s = .next s)) ∧
    (s.tether.gs = .committed → s.commitWaits = true →
      (s.tether.gsP + 55000000 ≤ s.time64 → Gives .gsCommitDeadline s (RoundEnds 6 true s)) ∧
      (s.time64 < s.tether.gsP + 55000000 → exec .gsCommitDeadline s = .next s)) ∧
    (s.tether.gs = .agreed → s.tether.gsP + 60000000 ≤ s.time64 → (∀ f ∈ s.tether.queue, f.typ ≠ 0x10) →
      Gives .gsMemberTimeout s (fun t => Keeps [.tether] s t ∧ Queued 0x10 (le 1 s.tether.round ++ le 1 s.tether.proposer) s t))) ∧
  (∀ (s : State) (h : Int), s.tether.gs = .committed → s.commitWaits = false → s.tether.gsT ≤ s.time64 →
    s.power.mode = .run ∨ s.power.mode = .idle → s.power.pendCmd = none →
    (s.pair.fenced = false → s.power.domain = false → s.transition = false → s.tether.gsMode ≠ 2 → Gives (.gsCommitTime h) s (fun t =>
      t.power.mode = .entering ∧ t.power.target = some .sleep ∧ t.tether.gs = .none ∧ t.power.latched = s.tether.heldWake ∧
      t.tether.queue = s.tether.queue.filter (fun f => f.typ ≠ 0x10))) ∧
    (s.pair.fenced = true → s.tether.claim ≠ .disabled → Gives (.gsCommitTime h) s (fun t => t.power = s.power ∧
      Reports .pwrEntryRefused (le 1 2) s t ∧
      t.tether.queue = s.tether.queue.filter (fun f => f.typ ≠ 0x10) ++ [ownFrame 0x11 []]))) ∧
  (∀ (s : State) (h : Int), s.time64 < s.tether.gsT → exec (.gsCommitTime h) s = .next s) ∧
  (∀ (s : State) (f : TetherFrame), Accepted 0x11 f s →
    (s.power.mode = .run ∨ s.power.mode = .idle → Gives (.wakeAll f) s (fun t => t.power = s.power)) ∧
    (s.power.mode = .sleep ∨ s.power.mode = .deepSleep → bit s.wakeEnEn 1 = true → Gives (.wakeAll f) s (fun t =>
      t.power.mode = .exiting ∧ t.power.wakeSrc = 6 ∧ t.power.wakeDet = bits f.id.toNat 0 6))) ∧
  (∀ (s : State) (f : TetherFrame), Accepted 0x30 f s → Gives (.failover f) s (fun t =>
    (t.peer (bits f.id.toNat 0 6)).kind = bits (byteAt f.payload 0) 0 3 ∧
    Reports .standFailover (le 1 (bits f.id.toNat 0 6) ++ le 1 (byteAt f.payload 0) ++ le 1 (byteAt f.payload 1)) s t)) ∧
  (∀ (s : State) (f : TetherFrame), Accepted 0x40 f s →
    (s.tether.fifo.length < 16 → Gives (.operator f) s (fun t => t.tether.fifo = s.tether.fifo ++
      [{ station := bits f.id.toNat 0 6, seq := f.seq.toNat, stamp := f.stamp, data := f.payload }] ∧
      Reports .tetherMsg (le 1 (bits f.id.toNat 0 6)) s t)) ∧
    (16 ≤ s.tether.fifo.length → Gives (.operator f) s (fun t => t.tether.fifo = s.tether.fifo ∧
      tget t.tether.counts 10 = satAdd 32 (tget s.tether.counts 10) 1)))

end
end

