-- ==== Sys2Proof/Laws/Tbl.lean ====
section
/-! SUPPORT. Sparse tables: reading after a write, and the canonical form, which every write keeps. -/
set_option Elab.async false
namespace Sys2Proof.Laws
open Sys2Proof.Machine

variable {α : Type}

theorem find_insert_same (t : List (Nat × α)) (k : Nat) (v : α) : Tbl.find (Tbl.insert t k v) k = some v := by
  induction t with
  | nil => simp [Tbl.insert, Tbl.find]
  | cons e r ih =>
    obtain ⟨j, w⟩ := e
    unfold Tbl.insert
    split
    · simp [Tbl.find]
    · split
      · simp [Tbl.find]
      · rename_i h
        simp [Tbl.find, h, ih]

theorem find_insert_other (t : List (Nat × α)) {k j : Nat} (v : α) (h : j ≠ k) :
    Tbl.find (Tbl.insert t k v) j = Tbl.find t j := by
  induction t with
  | nil => simp [Tbl.insert, Tbl.find, h.symm]
  | cons e r ih =>
    obtain ⟨i, w⟩ := e
    unfold Tbl.insert
    split
    · simp [Tbl.find, h.symm]
    · split
      · rename_i hi
        subst hi
        simp [Tbl.find, h.symm]
      · simp [Tbl.find, ih]

theorem find_erase_other (t : List (Nat × α)) {k j : Nat} (h : j ≠ k) : Tbl.find (Tbl.erase t k) j = Tbl.find t j := by
  induction t with
  | nil => rfl
  | cons e r ih =>
    obtain ⟨i, w⟩ := e
    unfold Tbl.erase
    split
    · rename_i hi
      subst hi
      simp [Tbl.find, h.symm, ih]
    · simp [Tbl.find, ih]

theorem mem_insert {t : List (Nat × α)} {k : Nat} {v : α} {e : Nat × α} (h : e ∈ Tbl.insert t k v) : e = (k, v) ∨ e ∈ t := by
  induction t with
  | nil => simpa [Tbl.insert] using h
  | cons a r ih =>
    obtain ⟨i, w⟩ := a
    unfold Tbl.insert at h
    split at h
    · simpa using h
    · split at h
      · rcases List.mem_cons.1 h with h | h
        · exact .inl h
        · exact .inr (List.mem_cons_of_mem _ h)
      · rcases List.mem_cons.1 h with h | h
        · exact .inr (by simp [h])
        · exact (ih h).imp id (List.mem_cons_of_mem _)

theorem mem_erase {t : List (Nat × α)} {k : Nat} {e : Nat × α} (h : e ∈ Tbl.erase t k) : e ∈ t := by
  induction t with
  | nil => simp [Tbl.erase] at h
  | cons a r ih =>
    obtain ⟨i, w⟩ := a
    unfold Tbl.erase at h
    split at h
    · exact List.mem_cons_of_mem _ (ih h)
    · rcases List.mem_cons.1 h with h | h
      · simp [h]
      · exact List.mem_cons_of_mem _ (ih h)

variable [DecidableEq α]

theorem mem_put {d : Nat → α} {t : List (Nat × α)} {k : Nat} {v : α} {e : Nat × α} (h : e ∈ Tbl.put d t k v) :
    e = (k, v) ∨ e ∈ t := by
  unfold Tbl.put at h
  split at h
  · exact .inr (mem_erase h)
  · exact mem_insert h

theorem wfFrom_weaken {d : Nat → α} {a b : Nat} (h : a ≤ b) {t : List (Nat × α)} (ht : Tbl.wfFrom d b t = true) :
    Tbl.wfFrom d a t = true := by
  cases t with
  | nil => rfl
  | cons e r =>
    obtain ⟨i, w⟩ := e
    simp only [Tbl.wfFrom, Bool.and_eq_true, decide_eq_true_eq] at ht ⊢
    exact ⟨⟨le_trans h ht.1.1, ht.1.2⟩, ht.2⟩

/-- Below the first key of a canonical table nothing is listed. -/
theorem find_below {d : Nat → α} {a k : Nat} {t : List (Nat × α)} (ht : Tbl.wfFrom d a t = true) (h : k < a) :
    Tbl.find t k = none := by
  induction t generalizing a with
  | nil => rfl
  | cons e r ih =>
    obtain ⟨i, w⟩ := e
    simp only [Tbl.wfFrom, Bool.and_eq_true, decide_eq_true_eq] at ht
    have hi : i ≠ k := by omega
    simp [Tbl.find, hi, ih ht.2 (by omega)]

theorem insert_wfFrom {d : Nat → α} {a k : Nat} {v : α} {t : List (Nat × α)} (ht : Tbl.wfFrom d a t = true) (ha : a ≤ k)
    (hv : v ≠ d k) : Tbl.wfFrom d a (Tbl.insert t k v) = true := by
  induction t generalizing a with
  | nil => simp [Tbl.insert, Tbl.wfFrom, ha, hv]
  | cons e r ih =>
    obtain ⟨i, w⟩ := e
    simp only [Tbl.wfFrom, Bool.and_eq_true, decide_eq_true_eq] at ht
    unfold Tbl.insert
    split
    · simp only [Tbl.wfFrom, Bool.and_eq_true, decide_eq_true_eq]
      exact ⟨⟨ha, hv⟩, ⟨by omega, ht.1.2⟩, ht.2⟩
    · split
      · rename_i hi
        subst hi
        simp only [Tbl.wfFrom, Bool.and_eq_true, decide_eq_true_eq]
        exact ⟨⟨ha, hv⟩, ht.2⟩
      · simp only [Tbl.wfFrom, Bool.and_eq_true, decide_eq_true_eq]
        exact ⟨ht.1, ih ht.2 (by omega)⟩

theorem erase_wfFrom {d : Nat → α} {a k : Nat} {t : List (Nat × α)} (ht : Tbl.wfFrom d a t = true) :
    Tbl.wfFrom d a (Tbl.erase t k) = true := by
  induction t generalizing a with
  | nil => rfl
  | cons e r ih =>
    obtain ⟨i, w⟩ := e
    simp only [Tbl.wfFrom, Bool.and_eq_true, decide_eq_true_eq] at ht
    unfold Tbl.erase
    split
    · exact ih (wfFrom_weaken (by omega) ht.2)
    · simp only [Tbl.wfFrom, Bool.and_eq_true, decide_eq_true_eq]
      exact ⟨ht.1, ih ht.2⟩

/-- Every write keeps the canonical form. -/
theorem put_wf {d : Nat → α} {t : List (Nat × α)} (ht : Tbl.wf d t = true) (k : Nat) (v : α) :
    Tbl.wf d (Tbl.put d t k v) = true := by
  unfold Tbl.put
  split
  · exact erase_wfFrom ht
  · rename_i h
    exact insert_wfFrom ht (Nat.zero_le k) h

/-- After a write another key reads as before. -/
theorem get_put_other {d : Nat → α} (t : List (Nat × α)) {k j : Nat} (v : α) (h : j ≠ k) :
    Tbl.get d (Tbl.put d t k v) j = Tbl.get d t j := by
  unfold Tbl.get Tbl.put
  split
  · rw [find_erase_other t h]
  · rw [find_insert_other t v h]

omit [DecidableEq α] in
theorem find_erase_same (t : List (Nat × α)) (k : Nat) : Tbl.find (Tbl.erase t k) k = none := by
  induction t with
  | nil => rfl
  | cons e r ih =>
    obtain ⟨i, w⟩ := e
    unfold Tbl.erase
    split
    · exact ih
    · rename_i hi
      simp [Tbl.find, hi, ih]

/-- A table reads what was written, canonical or not. -/
theorem get_put_same {d : Nat → α} (t : List (Nat × α)) (k : Nat) (v : α) : Tbl.get d (Tbl.put d t k v) k = v := by
  unfold Tbl.get Tbl.put
  split
  · rename_i h
    rw [find_erase_same, h]
    rfl
  · rw [find_insert_same]
    rfl

theorem get_modify_same {d : Nat → α} (t : List (Nat × α)) (k : Nat) (f : α → α) :
    Tbl.get d (Tbl.modify d t k f) k = f (Tbl.get d t k) := get_put_same t k _

theorem get_modify_other {d : Nat → α} (t : List (Nat × α)) {k j : Nat} (f : α → α) (h : j ≠ k) :
    Tbl.get d (Tbl.modify d t k f) j = Tbl.get d t j := get_put_other t _ h

omit [DecidableEq α] in
/-- What holds of every listed value and of every default holds of every value read. -/
theorem get_all {d : Nat → α} {t : List (Nat × α)} {P : Nat → α → Prop} (hd : ∀ j, P j (d j)) (ht : ∀ e ∈ t, P e.1 e.2) (j : Nat) :
    P j (Tbl.get d t j) := by
  unfold Tbl.get
  induction t with
  | nil => exact hd j
  | cons e r ih =>
    obtain ⟨i, w⟩ := e
    by_cases hi : i = j
    · subst hi
      simpa [Tbl.find] using ht (i, w) (by simp)
    · simpa [Tbl.find, hi] using ih (fun e he => ht e (List.mem_cons_of_mem _ he))

end Sys2Proof.Laws
end

