-- ==== Sys2Proof/Laws/Does.lean ====
section
/-! SUPPORT. What one operation does, said once: the parts it can touch, as a set of bits, and that it keeps the invariant of each
block whose invariant needs no other block's. Every operation and every command has one lemma of this form. -/
set_option Elab.async false
namespace Sys2Proof.Laws
open Sys2Proof.Machine

/-- The bit of a part. -/
def bitOf : Part → Nat
  | .setup => 0
  | .ofs => 1
  | .time => 2
  | .rtc => 3
  | .links => 4
  | .linkDown => 5
  | .linkAer => 6
  | .fns => 7
  | .tx => 8
  | .rx => 9
  | .cq => 10
  | .host => 11
  | .sched => 12
  | .hamper => 13
  | .macs => 14
  | .cages => 15
  | .watch => 16
  | .tally => 17
  | .pair => 18
  | .acts => 19
  | .lookout => 20
  | .supply => 21
  | .power => 22
  | .foreman => 23
  | .tether => 24
  | .log => 25
  | .events => 26
  | .out => 27
  | .free => 28
  | .pending => 29

/-- From `s` to `t` at most the parts in `m` have changed, the invariants of the blocks are kept, and what has left the
sled stands. -/
structure Does (m : Nat) (s t : State) : Prop where
  keeps  : ∀ p, m.testBit (bitOf p) = false → p.same s t
  log    : LogOk s.log → LogOk t.log
  setup  : SetupOk s.setup → SetupOk t.setup
  tally  : TallyOk s.tally → TallyOk t.tally
  supply : SupplyOk s.supply → SupplyOk t.supply
  tether : TetherOk s.tether → TetherOk t.tether
  out    : s.out <+: t.out

theorem same_refl (p : Part) (s : State) : p.same s s := by cases p <;> rfl

theorem same_trans {p : Part} {s t u : State} (h : p.same s t) (k : p.same t u) : p.same s u := by
  cases p <;> exact Eq.trans k h

theorem does_refl (m : Nat) (s : State) : Does m s s := ⟨fun p _ => same_refl p s, id, id, id, id, id, List.prefix_refl _⟩

theorem does_trans {m : Nat} {s t u : State} (h : Does m s t) (k : Does m t u) : Does m s u :=
  ⟨fun p hp => same_trans (h.keeps p hp) (k.keeps p hp), k.log ∘ h.log, k.setup ∘ h.setup, k.tally ∘ h.tally,
    k.supply ∘ h.supply, k.tether ∘ h.tether, h.out.trans k.out⟩

/-- One set of parts lies inside another. -/
abbrev Sub (a m : Nat) : Prop := a ||| m = m

theorem sub_trans {a b m : Nat} (hb : Sub b m) (h : a ||| b = b := by decide) : Sub a m := by
  unfold Sub at *
  rw [← hb, ← Nat.or_assoc, h]

theorem sub_bit {i m : Nat} (h : Sub (2 ^ i) m) : m.testBit i = true := by
  rw [← h, Nat.testBit_or, Nat.testBit_two_pow_self, Bool.true_or]

theorem does_mono {a m : Nat} {s t : State} (h : Does a s t) (hm : Sub a m) : Does m s t := by
  refine ⟨fun p hp => h.keeps p ?_, h.log, h.setup, h.tally, h.supply, h.tether, h.out⟩
  unfold Sub at hm
  rw [← hm, Nat.testBit_or, Bool.or_eq_false_iff] at hp
  exact hp.1

/-- The frame that an operation leaves. -/
theorem does_keeps {m : Nat} {s t : State} (h : Does m s t) (l : List Part)
    (hl : ∀ p, m.testBit (bitOf p) = true → p ∈ l) : Keeps l s t := by
  intro p hp
  apply h.keeps
  cases hb : m.testBit (bitOf p) with
  | false => rfl
  | true => exact absurd (hl p hb) hp

/-- A choice of two states, each of which does no more. -/
theorem does_ite {M : Nat} {s₀ x y : State} {c : Prop} [Decidable c] (hx : Does M s₀ x) (hy : Does M s₀ y) :
    Does M s₀ (if c then x else y) := by
  split
  · with_reducible exact hx
  · with_reducible exact hy

theorem setupOk_of_active {t u : SetupSt} (h : u.active = t.active) (k : SetupOk t) : SetupOk u := by
  unfold SetupOk at *
  rw [h]
  exact k

theorem does_foldl {α : Type} {m : Nat} {s0 : State} {f : State → α → State} {l : List α} {s : State}
    (hf : ∀ x a, Does m s0 x → Does m s0 (f x a)) (h : Does m s0 s) : Does m s0 (l.foldl f s) := by
  induction l generalizing s with
  | nil => exact h
  | cons a r ih => exact ih (hf s a h)

theorem does_foldl_pair {α β : Type} {m : Nat} {s0 : State} {f : State × β → α → State × β} {l : List α} {s : State × β}
    (hf : ∀ x a, Does m s0 x.1 → Does m s0 (f x a).1) (h : Does m s0 s.1) : Does m s0 (l.foldl f s).1 := by
  induction l generalizing s with
  | nil => exact h
  | cons a r ih => exact ih (hf s a h)

theorem does_onSetup {m : Nat} {s0 s : State} {f : SetupSt → SetupSt} (hm : Sub 0x1 m) (hf : SetupOk s.setup → SetupOk (f s.setup)) (h : Does m s0 s) :
    Does m s0 (s.onSetup f) := by
  refine does_trans h ⟨fun p hp => ?_, id, hf, id, id, id, List.prefix_refl _⟩
  cases p with
  | setup => exact absurd hp (by simp [bitOf, sub_bit (i := 0) hm])
  | _ => exact rfl

theorem does_onOfs {m : Nat} {s0 s : State} {f : (List (Nat × OfSt)) → (List (Nat × OfSt))} (hm : Sub 0x2 m) (h : Does m s0 s) :
    Does m s0 (s.onOfs f) := by
  refine does_trans h ⟨fun p hp => ?_, id, id, id, id, id, List.prefix_refl _⟩
  cases p with
  | ofs => exact absurd hp (by simp [bitOf, sub_bit (i := 1) hm])
  | _ => exact rfl

theorem does_onTime {m : Nat} {s0 s : State} {f : TimeSt → TimeSt} (hm : Sub 0x4 m) (h : Does m s0 s) :
    Does m s0 (s.onTime f) := by
  refine does_trans h ⟨fun p hp => ?_, id, id, id, id, id, List.prefix_refl _⟩
  cases p with
  | time => exact absurd hp (by simp [bitOf, sub_bit (i := 2) hm])
  | _ => exact rfl

theorem does_onRtc {m : Nat} {s0 s : State} {f : RtcSt → RtcSt} (hm : Sub 0x8 m) (h : Does m s0 s) :
    Does m s0 (s.onRtc f) := by
  refine does_trans h ⟨fun p hp => ?_, id, id, id, id, id, List.prefix_refl _⟩
  cases p with
  | rtc => exact absurd hp (by simp [bitOf, sub_bit (i := 3) hm])
  | _ => exact rfl

theorem does_onLinks {m : Nat} {s0 s : State} {f : (List (Nat × LinkSt)) → (List (Nat × LinkSt))} (hm : Sub 0x10 m) (h : Does m s0 s) :
    Does m s0 (s.onLinks f) := by
  refine does_trans h ⟨fun p hp => ?_, id, id, id, id, id, List.prefix_refl _⟩
  cases p with
  | links => exact absurd hp (by simp [bitOf, sub_bit (i := 4) hm])
  | _ => exact rfl

theorem does_onLinkDown {m : Nat} {s0 s : State} {f : (List (Nat × Nat)) → (List (Nat × Nat))} (hm : Sub 0x20 m) (h : Does m s0 s) :
    Does m s0 (s.onLinkDown f) := by
  refine does_trans h ⟨fun p hp => ?_, id, id, id, id, id, List.prefix_refl _⟩
  cases p with
  | linkDown => exact absurd hp (by simp [bitOf, sub_bit (i := 5) hm])
  | _ => exact rfl

theorem does_onLinkAer {m : Nat} {s0 s : State} {f : (List (Nat × Nat)) → (List (Nat × Nat))} (hm : Sub 0x40 m) (h : Does m s0 s) :
    Does m s0 (s.onLinkAer f) := by
  refine does_trans h ⟨fun p hp => ?_, id, id, id, id, id, List.prefix_refl _⟩
  cases p with
  | linkAer => exact absurd hp (by simp [bitOf, sub_bit (i := 6) hm])
  | _ => exact rfl

theorem does_onFns {m : Nat} {s0 s : State} {f : (List (Nat × FnSt)) → (List (Nat × FnSt))} (hm : Sub 0x80 m) (h : Does m s0 s) :
    Does m s0 (s.onFns f) := by
  refine does_trans h ⟨fun p hp => ?_, id, id, id, id, id, List.prefix_refl _⟩
  cases p with
  | fns => exact absurd hp (by simp [bitOf, sub_bit (i := 7) hm])
  | _ => exact rfl

theorem does_onTx {m : Nat} {s0 s : State} {f : (List (Nat × TxRing)) → (List (Nat × TxRing))} (hm : Sub 0x100 m) (h : Does m s0 s) :
    Does m s0 (s.onTx f) := by
  refine does_trans h ⟨fun p hp => ?_, id, id, id, id, id, List.prefix_refl _⟩
  cases p with
  | tx => exact absurd hp (by simp [bitOf, sub_bit (i := 8) hm])
  | _ => exact rfl

theorem does_onRx {m : Nat} {s0 s : State} {f : (List (Nat × RxRing)) → (List (Nat × RxRing))} (hm : Sub 0x200 m) (h : Does m s0 s) :
    Does m s0 (s.onRx f) := by
  refine does_trans h ⟨fun p hp => ?_, id, id, id, id, id, List.prefix_refl _⟩
  cases p with
  | rx => exact absurd hp (by simp [bitOf, sub_bit (i := 9) hm])
  | _ => exact rfl

theorem does_onCq {m : Nat} {s0 s : State} {f : (List (Nat × CqRing)) → (List (Nat × CqRing))} (hm : Sub 0x400 m) (h : Does m s0 s) :
    Does m s0 (s.onCq f) := by
  refine does_trans h ⟨fun p hp => ?_, id, id, id, id, id, List.prefix_refl _⟩
  cases p with
  | cq => exact absurd hp (by simp [bitOf, sub_bit (i := 10) hm])
  | _ => exact rfl

theorem does_onHost {m : Nat} {s0 s : State} {f : HostSt → HostSt} (hm : Sub 0x800 m) (h : Does m s0 s) :
    Does m s0 (s.onHost f) := by
  refine does_trans h ⟨fun p hp => ?_, id, id, id, id, id, List.prefix_refl _⟩
  cases p with
  | host => exact absurd hp (by simp [bitOf, sub_bit (i := 11) hm])
  | _ => exact rfl

theorem does_onSched {m : Nat} {s0 s : State} {f : (List (Nat × SchInst)) → (List (Nat × SchInst))} (hm : Sub 0x1000 m) (h : Does m s0 s) :
    Does m s0 (s.onSched f) := by
  refine does_trans h ⟨fun p hp => ?_, id, id, id, id, id, List.prefix_refl _⟩
  cases p with
  | sched => exact absurd hp (by simp [bitOf, sub_bit (i := 12) hm])
  | _ => exact rfl

theorem does_onHamper {m : Nat} {s0 s : State} {f : HamperSt → HamperSt} (hm : Sub 0x2000 m) (h : Does m s0 s) :
    Does m s0 (s.onHamper f) := by
  refine does_trans h ⟨fun p hp => ?_, id, id, id, id, id, List.prefix_refl _⟩
  cases p with
  | hamper => exact absurd hp (by simp [bitOf, sub_bit (i := 13) hm])
  | _ => exact rfl

theorem does_onMacs {m : Nat} {s0 s : State} {f : (List (Nat × MacInst)) → (List (Nat × MacInst))} (hm : Sub 0x4000 m) (h : Does m s0 s) :
    Does m s0 (s.onMacs f) := by
  refine does_trans h ⟨fun p hp => ?_, id, id, id, id, id, List.prefix_refl _⟩
  cases p with
  | macs => exact absurd hp (by simp [bitOf, sub_bit (i := 14) hm])
  | _ => exact rfl

theorem does_onCages {m : Nat} {s0 s : State} {f : (List (Nat × CageSt)) → (List (Nat × CageSt))} (hm : Sub 0x8000 m) (h : Does m s0 s) :
    Does m s0 (s.onCages f) := by
  refine does_trans h ⟨fun p hp => ?_, id, id, id, id, id, List.prefix_refl _⟩
  cases p with
  | cages => exact absurd hp (by simp [bitOf, sub_bit (i := 15) hm])
  | _ => exact rfl

theorem does_onWatch {m : Nat} {s0 s : State} {f : (List (Nat × WatchSt)) → (List (Nat × WatchSt))} (hm : Sub 0x10000 m) (h : Does m s0 s) :
    Does m s0 (s.onWatch f) := by
  refine does_trans h ⟨fun p hp => ?_, id, id, id, id, id, List.prefix_refl _⟩
  cases p with
  | watch => exact absurd hp (by simp [bitOf, sub_bit (i := 16) hm])
  | _ => exact rfl

theorem does_onTally {m : Nat} {s0 s : State} {f : TallySt → TallySt} (hm : Sub 0x20000 m) (hf : TallyOk s.tally → TallyOk (f s.tally)) (h : Does m s0 s) :
    Does m s0 (s.onTally f) := by
  refine does_trans h ⟨fun p hp => ?_, id, id, hf, id, id, List.prefix_refl _⟩
  cases p with
  | tally => exact absurd hp (by simp [bitOf, sub_bit (i := 17) hm])
  | _ => exact rfl

theorem does_onPair {m : Nat} {s0 s : State} {f : PairSt → PairSt} (hm : Sub 0x40000 m) (hf : (f s.pair).acts = s.pair.acts) (h : Does m s0 s) :
    Does m s0 (s.onPair f) := by
  refine does_trans h ⟨fun p hp => ?_, id, id, id, id, id, List.prefix_refl _⟩
  have hb : m.testBit 18 = true := sub_bit (sub_trans hm)
  cases p with
  | pair => exact absurd hp (by simp [bitOf, hb])
  | acts => exact hf
  | _ => exact rfl

theorem does_onPairActs {m : Nat} {s0 s : State} {f : PairSt → PairSt} (hm : Sub 0xc0000 m) (h : Does m s0 s) :
    Does m s0 (s.onPair f) := by
  refine does_trans h ⟨fun p hp => ?_, id, id, id, id, id, List.prefix_refl _⟩
  have hb : m.testBit 18 = true := sub_bit (sub_trans hm)
  have hc : m.testBit 19 = true := sub_bit (sub_trans hm)
  cases p with
  | pair => exact absurd hp (by simp [bitOf, hb])
  | acts => exact absurd hp (by simp [bitOf, hc])
  | _ => exact rfl

theorem does_onLookout {m : Nat} {s0 s : State} {f : LookoutSt → LookoutSt} (hm : Sub 0x100000 m) (h : Does m s0 s) :
    Does m s0 (s.onLookout f) := by
  refine does_trans h ⟨fun p hp => ?_, id, id, id, id, id, List.prefix_refl _⟩
  cases p with
  | lookout => exact absurd hp (by simp [bitOf, sub_bit (i := 20) hm])
  | _ => exact rfl

theorem does_onSupply {m : Nat} {s0 s : State} {f : SupplySt → SupplySt} (hm : Sub 0x200000 m) (hf : SupplyOk s.supply → SupplyOk (f s.supply)) (h : Does m s0 s) :
    Does m s0 (s.onSupply f) := by
  refine does_trans h ⟨fun p hp => ?_, id, id, id, hf, id, List.prefix_refl _⟩
  cases p with
  | supply => exact absurd hp (by simp [bitOf, sub_bit (i := 21) hm])
  | _ => exact rfl

theorem does_onPower {m : Nat} {s0 s : State} {f : PowerSt → PowerSt} (hm : Sub 0x400000 m) (h : Does m s0 s) :
    Does m s0 (s.onPower f) := by
  refine does_trans h ⟨fun p hp => ?_, id, id, id, id, id, List.prefix_refl _⟩
  cases p with
  | power => exact absurd hp (by simp [bitOf, sub_bit (i := 22) hm])
  | _ => exact rfl

theorem does_onForeman {m : Nat} {s0 s : State} {f : ForemanSt → ForemanSt} (hm : Sub 0x800000 m) (h : Does m s0 s) :
    Does m s0 (s.onForeman f) := by
  refine does_trans h ⟨fun p hp => ?_, id, id, id, id, id, List.prefix_refl _⟩
  cases p with
  | foreman => exact absurd hp (by simp [bitOf, sub_bit (i := 23) hm])
  | _ => exact rfl

theorem does_onTether {m : Nat} {s0 s : State} {f : TetherSt → TetherSt} (hm : Sub 0x1000000 m) (hf : TetherOk s.tether → TetherOk (f s.tether)) (h : Does m s0 s) :
    Does m s0 (s.onTether f) := by
  refine does_trans h ⟨fun p hp => ?_, id, id, id, id, hf, List.prefix_refl _⟩
  cases p with
  | tether => exact absurd hp (by simp [bitOf, sub_bit (i := 24) hm])
  | _ => exact rfl

theorem does_onLog {m : Nat} {s0 s : State} {f : LogSt → LogSt} (hm : Sub 0x2000000 m) (hf : LogOk s.log → LogOk (f s.log)) (h : Does m s0 s) :
    Does m s0 (s.onLog f) := by
  refine does_trans h ⟨fun p hp => ?_, hf, id, id, id, id, List.prefix_refl _⟩
  cases p with
  | log => exact absurd hp (by simp [bitOf, sub_bit (i := 25) hm])
  | _ => exact rfl

theorem does_onEvents {m : Nat} {s0 s : State} {f : EventSt → EventSt} (hm : Sub 0x4000000 m) (h : Does m s0 s) :
    Does m s0 (s.onEvents f) := by
  refine does_trans h ⟨fun p hp => ?_, id, id, id, id, id, List.prefix_refl _⟩
  cases p with
  | events => exact absurd hp (by simp [bitOf, sub_bit (i := 26) hm])
  | _ => exact rfl

theorem does_onOut {m : Nat} {s0 s : State} {f : (List Out) → (List Out)} (hm : Sub 0x8000000 m) (hf : s.out <+: f s.out) (h : Does m s0 s) :
    Does m s0 (s.onOut f) := by
  refine does_trans h ⟨fun p hp => ?_, id, id, id, id, id, hf⟩
  cases p with
  | out => exact absurd hp (by simp [bitOf, sub_bit (i := 27) hm])
  | _ => exact rfl

theorem does_onFree {m : Nat} {s0 s : State} {f : Nat → Nat} (hm : Sub 0x10000000 m) (h : Does m s0 s) :
    Does m s0 (s.onFree f) := by
  refine does_trans h ⟨fun p hp => ?_, id, id, id, id, id, List.prefix_refl _⟩
  cases p with
  | free => exact absurd hp (by simp [bitOf, sub_bit (i := 28) hm])
  | _ => exact rfl

end Sys2Proof.Laws
end

