-- ==== Sys2Proof/Laws/Ops.lean ====
section
/-! SUPPORT. What each operation and command of Machine/Ops.lean can touch, and that it keeps the invariants of the blocks. -/
set_option Elab.async false
namespace Sys2Proof.Laws
open Sys2Proof.Machine

theorem does_setOf {M : Nat} {s₀ : State} {s : State} {n : Nat} {f : OfSt → OfSt} (hM : Sub 0x2 M) (hD : Does M s₀ s) :
    Does M s₀ (State.setOf s n f) := by
  unfold State.setOf
  try dsimp only
  repeat' first
    | with_reducible assumption
    | with_reducible apply does_onOfs (sub_trans hM)

theorem does_setLink {M : Nat} {s₀ : State} {s : State} {n : Nat} {f : LinkSt → LinkSt} (hM : Sub 0x10 M) (hD : Does M s₀ s) :
    Does M s₀ (State.setLink s n f) := by
  unfold State.setLink
  try dsimp only
  repeat' first
    | with_reducible assumption
    | with_reducible apply does_onLinks (sub_trans hM)

theorem does_setFn {M : Nat} {s₀ : State} {s : State} {n : Nat} {f : FnSt → FnSt} (hM : Sub 0x80 M) (hD : Does M s₀ s) :
    Does M s₀ (State.setFn s n f) := by
  unfold State.setFn
  try dsimp only
  repeat' first
    | with_reducible assumption
    | with_reducible apply does_onFns (sub_trans hM)

theorem does_setTxr {M : Nat} {s₀ : State} {s : State} {n : Nat} {f : TxRing → TxRing} (hM : Sub 0x100 M) (hD : Does M s₀ s) :
    Does M s₀ (State.setTxr s n f) := by
  unfold State.setTxr
  try dsimp only
  repeat' first
    | with_reducible assumption
    | with_reducible apply does_onTx (sub_trans hM)

theorem does_setRxr {M : Nat} {s₀ : State} {s : State} {n : Nat} {f : RxRing → RxRing} (hM : Sub 0x200 M) (hD : Does M s₀ s) :
    Does M s₀ (State.setRxr s n f) := by
  unfold State.setRxr
  try dsimp only
  repeat' first
    | with_reducible assumption
    | with_reducible apply does_onRx (sub_trans hM)

theorem does_setCqr {M : Nat} {s₀ : State} {s : State} {n : Nat} {f : CqRing → CqRing} (hM : Sub 0x400 M) (hD : Does M s₀ s) :
    Does M s₀ (State.setCqr s n f) := by
  unfold State.setCqr
  try dsimp only
  repeat' first
    | with_reducible assumption
    | with_reducible apply does_onCq (sub_trans hM)

theorem does_setSch {M : Nat} {s₀ : State} {s : State} {m : Nat} {f : SchInst → SchInst} (hM : Sub 0x1000 M) (hD : Does M s₀ s) :
    Does M s₀ (State.setSch s m f) := by
  unfold State.setSch
  try dsimp only
  repeat' first
    | with_reducible assumption
    | with_reducible apply does_onSched (sub_trans hM)

theorem does_setMac {M : Nat} {s₀ : State} {s : State} {m : Nat} {f : MacInst → MacInst} (hM : Sub 0x4000 M) (hD : Does M s₀ s) :
    Does M s₀ (State.setMac s m f) := by
  unfold State.setMac
  try dsimp only
  repeat' first
    | with_reducible assumption
    | with_reducible apply does_onMacs (sub_trans hM)

theorem does_setCage {M : Nat} {s₀ : State} {s : State} {p : Nat} {f : CageSt → CageSt} (hM : Sub 0x8000 M) (hD : Does M s₀ s) :
    Does M s₀ (State.setCage s p f) := by
  unfold State.setCage
  try dsimp only
  repeat' first
    | with_reducible assumption
    | with_reducible apply does_onCages (sub_trans hM)

theorem does_setWatchLane {M : Nat} {s₀ : State} {s : State} {p : Nat} {f : WatchSt → WatchSt} (hM : Sub 0x10000 M) (hD : Does M s₀ s) :
    Does M s₀ (State.setWatchLane s p f) := by
  unfold State.setWatchLane
  try dsimp only
  repeat' first
    | with_reducible assumption
    | with_reducible apply does_onWatch (sub_trans hM)

theorem does_setEvr {M : Nat} {s₀ : State} {s : State} {n : Nat} {f : CqRing → CqRing} (hM : Sub 0x4000000 M) (hD : Does M s₀ s) :
    Does M s₀ (State.setEvr s n f) := by
  unfold State.setEvr
  try dsimp only
  repeat' first
    | with_reducible assumption
    | with_reducible apply does_onEvents (sub_trans hM)

theorem does_setChan {M : Nat} {s₀ : State} {s : State} {c : Nat} {f : LoChan → LoChan} (hM : Sub 0x100000 M) (hD : Does M s₀ s) :
    Does M s₀ (State.setChan s c f) := by
  unfold State.setChan
  try dsimp only
  repeat' first
    | with_reducible assumption
    | with_reducible apply does_onLookout (sub_trans hM)

theorem does_setIsland {M : Nat} {s₀ : State} {s : State} {i : Nat} {f : IslSt → IslSt} (hM : Sub 0x400000 M) (hD : Does M s₀ s) :
    Does M s₀ (State.setIsland s i f) := by
  unfold State.setIsland
  try dsimp only
  repeat' first
    | with_reducible assumption
    | with_reducible apply does_onPower (sub_trans hM)

theorem does_setKnob {M : Nat} {s₀ : State} {s : State} {k : Nat} {f : KnobSt → KnobSt} (hM : Sub 0x800000 M) (hD : Does M s₀ s) :
    Does M s₀ (State.setKnob s k f) := by
  unfold State.setKnob
  try dsimp only
  repeat' first
    | with_reducible assumption
    | with_reducible apply does_onForeman (sub_trans hM)

theorem does_setPeer {M : Nat} {s₀ : State} {s : State} {n : Nat} {f : PeerSt → PeerSt} (hM : Sub 0x1000000 M) (hD : Does M s₀ s) :
    Does M s₀ (State.setPeer s n f) := by
  unfold State.setPeer
  try dsimp only
  repeat' first
    | with_reducible assumption
    | with_reducible refine does_onTether (sub_trans hM) ?_ ?_
    | exact fun k => k

theorem does_setSlot {M : Nat} {s₀ : State} {s : State} {n : Nat} {f : SlotSt → SlotSt} (hM : Sub 0x1000000 M) (hD : Does M s₀ s) :
    Does M s₀ (State.setSlot s n f) := by
  unfold State.setSlot
  try dsimp only
  repeat' first
    | with_reducible assumption
    | with_reducible refine does_onTether (sub_trans hM) ?_ ?_
    | exact fun k => k

theorem does_setEng {M : Nat} {s₀ : State} {s : State} {e : Eng} {f : EngSt → EngSt} (hM : Sub 0xc0000 M) (hD : Does M s₀ s) :
    Does M s₀ (State.setEng s e f) := by
  unfold State.setEng
  try dsimp only
  repeat' first
    | with_reducible assumption
    | ((with_reducible refine does_onPair (sub_trans hM) ?_ ?_); focus (unfold PairSt.acts; with_reducible rfl))
    | with_reducible refine does_onPairActs (sub_trans hM) ?_

theorem does_wrote {M : Nat} {s₀ : State} {s : State} {off : ℕ} {v : ℕ} (hM : Sub 0x1 M) (hD : Does M s₀ s) :
    Does M s₀ (State.wrote s off v) := by
  unfold State.wrote
  try dsimp only
  repeat' first
    | with_reducible assumption
    | ((with_reducible refine does_onSetup (sub_trans hM) ?_ ?_); focus (first | exact fun k => k | exact setupOk_of_active rfl))

theorem does_emit {M : Nat} {s₀ : State} {s : State} {o : Out} (hM : Sub 0x8000000 M) (hD : Does M s₀ s) :
    Does M s₀ (State.emit s o) := by
  unfold State.emit
  exact does_onOut (sub_trans hM) (List.prefix_append _ _) hD

theorem does_useFree {M : Nat} {s₀ : State} {s : State} (hM : Sub 0x10000000 M) (hD : Does M s₀ s) :
    Does M s₀ (State.useFree s) := by
  unfold State.useFree
  try dsimp only
  repeat' first
    | with_reducible assumption
    | with_reducible apply does_onFree (sub_trans hM)

end Sys2Proof.Laws
end

