-- ==== Sys2Proof/Laws/Flags.lean ====
section
/-! SUPPORT. What each operation and command of Machine/Flags.lean can touch, and that it keeps the invariants of the blocks. -/
set_option Elab.async false
namespace Sys2Proof.Laws
open Sys2Proof.Machine

theorem regionRows_pos (r : Nat) : 0 < regionRows r := by
  unfold regionRows
  repeat' split
  all_goals decide

theorem init_region (r : Nat) : RegionSt.init.head < regionRows r ∧ RegionSt.init.lap < 256 :=
  ⟨regionRows_pos r, by decide⟩

/-- The next head stays inside its region (R362, 16_start_up_and_logbook). -/
theorem next_region {r : Nat} {h : RegionSt} (hh : h.head < regionRows r ∧ h.lap < 256) :
    (RegionSt.next (regionRows r) h).head < regionRows r ∧ (RegionSt.next (regionRows r) h).lap < 256 := by
  unfold RegionSt.next
  split
  · exact ⟨by assumption, hh.2⟩
  · exact ⟨regionRows_pos r, Nat.mod_lt _ (by decide)⟩

/-- A region's head lies inside its region. -/
theorem region_ok {l : LogSt} (hl : LogOk l) (r : Nat) :
    (Tbl.get (fun _ => RegionSt.init) l.regions r).head < regionRows r ∧
      (Tbl.get (fun _ => RegionSt.init) l.regions r).lap < 256 :=
  get_all (P := fun r (h : RegionSt) => h.head < regionRows r ∧ h.lap < 256) init_region hl.heads r

/-- Every write of the Logbook memory keeps its canonical form. -/
theorem memStore_wf {t : List Host.Cell} (a : Nat) (b : Bytes) (h : Memory.wf t = true) :
    Memory.wf (memStore t a b) = true := by
  induction b generalizing t a with
  | nil => exact h
  | cons x r ih => exact ih (a + 1) (put_wf h a x)

/-- The memory at reset is in canonical form. -/
theorem reset_memory_wf : Memory.wf State.reset.log.mem = true := rfl

theorem memStore_top {t : List Host.Cell} (a n : Nat) (b : Bytes) (h : ∀ e ∈ t, e.1 < n) (hb : a + b.length ≤ n) :
    ∀ e ∈ memStore t a b, e.1 < n := by
  induction b generalizing t a with
  | nil => exact h
  | cons x r ih =>
    rw [List.length_cons] at hb
    refine ih (a + 1) (fun e he => ?_) (by omega)
    rcases mem_put he with rfl | he
    · show a < n
      omega
    · exact h e he

theorem le_length (n x : Nat) : (le n x).length = n := by
  induction n generalizing x with
  | zero => rfl
  | succ n ih => simp [le, ih]

theorem circularRow_length (g k l r t : Nat) (b : Bytes) : (circularRow g k l r t b).length = 64 := by
  simp only [circularRow, le_length, padTo, List.length_append, List.length_take, List.length_replicate, List.length_singleton]
  omega

theorem region_rows (r : Nat) : regionBase r + regionRows r ≤ 32768 := by
  unfold regionBase regionRows
  repeat' split
  all_goals omega

/-- A byte outside those stored reads as before. -/
theorem memStore_other (t : List Host.Cell) (a : Nat) (b : Bytes) {j : Nat} (h : j < a ∨ a + b.length ≤ j) :
    Tbl.get (fun _ => 0#8) (memStore t a b) j = Tbl.get (fun _ => 0#8) t j := by
  induction b generalizing t a with
  | nil => rfl
  | cons x r ih =>
    rw [List.length_cons] at h
    have hj : j ≠ a := by omega
    rw [memStore, ih _ (a + 1) (by omega), get_put_other t x hj]

/-- Writing one circular row keeps the Logbook's invariant. -/
theorem row_ok {l : LogSt} (hl : LogOk l) (g k t q : Nat) (b : Bytes) :
    let h := Tbl.get (fun _ => RegionSt.init) l.regions g
    LogOk { l with mem := memStore l.mem (64 * (regionBase g + h.head)) (circularRow g k h.lap (regionBase g + h.head) t b), logSeq := q } := by
  intro h
  have hh : h.head < regionRows g ∧ h.lap < 256 := region_ok hl g
  have hb := region_rows g
  refine ⟨memStore_wf _ _ hl.wf, memStore_top _ _ _ hl.top ?_, hl.heads⟩
  rw [circularRow_length]
  have : (2 : Nat) ^ 21 = 64 * 32768 := by norm_num
  omega

theorem tget_lt {t : List (Nat × Nat)} {n : Nat} (hn : 0 < n) (h : ∀ e ∈ t, e.2 < n) (k : Nat) : tget t k < n :=
  get_all (P := fun _ v => v < n) (fun _ => hn) h k

theorem mem_tput {t : List (Nat × Nat)} {n k v : Nat} (h : ∀ e ∈ t, e.2 < n) (hv : v < n) : ∀ e ∈ tput t k v, e.2 < n := by
  intro e he
  unfold tput at he
  rcases mem_put he with rfl | he
  · exact hv
  · exact h e he

theorem tallyOk_put {t : TallySt} (ht : TallyOk t) (j k : Nat) {v : Nat} (hv : v < 2 ^ 48) : TallyOk (t.put j k v) := by
  refine ⟨mem_tput ht.count hv, ?_, ht.mirror⟩
  have hb : ∀ e ∈ (if t.atJ = j then t.base else []), e.2 < 2 ^ 48 := by
    split
    · exact ht.base
    · exact nofun
  unfold TallySt.put
  dsimp only
  generalize (if t.atJ = j then t.base else []) = b at hb ⊢
  split
  · exact hb
  · intro e he
    rcases mem_insert he with rfl | he
    · exact tget_lt (by norm_num) ht.count k
    · exact hb e he

theorem does_use {M : Nat} {s₀ : State} {s : State} {k : Act} {f : ℕ} {units : ℕ} (hM : Sub 0x20000 M) (hD : Does M s₀ s) :
    Does M s₀ (State.use s k f units) := by
  unfold State.use
  try dsimp only
  repeat' first
    | with_reducible assumption
    | ((with_reducible refine does_onTally (sub_trans hM) ?_ ?_); focus (first | exact fun k => k | exact fun k => ⟨k.count, k.base, k.mirror⟩))

theorem does_uses {M : Nat} {s₀ : State} {s : State} {k : Act} {f : ℕ} {n : ℕ} (hM : Sub 0x20000 M) (hD : Does M s₀ s) :
    Does M s₀ (State.uses s k f n) := by
  unfold State.uses
  try dsimp only
  repeat' first
    | with_reducible assumption
    | with_reducible apply does_use (sub_trans hM)

theorem does_dmaUse {M : Nat} {s₀ : State} {s : State} {f : ℕ} {n : ℕ} (hM : Sub 0x20000 M) (hD : Does M s₀ s) :
    Does M s₀ (State.dmaUse s f n) := by
  unfold State.dmaUse
  try dsimp only
  repeat' first
    | with_reducible assumption
    | with_reducible apply does_uses (sub_trans hM)

theorem does_recordUse {M : Nat} {s₀ : State} {s : State} {f : ℕ} {n : ℕ} (hM : Sub 0x20000 M) (hD : Does M s₀ s) :
    Does M s₀ (State.recordUse s f n) := by
  unfold State.recordUse
  try dsimp only
  repeat' first
    | with_reducible assumption
    | with_reducible apply does_uses (sub_trans hM)

theorem does_wireUse {M : Nat} {s₀ : State} {s : State} {m : ℕ} {f : ℕ} {n : ℕ} (hM : Sub 0x20000 M) (hD : Does M s₀ s) :
    Does M s₀ (State.wireUse s m f n) := by
  unfold State.wireUse
  try dsimp only
  repeat' first
    | with_reducible assumption
    | with_reducible apply does_uses (sub_trans hM)

theorem does_msixSend {M : Nat} {s₀ : State} {s : State} {fn : ℕ} {vector : ℕ} (hM : Sub 0x8000000 M) (hD : Does M s₀ s) :
    Does M s₀ (State.msixSend s fn vector) := by
  unfold State.msixSend
  try dsimp only
  repeat' first
    | with_reducible assumption
    | with_reducible apply does_emit (sub_trans hM)

theorem does_msix {M : Nat} {s₀ : State} {s : State} {fn vector : Nat} (hM : Sub 0xc000080 M) (hD : Does M s₀ s) :
    Does M s₀ (State.msix s fn vector) := by
  unfold State.msix
  try dsimp only
  repeat' first
    | with_reducible assumption
    | with_reducible apply does_msixSend (sub_trans hM)
    | with_reducible apply does_onEvents (sub_trans hM)
    | with_reducible apply does_setFn (sub_trans hM)
    | with_reducible apply does_emit (sub_trans hM)
    | split

theorem does_setRegion {M : Nat} {s₀ : State} {s : State} {r : Nat} {f : RegionSt → RegionSt}
    (hf : ∀ x : RegionSt, x.head < regionRows r ∧ x.lap < 256 → (f x).head < regionRows r ∧ (f x).lap < 256)
    (hM : Sub 0x2000000 M) (hD : Does M s₀ s) : Does M s₀ (State.setRegion s r f) := by
  unfold State.setRegion
  refine does_onLog (sub_trans hM) (fun k => ⟨k.wf, k.top, fun e (he : e ∈ Tbl.modify _ s.log.regions r f) => ?_⟩) hD
  unfold Tbl.modify at he
  rcases mem_put he with rfl | he
  · exact hf _ (region_ok k r)
  · exact k.heads e he

theorem does_runCount {M : Nat} {s₀ : State} {s : State} {key n : Nat} (hM : Sub 0x20000 M) (hD : Does M s₀ s) :
    Does M s₀ (runCount s key n).1 := by
  unfold runCount
  dsimp only
  have h1 (s' : State) (v : Nat) (hv : v < 2 ^ 48) (h' : Does M s₀ s') :
      Does M s₀ (s'.onTally (fun t => t.put s.time.jcycle key v)) :=
    does_onTally (sub_trans hM) (fun k => tallyOk_put k _ _ hv) h'
  have hv : (tget s.tally.count key + n) % 2 ^ 48 < 2 ^ 48 := Nat.mod_lt _ (by norm_num)
  split
  · split
    · with_reducible refine does_onTally (sub_trans hM) ?_ (h1 _ _ hv hD)
      exact fun k => ⟨k.count, k.base, k.mirror⟩
    · with_reducible refine does_onTally (sub_trans hM) ?_ (h1 _ _ hv hD)
      exact fun k => ⟨k.count, k.base, k.mirror⟩
  · exact h1 _ _ hv hD

theorem does_evrSignal {M : Nat} {s₀ : State} {s : State} {n : Nat} (hM : Sub 0xc000080 M) (hD : Does M s₀ s) :
    Does M s₀ (evrSignal s n) := by
  unfold evrSignal
  try dsimp only
  repeat' first
    | with_reducible assumption
    | with_reducible apply does_msix (sub_trans hM)
    | with_reducible apply does_setEvr (sub_trans hM)
    | split

theorem does_evrWrite {M : Nat} {s₀ : State} {s : State} {n : Nat} {e : Ev} {payload : Bytes} (hM : Sub 0xc020082 M) (hD : Does M s₀ s) :
    Does M s₀ (evrWrite s n e payload) := by
  unfold evrWrite
  try dsimp only
  repeat' first
    | with_reducible assumption
    | with_reducible apply does_recordUse (sub_trans hM)
    | with_reducible apply does_evrSignal (sub_trans hM)
    | with_reducible apply does_setOf (sub_trans hM)
    | with_reducible apply does_setEvr (sub_trans hM)
    | with_reducible apply does_emit (sub_trans hM)

theorem does_evrLost {M : Nat} {s₀ : State} {s : State} {n : Nat} (hM : Sub 0xc020082 M) (hD : Does M s₀ s) :
    Does M s₀ (evrLost s n).1 := by
  unfold evrLost
  try dsimp only
  repeat' first
    | with_reducible assumption
    | with_reducible apply does_emit (sub_trans hM)
    | with_reducible apply does_setOf (sub_trans hM)
    | with_reducible apply does_evrWrite (sub_trans hM)
    | split

theorem does_evrOne {M : Nat} {s₀ : State} {s : State} {n : Nat} {e : Ev} {payload : Bytes} (hM : Sub 0xc020082 M) (hD : Does M s₀ s) :
    Does M s₀ (evrOne s n e payload).1 := by
  unfold evrOne
  try dsimp only
  repeat' first
    | with_reducible assumption
    | with_reducible apply does_evrLost (sub_trans hM)
    | with_reducible apply does_evrWrite (sub_trans hM)
    | with_reducible apply does_setOf (sub_trans hM)
    | split

theorem does_evrAll {M : Nat} {s₀ : State} {s : State} {e : Ev} {payload : Bytes} (hM : Sub 0xc020082 M) (hD : Does M s₀ s) :
    Does M s₀ (evrAll s e payload).1 := by
  unfold evrAll
  dsimp only
  iterate 4 with_reducible refine does_evrOne (sub_trans hM) ?_
  with_reducible exact hD

theorem does_runEv {M : Nat} {s₀ : State} {s : State} {e : Ev} {payload : Bytes} (hM : Sub 0xc020082 M) (hD : Does M s₀ s) :
    Does M s₀ (runEv s e payload).1 := by
  unfold runEv
  try dsimp only
  repeat' first
    | with_reducible assumption
    | with_reducible apply does_emit (sub_trans hM)
    | with_reducible apply does_onEvents (sub_trans hM)
    | with_reducible apply does_evrAll (sub_trans hM)
    | split

theorem does_rateTest {M : Nat} {s₀ : State} {s : State} {r : LogRec} (hM : Sub 0x2000000 M) (hD : Does M s₀ s) :
    Does M s₀ (rateTest s r).1 := by
  unfold rateTest
  try dsimp only
  repeat' first
    | with_reducible assumption
    | with_reducible refine does_onLog (sub_trans hM) ?_ ?_
    | split
    | exact fun k => ⟨k.wf, k.top, k.heads⟩

theorem does_rowWrite {M : Nat} {s₀ : State} {s : State} {r : LogRec} (hM : Sub 0x2000000 M) (hD : Does M s₀ s) :
    Does M s₀ (rowWrite s r) := by
  unfold rowWrite
  exact does_setRegion (fun _ h => next_region h) (sub_trans hM)
    (does_onLog (sub_trans hM) (fun k => row_ok k _ _ _ _ _) hD)

theorem does_runRow {M : Nat} {s₀ : State} {s : State} {r : LogRec} (hM : Sub 0x2000000 M) (hD : Does M s₀ s) :
    Does M s₀ (runRow s r).1 := by
  unfold runRow
  dsimp only
  split
  · split
    · exact does_rowWrite (sub_trans hM) (does_onLog (sub_trans hM) (fun k => ⟨k.wf, k.top, k.heads⟩) hD)
    · exact does_setRegion (fun _ h => next_region h) (sub_trans hM)
        (does_onLog (sub_trans hM) (fun k => ⟨k.wf, k.top, k.heads⟩) hD)
  · exact does_rowWrite (sub_trans hM) hD

theorem dropNewest_length : ∀ {l r : List LogRec}, dropNewest l = some r → r.length + 1 = l.length
  | [], _, h => by simp [dropNewest] at h
  | x :: rest, r, h => by
    unfold dropNewest at h
    split at h
    · rename_i q hq
      cases h
      have := dropNewest_length hq
      simp only [List.length_cons]
      omega
    · split at h
      · cases h
      · cases h
        rfl

theorem does_deferRow {M : Nat} {s₀ : State} {s : State} {r : LogRec} (hM : Sub 0x2200000 M) (hD : Does M s₀ s) :
    Does M s₀ (deferRow s r).1 := by
  unfold deferRow
  split
  · rename_i hlt
    dsimp only
    refine does_onSupply (sub_trans hM) (fun _ => ?_) hD
    show (s.supply.deferred ++ [r]).length ≤ 256
    rw [List.length_append, List.length_singleton]
    omega
  · split
    · split
      · rename_i l hl
        dsimp only
        refine does_onSupply (sub_trans hM) (fun k => ?_) hD
        have := dropNewest_length hl
        have hk : s.supply.deferred.length ≤ 256 := k
        show (l ++ [r]).length ≤ 256
        rw [List.length_append, List.length_singleton]
        omega
      · split
        · exact hD
        · rename_i o rest ho
          have h0 : Does 0x2000000 s (runRow s o).1 := does_runRow (by decide) (does_refl _ _)
          have hs : (runRow s o).1.supply = s.supply := h0.keeps .supply (by decide)
          dsimp only
          refine does_onSupply (sub_trans hM) (fun k => ?_) (does_runRow (sub_trans hM) hD)
          have hk : (runRow s o).1.supply.deferred.length ≤ 256 := k
          rw [hs, ho, List.length_cons] at hk
          show (rest ++ [r]).length ≤ 256
          rw [List.length_append, List.length_singleton]
          exact hk
    · dsimp only
      refine does_onSupply (sub_trans hM) ?_ hD
      exact fun k => k

theorem does_acceptRow {M : Nat} {s₀ : State} {s : State} {r : LogRec} (hM : Sub 0x2200000 M) (hD : Does M s₀ s) :
    Does M s₀ (acceptRow s r).1 := by
  unfold acceptRow
  try dsimp only
  repeat' first
    | with_reducible assumption
    | with_reducible apply does_rateTest (sub_trans hM)
    | with_reducible apply does_deferRow (sub_trans hM)
    | with_reducible apply does_runRow (sub_trans hM)
    | split

theorem does_effRun {M : Nat} {s₀ : State} {e : Eff} {s : State} (hM : Sub 0xe220082 M) (hD : Does M s₀ s) :
    Does M s₀ (Eff.run e s).1 := by
  unfold Eff.run
  try dsimp only
  repeat' first
    | with_reducible assumption
    | with_reducible apply does_runEv (sub_trans hM)
    | with_reducible apply does_runCount (sub_trans hM)
    | with_reducible apply does_acceptRow (sub_trans hM)
    | split

theorem does_runEffs {M : Nat} {s₀ : State} (n : Nat) (l : List Eff) {s : State} (hM : Sub 0xe220082 M) (hD : Does M s₀ s) :
    Does M s₀ (runEffs n l s) := by
  induction n generalizing l s with
  | zero => exact hD
  | succ n ih =>
    cases l with
    | nil => exact hD
    | cons e r => exact ih _ (does_effRun (sub_trans hM) hD)

theorem does_raise {M : Nat} {s₀ : State} {s : State} {e : Ev} {payload : Bytes} (hM : Sub 0xe220082 M) (hD : Does M s₀ s) :
    Does M s₀ (State.raise s e payload) := by
  unfold State.raise
  try dsimp only
  repeat' first
    | with_reducible assumption
    | with_reducible refine does_runEffs _ _ (sub_trans hM) ?_

theorem does_countN {M : Nat} {s₀ : State} {s : State} {c : Ctr} {cls obj n : Nat} (hM : Sub 0xe220082 M) (hD : Does M s₀ s) :
    Does M s₀ (State.countN s c cls obj n) := by
  unfold State.countN
  try dsimp only
  repeat' first
    | with_reducible assumption
    | with_reducible refine does_runEffs _ _ (sub_trans hM) ?_

theorem does_count {M : Nat} {s₀ : State} {s : State} {c : Ctr} {obj : Nat} (hM : Sub 0xe220082 M) (hD : Does M s₀ s) :
    Does M s₀ (State.count s c obj) := by
  unfold State.count
  try dsimp only
  repeat' first
    | with_reducible assumption
    | with_reducible apply does_countN (sub_trans hM)

theorem does_countCls {M : Nat} {s₀ : State} {s : State} {c : Ctr} {cls obj : Nat} (hM : Sub 0xe220082 M) (hD : Does M s₀ s) :
    Does M s₀ (State.countCls s c cls obj) := by
  unfold State.countCls
  try dsimp only
  repeat' first
    | with_reducible assumption
    | with_reducible apply does_countN (sub_trans hM)

theorem does_logRow {M : Nat} {s₀ : State} {s : State} {r : LogRec} (hM : Sub 0xe220082 M) (hD : Does M s₀ s) :
    Does M s₀ (State.logRow s r) := by
  unfold State.logRow
  try dsimp only
  repeat' first
    | with_reducible assumption
    | with_reducible refine does_runEffs _ _ (sub_trans hM) ?_

theorem does_logNow {M : Nat} {s₀ : State} {s : State} {l : List LogRec} (hM : Sub 0xe220082 M) (hD : Does M s₀ s) :
    Does M s₀ (State.logNow s l) := by
  induction l generalizing s with
  | nil => exact hD
  | cons r rest ih => exact ih (does_runEffs _ _ (sub_trans hM) (does_runRow (sub_trans hM) hD))

theorem does_raiseOnce {M : Nat} {s₀ : State} {s : State} {e : Ev} {obj : Nat} {payload : Bytes} (hM : Sub 0xe220082 M) (hD : Does M s₀ s) :
    Does M s₀ (State.raiseOnce s e obj payload) := by
  unfold State.raiseOnce
  try dsimp only
  repeat' first
    | with_reducible assumption
    | with_reducible apply does_raise (sub_trans hM)
    | with_reducible apply does_onEvents (sub_trans hM)
    | split

end Sys2Proof.Laws
end

