-- ==== Sys2Proof/Laws/Image.lean ====
section
/-! SUPPORT. What each operation and command of Machine/Image.lean can touch, and that it keeps the invariants of the blocks. -/
set_option Elab.async false
namespace Sys2Proof.Laws
open Sys2Proof.Machine

theorem imageRow_length (row gen : Nat) (b : Bytes) : (imageRow row gen b).length = 64 := by
  simp only [imageRow, le_length, padTo, List.length_append, List.length_take, List.length_replicate]
  omega

theorem does_writeImageRow {M : Nat} {s₀ : State} {s : State} {row gen : Nat} {b : Bytes} (hM : Sub 0x2000000 M) (hD : Does M s₀ s) :
    Does M s₀ (State.writeImageRow s row gen b) := by
  unfold State.writeImageRow
  split
  · refine does_onLog (sub_trans hM) (fun k => ⟨memStore_wf _ _ k.wf, memStore_top _ _ _ k.top ?_, k.heads⟩) hD
    rw [imageRow_length]
    have : (2 : Nat) ^ 21 = 64 * 32768 := by norm_num
    omega
  · exact hD

theorem does_retire {M : Nat} {s₀ : State} {s : State} {row : Nat} (hM : Sub 0xe220082 M) (hD : Does M s₀ s) :
    Does M s₀ (State.retire s row) := by
  unfold State.retire
  try dsimp only
  repeat' first
    | with_reducible assumption
    | with_reducible refine does_onLog (sub_trans hM) ?_ ?_
    | with_reducible apply does_raise (sub_trans hM)
    | split
    | exact fun k => ⟨k.wf, k.top, k.heads⟩

theorem does_retireCopy {M : Nat} {s₀ : State} {s : State} {c : ℕ} {n : ℕ} (hM : Sub 0xe220082 M) (hD : Does M s₀ s) :
    Does M s₀ (State.retireCopy s c n) := by
  unfold State.retireCopy
  try dsimp only
  repeat' first
    | with_reducible assumption
    | with_reducible apply does_retire (sub_trans hM)
    | split
    | with_reducible refine does_foldl (fun x_ a_ hx_ => ?_) ?_

theorem does_saveRows {M : Nat} {s₀ : State} {s : State} {x : SaveJob} {body : Bytes} {n : ℕ} (hM : Sub 0xe220082 M) (hD : Does M s₀ s) :
    Does M s₀ (State.saveRows s x body n) := by
  unfold State.saveRows
  try dsimp only
  repeat' first
    | with_reducible assumption
    | with_reducible apply does_retireCopy (sub_trans hM)
    | with_reducible apply does_writeImageRow (sub_trans hM)
    | split
    | with_reducible refine does_foldl (fun x_ a_ hx_ => ?_) ?_

theorem does_savedAs {M : Nat} {s₀ : State} {s : State} {x : SaveJob} {body : Bytes} (hM : Sub 0xe220082 M) (hD : Does M s₀ s) :
    Does M s₀ (State.savedAs s x body) := by
  unfold State.savedAs
  exact does_raise (sub_trans hM) (does_onLog (sub_trans hM) (fun k => ⟨k.wf, k.top, k.heads⟩)
    (does_writeImageRow (sub_trans hM) (does_saveRows (sub_trans hM) hD)))

theorem does_saved {M : Nat} {s₀ : State} {s : State} {x : SaveJob} (hM : Sub 0xe220082 M) (hD : Does M s₀ s) :
    Does M s₀ (State.saved s x) := does_savedAs hM hD

theorem does_savedPart {M : Nat} {s₀ : State} {s : State} {x : SaveJob} {body : Bytes} (hM : Sub 0x1e220082 M) (hD : Does M s₀ s) :
    Does M s₀ (State.savedPart s x body) := by
  unfold State.savedPart
  exact does_onLog (sub_trans hM) (fun k => ⟨k.wf, k.top, k.heads⟩) (does_saveRows (sub_trans hM) (does_useFree (sub_trans hM) hD))

theorem does_abandonSave {M : Nat} {s₀ : State} {s : State} (hM : Sub 0x1e220082 M) (hD : Does M s₀ s) :
    Does M s₀ (State.abandonSave s) := by
  unfold State.abandonSave
  split
  · exact does_savedPart hM hD
  · exact hD

theorem does_save {M : Nat} {s₀ : State} {s : State} {lock : Bool} (hM : Sub 0x2000000 M) (hD : Does M s₀ s) :
    Does M s₀ (State.save s lock) := by
  unfold State.save
  try dsimp only
  repeat' first
    | with_reducible assumption
    | with_reducible refine does_onLog (sub_trans hM) ?_ ?_
    | split
    | exact fun k => ⟨k.wf, k.top, k.heads⟩

end Sys2Proof.Laws
end

