-- ==== Sys2Proof/Laws/Hamper.lean ====
section
/-! SUPPORT. What each operation and command of Machine/Hamper.lean can touch, and that it keeps the invariants of the blocks. -/
set_option Elab.async false
namespace Sys2Proof.Laws
open Sys2Proof.Machine

theorem does_wakeLink {M : Nat} {s₀ : State} {s : State} {m : Nat} (hM : Sub 0x5000 M) (hD : Does M s₀ s) :
    Does M s₀ (State.wakeLink s m) := by
  unfold State.wakeLink
  try dsimp only
  repeat' first
    | with_reducible assumption
    | with_reducible apply does_setMac (sub_trans hM)
    | with_reducible apply does_setSch (sub_trans hM)
    | split

theorem does_queueCtrl {M : Nat} {s₀ : State} {s : State} {m : Nat} {x : CtrlFrame} (hM : Sub 0x5000 M) (hD : Does M s₀ s) :
    Does M s₀ (State.queueCtrl s m x) := by
  unfold State.queueCtrl
  try dsimp only
  repeat' first
    | with_reducible assumption
    | with_reducible apply does_wakeLink (sub_trans hM)
    | with_reducible apply does_setSch (sub_trans hM)
    | split

theorem does_xoffSet {M : Nat} {s₀ : State} {s : State} {m c : Nat} {on : Bool} (hM : Sub 0x7000 M) (hD : Does M s₀ s) :
    Does M s₀ (State.xoffSet s m c on) := by
  unfold State.xoffSet
  try dsimp only
  repeat' first
    | with_reducible assumption
    | with_reducible apply does_queueCtrl (sub_trans hM)
    | with_reducible apply does_onHamper (sub_trans hM)
    | split

theorem does_pauseSet {M : Nat} {s₀ : State} {s : State} {m : Nat} {on : Bool} (hM : Sub 0x5000 M) (hD : Does M s₀ s) :
    Does M s₀ (State.pauseSet s m on) := by
  unfold State.pauseSet
  try dsimp only
  repeat' first
    | with_reducible assumption
    | with_reducible apply does_queueCtrl (sub_trans hM)
    | with_reducible apply does_setMac (sub_trans hM)
    | split

theorem does_flowOne {M : Nat} {s₀ : State} {m : Nat} {s : State} {c : Nat} (hM : Sub 0x7000 M) (hD : Does M s₀ s) :
    Does M s₀ (State.flowOne m s c) := by
  unfold State.flowOne
  try dsimp only
  repeat' first
    | with_reducible assumption
    | with_reducible apply does_xoffSet (sub_trans hM)
    | split

theorem does_poolMark {M : Nat} {s₀ : State} {s : State} (hM : Sub 0x2000 M) (hD : Does M s₀ s) :
    Does M s₀ (State.poolMark s) := by
  unfold State.poolMark
  try dsimp only
  repeat' first
    | with_reducible assumption
    | with_reducible apply does_onHamper (sub_trans hM)
    | split

theorem does_dropMark {M : Nat} {s₀ : State} {s : State} {c : ℕ} (hM : Sub 0x2000 M) (hD : Does M s₀ s) :
    Does M s₀ (State.dropMark s c) := by
  unfold State.dropMark
  try dsimp only
  repeat' first
    | with_reducible assumption
    | with_reducible apply does_onHamper (sub_trans hM)
    | split

theorem does_flowCheck {M : Nat} {s₀ : State} {s : State} {m : Nat} (hM : Sub 0x7000 M) (hD : Does M s₀ s) :
    Does M s₀ (State.flowCheck s m) := by
  unfold State.flowCheck
  try dsimp only
  repeat' first
    | with_reducible assumption
    | with_reducible apply does_flowOne (sub_trans hM)
    | with_reducible apply does_pauseSet (sub_trans hM)
    | split
    | with_reducible refine does_foldl (fun x_ a_ hx_ => ?_) ?_

theorem does_flowAll {M : Nat} {s₀ : State} {s : State} (hM : Sub 0x7000 M) (hD : Does M s₀ s) :
    Does M s₀ (State.flowAll s) := by
  unfold State.flowAll
  try dsimp only
  repeat' first
    | with_reducible assumption
    | with_reducible apply does_flowCheck (sub_trans hM)
    | with_reducible refine does_foldl (fun x_ a_ hx_ => ?_) ?_

end Sys2Proof.Laws
end

