-- ==== Sys2Proof/Laws/Functions.lean ====
section
/-! SUPPORT. What each operation and command of Machine/Functions.lean can touch, and that it keeps the invariants of the blocks. -/
set_option Elab.async false
namespace Sys2Proof.Laws
open Sys2Proof.Machine

theorem does_mbxReply {M : Nat} {s₀ : State} {s : State} {f status op0 : Nat} (hM : Sub 0xc000080 M) (hD : Does M s₀ s) :
    Does M s₀ (State.mbxReply s f status op0) := by
  unfold State.mbxReply
  try dsimp only
  repeat' first
    | with_reducible assumption
    | with_reducible apply does_msix (sub_trans hM)
    | with_reducible apply does_setFn (sub_trans hM)

theorem does_dropRequest {M : Nat} {s₀ : State} {s : State} {f : ℕ} (hM : Sub 0x800 M) (hD : Does M s₀ s) :
    Does M s₀ (State.dropRequest s f) := by
  unfold State.dropRequest
  try dsimp only
  repeat' first
    | with_reducible assumption
    | with_reducible apply does_onHost (sub_trans hM)

theorem does_mbxReset {M : Nat} {s₀ : State} {s : State} {f : Nat} (hM : Sub 0x880 M) (hD : Does M s₀ s) :
    Does M s₀ (State.mbxReset s f) := by
  unfold State.mbxReset
  try dsimp only
  repeat' first
    | with_reducible assumption
    | with_reducible apply does_dropRequest (sub_trans hM)
    | with_reducible apply does_setFn (sub_trans hM)

theorem does_dropRings {M : Nat} {s₀ : State} {s : State} {f : Nat} (hM : Sub 0x4001700 M) (hD : Does M s₀ s) :
    Does M s₀ (State.dropRings s f) := by
  unfold State.dropRings
  try dsimp only
  repeat' first
    | with_reducible assumption
    | with_reducible apply does_onSched (sub_trans hM)
    | with_reducible apply does_onEvents (sub_trans hM)
    | with_reducible apply does_onCq (sub_trans hM)
    | with_reducible apply does_onRx (sub_trans hM)
    | with_reducible apply does_onTx (sub_trans hM)

theorem does_dropReads {M : Nat} {s₀ : State} {s : State} {f : Nat} (hM : Sub 0x800 M) (hD : Does M s₀ s) :
    Does M s₀ (State.dropReads s f) := by
  unfold State.dropReads
  try dsimp only
  repeat' first
    | with_reducible assumption
    | with_reducible apply does_onHost (sub_trans hM)

theorem does_quietFrames {M : Nat} {s₀ : State} {s : State} {f : Nat} (hM : Sub 0x1000 M) (hD : Does M s₀ s) :
    Does M s₀ (State.quietFrames s f) := by
  unfold State.quietFrames
  try dsimp only
  repeat' first
    | with_reducible assumption
    | with_reducible apply does_onSched (sub_trans hM)

theorem does_dropFrames {M : Nat} {s₀ : State} {s : State} {f : Nat} (hM : Sub 0xe222082 M) (hD : Does M s₀ s) :
    Does M s₀ (State.dropFrames s f) := by
  unfold State.dropFrames
  try dsimp only
  repeat' first
    | with_reducible assumption
    | with_reducible apply does_onHamper (sub_trans hM)
    | with_reducible apply does_countN (sub_trans hM)

theorem does_abortSnap {M : Nat} {s₀ : State} {s : State} {f : Nat} (hM : Sub 0x2 M) (hD : Does M s₀ s) :
    Does M s₀ (State.abortSnap s f) := by
  unfold State.abortSnap
  try dsimp only
  repeat' first
    | with_reducible assumption
    | with_reducible apply does_setOf (sub_trans hM)
    | split

theorem does_beginEvict {M : Nat} {s₀ : State} {s : State} {f cause : Nat} {keep : Bool} (hM : Sub 0xe227f82 M) (hD : Does M s₀ s) :
    Does M s₀ (State.beginEvict s f cause keep) := by
  unfold State.beginEvict
  try dsimp only
  repeat' first
    | with_reducible assumption
    | with_reducible apply does_flowAll (sub_trans hM)
    | with_reducible apply does_mbxReply (sub_trans hM)
    | with_reducible apply does_raise (sub_trans hM)
    | with_reducible apply does_setFn (sub_trans hM)
    | with_reducible apply does_dropFrames (sub_trans hM)
    | with_reducible apply does_abortSnap (sub_trans hM)
    | with_reducible apply does_dropRings (sub_trans hM)
    | with_reducible apply does_dropReads (sub_trans hM)
    | with_reducible apply does_quietFrames (sub_trans hM)
    | split

theorem does_endPresence {M : Nat} {s₀ : State} {s : State} {f cause : Nat} {reset : Bool} (hM : Sub 0xe227f82 M) (hD : Does M s₀ s) :
    Does M s₀ (State.endPresence s f cause reset) := by
  unfold State.endPresence
  try dsimp only
  repeat' first
    | with_reducible assumption
    | with_reducible apply does_mbxReset (sub_trans hM)
    | with_reducible apply does_beginEvict (sub_trans hM)
    | with_reducible apply does_setFn (sub_trans hM)
    | split

theorem does_becomePresent {M : Nat} {s₀ : State} {s : State} {f : Nat} (hM : Sub 0xe220082 M) (hD : Does M s₀ s) :
    Does M s₀ (State.becomePresent s f) := by
  unfold State.becomePresent
  try dsimp only
  repeat' first
    | with_reducible assumption
    | with_reducible apply does_raise (sub_trans hM)
    | with_reducible apply does_setFn (sub_trans hM)
    | split

theorem does_endAll {M : Nat} {s₀ : State} {s : State} {cause : Nat} {l : List Nat} (hM : Sub 0xe227f82 M) (hD : Does M s₀ s) :
    Does M s₀ (State.endAll s cause l) := by
  induction l generalizing s with
  | nil => exact hD
  | cons a r ih =>
    unfold State.endAll
    try dsimp only
    repeat' first
      | with_reducible assumption
      | with_reducible apply ih
      | with_reducible apply does_endPresence (sub_trans hM)
      | with_reducible apply does_setFn (sub_trans hM)

theorem does_linkLost {M : Nat} {s₀ : State} {s : State} {l : Nat} (hM : Sub 0xe227fb2 M) (hD : Does M s₀ s) :
    Does M s₀ (State.linkLost s l) := by
  unfold State.linkLost
  try dsimp only
  repeat' first
    | with_reducible assumption
    | with_reducible apply does_setFn (sub_trans hM)
    | with_reducible apply does_raise (sub_trans hM)
    | with_reducible apply does_onLinkDown (sub_trans hM)
    | with_reducible apply does_setLink (sub_trans hM)
    | with_reducible apply does_endAll (sub_trans hM)
    | split

theorem does_allLinksLost {M : Nat} {s₀ : State} {s : State} (hM : Sub 0xe227fb2 M) (hD : Does M s₀ s) :
    Does M s₀ (State.allLinksLost s) := by
  unfold State.allLinksLost
  try dsimp only
  repeat' first
    | with_reducible assumption
    | with_reducible apply does_linkLost (sub_trans hM)

theorem does_violation {M : Nat} {s₀ : State} {s : State} {f : Nat} (hM : Sub 0xe227f82 M) (hD : Does M s₀ s) :
    Does M s₀ (State.violation s f) := by
  unfold State.violation
  try dsimp only
  repeat' first
    | with_reducible assumption
    | with_reducible apply does_raiseOnce (sub_trans hM)
    | with_reducible apply does_count (sub_trans hM)
    | with_reducible apply does_setFn (sub_trans hM)
    | with_reducible apply does_beginEvict (sub_trans hM)
    | with_reducible apply does_raise (sub_trans hM)
    | split

theorem does_violations {M : Nat} {s₀ : State} {s : State} {f n : Nat} (hM : Sub 0xe227f82 M) (hD : Does M s₀ s) :
    Does M s₀ (State.violations s f n) := by
  induction n generalizing s with
  | zero => exact hD
  | succ k ih =>
    unfold State.violations
    try dsimp only
    repeat' first
      | with_reducible assumption
      | with_reducible apply ih
      | with_reducible apply does_violation (sub_trans hM)

theorem does_checkFail {M : Nat} {s₀ : State} {s : State} {binding f ring slot got want : Nat} (hM : Sub 0xe220082 M) (hD : Does M s₀ s) :
    Does M s₀ (State.checkFail s binding f ring slot got want) := by
  unfold State.checkFail
  try dsimp only
  repeat' first
    | with_reducible assumption
    | with_reducible apply does_raiseOnce (sub_trans hM)

theorem does_enrolFail {M : Nat} {s₀ : State} {s : State} {f status : Nat} (hM : Sub 0xe220082 M) (hD : Does M s₀ s) :
    Does M s₀ (State.enrolFail s f status) := by
  unfold State.enrolFail
  try dsimp only
  repeat' first
    | with_reducible assumption
    | with_reducible apply does_mbxReply (sub_trans hM)
    | with_reducible apply does_raise (sub_trans hM)

theorem does_sendRead {M : Nat} {s₀ : State} {s : State} {q : ReadAsk} {t : ℕ} (hM : Sub 0x8000800 M) (hD : Does M s₀ s) :
    Does M s₀ (State.sendRead s q t) := by
  unfold State.sendRead
  try dsimp only
  repeat' first
    | with_reducible assumption
    | with_reducible apply does_onHost (sub_trans hM)
    | with_reducible apply does_emit (sub_trans hM)

theorem does_issueRead {M : Nat} {s₀ : State} {s : State} {f : Nat} {k : ReadKind} {addr len : Nat} (hM : Sub 0x8000800 M) (hD : Does M s₀ s) :
    Does M s₀ (State.issueRead s f k addr len) := by
  unfold State.issueRead
  try dsimp only
  repeat' first
    | with_reducible assumption
    | with_reducible apply does_sendRead (sub_trans hM)
    | with_reducible apply does_emit (sub_trans hM)
    | with_reducible apply does_onHost (sub_trans hM)
    | split

theorem does_dropTag {M : Nat} {s₀ : State} {s : State} {tag : Nat} (hM : Sub 0x8000800 M) (hD : Does M s₀ s) :
    Does M s₀ (State.dropTag s tag) := by
  unfold State.dropTag
  try dsimp only
  repeat' first
    | with_reducible assumption
    | with_reducible apply does_sendRead (sub_trans hM)
    | with_reducible apply does_onHost (sub_trans hM)
    | split

theorem does_enrolRead {M : Nat} {s₀ : State} {s : State} {f op0 op1 : Nat} (hM : Sub 0xe227f82 M) (hD : Does M s₀ s) :
    Does M s₀ (State.enrolRead s f op0 op1) := by
  unfold State.enrolRead
  try dsimp only
  repeat' first
    | with_reducible assumption
    | with_reducible apply does_enrolFail (sub_trans hM)
    | with_reducible apply does_issueRead (sub_trans hM)
    | with_reducible apply does_setFn (sub_trans hM)
    | with_reducible apply does_violation (sub_trans hM)
    | split

theorem does_enrolStart {M : Nat} {s₀ : State} {s : State} {f op0 op1 : Nat} (hM : Sub 0xe227f82 M) (hD : Does M s₀ s) :
    Does M s₀ (State.enrolStart s f op0 op1) := by
  unfold State.enrolStart
  try dsimp only
  repeat' first
    | with_reducible assumption
    | with_reducible apply does_enrolRead (sub_trans hM)
    | with_reducible apply does_beginEvict (sub_trans hM)
    | with_reducible apply does_setFn (sub_trans hM)
    | with_reducible apply does_enrolFail (sub_trans hM)
    | split

theorem does_enrolDone {M : Nat} {s₀ : State} {s : State} {f : Nat} {d : Bytes} (hM : Sub 0xe220082 M) (hD : Does M s₀ s) :
    Does M s₀ (State.enrolDone s f d) := by
  unfold State.enrolDone
  try dsimp only
  repeat' first
    | with_reducible assumption
    | with_reducible apply does_setFn (sub_trans hM)
    | with_reducible apply does_mbxReply (sub_trans hM)
    | with_reducible apply does_raise (sub_trans hM)

theorem does_enrolEnd {M : Nat} {s₀ : State} {s : State} {f : ℕ} (hM : Sub 0xe220082 M) (hD : Does M s₀ s) :
    Does M s₀ (State.enrolEnd s f) := by
  unfold State.enrolEnd
  try dsimp only
  repeat' first
    | with_reducible assumption
    | with_reducible apply does_enrolDone (sub_trans hM)
    | split

theorem does_enrolEnds {M : Nat} {s₀ : State} {s : State} (hM : Sub 0xe220082 M) (hD : Does M s₀ s) :
    Does M s₀ (State.enrolEnds s) := by
  unfold State.enrolEnds
  try dsimp only
  repeat' first
    | with_reducible assumption
    | with_reducible apply does_enrolEnd (sub_trans hM)
    | split
    | with_reducible refine does_foldl (fun x_ a_ hx_ => ?_) ?_

theorem does_enrolChecked {M : Nat} {s₀ : State} {s : State} {f : ℕ} {d : Bytes} (hM : Sub 0xe220082 M) (hD : Does M s₀ s) :
    Does M s₀ (State.enrolChecked s f d) := by
  unfold State.enrolChecked
  try dsimp only
  repeat' first
    | with_reducible assumption
    | with_reducible apply does_enrolFail (sub_trans hM)
    | with_reducible apply does_checkFail (sub_trans hM)
    | with_reducible apply does_count (sub_trans hM)
    | with_reducible apply does_setFn (sub_trans hM)
    | split

theorem does_msgWaits {M : Nat} {s₀ : State} {s : State} {m : Msg} (hM : Sub 0x800 M) (hD : Does M s₀ s) :
    Does M s₀ (State.msgWaits s m) := by
  unfold State.msgWaits
  try dsimp only
  repeat' first
    | with_reducible assumption
    | with_reducible apply does_onHost (sub_trans hM)

theorem does_enrolRecord {M : Nat} {s₀ : State} {s : State} {f : Nat} {good : Bool} {d : Bytes} (hM : Sub 0xe220882 M) (hD : Does M s₀ s) :
    Does M s₀ (State.enrolRecord s f good d) := by
  unfold State.enrolRecord
  try dsimp only
  repeat' first
    | with_reducible assumption
    | with_reducible apply does_enrolChecked (sub_trans hM)
    | with_reducible apply does_msgWaits (sub_trans hM)
    | with_reducible apply does_dropTag (sub_trans hM)
    | with_reducible apply does_onHost (sub_trans hM)
    | with_reducible apply does_setFn (sub_trans hM)
    | with_reducible apply does_enrolFail (sub_trans hM)
    | with_reducible apply does_enrolDone (sub_trans hM)
    | with_reducible apply does_checkFail (sub_trans hM)
    | with_reducible apply does_count (sub_trans hM)
    | split
    | with_reducible refine does_foldl (fun x_ a_ hx_ => ?_) ?_

theorem does_readError {M : Nat} {s₀ : State} {s : State} {f : Nat} (hM : Sub 0xe227f82 M) (hD : Does M s₀ s) :
    Does M s₀ (State.readError s f) := by
  unfold State.readError
  try dsimp only
  repeat' first
    | with_reducible assumption
    | with_reducible apply does_beginEvict (sub_trans hM)
    | with_reducible apply does_enrolRecord (sub_trans hM)
    | split

theorem does_finishEvict {M : Nat} {s₀ : State} {s : State} {f : Nat} (hM : Sub 0xe227f82 M) (hD : Does M s₀ s) :
    Does M s₀ (State.finishEvict s f) := by
  unfold State.finishEvict
  try dsimp only
  repeat' first
    | with_reducible assumption
    | with_reducible apply does_raise (sub_trans hM)
    | with_reducible apply does_count (sub_trans hM)
    | with_reducible apply does_setFn (sub_trans hM)
    | with_reducible apply does_mbxReply (sub_trans hM)
    | with_reducible apply does_enrolRead (sub_trans hM)
    | with_reducible apply does_enrolFail (sub_trans hM)
    | split

theorem does_aer {M : Nat} {s₀ : State} {s : State} {l : Nat} {uncorrectable : Bool} (hM : Sub 0xe2200c2 M) (hD : Does M s₀ s) :
    Does M s₀ (State.aer s l uncorrectable) := by
  unfold State.aer
  try dsimp only
  repeat' first
    | with_reducible assumption
    | with_reducible apply does_onLinkAer (sub_trans hM)
    | with_reducible apply does_raise (sub_trans hM)
    | split

end Sys2Proof.Laws
end

