-- ==== Sys2Proof/Laws/TetherOps.lean ====
section
/-! SUPPORT. What each operation and command of Machine/TetherOps.lean can touch, and that it keeps the invariants of the blocks. -/
set_option Elab.async false
namespace Sys2Proof.Laws
open Sys2Proof.Machine

theorem does_tetherCount {M : Nat} {s₀ : State} {s : State} {n : Nat} (hM : Sub 0x1000000 M) (hD : Does M s₀ s) :
    Does M s₀ (State.tetherCount s n) := by
  unfold State.tetherCount
  try dsimp only
  repeat' first
    | with_reducible assumption
    | with_reducible refine does_onTether (sub_trans hM) ?_ ?_
    | exact fun k => k

theorem does_tetherQueue {M : Nat} {s₀ : State} {s : State} {typ : Nat} {payload : Bytes} (hM : Sub 0x1000000 M) (hD : Does M s₀ s) :
    Does M s₀ (State.tetherQueue s typ payload) := by
  unfold State.tetherQueue
  try dsimp only
  repeat' first
    | with_reducible assumption
    | with_reducible refine does_onTether (sub_trans hM) ?_ ?_
    | split
    | exact fun k => k

theorem does_announce {M : Nat} {s₀ : State} {s : State} {kind cause : Nat} (hM : Sub 0x1000000 M) (hD : Does M s₀ s) :
    Does M s₀ (State.announce s kind cause) := by
  unfold State.announce
  try dsimp only
  repeat' first
    | with_reducible assumption
    | with_reducible apply does_tetherQueue (sub_trans hM)

theorem does_vetoWake {M : Nat} {s₀ : State} {s : State} {w : Wake} (hM : Sub 0x1000000 M) (hD : Does M s₀ s) :
    Does M s₀ (State.vetoWake s w) := by
  unfold State.vetoWake
  try dsimp only
  repeat' first
    | with_reducible assumption
    | with_reducible refine does_onTether (sub_trans hM) ?_ ?_
    | with_reducible apply does_tetherQueue (sub_trans hM)
    | split
    | exact fun k => k

end Sys2Proof.Laws
end

