-- ==== Sys2Proof/Laws/Wakes.lean ====
section
/-! SUPPORT. What each operation and command of Machine/Wakes.lean can touch, and that it keeps the invariants of the blocks. -/
set_option Elab.async false
namespace Sys2Proof.Laws
open Sys2Proof.Machine

theorem does_watchStop {M : Nat} {s₀ : State} {s : State} (hM : Sub 0x10000 M) (hD : Does M s₀ s) :
    Does M s₀ (State.watchStop s) := by
  unfold State.watchStop
  try dsimp only
  repeat' first
    | with_reducible assumption
    | with_reducible apply does_setWatchLane (sub_trans hM)
    | with_reducible refine does_foldl (fun x_ a_ hx_ => ?_) ?_

theorem does_beginExit {M : Nat} {s₀ : State} {s : State} {w : Wake} {replay : Bool} (hM : Sub 0x610000 M) (hD : Does M s₀ s) :
    Does M s₀ (State.beginExit s w replay) := by
  unfold State.beginExit
  try dsimp only
  repeat' first
    | with_reducible assumption
    | with_reducible refine does_onSupply (sub_trans hM) ?_ ?_
    | with_reducible apply does_onPower (sub_trans hM)
    | with_reducible apply does_watchStop (sub_trans hM)
    | split
    | exact fun k => k

theorem does_registerWake {M : Nat} {s₀ : State} {s : State} {src det : Nat} (hM : Sub 0x1610000 M) (hD : Does M s₀ s) :
    Does M s₀ (State.registerWake s src det) := by
  unfold State.registerWake
  try dsimp only
  repeat' first
    | with_reducible assumption
    | with_reducible apply does_onPower (sub_trans hM)
    | with_reducible apply does_beginExit (sub_trans hM)
    | with_reducible apply does_vetoWake (sub_trans hM)
    | split

theorem does_endIdle {M : Nat} {s₀ : State} {s : State} (hM : Sub 0x400000 M) (hD : Does M s₀ s) :
    Does M s₀ (State.endIdle s) := by
  unfold State.endIdle
  try dsimp only
  repeat' first
    | with_reducible assumption
    | with_reducible apply does_onPower (sub_trans hM)
    | split

theorem does_partnerWake {M : Nat} {s₀ : State} {s : State} {f : ℕ} (hM : Sub 0x1610000 M) (hD : Does M s₀ s) :
    Does M s₀ (State.partnerWake s f) := by
  unfold State.partnerWake
  try dsimp only
  repeat' first
    | with_reducible assumption
    | with_reducible apply does_registerWake (sub_trans hM)
    | split

theorem does_arrives {M : Nat} {s₀ : State} {s : State} {f : ℕ} (hM : Sub 0x1610000 M) (hD : Does M s₀ s) :
    Does M s₀ (State.arrives s f) := by
  unfold State.arrives
  try dsimp only
  repeat' first
    | with_reducible assumption
    | with_reducible apply does_endIdle (sub_trans hM)
    | with_reducible apply does_partnerWake (sub_trans hM)

end Sys2Proof.Laws
end

