-- ==== Sys2Proof/Laws/Levels.lean ====
section
/-! SUPPORT. What each operation and command of Machine/Levels.lean can touch, and that it keeps the invariants of the blocks. -/
set_option Elab.async false
namespace Sys2Proof.Laws
open Sys2Proof.Machine

theorem does_holdLevels {M : Nat} {s₀ : State} {s : State} (hM : Sub 0x40000 M) (hD : Does M s₀ s) :
    Does M s₀ (State.holdLevels s) := by
  unfold State.holdLevels
  try dsimp only
  repeat' first
    | with_reducible assumption
    | ((with_reducible refine does_onPair (sub_trans hM) ?_ ?_); focus (unfold PairSt.acts; with_reducible rfl))

theorem does_freeLevels {M : Nat} {s₀ : State} {s : State} (hM : Sub 0xc040000 M) (hD : Does M s₀ s) :
    Does M s₀ (State.freeLevels s) := by
  unfold State.freeLevels
  try dsimp only
  repeat' first
    | with_reducible assumption
    | ((with_reducible refine does_onPair (sub_trans hM) ?_ ?_); focus (unfold PairSt.acts; with_reducible rfl))
    | with_reducible apply does_onEvents (sub_trans hM)
    | with_reducible apply does_msixSend (sub_trans hM)
    | split
    | with_reducible refine does_foldl (fun x_ a_ hx_ => ?_) ?_

end Sys2Proof.Laws
end

