-- ==== Sys2Proof/Laws/PairOps.lean ====
section
/-! SUPPORT. What each operation and command of Machine/PairOps.lean can touch, and that it keeps the invariants of the blocks. -/
set_option Elab.async false
namespace Sys2Proof.Laws
open Sys2Proof.Machine

theorem does_failEngine {M : Nat} {s₀ : State} {s : State} {e : Eng} {cause : Nat} (hM : Sub 0xf2e0082 M) (hD : Does M s₀ s) :
    Does M s₀ (State.failEngine s e cause) := by
  unfold State.failEngine
  try dsimp only
  repeat' first
    | with_reducible assumption
    | with_reducible apply does_raise (sub_trans hM)
    | with_reducible apply does_setEng (sub_trans hM)
    | with_reducible apply does_announce (sub_trans hM)
    | split

theorem does_cutOne {M : Nat} {s₀ : State} {s : State} {m : Nat} (hM : Sub 0x8001000 M) (hD : Does M s₀ s) :
    Does M s₀ (State.cutOne s m) := by
  unfold State.cutOne
  try dsimp only
  repeat' first
    | with_reducible assumption
    | with_reducible apply does_emit (sub_trans hM)
    | with_reducible apply does_setSch (sub_trans hM)
    | split

theorem does_cutFrames {M : Nat} {s₀ : State} {s : State} (hM : Sub 0x8001000 M) (hD : Does M s₀ s) :
    Does M s₀ (State.cutFrames s) := by
  unfold State.cutFrames
  try dsimp only
  repeat' first
    | with_reducible assumption
    | with_reducible apply does_cutOne (sub_trans hM)
    | with_reducible refine does_foldl (fun x_ a_ hx_ => ?_) ?_

theorem does_cutTlps {M : Nat} {s₀ : State} {s : State} (hM : Sub 0x18000000 M) (hD : Does M s₀ s) :
    Does M s₀ (State.cutTlps s) := by
  unfold State.cutTlps
  try dsimp only
  repeat' first
    | with_reducible assumption
    | with_reducible apply does_useFree (sub_trans hM)
    | with_reducible apply does_emit (sub_trans hM)

theorem does_holdWords {M : Nat} {s₀ : State} {s : State} (hM : Sub 0x40000 M) (hD : Does M s₀ s) :
    Does M s₀ (State.holdWords s) := by
  unfold State.holdWords
  try dsimp only
  repeat' first
    | with_reducible assumption
    | ((with_reducible refine does_onPair (sub_trans hM) ?_ ?_); focus (unfold PairSt.acts; with_reducible rfl))

theorem does_fence {M : Nat} {s₀ : State} {s : State} {cause : Nat} (hM : Sub 0xf2e7fb2 M) (hD : Does M s₀ s) :
    Does M s₀ (State.fence s cause) := by
  unfold State.fence
  try dsimp only
  repeat' first
    | with_reducible assumption
    | with_reducible apply does_freeLevels (sub_trans hM)
    | ((with_reducible refine does_onPair (sub_trans hM) ?_ ?_); focus (unfold PairSt.acts; with_reducible rfl))
    | with_reducible refine does_onPairActs (sub_trans hM) ?_
    | with_reducible apply does_announce (sub_trans hM)
    | with_reducible apply does_raise (sub_trans hM)
    | with_reducible apply does_onEvents (sub_trans hM)
    | with_reducible apply does_allLinksLost (sub_trans hM)
    | with_reducible apply does_cutFrames (sub_trans hM)
    | split

theorem does_deferCommit {M : Nat} {s₀ : State} {s : State} (hM : Sub 0xe220083 M) (hD : Does M s₀ s) :
    Does M s₀ (State.deferCommit s) := by
  unfold State.deferCommit
  try dsimp only
  repeat' first
    | with_reducible assumption
    | with_reducible apply does_raise (sub_trans hM)
    | with_reducible refine does_onSetup (sub_trans hM) ?_ ?_
    | split
    | exact fun k => k

theorem does_tallyBack {M : Nat} {s₀ : State} {s : State} (hM : Sub 0xe220082 M) (hD : Does M s₀ s) :
    Does M s₀ (State.tallyBack s) := by
  unfold State.tallyBack
  try dsimp only
  repeat' first
    | with_reducible assumption
    | with_reducible apply does_abortSnap (sub_trans hM)
    | with_reducible apply does_raise (sub_trans hM)
    | with_reducible refine does_onTally (sub_trans hM) ?_ ?_
    | with_reducible refine does_foldl (fun x_ a_ hx_ => ?_) ?_
    | with_reducible refine does_foldl_pair (fun x_ a_ hx_ => ?_) ?_
    | exact fun k => ⟨k.count, k.base, k.count⟩
    | exact fun k => ⟨k.count, k.base, k.mirror⟩
    | exact fun k => ⟨k.mirror, nofun, k.mirror⟩

theorem does_warmStart {M : Nat} {s₀ : State} {s : State} (hM : Sub 0xe260382 M) (hD : Does M s₀ s) :
    Does M s₀ (State.warmStart s) := by
  unfold State.warmStart
  try dsimp only
  repeat' first
    | with_reducible assumption
    | with_reducible apply does_onRx (sub_trans hM)
    | with_reducible apply does_tallyBack (sub_trans hM)
    | ((with_reducible refine does_onPair (sub_trans hM) ?_ ?_); focus (unfold PairSt.acts; with_reducible rfl))
    | with_reducible apply does_onTx (sub_trans hM)

theorem does_lowerAct {M : Nat} {s₀ : State} {s : State} {h : Handover} (hM : Sub 0xc0000 M) (hD : Does M s₀ s) :
    Does M s₀ (State.lowerAct s h) := by
  unfold State.lowerAct
  try dsimp only
  repeat' first
    | with_reducible assumption
    | with_reducible apply does_setEng (sub_trans hM)
    | ((with_reducible refine does_onPair (sub_trans hM) ?_ ?_); focus (unfold PairSt.acts; with_reducible rfl))
    | with_reducible refine does_onPairActs (sub_trans hM) ?_

theorem does_startHandover {M : Nat} {s₀ : State} {s : State} {out : Eng} {cause : Nat} {swap : Bool} (hM : Sub 0x1f2e1383 M) (hD : Does M s₀ s) :
    Does M s₀ (State.startHandover s out cause swap) := by
  unfold State.startHandover
  try dsimp only
  repeat' first
    | with_reducible assumption
    | with_reducible apply does_holdLevels (sub_trans hM)
    | with_reducible apply does_cutTlps (sub_trans hM)
    | with_reducible apply does_lowerAct (sub_trans hM)
    | with_reducible apply does_holdWords (sub_trans hM)
    | ((with_reducible refine does_onPair (sub_trans hM) ?_ ?_); focus (unfold PairSt.acts; with_reducible rfl))
    | with_reducible refine does_onPairActs (sub_trans hM) ?_
    | with_reducible apply does_setEng (sub_trans hM)
    | with_reducible apply does_warmStart (sub_trans hM)
    | with_reducible apply does_cutFrames (sub_trans hM)
    | with_reducible apply does_failEngine (sub_trans hM)
    | with_reducible apply does_deferCommit (sub_trans hM)
    | split

theorem does_actFalls {M : Nat} {s₀ : State} {s : State} (hM : Sub 0xc0000 M) (hD : Does M s₀ s) :
    Does M s₀ (State.actFalls s) := by
  unfold State.actFalls
  try dsimp only
  repeat' first
    | with_reducible assumption
    | with_reducible apply does_setEng (sub_trans hM)
    | with_reducible apply does_lowerAct (sub_trans hM)
    | split

theorem does_quiesceEnds {M : Nat} {s₀ : State} {s : State} (hM : Sub 0xe260083 M) (hD : Does M s₀ s) :
    Does M s₀ (State.quiesceEnds s) := by
  unfold State.quiesceEnds
  try dsimp only
  repeat' first
    | with_reducible assumption
    | with_reducible apply does_deferCommit (sub_trans hM)
    | with_reducible apply does_holdWords (sub_trans hM)
    | ((with_reducible refine does_onPair (sub_trans hM) ?_ ?_); focus (unfold PairSt.acts; with_reducible rfl))
    | split

theorem does_wireIdle {M : Nat} {s₀ : State} {s : State} (hM : Sub 0xe2e0083 M) (hD : Does M s₀ s) :
    Does M s₀ (State.wireIdle s) := by
  unfold State.wireIdle
  try dsimp only
  repeat' first
    | with_reducible assumption
    | with_reducible apply does_actFalls (sub_trans hM)
    | with_reducible apply does_quiesceEnds (sub_trans hM)

theorem does_faultAlone {M : Nat} {s₀ : State} {s : State} {e : Eng} {cause : ℕ} (hM : Sub 0x1f2e7fb3 M) (hD : Does M s₀ s) :
    Does M s₀ (State.faultAlone s e cause) := by
  unfold State.faultAlone
  try dsimp only
  repeat' first
    | with_reducible assumption
    | with_reducible apply does_announce (sub_trans hM)
    | with_reducible apply does_startHandover (sub_trans hM)
    | with_reducible apply does_raise (sub_trans hM)
    | with_reducible apply does_fence (sub_trans hM)
    | with_reducible apply does_failEngine (sub_trans hM)
    | ((with_reducible refine does_onPair (sub_trans hM) ?_ ?_); focus (unfold PairSt.acts; with_reducible rfl))
    | split

theorem does_faultInHandover {M : Nat} {s₀ : State} {s : State} {h : Handover} {e : Eng} {cause : ℕ} (hM : Sub 0x1f2e7fb2 M) (hD : Does M s₀ s) :
    Does M s₀ (State.faultInHandover s h e cause) := by
  unfold State.faultInHandover
  try dsimp only
  repeat' first
    | with_reducible assumption
    | with_reducible apply does_cutTlps (sub_trans hM)
    | with_reducible apply does_announce (sub_trans hM)
    | with_reducible apply does_lowerAct (sub_trans hM)
    | with_reducible apply does_raise (sub_trans hM)
    | with_reducible apply does_fence (sub_trans hM)
    | with_reducible apply does_failEngine (sub_trans hM)
    | with_reducible apply does_holdWords (sub_trans hM)
    | ((with_reducible refine does_onPair (sub_trans hM) ?_ ?_); focus (unfold PairSt.acts; with_reducible rfl))
    | with_reducible refine does_onPairActs (sub_trans hM) ?_
    | with_reducible apply does_cutFrames (sub_trans hM)
    | split

theorem does_engineFault {M : Nat} {s₀ : State} {s : State} {e : Eng} {cause : Nat} (hM : Sub 0x1f2e7fb3 M) (hD : Does M s₀ s) :
    Does M s₀ (State.engineFault s e cause) := by
  unfold State.engineFault
  try dsimp only
  repeat' first
    | with_reducible assumption
    | with_reducible apply does_faultInHandover (sub_trans hM)
    | with_reducible apply does_faultAlone (sub_trans hM)
    | ((with_reducible refine does_onPair (sub_trans hM) ?_ ?_); focus (unfold PairSt.acts; with_reducible rfl))
    | with_reducible refine does_onPairActs (sub_trans hM) ?_
    | with_reducible apply does_fence (sub_trans hM)
    | with_reducible apply does_failEngine (sub_trans hM)
    | with_reducible apply does_announce (sub_trans hM)
    | with_reducible apply does_raise (sub_trans hM)
    | with_reducible apply does_startHandover (sub_trans hM)
    | split

theorem does_hold {M : Nat} {s₀ : State} {s : State} {o : HeldOp} (hM : Sub 0xe260082 M) (hD : Does M s₀ s) :
    Does M s₀ (State.hold s o) := by
  unfold State.hold
  try dsimp only
  repeat' first
    | with_reducible assumption
    | ((with_reducible refine does_onPair (sub_trans hM) ?_ ?_); focus (unfold PairSt.acts; with_reducible rfl))
    | with_reducible apply does_count (sub_trans hM)
    | split

theorem does_takeIn {M : Nat} {s₀ : State} {s : State} {o : HeldOp} (hM : Sub 0xf670082 M) (hD : Does M s₀ s) :
    Does M s₀ (State.takeIn s o) := by
  unfold State.takeIn
  try dsimp only
  repeat' first
    | with_reducible assumption
    | with_reducible apply does_partnerWake (sub_trans hM)
    | with_reducible apply does_hold (sub_trans hM)

theorem does_setLockOf {M : Nat} {s₀ : State} {s : State} {p : FlitPath} {f : LockSt → LockSt} (hM : Sub 0x40000 M) (hD : Does M s₀ s) :
    Does M s₀ (State.setLockOf s p f) := by
  unfold State.setLockOf
  try dsimp only
  repeat' first
    | with_reducible assumption
    | ((with_reducible refine does_onPair (sub_trans hM) ?_ ?_); focus (unfold PairSt.acts; with_reducible rfl))

end Sys2Proof.Laws
end

