-- ==== Sys2Proof/Laws/Crosscut.lean ====
section
/-! SUPPORT. What each operation and command of Machine/Crosscut.lean can touch, and that it keeps the invariants of the blocks. -/
set_option Elab.async false
namespace Sys2Proof.Laws
open Sys2Proof.Machine

theorem does_sendMode {M : Nat} {s₀ : State} {s : State} {p : FlitPath} (hM : Sub 0x40000 M) (hD : Does M s₀ s) :
    Does M s₀ (State.sendMode s p) := by
  unfold State.sendMode
  try dsimp only
  repeat' first
    | with_reducible assumption
    | with_reducible apply does_setLockOf (sub_trans hM)
    | split

theorem does_sendOn {M : Nat} {s₀ : State} {s : State} {p : FlitPath} {lane : ℕ} {core : ℕ} (hM : Sub 0x40000 M) (hD : Does M s₀ s) :
    Does M s₀ (State.sendOn s p lane core).1 := by
  unfold State.sendOn
  try dsimp only
  repeat' first
    | with_reducible assumption
    | with_reducible apply does_setLockOf (sub_trans hM)
    | split

theorem does_sendFlit {M : Nat} {s₀ : State} {s : State} {p : FlitPath} {lane : ℕ} (hM : Sub 0x18040000 M) (hD : Does M s₀ s) :
    Does M s₀ (State.sendFlit s p lane) := by
  unfold State.sendFlit
  try dsimp only
  repeat' first
    | with_reducible assumption
    | with_reducible apply does_sendOn (sub_trans hM)
    | with_reducible apply does_sendMode (sub_trans hM)
    | with_reducible apply does_useFree (sub_trans hM)
    | with_reducible apply does_emit (sub_trans hM)

theorem does_present_ {M : Nat} {s₀ : State} {s : State} {e : Eng} {lane : ℕ} {raw : ℕ} {payload : ℕ} (hM : Sub 0x8040000 M) (hD : Does M s₀ s) :
    Does M s₀ (State.present_ s e lane raw payload) := by
  unfold State.present_
  try dsimp only
  repeat' first
    | with_reducible assumption
    | ((with_reducible refine does_onPair (sub_trans hM) ?_ ?_); focus (unfold PairSt.acts; with_reducible rfl))
    | with_reducible apply does_emit (sub_trans hM)
    | split

theorem does_fillSlot {M : Nat} {s₀ : State} {s : State} (hM : Sub 0x40000 M) (hD : Does M s₀ s) :
    Does M s₀ (State.fillSlot s) := by
  unfold State.fillSlot
  try dsimp only
  repeat' first
    | with_reducible assumption
    | ((with_reducible refine does_onPair (sub_trans hM) ?_ ?_); focus (unfold PairSt.acts; with_reducible rfl))
    | split

theorem does_emitSlot {M : Nat} {s₀ : State} {s : State} {e : Eng} {x : LineSlot} (hM : Sub 0x8000000 M) (hD : Does M s₀ s) :
    Does M s₀ (State.emitSlot s e x) := by
  unfold State.emitSlot
  try dsimp only
  repeat' first
    | with_reducible assumption
    | with_reducible apply does_emit (sub_trans hM)
    | split
    | with_reducible refine does_foldl (fun x_ a_ hx_ => ?_) ?_

theorem does_lineMoves {M : Nat} {s₀ : State} {s : State} (hM : Sub 0x8040000 M) (hD : Does M s₀ s) :
    Does M s₀ (State.lineMoves s) := by
  unfold State.lineMoves
  try dsimp only
  repeat' first
    | with_reducible assumption
    | ((with_reducible refine does_onPair (sub_trans hM) ?_ ?_); focus (unfold PairSt.acts; with_reducible rfl))
    | with_reducible apply does_emitSlot (sub_trans hM)
    | split
    | with_reducible refine does_foldl (fun x_ a_ hx_ => ?_) ?_

theorem does_thawLine {M : Nat} {s₀ : State} {s : State} (hM : Sub 0x40000 M) (hD : Does M s₀ s) :
    Does M s₀ (State.thawLine s) := by
  unfold State.thawLine
  try dsimp only
  repeat' first
    | with_reducible assumption
    | ((with_reducible refine does_onPair (sub_trans hM) ?_ ?_); focus (unfold PairSt.acts; with_reducible rfl))

theorem does_flitLost {M : Nat} {s₀ : State} {s : State} {p : FlitPath} {lock : Bool} (hM : Sub 0x1f2e7fb3 M) (hD : Does M s₀ s) :
    Does M s₀ (State.flitLost s p lock) := by
  unfold State.flitLost
  try dsimp only
  repeat' first
    | with_reducible assumption
    | with_reducible apply does_engineFault (sub_trans hM)
    | split

theorem does_badFlit {M : Nat} {s₀ : State} {s : State} {p : FlitPath} {lane : ℕ} {x : LaneRx} (hM : Sub 0x1f2e7fb3 M) (hD : Does M s₀ s) :
    Does M s₀ (State.badFlit s p lane x) := by
  unfold State.badFlit
  try dsimp only
  repeat' first
    | with_reducible assumption
    | with_reducible apply does_flitLost (sub_trans hM)
    | with_reducible apply does_setLockOf (sub_trans hM)
    | with_reducible apply does_raise (sub_trans hM)
    | with_reducible apply does_count (sub_trans hM)
    | split

theorem does_goodFlit {M : Nat} {s₀ : State} {s : State} {p : FlitPath} {lane : ℕ} {raw : ℕ} {x : LaneRx} {d : FlitIn} (hM : Sub 0x8040000 M) (hD : Does M s₀ s) :
    Does M s₀ (State.goodFlit s p lane raw x d) := by
  unfold State.goodFlit
  try dsimp only
  repeat' first
    | with_reducible assumption
    | with_reducible apply does_setLockOf (sub_trans hM)
    | with_reducible apply does_present_ (sub_trans hM)
    | split

theorem does_flitLocked {M : Nat} {s₀ : State} {s : State} {p : FlitPath} {lane raw : Nat} {x : LaneRx} (hM : Sub 0x1f2e7fb3 M) (hD : Does M s₀ s) :
    Does M s₀ (State.flitLocked s p lane raw x) := by
  unfold State.flitLocked
  split
  · exact does_badFlit (sub_trans hM) hD
  · exact does_goodFlit (sub_trans hM) hD

theorem does_flitOn {M : Nat} {s₀ : State} {s : State} {p : FlitPath} {lane cur : Nat} {x : LaneRx} (hM : Sub 0x1f2e7fb3 M) (hD : Does M s₀ s) :
    Does M s₀ (State.flitOn s p lane cur x) := by
  unfold State.flitOn
  split
  · exact does_flitLocked hM hD
  · exact does_setLockOf (sub_trans hM) hD

theorem does_flitIn {M : Nat} {s₀ : State} {s : State} {p : FlitPath} {lane cur : Nat} (hM : Sub 0x1f2e7fb3 M) (hD : Does M s₀ s) :
    Does M s₀ (State.flitIn s p lane cur) := does_flitOn hM hD

end Sys2Proof.Laws
end

