-- ==== Sys2Proof/Laws/Gates.lean ====
section
/-! SUPPORT. What each operation and command of Machine/Gates.lean can touch, and that it keeps the invariants of the blocks. -/
set_option Elab.async false
namespace Sys2Proof.Laws
open Sys2Proof.Machine

theorem does_gateRefresh {M : Nat} {s₀ : State} {s : State} {m : Nat} (hM : Sub 0x1000 M) (hD : Does M s₀ s) :
    Does M s₀ (State.gateRefresh s m) := by
  unfold State.gateRefresh
  try dsimp only
  repeat' first
    | with_reducible assumption
    | with_reducible apply does_setSch (sub_trans hM)

end Sys2Proof.Laws
end

