-- ==== Sys2Proof/Laws/TimeOps.lean ====
section
/-! SUPPORT. What each operation and command of Machine/TimeOps.lean can touch, and that it keeps the invariants of the blocks. -/
set_option Elab.async false
namespace Sys2Proof.Laws
open Sys2Proof.Machine

theorem does_setSource {M : Nat} {s₀ : State} {s : State} {n : TimeSource} (hM : Sub 0xe220086 M) (hD : Does M s₀ s) :
    Does M s₀ (State.setSource s n) := by
  unfold State.setSource
  try dsimp only
  repeat' first
    | with_reducible assumption
    | with_reducible apply does_raise (sub_trans hM)
    | with_reducible apply does_onTime (sub_trans hM)
    | split

theorem does_holdExpire {M : Nat} {s₀ : State} {s : State} (hM : Sub 0xe220086 M) (hD : Does M s₀ s) :
    Does M s₀ (State.holdExpire s) := by
  unfold State.holdExpire
  try dsimp only
  repeat' first
    | with_reducible assumption
    | with_reducible apply does_setSource (sub_trans hM)
    | with_reducible apply does_onTime (sub_trans hM)
    | split

theorem does_adoptSource {M : Nat} {s₀ : State} {s : State} {code : Nat} (hM : Sub 0xe220086 M) (hD : Does M s₀ s) :
    Does M s₀ (State.adoptSource s code) := by
  unfold State.adoptSource
  try dsimp only
  repeat' first
    | with_reducible assumption
    | with_reducible apply does_setSource (sub_trans hM)
    | with_reducible apply does_onTime (sub_trans hM)
    | split

theorem does_gatesRefresh {M : Nat} {s₀ : State} {s : State} (hM : Sub 0x1000 M) (hD : Does M s₀ s) :
    Does M s₀ (State.gatesRefresh s) := by
  unfold State.gatesRefresh
  try dsimp only
  repeat' first
    | with_reducible assumption
    | with_reducible apply does_gateRefresh (sub_trans hM)
    | with_reducible refine does_foldl (fun x_ a_ hx_ => ?_) ?_

theorem does_jump {M : Nat} {s₀ : State} {s : State} {dest : Nat} (hM : Sub 0xe221086 M) (hD : Does M s₀ s) :
    Does M s₀ (State.jump s dest) := by
  unfold State.jump
  try dsimp only
  repeat' first
    | with_reducible assumption
    | with_reducible apply does_onSched (sub_trans hM)
    | with_reducible apply does_gatesRefresh (sub_trans hM)
    | with_reducible apply does_raise (sub_trans hM)
    | with_reducible apply does_onTime (sub_trans hM)

theorem does_takeEffect {M : Nat} {s₀ : State} {s : State} {a : ℕ × ℤ} (hM : Sub 0xe221086 M) (hD : Does M s₀ s) :
    Does M s₀ (State.takeEffect s a) := by
  unfold State.takeEffect
  try dsimp only
  repeat' first
    | with_reducible assumption
    | with_reducible apply does_onTime (sub_trans hM)
    | with_reducible apply does_jump (sub_trans hM)
    | split

theorem does_takeDue {M : Nat} {s₀ : State} {s : State} (hM : Sub 0xe221086 M) (hD : Does M s₀ s) :
    Does M s₀ (State.takeDue s) := by
  unfold State.takeDue
  try dsimp only
  repeat' first
    | with_reducible assumption
    | with_reducible apply does_onTime (sub_trans hM)
    | with_reducible apply does_takeEffect (sub_trans hM)
    | split
    | with_reducible refine does_foldl (fun x_ a_ hx_ => ?_) ?_

theorem does_adjust {M : Nat} {s₀ : State} {s : State} {code action : Nat} {x : Int} (hM : Sub 0xe221086 M) (hD : Does M s₀ s) :
    Does M s₀ (State.adjust s code action x) := by
  unfold State.adjust
  try dsimp only
  repeat' first
    | with_reducible assumption
    | with_reducible apply does_holdExpire (sub_trans hM)
    | with_reducible apply does_raiseOnce (sub_trans hM)
    | with_reducible apply does_onTime (sub_trans hM)
    | with_reducible apply does_jump (sub_trans hM)
    | with_reducible apply does_adoptSource (sub_trans hM)
    | split

theorem does_advanceTime {M : Nat} {s₀ : State} {s : State} (hM : Sub 0xe26108e M) (hD : Does M s₀ s) :
    Does M s₀ (State.advanceTime s) := by
  unfold State.advanceTime
  try dsimp only
  repeat' first
    | with_reducible assumption
    | with_reducible apply does_onTime (sub_trans hM)
    | with_reducible apply does_takeDue (sub_trans hM)
    | with_reducible apply does_onRtc (sub_trans hM)
    | with_reducible apply does_lineMoves (sub_trans hM)
    | with_reducible apply does_fillSlot (sub_trans hM)
    | split

theorem does_ctrlWritten {M : Nat} {s₀ : State} {s : State} {action : Nat} {src : BitVec 2} (hM : Sub 0x4 M) (hD : Does M s₀ s) :
    Does M s₀ (State.ctrlWritten s action src) := by
  unfold State.ctrlWritten
  try dsimp only
  repeat' first
    | with_reducible assumption
    | with_reducible apply does_onTime (sub_trans hM)

theorem does_timeNowRead {M : Nat} {s₀ : State} {s : State} {of : Nat} (hM : Sub 0x8000002 M) (hD : Does M s₀ s) :
    Does M s₀ (State.timeNowRead s of) := by
  unfold State.timeNowRead
  try dsimp only
  repeat' first
    | with_reducible assumption
    | with_reducible apply does_emit (sub_trans hM)
    | with_reducible apply does_setOf (sub_trans hM)

theorem does_execTimeNowRead (of : Fin 4) (s : State) :
    ∃ t, execTimeNowRead of s = .next t ∧ Does 0x9610002 s t := by
  have hM : Sub 0x9610002 0x9610002 := by decide
  have hD := does_refl 0x9610002 s
  refine ⟨_, rfl, ?_⟩
  try dsimp only
  repeat' first
    | with_reducible assumption
    | with_reducible apply does_partnerWake (sub_trans hM)
    | with_reducible apply does_timeNowRead (sub_trans hM)
    | split

theorem does_execTimeCtrlRate (src : BitVec 2) (s : State) :
    ∃ t, execTimeCtrlRate src s = .next t ∧ Does 0xf631086 s t := by
  have hM : Sub 0xf631086 0xf631086 := by decide
  have hD := does_refl 0xf631086 s
  refine ⟨_, rfl, ?_⟩
  try dsimp only
  repeat' first
    | with_reducible assumption
    | with_reducible apply does_partnerWake (sub_trans hM)
    | with_reducible apply does_adjust (sub_trans hM)
    | with_reducible apply does_ctrlWritten (sub_trans hM)
    | split

theorem does_execTimeCtrlStep (src : BitVec 2) (s : State) :
    ∃ t, execTimeCtrlStep src s = .next t ∧ Does 0xf631086 s t := by
  have hM : Sub 0xf631086 0xf631086 := by decide
  have hD := does_refl 0xf631086 s
  refine ⟨_, rfl, ?_⟩
  try dsimp only
  repeat' first
    | with_reducible assumption
    | with_reducible apply does_partnerWake (sub_trans hM)
    | with_reducible apply does_adjust (sub_trans hM)
    | with_reducible apply does_ctrlWritten (sub_trans hM)
    | split

theorem does_execTimeCtrlSet (src : BitVec 2) (s : State) :
    ∃ t, execTimeCtrlSet src s = .next t ∧ Does 0xf631086 s t := by
  have hM : Sub 0xf631086 0xf631086 := by decide
  have hD := does_refl 0xf631086 s
  refine ⟨_, rfl, ?_⟩
  try dsimp only
  repeat' first
    | with_reducible assumption
    | with_reducible apply does_partnerWake (sub_trans hM)
    | with_reducible apply does_adjust (sub_trans hM)
    | with_reducible apply does_ctrlWritten (sub_trans hM)
    | split

theorem does_execTimeHoldExpiry (s : State) :
    ∃ t, execTimeHoldExpiry s = .next t ∧ Does 0xe220086 s t := by
  have hM : Sub 0xe220086 0xe220086 := by decide
  have hD := does_refl 0xe220086 s
  refine ⟨_, rfl, ?_⟩
  try dsimp only
  repeat' first
    | with_reducible assumption
    | with_reducible apply does_holdExpire (sub_trans hM)

theorem does_execRtcAlarmWrite (hi : BitVec 16) (s : State) :
    ∃ t, execRtcAlarmWrite hi s = .next t ∧ Does 0x1610008 s t := by
  have hM : Sub 0x1610008 0x1610008 := by decide
  have hD := does_refl 0x1610008 s
  refine ⟨_, rfl, ?_⟩
  try dsimp only
  repeat' first
    | with_reducible assumption
    | with_reducible apply does_partnerWake (sub_trans hM)
    | with_reducible apply does_onRtc (sub_trans hM)
    | split

theorem does_execRtcCountWrite (hi : BitVec 16) (s : State) :
    ∃ t, execRtcCountWrite hi s = .next t ∧ Does 0x1610008 s t := by
  have hM : Sub 0x1610008 0x1610008 := by decide
  have hD := does_refl 0x1610008 s
  refine ⟨_, rfl, ?_⟩
  try dsimp only
  repeat' first
    | with_reducible assumption
    | with_reducible apply does_partnerWake (sub_trans hM)
    | with_reducible apply does_onRtc (sub_trans hM)
    | split

theorem does_execRtcCountRead (s : State) :
    ∃ t, execRtcCountRead s = .next t ∧ Does 0x9610008 s t := by
  have hM : Sub 0x9610008 0x9610008 := by decide
  have hD := does_refl 0x9610008 s
  refine ⟨_, rfl, ?_⟩
  try dsimp only
  repeat' first
    | with_reducible assumption
    | with_reducible apply does_partnerWake (sub_trans hM)
    | with_reducible apply does_emit (sub_trans hM)
    | with_reducible apply does_onRtc (sub_trans hM)
    | split

end Sys2Proof.Laws
end

