-- ==== Sys2Proof/Laws/Rings.lean ====
section
/-! SUPPORT. What each operation and command of Machine/Rings.lean can touch, and that it keeps the invariants of the blocks. -/
set_option Elab.async false
namespace Sys2Proof.Laws
open Sys2Proof.Machine

theorem does_cqSignal {M : Nat} {s₀ : State} {s : State} {n : Nat} (hM : Sub 0xc000480 M) (hD : Does M s₀ s) :
    Does M s₀ (State.cqSignal s n) := by
  unfold State.cqSignal
  try dsimp only
  repeat' first
    | with_reducible assumption
    | with_reducible apply does_onEvents (sub_trans hM)
    | with_reducible apply does_msix (sub_trans hM)
    | with_reducible apply does_setCqr (sub_trans hM)

theorem does_cqMaybe {M : Nat} {s₀ : State} {s : State} {n : Nat} (hM : Sub 0xc000480 M) (hD : Does M s₀ s) :
    Does M s₀ (State.cqMaybe s n) := by
  unfold State.cqMaybe
  try dsimp only
  repeat' first
    | with_reducible assumption
    | with_reducible apply does_cqSignal (sub_trans hM)
    | split

theorem does_cqWrite {M : Nat} {s₀ : State} {s : State} {n : Nat} {c : Cpl} {held : Bool} (hM : Sub 0xc020480 M) (hD : Does M s₀ s) :
    Does M s₀ (State.cqWrite s n c held) := by
  unfold State.cqWrite
  try dsimp only
  repeat' first
    | with_reducible assumption
    | with_reducible apply does_recordUse (sub_trans hM)
    | with_reducible apply does_cqMaybe (sub_trans hM)
    | with_reducible apply does_setCqr (sub_trans hM)
    | with_reducible apply does_emit (sub_trans hM)

theorem does_cqReserve {M : Nat} {s₀ : State} {s : State} {n : Nat} (hM : Sub 0x400 M) (hD : Does M s₀ s) :
    Does M s₀ (State.cqReserve s n) := by
  unfold State.cqReserve
  try dsimp only
  repeat' first
    | with_reducible assumption
    | with_reducible apply does_setCqr (sub_trans hM)

theorem does_cqRelease {M : Nat} {s₀ : State} {s : State} {n : Nat} (hM : Sub 0x400 M) (hD : Does M s₀ s) :
    Does M s₀ (State.cqRelease s n) := by
  unfold State.cqRelease
  try dsimp only
  repeat' first
    | with_reducible assumption
    | with_reducible apply does_setCqr (sub_trans hM)

theorem does_txCompleteOne {M : Nat} {s₀ : State} {s : State} {n : Nat} (hM : Sub 0xe220582 M) (hD : Does M s₀ s) :
    Does M s₀ (State.txCompleteOne s n).1 := by
  unfold State.txCompleteOne
  try dsimp only
  repeat' first
    | with_reducible assumption
    | with_reducible apply does_setTxr (sub_trans hM)
    | with_reducible apply does_cqWrite (sub_trans hM)
    | with_reducible apply does_count (sub_trans hM)
    | split

theorem does_txCompleteN {M : Nat} {s₀ : State} {n k : Nat} {s : State} (hM : Sub 0xe220582 M) (hD : Does M s₀ s) :
    Does M s₀ (State.txCompleteN n k s) := by
  induction k generalizing s with
  | zero => exact hD
  | succ k ih =>
    unfold State.txCompleteN
    try dsimp only
    repeat' first
      | with_reducible assumption
      | with_reducible apply ih
      | with_reducible apply does_txCompleteOne (sub_trans hM)
      | split

theorem does_txComplete {M : Nat} {s₀ : State} {s : State} {n : Nat} (hM : Sub 0xe220582 M) (hD : Does M s₀ s) :
    Does M s₀ (State.txComplete s n) := by
  unfold State.txComplete
  try dsimp only
  repeat' first
    | with_reducible assumption
    | with_reducible apply does_txCompleteN (sub_trans hM)

theorem does_txCompleteAll {M : Nat} {s₀ : State} {s : State} {q : Nat} (hM : Sub 0xe220582 M) (hD : Does M s₀ s) :
    Does M s₀ (State.txCompleteAll s q) := by
  unfold State.txCompleteAll
  try dsimp only
  repeat' first
    | with_reducible assumption
    | with_reducible apply does_txComplete (sub_trans hM)
    | with_reducible refine does_foldl (fun x_ a_ hx_ => ?_) ?_

theorem does_badFormat {M : Nat} {s₀ : State} {s : State} {n : Nat} {rx : Bool} (hM : Sub 0xe220082 M) (hD : Does M s₀ s) :
    Does M s₀ (State.badFormat s n rx) := by
  unfold State.badFormat
  try dsimp only
  repeat' first
    | with_reducible assumption
    | with_reducible apply does_raiseOnce (sub_trans hM)
    | with_reducible apply does_count (sub_trans hM)
    | split

theorem does_testSend {M : Nat} {s₀ : State} {s : State} {n : Nat} {ds : List TxDesc} {whole : Bool} (hM : Sub 0xe227f82 M) (hD : Does M s₀ s) :
    Does M s₀ (State.testSend s n ds whole).1 := by
  unfold State.testSend
  try dsimp only
  repeat' first
    | with_reducible assumption
    | with_reducible apply does_badFormat (sub_trans hM)
    | with_reducible apply does_violations (sub_trans hM)
    | split

theorem does_closeSend {M : Nat} {s₀ : State} {s : State} {n : Nat} {ds : List TxDesc} {whole : Bool} (hM : Sub 0xe227f82 M) (hD : Does M s₀ s) :
    Does M s₀ (State.closeSend s n ds whole) := by
  unfold State.closeSend
  try dsimp only
  repeat' first
    | with_reducible assumption
    | with_reducible apply does_testSend (sub_trans hM)
    | with_reducible apply does_setTxr (sub_trans hM)
    | with_reducible apply does_txComplete (sub_trans hM)
    | with_reducible apply does_count (sub_trans hM)
    | split

theorem does_assembleN {M : Nat} {s₀ : State} {n k : Nat} {s : State} (hM : Sub 0xe227f82 M) (hD : Does M s₀ s) :
    Does M s₀ (State.assembleN n k s) := by
  induction k generalizing s with
  | zero => exact hD
  | succ k ih =>
    unfold State.assembleN
    try dsimp only
    repeat' first
      | with_reducible assumption
      | with_reducible apply ih
      | with_reducible apply does_closeSend (sub_trans hM)
      | with_reducible apply does_setTxr (sub_trans hM)
      | split

theorem does_assemble {M : Nat} {s₀ : State} {s : State} {n : Nat} (hM : Sub 0xe227f82 M) (hD : Does M s₀ s) :
    Does M s₀ (State.assemble s n) := by
  unfold State.assemble
  try dsimp only
  repeat' first
    | with_reducible assumption
    | with_reducible apply does_assembleN (sub_trans hM)

theorem does_recall {M : Nat} {s₀ : State} {s : State} {n pos : Nat} (hM : Sub 0xe227f82 M) (hD : Does M s₀ s) :
    Does M s₀ (State.recall s n pos) := by
  unfold State.recall
  try dsimp only
  repeat' first
    | with_reducible assumption
    | with_reducible apply does_setTxr (sub_trans hM)
    | with_reducible apply does_txComplete (sub_trans hM)
    | with_reducible apply does_assemble (sub_trans hM)

theorem does_rxPass {M : Nat} {s₀ : State} {s : State} {n : ℕ} {rest : List RxSlot} (hM : Sub 0x200 M) (hD : Does M s₀ s) :
    Does M s₀ (State.rxPass s n rest) := by
  unfold State.rxPass
  try dsimp only
  repeat' first
    | with_reducible assumption
    | with_reducible apply does_setRxr (sub_trans hM)

theorem does_rxAdvanceN {M : Nat} {s₀ : State} {n k : Nat} {s : State} (hM : Sub 0xe220682 M) (hD : Does M s₀ s) :
    Does M s₀ (State.rxAdvanceN n k s) := by
  induction k generalizing s with
  | zero => exact hD
  | succ k ih =>
    unfold State.rxAdvanceN
    try dsimp only
    repeat' first
      | with_reducible assumption
      | with_reducible apply does_rxPass (sub_trans hM)
      | with_reducible apply does_count (sub_trans hM)
      | with_reducible apply ih
      | with_reducible apply does_setRxr (sub_trans hM)
      | with_reducible apply does_cqWrite (sub_trans hM)
      | split

theorem does_rxAdvance {M : Nat} {s₀ : State} {s : State} {n : Nat} (hM : Sub 0xe220682 M) (hD : Does M s₀ s) :
    Does M s₀ (State.rxAdvance s n) := by
  unfold State.rxAdvance
  try dsimp only
  repeat' first
    | with_reducible assumption
    | with_reducible apply does_rxAdvanceN (sub_trans hM)

theorem does_rxAdvanceAll {M : Nat} {s₀ : State} {s : State} {q : ℕ} (hM : Sub 0xe220682 M) (hD : Does M s₀ s) :
    Does M s₀ (State.rxAdvanceAll s q) := by
  unfold State.rxAdvanceAll
  try dsimp only
  repeat' first
    | with_reducible assumption
    | with_reducible apply does_rxAdvance (sub_trans hM)
    | split
    | with_reducible refine does_foldl (fun x_ a_ hx_ => ?_) ?_

end Sys2Proof.Laws
end

