-- ==== Sys2Proof/Laws/Delivery.lean ====
section
/-! SUPPORT. What each operation and command of Machine/Delivery.lean can touch, and that it keeps the invariants of the blocks. -/
set_option Elab.async false
namespace Sys2Proof.Laws
open Sys2Proof.Machine

theorem does_writeSlots {M : Nat} {s₀ : State} {s : State} {fn : Nat} {ro : Bool} {l : List RxSlot} {b : Bytes} (hM : Sub 0x8020000 M) (hD : Does M s₀ s) :
    Does M s₀ (State.writeSlots s fn ro l b) := by
  induction l generalizing s b with
  | nil => exact hD
  | cons a r ih =>
    unfold State.writeSlots
    try dsimp only
    repeat' first
      | with_reducible assumption
      | with_reducible apply does_dmaUse (sub_trans hM)
      | with_reducible apply ih
      | with_reducible apply does_emit (sub_trans hM)
      | split

theorem does_markSlots {M : Nat} {s₀ : State} {s : State} {n : Nat} {used : List RxSlot} {mark : Nat} (hM : Sub 0x200 M) (hD : Does M s₀ s) :
    Does M s₀ (State.markSlots s n used mark) := by
  unfold State.markSlots
  try dsimp only
  repeat' first
    | with_reducible assumption
    | with_reducible apply does_setRxr (sub_trans hM)

theorem does_rxFinish {M : Nat} {s₀ : State} {s : State} {n : ℕ} {inc : Bool} {e : Cpl} {held : Bool} {used : List RxSlot} (hM : Sub 0xc020680 M) (hD : Does M s₀ s) :
    Does M s₀ (State.rxFinish s n inc e held used) := by
  unfold State.rxFinish
  try dsimp only
  repeat' first
    | with_reducible assumption
    | with_reducible apply does_cqReserve (sub_trans hM)
    | with_reducible apply does_setRxr (sub_trans hM)
    | with_reducible apply does_cqWrite (sub_trans hM)
    | with_reducible apply does_markSlots (sub_trans hM)
    | split

theorem does_dropCopy {M : Nat} {s₀ : State} {s : State} {n : Nat} {h : HFrame} (hM : Sub 0x7200 M) (hD : Does M s₀ s) :
    Does M s₀ (State.dropCopy s n h) := by
  unfold State.dropCopy
  try dsimp only
  repeat' first
    | with_reducible assumption
    | with_reducible apply does_flowCheck (sub_trans hM)
    | with_reducible apply does_setRxr (sub_trans hM)
    | with_reducible apply does_onHamper (sub_trans hM)

theorem does_rxWritten {M : Nat} {s₀ : State} {s : State} {h : HFrame} {c : RxCopy} {len : ℕ} (hM : Sub 0xe220082 M) (hD : Does M s₀ s) :
    Does M s₀ (State.rxWritten s h c len) := by
  unfold State.rxWritten
  try dsimp only
  repeat' first
    | with_reducible assumption
    | with_reducible apply does_uses (sub_trans hM)
    | with_reducible apply does_countN (sub_trans hM)
    | with_reducible apply does_count (sub_trans hM)
    | split

theorem does_setCopy {M : Nat} {s₀ : State} {s : State} {n id : Nat} {f : RxCopy → RxCopy} (hM : Sub 0x2000 M) (hD : Does M s₀ s) :
    Does M s₀ (State.setCopy s n id f) := by
  unfold State.setCopy
  try dsimp only
  repeat' first
    | with_reducible assumption
    | with_reducible apply does_onHamper (sub_trans hM)

theorem does_rxDry {M : Nat} {s₀ : State} {s : State} {n : Nat} {r : RxRing} {h : HFrame} {noBuf : Bool} (hM : Sub 0xe220082 M) (hD : Does M s₀ s) :
    Does M s₀ (State.rxDry s n r h noBuf) := by
  unfold State.rxDry
  try dsimp only
  repeat' first
    | with_reducible assumption
    | with_reducible apply does_raiseOnce (sub_trans hM)
    | with_reducible apply does_count (sub_trans hM)
    | split

theorem does_rxAbandon {M : Nat} {s₀ : State} {s : State} {n : ℕ} {nbuf : ℕ} {len : ℕ} (hM : Sub 0xe220082 M) (hD : Does M s₀ s) :
    Does M s₀ (State.rxAbandon s n nbuf len) := by
  unfold State.rxAbandon
  try dsimp only
  repeat' first
    | with_reducible assumption
    | with_reducible apply does_raiseOnce (sub_trans hM)
    | with_reducible apply does_count (sub_trans hM)

theorem does_rxDrop {M : Nat} {s₀ : State} {s : State} {n : ℕ} (hM : Sub 0xe227682 M) (hD : Does M s₀ s) :
    Does M s₀ (State.rxDrop s n) := by
  unfold State.rxDrop
  try dsimp only
  repeat' first
    | with_reducible assumption
    | with_reducible apply does_rxAdvance (sub_trans hM)
    | with_reducible apply does_rxAbandon (sub_trans hM)
    | with_reducible apply does_rxDry (sub_trans hM)
    | with_reducible apply does_rxFinish (sub_trans hM)
    | with_reducible apply does_dropCopy (sub_trans hM)
    | split

theorem does_rxShort {M : Nat} {s₀ : State} {s : State} {n : Nat} (hM : Sub 0xe227682 M) (hD : Does M s₀ s) :
    Does M s₀ (State.rxShort s n) := by
  unfold State.rxShort
  try dsimp only
  repeat' first
    | with_reducible assumption
    | with_reducible apply does_rxDrop (sub_trans hM)
    | with_reducible apply does_rxExpire (sub_trans hM)
    | with_reducible apply does_setRxr (sub_trans hM)
    | split

theorem does_rxEndWait {M : Nat} {s₀ : State} {s : State} {n : ℕ} (hM : Sub 0x200 M) (hD : Does M s₀ s) :
    Does M s₀ (State.rxEndWait s n) := by
  unfold State.rxEndWait
  try dsimp only
  repeat' first
    | with_reducible assumption
    | with_reducible apply does_setRxr (sub_trans hM)

theorem does_rxExpire {M : Nat} {s₀ : State} {s : State} {n : Nat} (hM : Sub 0xe227682 M) (hD : Does M s₀ s) :
    Does M s₀ (State.rxExpire s n) := by
  unfold State.rxExpire
  try dsimp only
  repeat' first
    | with_reducible assumption
    | with_reducible apply does_rxEndWait (sub_trans hM)
    | with_reducible apply does_rxDrop (sub_trans hM)
    | with_reducible apply does_setRxr (sub_trans hM)
    | with_reducible apply does_cqWrite (sub_trans hM)
    | with_reducible apply does_markSlots (sub_trans hM)
    | with_reducible apply does_rxAdvance (sub_trans hM)
    | with_reducible apply does_dropCopy (sub_trans hM)
    | with_reducible apply does_raiseOnce (sub_trans hM)
    | with_reducible apply does_count (sub_trans hM)
    | with_reducible apply does_rxDry (sub_trans hM)
    | split

theorem does_rxSupplied {M : Nat} {s₀ : State} {s : State} {n : ℕ} (hM : Sub 0xe227682 M) (hD : Does M s₀ s) :
    Does M s₀ (State.rxSupplied s n) := by
  unfold State.rxSupplied
  try dsimp only
  repeat' first
    | with_reducible assumption
    | with_reducible apply does_rxEndWait (sub_trans hM)
    | with_reducible apply does_rxDrop (sub_trans hM)
    | split

theorem does_rxRefill {M : Nat} {s₀ : State} {s : State} {q : ℕ} (hM : Sub 0xe227682 M) (hD : Does M s₀ s) :
    Does M s₀ (State.rxRefill s q) := by
  unfold State.rxRefill
  try dsimp only
  repeat' first
    | with_reducible assumption
    | with_reducible apply does_rxSupplied (sub_trans hM)
    | with_reducible apply does_rxAdvanceAll (sub_trans hM)
    | split
    | with_reducible refine does_foldl (fun x_ a_ hx_ => ?_) ?_

theorem does_guardLost {M : Nat} {s₀ : State} {s : State} {n : ℕ} {h : HFrame} {c : RxCopy} (hM : Sub 0xe227682 M) (hD : Does M s₀ s) :
    Does M s₀ (State.guardLost s n h c) := by
  unfold State.guardLost
  try dsimp only
  repeat' first
    | with_reducible assumption
    | with_reducible apply does_cqRelease (sub_trans hM)
    | with_reducible apply does_markSlots (sub_trans hM)
    | with_reducible apply does_dropCopy (sub_trans hM)
    | with_reducible apply does_count (sub_trans hM)
    | split

theorem does_rxStore {M : Nat} {s₀ : State} {s : State} {n : Nat} {h : HFrame} {c : RxCopy} (hM : Sub 0xe227682 M) (hD : Does M s₀ s) :
    Does M s₀ (State.rxStore s n h c) := by
  unfold State.rxStore
  try dsimp only
  repeat' first
    | with_reducible assumption
    | with_reducible apply does_guardLost (sub_trans hM)
    | with_reducible apply does_rxFinish (sub_trans hM)
    | with_reducible apply does_cqWrite (sub_trans hM)
    | with_reducible apply does_writeSlots (sub_trans hM)
    | with_reducible apply does_rxAdvance (sub_trans hM)
    | with_reducible apply does_dropCopy (sub_trans hM)
    | with_reducible apply does_rxWritten (sub_trans hM)
    | with_reducible apply does_markSlots (sub_trans hM)
    | with_reducible apply does_rxShort (sub_trans hM)
    | split

theorem does_earlyGo {M : Nat} {s₀ : State} {s : State} {n : Nat} {h : HFrame} {c : RxCopy} (hM : Sub 0xe227682 M) (hD : Does M s₀ s) :
    Does M s₀ (State.earlyGo s n h c) := by
  unfold State.earlyGo
  try dsimp only
  repeat' first
    | with_reducible assumption
    | with_reducible apply does_guardLost (sub_trans hM)
    | with_reducible apply does_rxEndWait (sub_trans hM)
    | with_reducible apply does_rxFinish (sub_trans hM)
    | with_reducible apply does_markSlots (sub_trans hM)
    | with_reducible apply does_writeSlots (sub_trans hM)
    | with_reducible apply does_cqWrite (sub_trans hM)
    | with_reducible apply does_rxAdvance (sub_trans hM)
    | with_reducible apply does_dropCopy (sub_trans hM)
    | with_reducible apply does_rxWritten (sub_trans hM)
    | with_reducible apply does_rxShort (sub_trans hM)
    | with_reducible apply does_setCopy (sub_trans hM)
    | split

theorem does_rxEarly {M : Nat} {s₀ : State} {s : State} {n : ℕ} {h : HFrame} {c : RxCopy} (hM : Sub 0xe227682 M) (hD : Does M s₀ s) :
    Does M s₀ (State.rxEarly s n h c) := by
  unfold State.rxEarly
  try dsimp only
  repeat' first
    | with_reducible assumption
    | with_reducible apply does_rxShort (sub_trans hM)
    | with_reducible apply does_cqReserve (sub_trans hM)
    | with_reducible apply does_earlyGo (sub_trans hM)
    | split

end Sys2Proof.Laws
end

