-- ==== Sys2Proof/Laws/Sched.lean ====
section
/-! SUPPORT. What each operation and command of Machine/Sched.lean can touch, and that it keeps the invariants of the blocks. -/
set_option Elab.async false
namespace Sys2Proof.Laws
open Sys2Proof.Machine

theorem does_tidy {M : Nat} {s₀ : State} {s : State} {m c : Nat} (hM : Sub 0x1000 M) (hD : Does M s₀ s) :
    Does M s₀ (State.tidy s m c) := by
  unfold State.tidy
  try dsimp only
  repeat' first
    | with_reducible assumption
    | with_reducible apply does_setSch (sub_trans hM)

theorem does_charge {M : Nat} {s₀ : State} {s : State} {f len : Nat} (hM : Sub 0x80 M) (hD : Does M s₀ s) :
    Does M s₀ (State.charge s f len) := by
  unfold State.charge
  try dsimp only
  repeat' first
    | with_reducible assumption
    | with_reducible apply does_setFn (sub_trans hM)
    | split

theorem does_throttle {M : Nat} {s₀ : State} {s : State} {m c : Nat} {l : List Cand} (hM : Sub 0xe220082 M) (hD : Does M s₀ s) :
    Does M s₀ (State.throttle s m c l) := by
  unfold State.throttle
  try dsimp only
  repeat' first
    | with_reducible assumption
    | with_reducible apply does_count (sub_trans hM)
    | with_reducible apply does_setFn (sub_trans hM)
    | split
    | with_reducible refine does_foldl (fun x_ a_ hx_ => ?_) ?_

theorem does_setCredit {M : Nat} {s₀ : State} {s : State} {m c : Nat} {v : Int} (hM : Sub 0x1000 M) (hD : Does M s₀ s) :
    Does M s₀ (State.setCredit s m c v) := by
  unfold State.setCredit
  try dsimp only
  repeat' first
    | with_reducible assumption
    | with_reducible apply does_setSch (sub_trans hM)

theorem does_settleOne {M : Nat} {s₀ : State} {m : Nat} {s : State} {c : Nat} (hM : Sub 0x1000 M) (hD : Does M s₀ s) :
    Does M s₀ (State.settleOne m s c) := by
  unfold State.settleOne
  try dsimp only
  repeat' first
    | with_reducible assumption
    | with_reducible apply does_setCredit (sub_trans hM)
    | split

theorem does_zeroCredits {M : Nat} {s₀ : State} {s : State} {m : Nat} (hM : Sub 0x1000 M) (hD : Does M s₀ s) :
    Does M s₀ (State.zeroCredits s m) := by
  unfold State.zeroCredits
  try dsimp only
  repeat' first
    | with_reducible assumption
    | with_reducible apply does_setSch (sub_trans hM)

theorem does_settle {M : Nat} {s₀ : State} {s : State} {m : Nat} (hM : Sub 0x1000 M) (hD : Does M s₀ s) :
    Does M s₀ (State.settle s m) := by
  unfold State.settle
  try dsimp only
  repeat' first
    | with_reducible assumption
    | with_reducible apply does_settleOne (sub_trans hM)
    | with_reducible refine does_foldl (fun x_ a_ hx_ => ?_) ?_

theorem does_endLpi {M : Nat} {s₀ : State} {s : State} {m : Nat} (hM : Sub 0xe225082 M) (hD : Does M s₀ s) :
    Does M s₀ (State.endLpi s m) := by
  unfold State.endLpi
  try dsimp only
  repeat' first
    | with_reducible assumption
    | with_reducible apply does_setSch (sub_trans hM)
    | with_reducible apply does_setMac (sub_trans hM)
    | with_reducible apply does_countN (sub_trans hM)
    | split

theorem does_wdOne {M : Nat} {s₀ : State} {m : Nat} {s : State} {c : Nat} (hM : Sub 0x4000 M) (hD : Does M s₀ s) :
    Does M s₀ (State.wdOne m s c) := by
  unfold State.wdOne
  try dsimp only
  repeat' first
    | with_reducible assumption
    | with_reducible apply does_setMac (sub_trans hM)
    | split

theorem does_wdCheck {M : Nat} {s₀ : State} {s : State} {m : Nat} (hM : Sub 0x4000 M) (hD : Does M s₀ s) :
    Does M s₀ (State.wdCheck s m) := by
  unfold State.wdCheck
  try dsimp only
  repeat' first
    | with_reducible assumption
    | with_reducible apply does_wdOne (sub_trans hM)
    | with_reducible refine does_foldl (fun x_ a_ hx_ => ?_) ?_

theorem does_wdAll {M : Nat} {s₀ : State} {s : State} (hM : Sub 0x4000 M) (hD : Does M s₀ s) :
    Does M s₀ (State.wdAll s) := by
  unfold State.wdAll
  try dsimp only
  repeat' first
    | with_reducible assumption
    | with_reducible apply does_wdCheck (sub_trans hM)
    | with_reducible refine does_foldl (fun x_ a_ hx_ => ?_) ?_

end Sys2Proof.Laws
end

