-- ==== Sys2Proof/Laws/Mailbox.lean ====
section
/-! SUPPORT. What each operation and command of Machine/Mailbox.lean can touch, and that it keeps the invariants of the blocks. -/
set_option Elab.async false
namespace Sys2Proof.Laws
open Sys2Proof.Machine

theorem does_createRing {M : Nat} {s₀ : State} {s : State} {f op op0 op1 : Nat} (hM : Sub 0x4000700 M) (hD : Does M s₀ s) :
    Does M s₀ (State.createRing s f op op0 op1) := by
  unfold State.createRing
  try dsimp only
  repeat' first
    | with_reducible assumption
    | with_reducible apply does_setTxr (sub_trans hM)
    | with_reducible apply does_setRxr (sub_trans hM)
    | with_reducible apply does_setCqr (sub_trans hM)
    | with_reducible apply does_setEvr (sub_trans hM)
    | split

theorem does_mbxCreate {M : Nat} {s₀ : State} {s : State} {f op op0 op1 : Nat} (hM : Sub 0xe227f82 M) (hD : Does M s₀ s) :
    Does M s₀ (State.mbxCreate s f op op0 op1) := by
  unfold State.mbxCreate
  try dsimp only
  repeat' first
    | with_reducible assumption
    | with_reducible apply does_mbxReply (sub_trans hM)
    | with_reducible apply does_raise (sub_trans hM)
    | with_reducible apply does_createRing (sub_trans hM)
    | with_reducible apply does_violation (sub_trans hM)
    | split

theorem does_dropWaiting {M : Nat} {s₀ : State} {s : State} {n : ℕ} (hM : Sub 0xe227282 M) (hD : Does M s₀ s) :
    Does M s₀ (State.dropWaiting s n) := by
  unfold State.dropWaiting
  try dsimp only
  repeat' first
    | with_reducible assumption
    | with_reducible apply does_countN (sub_trans hM)
    | with_reducible apply does_setRxr (sub_trans hM)
    | with_reducible apply does_flowAll (sub_trans hM)
    | with_reducible apply does_onHamper (sub_trans hM)

theorem does_closeRing {M : Nat} {s₀ : State} {s : State} {kind n : Nat} (hM : Sub 0xe227782 M) (hD : Does M s₀ s) :
    Does M s₀ (State.closeRing s kind n) := by
  unfold State.closeRing
  try dsimp only
  repeat' first
    | with_reducible assumption
    | with_reducible apply does_dropWaiting (sub_trans hM)
    | with_reducible apply does_tidy (sub_trans hM)
    | with_reducible apply does_setTxr (sub_trans hM)
    | with_reducible apply does_setRxr (sub_trans hM)
    | with_reducible apply does_setCqr (sub_trans hM)
    | with_reducible apply does_setEvr (sub_trans hM)
    | split

theorem does_mbxDestroy {M : Nat} {s₀ : State} {s : State} {f op0 op1 : Nat} (hM : Sub 0xe227782 M) (hD : Does M s₀ s) :
    Does M s₀ (State.mbxDestroy s f op0 op1) := by
  unfold State.mbxDestroy
  try dsimp only
  repeat' first
    | with_reducible assumption
    | with_reducible apply does_setFn (sub_trans hM)
    | with_reducible apply does_closeRing (sub_trans hM)
    | with_reducible apply does_mbxReply (sub_trans hM)
    | split

theorem does_removeRing {M : Nat} {s₀ : State} {s : State} {kind n : Nat} (hM : Sub 0xe227782 M) (hD : Does M s₀ s) :
    Does M s₀ (State.removeRing s kind n) := by
  unfold State.removeRing
  try dsimp only
  repeat' first
    | with_reducible assumption
    | with_reducible apply does_dropWaiting (sub_trans hM)
    | with_reducible apply does_setTxr (sub_trans hM)
    | with_reducible apply does_onHamper (sub_trans hM)
    | with_reducible apply does_setRxr (sub_trans hM)
    | with_reducible apply does_countN (sub_trans hM)
    | with_reducible apply does_setCqr (sub_trans hM)
    | with_reducible apply does_setEvr (sub_trans hM)
    | split

theorem does_destroyDone {M : Nat} {s₀ : State} {s : State} {f : Nat} (hM : Sub 0xe227782 M) (hD : Does M s₀ s) :
    Does M s₀ (State.destroyDone s f) := by
  unfold State.destroyDone
  try dsimp only
  repeat' first
    | with_reducible assumption
    | with_reducible apply does_mbxReply (sub_trans hM)
    | with_reducible apply does_raise (sub_trans hM)
    | with_reducible apply does_removeRing (sub_trans hM)
    | split

theorem does_mbxLeave {M : Nat} {s₀ : State} {s : State} {f op0 op1 : Nat} (hM : Sub 0xe227f82 M) (hD : Does M s₀ s) :
    Does M s₀ (State.mbxLeave s f op0 op1) := by
  unfold State.mbxLeave
  try dsimp only
  repeat' first
    | with_reducible assumption
    | with_reducible apply does_mbxReply (sub_trans hM)
    | with_reducible apply does_beginEvict (sub_trans hM)
    | with_reducible apply does_setFn (sub_trans hM)
    | split

theorem does_mbxQuery {M : Nat} {s₀ : State} {s : State} {f op0 op1 : Nat} (hM : Sub 0xc000080 M) (hD : Does M s₀ s) :
    Does M s₀ (State.mbxQuery s f op0 op1) := by
  unfold State.mbxQuery
  try dsimp only
  repeat' first
    | with_reducible assumption
    | with_reducible apply does_mbxReply (sub_trans hM)
    | split

theorem does_mbxOpcode {M : Nat} {s₀ : State} {s : State} {f : Nat} {req : MbxReq} (hM : Sub 0xe227f82 M) (hD : Does M s₀ s) :
    Does M s₀ (State.mbxOpcode s f req) := by
  unfold State.mbxOpcode
  try dsimp only
  repeat' first
    | with_reducible assumption
    | with_reducible apply does_enrolStart (sub_trans hM)
    | with_reducible apply does_mbxLeave (sub_trans hM)
    | with_reducible apply does_mbxQuery (sub_trans hM)
    | with_reducible apply does_mbxCreate (sub_trans hM)
    | with_reducible apply does_mbxDestroy (sub_trans hM)
    | with_reducible apply does_mbxReply (sub_trans hM)
    | split

theorem does_mbxChecked {M : Nat} {s₀ : State} {s : State} {f : ℕ} {req : MbxReq} {want : ℕ} (hM : Sub 0xe227f82 M) (hD : Does M s₀ s) :
    Does M s₀ (State.mbxChecked s f req want) := by
  unfold State.mbxChecked
  try dsimp only
  repeat' first
    | with_reducible assumption
    | with_reducible apply does_checkFail (sub_trans hM)
    | with_reducible apply does_mbxOpcode (sub_trans hM)
    | with_reducible apply does_mbxReply (sub_trans hM)
    | with_reducible apply does_count (sub_trans hM)
    | split

theorem does_mbxRun {M : Nat} {s₀ : State} {s : State} {f go : Nat} {req : MbxReq} (hM : Sub 0xe227f82 M) (hD : Does M s₀ s) :
    Does M s₀ (State.mbxRun s f go req) := by
  unfold State.mbxRun
  try dsimp only
  repeat' first
    | with_reducible assumption
    | with_reducible apply does_msgWaits (sub_trans hM)
    | with_reducible apply does_mbxChecked (sub_trans hM)
    | with_reducible apply does_count (sub_trans hM)
    | with_reducible apply does_setFn (sub_trans hM)
    | with_reducible apply does_mbxReply (sub_trans hM)
    | with_reducible apply does_checkFail (sub_trans hM)
    | with_reducible apply does_mbxOpcode (sub_trans hM)
    | split

theorem does_recordPut {M : Nat} {s₀ : State} {s : State} {f : ℕ} {off : ℕ} {v : ℕ} (hM : Sub 0x80 M) (hD : Does M s₀ s) :
    Does M s₀ (State.recordPut s f off v) := by
  unfold State.recordPut
  try dsimp only
  repeat' first
    | with_reducible assumption
    | with_reducible apply does_setFn (sub_trans hM)

theorem does_wroteGo {M : Nat} {s₀ : State} {s : State} {f : ℕ} {go : ℕ} (hM : Sub 0x1 M) (hD : Does M s₀ s) :
    Does M s₀ (State.wroteGo s f go) := by
  unfold State.wroteGo
  try dsimp only
  repeat' first
    | with_reducible assumption
    | with_reducible apply does_wrote (sub_trans hM)

theorem does_mbxGo {M : Nat} {s₀ : State} {s : State} {f : Nat} {go : BitVec 8} {req : MbxReq} (hM : Sub 0xf677f83 M) (hD : Does M s₀ s) :
    Does M s₀ (State.mbxGo s f go req) := by
  unfold State.mbxGo
  try dsimp only
  repeat' first
    | with_reducible assumption
    | with_reducible apply does_recordPut (sub_trans hM)
    | with_reducible apply does_wroteGo (sub_trans hM)
    | with_reducible apply does_partnerWake (sub_trans hM)
    | with_reducible apply does_hold (sub_trans hM)
    | with_reducible apply does_endIdle (sub_trans hM)
    | with_reducible apply does_mbxRun (sub_trans hM)
    | split
    | with_reducible refine does_foldl (fun x_ a_ hx_ => ?_) ?_

theorem does_execEnrol (fn : Fin 68) (go : BitVec 8) (req : MbxReq) (s : State) :
    ∃ t, execEnrol fn go req s = .next t ∧ Does 0xf677f83 s t := by
  have hM : Sub 0xf677f83 0xf677f83 := by decide
  have hD := does_refl 0xf677f83 s
  refine ⟨_, rfl, ?_⟩
  try dsimp only
  repeat' first
    | with_reducible assumption
    | with_reducible apply does_mbxGo (sub_trans hM)

theorem does_execLeave (fn : Fin 68) (go : BitVec 8) (req : MbxReq) (s : State) :
    ∃ t, execLeave fn go req s = .next t ∧ Does 0xf677f83 s t := by
  have hM : Sub 0xf677f83 0xf677f83 := by decide
  have hD := does_refl 0xf677f83 s
  refine ⟨_, rfl, ?_⟩
  try dsimp only
  repeat' first
    | with_reducible assumption
    | with_reducible apply does_mbxGo (sub_trans hM)

theorem does_execQuery (fn : Fin 68) (go : BitVec 8) (req : MbxReq) (s : State) :
    ∃ t, execQuery fn go req s = .next t ∧ Does 0xf677f83 s t := by
  have hM : Sub 0xf677f83 0xf677f83 := by decide
  have hD := does_refl 0xf677f83 s
  refine ⟨_, rfl, ?_⟩
  try dsimp only
  repeat' first
    | with_reducible assumption
    | with_reducible apply does_mbxGo (sub_trans hM)

theorem does_execTxrCreate (fn : Fin 68) (go : BitVec 8) (req : MbxReq) (s : State) :
    ∃ t, execTxrCreate fn go req s = .next t ∧ Does 0xf677f83 s t := by
  have hM : Sub 0xf677f83 0xf677f83 := by decide
  have hD := does_refl 0xf677f83 s
  refine ⟨_, rfl, ?_⟩
  try dsimp only
  repeat' first
    | with_reducible assumption
    | with_reducible apply does_mbxGo (sub_trans hM)

theorem does_execRxrCreate (fn : Fin 68) (go : BitVec 8) (req : MbxReq) (s : State) :
    ∃ t, execRxrCreate fn go req s = .next t ∧ Does 0xf677f83 s t := by
  have hM : Sub 0xf677f83 0xf677f83 := by decide
  have hD := does_refl 0xf677f83 s
  refine ⟨_, rfl, ?_⟩
  try dsimp only
  repeat' first
    | with_reducible assumption
    | with_reducible apply does_mbxGo (sub_trans hM)

theorem does_execCqCreate (fn : Fin 68) (go : BitVec 8) (req : MbxReq) (s : State) :
    ∃ t, execCqCreate fn go req s = .next t ∧ Does 0xf677f83 s t := by
  have hM : Sub 0xf677f83 0xf677f83 := by decide
  have hD := does_refl 0xf677f83 s
  refine ⟨_, rfl, ?_⟩
  try dsimp only
  repeat' first
    | with_reducible assumption
    | with_reducible apply does_mbxGo (sub_trans hM)

theorem does_execEvrCreate (fn : Fin 68) (go : BitVec 8) (req : MbxReq) (s : State) :
    ∃ t, execEvrCreate fn go req s = .next t ∧ Does 0xf677f83 s t := by
  have hM : Sub 0xf677f83 0xf677f83 := by decide
  have hD := does_refl 0xf677f83 s
  refine ⟨_, rfl, ?_⟩
  try dsimp only
  repeat' first
    | with_reducible assumption
    | with_reducible apply does_mbxGo (sub_trans hM)

theorem does_execRingDestroy (fn : Fin 68) (go : BitVec 8) (req : MbxReq) (s : State) :
    ∃ t, execRingDestroy fn go req s = .next t ∧ Does 0xf677f83 s t := by
  have hM : Sub 0xf677f83 0xf677f83 := by decide
  have hD := does_refl 0xf677f83 s
  refine ⟨_, rfl, ?_⟩
  try dsimp only
  repeat' first
    | with_reducible assumption
    | with_reducible apply does_mbxGo (sub_trans hM)

theorem does_execRingDestroyDone (fn : Fin 68) (s : State) :
    ∃ t, execRingDestroyDone fn s = .next t ∧ Does 0xe227782 s t := by
  have hM : Sub 0xe227782 0xe227782 := by decide
  have hD := does_refl 0xe227782 s
  refine ⟨_, rfl, ?_⟩
  try dsimp only
  repeat' first
    | with_reducible assumption
    | with_reducible apply does_destroyDone (sub_trans hM)
    | split

theorem does_execEnrolReadDone (fn : Fin 68) (good : Bool) (data : Bytes) (s : State) :
    ∃ t, execEnrolReadDone fn good data s = .next t ∧ Does 0xe220882 s t := by
  have hM : Sub 0xe220882 0xe220882 := by decide
  have hD := does_refl 0xe220882 s
  refine ⟨_, rfl, ?_⟩
  try dsimp only
  repeat' first
    | with_reducible assumption
    | with_reducible apply does_enrolRecord (sub_trans hM)
    | split

theorem does_fnEvict {M : Nat} {s₀ : State} {s : State} {f : ℕ} (hM : Sub 0xe227f82 M) (hD : Does M s₀ s) :
    Does M s₀ (State.fnEvict s f) := by
  unfold State.fnEvict
  try dsimp only
  repeat' first
    | with_reducible assumption
    | with_reducible apply does_beginEvict (sub_trans hM)
    | split

theorem does_fnRelease {M : Nat} {s₀ : State} {s : State} {f : ℕ} (hM : Sub 0xe220082 M) (hD : Does M s₀ s) :
    Does M s₀ (State.fnRelease s f) := by
  unfold State.fnRelease
  try dsimp only
  repeat' first
    | with_reducible assumption
    | with_reducible apply does_raise (sub_trans hM)
    | with_reducible apply does_setFn (sub_trans hM)
    | split

theorem does_fnCmd {M : Nat} {s₀ : State} {s : State} {f : ℕ} {cmd : ℕ} (hM : Sub 0xe227f82 M) (hD : Does M s₀ s) :
    Does M s₀ (State.fnCmd s f cmd) := by
  unfold State.fnCmd
  try dsimp only
  repeat' first
    | with_reducible assumption
    | with_reducible apply does_fnEvict (sub_trans hM)
    | with_reducible apply does_fnRelease (sub_trans hM)
    | split

theorem does_fnCmdGo {M : Nat} {s₀ : State} {s : State} {f : ℕ} {cmd : ℕ} (hM : Sub 0xf677f83 M) (hD : Does M s₀ s) :
    Does M s₀ (State.fnCmdGo s f cmd) := by
  unfold State.fnCmdGo
  try dsimp only
  repeat' first
    | with_reducible assumption
    | with_reducible apply does_endIdle (sub_trans hM)
    | with_reducible apply does_wrote (sub_trans hM)
    | with_reducible apply does_takeIn (sub_trans hM)
    | with_reducible apply does_fnCmd (sub_trans hM)
    | with_reducible apply does_partnerWake (sub_trans hM)
    | split

theorem does_execFnCmdEvict (fn : Fin 68) (s : State) :
    ∃ t, execFnCmdEvict fn s = .next t ∧ Does 0xf677f83 s t := by
  have hM : Sub 0xf677f83 0xf677f83 := by decide
  have hD := does_refl 0xf677f83 s
  refine ⟨_, rfl, ?_⟩
  try dsimp only
  repeat' first
    | with_reducible assumption
    | with_reducible apply does_fnCmdGo (sub_trans hM)

theorem does_execFnCmdRelease (fn : Fin 68) (s : State) :
    ∃ t, execFnCmdRelease fn s = .next t ∧ Does 0xf677f83 s t := by
  have hM : Sub 0xf677f83 0xf677f83 := by decide
  have hD := does_refl 0xf677f83 s
  refine ⟨_, rfl, ?_⟩
  try dsimp only
  repeat' first
    | with_reducible assumption
    | with_reducible apply does_fnCmdGo (sub_trans hM)

theorem does_execEvictionComplete (fn : Fin 68) (s : State) :
    ∃ t, execEvictionComplete fn s = .next t ∧ Does 0xe227f82 s t := by
  have hM : Sub 0xe227f82 0xe227f82 := by decide
  have hD := does_refl 0xe227f82 s
  refine ⟨_, rfl, ?_⟩
  try dsimp only
  repeat' first
    | with_reducible assumption
    | with_reducible apply does_flowAll (sub_trans hM)
    | with_reducible apply does_finishEvict (sub_trans hM)
    | split

end Sys2Proof.Laws
end

