-- ==== Sys2Proof/Laws/HostLinks.lean ====
section
/-! SUPPORT. What each operation and command of Machine/HostLinks.lean can touch, and that it keeps the invariants of the blocks. -/
set_option Elab.async false
namespace Sys2Proof.Laws
open Sys2Proof.Machine

theorem does_msixFlush {M : Nat} {s₀ : State} {s : State} {f n : Nat} (hM : Sub 0xc000080 M) (hD : Does M s₀ s) :
    Does M s₀ (State.msixFlush s f n) := by
  induction n generalizing s with
  | zero => exact hD
  | succ k ih =>
    unfold State.msixFlush
    try dsimp only
    repeat' first
      | with_reducible assumption
      | with_reducible apply does_msix (sub_trans hM)
      | with_reducible apply ih
      | with_reducible apply does_emit (sub_trans hM)
      | with_reducible apply does_setFn (sub_trans hM)
      | split

theorem does_arrive {M : Nat} {s₀ : State} {s : State} {l : List Nat} (hM : Sub 0xe220082 M) (hD : Does M s₀ s) :
    Does M s₀ (State.arrive s l) := by
  induction l generalizing s with
  | nil => exact hD
  | cons a r ih =>
    unfold State.arrive
    try dsimp only
    repeat' first
      | with_reducible assumption
      | with_reducible apply ih
      | with_reducible apply does_becomePresent (sub_trans hM)
      | split

theorem does_linkUp {M : Nat} {s₀ : State} {s : State} {l speed width : Nat} (hM : Sub 0xe220092 M) (hD : Does M s₀ s) :
    Does M s₀ (State.linkUp s l speed width) := by
  unfold State.linkUp
  try dsimp only
  repeat' first
    | with_reducible assumption
    | with_reducible apply does_raise (sub_trans hM)
    | with_reducible apply does_setLink (sub_trans hM)
    | with_reducible apply does_arrive (sub_trans hM)
    | split

theorem does_execHlLinkUp (link : Fin 8) (speed width : Nat) (s : State) :
    ∃ t, execHlLinkUp link speed width s = .next t ∧ Does 0xe220092 s t := by
  have hM : Sub 0xe220092 0xe220092 := by decide
  have hD := does_refl 0xe220092 s
  refine ⟨_, rfl, ?_⟩
  try dsimp only
  repeat' first
    | with_reducible assumption
    | with_reducible apply does_linkUp (sub_trans hM)

theorem does_execHlLinkDown (link : Fin 8) (s : State) :
    ∃ t, execHlLinkDown link s = .next t ∧ Does 0xe227fb2 s t := by
  have hM : Sub 0xe227fb2 0xe227fb2 := by decide
  have hD := does_refl 0xe227fb2 s
  refine ⟨_, rfl, ?_⟩
  try dsimp only
  repeat' first
    | with_reducible assumption
    | with_reducible apply does_linkLost (sub_trans hM)

theorem does_execPerstAssert (link : Fin 8) (s : State) :
    ∃ t, execPerstAssert link s = .next t ∧ Does 0xe627fb2 s t := by
  have hM : Sub 0xe627fb2 0xe627fb2 := by decide
  have hD := does_refl 0xe627fb2 s
  refine ⟨_, rfl, ?_⟩
  try dsimp only
  repeat' first
    | with_reducible assumption
    | with_reducible apply does_linkLost (sub_trans hM)
    | with_reducible apply does_endIdle (sub_trans hM)

theorem does_execPtmRequest (link : Fin 8) (s : State) :
    ∃ t, execPtmRequest link s = .next t ∧ Does 0x8000000 s t := by
  have hM : Sub 0x8000000 0x8000000 := by decide
  have hD := does_refl 0x8000000 s
  refine ⟨_, rfl, ?_⟩
  try dsimp only
  repeat' first
    | with_reducible assumption
    | with_reducible apply does_emit (sub_trans hM)
    | split

theorem does_execUnexpectedCompletion (link : Fin 8) (s : State) :
    ∃ t, execUnexpectedCompletion link s = .next t ∧ Does 0xe2200c2 s t := by
  have hM : Sub 0xe2200c2 0xe2200c2 := by decide
  have hD := does_refl 0xe2200c2 s
  refine ⟨_, rfl, ?_⟩
  try dsimp only
  repeat' first
    | with_reducible assumption
    | with_reducible apply does_aer (sub_trans hM)

theorem does_execUnsupportedRequest (link : Fin 8) (s : State) :
    ∃ t, execUnsupportedRequest link s = .next t ∧ Does 0x8000000 s t := by
  have hM : Sub 0x8000000 0x8000000 := by decide
  have hD := does_refl 0x8000000 s
  refine ⟨_, rfl, ?_⟩
  try dsimp only
  repeat' first
    | with_reducible assumption
    | with_reducible apply does_emit (sub_trans hM)

theorem does_execCompletionTimeout (tag : Nat) (s : State) :
    ∃ t, execCompletionTimeout tag s = .next t ∧ Does 0xe227fc2 s t := by
  have hM : Sub 0xe227fc2 0xe227fc2 := by decide
  have hD := does_refl 0xe227fc2 s
  refine ⟨_, rfl, ?_⟩
  try dsimp only
  repeat' first
    | with_reducible assumption
    | with_reducible apply does_dropTag (sub_trans hM)
    | with_reducible apply does_onHost (sub_trans hM)
    | with_reducible apply does_readError (sub_trans hM)
    | with_reducible apply does_aer (sub_trans hM)
    | split

theorem does_execAerError (link : Fin 8) (kind : AerKind) (s : State) :
    ∃ t, execAerError link kind s = .next t ∧ Does 0xe227ff2 s t := by
  have hM : Sub 0xe227ff2 0xe227ff2 := by decide
  have hD := does_refl 0xe227ff2 s
  refine ⟨_, rfl, ?_⟩
  try dsimp only
  repeat' first
    | with_reducible assumption
    | with_reducible apply does_aer (sub_trans hM)
    | with_reducible apply does_dropTag (sub_trans hM)
    | with_reducible apply does_readError (sub_trans hM)
    | with_reducible apply does_linkLost (sub_trans hM)
    | split

theorem does_flrOne {M : Nat} {s₀ : State} {s : State} {f : ℕ} (hM : Sub 0xe227f82 M) (hD : Does M s₀ s) :
    Does M s₀ (State.flrOne s f) := by
  unfold State.flrOne
  try dsimp only
  repeat' first
    | with_reducible assumption
    | with_reducible apply does_endPresence (sub_trans hM)
    | with_reducible apply does_setFn (sub_trans hM)

theorem does_execFlr (fn : Fin 72) (s : State) :
    ∃ t, execFlr fn s = .next t ∧ Does 0xe627f82 s t := by
  have hM : Sub 0xe627f82 0xe627f82 := by decide
  have hD := does_refl 0xe627f82 s
  refine ⟨_, rfl, ?_⟩
  try dsimp only
  repeat' first
    | with_reducible assumption
    | with_reducible apply does_endIdle (sub_trans hM)
    | with_reducible apply does_flrOne (sub_trans hM)
    | with_reducible apply does_setFn (sub_trans hM)
    | split
    | with_reducible refine does_foldl (fun x_ a_ hx_ => ?_) ?_

theorem does_vfsGone {M : Nat} {s₀ was : State} {l : List Nat} {s : State} (hM : Sub 0xe227f82 M) (hD : Does M s₀ s) :
    Does M s₀ (State.vfsGone was s l) := by
  induction l generalizing s with
  | nil => exact hD
  | cons f r ih => exact ih (does_ite (does_endPresence (sub_trans hM) hD) hD)

theorem does_setVfs {M : Nat} {s₀ : State} {s : State} {p : ℕ} {en : Bool} {n : ℕ} (hM : Sub 0xe227f82 M) (hD : Does M s₀ s) :
    Does M s₀ (State.setVfs s p en n) := by
  unfold State.setVfs
  try dsimp only
  repeat' first
    | with_reducible assumption
    | with_reducible apply does_vfsGone (sub_trans hM)
    | with_reducible apply does_setFn (sub_trans hM)

theorem does_toD3 {M : Nat} {s₀ : State} {s : State} {f : Nat} (hM : Sub 0xe227f82 M) (hD : Does M s₀ s) :
    Does M s₀ (State.toD3 s f) := by
  unfold State.toD3
  try dsimp only
  repeat' first
    | with_reducible assumption
    | with_reducible apply does_endPresence (sub_trans hM)
    | with_reducible apply does_setFn (sub_trans hM)
    | split

theorem does_toD0 {M : Nat} {s₀ : State} {s : State} {f : ℕ} (hM : Sub 0xe227f82 M) (hD : Does M s₀ s) :
    Does M s₀ (State.toD0 s f) := by
  unfold State.toD0
  try dsimp only
  repeat' first
    | with_reducible assumption
    | with_reducible apply does_setVfs (sub_trans hM)
    | with_reducible apply does_setFn (sub_trans hM)
    | split

theorem does_bmeOff {M : Nat} {s₀ : State} {s : State} {f : Nat} (hM : Sub 0xe227f82 M) (hD : Does M s₀ s) :
    Does M s₀ (State.bmeOff s f) := by
  unfold State.bmeOff
  try dsimp only
  repeat' first
    | with_reducible assumption
    | with_reducible apply does_endPresence (sub_trans hM)
    | with_reducible apply does_setFn (sub_trans hM)
    | split

theorem does_execVfDisable (pf : Fin 8) (numVfs : Option (Fin 17)) (s : State) :
    ∃ t, execVfDisable pf numVfs s = .next t ∧ Does 0xe627f82 s t := by
  have hM : Sub 0xe627f82 0xe627f82 := by decide
  have hD := does_refl 0xe627f82 s
  refine ⟨_, rfl, ?_⟩
  try dsimp only
  repeat' first
    | with_reducible assumption
    | with_reducible apply does_setVfs (sub_trans hM)
    | with_reducible apply does_endIdle (sub_trans hM)
    | split

theorem does_execD3hotEntry (fn : Fin 72) (s : State) :
    ∃ t, execD3hotEntry fn s = .next t ∧ Does 0xe627f82 s t := by
  have hM : Sub 0xe627f82 0xe627f82 := by decide
  have hD := does_refl 0xe627f82 s
  refine ⟨_, rfl, ?_⟩
  try dsimp only
  repeat' first
    | with_reducible assumption
    | with_reducible apply does_setFn (sub_trans hM)
    | with_reducible apply does_toD3 (sub_trans hM)
    | with_reducible apply does_endIdle (sub_trans hM)
    | split

theorem does_execBusMasterClear (fn : Fin 72) (s : State) :
    ∃ t, execBusMasterClear fn s = .next t ∧ Does 0xe627f82 s t := by
  have hM : Sub 0xe627f82 0xe627f82 := by decide
  have hD := does_refl 0xe627f82 s
  refine ⟨_, rfl, ?_⟩
  try dsimp only
  repeat' first
    | with_reducible assumption
    | with_reducible apply does_setFn (sub_trans hM)
    | with_reducible apply does_endIdle (sub_trans hM)
    | with_reducible apply does_bmeOff (sub_trans hM)
    | split

theorem does_arriveNew {M : Nat} {s₀ was : State} {l : List Nat} {s : State} (hM : Sub 0xe220082 M) (hD : Does M s₀ s) :
    Does M s₀ (State.arriveNew was s l) := by
  induction l generalizing s with
  | nil => exact hD
  | cons f r ih => exact ih (does_ite (does_becomePresent (sub_trans hM) hD) hD)

theorem does_configWrite {M : Nat} {s₀ : State} {s : State} {f : Nat} {b : CfgBits} (hM : Sub 0xe227f82 M) (hD : Does M s₀ s) :
    Does M s₀ (State.configWrite s f b) := by
  unfold State.configWrite
  try dsimp only
  repeat' first
    | with_reducible assumption
    | with_reducible apply does_toD0 (sub_trans hM)
    | with_reducible apply does_setVfs (sub_trans hM)
    | with_reducible apply does_arriveNew (sub_trans hM)
    | with_reducible apply does_toD3 (sub_trans hM)
    | with_reducible apply does_bmeOff (sub_trans hM)
    | with_reducible apply does_msixFlush (sub_trans hM)
    | with_reducible apply does_setFn (sub_trans hM)
    | with_reducible apply does_becomePresent (sub_trans hM)
    | split

theorem does_execConfigWrite (fn : Fin 72) (bits : CfgBits) (s : State) :
    ∃ t, execConfigWrite fn bits s = .next t ∧ Does 0xe627f82 s t := by
  have hM : Sub 0xe627f82 0xe627f82 := by decide
  have hD := does_refl 0xe627f82 s
  refine ⟨_, rfl, ?_⟩
  try dsimp only
  repeat' first
    | with_reducible assumption
    | with_reducible apply does_endIdle (sub_trans hM)
    | with_reducible apply does_configWrite (sub_trans hM)

theorem does_execMsixVectorUnmask (fn : Fin 68) (dword : Fin 256) (value : Word) (s : State) :
    ∃ t, execMsixVectorUnmask fn dword value s = .next t ∧ Does 0xd610080 s t := by
  have hM : Sub 0xd610080 0xd610080 := by decide
  have hD := does_refl 0xd610080 s
  refine ⟨_, rfl, ?_⟩
  try dsimp only
  repeat' first
    | with_reducible assumption
    | with_reducible apply does_arrives (sub_trans hM)
    | with_reducible apply does_msixFlush (sub_trans hM)
    | with_reducible apply does_setFn (sub_trans hM)
    | split

end Sys2Proof.Laws
end

