-- ==== Sys2Proof/Laws/Doorbells.lean ====
section
/-! SUPPORT. What each operation and command of Machine/Doorbells.lean can touch, and that it keeps the invariants of the blocks. -/
set_option Elab.async false
namespace Sys2Proof.Laws
open Sys2Proof.Machine

theorem does_dbCount {M : Nat} {s₀ : State} {s : State} {k : DbKind} {ring : Nat} {accepted : Bool} (hM : Sub 0xe220082 M) (hD : Does M s₀ s) :
    Does M s₀ (State.dbCount s k ring accepted) := by
  unfold State.dbCount
  try dsimp only
  repeat' first
    | with_reducible assumption
    | with_reducible apply does_count (sub_trans hM)
    | split

theorem does_dbAct {M : Nat} {s₀ : State} {s : State} {k : DbKind} {d : Db} {pos : Nat} (hM : Sub 0xe227f82 M) (hD : Does M s₀ s) :
    Does M s₀ (State.dbAct s k d pos) := by
  unfold State.dbAct
  try dsimp only
  repeat' first
    | with_reducible assumption
    | with_reducible apply does_rxRefill (sub_trans hM)
    | with_reducible apply does_tidy (sub_trans hM)
    | with_reducible apply does_recall (sub_trans hM)
    | with_reducible apply does_setTxr (sub_trans hM)
    | with_reducible apply does_setRxr (sub_trans hM)
    | with_reducible apply does_cqMaybe (sub_trans hM)
    | with_reducible apply does_setCqr (sub_trans hM)
    | with_reducible apply does_wdAll (sub_trans hM)
    | with_reducible apply does_rxHolesAll (sub_trans hM)
    | with_reducible apply does_txCompleteAll (sub_trans hM)
    | with_reducible apply does_setEvr (sub_trans hM)
    | with_reducible apply does_evrLost (sub_trans hM)
    | with_reducible apply does_evrSignal (sub_trans hM)
    | with_reducible refine does_runEffs _ _ (sub_trans hM) ?_
    | split

theorem does_dbRun {M : Nat} {s₀ : State} {s : State} {f : Nat} {k : DbKind} {whole : Bool} {v : Nat} (hM : Sub 0xe227f82 M) (hD : Does M s₀ s) :
    Does M s₀ (State.dbRun s f k whole v) := by
  unfold State.dbRun
  try dsimp only
  repeat' first
    | with_reducible assumption
    | with_reducible apply does_count (sub_trans hM)
    | with_reducible apply does_raiseOnce (sub_trans hM)
    | with_reducible apply does_dbCount (sub_trans hM)
    | with_reducible apply does_dbAct (sub_trans hM)
    | split

theorem does_doorbell {M : Nat} {s₀ : State} {s : State} {f : Nat} {k : DbKind} {whole : Bool} {v : Nat} (hM : Sub 0xf677f82 M) (hD : Does M s₀ s) :
    Does M s₀ (State.doorbell s f k whole v) := by
  unfold State.doorbell
  try dsimp only
  repeat' first
    | with_reducible assumption
    | with_reducible apply does_recordUse (sub_trans hM)
    | with_reducible apply does_partnerWake (sub_trans hM)
    | with_reducible apply does_hold (sub_trans hM)
    | with_reducible apply does_endIdle (sub_trans hM)
    | with_reducible apply does_dbRun (sub_trans hM)
    | split

theorem does_execDoorbellTx (fn : Fin 68) (whole : Bool) (value : BitVec 64) (s : State) :
    ∃ t, execDoorbellTx fn whole value s = .next t ∧ Does 0xf677f82 s t := by
  have hM : Sub 0xf677f82 0xf677f82 := by decide
  have hD := does_refl 0xf677f82 s
  refine ⟨_, rfl, ?_⟩
  try dsimp only
  repeat' first
    | with_reducible assumption
    | with_reducible apply does_doorbell (sub_trans hM)

theorem does_execDoorbellRx (fn : Fin 68) (whole : Bool) (value : BitVec 64) (s : State) :
    ∃ t, execDoorbellRx fn whole value s = .next t ∧ Does 0xf677f82 s t := by
  have hM : Sub 0xf677f82 0xf677f82 := by decide
  have hD := does_refl 0xf677f82 s
  refine ⟨_, rfl, ?_⟩
  try dsimp only
  repeat' first
    | with_reducible assumption
    | with_reducible apply does_doorbell (sub_trans hM)

theorem does_execDoorbellCq (fn : Fin 68) (whole : Bool) (value : BitVec 64) (s : State) :
    ∃ t, execDoorbellCq fn whole value s = .next t ∧ Does 0xf677f82 s t := by
  have hM : Sub 0xf677f82 0xf677f82 := by decide
  have hD := does_refl 0xf677f82 s
  refine ⟨_, rfl, ?_⟩
  try dsimp only
  repeat' first
    | with_reducible assumption
    | with_reducible apply does_doorbell (sub_trans hM)

theorem does_execDoorbellEvr (fn : Fin 68) (whole : Bool) (value : BitVec 64) (s : State) :
    ∃ t, execDoorbellEvr fn whole value s = .next t ∧ Does 0xf677f82 s t := by
  have hM : Sub 0xf677f82 0xf677f82 := by decide
  have hD := does_refl 0xf677f82 s
  refine ⟨_, rfl, ?_⟩
  try dsimp only
  repeat' first
    | with_reducible assumption
    | with_reducible apply does_doorbell (sub_trans hM)

theorem does_execDoorbellRecall (fn : Fin 68) (whole : Bool) (value : BitVec 64) (s : State) :
    ∃ t, execDoorbellRecall fn whole value s = .next t ∧ Does 0xf677f82 s t := by
  have hM : Sub 0xf677f82 0xf677f82 := by decide
  have hD := does_refl 0xf677f82 s
  refine ⟨_, rfl, ?_⟩
  try dsimp only
  repeat' first
    | with_reducible assumption
    | with_reducible apply does_doorbell (sub_trans hM)

theorem does_execDoorbellArm (fn : Fin 68) (evr whole : Bool) (value : BitVec 64) (s : State) :
    ∃ t, execDoorbellArm fn evr whole value s = .next t ∧ Does 0xf677f82 s t := by
  have hM : Sub 0xf677f82 0xf677f82 := by decide
  have hD := does_refl 0xf677f82 s
  refine ⟨_, rfl, ?_⟩
  try dsimp only
  repeat' first
    | with_reducible assumption
    | with_reducible apply does_doorbell (sub_trans hM)

theorem does_execCqModTime (queue : Fin 256) (s : State) :
    ∃ t, execCqModTime queue s = .next t ∧ Does 0xc000480 s t := by
  have hM : Sub 0xc000480 0xc000480 := by decide
  have hD := does_refl 0xc000480 s
  refine ⟨_, rfl, ?_⟩
  try dsimp only
  repeat' first
    | with_reducible assumption
    | with_reducible apply does_cqMaybe (sub_trans hM)
    | with_reducible apply does_cqSignal (sub_trans hM)
    | split

theorem does_execDescriptorFetch (rx : Bool) (ring : Fin 640) (s : State) :
    ∃ t, execDescriptorFetch rx ring s = .next t ∧ Does 0x8000b00 s t := by
  have hM : Sub 0x8000b00 0x8000b00 := by decide
  have hD := does_refl 0x8000b00 s
  refine ⟨_, rfl, ?_⟩
  try dsimp only
  repeat' first
    | with_reducible assumption
    | with_reducible apply does_issueRead (sub_trans hM)
    | with_reducible apply does_setRxr (sub_trans hM)
    | with_reducible apply does_setTxr (sub_trans hM)
    | split

theorem does_execCvuAssign (s : State) :
    ∃ t, execCvuAssign s = .next t ∧ Does 0x800 s t := by
  have hM : Sub 0x800 0x800 := by decide
  have hD := does_refl 0x800 s
  refine ⟨_, rfl, ?_⟩
  try dsimp only
  repeat' first
    | with_reducible assumption
    | with_reducible apply does_onHost (sub_trans hM)
    | split

theorem does_txChecked {M : Nat} {s₀ : State} {s : State} {fn : ℕ} {ring : ℕ} {pos : ℕ} {data : Bytes} {want : ℕ} (hM : Sub 0xe227f82 M) (hD : Does M s₀ s) :
    Does M s₀ (State.txChecked s fn ring pos data want) := by
  unfold State.txChecked
  try dsimp only
  repeat' first
    | with_reducible assumption
    | with_reducible apply does_assemble (sub_trans hM)
    | with_reducible apply does_checkFail (sub_trans hM)
    | with_reducible apply does_count (sub_trans hM)
    | with_reducible apply does_setTxr (sub_trans hM)
    | split

theorem does_rxChecked {M : Nat} {s₀ : State} {s : State} {fn : ℕ} {ring : ℕ} {pos : ℕ} {data : Bytes} {want : ℕ} (hM : Sub 0xe227f82 M) (hD : Does M s₀ s) :
    Does M s₀ (State.rxChecked s fn ring pos data want) := by
  unfold State.rxChecked
  try dsimp only
  repeat' first
    | with_reducible assumption
    | with_reducible apply does_rxAdvance (sub_trans hM)
    | with_reducible apply does_badFormat (sub_trans hM)
    | with_reducible apply does_checkFail (sub_trans hM)
    | with_reducible apply does_setRxr (sub_trans hM)
    | with_reducible apply does_violation (sub_trans hM)
    | with_reducible apply does_rxSupplied (sub_trans hM)
    | with_reducible apply does_count (sub_trans hM)
    | split

theorem does_msgChecked {M : Nat} {s₀ : State} {s : State} {u : Cvu} (hM : Sub 0xe227f82 M) (hD : Does M s₀ s) :
    Does M s₀ (State.msgChecked s u) := by
  unfold State.msgChecked
  try dsimp only
  repeat' first
    | with_reducible assumption
    | with_reducible apply does_enrolChecked (sub_trans hM)
    | with_reducible apply does_rxChecked (sub_trans hM)
    | with_reducible apply does_mbxChecked (sub_trans hM)
    | with_reducible apply does_setFn (sub_trans hM)
    | with_reducible apply does_txChecked (sub_trans hM)
    | split

theorem does_execCheckDone (unit : Fin 16) (s : State) :
    ∃ t, execCheckDone unit s = .next t ∧ Does 0xe227f82 s t := by
  have hM : Sub 0xe227f82 0xe227f82 := by decide
  have hD := does_refl 0xe227f82 s
  refine ⟨_, rfl, ?_⟩
  try dsimp only
  repeat' first
    | with_reducible assumption
    | with_reducible apply does_msgChecked (sub_trans hM)
    | with_reducible apply does_onHost (sub_trans hM)
    | with_reducible apply does_rxChecked (sub_trans hM)
    | with_reducible apply does_txChecked (sub_trans hM)
    | split

end Sys2Proof.Laws
end

