-- ==== Sys2Proof/Laws/Transmit.lean ====
section
/-! SUPPORT. What each operation and command of Machine/Transmit.lean can touch, and that it keeps the invariants of the blocks. -/
set_option Elab.async false
namespace Sys2Proof.Laws
open Sys2Proof.Machine

theorem does_setSend {M : Nat} {s₀ : State} {s : State} {n first : Nat} {f : Send → Send} (hM : Sub 0x100 M) (hD : Does M s₀ s) :
    Does M s₀ (State.setSend s n first f) := by
  unfold State.setSend
  try dsimp only
  repeat' first
    | with_reducible assumption
    | with_reducible apply does_setTxr (sub_trans hM)

theorem does_readBuffer {M : Nat} {s₀ : State} {s : State} {fn ring first mrrs i addr len k off : Nat} (hM : Sub 0x8000800 M) (hD : Does M s₀ s) :
    Does M s₀ (State.readBuffer s fn ring first mrrs i addr len k off) := by
  induction k generalizing s off with
  | zero => exact hD
  | succ k ih =>
    unfold State.readBuffer
    split
    · exact hD
    · exact ih (does_issueRead (sub_trans hM) hD)

theorem does_readBuffers {M : Nat} {s₀ : State} {s : State} {fn ring first i : Nat} {l : List TxDesc} (hM : Sub 0x8000800 M) (hD : Does M s₀ s) :
    Does M s₀ (State.readBuffers s fn ring first i l) := by
  induction l generalizing s i with
  | nil => exact hD
  | cons a r ih =>
    unfold State.readBuffers
    try dsimp only
    repeat' first
      | with_reducible assumption
      | with_reducible apply does_readBuffer (sub_trans hM)
      | with_reducible apply ih

theorem does_execTxBufferRead (ring : Fin 640) (s : State) :
    ∃ t, execTxBufferRead ring s = .next t ∧ Does 0x8002900 s t := by
  have hM : Sub 0x8002900 0x8002900 := by decide
  have hD := does_refl 0x8002900 s
  refine ⟨_, rfl, ?_⟩
  try dsimp only
  repeat' first
    | with_reducible assumption
    | with_reducible apply does_poolMark (sub_trans hM)
    | with_reducible apply does_readBuffers (sub_trans hM)
    | with_reducible apply does_setSend (sub_trans hM)
    | split

theorem does_rejectSend {M : Nat} {s₀ : State} {s : State} {n : Nat} {r : TxRing} {x : Send} {row : Nat} (hM : Sub 0xe220082 M) (hD : Does M s₀ s) :
    Does M s₀ (State.rejectSend s n r x row) := by
  unfold State.rejectSend
  try dsimp only
  repeat' first
    | with_reducible assumption
    | with_reducible apply does_raiseOnce (sub_trans hM)
    | with_reducible apply does_count (sub_trans hM)
    | split

theorem does_sendHeld {M : Nat} {s₀ : State} {s : State} {n first : Nat} (hM : Sub 0xe225582 M) (hD : Does M s₀ s) :
    Does M s₀ (State.sendHeld s n first) := by
  unfold State.sendHeld
  try dsimp only
  repeat' first
    | with_reducible assumption
    | with_reducible apply does_setSend (sub_trans hM)
    | with_reducible apply does_wdCheck (sub_trans hM)
    | with_reducible apply does_wakeLink (sub_trans hM)
    | with_reducible apply does_txComplete (sub_trans hM)
    | with_reducible apply does_rejectSend (sub_trans hM)
    | split

theorem does_bufferIn {M : Nat} {s₀ : State} {s : State} {n : ℕ} {first : ℕ} {i : ℕ} {len : ℕ} {data : Bytes} (hM : Sub 0xe225582 M) (hD : Does M s₀ s) :
    Does M s₀ (State.bufferIn s n first i len data) := by
  unfold State.bufferIn
  try dsimp only
  repeat' first
    | with_reducible assumption
    | with_reducible apply does_sendHeld (sub_trans hM)
    | with_reducible apply does_setSend (sub_trans hM)
    | with_reducible apply does_uses (sub_trans hM)
    | with_reducible apply does_dmaUse (sub_trans hM)
    | with_reducible apply does_settle (sub_trans hM)
    | split

theorem does_messagesIn {M : Nat} {s₀ : State} {s : State} {fn : Nat} {rx : Bool} {ring size pos : Nat} {data : Bytes} {n : Nat} (hM : Sub 0x20800 M) (hD : Does M s₀ s) :
    Does M s₀ (State.messagesIn s fn rx ring size pos data n) := by
  induction n generalizing s with
  | zero => exact hD
  | succ k ih =>
    unfold State.messagesIn
    try dsimp only
    repeat' first
      | with_reducible assumption
      | with_reducible apply does_recordUse (sub_trans hM)
      | with_reducible apply does_msgWaits (sub_trans hM)
      | with_reducible apply ih

theorem does_execReadCompletion (tag : Nat) (good : Bool) (data : Bytes) (s : State) :
    ∃ t, execReadCompletion tag good data s = .next t ∧ Does 0xe227fc2 s t := by
  have hM : Sub 0xe227fc2 0xe227fc2 := by decide
  have hD := does_refl 0xe227fc2 s
  refine ⟨_, rfl, ?_⟩
  try dsimp only
  repeat' first
    | with_reducible assumption
    | with_reducible apply does_dropTag (sub_trans hM)
    | with_reducible apply does_aer (sub_trans hM)
    | with_reducible apply does_enrolRecord (sub_trans hM)
    | with_reducible apply does_readError (sub_trans hM)
    | with_reducible apply does_messagesIn (sub_trans hM)
    | with_reducible apply does_bufferIn (sub_trans hM)
    | split

theorem does_gateDefer {M : Nat} {s₀ : State} {s : State} {m c close : Nat} (hM : Sub 0xe221082 M) (hD : Does M s₀ s) :
    Does M s₀ (State.gateDefer s m c close) := by
  unfold State.gateDefer
  try dsimp only
  repeat' first
    | with_reducible assumption
    | with_reducible apply does_countCls (sub_trans hM)
    | with_reducible apply does_setSch (sub_trans hM)
    | split

theorem does_grantCand {M : Nat} {s₀ : State} {s : State} {m c : Nat} {y : Cand} {t : Nat} (hM : Sub 0xe225582 M) (hD : Does M s₀ s) :
    Does M s₀ (State.grantCand s m c y t) := by
  unfold State.grantCand
  try dsimp only
  repeat' first
    | with_reducible assumption
    | with_reducible apply does_cqReserve (sub_trans hM)
    | with_reducible apply does_setSch (sub_trans hM)
    | with_reducible apply does_setSend (sub_trans hM)
    | with_reducible apply does_setFn (sub_trans hM)
    | with_reducible apply does_charge (sub_trans hM)
    | with_reducible apply does_tidy (sub_trans hM)
    | with_reducible apply does_endLpi (sub_trans hM)
    | split

theorem does_grantScan {M : Nat} {s₀ : State} {m t c : Nat} {s : State} (hM : Sub 0xe225582 M) (hD : Does M s₀ s) :
    Does M s₀ (State.grantScan m t c s) := by
  induction c generalizing s with
  | zero => exact hD
  | succ k ih =>
    unfold State.grantScan
    try dsimp only
    repeat' first
      | with_reducible assumption
      | with_reducible apply ih
      | with_reducible apply does_throttle (sub_trans hM)
      | with_reducible apply does_setSch (sub_trans hM)
      | with_reducible apply does_grantCand (sub_trans hM)
      | with_reducible apply does_gateDefer (sub_trans hM)
      | split

theorem does_execGrant (m : Fin 16) (ready : Nat) (s : State) :
    ∃ t, execGrant m ready s = .next t ∧ Does 0xe225582 s t := by
  have hM : Sub 0xe225582 0xe225582 := by decide
  have hD := does_refl 0xe225582 s
  refine ⟨_, rfl, ?_⟩
  try dsimp only
  repeat' first
    | with_reducible assumption
    | with_reducible apply does_settle (sub_trans hM)
    | with_reducible apply does_grantScan (sub_trans hM)
    | split

theorem does_txCounters {M : Nat} {s₀ : State} {s : State} {m : Nat} {f : CurFrame} {len : Nat} {seg padded : Bool} (hM : Sub 0xe220082 M) (hD : Does M s₀ s) :
    Does M s₀ (State.txCounters s m f len seg padded) := by
  unfold State.txCounters
  try dsimp only
  repeat' first
    | with_reducible assumption
    | with_reducible apply does_uses (sub_trans hM)
    | with_reducible apply does_wireUse (sub_trans hM)
    | with_reducible apply does_count (sub_trans hM)
    | with_reducible apply does_countN (sub_trans hM)
    | with_reducible apply does_countCls (sub_trans hM)
    | split

theorem does_oneStepSkip {M : Nat} {s₀ : State} {s : State} {m : Nat} (hM : Sub 0xe220082 M) (hD : Does M s₀ s) :
    Does M s₀ (State.oneStepSkip s m) := by
  unfold State.oneStepSkip
  try dsimp only
  repeat' first
    | with_reducible assumption
    | with_reducible apply does_raiseOnce (sub_trans hM)
    | with_reducible apply does_count (sub_trans hM)

theorem does_depart {M : Nat} {s₀ : State} {s : State} {m : Nat} {f : CurFrame} (hM : Sub 0xe227582 M) (hD : Does M s₀ s) :
    Does M s₀ (State.depart s m f) := by
  unfold State.depart
  try dsimp only
  repeat' first
    | with_reducible assumption
    | with_reducible apply does_oneStepSkip (sub_trans hM)
    | with_reducible apply does_setSch (sub_trans hM)
    | with_reducible apply does_txCounters (sub_trans hM)
    | with_reducible apply does_emit (sub_trans hM)
    | with_reducible apply does_setCredit (sub_trans hM)
    | with_reducible apply does_wdCheck (sub_trans hM)
    | with_reducible apply does_flowAll (sub_trans hM)
    | with_reducible apply does_txComplete (sub_trans hM)
    | with_reducible apply does_setSend (sub_trans hM)
    | split

theorem does_execFrameDeparture (m : Fin 16) (s : State) :
    ∃ t, execFrameDeparture m s = .next t ∧ Does 0xe2e7583 s t := by
  have hM : Sub 0xe2e7583 0xe2e7583 := by decide
  have hD := does_refl 0xe2e7583 s
  refine ⟨_, rfl, ?_⟩
  try dsimp only
  repeat' first
    | with_reducible assumption
    | with_reducible apply does_wireIdle (sub_trans hM)
    | with_reducible apply does_depart (sub_trans hM)
    | with_reducible apply does_settle (sub_trans hM)
    | split

theorem does_execGateEvent (m : Fin 16) (s : State) :
    ∃ t, execGateEvent m s = .next t ∧ Does 0x1000 s t := by
  have hM : Sub 0x1000 0x1000 := by decide
  have hD := does_refl 0x1000 s
  refine ⟨_, rfl, ?_⟩
  try dsimp only
  repeat' first
    | with_reducible assumption
    | with_reducible apply does_gateRefresh (sub_trans hM)
    | with_reducible apply does_settle (sub_trans hM)

theorem does_stuckOne {M : Nat} {s₀ : State} {m : Nat} {s : State} {c : Nat} (hM : Sub 0xe221082 M) (hD : Does M s₀ s) :
    Does M s₀ (State.stuckOne m s c) := by
  unfold State.stuckOne
  try dsimp only
  repeat' first
    | with_reducible assumption
    | with_reducible apply does_raise (sub_trans hM)
    | with_reducible apply does_setSch (sub_trans hM)
    | split

theorem does_stuckCheck {M : Nat} {s₀ : State} {s : State} {m : Nat} (hM : Sub 0xe221082 M) (hD : Does M s₀ s) :
    Does M s₀ (State.stuckCheck s m) := by
  unfold State.stuckCheck
  try dsimp only
  repeat' first
    | with_reducible assumption
    | with_reducible apply does_stuckOne (sub_trans hM)
    | with_reducible refine does_foldl (fun x_ a_ hx_ => ?_) ?_

theorem does_retestSend {M : Nat} {s₀ : State} {n : ℕ} {s : State} {x : Send} (hM : Sub 0xe220182 M) (hD : Does M s₀ s) :
    Does M s₀ (State.retestSend n s x) := by
  unfold State.retestSend
  try dsimp only
  repeat' first
    | with_reducible assumption
    | with_reducible apply does_setSend (sub_trans hM)
    | with_reducible apply does_rejectSend (sub_trans hM)
    | split

theorem does_retestRing {M : Nat} {s₀ : State} {s : State} {n : ℕ} (hM : Sub 0xe220582 M) (hD : Does M s₀ s) :
    Does M s₀ (State.retestRing s n) := by
  unfold State.retestRing
  try dsimp only
  repeat' first
    | with_reducible assumption
    | with_reducible apply does_retestSend (sub_trans hM)
    | with_reducible apply does_txComplete (sub_trans hM)
    | split
    | with_reducible refine does_foldl (fun x_ a_ hx_ => ?_) ?_

theorem does_gateLists {M : Nat} {s₀ : State} {s : State} {m : ℕ} (hM : Sub 0xe221582 M) (hD : Does M s₀ s) :
    Does M s₀ (State.gateLists s m) := by
  unfold State.gateLists
  try dsimp only
  repeat' first
    | with_reducible assumption
    | with_reducible apply does_stuckCheck (sub_trans hM)
    | with_reducible apply does_retestRing (sub_trans hM)
    | split
    | with_reducible refine does_foldl (fun x_ a_ hx_ => ?_) ?_

theorem does_execGclApplied (m : Fin 16) (s : State) :
    ∃ t, execGclApplied m s = .next t ∧ Does 0xe221582 s t := by
  have hM : Sub 0xe221582 0xe221582 := by decide
  have hD := does_refl 0xe221582 s
  refine ⟨_, rfl, ?_⟩
  try dsimp only
  repeat' first
    | with_reducible assumption
    | with_reducible apply does_gateLists (sub_trans hM)
    | with_reducible apply does_gateRefresh (sub_trans hM)
    | with_reducible apply does_setSch (sub_trans hM)
    | with_reducible apply does_settle (sub_trans hM)
    | with_reducible apply does_stuckCheck (sub_trans hM)
    | with_reducible apply does_raise (sub_trans hM)
    | split

theorem does_execTxEarlyWake (m : Fin 16) (s : State) :
    ∃ t, execTxEarlyWake m s = .next t ∧ Does 0xe225082 s t := by
  have hM : Sub 0xe225082 0xe225082 := by decide
  have hD := does_refl 0xe225082 s
  refine ⟨_, rfl, ?_⟩
  try dsimp only
  repeat' first
    | with_reducible assumption
    | with_reducible apply does_count (sub_trans hM)
    | with_reducible apply does_wakeLink (sub_trans hM)
    | split

theorem does_execLpiEntry (m : Fin 16) (rx : Bool) (s : State) :
    ∃ t, execLpiEntry m rx s = .next t ∧ Does 0x5000 s t := by
  have hM : Sub 0x5000 0x5000 := by decide
  have hD := does_refl 0x5000 s
  refine ⟨_, rfl, ?_⟩
  try dsimp only
  repeat' first
    | with_reducible assumption
    | with_reducible apply does_setMac (sub_trans hM)
    | with_reducible apply does_setSch (sub_trans hM)
    | split

theorem does_lpiTick {M : Nat} {s₀ : State} {s : State} {m : ℕ} (hM : Sub 0xe225082 M) (hD : Does M s₀ s) :
    Does M s₀ (State.lpiTick s m) := by
  unfold State.lpiTick
  try dsimp only
  repeat' first
    | with_reducible assumption
    | with_reducible apply does_setMac (sub_trans hM)
    | with_reducible apply does_setSch (sub_trans hM)
    | with_reducible apply does_count (sub_trans hM)
    | split

theorem does_lpiTicks {M : Nat} {s₀ : State} {s : State} (hM : Sub 0xe225082 M) (hD : Does M s₀ s) :
    Does M s₀ (State.lpiTicks s) := by
  unfold State.lpiTicks
  try dsimp only
  repeat' first
    | with_reducible assumption
    | with_reducible apply does_lpiTick (sub_trans hM)
    | split
    | with_reducible refine does_foldl (fun x_ a_ hx_ => ?_) ?_

end Sys2Proof.Laws
end

