-- ==== Sys2Proof/Laws/Receive.lean ====
section
/-! SUPPORT. What each operation and command of Machine/Receive.lean can touch, and that it keeps the invariants of the blocks. -/
set_option Elab.async false
namespace Sys2Proof.Laws
open Sys2Proof.Machine

theorem does_pauseIn {M : Nat} {s₀ : State} {s : State} {m : ℕ} {l : List (ℕ × ℕ)} (hM : Sub 0x4000 M) (hD : Does M s₀ s) :
    Does M s₀ (State.pauseIn s m l) := by
  unfold State.pauseIn
  try dsimp only
  repeat' first
    | with_reducible assumption
    | with_reducible apply does_setMac (sub_trans hM)
    | split

theorem does_macControl {M : Nat} {s₀ : State} {s : State} {m : Nat} {f : RxFrame} (hM : Sub 0xe224082 M) (hD : Does M s₀ s) :
    Does M s₀ (State.macControl s m f) := by
  unfold State.macControl
  try dsimp only
  repeat' first
    | with_reducible assumption
    | with_reducible apply does_count (sub_trans hM)
    | with_reducible apply does_pauseAll (sub_trans hM)
    | with_reducible apply does_countCls (sub_trans hM)
    | with_reducible apply does_pauseIn (sub_trans hM)
    | split
    | with_reducible refine does_foldl (fun x_ a_ hx_ => ?_) ?_

theorem does_lpiTwWrite {M : Nat} {s₀ : State} {s : State} {m v : Nat} (hM : Sub 0xe224082 M) (hD : Does M s₀ s) :
    Does M s₀ (State.lpiTwWrite s m v) := by
  unfold State.lpiTwWrite
  try dsimp only
  repeat' first
    | with_reducible assumption
    | with_reducible apply does_setMac (sub_trans hM)
    | with_reducible apply does_raise (sub_trans hM)
    | split

theorem does_lldpIn {M : Nat} {s₀ : State} {s : State} {m : Nat} {l : Bytes} (hM : Sub 0xe224082 M) (hD : Does M s₀ s) :
    Does M s₀ (State.lldpIn s m l) := by
  unfold State.lldpIn
  try dsimp only
  repeat' first
    | with_reducible assumption
    | with_reducible apply does_lpiTwWrite (sub_trans hM)
    | with_reducible apply does_count (sub_trans hM)
    | with_reducible apply does_setMac (sub_trans hM)
    | split

theorem does_unmatchedDrop {M : Nat} {s₀ : State} {s : State} {m : Nat} (hM : Sub 0xe220082 M) (hD : Does M s₀ s) :
    Does M s₀ (State.unmatchedDrop s m) := by
  unfold State.unmatchedDrop
  try dsimp only
  repeat' first
    | with_reducible assumption
    | with_reducible apply does_raiseOnce (sub_trans hM)
    | with_reducible apply does_count (sub_trans hM)

theorem does_abortCopy {M : Nat} {s₀ : State} {s : State} {h : HFrame} {c : RxCopy} {cells : ℕ} (hM : Sub 0x1e220682 M) (hD : Does M s₀ s) :
    Does M s₀ (State.abortCopy s h c cells) := by
  unfold State.abortCopy
  try dsimp only
  repeat' first
    | with_reducible assumption
    | with_reducible apply does_rxAdvance (sub_trans hM)
    | with_reducible apply does_rxAbandon (sub_trans hM)
    | with_reducible apply does_writeSlots (sub_trans hM)
    | with_reducible apply does_rxFinish (sub_trans hM)
    | with_reducible apply does_useFree (sub_trans hM)

theorem does_refuse {M : Nat} {s₀ : State} {h : HFrame} {s : State} {r : RxCopy × ℕ × ℕ} (hM : Sub 0x1e222682 M) (hD : Does M s₀ s) :
    Does M s₀ (State.refuse h s r) := by
  unfold State.refuse
  try dsimp only
  repeat' first
    | with_reducible assumption
    | with_reducible apply does_countCls (sub_trans hM)
    | with_reducible apply does_dropMark (sub_trans hM)
    | with_reducible apply does_abortCopy (sub_trans hM)
    | with_reducible apply does_raiseOnce (sub_trans hM)
    | with_reducible apply does_raise (sub_trans hM)
    | split

theorem does_queueCopies {M : Nat} {s₀ : State} {s : State} {g : HFrame} (hM : Sub 0xe220282 M) (hD : Does M s₀ s) :
    Does M s₀ (State.queueCopies s g) := by
  unfold State.queueCopies
  try dsimp only
  repeat' first
    | with_reducible assumption
    | with_reducible apply does_uses (sub_trans hM)
    | with_reducible apply does_setRxr (sub_trans hM)
    | with_reducible apply does_count (sub_trans hM)
    | split
    | with_reducible refine does_foldl (fun x_ a_ hx_ => ?_) ?_

theorem does_takeFrame {M : Nat} {s₀ : State} {s : State} {h : HFrame} (hM : Sub 0x1e227682 M) (hD : Does M s₀ s) :
    Does M s₀ (State.takeFrame s h) := by
  unfold State.takeFrame
  try dsimp only
  repeat' first
    | with_reducible assumption
    | with_reducible apply does_queueCopies (sub_trans hM)
    | with_reducible apply does_refuse (sub_trans hM)
    | with_reducible apply does_raise (sub_trans hM)
    | with_reducible apply does_poolMark (sub_trans hM)
    | with_reducible apply does_flowCheck (sub_trans hM)
    | with_reducible apply does_onHamper (sub_trans hM)
    | split
    | with_reducible refine does_foldl (fun x_ a_ hx_ => ?_) ?_

theorem does_rxCounters {M : Nat} {s₀ : State} {s : State} {m cls len : Nat} {big : Bool} {cast l3 l4 : Nat} (hM : Sub 0xe220082 M) (hD : Does M s₀ s) :
    Does M s₀ (State.rxCounters s m cls len big cast l3 l4) := by
  unfold State.rxCounters
  try dsimp only
  repeat' first
    | with_reducible assumption
    | with_reducible apply does_raiseOnce (sub_trans hM)
    | with_reducible apply does_count (sub_trans hM)
    | with_reducible apply does_countN (sub_trans hM)
    | with_reducible apply does_countCls (sub_trans hM)
    | split

theorem does_rxUse {M : Nat} {s₀ : State} {s : State} {m : ℕ} {len : ℕ} {copies : List RxCopy} (hM : Sub 0x20000 M) (hD : Does M s₀ s) :
    Does M s₀ (State.rxUse s m len copies) := by
  unfold State.rxUse
  try dsimp only
  repeat' first
    | with_reducible assumption
    | with_reducible apply does_wireUse (sub_trans hM)
    | with_reducible apply does_use (sub_trans hM)
    | split
    | with_reducible refine does_foldl (fun x_ a_ hx_ => ?_) ?_

theorem does_admit {M : Nat} {s₀ : State} {s : State} {h : HFrame} {copies : List RxCopy} (hM : Sub 0x1e227682 M) (hD : Does M s₀ s) :
    Does M s₀ (State.enterHamper s h copies) := by
  unfold State.enterHamper
  try dsimp only
  repeat' first
    | with_reducible assumption
    | with_reducible apply does_rxUse (sub_trans hM)
    | with_reducible apply does_takeFrame (sub_trans hM)
    | split

theorem does_copyOne {M : Nat} {s₀ : State} {l : Bytes} {p : Parsed} {owner : Option Nat} {t : State × List RxCopy} {f : Nat}
    (hM : Sub 0xe220082 M) (hD : Does M s₀ t.1) : Does M s₀ (State.copyOne l p owner t f).1 := by
  unfold State.copyOne
  try dsimp only
  repeat' first
    | with_reducible assumption
    | with_reducible apply does_count (sub_trans hM)
    | split

theorem does_classify {M : Nat} {s₀ : State} {s : State} {m : Nat} {h : HFrame} {p : Parsed} (hM : Sub 0x1e227682 M) (hD : Does M s₀ s) :
    Does M s₀ (State.classify s m h p) := by
  unfold State.classify
  try dsimp only
  repeat' first
    | with_reducible assumption
    | with_reducible apply does_count (sub_trans hM)
    | with_reducible apply does_admit (sub_trans hM)
    | with_reducible apply does_unmatchedDrop (sub_trans hM)
    | with_reducible apply does_copyOne (sub_trans hM)
    | split
    | with_reducible refine does_foldl (fun x_ a_ hx_ => ?_) ?_
    | with_reducible refine does_foldl_pair (fun x_ a_ hx_ => ?_) ?_

theorem does_badFcs {M : Nat} {s₀ : State} {s : State} {m : ℕ} {len : ℕ} {stamp : ℕ} {l : Bytes} (hM : Sub 0x1e227682 M) (hD : Does M s₀ s) :
    Does M s₀ (State.badFcs s m len stamp l) := by
  unfold State.badFcs
  try dsimp only
  repeat' first
    | with_reducible assumption
    | with_reducible apply does_unmatchedDrop (sub_trans hM)
    | with_reducible apply does_admit (sub_trans hM)
    | with_reducible apply does_takeFrame (sub_trans hM)
    | with_reducible apply does_count (sub_trans hM)
    | split

theorem does_rxClassify {M : Nat} {s₀ : State} {s : State} {m : ℕ} {f : RxFrame} {cut : Bool} {stamp : ℕ} (hM : Sub 0x1e227682 M) (hD : Does M s₀ s) :
    Does M s₀ (State.rxClassify s m f cut stamp) := by
  unfold State.rxClassify
  try dsimp only
  repeat' first
    | with_reducible assumption
    | with_reducible apply does_lldpIn (sub_trans hM)
    | with_reducible apply does_rxCounters (sub_trans hM)
    | with_reducible apply does_badFcs (sub_trans hM)
    | with_reducible apply does_wireUse (sub_trans hM)
    | with_reducible apply does_macControl (sub_trans hM)
    | with_reducible apply does_classify (sub_trans hM)
    | with_reducible apply does_count (sub_trans hM)
    | split

theorem does_rxFrame {M : Nat} {s₀ : State} {s : State} {m : ℕ} {f : RxFrame} {cut : Bool} {stamp : ℕ} (hM : Sub 0x1e227682 M) (hD : Does M s₀ s) :
    Does M s₀ (State.rxFrame s m f cut stamp) := by
  unfold State.rxFrame
  try dsimp only
  repeat' first
    | with_reducible assumption
    | ((with_reducible refine does_onTally (sub_trans hM) ?_ ?_); focus (first | exact fun k => k | exact fun k => ⟨k.count, k.base, k.mirror⟩))
    | with_reducible apply does_rxClassify (sub_trans hM)

theorem does_fecCount {M : Nat} {s₀ : State} {s : State} {m : ℕ} {f : RxFrame} (hM : Sub 0xe220082 M) (hD : Does M s₀ s) :
    Does M s₀ (State.fecCount s m f) := by
  unfold State.fecCount
  try dsimp only
  repeat' first
    | with_reducible assumption
    | with_reducible apply does_countN (sub_trans hM)
    | split

theorem does_endRxLpi {M : Nat} {s₀ : State} {s : State} {m : ℕ} (hM : Sub 0xe224082 M) (hD : Does M s₀ s) :
    Does M s₀ (State.endRxLpi s m) := by
  unfold State.endRxLpi
  try dsimp only
  repeat' first
    | with_reducible assumption
    | with_reducible apply does_setMac (sub_trans hM)
    | with_reducible apply does_countN (sub_trans hM)
    | split

theorem does_holdFrame {M : Nat} {s₀ : State} {s : State} {m : ℕ} {f : RxFrame} {cut : Bool} (hM : Sub 0x40000 M) (hD : Does M s₀ s) :
    Does M s₀ (State.holdFrame s m f cut) := by
  unfold State.holdFrame
  try dsimp only
  repeat' first
    | with_reducible assumption
    | with_reducible apply does_holdWords (sub_trans hM)
    | ((with_reducible refine does_onPair (sub_trans hM) ?_ ?_); focus (unfold PairSt.acts; with_reducible rfl))

theorem does_rxArrives {M : Nat} {s₀ : State} {s : State} {m : ℕ} {frame : RxFrame} (hM : Sub 0x1e667682 M) (hD : Does M s₀ s) :
    Does M s₀ (State.rxArrives s m frame) := by
  unfold State.rxArrives
  try dsimp only
  repeat' first
    | with_reducible assumption
    | with_reducible apply does_endIdle (sub_trans hM)
    | with_reducible apply does_rxFrame (sub_trans hM)
    | with_reducible apply does_endRxLpi (sub_trans hM)
    | with_reducible apply does_holdFrame (sub_trans hM)
    | with_reducible apply does_fecCount (sub_trans hM)
    | split

theorem does_execFrameReceived (m : Fin 16) (frame : RxFrame) (s : State) :
    ∃ t, execFrameReceived m frame s = .next t ∧ Does 0x1e667682 s t := by
  have hM : Sub 0x1e667682 0x1e667682 := by decide
  have hD := does_refl 0x1e667682 s
  refine ⟨_, rfl, ?_⟩
  try dsimp only
  repeat' first
    | with_reducible assumption
    | with_reducible apply does_rxArrives (sub_trans hM)

theorem does_execMacControlFrame (m : Fin 16) (frame : RxFrame) (s : State) :
    ∃ t, execMacControlFrame m frame s = .next t ∧ Does 0x1e667682 s t := by
  have hM : Sub 0x1e667682 0x1e667682 := by decide
  have hD := does_refl 0x1e667682 s
  refine ⟨_, rfl, ?_⟩
  try dsimp only
  repeat' first
    | with_reducible assumption
    | with_reducible apply does_rxArrives (sub_trans hM)
    | with_reducible apply does_macControl (sub_trans hM)
    | with_reducible apply does_endIdle (sub_trans hM)
    | split

theorem does_execRxStoreWrite (ring : Fin 640) (s : State) :
    ∃ t, execRxStoreWrite ring s = .next t ∧ Does 0xe227682 s t := by
  have hM : Sub 0xe227682 0xe227682 := by decide
  have hD := does_refl 0xe227682 s
  refine ⟨_, rfl, ?_⟩
  try dsimp only
  repeat' first
    | with_reducible assumption
    | with_reducible apply does_rxAdvance (sub_trans hM)
    | with_reducible apply does_rxStore (sub_trans hM)
    | split

theorem does_execRxEarlyStart (ring : Fin 640) (s : State) :
    ∃ t, execRxEarlyStart ring s = .next t ∧ Does 0xe227682 s t := by
  have hM : Sub 0xe227682 0xe227682 := by decide
  have hD := does_refl 0xe227682 s
  refine ⟨_, rfl, ?_⟩
  try dsimp only
  repeat' first
    | with_reducible assumption
    | with_reducible apply does_rxEarly (sub_trans hM)
    | with_reducible apply does_rxAdvance (sub_trans hM)
    | with_reducible apply does_earlyGo (sub_trans hM)
    | with_reducible apply does_cqReserve (sub_trans hM)
    | with_reducible apply does_rxShort (sub_trans hM)
    | split

theorem does_execRxWaitExpiry (ring : Fin 640) (s : State) :
    ∃ t, execRxWaitExpiry ring s = .next t ∧ Does 0xe227682 s t := by
  have hM : Sub 0xe227682 0xe227682 := by decide
  have hD := does_refl 0xe227682 s
  refine ⟨_, rfl, ?_⟩
  try dsimp only
  repeat' first
    | with_reducible assumption
    | with_reducible apply does_rxExpire (sub_trans hM)
    | split

theorem does_flowSet {M : Nat} {s₀ : State} {s : State} {result : ℕ} (hM : Sub 0x1 M) (hD : Does M s₀ s) :
    Does M s₀ (State.flowSet s result) := by
  unfold State.flowSet
  try dsimp only
  repeat' first
    | with_reducible assumption
    | ((with_reducible refine does_onSetup (sub_trans hM) ?_ ?_); focus (first | exact fun k => k | exact setupOk_of_active rfl))

theorem does_flowWrite {M : Nat} {s₀ : State} {s : State} {index : Nat} (hM : Sub 0x1 M) (hD : Does M s₀ s) :
    Does M s₀ (State.flowWrite s index) := by
  unfold State.flowWrite
  try dsimp only
  repeat' first
    | with_reducible assumption
    | with_reducible apply does_flowSet (sub_trans hM)
    | with_reducible refine does_onSetup (sub_trans hM) ?_ ?_
    | split
    | exact fun k => k

theorem does_flowDelete {M : Nat} {s₀ : State} {s : State} {index : ℕ} (hM : Sub 0x1 M) (hD : Does M s₀ s) :
    Does M s₀ (State.flowDelete s index) := by
  unfold State.flowDelete
  try dsimp only
  repeat' first
    | with_reducible assumption
    | ((with_reducible refine does_onSetup (sub_trans hM) ?_ ?_); focus (first | exact fun k => k | exact setupOk_of_active rfl))
    | with_reducible apply does_flowSet (sub_trans hM)

theorem does_flowRead {M : Nat} {s₀ : State} {s : State} {index : ℕ} (hM : Sub 0x1 M) (hD : Does M s₀ s) :
    Does M s₀ (State.flowRead s index) := by
  unfold State.flowRead
  try dsimp only
  repeat' first
    | with_reducible assumption
    | ((with_reducible refine does_onSetup (sub_trans hM) ?_ ?_); focus (first | exact fun k => k | exact setupOk_of_active rfl))
    | with_reducible apply does_flowSet (sub_trans hM)

theorem does_flowCmd {M : Nat} {s₀ : State} {s : State} {index : ℕ} {op : ℕ} (hM : Sub 0x1 M) (hD : Does M s₀ s) :
    Does M s₀ (State.flowCmd s index op) := by
  unfold State.flowCmd
  try dsimp only
  repeat' first
    | with_reducible assumption
    | with_reducible apply does_flowRead (sub_trans hM)
    | with_reducible apply does_flowWrite (sub_trans hM)
    | with_reducible apply does_flowDelete (sub_trans hM)
    | split

theorem does_flowGo {M : Nat} {s₀ : State} {s : State} {of : ℕ} {index : ℕ} {op : ℕ} (hM : Sub 0xf670083 M) (hD : Does M s₀ s) :
    Does M s₀ (State.flowGo s of index op) := by
  unfold State.flowGo
  try dsimp only
  repeat' first
    | with_reducible assumption
    | with_reducible apply does_flowCmd (sub_trans hM)
    | with_reducible apply does_endIdle (sub_trans hM)
    | with_reducible apply does_wrote (sub_trans hM)
    | with_reducible apply does_partnerWake (sub_trans hM)
    | with_reducible apply does_hold (sub_trans hM)
    | split

theorem does_execFlowWrite (of : Fin 4) (index : Fin 8192) (s : State) :
    ∃ t, execFlowWrite of index s = .next t ∧ Does 0xf670083 s t := by
  have hM : Sub 0xf670083 0xf670083 := by decide
  have hD := does_refl 0xf670083 s
  refine ⟨_, rfl, ?_⟩
  try dsimp only
  repeat' first
    | with_reducible assumption
    | with_reducible apply does_flowGo (sub_trans hM)

theorem does_execFlowDelete (of : Fin 4) (index : Fin 8192) (s : State) :
    ∃ t, execFlowDelete of index s = .next t ∧ Does 0xf670083 s t := by
  have hM : Sub 0xf670083 0xf670083 := by decide
  have hD := does_refl 0xf670083 s
  refine ⟨_, rfl, ?_⟩
  try dsimp only
  repeat' first
    | with_reducible assumption
    | with_reducible apply does_flowGo (sub_trans hM)

theorem does_execFlowRead (of : Fin 4) (index : Fin 8192) (s : State) :
    ∃ t, execFlowRead of index s = .next t ∧ Does 0xf670083 s t := by
  have hM : Sub 0xf670083 0xf670083 := by decide
  have hD := does_refl 0xf670083 s
  refine ⟨_, rfl, ?_⟩
  try dsimp only
  repeat' first
    | with_reducible assumption
    | with_reducible apply does_flowGo (sub_trans hM)

end Sys2Proof.Laws
end

