-- ==== Sys2Proof/Laws/Policy.lean ====
section
/-! SUPPORT. What each operation and command of Machine/Policy.lean can touch, and that it keeps the invariants of the blocks. -/
set_option Elab.async false
namespace Sys2Proof.Laws
open Sys2Proof.Machine

theorem does_setFreqs {M : Nat} {s₀ : State} {s : State} {row : Nat} {l : List (Nat × Nat)} (hM : Sub 0x400000 M) (hD : Does M s₀ s) :
    Does M s₀ (State.setFreqs s row l) := by
  unfold State.setFreqs
  try dsimp only
  repeat' first
    | with_reducible assumption
    | with_reducible apply does_setIsland (sub_trans hM)
    | with_reducible refine does_foldl (fun x_ a_ hx_ => ?_) ?_

theorem does_capFreqs {M : Nat} {s₀ : State} {s : State} {row : Nat} (hM : Sub 0x400000 M) (hD : Does M s₀ s) :
    Does M s₀ (State.capFreqs s row) := by
  unfold State.capFreqs
  try dsimp only
  repeat' first
    | with_reducible assumption
    | with_reducible apply does_setIsland (sub_trans hM)
    | with_reducible refine does_foldl (fun x_ a_ hx_ => ?_) ?_

theorem does_dvfsGo {M : Nat} {s₀ : State} {s : State} {row : Nat} {isl : List (Nat × Nat)} (hM : Sub 0x400000 M) (hD : Does M s₀ s) :
    Does M s₀ (State.dvfsGo s row isl) := by
  unfold State.dvfsGo
  try dsimp only
  repeat' first
    | with_reducible assumption
    | with_reducible apply does_onPower (sub_trans hM)
    | with_reducible apply does_setFreqs (sub_trans hM)
    | with_reducible apply does_capFreqs (sub_trans hM)
    | split

theorem does_dvfsNext {M : Nat} {s₀ : State} {s : State} (hM : Sub 0x400000 M) (hD : Does M s₀ s) :
    Does M s₀ (State.dvfsNext s) := by
  unfold State.dvfsNext
  try dsimp only
  repeat' first
    | with_reducible assumption
    | with_reducible apply does_dvfsGo (sub_trans hM)
    | with_reducible apply does_onPower (sub_trans hM)
    | split

theorem does_islandTo {M : Nat} {s₀ : State} {s : State} {i : Nat} {st : IslState} (hM : Sub 0x400000 M) (hD : Does M s₀ s) :
    Does M s₀ (State.islandTo s i st) := by
  unfold State.islandTo
  try dsimp only
  repeat' first
    | with_reducible assumption
    | with_reducible apply does_setIsland (sub_trans hM)

theorem does_islandsTo {M : Nat} {s₀ : State} {s : State} {l : List Nat} {st : IslState} (hM : Sub 0x400000 M) (hD : Does M s₀ s) :
    Does M s₀ (State.islandsTo s l st) := by
  unfold State.islandsTo
  try dsimp only
  repeat' first
    | with_reducible assumption
    | with_reducible apply does_islandTo (sub_trans hM)
    | with_reducible refine does_foldl (fun x_ a_ hx_ => ?_) ?_

theorem does_domainOne {M : Nat} {s₀ : State} {written : Nat → Bool} {s : State} {i : Nat} (hM : Sub 0x400000 M) (hD : Does M s₀ s) :
    Does M s₀ (State.domainOne written s i) := by
  unfold State.domainOne
  try dsimp only
  repeat' first
    | with_reducible assumption
    | with_reducible apply does_islandTo (sub_trans hM)
    | split

theorem does_loStart {M : Nat} {s₀ : State} {s : State} {ch : Nat} (hM : Sub 0x100000 M) (hD : Does M s₀ s) :
    Does M s₀ (State.loStart s ch) := by
  unfold State.loStart
  try dsimp only
  repeat' first
    | with_reducible assumption
    | with_reducible apply does_setChan (sub_trans hM)

theorem does_loFollow {M : Nat} {s₀ : State} {s : State} {ch : Nat} (hM : Sub 0x100000 M) (hD : Does M s₀ s) :
    Does M s₀ (State.loFollow s ch) := by
  unfold State.loFollow
  try dsimp only
  repeat' first
    | with_reducible assumption
    | with_reducible apply does_setChan (sub_trans hM)
    | with_reducible apply does_loStart (sub_trans hM)
    | split

theorem does_loFollowAll {M : Nat} {s₀ : State} {s : State} (hM : Sub 0x100000 M) (hD : Does M s₀ s) :
    Does M s₀ (State.loFollowAll s) := by
  unfold State.loFollowAll
  try dsimp only
  repeat' first
    | with_reducible assumption
    | with_reducible apply does_loFollow (sub_trans hM)
    | with_reducible refine does_foldl (fun x_ a_ hx_ => ?_) ?_

theorem does_domainSync {M : Nat} {s₀ : State} {s : State} {written : Nat → Bool} (hM : Sub 0x500000 M) (hD : Does M s₀ s) :
    Does M s₀ (State.domainSync s written) := by
  unfold State.domainSync
  try dsimp only
  repeat' first
    | with_reducible assumption
    | with_reducible apply does_loFollowAll (sub_trans hM)
    | with_reducible apply does_domainOne (sub_trans hM)
    | split
    | with_reducible refine does_foldl (fun x_ a_ hx_ => ?_) ?_

theorem does_knobUpdate {M : Nat} {s₀ : State} {restart : Nat → Bool} {s : State} {k : Nat} (hM : Sub 0xea20082 M) (hD : Does M s₀ s) :
    Does M s₀ (State.knobUpdate restart s k) := by
  unfold State.knobUpdate
  try dsimp only
  repeat' first
    | with_reducible assumption
    | with_reducible apply does_setKnob (sub_trans hM)
    | with_reducible apply does_raise (sub_trans hM)
    | split

theorem does_dvfsSync {M : Nat} {s₀ : State} {s : State} (hM : Sub 0x400000 M) (hD : Does M s₀ s) :
    Does M s₀ (State.dvfsSync s) := by
  unfold State.dvfsSync
  try dsimp only
  repeat' first
    | with_reducible assumption
    | with_reducible apply does_dvfsGo (sub_trans hM)

theorem does_ceilingApply {M : Nat} {s₀ : State} {s : State} (hM : Sub 0x400000 M) (hD : Does M s₀ s) :
    Does M s₀ (State.ceilingApply s) := by
  unfold State.ceilingApply
  try dsimp only
  repeat' first
    | with_reducible assumption
    | with_reducible apply does_onPower (sub_trans hM)
    | with_reducible apply does_dvfsGo (sub_trans hM)
    | split

theorem does_fmRefresh {M : Nat} {s₀ : State} {s : State} {restart : Nat → Bool} (hM : Sub 0xef20082 M) (hD : Does M s₀ s) :
    Does M s₀ (State.fmRefresh s restart) := by
  unfold State.fmRefresh
  try dsimp only
  repeat' first
    | with_reducible assumption
    | with_reducible apply does_knobUpdate (sub_trans hM)
    | with_reducible apply does_dvfsSync (sub_trans hM)
    | with_reducible apply does_ceilingApply (sub_trans hM)
    | with_reducible apply does_domainSync (sub_trans hM)
    | split
    | with_reducible refine does_foldl (fun x_ a_ hx_ => ?_) ?_

theorem does_fmEnvelope {M : Nat} {s₀ : State} {s : State} (hM : Sub 0xef20082 M) (hD : Does M s₀ s) :
    Does M s₀ (State.fmEnvelope s) := by
  unfold State.fmEnvelope
  try dsimp only
  repeat' first
    | with_reducible assumption
    | with_reducible apply does_fmRefresh (sub_trans hM)

end Sys2Proof.Laws
end

