-- ==== Sys2Proof/Laws/LinkOps.lean ====
section
/-! SUPPORT. What each operation and command of Machine/LinkOps.lean can touch, and that it keeps the invariants of the blocks. -/
set_option Elab.async false
namespace Sys2Proof.Laws
open Sys2Proof.Machine

theorem does_powerCheck {M : Nat} {s₀ : State} {s : State} {p maxPower : Nat} {copper : Bool} (hM : Sub 0xe228082 M) (hD : Does M s₀ s) :
    Does M s₀ (State.powerCheck s p maxPower copper) := by
  unfold State.powerCheck
  try dsimp only
  repeat' first
    | with_reducible assumption
    | with_reducible apply does_setCage (sub_trans hM)
    | with_reducible apply does_raise (sub_trans hM)
    | split

theorem does_keepGrant {M : Nat} {s₀ : State} {s : State} {m : Nat} (hM : Sub 0x1000 M) (hD : Does M s₀ s) :
    Does M s₀ (State.keepGrant s m) := by
  unfold State.keepGrant
  try dsimp only
  repeat' first
    | with_reducible assumption
    | with_reducible apply does_setSch (sub_trans hM)

theorem does_leaveUp {M : Nat} {s₀ : State} {s : State} {m cause : Nat} (hM : Sub 0xe225082 M) (hD : Does M s₀ s) :
    Does M s₀ (State.leaveUp s m cause) := by
  unfold State.leaveUp
  try dsimp only
  repeat' first
    | with_reducible assumption
    | with_reducible apply does_endRxLpi (sub_trans hM)
    | with_reducible apply does_raise (sub_trans hM)
    | with_reducible apply does_count (sub_trans hM)
    | with_reducible apply does_keepGrant (sub_trans hM)
    | with_reducible apply does_endLpi (sub_trans hM)
    | with_reducible apply does_settle (sub_trans hM)
    | split

theorem does_instDown {M : Nat} {s₀ : State} {s : State} {m cause : Nat} {next : LinkStage} (hM : Sub 0xe225082 M) (hD : Does M s₀ s) :
    Does M s₀ (State.instDown s m cause next) := by
  unfold State.instDown
  try dsimp only
  repeat' first
    | with_reducible assumption
    | with_reducible apply does_setMac (sub_trans hM)
    | with_reducible apply does_leaveUp (sub_trans hM)

theorem does_laneLost {M : Nat} {s₀ : State} {s : State} {cause : ℕ} {lane : ℕ} (hM : Sub 0xe225082 M) (hD : Does M s₀ s) :
    Does M s₀ (State.laneLost s cause lane) := by
  unfold State.laneLost
  try dsimp only
  repeat' first
    | with_reducible assumption
    | with_reducible apply does_setMac (sub_trans hM)
    | with_reducible apply does_instDown (sub_trans hM)
    | with_reducible apply does_raise (sub_trans hM)
    | with_reducible apply does_count (sub_trans hM)
    | split

theorem does_lanesFail {M : Nat} {s₀ : State} {s : State} {p : ℕ} {cause : ℕ} (hM : Sub 0xe225082 M) (hD : Does M s₀ s) :
    Does M s₀ (State.lanesFail s p cause) := by
  unfold State.lanesFail
  try dsimp only
  repeat' first
    | with_reducible assumption
    | with_reducible apply does_laneLost (sub_trans hM)
    | split
    | with_reducible refine does_foldl (fun x_ a_ hx_ => ?_) ?_

theorem does_portDown {M : Nat} {s₀ : State} {s : State} {p cause : Nat} (hM : Sub 0xe225082 M) (hD : Does M s₀ s) :
    Does M s₀ (State.portDown s p cause) := by
  unfold State.portDown
  try dsimp only
  repeat' first
    | with_reducible assumption
    | with_reducible apply does_instDown (sub_trans hM)
    | split
    | with_reducible refine does_foldl (fun x_ a_ hx_ => ?_) ?_

theorem does_releaseGrant {M : Nat} {s₀ : State} {s : State} {m : Nat} (hM : Sub 0x1000 M) (hD : Does M s₀ s) :
    Does M s₀ (State.releaseGrant s m) := by
  unfold State.releaseGrant
  try dsimp only
  repeat' first
    | with_reducible assumption
    | with_reducible apply does_setSch (sub_trans hM)

theorem does_xoffAgain {M : Nat} {s₀ : State} {s : State} {m : Nat} (hM : Sub 0x5000 M) (hD : Does M s₀ s) :
    Does M s₀ (State.xoffAgain s m) := by
  unfold State.xoffAgain
  try dsimp only
  repeat' first
    | with_reducible assumption
    | with_reducible apply does_queueCtrl (sub_trans hM)
    | split
    | with_reducible refine does_foldl (fun x_ a_ hx_ => ?_) ?_

theorem does_instUp {M : Nat} {s₀ : State} {s : State} {m an : Nat} (hM : Sub 0xe225082 M) (hD : Does M s₀ s) :
    Does M s₀ (State.instUp s m an) := by
  unfold State.instUp
  try dsimp only
  repeat' first
    | with_reducible assumption
    | with_reducible apply does_zeroCredits (sub_trans hM)
    | with_reducible apply does_setMac (sub_trans hM)
    | with_reducible apply does_xoffAgain (sub_trans hM)
    | with_reducible apply does_releaseGrant (sub_trans hM)
    | with_reducible apply does_raise (sub_trans hM)

theorem does_instEnable {M : Nat} {s₀ : State} {s : State} {m : Nat} (hM : Sub 0x4000 M) (hD : Does M s₀ s) :
    Does M s₀ (State.instEnable s m) := by
  unfold State.instEnable
  try dsimp only
  repeat' first
    | with_reducible assumption
    | with_reducible apply does_setMac (sub_trans hM)
    | split

theorem does_instDisable {M : Nat} {s₀ : State} {s : State} {m : Nat} (hM : Sub 0xe225082 M) (hD : Does M s₀ s) :
    Does M s₀ (State.instDisable s m) := by
  unfold State.instDisable
  try dsimp only
  repeat' first
    | with_reducible assumption
    | with_reducible apply does_setMac (sub_trans hM)
    | with_reducible apply does_instDown (sub_trans hM)

end Sys2Proof.Laws
end

