-- ==== Sys2Proof/Laws/PowerOps.lean ====
section
/-! SUPPORT. What each operation and command of Machine/PowerOps.lean can touch, and that it keeps the invariants of the blocks. -/
set_option Elab.async false
namespace Sys2Proof.Laws
open Sys2Proof.Machine

theorem does_aoCheck {M : Nat} {s₀ : State} {s : State} {hottest : Int} (hM : Sub 0xe220082 M) (hD : Does M s₀ s) :
    Does M s₀ (State.aoCheck s hottest).1 := by
  unfold State.aoCheck
  try dsimp only
  repeat' first
    | with_reducible assumption
    | with_reducible refine does_onSupply (sub_trans hM) ?_ ?_
    | with_reducible apply does_raise (sub_trans hM)
    | split
    | exact fun k => k

theorem does_ledger {M : Nat} {s₀ : State} {s : State} (hM : Sub 0xe220082 M) (hD : Does M s₀ s) :
    Does M s₀ (State.ledger s) := by
  unfold State.ledger
  try dsimp only
  repeat' first
    | with_reducible assumption
    | with_reducible apply does_logRow (sub_trans hM)
    | with_reducible refine does_foldl (fun x_ a_ hx_ => ?_) ?_

theorem does_saveShutdown {M : Nat} {s₀ : State} {s : State} {cause : Nat} (hM : Sub 0xe22008a M) (hD : Does M s₀ s) :
    Does M s₀ (State.saveShutdown s cause) := by
  unfold State.saveShutdown
  try dsimp only
  repeat' first
    | with_reducible assumption
    | with_reducible apply does_onRtc (sub_trans hM)
    | with_reducible apply does_logNow (sub_trans hM)

theorem does_recordPair {M : Nat} {s₀ : State} {s : State} (hM : Sub 0x8 M) (hD : Does M s₀ s) :
    Does M s₀ (State.recordPair s) := by
  unfold State.recordPair
  try dsimp only
  repeat' first
    | with_reducible assumption
    | with_reducible apply does_onRtc (sub_trans hM)

theorem does_rxFlush {M : Nat} {s₀ : State} {n k : Nat} {s : State} (hM : Sub 0xe227682 M) (hD : Does M s₀ s) :
    Does M s₀ (State.rxFlush n k s) := by
  induction k generalizing s with
  | zero => exact hD
  | succ k ih =>
    unfold State.rxFlush
    try dsimp only
    repeat' first
      | with_reducible assumption
      | with_reducible apply ih
      | with_reducible apply does_earlyGo (sub_trans hM)
      | with_reducible apply does_rxStore (sub_trans hM)
      | with_reducible apply does_rxExpire (sub_trans hM)
      | split

theorem does_rxFlushAll {M : Nat} {s₀ : State} {s : State} (hM : Sub 0xe227682 M) (hD : Does M s₀ s) :
    Does M s₀ (State.rxFlushAll s) := by
  unfold State.rxFlushAll
  try dsimp only
  repeat' first
    | with_reducible assumption
    | with_reducible apply does_rxFlush (sub_trans hM)
    | with_reducible apply does_rxAdvance (sub_trans hM)
    | with_reducible refine does_foldl (fun x_ a_ hx_ => ?_) ?_

theorem does_noLanes {M : Nat} {s₀ : State} {s : State} {m : ℕ} (hM : Sub 0x4000 M) (hD : Does M s₀ s) :
    Does M s₀ (State.noLanes s m) := by
  unfold State.noLanes
  try dsimp only
  repeat' first
    | with_reducible assumption
    | with_reducible apply does_setMac (sub_trans hM)

theorem does_netsOff {M : Nat} {s₀ : State} {s : State} (hM : Sub 0x1e225082 M) (hD : Does M s₀ s) :
    Does M s₀ (State.netsOff s) := by
  unfold State.netsOff
  try dsimp only
  repeat' first
    | with_reducible assumption
    | with_reducible apply does_noLanes (sub_trans hM)
    | with_reducible apply does_portDown (sub_trans hM)
    | with_reducible apply does_useFree (sub_trans hM)
    | split
    | with_reducible refine does_foldl (fun x_ a_ hx_ => ?_) ?_

theorem does_modeIslands {M : Nat} {s₀ : State} {s : State} {mode : PwrMode} (hM : Sub 0x400000 M) (hD : Does M s₀ s) :
    Does M s₀ (State.modeIslands s mode) := by
  unfold State.modeIslands
  try dsimp only
  repeat' first
    | with_reducible assumption
    | with_reducible apply does_islandTo (sub_trans hM)
    | split
    | with_reducible refine does_foldl (fun x_ a_ hx_ => ?_) ?_

theorem does_cagesOff {M : Nat} {s₀ : State} {s : State} (hM : Sub 0x8000 M) (hD : Does M s₀ s) :
    Does M s₀ (State.cagesOff s) := by
  unfold State.cagesOff
  try dsimp only
  repeat' first
    | with_reducible assumption
    | with_reducible apply does_setCage (sub_trans hM)
    | with_reducible refine does_foldl (fun x_ a_ hx_ => ?_) ?_

theorem does_cagesOn {M : Nat} {s₀ : State} {s : State} (hM : Sub 0xe228082 M) (hD : Does M s₀ s) :
    Does M s₀ (State.cagesOn s) := by
  unfold State.cagesOn
  try dsimp only
  repeat' first
    | with_reducible assumption
    | with_reducible apply does_powerCheck (sub_trans hM)
    | with_reducible apply does_setCage (sub_trans hM)
    | split
    | with_reducible refine does_foldl (fun x_ a_ hx_ => ?_) ?_

theorem does_lookoutSleep {M : Nat} {s₀ : State} {s : State} (hM : Sub 0x100000 M) (hD : Does M s₀ s) :
    Does M s₀ (State.lookoutSleep s) := by
  unfold State.lookoutSleep
  try dsimp only
  repeat' first
    | with_reducible assumption
    | with_reducible apply does_setChan (sub_trans hM)
    | with_reducible refine does_foldl (fun x_ a_ hx_ => ?_) ?_

theorem does_beginEntry {M : Nat} {s₀ : State} {s : State} {target : PwrMode} (hM : Sub 0xf630082 M) (hD : Does M s₀ s) :
    Does M s₀ (State.beginEntry s target) := by
  unfold State.beginEntry
  try dsimp only
  repeat' first
    | with_reducible assumption
    | with_reducible refine does_onTether (sub_trans hM) ?_ ?_
    | with_reducible apply does_onPower (sub_trans hM)
    | with_reducible apply does_setWatchLane (sub_trans hM)
    | with_reducible apply does_ledger (sub_trans hM)
    | split
    | with_reducible refine does_foldl (fun x_ a_ hx_ => ?_) ?_
    | with_reducible refine does_foldl_pair (fun x_ a_ hx_ => ?_) ?_
    | exact fun k => k

theorem does_entryRefused {M : Nat} {s₀ : State} {s : State} {reason : Nat} (hM : Sub 0xe220082 M) (hD : Does M s₀ s) :
    Does M s₀ (State.entryRefused s reason) := by
  unfold State.entryRefused
  try dsimp only
  repeat' first
    | with_reducible assumption
    | with_reducible apply does_raise (sub_trans hM)

theorem does_enter {M : Nat} {s₀ : State} {s : State} {target : PwrMode} {hottest : Int} (hM : Sub 0xf630082 M) (hD : Does M s₀ s) :
    Does M s₀ (State.enter s target hottest).1 := by
  unfold State.enter
  try dsimp only
  repeat' first
    | with_reducible assumption
    | with_reducible apply does_entryRefused (sub_trans hM)
    | with_reducible apply does_aoCheck (sub_trans hM)
    | with_reducible apply does_onPower (sub_trans hM)
    | with_reducible apply does_beginEntry (sub_trans hM)
    | split

theorem does_groupRefused {M : Nat} {s₀ : State} {s : State} (hM : Sub 0x1000000 M) (hD : Does M s₀ s) :
    Does M s₀ (State.groupRefused s) := by
  unfold State.groupRefused
  try dsimp only
  repeat' first
    | with_reducible assumption
    | with_reducible refine does_onTether (sub_trans hM) ?_ ?_
    | with_reducible apply does_tetherQueue (sub_trans hM)
    | split
    | exact fun k => k

theorem does_resumeEntry {M : Nat} {s₀ : State} {s : State} (hM : Sub 0xf630082 M) (hD : Does M s₀ s) :
    Does M s₀ (State.resumeEntry s) := by
  unfold State.resumeEntry
  try dsimp only
  repeat' first
    | with_reducible assumption
    | with_reducible apply does_groupRefused (sub_trans hM)
    | with_reducible apply does_entryRefused (sub_trans hM)
    | with_reducible apply does_onPower (sub_trans hM)
    | with_reducible apply does_beginEntry (sub_trans hM)
    | split

theorem does_entrySteps {M : Nat} {s₀ : State} {s : State} {target : PwrMode} (hM : Sub 0x1e62ffb2 M) (hD : Does M s₀ s) :
    Does M s₀ (State.entrySteps s target) := by
  unfold State.entrySteps
  try dsimp only
  repeat' first
    | with_reducible assumption
    | with_reducible apply does_rxFlushAll (sub_trans hM)
    | with_reducible apply does_modeIslands (sub_trans hM)
    | with_reducible apply does_netsOff (sub_trans hM)
    | with_reducible apply does_onLinks (sub_trans hM)
    | with_reducible apply does_useFree (sub_trans hM)
    | with_reducible apply does_cagesOff (sub_trans hM)
    | with_reducible apply does_allLinksLost (sub_trans hM)
    | split

theorem does_latchCheck {M : Nat} {s₀ : State} {s : State} (hM : Sub 0x200000 M) (hD : Does M s₀ s) :
    Does M s₀ (State.latchCheck s) := by
  unfold State.latchCheck
  try dsimp only
  repeat' first
    | with_reducible assumption
    | with_reducible refine does_onSupply (sub_trans hM) ?_ ?_
    | split
    | exact fun k => k

theorem does_writeDeferred {M : Nat} {s₀ : State} {s : State} (hM : Sub 0xe220082 M) (hD : Does M s₀ s) :
    Does M s₀ (State.writeDeferred s) := by
  unfold State.writeDeferred
  try dsimp only
  repeat' first
    | with_reducible assumption
    | with_reducible apply does_logNow (sub_trans hM)
    | with_reducible refine does_onSupply (sub_trans hM) ?_ ?_
    | exact fun k => k
    | exact fun _ => Nat.zero_le _

theorem does_intoOff {M : Nat} {s₀ : State} {s : State} (hM : Sub 0x1e620082 M) (hD : Does M s₀ s) :
    Does M s₀ (State.intoOff s) := by
  unfold State.intoOff
  try dsimp only
  repeat' first
    | with_reducible assumption
    | with_reducible apply does_abandonSave (sub_trans hM)
    | with_reducible apply does_latchCheck (sub_trans hM)
    | with_reducible refine does_onLog (sub_trans hM) ?_ ?_
    | with_reducible apply does_onPower (sub_trans hM)
    | with_reducible refine does_onSupply (sub_trans hM) ?_ ?_
    | with_reducible apply does_writeDeferred (sub_trans hM)
    | split
    | exact fun k => k

theorem does_replayLatched {M : Nat} {s₀ : State} {s : State} (hM : Sub 0x1610000 M) (hD : Does M s₀ s) :
    Does M s₀ (State.replayLatched s) := by
  unfold State.replayLatched
  try dsimp only
  repeat' first
    | with_reducible assumption
    | with_reducible refine does_onTether (sub_trans hM) ?_ ?_
    | with_reducible apply does_tetherQueue (sub_trans hM)
    | with_reducible apply does_beginExit (sub_trans hM)
    | split
    | exact fun k => k

theorem does_completeEntry {M : Nat} {s₀ : State} {s : State} {target : PwrMode} (hM : Sub 0x1f73ffba M) (hD : Does M s₀ s) :
    Does M s₀ (State.completeEntry s target) := by
  have h1 : Does M s₀ (s.entrySteps target) := does_entrySteps (sub_trans hM) hD
  unfold State.completeEntry
  generalize s.entrySteps target = t at h1 ⊢
  cases target
  all_goals
    dsimp only
    repeat' first
      | with_reducible assumption
      | with_reducible apply does_raise (sub_trans hM)
      | with_reducible apply does_intoOff (sub_trans hM)
      | with_reducible apply does_saveShutdown (sub_trans hM)
      | with_reducible apply does_recordPair (sub_trans hM)
      | with_reducible refine does_onSupply (sub_trans hM) ?_ ?_
      | with_reducible apply does_lookoutSleep (sub_trans hM)
      | with_reducible apply does_onPower (sub_trans hM)
      | with_reducible apply does_replayLatched (sub_trans hM)
      | split
      | exact fun k => k

end Sys2Proof.Laws
end

