-- ==== Sys2Proof/Laws/Wire.lean ====
section
/-! SUPPORT. What each operation and command of Machine/Wire.lean can touch, and that it keeps the invariants of the blocks. -/
set_option Elab.async false
namespace Sys2Proof.Laws
open Sys2Proof.Machine

theorem does_execLinkTrainingStart (m : Fin 16) (s : State) :
    ∃ t, execLinkTrainingStart m s = .next t ∧ Does 0x4000 s t := by
  have hM : Sub 0x4000 0x4000 := by decide
  have hD := does_refl 0x4000 s
  refine ⟨_, rfl, ?_⟩
  try dsimp only
  repeat' first
    | with_reducible assumption
    | with_reducible apply does_setMac (sub_trans hM)
    | split

theorem does_execLinkUp (m : Fin 16) (far : BitVec 4) (s : State) :
    ∃ t, execLinkUp m far s = .next t ∧ Does 0xe225082 s t := by
  have hM : Sub 0xe225082 0xe225082 := by decide
  have hD := does_refl 0xe225082 s
  refine ⟨_, rfl, ?_⟩
  try dsimp only
  repeat' first
    | with_reducible assumption
    | with_reducible apply does_instUp (sub_trans hM)
    | split

theorem does_execLinkTrainTimeout (m : Fin 16) (s : State) :
    ∃ t, execLinkTrainTimeout m s = .next t ∧ Does 0xe224082 s t := by
  have hM : Sub 0xe224082 0xe224082 := by decide
  have hD := does_refl 0xe224082 s
  refine ⟨_, rfl, ?_⟩
  try dsimp only
  repeat' first
    | with_reducible assumption
    | with_reducible apply does_setMac (sub_trans hM)
    | with_reducible apply does_raise (sub_trans hM)
    | split

theorem does_execLinkTrainRetry (m : Fin 16) (s : State) :
    ∃ t, execLinkTrainRetry m s = .next t ∧ Does 0x4000 s t := by
  have hM : Sub 0x4000 0x4000 := by decide
  have hD := does_refl 0x4000 s
  refine ⟨_, rfl, ?_⟩
  try dsimp only
  repeat' first
    | with_reducible assumption
    | with_reducible apply does_setMac (sub_trans hM)
    | split

theorem does_execLaneLoss (lane : Fin 16) (s : State) :
    ∃ t, execLaneLoss lane s = .next t ∧ Does 0xe225082 s t := by
  have hM : Sub 0xe225082 0xe225082 := by decide
  have hD := does_refl 0xe225082 s
  refine ⟨_, rfl, ?_⟩
  try dsimp only
  repeat' first
    | with_reducible assumption
    | with_reducible apply does_laneLost (sub_trans hM)
    | with_reducible apply does_setMac (sub_trans hM)
    | with_reducible apply does_instDown (sub_trans hM)
    | with_reducible apply does_raise (sub_trans hM)
    | with_reducible apply does_count (sub_trans hM)
    | split

theorem does_execRemoteFault (m : Fin 16) (s : State) :
    ∃ t, execRemoteFault m s = .next t ∧ Does 0xe225082 s t := by
  have hM : Sub 0xe225082 0xe225082 := by decide
  have hD := does_refl 0xe225082 s
  refine ⟨_, rfl, ?_⟩
  try dsimp only
  repeat' first
    | with_reducible assumption
    | with_reducible apply does_instDown (sub_trans hM)
    | split

theorem does_unpause {M : Nat} {s₀ : State} {s : State} {m c : Nat} (hM : Sub 0x5000 M) (hD : Does M s₀ s) :
    Does M s₀ (State.unpause s m c) := by
  unfold State.unpause
  try dsimp only
  repeat' first
    | with_reducible assumption
    | with_reducible apply does_setMac (sub_trans hM)
    | with_reducible apply does_wakeLink (sub_trans hM)
    | split

theorem does_pauseOne {M : Nat} {s₀ : State} {m : Nat} {s : State} {p : Nat × Nat} (hM : Sub 0x5000 M) (hD : Does M s₀ s) :
    Does M s₀ (State.pauseOne m s p) := by
  unfold State.pauseOne
  try dsimp only
  repeat' first
    | with_reducible assumption
    | with_reducible apply does_unpause (sub_trans hM)
    | with_reducible apply does_setMac (sub_trans hM)
    | split

theorem does_pauseRegister {M : Nat} {s₀ : State} {m : ℕ} {s : State} {l : List (ℕ × ℕ)} (hM : Sub 0xe225082 M) (hD : Does M s₀ s) :
    Does M s₀ (State.pauseRegister m s l) := by
  unfold State.pauseRegister
  try dsimp only
  repeat' first
    | with_reducible assumption
    | with_reducible apply does_wdCheck (sub_trans hM)
    | with_reducible apply does_pauseOne (sub_trans hM)
    | with_reducible apply does_count (sub_trans hM)
    | split
    | with_reducible refine does_foldl (fun x_ a_ hx_ => ?_) ?_

theorem does_execPauseEnd (m : Fin 16) (c : Fin 8) (s : State) :
    ∃ t, execPauseEnd m c s = .next t ∧ Does 0x5000 s t := by
  have hM : Sub 0x5000 0x5000 := by decide
  have hD := does_refl 0x5000 s
  refine ⟨_, rfl, ?_⟩
  try dsimp only
  repeat' first
    | with_reducible assumption
    | with_reducible apply does_unpause (sub_trans hM)
    | with_reducible apply does_settle (sub_trans hM)
    | split

theorem does_wdClose {M : Nat} {s₀ : State} {m : ℕ} {held : Bool} {s : State} {c : ℕ} (hM : Sub 0xe225082 M) (hD : Does M s₀ s) :
    Does M s₀ (State.wdClose m held s c) := by
  unfold State.wdClose
  try dsimp only
  repeat' first
    | with_reducible assumption
    | with_reducible apply does_countCls (sub_trans hM)
    | with_reducible apply does_setMac (sub_trans hM)
    | with_reducible apply does_unpause (sub_trans hM)
    | with_reducible apply does_settle (sub_trans hM)
    | with_reducible apply does_raise (sub_trans hM)
    | split

theorem does_wdCloses {M : Nat} {s₀ : State} {s : State} {m : ℕ} (hM : Sub 0xe225082 M) (hD : Does M s₀ s) :
    Does M s₀ (State.wdCloses s m) := by
  unfold State.wdCloses
  try dsimp only
  repeat' first
    | with_reducible assumption
    | with_reducible apply does_wdClose (sub_trans hM)
    | split
    | with_reducible refine does_foldl (fun x_ a_ hx_ => ?_) ?_

theorem does_execPauseWdExpiry (m : Fin 16) (c : Fin 8) (s : State) :
    ∃ t, execPauseWdExpiry m c s = .next t ∧ Does 0xe225082 s t := by
  have hM : Sub 0xe225082 0xe225082 := by decide
  have hD := does_refl 0xe225082 s
  refine ⟨_, rfl, ?_⟩
  try dsimp only
  repeat' first
    | with_reducible assumption
    | with_reducible apply does_wdCloses (sub_trans hM)
    | with_reducible apply does_countCls (sub_trans hM)
    | with_reducible apply does_unpause (sub_trans hM)
    | with_reducible apply does_settle (sub_trans hM)
    | with_reducible apply does_raise (sub_trans hM)
    | with_reducible apply does_setMac (sub_trans hM)
    | split

theorem does_execPauseRegister (m : Fin 16) (s : State) :
    ∃ t, execPauseRegister m s = .next t ∧ Does 0xe225082 s t := by
  have hM : Sub 0xe225082 0xe225082 := by decide
  have hD := does_refl 0xe225082 s
  refine ⟨_, rfl, ?_⟩
  try dsimp only
  repeat' first
    | with_reducible assumption
    | with_reducible apply does_wdCloses (sub_trans hM)
    | with_reducible apply does_pauseRegister (sub_trans hM)
    | with_reducible apply does_setMac (sub_trans hM)
    | with_reducible apply does_settle (sub_trans hM)
    | with_reducible apply does_count (sub_trans hM)
    | with_reducible apply does_pauseOne (sub_trans hM)
    | with_reducible apply does_wdCheck (sub_trans hM)
    | split
    | with_reducible refine does_foldl (fun x_ a_ hx_ => ?_) ?_

theorem does_rearm {M : Nat} {s₀ : State} {s : State} {m : Nat} (hM : Sub 0xe224082 M) (hD : Does M s₀ s) :
    Does M s₀ (State.rearm s m) := by
  unfold State.rearm
  try dsimp only
  repeat' first
    | with_reducible assumption
    | with_reducible apply does_raise (sub_trans hM)
    | with_reducible apply does_setMac (sub_trans hM)

theorem does_execFcWdRearm (m : Fin 16) (s : State) :
    ∃ t, execFcWdRearm m s = .next t ∧ Does 0xf674082 s t := by
  have hM : Sub 0xf674082 0xf674082 := by decide
  have hD := does_refl 0xf674082 s
  refine ⟨_, rfl, ?_⟩
  try dsimp only
  repeat' first
    | with_reducible assumption
    | with_reducible apply does_takeIn (sub_trans hM)
    | with_reducible apply does_hold (sub_trans hM)
    | with_reducible apply does_arrives (sub_trans hM)
    | with_reducible apply does_rearm (sub_trans hM)
    | split

theorem does_ctrlOut {M : Nat} {s₀ : State} {s : State} {m : Nat} {bytes : Bytes} {rest : List CtrlFrame} (hM : Sub 0xe225082 M) (hD : Does M s₀ s) :
    Does M s₀ (State.ctrlOut s m bytes rest) := by
  unfold State.ctrlOut
  try dsimp only
  repeat' first
    | with_reducible assumption
    | with_reducible apply does_wireUse (sub_trans hM)
    | with_reducible apply does_setSch (sub_trans hM)
    | with_reducible apply does_emit (sub_trans hM)
    | with_reducible apply does_endLpi (sub_trans hM)

theorem does_execControlFrameSend (m : Fin 16) (s : State) :
    ∃ t, execControlFrameSend m s = .next t ∧ Does 0xe225082 s t := by
  have hM : Sub 0xe225082 0xe225082 := by decide
  have hD := does_refl 0xe225082 s
  refine ⟨_, rfl, ?_⟩
  try dsimp only
  repeat' first
    | with_reducible assumption
    | with_reducible apply does_count (sub_trans hM)
    | with_reducible apply does_ctrlOut (sub_trans hM)
    | with_reducible apply does_countCls (sub_trans hM)
    | split
    | with_reducible refine does_foldl (fun x_ a_ hx_ => ?_) ?_

theorem does_execPfcRefresh (m : Fin 16) (c : Fin 8) (s : State) :
    ∃ t, execPfcRefresh m c s = .next t ∧ Does 0x5000 s t := by
  have hM : Sub 0x5000 0x5000 := by decide
  have hD := does_refl 0x5000 s
  refine ⟨_, rfl, ?_⟩
  try dsimp only
  repeat' first
    | with_reducible assumption
    | with_reducible apply does_queueCtrl (sub_trans hM)
    | split

theorem does_execPauseRefresh (m : Fin 16) (s : State) :
    ∃ t, execPauseRefresh m s = .next t ∧ Does 0x5000 s t := by
  have hM : Sub 0x5000 0x5000 := by decide
  have hD := does_refl 0x5000 s
  refine ⟨_, rfl, ?_⟩
  try dsimp only
  repeat' first
    | with_reducible assumption
    | with_reducible apply does_queueCtrl (sub_trans hM)
    | split

theorem does_execLldpSend (m : Fin 16) (s : State) :
    ∃ t, execLldpSend m s = .next t ∧ Does 0x5000 s t := by
  have hM : Sub 0x5000 0x5000 := by decide
  have hD := does_refl 0x5000 s
  refine ⟨_, rfl, ?_⟩
  try dsimp only
  repeat' first
    | with_reducible assumption
    | with_reducible apply does_queueCtrl (sub_trans hM)
    | split

theorem does_watchMatch {M : Nat} {s₀ : State} {s : State} {p : Nat} {pat : Option Nat} {magic : Bool} (hM : Sub 0xf630082 M) (hD : Does M s₀ s) :
    Does M s₀ (State.watchMatch s p pat magic) := by
  unfold State.watchMatch
  try dsimp only
  repeat' first
    | with_reducible assumption
    | with_reducible apply does_raise (sub_trans hM)
    | with_reducible apply does_setWatchLane (sub_trans hM)
    | with_reducible apply does_count (sub_trans hM)
    | with_reducible apply does_registerWake (sub_trans hM)
    | split

theorem does_execWatchFrame (p : Fin 2) (frame : RxFrame) (s : State) :
    ∃ t, execWatchFrame p frame s = .next t ∧ Does 0xf630082 s t := by
  have hM : Sub 0xf630082 0xf630082 := by decide
  have hD := does_refl 0xf630082 s
  refine ⟨_, rfl, ?_⟩
  try dsimp only
  repeat' first
    | with_reducible assumption
    | with_reducible apply does_uses (sub_trans hM)
    | with_reducible apply does_count (sub_trans hM)
    | with_reducible apply does_watchMatch (sub_trans hM)
    | split

theorem does_execWatchLinkUp (p : Fin 2) (s : State) :
    ∃ t, execWatchLinkUp p s = .next t ∧ Does 0x10000 s t := by
  have hM : Sub 0x10000 0x10000 := by decide
  have hD := does_refl 0x10000 s
  refine ⟨_, rfl, ?_⟩
  try dsimp only
  repeat' first
    | with_reducible assumption
    | with_reducible apply does_setWatchLane (sub_trans hM)
    | split

theorem does_execWatchLinkFail (p : Fin 2) (s : State) :
    ∃ t, execWatchLinkFail p s = .next t ∧ Does 0xe230082 s t := by
  have hM : Sub 0xe230082 0xe230082 := by decide
  have hD := does_refl 0xe230082 s
  refine ⟨_, rfl, ?_⟩
  try dsimp only
  repeat' first
    | with_reducible assumption
    | with_reducible apply does_raise (sub_trans hM)
    | with_reducible apply does_setWatchLane (sub_trans hM)
    | split

theorem does_execCageInserted (p : Fin 2) (maxPower : BitVec 8) (copper : Bool) (s : State) :
    ∃ t, execCageInserted p maxPower copper s = .next t ∧ Does 0xe228082 s t := by
  have hM : Sub 0xe228082 0xe228082 := by decide
  have hD := does_refl 0xe228082 s
  refine ⟨_, rfl, ?_⟩
  try dsimp only
  repeat' first
    | with_reducible assumption
    | with_reducible apply does_raise (sub_trans hM)
    | with_reducible apply does_setCage (sub_trans hM)
    | with_reducible apply does_powerCheck (sub_trans hM)
    | split

theorem does_execCageRemoved (p : Fin 2) (s : State) :
    ∃ t, execCageRemoved p s = .next t ∧ Does 0xe22d082 s t := by
  have hM : Sub 0xe22d082 0xe22d082 := by decide
  have hD := does_refl 0xe22d082 s
  refine ⟨_, rfl, ?_⟩
  try dsimp only
  repeat' first
    | with_reducible assumption
    | with_reducible apply does_lanesFail (sub_trans hM)
    | with_reducible apply does_raise (sub_trans hM)
    | with_reducible apply does_setCage (sub_trans hM)
    | with_reducible apply does_portDown (sub_trans hM)
    | split

theorem does_execCageReset (p : Fin 2) (s : State) :
    ∃ t, execCageReset p s = .next t ∧ Does 0x1618001 s t := by
  have hM : Sub 0x1618001 0x1618001 := by decide
  have hD := does_refl 0x1618001 s
  refine ⟨_, rfl, ?_⟩
  try dsimp only
  repeat' first
    | with_reducible assumption
    | with_reducible apply does_wrote (sub_trans hM)
    | with_reducible apply does_arrives (sub_trans hM)
    | with_reducible apply does_setCage (sub_trans hM)
    | with_reducible apply does_endIdle (sub_trans hM)
    | split

theorem does_execCageResetDone (p : Fin 2) (maxPower : BitVec 8) (copper : Bool) (s : State) :
    ∃ t, execCageResetDone p maxPower copper s = .next t ∧ Does 0xe228082 s t := by
  have hM : Sub 0xe228082 0xe228082 := by decide
  have hD := does_refl 0xe228082 s
  refine ⟨_, rfl, ?_⟩
  try dsimp only
  repeat' first
    | with_reducible assumption
    | with_reducible apply does_powerCheck (sub_trans hM)
    | with_reducible apply does_setCage (sub_trans hM)
    | split

theorem does_execCageReenable (p : Fin 2) (s : State) :
    ∃ t, execCageReenable p s = .next t ∧ Does 0xf638083 s t := by
  have hM : Sub 0xf638083 0xf638083 := by decide
  have hD := does_refl 0xf638083 s
  refine ⟨_, rfl, ?_⟩
  try dsimp only
  repeat' first
    | with_reducible assumption
    | with_reducible apply does_wrote (sub_trans hM)
    | with_reducible apply does_arrives (sub_trans hM)
    | with_reducible apply does_endIdle (sub_trans hM)
    | with_reducible apply does_setCage (sub_trans hM)
    | with_reducible apply does_powerCheck (sub_trans hM)
    | split

theorem does_execCageFault (p : Fin 2) (s : State) :
    ∃ t, execCageFault p s = .next t ∧ Does 0xe22d082 s t := by
  have hM : Sub 0xe22d082 0xe22d082 := by decide
  have hD := does_refl 0xe22d082 s
  refine ⟨_, rfl, ?_⟩
  try dsimp only
  repeat' first
    | with_reducible assumption
    | with_reducible apply does_lanesFail (sub_trans hM)
    | with_reducible apply does_raise (sub_trans hM)
    | with_reducible apply does_setCage (sub_trans hM)
    | with_reducible apply does_portDown (sub_trans hM)
    | split

theorem does_execModulePoll (p : Fin 2) (flags : BitVec 8) (s : State) :
    ∃ t, execModulePoll p flags s = .next t ∧ Does 0xe220082 s t := by
  have hM : Sub 0xe220082 0xe220082 := by decide
  have hD := does_refl 0xe220082 s
  refine ⟨_, rfl, ?_⟩
  try dsimp only
  repeat' first
    | with_reducible assumption
    | with_reducible apply does_raiseOnce (sub_trans hM)
    | split

theorem does_execCageMirrorCopy (p : Fin 2) (data : Bytes) (s : State) :
    ∃ t, execCageMirrorCopy p data s = .next t ∧ Does 0x8000 s t := by
  have hM : Sub 0x8000 0x8000 := by decide
  have hD := does_refl 0x8000 s
  refine ⟨_, rfl, ?_⟩
  try dsimp only
  repeat' first
    | with_reducible assumption
    | with_reducible apply does_setCage (sub_trans hM)
    | split

end Sys2Proof.Laws
end

