-- ==== Sys2Proof/Laws/Tally.lean ====
section
/-! SUPPORT. What each operation and command of Machine/Tally.lean can touch, and that it keeps the invariants of the blocks. -/
set_option Elab.async false
namespace Sys2Proof.Laws
open Sys2Proof.Machine

theorem does_tallyAnswer {M : Nat} {s₀ : State} {s : State} {n : ℕ} {v : ℕ} (hM : Sub 0x8000002 M) (hD : Does M s₀ s) :
    Does M s₀ (State.tallyAnswer s n v) := by
  unfold State.tallyAnswer
  try dsimp only
  repeat' first
    | with_reducible assumption
    | with_reducible apply does_setOf (sub_trans hM)
    | with_reducible apply does_emit (sub_trans hM)

theorem does_tallyRead {M : Nat} {s₀ : State} {s : State} {n : Nat} (hM : Sub 0x8000002 M) (hD : Does M s₀ s) :
    Does M s₀ (State.tallyRead s n) := by
  unfold State.tallyRead
  try dsimp only
  repeat' first
    | with_reducible assumption
    | with_reducible apply does_tallyAnswer (sub_trans hM)

theorem does_queueRead {M : Nat} {s₀ : State} {s : State} {n : Nat} (hM : Sub 0x40000 M) (hD : Does M s₀ s) :
    Does M s₀ (State.queueRead s n) := by
  unfold State.queueRead
  try dsimp only
  repeat' first
    | with_reducible assumption
    | ((with_reducible refine does_onPair (sub_trans hM) ?_ ?_); focus (unfold PairSt.acts; with_reducible rfl))

theorem does_answerReads {M : Nat} {s₀ : State} {s : State} (hM : Sub 0x8040002 M) (hD : Does M s₀ s) :
    Does M s₀ (State.answerReads s) := by
  unfold State.answerReads
  try dsimp only
  repeat' first
    | with_reducible assumption
    | with_reducible apply does_tallyAnswer (sub_trans hM)
    | with_reducible apply does_tallyRead (sub_trans hM)
    | ((with_reducible refine does_onPair (sub_trans hM) ?_ ?_); focus (unfold PairSt.acts; with_reducible rfl))
    | with_reducible refine does_foldl (fun x_ a_ hx_ => ?_) ?_

theorem does_execTallyRead (of : Fin 4) (s : State) :
    ∃ t, execTallyRead of s = .next t ∧ Does 0x9650002 s t := by
  have hM : Sub 0x9650002 0x9650002 := by decide
  have hD := does_refl 0x9650002 s
  refine ⟨_, rfl, ?_⟩
  try dsimp only
  repeat' first
    | with_reducible assumption
    | with_reducible apply does_partnerWake (sub_trans hM)
    | with_reducible apply does_registerWake (sub_trans hM)
    | with_reducible apply does_queueRead (sub_trans hM)
    | with_reducible apply does_emit (sub_trans hM)
    | with_reducible apply does_tallyRead (sub_trans hM)
    | with_reducible apply does_endIdle (sub_trans hM)
    | split

theorem does_snapStart {M : Nat} {s₀ : State} {s : State} {n : ℕ} {set : ℕ} {seq : ℕ} {shot : Snapshot} (hM : Sub 0x2 M) (hD : Does M s₀ s) :
    Does M s₀ (State.snapStart s n set seq shot) := by
  unfold State.snapStart
  try dsimp only
  repeat' first
    | with_reducible assumption
    | with_reducible apply does_setOf (sub_trans hM)
    | split

theorem does_snapTrigger {M : Nat} {s₀ : State} {s : State} {n set seq : Nat} (hM : Sub 0x2 M) (hD : Does M s₀ s) :
    Does M s₀ (State.snapTrigger s n set seq) := by
  unfold State.snapTrigger
  try dsimp only
  repeat' first
    | with_reducible assumption
    | with_reducible apply does_snapStart (sub_trans hM)

theorem does_execSnapshotTrigger (of : Fin 4) (set : BitVec 4) (seq : BitVec 16) (s : State) :
    ∃ t, execSnapshotTrigger of set seq s = .next t ∧ Does 0xf670082 s t := by
  have hM : Sub 0xf670082 0xf670082 := by decide
  have hD := does_refl 0xf670082 s
  refine ⟨_, rfl, ?_⟩
  try dsimp only
  repeat' first
    | with_reducible assumption
    | with_reducible apply does_takeIn (sub_trans hM)
    | with_reducible apply does_partnerWake (sub_trans hM)
    | with_reducible apply does_hold (sub_trans hM)
    | with_reducible apply does_endIdle (sub_trans hM)
    | with_reducible apply does_snapTrigger (sub_trans hM)
    | split

theorem does_snapDone {M : Nat} {s₀ : State} {s : State} {n : Nat} (hM : Sub 0xe220082 M) (hD : Does M s₀ s) :
    Does M s₀ (State.snapDone s n) := by
  unfold State.snapDone
  try dsimp only
  repeat' first
    | with_reducible assumption
    | with_reducible apply does_dmaUse (sub_trans hM)
    | with_reducible apply does_emit (sub_trans hM)
    | with_reducible apply does_raise (sub_trans hM)
    | with_reducible apply does_setOf (sub_trans hM)
    | split

theorem does_execTallySnapshot (of : Fin 4) (s : State) :
    ∃ t, execTallySnapshot of s = .next t ∧ Does 0xe220082 s t := by
  have hM : Sub 0xe220082 0xe220082 := by decide
  have hD := does_refl 0xe220082 s
  refine ⟨_, rfl, ?_⟩
  try dsimp only
  repeat' first
    | with_reducible assumption
    | with_reducible apply does_snapDone (sub_trans hM)
    | split

theorem does_mirrorCross {M : Nat} {s₀ : State} {s : State} {e : ℕ × ℕ × Bool} (hM : Sub 0xe220082 M) (hD : Does M s₀ s) :
    Does M s₀ (State.mirrorCross s e) := by
  unfold State.mirrorCross
  try dsimp only
  repeat' first
    | with_reducible assumption
    | ((with_reducible refine does_onTally (sub_trans hM) ?_ ?_); focus (first | exact fun k => k | exact fun k => ⟨k.count, k.base, k.mirror⟩))
    | with_reducible apply does_raise (sub_trans hM)

theorem tallyOk_mirrored {t : TallySt} (h : TallyOk t) (j u : Nat) : TallyOk (t.mirrored j u) := by
  refine ⟨h.count, h.base, ?_⟩
  have hf (l c : List (Nat × Nat)) (hl : ∀ e ∈ l, e.2 < 2 ^ 48) (hc : ∀ e ∈ c, e.2 < 2 ^ 48) :
      ∀ e ∈ l.foldl (fun m e => tput m e.1 e.2) c, e.2 < 2 ^ 48 := by
    induction l generalizing c with
    | nil => exact hc
    | cons a r ih => exact ih _ (fun e he => hl e (by simp [he])) (mem_tput hc (hl a (by simp)))
  unfold TallySt.mirrored
  dsimp only
  split
  · exact hf _ _ h.base h.count
  · exact h.count

theorem does_mirrorNow {M : Nat} {s₀ : State} {s : State} (hM : Sub 0xe220082 M) (hD : Does M s₀ s) :
    Does M s₀ (State.mirrorNow s) := by
  unfold State.mirrorNow
  refine does_foldl (fun x a hx => does_mirrorCross (sub_trans hM) hx) ?_
  exact does_onTally (sub_trans hM) (fun k => tallyOk_mirrored k _ _) hD

theorem does_mirrorBoundary {M : Nat} {s₀ : State} {s : State} (hM : Sub 0xe220082 M) (hD : Does M s₀ s) :
    Does M s₀ (State.mirrorBoundary s) := by
  unfold State.mirrorBoundary
  try dsimp only
  repeat' first
    | with_reducible assumption
    | with_reducible apply does_mirrorNow (sub_trans hM)
    | with_reducible apply does_mirrorCross (sub_trans hM)
    | with_reducible refine does_onTally (sub_trans hM) ?_ ?_
    | split

theorem does_execMirrorBoundary (s : State) :
    ∃ t, execMirrorBoundary s = .next t ∧ Does 0xe220082 s t := by
  have hM : Sub 0xe220082 0xe220082 := by decide
  have hD := does_refl 0xe220082 s
  refine ⟨_, rfl, ?_⟩
  try dsimp only
  repeat' first
    | with_reducible assumption
    | with_reducible apply does_mirrorBoundary (sub_trans hM)

theorem does_addEnergy {M : Nat} {s₀ : State} {s : State} {c : Ctr} {obj units : Nat} (hM : Sub 0xe220082 M) (hD : Does M s₀ s) :
    Does M s₀ (State.addEnergy s c obj units) := by
  unfold State.addEnergy
  try dsimp only
  repeat' first
    | with_reducible assumption
    | with_reducible refine does_onTally (sub_trans hM) ?_ ?_
    | with_reducible apply does_countN (sub_trans hM)
    | split
    | exact fun k => ⟨k.count, k.base, k.mirror⟩

theorem tallyOk_foldl {α : Type} {f : TallySt → α → TallySt} (hf : ∀ t a, TallyOk t → TallyOk (f t a)) (l : List α) {t : TallySt}
    (h : TallyOk t) : TallyOk (l.foldl f t) := by
  induction l generalizing t with
  | nil => exact h
  | cons a r ih => exact ih (hf t a h)

theorem does_attribute {M : Nat} {s₀ : State} {s : State} {w : List ℕ} (hM : Sub 0xe220082 M) (hD : Does M s₀ s) :
    Does M s₀ (State.attribute s w) := by
  unfold State.attribute
  try dsimp only
  repeat' first
    | with_reducible assumption
    | with_reducible apply does_addEnergy (sub_trans hM)
    | split
    | with_reducible refine does_foldl (fun x_ a_ hx_ => ?_) ?_

theorem does_closeWindow {M : Nat} {s₀ : State} {s : State} {w : List ℕ} (hM : Sub 0x20000 M) (hD : Does M s₀ s) :
    Does M s₀ (State.closeWindow s w) := by
  unfold State.closeWindow
  try dsimp only
  repeat' first
    | with_reducible assumption
    | ((with_reducible refine does_onTally (sub_trans hM) ?_ ?_); focus (first | exact fun k => k | exact fun k => ⟨k.count, k.base, k.mirror⟩))

theorem does_execEnergyWindow (measured : List ℕ) (s : State) :
    ∃ t, execEnergyWindow measured s = .next t ∧ Does 0xe220082 s t := by
  have hM : Sub 0xe220082 0xe220082 := by decide
  have hD := does_refl 0xe220082 s
  refine ⟨_, rfl, ?_⟩
  try dsimp only
  repeat' first
    | with_reducible assumption
    | with_reducible apply does_closeWindow (sub_trans hM)
    | ((with_reducible refine does_onTally (sub_trans hM) ?_ ?_); focus (first | exact fun k => k | exact fun k => ⟨k.count, k.base, k.mirror⟩))
    | with_reducible apply does_count (sub_trans hM)
    | with_reducible apply does_addEnergy (sub_trans hM)
    | with_reducible apply does_attribute (sub_trans hM)
    | split

end Sys2Proof.Laws
end

