-- ==== Sys2Proof/Laws/PairCmds.lean ====
section
/-! SUPPORT. What each operation and command of Machine/PairCmds.lean can touch, and that it keeps the invariants of the blocks. -/
set_option Elab.async false
namespace Sys2Proof.Laws
open Sys2Proof.Machine

theorem does_engWrite {M : Nat} {s₀ : State} {s : State} {n off v : Nat} (hM : Sub 0xe327f83 M) (hD : Does M s₀ s) :
    Does M s₀ (State.engWrite s n off v) := by
  unfold State.engWrite
  try dsimp only
  repeat' first
    | with_reducible assumption
    | with_reducible apply does_flowCmd (sub_trans hM)
    | with_reducible apply does_recordPut (sub_trans hM)
    | with_reducible apply does_fnCmd (sub_trans hM)
    | ((with_reducible refine does_onSetup (sub_trans hM) ?_ ?_); focus (first | exact fun k => k | exact setupOk_of_active rfl))
    | with_reducible apply does_setChan (sub_trans hM)
    | with_reducible apply does_setOf (sub_trans hM)
    | with_reducible apply does_snapTrigger (sub_trans hM)
    | with_reducible apply does_rearm (sub_trans hM)
    | with_reducible apply does_lpiTwWrite (sub_trans hM)
    | split

theorem does_deliver {M : Nat} {s₀ : State} {s : State} {x : HeldTx} (hM : Sub 0xe367f83 M) (hD : Does M s₀ s) :
    Does M s₀ (State.deliver s x) := by
  unfold State.deliver
  try dsimp only
  repeat' first
    | with_reducible assumption
    | with_reducible apply does_recordUse (sub_trans hM)
    | with_reducible apply does_engWrite (sub_trans hM)
    | with_reducible apply does_mbxRun (sub_trans hM)
    | with_reducible apply does_snapStart (sub_trans hM)
    | with_reducible apply does_recordPut (sub_trans hM)
    | with_reducible apply does_dbRun (sub_trans hM)
    | ((with_reducible refine does_onPair (sub_trans hM) ?_ ?_); focus (unfold PairSt.acts; with_reducible rfl))
    | split

theorem does_deliverHeld {M : Nat} {s₀ : State} {s : State} (hM : Sub 0xe367f83 M) (hD : Does M s₀ s) :
    Does M s₀ (State.deliverHeld s) := by
  unfold State.deliverHeld
  try dsimp only
  repeat' first
    | with_reducible assumption
    | with_reducible apply does_answerReads (sub_trans hM)
    | with_reducible apply does_deliver (sub_trans hM)
    | ((with_reducible refine does_onPair (sub_trans hM) ?_ ?_); focus (unfold PairSt.acts; with_reducible rfl))
    | with_reducible refine does_foldl (fun x_ a_ hx_ => ?_) ?_
    | with_reducible refine does_foldl_pair (fun x_ a_ hx_ => ?_) ?_
    | split

theorem does_deliverFrame {M : Nat} {s₀ : State} {drop : Option Ctr} {t0 : ℕ} {s : State} {x : HeldFrame} (hM : Sub 0x1e267682 M) (hD : Does M s₀ s) :
    Does M s₀ (State.deliverFrame drop t0 s x) := by
  unfold State.deliverFrame
  try dsimp only
  repeat' first
    | with_reducible assumption
    | with_reducible apply does_rxFrame (sub_trans hM)
    | ((with_reducible refine does_onPair (sub_trans hM) ?_ ?_); focus (unfold PairSt.acts; with_reducible rfl))
    | with_reducible apply does_count (sub_trans hM)
    | split

theorem does_deliverFrames {M : Nat} {s₀ : State} {s : State} {drop : Option Ctr} (hM : Sub 0x1e267682 M) (hD : Does M s₀ s) :
    Does M s₀ (State.deliverFrames s drop) := by
  unfold State.deliverFrames
  try dsimp only
  repeat' first
    | with_reducible assumption
    | with_reducible apply does_deliverFrame (sub_trans hM)
    | with_reducible apply does_countN (sub_trans hM)
    | ((with_reducible refine does_onPair (sub_trans hM) ?_ ?_); focus (unfold PairSt.acts; with_reducible rfl))
    | split
    | with_reducible refine does_foldl (fun x_ a_ hx_ => ?_) ?_

theorem does_releaseCommit {M : Nat} {s₀ : State} {s : State} (hM : Sub 0x1 M) (hD : Does M s₀ s) :
    Does M s₀ (State.releaseCommit s) := by
  unfold State.releaseCommit
  try dsimp only
  repeat' first
    | with_reducible assumption
    | with_reducible refine does_onSetup (sub_trans hM) ?_ ?_
    | split
    | exact fun k => k

theorem does_dueSwap {M : Nat} {s₀ : State} {s : State} (hM : Sub 0x1f2e1383 M) (hD : Does M s₀ s) :
    Does M s₀ (State.dueSwap s) := by
  unfold State.dueSwap
  try dsimp only
  repeat' first
    | with_reducible assumption
    | with_reducible apply does_startHandover (sub_trans hM)
    | ((with_reducible refine does_onPair (sub_trans hM) ?_ ?_); focus (unfold PairSt.acts; with_reducible rfl))
    | with_reducible refine does_onPairActs (sub_trans hM) ?_
    | split

theorem does_released {M : Nat} {s₀ : State} {s : State} (hM : Sub 0x1e367f83 M) (hD : Does M s₀ s) :
    Does M s₀ (State.released s) := by
  unfold State.released
  try dsimp only
  repeat' first
    | with_reducible assumption
    | with_reducible apply does_deliverFrames (sub_trans hM)
    | with_reducible apply does_deliverHeld (sub_trans hM)
    | split

theorem does_pairSettled {M : Nat} {s₀ : State} {s : State} (hM : Sub 0x1f7f7f83 M) (hD : Does M s₀ s) :
    Does M s₀ (State.pairSettled s) := by
  unfold State.pairSettled
  try dsimp only
  repeat' first
    | with_reducible assumption
    | with_reducible apply does_released (sub_trans hM)
    | with_reducible apply does_dueSwap (sub_trans hM)
    | with_reducible apply does_resumeEntry (sub_trans hM)
    | with_reducible apply does_releaseCommit (sub_trans hM)
    | with_reducible apply does_deliverHeld (sub_trans hM)
    | split

theorem does_handoverEnds {M : Nat} {s₀ : State} {s : State} {h : Handover} (hM : Sub 0xf2e0082 M) (hD : Does M s₀ s) :
    Does M s₀ (State.handoverEnds s h) := by
  unfold State.handoverEnds
  try dsimp only
  repeat' first
    | with_reducible assumption
    | ((with_reducible refine does_onPair (sub_trans hM) ?_ ?_); focus (unfold PairSt.acts; with_reducible rfl))
    | with_reducible refine does_onPairActs (sub_trans hM) ?_
    | with_reducible apply does_setEng (sub_trans hM)
    | with_reducible apply does_announce (sub_trans hM)
    | with_reducible apply does_raise (sub_trans hM)
    | with_reducible apply does_count (sub_trans hM)
    | split

theorem does_execLockstepHandoverEnd (s : State) :
    ∃ t, execLockstepHandoverEnd s = .next t ∧ Does 0x1f7f7f83 s t := by
  have hM : Sub 0x1f7f7f83 0x1f7f7f83 := by decide
  have hD := does_refl 0x1f7f7f83 s
  refine ⟨_, rfl, ?_⟩
  try dsimp only
  repeat' first
    | with_reducible assumption
    | with_reducible apply does_freeLevels (sub_trans hM)
    | with_reducible apply does_pairSettled (sub_trans hM)
    | with_reducible apply does_handoverEnds (sub_trans hM)
    | split

theorem does_drainEnds {M : Nat} {s₀ : State} {s : State} {h : Handover} (hM : Sub 0xe2e7682 M) (hD : Does M s₀ s) :
    Does M s₀ (State.drainEnds s h) := by
  unfold State.drainEnds
  try dsimp only
  repeat' first
    | with_reducible assumption
    | with_reducible apply does_rxAdvance (sub_trans hM)
    | with_reducible apply does_onRx (sub_trans hM)
    | with_reducible apply does_countN (sub_trans hM)
    | with_reducible apply does_cqRelease (sub_trans hM)
    | ((with_reducible refine does_onPair (sub_trans hM) ?_ ?_); focus (unfold PairSt.acts; with_reducible rfl))
    | with_reducible refine does_onPairActs (sub_trans hM) ?_
    | with_reducible apply does_flowAll (sub_trans hM)
    | with_reducible apply does_onHamper (sub_trans hM)
    | split
    | with_reducible refine does_foldl (fun x_ a_ hx_ => ?_) ?_

theorem does_execDrainEnd (s : State) :
    ∃ t, execDrainEnd s = .next t ∧ Does 0xe2e7682 s t := by
  have hM : Sub 0xe2e7682 0xe2e7682 := by decide
  have hD := does_refl 0xe2e7682 s
  refine ⟨_, rfl, ?_⟩
  try dsimp only
  repeat' first
    | with_reducible assumption
    | with_reducible apply does_drainEnds (sub_trans hM)
    | split

theorem does_takeOver {M : Nat} {s₀ : State} {s : State} (hM : Sub 0x803f80 M) (hD : Does M s₀ s) :
    Does M s₀ (State.takeOver s) := by
  unfold State.takeOver
  try dsimp only
  repeat' first
    | with_reducible assumption
    | with_reducible apply does_onHamper (sub_trans hM)
    | with_reducible apply does_onCq (sub_trans hM)
    | with_reducible apply does_onRx (sub_trans hM)
    | with_reducible apply does_onTx (sub_trans hM)
    | with_reducible apply does_onHost (sub_trans hM)
    | with_reducible apply does_onSched (sub_trans hM)
    | with_reducible apply does_zeroCredits (sub_trans hM)
    | with_reducible apply does_setFn (sub_trans hM)
    | with_reducible apply does_setKnob (sub_trans hM)
    | split
    | with_reducible refine does_foldl (fun x_ a_ hx_ => ?_) ?_

theorem does_pausesMissed {M : Nat} {s₀ : State} {t0 : ℕ} {s : State} {m : ℕ} (hM : Sub 0x10004000 M) (hD : Does M s₀ s) :
    Does M s₀ (State.pausesMissed t0 s m) := by
  unfold State.pausesMissed
  try dsimp only
  repeat' first
    | with_reducible assumption
    | with_reducible apply does_setMac (sub_trans hM)
    | with_reducible apply does_useFree (sub_trans hM)

theorem does_warmRest {M : Nat} {s₀ : State} {s : State} {e : Eng} (hM : Sub 0x400000 M) (hD : Does M s₀ s) :
    Does M s₀ (State.warmRest s e) := by
  unfold State.warmRest
  try dsimp only
  repeat' first
    | with_reducible assumption
    | with_reducible apply does_islandsTo (sub_trans hM)

theorem does_warmWake {M : Nat} {s₀ : State} {s : State} {e : Eng} (hM : Sub 0x400000 M) (hD : Does M s₀ s) :
    Does M s₀ (State.warmWake s e) := by
  unfold State.warmWake
  try dsimp only
  repeat' first
    | with_reducible assumption
    | with_reducible apply does_islandsTo (sub_trans hM)

theorem does_execWarmHandoverEnd (s : State) :
    ∃ t, execWarmHandoverEnd s = .next t ∧ Does 0x1fff7f83 s t := by
  have hM : Sub 0x1fff7f83 0x1fff7f83 := by decide
  have hD := does_refl 0x1fff7f83 s
  refine ⟨_, rfl, ?_⟩
  try dsimp only
  repeat' first
    | with_reducible assumption
    | with_reducible apply does_pairSettled (sub_trans hM)
    | with_reducible apply does_takeOver (sub_trans hM)
    | with_reducible apply does_pausesMissed (sub_trans hM)
    | with_reducible apply does_warmRest (sub_trans hM)
    | with_reducible apply does_handoverEnds (sub_trans hM)
    | with_reducible apply does_warmWake (sub_trans hM)
    | with_reducible apply does_deliverFrames (sub_trans hM)
    | split
    | with_reducible refine does_foldl (fun x_ a_ hx_ => ?_) ?_

theorem does_execRelinquish (e : Eng) (s : State) :
    ∃ t, execRelinquish e s = .next t ∧ Does 0x1f7f7fb3 s t := by
  have hM : Sub 0x1f7f7fb3 0x1f7f7fb3 := by decide
  have hD := does_refl 0x1f7f7fb3 s
  refine ⟨_, rfl, ?_⟩
  try dsimp only
  repeat' first
    | with_reducible assumption
    | with_reducible apply does_pairSettled (sub_trans hM)
    | with_reducible apply does_engineFault (sub_trans hM)

theorem does_execHeartbeatMiss (e : Eng) (s : State) :
    ∃ t, execHeartbeatMiss e s = .next t ∧ Does 0x1f7f7fb3 s t := by
  have hM : Sub 0x1f7f7fb3 0x1f7f7fb3 := by decide
  have hD := does_refl 0x1f7f7fb3 s
  refine ⟨_, rfl, ?_⟩
  try dsimp only
  repeat' first
    | with_reducible assumption
    | with_reducible apply does_pairSettled (sub_trans hM)
    | with_reducible apply does_engineFault (sub_trans hM)
    | with_reducible apply does_count (sub_trans hM)
    | split

theorem does_execJunctionFault (s : State) :
    ∃ t, execJunctionFault s = .next t ∧ Does 0xf2e7fb2 s t := by
  have hM : Sub 0xf2e7fb2 0xf2e7fb2 := by decide
  have hD := does_refl 0xf2e7fb2 s
  refine ⟨_, rfl, ?_⟩
  try dsimp only
  repeat' first
    | with_reducible assumption
    | with_reducible apply does_fence (sub_trans hM)
    | split

theorem does_execFlitReceived (path : FlitPath) (lane : Fin 12) (flit : BitVec 288) (s : State) :
    ∃ t, execFlitReceived path lane flit s = .next t ∧ Does 0x1f7f7fb3 s t := by
  have hM : Sub 0x1f7f7fb3 0x1f7f7fb3 := by decide
  have hD := does_refl 0x1f7f7fb3 s
  refine ⟨_, rfl, ?_⟩
  try dsimp only
  repeat' first
    | with_reducible assumption
    | with_reducible apply does_pairSettled (sub_trans hM)
    | with_reducible apply does_sendFlit (sub_trans hM)
    | with_reducible apply does_flitIn (sub_trans hM)
    | split

theorem does_freezeOne {M : Nat} {s₀ : State} {s : State} {m : Nat} (hM : Sub 0x8001000 M) (hD : Does M s₀ s) :
    Does M s₀ (State.freezeOne s m) := by
  unfold State.freezeOne
  try dsimp only
  repeat' first
    | with_reducible assumption
    | with_reducible apply does_emit (sub_trans hM)
    | with_reducible apply does_setSch (sub_trans hM)
    | split

theorem does_freeze {M : Nat} {s₀ : State} {s : State} (hM : Sub 0x180c1000 M) (hD : Does M s₀ s) :
    Does M s₀ (State.freeze s) := by
  unfold State.freeze
  try dsimp only
  repeat' first
    | with_reducible assumption
    | with_reducible apply does_holdLevels (sub_trans hM)
    | with_reducible apply does_cutTlps (sub_trans hM)
    | with_reducible apply does_holdWords (sub_trans hM)
    | ((with_reducible refine does_onPair (sub_trans hM) ?_ ?_); focus (unfold PairSt.acts; with_reducible rfl))
    | with_reducible refine does_onPairActs (sub_trans hM) ?_
    | with_reducible apply does_freezeOne (sub_trans hM)
    | split
    | with_reducible refine does_foldl (fun x_ a_ hx_ => ?_) ?_

theorem does_execDivergence (s : State) :
    ∃ t, execDivergence s = .next t ∧ Does 0x1e2e1083 s t := by
  have hM : Sub 0x1e2e1083 0x1e2e1083 := by decide
  have hD := does_refl 0x1e2e1083 s
  refine ⟨_, rfl, ?_⟩
  try dsimp only
  repeat' first
    | with_reducible assumption
    | with_reducible refine does_onPairActs (sub_trans hM) ?_
    | with_reducible apply does_freeze (sub_trans hM)
    | with_reducible apply does_raise (sub_trans hM)
    | with_reducible apply does_deferCommit (sub_trans hM)
    | with_reducible apply does_count (sub_trans hM)
    | split

theorem does_resumeOne {M : Nat} {s₀ : State} {s : State} {m : Nat} (hM : Sub 0xe221082 M) (hD : Does M s₀ s) :
    Does M s₀ (State.resumeOne s m) := by
  unfold State.resumeOne
  try dsimp only
  repeat' first
    | with_reducible assumption
    | with_reducible apply does_count (sub_trans hM)
    | with_reducible apply does_setSch (sub_trans hM)
    | split

theorem does_resumeAll {M : Nat} {s₀ : State} {s : State} (hM : Sub 0xe261082 M) (hD : Does M s₀ s) :
    Does M s₀ (State.resumeAll s) := by
  unfold State.resumeAll
  try dsimp only
  repeat' first
    | with_reducible assumption
    | with_reducible apply does_resumeOne (sub_trans hM)
    | with_reducible apply does_thawLine (sub_trans hM)
    | ((with_reducible refine does_onPair (sub_trans hM) ?_ ?_); focus (unfold PairSt.acts; with_reducible rfl))
    | with_reducible apply does_emit (sub_trans hM)
    | split
    | with_reducible refine does_foldl (fun x_ a_ hx_ => ?_) ?_

theorem does_judge {M : Nat} {s₀ : State} {s : State} {act : Eng} {a : Bool} {b : Bool} (hM : Sub 0x1f2e7fb3 M) (hD : Does M s₀ s) :
    Does M s₀ (State.judge s act a b) := by
  unfold State.judge
  try dsimp only
  repeat' first
    | with_reducible assumption
    | with_reducible apply does_announce (sub_trans hM)
    | with_reducible apply does_setEng (sub_trans hM)
    | with_reducible apply does_startHandover (sub_trans hM)
    | with_reducible apply does_raise (sub_trans hM)
    | with_reducible apply does_fence (sub_trans hM)
    | with_reducible apply does_failEngine (sub_trans hM)
    | ((with_reducible refine does_onPair (sub_trans hM) ?_ ?_); focus (unfold PairSt.acts; with_reducible rfl))
    | split

theorem does_verdictEnds {M : Nat} {s₀ : State} {s : State} (hM : Sub 0x1f7f7f83 M) (hD : Does M s₀ s) :
    Does M s₀ (State.verdictEnds s) := by
  unfold State.verdictEnds
  try dsimp only
  repeat' first
    | with_reducible assumption
    | with_reducible apply does_pairSettled (sub_trans hM)
    | with_reducible apply does_freeLevels (sub_trans hM)
    | with_reducible apply does_resumeAll (sub_trans hM)
    | with_reducible apply does_deliverFrames (sub_trans hM)
    | with_reducible apply does_deliverHeld (sub_trans hM)
    | split

theorem does_execVerdictResult (test : SelfTest) (s : State) :
    ∃ t, execVerdictResult test s = .next t ∧ Does 0x1f7f7fb3 s t := by
  have hM : Sub 0x1f7f7fb3 0x1f7f7fb3 := by decide
  have hD := does_refl 0x1f7f7fb3 s
  refine ⟨_, rfl, ?_⟩
  try dsimp only
  repeat' first
    | with_reducible assumption
    | with_reducible apply does_judge (sub_trans hM)
    | with_reducible apply does_raise (sub_trans hM)
    | with_reducible apply does_verdictEnds (sub_trans hM)
    | ((with_reducible refine does_onPair (sub_trans hM) ?_ ?_); focus (unfold PairSt.acts; with_reducible rfl))
    | with_reducible refine does_onPairActs (sub_trans hM) ?_
    | with_reducible apply does_count (sub_trans hM)
    | split

theorem does_execRoleSwap (s : State) :
    ∃ t, execRoleSwap s = .next t ∧ Does 0x1f2e1383 s t := by
  have hM : Sub 0x1f2e1383 0x1f2e1383 := by decide
  have hD := does_refl 0x1f2e1383 s
  refine ⟨_, rfl, ?_⟩
  try dsimp only
  repeat' first
    | with_reducible assumption
    | with_reducible apply does_dueSwap (sub_trans hM)
    | ((with_reducible refine does_onPair (sub_trans hM) ?_ ?_); focus (unfold PairSt.acts; with_reducible rfl))
    | with_reducible refine does_onPairActs (sub_trans hM) ?_
    | split

theorem does_execPairCmdSwap (s : State) :
    ∃ t, execPairCmdSwap s = .next t ∧ Does 0x1f6f1383 s t := by
  have hM : Sub 0x1f6f1383 0x1f6f1383 := by decide
  have hD := does_refl 0x1f6f1383 s
  refine ⟨_, rfl, ?_⟩
  try dsimp only
  repeat' first
    | with_reducible assumption
    | with_reducible apply does_wrote (sub_trans hM)
    | with_reducible apply does_arrives (sub_trans hM)
    | with_reducible apply does_endIdle (sub_trans hM)
    | ((with_reducible refine does_onPair (sub_trans hM) ?_ ?_); focus (unfold PairSt.acts; with_reducible rfl))
    | with_reducible refine does_onPairActs (sub_trans hM) ?_
    | with_reducible apply does_startHandover (sub_trans hM)
    | with_reducible apply does_raise (sub_trans hM)
    | split

theorem does_execWarmStandbyReady (s : State) :
    ∃ t, execWarmStandbyReady s = .next t ∧ Does 0x1f6e1383 s t := by
  have hM : Sub 0x1f6e1383 0x1f6e1383 := by decide
  have hD := does_refl 0x1f6e1383 s
  refine ⟨_, rfl, ?_⟩
  try dsimp only
  repeat' first
    | with_reducible assumption
    | with_reducible apply does_warmWake (sub_trans hM)
    | with_reducible apply does_startHandover (sub_trans hM)
    | split

theorem does_execPairCmdRequalify (e : Eng) (s : State) :
    ∃ t, execPairCmdRequalify e s = .next t ∧ Does 0x16d0001 s t := by
  have hM : Sub 0x16d0001 0x16d0001 := by decide
  have hD := does_refl 0x16d0001 s
  refine ⟨_, rfl, ?_⟩
  try dsimp only
  repeat' first
    | with_reducible assumption
    | with_reducible apply does_wrote (sub_trans hM)
    | with_reducible apply does_arrives (sub_trans hM)
    | with_reducible apply does_endIdle (sub_trans hM)
    | with_reducible apply does_setEng (sub_trans hM)
    | split

theorem does_execBistCycleDone (e : Eng) (pass : Bool) (ecc : BitVec 16) (s : State) :
    ∃ t, execBistCycleDone e pass ecc s = .next t ∧ Does 0x1f7f7fb3 s t := by
  have hM : Sub 0x1f7f7fb3 0x1f7f7fb3 := by decide
  have hD := does_refl 0x1f7f7fb3 s
  refine ⟨_, rfl, ?_⟩
  try dsimp only
  repeat' first
    | with_reducible assumption
    | with_reducible apply does_setEng (sub_trans hM)
    | with_reducible apply does_count (sub_trans hM)
    | with_reducible apply does_pairSettled (sub_trans hM)
    | with_reducible apply does_engineFault (sub_trans hM)
    | split

theorem does_execRequalifyDone (e : Eng) (pass : Bool) (s : State) :
    ∃ t, execRequalifyDone e pass s = .next t ∧ Does 0xf2e0082 s t := by
  have hM : Sub 0xf2e0082 0xf2e0082 := by decide
  have hD := does_refl 0xf2e0082 s
  refine ⟨_, rfl, ?_⟩
  try dsimp only
  repeat' first
    | with_reducible assumption
    | ((with_reducible refine does_onPair (sub_trans hM) ?_ ?_); focus (unfold PairSt.acts; with_reducible rfl))
    | with_reducible refine does_onPairActs (sub_trans hM) ?_
    | with_reducible apply does_setEng (sub_trans hM)
    | with_reducible apply does_failEngine (sub_trans hM)
    | split

theorem does_execBulkCopyDone (s : State) :
    ∃ t, execBulkCopyDone s = .next t ∧ Does 0xe260083 s t := by
  have hM : Sub 0xe260083 0xe260083 := by decide
  have hD := does_refl 0xe260083 s
  refine ⟨_, rfl, ?_⟩
  try dsimp only
  repeat' first
    | with_reducible assumption
    | with_reducible apply does_quiesceEnds (sub_trans hM)
    | with_reducible apply does_deferCommit (sub_trans hM)
    | ((with_reducible refine does_onPair (sub_trans hM) ?_ ?_); focus (unfold PairSt.acts; with_reducible rfl))
    | split

theorem does_join {M : Nat} {s₀ : State} {s : State} {e : Eng} (hM : Sub 0x1f6e0082 M) (hD : Does M s₀ s) :
    Does M s₀ (State.join s e) := by
  unfold State.join
  try dsimp only
  repeat' first
    | with_reducible assumption
    | with_reducible apply does_warmRest (sub_trans hM)
    | with_reducible apply does_warmWake (sub_trans hM)
    | with_reducible apply does_mirrorNow (sub_trans hM)
    | with_reducible apply does_mirrorBoundary (sub_trans hM)
    | ((with_reducible refine does_onPair (sub_trans hM) ?_ ?_); focus (unfold PairSt.acts; with_reducible rfl))
    | with_reducible refine does_onPairActs (sub_trans hM) ?_
    | with_reducible apply does_setEng (sub_trans hM)
    | with_reducible apply does_announce (sub_trans hM)
    | with_reducible apply does_useFree (sub_trans hM)
    | with_reducible apply does_raise (sub_trans hM)
    | with_reducible apply does_count (sub_trans hM)
    | split

theorem does_execResyncDone (s : State) :
    ∃ t, execResyncDone s = .next t ∧ Does 0x1f7f7f83 s t := by
  have hM : Sub 0x1f7f7f83 0x1f7f7f83 := by decide
  have hD := does_refl 0x1f7f7f83 s
  refine ⟨_, rfl, ?_⟩
  try dsimp only
  repeat' first
    | with_reducible assumption
    | with_reducible apply does_pairSettled (sub_trans hM)
    | with_reducible apply does_join (sub_trans hM)
    | split

theorem does_execResyncTimeout (s : State) :
    ∃ t, execResyncTimeout s = .next t ∧ Does 0x1f7f7f83 s t := by
  have hM : Sub 0x1f7f7f83 0x1f7f7f83 := by decide
  have hD := does_refl 0x1f7f7f83 s
  refine ⟨_, rfl, ?_⟩
  try dsimp only
  repeat' first
    | with_reducible assumption
    | with_reducible apply does_pairSettled (sub_trans hM)
    | with_reducible apply does_failEngine (sub_trans hM)
    | with_reducible apply does_raise (sub_trans hM)
    | ((with_reducible refine does_onPair (sub_trans hM) ?_ ?_); focus (unfold PairSt.acts; with_reducible rfl))
    | with_reducible refine does_onPairActs (sub_trans hM) ?_
    | with_reducible apply does_useFree (sub_trans hM)
    | split

end Sys2Proof.Laws
end

