-- ==== Sys2Proof/Laws/Lookout.lean ====
section
/-! SUPPORT. What each operation and command of Machine/Lookout.lean can touch, and that it keeps the invariants of the blocks. -/
set_option Elab.async false
namespace Sys2Proof.Laws
open Sys2Proof.Machine

theorem does_loEvidence {M : Nat} {s₀ : State} {s : State} {ch : Nat} (hM : Sub 0x100000 M) (hD : Does M s₀ s) :
    Does M s₀ (State.loEvidence s ch) := by
  unfold State.loEvidence
  try dsimp only
  repeat' first
    | with_reducible assumption
    | with_reducible apply does_onLookout (sub_trans hM)

theorem does_loClear {M : Nat} {s₀ : State} {s : State} {ch : Nat} (hM : Sub 0x100000 M) (hD : Does M s₀ s) :
    Does M s₀ (State.loClear s ch) := by
  unfold State.loClear
  try dsimp only
  repeat' first
    | with_reducible assumption
    | with_reducible apply does_onLookout (sub_trans hM)

theorem does_loInterrupt {M : Nat} {s₀ : State} {s : State} {ch : Nat} (hM : Sub 0x100000 M) (hD : Does M s₀ s) :
    Does M s₀ (State.loInterrupt s ch) := by
  unfold State.loInterrupt
  try dsimp only
  repeat' first
    | with_reducible assumption
    | with_reducible apply does_onLookout (sub_trans hM)
    | split

theorem does_loPowerUp {M : Nat} {s₀ : State} {s : State} {ch : Nat} (hM : Sub 0x1e767f83 M) (hD : Does M s₀ s) :
    Does M s₀ (State.loPowerUp s ch) := by
  unfold State.loPowerUp
  try dsimp only
  repeat' first
    | with_reducible assumption
    | with_reducible apply does_released (sub_trans hM)
    | with_reducible apply does_loFollowAll (sub_trans hM)
    | with_reducible apply does_setIsland (sub_trans hM)
    | split

theorem does_loExpire {M : Nat} {s₀ : State} {s : State} {ch pc : Nat} {test : Bool} (hM : Sub 0x1f777f83 M) (hD : Does M s₀ s) :
    Does M s₀ (State.loExpire s ch pc test) := by
  unfold State.loExpire
  try dsimp only
  repeat' first
    | with_reducible assumption
    | with_reducible apply does_setChan (sub_trans hM)
    | with_reducible apply does_raise (sub_trans hM)
    | with_reducible apply does_loInterrupt (sub_trans hM)
    | with_reducible apply does_loPowerUp (sub_trans hM)
    | with_reducible apply does_registerWake (sub_trans hM)
    | with_reducible apply does_loEvidence (sub_trans hM)

theorem does_loRequest {M : Nat} {s₀ : State} {s : State} {ch : Nat} (hM : Sub 0x100000 M) (hD : Does M s₀ s) :
    Does M s₀ (State.loRequest s ch) := by
  unfold State.loRequest
  try dsimp only
  repeat' first
    | with_reducible assumption
    | with_reducible apply does_setChan (sub_trans hM)
    | with_reducible apply does_onLookout (sub_trans hM)
    | split

theorem does_loTarget {M : Nat} {s₀ : State} {s : State} {ch : Nat} (hM : Sub 0x100000 M) (hD : Does M s₀ s) :
    Does M s₀ (State.loTarget s ch) := by
  unfold State.loTarget
  try dsimp only
  repeat' first
    | with_reducible assumption
    | with_reducible apply does_onLookout (sub_trans hM)
    | with_reducible apply does_loRequest (sub_trans hM)
    | split

theorem does_loReset {M : Nat} {s₀ : State} {s : State} {ch : Nat} {mark : LoChan → LoChan} (hM : Sub 0xe320082 M) (hD : Does M s₀ s) :
    Does M s₀ (State.loReset s ch mark) := by
  unfold State.loReset
  try dsimp only
  repeat' first
    | with_reducible assumption
    | with_reducible apply does_loTarget (sub_trans hM)
    | with_reducible apply does_setChan (sub_trans hM)
    | with_reducible apply does_loEvidence (sub_trans hM)
    | with_reducible apply does_raise (sub_trans hM)
    | with_reducible apply does_loClear (sub_trans hM)
    | with_reducible apply does_loStart (sub_trans hM)

theorem does_loServe {M : Nat} {s₀ : State} {s : State} {ch : Nat} (hM : Sub 0x100000 M) (hD : Does M s₀ s) :
    Does M s₀ (State.loServe s ch) := by
  unfold State.loServe
  try dsimp only
  repeat' first
    | with_reducible assumption
    | with_reducible apply does_loClear (sub_trans hM)
    | with_reducible apply does_loStart (sub_trans hM)
    | with_reducible apply does_setChan (sub_trans hM)

theorem does_loClose {M : Nat} {s₀ : State} {s : State} {ch pc : Nat} (hM : Sub 0x1f777f83 M) (hD : Does M s₀ s) :
    Does M s₀ (State.loClose s ch pc) := by
  unfold State.loClose
  try dsimp only
  repeat' first
    | with_reducible assumption
    | with_reducible apply does_loExpire (sub_trans hM)
    | with_reducible apply does_loReset (sub_trans hM)
    | split

theorem does_loWrite {M : Nat} {s₀ : State} {s : State} {ch pc : Nat} {act : State → State} (hA : ∀ x, Does M s₀ x → Does M s₀ (act x))
    (hM : Sub 0x1f777f83 M) (hD : Does M s₀ s) : Does M s₀ (State.loWrite s ch pc act) := by
  unfold State.loWrite
  split
  · exact hD
  · split
    · dsimp only
      split
      · exact hA _ (does_loClose (sub_trans hM) hD)
      · exact does_loClose (sub_trans hM) hD
    · exact hA _ hD

theorem does_execLookoutServe (ch : Fin 5) (s : State) :
    ∃ t, execLookoutServe ch s = .next t ∧ Does 0x1f777f83 s t := by
  have hM : Sub 0x1f777f83 0x1f777f83 := by decide
  have hD := does_refl 0x1f777f83 s
  refine ⟨_, rfl, ?_⟩
  try dsimp only
  repeat' first
    | with_reducible assumption
    | with_reducible refine does_loWrite (fun x hx => does_loServe (sub_trans hM) hx) (sub_trans hM) ?_
    | with_reducible apply does_useFree (sub_trans hM)
    | with_reducible apply does_loServe (sub_trans hM)
    | split

theorem does_loBad {M : Nat} {s₀ : State} {ch pc : Nat} {s : State} (hM : Sub 0x1f777f83 M) (hD : Does M s₀ s) :
    Does M s₀ (State.loBad ch pc s) := by
  unfold State.loBad
  try dsimp only
  repeat' first
    | with_reducible assumption
    | with_reducible apply does_setChan (sub_trans hM)
    | with_reducible apply does_loReset (sub_trans hM)
    | with_reducible apply does_loExpire (sub_trans hM)
    | split

theorem does_execBadServe (ch : Fin 5) (pc : Word) (s : State) :
    ∃ t, execBadServe ch pc s = .next t ∧ Does 0x1f777f83 s t := by
  have hM : Sub 0x1f777f83 0x1f777f83 := by decide
  have hD := does_refl 0x1f777f83 s
  refine ⟨_, rfl, ?_⟩
  try dsimp only
  repeat' first
    | with_reducible assumption
    | with_reducible refine does_loWrite (act := State.loBad _ _) (fun x hx => does_loBad (sub_trans hM) hx) (sub_trans hM) ?_

theorem does_execLookoutExpiry (ch : Fin 5) (pc : Word) (s : State) :
    ∃ t, execLookoutExpiry ch pc s = .next t ∧ Does 0x1f777f83 s t := by
  have hM : Sub 0x1f777f83 0x1f777f83 := by decide
  have hD := does_refl 0x1f777f83 s
  refine ⟨_, rfl, ?_⟩
  try dsimp only
  repeat' first
    | with_reducible assumption
    | with_reducible apply does_loExpire (sub_trans hM)
    | split

theorem does_execWarningPeriodClose (ch : Fin 5) (pc : Word) (s : State) :
    ∃ t, execWarningPeriodClose ch pc s = .next t ∧ Does 0x1f777f83 s t := by
  have hM : Sub 0x1f777f83 0x1f777f83 := by decide
  have hD := does_refl 0x1f777f83 s
  refine ⟨_, rfl, ?_⟩
  try dsimp only
  repeat' first
    | with_reducible assumption
    | with_reducible apply does_loClose (sub_trans hM)
    | split

theorem does_execLoCmdTest (ch : Fin 5) (pc : Word) (s : State) :
    ∃ t, execLoCmdTest ch pc s = .next t ∧ Does 0x1f777f83 s t := by
  have hM : Sub 0x1f777f83 0x1f777f83 := by decide
  have hD := does_refl 0x1f777f83 s
  refine ⟨_, rfl, ?_⟩
  try dsimp only
  repeat' first
    | with_reducible assumption
    | with_reducible apply does_wrote (sub_trans hM)
    | with_reducible apply does_arrives (sub_trans hM)
    | with_reducible apply does_endIdle (sub_trans hM)
    | with_reducible apply does_loExpire (sub_trans hM)
    | split

theorem does_loTrip {M : Nat} {s₀ : State} {s : State} {ch : Nat} {otherStopped : Bool} (hM : Sub 0xe320082 M) (hD : Does M s₀ s) :
    Does M s₀ (State.loTrip s ch otherStopped) := by
  unfold State.loTrip
  try dsimp only
  repeat' first
    | with_reducible assumption
    | with_reducible apply does_raise (sub_trans hM)
    | with_reducible apply does_setChan (sub_trans hM)
    | with_reducible apply does_loReset (sub_trans hM)
    | split

theorem does_execLookoutClockTrip (ch : Fin 5) (otherStopped : Bool) (s : State) :
    ∃ t, execLookoutClockTrip ch otherStopped s = .next t ∧ Does 0xe320082 s t := by
  have hM : Sub 0xe320082 0xe320082 := by decide
  have hD := does_refl 0xe320082 s
  refine ⟨_, rfl, ?_⟩
  try dsimp only
  repeat' first
    | with_reducible assumption
    | with_reducible apply does_loTrip (sub_trans hM)
    | split

theorem does_mgmtBegin {M : Nat} {s₀ : State} {s : State} (hM : Sub 0x100880 M) (hD : Does M s₀ s) :
    Does M s₀ (State.mgmtBegin s) := by
  unfold State.mgmtBegin
  try dsimp only
  repeat' first
    | with_reducible assumption
    | with_reducible apply does_onHost (sub_trans hM)
    | with_reducible apply does_setFn (sub_trans hM)
    | with_reducible apply does_onLookout (sub_trans hM)
    | split
    | with_reducible refine does_foldl (fun x_ a_ hx_ => ?_) ?_

theorem does_loHoldEnd {M : Nat} {s₀ : State} {s : State} {e : Nat × Nat × Bool} (hM : Sub 0x1f7f7fb3 M) (hD : Does M s₀ s) :
    Does M s₀ (State.loHoldEnd s e) := by
  unfold State.loHoldEnd
  try dsimp only
  repeat' first
    | with_reducible assumption
    | with_reducible apply does_mgmtBegin (sub_trans hM)
    | with_reducible apply does_pairSettled (sub_trans hM)
    | with_reducible apply does_fence (sub_trans hM)
    | with_reducible apply does_engineFault (sub_trans hM)
    | split

theorem does_execLookoutResetHold (s : State) :
    ∃ t, execLookoutResetHold s = .next t ∧ Does 0x1f7f7fb3 s t := by
  have hM : Sub 0x1f7f7fb3 0x1f7f7fb3 := by decide
  have hD := does_refl 0x1f7f7fb3 s
  refine ⟨_, rfl, ?_⟩
  try dsimp only
  repeat' first
    | with_reducible assumption
    | with_reducible apply does_loHoldEnd (sub_trans hM)
    | with_reducible apply does_onLookout (sub_trans hM)
    | split

theorem does_loDeliver {M : Nat} {s₀ : State} {s : State} {ch : Nat} (hM : Sub 0x100000 M) (hD : Does M s₀ s) :
    Does M s₀ (State.loDeliver s ch) := by
  unfold State.loDeliver
  try dsimp only
  repeat' first
    | with_reducible assumption
    | with_reducible apply does_onLookout (sub_trans hM)

theorem does_execWarningDelivery (s : State) :
    ∃ t, execWarningDelivery s = .next t ∧ Does 0x100000 s t := by
  have hM : Sub 0x100000 0x100000 := by decide
  have hD := does_refl 0x100000 s
  refine ⟨_, rfl, ?_⟩
  try dsimp only
  repeat' first
    | with_reducible assumption
    | with_reducible apply does_loDeliver (sub_trans hM)
    | with_reducible apply does_onLookout (sub_trans hM)
    | split

theorem does_mgmtAbort {M : Nat} {s₀ : State} {s : State} {f : Nat} (hM : Sub 0xe227782 M) (hD : Does M s₀ s) :
    Does M s₀ (State.mgmtAbort s f) := by
  unfold State.mgmtAbort
  try dsimp only
  repeat' first
    | with_reducible assumption
    | with_reducible apply does_raise (sub_trans hM)
    | with_reducible apply does_removeRing (sub_trans hM)
    | with_reducible apply does_enrolFail (sub_trans hM)
    | with_reducible apply does_mbxReply (sub_trans hM)
    | split

theorem does_mgmtEnd {M : Nat} {s₀ : State} {s : State} (hM : Sub 0xe327782 M) (hD : Does M s₀ s) :
    Does M s₀ (State.mgmtEnd s) := by
  unfold State.mgmtEnd
  try dsimp only
  repeat' first
    | with_reducible assumption
    | with_reducible apply does_mgmtAbort (sub_trans hM)
    | with_reducible apply does_onLookout (sub_trans hM)
    | with_reducible apply does_raise (sub_trans hM)
    | with_reducible apply does_loStart (sub_trans hM)
    | with_reducible refine does_foldl (fun x_ a_ hx_ => ?_) ?_

theorem does_execMgmtRestart (s : State) :
    ∃ t, execMgmtRestart s = .next t ∧ Does 0xe327782 s t := by
  have hM : Sub 0xe327782 0xe327782 := by decide
  have hD := does_refl 0xe327782 s
  refine ⟨_, rfl, ?_⟩
  try dsimp only
  repeat' first
    | with_reducible assumption
    | with_reducible apply does_mgmtEnd (sub_trans hM)
    | split

theorem does_tetherRestart {M : Nat} {s₀ : State} {s : State} (hM : Sub 0x1000000 M) (hD : Does M s₀ s) :
    Does M s₀ (State.tetherRestart s) := by
  unfold State.tetherRestart
  try dsimp only
  repeat' first
    | with_reducible assumption
    | with_reducible refine does_onTether (sub_trans hM) ?_ ?_
    | split
    | exact fun k => k

theorem does_supEnd {M : Nat} {s₀ : State} {s : State} (hM : Sub 0xf320082 M) (hD : Does M s₀ s) :
    Does M s₀ (State.supEnd s) := by
  unfold State.supEnd
  try dsimp only
  repeat' first
    | with_reducible assumption
    | with_reducible apply does_raise (sub_trans hM)
    | with_reducible apply does_loStart (sub_trans hM)
    | with_reducible apply does_tetherRestart (sub_trans hM)
    | with_reducible apply does_onLookout (sub_trans hM)

theorem does_execSupervisorRestarted (s : State) :
    ∃ t, execSupervisorRestarted s = .next t ∧ Does 0xf320082 s t := by
  have hM : Sub 0xf320082 0xf320082 := by decide
  have hD := does_refl 0xf320082 s
  refine ⟨_, rfl, ?_⟩
  try dsimp only
  repeat' first
    | with_reducible assumption
    | with_reducible apply does_supEnd (sub_trans hM)
    | split

theorem does_execLookoutEvidenceCopy (s : State) :
    ∃ t, execLookoutEvidenceCopy s = .next t ∧ Does 0xe320082 s t := by
  have hM : Sub 0xe320082 0xe320082 := by decide
  have hD := does_refl 0xe320082 s
  refine ⟨_, rfl, ?_⟩
  try dsimp only
  repeat' first
    | with_reducible assumption
    | with_reducible apply does_logRow (sub_trans hM)
    | with_reducible apply does_onLookout (sub_trans hM)
    | split

end Sys2Proof.Laws
end

