-- ==== Sys2Proof/Laws/Foreman.lean ====
section
/-! SUPPORT. What each operation and command of Machine/Foreman.lean can touch, and that it keeps the invariants of the blocks. -/
set_option Elab.async false
namespace Sys2Proof.Laws
open Sys2Proof.Machine

theorem does_fmClose {M : Nat} {s₀ : State} {s : State} {busy : List (ℕ × ℕ × ℕ)} (hM : Sub 0x4c26000 M) (hD : Does M s₀ s) :
    Does M s₀ (State.fmClose s busy) := by
  unfold State.fmClose
  try dsimp only
  repeat' first
    | with_reducible assumption
    | with_reducible apply does_onMacs (sub_trans hM)
    | ((with_reducible refine does_onTally (sub_trans hM) ?_ ?_); focus (first | exact fun k => k | exact fun k => ⟨k.count, k.base, k.mirror⟩))
    | with_reducible apply does_onPower (sub_trans hM)
    | with_reducible apply does_onForeman (sub_trans hM)
    | with_reducible apply does_onHamper (sub_trans hM)
    | with_reducible apply does_onEvents (sub_trans hM)

theorem does_loopOne {M : Nat} {s₀ : State} {s : State} {k : ℕ} (hM : Sub 0x800000 M) (hD : Does M s₀ s) :
    Does M s₀ (State.loopOne s k) := by
  unfold State.loopOne
  try dsimp only
  repeat' first
    | with_reducible assumption
    | with_reducible apply does_setKnob (sub_trans hM)
    | split

theorem does_execForemanLoop (busy : List (ℕ × ℕ × ℕ)) (s : State) :
    ∃ t, execForemanLoop busy s = .next t ∧ Does 0xef26082 s t := by
  have hM : Sub 0xef26082 0xef26082 := by decide
  have hD := does_refl 0xef26082 s
  refine ⟨_, rfl, ?_⟩
  try dsimp only
  repeat' first
    | with_reducible assumption
    | with_reducible apply does_fmRefresh (sub_trans hM)
    | with_reducible apply does_loopOne (sub_trans hM)
    | with_reducible apply does_fmClose (sub_trans hM)
    | split
    | with_reducible refine does_foldl (fun x_ a_ hx_ => ?_) ?_

theorem does_thermal {M : Nat} {s₀ : State} {s : State} {t : Int} (hM : Sub 0xef20082 M) (hD : Does M s₀ s) :
    Does M s₀ (State.thermal s t) := by
  unfold State.thermal
  try dsimp only
  repeat' first
    | with_reducible assumption
    | with_reducible apply does_onForeman (sub_trans hM)
    | with_reducible apply does_fmEnvelope (sub_trans hM)
    | with_reducible apply does_raise (sub_trans hM)
    | split

theorem does_execThermalWindow (hottest : Int) (s : State) :
    ∃ t, execThermalWindow hottest s = .next t ∧ Does 0xef20082 s t := by
  have hM : Sub 0xef20082 0xef20082 := by decide
  have hD := does_refl 0xef20082 s
  refine ⟨_, rfl, ?_⟩
  try dsimp only
  repeat' first
    | with_reducible assumption
    | with_reducible apply does_thermal (sub_trans hM)
    | split

end Sys2Proof.Laws
end

