-- ==== Sys2Proof/Laws/Tether.lean ====
section
/-! SUPPORT. What each operation and command of Machine/Tether.lean can touch, and that it keeps the invariants of the blocks. -/
set_option Elab.async false
namespace Sys2Proof.Laws
open Sys2Proof.Machine

theorem does_elderRefresh {M : Nat} {s₀ : State} {s : State} (hM : Sub 0xf220082 M) (hD : Does M s₀ s) :
    Does M s₀ (State.elderRefresh s) := by
  unfold State.elderRefresh
  try dsimp only
  repeat' first
    | with_reducible assumption
    | with_reducible refine does_onTether (sub_trans hM) ?_ ?_
    | with_reducible apply does_raise (sub_trans hM)
    | split
    | exact fun k => k

theorem does_refRefresh {M : Nat} {s₀ : State} {s : State} (hM : Sub 0xf220082 M) (hD : Does M s₀ s) :
    Does M s₀ (State.refRefresh s) := by
  unfold State.refRefresh
  try dsimp only
  repeat' first
    | with_reducible assumption
    | with_reducible refine does_onTether (sub_trans hM) ?_ ?_
    | with_reducible apply does_raise (sub_trans hM)
    | split
    | exact fun k => k

theorem does_tableRefresh {M : Nat} {s₀ : State} {s : State} (hM : Sub 0xf220082 M) (hD : Does M s₀ s) :
    Does M s₀ (State.tableRefresh s) := by
  unfold State.tableRefresh
  try dsimp only
  repeat' first
    | with_reducible assumption
    | with_reducible apply does_refRefresh (sub_trans hM)
    | with_reducible apply does_elderRefresh (sub_trans hM)

theorem does_gsAbort {M : Nat} {s₀ : State} {s : State} {reason : Nat} (hM : Sub 0xf220082 M) (hD : Does M s₀ s) :
    Does M s₀ (State.gsAbort s reason) := by
  unfold State.gsAbort
  try dsimp only
  repeat' first
    | with_reducible assumption
    | with_reducible apply does_raise (sub_trans hM)
    | with_reducible refine does_onTether (sub_trans hM) ?_ ?_
    | exact fun k => k

theorem does_elderAbort {M : Nat} {s₀ : State} {s : State} {reason : Nat} (hM : Sub 0xf220082 M) (hD : Does M s₀ s) :
    Does M s₀ (State.elderAbort s reason) := by
  unfold State.elderAbort
  try dsimp only
  repeat' first
    | with_reducible assumption
    | with_reducible apply does_tetherQueue (sub_trans hM)
    | with_reducible apply does_gsAbort (sub_trans hM)

theorem does_gsCommit {M : Nat} {s₀ : State} {s : State} (hM : Sub 0x1000000 M) (hD : Does M s₀ s) :
    Does M s₀ (State.gsCommit s) := by
  unfold State.gsCommit
  try dsimp only
  repeat' first
    | with_reducible assumption
    | with_reducible apply does_tetherQueue (sub_trans hM)
    | with_reducible refine does_onTether (sub_trans hM) ?_ ?_
    | split
    | exact fun k => k

theorem tetherOk_of_fifo {t u : TetherSt} (h : u.fifo = t.fifo) (k : TetherOk t) : TetherOk u := by
  unfold TetherOk at *
  rw [h]
  exact k

theorem does_sofEffect {M : Nat} {s₀ : State} {s : State} {f : TxFrame} {stamp : Nat} (hM : Sub 0xf220082 M) (hD : Does M s₀ s) :
    Does M s₀ (State.sofEffect s f stamp) := by
  unfold State.sofEffect
  split
  · with_reducible apply does_gsCommit (sub_trans hM)
    with_reducible refine does_onTether (sub_trans hM) ?_ ?_
    · exact tetherOk_of_fifo rfl
    · exact hD
  split
  · with_reducible refine does_onTether (sub_trans hM) ?_ ?_
    · exact tetherOk_of_fifo rfl
    · exact hD
  split
  · with_reducible exact does_gsAbort (sub_trans hM) hD
  split
  · with_reducible exact does_tableRefresh (sub_trans hM) (does_setPeer (sub_trans hM) hD)
  with_reducible exact hD

theorem does_attempt {M : Nat} {s₀ : State} {s : State} {f : TxFrame} {stamp : Nat} (hM : Sub 0xf220082 M) (hD : Does M s₀ s) :
    Does M s₀ (State.attempt s f stamp) := by
  unfold State.attempt
  try dsimp only
  repeat' first
    | with_reducible assumption
    | with_reducible refine does_onTether (sub_trans hM) ?_ ?_
    | with_reducible apply does_setSlot (sub_trans hM)
    | with_reducible apply does_sofEffect (sub_trans hM)
    | with_reducible apply does_emit (sub_trans hM)
    | split
    | exact fun k => k

theorem does_execTetherTxStart (stamp : Nat) (s : State) :
    ∃ t, execTetherTxStart stamp s = .next t ∧ Does 0xf220082 s t := by
  have hM : Sub 0xf220082 0xf220082 := by decide
  have hD := does_refl 0xf220082 s
  refine ⟨_, rfl, ?_⟩
  try dsimp only
  repeat' first
    | with_reducible assumption
    | with_reducible apply does_attempt (sub_trans hM)
    | split

theorem does_slotState {M : Nat} {s₀ : State} {s : State} {f : TxFrame} {st : Nat} (hM : Sub 0x1000000 M) (hD : Does M s₀ s) :
    Does M s₀ (State.slotState s f st) := by
  unfold State.slotState
  try dsimp only
  repeat' first
    | with_reducible assumption
    | with_reducible apply does_setSlot (sub_trans hM)
    | split

theorem does_offerAgain {M : Nat} {s₀ : State} {s : State} {f : TxFrame} (hM : Sub 0x1000000 M) (hD : Does M s₀ s) :
    Does M s₀ (State.offerAgain s f) := by
  unfold State.offerAgain
  try dsimp only
  repeat' first
    | with_reducible assumption
    | with_reducible apply does_slotState (sub_trans hM)
    | with_reducible refine does_onTether (sub_trans hM) ?_ ?_
    | split
    | exact fun k => k

theorem does_txFailed {M : Nat} {s₀ : State} {s : State} {f : TxFrame} (hM : Sub 0x1000000 M) (hD : Does M s₀ s) :
    Does M s₀ (State.txFailed s f) := by
  unfold State.txFailed
  try dsimp only
  repeat' first
    | with_reducible assumption
    | with_reducible apply does_offerAgain (sub_trans hM)
    | with_reducible apply does_slotState (sub_trans hM)
    | split

theorem does_followUp {M : Nat} {s₀ : State} {s : State} {f : TxFrame} (hM : Sub 0x1000000 M) (hD : Does M s₀ s) :
    Does M s₀ (State.followUp s f) := by
  unfold State.followUp
  try dsimp only
  repeat' first
    | with_reducible assumption
    | with_reducible apply does_tetherQueue (sub_trans hM)
    | split

theorem does_lateCollision {M : Nat} {s₀ : State} {s : State} {f : TxFrame} (hM : Sub 0xf220082 M) (hD : Does M s₀ s) :
    Does M s₀ (State.lateCollision s f) := by
  unfold State.lateCollision
  try dsimp only
  repeat' first
    | with_reducible assumption
    | with_reducible apply does_raise (sub_trans hM)
    | with_reducible refine does_onTether (sub_trans hM) ?_ ?_
    | with_reducible apply does_tetherCount (sub_trans hM)
    | with_reducible apply does_offerAgain (sub_trans hM)
    | exact fun k => k

theorem does_txEnd {M : Nat} {s₀ : State} {s : State} {f : TxFrame} {res : TxResult} (hM : Sub 0xf220082 M) (hD : Does M s₀ s) :
    Does M s₀ (State.txEnd s f res) := by
  unfold State.txEnd
  try dsimp only
  repeat' first
    | with_reducible assumption
    | with_reducible apply does_followUp (sub_trans hM)
    | with_reducible apply does_slotState (sub_trans hM)
    | with_reducible apply does_tetherCount (sub_trans hM)
    | with_reducible apply does_txFailed (sub_trans hM)
    | with_reducible apply does_offerAgain (sub_trans hM)
    | with_reducible apply does_lateCollision (sub_trans hM)
    | split

theorem does_execTetherTxEnd (res : TxResult) (s : State) :
    ∃ t, execTetherTxEnd res s = .next t ∧ Does 0xf220082 s t := by
  have hM : Sub 0xf220082 0xf220082 := by decide
  have hD := does_refl 0xf220082 s
  refine ⟨_, rfl, ?_⟩
  try dsimp only
  repeat' first
    | with_reducible assumption
    | with_reducible apply does_txEnd (sub_trans hM)
    | with_reducible refine does_onTether (sub_trans hM) ?_ ?_
    | split
    | exact fun k => k

theorem does_txSend {M : Nat} {s₀ : State} {s : State} {n : Nat} (hM : Sub 0x1000000 M) (hD : Does M s₀ s) :
    Does M s₀ (State.txSend s n) := by
  unfold State.txSend
  try dsimp only
  repeat' first
    | with_reducible assumption
    | with_reducible refine does_onTether (sub_trans hM) ?_ ?_
    | with_reducible apply does_setSlot (sub_trans hM)
    | split
    | exact fun k => k

theorem does_execTetherTxSend (slot : Fin 8) (s : State) :
    ∃ t, execTetherTxSend slot s = .next t ∧ Does 0x1610001 s t := by
  have hM : Sub 0x1610001 0x1610001 := by decide
  have hD := does_refl 0x1610001 s
  refine ⟨_, rfl, ?_⟩
  try dsimp only
  repeat' first
    | with_reducible assumption
    | with_reducible apply does_wrote (sub_trans hM)
    | with_reducible apply does_arrives (sub_trans hM)
    | with_reducible apply does_txSend (sub_trans hM)
    | with_reducible apply does_endIdle (sub_trans hM)
    | split

theorem does_txCancel {M : Nat} {s₀ : State} {s : State} {n : Nat} (hM : Sub 0x1000000 M) (hD : Does M s₀ s) :
    Does M s₀ (State.txCancel s n) := by
  unfold State.txCancel
  try dsimp only
  repeat' first
    | with_reducible assumption
    | with_reducible apply does_setSlot (sub_trans hM)
    | with_reducible refine does_onTether (sub_trans hM) ?_ ?_
    | split
    | exact fun k => k

theorem does_execTetherTxCancel (slot : Fin 8) (s : State) :
    ∃ t, execTetherTxCancel slot s = .next t ∧ Does 0x1610001 s t := by
  have hM : Sub 0x1610001 0x1610001 := by decide
  have hD := does_refl 0x1610001 s
  refine ⟨_, rfl, ?_⟩
  try dsimp only
  repeat' first
    | with_reducible assumption
    | with_reducible apply does_wrote (sub_trans hM)
    | with_reducible apply does_arrives (sub_trans hM)
    | with_reducible apply does_txCancel (sub_trans hM)
    | with_reducible apply does_endIdle (sub_trans hM)
    | split

theorem does_toListening {M : Nat} {s₀ : State} {s : State} (hM : Sub 0x1000000 M) (hD : Does M s₀ s) :
    Does M s₀ (State.toListening s) := by
  unfold State.toListening
  try dsimp only
  repeat' first
    | with_reducible assumption
    | with_reducible refine does_onTether (sub_trans hM) ?_ ?_
    | exact fun k => k

theorem does_choose {M : Nat} {s₀ : State} {s : State} (hM : Sub 0xf220082 M) (hD : Does M s₀ s) :
    Does M s₀ (State.choose s) := by
  unfold State.choose
  try dsimp only
  repeat' first
    | with_reducible assumption
    | with_reducible apply does_tetherQueue (sub_trans hM)
    | with_reducible refine does_onTether (sub_trans hM) ?_ ?_
    | with_reducible apply does_raise (sub_trans hM)
    | with_reducible apply does_toListening (sub_trans hM)
    | split
    | exact fun k => k

theorem does_execListenWindowEnd (s : State) :
    ∃ t, execListenWindowEnd s = .next t ∧ Does 0xf220082 s t := by
  have hM : Sub 0xf220082 0xf220082 := by decide
  have hD := does_refl 0xf220082 s
  refine ⟨_, rfl, ?_⟩
  try dsimp only
  repeat' first
    | with_reducible assumption
    | with_reducible apply does_choose (sub_trans hM)
    | with_reducible refine does_onTether (sub_trans hM) ?_ ?_
    | split
    | exact fun k => k

theorem does_joinStand {M : Nat} {s₀ : State} {s : State} (hM : Sub 0xf220082 M) (hD : Does M s₀ s) :
    Does M s₀ (State.joinStand s) := by
  unfold State.joinStand
  try dsimp only
  repeat' first
    | with_reducible assumption
    | with_reducible refine does_onTether (sub_trans hM) ?_ ?_
    | with_reducible apply does_tableRefresh (sub_trans hM)
    | with_reducible apply does_raise (sub_trans hM)
    | with_reducible apply does_tetherQueue (sub_trans hM)
    | exact fun k => k

theorem does_execClaimWindowEnd (s : State) :
    ∃ t, execClaimWindowEnd s = .next t ∧ Does 0xf220082 s t := by
  have hM : Sub 0xf220082 0xf220082 := by decide
  have hD := does_refl 0xf220082 s
  refine ⟨_, rfl, ?_⟩
  try dsimp only
  repeat' first
    | with_reducible assumption
    | with_reducible apply does_joinStand (sub_trans hM)
    | split

theorem does_execBackoffEnd (s : State) :
    ∃ t, execBackoffEnd s = .next t ∧ Does 0x1000000 s t := by
  have hM : Sub 0x1000000 0x1000000 := by decide
  have hD := does_refl 0x1000000 s
  refine ⟨_, rfl, ?_⟩
  try dsimp only
  repeat' first
    | with_reducible assumption
    | with_reducible apply does_toListening (sub_trans hM)
    | split

theorem does_tetherEnable {M : Nat} {s₀ : State} {s : State} (hM : Sub 0x1000000 M) (hD : Does M s₀ s) :
    Does M s₀ (State.tetherEnable s) := by
  unfold State.tetherEnable
  try dsimp only
  repeat' first
    | with_reducible assumption
    | with_reducible refine does_onTether (sub_trans hM) ?_ ?_
    | split
    | exact fun k => k

theorem does_tetherDisable {M : Nat} {s₀ : State} {s : State} (hM : Sub 0x1000000 M) (hD : Does M s₀ s) :
    Does M s₀ (State.tetherDisable s) := by
  unfold State.tetherDisable
  try dsimp only
  repeat' first
    | with_reducible assumption
    | with_reducible refine does_onTether (sub_trans hM) ?_ ?_
    | exact fun k => k

theorem does_execHeartbeatSend (s : State) :
    ∃ t, execHeartbeatSend s = .next t ∧ Does 0x1000000 s t := by
  have hM : Sub 0x1000000 0x1000000 := by decide
  have hD := does_refl 0x1000000 s
  refine ⟨_, rfl, ?_⟩
  try dsimp only
  repeat' first
    | with_reducible assumption
    | with_reducible apply does_tetherQueue (sub_trans hM)
    | split

theorem does_execTetherStationGone (station : Fin 64) (s : State) :
    ∃ t, execTetherStationGone station s = .next t ∧ Does 0xf220082 s t := by
  have hM : Sub 0xf220082 0xf220082 := by decide
  have hD := does_refl 0xf220082 s
  refine ⟨_, rfl, ?_⟩
  try dsimp only
  repeat' first
    | with_reducible assumption
    | with_reducible apply does_tableRefresh (sub_trans hM)
    | with_reducible apply does_raise (sub_trans hM)
    | with_reducible apply does_setPeer (sub_trans hM)
    | split

theorem does_rxAccept {M : Nat} {s₀ : State} {s : State} {f : TetherFrame} (hM : Sub 0xf220082 M) (hD : Does M s₀ s) :
    Does M s₀ (State.rxAccept s f) := by
  unfold State.rxAccept
  try dsimp only
  repeat' first
    | with_reducible assumption
    | with_reducible apply does_setPeer (sub_trans hM)
    | with_reducible apply does_tetherCount (sub_trans hM)
    | with_reducible apply does_emit (sub_trans hM)
    | with_reducible apply does_tableRefresh (sub_trans hM)
    | with_reducible apply does_raise (sub_trans hM)
    | split

theorem does_tetherIn {M : Nat} {s₀ : State} {s : State} {typ : Nat} {f : TetherFrame} {act : State → Nat → State}
    (ha : ∀ x n, Does M s₀ x → Does M s₀ (act x n)) (hM : Sub 0xf220082 M) (hD : Does M s₀ s) : Does M s₀ (State.tetherIn s typ f act) := by
  unfold State.tetherIn
  try dsimp only
  repeat' first
    | with_reducible assumption
    | with_reducible apply does_tetherCount (sub_trans hM)
    | with_reducible apply does_emit (sub_trans hM)
    | with_reducible apply does_rxAccept (sub_trans hM)
    | with_reducible apply ha
    | split

theorem does_recordMember {M : Nat} {s₀ : State} {s : State} {n : Nat} {f : TetherFrame} (hM : Sub 0x1000000 M) (hD : Does M s₀ s) :
    Does M s₀ (State.recordMember s n f) := by
  unfold State.recordMember
  try dsimp only
  repeat' first
    | with_reducible assumption
    | with_reducible apply does_setPeer (sub_trans hM)

theorem does_duplicate {M : Nat} {s₀ : State} {s : State} {serial : Nat} (hM : Sub 0xe220082 M) (hD : Does M s₀ s) :
    Does M s₀ (State.duplicate s serial) := by
  unfold State.duplicate
  try dsimp only
  repeat' first
    | with_reducible assumption
    | with_reducible apply does_raise (sub_trans hM)

theorem does_chooseAgain {M : Nat} {s₀ : State} {s : State} (hM : Sub 0xf220082 M) (hD : Does M s₀ s) :
    Does M s₀ (State.chooseAgain s) := by
  unfold State.chooseAgain
  try dsimp only
  repeat' first
    | with_reducible assumption
    | with_reducible apply does_choose (sub_trans hM)
    | with_reducible refine does_onTether (sub_trans hM) ?_ ?_
    | exact fun k => k

theorem does_joinedTwice {M : Nat} {s₀ : State} {s : State} {serial : Nat} (hM : Sub 0xf220082 M) (hD : Does M s₀ s) :
    Does M s₀ (State.joinedTwice s serial) := by
  unfold State.joinedTwice
  try dsimp only
  repeat' first
    | with_reducible assumption
    | with_reducible apply does_duplicate (sub_trans hM)
    | with_reducible apply does_toListening (sub_trans hM)
    | with_reducible apply does_tetherQueue (sub_trans hM)
    | split

theorem does_claimIn {M : Nat} {s₀ : State} {f : TetherFrame} {s : State} {n : Nat} (hM : Sub 0xf220082 M) (hD : Does M s₀ s) :
    Does M s₀ (State.claimIn f s n) := by
  unfold State.claimIn
  try dsimp only
  repeat' first
    | with_reducible assumption
    | with_reducible apply does_recordMember (sub_trans hM)
    | with_reducible apply does_tetherQueue (sub_trans hM)
    | with_reducible apply does_chooseAgain (sub_trans hM)
    | with_reducible apply does_duplicate (sub_trans hM)
    | split

theorem does_execClaim (frame : TetherFrame) (s : State) :
    ∃ t, execClaim frame s = .next t ∧ Does 0xf220082 s t := by
  have hM : Sub 0xf220082 0xf220082 := by decide
  have hD := does_refl 0xf220082 s
  refine ⟨_, rfl, ?_⟩
  try dsimp only
  repeat' first
    | with_reducible assumption
    | with_reducible refine does_tetherIn (fun x_ n_ hx_ => ?_) (sub_trans hM) ?_
    | with_reducible apply does_claimIn (sub_trans hM)

theorem does_objectIn {M : Nat} {s₀ : State} {f : TetherFrame} {s : State} {n : Nat} (hM : Sub 0xf220082 M) (hD : Does M s₀ s) :
    Does M s₀ (State.objectIn f s n) := by
  unfold State.objectIn
  try dsimp only
  repeat' first
    | with_reducible assumption
    | with_reducible apply does_recordMember (sub_trans hM)
    | with_reducible apply does_chooseAgain (sub_trans hM)
    | with_reducible apply does_joinedTwice (sub_trans hM)
    | split

theorem does_execObject (frame : TetherFrame) (s : State) :
    ∃ t, execObject frame s = .next t ∧ Does 0xf220082 s t := by
  have hM : Sub 0xf220082 0xf220082 := by decide
  have hD := does_refl 0xf220082 s
  refine ⟨_, rfl, ?_⟩
  try dsimp only
  repeat' first
    | with_reducible assumption
    | with_reducible refine does_tetherIn (fun x_ n_ hx_ => ?_) (sub_trans hM) ?_
    | with_reducible apply does_objectIn (sub_trans hM)

theorem does_heartbeatIn {M : Nat} {s₀ : State} {f : TetherFrame} {s : State} {n : Nat} (hM : Sub 0xf220082 M) (hD : Does M s₀ s) :
    Does M s₀ (State.heartbeatIn f s n) := by
  unfold State.heartbeatIn
  try dsimp only
  repeat' first
    | with_reducible assumption
    | with_reducible apply does_recordMember (sub_trans hM)
    | with_reducible apply does_joinedTwice (sub_trans hM)
    | with_reducible apply does_tableRefresh (sub_trans hM)
    | with_reducible apply does_setPeer (sub_trans hM)
    | split

theorem does_execHeartbeat (frame : TetherFrame) (s : State) :
    ∃ t, execHeartbeat frame s = .next t ∧ Does 0xf220082 s t := by
  have hM : Sub 0xf220082 0xf220082 := by decide
  have hD := does_refl 0xf220082 s
  refine ⟨_, rfl, ?_⟩
  try dsimp only
  repeat' first
    | with_reducible assumption
    | with_reducible refine does_tetherIn (fun x_ n_ hx_ => ?_) (sub_trans hM) ?_
    | with_reducible apply does_heartbeatIn (sub_trans hM)

theorem does_execSyncSend (s : State) :
    ∃ t, execSyncSend s = .next t ∧ Does 0x1000000 s t := by
  have hM : Sub 0x1000000 0x1000000 := by decide
  have hD := does_refl 0x1000000 s
  refine ⟨_, rfl, ?_⟩
  try dsimp only
  repeat' first
    | with_reducible assumption
    | with_reducible apply does_tetherQueue (sub_trans hM)
    | split

theorem does_syncIn {M : Nat} {s₀ : State} {f : TetherFrame} {s : State} {n : Nat} (hM : Sub 0x1000000 M) (hD : Does M s₀ s) :
    Does M s₀ (State.syncIn f s n) := by
  unfold State.syncIn
  try dsimp only
  repeat' first
    | with_reducible assumption
    | with_reducible refine does_onTether (sub_trans hM) ?_ ?_
    | split
    | exact fun k => k

theorem does_execSync (frame : TetherFrame) (s : State) :
    ∃ t, execSync frame s = .next t ∧ Does 0xf220082 s t := by
  have hM : Sub 0xf220082 0xf220082 := by decide
  have hD := does_refl 0xf220082 s
  refine ⟨_, rfl, ?_⟩
  try dsimp only
  repeat' first
    | with_reducible assumption
    | with_reducible refine does_tetherIn (fun x_ n_ hx_ => ?_) (sub_trans hM) ?_
    | with_reducible apply does_syncIn (sub_trans hM)

theorem does_followIn {M : Nat} {s₀ : State} {f : TetherFrame} {s : State} {n : Nat} (hM : Sub 0x1f221086 M) (hD : Does M s₀ s) :
    Does M s₀ (State.followIn f s n) := by
  unfold State.followIn
  try dsimp only
  repeat' first
    | with_reducible assumption
    | with_reducible refine does_onTether (sub_trans hM) ?_ ?_
    | with_reducible apply does_adjust (sub_trans hM)
    | with_reducible apply does_useFree (sub_trans hM)
    | with_reducible apply does_tetherCount (sub_trans hM)
    | split
    | exact fun k => k

theorem does_execFollow (frame : TetherFrame) (s : State) :
    ∃ t, execFollow frame s = .next t ∧ Does 0x1f221086 s t := by
  have hM : Sub 0x1f221086 0x1f221086 := by decide
  have hD := does_refl 0x1f221086 s
  refine ⟨_, rfl, ?_⟩
  try dsimp only
  repeat' first
    | with_reducible assumption
    | with_reducible refine does_tetherIn (fun x_ n_ hx_ => ?_) (sub_trans hM) ?_
    | with_reducible apply does_followIn (sub_trans hM)

theorem does_gsPropose {M : Nat} {s₀ : State} {s : State} {mode : Nat} {hottest : Int} (hM : Sub 0x1000000 M) (hD : Does M s₀ s) :
    Does M s₀ (State.gsPropose s mode hottest) := by
  unfold State.gsPropose
  try dsimp only
  repeat' first
    | with_reducible assumption
    | with_reducible refine does_onTether (sub_trans hM) ?_ ?_
    | with_reducible apply does_tetherQueue (sub_trans hM)
    | split
    | exact fun k => k

theorem does_gsWritten {M : Nat} {s₀ : State} {s : State} {v : Nat} (hM : Sub 0x1610000 M) (hD : Does M s₀ s) :
    Does M s₀ (State.gsWritten s v) := by
  unfold State.gsWritten
  try dsimp only
  repeat' first
    | with_reducible assumption
    | with_reducible apply does_arrives (sub_trans hM)
    | with_reducible refine does_onTether (sub_trans hM) ?_ ?_
    | with_reducible apply does_endIdle (sub_trans hM)
    | exact fun k => k

theorem does_execGsCmdPropose (mode : BitVec 2) (hottest : Int) (s : State) :
    ∃ t, execGsCmdPropose mode hottest s = .next t ∧ Does 0x1610000 s t := by
  have hM : Sub 0x1610000 0x1610000 := by decide
  have hD := does_refl 0x1610000 s
  refine ⟨_, rfl, ?_⟩
  try dsimp only
  repeat' first
    | with_reducible assumption
    | with_reducible apply does_gsWritten (sub_trans hM)
    | with_reducible apply does_gsPropose (sub_trans hM)
    | split

theorem does_gsVeto {M : Nat} {s₀ : State} {s : State} (hM : Sub 0x1000000 M) (hD : Does M s₀ s) :
    Does M s₀ (State.gsVeto s) := by
  unfold State.gsVeto
  try dsimp only
  repeat' first
    | with_reducible assumption
    | with_reducible apply does_tetherQueue (sub_trans hM)
    | split

theorem does_execGsCmdVeto (s : State) :
    ∃ t, execGsCmdVeto s = .next t ∧ Does 0x1610000 s t := by
  have hM : Sub 0x1610000 0x1610000 := by decide
  have hD := does_refl 0x1610000 s
  refine ⟨_, rfl, ?_⟩
  try dsimp only
  repeat' first
    | with_reducible assumption
    | with_reducible apply does_gsVeto (sub_trans hM)
    | with_reducible apply does_gsWritten (sub_trans hM)
    | split

theorem does_execGsCmdWakeAll (s : State) :
    ∃ t, execGsCmdWakeAll s = .next t ∧ Does 0x1610000 s t := by
  have hM : Sub 0x1610000 0x1610000 := by decide
  have hD := does_refl 0x1610000 s
  refine ⟨_, rfl, ?_⟩
  try dsimp only
  repeat' first
    | with_reducible assumption
    | with_reducible apply does_tetherQueue (sub_trans hM)
    | with_reducible apply does_gsWritten (sub_trans hM)
    | split

theorem does_vetoIn {M : Nat} {s₀ : State} {f : TetherFrame} {s : State} {a0 : Nat} (hM : Sub 0xf220082 M) (hD : Does M s₀ s) :
    Does M s₀ (State.vetoIn f s a0) := by
  unfold State.vetoIn
  try dsimp only
  repeat' first
    | with_reducible assumption
    | with_reducible apply does_elderAbort (sub_trans hM)
    | with_reducible apply does_gsAbort (sub_trans hM)
    | split

theorem does_execWakeVeto (frame : TetherFrame) (s : State) :
    ∃ t, execWakeVeto frame s = .next t ∧ Does 0xf220082 s t := by
  have hM : Sub 0xf220082 0xf220082 := by decide
  have hD := does_refl 0xf220082 s
  refine ⟨_, rfl, ?_⟩
  try dsimp only
  repeat' first
    | with_reducible assumption
    | with_reducible refine does_tetherIn (fun x_ n_ hx_ => ?_) (sub_trans hM) ?_
    | with_reducible apply does_vetoIn (sub_trans hM)

theorem does_wakeAllIn {M : Nat} {s₀ : State} {s : State} {n : Nat} (hM : Sub 0x1610000 M) (hD : Does M s₀ s) :
    Does M s₀ (State.wakeAllIn s n) := by
  unfold State.wakeAllIn
  try dsimp only
  repeat' first
    | with_reducible assumption
    | with_reducible apply does_registerWake (sub_trans hM)
    | split

theorem does_execWakeAll (frame : TetherFrame) (s : State) :
    ∃ t, execWakeAll frame s = .next t ∧ Does 0xf630082 s t := by
  have hM : Sub 0xf630082 0xf630082 := by decide
  have hD := does_refl 0xf630082 s
  refine ⟨_, rfl, ?_⟩
  try dsimp only
  repeat' first
    | with_reducible assumption
    | with_reducible refine does_tetherIn (fun x_ n_ hx_ => ?_) (sub_trans hM) ?_
    | with_reducible apply does_wakeAllIn (sub_trans hM)

theorem does_abortIn {M : Nat} {s₀ : State} {f : TetherFrame} {s : State} {n : Nat} (hM : Sub 0xf220082 M) (hD : Does M s₀ s) :
    Does M s₀ (State.abortIn f s n) := by
  unfold State.abortIn
  try dsimp only
  repeat' first
    | with_reducible assumption
    | with_reducible apply does_gsAbort (sub_trans hM)
    | split

theorem does_execAbort (frame : TetherFrame) (s : State) :
    ∃ t, execAbort frame s = .next t ∧ Does 0xf220082 s t := by
  have hM : Sub 0xf220082 0xf220082 := by decide
  have hD := does_refl 0xf220082 s
  refine ⟨_, rfl, ?_⟩
  try dsimp only
  repeat' first
    | with_reducible assumption
    | with_reducible refine does_tetherIn (fun x_ n_ hx_ => ?_) (sub_trans hM) ?_
    | with_reducible apply does_abortIn (sub_trans hM)

theorem does_proposeIn {M : Nat} {s₀ : State} {f : TetherFrame} {hottest : Int} {s : State} {n : Nat} (hM : Sub 0x1000000 M) (hD : Does M s₀ s) :
    Does M s₀ (State.proposeIn f hottest s n) := by
  unfold State.proposeIn
  try dsimp only
  repeat' first
    | with_reducible assumption
    | with_reducible apply does_tetherQueue (sub_trans hM)
    | with_reducible refine does_onTether (sub_trans hM) ?_ ?_
    | split
    | exact fun k => k

theorem does_execPropose (frame : TetherFrame) (hottest : Int) (s : State) :
    ∃ t, execPropose frame hottest s = .next t ∧ Does 0xf220082 s t := by
  have hM : Sub 0xf220082 0xf220082 := by decide
  have hD := does_refl 0xf220082 s
  refine ⟨_, rfl, ?_⟩
  try dsimp only
  repeat' first
    | with_reducible assumption
    | with_reducible refine does_tetherIn (fun x_ n_ hx_ => ?_) (sub_trans hM) ?_
    | with_reducible apply does_proposeIn (sub_trans hM)

theorem does_agreeIn {M : Nat} {s₀ : State} {f : TetherFrame} {s : State} {n : Nat} (hM : Sub 0x1000000 M) (hD : Does M s₀ s) :
    Does M s₀ (State.agreeIn f s n) := by
  unfold State.agreeIn
  try dsimp only
  repeat' first
    | with_reducible assumption
    | with_reducible apply does_gsCommit (sub_trans hM)
    | with_reducible refine does_onTether (sub_trans hM) ?_ ?_
    | split
    | exact fun k => k

theorem does_execAgree (frame : TetherFrame) (s : State) :
    ∃ t, execAgree frame s = .next t ∧ Does 0xf220082 s t := by
  have hM : Sub 0xf220082 0xf220082 := by decide
  have hD := does_refl 0xf220082 s
  refine ⟨_, rfl, ?_⟩
  try dsimp only
  repeat' first
    | with_reducible assumption
    | with_reducible refine does_tetherIn (fun x_ n_ hx_ => ?_) (sub_trans hM) ?_
    | with_reducible apply does_agreeIn (sub_trans hM)

theorem does_refuseIn {M : Nat} {s₀ : State} {f : TetherFrame} {s : State} {n : Nat} (hM : Sub 0xf220082 M) (hD : Does M s₀ s) :
    Does M s₀ (State.refuseIn f s n) := by
  unfold State.refuseIn
  try dsimp only
  repeat' first
    | with_reducible assumption
    | with_reducible apply does_elderAbort (sub_trans hM)
    | split

theorem does_execRefuse (frame : TetherFrame) (s : State) :
    ∃ t, execRefuse frame s = .next t ∧ Does 0xf220082 s t := by
  have hM : Sub 0xf220082 0xf220082 := by decide
  have hD := does_refl 0xf220082 s
  refine ⟨_, rfl, ?_⟩
  try dsimp only
  repeat' first
    | with_reducible assumption
    | with_reducible refine does_tetherIn (fun x_ n_ hx_ => ?_) (sub_trans hM) ?_
    | with_reducible apply does_refuseIn (sub_trans hM)

theorem does_commitIn {M : Nat} {s₀ : State} {f : TetherFrame} {s : State} {n : Nat} (hM : Sub 0xf220082 M) (hD : Does M s₀ s) :
    Does M s₀ (State.commitIn f s n) := by
  unfold State.commitIn
  try dsimp only
  repeat' first
    | with_reducible assumption
    | with_reducible apply does_raise (sub_trans hM)
    | with_reducible refine does_onTether (sub_trans hM) ?_ ?_
    | split
    | exact fun k => k

theorem does_execTetherCommit (frame : TetherFrame) (s : State) :
    ∃ t, execTetherCommit frame s = .next t ∧ Does 0xf220082 s t := by
  have hM : Sub 0xf220082 0xf220082 := by decide
  have hD := does_refl 0xf220082 s
  refine ⟨_, rfl, ?_⟩
  try dsimp only
  repeat' first
    | with_reducible assumption
    | with_reducible refine does_tetherIn (fun x_ n_ hx_ => ?_) (sub_trans hM) ?_
    | with_reducible apply does_commitIn (sub_trans hM)

theorem does_execGsAgreeWindowEnd (s : State) :
    ∃ t, execGsAgreeWindowEnd s = .next t ∧ Does 0xf220082 s t := by
  have hM : Sub 0xf220082 0xf220082 := by decide
  have hD := does_refl 0xf220082 s
  refine ⟨_, rfl, ?_⟩
  try dsimp only
  repeat' first
    | with_reducible assumption
    | with_reducible apply does_elderAbort (sub_trans hM)
    | split

theorem does_execGsCommitDeadline (s : State) :
    ∃ t, execGsCommitDeadline s = .next t ∧ Does 0xf220082 s t := by
  have hM : Sub 0xf220082 0xf220082 := by decide
  have hD := does_refl 0xf220082 s
  refine ⟨_, rfl, ?_⟩
  try dsimp only
  repeat' first
    | with_reducible assumption
    | with_reducible apply does_elderAbort (sub_trans hM)
    | split

theorem does_execGsMemberTimeout (s : State) :
    ∃ t, execGsMemberTimeout s = .next t ∧ Does 0x1000000 s t := by
  have hM : Sub 0x1000000 0x1000000 := by decide
  have hD := does_refl 0x1000000 s
  refine ⟨_, rfl, ?_⟩
  try dsimp only
  repeat' first
    | with_reducible assumption
    | with_reducible apply does_gsVeto (sub_trans hM)
    | split

theorem does_gsTime {M : Nat} {s₀ : State} {s : State} {hottest : Int} (hM : Sub 0xf630082 M) (hD : Does M s₀ s) :
    Does M s₀ (State.gsTime s hottest) := by
  unfold State.gsTime
  try dsimp only
  repeat' first
    | with_reducible assumption
    | with_reducible refine does_onTether (sub_trans hM) ?_ ?_
    | with_reducible apply does_enter (sub_trans hM)
    | with_reducible apply does_groupRefused (sub_trans hM)
    | split
    | exact fun k => k

theorem does_execGsCommitTime (hottest : Int) (s : State) :
    ∃ t, execGsCommitTime hottest s = .next t ∧ Does 0xf630082 s t := by
  have hM : Sub 0xf630082 0xf630082 := by decide
  have hD := does_refl 0xf630082 s
  refine ⟨_, rfl, ?_⟩
  try dsimp only
  repeat' first
    | with_reducible assumption
    | with_reducible apply does_gsTime (sub_trans hM)
    | split

theorem does_failoverIn {M : Nat} {s₀ : State} {f : TetherFrame} {s : State} {n : Nat} (hM : Sub 0xf220082 M) (hD : Does M s₀ s) :
    Does M s₀ (State.failoverIn f s n) := by
  unfold State.failoverIn
  try dsimp only
  repeat' first
    | with_reducible assumption
    | with_reducible apply does_raise (sub_trans hM)
    | with_reducible apply does_setPeer (sub_trans hM)

theorem does_execFailover (frame : TetherFrame) (s : State) :
    ∃ t, execFailover frame s = .next t ∧ Does 0xf220082 s t := by
  have hM : Sub 0xf220082 0xf220082 := by decide
  have hD := does_refl 0xf220082 s
  refine ⟨_, rfl, ?_⟩
  try dsimp only
  repeat' first
    | with_reducible assumption
    | with_reducible refine does_tetherIn (fun x_ n_ hx_ => ?_) (sub_trans hM) ?_
    | with_reducible apply does_failoverIn (sub_trans hM)

theorem does_operatorIn {M : Nat} {s₀ : State} {f : TetherFrame} {s : State} {n : Nat} (hM : Sub 0xf220082 M) (hD : Does M s₀ s) :
    Does M s₀ (State.operatorIn f s n) := by
  unfold State.operatorIn
  split
  · rename_i hlt
    refine does_raise (sub_trans hM) (does_onTether (sub_trans hM) (fun _ => ?_) hD)
    show (s.tether.fifo ++ [_]).length ≤ 16
    rw [List.length_append, List.length_singleton]
    omega
  · exact does_tetherCount (sub_trans hM) hD

theorem does_execOperator (frame : TetherFrame) (s : State) :
    ∃ t, execOperator frame s = .next t ∧ Does 0xf220082 s t := by
  have hM : Sub 0xf220082 0xf220082 := by decide
  have hD := does_refl 0xf220082 s
  refine ⟨_, rfl, ?_⟩
  try dsimp only
  repeat' first
    | with_reducible assumption
    | with_reducible refine does_tetherIn (fun x_ n_ hx_ => ?_) (sub_trans hM) ?_
    | with_reducible apply does_operatorIn (sub_trans hM)

theorem does_execTetherRxPop (s : State) : ∃ t, execTetherRxPop s = .next t ∧ Does 0x1610001 s t := by
  refine ⟨_, rfl, does_ite (does_refl _ s) (does_onTether (by decide) (fun k => ?_)
    (does_wrote (by decide) (does_arrives (by decide) (does_refl _ s))))⟩
  show (((s.arrives 64).wrote 0x88304 1).tether.fifo.drop 1).length ≤ 16
  rw [List.length_drop]
  exact le_trans (Nat.sub_le _ _) k

end Sys2Proof.Laws
end

