-- ==== Sys2Proof/Laws/SetupOps.lean ====
section
/-! SUPPORT. What each operation and command of Machine/SetupOps.lean can touch, and that it keeps the invariants of the blocks. -/
set_option Elab.async false
namespace Sys2Proof.Laws
open Sys2Proof.Machine

theorem overWords_wf (l : List (Nat × StagedW)) : ∀ {t : List (Nat × Word)}, Tbl.wf resetWord t = true →
    Tbl.wf resetWord (overWords t l) = true := by
  unfold overWords
  induction l with
  | nil => exact fun h => h
  | cons e r ih => exact fun h => ih (put_wf h _ _)

theorem does_withSet {M : Nat} {s₀ : State} {s : State} {p : SealedSet} (hM : Sub 0x1 M) (hD : Does M s₀ s) :
    Does M s₀ (State.withSet s p) := by
  unfold State.withSet
  exact does_onSetup (sub_trans hM) (fun k => overWords_wf p.words k) hD

theorem does_applyBifurcate {M : Nat} {s₀ : State} {s t : State} {n : Nat} (hM : Sub 0xe227fb2 M) (hD : Does M s₀ s) :
    Does M s₀ (State.applyBifurcate s t n) := by
  unfold State.applyBifurcate
  try dsimp only
  repeat' first
    | with_reducible assumption
    | with_reducible apply does_linkLost (sub_trans hM)
    | split

theorem does_settleAll {M : Nat} {s₀ : State} {s : State} (hM : Sub 0x1080 M) (hD : Does M s₀ s) :
    Does M s₀ (State.settleAll s) := by
  unfold State.settleAll
  try dsimp only
  repeat' first
    | with_reducible assumption
    | with_reducible apply does_settle (sub_trans hM)
    | with_reducible apply does_setFn (sub_trans hM)
    | split
    | with_reducible refine does_foldl (fun x_ a_ hx_ => ?_) ?_

theorem does_applyProfile {M : Nat} {s₀ : State} {p : SealedSet} {s : State} {f : Nat} (hM : Sub 0xe227f82 M) (hD : Does M s₀ s) :
    Does M s₀ (State.applyProfile p s f) := by
  unfold State.applyProfile
  try dsimp only
  repeat' first
    | with_reducible assumption
    | with_reducible apply does_setFn (sub_trans hM)
    | with_reducible apply does_beginEvict (sub_trans hM)
    | split

theorem does_applySched {M : Nat} {s₀ : State} {p : SealedSet} {old : State} {s : State} {m : Nat} (hM : Sub 0xe221582 M) (hD : Does M s₀ s) :
    Does M s₀ (State.applySched p old s m) := by
  unfold State.applySched
  try dsimp only
  repeat' first
    | with_reducible assumption
    | with_reducible apply does_gateLists (sub_trans hM)
    | with_reducible apply does_setCredit (sub_trans hM)
    | with_reducible apply does_setSch (sub_trans hM)
    | split
    | with_reducible refine does_foldl (fun x_ a_ hx_ => ?_) ?_

theorem does_applyBreakout {M : Nat} {s₀ : State} {old : State} {s : State} {p : Nat} (hM : Sub 0xe225082 M) (hD : Does M s₀ s) :
    Does M s₀ (State.applyBreakout old s p) := by
  unfold State.applyBreakout
  try dsimp only
  repeat' first
    | with_reducible assumption
    | with_reducible apply does_portDown (sub_trans hM)
    | with_reducible apply does_instEnable (sub_trans hM)
    | with_reducible apply does_setMac (sub_trans hM)
    | split
    | with_reducible refine does_foldl (fun x_ a_ hx_ => ?_) ?_

theorem does_applyEnable {M : Nat} {s₀ : State} {old : State} {s : State} {m : Nat} (hM : Sub 0xe225082 M) (hD : Does M s₀ s) :
    Does M s₀ (State.applyEnable old s m) := by
  unfold State.applyEnable
  try dsimp only
  repeat' first
    | with_reducible assumption
    | with_reducible apply does_instEnable (sub_trans hM)
    | with_reducible apply does_instDisable (sub_trans hM)
    | split

theorem does_applyPair {M : Nat} {s₀ : State} {s : State} (hM : Sub 0xe6e0082 M) (hD : Does M s₀ s) :
    Does M s₀ (State.applyPair s) := by
  unfold State.applyPair
  try dsimp only
  repeat' first
    | with_reducible assumption
    | with_reducible apply does_warmRest (sub_trans hM)
    | with_reducible apply does_mirrorNow (sub_trans hM)
    | with_reducible refine does_onTally (sub_trans hM) ?_ ?_
    | ((with_reducible refine does_onPair (sub_trans hM) ?_ ?_); focus (unfold PairSt.acts; with_reducible rfl))
    | with_reducible refine does_onPairActs (sub_trans hM) ?_
    | with_reducible apply does_setEng (sub_trans hM)
    | split
    | exact fun k => ⟨k.count, k.base, k.count⟩
    | exact fun k => ⟨k.count, k.base, k.mirror⟩
    | exact fun k => ⟨k.mirror, nofun, k.mirror⟩
    | with_reducible refine does_foldl (fun x_ a_ hx_ => ?_) ?_

theorem does_applyStyle {M : Nat} {s₀ : State} {s : State} (hM : Sub 0x500000 M) (hD : Does M s₀ s) :
    Does M s₀ (State.applyStyle s) := by
  unfold State.applyStyle
  try dsimp only
  repeat' first
    | with_reducible assumption
    | with_reducible apply does_loFollowAll (sub_trans hM)
    | with_reducible apply does_islandsTo (sub_trans hM)
    | with_reducible apply does_onPower (sub_trans hM)
    | split

theorem does_applyClock {M : Nat} {s₀ : State} {p : SealedSet} {s : State} (hM : Sub 0x100000 M) (hD : Does M s₀ s) :
    Does M s₀ (State.applyClock p s) := by
  unfold State.applyClock
  try dsimp only
  repeat' first
    | with_reducible assumption
    | with_reducible apply does_setChan (sub_trans hM)
    | split
    | with_reducible refine does_foldl (fun x_ a_ hx_ => ?_) ?_

theorem does_applyTether {M : Nat} {s₀ : State} {s : State} (hM : Sub 0x1000000 M) (hD : Does M s₀ s) :
    Does M s₀ (State.applyTether s) := by
  unfold State.applyTether
  try dsimp only
  repeat' first
    | with_reducible assumption
    | with_reducible apply does_tetherEnable (sub_trans hM)
    | with_reducible apply does_tetherDisable (sub_trans hM)
    | split

theorem does_applySet {M : Nat} {s₀ : State} {s : State} {p : SealedSet} (hM : Sub 0xffe7fb3 M) (hD : Does M s₀ s) :
    Does M s₀ (State.applySet s p) := by
  unfold State.applySet
  try dsimp only
  repeat' first
    | with_reducible assumption
    | with_reducible apply does_withSet (sub_trans hM)
    | with_reducible apply does_settleAll (sub_trans hM)
    | with_reducible apply does_applyBifurcate (sub_trans hM)
    | with_reducible apply does_applyProfile (sub_trans hM)
    | with_reducible apply does_applySched (sub_trans hM)
    | with_reducible apply does_applyBreakout (sub_trans hM)
    | with_reducible apply does_applyEnable (sub_trans hM)
    | with_reducible apply does_applyTether (sub_trans hM)
    | with_reducible apply does_applyClock (sub_trans hM)
    | with_reducible apply does_applyStyle (sub_trans hM)
    | with_reducible apply does_applyPair (sub_trans hM)
    | with_reducible apply does_fmRefresh (sub_trans hM)
    | with_reducible apply does_domainSync (sub_trans hM)
    | with_reducible apply does_flowAll (sub_trans hM)
    | with_reducible apply does_gatesRefresh (sub_trans hM)
    | with_reducible refine does_foldl (fun x_ a_ hx_ => ?_) ?_

theorem does_returnSet {M : Nat} {s₀ : State} {s : State} {p : SealedSet} (hM : Sub 0x1 M) (hD : Does M s₀ s) :
    Does M s₀ (State.returnSet s p) := by
  unfold State.returnSet
  try dsimp only
  repeat' first
    | with_reducible assumption
    | with_reducible refine does_onSetup (sub_trans hM) ?_ ?_
    | split
    | with_reducible refine does_foldl (fun x_ a_ hx_ => ?_) ?_
    | with_reducible refine does_foldl_pair (fun x_ a_ hx_ => ?_) ?_
    | exact fun k => k

theorem does_refuseAs {M : Nat} {s₀ : State} {s : State} {st : CommitState} {seq : ℕ} {off : ℕ} {why : ℕ} (hM : Sub 0xe220083 M) (hD : Does M s₀ s) :
    Does M s₀ (State.refuseAs s st seq off why) := by
  unfold State.refuseAs
  try dsimp only
  repeat' first
    | with_reducible assumption
    | ((with_reducible refine does_onSetup (sub_trans hM) ?_ ?_); focus (first | exact fun k => k | exact setupOk_of_active rfl))
    | with_reducible apply does_raise (sub_trans hM)

theorem does_refuseCommit {M : Nat} {s₀ : State} {s : State} {seq off why : Nat} (hM : Sub 0xe220083 M) (hD : Does M s₀ s) :
    Does M s₀ (State.refuseCommit s seq off why) := by
  unfold State.refuseCommit
  try dsimp only
  repeat' first
    | with_reducible assumption
    | with_reducible apply does_refuseAs (sub_trans hM)

end Sys2Proof.Laws
end

