-- ==== Sys2Proof/Laws/Setup.lean ====
section
/-! SUPPORT. What each operation and command of Machine/Setup.lean can touch, and that it keeps the invariants of the blocks. -/
set_option Elab.async false
namespace Sys2Proof.Laws
open Sys2Proof.Machine

theorem does_stageWrite {M : Nat} {s₀ : State} {s : State} {n off : Nat} {r : RegRow} {v : Nat} (hM : Sub 0xe220083 M) (hD : Does M s₀ s) :
    Does M s₀ (State.stageWrite s n off r v) := by
  unfold State.stageWrite
  try dsimp only
  repeat' first
    | with_reducible assumption
    | with_reducible apply does_raiseOnce (sub_trans hM)
    | with_reducible refine does_onSetup (sub_trans hM) ?_ ?_
    | split
    | exact fun k => k

theorem does_engTake {M : Nat} {s₀ : State} {s : State} {n : ℕ} {off : ℕ} {v : ℕ} (hM : Sub 0xe367f83 M) (hD : Does M s₀ s) :
    Does M s₀ (State.engTake s n off v) := by
  unfold State.engTake
  try dsimp only
  repeat' first
    | with_reducible assumption
    | with_reducible apply does_engWrite (sub_trans hM)
    | with_reducible apply does_hold (sub_trans hM)
    | split

theorem does_liveWrite {M : Nat} {s₀ : State} {s : State} {n : Nat} {r : Reg} {i j off v : Nat} (hM : Sub 0xf367f8f M) (hD : Does M s₀ s) :
    Does M s₀ (State.liveWrite s n r i j off v) := by
  unfold State.liveWrite
  try dsimp only
  repeat' first
    | with_reducible assumption
    | with_reducible apply does_wrote (sub_trans hM)
    | with_reducible apply does_engTake (sub_trans hM)
    | with_reducible apply does_engWrite (sub_trans hM)
    | ((with_reducible refine does_onTether (sub_trans hM) ?_ ?_); focus (exact fun k => k))
    | ((with_reducible refine does_onLog (sub_trans hM) ?_ ?_); focus (first | exact fun k => k | exact fun k => ⟨k.wf, k.top, k.heads⟩))
    | with_reducible refine does_onSetup (sub_trans hM) ?_ ?_
    | with_reducible apply does_hold (sub_trans hM)
    | with_reducible apply does_lpiTwWrite (sub_trans hM)
    | with_reducible apply does_onTime (sub_trans hM)
    | with_reducible apply does_ctrlWritten (sub_trans hM)
    | with_reducible apply does_onRtc (sub_trans hM)
    | with_reducible apply does_setChan (sub_trans hM)
    | with_reducible refine does_onSupply (sub_trans hM) ?_ ?_
    | with_reducible apply does_setSlot (sub_trans hM)
    | with_reducible apply does_setOf (sub_trans hM)
    | split
    | exact fun k => k

theorem does_writeWord {M : Nat} {s₀ : State} {s : State} {n off v : Nat} (hM : Sub 0xf367f8f M) (hD : Does M s₀ s) :
    Does M s₀ (State.writeWord s n off v) := by
  unfold State.writeWord
  try dsimp only
  repeat' first
    | with_reducible assumption
    | with_reducible apply does_liveWrite (sub_trans hM)
    | with_reducible apply does_stageWrite (sub_trans hM)
    | split

theorem does_registerWrite {M : Nat} {s₀ : State} {s : State} {n off size v : Nat} (hM : Sub 0xf367f8f M) (hD : Does M s₀ s) :
    Does M s₀ (State.registerWrite s n off size v) := by
  unfold State.registerWrite
  try dsimp only
  repeat' first
    | with_reducible assumption
    | with_reducible apply does_writeWord (sub_trans hM)
    | split

theorem does_tfWord {M : Nat} {s₀ : State} {s : State} {f : ℕ} {off : ℕ} {v : ℕ} (hM : Sub 0xe260082 M) (hD : Does M s₀ s) :
    Does M s₀ (State.tfWord s f off v) := by
  unfold State.tfWord
  try dsimp only
  repeat' first
    | with_reducible assumption
    | with_reducible apply does_recordPut (sub_trans hM)
    | with_reducible apply does_hold (sub_trans hM)
    | split

theorem does_tfWrite {M : Nat} {s₀ : State} {s : State} {f : ℕ} {off : ℕ} {size : ℕ} {v : ℕ} (hM : Sub 0xe260082 M) (hD : Does M s₀ s) :
    Does M s₀ (State.tfWrite s f off size v) := by
  unfold State.tfWrite
  try dsimp only
  repeat' first
    | with_reducible assumption
    | with_reducible apply does_tfWord (sub_trans hM)
    | split

theorem does_execRegisterWrite (bar : Bar) (offset : ℕ) (size : ℕ) (value : BitVec 64) (s : State) :
    ∃ t, execRegisterWrite bar offset size value s = .next t ∧ Does 0xf777f8f s t := by
  have hM : Sub 0xf777f8f 0xf777f8f := by decide
  have hD := does_refl 0xf777f8f s
  refine ⟨_, rfl, ?_⟩
  try dsimp only
  repeat' first
    | with_reducible assumption
    | with_reducible apply does_tfWrite (sub_trans hM)
    | with_reducible apply does_arrives (sub_trans hM)
    | with_reducible apply does_registerWrite (sub_trans hM)
    | split

theorem does_commit {M : Nat} {s₀ : State} {s : State} {seq : Nat} (hM : Sub 0xe220083 M) (hD : Does M s₀ s) :
    Does M s₀ (State.commit s seq) := by
  unfold State.commit
  try dsimp only
  repeat' first
    | with_reducible assumption
    | with_reducible apply does_refuseAs (sub_trans hM)
    | with_reducible refine does_onSetup (sub_trans hM) ?_ ?_
    | with_reducible apply does_refuseCommit (sub_trans hM)
    | with_reducible apply does_raise (sub_trans hM)
    | split
    | exact fun k => k

theorem does_execCommit (of : Fin 4) (seq : BitVec 16) (s : State) :
    ∃ t, execCommit of seq s = .next t ∧ Does 0xf630083 s t := by
  have hM : Sub 0xf630083 0xf630083 := by decide
  have hD := does_refl 0xf630083 s
  refine ⟨_, rfl, ?_⟩
  try dsimp only
  repeat' first
    | with_reducible assumption
    | with_reducible apply does_arrives (sub_trans hM)
    | with_reducible apply does_commit (sub_trans hM)
    | with_reducible apply does_endIdle (sub_trans hM)
    | split

theorem does_discard {M : Nat} {s₀ : State} {s : State} (hM : Sub 0x1 M) (hD : Does M s₀ s) :
    Does M s₀ (State.discard s) := by
  unfold State.discard
  try dsimp only
  repeat' first
    | with_reducible assumption
    | with_reducible refine does_onSetup (sub_trans hM) ?_ ?_
    | exact fun k => k

theorem does_execDiscard (of : Fin 4) (s : State) :
    ∃ t, execDiscard of s = .next t ∧ Does 0x1610001 s t := by
  have hM : Sub 0x1610001 0x1610001 := by decide
  have hD := does_refl 0x1610001 s
  refine ⟨_, rfl, ?_⟩
  try dsimp only
  repeat' first
    | with_reducible assumption
    | with_reducible apply does_arrives (sub_trans hM)
    | with_reducible apply does_discard (sub_trans hM)
    | with_reducible apply does_endIdle (sub_trans hM)
    | split

theorem does_promote {M : Nat} {s₀ : State} {s : State} (hM : Sub 0xe220083 M) (hD : Does M s₀ s) :
    Does M s₀ (State.promote s) := by
  unfold State.promote
  try dsimp only
  repeat' first
    | with_reducible assumption
    | with_reducible apply does_deferCommit (sub_trans hM)
    | with_reducible refine does_onSetup (sub_trans hM) ?_ ?_
    | split
    | exact fun k => k

theorem does_commitApply {M : Nat} {s₀ : State} {s : State} {p : SealedSet} (hM : Sub 0xffe7fb3 M) (hD : Does M s₀ s) :
    Does M s₀ (State.commitApply s p) := by
  unfold State.commitApply
  try dsimp only
  repeat' first
    | with_reducible assumption
    | with_reducible refine does_onSetup (sub_trans hM) ?_ ?_
    | with_reducible apply does_promote (sub_trans hM)
    | with_reducible apply does_refuseCommit (sub_trans hM)
    | with_reducible apply does_returnSet (sub_trans hM)
    | with_reducible apply does_raise (sub_trans hM)
    | with_reducible apply does_applySet (sub_trans hM)
    | split
    | exact fun k => k

theorem does_execCommitApply (s : State) :
    ∃ t, execCommitApply s = .next t ∧ Does 0xffe7fb3 s t := by
  have hM : Sub 0xffe7fb3 0xffe7fb3 := by decide
  have hD := does_refl 0xffe7fb3 s
  refine ⟨_, rfl, ?_⟩
  try dsimp only
  repeat' first
    | with_reducible assumption
    | with_reducible apply does_commitApply (sub_trans hM)
    | split

theorem does_setupLock {M : Nat} {s₀ : State} {s : State} (hM : Sub 0xe220083 M) (hD : Does M s₀ s) :
    Does M s₀ (State.setupLock s) := by
  unfold State.setupLock
  try dsimp only
  repeat' first
    | with_reducible assumption
    | with_reducible apply does_raise (sub_trans hM)
    | with_reducible refine does_onSetup (sub_trans hM) ?_ ?_
    | split
    | exact fun k => k

theorem does_execSetupLock (of : Fin 4) (s : State) :
    ∃ t, execSetupLock of s = .next t ∧ Does 0xf630083 s t := by
  have hM : Sub 0xf630083 0xf630083 := by decide
  have hD := does_refl 0xf630083 s
  refine ⟨_, rfl, ?_⟩
  try dsimp only
  repeat' first
    | with_reducible assumption
    | with_reducible apply does_arrives (sub_trans hM)
    | with_reducible apply does_setupLock (sub_trans hM)
    | with_reducible apply does_endIdle (sub_trans hM)
    | split

end Sys2Proof.Laws
end

