-- ==== Sys2Proof/Laws/Start.lean ====
section
/-! SUPPORT. What each operation and command of Machine/Start.lean can touch, and that it keeps the invariants of the blocks. -/
set_option Elab.async false
namespace Sys2Proof.Laws
open Sys2Proof.Machine

theorem does_setFwSlot {M : Nat} {s₀ : State} {s : State} {n : Nat} {x : FwSlot} (hM : Sub 0x2000000 M) (hD : Does M s₀ s) :
    Does M s₀ (State.setFwSlot s n x) := by
  unfold State.setFwSlot
  try dsimp only
  repeat' first
    | with_reducible assumption
    | with_reducible refine does_onLog (sub_trans hM) ?_ ?_
    | split
    | exact fun k => ⟨k.wf, k.top, k.heads⟩

/-- A reset keeps the Logbook's memory, the deferred records and the queues in their bounds. -/
theorem does_shellCleared {M : Nat} {s₀ : State} {s : State} (hM : Sub 0x7ffffff M) (hD : Does M s₀ s) :
    Does M s₀ (State.shellCleared s) := by
  refine does_trans hD (does_mono (a := 0x7ffffff) ⟨fun p hp => ?_, fun h => h, fun _ => rfl, fun _ => ⟨nofun, nofun, nofun⟩,
    fun h => h, fun h => h, List.prefix_refl _⟩ hM)
  cases p <;> first | rfl | exact absurd hp (by decide)

theorem does_sledCleared {M : Nat} {s₀ : State} {s : State} {reason : Nat} (hM : Sub 0x1fffffff M) (hD : Does M s₀ s) :
    Does M s₀ (State.sledCleared s reason) := by
  unfold State.sledCleared
  refine does_onLog (sub_trans hM) (fun k => ?_) ?_
  · unfold LogSt.saveKept
    split <;> exact ⟨k.wf, k.top, k.heads⟩
  with_reducible apply does_onEvents (sub_trans hM)
  with_reducible refine does_onTether (sub_trans hM) (fun _ => Nat.zero_le _) ?_
  with_reducible apply does_onLookout (sub_trans hM)
  with_reducible apply does_onOfs (sub_trans hM)
  with_reducible apply does_shellCleared (sub_trans hM)
  with_reducible exact does_abandonSave (sub_trans hM) hD

theorem does_bulkCleared {M : Nat} {s₀ : State} {s : State} (hM : Sub 0x1fffffff M) (hD : Does M s₀ s) :
    Does M s₀ (State.bulkCleared s) := by
  unfold State.bulkCleared
  with_reducible apply does_applyTether (sub_trans hM)
  refine does_onLog (sub_trans hM) (fun k => ?_) ?_
  · unfold LogSt.saveKept
    split <;> exact ⟨k.wf, k.top, k.heads⟩
  with_reducible apply does_onEvents (sub_trans hM)
  with_reducible apply does_onLookout (sub_trans hM)
  with_reducible apply does_onOfs (sub_trans hM)
  with_reducible apply does_shellCleared (sub_trans hM)
  with_reducible exact does_abandonSave (sub_trans hM) hD

theorem does_mount {M : Nat} {s₀ : State} {s : State} (hM : Sub 0x2000000 M) (hD : Does M s₀ s) :
    Does M s₀ (State.mount s) := by
  unfold State.mount
  try dsimp only
  repeat' first
    | with_reducible assumption
    | with_reducible refine does_onLog (sub_trans hM) ?_ ?_
    | split
    | exact fun k => ⟨k.wf, k.top, k.heads⟩

theorem does_coldWake {M : Nat} {s₀ : State} {s : State} {codes : List Nat} {replay : Bool} (hM : Sub 0x400000 M) (hD : Does M s₀ s) :
    Does M s₀ (State.coldWake s codes replay) := by
  unfold State.coldWake
  try dsimp only
  repeat' first
    | with_reducible assumption
    | with_reducible apply does_onPower (sub_trans hM)

theorem does_coldEvents {M : Nat} {s₀ : State} {s : State} {codes : List Nat} (hM : Sub 0xe220082 M) (hD : Does M s₀ s) :
    Does M s₀ (State.coldEvents s codes) := by
  have h1 := does_ite (c := 0 < s.supply.tries) (does_raise (e := .wakePinNoMains) (payload := le 4 s.supply.tries) (sub_trans hM) hD) hD
  have h2 := does_ite (c := 0x12 ∈ codes) (does_raise (e := .cellLost) (payload := []) (sub_trans hM) h1) h1
  have h3 := does_ite (c := 0x13 ∈ codes) (does_raise (e := .aoBrownout) (payload := []) (sub_trans hM) h2) h2
  unfold State.coldEvents
  with_reducible refine does_onSupply (sub_trans hM) ?_ h3
  exact fun k => k

theorem does_bootFirmware {M : Nat} {s₀ : State} {s : State} (hM : Sub 0xe620082 M) (hD : Does M s₀ s) :
    Does M s₀ (State.bootFirmware s) := by
  unfold State.bootFirmware
  try dsimp only
  repeat' first
    | with_reducible assumption
    | with_reducible apply does_islandsTo (sub_trans hM)
    | with_reducible refine does_onLog (sub_trans hM) ?_ ?_
    | with_reducible apply does_onPower (sub_trans hM)
    | with_reducible apply does_raise (sub_trans hM)
    | split
    | exact fun k => ⟨k.wf, k.top, k.heads⟩

theorem does_timeRestart {M : Nat} {s₀ : State} {s : State} (hM : Sub 0xe220086 M) (hD : Does M s₀ s) :
    Does M s₀ (State.timeRestart s) := by
  unfold State.timeRestart
  try dsimp only
  repeat' first
    | with_reducible assumption
    | with_reducible apply does_setSource (sub_trans hM)
    | with_reducible apply does_onTime (sub_trans hM)

theorem does_formPair {M : Nat} {s₀ : State} {s : State} {test : SelfTest} (hM : Sub 0xf2e7fb2 M) (hD : Does M s₀ s) :
    Does M s₀ (State.formPair s test) := by
  unfold State.formPair
  try dsimp only
  repeat' first
    | with_reducible assumption
    | with_reducible apply does_announce (sub_trans hM)
    | with_reducible apply does_raise (sub_trans hM)
    | with_reducible apply does_failEngine (sub_trans hM)
    | with_reducible apply does_setEng (sub_trans hM)
    | with_reducible apply does_fence (sub_trans hM)
    | split

theorem does_imageEnds {M : Nat} {s₀ : State} {s : State} {c : Nat} {p : SealedSet} {fault : Option (Nat × Nat)} (hM : Sub 0xffe7fb3 M) (hD : Does M s₀ s) :
    Does M s₀ (State.imageEnds s c p fault).1 := by
  have h1 := does_applySet (p := p) (sub_trans hM)
    (does_onSetup (f := fun u => { u with staged := [], flowStaged := [] }) (sub_trans hM) (setupOk_of_active rfl) hD)
  have h2 := does_onSetup (f := fun u => { u with appliedSeq := 0, seq := 0, state := .idle }) (sub_trans hM) (setupOk_of_active rfl) h1
  have h3 := does_onLog (f := fun l => { l with imgUsed := c, imgGen := s.copyGen c }) (sub_trans hM) (fun k => ⟨k.wf, k.top, k.heads⟩)
    (does_raise (e := .commitApplied) (payload := le 2 0) (sub_trans hM) h2)
  rcases fault with _ | ⟨off, why⟩
  · exact does_ite (does_setupLock (sub_trans hM) h3) h3
  · exact does_raise (sub_trans hM) (does_refuseCommit (sub_trans hM) (does_returnSet (sub_trans hM) hD))

theorem does_imageTry {M : Nat} {s₀ : State} {s : State} {c : Nat} (hM : Sub 0xffe7fb3 M) (hD : Does M s₀ s) :
    Does M s₀ (State.imageTry s c).1 := by
  unfold State.imageTry
  exact does_imageEnds hM hD

theorem does_imageRun {M : Nat} {s₀ : State} {s : State} {l : List Nat} (hM : Sub 0xffe7fb3 M) (hD : Does M s₀ s) :
    Does M s₀ (State.imageRun s l).1 := by
  induction l generalizing s with
  | nil => exact hD
  | cons a r ih =>
    have ht := does_imageTry (c := a) hM hD
    obtain ⟨x, hx⟩ : ∃ x, x = s.imageRun (a :: r) := ⟨_, rfl⟩
    rw [← hx]
    rw [State.imageRun] at hx
    generalize s.imageTry a = t at ht hx
    split at hx
    · rw [hx]
      exact ht
    · rw [hx]
      exact ih ht

theorem does_imageStage {M : Nat} {s₀ : State} {s : State} (hM : Sub 0xffe7fb3 M) (hD : Does M s₀ s) :
    Does M s₀ (State.imageStage s) := by
  unfold State.imageStage
  try dsimp only
  repeat' first
    | with_reducible assumption
    | with_reducible apply does_raise (sub_trans hM)
    | with_reducible apply does_imageRun (sub_trans hM)
    | split
    | with_reducible refine does_foldl (fun x_ a_ hx_ => ?_) ?_

theorem does_startRest {M : Nat} {s₀ : State} {s : State} {test : SelfTest} {cold : Bool} (hM : Sub 0xffe7fb3 M) (hD : Does M s₀ s) :
    Does M s₀ (State.startRest s test cold) := by
  have h1 : Does M s₀ ((s.onLog (fun l => { l with stage := 2 })).formPair test) :=
    does_formPair (sub_trans hM) (does_onLog (sub_trans hM) (fun k => ⟨k.wf, k.top, k.heads⟩) hD)
  unfold State.startRest
  generalize (s.onLog (fun l => { l with stage := 2 })).formPair test = s1 at h1 ⊢
  have h2 : ∀ l, Does M s₀ (s1.raise .pwrExited l) := fun _ => does_raise (sub_trans hM) h1
  have h3 := does_ite (c := cold = true) (h2 (le 4 s1.wakeWord ++ le 8 s1.power.wakeTime)) h1
  refine does_ite h1 ?_
  generalize (if cold = true then s1.raise .pwrExited (le 4 s1.wakeWord ++ le 8 s1.power.wakeTime) else s1) = s2 at h3 ⊢
  have h4 := does_imageStage hM (does_onLog (f := fun l => { l with stage := 3 }) (sub_trans hM) (fun k => ⟨k.wf, k.top, k.heads⟩) h3)
  have h5 := does_onLog (f := fun l => { l with stage := 4 }) (sub_trans hM) (fun k => ⟨k.wf, k.top, k.heads⟩) h4
  exact does_fmRefresh (sub_trans hM) h5

theorem does_heldReset {M : Nat} {s₀ : State} {s : State} (hM : Sub 0x2600000 M) (hD : Does M s₀ s) :
    Does M s₀ (State.heldReset s) := by
  unfold State.heldReset
  try dsimp only
  repeat' first
    | with_reducible assumption
    | with_reducible refine does_onLog (sub_trans hM) ?_ ?_
    | with_reducible apply does_onPower (sub_trans hM)
    | with_reducible refine does_onSupply (sub_trans hM) ?_ ?_
    | exact fun k => k
    | exact fun k => ⟨k.wf, k.top, k.heads⟩

theorem does_sledReset {M : Nat} {s₀ : State} {s : State} {reason : Nat} {test : SelfTest} (hM : Sub 0x1fffffff M) (hD : Does M s₀ s) :
    Does M s₀ (State.sledReset s reason test) := by
  unfold State.sledReset
  try dsimp only
  repeat' first
    | with_reducible assumption
    | with_reducible apply does_bootFirmware (sub_trans hM)
    | with_reducible apply does_mount (sub_trans hM)
    | with_reducible apply does_sledCleared (sub_trans hM)
    | with_reducible apply does_heldReset (sub_trans hM)
    | with_reducible apply does_startRest (sub_trans hM)
    | with_reducible apply does_timeRestart (sub_trans hM)
    | split

theorem does_calibrated {M : Nat} {s₀ : State} {s : State} (hM : Sub 0x10020000 M) (hD : Does M s₀ s) :
    Does M s₀ (State.calibrated s) := by
  unfold State.calibrated
  try dsimp only
  repeat' first
    | with_reducible assumption
    | ((with_reducible refine does_onTally (sub_trans hM) ?_ ?_); focus (first | exact fun k => k | exact fun k => ⟨k.count, k.base, k.mirror⟩))
    | with_reducible apply does_useFree (sub_trans hM)

theorem does_coldStart {M : Nat} {s₀ : State} {s : State} {how : StartBy} {test : SelfTest} (hM : Sub 0x1fffffff M) (hD : Does M s₀ s) :
    Does M s₀ (State.coldStart s how test) := by
  unfold State.coldStart
  try dsimp only
  repeat' first
    | with_reducible assumption
    | with_reducible apply does_calibrated (sub_trans hM)
    | with_reducible apply does_sledCleared (sub_trans hM)
    | with_reducible apply does_onRtc (sub_trans hM)
    | with_reducible apply does_mount (sub_trans hM)
    | with_reducible refine does_onSupply (sub_trans hM) ?_ ?_
    | with_reducible apply does_onTime (sub_trans hM)
    | with_reducible apply does_bootFirmware (sub_trans hM)
    | with_reducible apply does_coldEvents (sub_trans hM)
    | with_reducible apply does_raise (sub_trans hM)
    | with_reducible apply does_coldWake (sub_trans hM)
    | with_reducible apply does_startRest (sub_trans hM)
    | split
    | exact fun k => k
    | exact fun _ => Nat.zero_le _

end Sys2Proof.Laws
end

