-- ==== Sys2Proof/Laws/StartLog.lean ====
section
/-! SUPPORT. What each operation and command of Machine/StartLog.lean can touch, and that it keeps the invariants of the blocks. -/
set_option Elab.async false
namespace Sys2Proof.Laws
open Sys2Proof.Machine

theorem does_execColdStart (how : StartBy) (test : SelfTest) (s : State) :
    ∃ t, execColdStart how test s = .next t ∧ Does 0x1fffffff s t := by
  have hM : Sub 0x1fffffff 0x1fffffff := by decide
  have hD := does_refl 0x1fffffff s
  refine ⟨_, rfl, ?_⟩
  try dsimp only
  repeat' first
    | with_reducible assumption
    | with_reducible apply does_coldStart (sub_trans hM)
    | split

theorem does_execSledReset (key : BitVec 16) (test : SelfTest) (s : State) :
    ∃ t, execSledReset key test s = .next t ∧ Does 0x1fffffff s t := by
  have hM : Sub 0x1fffffff 0x1fffffff := by decide
  have hD := does_refl 0x1fffffff s
  refine ⟨_, rfl, ?_⟩
  try dsimp only
  repeat' first
    | with_reducible assumption
    | with_reducible apply does_wrote (sub_trans hM)
    | with_reducible apply does_arrives (sub_trans hM)
    | with_reducible apply does_sledReset (sub_trans hM)
    | with_reducible apply does_endIdle (sub_trans hM)
    | split

theorem does_execChassisReset (test : SelfTest) (s : State) :
    ∃ t, execChassisReset test s = .next t ∧ Does 0x1fffffff s t := by
  have hM : Sub 0x1fffffff 0x1fffffff := by decide
  have hD := does_refl 0x1fffffff s
  refine ⟨_, rfl, ?_⟩
  try dsimp only
  repeat' first
    | with_reducible assumption
    | with_reducible apply does_sledReset (sub_trans hM)
    | split

theorem does_started {M : Nat} {s₀ : State} {s : State} {ms : Nat} (hM : Sub 0xe220082 M) (hD : Does M s₀ s) :
    Does M s₀ (State.started s ms) := by
  unfold State.started
  try dsimp only
  repeat' first
    | with_reducible assumption
    | with_reducible refine does_onLog (sub_trans hM) ?_ ?_
    | with_reducible apply does_raise (sub_trans hM)
    | split
    | exact fun k => ⟨k.wf, k.top, k.heads⟩

theorem does_execSledStarted (ms : BitVec 16) (s : State) :
    ∃ t, execSledStarted ms s = .next t ∧ Does 0xe220082 s t := by
  have hM : Sub 0xe220082 0xe220082 := by decide
  have hD := does_refl 0xe220082 s
  refine ⟨_, rfl, ?_⟩
  try dsimp only
  repeat' first
    | with_reducible assumption
    | with_reducible apply does_started (sub_trans hM)
    | split

theorem does_execTimePairRecord (s : State) :
    ∃ t, execTimePairRecord s = .next t ∧ Does 0x8 s t := by
  have hM : Sub 0x8 0x8 := by decide
  have hD := does_refl 0x8 s
  refine ⟨_, rfl, ?_⟩
  try dsimp only
  repeat' first
    | with_reducible assumption
    | with_reducible apply does_recordPair (sub_trans hM)
    | split

theorem does_fwSet {M : Nat} {s₀ : State} {s : State} {st why cmd : Nat} (hM : Sub 0x2000000 M) (hD : Does M s₀ s) :
    Does M s₀ (State.fwSet s st why cmd) := by
  unfold State.fwSet
  try dsimp only
  repeat' first
    | with_reducible assumption
    | with_reducible refine does_onLog (sub_trans hM) ?_ ?_
    | exact fun k => ⟨k.wf, k.top, k.heads⟩

theorem does_fwStage {M : Nat} {s₀ : State} {s : State} {n : Nat} (hM : Sub 0x1e227f82 M) (hD : Does M s₀ s) :
    Does M s₀ (State.fwStage s n) := by
  unfold State.fwStage
  try dsimp only
  repeat' first
    | with_reducible assumption
    | with_reducible apply does_fwSet (sub_trans hM)
    | with_reducible apply does_useFree (sub_trans hM)
    | with_reducible apply does_issueRead (sub_trans hM)
    | with_reducible apply does_violation (sub_trans hM)
    | split

theorem does_execFwCmdStage (of : Fin 4) (s : State) :
    ∃ t, execFwCmdStage of s = .next t ∧ Does 0x1f637f82 s t := by
  have hM : Sub 0x1f637f82 0x1f637f82 := by decide
  have hD := does_refl 0x1f637f82 s
  refine ⟨_, rfl, ?_⟩
  try dsimp only
  repeat' first
    | with_reducible assumption
    | with_reducible apply does_arrives (sub_trans hM)
    | with_reducible apply does_fwStage (sub_trans hM)
    | with_reducible apply does_endIdle (sub_trans hM)
    | split

theorem does_fwVerified {M : Nat} {s₀ : State} {s : State} {x : FwSlot} (hM : Sub 0xe220882 M) (hD : Does M s₀ s) :
    Does M s₀ (State.fwVerified s x) := by
  unfold State.fwVerified
  try dsimp only
  repeat' first
    | with_reducible assumption
    | with_reducible apply does_raise (sub_trans hM)
    | with_reducible apply does_fwSet (sub_trans hM)
    | with_reducible apply does_onHost (sub_trans hM)
    | with_reducible apply does_setFwSlot (sub_trans hM)

theorem does_execFwStaged (sigGood : Bool) (svn : BitVec 16) (line : Nat) (raiseFlag : Bool) (build : BitVec 16) (s : State) :
    ∃ t, execFwStaged sigGood svn line raiseFlag build s = .next t ∧ Does 0xe220882 s t := by
  have hM : Sub 0xe220882 0xe220882 := by decide
  have hD := does_refl 0xe220882 s
  refine ⟨_, rfl, ?_⟩
  try dsimp only
  repeat' first
    | with_reducible assumption
    | with_reducible apply does_fwVerified (sub_trans hM)
    | split

theorem does_fwActivate {M : Nat} {s₀ : State} {s : State} (hM : Sub 0x2000000 M) (hD : Does M s₀ s) :
    Does M s₀ (State.fwActivate s) := by
  unfold State.fwActivate
  try dsimp only
  repeat' first
    | with_reducible assumption
    | with_reducible apply does_fwSet (sub_trans hM)
    | with_reducible refine does_onLog (sub_trans hM) ?_ ?_
    | split
    | exact fun k => ⟨k.wf, k.top, k.heads⟩

theorem does_execFwCmdActivate (of : Fin 4) (s : State) :
    ∃ t, execFwCmdActivate of s = .next t ∧ Does 0x3610000 s t := by
  have hM : Sub 0x3610000 0x3610000 := by decide
  have hD := does_refl 0x3610000 s
  refine ⟨_, rfl, ?_⟩
  try dsimp only
  repeat' first
    | with_reducible assumption
    | with_reducible apply does_arrives (sub_trans hM)
    | with_reducible apply does_fwActivate (sub_trans hM)
    | with_reducible apply does_endIdle (sub_trans hM)
    | split

theorem does_execLogCmdSave (lockAfterLoad : Bool) (s : State) :
    ∃ t, execLogCmdSave lockAfterLoad s = .next t ∧ Does 0x3610000 s t := by
  have hM : Sub 0x3610000 0x3610000 := by decide
  have hD := does_refl 0x3610000 s
  refine ⟨_, rfl, ?_⟩
  try dsimp only
  repeat' first
    | with_reducible assumption
    | with_reducible apply does_arrives (sub_trans hM)
    | with_reducible apply does_save (sub_trans hM)
    | with_reducible apply does_endIdle (sub_trans hM)
    | split

theorem does_execSetupImageSaved (s : State) :
    ∃ t, execSetupImageSaved s = .next t ∧ Does 0xe220082 s t := by
  have hM : Sub 0xe220082 0xe220082 := by decide
  have hD := does_refl 0xe220082 s
  refine ⟨_, rfl, ?_⟩
  try dsimp only
  repeat' first
    | with_reducible assumption
    | with_reducible apply does_saved (sub_trans hM)
    | split

theorem does_scrub {M : Nat} {s₀ : State} {s : State} {row : Nat} {corrected failed : Bool} (hM : Sub 0xe220082 M) (hD : Does M s₀ s) :
    Does M s₀ (State.scrub s row corrected failed) := by
  unfold State.scrub
  try dsimp only
  repeat' first
    | with_reducible assumption
    | with_reducible refine does_onLog (sub_trans hM) ?_ ?_
    | with_reducible apply does_setImage (sub_trans hM)
    | with_reducible apply does_raise (sub_trans hM)
    | split
    | exact fun k => ⟨k.wf, k.top, k.heads⟩

theorem does_execLogbookScrub (row : Fin 32768) (corrected failed : Bool) (s : State) :
    ∃ t, execLogbookScrub row corrected failed s = .next t ∧ Does 0xe220082 s t := by
  have hM : Sub 0xe220082 0xe220082 := by decide
  have hD := does_refl 0xe220082 s
  refine ⟨_, rfl, ?_⟩
  try dsimp only
  repeat' first
    | with_reducible assumption
    | with_reducible apply does_scrub (sub_trans hM)
    | split

theorem does_healthTick {M : Nat} {s₀ : State} {s : State} (hM : Sub 0xe220082 M) (hD : Does M s₀ s) :
    Does M s₀ (State.healthTick s) := by
  unfold State.healthTick
  try dsimp only
  repeat' first
    | with_reducible assumption
    | with_reducible apply does_logRow (sub_trans hM)
    | ((with_reducible refine does_onLog (sub_trans hM) ?_ ?_); focus (first | exact fun k => k | exact fun k => ⟨k.wf, k.top, k.heads⟩))
    | split

theorem does_execLedgerEntry (s : State) :
    ∃ t, execLedgerEntry s = .next t ∧ Does 0xe220082 s t := by
  have hM : Sub 0xe220082 0xe220082 := by decide
  have hD := does_refl 0xe220082 s
  refine ⟨_, rfl, ?_⟩
  try dsimp only
  repeat' first
    | with_reducible assumption
    | with_reducible apply does_ledger (sub_trans hM)
    | split

theorem does_execEvAlertAck (s : State) :
    ∃ t, execEvAlertAck s = .next t ∧ Does 0x5610000 s t := by
  have hM : Sub 0x5610000 0x5610000 := by decide
  have hD := does_refl 0x5610000 s
  refine ⟨_, rfl, ?_⟩
  try dsimp only
  repeat' first
    | with_reducible assumption
    | with_reducible apply does_arrives (sub_trans hM)
    | with_reducible apply does_endIdle (sub_trans hM)
    | with_reducible apply does_onEvents (sub_trans hM)
    | split

theorem does_execEvTest (of : Fin 4) (key : BitVec 16) (s : State) :
    ∃ t, execEvTest of key s = .next t ∧ Does 0xf630083 s t := by
  have hM : Sub 0xf630083 0xf630083 := by decide
  have hD := does_refl 0xf630083 s
  refine ⟨_, rfl, ?_⟩
  try dsimp only
  repeat' first
    | with_reducible assumption
    | with_reducible apply does_wrote (sub_trans hM)
    | with_reducible apply does_arrives (sub_trans hM)
    | with_reducible apply does_raise (sub_trans hM)
    | with_reducible apply does_endIdle (sub_trans hM)
    | split

end Sys2Proof.Laws
end

