-- ==== Sys2Proof/Laws/Power.lean ====
section
/-! SUPPORT. What each operation and command of Machine/Power.lean can touch, and that it keeps the invariants of the blocks. -/
set_option Elab.async false
namespace Sys2Proof.Laws
open Sys2Proof.Machine

theorem does_alarmFires {M : Nat} {s₀ : State} {s : State} (hM : Sub 0xf63008a M) (hD : Does M s₀ s) :
    Does M s₀ (State.alarmFires s) := by
  unfold State.alarmFires
  try dsimp only
  repeat' first
    | with_reducible assumption
    | with_reducible apply does_registerWake (sub_trans hM)
    | with_reducible apply does_raise (sub_trans hM)
    | with_reducible apply does_onRtc (sub_trans hM)

theorem does_execRtcAlarm (s : State) :
    ∃ t, execRtcAlarm s = .next t ∧ Does 0xf63008a s t := by
  have hM : Sub 0xf63008a 0xf63008a := by decide
  have hD := does_refl 0xf63008a s
  refine ⟨_, rfl, ?_⟩
  try dsimp only
  repeat' first
    | with_reducible assumption
    | with_reducible apply does_alarmFires (sub_trans hM)
    | split

theorem does_execL1Exit (link : Fin 8) (s : State) :
    ∃ t, execL1Exit link s = .next t ∧ Does 0x1610010 s t := by
  have hM : Sub 0x1610010 0x1610010 := by decide
  have hD := does_refl 0x1610010 s
  refine ⟨_, rfl, ?_⟩
  try dsimp only
  repeat' first
    | with_reducible assumption
    | with_reducible apply does_registerWake (sub_trans hM)
    | with_reducible apply does_setLink (sub_trans hM)
    | split

theorem does_pinRecorded {M : Nat} {s₀ : State} {s : State} (hM : Sub 0x1610000 M) (hD : Does M s₀ s) :
    Does M s₀ (State.pinRecorded s) := by
  unfold State.pinRecorded
  try dsimp only
  repeat' first
    | with_reducible assumption
    | with_reducible apply does_registerWake (sub_trans hM)
    | with_reducible apply does_onPower (sub_trans hM)

theorem does_pinInOff {M : Nat} {s₀ : State} {s : State} (hM : Sub 0x200000 M) (hD : Does M s₀ s) :
    Does M s₀ (State.pinInOff s) := by
  unfold State.pinInOff
  try dsimp only
  repeat' first
    | with_reducible assumption
    | with_reducible refine does_onSupply (sub_trans hM) ?_ ?_
    | split
    | exact fun k => k

theorem does_execWakePin (s : State) :
    ∃ t, execWakePin s = .next t ∧ Does 0x1610000 s t := by
  have hM : Sub 0x1610000 0x1610000 := by decide
  have hD := does_refl 0x1610000 s
  refine ⟨_, rfl, ?_⟩
  try dsimp only
  repeat' first
    | with_reducible assumption
    | with_reducible apply does_pinRecorded (sub_trans hM)
    | with_reducible apply does_pinInOff (sub_trans hM)
    | with_reducible apply does_registerWake (sub_trans hM)
    | split

theorem does_execPwrCmdSleep (s : State) :
    ∃ t, execPwrCmdSleep s = .next t ∧ Does 0xf630083 s t := by
  have hM : Sub 0xf630083 0xf630083 := by decide
  have hD := does_refl 0xf630083 s
  refine ⟨_, rfl, ?_⟩
  try dsimp only
  repeat' first
    | with_reducible assumption
    | with_reducible apply does_wrote (sub_trans hM)
    | with_reducible apply does_arrives (sub_trans hM)
    | with_reducible apply does_enter (sub_trans hM)
    | with_reducible apply does_endIdle (sub_trans hM)
    | split

theorem does_execPwrCmdDeepSleep (hottest : Int) (s : State) :
    ∃ t, execPwrCmdDeepSleep hottest s = .next t ∧ Does 0xf630083 s t := by
  have hM : Sub 0xf630083 0xf630083 := by decide
  have hD := does_refl 0xf630083 s
  refine ⟨_, rfl, ?_⟩
  try dsimp only
  repeat' first
    | with_reducible assumption
    | with_reducible apply does_wrote (sub_trans hM)
    | with_reducible apply does_arrives (sub_trans hM)
    | with_reducible apply does_enter (sub_trans hM)
    | with_reducible apply does_endIdle (sub_trans hM)
    | split

theorem does_execPwrCmdOff (s : State) :
    ∃ t, execPwrCmdOff s = .next t ∧ Does 0xf630083 s t := by
  have hM : Sub 0xf630083 0xf630083 := by decide
  have hD := does_refl 0xf630083 s
  refine ⟨_, rfl, ?_⟩
  try dsimp only
  repeat' first
    | with_reducible assumption
    | with_reducible apply does_wrote (sub_trans hM)
    | with_reducible apply does_arrives (sub_trans hM)
    | with_reducible apply does_enter (sub_trans hM)
    | with_reducible apply does_endIdle (sub_trans hM)
    | split

theorem does_execPwrEntered (s : State) :
    ∃ t, execPwrEntered s = .next t ∧ Does 0x1f73ffba s t := by
  have hM : Sub 0x1f73ffba 0x1f73ffba := by decide
  have hD := does_refl 0x1f73ffba s
  refine ⟨_, rfl, ?_⟩
  try dsimp only
  repeat' first
    | with_reducible assumption
    | with_reducible apply does_completeEntry (sub_trans hM)
    | split

theorem does_idleTick {M : Nat} {s₀ : State} {s : State} (hM : Sub 0x400000 M) (hD : Does M s₀ s) :
    Does M s₀ (State.idleTick s) := by
  unfold State.idleTick
  try dsimp only
  repeat' first
    | with_reducible assumption
    | with_reducible apply does_onPower (sub_trans hM)
    | split

theorem does_execIdleEntry (s : State) :
    ∃ t, execIdleEntry s = .next t ∧ Does 0x400000 s t := by
  have hM : Sub 0x400000 0x400000 := by decide
  have hD := does_refl 0x400000 s
  refine ⟨_, rfl, ?_⟩
  try dsimp only
  repeat' first
    | with_reducible assumption
    | with_reducible apply does_onPower (sub_trans hM)
    | split

theorem does_enginesExit {M : Nat} {s₀ : State} {s : State} {test : SelfTest} {deep : Bool} (hM : Sub 0x1f2e7fb2 M) (hD : Does M s₀ s) :
    Does M s₀ (State.enginesExit s test deep) := by
  unfold State.enginesExit
  try dsimp only
  repeat' first
    | with_reducible assumption
    | ((with_reducible refine does_onPair (sub_trans hM) ?_ ?_); focus (unfold PairSt.acts; with_reducible rfl))
    | with_reducible refine does_onPairActs (sub_trans hM) ?_
    | with_reducible apply does_useFree (sub_trans hM)
    | with_reducible apply does_announce (sub_trans hM)
    | with_reducible apply does_raise (sub_trans hM)
    | with_reducible apply does_failEngine (sub_trans hM)
    | with_reducible apply does_setEng (sub_trans hM)
    | with_reducible apply does_fence (sub_trans hM)
    | split

theorem does_lookoutWake {M : Nat} {s₀ : State} {s : State} (hM : Sub 0x100000 M) (hD : Does M s₀ s) :
    Does M s₀ (State.lookoutWake s) := by
  unfold State.lookoutWake
  try dsimp only
  repeat' first
    | with_reducible assumption
    | with_reducible apply does_loFollowAll (sub_trans hM)
    | with_reducible apply does_setChan (sub_trans hM)
    | split
    | with_reducible refine does_foldl (fun x_ a_ hx_ => ?_) ?_

theorem does_warmRestAll {M : Nat} {s₀ : State} {s : State} (hM : Sub 0x400000 M) (hD : Does M s₀ s) :
    Does M s₀ (State.warmRestAll s) := by
  unfold State.warmRestAll
  try dsimp only
  repeat' first
    | with_reducible assumption
    | with_reducible apply does_warmRest (sub_trans hM)
    | split
    | with_reducible refine does_foldl (fun x_ a_ hx_ => ?_) ?_

theorem does_logicReady {M : Nat} {s₀ : State} {s : State} {test : SelfTest} (hM : Sub 0x1ffeffb6 M) (hD : Does M s₀ s) :
    Does M s₀ (State.logicReady s test) := by
  unfold State.logicReady
  try dsimp only
  repeat' first
    | with_reducible assumption
    | with_reducible apply does_warmRestAll (sub_trans hM)
    | with_reducible apply does_cagesOn (sub_trans hM)
    | with_reducible apply does_raise (sub_trans hM)
    | with_reducible apply does_timeRestart (sub_trans hM)
    | with_reducible apply does_enginesExit (sub_trans hM)
    | ((with_reducible refine does_onPair (sub_trans hM) ?_ ?_); focus (unfold PairSt.acts; with_reducible rfl))
    | with_reducible refine does_onPairActs (sub_trans hM) ?_
    | with_reducible apply does_onPower (sub_trans hM)
    | with_reducible apply does_islandsTo (sub_trans hM)
    | with_reducible apply does_fmRefresh (sub_trans hM)
    | with_reducible apply does_lookoutWake (sub_trans hM)
    | split

theorem does_execReadyStageDone (test : SelfTest) (s : State) :
    ∃ t, execReadyStageDone test s = .next t ∧ Does 0x1ffeffb6 s t := by
  have hM : Sub 0x1ffeffb6 0x1ffeffb6 := by decide
  have hD := does_refl 0x1ffeffb6 s
  refine ⟨_, rfl, ?_⟩
  try dsimp only
  repeat' first
    | with_reducible assumption
    | with_reducible apply does_onPower (sub_trans hM)
    | with_reducible apply does_logicReady (sub_trans hM)
    | split

theorem does_readyTimeout {M : Nat} {s₀ : State} {s : State} {test : SelfTest} (hM : Sub 0x1fffffff M) (hD : Does M s₀ s) :
    Does M s₀ (State.readyTimeout s test) := by
  unfold State.readyTimeout
  try dsimp only
  repeat' first
    | with_reducible assumption
    | with_reducible apply does_raise (sub_trans hM)
    | with_reducible apply does_onPower (sub_trans hM)
    | with_reducible apply does_sledReset (sub_trans hM)
    | split

theorem does_execReadyTimeout (test : SelfTest) (s : State) :
    ∃ t, execReadyTimeout test s = .next t ∧ Does 0x1fffffff s t := by
  have hM : Sub 0x1fffffff 0x1fffffff := by decide
  have hD := does_refl 0x1fffffff s
  refine ⟨_, rfl, ?_⟩
  try dsimp only
  repeat' first
    | with_reducible assumption
    | with_reducible apply does_readyTimeout (sub_trans hM)
    | split

theorem does_exited {M : Nat} {s₀ : State} {s : State} (hM : Sub 0x1f7e7f83 M) (hD : Does M s₀ s) :
    Does M s₀ (State.exited s) := by
  unfold State.exited
  try dsimp only
  repeat' first
    | with_reducible assumption
    | with_reducible apply does_released (sub_trans hM)
    | with_reducible apply does_dueSwap (sub_trans hM)
    | with_reducible apply does_answerReads (sub_trans hM)
    | with_reducible apply does_applyStyle (sub_trans hM)
    | with_reducible apply does_raise (sub_trans hM)
    | with_reducible apply does_onPower (sub_trans hM)

theorem does_execPwrExited (s : State) :
    ∃ t, execPwrExited s = .next t ∧ Does 0x1f7e7f83 s t := by
  have hM : Sub 0x1f7e7f83 0x1f7e7f83 := by decide
  have hD := does_refl 0x1f7e7f83 s
  refine ⟨_, rfl, ?_⟩
  try dsimp only
  repeat' first
    | with_reducible assumption
    | with_reducible apply does_exited (sub_trans hM)
    | split

theorem does_execIslandAutoWake (i : Fin 20) (s : State) :
    ∃ t, execIslandAutoWake i s = .next t ∧ Does 0x1e767f83 s t := by
  have hM : Sub 0x1e767f83 0x1e767f83 := by decide
  have hD := does_refl 0x1e767f83 s
  refine ⟨_, rfl, ?_⟩
  try dsimp only
  repeat' first
    | with_reducible assumption
    | with_reducible apply does_released (sub_trans hM)
    | with_reducible apply does_loFollowAll (sub_trans hM)
    | with_reducible apply does_setIsland (sub_trans hM)
    | split

theorem does_dvfsRefused {M : Nat} {s₀ : State} {s : State} {mhz mv : Nat} (hM : Sub 0xe220082 M) (hD : Does M s₀ s) :
    Does M s₀ (State.dvfsRefused s mhz mv) := by
  unfold State.dvfsRefused
  try dsimp only
  repeat' first
    | with_reducible assumption
    | with_reducible apply does_raise (sub_trans hM)

theorem does_dvfsClamped {M : Nat} {s₀ : State} {s : State} {knob row : Nat} (hM : Sub 0xe220082 M) (hD : Does M s₀ s) :
    Does M s₀ (State.dvfsClamped s knob row) := by
  unfold State.dvfsClamped
  try dsimp only
  repeat' first
    | with_reducible assumption
    | with_reducible apply does_raise (sub_trans hM)
    | split

theorem does_dvfsRow {M : Nat} {s₀ : State} {s : State} {row mhz mv : Nat} {l : List Nat} (hM : Sub 0xe620082 M) (hD : Does M s₀ s) :
    Does M s₀ (State.dvfsRow s row mhz mv l) := by
  unfold State.dvfsRow
  try dsimp only
  repeat' first
    | with_reducible assumption
    | with_reducible apply does_dvfsGo (sub_trans hM)
    | with_reducible apply does_dvfsClamped (sub_trans hM)
    | with_reducible apply does_dvfsRefused (sub_trans hM)
    | with_reducible apply does_setFreqs (sub_trans hM)
    | split

theorem does_execDvfsCommand (mhz mv : Nat) (islands : List (Fin 20)) (s : State) :
    ∃ t, execDvfsCommand mhz mv islands s = .next t ∧ Does 0xe620082 s t := by
  have hM : Sub 0xe620082 0xe620082 := by decide
  have hD := does_refl 0xe620082 s
  refine ⟨_, rfl, ?_⟩
  try dsimp only
  repeat' first
    | with_reducible assumption
    | with_reducible apply does_dvfsRow (sub_trans hM)
    | with_reducible apply does_dvfsRefused (sub_trans hM)
    | split

theorem does_stepDone {M : Nat} {s₀ : State} {s : State} {r : Nat} (hM : Sub 0x400000 M) (hD : Does M s₀ s) :
    Does M s₀ (State.stepDone s r) := by
  unfold State.stepDone
  try dsimp only
  repeat' first
    | with_reducible assumption
    | with_reducible apply does_dvfsNext (sub_trans hM)
    | with_reducible apply does_setFreqs (sub_trans hM)
    | with_reducible apply does_onPower (sub_trans hM)

theorem does_execVReady (s : State) :
    ∃ t, execVReady s = .next t ∧ Does 0x400000 s t := by
  have hM : Sub 0x400000 0x400000 := by decide
  have hD := does_refl 0x400000 s
  refine ⟨_, rfl, ?_⟩
  try dsimp only
  repeat' first
    | with_reducible assumption
    | with_reducible apply does_stepDone (sub_trans hM)
    | split

theorem does_stepTimeout {M : Nat} {s₀ : State} {s : State} (hM : Sub 0xe620082 M) (hD : Does M s₀ s) :
    Does M s₀ (State.stepTimeout s) := by
  unfold State.stepTimeout
  try dsimp only
  repeat' first
    | with_reducible assumption
    | with_reducible apply does_dvfsNext (sub_trans hM)
    | with_reducible apply does_raise (sub_trans hM)
    | with_reducible apply does_onPower (sub_trans hM)

theorem does_execDvfsTimeout (s : State) :
    ∃ t, execDvfsTimeout s = .next t ∧ Does 0xe620082 s t := by
  have hM : Sub 0xe620082 0xe620082 := by decide
  have hD := does_refl 0xe620082 s
  refine ⟨_, rfl, ?_⟩
  try dsimp only
  repeat' first
    | with_reducible assumption
    | with_reducible apply does_stepTimeout (sub_trans hM)
    | split

end Sys2Proof.Laws
end

