-- ==== Sys2Proof/Laws/Supply.lean ====
section
/-! SUPPORT. What each operation and command of Machine/Supply.lean can touch, and that it keeps the invariants of the blocks. -/
set_option Elab.async false
namespace Sys2Proof.Laws
open Sys2Proof.Machine

theorem does_acRise {M : Nat} {s₀ : State} {s : State} (hM : Sub 0xe220082 M) (hD : Does M s₀ s) :
    Does M s₀ (State.acRise s) := by
  unfold State.acRise
  try dsimp only
  repeat' first
    | with_reducible assumption
    | with_reducible refine does_onSupply (sub_trans hM) ?_ ?_
    | with_reducible apply does_latchCheck (sub_trans hM)
    | with_reducible apply does_raise (sub_trans hM)
    | split
    | exact fun k => k

theorem does_execAcFailRise (s : State) :
    ∃ t, execAcFailRise s = .next t ∧ Does 0xe220082 s t := by
  have hM : Sub 0xe220082 0xe220082 := by decide
  have hD := does_refl 0xe220082 s
  refine ⟨_, rfl, ?_⟩
  try dsimp only
  repeat' first
    | with_reducible assumption
    | with_reducible apply does_acRise (sub_trans hM)
    | split

theorem does_acFall {M : Nat} {s₀ : State} {s : State} (hM : Sub 0xe220082 M) (hD : Does M s₀ s) :
    Does M s₀ (State.acFall s) := by
  unfold State.acFall
  try dsimp only
  repeat' first
    | with_reducible assumption
    | with_reducible refine does_onSupply (sub_trans hM) ?_ ?_
    | with_reducible apply does_raise (sub_trans hM)
    | split
    | exact fun k => k

theorem does_execAcFailFall (s : State) :
    ∃ t, execAcFailFall s = .next t ∧ Does 0xe220082 s t := by
  have hM : Sub 0xe220082 0xe220082 := by decide
  have hD := does_refl 0xe220082 s
  refine ⟨_, rfl, ?_⟩
  try dsimp only
  repeat' first
    | with_reducible assumption
    | with_reducible apply does_acFall (sub_trans hM)
    | split

theorem does_powerLoss {M : Nat} {s₀ : State} {s : State} (hM : Sub 0x1e63ffba M) (hD : Does M s₀ s) :
    Does M s₀ (State.powerLoss s) := by
  unfold State.powerLoss
  try dsimp only
  repeat' first
    | with_reducible assumption
    | with_reducible apply does_watchStop (sub_trans hM)
    | with_reducible apply does_onPower (sub_trans hM)
    | with_reducible refine does_onSupply (sub_trans hM) ?_ ?_
    | with_reducible apply does_abandonSave (sub_trans hM)
    | with_reducible apply does_netsOff (sub_trans hM)
    | with_reducible apply does_allLinksLost (sub_trans hM)
    | with_reducible apply does_cutFrames (sub_trans hM)
    | with_reducible apply does_cagesOff (sub_trans hM)
    | with_reducible apply does_raise (sub_trans hM)
    | with_reducible apply does_saveShutdown (sub_trans hM)
    | with_reducible apply does_recordPair (sub_trans hM)
    | with_reducible apply does_intoOff (sub_trans hM)
    | with_reducible apply does_modeIslands (sub_trans hM)
    | split
    | exact fun k => k

theorem does_execMainsGraceExpiry (s : State) :
    ∃ t, execMainsGraceExpiry s = .next t ∧ Does 0x1e63ffba s t := by
  have hM : Sub 0x1e63ffba 0x1e63ffba := by decide
  have hD := does_refl 0x1e63ffba s
  refine ⟨_, rfl, ?_⟩
  try dsimp only
  repeat' first
    | with_reducible assumption
    | with_reducible apply does_powerLoss (sub_trans hM)
    | split

theorem does_execMainsReturn (test : SelfTest) (s : State) :
    ∃ t, execMainsReturn test s = .next t ∧ Does 0x1fffffff s t := by
  have hM : Sub 0x1fffffff 0x1fffffff := by decide
  have hD := does_refl 0x1fffffff s
  refine ⟨_, rfl, ?_⟩
  try dsimp only
  repeat' first
    | with_reducible assumption
    | with_reducible apply does_coldStart (sub_trans hM)
    | split

theorem does_envelopeNow {M : Nat} {s₀ : State} {s : State} (hM : Sub 0xef20082 M) (hD : Does M s₀ s) :
    Does M s₀ (State.envelopeNow s) := by
  unfold State.envelopeNow
  try dsimp only
  repeat' first
    | with_reducible assumption
    | with_reducible apply does_fmEnvelope (sub_trans hM)
    | with_reducible apply does_onPower (sub_trans hM)
    | split

theorem does_brace {M : Nat} {s₀ : State} {s : State} {mv crossing : Nat} (hM : Sub 0xef20082 M) (hD : Does M s₀ s) :
    Does M s₀ (State.brace s mv crossing) := by
  unfold State.brace
  try dsimp only
  repeat' first
    | with_reducible assumption
    | with_reducible apply does_envelopeNow (sub_trans hM)
    | with_reducible apply does_raise (sub_trans hM)
    | with_reducible refine does_onSupply (sub_trans hM) ?_ ?_
    | exact fun k => k

theorem does_recovered {M : Nat} {s₀ : State} {s : State} (hM : Sub 0xef20082 M) (hD : Does M s₀ s) :
    Does M s₀ (State.recovered s) := by
  unfold State.recovered
  try dsimp only
  repeat' first
    | with_reducible assumption
    | with_reducible refine does_onSupply (sub_trans hM) ?_ ?_
    | with_reducible apply does_envelopeNow (sub_trans hM)
    | with_reducible apply does_writeDeferred (sub_trans hM)
    | with_reducible apply does_raise (sub_trans hM)
    | exact fun k => k

theorem does_recoverFirst {M : Nat} {s₀ : State} {s : State} (hM : Sub 0xef20082 M) (hD : Does M s₀ s) :
    Does M s₀ (State.recoverFirst s) := by
  unfold State.recoverFirst
  try dsimp only
  repeat' first
    | with_reducible assumption
    | with_reducible apply does_recovered (sub_trans hM)
    | split

theorem does_bulkWarn {M : Nat} {s₀ : State} {s : State} {v : ℕ} {crossing : ℕ} (hM : Sub 0xef20082 M) (hD : Does M s₀ s) :
    Does M s₀ (State.bulkWarn s v crossing) := by
  unfold State.bulkWarn
  try dsimp only
  repeat' first
    | with_reducible assumption
    | with_reducible apply does_brace (sub_trans hM)
    | ((with_reducible refine does_onSupply (sub_trans hM) ?_ ?_); focus (exact fun k => k))
    | split

theorem does_execSupplyWarn (mv crossing : Nat) (s : State) :
    ∃ t, execSupplyWarn mv crossing s = .next t ∧ Does 0xef20082 s t := by
  have hM : Sub 0xef20082 0xef20082 := by decide
  have hD := does_refl 0xef20082 s
  refine ⟨_, rfl, ?_⟩
  try dsimp only
  repeat' first
    | with_reducible assumption
    | with_reducible apply does_bulkWarn (sub_trans hM)
    | with_reducible apply does_recoverFirst (sub_trans hM)
    | with_reducible refine does_onSupply (sub_trans hM) ?_ ?_
    | with_reducible apply does_brace (sub_trans hM)
    | split

theorem does_bulkSample {M : Nat} {s₀ : State} {s : State} {v : ℕ} (hM : Sub 0x200000 M) (hD : Does M s₀ s) :
    Does M s₀ (State.bulkSample s v) := by
  unfold State.bulkSample
  try dsimp only
  repeat' first
    | with_reducible assumption
    | ((with_reducible refine does_onSupply (sub_trans hM) ?_ ?_); focus (exact fun k => k))
    | split

theorem does_execBulkRailRecoveryCrossing (mv : Nat) (s : State) :
    ∃ t, execBulkRailRecoveryCrossing mv s = .next t ∧ Does 0xef20082 s t := by
  have hM : Sub 0xef20082 0xef20082 := by decide
  have hD := does_refl 0xef20082 s
  refine ⟨_, rfl, ?_⟩
  try dsimp only
  repeat' first
    | with_reducible assumption
    | with_reducible apply does_recoverFirst (sub_trans hM)
    | with_reducible apply does_bulkSample (sub_trans hM)

theorem does_execSupplyRecovered (s : State) :
    ∃ t, execSupplyRecovered s = .next t ∧ Does 0xef20082 s t := by
  have hM : Sub 0xef20082 0xef20082 := by decide
  have hD := does_refl 0xef20082 s
  refine ⟨_, rfl, ?_⟩
  try dsimp only
  repeat' first
    | with_reducible assumption
    | with_reducible apply does_recoverFirst (sub_trans hM)

theorem does_bulkFalls {M : Nat} {s₀ : State} {s : State} {mv : Nat} (hM : Sub 0x1fffffff M) (hD : Does M s₀ s) :
    Does M s₀ (State.bulkFalls s mv) := by
  unfold State.bulkFalls
  try dsimp only
  repeat' first
    | with_reducible assumption
    | with_reducible refine does_onSupply (sub_trans hM) ?_ ?_
    | with_reducible apply does_raise (sub_trans hM)
    | with_reducible apply does_heldReset (sub_trans hM)
    | with_reducible apply does_bulkCleared (sub_trans hM)
    | with_reducible apply does_writeDeferred (sub_trans hM)
    | exact fun k => k

theorem does_execBulkReset (mv : Nat) (s : State) :
    ∃ t, execBulkReset mv s = .next t ∧ Does 0x1fffffff s t := by
  have hM : Sub 0x1fffffff 0x1fffffff := by decide
  have hD := does_refl 0x1fffffff s
  refine ⟨_, rfl, ?_⟩
  try dsimp only
  repeat' first
    | with_reducible assumption
    | with_reducible apply does_recoverFirst (sub_trans hM)
    | with_reducible apply does_bulkFalls (sub_trans hM)
    | split

theorem does_bulkReleased {M : Nat} {s₀ : State} {s : State} {test : SelfTest} (hM : Sub 0xffe7fb7 M) (hD : Does M s₀ s) :
    Does M s₀ (State.bulkReleased s test) := by
  unfold State.bulkReleased
  try dsimp only
  repeat' first
    | with_reducible assumption
    | with_reducible apply does_startRest (sub_trans hM)
    | with_reducible apply does_timeRestart (sub_trans hM)
    | ((with_reducible refine does_onPair (sub_trans hM) ?_ ?_); focus (unfold PairSt.acts; with_reducible rfl))
    | with_reducible refine does_onPairActs (sub_trans hM) ?_
    | with_reducible apply does_onPower (sub_trans hM)
    | with_reducible refine does_onSupply (sub_trans hM) ?_ ?_
    | exact fun k => k

theorem does_execBulkResetRelease (test : SelfTest) (s : State) :
    ∃ t, execBulkResetRelease test s = .next t ∧ Does 0xffe7fb7 s t := by
  have hM : Sub 0xffe7fb7 0xffe7fb7 := by decide
  have hD := does_refl 0xffe7fb7 s
  refine ⟨_, rfl, ?_⟩
  try dsimp only
  repeat' first
    | with_reducible assumption
    | with_reducible apply does_bulkReleased (sub_trans hM)
    | split

theorem does_aoBrown {M : Nat} {s₀ : State} {s : State} (hM : Sub 0x1fffffff M) (hD : Does M s₀ s) :
    Does M s₀ (State.aoBrown s) := by
  unfold State.aoBrown
  try dsimp only
  repeat' first
    | with_reducible assumption
    | with_reducible apply does_islandsTo (sub_trans hM)
    | with_reducible apply does_latchCheck (sub_trans hM)
    | with_reducible refine does_onSupply (sub_trans hM) ?_ ?_
    | with_reducible apply does_onPower (sub_trans hM)
    | with_reducible apply does_shellCleared (sub_trans hM)
    | with_reducible apply does_abandonSave (sub_trans hM)
    | exact fun k => k
    | exact fun _ => Nat.zero_le _

theorem does_railOutcome {M : Nat} {s₀ : State} {s : State} {r : Rail} (hM : Sub 0x1fffffff M) (hD : Does M s₀ s) :
    Does M s₀ (State.railOutcome s r) := by
  unfold State.railOutcome
  try dsimp only
  repeat' first
    | with_reducible assumption
    | with_reducible apply does_pairSettled (sub_trans hM)
    | with_reducible apply does_engineFault (sub_trans hM)
    | with_reducible apply does_fence (sub_trans hM)
    | with_reducible apply does_aoBrown (sub_trans hM)
    | with_reducible refine does_onSupply (sub_trans hM) ?_ ?_
    | split
    | exact fun k => k

theorem does_railFault {M : Nat} {s₀ : State} {s : State} {r : Rail} {mv : Nat} (hM : Sub 0x1fffffff M) (hD : Does M s₀ s) :
    Does M s₀ (State.railFault s r mv) := by
  unfold State.railFault
  try dsimp only
  repeat' first
    | with_reducible assumption
    | with_reducible apply does_railOutcome (sub_trans hM)
    | with_reducible apply does_raise (sub_trans hM)
    | with_reducible refine does_onSupply (sub_trans hM) ?_ ?_
    | exact fun k => k

theorem does_execRailFault (rail : Rail) (mv : Nat) (s : State) :
    ∃ t, execRailFault rail mv s = .next t ∧ Does 0x1fffffff s t := by
  have hM : Sub 0x1fffffff 0x1fffffff := by decide
  have hD := does_refl 0x1fffffff s
  refine ⟨_, rfl, ?_⟩
  try dsimp only
  repeat' first
    | with_reducible assumption
    | with_reducible apply does_railFault (sub_trans hM)
    | split

theorem does_execAuxReenable (s : State) :
    ∃ t, execAuxReenable s = .next t ∧ Does 0x1610001 s t := by
  have hM : Sub 0x1610001 0x1610001 := by decide
  have hD := does_refl 0x1610001 s
  refine ⟨_, rfl, ?_⟩
  try dsimp only
  repeat' first
    | with_reducible assumption
    | with_reducible apply does_wrote (sub_trans hM)
    | with_reducible apply does_arrives (sub_trans hM)
    | with_reducible refine does_onSupply (sub_trans hM) ?_ ?_
    | with_reducible apply does_endIdle (sub_trans hM)
    | exact fun k => k
    | split

theorem does_execAoBudgetSample (ua : Nat) (s : State) :
    ∃ t, execAoBudgetSample ua s = .next t ∧ Does 0x1610000 s t := by
  have hM : Sub 0x1610000 0x1610000 := by decide
  have hD := does_refl 0x1610000 s
  refine ⟨_, rfl, ?_⟩
  try dsimp only
  repeat' first
    | with_reducible assumption
    | with_reducible apply does_registerWake (sub_trans hM)
    | split

theorem does_execAoBrownout (s : State) :
    ∃ t, execAoBrownout s = .next t ∧ Does 0x1fffffff s t := by
  have hM : Sub 0x1fffffff 0x1fffffff := by decide
  have hD := does_refl 0x1fffffff s
  refine ⟨_, rfl, ?_⟩
  try dsimp only
  repeat' first
    | with_reducible assumption
    | with_reducible apply does_aoBrown (sub_trans hM)
    | split

theorem does_cellTo {M : Nat} {s₀ : State} {s : State} {c : CellState} (hM : Sub 0x200000 M) (hD : Does M s₀ s) :
    Does M s₀ (State.cellTo s c) := by
  unfold State.cellTo
  try dsimp only
  repeat' first
    | with_reducible assumption
    | with_reducible refine does_onSupply (sub_trans hM) ?_ ?_
    | exact fun k => k

theorem does_execCellCvReached (s : State) :
    ∃ t, execCellCvReached s = .next t ∧ Does 0x200000 s t := by
  have hM : Sub 0x200000 0x200000 := by decide
  have hD := does_refl 0x200000 s
  refine ⟨_, rfl, ?_⟩
  try dsimp only
  repeat' first
    | with_reducible assumption
    | with_reducible refine does_onSupply (sub_trans hM) ?_ ?_
    | with_reducible apply does_cellTo (sub_trans hM)
    | split
    | exact fun k => k

theorem does_execChargeComplete (s : State) :
    ∃ t, execChargeComplete s = .next t ∧ Does 0x200000 s t := by
  have hM : Sub 0x200000 0x200000 := by decide
  have hD := does_refl 0x200000 s
  refine ⟨_, rfl, ?_⟩
  try dsimp only
  repeat' first
    | with_reducible assumption
    | with_reducible apply does_cellTo (sub_trans hM)
    | split

theorem does_execChargeTempHold (s : State) :
    ∃ t, execChargeTempHold s = .next t ∧ Does 0xe220082 s t := by
  have hM : Sub 0xe220082 0xe220082 := by decide
  have hD := does_refl 0xe220082 s
  refine ⟨_, rfl, ?_⟩
  try dsimp only
  repeat' first
    | with_reducible assumption
    | with_reducible apply does_raise (sub_trans hM)
    | with_reducible apply does_cellTo (sub_trans hM)
    | split

theorem does_execChargeTempResume (s : State) :
    ∃ t, execChargeTempResume s = .next t ∧ Does 0x200000 s t := by
  have hM : Sub 0x200000 0x200000 := by decide
  have hD := does_refl 0x200000 s
  refine ⟨_, rfl, ?_⟩
  try dsimp only
  repeat' first
    | with_reducible assumption
    | with_reducible apply does_cellTo (sub_trans hM)
    | split

theorem does_cellGone {M : Nat} {s₀ : State} {s : State} (hM : Sub 0xe220082 M) (hD : Does M s₀ s) :
    Does M s₀ (State.cellGone s) := by
  unfold State.cellGone
  try dsimp only
  repeat' first
    | with_reducible assumption
    | with_reducible apply does_raise (sub_trans hM)
    | with_reducible refine does_onSupply (sub_trans hM) ?_ ?_
    | exact fun k => k

theorem does_execCellRemoved (s : State) :
    ∃ t, execCellRemoved s = .next t ∧ Does 0xe220082 s t := by
  have hM : Sub 0xe220082 0xe220082 := by decide
  have hD := does_refl 0xe220082 s
  refine ⟨_, rfl, ?_⟩
  try dsimp only
  repeat' first
    | with_reducible assumption
    | with_reducible apply does_latchCheck (sub_trans hM)
    | with_reducible apply does_cellTo (sub_trans hM)
    | with_reducible apply does_cellGone (sub_trans hM)
    | split

theorem does_cellLowCheck {M : Nat} {s₀ : State} {s : State} {mv : Nat} (hM : Sub 0xe220082 M) (hD : Does M s₀ s) :
    Does M s₀ (State.cellLowCheck s mv) := by
  unfold State.cellLowCheck
  try dsimp only
  repeat' first
    | with_reducible assumption
    | with_reducible refine does_onSupply (sub_trans hM) ?_ ?_
    | with_reducible apply does_raise (sub_trans hM)
    | split
    | exact fun k => k

theorem does_cellFound {M : Nat} {s₀ : State} {s : State} {mv : Nat} (hM : Sub 0xe220082 M) (hD : Does M s₀ s) :
    Does M s₀ (State.cellFound s mv) := by
  unfold State.cellFound
  try dsimp only
  repeat' first
    | with_reducible assumption
    | with_reducible apply does_raise (sub_trans hM)
    | with_reducible apply does_cellTo (sub_trans hM)
    | with_reducible apply does_cellLowCheck (sub_trans hM)
    | split

theorem does_execCellProbe (mv : ℕ) (s : State) :
    ∃ t, execCellProbe mv s = .next t ∧ Does 0xe220082 s t := by
  have hM : Sub 0xe220082 0xe220082 := by decide
  have hD := does_refl 0xe220082 s
  refine ⟨_, rfl, ?_⟩
  try dsimp only
  repeat' first
    | with_reducible assumption
    | with_reducible apply does_cellFound (sub_trans hM)
    | with_reducible apply does_cellGone (sub_trans hM)
    | ((with_reducible refine does_onSupply (sub_trans hM) ?_ ?_); focus (exact fun k => k))
    | split

end Sys2Proof.Laws
end

