-- ==== Sys2Proof/Laws/Smbus.lean ====
section
/-! SUPPORT. What each operation and command of Machine/Smbus.lean can touch, and that it keeps the invariants of the blocks. -/
set_option Elab.async false
namespace Sys2Proof.Laws
open Sys2Proof.Machine

theorem does_smbAnswer {M : Nat} {s₀ : State} {s : State} {cmd : ℕ} {d : Bytes} (hM : Sub 0x8000000 M) (hD : Does M s₀ s) :
    Does M s₀ (State.smbAnswer s cmd d) := by
  unfold State.smbAnswer
  try dsimp only
  repeat' first
    | with_reducible assumption
    | with_reducible apply does_emit (sub_trans hM)
    | split

theorem does_execSmbStatus (s : State) :
    ∃ t, execSmbStatus s = .next t ∧ Does 0x8000000 s t := by
  have hM : Sub 0x8000000 0x8000000 := by decide
  have hD := does_refl 0x8000000 s
  refine ⟨_, rfl, ?_⟩
  try dsimp only
  repeat' first
    | with_reducible assumption
    | with_reducible apply does_emit (sub_trans hM)
    | split

theorem does_execSmbBulkMv (s : State) :
    ∃ t, execSmbBulkMv s = .next t ∧ Does 0x8000000 s t := by
  have hM : Sub 0x8000000 0x8000000 := by decide
  have hD := does_refl 0x8000000 s
  refine ⟨_, rfl, ?_⟩
  try dsimp only
  repeat' first
    | with_reducible assumption
    | with_reducible apply does_smbAnswer (sub_trans hM)

theorem does_execSmbInletTemp (s : State) :
    ∃ t, execSmbInletTemp s = .next t ∧ Does 0x18000000 s t := by
  have hM : Sub 0x18000000 0x18000000 := by decide
  have hD := does_refl 0x18000000 s
  refine ⟨_, rfl, ?_⟩
  try dsimp only
  repeat' first
    | with_reducible assumption
    | with_reducible apply does_useFree (sub_trans hM)
    | with_reducible apply does_smbAnswer (sub_trans hM)

theorem does_execSmbInputPower (s : State) :
    ∃ t, execSmbInputPower s = .next t ∧ Does 0x18000000 s t := by
  have hM : Sub 0x18000000 0x18000000 := by decide
  have hD := does_refl 0x18000000 s
  refine ⟨_, rfl, ?_⟩
  try dsimp only
  repeat' first
    | with_reducible assumption
    | with_reducible apply does_useFree (sub_trans hM)
    | with_reducible apply does_smbAnswer (sub_trans hM)

theorem does_execSmbFanFault (s : State) :
    ∃ t, execSmbFanFault s = .next t ∧ Does 0x8000000 s t := by
  have hM : Sub 0x8000000 0x8000000 := by decide
  have hD := does_refl 0x8000000 s
  refine ⟨_, rfl, ?_⟩
  try dsimp only
  repeat' first
    | with_reducible assumption
    | with_reducible apply does_smbAnswer (sub_trans hM)

theorem does_execSmbLogSeq (s : State) :
    ∃ t, execSmbLogSeq s = .next t ∧ Does 0x8000000 s t := by
  have hM : Sub 0x8000000 0x8000000 := by decide
  have hD := does_refl 0x8000000 s
  refine ⟨_, rfl, ?_⟩
  try dsimp only
  repeat' first
    | with_reducible assumption
    | with_reducible apply does_smbAnswer (sub_trans hM)

theorem does_execSmbSerial (s : State) :
    ∃ t, execSmbSerial s = .next t ∧ Does 0x8000000 s t := by
  have hM : Sub 0x8000000 0x8000000 := by decide
  have hD := does_refl 0x8000000 s
  refine ⟨_, rfl, ?_⟩
  try dsimp only
  repeat' first
    | with_reducible assumption
    | with_reducible apply does_smbAnswer (sub_trans hM)

theorem does_execSmbWake (s : State) :
    ∃ t, execSmbWake s = .next t ∧ Does 0x8000000 s t := by
  have hM : Sub 0x8000000 0x8000000 := by decide
  have hD := does_refl 0x8000000 s
  refine ⟨_, rfl, ?_⟩
  try dsimp only
  repeat' first
    | with_reducible assumption
    | with_reducible apply does_smbAnswer (sub_trans hM)

theorem does_execSmbAlertResponse (s : State) :
    ∃ t, execSmbAlertResponse s = .next t ∧ Does 0x8000000 s t := by
  have hM : Sub 0x8000000 0x8000000 := by decide
  have hD := does_refl 0x8000000 s
  refine ⟨_, rfl, ?_⟩
  try dsimp only
  repeat' first
    | with_reducible assumption
    | with_reducible apply does_emit (sub_trans hM)
    | with_reducible apply does_smbAnswer (sub_trans hM)
    | split

theorem does_execFanFailure (fan : Fin 5) (s : State) :
    ∃ t, execFanFailure fan s = .next t ∧ Does 0x4000000 s t := by
  have hM : Sub 0x4000000 0x4000000 := by decide
  have hD := does_refl 0x4000000 s
  refine ⟨_, rfl, ?_⟩
  try dsimp only
  repeat' first
    | with_reducible assumption
    | with_reducible apply does_onEvents (sub_trans hM)

end Sys2Proof.Laws
end

