-- ==== Sys2Proof/Laws/Tick.lean ====
section
/-! SUPPORT. What each operation and command of Machine/Tick.lean can touch, and that it keeps the invariants of the blocks. -/
set_option Elab.async false
namespace Sys2Proof.Laws
open Sys2Proof.Machine

theorem does_latchTick {M : Nat} {s₀ : State} {s : State} (hM : Sub 0x200000 M) (hD : Does M s₀ s) :
    Does M s₀ (State.latchTick s) := by
  unfold State.latchTick
  try dsimp only
  repeat' first
    | with_reducible assumption
    | ((with_reducible refine does_onSupply (sub_trans hM) ?_ ?_); focus (exact fun k => k))
    | split

theorem does_tick {M : Nat} {s₀ : State} {s : State} (hM : Sub 0xe66508e M) (hD : Does M s₀ s) :
    Does M s₀ (State.tick s) := by
  unfold State.tick
  try dsimp only
  repeat' first
    | with_reducible assumption
    | with_reducible apply does_enrolEnds (sub_trans hM)
    | with_reducible apply does_healthTick (sub_trans hM)
    | with_reducible apply does_latchTick (sub_trans hM)
    | with_reducible apply does_lpiTicks (sub_trans hM)
    | with_reducible apply does_advanceTime (sub_trans hM)
    | with_reducible apply does_idleTick (sub_trans hM)

end Sys2Proof.Laws
end

