-- ==== Sys2Proof/Laws/Pair.lean ====
section
/-! SUPPORT. The engine pair's invariant: what the operations that fail, fence, hand over and start engines do to the acting part, and
that each keeps the invariant. -/
set_option Elab.async false
namespace Sys2Proof.Laws
open Sys2Proof.Machine

/-! ### The acting part as data -/

/-- The ACT line of an engine in the acting part. -/
def actOf (a : Acts) : Eng → Bool
  | .a => a.actA
  | .b => a.actB

/-- An engine's ACT line falls, and it takes a state. -/
def down (a : Acts) (e : Eng) (st : EngState) : Acts :=
  match e with
  | .a => { a with actA := false, stA := st }
  | .b => { a with actB := false, stB := st }

/-- An engine becomes Active, and no hand-over is in progress. -/
def up (a : Acts) (e : Eng) : Acts :=
  match e with
  | .a => { a with actA := true, stA := .active, hand := none }
  | .b => { a with actB := true, stB := .active, hand := none }

/-- The acting part in Fenced. -/
def fencedActs (a : Acts) : Acts := { a with actA := false, actB := false, hand := none, verd := false, fenc := true }

theorem ok_down {a : Acts} (h : ActsOk a) (e : Eng) {st : EngState} (hs : st ≠ .active) : ActsOk (down a e st) := by
  obtain ⟨h1, h2, h3, h4, h5, h6⟩ := h
  cases e
  · refine ⟨by simp [down], by simp [down, hs], by simp [down], h4, ?_, ?_⟩
    · intro o ho
      obtain ⟨i, j, k⟩ := h5 o ho
      refine ⟨rfl, j, ?_⟩
      cases o
      · exact hs
      · exact k
    · intro hf
      obtain ⟨i, j, k⟩ := h6 hf
      exact ⟨rfl, j, k⟩
  · refine ⟨by simp [down], by simp [down, hs], h3, by simp [down], ?_, ?_⟩
    · intro o ho
      obtain ⟨i, j, k⟩ := h5 o ho
      refine ⟨i, rfl, ?_⟩
      cases o
      · exact k
      · exact hs
    · intro hf
      obtain ⟨i, j, k⟩ := h6 hf
      exact ⟨i, rfl, k⟩

theorem ok_fenced {a : Acts} (h : ActsOk a) : ActsOk (fencedActs a) :=
  ⟨rfl, h.one, nofun, nofun, nofun, fun _ => ⟨rfl, rfl, rfl, rfl⟩⟩

/-- Without a hand-over. -/
theorem ok_clear {a : Acts} (h : ActsOk a) : ActsOk { a with hand := none } :=
  ⟨h.lines, h.one, h.stA, h.stB, nofun, fun k => ⟨(h.fence k).1, (h.fence k).2.1, rfl, (h.fence k).2.2.2⟩⟩

theorem ok_hand {a : Acts} (h : ActsOk a) {e : Eng} (h0 : actOf a (engOther e) = false) (hf : a.fenc = false) {st : EngState}
    (hs : st ≠ .active) : ActsOk { down a e st with hand := some e } := by
  obtain ⟨h1, h2, h3, h4, h5, h6⟩ := ok_down h e hs
  have h0' : actOf (down a e st) (engOther e) = false := by cases e <;> exact h0
  have hz : actOf (down a e st) e = false := by cases e <;> rfl
  have hst : (down a e st).st e ≠ .active := by cases e <;> exact hs
  have hd : (down a e st).fenc = false := by cases e <;> exact hf
  refine ⟨h1, h2, h3, h4, ?_, ?_⟩
  · intro o ho
    cases ho
    refine ⟨?_, ?_, by cases e <;> exact hs⟩
    · cases e
      · exact hz
      · exact h0'
    · cases e
      · exact h0'
      · exact hz
  · intro k
    rw [show ({ down a e st with hand := some e } : Acts).fenc = (down a e st).fenc from rfl, hd] at k
    cases k

theorem ok_up {a : Acts} (h : ActsOk a) {e : Eng} (h0 : actOf a (engOther e) = false) (h1 : a.st (engOther e) ≠ .active)
    (hf : a.fenc = false) : ActsOk (up a e) := by
  obtain ⟨l, o, s1, s2, s3, s4⟩ := h
  cases e
  · refine ⟨?_, fun k => h1 k.2, fun _ => rfl, s2, nofun, fun k => absurd (hf.symm.trans k) (by decide)⟩
    show (true && a.actB) = false
    rw [show a.actB = false from h0]
    rfl
  · refine ⟨?_, fun k => h1 k.1, s1, fun _ => rfl, nofun, fun k => absurd (hf.symm.trans k) (by decide)⟩
    show (a.actA && true) = false
    rw [show a.actA = false from h0]
    rfl

/-- An engine whose ACT line is high: the other's is low, the engine is Active and the other is not, and no hand-over or Fenced
stands. -/
theorem act_alone {a : Acts} (h : ActsOk a) {e : Eng} (he : actOf a e = true) :
    actOf a (engOther e) = false ∧ a.st (engOther e) ≠ .active ∧ a.hand = none ∧ a.fenc = false := by
  obtain ⟨l, o, s1, s2, s3, s4⟩ := h
  have hh : a.hand = none := by
    cases hk : a.hand with
    | none => rfl
    | some x =>
      obtain ⟨i, j, k⟩ := s3 x hk
      cases e
      · exact absurd (i.symm.trans he) (by decide)
      · exact absurd (j.symm.trans he) (by decide)
  have hf : a.fenc = false := by
    cases hk : a.fenc with
    | false => rfl
    | true =>
      obtain ⟨i, j, k⟩ := s4 hk
      cases e
      · exact absurd (i.symm.trans he) (by decide)
      · exact absurd (j.symm.trans he) (by decide)
  refine ⟨?_, ?_, hh, hf⟩
  · cases e
    · rw [show a.actA = true from he, Bool.true_and] at l
      exact l
    · rw [show a.actB = true from he, Bool.and_true] at l
      exact l
  · intro k
    cases e
    · exact o ⟨s1 he, k⟩
    · exact o ⟨k, s2 he⟩

/-- An engine that is not Active has its ACT line low. -/
theorem act_low {a : Acts} (h : ActsOk a) {e : Eng} (he : a.st e ≠ .active) : actOf a e = false := by
  cases hk : actOf a e with
  | false => rfl
  | true =>
    cases e
    · exact absurd (h.stA hk) he
    · exact absurd (h.stB hk) he

theorem down_same {a : Acts} {e : Eng} (he : actOf a e = false) (st : EngState) :
    (match e with | .a => { a with stA := st } | .b => { a with stB := st }) = down a e st := by
  obtain ⟨x, y, p, q, h, v, f⟩ := a
  cases e
  · cases (show x = false from he); rfl
  · cases (show y = false from he); rfl

/-! ### What the operations do to it -/

/-- Everything but the acting part. -/
abbrev noActs : Nat := 0x3ff7ffff

theorem acts_of {s t : State} (h : Does noActs s t) : t.pair.acts = s.pair.acts := h.keeps .acts (by decide)

theorem acts_raise (s : State) (e : Ev) (b : Bytes) : (s.raise e b).pair.acts = s.pair.acts :=
  acts_of (does_raise (by decide) (does_refl _ s))

theorem acts_announce (s : State) (r c : Nat) : (s.announce r c).pair.acts = s.pair.acts :=
  acts_of (does_announce (by decide) (does_refl _ s))

theorem acts_setEng (s : State) (e : Eng) (f : EngSt → EngSt) :
    (s.setEng e f).pair.acts = match e with
      | .a => { s.pair.acts with actA := (f s.pair.a).act, stA := (f s.pair.a).state }
      | .b => { s.pair.acts with actB := (f s.pair.b).act, stB := (f s.pair.b).state } := by
  cases e <;> rfl

/-- An engine's state changes where its ACT line is low. -/
theorem acts_setState (s : State) (e : Eng) (st : EngState) (he : actOf s.pair.acts e = false) :
    (s.setEng e (fun g => { g with state := st })).pair.acts = down s.pair.acts e st := by
  rw [← down_same he st, acts_setEng]
  cases e <;> rfl

theorem acts_failEngine (s : State) (e : Eng) (c : Nat) :
    ∃ st, st ≠ .active ∧ (s.failEngine e c).pair.acts = down s.pair.acts e st := by
  have h1 : ((s.setEng e (fun g => { g with state := .failed, act := false, cause := c, fails := s.failsHour e ++ [s.time.elapsed] })).raise
      .engineFailed (le 1 (engCode e) ++ le 1 c)).pair.acts = down s.pair.acts e .failed := by
    rw [acts_raise, acts_setEng]
    cases e <;> rfl
  have h2 (st : EngState) : (((s.setEng e (fun g => { g with state := .failed, act := false, cause := c, fails := s.failsHour e ++ [s.time.elapsed] })).raise
      .engineFailed (le 1 (engCode e) ++ le 1 c)).setEng e (fun g => { g with state := st })).pair.acts = down s.pair.acts e st := by
    rw [acts_setState _ _ _ (by rw [h1]; cases e <;> rfl), h1]
    cases e <;> rfl
  unfold State.failEngine
  dsimp only
  split
  · split
    · exact ⟨.requalifying, by decide, h2 _⟩
    · refine ⟨.retired, by decide, ?_⟩
      rw [acts_announce, acts_raise]
      exact h2 _
  · exact ⟨.failed, by decide, h1⟩

theorem acts_fence (s : State) (c : Nat) (h : s.pair.fenced = false) : (s.fence c).pair.acts = fencedActs s.pair.acts := by
  unfold State.fence
  rw [if_neg (by rw [h]; decide)]
  extract_lets s1
  have h1 : s1.pair.acts = fencedActs s.pair.acts := acts_of (s := s.onPair _) (does_freeLevels (by decide) (does_refl _ _))
  clear_value s1
  rw [acts_announce, acts_raise]
  exact (acts_of (does_onEvents (by decide) (does_allLinksLost (by decide) (does_cutFrames (by decide) (does_refl _ s1))))).trans h1

theorem pairOk_of_eq {s t : State} (h : t.pair.acts = s.pair.acts) (k : PairOk s.pair) : PairOk t.pair := by
  unfold PairOk at *
  rw [h]
  exact k

/-- A command or an operation that leaves the acting part alone keeps the pair's invariant. -/
theorem pairOk_of_does {m : Nat} {s t : State} (h : Does m s t) (hb : m.testBit 19 = false := by decide) (k : PairOk s.pair) :
    PairOk t.pair := pairOk_of_eq (h.keeps .acts hb) k

theorem pairOk_failEngine {s : State} (e : Eng) (c : Nat) (h : PairOk s.pair) : PairOk (s.failEngine e c).pair := by
  obtain ⟨st, hs, he⟩ := acts_failEngine s e c
  unfold PairOk at *
  rw [he]
  exact ok_down h e hs

theorem pairOk_fence {s : State} (c : Nat) (h : PairOk s.pair) : PairOk (s.fence c).pair := by
  cases hf : s.pair.fenced with
  | true =>
    unfold State.fence
    rw [if_pos hf]
    exact h
  | false =>
    unfold PairOk at *
    rw [acts_fence s c hf]
    exact ok_fenced h

theorem pairOk_raise {s : State} (e : Ev) (b : Bytes) (h : PairOk s.pair) : PairOk (s.raise e b).pair :=
  pairOk_of_eq (acts_raise s e b) h

theorem pairOk_announce {s : State} (r c : Nat) (h : PairOk s.pair) : PairOk (s.announce r c).pair :=
  pairOk_of_eq (acts_announce s r c) h

/-- Once the outgoing ACT line has fallen. -/
theorem acts_lowerAct (s : State) (h : Handover) :
    (s.lowerAct h).pair.acts = { (match h.out with
      | .a => { s.pair.acts with actA := false }
      | .b => { s.pair.acts with actB := false }) with hand := some h.out } := by
  show { (s.setEng h.out (fun g => { g with act := false })).pair.acts with hand := some h.out } = _
  rw [acts_setEng]
  cases h.out <;> rfl

/-- The outgoing ACT line falls and the engine takes a state. -/
theorem acts_lowered {s t : State} {h : Handover} {st : EngState} (ht : t.pair.acts = down (s.lowerAct h).pair.acts h.out st) :
    t.pair.acts = { down s.pair.acts h.out st with hand := some h.out } := by
  rw [ht, acts_lowerAct]
  cases h.out <;> rfl

theorem pairOk_lowerStandby {s : State} {h : Handover} (k : PairOk s.pair) (h0 : actOf s.pair.acts (engOther h.out) = false)
    (hf : s.pair.fenced = false) : PairOk ((s.lowerAct h).setEng h.out (fun g => { g with state := .standby })).pair := by
  unfold PairOk at *
  rw [acts_lowered (acts_setState _ _ _ (by rw [acts_lowerAct]; cases h.out <;> rfl))]
  exact ok_hand k h0 hf (by decide)

theorem pairOk_lowerFail {s : State} {h : Handover} (c : Nat) (k : PairOk s.pair) (h0 : actOf s.pair.acts (engOther h.out) = false)
    (hf : s.pair.fenced = false) : PairOk ((s.lowerAct h).failEngine h.out c).pair := by
  obtain ⟨st, hs, he⟩ := acts_failEngine (s.lowerAct h) h.out c
  unfold PairOk at *
  rw [acts_lowered he]
  exact ok_hand k h0 hf hs

theorem pairOk_deferCommit {s : State} (h : PairOk s.pair) : PairOk s.deferCommit.pair :=
  pairOk_of_eq (acts_of (does_deferCommit (by decide) (does_refl _ s))) h

theorem pairOk_startHandover {s : State} (out : Eng) (c : Nat) (swap : Bool) (h : PairOk s.pair)
    (h0 : actOf s.pair.acts (engOther out) = false) (hf : s.pair.fenced = false) : PairOk (s.startHandover out c swap).pair := by
  unfold State.startHandover
  extract_lets d s0 s1
  have e0 : s0.pair.acts = s.pair.acts := by
    refine acts_of (?_ : Does noActs s s0)
    show Does noActs s (if s.pair.warm then (if swap then s.warmStart else (s.warmStart.cutFrames.cutTlps).holdWords) else s.holdLevels)
    have hw : Does noActs s s.warmStart := does_warmStart (by decide) (does_refl _ s)
    exact does_ite (does_ite hw (does_holdWords (by decide) (does_cutTlps (by decide) (does_cutFrames (by decide) hw))))
      (does_holdLevels (by decide) (does_refl _ s))
  have k0 : PairOk s0.pair := pairOk_of_eq e0 h
  have g0 : actOf s0.pair.acts (engOther d.out) = false := by rw [e0]; exact h0
  have f0 : s0.pair.fenced = false := (congrArg Acts.fenc e0).trans hf
  clear_value s0
  split
  · exact pairOk_deferCommit (ok_clear k0)
  · refine pairOk_deferCommit ?_
    split
    · exact pairOk_lowerStandby (h := d) k0 g0 f0
    · exact pairOk_lowerFail (h := d) c k0 g0 f0

theorem actOf_active {s : State} {e : Eng} (h : s.active = some e) : actOf s.pair.acts e = true := by
  unfold State.active at h
  split at h
  · cases h; assumption
  · split at h
    · cases h; assumption
    · cases h

/-- With an engine active the other's ACT line is low. -/
theorem other_low {s : State} {e : Eng} (h : PairOk s.pair) (he : s.active = some e) : actOf s.pair.acts (engOther e) = false :=
  (act_alone h (actOf_active he)).1

theorem not_fenced {s : State} {e : Eng} (h : PairOk s.pair) (he : s.active = some e) : s.pair.fenced = false :=
  (act_alone h (actOf_active he)).2.2.2

theorem eng_state (s : State) (e : Eng) : (s.eng e).state = s.pair.acts.st e := by cases e <;> rfl

theorem pairOk_setState {s : State} (e : Eng) {st : EngState} (h : PairOk s.pair) (he : actOf s.pair.acts e = false) (hs : st ≠ .active) :
    PairOk (s.setEng e (fun g => { g with state := st })).pair := by
  unfold PairOk at *
  rw [acts_setState s e st he]
  exact ok_down h e hs

theorem pairOk_onPair {s : State} {f : PairSt → PairSt} (hf : (f s.pair).acts = s.pair.acts) (h : PairOk s.pair) :
    PairOk (s.onPair f).pair := pairOk_of_eq hf h

theorem pairOk_actFalls {s : State} (h : PairOk s.pair) : PairOk s.actFalls.pair := by
  unfold State.actFalls
  split
  · rename_i d hd
    split
    · rename_i hc
      exact pairOk_lowerStandby h (other_low h hc.2.2) (not_fenced h hc.2.2)
    · exact h
  · exact h

theorem pairOk_wireIdle {s : State} (h : PairOk s.pair) : PairOk s.wireIdle.pair :=
  pairOk_of_eq (acts_of (does_quiesceEnds (by decide) (does_refl _ s.actFalls))) (pairOk_actFalls h)

theorem pairOk_faultAlone {s : State} (e : Eng) (c : Nat) (h : PairOk s.pair) (hf : s.pair.fenced = false) :
    PairOk (s.faultAlone e c).pair := by
  unfold State.faultAlone
  split
  · split
    · rename_i ho
      refine pairOk_startHandover e c false h (act_low h ?_) hf
      rw [← eng_state, ho]
      decide
    · exact pairOk_fence c (pairOk_failEngine e c h)
  · exact pairOk_announce _ _ (pairOk_raise _ _ (pairOk_failEngine e c (pairOk_onPair rfl h)))
  · exact pairOk_failEngine e c (pairOk_raise _ _ (pairOk_onPair rfl h))
  · exact pairOk_failEngine e c h
  · exact h

theorem pairOk_faultInHandover {s : State} (d : Handover) (e : Eng) (c : Nat) (h : PairOk s.pair) (hd : s.pair.handover = some d)
    (hf : s.pair.fenced = false) : PairOk (s.faultInHandover d e c).pair := by
  unfold State.faultInHandover
  split
  · split
    · exact pairOk_fence c (pairOk_failEngine e c h)
    · exact pairOk_announce _ _ (pairOk_raise _ _ (pairOk_failEngine e c (ok_clear h)))
  rename_i ho
  have ho : d.out = e := (not_not.mp ho).symm
  split
  · exact h
  split
  · rename_i hc
    have e0 : Does noActs s s.cutFrames.cutTlps.holdWords :=
      does_holdWords (by decide) (does_cutTlps (by decide) (does_cutFrames (by decide) (does_refl _ s)))
    have e1 := acts_of e0
    have k0 := pairOk_of_eq e1 h
    have g0 : actOf (s.cutFrames.cutTlps.holdWords).pair.acts (engOther e) = false := by
      with_reducible rw [e1]
      exact other_low h hc.2
    have f0 := (congrArg Acts.fenc e1).trans hf
    generalize s.cutFrames.cutTlps.holdWords = u at k0 g0 f0 ⊢
    subst ho
    exact pairOk_lowerFail (h := { d with swap := false, cause := c }) c k0 g0 f0
  split
  · refine pairOk_failEngine e c (pairOk_onPair ?_ h)
    unfold PairSt.acts
    rw [hd]
    rfl
  · exact pairOk_announce _ _ (pairOk_raise _ _ (pairOk_failEngine e c h))

theorem pairOk_engineFault {s : State} (e : Eng) (c : Nat) (h : PairOk s.pair) : PairOk (s.engineFault e c).pair := by
  unfold State.engineFault
  split
  · exact h
  rename_i hf
  have hf : s.pair.fenced = false := Bool.eq_false_iff.mpr hf
  split
  · exact pairOk_onPair rfl h
  split
  · exact pairOk_onPair rfl h
  extract_lets s1
  have h1 : PairOk s1.pair := pairOk_onPair rfl h
  have hf1 : s1.pair.fenced = false := hf
  clear_value s1
  split
  · rename_i d hd
    exact pairOk_faultInHandover d e c h1 hd hf1
  · exact pairOk_faultAlone e c h1 hf1

theorem pairOk_dueSwap {s : State} (h : PairOk s.pair) : PairOk s.dueSwap.pair := by
  unfold State.dueSwap
  split
  · split
    · rename_i e he
      exact pairOk_startHandover e 6 true (pairOk_onPair rfl h) (other_low h he) (not_fenced h he)
    · exact h
  · exact h

theorem pairOk_pairSettled {s : State} (h : PairOk s.pair) : PairOk s.pairSettled.pair := by
  unfold State.pairSettled
  split
  · exact h
  · exact pairOk_dueSwap (pairOk_of_does (m := noActs)
      (does_resumeEntry (by decide) (does_releaseCommit (by decide) (does_released (by decide) (does_refl _ s)))) (by decide) h)

theorem pairOk_handoverEnds {s : State} {d : Handover} (h : PairOk s.pair) (hh : s.pair.acts.hand = some d.out) :
    PairOk (s.handoverEnds d).pair := by
  obtain ⟨i, j, k⟩ := h.hand _ hh
  have hf : s.pair.acts.fenc = false := by
    cases q : s.pair.acts.fenc with
    | false => rfl
    | true =>
      obtain ⟨_, _, z, _⟩ := h.fence q
      rw [hh] at z
      cases z
  have hu : ActsOk (up s.pair.acts (engOther d.out)) := by
    cases hx : d.out <;> rw [hx] at k
    · exact ok_up h (e := .b) i k hf
    · exact ok_up h (e := .a) j k hf
  have hs (n : Nat) (b : Bytes) (x : Ctr) :
      PairOk (((((s.setEng (engOther d.out) (fun g => { g with state := .active, act := true })).onPair (fun p =>
        { p with handover := none, lastWhy := d.cause, lastDur := n })).count x 0).raise .handover b).announce 1 d.cause).pair := by
    refine pairOk_announce _ _ (pairOk_raise _ _ (pairOk_of_does (m := noActs) (does_count (by decide) (does_refl _ _)) (by decide) ?_))
    unfold PairOk
    have : ((s.setEng (engOther d.out) (fun g => { g with state := .active, act := true })).onPair (fun p =>
        { p with handover := none, lastWhy := d.cause, lastDur := n })).pair.acts = up s.pair.acts (engOther d.out) := by
      show { (s.setEng (engOther d.out) (fun g => { g with state := .active, act := true })).pair.acts with hand := none } = _
      rw [acts_setEng]
      cases d.out <;> rfl
    rw [this]
    exact hu
  unfold State.handoverEnds
  dsimp only
  split
  · exact hs _ _ _
  · exact pairOk_announce _ _ (pairOk_raise _ _ (hs _ _ _))

theorem acts_drainEnds (s : State) (h : Handover) (hd : s.pair.handover = some h) : (s.drainEnds h).pair.acts = s.pair.acts := by
  have h1 : (s.onPair (fun p => { p with handover := some { h with drained := true } })).pair.acts = s.pair.acts := by
    unfold State.onPair PairSt.acts
    simp only [hd]
    rfl
  unfold State.drainEnds
  extract_lets lost ids s1 s2 s3
  rw [← h1]
  refine acts_of (does_flowAll (by decide) (does_foldl (fun x a hx => does_rxAdvance (by decide) hx) ?_))
  refine does_onRx (by decide) (does_onHamper (by decide) (does_foldl (fun x a hx => ?_) (does_countN (by decide) (does_refl _ _))))
  exact does_ite (does_cqRelease (by decide) hx) hx

theorem pairOk_flitLost {s : State} (p : FlitPath) (lock : Bool) (h : PairOk s.pair) : PairOk (s.flitLost p lock).pair := by
  unfold State.flitLost
  dsimp only
  repeat' split
  all_goals first | exact h | exact pairOk_engineFault _ _ h

theorem pairOk_badFlit {s : State} (p : FlitPath) (lane : Nat) (x : LaneRx) (h : PairOk s.pair) : PairOk (s.badFlit p lane x).pair := by
  unfold State.badFlit
  extract_lets was s1 s2
  have h1 : PairOk s1.pair :=
    pairOk_of_does (m := noActs) (does_setLockOf (by decide) (does_count (by decide) (does_refl _ s))) (by decide) h
  have h2 : PairOk s2.pair := pairOk_raise _ _ (pairOk_of_does (m := noActs) (does_count (by decide) (does_setLockOf (by decide)
      (does_refl _ s1))) (by decide) h1)
  clear_value s1 s2
  repeat' split
  all_goals first | exact pairOk_flitLost _ _ h1 | exact pairOk_flitLost _ _ h2 | exact h1 | exact h2

theorem pairOk_flitLocked {s : State} (p : FlitPath) (lane raw : Nat) (x : LaneRx) (h : PairOk s.pair) :
    PairOk (s.flitLocked p lane raw x).pair := by
  unfold State.flitLocked
  generalize x.read raw = d
  split
  · exact pairOk_badFlit _ _ _ h
  · exact pairOk_of_does (m := noActs) (does_goodFlit (by decide) (does_refl _ s)) (by decide) h

theorem pairOk_flitOn {s : State} (p : FlitPath) (lane cur : Nat) (x : LaneRx) (h : PairOk s.pair) :
    PairOk (s.flitOn p lane cur x).pair := by
  have hl (f : LockSt → LockSt) : PairOk (s.setLockOf p f).pair :=
    pairOk_of_does (m := noActs) (does_setLockOf (by decide) (does_refl _ s)) (by decide) h
  unfold State.flitOn
  split
  · with_reducible exact pairOk_flitLocked _ _ _ _ h
  · with_reducible exact hl _

theorem pairOk_flitIn {s : State} (p : FlitPath) (lane cur : Nat) (h : PairOk s.pair) : PairOk (s.flitIn p lane cur).pair := by
  unfold State.flitIn
  with_reducible exact pairOk_flitOn _ _ _ _ h

theorem pairOk_judge {s : State} {act : Eng} (a b : Bool) (h : PairOk s.pair) (ha : s.active = some act) :
    PairOk (s.judge act a b).pair := by
  have ho := other_low h ha
  have hf := not_fenced h ha
  unfold State.judge
  extract_lets sb s0
  have h0 : PairOk s0.pair := pairOk_onPair rfl h
  have o0 : actOf s0.pair.acts sb = false := ho
  have f0 : s0.pair.fenced = false := hf
  clear_value s0
  split
  · exact pairOk_announce _ _ (pairOk_raise _ _ (pairOk_raise _ _ (pairOk_onPair rfl (pairOk_setState sb h0 o0 (by decide)))))
  split
  · exact pairOk_announce _ _ (pairOk_raise _ _ (pairOk_failEngine _ _ h0))
  split
  · exact pairOk_startHandover _ _ _ h0 o0 f0
  · exact pairOk_fence _ (pairOk_failEngine _ _ (pairOk_failEngine _ _ h0))

theorem pairOk_join {s : State} {e : Eng} (h : PairOk s.pair) (he : actOf s.pair.acts e = false) : PairOk (s.join e).pair := by
  unfold State.join
  extract_lets w s1 s2 c
  have h1 : s1.pair.acts = s.pair.acts := by
    refine acts_of (?_ : Does noActs s s1)
    exact does_ite (does_warmRest (by decide) (does_mirrorNow (by decide) (does_refl _ s)))
      (does_warmWake (by decide) (does_mirrorBoundary (by decide) (does_refl _ s)))
  have h2 : PairOk s2.pair :=
    pairOk_onPair rfl (pairOk_setState e (pairOk_of_eq h1 h) (by rw [h1]; exact he) (by decide))
  exact pairOk_announce _ _ (pairOk_of_does (m := noActs) (does_useFree (by decide) (does_raise (by decide) (does_count (by decide) (does_refl _ s2)))) (by decide) h2)

theorem pairOk_applyPair {s : State} (h : PairOk s.pair) : PairOk s.applyPair.pair := by
  unfold State.applyPair
  split
  · split
    · exact h
    · refine pairOk_of_eq (acts_of (s := s) ?_) h
      refine does_foldl (fun x a hx => does_ite (does_warmRest (by decide) hx) hx) ?_
      exact does_mirrorNow (by decide) (does_onPair (by decide) rfl (does_refl _ s))
  split
  · split
    · rename_i e ha _
      split
      · exact pairOk_onPair rfl (pairOk_setState _ h (other_low h ha) (by decide))
      · exact h
    · exact h
  · exact h
theorem joining_state {s : State} {e : Eng} (h : s.joining = some e) : s.pair.acts.st e = .resyncing := by
  unfold State.joining at h
  split at h
  · cases h; assumption
  · split at h
    · cases h; assumption
    · cases h

/-! ### Commits, starts and exits -/

/-- Operations that leave the acting part alone. -/
theorem pok {s t : State} (h : Does noActs s t) (k : PairOk s.pair) : PairOk t.pair := pairOk_of_eq (acts_of h) k

theorem pairOk_applySet {s : State} (p : SealedSet) (h : PairOk s.pair) : PairOk (s.applySet p).pair := by
  have h6 : Does noActs s ((List.range 16).foldl (State.applyEnable s) ((List.range 2).foldl (State.applyBreakout s)
      ((List.range 16).foldl (State.applySched p s) ((List.range 64).foldl (State.applyProfile p)
      ((((List.range 4).foldl (fun t n => t.applyBifurcate (s.withSet p) n) s).settleAll).withSet p))))) := by
    refine does_foldl (fun x a hx => does_applyEnable (by decide) hx) ?_
    refine does_foldl (fun x a hx => does_applyBreakout (by decide) hx) ?_
    refine does_foldl (fun x a hx => does_applySched (by decide) hx) ?_
    refine does_foldl (fun x a hx => does_applyProfile (by decide) hx) ?_
    with_reducible refine does_withSet (by decide) (does_settleAll (by decide) ?_)
    exact does_foldl (fun x a hx => does_applyBifurcate (by decide) hx) (does_refl _ s)
  have h7 := pairOk_applyPair (pok h6 h)
  unfold State.applySet
  extract_lets next s1 s2 s3 s4 s5 s6 s7 s8 s9
  have h9 : Does noActs s6.applyPair s9.gatesRefresh.flowAll :=
    does_flowAll (by decide) (does_gatesRefresh (by decide) (does_domainSync (by decide) (does_fmRefresh (by decide)
      (does_applyTether (by decide) (does_applyClock (by decide) (does_applyStyle (by decide) (does_refl _ s6.applyPair)))))))
  exact pok h9 h7

theorem pairOk_commitApply {s : State} (p : SealedSet) (h : PairOk s.pair) : PairOk (s.commitApply p).pair := by
  unfold State.commitApply
  extract_lets s0
  have h0 : PairOk s0.pair := h
  clear_value s0
  generalize s.setFault p = o
  rcases o with _ | ⟨off, why⟩
  · exact pok (does_promote (by decide) (does_raise (by decide) (does_onSetup (by decide) (setupOk_of_active rfl) (does_refl _ _)))) (pairOk_applySet p h0)
  · exact pok (does_promote (by decide) (does_refuseCommit (by decide) (does_returnSet (by decide) (does_refl _ s0)))) h0

theorem pairOk_imageEnds {s : State} (c : Nat) (p : SealedSet) (o : Option (Nat × Nat)) (h : PairOk s.pair) :
    PairOk (s.imageEnds c p o).1.pair := by
  have h1 : PairOk (s.onSetup (fun u => { u with staged := [], flowStaged := [] })).pair := h
  have hA := pok (does_onLog (f := fun l => { l with imgUsed := c, imgGen := s.copyGen c }) (by decide)
    (fun k => ⟨k.wf, k.top, k.heads⟩) (does_raise (e := .commitApplied) (payload := le 2 0) (by decide)
    (does_onSetup (f := fun u => { u with appliedSeq := 0, seq := 0, state := .idle }) (by decide) (setupOk_of_active rfl)
    (does_refl noActs ((s.onSetup (fun u => { u with staged := [], flowStaged := [] })).applySet p))))) (pairOk_applySet p h1)
  rcases o with _ | ⟨off, why⟩
  · exact pok (does_ite (does_setupLock (by decide) (does_refl _ _)) (does_refl _ _)) hA
  · exact pok (does_raise (by decide) (does_refuseCommit (by decide) (does_returnSet (by decide) (does_refl _ s)))) h

theorem pairOk_imageTry {s : State} (c : Nat) (h : PairOk s.pair) : PairOk (s.imageTry c).1.pair := by
  unfold State.imageTry
  exact pairOk_imageEnds c _ _ h

theorem pairOk_imageRun {s : State} (l : List Nat) (h : PairOk s.pair) : PairOk (s.imageRun l).1.pair := by
  induction l generalizing s with
  | nil => exact h
  | cons a r ih =>
    have ht := pairOk_imageTry a h
    obtain ⟨x, hx⟩ : ∃ x, x = s.imageRun (a :: r) := ⟨_, rfl⟩
    rw [← hx]
    rw [State.imageRun] at hx
    generalize s.imageTry a = t at ht hx
    split at hx
    · rw [hx]
      exact ht
    · rw [hx]
      exact ih ht

theorem pairOk_imageStage {s : State} (h : PairOk s.pair) : PairOk s.imageStage.pair := by
  have key (r : State × Bool) (k : PairOk r.1.pair) : PairOk (if r.2 then r.1 else r.1.raise .setupImageNone []).pair := by
    split
    · exact k
    · exact pairOk_raise _ _ k
  have h0 : Does noActs s ([1, 2].foldl (fun (t : State) c => if t.copyGood c then t else t.raise .setupImageFallback (le 1 c)) s) :=
    does_foldl (fun x a hx => does_ite hx (does_raise (by decide) hx)) (does_refl _ s)
  have h1 := pok h0 h
  unfold State.imageStage
  generalize List.foldl _ s [1, 2] = s1 at h1 ⊢
  with_reducible exact key _ (pairOk_imageRun _ h1)

/-- The roles form from reset. -/
theorem pairOk_formPair {s : State} (test : SelfTest) (h : s.pair = PairSt.init) : PairOk (s.formPair test).pair := by
  have h0 : PairOk s.pair := by rw [h]; exact ⟨rfl, by decide, fun _ => rfl, nofun, nofun, nofun⟩
  unfold State.formPair
  split
  · exact h0
  · exact pairOk_announce _ _ (pairOk_raise _ _ (pairOk_failEngine _ _ h0))
  · refine pairOk_announce _ _ (pairOk_raise _ _ ?_)
    obtain ⟨st, hs, he⟩ := acts_failEngine s .a 1
    have hu : ActsOk (up (down s.pair.acts .a st) .b) := ok_up (ok_down h0 .a hs) rfl hs (by rw [h]; rfl)
    unfold PairOk
    rw [acts_setEng]
    have : ({ (s.failEngine .a 1).pair.acts with actB := true, stB := .active } : Acts) = up (down s.pair.acts .a st) .b := by
      rw [he, h]
      rfl
    rw [this]
    exact hu
  · exact pairOk_fence _ (pairOk_failEngine _ _ (pairOk_failEngine _ _ h0))

theorem pairOk_startRest {s : State} (test : SelfTest) (cold : Bool) (h : s.pair = PairSt.init) :
    PairOk (s.startRest test cold).pair := by
  have h1 : PairOk ((s.onLog (fun l => { l with stage := 2 })).formPair test).pair := pairOk_formPair test h
  unfold State.startRest
  generalize (s.onLog (fun l => { l with stage := 2 })).formPair test = s1 at h1 ⊢
  dsimp only
  split
  · exact h1
  · have h2 : PairOk ((if cold then s1.raise .pwrExited (le 4 s1.wakeWord ++ le 8 s1.power.wakeTime) else s1).onLog (fun l => { l with stage := 3 })).pair := by
      show PairOk (if cold then s1.raise .pwrExited (le 4 s1.wakeWord ++ le 8 s1.power.wakeTime) else s1).pair
      split
      · exact pairOk_raise _ _ h1
      · exact h1
    have h3 := pairOk_imageStage h2
    generalize State.imageStage _ = s3 at h3 ⊢
    have h4 : Does noActs s3 (s3.onLog (fun l => { l with stage := 4 })) :=
      does_onLog (by decide) (fun k => ⟨k.wf, k.top, k.heads⟩) (does_refl _ _)
    exact pok (does_fmRefresh (restart := fun _ => false) (by decide) h4) h3

/-- Everything but the pair. -/
abbrev noPair : Nat := 0x3ff3ffff

theorem pair_of {s t : State} (h : Does noPair s t) : t.pair = s.pair := h.keeps .pair (by decide)

theorem pairOk_init : PairOk PairSt.init := ⟨rfl, by decide, fun _ => rfl, nofun, nofun, nofun⟩

theorem pair_sledCleared (s : State) (r : Nat) : (s.sledCleared r).pair = PairSt.init := rfl

theorem pairOk_sledReset {s : State} (r : Nat) (test : SelfTest) : PairOk (s.sledReset r test).pair := by
  have h1 : ((s.sledCleared r).mount.bootFirmware).pair = PairSt.init :=
    (pair_of (does_bootFirmware (by decide) (does_mount (by decide) (does_refl _ _)))).trans (pair_sledCleared s r)
  unfold State.sledReset
  generalize (s.sledCleared r).mount.bootFirmware = s1 at h1 ⊢
  dsimp only
  split
  · rw [h1]; exact pairOk_init
  split
  · rw [pair_of (does_heldReset (by decide) (does_refl _ s1)), h1]; exact pairOk_init
  · exact pairOk_startRest _ _ ((pair_of (does_timeRestart (by decide) (does_refl _ s1))).trans h1)

theorem pairOk_coldStart {s : State} (how : StartBy) (test : SelfTest) : PairOk (s.coldStart how test).pair := by
  unfold State.coldStart
  extract_lets codes s1 src s2 s3 s4
  have h1 : s1.pair = PairSt.init := pair_sledCleared s _
  have e3 : Does noPair s1 s3 := does_mount (by decide) (does_calibrated (by decide)
    (does_onSupply (by decide) (fun _ => Nat.zero_le _) (does_onTime (by decide) (does_onRtc (by decide) (does_refl _ s1)))))
  have e4 : Does noPair s1 s4 :=
    does_bootFirmware (by decide) (does_coldEvents (by decide) (does_raise (by decide) (does_coldWake (by decide) e3)))
  have h4 : s4.pair = PairSt.init := (pair_of e4).trans h1
  clear_value s4
  split
  · rw [h4]; exact pairOk_init
  · exact pairOk_startRest _ _ h4

theorem pairOk_bulkFalls {s : State} (mv : Nat) : PairOk (s.bulkFalls mv).pair := by
  unfold State.bulkFalls
  extract_lets s1
  have h : (s1.writeDeferred.bulkCleared).pair = PairSt.init := by
    unfold State.bulkCleared
    rw [pair_of (does_applyTether (by decide) (does_refl noPair _))]
    rfl
  have h2 : ((s1.writeDeferred.bulkCleared).heldReset.raise .bulkReset []).pair = PairSt.init :=
    (pair_of (does_raise (by decide) (does_heldReset (by decide) (does_refl _ _)))).trans h
  rw [h2]
  exact pairOk_init

theorem pairOk_bulkReleased {s : State} (test : SelfTest) : PairOk (s.bulkReleased test).pair := by
  unfold State.bulkReleased
  refine pairOk_startRest _ _ ?_
  exact pair_of (does_timeRestart (by decide) (does_refl _ _))

theorem pairOk_aoBrown {s : State} : PairOk s.aoBrown.pair := by
  have h : s.aoBrown.pair = PairSt.init := by
    unfold State.aoBrown
    exact pair_of (does_latchCheck (by decide) (does_refl _ _))
  rw [h]
  exact pairOk_init

theorem pairOk_enginesExit {s : State} (test : SelfTest) (deep : Bool) (h : PairOk s.pair) : PairOk (s.enginesExit test deep).pair := by
  have hc : (s.useFree.onPair (fun p => { p with latched := none })).pair.acts = s.pair.acts := rfl
  have hk : PairOk (s.useFree.onPair (fun p => { p with latched := none })).pair := h
  unfold State.enginesExit
  dsimp only
  generalize s.useFree.onPair (fun p => { p with latched := none }) = t at hc hk ⊢
  split
  · exact hk
  · rename_i e he
    obtain ⟨h1, h2, h3, h4⟩ := act_alone h (actOf_active he)
    split
    · exact hk
    · exact pairOk_announce _ _ (pairOk_raise _ _ (pairOk_failEngine _ _ hk))
    · rename_i c _ _
      split
      · refine pairOk_announce _ _ (pairOk_raise _ _ ?_)
        obtain ⟨st, hs, hq⟩ := acts_failEngine t e c
        have hu : ActsOk (up (down s.pair.acts e st) (engOther e)) := by
          refine ok_up (ok_down h e hs) ?_ ?_ ?_
          · cases e <;> rfl
          · cases e <;> exact hs
          · cases e <;> exact h4
        unfold PairOk
        have : ((t.failEngine e c).setEng (engOther e) (fun g => { g with state := .active, act := true })).pair.acts =
            up (down s.pair.acts e st) (engOther e) := by
          rw [acts_setEng, hq, hc]
          cases e <;> simp only [engOther, up, down, h3]
        rw [this]
        exact hu
      · exact pairOk_fence _ (pairOk_failEngine _ _ hk)
    · exact pairOk_fence _ (pairOk_failEngine _ _ (pairOk_failEngine _ _ hk))

theorem pairOk_logicReady {s : State} (test : SelfTest) (h : PairOk s.pair) : PairOk (s.logicReady test).pair := by
  unfold State.logicReady
  extract_lets deep s1 s2
  have h1 : PairOk s1.pair := by
    show PairOk (if deep then (s.timeRestart.raise .timeRestored []).cagesOn else s).pair
    split
    · exact pok (does_cagesOn (by decide) (does_raise (by decide) (does_timeRestart (by decide) (does_refl _ s)))) h
    · exact h
  have h2 : PairOk s2.pair := pairOk_enginesExit _ _
    (pok (does_onPair (by decide) rfl (does_onPower (by decide) (does_islandsTo (by decide) (does_refl _ s1)))) h1)
  exact pok (does_fmRefresh (by decide) (does_lookoutWake (by decide) (does_warmRestAll (by decide) (does_refl _ s2)))) h2

theorem pairOk_readyTimeout {s : State} (test : SelfTest) (h : PairOk s.pair) : PairOk (s.readyTimeout test).pair := by
  unfold State.readyTimeout
  split
  · exact pairOk_raise _ _ h
  · exact pairOk_sledReset _ _

theorem pairOk_exited {s : State} (h : PairOk s.pair) : PairOk s.exited.pair := by
  unfold State.exited
  refine pairOk_dueSwap ?_
  have e : Does noActs s ((s.onPower (fun p => { p with mode := .run, stage := 0 })).raise .pwrExited
      (le 4 s.wakeWord ++ le 8 s.power.wakeTime)).applyStyle.released :=
    does_released (by decide) (does_applyStyle (by decide) (does_raise (by decide) (does_onPower (by decide) (does_refl _ s))))
  exact pok e h

theorem pairOk_loHoldEnd {s : State} (e : Nat × Nat × Bool) (h : PairOk s.pair) : PairOk (s.loHoldEnd e).pair := by
  unfold State.loHoldEnd
  split
  · split
    · exact pok (does_mgmtBegin (by decide) (does_refl _ s)) h
    · exact pairOk_pairSettled (pairOk_fence _ h)
  · exact pairOk_pairSettled (pairOk_engineFault _ _ h)

theorem pairOk_railFault {s : State} (r : Rail) (mv : Nat) (h : PairOk s.pair) : PairOk (s.railFault r mv).pair := by
  have h1 := pairOk_raise .railFault (le 1 (railRow r + 1) ++ le 2 mv) (s := s.onSupply (fun x => { x with rails := Nat.lor x.rails (2 ^ railRow r) })) h
  unfold State.railFault
  generalize (s.onSupply (fun x => { x with rails := Nat.lor x.rails (2 ^ railRow r) })).raise .railFault (le 1 (railRow r + 1) ++ le 2 mv) = s1 at h1 ⊢
  cases r with
  | coreA => exact pairOk_pairSettled (pairOk_engineFault _ _ h1)
  | coreB => exact pairOk_pairSettled (pairOk_engineFault _ _ h1)
  | junction => exact pairOk_fence _ h1
  | serdes => exact pairOk_fence _ h1
  | ao => exact pairOk_aoBrown
  | aux => exact h1
  | cage => exact h1


/-! ### The commands -/

theorem acts_hand {s : State} {d : Handover} (hd : s.pair.handover = some d) (hf : d.fallen = true) : s.pair.acts.hand = some d.out := by
  unfold PairSt.acts
  simp only [hd, Option.bind_some, hf, if_true]

theorem canRaise_fallen {s : State} {d : Handover} (h : s.canRaise d = true) : d.fallen = true := by
  unfold State.canRaise at h
  exact (Bool.and_eq_true_iff.mp h).1

theorem pairOk_execLockstepHandoverEnd {s : State} (h : PairOk s.pair) :
    ∃ t, execLockstepHandoverEnd s = .next t ∧ PairOk t.pair := by
  refine ⟨_, rfl, ?_⟩
  split
  · rename_i d hd
    split
    · exact h
    · rename_i hc
      have hr : s.canRaise d = true := by
        cases k : s.canRaise d with
        | true => rfl
        | false => exact absurd (Or.inr k) hc
      refine pairOk_pairSettled (pok (does_freeLevels (by decide) (does_refl _ _)) (pairOk_handoverEnds h ?_))
      exact acts_hand hd (canRaise_fallen hr)
  · exact h

theorem pairOk_execDrainEnd {s : State} (h : PairOk s.pair) :
    ∃ t, execDrainEnd s = .next t ∧ PairOk t.pair := by
  refine ⟨_, rfl, ?_⟩
  split
  · rename_i d hd
    split
    · exact pairOk_of_eq (acts_drainEnds s d hd) h
    · exact h
  · exact h

theorem pairOk_execWarmHandoverEnd {s : State} (h : PairOk s.pair) :
    ∃ t, execWarmHandoverEnd s = .next t ∧ PairOk t.pair := by
  refine ⟨_, rfl, ?_⟩
  split
  · rename_i d hd
    split
    · rename_i hc
      have e1 : Does noActs s ((List.range 16).foldl (State.pausesMissed d.x) (s.warmWake (engOther d.out)).takeOver) :=
        does_foldl (fun x a hx => does_pausesMissed (by decide) hx)
          (does_takeOver (by decide) (does_warmWake (by decide) (does_refl _ s)))
      have h1 := acts_of e1
      dsimp only
      generalize (List.range 16).foldl (State.pausesMissed d.x) (s.warmWake (engOther d.out)).takeOver = x at h1 ⊢
      have h2 : PairOk (x.handoverEnds d).pair :=
        pairOk_handoverEnds (pairOk_of_eq h1 h) ((congrArg Acts.hand h1).trans (acts_hand hd (canRaise_fallen hc.2.2)))
      generalize x.handoverEnds d = y at h2 ⊢
      have e3 : Does noActs y ((if d.swap then y.warmRest d.out else y).deliverFrames (some .handoverRxDrop)) :=
        does_deliverFrames (by decide) (does_ite (does_warmRest (by decide) (does_refl _ y)) (does_refl _ y))
      exact pairOk_pairSettled (pok e3 h2)
    · exact h
  · exact h

theorem pairOk_execRelinquish (e : Eng) {s : State} (h : PairOk s.pair) :
    ∃ t, execRelinquish e s = .next t ∧ PairOk t.pair := by
  refine ⟨_, rfl, ?_⟩
  exact pairOk_pairSettled (pairOk_engineFault e 1 h)

theorem pairOk_execHeartbeatMiss (e : Eng) {s : State} (h : PairOk s.pair) :
    ∃ t, execHeartbeatMiss e s = .next t ∧ PairOk t.pair := by
  refine ⟨_, rfl, ?_⟩
  split
  · exact pairOk_pairSettled (pairOk_engineFault e 3 (pok (does_count (by decide) (does_refl _ s)) h))
  · exact h

theorem pairOk_execJunctionFault {s : State} (h : PairOk s.pair) :
    ∃ t, execJunctionFault s = .next t ∧ PairOk t.pair := by
  refine ⟨_, rfl, ?_⟩
  split
  · exact pairOk_fence _ h
  · exact h

theorem pairOk_execFlitReceived (path : FlitPath) (lane : Fin 12) (flit : BitVec 288) {s : State} (h : PairOk s.pair) :
    ∃ t, execFlitReceived path lane flit s = .next t ∧ PairOk t.pair := by
  refine ⟨_, rfl, ?_⟩
  split
  · exact h
  · have h1 := pairOk_flitIn path lane.val flit.toNat h
    generalize s.flitIn path lane.val flit.toNat = x at h1 ⊢
    have e : Does noActs x (x.sendFlit (flitReverse path) lane.val) := does_sendFlit (by decide) (does_refl _ x)
    exact pairOk_pairSettled (pok e h1)

theorem active_of {s t : State} (h : t.pair.acts = s.pair.acts) : t.active = s.active := by
  have ha : t.pair.a.act = s.pair.a.act := congrArg Acts.actA h
  have hb : t.pair.b.act = s.pair.b.act := congrArg Acts.actB h
  unfold State.active
  rw [ha, hb]

theorem comparing_unfenced {s : State} (h : s.comparing = true) : s.pair.fenced = false := by
  cases k : s.pair.fenced with
  | false => rfl
  | true => simp [State.comparing, State.paired, k] at h

/-- A Verdict begins. -/
theorem pairOk_freeze {s : State} (h : PairOk s.pair) (hf : s.pair.fenced = false) : PairOk s.freeze.pair := by
  unfold State.freeze
  extract_lets s1
  have e1 : Does noActs s s1 := does_cutTlps (by decide) (does_foldl (fun x a hx => does_freezeOne (by decide) hx) (does_refl _ s))
  have h1 := pok e1 h
  have f1 : s1.pair.acts.fenc = false := (congrArg Acts.fenc (acts_of e1)).trans hf
  clear_value s1
  have h2 : PairOk (s1.onPair (fun p => { p with verdict := true, frozenAt := s.time.jcycle, cutTlp := s.tlpsBusy })).pair :=
    ⟨h1.lines, h1.one, h1.stA, h1.stB, h1.hand, fun k => absurd (f1.symm.trans k) (by decide)⟩
  generalize s1.onPair (fun p => { p with verdict := true, frozenAt := s.time.jcycle, cutTlp := s.tlpsBusy }) = x at h2 ⊢
  have e3 : Does noActs x x.holdLevels.holdWords := does_holdWords (by decide) (does_holdLevels (by decide) (does_refl _ x))
  exact pok e3 h2

theorem pairOk_execDivergence {s : State} (h : PairOk s.pair) :
    ∃ t, execDivergence s = .next t ∧ PairOk t.pair := by
  refine ⟨_, rfl, ?_⟩
  split
  · rename_i j typ t64 hd
    split
    · rename_i hc
      have h1 := pairOk_freeze h (comparing_unfenced hc.2.1)
      generalize s.freeze = x at h1 ⊢
      have e : Does noActs x (((x.count .divergenceCount 0).raise .divergence (le 1 typ ++ le 8 t64)).deferCommit) :=
        does_deferCommit (by decide) (does_raise (by decide) (does_count (by decide) (does_refl _ x)))
      exact pok e h1
    · exact h
  · exact h

theorem pairOk_verdictEnds {s : State} (h : PairOk s.pair) : PairOk s.verdictEnds.pair := by
  unfold State.verdictEnds
  split
  · exact h
  extract_lets s1
  have e1 : Does noActs s s1 := does_ite (does_refl _ s) (does_freeLevels (by decide) (does_refl _ s))
  have h1 := pok e1 h
  clear_value s1
  have e2 : Does noActs s1 (s1.resumeAll.deliverFrames (some .verdictDrop)).deliverHeld :=
    does_deliverHeld (by decide) (does_deliverFrames (by decide) (does_resumeAll (by decide) (does_refl _ s1)))
  exact pairOk_pairSettled (pok e2 h1)

theorem pairOk_execVerdictResult (test : SelfTest) {s : State} (h : PairOk s.pair) :
    ∃ t, execVerdictResult test s = .next t ∧ PairOk t.pair := by
  refine ⟨_, rfl, ?_⟩
  split
  · rename_i act hv ha
    have h0 : PairOk (s.onPair (fun p => { p with verdict := false, diverged := none })).pair :=
      ⟨h.lines, h.one, h.stA, h.stB, h.hand, fun k => ⟨(h.fence k).1, (h.fence k).2.1, (h.fence k).2.2.1, rfl⟩⟩
    have hA : (s.onPair (fun p => { p with verdict := false, diverged := none })).active = some act := by
      unfold State.active at ha ⊢
      exact ha
    generalize s.onPair (fun p => { p with verdict := false, diverged := none }) = s0 at h0 hA ⊢
    generalize s.selfPass test .a = pa
    generalize s.selfPass test .b = pb
    generalize s.selfPass test act = x
    generalize s.selfPass test (engOther act) = y
    have e1 : Does noActs s0 ((s0.count .verdictCount 0).raise .verdictResult (le 1 (if pa then 1 else 2) ++ le 1 (if pb then 1 else 2))) :=
      does_raise (by decide) (does_count (by decide) (does_refl _ s0))
    have hA1 := (active_of (acts_of e1)).trans hA
    exact pairOk_verdictEnds (pairOk_judge x y (pok e1 h0) hA1)
  · exact h

theorem pairOk_execRoleSwap {s : State} (h : PairOk s.pair) :
    ∃ t, execRoleSwap s = .next t ∧ PairOk t.pair := by
  refine ⟨_, rfl, ?_⟩
  split
  · exact h
  · exact pairOk_dueSwap (pairOk_onPair rfl h)

theorem pairOk_execPairCmdSwap {s : State} (h : PairOk s.pair) :
    ∃ t, execPairCmdSwap s = .next t ∧ PairOk t.pair := by
  refine ⟨_, rfl, ?_⟩
  split
  · exact h
  have e0 : Does noActs s ((s.arrives 64).wrote 0x70010 1) := does_wrote (by decide) (does_arrives (by decide) (does_refl _ s))
  have h0 := pok e0 h
  generalize (s.arrives 64).wrote 0x70010 1 = s0 at h0 ⊢
  dsimp only
  split
  · rename_i e hr ha
    split
    · exact pairOk_onPair rfl h0
    · exact pairOk_startHandover e 7 true h0 (other_low h0 ha) (not_fenced h0 ha)
  · exact pairOk_raise _ _ h0

theorem pairOk_execWarmStandbyReady {s : State} (h : PairOk s.pair) :
    ∃ t, execWarmStandbyReady s = .next t ∧ PairOk t.pair := by
  refine ⟨_, rfl, ?_⟩
  split
  · rename_i e hr ha
    have e0 : Does noActs s (s.warmWake (engOther e)) := does_warmWake (by decide) (does_refl _ s)
    have a0 := (active_of (acts_of e0)).trans ha
    have h0 := pok e0 h
    exact pairOk_startHandover e 7 true h0 (other_low h0 a0) (not_fenced h0 a0)
  · exact h

theorem pairOk_execPairCmdRequalify (e : Eng) {s : State} (h : PairOk s.pair) :
    ∃ t, execPairCmdRequalify e s = .next t ∧ PairOk t.pair := by
  refine ⟨_, rfl, ?_⟩
  split
  · exact h
  have e0 : Does noActs s ((s.arrives 64).wrote 0x70010 (16 * engCode e - 14)) :=
    does_wrote (by decide) (does_arrives (by decide) (does_refl _ s))
  have h0 := pok e0 h
  generalize (s.arrives 64).wrote 0x70010 (16 * engCode e - 14) = s0 at h0 ⊢
  dsimp only
  split
  · rename_i k
    exact pairOk_setState e h0 (act_low h0 (by rw [← eng_state, k]; decide)) (by decide)
  · rename_i k
    exact pairOk_setState e h0 (act_low h0 (by rw [← eng_state, k]; decide)) (by decide)
  · exact h0

theorem pairOk_execBistCycleDone (e : Eng) (pass : Bool) (ecc : BitVec 16) {s : State} (h : PairOk s.pair) :
    ∃ t, execBistCycleDone e pass ecc s = .next t ∧ PairOk t.pair := by
  refine ⟨_, rfl, ?_⟩
  split
  · have h1 (f : EngSt → EngSt) (hf : ∀ g, (f g).act = g.act ∧ (f g).state = g.state) :
        PairOk ((s.count .bistCycles 0).setEng e f).pair := by
      refine pairOk_of_eq (s := s.count .bistCycles 0) ?_ (pok (does_count (by decide) (does_refl _ s)) h)
      rw [acts_setEng]
      cases e
      · dsimp only
        rw [(hf _).1, (hf _).2]
        rfl
      · dsimp only
        rw [(hf _).1, (hf _).2]
        rfl
    dsimp only
    split
    · exact h1 _ (fun _ => ⟨rfl, rfl⟩)
    · exact pairOk_pairSettled (pairOk_engineFault e 8 (h1 _ (fun _ => ⟨rfl, rfl⟩)))
  · exact h

theorem pairOk_execRequalifyDone (e : Eng) (pass : Bool) {s : State} (h : PairOk s.pair) :
    ∃ t, execRequalifyDone e pass s = .next t ∧ PairOk t.pair := by
  refine ⟨_, rfl, ?_⟩
  split
  · rename_i k
    split
    · exact pairOk_onPair rfl (pairOk_setState e h (act_low h (by rw [← eng_state, k]; decide)) (by decide))
    · exact pairOk_failEngine _ _ h
  · exact h

theorem pairOk_execResyncDone {s : State} (h : PairOk s.pair) :
    ∃ t, execResyncDone s = .next t ∧ PairOk t.pair := by
  refine ⟨_, rfl, ?_⟩
  split
  · rename_i e hr hj
    exact pairOk_pairSettled (pairOk_join h (act_low h (by rw [joining_state hj]; decide)))
  · exact h

theorem pairOk_execResyncTimeout {s : State} (h : PairOk s.pair) :
    ∃ t, execResyncTimeout s = .next t ∧ PairOk t.pair := by
  refine ⟨_, rfl, ?_⟩
  split
  · exact pairOk_pairSettled (pairOk_failEngine _ _ (pairOk_raise _ _ (pairOk_onPair rfl h)))
  · exact h

theorem pairOk_execLookoutResetHold {s : State} (h : PairOk s.pair) :
    ∃ t, execLookoutResetHold s = .next t ∧ PairOk t.pair := by
  refine ⟨_, rfl, ?_⟩
  split
  · rename_i e r hr
    split
    · exact pairOk_loHoldEnd e (pok (does_onLookout (by decide) (does_refl _ s)) h)
    · exact h
  · exact h

theorem pairOk_execCommitApply {s : State} (h : PairOk s.pair) :
    ∃ t, execCommitApply s = .next t ∧ PairOk t.pair := by
  refine ⟨_, rfl, ?_⟩
  split
  · rename_i p hp
    split
    · exact h
    · exact pairOk_commitApply p h
  · exact h

theorem pairOk_execColdStart (how : StartBy) (test : SelfTest) {s : State} (h : PairOk s.pair) :
    ∃ t, execColdStart how test s = .next t ∧ PairOk t.pair := by
  refine ⟨_, rfl, ?_⟩
  split
  · exact pairOk_coldStart how test
  · exact h

theorem pairOk_execSledReset (key : BitVec 16) (test : SelfTest) {s : State} (h : PairOk s.pair) :
    ∃ t, execSledReset key test s = .next t ∧ PairOk t.pair := by
  refine ⟨_, rfl, ?_⟩
  split
  · exact h
  dsimp only
  split
  · exact pairOk_sledReset _ _
  · have e : Does noActs s ((s.arrives 64).wrote 0xA0100 key.toNat) := does_wrote (by decide) (does_arrives (by decide) (does_refl _ s))
    exact pok e h

theorem pairOk_execChassisReset (test : SelfTest) {s : State} (h : PairOk s.pair) :
    ∃ t, execChassisReset test s = .next t ∧ PairOk t.pair := by
  refine ⟨_, rfl, ?_⟩
  split
  · exact h
  · exact pairOk_sledReset _ _

theorem pairOk_execReadyStageDone (test : SelfTest) {s : State} (h : PairOk s.pair) :
    ∃ t, execReadyStageDone test s = .next t ∧ PairOk t.pair := by
  refine ⟨_, rfl, ?_⟩
  split
  · split
    · exact h
    · exact pairOk_logicReady test h
  · exact h

theorem pairOk_execReadyTimeout (test : SelfTest) {s : State} (h : PairOk s.pair) :
    ∃ t, execReadyTimeout test s = .next t ∧ PairOk t.pair := by
  refine ⟨_, rfl, ?_⟩
  split
  · exact pairOk_readyTimeout test h
  · exact h

theorem pairOk_execPwrExited {s : State} (h : PairOk s.pair) :
    ∃ t, execPwrExited s = .next t ∧ PairOk t.pair := by
  refine ⟨_, rfl, ?_⟩
  split
  · exact pairOk_exited h
  · exact h

theorem pairOk_execMainsReturn (test : SelfTest) {s : State} (h : PairOk s.pair) :
    ∃ t, execMainsReturn test s = .next t ∧ PairOk t.pair := by
  refine ⟨_, rfl, ?_⟩
  split
  · exact pairOk_coldStart _ test
  · exact h

theorem pairOk_execBulkReset (mv : Nat) {s : State} (h : PairOk s.pair) :
    ∃ t, execBulkReset mv s = .next t ∧ PairOk t.pair := by
  refine ⟨_, rfl, ?_⟩
  split
  · exact pairOk_bulkFalls _
  · exact h

theorem pairOk_execBulkResetRelease (test : SelfTest) {s : State} (h : PairOk s.pair) :
    ∃ t, execBulkResetRelease test s = .next t ∧ PairOk t.pair := by
  refine ⟨_, rfl, ?_⟩
  split
  · exact pairOk_bulkReleased test
  · exact h

theorem pairOk_execRailFault (rail : Rail) (mv : Nat) {s : State} (h : PairOk s.pair) :
    ∃ t, execRailFault rail mv s = .next t ∧ PairOk t.pair := by
  refine ⟨_, rfl, ?_⟩
  split
  · exact pairOk_railFault rail _ h
  · exact h

theorem pairOk_execAoBrownout {s : State} (h : PairOk s.pair) :
    ∃ t, execAoBrownout s = .next t ∧ PairOk t.pair := by
  refine ⟨_, rfl, ?_⟩
  split
  · exact pairOk_aoBrown
  · exact h

theorem pairOk_execFrameDeparture (m : Fin 16) {s : State} (h : PairOk s.pair) :
    ∃ t, execFrameDeparture m s = .next t ∧ PairOk t.pair := by
  refine ⟨_, rfl, ?_⟩
  split
  · rename_i f hf
    split
    · exact h
    · have e : Does noActs s ((s.settle m).depart m f) := does_depart (by decide) (does_settle (by decide) (does_refl _ s))
      exact pairOk_wireIdle (pok e h)
  · exact h

/-! ### The invariant -/

/-- The invariant of the sled after what an operation or a command does. -/
theorem inv_of_does {m : Nat} {s t : State} (h : Does m s t) (hp : PairOk t.pair) (k : Inv s) : Inv t :=
  ⟨h.log k.log, h.setup k.setup, h.tally k.tally, h.supply k.supply, h.tether k.tether, hp⟩

/-- The same where the acting part stays. -/
theorem inv_of_does_acts {m : Nat} {s t : State} (h : Does m s t) (hb : m.testBit 19 = false) (k : Inv s) : Inv t :=
  inv_of_does h (pairOk_of_does h hb k.pair) k

end Sys2Proof.Laws
end

