-- ==== Sys2Proof/Laws/Effects.lean ====
section
/-! SUPPORT. What raising an event, counting and writing a Logbook row do: the event leaves the sled first, and beside it nothing
changes but flags: event rings, the alert, counters, interrupts and Logbook rows. -/
set_option Elab.async false
namespace Sys2Proof.Laws
open Sys2Proof.Machine

theorem flags_refl (s : State) : Flags s s :=
  ⟨fun p _ => same_refl p s, fun _ => rfl, fun _ => rfl, rfl, rfl, rfl, rfl, id, [], by simp⟩

theorem flags_trans {s t u : State} (h : Flags s t) (k : Flags t u) : Flags s u := by
  obtain ⟨l, hl⟩ := h.out
  obtain ⟨r, hr⟩ := k.out
  exact ⟨fun p hp => same_trans (h.keeps p hp) (k.keeps p hp), fun n => (k.ofs n).trans (h.ofs n), fun n => (k.fns n).trans (h.fns n),
    k.tally.trans h.tally, k.supply.trans h.supply, k.log.trans h.log, k.events.trans h.events, k.alert ∘ h.alert, l ++ r, by rw [hr, hl, List.append_assoc]⟩

theorem flags_onTally {s₀ s : State} {f : TallySt → TallySt} (hf : (f s.tally).sans = s.tally.sans) (h : Flags s₀ s) :
    Flags s₀ (s.onTally f) := by
  refine flags_trans h ⟨fun p hp => ?_, fun _ => rfl, fun _ => rfl, hf, rfl, rfl, rfl, id, [], by simp [State.onTally]⟩
  cases p <;> first | rfl | exact absurd hp (by decide)

theorem flags_onSupply {s₀ s : State} {f : SupplySt → SupplySt} (hf : (f s.supply).sans = s.supply.sans) (h : Flags s₀ s) :
    Flags s₀ (s.onSupply f) := by
  refine flags_trans h ⟨fun p hp => ?_, fun _ => rfl, fun _ => rfl, rfl, hf, rfl, rfl, id, [], by simp [State.onSupply]⟩
  cases p <;> first | rfl | exact absurd hp (by decide)

theorem flags_onLog {s₀ s : State} {f : LogSt → LogSt} (hf : (f s.log).sans = s.log.sans) (h : Flags s₀ s) :
    Flags s₀ (s.onLog f) := by
  refine flags_trans h ⟨fun p hp => ?_, fun _ => rfl, fun _ => rfl, rfl, rfl, hf, rfl, id, [], by simp [State.onLog]⟩
  cases p <;> first | rfl | exact absurd hp (by decide)

theorem flags_onEvents {s₀ s : State} {f : EventSt → EventSt} (hf : (f s.events).sans = s.events.sans)
    (ha : s.events.alert = true → (f s.events).alert = true) (h : Flags s₀ s) :
    Flags s₀ (s.onEvents f) := by
  refine flags_trans h ⟨fun p hp => ?_, fun _ => rfl, fun _ => rfl, rfl, rfl, rfl, hf, ha, [], by simp [State.onEvents]⟩
  cases p <;> first | rfl | exact absurd hp (by decide)

theorem flags_emit {s₀ s : State} (o : Out) (h : Flags s₀ s) : Flags s₀ (s.emit o) := by
  refine flags_trans h ⟨fun p hp => ?_, fun _ => rfl, fun _ => rfl, rfl, rfl, rfl, rfl, id, [o], rfl⟩
  cases p <;> first | rfl | exact absurd hp (by decide)

theorem flags_setOf {s₀ s : State} {n : Nat} {f : OfSt → OfSt} (hf : ∀ o, (f o).sans = o.sans) (h : Flags s₀ s) :
    Flags s₀ (s.setOf n f) := by
  refine flags_trans h ⟨fun p hp => ?_, fun k => ?_, fun _ => rfl, rfl, rfl, rfl, rfl, id, [], by simp [State.setOf, State.onOfs]⟩
  · cases p <;> first | rfl | exact absurd hp (by decide)
  · by_cases hk : k = n
    · subst hk
      exact (congrArg OfSt.sans (get_modify_same _ _ _)).trans (hf _)
    · exact congrArg OfSt.sans (get_modify_other _ _ hk)

theorem flags_setFn {s₀ s : State} {n : Nat} {f : FnSt → FnSt} (hf : ∀ o, (f o).sans = o.sans) (h : Flags s₀ s) :
    Flags s₀ (s.setFn n f) := by
  refine flags_trans h ⟨fun p hp => ?_, fun _ => rfl, fun k => ?_, rfl, rfl, rfl, rfl, id, [], by simp [State.setFn, State.onFns]⟩
  · cases p <;> first | rfl | exact absurd hp (by decide)
  · by_cases hk : k = n
    · subst hk
      exact (congrArg FnSt.sans (get_modify_same _ _ _)).trans (hf _)
    · exact congrArg FnSt.sans (get_modify_other _ _ hk)

theorem flags_ite {s₀ x y : State} {c : Prop} [Decidable c] (hx : Flags s₀ x) (hy : Flags s₀ y) : Flags s₀ (if c then x else y) := by
  split
  · with_reducible exact hx
  · with_reducible exact hy

theorem flags_msixSend {s₀ s : State} (fn v : Nat) (h : Flags s₀ s) : Flags s₀ (s.msixSend fn v) := by
  unfold State.msixSend
  exact flags_emit _ h

theorem flags_msix {s₀ s : State} (fn v : Nat) (h : Flags s₀ s) : Flags s₀ (s.msix fn v) := by
  have h1 : Flags s₀ (s.onEvents (fun x => { x with msixHeld := x.msixHeld ++ [(fn, v)] })) := flags_onEvents (by rfl) id h
  unfold State.msix
  exact flags_ite (flags_setFn (fun _ => rfl) h) (flags_ite h1 (flags_msixSend _ _ h))

theorem flags_setEvr {s₀ s : State} (n : Nat) (f : CqRing → CqRing) (h : Flags s₀ s) : Flags s₀ (s.setEvr n f) := by
  unfold State.setEvr
  try dsimp only
  refine flags_onEvents ?_ ?_ h
  · rfl
  · exact id

theorem flags_setRegion {s₀ s : State} (r : Nat) (f : RegionSt → RegionSt) (h : Flags s₀ s) : Flags s₀ (s.setRegion r f) := by
  unfold State.setRegion
  try dsimp only
  refine flags_onLog ?_ h
  rfl

theorem sans_put (t : TallySt) (j k v : Nat) : (t.put j k v).sans = t.sans := by
  unfold TallySt.put
  split <;> rfl

theorem flags_runCount {s₀ s : State} (key n : Nat) (h : Flags s₀ s) : Flags s₀ (runCount s key n).1 := by
  have h1 (j v : Nat) : Flags s₀ (s.onTally (fun t => t.put j key v)) := flags_onTally (sans_put _ _ _ _) h
  unfold runCount
  dsimp only
  split
  · split
    · try dsimp only
      refine flags_onTally ?_ (h1 _ _)
      rfl
    · try dsimp only
      refine flags_onTally ?_ (h1 _ _)
      rfl
  · exact h1 _ _

theorem flags_use {s₀ s : State} (k : Act) (f n : Nat) (h : Flags s₀ s) : Flags s₀ (s.use k f n) := by
  unfold State.use
  exact flags_onTally rfl h

theorem flags_uses {s₀ s : State} (k : Act) (f n : Nat) (h : Flags s₀ s) : Flags s₀ (s.uses k f n) := by
  unfold State.uses
  generalize n * actScale = u
  exact flags_use k f u h

theorem flags_recordUse {s₀ s : State} (f n : Nat) (h : Flags s₀ s) : Flags s₀ (s.recordUse f n) := by
  unfold State.recordUse
  exact flags_uses _ _ _ (flags_uses _ _ _ h)

theorem flags_evrSignal {s₀ s : State} (n : Nat) (h : Flags s₀ s) : Flags s₀ (evrSignal s n) := by
  unfold evrSignal
  dsimp only
  split
  · exact flags_msix _ _ (flags_setEvr _ _ h)
  · exact h

theorem flags_evrWrite {s₀ s : State} (n : Nat) (e : Ev) (b : Bytes) (h : Flags s₀ s) : Flags s₀ (evrWrite s n e b) := by
  unfold evrWrite
  exact flags_evrSignal _ (flags_setOf (fun _ => rfl) (flags_setEvr _ _ (flags_recordUse _ _ (flags_emit _ h))))

theorem flags_evrLost {s₀ s : State} (n : Nat) (h : Flags s₀ s) : Flags s₀ (evrLost s n).1 := by
  unfold evrLost
  dsimp only
  split
  · exact flags_setOf (fun _ => rfl) (flags_evrWrite _ _ _ (flags_emit _ h))
  · exact h

theorem flags_evrOne {s₀ s : State} (n : Nat) (e : Ev) (b : Bytes) (h : Flags s₀ s) : Flags s₀ (evrOne s n e b).1 := by
  have h1 := flags_evrLost n h
  unfold evrOne
  dsimp only
  split
  · split
    · exact flags_evrWrite _ _ _ h1
    · exact flags_setOf (fun _ => rfl) h1
  · exact h

theorem flags_evrAll {s₀ s : State} (e : Ev) (b : Bytes) (h : Flags s₀ s) : Flags s₀ (evrAll s e b).1 := by
  have h1 := flags_evrOne 0 e b h
  have h2 := flags_evrOne 1 e b h1
  have h3 := flags_evrOne 2 e b h2
  have h4 := flags_evrOne 3 e b h3
  unfold evrAll
  dsimp only
  exact h4

/-- What raising an event does after the event has left the sled. -/
theorem flags_runEv {s₀ s : State} (e : Ev) (b : Bytes) (h : Flags s₀ (s.emit (.event e.code s.time64 b))) :
    Flags s₀ (runEv s e b).1 := by
  have h2 : Flags s₀ (if s.evAlertMinSev ≤ e.severity then (s.emit (.event e.code s.time64 b)).onEvents (fun v => { v with alert := true })
      else s.emit (.event e.code s.time64 b)) := flags_ite (flags_onEvents (by rfl) (fun _ => rfl) h) h
  unfold runEv
  dsimp only
  split
  · exact h2
  · exact flags_evrAll _ _ h2

theorem flags_rateTest {s₀ s : State} (r : LogRec) (h : Flags s₀ s) : Flags s₀ (rateTest s r).1 := by
  unfold rateTest
  extract_lets n
  split
  · split
    · dsimp only
      refine flags_onLog ?_ h
      rfl
    · dsimp only
      refine flags_onLog ?_ h
      rfl
  · exact h

theorem flags_rowWrite {s₀ s : State} (r : LogRec) (h : Flags s₀ s) : Flags s₀ (rowWrite s r) := by
  unfold rowWrite
  dsimp only
  refine flags_setRegion _ _ (flags_onLog ?_ h)
  rfl

theorem flags_runRow {s₀ s : State} (r : LogRec) (h : Flags s₀ s) : Flags s₀ (runRow s r).1 := by
  unfold runRow
  dsimp only
  split
  · split
    · dsimp only
      refine flags_rowWrite _ (flags_onLog ?_ h)
      rfl
    · dsimp only
      refine flags_setRegion _ _ (flags_onLog ?_ h)
      rfl
  · exact flags_rowWrite _ h

theorem flags_deferRow {s₀ s : State} (r : LogRec) (h : Flags s₀ s) : Flags s₀ (deferRow s r).1 := by
  unfold deferRow
  dsimp only
  split
  · try dsimp only
    refine flags_onSupply ?_ h
    rfl
  split
  · split
    · try dsimp only
      refine flags_onSupply ?_ h
      rfl
    · split
      · exact h
      · try dsimp only
        refine flags_onSupply ?_ (flags_runRow _ h)
        rfl
  · try dsimp only
    refine flags_onSupply ?_ h
    rfl

theorem flags_acceptRow {s₀ s : State} (r : LogRec) (h : Flags s₀ s) : Flags s₀ (acceptRow s r).1 := by
  have h1 := flags_rateTest r h
  unfold acceptRow
  dsimp only
  split
  · split
    · exact flags_deferRow _ h1
    · exact flags_runRow _ h1
  · exact h1

theorem flags_run {s₀ s : State} (x : Eff) (h : Flags s₀ s) : Flags s₀ (x.run s).1 := by
  cases x with
  | ev e b => exact flags_runEv e b (flags_emit _ h)
  | count c cls obj n => exact flags_runCount _ _ h
  | row r => exact flags_acceptRow r h

theorem flags_runEffs {s₀ : State} (n : Nat) (l : List Eff) {s : State} (h : Flags s₀ s) : Flags s₀ (runEffs n l s) := by
  induction n generalizing l s with
  | zero => exact h
  | succ n ih =>
    cases l with
    | nil => exact h
    | cons x r => exact ih _ (flags_run x h)

/-- Counting changes nothing but flags. -/
theorem flags_countN {s₀ s : State} (c : Ctr) (cls obj n : Nat) (h : Flags s₀ s) : Flags s₀ (s.countN c cls obj n) :=
  flags_runEffs _ _ h

theorem flags_count {s₀ s : State} (c : Ctr) (obj : Nat) (h : Flags s₀ s) : Flags s₀ (s.count c obj) := flags_countN _ _ _ _ h

theorem flags_countCls {s₀ s : State} (c : Ctr) (cls obj : Nat) (h : Flags s₀ s) : Flags s₀ (s.countCls c cls obj) :=
  flags_countN _ _ _ _ h

/-- Writing a Logbook row changes nothing but flags. -/
theorem flags_logRow {s₀ s : State} (r : LogRec) (h : Flags s₀ s) : Flags s₀ (s.logRow r) := flags_runEffs _ _ h

theorem flags_raise {s₀ s : State} (e : Ev) (b : Bytes) (h : Flags s₀ s) : Flags s₀ (s.raise e b) := flags_runEffs _ _ h

/-- The bound of a work list leaves room for its first entry. -/
theorem effFuel_succ : effFuel = 39999 + 1 := rfl

/-- The event leaves the sled first, and the rest is flags. -/
theorem flags_after_event (s : State) (e : Ev) (b : Bytes) : Flags (s.emit (.event e.code s.time64 b)) (s.raise e b) := by
  unfold State.raise
  rw [effFuel_succ]
  exact flags_runEffs 39999 _ (flags_runEv e b (flags_refl _))

/-! ### Counters under flags -/

/-- An entry of the work list that can count counts EVR_LOST alone. -/
def lostOnly : Eff → Prop
  | .count c cls obj _ => tallyKey c cls obj / 2 ^ 15 = Ctr.evrLost.code
  | _ => True

/-- A step of the work list: the counters kept but EVR_LOST's, and what it adds can count EVR_LOST alone. -/
def LostOnly (s₀ : State) (r : State × List Eff) : Prop := CountsKept s₀ r.1 ∧ ∀ x ∈ r.2, lostOnly x

theorem countsKept_of_count {s t : State} (h : t.tally.count = s.tally.count) : CountsKept s t := fun k _ => by rw [h]

theorem countsKept_trans {s t u : State} (h : CountsKept s t) (k : CountsKept t u) : CountsKept s u :=
  fun i hi => (k i hi).trans (h i hi)

theorem lost_key (n : Nat) (hn : n < 4) : tallyKey Ctr.evrLost.code 0 n / 2 ^ 15 = Ctr.evrLost.code := by
  unfold tallyKey
  show (0x902 * 2 ^ 15 + 0 * 2 ^ 12 + n) / 2 ^ 15 = 0x902
  omega

theorem lostOnly_runCount (s : State) (key n : Nat) (h : key / 2 ^ 15 = Ctr.evrLost.code) : LostOnly s (runCount s key n) := by
  have hc (j v : Nat) : CountsKept s (s.onTally (fun t => t.put j key v)) :=
    fun k hk => get_put_other _ _ (fun e => hk (by rw [e, h]))
  unfold runCount
  dsimp only
  split
  · split
    · exact ⟨fun k hk => hc s.time.jcycle _ k hk, nofun⟩
    · refine ⟨fun k hk => hc s.time.jcycle _ k hk, fun x hx => ?_⟩
      rw [List.mem_singleton.1 hx]
      trivial
  · exact ⟨hc _ _, nofun⟩

theorem count_use (s : State) (k : Act) (f n : Nat) : (s.use k f n).tally.count = s.tally.count := rfl

theorem count_recordUse (s : State) (f n : Nat) : (s.recordUse f n).tally.count = s.tally.count := by
  unfold State.recordUse State.uses
  rw [count_use, count_use]

theorem count_msix (s : State) (f v : Nat) : (s.msix f v).tally = s.tally := by
  unfold State.msix
  split
  · rfl
  · split <;> rfl

theorem count_evrSignal (s : State) (n : Nat) : (evrSignal s n).tally = s.tally := by
  unfold evrSignal
  dsimp only
  split
  · exact count_msix _ _ _
  · rfl

theorem count_evrWrite (s : State) (n : Nat) (e : Ev) (b : Bytes) : (evrWrite s n e b).tally.count = s.tally.count := by
  unfold evrWrite
  rw [count_evrSignal]
  exact count_recordUse _ _ _

theorem lostOnly_evrLost (s : State) (n : Nat) : (evrLost s n).1.tally.count = s.tally.count ∧ ∀ x ∈ (evrLost s n).2, lostOnly x := by
  unfold evrLost
  dsimp only
  split
  · refine ⟨count_evrWrite _ _ _ _, fun x hx => ?_⟩
    rw [List.mem_singleton.1 hx]
    trivial
  · exact ⟨rfl, nofun⟩

theorem lostOnly_evrOne (s : State) (n : Nat) (hn : n < 4) (e : Ev) (b : Bytes) :
    (evrOne s n e b).1.tally.count = s.tally.count ∧ ∀ x ∈ (evrOne s n e b).2, lostOnly x := by
  obtain ⟨h1, h2⟩ := lostOnly_evrLost s n
  unfold evrOne
  dsimp only
  split
  · split
    · exact ⟨(count_evrWrite _ _ _ _).trans h1, h2⟩
    · refine ⟨h1, fun x hx => ?_⟩
      rcases List.mem_append.1 hx with hx | hx
      · exact h2 x hx
      · rw [List.mem_singleton.1 hx]
        exact lost_key n hn
  · exact ⟨rfl, nofun⟩

theorem lostOnly_evrAll (s : State) (e : Ev) (b : Bytes) :
    (evrAll s e b).1.tally.count = s.tally.count ∧ ∀ x ∈ (evrAll s e b).2, lostOnly x := by
  obtain ⟨a0, b0⟩ := lostOnly_evrOne s 0 (by decide) e b
  obtain ⟨a1, b1⟩ := lostOnly_evrOne (evrOne s 0 e b).1 1 (by decide) e b
  obtain ⟨a2, b2⟩ := lostOnly_evrOne (evrOne (evrOne s 0 e b).1 1 e b).1 2 (by decide) e b
  obtain ⟨a3, b3⟩ := lostOnly_evrOne (evrOne (evrOne (evrOne s 0 e b).1 1 e b).1 2 e b).1 3 (by decide) e b
  unfold evrAll
  dsimp only
  refine ⟨((a3.trans a2).trans a1).trans a0, fun x hx => ?_⟩
  simp only [List.mem_append] at hx
  rcases hx with ((hx | hx) | hx) | hx
  · exact b0 x hx
  · exact b1 x hx
  · exact b2 x hx
  · exact b3 x hx

theorem lostOnly_runEv (s : State) (e : Ev) (b : Bytes) : LostOnly s (runEv s e b) := by
  have row : lostOnly (.row (evRow s e b)) := trivial
  have last (x : Eff) (hx : x ∈ if e.logged = true then [Eff.row (evRow s e b)] else []) : lostOnly x := by
    split at hx
    · rw [List.mem_singleton.1 hx]
      exact row
    · cases hx
  unfold runEv
  extract_lets s1 s2 r
  have h0 : s2.tally.count = s.tally.count := by
    show (if s.evAlertMinSev ≤ e.severity then s1.onEvents (fun v => { v with alert := true }) else s1).tally.count = s.tally.count
    split <;> rfl
  have hr : r.1.tally.count = s.tally.count ∧ ∀ x ∈ r.2, lostOnly x := by
    show (if e.logOnly then (s2, []) else evrAll s2 e b).1.tally.count = s.tally.count ∧ ∀ x ∈ (if e.logOnly then (s2, []) else evrAll s2 e b).2, lostOnly x
    split
    · exact ⟨h0, nofun⟩
    · obtain ⟨h1, h2⟩ := lostOnly_evrAll s2 e b
      exact ⟨h1.trans h0, h2⟩
  refine ⟨countsKept_of_count hr.1, fun x hx => ?_⟩
  rcases List.mem_append.1 hx with hx | hx
  · exact hr.2 x hx
  · exact last x hx

theorem tally_rateTest (s : State) (r : LogRec) : (rateTest s r).1.tally = s.tally := by
  unfold rateTest
  extract_lets n
  split
  · split <;> rfl
  · rfl

theorem lostOnly_runRow (s : State) (r : LogRec) : (runRow s r).1.tally = s.tally ∧ ∀ x ∈ (runRow s r).2, lostOnly x := by
  unfold runRow
  dsimp only
  split
  · split
    · refine ⟨rfl, fun x hx => ?_⟩
      rw [List.mem_singleton.1 hx]
      trivial
    · refine ⟨rfl, fun x hx => ?_⟩
      rcases List.mem_cons.1 hx with hx | hx
      · rw [hx]
        trivial
      · split at hx
        · cases hx
        · rw [List.mem_singleton.1 hx]
          trivial
  · exact ⟨rfl, nofun⟩

theorem lostOnly_deferRow (s : State) (r : LogRec) : (deferRow s r).1.tally = s.tally ∧ ∀ x ∈ (deferRow s r).2, lostOnly x := by
  unfold deferRow
  dsimp only
  split
  · exact ⟨rfl, nofun⟩
  split
  · split
    · exact ⟨rfl, nofun⟩
    · split
      · exact ⟨rfl, nofun⟩
      · exact lostOnly_runRow s _
  · exact ⟨rfl, nofun⟩

theorem lostOnly_acceptRow (s : State) (r : LogRec) : LostOnly s (acceptRow s r) := by
  have h0 := tally_rateTest s r
  unfold acceptRow
  dsimp only
  split
  · split
    · obtain ⟨h1, h2⟩ := lostOnly_deferRow (rateTest s r).1 r
      exact ⟨countsKept_of_count (congrArg TallySt.count (h1.trans h0)), h2⟩
    · obtain ⟨h1, h2⟩ := lostOnly_runRow (rateTest s r).1 r
      exact ⟨countsKept_of_count (congrArg TallySt.count (h1.trans h0)), h2⟩
  · exact ⟨countsKept_of_count (congrArg TallySt.count h0), nofun⟩

theorem lostOnly_run (s : State) (x : Eff) (h : lostOnly x) : LostOnly s (x.run s) := by
  cases x with
  | ev e b => exact lostOnly_runEv s e b
  | count c cls obj n => exact lostOnly_runCount s _ n h
  | row r => exact lostOnly_acceptRow s r

theorem countsKept_runEffs (n : Nat) (l : List Eff) (s : State) (h : ∀ x ∈ l, lostOnly x) : CountsKept s (runEffs n l s) := by
  induction n generalizing l s with
  | zero => exact countsKept_of_count rfl
  | succ n ih =>
    cases l with
    | nil => exact countsKept_of_count rfl
    | cons x r =>
      obtain ⟨h1, h2⟩ := lostOnly_run s x (h x (by simp))
      refine countsKept_trans h1 (ih _ _ (fun y hy => ?_))
      rcases List.mem_append.1 hy with hy | hy
      · exact h2 y hy
      · exact h y (List.mem_cons_of_mem _ hy)

/-- Raising an event moves no counter but EVR_LOST's. -/
theorem countsKept_raise (s : State) (e : Ev) (b : Bytes) : CountsKept s (s.raise e b) :=
  countsKept_runEffs _ _ _ (fun x hx => by rw [List.mem_singleton.1 hx]; trivial)

/-- Writing a row moves no counter but EVR_LOST's. -/
theorem countsKept_logRow (s : State) (r : LogRec) : CountsKept s (s.logRow r) :=
  countsKept_runEffs _ _ _ (fun x hx => by rw [List.mem_singleton.1 hx]; trivial)

/-- An event of severity MIN_SEV or above asserts the alert. -/
theorem raise_alarm (s : State) (e : Ev) (b : Bytes) (hs : s.evAlertMinSev ≤ e.severity) : (s.raise e b).events.alert = true := by
  have h : Flags ((s.emit (.event e.code s.time64 b)).onEvents (fun v => { v with alert := true })) (runEv s e b).1 := by
    unfold runEv
    dsimp only
    rw [if_pos hs]
    split
    · exact flags_refl _
    · exact flags_evrAll _ _ (flags_refl _)
  unfold State.raise
  rw [effFuel_succ]
  exact (flags_runEffs 39999 _ h).alert rfl

/-- Raising an event: it leaves the sled first, and nothing else changes but flags. -/
theorem raise_raises (s : State) (e : Ev) (b : Bytes) : Raises e b s (s.raise e b) := by
  have h := flags_after_event s e b
  obtain ⟨l, hl⟩ := h.out
  refine ⟨flags_raise e b (flags_refl s), countsKept_raise s e b, raise_alarm s e b, l, ?_⟩
  rw [hl]
  show (s.out ++ [_]) ++ l = _
  rw [List.append_assoc]
  rfl

/-- Counting: the counter goes up, modulo 2^48, and nothing else changes but flags. -/
theorem countN_counts (s : State) (c : Ctr) (cls obj n : Nat) (hc : tallyKey c.code cls obj / 2 ^ 15 ≠ Ctr.evrLost.code) :
    Counts c cls obj n s (s.countN c cls obj n) := by
  have h1 (k : Nat) : tget (runCount s (tallyKey c.code cls obj) n).1.tally.count k =
      if k = tallyKey c.code cls obj then (tget s.tally.count (tallyKey c.code cls obj) + n) % 2 ^ 48 else tget s.tally.count k := by
    have hv : tget (tput s.tally.count (tallyKey c.code cls obj) ((tget s.tally.count (tallyKey c.code cls obj) + n) % 2 ^ 48)) k =
        if k = tallyKey c.code cls obj then (tget s.tally.count (tallyKey c.code cls obj) + n) % 2 ^ 48 else tget s.tally.count k := by
      split
      · rename_i e
        subst e
        exact get_put_same _ _ _
      · rename_i e
        exact get_put_other _ _ e
    unfold runCount
    dsimp only
    split
    · split <;> exact hv
    · exact hv
  have h2 : ∀ x ∈ (runCount s (tallyKey c.code cls obj) n).2, lostOnly x := by
    unfold runCount
    dsimp only
    split
    · split
      · nofun
      · intro x hx
        rw [List.mem_singleton.1 hx]
        trivial
    · nofun
  have h3 : CountsKept (runCount s (tallyKey c.code cls obj) n).1 (s.countN c cls obj n) := by
    unfold State.countN
    rw [effFuel_succ]
    have h4 : runEffs (39999 + 1) [Eff.count c.code cls obj n] s =
        runEffs 39999 ((runCount s (tallyKey c.code cls obj) n).2 ++ []) (runCount s (tallyKey c.code cls obj) n).1 := by
      rw [runEffs]
      rfl
    rw [h4, List.append_nil]
    exact countsKept_runEffs 39999 _ _ h2
  refine ⟨flags_countN c cls obj n (flags_refl s), ?_, fun k hk hl => ?_⟩
  · rw [h3 _ hc, h1, if_pos rfl]
  · rw [h3 _ hl, h1, if_neg hk]

/-- The key of a counter other than EVR_LOST's, for a class and an object in their ranges. -/
theorem count_key (c : Ctr) (cls obj : Nat) (h1 : cls < 8) (h2 : obj < 4096) (hc : c.code ≠ Ctr.evrLost.code) :
    tallyKey c.code cls obj / 2 ^ 15 ≠ Ctr.evrLost.code := by
  intro h
  apply hc
  unfold tallyKey at h
  omega

/-- An event raised at most once in a second, by the kept index. -/
theorem raiseOnce_raises (s : State) (e : Ev) (obj : Nat) (b : Bytes) : RaisesOnce e obj b s (s.raiseOnce e obj b) := by
  unfold RaisesOnce State.raiseOnce
  dsimp only
  split
  · rfl
  · exact raise_raises _ _ _

/-- An event raised at most once in a second: nothing where it was raised before in this one. -/
theorem raiseOnce_kept (s : State) (e : Ev) (obj : Nat) (b : Bytes) (h : tget s.events.kept (e.code * 2 ^ 16 + obj) = s.second + 1) :
    s.raiseOnce e obj b = s := by
  unfold State.raiseOnce
  dsimp only
  rw [if_pos h]

/-- The Tally with a counter at a value. -/
def TallyTo (s : State) (key v : Nat) : State := s.onTally (fun t => t.put s.time.jcycle key v)

/-- Counting that neither reaches half range nor wraps: the counter, and nothing else. -/
theorem countN_quiet (s : State) (c : Ctr) (cls obj n : Nat) (hw : tget s.tally.count (tallyKey c.code cls obj) + n < 2 ^ 48)
    (hh : 2 ^ 47 ≤ tget s.tally.count (tallyKey c.code cls obj) ∨ tget s.tally.count (tallyKey c.code cls obj) + n < 2 ^ 47) :
    s.countN c cls obj n = TallyTo s (tallyKey c.code cls obj) (tget s.tally.count (tallyKey c.code cls obj) + n) := by
  unfold State.countN
  rw [effFuel_succ]
  show runEffs 39999 ((runCount s (tallyKey c.code cls obj) n).2 ++ []) (runCount s (tallyKey c.code cls obj) n).1 = _
  have h : runCount s (tallyKey c.code cls obj) n =
      (TallyTo s (tallyKey c.code cls obj) (tget s.tally.count (tallyKey c.code cls obj) + n), []) := by
    unfold runCount
    dsimp only
    rw [if_neg, Nat.mod_eq_of_lt hw]
    · rfl
    · simp only [Bool.or_eq_true, Bool.and_eq_true, decide_eq_true_eq, not_or, not_and, not_le]
      omega
  rw [h]
  rfl

end Sys2Proof.Laws
end

