-- ==== Sys2Proof/Laws/Objects.lean ====
section
/-! SUPPORT. One object of a table: what reading it gives after it, or another one, has been changed, and what a change leaves alone.
What ending Idle does. -/
set_option Elab.async false
namespace Sys2Proof.Laws
open Sys2Proof.Machine

theorem keeps_refl (l : List Part) (s : State) : Keeps l s s := fun p _ => same_refl p s

theorem keeps_trans {l : List Part} {s t u : State} (h : Keeps l s t) (k : Keeps l t u) : Keeps l s u :=
  fun p hp => same_trans (h p hp) (k p hp)

theorem keeps_mono {l m : List Part} {s t : State} (h : Keeps l s t) (k : ∀ p ∈ l, p ∈ m) : Keeps m s t := fun p hp => h p (fun x => hp (k p x))

theorem keeps_onSetup (s : State) (f : SetupSt → SetupSt) : Keeps [.setup] s (s.onSetup f) := by
  intro p hp
  cases p <;> first | rfl | exact absurd hp (by decide)

theorem keeps_onOfs (s : State) (f : (List (Nat × OfSt)) → (List (Nat × OfSt))) : Keeps [.ofs] s (s.onOfs f) := by
  intro p hp
  cases p <;> first | rfl | exact absurd hp (by decide)

theorem keeps_onTime (s : State) (f : TimeSt → TimeSt) : Keeps [.time] s (s.onTime f) := by
  intro p hp
  cases p <;> first | rfl | exact absurd hp (by decide)

theorem keeps_onRtc (s : State) (f : RtcSt → RtcSt) : Keeps [.rtc] s (s.onRtc f) := by
  intro p hp
  cases p <;> first | rfl | exact absurd hp (by decide)

theorem keeps_onLinks (s : State) (f : (List (Nat × LinkSt)) → (List (Nat × LinkSt))) : Keeps [.links] s (s.onLinks f) := by
  intro p hp
  cases p <;> first | rfl | exact absurd hp (by decide)

theorem keeps_onLinkDown (s : State) (f : (List (Nat × Nat)) → (List (Nat × Nat))) : Keeps [.linkDown] s (s.onLinkDown f) := by
  intro p hp
  cases p <;> first | rfl | exact absurd hp (by decide)

theorem keeps_onLinkAer (s : State) (f : (List (Nat × Nat)) → (List (Nat × Nat))) : Keeps [.linkAer] s (s.onLinkAer f) := by
  intro p hp
  cases p <;> first | rfl | exact absurd hp (by decide)

theorem keeps_onFns (s : State) (f : (List (Nat × FnSt)) → (List (Nat × FnSt))) : Keeps [.fns] s (s.onFns f) := by
  intro p hp
  cases p <;> first | rfl | exact absurd hp (by decide)

theorem keeps_onTx (s : State) (f : (List (Nat × TxRing)) → (List (Nat × TxRing))) : Keeps [.tx] s (s.onTx f) := by
  intro p hp
  cases p <;> first | rfl | exact absurd hp (by decide)

theorem keeps_onRx (s : State) (f : (List (Nat × RxRing)) → (List (Nat × RxRing))) : Keeps [.rx] s (s.onRx f) := by
  intro p hp
  cases p <;> first | rfl | exact absurd hp (by decide)

theorem keeps_onCq (s : State) (f : (List (Nat × CqRing)) → (List (Nat × CqRing))) : Keeps [.cq] s (s.onCq f) := by
  intro p hp
  cases p <;> first | rfl | exact absurd hp (by decide)

theorem keeps_onHost (s : State) (f : HostSt → HostSt) : Keeps [.host] s (s.onHost f) := by
  intro p hp
  cases p <;> first | rfl | exact absurd hp (by decide)

theorem keeps_onSched (s : State) (f : (List (Nat × SchInst)) → (List (Nat × SchInst))) : Keeps [.sched] s (s.onSched f) := by
  intro p hp
  cases p <;> first | rfl | exact absurd hp (by decide)

theorem keeps_onHamper (s : State) (f : HamperSt → HamperSt) : Keeps [.hamper] s (s.onHamper f) := by
  intro p hp
  cases p <;> first | rfl | exact absurd hp (by decide)

theorem keeps_onMacs (s : State) (f : (List (Nat × MacInst)) → (List (Nat × MacInst))) : Keeps [.macs] s (s.onMacs f) := by
  intro p hp
  cases p <;> first | rfl | exact absurd hp (by decide)

theorem keeps_onCages (s : State) (f : (List (Nat × CageSt)) → (List (Nat × CageSt))) : Keeps [.cages] s (s.onCages f) := by
  intro p hp
  cases p <;> first | rfl | exact absurd hp (by decide)

theorem keeps_onWatch (s : State) (f : (List (Nat × WatchSt)) → (List (Nat × WatchSt))) : Keeps [.watch] s (s.onWatch f) := by
  intro p hp
  cases p <;> first | rfl | exact absurd hp (by decide)

theorem keeps_onTally (s : State) (f : TallySt → TallySt) : Keeps [.tally] s (s.onTally f) := by
  intro p hp
  cases p <;> first | rfl | exact absurd hp (by decide)

theorem keeps_onLookout (s : State) (f : LookoutSt → LookoutSt) : Keeps [.lookout] s (s.onLookout f) := by
  intro p hp
  cases p <;> first | rfl | exact absurd hp (by decide)

theorem keeps_onSupply (s : State) (f : SupplySt → SupplySt) : Keeps [.supply] s (s.onSupply f) := by
  intro p hp
  cases p <;> first | rfl | exact absurd hp (by decide)

theorem keeps_onPower (s : State) (f : PowerSt → PowerSt) : Keeps [.power] s (s.onPower f) := by
  intro p hp
  cases p <;> first | rfl | exact absurd hp (by decide)

theorem keeps_onForeman (s : State) (f : ForemanSt → ForemanSt) : Keeps [.foreman] s (s.onForeman f) := by
  intro p hp
  cases p <;> first | rfl | exact absurd hp (by decide)

theorem keeps_onTether (s : State) (f : TetherSt → TetherSt) : Keeps [.tether] s (s.onTether f) := by
  intro p hp
  cases p <;> first | rfl | exact absurd hp (by decide)

theorem keeps_onLog (s : State) (f : LogSt → LogSt) : Keeps [.log] s (s.onLog f) := by
  intro p hp
  cases p <;> first | rfl | exact absurd hp (by decide)

theorem keeps_onEvents (s : State) (f : EventSt → EventSt) : Keeps [.events] s (s.onEvents f) := by
  intro p hp
  cases p <;> first | rfl | exact absurd hp (by decide)

theorem keeps_onOut (s : State) (f : (List Out) → (List Out)) : Keeps [.out] s (s.onOut f) := by
  intro p hp
  cases p <;> first | rfl | exact absurd hp (by decide)

theorem keeps_onFree (s : State) (f : Nat → Nat) : Keeps [.free] s (s.onFree f) := by
  intro p hp
  cases p <;> first | rfl | exact absurd hp (by decide)

theorem keeps_onPending (s : State) (f : (List Instr) → (List Instr)) : Keeps [.pending] s (s.onPending f) := by
  intro p hp
  cases p <;> first | rfl | exact absurd hp (by decide)

theorem keeps_onPair (s : State) (f : PairSt → PairSt) : Keeps [.pair, .acts] s (s.onPair f) := by
  intro p hp
  cases p <;> first | rfl | exact absurd hp (by decide)

@[simp] theorem of_setOf_same (s : State) (n : Nat) (f : OfSt → OfSt) : (s.setOf n f).of n = f (s.of n) :=
  get_modify_same (d := (fun _ => OfSt.init)) s.ofs n f

theorem of_setOf_other (s : State) {n k : Nat} (f : OfSt → OfSt) (h : k ≠ n) : (s.setOf n f).of k = s.of k :=
  get_modify_other (d := (fun _ => OfSt.init)) s.ofs f h

theorem keeps_setOf (s : State) (n : Nat) (f : OfSt → OfSt) : Keeps [.ofs] s (s.setOf n f) := by
  intro p hp
  cases p <;> first | rfl | exact absurd hp (by decide)

@[simp] theorem link_setLink_same (s : State) (n : Nat) (f : LinkSt → LinkSt) : (s.setLink n f).link n = f (s.link n) :=
  get_modify_same (d := (fun _ => LinkSt.init)) s.links n f

theorem link_setLink_other (s : State) {n k : Nat} (f : LinkSt → LinkSt) (h : k ≠ n) : (s.setLink n f).link k = s.link k :=
  get_modify_other (d := (fun _ => LinkSt.init)) s.links f h

theorem keeps_setLink (s : State) (n : Nat) (f : LinkSt → LinkSt) : Keeps [.links] s (s.setLink n f) := by
  intro p hp
  cases p <;> first | rfl | exact absurd hp (by decide)

@[simp] theorem fn_setFn_same (s : State) (n : Nat) (f : FnSt → FnSt) : (s.setFn n f).fn n = f (s.fn n) :=
  get_modify_same (d := (fun _ => FnSt.init)) s.fns n f

theorem fn_setFn_other (s : State) {n k : Nat} (f : FnSt → FnSt) (h : k ≠ n) : (s.setFn n f).fn k = s.fn k :=
  get_modify_other (d := (fun _ => FnSt.init)) s.fns f h

theorem keeps_setFn (s : State) (n : Nat) (f : FnSt → FnSt) : Keeps [.fns] s (s.setFn n f) := by
  intro p hp
  cases p <;> first | rfl | exact absurd hp (by decide)

@[simp] theorem txr_setTxr_same (s : State) (n : Nat) (f : TxRing → TxRing) : (s.setTxr n f).txr n = f (s.txr n) :=
  get_modify_same (d := (fun _ => TxRing.init)) s.tx n f

theorem txr_setTxr_other (s : State) {n k : Nat} (f : TxRing → TxRing) (h : k ≠ n) : (s.setTxr n f).txr k = s.txr k :=
  get_modify_other (d := (fun _ => TxRing.init)) s.tx f h

theorem keeps_setTxr (s : State) (n : Nat) (f : TxRing → TxRing) : Keeps [.tx] s (s.setTxr n f) := by
  intro p hp
  cases p <;> first | rfl | exact absurd hp (by decide)

@[simp] theorem rxr_setRxr_same (s : State) (n : Nat) (f : RxRing → RxRing) : (s.setRxr n f).rxr n = f (s.rxr n) :=
  get_modify_same (d := (fun _ => RxRing.init)) s.rx n f

theorem rxr_setRxr_other (s : State) {n k : Nat} (f : RxRing → RxRing) (h : k ≠ n) : (s.setRxr n f).rxr k = s.rxr k :=
  get_modify_other (d := (fun _ => RxRing.init)) s.rx f h

theorem keeps_setRxr (s : State) (n : Nat) (f : RxRing → RxRing) : Keeps [.rx] s (s.setRxr n f) := by
  intro p hp
  cases p <;> first | rfl | exact absurd hp (by decide)

@[simp] theorem cqr_setCqr_same (s : State) (n : Nat) (f : CqRing → CqRing) : (s.setCqr n f).cqr n = f (s.cqr n) :=
  get_modify_same (d := (fun _ => CqRing.init)) s.cq n f

theorem cqr_setCqr_other (s : State) {n k : Nat} (f : CqRing → CqRing) (h : k ≠ n) : (s.setCqr n f).cqr k = s.cqr k :=
  get_modify_other (d := (fun _ => CqRing.init)) s.cq f h

theorem keeps_setCqr (s : State) (n : Nat) (f : CqRing → CqRing) : Keeps [.cq] s (s.setCqr n f) := by
  intro p hp
  cases p <;> first | rfl | exact absurd hp (by decide)

@[simp] theorem sch_setSch_same (s : State) (n : Nat) (f : SchInst → SchInst) : (s.setSch n f).sch n = f (s.sch n) :=
  get_modify_same (d := (fun _ => SchInst.init)) s.sched n f

theorem sch_setSch_other (s : State) {n k : Nat} (f : SchInst → SchInst) (h : k ≠ n) : (s.setSch n f).sch k = s.sch k :=
  get_modify_other (d := (fun _ => SchInst.init)) s.sched f h

theorem keeps_setSch (s : State) (n : Nat) (f : SchInst → SchInst) : Keeps [.sched] s (s.setSch n f) := by
  intro p hp
  cases p <;> first | rfl | exact absurd hp (by decide)

@[simp] theorem mac_setMac_same (s : State) (n : Nat) (f : MacInst → MacInst) : (s.setMac n f).mac n = f (s.mac n) :=
  get_modify_same (d := (fun _ => MacInst.init)) s.macs n f

theorem mac_setMac_other (s : State) {n k : Nat} (f : MacInst → MacInst) (h : k ≠ n) : (s.setMac n f).mac k = s.mac k :=
  get_modify_other (d := (fun _ => MacInst.init)) s.macs f h

theorem keeps_setMac (s : State) (n : Nat) (f : MacInst → MacInst) : Keeps [.macs] s (s.setMac n f) := by
  intro p hp
  cases p <;> first | rfl | exact absurd hp (by decide)

@[simp] theorem cage_setCage_same (s : State) (n : Nat) (f : CageSt → CageSt) : (s.setCage n f).cage n = f (s.cage n) :=
  get_modify_same (d := (fun _ => CageSt.init)) s.cages n f

theorem cage_setCage_other (s : State) {n k : Nat} (f : CageSt → CageSt) (h : k ≠ n) : (s.setCage n f).cage k = s.cage k :=
  get_modify_other (d := (fun _ => CageSt.init)) s.cages f h

theorem keeps_setCage (s : State) (n : Nat) (f : CageSt → CageSt) : Keeps [.cages] s (s.setCage n f) := by
  intro p hp
  cases p <;> first | rfl | exact absurd hp (by decide)

@[simp] theorem watchLane_setWatchLane_same (s : State) (n : Nat) (f : WatchSt → WatchSt) : (s.setWatchLane n f).watchLane n = f (s.watchLane n) :=
  get_modify_same (d := (fun _ => WatchSt.init)) s.watch n f

theorem watchLane_setWatchLane_other (s : State) {n k : Nat} (f : WatchSt → WatchSt) (h : k ≠ n) : (s.setWatchLane n f).watchLane k = s.watchLane k :=
  get_modify_other (d := (fun _ => WatchSt.init)) s.watch f h

theorem keeps_setWatchLane (s : State) (n : Nat) (f : WatchSt → WatchSt) : Keeps [.watch] s (s.setWatchLane n f) := by
  intro p hp
  cases p <;> first | rfl | exact absurd hp (by decide)

@[simp] theorem evr_setEvr_same (s : State) (n : Nat) (f : CqRing → CqRing) : (s.setEvr n f).evr n = f (s.evr n) :=
  get_modify_same (d := (fun _ => CqRing.init)) s.events.rings n f

theorem evr_setEvr_other (s : State) {n k : Nat} (f : CqRing → CqRing) (h : k ≠ n) : (s.setEvr n f).evr k = s.evr k :=
  get_modify_other (d := (fun _ => CqRing.init)) s.events.rings f h

theorem keeps_setEvr (s : State) (n : Nat) (f : CqRing → CqRing) : Keeps [.events] s (s.setEvr n f) := by
  intro p hp
  cases p <;> first | rfl | exact absurd hp (by decide)

@[simp] theorem chan_setChan_same (s : State) (n : Nat) (f : LoChan → LoChan) : (s.setChan n f).chan n = f (s.chan n) :=
  get_modify_same (d := LoChan.init) s.lookout.chans n f

theorem chan_setChan_other (s : State) {n k : Nat} (f : LoChan → LoChan) (h : k ≠ n) : (s.setChan n f).chan k = s.chan k :=
  get_modify_other (d := LoChan.init) s.lookout.chans f h

theorem keeps_setChan (s : State) (n : Nat) (f : LoChan → LoChan) : Keeps [.lookout] s (s.setChan n f) := by
  intro p hp
  cases p <;> first | rfl | exact absurd hp (by decide)

@[simp] theorem island_setIsland_same (s : State) (n : Nat) (f : IslSt → IslSt) : (s.setIsland n f).island n = f (s.island n) :=
  get_modify_same (d := (fun _ => IslSt.init)) s.power.islands n f

theorem island_setIsland_other (s : State) {n k : Nat} (f : IslSt → IslSt) (h : k ≠ n) : (s.setIsland n f).island k = s.island k :=
  get_modify_other (d := (fun _ => IslSt.init)) s.power.islands f h

theorem keeps_setIsland (s : State) (n : Nat) (f : IslSt → IslSt) : Keeps [.power] s (s.setIsland n f) := by
  intro p hp
  cases p <;> first | rfl | exact absurd hp (by decide)

@[simp] theorem knob_setKnob_same (s : State) (n : Nat) (f : KnobSt → KnobSt) : (s.setKnob n f).knob n = f (s.knob n) :=
  get_modify_same (d := KnobSt.init) s.foreman.knobs n f

theorem knob_setKnob_other (s : State) {n k : Nat} (f : KnobSt → KnobSt) (h : k ≠ n) : (s.setKnob n f).knob k = s.knob k :=
  get_modify_other (d := KnobSt.init) s.foreman.knobs f h

theorem keeps_setKnob (s : State) (n : Nat) (f : KnobSt → KnobSt) : Keeps [.foreman] s (s.setKnob n f) := by
  intro p hp
  cases p <;> first | rfl | exact absurd hp (by decide)

@[simp] theorem peer_setPeer_same (s : State) (n : Nat) (f : PeerSt → PeerSt) : (s.setPeer n f).peer n = f (s.peer n) :=
  get_modify_same (d := (fun _ => PeerSt.init)) s.tether.peers n f

theorem peer_setPeer_other (s : State) {n k : Nat} (f : PeerSt → PeerSt) (h : k ≠ n) : (s.setPeer n f).peer k = s.peer k :=
  get_modify_other (d := (fun _ => PeerSt.init)) s.tether.peers f h

theorem keeps_setPeer (s : State) (n : Nat) (f : PeerSt → PeerSt) : Keeps [.tether] s (s.setPeer n f) := by
  intro p hp
  cases p <;> first | rfl | exact absurd hp (by decide)

@[simp] theorem slot_setSlot_same (s : State) (n : Nat) (f : SlotSt → SlotSt) : (s.setSlot n f).slot n = f (s.slot n) :=
  get_modify_same (d := (fun _ => SlotSt.init)) s.tether.slots n f

theorem slot_setSlot_other (s : State) {n k : Nat} (f : SlotSt → SlotSt) (h : k ≠ n) : (s.setSlot n f).slot k = s.slot k :=
  get_modify_other (d := (fun _ => SlotSt.init)) s.tether.slots f h

theorem keeps_setSlot (s : State) (n : Nat) (f : SlotSt → SlotSt) : Keeps [.tether] s (s.setSlot n f) := by
  intro p hp
  cases p <;> first | rfl | exact absurd hp (by decide)

/-- Ending Idle changes the power part alone. -/
theorem keeps_endIdle (s : State) : Keeps [.power] s s.endIdle := by
  unfold State.endIdle
  split
  · exact keeps_onPower _ _
  · exact keeps_refl _ _

theorem endIdle_mode (s : State) : s.endIdle.power.mode ≠ .idle := by
  unfold State.endIdle
  split
  · show PwrMode.run ≠ PwrMode.idle
    decide
  · assumption

theorem endIdle_awake (s : State) (h : s.power.mode ≠ .idle) : s.endIdle = s := if_neg h

end Sys2Proof.Laws
end

