-- ==== Sys2Proof/Laws/State.lean ====
section
/-! SUPPORT. What each update of a part of the state leaves: that part changed as told, every other part as before. -/
set_option Elab.async false
namespace Sys2Proof.Laws
open Sys2Proof.Machine

@[simp] theorem onSetup_parts (s : State) (f : SetupSt → SetupSt) :
    (s.onSetup f).setup = f s.setup ∧ (s.onSetup f).ofs = s.ofs ∧ (s.onSetup f).time = s.time ∧
    (s.onSetup f).rtc = s.rtc ∧ (s.onSetup f).links = s.links ∧ (s.onSetup f).linkDown = s.linkDown ∧
    (s.onSetup f).linkAer = s.linkAer ∧ (s.onSetup f).fns = s.fns ∧ (s.onSetup f).tx = s.tx ∧
    (s.onSetup f).rx = s.rx ∧ (s.onSetup f).cq = s.cq ∧ (s.onSetup f).host = s.host ∧
    (s.onSetup f).sched = s.sched ∧ (s.onSetup f).hamper = s.hamper ∧ (s.onSetup f).macs = s.macs ∧
    (s.onSetup f).cages = s.cages ∧ (s.onSetup f).watch = s.watch ∧ (s.onSetup f).tally = s.tally ∧
    (s.onSetup f).pair = s.pair ∧ (s.onSetup f).lookout = s.lookout ∧ (s.onSetup f).supply = s.supply ∧
    (s.onSetup f).power = s.power ∧ (s.onSetup f).foreman = s.foreman ∧ (s.onSetup f).tether = s.tether ∧
    (s.onSetup f).log = s.log ∧ (s.onSetup f).events = s.events ∧ (s.onSetup f).out = s.out ∧
    (s.onSetup f).free = s.free ∧ (s.onSetup f).pending = s.pending :=
  ⟨rfl, rfl, rfl, rfl, rfl, rfl, rfl, rfl, rfl, rfl, rfl, rfl, rfl, rfl, rfl, rfl, rfl, rfl, rfl, rfl, rfl, rfl, rfl, rfl, rfl, rfl, rfl, rfl, rfl⟩

@[simp] theorem onOfs_parts (s : State) (f : (List (Nat × OfSt)) → (List (Nat × OfSt))) :
    (s.onOfs f).setup = s.setup ∧ (s.onOfs f).ofs = f s.ofs ∧ (s.onOfs f).time = s.time ∧ (s.onOfs f).rtc = s.rtc ∧
    (s.onOfs f).links = s.links ∧ (s.onOfs f).linkDown = s.linkDown ∧ (s.onOfs f).linkAer = s.linkAer ∧
    (s.onOfs f).fns = s.fns ∧ (s.onOfs f).tx = s.tx ∧ (s.onOfs f).rx = s.rx ∧ (s.onOfs f).cq = s.cq ∧
    (s.onOfs f).host = s.host ∧ (s.onOfs f).sched = s.sched ∧ (s.onOfs f).hamper = s.hamper ∧
    (s.onOfs f).macs = s.macs ∧ (s.onOfs f).cages = s.cages ∧ (s.onOfs f).watch = s.watch ∧
    (s.onOfs f).tally = s.tally ∧ (s.onOfs f).pair = s.pair ∧ (s.onOfs f).lookout = s.lookout ∧
    (s.onOfs f).supply = s.supply ∧ (s.onOfs f).power = s.power ∧ (s.onOfs f).foreman = s.foreman ∧
    (s.onOfs f).tether = s.tether ∧ (s.onOfs f).log = s.log ∧ (s.onOfs f).events = s.events ∧
    (s.onOfs f).out = s.out ∧ (s.onOfs f).free = s.free ∧ (s.onOfs f).pending = s.pending :=
  ⟨rfl, rfl, rfl, rfl, rfl, rfl, rfl, rfl, rfl, rfl, rfl, rfl, rfl, rfl, rfl, rfl, rfl, rfl, rfl, rfl, rfl, rfl, rfl, rfl, rfl, rfl, rfl, rfl, rfl⟩

@[simp] theorem onTime_parts (s : State) (f : TimeSt → TimeSt) :
    (s.onTime f).setup = s.setup ∧ (s.onTime f).ofs = s.ofs ∧ (s.onTime f).time = f s.time ∧
    (s.onTime f).rtc = s.rtc ∧ (s.onTime f).links = s.links ∧ (s.onTime f).linkDown = s.linkDown ∧
    (s.onTime f).linkAer = s.linkAer ∧ (s.onTime f).fns = s.fns ∧ (s.onTime f).tx = s.tx ∧ (s.onTime f).rx = s.rx ∧
    (s.onTime f).cq = s.cq ∧ (s.onTime f).host = s.host ∧ (s.onTime f).sched = s.sched ∧
    (s.onTime f).hamper = s.hamper ∧ (s.onTime f).macs = s.macs ∧ (s.onTime f).cages = s.cages ∧
    (s.onTime f).watch = s.watch ∧ (s.onTime f).tally = s.tally ∧ (s.onTime f).pair = s.pair ∧
    (s.onTime f).lookout = s.lookout ∧ (s.onTime f).supply = s.supply ∧ (s.onTime f).power = s.power ∧
    (s.onTime f).foreman = s.foreman ∧ (s.onTime f).tether = s.tether ∧ (s.onTime f).log = s.log ∧
    (s.onTime f).events = s.events ∧ (s.onTime f).out = s.out ∧ (s.onTime f).free = s.free ∧
    (s.onTime f).pending = s.pending :=
  ⟨rfl, rfl, rfl, rfl, rfl, rfl, rfl, rfl, rfl, rfl, rfl, rfl, rfl, rfl, rfl, rfl, rfl, rfl, rfl, rfl, rfl, rfl, rfl, rfl, rfl, rfl, rfl, rfl, rfl⟩

@[simp] theorem onRtc_parts (s : State) (f : RtcSt → RtcSt) :
    (s.onRtc f).setup = s.setup ∧ (s.onRtc f).ofs = s.ofs ∧ (s.onRtc f).time = s.time ∧ (s.onRtc f).rtc = f s.rtc ∧
    (s.onRtc f).links = s.links ∧ (s.onRtc f).linkDown = s.linkDown ∧ (s.onRtc f).linkAer = s.linkAer ∧
    (s.onRtc f).fns = s.fns ∧ (s.onRtc f).tx = s.tx ∧ (s.onRtc f).rx = s.rx ∧ (s.onRtc f).cq = s.cq ∧
    (s.onRtc f).host = s.host ∧ (s.onRtc f).sched = s.sched ∧ (s.onRtc f).hamper = s.hamper ∧
    (s.onRtc f).macs = s.macs ∧ (s.onRtc f).cages = s.cages ∧ (s.onRtc f).watch = s.watch ∧
    (s.onRtc f).tally = s.tally ∧ (s.onRtc f).pair = s.pair ∧ (s.onRtc f).lookout = s.lookout ∧
    (s.onRtc f).supply = s.supply ∧ (s.onRtc f).power = s.power ∧ (s.onRtc f).foreman = s.foreman ∧
    (s.onRtc f).tether = s.tether ∧ (s.onRtc f).log = s.log ∧ (s.onRtc f).events = s.events ∧
    (s.onRtc f).out = s.out ∧ (s.onRtc f).free = s.free ∧ (s.onRtc f).pending = s.pending :=
  ⟨rfl, rfl, rfl, rfl, rfl, rfl, rfl, rfl, rfl, rfl, rfl, rfl, rfl, rfl, rfl, rfl, rfl, rfl, rfl, rfl, rfl, rfl, rfl, rfl, rfl, rfl, rfl, rfl, rfl⟩

@[simp] theorem onLinks_parts (s : State) (f : (List (Nat × LinkSt)) → (List (Nat × LinkSt))) :
    (s.onLinks f).setup = s.setup ∧ (s.onLinks f).ofs = s.ofs ∧ (s.onLinks f).time = s.time ∧
    (s.onLinks f).rtc = s.rtc ∧ (s.onLinks f).links = f s.links ∧ (s.onLinks f).linkDown = s.linkDown ∧
    (s.onLinks f).linkAer = s.linkAer ∧ (s.onLinks f).fns = s.fns ∧ (s.onLinks f).tx = s.tx ∧
    (s.onLinks f).rx = s.rx ∧ (s.onLinks f).cq = s.cq ∧ (s.onLinks f).host = s.host ∧
    (s.onLinks f).sched = s.sched ∧ (s.onLinks f).hamper = s.hamper ∧ (s.onLinks f).macs = s.macs ∧
    (s.onLinks f).cages = s.cages ∧ (s.onLinks f).watch = s.watch ∧ (s.onLinks f).tally = s.tally ∧
    (s.onLinks f).pair = s.pair ∧ (s.onLinks f).lookout = s.lookout ∧ (s.onLinks f).supply = s.supply ∧
    (s.onLinks f).power = s.power ∧ (s.onLinks f).foreman = s.foreman ∧ (s.onLinks f).tether = s.tether ∧
    (s.onLinks f).log = s.log ∧ (s.onLinks f).events = s.events ∧ (s.onLinks f).out = s.out ∧
    (s.onLinks f).free = s.free ∧ (s.onLinks f).pending = s.pending :=
  ⟨rfl, rfl, rfl, rfl, rfl, rfl, rfl, rfl, rfl, rfl, rfl, rfl, rfl, rfl, rfl, rfl, rfl, rfl, rfl, rfl, rfl, rfl, rfl, rfl, rfl, rfl, rfl, rfl, rfl⟩

@[simp] theorem onLinkDown_parts (s : State) (f : (List (Nat × Nat)) → (List (Nat × Nat))) :
    (s.onLinkDown f).setup = s.setup ∧ (s.onLinkDown f).ofs = s.ofs ∧ (s.onLinkDown f).time = s.time ∧
    (s.onLinkDown f).rtc = s.rtc ∧ (s.onLinkDown f).links = s.links ∧ (s.onLinkDown f).linkDown = f s.linkDown ∧
    (s.onLinkDown f).linkAer = s.linkAer ∧ (s.onLinkDown f).fns = s.fns ∧ (s.onLinkDown f).tx = s.tx ∧
    (s.onLinkDown f).rx = s.rx ∧ (s.onLinkDown f).cq = s.cq ∧ (s.onLinkDown f).host = s.host ∧
    (s.onLinkDown f).sched = s.sched ∧ (s.onLinkDown f).hamper = s.hamper ∧ (s.onLinkDown f).macs = s.macs ∧
    (s.onLinkDown f).cages = s.cages ∧ (s.onLinkDown f).watch = s.watch ∧ (s.onLinkDown f).tally = s.tally ∧
    (s.onLinkDown f).pair = s.pair ∧ (s.onLinkDown f).lookout = s.lookout ∧ (s.onLinkDown f).supply = s.supply ∧
    (s.onLinkDown f).power = s.power ∧ (s.onLinkDown f).foreman = s.foreman ∧ (s.onLinkDown f).tether = s.tether ∧
    (s.onLinkDown f).log = s.log ∧ (s.onLinkDown f).events = s.events ∧ (s.onLinkDown f).out = s.out ∧
    (s.onLinkDown f).free = s.free ∧ (s.onLinkDown f).pending = s.pending :=
  ⟨rfl, rfl, rfl, rfl, rfl, rfl, rfl, rfl, rfl, rfl, rfl, rfl, rfl, rfl, rfl, rfl, rfl, rfl, rfl, rfl, rfl, rfl, rfl, rfl, rfl, rfl, rfl, rfl, rfl⟩

@[simp] theorem onLinkAer_parts (s : State) (f : (List (Nat × Nat)) → (List (Nat × Nat))) :
    (s.onLinkAer f).setup = s.setup ∧ (s.onLinkAer f).ofs = s.ofs ∧ (s.onLinkAer f).time = s.time ∧
    (s.onLinkAer f).rtc = s.rtc ∧ (s.onLinkAer f).links = s.links ∧ (s.onLinkAer f).linkDown = s.linkDown ∧
    (s.onLinkAer f).linkAer = f s.linkAer ∧ (s.onLinkAer f).fns = s.fns ∧ (s.onLinkAer f).tx = s.tx ∧
    (s.onLinkAer f).rx = s.rx ∧ (s.onLinkAer f).cq = s.cq ∧ (s.onLinkAer f).host = s.host ∧
    (s.onLinkAer f).sched = s.sched ∧ (s.onLinkAer f).hamper = s.hamper ∧ (s.onLinkAer f).macs = s.macs ∧
    (s.onLinkAer f).cages = s.cages ∧ (s.onLinkAer f).watch = s.watch ∧ (s.onLinkAer f).tally = s.tally ∧
    (s.onLinkAer f).pair = s.pair ∧ (s.onLinkAer f).lookout = s.lookout ∧ (s.onLinkAer f).supply = s.supply ∧
    (s.onLinkAer f).power = s.power ∧ (s.onLinkAer f).foreman = s.foreman ∧ (s.onLinkAer f).tether = s.tether ∧
    (s.onLinkAer f).log = s.log ∧ (s.onLinkAer f).events = s.events ∧ (s.onLinkAer f).out = s.out ∧
    (s.onLinkAer f).free = s.free ∧ (s.onLinkAer f).pending = s.pending :=
  ⟨rfl, rfl, rfl, rfl, rfl, rfl, rfl, rfl, rfl, rfl, rfl, rfl, rfl, rfl, rfl, rfl, rfl, rfl, rfl, rfl, rfl, rfl, rfl, rfl, rfl, rfl, rfl, rfl, rfl⟩

@[simp] theorem onFns_parts (s : State) (f : (List (Nat × FnSt)) → (List (Nat × FnSt))) :
    (s.onFns f).setup = s.setup ∧ (s.onFns f).ofs = s.ofs ∧ (s.onFns f).time = s.time ∧ (s.onFns f).rtc = s.rtc ∧
    (s.onFns f).links = s.links ∧ (s.onFns f).linkDown = s.linkDown ∧ (s.onFns f).linkAer = s.linkAer ∧
    (s.onFns f).fns = f s.fns ∧ (s.onFns f).tx = s.tx ∧ (s.onFns f).rx = s.rx ∧ (s.onFns f).cq = s.cq ∧
    (s.onFns f).host = s.host ∧ (s.onFns f).sched = s.sched ∧ (s.onFns f).hamper = s.hamper ∧
    (s.onFns f).macs = s.macs ∧ (s.onFns f).cages = s.cages ∧ (s.onFns f).watch = s.watch ∧
    (s.onFns f).tally = s.tally ∧ (s.onFns f).pair = s.pair ∧ (s.onFns f).lookout = s.lookout ∧
    (s.onFns f).supply = s.supply ∧ (s.onFns f).power = s.power ∧ (s.onFns f).foreman = s.foreman ∧
    (s.onFns f).tether = s.tether ∧ (s.onFns f).log = s.log ∧ (s.onFns f).events = s.events ∧
    (s.onFns f).out = s.out ∧ (s.onFns f).free = s.free ∧ (s.onFns f).pending = s.pending :=
  ⟨rfl, rfl, rfl, rfl, rfl, rfl, rfl, rfl, rfl, rfl, rfl, rfl, rfl, rfl, rfl, rfl, rfl, rfl, rfl, rfl, rfl, rfl, rfl, rfl, rfl, rfl, rfl, rfl, rfl⟩

@[simp] theorem onTx_parts (s : State) (f : (List (Nat × TxRing)) → (List (Nat × TxRing))) :
    (s.onTx f).setup = s.setup ∧ (s.onTx f).ofs = s.ofs ∧ (s.onTx f).time = s.time ∧ (s.onTx f).rtc = s.rtc ∧
    (s.onTx f).links = s.links ∧ (s.onTx f).linkDown = s.linkDown ∧ (s.onTx f).linkAer = s.linkAer ∧
    (s.onTx f).fns = s.fns ∧ (s.onTx f).tx = f s.tx ∧ (s.onTx f).rx = s.rx ∧ (s.onTx f).cq = s.cq ∧
    (s.onTx f).host = s.host ∧ (s.onTx f).sched = s.sched ∧ (s.onTx f).hamper = s.hamper ∧
    (s.onTx f).macs = s.macs ∧ (s.onTx f).cages = s.cages ∧ (s.onTx f).watch = s.watch ∧
    (s.onTx f).tally = s.tally ∧ (s.onTx f).pair = s.pair ∧ (s.onTx f).lookout = s.lookout ∧
    (s.onTx f).supply = s.supply ∧ (s.onTx f).power = s.power ∧ (s.onTx f).foreman = s.foreman ∧
    (s.onTx f).tether = s.tether ∧ (s.onTx f).log = s.log ∧ (s.onTx f).events = s.events ∧ (s.onTx f).out = s.out ∧
    (s.onTx f).free = s.free ∧ (s.onTx f).pending = s.pending :=
  ⟨rfl, rfl, rfl, rfl, rfl, rfl, rfl, rfl, rfl, rfl, rfl, rfl, rfl, rfl, rfl, rfl, rfl, rfl, rfl, rfl, rfl, rfl, rfl, rfl, rfl, rfl, rfl, rfl, rfl⟩

@[simp] theorem onRx_parts (s : State) (f : (List (Nat × RxRing)) → (List (Nat × RxRing))) :
    (s.onRx f).setup = s.setup ∧ (s.onRx f).ofs = s.ofs ∧ (s.onRx f).time = s.time ∧ (s.onRx f).rtc = s.rtc ∧
    (s.onRx f).links = s.links ∧ (s.onRx f).linkDown = s.linkDown ∧ (s.onRx f).linkAer = s.linkAer ∧
    (s.onRx f).fns = s.fns ∧ (s.onRx f).tx = s.tx ∧ (s.onRx f).rx = f s.rx ∧ (s.onRx f).cq = s.cq ∧
    (s.onRx f).host = s.host ∧ (s.onRx f).sched = s.sched ∧ (s.onRx f).hamper = s.hamper ∧
    (s.onRx f).macs = s.macs ∧ (s.onRx f).cages = s.cages ∧ (s.onRx f).watch = s.watch ∧
    (s.onRx f).tally = s.tally ∧ (s.onRx f).pair = s.pair ∧ (s.onRx f).lookout = s.lookout ∧
    (s.onRx f).supply = s.supply ∧ (s.onRx f).power = s.power ∧ (s.onRx f).foreman = s.foreman ∧
    (s.onRx f).tether = s.tether ∧ (s.onRx f).log = s.log ∧ (s.onRx f).events = s.events ∧ (s.onRx f).out = s.out ∧
    (s.onRx f).free = s.free ∧ (s.onRx f).pending = s.pending :=
  ⟨rfl, rfl, rfl, rfl, rfl, rfl, rfl, rfl, rfl, rfl, rfl, rfl, rfl, rfl, rfl, rfl, rfl, rfl, rfl, rfl, rfl, rfl, rfl, rfl, rfl, rfl, rfl, rfl, rfl⟩

@[simp] theorem onCq_parts (s : State) (f : (List (Nat × CqRing)) → (List (Nat × CqRing))) :
    (s.onCq f).setup = s.setup ∧ (s.onCq f).ofs = s.ofs ∧ (s.onCq f).time = s.time ∧ (s.onCq f).rtc = s.rtc ∧
    (s.onCq f).links = s.links ∧ (s.onCq f).linkDown = s.linkDown ∧ (s.onCq f).linkAer = s.linkAer ∧
    (s.onCq f).fns = s.fns ∧ (s.onCq f).tx = s.tx ∧ (s.onCq f).rx = s.rx ∧ (s.onCq f).cq = f s.cq ∧
    (s.onCq f).host = s.host ∧ (s.onCq f).sched = s.sched ∧ (s.onCq f).hamper = s.hamper ∧
    (s.onCq f).macs = s.macs ∧ (s.onCq f).cages = s.cages ∧ (s.onCq f).watch = s.watch ∧
    (s.onCq f).tally = s.tally ∧ (s.onCq f).pair = s.pair ∧ (s.onCq f).lookout = s.lookout ∧
    (s.onCq f).supply = s.supply ∧ (s.onCq f).power = s.power ∧ (s.onCq f).foreman = s.foreman ∧
    (s.onCq f).tether = s.tether ∧ (s.onCq f).log = s.log ∧ (s.onCq f).events = s.events ∧ (s.onCq f).out = s.out ∧
    (s.onCq f).free = s.free ∧ (s.onCq f).pending = s.pending :=
  ⟨rfl, rfl, rfl, rfl, rfl, rfl, rfl, rfl, rfl, rfl, rfl, rfl, rfl, rfl, rfl, rfl, rfl, rfl, rfl, rfl, rfl, rfl, rfl, rfl, rfl, rfl, rfl, rfl, rfl⟩

@[simp] theorem onHost_parts (s : State) (f : HostSt → HostSt) :
    (s.onHost f).setup = s.setup ∧ (s.onHost f).ofs = s.ofs ∧ (s.onHost f).time = s.time ∧
    (s.onHost f).rtc = s.rtc ∧ (s.onHost f).links = s.links ∧ (s.onHost f).linkDown = s.linkDown ∧
    (s.onHost f).linkAer = s.linkAer ∧ (s.onHost f).fns = s.fns ∧ (s.onHost f).tx = s.tx ∧ (s.onHost f).rx = s.rx ∧
    (s.onHost f).cq = s.cq ∧ (s.onHost f).host = f s.host ∧ (s.onHost f).sched = s.sched ∧
    (s.onHost f).hamper = s.hamper ∧ (s.onHost f).macs = s.macs ∧ (s.onHost f).cages = s.cages ∧
    (s.onHost f).watch = s.watch ∧ (s.onHost f).tally = s.tally ∧ (s.onHost f).pair = s.pair ∧
    (s.onHost f).lookout = s.lookout ∧ (s.onHost f).supply = s.supply ∧ (s.onHost f).power = s.power ∧
    (s.onHost f).foreman = s.foreman ∧ (s.onHost f).tether = s.tether ∧ (s.onHost f).log = s.log ∧
    (s.onHost f).events = s.events ∧ (s.onHost f).out = s.out ∧ (s.onHost f).free = s.free ∧
    (s.onHost f).pending = s.pending :=
  ⟨rfl, rfl, rfl, rfl, rfl, rfl, rfl, rfl, rfl, rfl, rfl, rfl, rfl, rfl, rfl, rfl, rfl, rfl, rfl, rfl, rfl, rfl, rfl, rfl, rfl, rfl, rfl, rfl, rfl⟩

@[simp] theorem onSched_parts (s : State) (f : (List (Nat × SchInst)) → (List (Nat × SchInst))) :
    (s.onSched f).setup = s.setup ∧ (s.onSched f).ofs = s.ofs ∧ (s.onSched f).time = s.time ∧
    (s.onSched f).rtc = s.rtc ∧ (s.onSched f).links = s.links ∧ (s.onSched f).linkDown = s.linkDown ∧
    (s.onSched f).linkAer = s.linkAer ∧ (s.onSched f).fns = s.fns ∧ (s.onSched f).tx = s.tx ∧
    (s.onSched f).rx = s.rx ∧ (s.onSched f).cq = s.cq ∧ (s.onSched f).host = s.host ∧
    (s.onSched f).sched = f s.sched ∧ (s.onSched f).hamper = s.hamper ∧ (s.onSched f).macs = s.macs ∧
    (s.onSched f).cages = s.cages ∧ (s.onSched f).watch = s.watch ∧ (s.onSched f).tally = s.tally ∧
    (s.onSched f).pair = s.pair ∧ (s.onSched f).lookout = s.lookout ∧ (s.onSched f).supply = s.supply ∧
    (s.onSched f).power = s.power ∧ (s.onSched f).foreman = s.foreman ∧ (s.onSched f).tether = s.tether ∧
    (s.onSched f).log = s.log ∧ (s.onSched f).events = s.events ∧ (s.onSched f).out = s.out ∧
    (s.onSched f).free = s.free ∧ (s.onSched f).pending = s.pending :=
  ⟨rfl, rfl, rfl, rfl, rfl, rfl, rfl, rfl, rfl, rfl, rfl, rfl, rfl, rfl, rfl, rfl, rfl, rfl, rfl, rfl, rfl, rfl, rfl, rfl, rfl, rfl, rfl, rfl, rfl⟩

@[simp] theorem onHamper_parts (s : State) (f : HamperSt → HamperSt) :
    (s.onHamper f).setup = s.setup ∧ (s.onHamper f).ofs = s.ofs ∧ (s.onHamper f).time = s.time ∧
    (s.onHamper f).rtc = s.rtc ∧ (s.onHamper f).links = s.links ∧ (s.onHamper f).linkDown = s.linkDown ∧
    (s.onHamper f).linkAer = s.linkAer ∧ (s.onHamper f).fns = s.fns ∧ (s.onHamper f).tx = s.tx ∧
    (s.onHamper f).rx = s.rx ∧ (s.onHamper f).cq = s.cq ∧ (s.onHamper f).host = s.host ∧
    (s.onHamper f).sched = s.sched ∧ (s.onHamper f).hamper = f s.hamper ∧ (s.onHamper f).macs = s.macs ∧
    (s.onHamper f).cages = s.cages ∧ (s.onHamper f).watch = s.watch ∧ (s.onHamper f).tally = s.tally ∧
    (s.onHamper f).pair = s.pair ∧ (s.onHamper f).lookout = s.lookout ∧ (s.onHamper f).supply = s.supply ∧
    (s.onHamper f).power = s.power ∧ (s.onHamper f).foreman = s.foreman ∧ (s.onHamper f).tether = s.tether ∧
    (s.onHamper f).log = s.log ∧ (s.onHamper f).events = s.events ∧ (s.onHamper f).out = s.out ∧
    (s.onHamper f).free = s.free ∧ (s.onHamper f).pending = s.pending :=
  ⟨rfl, rfl, rfl, rfl, rfl, rfl, rfl, rfl, rfl, rfl, rfl, rfl, rfl, rfl, rfl, rfl, rfl, rfl, rfl, rfl, rfl, rfl, rfl, rfl, rfl, rfl, rfl, rfl, rfl⟩

@[simp] theorem onMacs_parts (s : State) (f : (List (Nat × MacInst)) → (List (Nat × MacInst))) :
    (s.onMacs f).setup = s.setup ∧ (s.onMacs f).ofs = s.ofs ∧ (s.onMacs f).time = s.time ∧
    (s.onMacs f).rtc = s.rtc ∧ (s.onMacs f).links = s.links ∧ (s.onMacs f).linkDown = s.linkDown ∧
    (s.onMacs f).linkAer = s.linkAer ∧ (s.onMacs f).fns = s.fns ∧ (s.onMacs f).tx = s.tx ∧ (s.onMacs f).rx = s.rx ∧
    (s.onMacs f).cq = s.cq ∧ (s.onMacs f).host = s.host ∧ (s.onMacs f).sched = s.sched ∧
    (s.onMacs f).hamper = s.hamper ∧ (s.onMacs f).macs = f s.macs ∧ (s.onMacs f).cages = s.cages ∧
    (s.onMacs f).watch = s.watch ∧ (s.onMacs f).tally = s.tally ∧ (s.onMacs f).pair = s.pair ∧
    (s.onMacs f).lookout = s.lookout ∧ (s.onMacs f).supply = s.supply ∧ (s.onMacs f).power = s.power ∧
    (s.onMacs f).foreman = s.foreman ∧ (s.onMacs f).tether = s.tether ∧ (s.onMacs f).log = s.log ∧
    (s.onMacs f).events = s.events ∧ (s.onMacs f).out = s.out ∧ (s.onMacs f).free = s.free ∧
    (s.onMacs f).pending = s.pending :=
  ⟨rfl, rfl, rfl, rfl, rfl, rfl, rfl, rfl, rfl, rfl, rfl, rfl, rfl, rfl, rfl, rfl, rfl, rfl, rfl, rfl, rfl, rfl, rfl, rfl, rfl, rfl, rfl, rfl, rfl⟩

@[simp] theorem onCages_parts (s : State) (f : (List (Nat × CageSt)) → (List (Nat × CageSt))) :
    (s.onCages f).setup = s.setup ∧ (s.onCages f).ofs = s.ofs ∧ (s.onCages f).time = s.time ∧
    (s.onCages f).rtc = s.rtc ∧ (s.onCages f).links = s.links ∧ (s.onCages f).linkDown = s.linkDown ∧
    (s.onCages f).linkAer = s.linkAer ∧ (s.onCages f).fns = s.fns ∧ (s.onCages f).tx = s.tx ∧
    (s.onCages f).rx = s.rx ∧ (s.onCages f).cq = s.cq ∧ (s.onCages f).host = s.host ∧
    (s.onCages f).sched = s.sched ∧ (s.onCages f).hamper = s.hamper ∧ (s.onCages f).macs = s.macs ∧
    (s.onCages f).cages = f s.cages ∧ (s.onCages f).watch = s.watch ∧ (s.onCages f).tally = s.tally ∧
    (s.onCages f).pair = s.pair ∧ (s.onCages f).lookout = s.lookout ∧ (s.onCages f).supply = s.supply ∧
    (s.onCages f).power = s.power ∧ (s.onCages f).foreman = s.foreman ∧ (s.onCages f).tether = s.tether ∧
    (s.onCages f).log = s.log ∧ (s.onCages f).events = s.events ∧ (s.onCages f).out = s.out ∧
    (s.onCages f).free = s.free ∧ (s.onCages f).pending = s.pending :=
  ⟨rfl, rfl, rfl, rfl, rfl, rfl, rfl, rfl, rfl, rfl, rfl, rfl, rfl, rfl, rfl, rfl, rfl, rfl, rfl, rfl, rfl, rfl, rfl, rfl, rfl, rfl, rfl, rfl, rfl⟩

@[simp] theorem onWatch_parts (s : State) (f : (List (Nat × WatchSt)) → (List (Nat × WatchSt))) :
    (s.onWatch f).setup = s.setup ∧ (s.onWatch f).ofs = s.ofs ∧ (s.onWatch f).time = s.time ∧
    (s.onWatch f).rtc = s.rtc ∧ (s.onWatch f).links = s.links ∧ (s.onWatch f).linkDown = s.linkDown ∧
    (s.onWatch f).linkAer = s.linkAer ∧ (s.onWatch f).fns = s.fns ∧ (s.onWatch f).tx = s.tx ∧
    (s.onWatch f).rx = s.rx ∧ (s.onWatch f).cq = s.cq ∧ (s.onWatch f).host = s.host ∧
    (s.onWatch f).sched = s.sched ∧ (s.onWatch f).hamper = s.hamper ∧ (s.onWatch f).macs = s.macs ∧
    (s.onWatch f).cages = s.cages ∧ (s.onWatch f).watch = f s.watch ∧ (s.onWatch f).tally = s.tally ∧
    (s.onWatch f).pair = s.pair ∧ (s.onWatch f).lookout = s.lookout ∧ (s.onWatch f).supply = s.supply ∧
    (s.onWatch f).power = s.power ∧ (s.onWatch f).foreman = s.foreman ∧ (s.onWatch f).tether = s.tether ∧
    (s.onWatch f).log = s.log ∧ (s.onWatch f).events = s.events ∧ (s.onWatch f).out = s.out ∧
    (s.onWatch f).free = s.free ∧ (s.onWatch f).pending = s.pending :=
  ⟨rfl, rfl, rfl, rfl, rfl, rfl, rfl, rfl, rfl, rfl, rfl, rfl, rfl, rfl, rfl, rfl, rfl, rfl, rfl, rfl, rfl, rfl, rfl, rfl, rfl, rfl, rfl, rfl, rfl⟩

@[simp] theorem onTally_parts (s : State) (f : TallySt → TallySt) :
    (s.onTally f).setup = s.setup ∧ (s.onTally f).ofs = s.ofs ∧ (s.onTally f).time = s.time ∧
    (s.onTally f).rtc = s.rtc ∧ (s.onTally f).links = s.links ∧ (s.onTally f).linkDown = s.linkDown ∧
    (s.onTally f).linkAer = s.linkAer ∧ (s.onTally f).fns = s.fns ∧ (s.onTally f).tx = s.tx ∧
    (s.onTally f).rx = s.rx ∧ (s.onTally f).cq = s.cq ∧ (s.onTally f).host = s.host ∧
    (s.onTally f).sched = s.sched ∧ (s.onTally f).hamper = s.hamper ∧ (s.onTally f).macs = s.macs ∧
    (s.onTally f).cages = s.cages ∧ (s.onTally f).watch = s.watch ∧ (s.onTally f).tally = f s.tally ∧
    (s.onTally f).pair = s.pair ∧ (s.onTally f).lookout = s.lookout ∧ (s.onTally f).supply = s.supply ∧
    (s.onTally f).power = s.power ∧ (s.onTally f).foreman = s.foreman ∧ (s.onTally f).tether = s.tether ∧
    (s.onTally f).log = s.log ∧ (s.onTally f).events = s.events ∧ (s.onTally f).out = s.out ∧
    (s.onTally f).free = s.free ∧ (s.onTally f).pending = s.pending :=
  ⟨rfl, rfl, rfl, rfl, rfl, rfl, rfl, rfl, rfl, rfl, rfl, rfl, rfl, rfl, rfl, rfl, rfl, rfl, rfl, rfl, rfl, rfl, rfl, rfl, rfl, rfl, rfl, rfl, rfl⟩

@[simp] theorem onPair_parts (s : State) (f : PairSt → PairSt) :
    (s.onPair f).setup = s.setup ∧ (s.onPair f).ofs = s.ofs ∧ (s.onPair f).time = s.time ∧
    (s.onPair f).rtc = s.rtc ∧ (s.onPair f).links = s.links ∧ (s.onPair f).linkDown = s.linkDown ∧
    (s.onPair f).linkAer = s.linkAer ∧ (s.onPair f).fns = s.fns ∧ (s.onPair f).tx = s.tx ∧ (s.onPair f).rx = s.rx ∧
    (s.onPair f).cq = s.cq ∧ (s.onPair f).host = s.host ∧ (s.onPair f).sched = s.sched ∧
    (s.onPair f).hamper = s.hamper ∧ (s.onPair f).macs = s.macs ∧ (s.onPair f).cages = s.cages ∧
    (s.onPair f).watch = s.watch ∧ (s.onPair f).tally = s.tally ∧ (s.onPair f).pair = f s.pair ∧
    (s.onPair f).lookout = s.lookout ∧ (s.onPair f).supply = s.supply ∧ (s.onPair f).power = s.power ∧
    (s.onPair f).foreman = s.foreman ∧ (s.onPair f).tether = s.tether ∧ (s.onPair f).log = s.log ∧
    (s.onPair f).events = s.events ∧ (s.onPair f).out = s.out ∧ (s.onPair f).free = s.free ∧
    (s.onPair f).pending = s.pending :=
  ⟨rfl, rfl, rfl, rfl, rfl, rfl, rfl, rfl, rfl, rfl, rfl, rfl, rfl, rfl, rfl, rfl, rfl, rfl, rfl, rfl, rfl, rfl, rfl, rfl, rfl, rfl, rfl, rfl, rfl⟩

@[simp] theorem onLookout_parts (s : State) (f : LookoutSt → LookoutSt) :
    (s.onLookout f).setup = s.setup ∧ (s.onLookout f).ofs = s.ofs ∧ (s.onLookout f).time = s.time ∧
    (s.onLookout f).rtc = s.rtc ∧ (s.onLookout f).links = s.links ∧ (s.onLookout f).linkDown = s.linkDown ∧
    (s.onLookout f).linkAer = s.linkAer ∧ (s.onLookout f).fns = s.fns ∧ (s.onLookout f).tx = s.tx ∧
    (s.onLookout f).rx = s.rx ∧ (s.onLookout f).cq = s.cq ∧ (s.onLookout f).host = s.host ∧
    (s.onLookout f).sched = s.sched ∧ (s.onLookout f).hamper = s.hamper ∧ (s.onLookout f).macs = s.macs ∧
    (s.onLookout f).cages = s.cages ∧ (s.onLookout f).watch = s.watch ∧ (s.onLookout f).tally = s.tally ∧
    (s.onLookout f).pair = s.pair ∧ (s.onLookout f).lookout = f s.lookout ∧ (s.onLookout f).supply = s.supply ∧
    (s.onLookout f).power = s.power ∧ (s.onLookout f).foreman = s.foreman ∧ (s.onLookout f).tether = s.tether ∧
    (s.onLookout f).log = s.log ∧ (s.onLookout f).events = s.events ∧ (s.onLookout f).out = s.out ∧
    (s.onLookout f).free = s.free ∧ (s.onLookout f).pending = s.pending :=
  ⟨rfl, rfl, rfl, rfl, rfl, rfl, rfl, rfl, rfl, rfl, rfl, rfl, rfl, rfl, rfl, rfl, rfl, rfl, rfl, rfl, rfl, rfl, rfl, rfl, rfl, rfl, rfl, rfl, rfl⟩

@[simp] theorem onSupply_parts (s : State) (f : SupplySt → SupplySt) :
    (s.onSupply f).setup = s.setup ∧ (s.onSupply f).ofs = s.ofs ∧ (s.onSupply f).time = s.time ∧
    (s.onSupply f).rtc = s.rtc ∧ (s.onSupply f).links = s.links ∧ (s.onSupply f).linkDown = s.linkDown ∧
    (s.onSupply f).linkAer = s.linkAer ∧ (s.onSupply f).fns = s.fns ∧ (s.onSupply f).tx = s.tx ∧
    (s.onSupply f).rx = s.rx ∧ (s.onSupply f).cq = s.cq ∧ (s.onSupply f).host = s.host ∧
    (s.onSupply f).sched = s.sched ∧ (s.onSupply f).hamper = s.hamper ∧ (s.onSupply f).macs = s.macs ∧
    (s.onSupply f).cages = s.cages ∧ (s.onSupply f).watch = s.watch ∧ (s.onSupply f).tally = s.tally ∧
    (s.onSupply f).pair = s.pair ∧ (s.onSupply f).lookout = s.lookout ∧ (s.onSupply f).supply = f s.supply ∧
    (s.onSupply f).power = s.power ∧ (s.onSupply f).foreman = s.foreman ∧ (s.onSupply f).tether = s.tether ∧
    (s.onSupply f).log = s.log ∧ (s.onSupply f).events = s.events ∧ (s.onSupply f).out = s.out ∧
    (s.onSupply f).free = s.free ∧ (s.onSupply f).pending = s.pending :=
  ⟨rfl, rfl, rfl, rfl, rfl, rfl, rfl, rfl, rfl, rfl, rfl, rfl, rfl, rfl, rfl, rfl, rfl, rfl, rfl, rfl, rfl, rfl, rfl, rfl, rfl, rfl, rfl, rfl, rfl⟩

@[simp] theorem onPower_parts (s : State) (f : PowerSt → PowerSt) :
    (s.onPower f).setup = s.setup ∧ (s.onPower f).ofs = s.ofs ∧ (s.onPower f).time = s.time ∧
    (s.onPower f).rtc = s.rtc ∧ (s.onPower f).links = s.links ∧ (s.onPower f).linkDown = s.linkDown ∧
    (s.onPower f).linkAer = s.linkAer ∧ (s.onPower f).fns = s.fns ∧ (s.onPower f).tx = s.tx ∧
    (s.onPower f).rx = s.rx ∧ (s.onPower f).cq = s.cq ∧ (s.onPower f).host = s.host ∧
    (s.onPower f).sched = s.sched ∧ (s.onPower f).hamper = s.hamper ∧ (s.onPower f).macs = s.macs ∧
    (s.onPower f).cages = s.cages ∧ (s.onPower f).watch = s.watch ∧ (s.onPower f).tally = s.tally ∧
    (s.onPower f).pair = s.pair ∧ (s.onPower f).lookout = s.lookout ∧ (s.onPower f).supply = s.supply ∧
    (s.onPower f).power = f s.power ∧ (s.onPower f).foreman = s.foreman ∧ (s.onPower f).tether = s.tether ∧
    (s.onPower f).log = s.log ∧ (s.onPower f).events = s.events ∧ (s.onPower f).out = s.out ∧
    (s.onPower f).free = s.free ∧ (s.onPower f).pending = s.pending :=
  ⟨rfl, rfl, rfl, rfl, rfl, rfl, rfl, rfl, rfl, rfl, rfl, rfl, rfl, rfl, rfl, rfl, rfl, rfl, rfl, rfl, rfl, rfl, rfl, rfl, rfl, rfl, rfl, rfl, rfl⟩

@[simp] theorem onForeman_parts (s : State) (f : ForemanSt → ForemanSt) :
    (s.onForeman f).setup = s.setup ∧ (s.onForeman f).ofs = s.ofs ∧ (s.onForeman f).time = s.time ∧
    (s.onForeman f).rtc = s.rtc ∧ (s.onForeman f).links = s.links ∧ (s.onForeman f).linkDown = s.linkDown ∧
    (s.onForeman f).linkAer = s.linkAer ∧ (s.onForeman f).fns = s.fns ∧ (s.onForeman f).tx = s.tx ∧
    (s.onForeman f).rx = s.rx ∧ (s.onForeman f).cq = s.cq ∧ (s.onForeman f).host = s.host ∧
    (s.onForeman f).sched = s.sched ∧ (s.onForeman f).hamper = s.hamper ∧ (s.onForeman f).macs = s.macs ∧
    (s.onForeman f).cages = s.cages ∧ (s.onForeman f).watch = s.watch ∧ (s.onForeman f).tally = s.tally ∧
    (s.onForeman f).pair = s.pair ∧ (s.onForeman f).lookout = s.lookout ∧ (s.onForeman f).supply = s.supply ∧
    (s.onForeman f).power = s.power ∧ (s.onForeman f).foreman = f s.foreman ∧ (s.onForeman f).tether = s.tether ∧
    (s.onForeman f).log = s.log ∧ (s.onForeman f).events = s.events ∧ (s.onForeman f).out = s.out ∧
    (s.onForeman f).free = s.free ∧ (s.onForeman f).pending = s.pending :=
  ⟨rfl, rfl, rfl, rfl, rfl, rfl, rfl, rfl, rfl, rfl, rfl, rfl, rfl, rfl, rfl, rfl, rfl, rfl, rfl, rfl, rfl, rfl, rfl, rfl, rfl, rfl, rfl, rfl, rfl⟩

@[simp] theorem onTether_parts (s : State) (f : TetherSt → TetherSt) :
    (s.onTether f).setup = s.setup ∧ (s.onTether f).ofs = s.ofs ∧ (s.onTether f).time = s.time ∧
    (s.onTether f).rtc = s.rtc ∧ (s.onTether f).links = s.links ∧ (s.onTether f).linkDown = s.linkDown ∧
    (s.onTether f).linkAer = s.linkAer ∧ (s.onTether f).fns = s.fns ∧ (s.onTether f).tx = s.tx ∧
    (s.onTether f).rx = s.rx ∧ (s.onTether f).cq = s.cq ∧ (s.onTether f).host = s.host ∧
    (s.onTether f).sched = s.sched ∧ (s.onTether f).hamper = s.hamper ∧ (s.onTether f).macs = s.macs ∧
    (s.onTether f).cages = s.cages ∧ (s.onTether f).watch = s.watch ∧ (s.onTether f).tally = s.tally ∧
    (s.onTether f).pair = s.pair ∧ (s.onTether f).lookout = s.lookout ∧ (s.onTether f).supply = s.supply ∧
    (s.onTether f).power = s.power ∧ (s.onTether f).foreman = s.foreman ∧ (s.onTether f).tether = f s.tether ∧
    (s.onTether f).log = s.log ∧ (s.onTether f).events = s.events ∧ (s.onTether f).out = s.out ∧
    (s.onTether f).free = s.free ∧ (s.onTether f).pending = s.pending :=
  ⟨rfl, rfl, rfl, rfl, rfl, rfl, rfl, rfl, rfl, rfl, rfl, rfl, rfl, rfl, rfl, rfl, rfl, rfl, rfl, rfl, rfl, rfl, rfl, rfl, rfl, rfl, rfl, rfl, rfl⟩

@[simp] theorem onLog_parts (s : State) (f : LogSt → LogSt) :
    (s.onLog f).setup = s.setup ∧ (s.onLog f).ofs = s.ofs ∧ (s.onLog f).time = s.time ∧ (s.onLog f).rtc = s.rtc ∧
    (s.onLog f).links = s.links ∧ (s.onLog f).linkDown = s.linkDown ∧ (s.onLog f).linkAer = s.linkAer ∧
    (s.onLog f).fns = s.fns ∧ (s.onLog f).tx = s.tx ∧ (s.onLog f).rx = s.rx ∧ (s.onLog f).cq = s.cq ∧
    (s.onLog f).host = s.host ∧ (s.onLog f).sched = s.sched ∧ (s.onLog f).hamper = s.hamper ∧
    (s.onLog f).macs = s.macs ∧ (s.onLog f).cages = s.cages ∧ (s.onLog f).watch = s.watch ∧
    (s.onLog f).tally = s.tally ∧ (s.onLog f).pair = s.pair ∧ (s.onLog f).lookout = s.lookout ∧
    (s.onLog f).supply = s.supply ∧ (s.onLog f).power = s.power ∧ (s.onLog f).foreman = s.foreman ∧
    (s.onLog f).tether = s.tether ∧ (s.onLog f).log = f s.log ∧ (s.onLog f).events = s.events ∧
    (s.onLog f).out = s.out ∧ (s.onLog f).free = s.free ∧ (s.onLog f).pending = s.pending :=
  ⟨rfl, rfl, rfl, rfl, rfl, rfl, rfl, rfl, rfl, rfl, rfl, rfl, rfl, rfl, rfl, rfl, rfl, rfl, rfl, rfl, rfl, rfl, rfl, rfl, rfl, rfl, rfl, rfl, rfl⟩

@[simp] theorem onEvents_parts (s : State) (f : EventSt → EventSt) :
    (s.onEvents f).setup = s.setup ∧ (s.onEvents f).ofs = s.ofs ∧ (s.onEvents f).time = s.time ∧
    (s.onEvents f).rtc = s.rtc ∧ (s.onEvents f).links = s.links ∧ (s.onEvents f).linkDown = s.linkDown ∧
    (s.onEvents f).linkAer = s.linkAer ∧ (s.onEvents f).fns = s.fns ∧ (s.onEvents f).tx = s.tx ∧
    (s.onEvents f).rx = s.rx ∧ (s.onEvents f).cq = s.cq ∧ (s.onEvents f).host = s.host ∧
    (s.onEvents f).sched = s.sched ∧ (s.onEvents f).hamper = s.hamper ∧ (s.onEvents f).macs = s.macs ∧
    (s.onEvents f).cages = s.cages ∧ (s.onEvents f).watch = s.watch ∧ (s.onEvents f).tally = s.tally ∧
    (s.onEvents f).pair = s.pair ∧ (s.onEvents f).lookout = s.lookout ∧ (s.onEvents f).supply = s.supply ∧
    (s.onEvents f).power = s.power ∧ (s.onEvents f).foreman = s.foreman ∧ (s.onEvents f).tether = s.tether ∧
    (s.onEvents f).log = s.log ∧ (s.onEvents f).events = f s.events ∧ (s.onEvents f).out = s.out ∧
    (s.onEvents f).free = s.free ∧ (s.onEvents f).pending = s.pending :=
  ⟨rfl, rfl, rfl, rfl, rfl, rfl, rfl, rfl, rfl, rfl, rfl, rfl, rfl, rfl, rfl, rfl, rfl, rfl, rfl, rfl, rfl, rfl, rfl, rfl, rfl, rfl, rfl, rfl, rfl⟩

@[simp] theorem onOut_parts (s : State) (f : (List Out) → (List Out)) :
    (s.onOut f).setup = s.setup ∧ (s.onOut f).ofs = s.ofs ∧ (s.onOut f).time = s.time ∧ (s.onOut f).rtc = s.rtc ∧
    (s.onOut f).links = s.links ∧ (s.onOut f).linkDown = s.linkDown ∧ (s.onOut f).linkAer = s.linkAer ∧
    (s.onOut f).fns = s.fns ∧ (s.onOut f).tx = s.tx ∧ (s.onOut f).rx = s.rx ∧ (s.onOut f).cq = s.cq ∧
    (s.onOut f).host = s.host ∧ (s.onOut f).sched = s.sched ∧ (s.onOut f).hamper = s.hamper ∧
    (s.onOut f).macs = s.macs ∧ (s.onOut f).cages = s.cages ∧ (s.onOut f).watch = s.watch ∧
    (s.onOut f).tally = s.tally ∧ (s.onOut f).pair = s.pair ∧ (s.onOut f).lookout = s.lookout ∧
    (s.onOut f).supply = s.supply ∧ (s.onOut f).power = s.power ∧ (s.onOut f).foreman = s.foreman ∧
    (s.onOut f).tether = s.tether ∧ (s.onOut f).log = s.log ∧ (s.onOut f).events = s.events ∧
    (s.onOut f).out = f s.out ∧ (s.onOut f).free = s.free ∧ (s.onOut f).pending = s.pending :=
  ⟨rfl, rfl, rfl, rfl, rfl, rfl, rfl, rfl, rfl, rfl, rfl, rfl, rfl, rfl, rfl, rfl, rfl, rfl, rfl, rfl, rfl, rfl, rfl, rfl, rfl, rfl, rfl, rfl, rfl⟩

@[simp] theorem onFree_parts (s : State) (f : Nat → Nat) :
    (s.onFree f).setup = s.setup ∧ (s.onFree f).ofs = s.ofs ∧ (s.onFree f).time = s.time ∧
    (s.onFree f).rtc = s.rtc ∧ (s.onFree f).links = s.links ∧ (s.onFree f).linkDown = s.linkDown ∧
    (s.onFree f).linkAer = s.linkAer ∧ (s.onFree f).fns = s.fns ∧ (s.onFree f).tx = s.tx ∧ (s.onFree f).rx = s.rx ∧
    (s.onFree f).cq = s.cq ∧ (s.onFree f).host = s.host ∧ (s.onFree f).sched = s.sched ∧
    (s.onFree f).hamper = s.hamper ∧ (s.onFree f).macs = s.macs ∧ (s.onFree f).cages = s.cages ∧
    (s.onFree f).watch = s.watch ∧ (s.onFree f).tally = s.tally ∧ (s.onFree f).pair = s.pair ∧
    (s.onFree f).lookout = s.lookout ∧ (s.onFree f).supply = s.supply ∧ (s.onFree f).power = s.power ∧
    (s.onFree f).foreman = s.foreman ∧ (s.onFree f).tether = s.tether ∧ (s.onFree f).log = s.log ∧
    (s.onFree f).events = s.events ∧ (s.onFree f).out = s.out ∧ (s.onFree f).free = f s.free ∧
    (s.onFree f).pending = s.pending :=
  ⟨rfl, rfl, rfl, rfl, rfl, rfl, rfl, rfl, rfl, rfl, rfl, rfl, rfl, rfl, rfl, rfl, rfl, rfl, rfl, rfl, rfl, rfl, rfl, rfl, rfl, rfl, rfl, rfl, rfl⟩

@[simp] theorem onPending_parts (s : State) (f : (List Instr) → (List Instr)) :
    (s.onPending f).setup = s.setup ∧ (s.onPending f).ofs = s.ofs ∧ (s.onPending f).time = s.time ∧
    (s.onPending f).rtc = s.rtc ∧ (s.onPending f).links = s.links ∧ (s.onPending f).linkDown = s.linkDown ∧
    (s.onPending f).linkAer = s.linkAer ∧ (s.onPending f).fns = s.fns ∧ (s.onPending f).tx = s.tx ∧
    (s.onPending f).rx = s.rx ∧ (s.onPending f).cq = s.cq ∧ (s.onPending f).host = s.host ∧
    (s.onPending f).sched = s.sched ∧ (s.onPending f).hamper = s.hamper ∧ (s.onPending f).macs = s.macs ∧
    (s.onPending f).cages = s.cages ∧ (s.onPending f).watch = s.watch ∧ (s.onPending f).tally = s.tally ∧
    (s.onPending f).pair = s.pair ∧ (s.onPending f).lookout = s.lookout ∧ (s.onPending f).supply = s.supply ∧
    (s.onPending f).power = s.power ∧ (s.onPending f).foreman = s.foreman ∧ (s.onPending f).tether = s.tether ∧
    (s.onPending f).log = s.log ∧ (s.onPending f).events = s.events ∧ (s.onPending f).out = s.out ∧
    (s.onPending f).free = s.free ∧ (s.onPending f).pending = f s.pending :=
  ⟨rfl, rfl, rfl, rfl, rfl, rfl, rfl, rfl, rfl, rfl, rfl, rfl, rfl, rfl, rfl, rfl, rfl, rfl, rfl, rfl, rfl, rfl, rfl, rfl, rfl, rfl, rfl, rfl, rfl⟩

end Sys2Proof.Laws
end

