-- ==== Sys2Proof/WellFormed.lean ====
section
/-! DEFINITION. Well-formed commands: the checks on operands whose Lean type is wider than what the spec lets through. A command
that fails its check names an input that cannot reach the sled; the machine gives it a meaning all the same. -/
namespace Sys2Proof

/-- An access of 4 or 8 bytes to a register window, aligned to its size (R381, 18_register_map). -/
def sizeWf (offset size : Nat) : Bool := (size = 4 || size = 8) && decide (offset % size = 0) && decide (offset < 0x100000)

/-- A frame at the reference plane: the fraction of its timestamp point lies within one J-cycle of 1.25 ns (R49,
02_time_and_windows). -/
def frameWf (f : RxFrame) : Bool := decide (f.offset < 81920)

/-- A Tether frame (Table 15-1): no longer than one whose LEN is 63 with every stuff bit there may be, and its stamp is a TIME64. -/
def tetherWf (f : TetherFrame) : Bool := decide (f.wire.length ≤ 700) && decide (f.stamp < 2 ^ 64)

/-- A well-formed command. -/
def WellFormed (i : Instr) : Bool :=
  match i with
  | .registerWrite _ offset size _ => sizeWf offset size
  | .readCompletion _ _ data => decide (data.length ≤ 4096)
  | .hlLinkUp _ speed width => decide (speed < 16) && decide (width < 16)
  | .enrolReadDone _ _ data => decide (data.length ≤ 64)
  | .frameReceived _ frame => frameWf frame
  | .macControlFrame _ frame => frameWf frame
  | .watchFrame _ frame => frameWf frame
  | .cageMirrorCopy _ data => decide (data.length = 256)
  | .energyWindow islands => decide (islands.length = 20)
  | .supplyWarn mv crossing => decide (mv < 2 ^ 16) && decide (crossing < 2 ^ 64)
  | .bulkReset mv => decide (mv < 2 ^ 16)
  | .railFault _ mv => decide (mv < 2 ^ 16)
  | .cellProbe mv => decide (mv < 2 ^ 16)
  | .dvfsCommand mhz mv _ => decide (mhz < 2 ^ 16) && decide (mv < 2 ^ 16)
  | .foremanLoop busy => busy.all (fun e => decide (e.1 < 20) && decide (e.2.1 ≤ e.2.2))
  | .tetherTxStart stamp => decide (stamp < 2 ^ 64)
  | .wakeVeto frame => tetherWf frame
  | .wakeAll frame => tetherWf frame
  | .abort frame => tetherWf frame
  | .sync frame => tetherWf frame
  | .follow frame => tetherWf frame
  | .propose frame _ => tetherWf frame
  | .agree frame => tetherWf frame
  | .refuse frame => tetherWf frame
  | .tetherCommit frame => tetherWf frame
  | .failover frame => tetherWf frame
  | .claim frame => tetherWf frame
  | .object frame => tetherWf frame
  | .heartbeat frame => tetherWf frame
  | .operator frame => tetherWf frame
  | .bulkRailRecoveryCrossing mv => decide (mv < 2 ^ 16)
  | .commit .. | .discard .. | .commitApply | .setupLock .. | .timeNowRead .. | .timeCtrlRate .. | .timeCtrlStep ..
  | .timeCtrlSet .. | .timeHoldExpiry | .rtcAlarm | .rtcAlarmWrite .. | .rtcCountWrite .. | .rtcCountRead | .ptmRequest ..
  | .cvuAssign | .checkDone .. | .completionTimeout .. | .unexpectedCompletion .. | .unsupportedRequest .. | .aerError ..
  | .hlLinkDown .. | .perstAssert .. | .flr .. | .vfDisable .. | .d3hotEntry .. | .busMasterClear .. | .configWrite ..
  | .l1Exit .. | .enrol .. | .leave .. | .query .. | .txrCreate .. | .rxrCreate .. | .cqCreate .. | .evrCreate ..
  | .ringDestroy .. | .ringDestroyDone .. | .fnCmdEvict .. | .fnCmdRelease .. | .evictionComplete .. | .doorbellTx ..
  | .doorbellRx .. | .doorbellCq .. | .doorbellEvr .. | .doorbellRecall .. | .doorbellArm .. | .descriptorFetch .. | .txBufferRead ..
  | .cqModTime .. | .rxStoreWrite .. | .rxEarlyStart .. | .rxWaitExpiry .. | .grant .. | .frameDeparture .. | .gateEvent ..
  | .gclApplied .. | .txEarlyWake .. | .lpiEntry .. | .flowWrite .. | .flowDelete .. | .flowRead .. | .linkTrainingStart ..
  | .linkUp .. | .linkTrainTimeout .. | .linkTrainRetry .. | .laneLoss .. | .remoteFault .. | .pauseRegister ..
  | .pauseEnd .. | .pauseWdExpiry .. | .fcWdRearm .. | .controlFrameSend .. | .pfcRefresh .. | .pauseRefresh ..
  | .lldpSend .. | .watchLinkUp .. | .watchLinkFail .. | .cageInserted .. | .cageRemoved .. | .cageReset ..
  | .cageResetDone .. | .cageReenable .. | .cageFault .. | .modulePoll .. | .tallyRead .. | .snapshotTrigger ..
  | .tallySnapshot .. | .mirrorBoundary | .relinquish .. | .lockstepHandoverEnd | .divergence .. | .verdictResult ..
  | .drainEnd .. | .warmHandoverEnd .. | .heartbeatMiss .. | .flitReceived .. | .roleSwap | .pairCmdSwap
  | .pairCmdRequalify .. | .warmStandbyReady | .bistCycleDone .. | .requalifyDone .. | .bulkCopyDone | .resyncDone
  | .resyncTimeout | .junctionFault | .lookoutServe .. | .badServe .. | .lookoutExpiry .. | .warningPeriodClose ..
  | .loCmdTest .. | .lookoutClockTrip .. | .lookoutResetHold | .warningDelivery | .mgmtRestart | .supervisorRestarted
  | .lookoutEvidenceCopy | .acFailRise | .acFailFall | .mainsGraceExpiry | .mainsReturn .. | .supplyRecovered
  | .bulkResetRelease .. | .auxReenable | .aoBudgetSample .. | .aoBrownout | .cellCvReached | .chargeComplete
  | .chargeTempHold | .chargeTempResume | .cellRemoved | .pwrCmdSleep | .pwrCmdDeepSleep .. | .pwrCmdOff | .pwrEntered
  | .idleEntry | .wakePin | .readyStageDone .. | .readyTimeout .. | .pwrExited | .islandAutoWake .. | .vReady | .dvfsTimeout
  | .thermalWindow .. | .tetherTxEnd .. | .tetherTxSend .. | .tetherTxCancel .. | .gsCmdPropose .. | .gsCmdVeto
  | .gsCmdWakeAll | .listenWindowEnd | .claimWindowEnd | .backoffEnd | .heartbeatSend | .tetherStationGone .. | .syncSend
  | .gsAgreeWindowEnd | .gsMemberTimeout | .gsCommitTime .. | .tetherRxPop | .coldStart .. | .sledReset .. | .chassisReset ..
  | .sledStarted .. | .fwCmdStage .. | .fwStaged .. | .fwCmdActivate .. | .logCmdSave .. | .setupImageSaved
  | .logbookScrub .. | .ledgerEntry | .evAlertAck | .evTest .. | .smbStatus | .smbBulkMv | .smbInletTemp | .smbInputPower
  | .smbFanFault | .smbLogSeq | .smbSerial | .smbWake | .smbAlertResponse | .fanFailure .. | .timePairRecord
  | .gsCommitDeadline | .msixVectorUnmask .. => true

end Sys2Proof
end

