-- ==== Sys2Proof/Tests/Slice0.lean ====
section
/-! SUPPORT. Tests. `test_` theorems hold the model against worked cases and vectors of the spec, and show the checks of WellFormed
refusing. `wit_` theorems show, for each statement of Certificates/Slice0 that has hypotheses, a state and operands that meet all
hypotheses of a clause together. A closed fact that is long to unfold is left to the kernel's evaluation (`decide +kernel`). -/

section
-- One theorem at a time: the many small evaluations of this file would each hold a thread of their own.
set_option Elab.async false
open Sys2Proof Sys2Proof.Machine


namespace Sys2Proof.Machine
/-- A state in power mode `m`. -/
def State.md (s : State) (m : PwrMode) : State := s.onPower (fun p => { p with mode := m })
/-- An active set-up word. -/
def State.reg (s : State) (key v : Nat) : State :=
  s.onSetup (fun x => { x with active := Tbl.put resetWord x.active key (BitVec.ofNat 32 v) })
/-- Fence 0 of function `f` over 0x1000 to 0xFFFFFFFF. -/
def State.fen (s : State) (f : Nat) : State := State.reg (State.reg s (0x6000 + 0x100 * f) 0x1000) (0x600C + 0x100 * f) 1
/-- A link that is up with eight lanes. -/
def State.lup (s : State) (l : Nat) : State := s.setLink l (fun _ => { up := true, speed := 3, width := 8, l12 := false })
/-- A function in D0 with Bus Master Enable; of a physical one VF Enable and 16 VFs. -/
def FnSt.on (q : FnSt) : FnSt := { q with d0 := true, bme := true, vfEn := true, numVfs := 16 }
/-- A trailer of an image copy without a body. -/
def State.image (s : State) (c g : Nat) : State :=
  s.writeImageRow (s.trailerRow c) g (le 4 0 ++ le 4 g ++ le 4 0 ++ le 8 (crcFold 3 [] (copyWord c) (g % 256)))
end Sys2Proof.Machine

namespace Sys2Proof.Tests
/-- The sled right after reset. -/
def r : State := State.reset
end Sys2Proof.Tests

/-! ### Form -/

namespace Sys2Proof.Tests.Form

/-- A frame of 64 bytes whose timestamp point lies at `x` in its J-cycle. -/
def rxf (x : Nat) : RxFrame :=
  { bytes := List.replicate 64 0, sofGood := true, fcsGood := true, offset := x, corrected := 0, uncorrected := 0, marked := false }

/-- A Tether frame of `n` bits with a stamp. -/
def tf (n stamp : Nat) : TetherFrame := { wire := List.replicate n true, stamp := stamp }

/-- The fourteen commands that carry a Tether frame. -/
def tetherCmds (f : TetherFrame) : List Instr :=
  [.wakeVeto f, .wakeAll f, .abort f, .sync f, .follow f, .propose f 20, .agree f, .refuse f, .tetherCommit f, .failover f, .claim f,
   .object f, .heartbeat f, .operator f]

theorem test_wf_register_write :
    WellFormed (.registerWrite (.of 0) 0x2008 4 1) = true ∧ WellFormed (.registerWrite (.of 0) 0x60010 8 1) = true ∧
    WellFormed (.registerWrite (.of 0) 0x2008 2 1) = false ∧ WellFormed (.registerWrite (.tf 0) 0x000A 4 1) = false ∧
    WellFormed (.registerWrite (.of 0) 0x2004 8 1) = false ∧ WellFormed (.registerWrite (.cf 0) 0x100000 4 1) = false := by decide

theorem test_wf_read_data :
    WellFormed (.readCompletion 3 true []) = true ∧ WellFormed (.readCompletion 3 true (List.replicate 4097 0)) = false ∧
    WellFormed (.enrolReadDone 3 true (List.replicate 64 0)) = true ∧
    WellFormed (.enrolReadDone 3 true (List.replicate 65 0)) = false := by
  decide +kernel

theorem test_wf_links :
    WellFormed (.hlLinkUp 0 15 15) = true ∧ WellFormed (.hlLinkUp 0 16 4) = false ∧ WellFormed (.hlLinkUp 0 3 16) = false := by decide

theorem test_wf_frames :
    WellFormed (.frameReceived 0 (rxf 81919)) = true ∧ WellFormed (.frameReceived 0 (rxf 81920)) = false ∧
    WellFormed (.macControlFrame 0 (rxf 81920)) = false ∧ WellFormed (.watchFrame 0 (rxf 81920)) = false := by decide

theorem test_wf_cages_and_energy :
    WellFormed (.cageMirrorCopy 0 (List.replicate 256 0)) = true ∧ WellFormed (.cageMirrorCopy 0 [1]) = false ∧
    WellFormed (.energyWindow []) = false ∧ WellFormed (.energyWindow (List.replicate 20 100)) = true := by decide +kernel

theorem test_wf_voltages :
    WellFormed (.supplyWarn 10999 0) = true ∧ WellFormed (.supplyWarn 65536 0) = false ∧ WellFormed (.supplyWarn 0 (2 ^ 64)) = false ∧
    WellFormed (.bulkReset 65536) = false ∧ WellFormed (.railFault .ao 65536) = false ∧ WellFormed (.cellProbe 65536) = false ∧
    WellFormed (.bulkRailRecoveryCrossing 65536) = false := by decide

theorem test_wf_dvfs_and_foreman :
    WellFormed (.dvfsCommand 800 800 []) = true ∧ WellFormed (.dvfsCommand 65536 800 []) = false ∧
    WellFormed (.dvfsCommand 800 65536 []) = false ∧ WellFormed (.foremanLoop [(19, 5, 5)]) = true ∧
    WellFormed (.foremanLoop [(20, 5, 5)]) = false ∧ WellFormed (.foremanLoop [(19, 6, 5)]) = false := by decide

theorem test_wf_tether :
    (tetherCmds (tf 700 0)).map WellFormed = List.replicate 14 true ∧
    (tetherCmds (tf 701 0)).map WellFormed = List.replicate 14 false ∧
    (tetherCmds (tf 0 (2 ^ 64))).map WellFormed = List.replicate 14 false ∧ WellFormed (.tetherTxStart 0) = true ∧
    WellFormed (.tetherTxStart (2 ^ 64)) = false := by decide +kernel

/-- A command needs no check where its operands' types hold only what the spec lets through. -/
theorem test_wf_plain : WellFormed .wakePin = true ∧ WellFormed (.commit 0 7) = true := by decide

/-- The queue is first in, first out, and the table gives no row bits. -/
theorem test_queue_and_words :
    (∃ t, step { r with pending := [.evAlertAck, .wakePin] } = .next t ∧ t.pending = [.wakePin]) ∧
    decodeTableWord 32 5 = none ∧ r.withFetchWord 32 5 = r := ⟨⟨_, rfl, rfl⟩, rfl, rfl⟩

/-- A state that meets the invariant and has a queue: the Logbook holds a byte, and a command waits. -/
def used : State := { r.onLog (fun l => { l with mem := memStore l.mem 100 [7] }) with pending := [.wakePin] }

theorem used_meets_the_invariant : Inv used :=
  ⟨⟨by decide, by decide, nofun⟩, (by decide : Tbl.wf resetWord [] = true), ⟨nofun, nofun, nofun⟩, (by decide : (0 : Nat) ≤ 256),
    (by decide : (0 : Nat) ≤ 16), ⟨by decide, by decide, by decide, by decide, nofun, nofun⟩⟩

theorem wit_EveryStepKeepsTheInvariant : ∃ s t : State, Inv s ∧ step s = .next t := ⟨used, _, used_meets_the_invariant, rfl⟩

theorem wit_NoRunStopsOrHasTwoActiveEngines : ∃ s t : State, Inv s ∧ Runs s t := ⟨used, used, used_meets_the_invariant, .refl used⟩

theorem wit_EveryCommandKeepsWhatItDoesNotTouch : ∃ (c : Instr) (s t : State), exec c s = .next t := ⟨.evAlertAck, used, _, rfl⟩

end Sys2Proof.Tests.Form


/-! ### Worked cases of the spec -/

namespace Sys2Proof.Tests.Cases

/-- The state a command answers. -/
def after (c : Instr) (s : State) : State :=
  match exec c s with
  | .next t => t
  | _ => s

/-- The nine bytes of Table 3-6. -/
def nine : Bytes := [0x31, 0x32, 0x33, 0x34, 0x35, 0x36, 0x37, 0x38, 0x39]

/-- Tables 3-6 and 3-7, rows F1 and F2 (03_check_values). -/
theorem test_check_value_vectors :
    crcPlain 0 nine = 0x29B1 ∧ crcPlain 1 nine = 0xCBF43926 ∧ crcPlain 2 nine = 0xE3069283 ∧
    crcPlain 3 nine = 0x995DC9BBDF1939FA ∧ crcFold 2 (nine.take 4) 0x38373635 0x39 = 0xE3069283 ∧
    crcFold 0 nine 0x12345678 0x9A = 0x3423 := by decide +kernel

/-- Section 3.8: the check of a receive descriptor. -/
theorem test_receive_descriptor_check :
    ringWord 1 0x0A5 0x0123 = 0x04A50123 ∧
    crcFold 0 [0x00, 0x70, 0x56, 0x34, 0x12, 0, 0, 0, 0, 0x08, 0, 0, 0, 0] (ringWord 1 0x0A5 0x0123) 0x07 = 0x9DDE := by decide +kernel

/-- Section 15.12: the identifier and the check of a WAKE_ALL frame. -/
theorem test_wake_all_check : tetherId 0x11 5 = 0x0445 ∧ tetherCheck 0x0445 0x2A [] 0x13 = 0xD719 := by decide +kernel

/-- Section 15.12, steps 5 and 6: two stuff bits, 60 bits in all, and what a receiver finds in them. -/
theorem test_wake_all_on_the_wire :
    (tetherWire 0x0445 0x2A [] 0xD719).length = 60 ∧ (tetherWire 0x0445 0x2A [] 0xD719).take 6 = [false, false, false, false, false, true] ∧
    readWire (tetherWire 0x0445 0x2A [] 0xD719) = (.ok, 0x0445, 0x2A, [], 0xD719) := by decide +kernel

/-- Table 17-1: 128-byte frames at 400 Gb/s and 600 MHz. -/
theorem test_sustainable_rate : sustainable 400000 307200 128 = 355200 := by decide

/-- R253: an epoch flit, and a data flit that the receiver in step reads. -/
theorem test_flits :
    readEpoch (epochFlit 255 true) = .epoch 255 true ∧ bits (epochFlit 255 true) 0 16 = 0xA1D4 ∧
    LaneRx.init.read (flitOf 0x5E2B (scramble 256 77 0 0).1 0 1) = .data 77 (scramble 256 77 0 0).2 := by decide +kernel

/-- Section 2.10: TIME64 of a departure at 10,254.88 ns, wire time and the fit under R10. -/
theorem test_frame_at_a_gate_close :
    time64Of (1025488 * uNs / 100) = 10254 ∧ wireU 1518 100000 = 12208 * uNs / 100 ∧
    fits (1037792 * uNs / 100) 1518 100000 (10500 * uNs) = true ∧ fits (1037804 * uNs / 100) 1518 100000 (10500 * uNs) = false := by
  decide +kernel

/-- Sections 5.12 and 7.14: sled-wide ring numbers under the default RING_ALLOC. -/
theorem test_ring_numbers :
    r.ringNumber 4 0 1 = 0x0A1 ∧ r.ringNumber 4 2 0 = 0x088 ∧ r.ringNumber 20 1 3 = 0x123 ∧
      r.ringNumber 20 2 0 = 0x0A8 := by decide +kernel

/-- TF4 of section 5.12, with its ring 0x0A1 and its queue 0x088. -/
def tf4 : State :=
  { r.setFn 4 (fun f => { f with state := .enrolled, grantTx := 4, grantRx := 4, grantCq := 4 }) with
    tx := [(0x0A1, { TxRing.init with state := .active, fn := 4, base := 0x2000000000, size := 2, cq := 0x088, c := 1022, h := 1022, f := 1022 })]
    cq := [(0x088, { CqRing.init with state := .active, fn := 4, base := 0x2000008000, c := 127, w := 129 })] }

/-- Section 5.12, step 2: the doorbell across the ring end is accepted, and H is (0x04, 0x01). -/
theorem test_doorbell_across_the_ring_end :
    let t := after (.doorbellTx 4 true 0x00000000100004A1) tf4
    (t.txr 0x0A1).h = 4 * 256 + 1 ∧ (t.txr 0x0A1).c = 1022 ∧ tget t.tally.count (tallyKey Ctr.txDbAccepted.code 0 0x0A1) = 1 := by
  decide +kernel

/-- Section 5.12, the result: the partner consumes both completions and arms the queue again. -/
theorem test_arm_consumes_both_completions :
    let t := after (.doorbellArm 4 false true 0x0000000808000488) tf4
    (t.cqr 0x088).c = 2 * 64 + 1 ∧ (t.cqr 0x088).armed = true := by decide +kernel

/-- Section 4.13, step 3: the request on MBX_GO is clean, and FN_STATE becomes Checking. -/
theorem test_enrolment_is_checked :
    let s := ((State.fen (r.setFn 0x14 (fun f => { f with state := .idle, d0 := true, bme := true, replySeq := 7, gen := 2 })) 0x14).setLink 2
      (fun _ => { up := true, speed := 3, width := 4, l12 := false })).setFn 65 (fun q => { q with vfEn := true, numVfs := 16 })
    let q : MbxReq := { opcode := 1, seq := 8, status := 0, rsv := 0, op0 := 0x1000, op1 := 0, check := 0 }
    let t := after (.enrol 0x14 8 { q with check := BitVec.ofNat 16 (crcFold 0 (mbxBody q) 0x10000014 8) }) s
    (t.fn 0x14).state = .checking ∧ t.host.reads.map (fun x => x.addr) = [0x1000] := by decide +kernel

/-- Section 6.16: three segments of 1,526, 1,526 and 1,182 bytes, and their wire times. -/
theorem test_segments_and_their_lengths :
    let a : TxAsk := { seg := true, l3c := false, l4c := false, tag := true, tci := 0x6005, mss := 1448, l3 := 14, l4 := 34, hdr := 66, stag := some 100 }
    a.frames 4066 = 3 ∧ (List.range 3).map (a.wireLen 4066) = [1526, 1526, 1182] ∧
    wireU 1526 100000 = 12272 * uNs / 100 ∧ wireU 1182 100000 = 9520 * uNs / 100 := by decide +kernel

/-- Section 7.14, step 2: the limit of a frame of two tags is 1,526. -/
theorem test_limit_with_two_tags :
    bufTags (List.replicate 12 0 ++ [0x88, 0xA8, 0x60, 0xC8, 0x81, 0x00, 0xA0, 0x0A, 0x08, 0x00]) = 2 := by decide +kernel

/-- Section 8.13, step 1: 0xFFFF quanta at 100 Gb/s are 335.5392 µs. -/
theorem test_longest_pause : bitsU (0xFFFF * 512) 100000 = 335539200 * uNs / 1000 := by decide +kernel

/-- Sections 12.11 and 13.11: the AO estimate of three entries. -/
theorem test_ao_estimates :
    let a := State.reg (r.onPair (fun p => { p with warm := true, b := { p.b with state := .failed } })) 0x200C 0xFFFFFFFF
    a.aoEstimate 30 = 20475 ∧ r.aoEstimate 35 = 15300 := by decide +kernel

/-- Section 13.11, step 8: device time restarts at D0 + 26,000,976.5625 ns. -/
theorem test_time_after_deep_sleep :
    let s := (r.md .exiting).onRtc (fun x => { x with count := 3277652, pairC := 3276800, pairD := 100003500000 * uNs })
    let t := after (.readyStageDone ⟨true, true⟩) (s.onPower (fun p => { p with exitFrom := .deepSleep, stage := 3 }))
    t.time.now = 100029500976 * uNs + 5625 * uNs / 10000 ∧ t.time.source = .restored := by decide +kernel

/-- Section 11.9, steps 3 and 4: a bad serve in Warning resets the channel, and the end of its hold hands over with cause 5. -/
theorem test_bad_serve_in_warning :
    let s := (r.onPair (fun p => { p with warm := true })).setChan 0 (fun x => { x with state := .warning, warns := 1, warnPc := 0x41A3C })
    let t := after (.badServe 0 0xC3A4) s
    (t.chan 0).bads = 1 ∧ (t.chan 0).resets = 1 ∧ (t.chan 0).badServe = true ∧ (t.chan 0).warnPc = 0x41A3C ∧
    ((after .lookoutResetHold (t.onTime (fun x => { x with jcycle := 16 }))).pair.handover).map (fun h => (h.out, h.cause)) = some (.a, 5) := by decide +kernel

/-- Section 14.8, steps 2 to 4: 96 °C and 106 °C against HOT = 95 °C. -/
theorem test_thermal_ceilings :
    (after (.thermalWindow 96) r).foreman.level = 1 ∧ (after (.thermalWindow 106) (after (.thermalWindow 96) r)).foreman.level = 2 ∧
    (after (.thermalWindow 94) r).foreman.level = 0 ∧ (after (.thermalWindow 95) r).foreman.level = 1 := by decide +kernel

/-- Section 15.13, step 3: T is the later of C + GS_LEAD and P + 80 ms. -/
theorem test_commit_instant :
    (r.onTether (fun t => { t with gsP := 50000200000 })).commitT 50004300000 = 50080200000 := by decide +kernel

/-- Section 16.9, step 1: with copy A the newest, a SAVE goes to copy B with the next generation. -/
theorem test_save_goes_to_the_other_copy :
    ((after (.logCmdSave true) ((r.image 1 0x16).image 2 0x15)).log.saving).map (fun p => (p.isA, p.gen)) = some (false, 0x17) := by
  decide +kernel

/-- Section 12.10: the fall braces the sled with the crossing time; the clean window lifts the brace with MIN_MV 10,860. -/
theorem test_a_dip_braced_and_recovered :
    (after (.supplyWarn 10999 12000100000) r).supply.braced = true ∧
    (after .supplyRecovered (r.onSupply (fun x => { x with braced := true, recovery := some 0, minMv := 10860 }) |>.onTime (fun t => { t with elapsed := 5000 * uUs }))).supply.braced = false := by
  decide +kernel

/-- Section 0.7.5, step 2: a COMMIT seals the staged writes, and STATE reads Pending. -/
theorem test_commit_is_pending :
    let t := after (.commit 2 0x42) (r.onSetup (fun x => { x with staged := [(0x2008, ⟨0x3E0, 0x20⟩)] }))
    t.setup.state = .pending ∧ t.setup.seq = 0x42 ∧ t.setup.staged = [] := by decide +kernel

/-- Section 0.7.5, step 3: a COMMIT in a hand-over is Deferred. -/
theorem test_commit_is_deferred :
    (after (.commit 2 0x42) (r.onPair (fun p => { p with verdict := true }))).setup.state = .deferred := by decide +kernel

end Sys2Proof.Tests.Cases


namespace Sys2Proof.Tests.W

/-! ### States and operands for the witnesses -/
def r : State := State.reset

-- Set-up
def sset (d : Bool) (k : Nat) (m v : Word) : SealedSet := { seq := 4, words := [(k, ⟨m, v⟩)], flows := [], discarded := d, deferred := false }
def setFine : SealedSet := sset false 0x2008 0x3E0 0x20
def setBad : SealedSet := sset false 0x70004 0xFFFFFFFF 0xFFFFFFFF
def setGone : SealedSet := sset true 0x70004 0xFFFFFFFF 0xFFFFFFFF
def setCombo : SealedSet := sset false 0x10100 0xFFFFFFFF 0xFFFFFFFF
def pend (p q : Option SealedSet) : State := r.onSetup (fun x => { x with pendingSet := p, queuedSet := q, staged := [(0x2008, ⟨0x3E0, 0x40⟩)] })
def pendGood : State := pend (some setFine) none
def pendBad : State := pend (some setBad) none
def pendGone : State := pend (some setGone) none
def pendTwo : State := pend (some setFine) (some setBad)
def stagedWords : List (Nat × StagedW) := [(0x2008, ⟨0x3E0, 0x40⟩)]
def wordBad4 : Nat × StagedW := (0x70004, ⟨0xFFFFFFFF, 0xFFFFFFFF⟩)
def wordCombo : Nat × StagedW := (0x10100, ⟨0xFFFFFFFF, 0xFFFFFFFF⟩)
def locked : State := r.onSetup (fun x => { x with lock := true })
def flow (v : Bool) (w : Nat) : State := r.onSetup (fun x =>
  { x with flowKey := [(0, w)], flowRing := 3, flowValid := v, flows := [(7, { key := le 4 5 ++ List.replicate 36 0#8, ring := 2 })] })
def flowTwin : State := flow true 5
def flowRsv : State := flow true 0x7000000
def entry5 : FlowEntry := { key := le 4 5 ++ List.replicate 36 0#8, ring := 2 }
def cells : List Host.Cell := [(2097151, 7)]

-- Power modes
def sleep : State := r.md .sleep
def deep : State := r.md .deepSleep
def off : State := r.md .off
def idle : State := r.md .idle
def wakeAll : State := (r.reg 0x2008 0x3FF).md .sleep
def noWake : State := ((r.reg 0x2008 0).md .sleep).lup 7
def wakeLink : State := wakeAll.lup 7
def offDark : State := off.onSupply (fun x => { x with mains := false })
def fenced : State := r.onPair (fun p => { p with fenced := true, a := { p.a with act := false, state := .failed }, b := { p.b with state := .failed } })
def domain : State := r.onPower (fun p => { p with domain := true })
def wk : Wake := { source := 2, detail := 0, stamp := 9, others := 0 }
def entering (m : PwrMode) (w : Option Wake) : State := (r.onPower (fun p => { p with mode := .entering, target := some m, entryAt := 5, latched := w })).lup 0
def toSleep : State := entering .sleep none
def toDeep : State := entering .deepSleep none
def toOff : State := entering .off (some wk)
def toSleepWoken : State := entering .sleep (some wk)
def held1 : Nat × Nat := (5, 7)
def held2 : Nat × Nat := (5, 1)
def idleDue : State := (r.onPower (fun p => { p with idleSince := some held1 })).onTime (fun t => { t with elapsed := 12 })
def idleSoon : State := (r.onPower (fun p => { p with idleSince := some held2 })).onTime (fun t => { t with elapsed := 5 })
def exiting (m : PwrMode) (st re : Nat) : State :=
  (r.onPower (fun p => { p with mode := .exiting, exitFrom := m, stage := st, retry := re, wakeSrc := 5 })).onRtc (fun x => { x with count := 500, pairC := 400, pairD := 2 ^ 70 })
def exit0 : State := exiting .sleep 2 1
def exitDeep : State := exiting .deepSleep 3 0
def exitSleep : State := exiting .sleep 3 2
def exitDone : State := exiting .sleep 4 0
def dvfsLow : State := r.onPower (fun p => { p with point := 3 })
def dvfsBusy : State := r.onPower (fun p => { p with newPoint := some 2, stepIsl := [(0, 2)] })
def parked : State := (domain.setIsland 5 (fun i => { i with state := .retention, isolated := true })).setChan 0 (fun x => { x with warns := 3 })

-- Time
def src7 (f : TimeSt → TimeSt) : State := (r.reg 0x50034 7).onTime (fun t => f { t with now := 12345678901234567890123, elapsed := 2 ^ 70, rateOp := 2684354, stepOp := [(0, 5), (1, 0xFFFFFFFF)], setOp := [(0, 0xC9FF0000), (1, 0x3B9A), (2, 7)] })
def timed : State := src7 id
def duration : Nat := 2 ^ 48 * uSec - 1
def dueRate : State := src7 (fun t => { t with due := [(1, 2684354)] })
def dueStep : State := src7 (fun t => { t with due := [(2, -1)] })
def dueSet : State := src7 (fun t => { t with due := [(3, 5)] })
def byPtp : State := src7 (fun t => { t with source := .ptp, curSrc := 1, current := some (2 ^ 71) })
def heldOver : State := src7 (fun t => { t with source := .holdover, curSrc := 1, current := some (2 ^ 71) })
def noSource : State := r.reg 0x50034 0
def alarmed : State := r.onRtc (fun x => { x with count := 77, armed := true, alarmEn := true, alarmLo := 3, loadLo := 4 })
def alarmSleep : State := (alarmed.reg 0x2008 0x3FF).md .deepSleep

-- Start-up and the Logbook
def restart : State := off.onSupply (fun x => { x with latchBit := true, retRun := some 360000000, mains := true })
def stage4 : State := r.onLog (fun l => { l with stage := 4 })
def staging : State := r.onLog (fun l => { l with fwState := 1 })
def verified : State := r.onLog (fun l => { l with fwState := 2 })
def fwFenced : State := ((r.fen 67).setOf 3 (fun o => { o with fwAddr := 0x1000, fwLen := 0x1000 }))
def imageA : State := r.image 1 0x16
def save : SaveJob := { isA := true, gen := 1, lock := false, words := [] }
def saving : State := r.onLog (fun l => { l with saving := some save })
def rowTorn : State := r.onLog (fun l => { l with mem := [(64 * 32767, 1)] })
def alert : State := r.onEvents (fun v => { v with alert := true })

-- Host links and functions
def lnk0 : State := (((stage4.setFn 64 FnSt.on).setFn 67 FnSt.on).setFn 3 FnSt.on).setFn 63 FnSt.on
def lnk1 : State := ((lnk0.lup 0).lup 6)
def F (st : FnState) (f : FnSt → FnSt) : State :=
  [3, 63, 67].foldl (fun (s : State) k => s.setFn k (fun q => f { q with state := st })) (((lnk1.reg 0x5060 1).fen 3).fen 67)
def G : State := F .enrolled (fun q => { q with grantTx := 4, grantRx := 4, grantCq := 4 })
def rd (k : ReadKind) (v t : Bool) : ReadReq := { tag := 7, fn := 3, kind := k, addr := 4096, len := 64, void := v, timedOut := t }
def rdEnrol : ReadReq := rd .enrol false false
def rdTx : ReadReq := rd (.txDesc 1 70 2) false false
def rdVoid : ReadReq := rd (.txDesc 1 70 2) true false
def reading (q : ReadReq) : State := G.onHost (fun h => { h with reads := [q] })
def readingEnrol : State := reading rdEnrol
def readingTx : State := reading rdTx
def readingVoid : State := reading rdVoid
def cfgOff : CfgBits := { vfEn := false, numVfs := 0, mrrs := 5, d0 := false, bme := true, msixEn := false, ro := false }
def cfgOn : CfgBits := { vfEn := true, numVfs := 16, mrrs := 5, d0 := true, bme := true, msixEn := true, ro := true }
def cfgMute : CfgBits := { vfEn := true, numVfs := 16, mrrs := 0, d0 := true, bme := false, msixEn := true, ro := true }
def busy : State := F .enrolled (fun q => { q with busy := true, goOp := 2, goSeq := 8 })
def quarantined : State := F .quarantined id
def leaving : State := F .evicting (fun q => { q with wait := some .leave, goOp := 2, goSeq := 8, busy := true })
def evicting : State := F .evicting id
def msixMasked : State := G.setFn 67 (fun q => { q with msixEn := true, msixMask := 0, msixPend := BitVec.allOnes 64 })

-- Mailboxes
def req (f op : Nat) (a b : BitVec 64) : MbxReq :=
  let q : MbxReq := { opcode := BitVec.ofNat 8 op, seq := 1, status := 0, rsv := 0, op0 := a, op1 := b, check := 0 }
  { q with check := BitVec.ofNat 16 (mbxWant f q) }
def reqEnrol : MbxReq := req 67 1 0x1000 0
def reqEnrolLow : MbxReq := req 67 1 0x40 0
def reqEnrolOdd : MbxReq := req 67 1 0x1001 0
def reqLeave : MbxReq := req 67 2 0 0
def reqLeaveOdd : MbxReq := req 67 2 0 1
def reqQuery : MbxReq := req 67 3 0 0
def reqQueryOdd : MbxReq := req 67 3 1 0
def reqUnknown : MbxReq := req 67 0x15 0 0
def reqDirty : MbxReq :=
  let q : MbxReq := { opcode := 3, seq := 1, status := 1, rsv := 0, op0 := 0, op1 := 0, check := 0 }
  { q with check := BitVec.ofNat 16 (mbxWant 67 q) }
def reqWrong : MbxReq := { reqQuery with check := 0x1234 }
def fnIdle : State := F .idle id
def fnDisabled : State := F .disabled id
def tagged (l t : Nat) : ReadReq := { tag := 1024 * l + t, fn := 67, kind := .enrol, addr := 0, len := 64, void := false, timedOut := false }
def allTags (l : Nat) : List ReadReq := (List.range 768).map (tagged l)
def noTags : State := fnIdle.onHost (fun h => { h with reads := allTags 6 })
def enrolBody (f : Nat) : Bytes :=
  let b := le 2 1 ++ le 1 f ++ le 1 1 ++ le 8 9 ++ le 1 4 ++ le 1 4 ++ le 1 4 ++ List.replicate 45 0
  b ++ le 4 (crcFold 2 b (fnWord f) 1)
def recGood : Bytes := enrolBody 67
def wantsRecord : State := (F .checking (fun q => { q with busy := true, goOp := 1, goSeq := 1, wait := some .enrol })).onHost (fun h =>
  { h with reads := [{ tag := 6144, fn := 67, kind := .enrol, addr := 0x1000, len := 64, void := false, timedOut := false }] })
def unitsBusy : State := wantsRecord.onHost (fun h => { h with units := (List.range 16).map (fun u => (u, { msg := { fn := 3, kind := .tx 1 70, data := [] }, reg := 0 })) })
def enrolEnd : State := F .checking (fun q => { q with busy := true, goOp := 1, goSeq := 1, wait := some (.enrolled recGood) })
def mgmtAway : State := G.onLookout (fun l => { l with restart := true })
def parkedHost : State := (G.setIsland 2 (fun i => { i with isolated := true })).setIsland 5 (fun i => { i with isolated := true })
def parkedHostEvicting : State := (parkedHost.setFn 67 (fun q => { q with state := .evicting })).onPair (fun p =>
  { p with warm := true, handover := some { warm := true, swap := true, out := .a, cause := 0, x := 0, t0 := 0, fallen := false, lowAt := 1, drained := false } })

-- Rings by mailbox
def cqSlot : Nat := G.ringNumber 67 2 0
def Gc : State := { G with cq := [(cqSlot, { CqRing.init with state := .active, fn := 67, size := 2 })] }
def reqTxr : MbxReq := req 67 0x10 0x2000 0xD4041
def reqTxrTwice : MbxReq := req 67 0x10 0x2000 0x49
def reqTxrLow : MbxReq := req 67 0x10 0 0x41
def reqRxr : MbxReq := req 67 0x11 0x2000 0x200041
def reqCq : MbxReq := req 67 0x12 0x2000 0x20641
def reqEvr : MbxReq := req 67 0x13 0x2000 0x640
def reqDestroy : MbxReq := req 67 0x14 4 0
def reqDestroyOdd : MbxReq := req 67 0x14 4 1
def destroyable : State := { Gc with tx := [(G.ringNumber 67 0 1, { TxRing.init with state := .active, fn := 67 })] }
def destroyed : State := { (F .enrolled (fun q => { q with wait := some (.destroy 0 1), busy := true, goOp := 0x14, goSeq := 3, grantTx := 4 })) with
  tx := [(G.ringNumber 67 0 1, { TxRing.init with state := .closing, fn := 67 })] }

-- Doorbells and descriptors
def desc (ring pos : Nat) (good : Bool) (len fl : Nat) : Bytes :=
  let b := le 8 0x2000 ++ le 2 len ++ le 2 fl ++ le 2 0 ++ le 2 0 ++ [0, 0] ++ le 2 0 ++ le 4 len ++ le 4 9 ++ le 2 0
  b ++ le 2 (if good then crcFold 0 b (ringWord 0 ring (posIndex 64 pos)) (posLap 64 pos) else 0x1234)
def rdesc (ring pos : Nat) (good : Bool) : Bytes :=
  let b := le 8 0x2000 ++ le 2 256 ++ le 2 7 ++ le 2 0
  b ++ le 2 (if good then crcFold 0 b (ringWord 1 ring (posIndex 64 pos)) (posLap 64 pos) else 0x1234)
def txRing : TxRing := { TxRing.init with state := .active, fn := 3, base := 0x4000, cq := 2, c := 70, h := 75, f := 71 }
def rxRing : RxRing := { RxRing.init with state := .active, fn := 3, base := 0x4000, cq := 2, c := 70, h := 75, f := 72 }
def cqRing : CqRing := { CqRing.init with state := .active, fn := 3, base := 0x8000, c := 70, w := 73, unsig := 2, armed := true, modCount := 5, modTime := 100 }
def Ge : State := [3, 67].foldl (fun (s : State) k => s.setFn k (fun q => { q with msixEn := true, msixMask := 0, tbLevel := 2 ^ 60 })) G
def B : State := { Ge with tx := [(1, txRing)], rx := [(1, rxRing)], cq := [(2, cqRing), (9, { cqRing with armed := false })] }
def ringsFull : State := B.onHost (fun h => { h with reads := allTags 0 })
def msgTx (good : Bool) : Msg := { fn := 3, kind := .tx 1 70, data := desc 1 70 good 100 1 }
def msgRx (good : Bool) : Msg := { fn := 3, kind := .rx 1 70, data := rdesc 1 70 good }
def msgTxGood : Msg := msgTx true
def waitingMsg : State := B.onHost (fun h => { h with msgs := [msgTxGood] })
def cvu (m : Msg) : Cvu := { msg := m, reg := B.msgWant m }
def cvuTx : Cvu := cvu (msgTx true)
def cvuTxBad : Cvu := cvu (msgTx false)
def cvuRxBad : Cvu := cvu (msgRx false)
def cvuMbx : Cvu := cvu { fn := 67, kind := .mailbox reqWrong, data := mbxBody reqWrong }
def cvuEnrol : Cvu := cvu { fn := 67, kind := .enrol, data := recGood }
def unit (x : Cvu) : State := (B.setFn 67 (fun q => { q with state := .checking, gen := 0 })).onHost (fun h => { h with units := [(15, x)] })
def unitTx : State := unit cvuTx
def unitTxBad : State := unit cvuTxBad
def unitRxBad : State := unit cvuRxBad
def unitMbx : State := unit cvuMbx
def unitEnrol : State := unit cvuEnrol
def send (n : Nat) (st : SendSt) : Send := { Send.of [txDescOf n (desc 1 n true 100 1) true] st 0 with data := [(0, List.replicate 100 3)] }
def sendReads : Send := send 71 .reads
def descReads : TxDesc := txDescOf 71 (desc 1 71 true 100 1) true
def sendRing : TxRing := { txRing with f := 75, cls := 3, sends := [send 70 .ready, sendReads] }
def S : State := { Ge with tx := [(1, sendRing)], cq := [(2, cqRing)], macs := [(0, { MacInst.init with link := .up }), (8, { MacInst.init with link := .up })] }

-- Grants, gates and departures
def frame (q held : Bool) : CurFrame :=
  { ring := 1, first := 70, seg := 0, cls := 3, at_ := 2 ^ 60, start := 5, bytes := List.replicate 100 3, flags := 5, padded := false, fn := 3, quiet := q, held := held }
def frameSent : CurFrame := frame false false
def frameKept : CurFrame := frame false true
def granted : State := S.setSch 0 (fun x => { x with cur := some frameSent })
def gateList : GateList := { entries := [(0x0F, 1000), (0xF0, 2000)], cycle := 3000, base := 5, start := 2 ^ 50 }
def gatePending : State := S.setSch 15 (fun x => { x with pend := some gateList })
def gateList2 : GateList := { entries := [(0xF7, 1000), (0xFF, 2000)], cycle := 3000, base := 0, start := 0 }
def lpiGated : State := ((S.setMac 0 (fun x => { x with txLpi := true, tw := 2000, lpiCap := true })).setSch 0 (fun x => { x with oper := some gateList2 })).reg 0x31000 2
def lpiOn : State := ((S.onTx (fun _ => [])).setMac 0 (fun x => { x with lpiCap := true })).reg 0x40000 0xFFFFFFFF
def lpiDue : State := (lpiOn.setSch 0 (fun x => { x with idle := some (5, 7) })).onTime (fun t => { t with elapsed := 12 })
def lpiEntering : State := (lpiOn.setMac 0 (fun x => { x with entering := some 13 })).onTime (fun t => { t with elapsed := 13 })

-- Reception
def slot (p len hole : Nat) : RxSlot := { pos := p, addr := 0x2000 + 0x1000 * (p - 70), len := len, cookie := 9, hole := hole }
def rxr (early : Bool) (ws : List Nat) (l : List RxSlot) : RxRing :=
  { rxRing with h := 75, f := 73, early := early, wait := ws, slots := l, tw := if ws = [] then none else some (5, 7) }
def D : State := ((Ge.reg 0x28000 0x44332211).reg 0x28004 (0x6655 + 3 * 2 ^ 16 + 3 * 2 ^ 23 + 2 ^ 31)).reg 0x2080C 0
def bx : Nat := D.ringAllocRxBase 3
def R (ring : RxRing) (w : Nat) : State := { D with rx := [(bx, ring)], cq := [(2, { cqRing with w := w })], macs := [(0, { MacInst.init with link := .up }), (8, { MacInst.init with link := .up, fec := 3 }), (15, { MacInst.init with link := .down })] }
def copyOf (dma : Bool) : RxCopy :=
  { fn := 3, ring := bx, flowHit := false, hash := none, strip := 0, tci := 0, stag := false, store := false, dma := dma, written := 0, slotsN := 0, lastPos := 0, cookie := 0, reserve := false }
def copy0 : RxCopy := copyOf false
def copyDma : RxCopy := copyOf true
def held (n : Nat) (c : RxCopy) : HFrame :=
  { id := 4, inst := 0, cls := 0, bytes := List.replicate n 8, wireLen := n + 4, time64 := 3, fcs := 0, oversize := false, l3 := 0, l4 := 0, copies := [c], pipeAt := 3, pipeTo := 9, inc := false, pool := 2, head := 0, resv := 0 }
def frame100 : HFrame := held 100 copy0
def frame600 : HFrame := held 600 copy0
def frame600Dma : HFrame := held 600 copyDma
def H (s : State) (h : HFrame) : State := (s.onHamper (fun x => { x with frames := [h], nextId := 5 })).onTime (fun t => { t with elapsed := 12 })
def slot0 : RxSlot := slot 70 256 0
def slot1 : RxSlot := slot 71 256 0
def slots1 : List RxSlot := [slot0]
def slots2 : List RxSlot := [slot0, slot1, slot 72 256 0]
def rxOpen : State := R (rxr false [] [slot0, slot1]) 71
def rxStore : State := H (R (rxr false [4] [slot0, slot1]) 71) frame100
def rxEarly : State := H (R (rxr true [4] slots2) 71) frame600
def rxFetching : State := H (R (rxr false [4] []) 71) frame100
def rxDry : State := H (R { rxr false [4] [] with h := 70, f := 70 } 71) frame100
def rxNoEntry : State := H (R { rxr false [4] [slot0, slot1] with h := 72, f := 72 } 134) frame100
def rxAbandoned : State := H (R { rxr true [4] [] with h := 70, f := 70 } 71) frame600Dma
def rxHeld : State := rxOpen.onPair (fun p => { p with verdict := true })
def body (n : Nat) : Bytes := [0x11, 0x22, 0x33, 0x44, 0x55, 0x66, 1, 1, 1, 1, 1, 1, 8, 0] ++ List.replicate n 5
def rxf (l : Bytes) (sof fcs : Bool) : RxFrame := { bytes := l, sofGood := sof, fcsGood := fcs, offset := 0, corrected := 2, uncorrected := 1, marked := false }
def rxGood : RxFrame := rxf (body 100) true true
def rxBadSof : RxFrame := rxf (body 100) false true
def rxCut : RxFrame := rxf (body 498) true false
def ctl (op n : Nat) (fcs : Bool) : RxFrame := rxf (be 6 0x0180C2000001 ++ be 6 1 ++ be 2 0x8808 ++ be 2 op ++ be 2 7 ++ List.replicate n 0) true fcs
def ctlShort : RxFrame := ctl 1 41 true
def ctlBad : RxFrame := ctl 1 42 false
def ctlPause : RxFrame := ctl 1 42 true
def ctlUnknown : RxFrame := ctl 2 42 true

-- Links, pauses and cages
def cagesFull (copper : Bool) : State := [0, 1].foldl (fun (s : State) p => s.setCage p (fun k => { k with present := true, highPower := true, copper := copper })) r
def linkState (s : State) (f : MacInst → MacInst) : State := (s.setMac 0 f).setMac 8 f
def macDown : State := linkState (cagesFull false) (fun x => { x with link := .down })
def macTraining : State := linkState (cagesFull false) (fun x => { x with link := .training, train := true })
def anTraining : State := linkState ((cagesFull true).reg 0x40000 0x11) (fun x => { x with link := .training, train := true })
def anFailed : State := linkState ((cagesFull true).reg 0x40000 0x11) (fun x => { x with link := .training, train := true, fails := 2 })
def anWaits : State := linkState ((cagesFull true).reg 0x40000 0x11) (fun x => { x with link := .training, train := false, fails := 3 })
def macUp : State := linkState (cagesFull false) (fun x => { x with link := .up, laneOk := 255 })
def clock (s : State) : State := s.onTime (fun t => { t with elapsed := 100 })
def pauseDue : State := clock (linkState macUp (fun x => { x with link := .up, ignoring := true, ctrlIn := [(100, [(3, 7)]), (101, [(2, 7)])] }))
def pauses : List (Nat × Nat) := [(3, 7), (2, 0)]
def pause37 : Nat × Nat := (3, 7)
def pauseTaken : State := clock ((linkState granted (fun x => { x with link := .up, ctrlIn := [(100, pauses), (101, [(2, 7)])] })))
def pausedNow : State := clock (linkState macUp (fun x => { x with link := .up, paused := [(3, 100), (7, 101)] }))
def wdHeld : State := clock ((S.setMac 0 (fun x => { x with paused := [(3, 1000)], pausedJ := [(3, 0)], wd := [(3, 100)] })).reg 0x40000 0x81)
def wdOver : State := clock (S.setMac 0 (fun x => { x with wd := [(7, 100)] }))
def ctlRest : List CtrlFrame := [.pause 7]
def ctls (l : List CtrlFrame) : State := macUp.setSch 8 (fun x => { x with ctrl := l })
def ctlsPause : State := ctls (.pause 0xFFFF :: ctlRest)
def ctlsLldp : State := ctls (.lldp :: ctlRest)
def ctlsPfc : State := ctls (.pfc 0x88 0xFFFF :: ctlRest)
def xoff : State := (macUp.onHamper (fun h => { h with xoff := [(8, 255)] }))
def watching (s : State) (ready : Bool) : State := (s.setWatchLane 0 (fun w => { w with running := true, ready := ready })).setWatchLane 1 (fun w => { w with running := true, ready := ready })
def watch : State := watching wakeAll true
def watchCold : State := watching wakeAll false
def fx (n : Nat) (l : Bytes) : RxFrame := rxf (List.replicate 14 1 ++ l ++ List.replicate n 5) true true
def rxPattern : RxFrame := fx 100 []
def rxMagic : RxFrame := fx 9 (magicBody 0x010203040506)
def watchPat : State := (watch.reg (0x44010 + 0x20 * 5) (2 ^ 16 + crcPlain 0 (r.maskedBytes 0 5 rxPattern.bytes))).reg (0x44410 + 0x20 * 5) (2 ^ 16 + crcPlain 0 (r.maskedBytes 1 5 rxPattern.bytes))
def mirror : Bytes := List.replicate 256 7
def cageResets : State := (cagesFull false).setCage 1 (fun k => { k with inReset := true })
def cageFaulty : State := (cagesFull false).setCage 1 (fun k => { k with fault := true, supply := false })

-- Numbers at the ends of their ranges
def rowAt (off : Nat) : RegRow × List Nat := (regAt off).getD (⟨.idVendor, 0, [], []⟩, [])
def row2000 : RegRow := (rowAt 0x2000).1
def row50010 : RegRow := (rowAt 0x50010).1
def row5008 : RegRow := (rowAt 0x5008).1

-- Set-up, part two
def resyncCopy : State := (r.setEng .b (fun g => { g with state := .resyncing })).onPair (fun p => { p with resync := some .copy })
def verdict : State := r.onPair (fun p => { p with verdict := true })
def wakeInD3 : State := (lnk1.setFn 67 (fun q => { q with d0 := false })).setFn 71 (fun q => { q with d0 := false })

-- Doorbells, part two
def at_ (ring pos : Nat) : BitVec 64 := BitVec.ofNat 64 (ring + pos % 64 * 2 ^ 10 + pos / 64 * 2 ^ 26)
def E2 : State := ({ B with rx := [(1, { rxRing with c := 70, h := 75, f := 72 })] }).setEvr 3 (fun _ => { cqRing with fn := 67 })
def pos76 : BitVec 64 := at_ 1 76
def pos75 : BitVec 64 := at_ 1 75
def posBack : BitVec 64 := at_ 1 72 ||| 1#64 <<< 34
def posCq : BitVec 64 := at_ 9 73
def posEvr : BitVec 64 := at_ 3 73
def dbTx : Instr := .doorbellTx 3 true pos76
def dbRepeat : Instr := .doorbellRx 3 true pos75
def dbRx : Instr := .doorbellRx 3 true pos76
def dbBack : Instr := .doorbellRecall 3 true posBack
def dbCq : Instr := .doorbellCq 3 true posCq
def dbEvr : Instr := .doorbellEvr 67 true posEvr

-- Descriptors and grants, part two
def ready7 : State := { S with tx := [(1, { sendRing with cls := 7 })] }
def cand7 : Cand := { ring := 1, fn := 3, first := 70, seg := 0, len := 104 }
def gateLate : GateList := { entries := [(0xF7, 1000), (0xFF, 2000)], cycle := 3000, base := 0, start := 0 }
def lpiEarly : State := (((S.setMac 0 (fun x => { x with txLpi := true, tw := 2000, lpiCap := true })).setSch 0 (fun x => { x with oper := some gateLate })).reg 0x31000 2).reg 0x30000 2

-- Reception, part two
def rxPauseOn : State := rxOpen.reg 0x40000 0x21

-- Pauses and the watch, part two
def xoffOn : State := [0, 8].foldl (fun (s : State) m => s.reg (0x40000 + 0x100 * m) 0xFF40) (macUp.onHamper (fun h => { h with xoff := [(8, 255), (0, 255)] }))
def pauseOn : State := [0, 8].foldl (fun (s : State) m => s.reg (0x40000 + 0x100 * m) 0x21) (linkState macUp (fun x => { x with link := .up, xoffOn := true }))
def watchMagic : State := [0, 1].foldl (fun (s : State) p => ((s.reg (0x42010 + 0x40 * p) 3).reg (0x42014 + 0x40 * p) 0x03040506).reg (0x42018 + 0x40 * p) 0x0102) watch

-- The Tally
def shot : Snapshot := { set := 0, seq := 7, addr := 0x2000, header := List.replicate 64 0, body := [1, 2], status := 0, upto := 5 }
def snapBusy : State := r.setOf 3 (fun o => { o with snapNow := some shot, snapAddr := 0x40 })
def snapLong : State := (r.fen 67).setOf 3 (fun o => { o with snapAddr := 0x1000, snapLen := 2 ^ 24 - 1 })
def tallyWarm : State := r.onPair (fun p => { p with warm := true })
def skipping : State := r.onTally (fun t => { t with skipEnergy := true })

-- The engine pair
def later (s : State) : State := s.onTime (fun t => { t with jcycle := 50, now := 2 ^ 60, elapsed := 2 ^ 61 })
def badLane : State := r.setLockOf (.toEng .a) (fun l => l.setLane 11 { LaneRx.init with bads := 3 })
def searching : State := r.setLockOf (.toEng .b) (fun l => l.setLane 11 { LaneRx.init with st := .search })
def lane0 : LaneRx := LaneRx.init
def flitEpoch : BitVec 288 := BitVec.ofNat 288 (epochFlit 1 true)
def readEpoch1 : FlitIn := .epoch 1 true
def solo : State := r.setEng .b (fun g => { g with state := .failed })
def requal : State := r.setEng .b (fun g => { g with state := .requalifying })
def warmReady : State := r.onPair (fun p => { p with warm := true, ready := true })
def hand (warm swap drained : Bool) (low : Nat) : Handover :=
  { warm := warm, swap := swap, out := .a, cause := if swap then 6 else 2, x := 3, t0 := 0, fallen := true, lowAt := low, drained := drained }
def hand0 : Handover := hand false false false 42
def hand1 : Handover := hand false true false 43
def hand2 : Handover := hand true true false 42
def hand3 : Handover := hand true false true 42
def overAt (h : Handover) : State := later ((r.setEng .a (fun g => { g with act := false, state := .standby })).onPair (fun p =>
  { p with warm := h.warm, handover := some h, holdAt := some 5 }))
def over0 : State := overAt hand0
def over1 : State := overAt hand1
def over2 : State := overAt hand2
def over3 : State := overAt hand3
def cmp (n : Nat) : CmpFlit := { raw := n, clear := n }
def differing : State := r.onPair (fun p => { p with slotA := [(11, cmp (31 * 2 ^ 19))], slotB := [(11, cmp 1)] })
def diverged (s : State) : State := s.onPair (fun p => { p with diverged := some (5, 2, 7) })
def divergedEarly : State := (diverged r).onTime (fun t => { t with jcycle := 20 })
def divergedLate : State := (diverged granted).onTime (fun t => { t with jcycle := 21, elapsed := 5 })
def verdictHeld : State := later ((S.setSch 0 (fun x => { x with cur := some frameKept })).onPair (fun p => { p with verdict := true, holdAt := some 5 }))
def copyOnWire : State := (granted.setEng .b (fun g => { g with state := .resyncing })).onPair (fun p => { p with resync := some .copy })
def copyPending : State := resyncCopy.onSetup (fun x => { x with pendingSet := some setFine })
def stalled : State := resyncCopy.onPair (fun p => { p with resync := some .stall, holdAt := some 5 })
def heldTx : HeldTx := { op := .doorbell 3 0 true pos76.toNat, stamp := 1 }
def heldFull : State := E2.onPair (fun p => { p with verdict := true, held := List.replicate 8192 heldTx, merge := [heldTx] })

-- The Lookout
def warn (ch : Nat) (test stalled : Bool) : State :=
  r.setChan ch (fun x => { x with state := .warning, test := test, stalled := stalled, warnPc := 5, warns := 3, lastServe := 77 })
def warned4 : State := warn 4 false false
def warned0 : State := warn 0 false false
def warnTest : State := warn 4 true false
def warnOver : State := (warn 1 false false).onTime (fun t => { t with elapsed := 2 ^ 70 })
def pcMax : Word := 0xFFFFFFFF
def chanBad (ch : Nat) : LoChan := { LoChan.init ch with badServe := true }
def chanBad4 : LoChan := chanBad 4
def chanBad0 : LoChan := chanBad 0
def requested (at_ : Nat) (joint : Bool) (ch : Nat) : State :=
  ((warn 0 false false).onTime (fun t => { t with jcycle := 50 })).onLookout (fun l => { l with hold := [(ch, at_, joint)] })
def req1 : Nat × Nat × Bool := (1, 35, false)
def req2 : Nat × Nat × Bool := (0, 34, false)
def req3 : Nat × Nat × Bool := (1, 34, true)
def req4 : Nat × Nat × Bool := (3, 34, true)
def reqNone : List (Nat × Nat × Bool) := []
def jointWarn : State := requested 35 false 1
def holdAlone : State := requested 34 false 0
def holdJointL : State := (requested 34 true 1).setFn 67 (fun q => { q with state := .checking })
def holdJointF : State := requested 34 true 3
def warnWait : Nat × Nat := (3, 35)
def warnDue : Nat × Nat := (3, 34)
def warnNone : List (Nat × Nat) := []
def warnWaits : State := later (r.onLookout (fun l => { l with warnAt := [warnWait] }))
def warnComes : State := later (r.onLookout (fun l => { l with warnAt := [warnDue] }))
def restarting : State := (F .enrolled (fun q => { q with busy := true, goOp := 2, goSeq := 8 })).onLookout (fun l => { l with restart := true })
def ev : Nat × Nat × Nat × Nat × Nat × Nat := (4, 1, 2, 5, 77, 9)
def evNone : List (Nat × Nat × Nat × Nat × Nat × Nat) := []
def evWaits : State := r.onLookout (fun l => { l with evidence := [ev], supRest := true })
def evGoes : State := r.onLookout (fun l => { l with evidence := [ev] })

-- Supply and the cell
def sup (s : State) (f : SupplySt → SupplySt) : State := s.onSupply f
def acLost : State := sup r (fun x => { x with acFail := true, mains := false, graceAt := some 5 })
def acLostOff : State := sup off (fun x => { x with acFail := true, mains := false })
def braced : State := sup r (fun x => { x with braced := true })
def recovering : State := (sup r (fun x => { x with braced := true, recovery := some 5 })).onTime (fun t => { t with elapsed := 5 + 5000 * uUs })
def inReset : State := sup r (fun x => { x with inReset := true })
def actB : State := (r.setEng .b (fun g => { g with state := .active, act := true })).setEng .a (fun g => { g with state := .standby, act := false })
def lowPower : State := sup deep (fun x => { x with lowPower := true })
def cellCc : State := sup r (fun x => { x with cell := .chargingCc })
def cellCv : State := sup r (fun x => { x with cell := .chargingCv })
def cellHold : State := sup r (fun x => { x with cell := .tempHold })
def cellGone : State := sup r (fun x => { x with cell := .absent })

-- The Foreman
def window : List (Nat × Nat × Nat) := [(6, 400, 1000)]
def hot (level cool : Nat) : State := r.onForeman (fun f => { f with level := level, cool := cool })
def hot1 : State := hot 1 98
def hot2 : State := hot 2 99

-- The Tether
def te (s : State) (f : TetherSt → TetherSt) : State := s.onTether f
def claimed (c : ClaimState) : State := te r (fun t => { t with claim := c, station := 5, session := 9 })
def joined : State := ((claimed .joined).setPeer 3 (fun p => { p with known := true, session := 7, serial := 44, present := true, lastAt := 2 ^ 48 - 32767 })).setPeer 5 (fun p => { p with known := true, session := 7 })
def alone : State := (claimed .joined).setPeer 3 (fun p => { p with known := true, session := 7 })
def listening : State := (claimed .listening).reg 0x88000 (3 + 4 * 63)
def full : State := (List.range 64).foldl (fun (s : State) n => s.setPeer n (fun p => { p with present := true })) (claimed .listening)
def claiming : State := (claimed .claiming).setPeer 5 (fun p => { p with present := true })
def backing : State := claimed .backoff
def reference : State := te (claimed .joined) (fun t => { t with timeRef := 5 })
def gone : State := (claimed .joined).setPeer 63 (fun p => { p with present := true, lastAt := 2 ^ 48 - 32768 })
def tf (typ sta seq : Nat) (pl : Bytes) (session stamp : Nat) : TetherFrame :=
  { wire := tetherWire (tetherId typ sta) seq pl (tetherCheck (tetherId typ sta) seq pl session), stamp := stamp }
def ten (serial : Nat) (good : Nat) : Bytes := le 8 serial ++ le 1 7 ++ le 1 good
def fHeart : TetherFrame := tf 3 3 8 (ten 44 1) 7 4
def fStuff : TetherFrame := { wire := List.replicate 30 false, stamp := 4 }
def fForm : TetherFrame := { wire := (tetherWire 0x0445 8 [] 5).dropLast ++ [false], stamp := 4 }
def fNoType : TetherFrame := { wire := tetherWire (3 + 0x7F * 64) 8 [] 5, stamp := 4 }
def fPrio : TetherFrame := { wire := tetherWire (3 + 0x11 * 64 + 2 ^ 13) 8 [] 5, stamp := 4 }
def fCheck : TetherFrame := { wire := tetherWire (tetherId 0x11 3) 8 [] 5, stamp := 4 }
def fWake : TetherFrame := tf 0x11 3 8 [] 7 4
def fMsg : TetherFrame := tf 0x40 3 8 (List.replicate 32 255) 7 (2 ^ 64 - 1)
def fFail : TetherFrame := tf 0x30 3 8 (le 1 7 ++ le 1 9 ++ le 8 5) 7 4
def fSync : TetherFrame := tf 0x20 3 8 [] 7 1000
def fFollow (d : Nat) : TetherFrame := tf 0x21 3 9 (le 8 d ++ le 1 8 ++ le 1 1) 7 2000
def fFollowNear : TetherFrame := fFollow 20001000
def fFollowFar : TetherFrame := fFollow 10
def fPropose : TetherFrame := tf 0x13 3 8 (le 1 4 ++ le 1 1 ++ le 8 0x28) 7 200
def fProposeOther : TetherFrame := tf 0x13 3 8 (le 1 4 ++ le 1 1 ++ le 8 0x8) 7 200
def fAgree : TetherFrame := tf 0x14 3 8 (le 1 4 ++ le 1 5) 7 200
def fRefuse : TetherFrame := tf 0x15 3 8 (le 1 4 ++ le 1 5 ++ le 1 3) 7 200
def fCommit : TetherFrame := tf 0x16 3 8 (le 1 4 ++ le 1 1 ++ le 8 5000) 7 200
def fAbort : TetherFrame := tf 0x12 3 8 (le 1 4 ++ le 1 6) 7 200
def fVeto (p stamp : Nat) : TetherFrame := tf 0x10 3 8 (le 1 4 ++ le 1 p) 7 stamp
def fVetoOurs : TetherFrame := fVeto 5 100
def fVetoEarly : TetherFrame := fVeto 3 4999
def fVetoLate : TetherFrame := fVeto 3 5000
def cHeart : Instr := .heartbeat fHeart
def cStuff : Instr := .wakeAll fStuff
def cForm : Instr := .wakeAll fForm
def cNoType : Instr := .wakeAll fNoType
def cPrio : Instr := .wakeAll fPrio
def cCheck : Instr := .wakeAll fCheck
def cWake : Instr := .wakeAll fWake
def cMis : Instr := .abort fWake
def repeated : State := joined.setPeer 3 (fun p => { p with lastOk := some (2 ^ 48 - 32767), lastId := tetherId 0x11 3, lastSeq := 8 })
def rounds (s : State) (g : GsState) (f : TetherSt → TetherSt) : State :=
  te s (fun t => f { t with gs := g, round := 4, proposer := 3, gsP := 100, gsT := 5000, members := 0x28, agreed := 0, elder := 3, gsMode := 1 })
def ours (g : GsState) (f : TetherSt → TetherSt) : State := rounds joined g (fun t => f { t with proposer := 5, elder := 5 })
def waiting : TxFrame := ownFrame 0x16 []
def heartTx : TxFrame := ownFrame 0x03 []
def allTx : TxFrame := ownFrame 0x11 []
def offering : State := te joined (fun t => { t with queue := [heartTx, allTx] })
def syncTx : TxFrame := { ownFrame 0x20 [] with seq := some 255 }
def msgTx0 : TxFrame := { ownFrame 0x40 [] with seq := some 255, slot := some 7, tries := 2 }
def msgCancel : TxFrame := { msgTx0 with cancel := true }
def msgLast : TxFrame := { msgTx0 with tries := 3 }
def sendingOf (f : TxFrame) : State := te joined (fun t => { t with sending := some f })
def sendingSync : State := sendingOf syncTx
def sendingMsg : State := sendingOf msgTx0
def sendingCancel : State := sendingOf msgCancel
def sendingLast : State := sendingOf msgLast
def slotBusy : State := (te joined (fun t => { t with queue := [{ ownFrame 0x40 [] with slot := some 7 }] })).setSlot 7 (fun x => { x with state := 1 })
def elderFree : State := te joined (fun t => { t with elder := 5 })
def memberAgreed : State := rounds joined .agreed id
def memberCommitted : State := rounds joined .committed id
def oursProposed : State := ours .proposed id
def oursWaits : State := ours .committed (fun t => { t with queue := [waiting] })
def atNs (s : State) (ns : Nat) : State := s.onTime (fun t => { t with now := ns * uNs })
def proposedLate : State := atNs oursProposed 50000100
def waitsLate : State := atNs oursWaits 55000100
def agreedLate : State := atNs memberAgreed 60000100
def committedLate : State := atNs memberCommitted 5000
def committedFenced : State := committedLate.onPair (fun p => { p with fenced := true })
def joinedSleep : State := joined.md .sleep
def fifoFull : State := te joined (fun t => { t with fifo := List.replicate 16 { station := 3, seq := 1, stamp := 1, data := [] } })
def following : State := te joined (fun t => { t with timeRef := 3, syncSeq := some (8, 1000) })
def syncStamp : Nat := 1000

/-- A claim and a heartbeat of station 5, with a serial number. -/
def fOwnClaim (n : Nat) : TetherFrame := tf 1 5 8 ((ten n 1).take 9) 7 4
def fOwnHeart (n : Nat) : TetherFrame := tf 3 5 8 (ten n 1) 7 4

/-- Nothing is known of the sled's own serial number, but one of two numbers is another one. -/
theorem otherSerial : ∃ n ∈ [44, 45], n ≠ Config.serial.toNat := by
  by_cases e : 44 = Config.serial.toNat
  · exact ⟨45, by decide, by omega⟩
  · exact ⟨44, by decide, e⟩

theorem ownClaim (s : State) (h : ∀ n ∈ [44, 45], bits (fOwnClaim n).id.toNat 0 6 = s.tether.station ∧ leAt (fOwnClaim n).payload 0 8 = n ∧
    s.tetherRuns = true ∧ bits (fOwnClaim n).id.toNat 6 7 = 1 ∧ s.rxReject (fOwnClaim n) = none ∧ s.rxRepeat (fOwnClaim n) = false) :
    ∃ n, bits (fOwnClaim n).id.toNat 0 6 = s.tether.station ∧ Accepted 1 (fOwnClaim n) s ∧ leAt (fOwnClaim n).payload 0 8 ≠ Config.serial.toNat := by
  obtain ⟨n, hm, hne⟩ := otherSerial
  exact ⟨n, (h n hm).1, (h n hm).2.2, fun e => hne ((h n hm).2.1.symm.trans e)⟩

theorem ownHeart (s : State) (h : ∀ n ∈ [44, 45], bits (fOwnHeart n).id.toNat 0 6 = s.tether.station ∧ leAt (fOwnHeart n).payload 0 8 = n ∧
    s.tetherRuns = true ∧ bits (fOwnHeart n).id.toNat 6 7 = 3 ∧ s.rxReject (fOwnHeart n) = none ∧ s.rxRepeat (fOwnHeart n) = false) :
    ∃ n, bits (fOwnHeart n).id.toNat 0 6 = s.tether.station ∧ Accepted 3 (fOwnHeart n) s ∧ leAt (fOwnHeart n).payload 0 8 ≠ Config.serial.toNat := by
  obtain ⟨n, hm, hne⟩ := otherSerial
  exact ⟨n, (h n hm).1, (h n hm).2.2, fun e => hne ((h n hm).2.1.symm.trans e)⟩

/-- Where a read waits with each of the 768 tags of a link, none is free. -/
theorem noFreeTag (s : State) (l : Nat) (h : s.host.reads = allTags l) : s.freeTag l = none := by
  unfold allTags at h
  simp only [State.freeTag, h, List.find?_eq_none, List.mem_map, List.mem_range]
  rintro _ ⟨t, ht, rfl⟩ hc
  have := List.all_eq_true.mp hc (tagged l t) (List.mem_map.mpr ⟨t, List.mem_range.mpr ht, rfl⟩)
  simp [tagged] at this

/-! ### The witnesses -/

theorem wit_IdleStepIsOneJCycle :
    (∃ (s : State), s.pending = [] ∧ s.time.due = [] ∧ -2684354 ≤ s.time.rate ∧ s.time.rate ≤ 2684354 ∧ s.coreRuns = true) ∧
    (∃ (s : State), s.pending = [] ∧ s.time.due = [] ∧ -2684354 ≤ s.time.rate ∧ s.time.rate ≤ 2684354 ∧ s.coreRuns = false) ∧
    (∃ (s : State), s.pending = [] ∧ s.time.due = [] ∧ -2684354 ≤ s.time.rate ∧ s.time.rate ≤ 2684354 ∧ s.power.mode = PwrMode.off) ∧
    (∃ (s : State), s.pending = [] ∧ s.time.due = [] ∧ -2684354 ≤ s.time.rate ∧ s.time.rate ≤ 2684354 ∧ s.power.mode ≠ PwrMode.off ∧
      s.rtc.count < 2 ^ 48 ∧ s.rtc.phase < 390625) :=
  ⟨⟨r, by decide +kernel⟩,
    ⟨deep, by decide +kernel⟩,
    ⟨off, by decide +kernel⟩,
    ⟨r, by decide +kernel⟩⟩

theorem wit_CountersWrapModulo48Bits :
    ∃ (c : Ctr) (cls : ℕ) (obj : ℕ), cls < 8 ∧ obj < 4096 ∧ c.code ≠ Ctr.evrLost.code :=
  ⟨.txFrames, 0, 0, by decide +kernel⟩

theorem wit_LogbookMemoryReadsBackWhatIsStored :
    ∃ (m : List Host.Cell), Memory.wf m = true :=
  ⟨cells, by decide +kernel⟩

theorem wit_SetupLockDiscardsWritesOfKFields :
    (∃ (s : State), s.noPartner = false ∧ s.setup.lock = false) ∧
    (∃ (s : State) (of : Fin 4) (off : ℕ) (r : RegRow) (ix : List ℕ) (key : ℕ), s.noPartner = false ∧ off % 4 = 0 ∧ regAt off = some (r,
      ix) ∧ stagedMask r ≠ 0 ∧ s.setupKey (↑of) off = some key ∧ (s.setup.lock = false ∨ lockedMask r = 0)) ∧
    (∃ (s : State) (of : Fin 4) (off : ℕ) (r : RegRow) (ix : List ℕ) (key : ℕ), s.noPartner = false ∧ off % 4 = 0 ∧ regAt off = some (r,
      ix) ∧ stagedMask r ≠ 0 ∧ s.setupKey (↑of) off = some key ∧ s.setup.lock = true ∧ lockedMask r ≠ 0) ∧
    (∃ (s : State) (off : ℕ) (r : RegRow) (ix : List ℕ), s.noPartner = false ∧ off % 4 = 0 ∧ regAt off = some (r, ix) ∧ stagedMask r = 0) :=
  ⟨⟨r, by decide +kernel⟩,
    ⟨r, 3, 8192, row2000, [], 8192, by decide +kernel⟩,
    ⟨locked, 3, 8192, row2000, [], 8192, by decide +kernel⟩,
    ⟨r, 327696, row50010, [0], by decide +kernel⟩⟩

theorem wit_DiscardReturnsNothingToStaging :
    (∃ (s : State), s.noPartner = false) ∧
    (∃ (s : State) (p : SealedSet), s.setup.pendingSet = some p ∧ s.setup.queuedSet = none ∧ s.transition = false ∧ p.discarded = true ∧
      s.setFault p ≠ none) :=
  ⟨⟨r, by decide +kernel⟩,
    ⟨pendGone, setGone, by decide +kernel⟩⟩

theorem wit_CommitSealsTheStagedWrites :
    (∃ (s : State), s.noPartner = false ∧ s.setup.pendingSet = none) ∧
    (∃ (s : State), s.noPartner = false ∧ s.setup.pendingSet ≠ none ∧ s.setup.queuedSet = none) ∧
    (∃ (s : State), s.noPartner = false ∧ s.setup.pendingSet ≠ none ∧ s.setup.queuedSet ≠ none) :=
  ⟨⟨r, by decide +kernel⟩,
    ⟨pendGood, by decide +kernel⟩,
    ⟨pendTwo, by decide +kernel⟩⟩

theorem wit_CommitIsAllOrNothing_a :
    (∃ (s : State), (s.setup.pendingSet = none ∨ s.transition = true)) ∧
    (∃ (s : State) (p : SealedSet), s.setup.pendingSet = some p ∧ s.setup.queuedSet = none ∧ s.transition = false ∧ s.setFault p = none) ∧
    (∃ (l : List (ℕ × StagedW)), (List.map Prod.fst l).Nodup) ∧
    (∃ (s : State) (p : SealedSet) (off : ℕ) (why : ℕ), s.setup.pendingSet = some p ∧ s.setup.queuedSet = none ∧ s.transition = false ∧
      s.setFault p = some (off, why) ∧ p.discarded = false ∧ (List.map Prod.fst p.words).Nodup) ∧
    (∃ (s : State) (p : SealedSet) (q : SealedSet), s.setup.pendingSet = some p ∧ s.setup.queuedSet = some q ∧ s.transition = false) ∧
    (∃ (s : State) (p : SealedSet) (o : ℕ) (e : ℕ × StagedW), s.setFault p = some (o, 1) ∧ e ∈ p.words ∧ wordBad (s.withSet p) e = true) :=
  ⟨⟨r, by decide +kernel⟩,
    ⟨pendGood, setFine, by decide +kernel⟩,
    ⟨stagedWords, by decide +kernel⟩,
    ⟨pendBad, setBad, 0x70004, 1, by decide +kernel⟩,
    ⟨pendTwo, setFine, setBad, by decide +kernel⟩,
    ⟨r, setBad, 0x70004, wordBad4, by decide +kernel⟩⟩

theorem wit_CommitIsAllOrNothing_b :
    (∃ (s : State) (p : SealedSet) (o : ℕ) (e : ℕ × StagedW), s.setFault p = some (o, 2) ∧ e ∈ p.words) ∧
    (∃ (s : State) (p : SealedSet) (o : ℕ) (x : ℕ), s.setFault p = some (o, 2) ∧ x ∈ s.comboHits (s.withSet p) p.words) :=
  ⟨⟨r, setCombo, 0x10100, wordCombo, by decide +kernel⟩,
    ⟨r, setCombo, 0x10100, 0x10100, by decide +kernel⟩⟩

theorem wit_RegisterAccessesBySizeAndView_a :
    (∃ (off : ℕ), (40 ≤ off ∧ off < 64 ∨ 96 ≤ off ∧ off < 4096 ∨ 4864 ≤ off ∧ off < 12288 ∨ 12416 ≤ off ∧ off < 14336 ∨ 14340 ≤ off)) ∧
    (∃ (s : State), s.noPartner = true) ∧
    (∃ (s : State) (off : ℕ) (size : ℕ), s.noPartner = false ∧ ¬(size = 4 ∧ off % 4 = 0) ∧ ¬(size = 8 ∧ off % 8 = 0)) ∧
    (∃ (s : State) (off : ℕ), s.noPartner = false ∧ regAt off = none) ∧
    (∃ (s : State) (off : ℕ), s.noPartner = false ∧ off % 8 = 0) ∧
    (∃ (s : State) (off : ℕ), s.noPartner = false ∧ 32 ≤ off) :=
  ⟨⟨100, by decide +kernel⟩,
    ⟨deep, by decide +kernel⟩,
    ⟨r, 0, 0, by decide +kernel⟩,
    ⟨r, 1, by decide +kernel⟩,
    ⟨r, 0, by decide +kernel⟩,
    ⟨r, 64, by decide +kernel⟩⟩

theorem wit_RegisterAccessesBySizeAndView_b :
    ∃ (s : State) (n : ℕ) (off : ℕ) (r : RegRow) (ix : List ℕ) (key : ℕ), off % 4 = 0 ∧ regAt off = some (r, ix) ∧ stagedMask r = 2 ^ 32 -
      1 ∧ s.setupKey n off = some key :=
  ⟨r, 0, 20488, row5008, [0], 20488, by decide +kernel⟩

theorem wit_LiveRegistersTakeTheirWriteAtOnce_a :
    (∃ (s : State) (i : ℕ), s.noPartner = false ∧ i < 3) ∧
    (∃ (s : State) (i : ℕ), s.noPartner = false ∧ i < 2) ∧
    (∃ (s : State) (i : ℕ), s.noPartner = false ∧ i < 6 ∧ s.supply.rails < 2 ^ 6) ∧
    (∃ (s : State) (i : ℕ) (j : ℕ) (k : ℕ), s.noPartner = false ∧ i < 8 ∧ j < 8 ∧ k ≠ i) ∧
    (∃ (s : State) (i : ℕ), s.noPartner = false ∧ s.partnerHeld [5] = true ∧ i < 10) ∧
    (∃ (s : State) (ch : ℕ) (c : ℕ), s.noPartner = false ∧ s.partnerHeld [5] = false ∧ ch < 5 ∧ c ≠ ch) :=
  ⟨⟨r, 0, by decide +kernel⟩,
    ⟨r, 0, by decide +kernel⟩,
    ⟨r, 0, by decide +kernel⟩,
    ⟨r, 0, 0, 1, by decide +kernel⟩,
    ⟨parked, 0, by decide +kernel⟩,
    ⟨r, 0, 1, by decide +kernel⟩⟩

theorem wit_LiveRegistersTakeTheirWriteAtOnce_b :
    (∃ (s : State) (i : ℕ), s.noPartner = false ∧ s.partnerHeld [5] = false ∧ i < 10) ∧
    (∃ (s : State) (i : ℕ), s.noPartner = false ∧ s.partnerHeld [5] = false ∧ i < 8) ∧
    (∃ (s : State) (i : ℕ), i < 8 ∧ s.noPartner = false ∧ s.partnerHeld [2, 5] = false) ∧
    (∃ (s : State) (i : ℕ), i < 8 ∧ s.noPartner = false ∧ s.partnerHeld [2, 5] = true) :=
  ⟨⟨r, 0, by decide +kernel⟩,
    ⟨r, 0, by decide +kernel⟩,
    ⟨r, 0, by decide +kernel⟩,
    ⟨parked, 0, by decide +kernel⟩⟩

theorem wit_Time64IsNanosecondsModulo64Bits :
    ∃ (u : ℕ), u < 2 ^ 48 * uSec :=
  ⟨0, by decide +kernel⟩

theorem wit_TimeNowIsLatchedForEachOf :
    ∃ (s : State), s.noPartner = false :=
  ⟨r, by decide +kernel⟩

theorem wit_RatesAreTakenAndHeldOver :
    (∃ (s : State) (src : BitVec 2), s.noPartner = false ∧ Timely s ∧ Admits src s ∧ -2684354 ≤ s.rateOperand ∧ s.rateOperand ≤ 2684354) ∧
    (∃ (s : State) (x : ℤ), s.pending = [] ∧ s.coreRuns = true ∧ s.time.due = [(1, x)]) ∧
    (∃ (s : State), s.time.current ≠ none ∧ s.time.source ≠ TimeSource.holdover) ∧
    (∃ (s : State), s.time.current ≠ none ∧ s.time.source = TimeSource.holdover) ∧
    (∃ (s : State), s.time.current = none) :=
  ⟨⟨r, 0x1#2, by unfold Timely Admits; decide +kernel⟩,
    ⟨dueRate, 2684354, by decide +kernel⟩,
    ⟨byPtp, by decide +kernel⟩,
    ⟨heldOver, by decide +kernel⟩,
    ⟨r, by decide +kernel⟩⟩

theorem wit_StepAndSetMoveDeviceTimeAtOnce :
    (∃ (s : State) (src : BitVec 2), s.noPartner = false ∧ Timely s ∧ Admits src s ∧ 0 ≤ (s.time.now : Int) + s.increment + s.stepOperand
      * 2 ^ 16) ∧
    (∃ (s : State) (src : BitVec 2), s.noPartner = false ∧ Timely s ∧ Admits src s ∧ bits s.setOperand 16 32 ≤ 999999999) ∧
    (∃ (s : State) (x : ℤ), s.pending = [] ∧ s.coreRuns = true ∧ s.time.due = [(2, x)] ∧ 0 ≤ (s.time.now : Int) + s.increment + x * 2 ^
      16) ∧
    (∃ (s : State) (x : ℕ), s.pending = [] ∧ s.coreRuns = true ∧ s.time.due = [(3, ↑x)]) :=
  ⟨⟨r, 0x1#2, by unfold Timely Admits; decide +kernel⟩,
    ⟨r, 0x1#2, by unfold Timely Admits; decide +kernel⟩,
    ⟨dueStep, -1, by decide +kernel⟩,
    ⟨dueSet, 5, by decide +kernel⟩⟩

theorem wit_RefusedAdjustmentsAreCountedAndReported_a :
    (∃ (s : State) (src : BitVec 2), s.noPartner = false ∧ Timely s ∧ s.adjustReason (ctrlSource src) 1 s.rateOperand ≠ 0) ∧
    (∃ (s : State) (src : BitVec 2), s.noPartner = false ∧ Timely s ∧ s.adjustReason (ctrlSource src) 2 s.stepOperand ≠ 0) ∧
    (∃ (s : State) (src : BitVec 2), s.noPartner = false ∧ Timely s ∧ s.adjustReason (ctrlSource src) 3 ↑s.setOperand ≠ 0) ∧
    (∃ (s : State), s.timeSrcEnPtp = 0) ∧
    (∃ (s : State), s.timeSrcEnPtm = 0) ∧
    (∃ (s : State), s.timeSrcEnTether = 0) :=
  ⟨⟨r, 0x0#2, by unfold Timely; decide +kernel⟩,
    ⟨r, 0x0#2, by unfold Timely; decide +kernel⟩,
    ⟨r, 0x0#2, by unfold Timely; decide +kernel⟩,
    ⟨noSource, by decide +kernel⟩,
    ⟨noSource, by decide +kernel⟩,
    ⟨noSource, by decide +kernel⟩⟩

theorem wit_RefusedAdjustmentsAreCountedAndReported_b :
    (∃ (s : State) (code : ℕ), 1 ≤ code ∧ code < 4 ∧ s.srcEnabled code = true ∧ s.time.current.isSome = true ∧ s.time.curSrc < code) ∧
    (∃ (x : ℤ), (x < -2684354 ∨ 2684354 < x)) ∧
    (∃ (x : ℤ), 0 ≤ x ∧ 999999999 < bits x.toNat 16 32) ∧
    (∃ (s : State) (x : ℤ), (s.time.now : Int) + s.increment + x * 2 ^ 16 < 0) :=
  ⟨⟨byPtp, 2, by decide +kernel⟩,
    ⟨2684355, by decide +kernel⟩,
    ⟨65536000000000, by decide +kernel⟩,
    ⟨r, -2684355, by decide +kernel⟩⟩

theorem wit_RtcCountsAlarmsAndPairs :
    (∃ (s : State), s.noPartner = false) ∧
    (∃ (s : State), s.rtc.armed = true ∧ s.rtc.alarmEn = true ∧ s.power.mode ≠ PwrMode.off ∧ bit s.wakeEnEn 0 = false) ∧
    (∃ (s : State), s.rtc.armed = true ∧ s.rtc.alarmEn = true ∧ s.power.mode ≠ PwrMode.off ∧ bit s.wakeEnEn 0 = true ∧ (s.power.mode =
      PwrMode.sleep ∨ s.power.mode = PwrMode.deepSleep)) ∧
    (∃ (s : State), (s.rtc.armed = false ∨ s.rtc.alarmEn = false ∨ s.power.mode = PwrMode.off)) ∧
    (∃ (s : State), s.coreRuns = true) :=
  ⟨⟨r, by decide +kernel⟩,
    ⟨alarmed, by decide +kernel⟩,
    ⟨alarmSleep, by decide +kernel⟩,
    ⟨r, by decide +kernel⟩,
    ⟨r, by decide +kernel⟩⟩

theorem wit_WakesAreTakenByTheModeTheyMeet_a :
    (∃ (s : State), (s.power.mode = PwrMode.sleep ∨ s.power.mode = PwrMode.deepSleep)) ∧
    (∃ (s : State) (m : PwrMode), s.power.mode = PwrMode.entering ∧ s.power.target = some m ∧ (m = PwrMode.sleep ∨ m = PwrMode.deepSleep ∨
      m = PwrMode.off) ∧ s.power.latched = none) ∧
    (∃ (s : State), (s.power.mode = PwrMode.run ∨ s.power.mode = PwrMode.idle)) ∧
    (∃ (s : State), s.power.mode = PwrMode.off ∧ s.supply.mains = false ∧ s.supply.latchOk = true) ∧
    (∃ (s : State) (n : Fin 8), (s.link ↑n).up = true ∧ s.power.mode = PwrMode.sleep ∧ bit s.wakeEnEn 2 = true) ∧
    (∃ (s : State) (n : Fin 8), (s.link ↑n).up = true ∧ s.power.mode = PwrMode.sleep ∧ bit s.wakeEnEn 2 = false) :=
  ⟨⟨sleep, by decide +kernel⟩,
    ⟨toSleep, .sleep, by decide +kernel⟩,
    ⟨r, by decide +kernel⟩,
    ⟨offDark, by decide +kernel⟩,
    ⟨wakeLink, 7, by decide +kernel⟩,
    ⟨noWake, 7, by decide +kernel⟩⟩

theorem wit_WakesAreTakenByTheModeTheyMeet_b :
    (∃ (s : State), s.power.mode = PwrMode.run) ∧
    (∃ (s : State), s.power.mode = PwrMode.idle) ∧
    (∃ (s : State) (c : Instr) (f : ℕ), partnerOf c = some f ∧ s.noPartner = true ∧ c ≠ Instr.pwrCmdSleep ∧ (∀ (h : ℤ), c ≠
      Instr.pwrCmdDeepSleep h) ∧ c ≠ Instr.pwrCmdOff ∧ (∀ (k : BitVec 16) (x : SelfTest), c ≠ Instr.sledReset k x)) :=
  ⟨⟨r, by decide +kernel⟩,
    ⟨idle, by decide +kernel⟩,
    ⟨deep, (.query 67 1 reqQuery), 67, rfl, by decide +kernel, nofun, nofun, nofun, nofun⟩⟩

theorem wit_EntryCommandsBeginOrAreRefused_a :
    (∃ (s : State) (c : Instr) (m : PwrMode) (k : ℕ), (c = Instr.pwrCmdSleep ∧ m = PwrMode.sleep ∧ k = 1 ∨ c = Instr.pwrCmdOff ∧ m =
      PwrMode.off ∧ k = 3) ∧ (s.power.mode = PwrMode.run ∨ s.power.mode = PwrMode.idle) ∧ s.power.pendCmd = none ∧ s.pair.fenced = false ∧
      (s.power.domain = false ∨ m = PwrMode.off) ∧ s.transition = false) ∧
    (∃ (s : State) (c : Instr) (m : PwrMode) (k : ℕ), (c = Instr.pwrCmdSleep ∧ m = PwrMode.sleep ∧ k = 1 ∨ c = Instr.pwrCmdOff ∧ m =
      PwrMode.off ∧ k = 3) ∧ (s.power.mode = PwrMode.run ∨ s.power.mode = PwrMode.idle) ∧ s.power.pendCmd = none ∧ s.pair.fenced = false ∧
      (s.power.domain = false ∨ m = PwrMode.off) ∧ s.transition = true) ∧
    (∃ (s : State) (h : ℤ), (s.power.mode = PwrMode.run ∨ s.power.mode = PwrMode.idle) ∧ s.power.pendCmd = none ∧ s.pair.fenced = false ∧
      s.power.domain = false ∧ s.transition = false ∧ s.aoEstimate h ≤ s.aoBudgetUa) ∧
    (∃ (s : State) (h : ℤ), (s.power.mode = PwrMode.run ∨ s.power.mode = PwrMode.idle) ∧ s.power.pendCmd = none ∧ s.pair.fenced = false ∧
      s.power.domain = false ∧ s.transition = false ∧ s.aoBudgetUa < s.aoEstimate h) ∧
    (∃ (s : State) (c : Instr) (m : PwrMode) (k : ℕ), (c = Instr.pwrCmdSleep ∧ m = PwrMode.sleep ∧ k = 1 ∨ (∃ h, c = Instr.pwrCmdDeepSleep
      h) ∧ m = PwrMode.deepSleep ∧ k = 2 ∨ c = Instr.pwrCmdOff ∧ m = PwrMode.off ∧ k = 3) ∧ (s.power.mode = PwrMode.entering ∨
      s.power.mode = PwrMode.sleep ∨ s.power.mode = PwrMode.deepSleep ∨ s.power.mode = PwrMode.exiting ∨ (s.power.mode = PwrMode.run ∨
      s.power.mode = PwrMode.idle) ∧ s.power.pendCmd ≠ none)) ∧
    (∃ (s : State) (c : Instr) (m : PwrMode) (k : ℕ), (c = Instr.pwrCmdSleep ∧ m = PwrMode.sleep ∧ k = 1 ∨ (∃ h, c = Instr.pwrCmdDeepSleep
      h) ∧ m = PwrMode.deepSleep ∧ k = 2 ∨ c = Instr.pwrCmdOff ∧ m = PwrMode.off ∧ k = 3) ∧ (s.power.mode = PwrMode.run ∨ s.power.mode =
      PwrMode.idle) ∧ s.power.pendCmd = none ∧ s.pair.fenced = true) :=
  ⟨⟨r, .pwrCmdSleep, .sleep, 1, by decide +kernel⟩,
    ⟨parkedHostEvicting, .pwrCmdSleep, .sleep, 1, by decide +kernel⟩,
    ⟨r, 0, by decide +kernel⟩,
    ⟨r, 95, by decide +kernel⟩,
    ⟨sleep, .pwrCmdSleep, .sleep, 1, .inl ⟨rfl, rfl, rfl⟩, by decide +kernel⟩,
    ⟨fenced, .pwrCmdSleep, .sleep, 1, .inl ⟨rfl, rfl, rfl⟩, by decide +kernel⟩⟩

theorem wit_EntryCommandsBeginOrAreRefused_b :
    (∃ (s : State) (c : Instr) (m : PwrMode) (k : ℕ), (c = Instr.pwrCmdSleep ∧ m = PwrMode.sleep ∧ k = 1 ∨ (∃ h, c = Instr.pwrCmdDeepSleep
      h) ∧ m = PwrMode.deepSleep ∧ k = 2 ∨ c = Instr.pwrCmdOff ∧ m = PwrMode.off ∧ k = 3) ∧ (s.power.mode = PwrMode.run ∨ s.power.mode =
      PwrMode.idle) ∧ s.power.pendCmd = none ∧ s.pair.fenced = false ∧ s.power.domain = true ∧ m ≠ PwrMode.off) ∧
    (∃ (s : State) (c : Instr) (m : PwrMode) (k : ℕ), (c = Instr.pwrCmdSleep ∧ m = PwrMode.sleep ∧ k = 1 ∨ (∃ h, c = Instr.pwrCmdDeepSleep
      h) ∧ m = PwrMode.deepSleep ∧ k = 2 ∨ c = Instr.pwrCmdOff ∧ m = PwrMode.off ∧ k = 3) ∧ s.power.mode = PwrMode.off) :=
  ⟨⟨domain, .pwrCmdSleep, .sleep, 1, .inl ⟨rfl, rfl, rfl⟩, by decide +kernel⟩,
    ⟨off, .pwrCmdSleep, .sleep, 1, .inl ⟨rfl, rfl, rfl⟩, by decide +kernel⟩⟩

theorem wit_EntriesEndInTheirModeOrReplayTheWake_a :
    (∃ (s : State) (m : PwrMode), s.power.mode = PwrMode.entering ∧ s.power.target = some m ∧ (m = PwrMode.sleep ∨ m = PwrMode.deepSleep ∨
      m = PwrMode.off) ∧ s.transition = false ∧ (s.power.latched = none ∨ m = PwrMode.off)) ∧
    (∃ (s : State) (m : PwrMode) (w : Wake), s.power.mode = PwrMode.entering ∧ s.power.target = some m ∧ (m = PwrMode.sleep ∨ m =
      PwrMode.deepSleep ∨ m = PwrMode.off) ∧ s.transition = false ∧ s.power.latched = some w ∧ m ≠ PwrMode.off) ∧
    (∃ (s : State) (m : PwrMode) (i : ℕ), s.power.mode = PwrMode.entering ∧ s.power.target = some m ∧ (m = PwrMode.sleep ∨ m =
      PwrMode.deepSleep ∨ m = PwrMode.off) ∧ s.transition = false ∧ m = PwrMode.off ∧ i < 20) ∧
    (∃ (s : State) (m : PwrMode), s.power.mode = PwrMode.entering ∧ s.power.target = some m ∧ (m = PwrMode.sleep ∨ m = PwrMode.deepSleep ∨
      m = PwrMode.off) ∧ s.transition = false ∧ m = PwrMode.deepSleep) ∧
    (∃ (s : State) (m : PwrMode) (i : ℕ), s.power.mode = PwrMode.entering ∧ s.power.target = some m ∧ (m = PwrMode.sleep ∨ m =
      PwrMode.deepSleep ∨ m = PwrMode.off) ∧ s.transition = false ∧ m = PwrMode.sleep ∧ i < 14) ∧
    (∃ (s : State) (w : ℕ × ℕ), s.power.mode = PwrMode.run ∧ s.power.domain = false ∧ s.pwrCtrlIdleEn = 1 ∧ s.transition = false ∧
      s.pair.fenced = false ∧ s.idleOk = true ∧ s.power.idleSince = some w ∧ w.1 + w.2 ≤ s.time.elapsed) :=
  ⟨⟨toSleep, .sleep, by decide +kernel⟩,
    ⟨toSleepWoken, .sleep, wk, by decide +kernel⟩,
    ⟨toOff, .off, 0, by decide +kernel⟩,
    ⟨toDeep, .deepSleep, by decide +kernel⟩,
    ⟨toSleep, .sleep, 0, by decide +kernel⟩,
    ⟨idleDue, held1, by decide +kernel⟩⟩

theorem wit_EntriesEndInTheirModeOrReplayTheWake_b :
    ∃ (s : State) (w : ℕ × ℕ), s.power.mode = PwrMode.run ∧ s.power.domain = false ∧ s.pwrCtrlIdleEn = 1 ∧ s.transition = false ∧
      s.pair.fenced = false ∧ s.idleOk = true ∧ s.power.idleSince = some w ∧ s.time.elapsed < w.1 + w.2 :=
  ⟨idleSoon, held2, by decide +kernel⟩

theorem wit_TheReadyChainEndsInRun_a :
    (∃ (s : State), s.power.mode = PwrMode.exiting ∧ s.power.stage < 3 ∧ s.supply.inReset = false ∧ s.log.bootRom = false) ∧
    (∃ (s : State) (i : ℕ), s.power.mode = PwrMode.exiting ∧ s.power.stage = 3 ∧ s.supply.inReset = false ∧ s.log.bootRom = false ∧
      s.pair.warm = false ∧ i < 20) ∧
    (∃ (s : State), s.power.mode = PwrMode.exiting ∧ s.power.stage = 3 ∧ s.supply.inReset = false ∧ s.log.bootRom = false ∧
      s.power.exitFrom = PwrMode.deepSleep) ∧
    (∃ (s : State), s.power.mode = PwrMode.exiting ∧ s.power.stage = 3 ∧ s.supply.inReset = false ∧ s.log.bootRom = false ∧
      s.power.exitFrom ≠ PwrMode.deepSleep) ∧
    (∃ (s : State), s.power.mode = PwrMode.exiting ∧ s.power.stage < 4 ∧ s.supply.inReset = false ∧ s.log.bootRom = false ∧ s.power.retry
      < 2) ∧
    (∃ (s : State) (test : SelfTest), s.power.mode = PwrMode.exiting ∧ s.power.stage < 4 ∧ s.supply.inReset = false ∧ s.log.bootRom =
      false ∧ 2 ≤ s.power.retry ∧ Bootable test s) :=
  ⟨⟨exit0, by decide +kernel⟩,
    ⟨exitDeep, 0, by decide +kernel⟩,
    ⟨exitDeep, by decide +kernel⟩,
    ⟨exitSleep, by decide +kernel⟩,
    ⟨exit0, by decide +kernel⟩,
    ⟨exitSleep, ⟨true, true⟩, by unfold Bootable; decide +kernel⟩⟩

theorem wit_TheReadyChainEndsInRun_b :
    ∃ (s : State), s.power.mode = PwrMode.exiting ∧ s.power.stage = 4 :=
  ⟨exitDone, by decide +kernel⟩

theorem wit_DvfsMovesVoltageBeforeFrequencyGoingUp_a :
    (∃ (s : State) (mhz : ℕ) (mv : ℕ), (s.power.mode = PwrMode.run ∨ s.power.mode = PwrMode.idle ∨ s.power.mode = PwrMode.entering) ∧ (∀ r
      < 4, ¬(rowMhz r = mhz ∧ rowMv r = mv))) ∧
    (∃ (s : State) (r : ℕ), (s.power.mode = PwrMode.run ∨ s.power.mode = PwrMode.idle ∨ s.power.mode = PwrMode.entering) ∧ r < 4 ∧
      s.envRow ≤ r ∧ s.power.newPoint = none ∧ r < s.power.point) ∧
    (∃ (s : State) (r : ℕ) (i : ℕ), (s.power.mode = PwrMode.run ∨ s.power.mode = PwrMode.idle ∨ s.power.mode = PwrMode.entering) ∧ r < 4 ∧
      s.envRow ≤ r ∧ s.power.newPoint = none ∧ s.power.point < r ∧ i ∈ freqIslands ∧ s.ignoredIsland i = false) ∧
    (∃ (s : State) (r : ℕ) (i : ℕ), (s.power.mode = PwrMode.run ∨ s.power.mode = PwrMode.idle ∨ s.power.mode = PwrMode.entering) ∧ r < 4 ∧
      s.envRow ≤ r ∧ s.power.newPoint = none ∧ s.power.point < r ∧ i ∉ freqIslands) ∧
    (∃ (s : State) (r : ℕ) (i : ℕ), s.power.newPoint = some r ∧ s.power.queued = none ∧ i ∉ List.map (fun e => e.1) s.power.stepIsl) ∧
    (∃ (s : State), s.power.newPoint ≠ none ∧ s.power.queued = none) :=
  ⟨⟨r, 0, 0, by decide +kernel⟩,
    ⟨dvfsLow, 0, by decide +kernel⟩,
    ⟨r, 1, 0, by decide +kernel⟩,
    ⟨r, 1, 6, by decide +kernel⟩,
    ⟨dvfsBusy, 2, 1, by decide +kernel⟩,
    ⟨dvfsBusy, by decide +kernel⟩⟩

theorem wit_DvfsMovesVoltageBeforeFrequencyGoingUp_b :
    ∃ (s : State) (i : Fin 20) (k : ℕ), s.power.domain = true ∧ (s.island ↑i).state = IslState.retention ∧ Settled s ∧ s.pair.holdAt =
      none ∧ k ≠ ↑i :=
  ⟨parked, 5, 0, by unfold Settled; decide +kernel⟩

theorem wit_SledResetsClearSetupAndRings :
    (∃ (s : State) (test : SelfTest), Bootable test s ∧ s.power.mode ≠ PwrMode.off ∧ s.power.mode ≠ PwrMode.deepSleep) ∧
    (∃ (s : State) (key : BitVec 16), key ≠ 23100 ∧ s.power.mode ≠ PwrMode.off ∧ s.power.mode ≠ PwrMode.deepSleep) ∧
    (∃ (s : State), (s.power.mode = PwrMode.off ∨ s.power.mode = PwrMode.deepSleep)) :=
  ⟨⟨r, ⟨true, true⟩, by unfold Bootable; decide +kernel⟩,
    ⟨r, 0x0#16, by decide +kernel⟩,
    ⟨deep, by decide +kernel⟩⟩

theorem wit_ColdStartsRestoreTimeAndReportTheCause :
    (∃ (s : State) (how : StartBy) (test : SelfTest), s.canStart how = true ∧ Bootable test s ∧ how = StartBy.wakePin) ∧
    (∃ (s : State) (how : StartBy) (test : SelfTest), s.canStart how = true ∧ Bootable test s ∧ how = StartBy.mainsReturn) ∧
    (∃ (s : State), s.log.stage = 4 ∧ s.log.ready = false) :=
  ⟨⟨off, .wakePin, ⟨true, true⟩, by unfold Bootable; decide +kernel⟩,
    ⟨restart, .mainsReturn, ⟨true, true⟩, by unfold Bootable; decide +kernel⟩,
    ⟨stage4, by decide +kernel⟩⟩

theorem wit_FirmwareIsStagedVerifiedThenActivated :
    (∃ (s : State), s.noPartner = false ∧ s.setup.lock = true) ∧
    (∃ (s : State) (n : Fin 4) (tag : ℕ), s.noPartner = false ∧ s.setup.lock = false ∧ s.log.fwState ≠ 1 ∧ (s.of ↑n).fwLen ≤ 16777216 ∧
      s.fenceOk (64 + ↑n) (s.of ↑n).fwAddr (s.of ↑n).fwLen = true ∧ s.freeTag (s.fnLink (64 + ↑n)) = some tag ∧ s.host.asks = []) ∧
    (∃ (s : State), s.log.fwState = 1) ∧
    (∃ (s : State), s.noPartner = false ∧ s.setup.lock = false ∧ s.log.fwState = 2) :=
  ⟨⟨locked, by decide +kernel⟩,
    ⟨fwFenced, 3, 6144, by decide +kernel⟩,
    ⟨staging, by decide +kernel⟩,
    ⟨verified, by decide +kernel⟩⟩

theorem wit_ImageSavesAlternateBetweenTheCopies_a :
    (∃ (s : State), s.noPartner = false ∧ s.log.saving = none) ∧
    (∃ (s : State), s.newestCopy ≠ 0) ∧
    (∃ (s : State), s.noPartner = false ∧ s.log.saving ≠ none) ∧
    (∃ (s : State) (x : SaveJob), s.log.saving = some x ∧ s.supply.braced = false ∧ s.lookout.supRest = false ∧ s.log.badRows = [] ∧
      s.log.wornRows = []) ∧
    (∃ (s : State) (row : Fin 32768), s.supRuns = true ∧ ↑row < 16384) ∧
    (∃ (s : State) (row : Fin 32768) (a : ℕ), s.supRuns = true ∧ s.rowAlive ↑row = some a ∧ s.rowChecks (↑row) a = false) :=
  ⟨⟨r, by decide +kernel⟩,
    ⟨imageA, by decide +kernel⟩,
    ⟨saving, by decide +kernel⟩,
    ⟨saving, save, by decide +kernel⟩,
    ⟨r, 0, by decide +kernel⟩,
    ⟨rowTorn, 32767, 0, by decide +kernel⟩⟩

theorem wit_ImageSavesAlternateBetweenTheCopies_b :
    (∃ (s : State) (row : Fin 32768), s.supRuns = true ∧ (∀ (a : ℕ), s.rowAlive ↑row = some a → s.rowChecks (↑row) a = true)) ∧
    (∃ (s : State), s.supRuns = true ∧ s.coreRuns = true ∧ s.supply.braced = false ∧ s.log.badRows = [] ∧ (s.region 4).head < regionRows
      4) :=
  ⟨⟨r, 32767, by decide +kernel⟩,
    ⟨r, by decide +kernel⟩⟩

theorem wit_TheAlertAndTheSmbusTargetReportTheSled_a :
    (∃ (s : State) (key : BitVec 16), s.noPartner = false ∧ key ≠ 32343) ∧
    (∃ (s : State), s.power.mode ≠ PwrMode.off ∧ s.lookout.supRest = false ∧ s.log.bootRom = false ∧ s.alertOut = true) ∧
    (∃ (s : State), s.power.mode ≠ PwrMode.off ∧ s.lookout.supRest = false ∧ s.log.bootRom = false ∧ s.alertOut = false) ∧
    (∃ (s : State), s.pair.levels = none ∧ s.power.mode ≠ PwrMode.deepSleep ∧ s.power.mode ≠ PwrMode.off ∧ s.power.mode = PwrMode.sleep) ∧
    (∃ (s : State), s.pair.levels = none ∧ s.power.mode ≠ PwrMode.deepSleep ∧ s.power.mode ≠ PwrMode.off ∧ s.pair.fenced = true) ∧
    (∃ (s : State), s.pair.levels = none ∧ s.power.mode ≠ PwrMode.deepSleep ∧ s.power.mode ≠ PwrMode.off ∧ s.pair.fenced = false ∧
      s.pair.resync ≠ none) :=
  ⟨⟨r, 0x0#16, by decide +kernel⟩,
    ⟨alert, by decide +kernel⟩,
    ⟨r, by decide +kernel⟩,
    ⟨sleep, by decide +kernel⟩,
    ⟨fenced, by decide +kernel⟩,
    ⟨resyncCopy, by decide +kernel⟩⟩

theorem wit_TheAlertAndTheSmbusTargetReportTheSled_b :
    (∃ (s : State), s.pair.levels = none ∧ s.power.mode ≠ PwrMode.deepSleep ∧ s.power.mode ≠ PwrMode.off ∧ s.pair.fenced = false ∧
      s.pair.resync = none) ∧
    (∃ (s : State), s.pair.levels = none ∧ s.power.mode ≠ PwrMode.deepSleep ∧ s.power.mode ≠ PwrMode.off ∧ s.pair.fenced = false ∧
      s.events.alert = true) :=
  ⟨⟨r, by decide +kernel⟩,
    ⟨alert, by decide +kernel⟩⟩

theorem wit_HostLinksComeUpAndGoDown_a :
    (∃ (s : State) (n : Fin 8) (speed : ℕ) (width : ℕ) (k : ℕ), s.linkCan ↑n = true ∧ (s.link ↑n).up = false ∧ 0 < s.trainSpeed (↑n) speed
      ∧ 0 < s.trainWidth (↑n) width ∧ k ≠ ↑n) ∧
    (∃ (s : State) (n : Fin 8) (speed : ℕ) (width : ℕ) (f : ℕ), s.linkCan ↑n = true ∧ (s.link ↑n).up = false ∧ 0 < s.trainSpeed (↑n) speed
      ∧ 0 < s.trainWidth (↑n) width ∧ f ∈ s.linkFns ↑n ∧ (s.fn f).state = FnState.absent ∧ (s.fn f).d0 = true ∧ (s.fn f).bme = true ∧
      (isOf f = true ∨ s.vfOn f = true)) ∧
    (∃ (s : State) (n : Fin 8) (c : Instr) (k : ℕ), (c = Instr.hlLinkDown n ∨ c = Instr.perstAssert n ∨ c = Instr.aerError n
      AerKind.malformed ∨ c = Instr.aerError n AerKind.surpriseDown) ∧ (s.link ↑n).up = true ∧ k ≠ ↑n) ∧
    (∃ (s : State) (n : Fin 8) (c : Instr) (f : ℕ), (c = Instr.hlLinkDown n ∨ c = Instr.perstAssert n ∨ c = Instr.aerError n
      AerKind.malformed ∨ c = Instr.aerError n AerKind.surpriseDown) ∧ (s.link ↑n).up = true ∧ f ∈ s.linkFns ↑n) ∧
    (∃ (s : State) (n : Fin 8) (c : Instr) (f : ℕ), (c = Instr.hlLinkDown n ∨ c = Instr.perstAssert n ∨ c = Instr.aerError n
      AerKind.malformed ∨ c = Instr.aerError n AerKind.surpriseDown) ∧ (s.link ↑n).up = true ∧ f ∉ s.linkFns ↑n) ∧
    (∃ (k : AerKind), (k = AerKind.receiver ∨ k = AerKind.badTlp ∨ k = AerKind.badDllp ∨ k = AerKind.replayRollover ∨ k =
      AerKind.replayTimer)) :=
  ⟨⟨stage4, 0, 1, 1, 1, by decide +kernel⟩,
    ⟨lnk0, 0, 1, 1, 3, by decide +kernel⟩,
    ⟨toSleep, 0, (.hlLinkDown 0), 1, by decide +kernel⟩,
    ⟨toSleep, 0, (.hlLinkDown 0), 0, by decide +kernel⟩,
    ⟨toSleep, 0, (.hlLinkDown 0), 16, by decide +kernel⟩,
    ⟨.replayTimer, by decide +kernel⟩⟩

theorem wit_HostLinksComeUpAndGoDown_b :
    ∃ (s : State) (r : ReadReq), s.readOf r.tag = some r ∧ r.void = false ∧ (s.fn r.fn).state = FnState.enrolled ∧ s.host.asks = [] :=
  ⟨readingEnrol, rdEnrol, by decide +kernel⟩

theorem wit_PresenceEndsWithItsCause_a :
    (∃ (s : State) (f : Fin 72) (k : ℕ), k ∈ s.flrFns ↑f) ∧
    (∃ (s : State) (p : Fin 8) (f : ℕ), f ∈ s.linkTfs (pfLink (pfFn ↑p)) ∧ s.vfOn f = true) ∧
    (∃ (s : State) (f : Fin 72) (b : CfgBits), (b.d0 = true → (s.fn ↑f).d0 = true) ∧ 64 ≤ ↑f) ∧
    (∃ (s : State) (f : Fin 72) (b : CfgBits), (b.d0 = true → (s.fn ↑f).d0 = true) ∧ ↑f < 68 ∧ b.d0 = false ∧ (s.fn ↑f).d0 = true) ∧
    (∃ (s : State) (f : Fin 72) (b : CfgBits), (b.d0 = true → (s.fn ↑f).d0 = true) ∧ ↑f < 68 ∧ b.d0 = true ∧ b.bme = false ∧ (s.fn ↑f).bme
      = true) ∧
    (∃ (s : State) (f : Fin 72) (b : CfgBits), (b.d0 = true → (s.fn ↑f).d0 = true) ∧ ↑f < 68 ∧ s.present ↑f = false) :=
  ⟨⟨r, 0, 0, by decide +kernel⟩,
    ⟨lnk0, 0, 0, by decide +kernel⟩,
    ⟨r, 71, cfgOff, by decide +kernel⟩,
    ⟨r, 0, cfgOff, by decide +kernel⟩,
    ⟨lnk0, 3, cfgMute, by decide +kernel⟩,
    ⟨r, 0, cfgOff, by decide +kernel⟩⟩

theorem wit_PresenceEndsWithItsCause_b :
    (∃ (s : State) (f : Fin 72) (b : CfgBits), b.d0 = true ∧ (s.fn ↑f).d0 = false) ∧
    (∃ (s : State) (f : Fin 68), s.noPartner = false ∧ s.partnerHeld [2, 5] = false ∧ ((s.fn ↑f).state = FnState.enrolled ∨ (s.fn
      ↑f).state = FnState.checking) ∧ (s.fn ↑f).busy = true) ∧
    (∃ (s : State) (f : Fin 68), s.noPartner = false ∧ s.partnerHeld [2, 5] = false ∧ (s.fn ↑f).state = FnState.quarantined) ∧
    (∃ (s : State) (f : Fin 68), (s.fn ↑f).state = FnState.evicting ∧ ((s.fn ↑f).wait = none ∨ (s.fn ↑f).wait = some MbxWait.leave) ∧
      (s.fn ↑f).wait = some MbxWait.leave) ∧
    (∃ (s : State) (f : Fin 68) (dw : Fin 256), s.noPartner = false ∧ ↑dw / 4 < vectors ↑f ∧ ↑dw % 4 = 3) ∧
    (∃ (s : State) (f : Fin 68) (dw : Fin 256) (x : Word), s.noPartner = false ∧ ↑dw / 4 < vectors ↑f ∧ (s.fn ↑f).msixEn = true ∧ ((s.fn
      ↑f).msixEntry (↑dw / 4) (↑dw % 4) (BitVec.toNat x)).msixMask.getLsbD (↑dw / 4) = false ∧ (s.fn ↑f).msixPend.getLsbD (↑dw / 4) = true
      ∧ s.pair.levels = none) :=
  ⟨⟨wakeInD3, 71, cfgOn, by decide +kernel⟩,
    ⟨busy, 67, by decide +kernel⟩,
    ⟨quarantined, 67, by decide +kernel⟩,
    ⟨leaving, 67, by decide +kernel⟩,
    ⟨r, 67, 255, by decide +kernel⟩,
    ⟨msixMasked, 67, 255, 0, by decide +kernel⟩⟩

theorem wit_PresenceEndsWithItsCause_c :
    ∃ (s : State) (f : Fin 68) (dw : Fin 256), s.noPartner = false ∧ ↑dw / 4 < vectors ↑f ∧ (s.fn ↑f).msixEn = false :=
  ⟨r, 67, 255, by decide +kernel⟩

theorem wit_MailboxRequestsAreTestedInOrder_a :
    (∃ (s : State) (f : Fin 68) (go : BitVec 8) (req : MbxReq) (tag : ℕ), Posted 1 (↑f) go req s ∧ (s.fn ↑f).state = FnState.idle ∧
      req.op0.toNat % 64 = 0 ∧ req.op1 = 0 ∧ s.fenceOk (↑f) req.op0.toNat 64 = true ∧ s.freeTag (s.fnLink ↑f) = some tag ∧ s.host.asks =
      []) ∧
    (∃ (s : State) (f : Fin 68) (go : BitVec 8) (req : MbxReq), Posted 1 (↑f) go req s ∧ (s.fn ↑f).state = FnState.idle ∧ req.op0.toNat %
      64 = 0 ∧ req.op1 = 0 ∧ s.fenceOk (↑f) req.op0.toNat 64 = true ∧ s.freeTag (s.fnLink ↑f) = none) ∧
    (∃ (s : State) (f : Fin 68) (go : BitVec 8) (req : MbxReq), Posted 1 (↑f) go req s ∧ (s.fn ↑f).state = FnState.idle ∧ (req.op0.toNat %
      64 ≠ 0 ∨ req.op1 ≠ 0)) ∧
    (∃ (s : State) (f : Fin 68) (go : BitVec 8) (req : MbxReq), Posted 1 (↑f) go req s ∧ (s.fn ↑f).state = FnState.idle ∧ req.op0.toNat %
      64 = 0 ∧ req.op1 = 0 ∧ s.fenceOk (↑f) req.op0.toNat 64 = false) ∧
    (∃ (s : State) (f : Fin 68) (go : BitVec 8) (req : MbxReq), Posted 1 (↑f) go req s ∧ (s.fn ↑f).state = FnState.enrolled) ∧
    (∃ (s : State) (f : Fin 68) (go : BitVec 8) (req : MbxReq), Posted 1 (↑f) go req s ∧ ((s.fn ↑f).state = FnState.disabled ∨ (s.fn
      ↑f).state = FnState.quarantined)) :=
  ⟨⟨fnIdle, 67, 0x1#8, reqEnrol, 6144, by unfold Posted Latched; decide +kernel⟩,
    ⟨noTags, 67, 1, reqEnrol, by unfold Posted Latched; decide +kernel, by decide +kernel, by decide +kernel, by decide +kernel, by
      decide +kernel, noFreeTag noTags 6 (by simp [noTags, State.onHost])⟩,
    ⟨fnIdle, 67, 0x1#8, reqEnrolOdd, by unfold Posted Latched; decide +kernel⟩,
    ⟨fnIdle, 67, 0x1#8, reqEnrolLow, by unfold Posted Latched; decide +kernel⟩,
    ⟨G, 67, 0x1#8, reqEnrolLow, by unfold Posted Latched; decide +kernel⟩,
    ⟨fnDisabled, 67, 0x1#8, reqEnrolLow, by unfold Posted Latched; decide +kernel⟩⟩

theorem wit_MailboxRequestsAreTestedInOrder_b :
    (∃ (s : State) (f : Fin 68) (d : Bytes), s.enrolReading ↑f = true ∧ List.length d = 64 ∧ s.unitNow = true ∧ s.enrolStatus (↑f) d = 0 ∧
      (s.fn ↑f).busy = true) ∧
    (∃ (s : State) (f : Fin 68) (d : Bytes) (good : Bool), s.enrolReading ↑f = true ∧ List.length d = 64 ∧ (good = false ∨ s.unitNow =
      true ∧ s.enrolStatus (↑f) d ≠ 0)) ∧
    (∃ (s : State) (f : Fin 68) (d : Bytes), s.enrolReading ↑f = true ∧ List.length d = 64 ∧ s.unitNow = false) ∧
    (∃ (s : State) (f : Fin 68) (d : Bytes), s.pending = [] ∧ (s.fn ↑f).busy = true ∧ (s.fn ↑f).wait = some (MbxWait.enrolled d)) ∧
    (∃ (s : State) (f : Fin 68) (go : BitVec 8) (req : MbxReq), Posted 2 (↑f) go req s ∧ (s.fn ↑f).state = FnState.enrolled ∧ req.op0 = 0
      ∧ req.op1 = 0) ∧
    (∃ (s : State) (f : Fin 68) (go : BitVec 8) (req : MbxReq), Posted 2 (↑f) go req s ∧ (s.fn ↑f).state = FnState.enrolled ∧ (req.op0 ≠ 0
      ∨ req.op1 ≠ 0)) :=
  ⟨⟨wantsRecord, 67, recGood, by decide +kernel⟩,
    ⟨wantsRecord, 67, recGood, false, by decide +kernel⟩,
    ⟨unitsBusy, 67, recGood, by decide +kernel⟩,
    ⟨enrolEnd, 67, recGood, by decide +kernel⟩,
    ⟨G, 67, 0x1#8, reqLeave, by unfold Posted Latched; decide +kernel⟩,
    ⟨G, 67, 0x1#8, reqLeaveOdd, by unfold Posted Latched; decide +kernel⟩⟩

theorem wit_MailboxRequestsAreTestedInOrder_c :
    (∃ (s : State) (f : Fin 68) (go : BitVec 8) (req : MbxReq), Posted 2 (↑f) go req s ∧ ((s.fn ↑f).state = FnState.disabled ∨ (s.fn
      ↑f).state = FnState.quarantined)) ∧
    (∃ (s : State) (f : Fin 68) (go : BitVec 8) (req : MbxReq), Posted 2 (↑f) go req s ∧ (s.fn ↑f).state = FnState.idle) ∧
    (∃ (s : State) (f : Fin 68) (go : BitVec 8) (req : MbxReq), Posted req.opcode.toNat (↑f) go req s ∧ req.opcode = 3 ∧ req.op0 = 0 ∧
      req.op1 = 0) ∧
    (∃ (s : State) (f : Fin 68) (go : BitVec 8) (req : MbxReq), Posted req.opcode.toNat (↑f) go req s ∧ req.opcode = 3 ∧ (req.op0 ≠ 0 ∨
      req.op1 ≠ 0)) ∧
    (∃ (s : State) (f : Fin 68) (go : BitVec 8) (req : MbxReq), Posted req.opcode.toNat (↑f) go req s ∧ (req.opcode = 0 ∨ 3 <
      req.opcode.toNat ∧ req.opcode.toNat < 16 ∨ 20 < req.opcode.toNat)) ∧
    (∃ (s : State) (f : Fin 68) (go : BitVec 8) (req : MbxReq) (c : Instr) (op : ℕ), Requests c f go req op ∧ Latched (↑f) go s ∧
      req.check.toNat ≠ mbxWant (↑f) (mbxWithOp req op)) :=
  ⟨⟨fnDisabled, 67, 0x1#8, reqLeaveOdd, by unfold Posted Latched; decide +kernel⟩,
    ⟨fnIdle, 67, 0x1#8, reqLeaveOdd, by unfold Posted Latched; decide +kernel⟩,
    ⟨G, 67, 0x1#8, reqQuery, by unfold Posted Latched; decide +kernel⟩,
    ⟨G, 67, 0x1#8, reqQueryOdd, by unfold Posted Latched; decide +kernel⟩,
    ⟨G, 67, 0x1#8, reqUnknown, by unfold Posted Latched; decide +kernel⟩,
    ⟨G, 67, 0x1#8, reqWrong, (.query 67 1 reqWrong), 3, by unfold Latched Requests; decide +kernel⟩⟩

theorem wit_MailboxRequestsAreTestedInOrder_d :
    (∃ (s : State) (f : Fin 68) (go : BitVec 8) (req : MbxReq) (c : Instr) (op : ℕ), Requests c f go req op ∧ Latched (↑f) go s ∧
      req.check.toNat = mbxWant (↑f) (mbxWithOp req op) ∧ (req.seq ≠ go ∨ req.status ≠ 0 ∨ req.rsv ≠ 0)) ∧
    (∃ (s : State) (f : Fin 68) (go : BitVec 8) (req : MbxReq) (c : Instr) (op : ℕ), Requests c f go req op ∧ s.noPartner = false ∧
      s.partnerHeld [2, 5] = false ∧ (s.present ↑f = false ∨ (s.fn ↑f).state = FnState.evicting ∨ (s.fn ↑f).busy = true ∨ go.toNat ≠
      ((s.fn ↑f).replySeq + 1) % 256 ∨ s.lookout.restart = true)) ∧
    (∃ (s : State) (f : Fin 68) (go : BitVec 8) (req : MbxReq) (c : Instr) (op : ℕ), Requests c f go req op ∧ s.noPartner = false ∧
      s.partnerHeld [2, 5] = true) :=
  ⟨⟨G, 67, 0x1#8, reqDirty, (.query 67 1 reqDirty), 3, by unfold Latched Requests; decide +kernel⟩,
    ⟨ctlsLldp, 67, 0x1#8, reqTxrTwice, (.txrCreate 67 1 reqTxrTwice), 16, by unfold Requests; decide +kernel⟩,
    ⟨parkedHostEvicting, 67, 0x1#8, reqTxrTwice, (.txrCreate 67 1 reqTxrTwice), 16, by unfold Requests; decide +kernel⟩⟩

theorem wit_RingsAreMadeAndDestroyedByMailbox_a :
    (∃ (s : State) (f : Fin 68) (go : BitVec 8) (req : MbxReq) (k : ℕ), Posted 16 (↑f) go req s ∧ s.createStatus (↑f) 16 req.op0.toNat
      req.op1.toNat = 0 ∧ k ≠ s.ringAllocTxBase ↑f + (ringAsk req.op1.toNat).loc) ∧
    (∃ (s : State) (f : Fin 68) (go : BitVec 8) (req : MbxReq) (k : ℕ), Posted 17 (↑f) go req s ∧ s.createStatus (↑f) 17 req.op0.toNat
      req.op1.toNat = 0 ∧ k ≠ s.ringAllocRxBase ↑f + (ringAsk req.op1.toNat).loc) ∧
    (∃ (s : State) (f : Fin 68) (go : BitVec 8) (req : MbxReq) (k : ℕ), Posted 18 (↑f) go req s ∧ s.createStatus (↑f) 18 req.op0.toNat
      req.op1.toNat = 0 ∧ k ≠ s.ringAllocCqBase ↑f + (ringAsk req.op1.toNat).loc) ∧
    (∃ (s : State) (f : Fin 68) (go : BitVec 8) (req : MbxReq), Posted 19 (↑f) go req s ∧ s.createStatus (↑f) 19 req.op0.toNat
      req.op1.toNat = 0) ∧
    (∃ (s : State) (f : Fin 68) (go : BitVec 8) (req : MbxReq) (c : Instr) (op : ℕ), Requests c f go req op ∧ 16 ≤ op ∧ op ≤ 19 ∧ Posted
      op (↑f) go req s ∧ s.createStatus (↑f) op req.op0.toNat req.op1.toNat ≠ 0 ∧ s.createStatus (↑f) op req.op0.toNat req.op1.toNat ≠ 6) ∧
    (∃ (s : State) (f : Fin 68) (go : BitVec 8) (req : MbxReq) (c : Instr) (op : ℕ), Requests c f go req op ∧ 16 ≤ op ∧ op ≤ 19 ∧ Posted
      op (↑f) go req s ∧ s.createStatus (↑f) op req.op0.toNat req.op1.toNat = 6) :=
  ⟨⟨Gc, 67, 0x1#8, reqTxr, cqSlot, by unfold Posted Latched; decide +kernel⟩,
    ⟨Gc, 67, 0x1#8, reqRxr, cqSlot, by unfold Posted Latched; decide +kernel⟩,
    ⟨G, 67, 0x1#8, reqCq, cqSlot, by unfold Posted Latched; decide +kernel⟩,
    ⟨G, 67, 0x1#8, reqEvr, by unfold Posted Latched; decide +kernel⟩,
    ⟨G, 67, 0x1#8, reqTxrTwice, (.txrCreate 67 1 reqTxrTwice), 16, by unfold Posted Requests Latched; decide +kernel⟩,
    ⟨Gc, 67, 0x1#8, reqTxrLow, (.txrCreate 67 1 reqTxrLow), 16, by unfold Posted Requests Latched; decide +kernel⟩⟩

theorem wit_RingsAreMadeAndDestroyedByMailbox_b :
    (∃ (s : State) (f : Fin 68) (go : BitVec 8) (req : MbxReq), Posted 20 (↑f) go req s ∧ s.destroyStatus (↑f) req.op0.toNat req.op1.toNat
      = 0) ∧
    (∃ (s : State) (f : Fin 68) (go : BitVec 8) (req : MbxReq), Posted 20 (↑f) go req s ∧ s.destroyStatus (↑f) req.op0.toNat req.op1.toNat
      ≠ 0) ∧
    (∃ (s : State) (f : Fin 68) (kind : ℕ) (loc : ℕ), kind < 4 ∧ (s.fn ↑f).wait = some (MbxWait.destroy kind loc) ∧ s.ringIdle kind
      (s.ringNumber (↑f) kind loc) = true ∧ s.lookout.restart = false ∧ s.partnerHeld [2, 5] = false) :=
  ⟨⟨destroyable, 67, 0x1#8, reqDestroy, by unfold Posted Latched; decide +kernel⟩,
    ⟨G, 67, 0x1#8, reqDestroyOdd, by unfold Posted Latched; decide +kernel⟩,
    ⟨destroyed, 67, 0, 1, by decide +kernel⟩⟩

theorem wit_DoorbellsMeetTheFirstRowThatApplies_a :
    (∃ (s : State) (c : Instr) (f : Fin 68) (whole : Bool) (k : DbKind) (v : BitVec 64), Rung c f whole k v ∧ s.noPartner = false ∧
      s.partnerHeld [2] = true) ∧
    (∃ (s : State) (c : Instr) (f : Fin 68) (whole : Bool) (k : DbKind) (v : BitVec 64), Rung c f whole k v ∧ s.noPartner = false ∧
      s.partnerHeld [2] = false ∧ s.dbRow (↑f) k whole v.toNat = 1) ∧
    (∃ (s : State) (c : Instr) (f : Fin 68) (whole : Bool) (k : DbKind) (v : BitVec 64) (row : ℕ), Rung c f whole k v ∧ s.noPartner =
      false ∧ s.partnerHeld [2] = false ∧ s.dbRow (↑f) k whole v.toNat = row ∧ 2 ≤ row ∧ row ≤ 5) ∧
    (∃ (s : State) (c : Instr) (f : Fin 68) (whole : Bool) (k : DbKind) (v : BitVec 64), Rung c f whole k v ∧ s.noPartner = false ∧
      s.partnerHeld [2] = false ∧ s.dbRow (↑f) k whole v.toNat = 6) ∧
    (∃ (s : State) (c : Instr) (f : Fin 68) (whole : Bool) (k : DbKind) (v : BitVec 64), Rung c f whole k v ∧ s.noPartner = false ∧
      s.partnerHeld [2] = false ∧ s.dbRow (↑f) k whole v.toNat = 7 ∧ k = DbKind.tx ∧ bit v.toNat 34 = false) ∧
    (∃ (s : State) (c : Instr) (f : Fin 68) (whole : Bool) (k : DbKind) (v : BitVec 64), Rung c f whole k v ∧ s.noPartner = false ∧
      s.partnerHeld [2] = false ∧ s.dbRow (↑f) k whole v.toNat = 7 ∧ k = DbKind.rx) :=
  ⟨⟨parkedHost, dbTx, 3, true, .tx, pos76, .inl ⟨pos76, rfl, rfl, by decide⟩, by decide +kernel⟩,
    ⟨r, dbTx, 3, true, .tx, pos76, .inl ⟨pos76, rfl, rfl, by decide⟩, by decide +kernel⟩,
    ⟨G, dbTx, 3, true, .tx, pos76, 3, .inl ⟨pos76, rfl, rfl, by decide⟩, by decide +kernel⟩,
    ⟨B, dbRepeat, 3, true, .rx, pos75, .inr (.inl ⟨rfl, rfl⟩), by decide +kernel⟩,
    ⟨B, dbTx, 3, true, .tx, pos76, .inl ⟨pos76, rfl, rfl, by decide⟩, by decide +kernel⟩,
    ⟨B, dbRx, 3, true, .rx, pos76, .inr (.inl ⟨rfl, rfl⟩), by decide +kernel⟩⟩

theorem wit_DoorbellsMeetTheFirstRowThatApplies_b :
    (∃ (s : State) (c : Instr) (f : Fin 68) (whole : Bool) (k : DbKind) (v : BitVec 64), Rung c f whole k v ∧ s.noPartner = false ∧
      s.partnerHeld [2] = false ∧ s.dbRow (↑f) k whole v.toNat = 7 ∧ k = DbKind.tx ∧ bit v.toNat 34 = true ∧ (s.txr (bits v.toNat 0
      10)).cur = [] ∧ (∀ x ∈ (s.txr (bits v.toNat 0 10)).sends, x.reissue = false)) ∧
    (∃ (s : State) (c : Instr) (f : Fin 68) (whole : Bool) (k : DbKind) (v : BitVec 64), Rung c f whole k v ∧ s.noPartner = false ∧
      s.partnerHeld [2] = false ∧ s.dbRow (↑f) k whole v.toNat = 7 ∧ k = DbKind.cq ∧ (∀ e ∈ s.tx, e.2.cq ≠ bits v.toNat 0 10) ∧ (∀ e ∈
      s.rx, e.2.cq ≠ bits v.toNat 0 10)) ∧
    (∃ (s : State) (c : Instr) (f : Fin 68) (whole : Bool) (k : DbKind) (v : BitVec 64), Rung c f whole k v ∧ s.noPartner = false ∧
      s.partnerHeld [2] = false ∧ s.dbRow (↑f) k whole v.toNat = 7 ∧ k = DbKind.evr) :=
  ⟨⟨B, dbBack, 3, true, .tx, posBack, .inr (.inr (.inr (.inr (.inl ⟨posBack, rfl, rfl, by decide⟩)))), by decide +kernel⟩,
    ⟨B, dbCq, 3, true, .cq, posCq, .inr (.inr (.inl ⟨rfl, rfl⟩)), by decide +kernel⟩,
    ⟨E2, dbEvr, 67, true, .evr, posEvr, .inr (.inr (.inr (.inl ⟨rfl, rfl⟩))), by decide +kernel⟩⟩

theorem wit_DescriptorsAreFetchedCheckedAndTurnedIntoSends_a :
    (∃ (s : State) (n : Fin 640) (tag : ℕ), s.idleEngine [2] = false ∧ (s.txr ↑n).state = RingState.active ∧ (s.txr ↑n).f ≠ (s.txr ↑n).h ∧
      s.freeTag (s.fnLink (s.txr ↑n).fn) = some tag ∧ s.host.asks = []) ∧
    (∃ (s : State) (n : Fin 640), s.idleEngine [2] = false ∧ (s.txr ↑n).state = RingState.active ∧ (s.txr ↑n).f ≠ (s.txr ↑n).h ∧ s.freeTag
      (s.fnLink (s.txr ↑n).fn) = none) ∧
    (∃ (s : State) (n : Fin 640) (tag : ℕ), s.idleEngine [2] = false ∧ (s.rxr ↑n).state = RingState.active ∧ (s.rxr ↑n).f ≠ (s.rxr ↑n).h ∧
      s.freeTag (s.fnLink (s.rxr ↑n).fn) = some tag ∧ s.host.asks = []) ∧
    (∃ (s : State) (r : ReadReq) (ring : ℕ) (pos : ℕ) (k : ℕ), s.readOf r.tag = some r ∧ r.void = false ∧ r.kind = ReadKind.txDesc ring
      pos k ∧ s.host.asks = []) ∧
    (∃ (s : State) (r : ReadReq), s.readOf r.tag = some r ∧ r.void = true ∧ r.timedOut = false ∧ s.host.asks = []) ∧
    (∃ (s : State) (r : ReadReq), s.readOf r.tag = some r ∧ r.void = false ∧ r.kind ≠ ReadKind.enrol ∧ (s.fn r.fn).state =
      FnState.enrolled) :=
  ⟨⟨B, 1, 0, by decide +kernel⟩,
    ⟨ringsFull, 1, by decide +kernel, by decide +kernel, by decide +kernel, noFreeTag ringsFull 0 (by simp [ringsFull, State.onHost])⟩,
    ⟨B, 1, 0, by decide +kernel⟩,
    ⟨readingTx, rdTx, 1, 70, 2, by decide +kernel⟩,
    ⟨readingVoid, rdVoid, by decide +kernel⟩,
    ⟨readingTx, rdTx, by decide +kernel⟩⟩

theorem wit_DescriptorsAreFetchedCheckedAndTurnedIntoSends_b :
    (∃ (s : State) (m : Msg) (u : ℕ), s.nextMsg = some m ∧ s.freeUnit = some u) ∧
    (∃ (s : State) (u : Fin 16) (x : Cvu) (ring : ℕ) (pos : ℕ), s.idleEngine [2] = false ∧ Tbl.find s.host.units ↑u = some x ∧ x.msg.kind
      = MsgKind.tx ring pos ∧ ring < 1024 ∧ (s.txr ring).fn < 68 ∧ leAt x.msg.data 30 2 ≠ x.reg) ∧
    (∃ (s : State) (u : Fin 16) (x : Cvu) (ring : ℕ) (pos : ℕ), s.idleEngine [2] = false ∧ Tbl.find s.host.units ↑u = some x ∧ x.msg.kind
      = MsgKind.tx ring pos ∧ ring < 1024 ∧ (s.txr ring).fn < 68 ∧ leAt x.msg.data 30 2 = x.reg ∧ (s.txr ring).state = RingState.active ∧
      (s.txr ring).fn = x.msg.fn ∧ (s.txr ring).sends = [] ∧ (s.txr ring).cur = [] ∧ (s.txr ring).recalls = [] ∧ (s.txr ring).reTo = none
      ∧ (s.txr ring).c = pos ∧ bit (leAt x.msg.data 10 2) 0 = true ∧ descsOk [txDescOf pos x.msg.data true] true = true ∧ sendOk [txDescOf
      pos x.msg.data true] = true ∧ s.fenceOk x.msg.fn (leAt x.msg.data 0 8) (leAt x.msg.data 8 2) = true) ∧
    (∃ (s : State) (u : Fin 16) (x : Cvu) (ring : ℕ) (pos : ℕ), s.idleEngine [2] = false ∧ Tbl.find s.host.units ↑u = some x ∧ x.msg.kind
      = MsgKind.rx ring pos ∧ ring < 1024 ∧ leAt x.msg.data 14 2 ≠ x.reg) ∧
    (∃ (s : State) (u : Fin 16) (x : Cvu) (req : MbxReq), s.idleEngine [2] = false ∧ Tbl.find s.host.units ↑u = some x ∧ x.msg.kind =
      MsgKind.mailbox req ∧ req.check.toNat ≠ x.reg) ∧
    (∃ (s : State) (u : Fin 16) (x : Cvu), s.idleEngine [2] = false ∧ Tbl.find s.host.units ↑u = some x ∧ x.msg.kind = MsgKind.enrol ∧
      s.enrolStatus x.msg.fn x.msg.data = 0) :=
  ⟨⟨waitingMsg, msgTxGood, 0, by decide +kernel⟩,
    ⟨unitTxBad, 15, cvuTxBad, 1, 70, by decide +kernel⟩,
    ⟨unitTx, 15, cvuTx, 1, 70, by decide +kernel⟩,
    ⟨unitRxBad, 15, cvuRxBad, 1, 70, by decide +kernel⟩,
    ⟨unitMbx, 15, cvuMbx, reqWrong, by decide +kernel⟩,
    ⟨unitEnrol, 15, cvuEnrol, by decide +kernel⟩⟩

theorem wit_DescriptorsAreFetchedCheckedAndTurnedIntoSends_c :
    (∃ (s : State) (n : Fin 640) (x : Send) (d : TxDesc) (tag : ℕ), List.find? (fun x => decide (x.st = SendSt.reads)) (s.txr ↑n).sends =
      some x ∧ (s.txr ↑n).state = RingState.active ∧ s.idleEngine [2, 3] = false ∧ s.txHeld (s.txr ↑n).fn + x.bytes ≤ s.fnTxHold (s.txr
      ↑n).fn * 4096 ∧ cellsOf x.bytes ≤ s.poolFree ∧ x.descs = [d] ∧ 0 < d.len ∧ d.len ≤ s.maxRead (s.txr ↑n).fn ∧ d.addr % 4096 + d.len ≤
      4096 ∧ s.host.asks = [] ∧ s.freeTag (s.fnLink (s.txr ↑n).fn) = some tag) ∧
    (∃ (s : State) (q : Fin 256), s.idleEngine [2] = false ∧ (s.cqr ↑q).armed = true ∧ 0 < (s.cqr ↑q).unsig ∧ (s.cqr ↑q).t1 + (s.cqr
      ↑q).t1Len ≤ s.time.elapsed ∧ (s.fn (s.cqr ↑q).fn).msixEn = true ∧ (s.fn (s.cqr ↑q).fn).msixMask.getLsbD (s.cqr ↑q).vector = false ∧
      s.pair.levels = none) :=
  ⟨⟨S, 1, sendReads, descReads, 0, by decide +kernel⟩,
    ⟨B, 2, by decide +kernel⟩⟩

theorem wit_TheHighestOpenClassIsGranted :
    ∃ (s : State) (m : Fin 16) (ready : ℕ) (c : ℕ) (y : Cand), s.canGrant ↑m = true ∧ s.instExists ↑m = true ∧ (s.mac ↑m).link =
      LinkStage.up ∧ (s.sch ↑m).cur = none ∧ (s.sch ↑m).ctrl = [] ∧ c < 8 ∧ (∀ (d : ℕ), c < d → d < 8 → s.cands (↑m) d = []) ∧ s.cands
      (↑m) c = [y] ∧ y.fn < 68 ∧ (∃ x ∈ (s.txr y.ring).sends, x.first = y.first) ∧ s.tokenOk y.fn = true ∧ y.len ≤ s.fnTxQuantum y.fn ∧
      (s.settle ↑m).classOpen (↑m) c (s.departAt (↑m) ready) = true ∧ (∀ (k : ℕ), (s.gated ↑m).closeOf c (s.departAt (↑m) ready) = some k
      → fits (s.departAt (↑m) ready) y.len (s.rate ↑m) k = true) :=
  ⟨ready7, 0, 0, 7, cand7, by decide +kernel, by decide +kernel, by decide +kernel, by decide +kernel, by decide +kernel, by decide, fun d
    h g => absurd g (by omega), by decide +kernel⟩

theorem wit_FramesDepartUnderTheirGates_a :
    (∃ (s : State) (m : Fin 16) (f : CurFrame), (s.sch ↑m).cur = some f ∧ f.held = false ∧ s.pair.verdict = false ∧ f.cls < 8 ∧ f.fn < 68
      ∧ f.ring < 1024 ∧ bit f.flags 2 = true ∧ (if bit f.flags 2 = true ∧ bit f.flags 3 = false ∧ bit s.tsOnestepEnEn ↑m = true then
      oneStep f.bytes (s.txStamp (↑m) f.at_) else none) = none ∧ f.seg = 0) ∧
    (∃ (m : Fin 16) (k : ℕ), k ≠ ↑m) ∧
    (∃ (s : State) (m : Fin 16) (g : GateList), (s.sch ↑m).pend = some g) ∧
    (∃ (s : State) (m : Fin 16), ((s.mac ↑m).txLpi = true ∨ (s.mac ↑m).entering.isSome = true) ∧ (s.sch ↑m).wakeReq = none ∧ (∃ c < 8,
      s.opensSoon (↑m) c = true)) ∧
    (∃ (s : State) (m : Fin 16) (t0 : ℕ) (len : ℕ), s.lpiIdles ↑m = true ∧ (s.sch ↑m).idle = some (t0, len) ∧ t0 + len ≤ s.time.elapsed) ∧
    (∃ (s : State) (m : Fin 16), (s.mac ↑m).link = LinkStage.up ∧ (s.mac ↑m).lpiCap = true ∧ (s.mac ↑m).rxLpi = false) :=
  ⟨⟨granted, 0, frameSent, by decide +kernel⟩,
    ⟨15, 0, by decide +kernel⟩,
    ⟨gatePending, 15, gateList, by decide +kernel⟩,
    ⟨lpiEarly, 0, by decide +kernel⟩,
    ⟨lpiDue, 0, 5, 7, by decide +kernel⟩,
    ⟨lpiGated, 0, by decide +kernel⟩⟩

theorem wit_FramesDepartUnderTheirGates_b :
    ∃ (s : State) (m : Fin 16) (e : ℕ), s.pending = [] ∧ (s.mac ↑m).entering = some e ∧ e ≤ s.time.elapsed :=
  ⟨lpiEntering, 0, 13, by decide +kernel⟩

theorem wit_ReceivedFramesAreHeldOrCounted_a :
    (∃ (s : State) (m : Fin 16) (x : RxFrame), Reaches m s ∧ x.sofGood = false) ∧
    (∃ (s : State) (m : Fin 16) (x : RxFrame) (f : ℕ) (c : RxCopy), Reaches m s ∧ x.sofGood = true ∧ x.fcsGood = true ∧ x.marked = false ∧
      64 ≤ List.length x.bytes + 4 ∧ List.length x.bytes + 4 ≤ s.lenLimit (↑m) (bufTags x.bytes) ∧ beAt x.bytes 12 2 ≠ 34824 ∧ beAt
      x.bytes 12 2 ≠ 35020 ∧ f < 68 ∧ s.daMatch x.bytes (↑m) (s.rxCands (s.stagOwner x.bytes)) = [f] ∧ s.ctagOk f (ctagFrom x.bytes (parse
      x.bytes).tags (if (s.stagOwner x.bytes).isSome = true then 1 else 0)) = true ∧ (s.fn f).state = FnState.enrolled ∧ s.copyFor x.bytes
      (parse x.bytes) (s.stagOwner x.bytes) f = some c ∧ (∀ k < cellsOf (List.length x.bytes), s.sharedTest (s.rxClass (↑m) x.bytes (parse
      x.bytes)) { cell := k, pool := k, head := 0, resv := 0, copies := [c], refused := [] } c = 0)) ∧
    (∃ (s : State) (m : Fin 16) (x : RxFrame), Reaches m s ∧ x.sofGood = true ∧ x.fcsGood = true ∧ x.marked = false ∧ 64 ≤ List.length
      x.bytes + 4 ∧ List.length x.bytes + 4 ≤ s.lenLimit (↑m) (bufTags x.bytes) ∧ beAt x.bytes 12 2 ≠ 34824 ∧ beAt x.bytes 12 2 ≠ 35020 ∧
      s.daMatch x.bytes (↑m) (s.rxCands (s.stagOwner x.bytes)) = [] ∧ s.rxCtrlUnmatched ↑m = 0) ∧
    (∃ (s : State) (m : Fin 16) (x : RxFrame), s.netRuns = true ∧ (s.watchLane (↑m / 8)).running = false ∧ s.rxHeld ↑m = false ∧ 2 ≤
      (s.mac ↑m).fec ∧ s.instExists ↑m = true ∧ (s.mac ↑m).link = LinkStage.up ∧ x.sofGood = false) ∧
    (∃ (s : State) (m : Fin 16) (x : RxFrame), s.netRuns = true ∧ (s.watchLane (↑m / 8)).running = false ∧ s.rxHeld ↑m = false ∧ (s.mac
      ↑m).link ≠ LinkStage.up ∧ x.fcsGood = false ∧ x.sofGood = true ∧ 64 ≤ List.length x.bytes + 4 ∧ List.length x.bytes ≤ 512 ∧ beAt
      x.bytes 12 2 ≠ 34824 ∧ s.rxCtrlFcsKeep ↑m = 0) ∧
    (∃ (s : State) (m : Fin 16), s.netRuns = true ∧ (s.watchLane (↑m / 8)).running = false ∧ s.instExists ↑m = true ∧ (s.mac ↑m).link =
      LinkStage.up ∧ (s.mac ↑m).fec < 2 ∧ (s.mac ↑m).rxLpi = false ∧ s.rxHeld ↑m = true) :=
  ⟨⟨S, 0, rxBadSof, by unfold Reaches; decide +kernel⟩,
    ⟨rxOpen, 0, rxGood, 3, copy0, by unfold Reaches; decide +kernel⟩,
    ⟨S, 0, rxGood, by unfold Reaches; decide +kernel⟩,
    ⟨rxOpen, 8, rxBadSof, by decide +kernel⟩,
    ⟨r, 15, rxCut, by decide +kernel⟩,
    ⟨rxHeld, 0, by decide +kernel⟩⟩

theorem wit_ReceivedFramesAreHeldOrCounted_b :
    (∃ (s : State) (m : Fin 16) (x : RxFrame), Reaches m s ∧ x.sofGood = true ∧ beAt x.bytes 12 2 = 34824 ∧ List.length x.bytes + 4 ≤ 63) ∧
    (∃ (s : State) (m : Fin 16) (x : RxFrame), Reaches m s ∧ x.sofGood = true ∧ beAt x.bytes 12 2 = 34824 ∧ 64 ≤ List.length x.bytes + 4 ∧
      x.fcsGood = false) ∧
    (∃ (s : State) (m : Fin 16) (x : RxFrame), Reaches m s ∧ x.sofGood = true ∧ beAt x.bytes 12 2 = 34824 ∧ x.fcsGood = true ∧ x.marked =
      false ∧ 64 ≤ List.length x.bytes + 4 ∧ List.length x.bytes + 4 ≤ s.maxlenBytes ↑m ∧ beAt x.bytes 0 6 = 1652522221569 ∧ beAt x.bytes
      14 2 = 1 ∧ s.macCfgFcMode ↑m = 1 ∧ (s.mac ↑m).ignoring = false) ∧
    (∃ (s : State) (m : Fin 16) (x : RxFrame), Reaches m s ∧ x.sofGood = true ∧ beAt x.bytes 12 2 = 34824 ∧ x.fcsGood = true ∧ x.marked =
      false ∧ 64 ≤ List.length x.bytes + 4 ∧ List.length x.bytes + 4 ≤ s.maxlenBytes ↑m ∧ beAt x.bytes 0 6 = 1652522221569 ∧ beAt x.bytes
      14 2 = 1 ∧ s.macCfgFcMode ↑m ≠ 1) ∧
    (∃ (s : State) (m : Fin 16) (x : RxFrame), Reaches m s ∧ x.sofGood = true ∧ beAt x.bytes 12 2 = 34824 ∧ x.fcsGood = true ∧ x.marked =
      false ∧ 64 ≤ List.length x.bytes + 4 ∧ List.length x.bytes + 4 ≤ s.maxlenBytes ↑m ∧ beAt x.bytes 0 6 = 1652522221569 ∧ beAt x.bytes
      14 2 ≠ 1 ∧ beAt x.bytes 14 2 ≠ 257) :=
  ⟨⟨S, 0, ctlShort, by unfold Reaches; decide +kernel⟩,
    ⟨S, 0, ctlBad, by unfold Reaches; decide +kernel⟩,
    ⟨rxPauseOn, 0, ctlPause, by unfold Reaches; decide +kernel⟩,
    ⟨S, 0, ctlPause, by unfold Reaches; decide +kernel⟩,
    ⟨S, 0, ctlUnknown, by unfold Reaches; decide +kernel⟩⟩

theorem wit_HeadFramesAreWrittenOrDropped_a :
    (∃ (s : State) (n : Fin 640) (h : HFrame) (c : RxCopy) (used : List RxSlot) (x : RxSlot), s.rxHalted h.inc = false ∧ (∀ x ∈ (s.rxr
      ↑n).slots.head?, x.hole = 0) ∧ (s.rxr ↑n).guard = none ∧ (s.rxr ↑n).ret = none ∧ (s.rxr ↑n).inc = [] ∧ s.rxHead ↑n = some (h, c) ∧
      c.fn < 68 ∧ takeSlots ((s.rxr ↑n).buffers h.inc) (List.length (c.payload h.bytes)) = some used ∧ 0 < (s.cqr (s.rxr ↑n).cq).freeSlots
      ∧ earlyFrame (s.rxr ↑n) h c = false ∧ h.pipeTo ≤ s.time.elapsed ∧ used = [x] ∧ c.payload h.bytes ≠ []) ∧
    (∃ (s : State) (n : Fin 640) (h : HFrame) (c : RxCopy) (used : List RxSlot), s.rxHalted h.inc = false ∧ (∀ x ∈ (s.rxr ↑n).slots.head?,
      x.hole = 0) ∧ (s.rxr ↑n).guard = none ∧ (s.rxr ↑n).ret = none ∧ (s.rxr ↑n).inc = [] ∧ s.rxHead ↑n = some (h, c) ∧ c.fn < 68 ∧
      takeSlots ((s.rxr ↑n).buffers h.inc) (List.length (c.payload h.bytes)) = some used ∧ 0 < (s.cqr (s.rxr ↑n).cq).freeSlots ∧
      earlyFrame (s.rxr ↑n) h c = true ∧ h.pipeAt ≤ s.time.elapsed ∧ c.dma = false ∧ c.written = 0 ∧ used ≠ []) ∧
    (∃ (s : State) (n : Fin 640) (h : HFrame) (c : RxCopy) (t0 : ℕ) (len : ℕ), (s.rxr ↑n).tw = some (t0, len) ∧ t0 + len ≤ s.time.elapsed
      ∧ (s.rxr ↑n).due = none ∧ s.rxHalted h.inc = false ∧ s.rxHead ↑n = some (h, c) ∧ s.rxLacks (↑n) h c = false) ∧
    (∃ (s : State) (n : Fin 640) (h : HFrame) (c : RxCopy) (t0 : ℕ) (len : ℕ), (s.rxr ↑n).tw = some (t0, len) ∧ t0 + len ≤ s.time.elapsed
      ∧ (s.rxr ↑n).due = none ∧ s.rxHalted h.inc = false ∧ s.rxHead ↑n = some (h, c) ∧ s.rxLacks (↑n) h c = true ∧ (s.rxr ↑n).noBuffer h c
      = true ∧ (s.rxr ↑n).fetching (s.rxr ↑n).h = true) ∧
    (∃ (s : State) (n : Fin 640) (h : HFrame) (c : RxCopy) (t0 : ℕ) (len : ℕ), (s.rxr ↑n).tw = some (t0, len) ∧ t0 + len ≤ s.time.elapsed
      ∧ (s.rxr ↑n).due = none ∧ s.rxHalted h.inc = false ∧ s.rxHead ↑n = some (h, c) ∧ s.rxLacks (↑n) h c = true ∧ ((s.rxr ↑n).noBuffer h
      c = false ∨ (s.rxr ↑n).fetching (s.rxr ↑n).h = false) ∧ c.dma = true) ∧
    (∃ (s : State) (n : Fin 640) (h : HFrame) (c : RxCopy) (t0 : ℕ) (len : ℕ), (s.rxr ↑n).tw = some (t0, len) ∧ t0 + len ≤ s.time.elapsed
      ∧ (s.rxr ↑n).due = none ∧ s.rxHalted h.inc = false ∧ s.rxHead ↑n = some (h, c) ∧ s.rxLacks (↑n) h c = true ∧ ((s.rxr ↑n).noBuffer h
      c = false ∨ (s.rxr ↑n).fetching (s.rxr ↑n).h = false) ∧ c.dma = false ∧ (s.rxr ↑n).noBuffer h c = true) :=
  ⟨⟨rxStore, 152, frame100, copy0, slots1, slot0, by decide +kernel⟩,
    ⟨rxEarly, 152, frame600, copy0, slots2, by decide +kernel⟩,
    ⟨rxStore, 152, frame100, copy0, 5, 7, by decide +kernel⟩,
    ⟨rxFetching, 152, frame100, copy0, 5, 7, by decide +kernel⟩,
    ⟨rxAbandoned, 152, frame600Dma, copyDma, 5, 7, by decide +kernel⟩,
    ⟨rxDry, 152, frame100, copy0, 5, 7, by decide +kernel⟩⟩

theorem wit_HeadFramesAreWrittenOrDropped_b :
    ∃ (s : State) (n : Fin 640) (h : HFrame) (c : RxCopy) (t0 : ℕ) (len : ℕ), (s.rxr ↑n).tw = some (t0, len) ∧ t0 + len ≤ s.time.elapsed ∧
      (s.rxr ↑n).due = none ∧ s.rxHalted h.inc = false ∧ s.rxHead ↑n = some (h, c) ∧ s.rxLacks (↑n) h c = true ∧ ((s.rxr ↑n).noBuffer h c
      = false ∨ (s.rxr ↑n).fetching (s.rxr ↑n).h = false) ∧ c.dma = false ∧ (s.rxr ↑n).noBuffer h c = false :=
  ⟨rxNoEntry, 152, frame100, copy0, 5, 7, by decide +kernel⟩

theorem wit_FlowEntriesAreStagedByIndex :
    (∃ (s : State) (i : Fin 8192), s.noPartner = false ∧ s.partnerHeld [5] = false ∧ byteAt s.flowKeyReg 3 = 0 ∧ (s.setup.flowValid =
      false ∨ ∀ e ∈ s.flowStaging, e.1 = ↑i ∨ e.2.key ≠ s.flowKeyReg)) ∧
    (∃ (s : State) (i : Fin 8192), s.noPartner = false ∧ s.partnerHeld [5] = false ∧ byteAt s.flowKeyReg 3 = 0 ∧ s.setup.flowValid = true
      ∧ (∃ e ∈ s.flowStaging, e.1 ≠ ↑i ∧ e.2.key = s.flowKeyReg)) ∧
    (∃ (s : State), s.noPartner = false ∧ s.partnerHeld [5] = false ∧ byteAt s.flowKeyReg 3 ≠ 0) ∧
    (∃ (s : State) (i : Fin 8192), s.noPartner = false ∧ s.partnerHeld [5] = false ∧ Tbl.find s.flowStaging ↑i = none) ∧
    (∃ (s : State) (i : Fin 8192) (e : FlowEntry), s.noPartner = false ∧ s.partnerHeld [5] = false ∧ Tbl.find s.flowStaging ↑i = some e ∧
      List.length e.key = 40) ∧
    (∃ (s : State) (n : Fin 4) (i : Fin 8192) (c : Instr) (op : ℕ), (c = Instr.flowWrite n i ∧ op = 1 ∨ c = Instr.flowDelete n i ∧ op = 2
      ∨ c = Instr.flowRead n i ∧ op = 3) ∧ s.noPartner = false ∧ s.partnerHeld [5] = true) :=
  ⟨⟨r, 8191, by decide +kernel⟩,
    ⟨flowTwin, 8191, by decide +kernel⟩,
    ⟨flowRsv, by decide +kernel⟩,
    ⟨r, 8191, by decide +kernel⟩,
    ⟨flowTwin, 7, entry5, by decide +kernel⟩,
    ⟨parked, 0, 8191, (.flowWrite 0 8191), 1, by decide +kernel⟩⟩

theorem wit_LinksTrainComeUpAndGoDown_a :
    (∃ (s : State) (m : Fin 16), s.instExists ↑m = true ∧ (s.mac ↑m).link = LinkStage.down ∧ s.usable (↑m / 8) = true ∧ s.netOn (↑m / 8) =
      true) ∧
    (∃ (s : State) (m : Fin 16) (far : BitVec 4) (fec : ℕ) (c : ℕ), s.instExists ↑m = true ∧ (s.mac ↑m).link = LinkStage.training ∧
      s.netOn (↑m / 8) = true ∧ (s.anRuns ↑m = false ∨ (s.mac ↑m).train = true) ∧ s.fecOf (↑m) far.toNat = some fec ∧ c < 8) ∧
    (∃ (s : State) (m : Fin 16) (far : BitVec 4), s.instExists ↑m = true ∧ (s.mac ↑m).link = LinkStage.training ∧ s.netOn (↑m / 8) = true
      ∧ (s.anRuns ↑m = false ∨ (s.mac ↑m).train = true) ∧ s.fecOf (↑m) far.toNat = none) ∧
    (∃ (s : State) (m : Fin 16), s.instExists ↑m = true ∧ (s.mac ↑m).link = LinkStage.training ∧ s.netOn (↑m / 8) = true ∧ (s.anRuns ↑m =
      false ∨ (s.mac ↑m).train = true) ∧ s.anRuns ↑m = true) ∧
    (∃ (s : State) (m : Fin 16), s.instExists ↑m = true ∧ (s.mac ↑m).link = LinkStage.training ∧ s.netOn (↑m / 8) = true ∧ (s.anRuns ↑m =
      false ∨ (s.mac ↑m).train = true) ∧ s.anRuns ↑m = false) ∧
    (∃ (s : State) (m : Fin 16), (s.mac ↑m).link = LinkStage.training ∧ (s.mac ↑m).train = true ∧ s.anRuns ↑m = true ∧ (s.mac ↑m).fails =
      2) :=
  ⟨⟨macDown, 0, by decide +kernel⟩,
    ⟨macTraining, 0, 0x0#4, 3, 0, by decide +kernel⟩,
    ⟨anTraining, 0, 0x0#4, by decide +kernel⟩,
    ⟨anTraining, 0, by decide +kernel⟩,
    ⟨macTraining, 0, by decide +kernel⟩,
    ⟨anFailed, 0, by decide +kernel⟩⟩

theorem wit_LinksTrainComeUpAndGoDown_b :
    (∃ (s : State) (m : Fin 16), (s.mac ↑m).link = LinkStage.training ∧ (s.mac ↑m).train = true ∧ s.anRuns ↑m = true ∧ (s.mac ↑m).fails <
      2) ∧
    (∃ (s : State) (m : Fin 16), (s.mac ↑m).link = LinkStage.training ∧ 3 ≤ (s.mac ↑m).fails) ∧
    (∃ (s : State) (lane : Fin 16), ((s.mac (s.laneInst ↑lane)).link = LinkStage.up ∨ (s.mac (s.laneInst ↑lane)).link = LinkStage.training
      ∨ (s.mac (s.laneInst ↑lane)).link = LinkStage.down ∧ bit (s.mac (s.laneInst ↑lane)).laneOk (↑lane - s.laneInst ↑lane) = true) ∧
      (s.mac (s.laneInst ↑lane)).link = LinkStage.up) ∧
    (∃ (s : State) (m : Fin 16), (s.mac ↑m).link = LinkStage.up) :=
  ⟨⟨anTraining, 0, by decide +kernel⟩,
    ⟨anWaits, 0, by decide +kernel⟩,
    ⟨S, 15, by decide +kernel⟩,
    ⟨S, 0, by decide +kernel⟩⟩

theorem wit_PausesHoldTheirClassesForTheirQuanta_a :
    (∃ (s : State) (m : Fin 16), (∀ c < 8, s.wdClosed (↑m) c = false) ∧ List.filter (fun e => decide (e.1 ≤ s.time.elapsed)) (s.mac
      ↑m).ctrlIn = []) ∧
    (∃ (s : State) (m : Fin 16), (∀ c < 8, s.wdClosed (↑m) c = false) ∧ List.filter (fun e => decide (e.1 ≤ s.time.elapsed)) (s.mac
      ↑m).ctrlIn ≠ [] ∧ (s.mac ↑m).ignoring = true) ∧
    (∃ (s : State) (m : Fin 16) (e : ℕ) (l : List (ℕ × ℕ)) (f : CurFrame) (p : ℕ × ℕ), (∀ c < 8, s.wdClosed (↑m) c = false) ∧ List.filter
      (fun e => decide (e.1 ≤ s.time.elapsed)) (s.mac ↑m).ctrlIn = [(e, l)] ∧ (s.mac ↑m).ignoring = false ∧ (List.map (fun p => p.1)
      l).Nodup ∧ (s.sch ↑m).cur = some f ∧ p ∈ l ∧ p.1 = f.cls ∧ 0 < p.2) ∧
    (∃ (s : State) (m : Fin 16) (c : Fin 8) (e : ℕ), Tbl.find (s.mac ↑m).paused ↑c = some e ∧ e ≤ s.time.elapsed) ∧
    (∃ (s : State) (m : Fin 16) (c : Fin 8) (e : ℕ), Tbl.find (s.mac ↑m).paused ↑c = some e ∧ s.time.elapsed < e) ∧
    (∃ (s : State) (m : Fin 16) (c : Fin 8), s.wdClosed ↑m ↑c = true ∧ s.heldClass ↑m ↑c = true) :=
  ⟨⟨r, 15, by decide +kernel⟩,
    ⟨pauseDue, 0, by decide +kernel⟩,
    ⟨pauseTaken, 0, 100, pauses, frameSent, pause37, by decide +kernel⟩,
    ⟨pausedNow, 0, 3, 100, by decide +kernel⟩,
    ⟨pausedNow, 0, 7, 101, by decide +kernel⟩,
    ⟨wdHeld, 0, 3, by decide +kernel⟩⟩

theorem wit_PausesHoldTheirClassesForTheirQuanta_b :
    (∃ (s : State) (m : Fin 16) (c : Fin 8), s.wdClosed ↑m ↑c = true ∧ s.heldClass ↑m ↑c = false ∧ (∀ d < 8, d ≠ ↑c → s.wdClosed (↑m) d =
      false)) ∧
    (∃ (s : State) (m : Fin 16), s.noPartner = false ∧ s.partnerHeld [↑m / 8] = false) ∧
    (∃ (s : State) (m : Fin 16) (rest : List CtrlFrame) (q : ℕ), (s.mac ↑m).link = LinkStage.up ∧ (s.sch ↑m).cur = none ∧ s.netOn (↑m / 8)
      = true ∧ s.idleEngine [↑m / 8] = false ∧ (s.sch ↑m).ctrl = CtrlFrame.pause q :: rest) ∧
    (∃ (s : State) (m : Fin 16) (rest : List CtrlFrame), (s.mac ↑m).link = LinkStage.up ∧ (s.sch ↑m).cur = none ∧ s.netOn (↑m / 8) = true
      ∧ s.idleEngine [↑m / 8] = false ∧ (s.sch ↑m).ctrl = CtrlFrame.lldp :: rest) ∧
    (∃ (s : State) (m : Fin 16) (rest : List CtrlFrame) (v : ℕ) (q : ℕ) (r : ℕ), (s.mac ↑m).link = LinkStage.up ∧ (s.sch ↑m).cur = none ∧
      s.netOn (↑m / 8) = true ∧ s.idleEngine [↑m / 8] = false ∧ (s.sch ↑m).ctrl = CtrlFrame.pfc v q :: rest ∧ CtrlFrame.pause r ∈ rest) ∧
    (∃ (s : State) (m : Fin 16) (rest : List CtrlFrame) (v : ℕ) (q : ℕ) (c : ℕ), (s.mac ↑m).link = LinkStage.up ∧ (s.sch ↑m).cur = none ∧
      s.netOn (↑m / 8) = true ∧ s.idleEngine [↑m / 8] = false ∧ (s.sch ↑m).ctrl = CtrlFrame.pfc v q :: rest ∧ c ∈ s.vectorClasses (↑m)
      (List.foldl pfcMerge (0, []) (s.sch ↑m).ctrl).1) :=
  ⟨⟨wdOver, 0, 7, by decide +kernel⟩,
    ⟨r, 15, by decide +kernel⟩,
    ⟨ctlsPause, 8, ctlRest, 65535, by decide +kernel⟩,
    ⟨ctlsLldp, 8, ctlRest, by decide +kernel⟩,
    ⟨ctlsPfc, 8, ctlRest, 136, 65535, 7, by decide +kernel⟩,
    ⟨ctlsPfc, 8, ctlRest, 136, 65535, 3, by decide +kernel⟩⟩

theorem wit_PausesHoldTheirClassesForTheirQuanta_c :
    (∃ (s : State) (m : Fin 16) (c : Fin 8), (s.mac ↑m).link = LinkStage.up ∧ s.pfcOn ↑m ↑c = true ∧ bit (tget s.hamper.xoff ↑m) ↑c =
      true) ∧
    (∃ (s : State) (m : Fin 16), (s.mac ↑m).link = LinkStage.up ∧ s.macCfgFcMode ↑m = 1 ∧ (s.mac ↑m).xoffOn = true) ∧
    (∃ (s : State) (m : Fin 16), (s.mac ↑m).link = LinkStage.up ∧ s.macCfgLldpAgent ↑m = 1) :=
  ⟨⟨xoffOn, 0, 7, by decide +kernel⟩,
    ⟨pauseOn, 0, by decide +kernel⟩,
    ⟨lpiOn, 0, by decide +kernel⟩⟩

theorem wit_WatchLanesWakeAndCagesPowerModules_a :
    (∃ (s : State) (p : Fin 2) (x : RxFrame) (i : ℕ), (s.watchLane ↑p).running = true ∧ (s.watchLane ↑p).ready = true ∧ x.fcsGood = true ∧
      x.sofGood = true ∧ 64 ≤ List.length x.bytes + 4 ∧ List.length x.bytes + 4 ≤ 2048 ∧ List.find? (s.patMatch (↑p) x.bytes) (List.range
      32) = some i ∧ s.power.mode = PwrMode.sleep ∧ bit s.wakeEnEn 3 = true) ∧
    (∃ (s : State) (p : Fin 2) (x : RxFrame), (s.watchLane ↑p).running = true ∧ (s.watchLane ↑p).ready = true ∧ x.fcsGood = true ∧
      x.sofGood = true ∧ 64 ≤ List.length x.bytes + 4 ∧ List.length x.bytes + 4 ≤ 2048 ∧ List.find? (s.patMatch (↑p) x.bytes) (List.range
      32) = none ∧ s.magic (↑p) x.bytes = true ∧ s.power.mode = PwrMode.sleep ∧ bit s.wakeEnEn 4 = true) ∧
    (∃ (s : State) (p : Fin 2) (x : RxFrame), (s.watchLane ↑p).running = true ∧ (s.watchLane ↑p).ready = true ∧ x.fcsGood = true ∧
      x.sofGood = true ∧ 64 ≤ List.length x.bytes + 4 ∧ List.length x.bytes + 4 ≤ 2048 ∧ List.find? (s.patMatch (↑p) x.bytes) (List.range
      32) = none ∧ s.magic (↑p) x.bytes = false) ∧
    (∃ (s : State) (p : Fin 2), (s.watchLane ↑p).running = true ∧ (s.watchLane ↑p).ready = false) ∧
    (∃ (s : State) (p : Fin 2) (w : BitVec 8), s.cagesSeen = true ∧ (s.cage ↑p).present = false ∧ s.power.mode ≠ PwrMode.deepSleep ∧ 80 <
      w.toNat) ∧
    (∃ (s : State) (p : Fin 2) (j : ℕ), s.cagesSeen = true ∧ (s.cage ↑p).present = true ∧ j < 8 ∧ bit (s.mac (s.laneInst (8 * ↑p +
      j))).laneOk (8 * ↑p + j - s.laneInst (8 * ↑p + j)) = true) :=
  ⟨⟨watchPat, 1, rxGood, 5, by decide +kernel⟩,
    ⟨watchMagic, 1, rxMagic, by decide +kernel⟩,
    ⟨watch, 1, rxGood, by decide +kernel⟩,
    ⟨watchCold, 1, by decide +kernel⟩,
    ⟨r, 1, 0xff#8, by decide +kernel⟩,
    ⟨macUp, 1, 0, by decide +kernel⟩⟩

theorem wit_WatchLanesWakeAndCagesPowerModules_b :
    (∃ (s : State) (p : Fin 2) (j : ℕ), (s.cage ↑p).supply = true ∧ (s.cage ↑p).fault = false ∧ j < 8) ∧
    (∃ (s : State) (p : Fin 2), (s.cage ↑p).present = true ∧ (s.cage ↑p).supply = true ∧ s.noPartner = false) ∧
    (∃ (s : State) (p : Fin 2) (d : Bytes), (s.cage ↑p).present = true ∧ (s.cage ↑p).supply = true ∧ List.length d = 256) ∧
    (∃ (s : State) (p : Fin 2) (v : BitVec 8), (s.cage ↑p).present = true ∧ (s.cage ↑p).supply = true ∧ v ≠ 0) ∧
    (∃ (s : State) (p : Fin 2) (w : BitVec 8), (s.cage ↑p).inReset = true ∧ 80 < w.toNat) ∧
    (∃ (s : State) (p : Fin 2), s.noPartner = false ∧ (s.cage ↑p).fault = true ∧ (s.cage ↑p).present = true) :=
  ⟨⟨r, 1, 0, by decide +kernel⟩,
    ⟨macDown, 1, by decide +kernel⟩,
    ⟨macDown, 1, mirror, by decide +kernel⟩,
    ⟨macDown, 1, 0x1#8, by decide +kernel⟩,
    ⟨cageResets, 1, 0xff#8, by decide +kernel⟩,
    ⟨cageFaulty, 1, by decide +kernel⟩⟩

theorem wit_TallyReadsFreezeWhatTheyShow_a :
    (∃ (s : State) (n : Fin 4) (m : ℕ), s.pair.fenced = false ∧ (s.power.mode = PwrMode.run ∨ s.power.mode = PwrMode.idle ∨ s.power.mode =
      PwrMode.entering) ∧ s.partnerHeld [5] = false ∧ m ≠ ↑n) ∧
    (∃ (s : State), s.pair.fenced = false ∧ (s.power.mode = PwrMode.run ∨ s.power.mode = PwrMode.idle ∨ s.power.mode = PwrMode.entering) ∧
      s.partnerHeld [5] = true) ∧
    (∃ (s : State) (n : Fin 4), s.noPartner = false ∧ s.partnerHeld [5] = false ∧ (s.of ↑n).snapNow ≠ none) ∧
    (∃ (s : State) (n : Fin 4) (set : BitVec 4), s.noPartner = false ∧ s.partnerHeld [5] = false ∧ (s.of ↑n).snapNow = none ∧ setGood
      set.toNat = false) ∧
    (∃ (s : State) (n : Fin 4) (set : BitVec 4), s.noPartner = false ∧ s.partnerHeld [5] = false ∧ (s.of ↑n).snapNow = none ∧ setGood
      set.toNat = true ∧ (s.of ↑n).snapLen < 64 + 8 * setSize set.toNat) ∧
    (∃ (s : State) (n : Fin 4) (set : BitVec 4), s.noPartner = false ∧ s.partnerHeld [5] = false ∧ (s.of ↑n).snapNow = none ∧ setGood
      set.toNat = true ∧ 64 + 8 * setSize set.toNat ≤ (s.of ↑n).snapLen) :=
  ⟨⟨r, 3, 0, by decide +kernel⟩,
    ⟨parked, by decide +kernel⟩,
    ⟨snapBusy, 3, by decide +kernel⟩,
    ⟨r, 3, 0x8#4, by decide +kernel⟩,
    ⟨r, 3, 0x0#4, by decide +kernel⟩,
    ⟨snapLong, 3, 0x0#4, by decide +kernel⟩⟩

theorem wit_TallyReadsFreezeWhatTheyShow_b :
    (∃ (s : State) (n : Fin 4) (x : Snapshot), s.idleEngine [2, 5] = false ∧ (s.of ↑n).snapNow = some x) ∧
    (∃ (s : State), s.pair.warm = false) ∧
    (∃ (s : State), s.pair.warm = true ∧ (List.map (fun e => e.1) s.tally.base).Nodup) ∧
    (∃ (s : State), s.coreRuns = false) ∧
    (∃ (s : State) (i : ℕ), s.coreRuns = true ∧ tget s.tally.frac (tallyKey Ctr.shellEnergyUj.code 0 0) < 2 ^ 16 ∧ tget s.tally.count
      (tallyKey Ctr.shellEnergyUj.code 0 0) < 2 ^ 48 ∧ i < 20) ∧
    (∃ (s : State), s.coreRuns = true ∧ tget s.tally.frac (tallyKey Ctr.shellEnergyUj.code 0 0) < 2 ^ 16 ∧ tget s.tally.count (tallyKey
      Ctr.shellEnergyUj.code 0 0) < 2 ^ 48 ∧ s.tally.skipEnergy = true) :=
  ⟨⟨snapBusy, 3, shot, by decide +kernel⟩,
    ⟨r, by decide +kernel⟩,
    ⟨parkedHostEvicting, by decide +kernel⟩,
    ⟨deep, by decide +kernel⟩,
    ⟨r, 0, by decide +kernel⟩,
    ⟨skipping, by decide +kernel⟩⟩

theorem wit_TallyReadsFreezeWhatTheyShow_c :
    ∃ (s : State) (f : ℕ), s.coreRuns = true ∧ tget s.tally.frac (tallyKey Ctr.shellEnergyUj.code 0 0) < 2 ^ 16 ∧ tget s.tally.count
      (tallyKey Ctr.shellEnergyUj.code 0 0) < 2 ^ 48 ∧ s.tally.skipEnergy = false ∧ f < 64 ∧ tget s.tally.count (tallyKey
      Ctr.energyUj.code 0 f) < 2 ^ 48 ∧ tget s.tally.frac (tallyKey Ctr.energyUj.code 0 f) < 2 ^ 16 :=
  ⟨r, 0, by decide +kernel⟩

theorem wit_FaultsHandOverOrFence_a :
    (∃ (s : State) (e : Eng), Acting e s ∧ s.bistRuns e = true) ∧
    (∃ (s : State) (e : Eng) (lane : Fin 12) (w : BitVec 288), Acting e s ∧ s.lockedDir (FlitPath.toEng e) = true ∧
      { (s.lockOf (FlitPath.toEng e)).lane ↑lane with prev := w.toNat }.read (((s.lockOf (FlitPath.toEng e)).lane ↑lane).flit w.toNat) =
      FlitIn.bad ∧ 3 ≤ ((s.lockOf (FlitPath.toEng e)).lane ↑lane).bads ∧ s.pair.warm = false) ∧
    (∃ (s : State) (e : Eng), s.pair.fenced = false ∧ s.pair.verdict = false ∧ s.divergedLate = false ∧ s.pair.handover = none ∧
      s.isolated = false ∧ (s.eng e).state = EngState.active ∧ (s.eng (engOther e)).state ≠ EngState.standby) ∧
    (∃ (s : State) (e : Eng), s.pair.fenced = false ∧ s.pair.verdict = true ∧ (∀ x ∈ s.pair.relq, x.1 ≠ e)) ∧
    (∃ (s : State), s.coreRuns = true ∧ s.pair.fenced = false) ∧
    (∃ (payload : ℕ) (seq : ℕ) (ep : ℕ) (scr : ℕ) (l : LaneRx), payload < 2 ^ 256 ∧ l.seq = seq ∧ l.ep = ep ∧ l.scr = scr) :=
  ⟨⟨r, .a, by unfold Acting; decide +kernel⟩,
    ⟨badLane, .a, 11, 0x0#288, by unfold Acting; decide +kernel⟩,
    ⟨resyncCopy, .a, by decide +kernel⟩,
    ⟨rxHeld, .a, by decide +kernel⟩,
    ⟨r, by decide +kernel⟩,
    ⟨0, 0, 1, 0, lane0, by decide +kernel⟩⟩

theorem wit_FaultsHandOverOrFence_b :
    (∃ (e : ℕ), e < 256) ∧
    (∃ (s : State) (p : FlitPath) (lane : Fin 12), s.isolated = false ∧ ↑lane < flitLanes p ∧ Settled s ∧ ((s.lockOf p).lane ↑lane).st ≠
      LaneLock.locked) ∧
    (∃ (s : State) (p : FlitPath) (lane : Fin 12) (w : BitVec 288) (d : FlitIn), s.isolated = false ∧ ↑lane < flitLanes p ∧ Settled s ∧
      ((s.lockOf p).lane ↑lane).st = LaneLock.locked ∧ { (s.lockOf p).lane ↑lane with prev := w.toNat }.read (((s.lockOf p).lane
      ↑lane).flit w.toNat) = d ∧ d ≠ FlitIn.bad) :=
  ⟨⟨0, by decide +kernel⟩,
    ⟨searching, (.toEng .b), 11, by unfold Settled; decide +kernel⟩,
    ⟨r, (.toEng .a), 11, flitEpoch, readEpoch1, by unfold Settled; decide +kernel⟩⟩

theorem wit_HandOversEndWithTheOtherEngineActive_a :
    (∃ (s : State) (e : Eng), s.paired = true ∧ s.active = some e ∧ s.transition = false ∧ s.isolated = false ∧ s.noPartner = false ∧
      s.pair.warm = false) ∧
    (∃ (s : State) (e : Eng), s.paired = true ∧ s.active = some e ∧ s.transition = false ∧ s.isolated = false ∧ s.noPartner = false ∧
      s.pair.warm = true) ∧
    (∃ (s : State) (e : Eng), s.paired = true ∧ s.active = some e ∧ s.transition = false ∧ s.isolated = false ∧ s.pair.warm = false ∧
      s.pairSwapSwapPeriod ≠ 0) ∧
    (∃ (s : State) (e : Eng) (i : ℕ), s.paired = true ∧ s.active = some e ∧ s.transition = false ∧ s.pair.ready = true ∧ s.pair.warm =
      true ∧ i ∈ warmIslands (engOther e)) ∧
    (∃ (s : State), s.paired = false ∧ s.noPartner = false) ∧
    (∃ (s : State), s.paired = false ∧ s.pair.warm = false ∧ s.pair.fenced = false ∧ s.pairSwapSwapPeriod ≠ 0) :=
  ⟨⟨r, .a, by decide +kernel⟩,
    ⟨tallyWarm, .a, by decide +kernel⟩,
    ⟨r, .a, by decide +kernel⟩,
    ⟨warmReady, .a, 7, by decide +kernel⟩,
    ⟨resyncCopy, by decide +kernel⟩,
    ⟨resyncCopy, by decide +kernel⟩⟩

theorem wit_HandOversEndWithTheOtherEngineActive_b :
    (∃ (s : State) (h : Handover), s.pair.handover = some h ∧ h.warm = false ∧ s.canRaise h = false) ∧
    (∃ (s : State) (h : Handover), s.pair.handover = some h ∧ h.warm = false ∧ s.canRaise h = true ∧ Settled s ∧ h.swap = false) ∧
    (∃ (s : State) (h : Handover), s.pair.handover = some h ∧ h.warm = true ∧ h.fallen = true ∧ h.drained = false) ∧
    (∃ (s : State) (h : Handover) (t0 : ℕ), s.pair.handover = some h ∧ h.warm = true ∧ h.drained = true ∧ s.canRaise h = true ∧ Settled s
      ∧ s.pair.holdAt = some t0 ∧ tget s.tally.count (tallyKey Ctr.holdGapNs.code 0 0) < 2 ^ 48) :=
  ⟨⟨over1, hand1, by decide +kernel⟩,
    ⟨over0, hand0, by unfold Settled; decide +kernel⟩,
    ⟨over2, hand2, by decide +kernel⟩,
    ⟨over3, hand3, 5, by unfold Settled; decide +kernel⟩⟩

theorem wit_DivergencesEndInAVerdict_a :
    (∃ (s : State) (typ : ℕ), s.pending = [] ∧ s.coreRuns = true ∧ s.comparing = true ∧ s.pair.differs = some typ ∧ s.pair.diverged = none
      ∧ s.time.due = []) ∧
    (∃ (s : State) (e : ℕ) (typ : ℕ) (t64 : ℕ), s.pair.diverged = some (e, typ, t64) ∧ s.comparing = true ∧ s.transition = false ∧
      s.isolated = false ∧ s.time.jcycle < e + 16) ∧
    (∃ (s : State) (e : ℕ) (typ : ℕ) (t64 : ℕ) (m : ℕ) (f : CurFrame), s.pair.diverged = some (e, typ, t64) ∧ s.comparing = true ∧
      s.transition = false ∧ s.isolated = false ∧ e + 16 ≤ s.time.jcycle ∧ m < 16 ∧ (s.sch m).cur = some f ∧ (s.mac m).link = LinkStage.up
      ∧ f.start ≤ s.time.elapsed) ∧
    (∃ (s : State) (e : Eng) (test : SelfTest), s.pair.verdict = true ∧ s.active = some e ∧ s.pair.handover = none ∧ s.pair.fenced = false
      ∧ s.pair.warm = false ∧ Settled s ∧ s.selfPass test Eng.a = true ∧ s.selfPass test Eng.b = true) ∧
    (∃ (s : State) (e : Eng) (test : SelfTest), s.pair.verdict = true ∧ s.active = some e ∧ s.pair.handover = none ∧ s.pair.fenced = false
      ∧ s.pair.warm = false ∧ Settled s ∧ s.selfPass test e = true ∧ s.selfPass test (engOther e) = false) ∧
    (∃ (s : State) (e : Eng) (test : SelfTest), s.pair.verdict = true ∧ s.active = some e ∧ s.pair.handover = none ∧ s.pair.fenced = false
      ∧ s.pair.warm = false ∧ Settled s ∧ s.selfPass test e = false ∧ s.selfPass test (engOther e) = true) :=
  ⟨⟨differing, 31, by decide +kernel⟩,
    ⟨divergedEarly, 5, 2, 7, by decide +kernel⟩,
    ⟨divergedLate, 5, 2, 7, 0, frameSent, by decide +kernel⟩,
    ⟨rxHeld, .a, ⟨true, true⟩, by unfold Settled; decide +kernel⟩,
    ⟨rxHeld, .a, ⟨true, false⟩, by unfold Settled; decide +kernel⟩,
    ⟨rxHeld, .a, ⟨false, true⟩, by unfold Settled; decide +kernel⟩⟩

theorem wit_DivergencesEndInAVerdict_b :
    (∃ (s : State) (e : Eng) (test : SelfTest), s.pair.verdict = true ∧ s.active = some e ∧ s.pair.handover = none ∧ s.pair.fenced = false
      ∧ s.pair.warm = false ∧ Settled s ∧ s.selfPass test Eng.a = false ∧ s.selfPass test Eng.b = false) ∧
    (∃ (s : State) (e : Eng) (test : SelfTest) (t0 : ℕ), s.pair.verdict = true ∧ s.active = some e ∧ s.pair.handover = none ∧
      s.pair.fenced = false ∧ s.pair.warm = false ∧ Settled s ∧ (s.selfPass test Eng.a = true ∨ s.selfPass test Eng.b = true) ∧
      s.pair.holdAt = some t0 ∧ tget s.tally.count (tallyKey Ctr.holdGapNs.code 0 0) < 2 ^ 48) ∧
    (∃ (s : State) (e : Eng) (test : SelfTest) (m : ℕ) (f : CurFrame), s.pair.verdict = true ∧ s.active = some e ∧ s.pair.handover = none
      ∧ s.pair.fenced = false ∧ s.pair.warm = false ∧ Settled s ∧ (s.selfPass test Eng.a = true ∨ s.selfPass test Eng.b = true) ∧ m < 16 ∧
      (s.sch m).cur = some f ∧ f.held = true ∧ (s.mac m).link = LinkStage.up) :=
  ⟨⟨rxHeld, .a, ⟨false, false⟩, by unfold Settled; decide +kernel⟩,
    ⟨verdictHeld, .a, ⟨true, true⟩, 5, by unfold Settled; decide +kernel⟩,
    ⟨verdictHeld, .a, ⟨true, true⟩, 0, frameKept, by unfold Settled; decide +kernel⟩⟩

theorem wit_EnginesRejoinThroughTheBulkCopy_a :
    (∃ (s : State) (e : Eng), s.noPartner = false ∧ ((s.eng e).state = EngState.failed ∨ (s.eng e).state = EngState.retired)) ∧
    (∃ (s : State) (e : Eng), (s.eng e).state = EngState.requalifying) ∧
    (∃ (s : State), s.pair.resync = some ResyncSt.copy ∧ s.onWire = true) ∧
    (∃ (s : State) (p : SealedSet), s.pair.resync = some ResyncSt.copy ∧ s.onWire = false ∧ s.setup.pendingSet = some p ∧ p.deferred =
      false) ∧
    (∃ (s : State) (e : Eng), s.pair.resync = some ResyncSt.stall ∧ s.joining = some e ∧ Settled s ∧ s.pair.handover = none ∧
      s.pair.verdict = false) ∧
    (∃ (s : State) (e : Eng), s.pair.resync ≠ none ∧ s.joining = some e ∧ Settled s) :=
  ⟨⟨solo, .b, by decide +kernel⟩,
    ⟨requal, .b, by decide +kernel⟩,
    ⟨copyOnWire, by decide +kernel⟩,
    ⟨copyPending, setFine, by decide +kernel⟩,
    ⟨stalled, .b, by unfold Settled; decide +kernel⟩,
    ⟨resyncCopy, .b, by unfold Settled; decide +kernel⟩⟩

theorem wit_EnginesRejoinThroughTheBulkCopy_b :
    (∃ (s : State) (c : Instr) (f : Fin 68) (whole : Bool) (k : DbKind) (v : BitVec 64), Rung c f whole k v ∧ s.noPartner = false ∧
      s.partnerHeld [2] = true ∧ s.pair.handover.isSome = true ∧ (s.fn ↑f).state = FnState.evicting) ∧
    (∃ (s : State) (c : Instr) (f : Fin 68) (whole : Bool) (k : DbKind) (v : BitVec 64), Rung c f whole k v ∧ s.noPartner = false ∧
      s.partnerHeld [2] = true ∧ (s.pair.handover = none ∨ (s.fn ↑f).state ≠ FnState.evicting) ∧ (s.holding = false ∨ (List.filter (fun y
      => decide (s.heldLink y.op = s.fnLink ↑f)) s.pair.held).length < 8192)) ∧
    (∃ (s : State) (c : Instr) (f : Fin 68) (whole : Bool) (k : DbKind) (v : BitVec 64), Rung c f whole k v ∧ s.noPartner = false ∧
      s.partnerHeld [2] = true ∧ (s.pair.handover = none ∨ (s.fn ↑f).state ≠ FnState.evicting) ∧ s.holding = true ∧ 8192 ≤ (List.filter
      (fun y => decide (s.heldLink y.op = s.fnLink ↑f)) s.pair.held).length ∧ (∃ y ∈ s.pair.merge, y.op.sameKey (HeldOp.doorbell (↑f)
      k.page whole v.toNat) = true)) ∧
    (∃ (s : State) (c : Instr) (f : Fin 68) (go : BitVec 8) (req : MbxReq) (op : ℕ), Requests c f go req op ∧ s.noPartner = false ∧
      s.partnerHeld [2, 5] = true ∧ (s.pair.handover = none ∨ (s.fn ↑f).state ≠ FnState.evicting) ∧ (List.filter (fun y => decide
      (s.heldLink y.op = s.fnLink ↑f)) s.pair.held).length + 9 ≤ 8192) ∧
    (∃ (s : State) (n : Fin 4), s.noPartner = false ∧ s.partnerHeld [5] = true ∧ (s.pair.handover = none ∨ (s.fn (64 + ↑n)).state ≠
      FnState.evicting) ∧ (List.filter (fun y => decide (s.heldLink y.op = s.fnLink (64 + ↑n))) s.pair.held).length < 8192) :=
  ⟨⟨parkedHostEvicting, dbEvr, 67, true, .evr, posEvr, .inr (.inr (.inr (.inl ⟨rfl, rfl⟩))), by decide +kernel⟩,
    ⟨parkedHost, dbTx, 3, true, .tx, pos76, .inl ⟨pos76, rfl, rfl, by decide⟩, by decide +kernel⟩,
    ⟨heldFull, dbTx, 3, true, .tx, pos76, .inl ⟨pos76, rfl, rfl, by decide⟩, by decide +kernel⟩,
    ⟨parked, (.query 67 1 reqQuery), 67, 0x1#8, reqQuery, 3, by unfold Requests; decide +kernel⟩,
    ⟨parked, 3, by decide +kernel⟩⟩

theorem wit_ChannelsWarnThenReset_a :
    (∃ (s : State) (ch : Fin 5), s.loCounts ↑ch = false ∧ s.loOver ↑ch = false) ∧
    (∃ (s : State) (ch : Fin 5) (c : ℕ), s.loCounts ↑ch = true ∧ s.loOver ↑ch = false ∧ c ≠ ↑ch) ∧
    (∃ (s : State) (ch : Fin 5), s.loCounts ↑ch = true ∧ s.loOver ↑ch = true ∧ Settled s ∧ (s.chan ↑ch).state = LoState.counting) ∧
    (∃ (s : State) (ch : Fin 5), s.loCounts ↑ch = true ∧ s.loOver ↑ch = true ∧ Settled s ∧ (s.chan ↑ch).state = LoState.warning ∧ (s.chan
      ↑ch).test = false) ∧
    (∃ (s : State) (ch : Fin 5) (pc : Word) (c : Instr) (test : Bool), s.loCounts ↑ch = true ∧ Settled s ∧ ((s.chan ↑ch).state =
      LoState.counting ∧ c = Instr.lookoutExpiry ch pc ∧ test = false ∨ s.noPartner = false ∧ c = Instr.loCmdTest ch pc ∧ test = true ∨
      (s.chan ↑ch).state = LoState.counting ∧ s.loOver ↑ch = false ∧ c = Instr.badServe ch pc ∧ test = false) ∧ ↑ch < 2 ∧ s.power.domain =
      true ∧ s.loStopped ↑ch = true ∧ (s.power.mode = PwrMode.run ∨ s.power.mode = PwrMode.idle)) ∧
    (∃ (s : State) (ch : Fin 5) (pc : Word) (c : Instr) (x : LoChan), s.loCounts ↑ch = true ∧ (s.chan ↑ch).state = LoState.warning ∧ ((c =
      Instr.badServe ch pc ∧ s.loOver ↑ch = false ∧ x = { LoChan.init ↑ch with badServe := true }) ∨ c = Instr.warningPeriodClose ch pc ∧
      (s.chan ↑ch).stalled = false ∧ (s.chan ↑ch).test = false ∧ x = { LoChan.init ↑ch with expiry := true }) ∧ ↑ch = 4) :=
  ⟨⟨off, 4, by decide +kernel⟩,
    ⟨r, 4, 0, by decide +kernel⟩,
    ⟨timed, 0, by unfold Settled; decide +kernel⟩,
    ⟨warnOver, 1, by unfold Settled; decide +kernel⟩,
    ⟨parked, 0, pcMax, (.badServe 0 0xFFFFFFFF), false, by unfold Settled; decide +kernel⟩,
    ⟨warned4, 4, pcMax, (.badServe 4 0xFFFFFFFF), chanBad4, by decide +kernel⟩⟩

theorem wit_ChannelsWarnThenReset_b :
    (∃ (s : State) (ch : Fin 5) (pc : Word) (c : Instr) (x : LoChan), s.loCounts ↑ch = true ∧ (s.chan ↑ch).state = LoState.warning ∧ ((c =
      Instr.badServe ch pc ∧ s.loOver ↑ch = false ∧ x = { LoChan.init ↑ch with badServe := true }) ∨ c = Instr.warningPeriodClose ch pc ∧
      (s.chan ↑ch).stalled = false ∧ (s.chan ↑ch).test = false ∧ x = { LoChan.init ↑ch with expiry := true }) ∧ ↑ch ≠ 4 ∧ (∀ e ∈
      s.lookout.hold, e.1 ≠ loPartner ↑ch ∨ e.2.1 + 16 ≤ s.time.jcycle)) ∧
    (∃ (s : State) (ch : Fin 5) (pc : Word) (c : Instr) (x : LoChan), s.loCounts ↑ch = true ∧ (s.chan ↑ch).state = LoState.warning ∧ ((c =
      Instr.badServe ch pc ∧ s.loOver ↑ch = false ∧ x = { LoChan.init ↑ch with badServe := true }) ∨ c = Instr.warningPeriodClose ch pc ∧
      (s.chan ↑ch).stalled = false ∧ (s.chan ↑ch).test = false ∧ x = { LoChan.init ↑ch with expiry := true }) ∧ ↑ch ≠ 4 ∧ (∃ e ∈
      s.lookout.hold, e.1 = loPartner ↑ch ∧ s.time.jcycle < e.2.1 + 16)) ∧
    (∃ (s : State) (ch : Fin 5), s.loCounts ↑ch = true ∧ (s.chan ↑ch).state = LoState.warning ∧ (s.chan ↑ch).stalled = false ∧ (s.chan
      ↑ch).test = true ∧ Settled s) ∧
    (∃ (s : State) (ch : Fin 5), ↑ch < 2 ∧ s.power.mode ≠ PwrMode.off) :=
  ⟨⟨warned0, 0, pcMax, (.badServe 0 0xFFFFFFFF), chanBad0, by decide +kernel⟩,
    ⟨jointWarn, 0, pcMax, (.badServe 0 0xFFFFFFFF), chanBad0, by decide +kernel⟩,
    ⟨warnTest, 4, by unfold Settled; decide +kernel⟩,
    ⟨r, 0, by decide +kernel⟩⟩

theorem wit_ResetsRelinquishRestartOrFence_a :
    (∃ (s : State) (e : ℕ × ℕ × Bool) (r : List (ℕ × ℕ × Bool)), s.lookout.hold = e :: r ∧ s.time.jcycle < e.2.1 + 16) ∧
    (∃ (s : State) (e : ℕ × ℕ × Bool) (r : List (ℕ × ℕ × Bool)), s.lookout.hold = e :: r ∧ e.2.1 + 16 ≤ s.time.jcycle ∧ e.2.2 = false ∧
      Acting (loEngine e.1) s) ∧
    (∃ (s : State) (e : ℕ × ℕ × Bool) (r : List (ℕ × ℕ × Bool)) (f : ℕ), s.lookout.hold = e :: r ∧ e.2.1 + 16 ≤ s.time.jcycle ∧ e.2.2 =
      true ∧ e.1 < 2 ∧ f < 68 ∧ (s.fn f).state = FnState.checking) ∧
    (∃ (s : State) (e : ℕ × ℕ × Bool) (r : List (ℕ × ℕ × Bool)), s.lookout.hold = e :: r ∧ e.2.1 + 16 ≤ s.time.jcycle ∧ e.2.2 = true ∧ 2 ≤
      e.1 ∧ s.pair.fenced = false) ∧
    (∃ (s : State) (e : ℕ × ℕ) (r : List (ℕ × ℕ)), s.lookout.warnAt = e :: r ∧ s.time.jcycle < e.2 + 16) ∧
    (∃ (s : State) (e : ℕ × ℕ) (r : List (ℕ × ℕ)), s.lookout.warnAt = e :: r ∧ e.2 + 16 ≤ s.time.jcycle) :=
  ⟨⟨jointWarn, req1, reqNone, by decide +kernel⟩,
    ⟨holdAlone, req2, reqNone, by unfold Acting; decide +kernel⟩,
    ⟨holdJointL, req3, reqNone, 67, by decide +kernel⟩,
    ⟨holdJointF, req4, reqNone, by decide +kernel⟩,
    ⟨warnWaits, warnWait, warnNone, by decide +kernel⟩,
    ⟨warnComes, warnDue, warnNone, by decide +kernel⟩⟩

theorem wit_ResetsRelinquishRestartOrFence_b :
    (∃ (s : State) (f : ℕ), s.lookout.restart = true ∧ f < 68 ∧ (s.fn f).busy = true) ∧
    (∃ (s : State) (e : ℕ × ℕ × ℕ × ℕ × ℕ × ℕ) (r : List (ℕ × ℕ × ℕ × ℕ × ℕ × ℕ)), s.lookout.evidence = e :: r ∧ s.lookout.supRest = true) ∧
    (∃ (s : State) (e : ℕ × ℕ × ℕ × ℕ × ℕ × ℕ) (r : List (ℕ × ℕ × ℕ × ℕ × ℕ × ℕ)), s.lookout.evidence = e :: r ∧ s.lookout.supRest = false
      ∧ s.supply.braced = false ∧ regionBase 3 + (s.region 3).head ∉ s.log.badRows) :=
  ⟨⟨restarting, 3, by decide +kernel⟩,
    ⟨evWaits, ev, evNone, by decide +kernel⟩,
    ⟨evGoes, ev, evNone, by decide +kernel⟩⟩

theorem wit_SupplyLossBracesResetsAndShutsDown_a :
    (∃ (s : State), s.power.mode ≠ PwrMode.off ∧ s.supply.acFail = false) ∧
    (∃ (s : State), s.power.mode ≠ PwrMode.off ∧ s.supply.acFail = true) ∧
    (∃ (s : State), s.power.mode = PwrMode.off ∧ s.supply.acFail = false) ∧
    (∃ (s : State), s.power.mode = PwrMode.off ∧ s.supply.acFail = true) ∧
    (∃ (s : State), s.supply.acFail = true ∧ s.supply.graceAt.isSome = true ∧ s.coreRuns = true) ∧
    (∃ (s : State) (i : ℕ), s.supply.acFail = true ∧ s.supply.graceAt.isSome = true ∧ i < 20) :=
  ⟨⟨r, by decide +kernel⟩,
    ⟨acLost, by decide +kernel⟩,
    ⟨off, by decide +kernel⟩,
    ⟨acLostOff, by decide +kernel⟩,
    ⟨acLost, by decide +kernel⟩,
    ⟨acLost, 0, by decide +kernel⟩⟩

theorem wit_SupplyLossBracesResetsAndShutsDown_b :
    (∃ (s : State) (n : ℕ), s.supply.acFail = true ∧ s.supply.graceAt.isSome = true ∧ n < 8) ∧
    (∃ (s : State) (m : ℕ), s.supply.acFail = true ∧ s.supply.graceAt.isSome = true ∧ m < 16) ∧
    (∃ (s : State) (p : ℕ), s.supply.acFail = true ∧ s.supply.graceAt.isSome = true ∧ p < 2) ∧
    (∃ (s : State) (test : SelfTest), s.canStart StartBy.mainsReturn = true ∧ Bootable test s) ∧
    (∃ (s : State), s.bulkOn = true ∧ (s.supply.braced = false ∨ s.recoveryDue = true) ∧ s.recoveryDue = true) ∧
    (∃ (s : State) (k : ℕ), s.bulkOn = true ∧ (s.supply.braced = false ∨ s.recoveryDue = true) ∧ s.power.mode = PwrMode.run ∧ k < 7) :=
  ⟨⟨acLost, 0, by decide +kernel⟩,
    ⟨acLost, 0, by decide +kernel⟩,
    ⟨acLost, 0, by decide +kernel⟩,
    ⟨restart, ⟨true, true⟩, by unfold Bootable; decide +kernel⟩,
    ⟨recovering, by decide +kernel⟩,
    ⟨r, 0, by decide +kernel⟩⟩

theorem wit_SupplyLossBracesResetsAndShutsDown_c :
    (∃ (s : State), s.bulkOn = true ∧ s.supply.braced = true ∧ s.recoveryDue = false) ∧
    (∃ (s : State) (c : Instr), s.recoveryDue = true ∧ (c = Instr.supplyRecovered ∨ ∃ mv, c = Instr.bulkRailRecoveryCrossing mv)) ∧
    (∃ (s : State) (test : SelfTest), s.supply.inReset = true ∧ test.passA = true ∧ test.passB = true ∧ s.copyGood 1 = false ∧ s.copyGood
      2 = false) :=
  ⟨⟨braced, by decide +kernel⟩,
    ⟨recovering, .supplyRecovered, by decide +kernel, .inl rfl⟩,
    ⟨inReset, ⟨true, true⟩, by decide +kernel⟩⟩

theorem wit_RailsAndTheCellFollowTheirTables_a :
    (∃ (s : State) (r : Rail) (mv : ℕ), (s.power.mode = PwrMode.off ∨ s.railOutside r (mv % 2 ^ 16) = false)) ∧
    (∃ (s : State) (r : Rail) (mv : ℕ), s.power.mode ≠ PwrMode.off ∧ s.railOutside r (mv % 2 ^ 16) = true ∧ r ≠ Rail.ao ∧ Settled s) ∧
    (∃ (s : State) (r : Rail) (mv : ℕ), s.power.mode ≠ PwrMode.off ∧ s.railOutside r (mv % 2 ^ 16) = true ∧ r = Rail.coreA ∧ Acting Eng.a
      s) ∧
    (∃ (s : State) (r : Rail) (mv : ℕ), s.power.mode ≠ PwrMode.off ∧ s.railOutside r (mv % 2 ^ 16) = true ∧ r = Rail.coreB ∧ Acting Eng.b
      s) ∧
    (∃ (s : State) (r : Rail) (mv : ℕ), s.power.mode ≠ PwrMode.off ∧ s.railOutside r (mv % 2 ^ 16) = true ∧ (r = Rail.junction ∨ r =
      Rail.serdes) ∧ s.pair.fenced = false) ∧
    (∃ (s : State) (r : Rail) (mv : ℕ) (i : ℕ), s.power.mode ≠ PwrMode.off ∧ s.railOutside r (mv % 2 ^ 16) = true ∧ r = Rail.ao ∧
      (s.supply.mains = true ∨ s.supply.cell ≠ CellState.absent) ∧ i < 20) :=
  ⟨⟨r, .serdes, 899, by decide +kernel⟩,
    ⟨r, .coreA, 0, by unfold Settled; decide +kernel⟩,
    ⟨r, .coreA, 0, by unfold Acting; decide +kernel⟩,
    ⟨actB, .coreB, 0, by unfold Acting; decide +kernel⟩,
    ⟨r, .junction, 0, by decide +kernel⟩,
    ⟨r, .ao, 0, 0, by decide +kernel⟩⟩

theorem wit_RailsAndTheCellFollowTheirTables_b :
    (∃ (s : State) (r : Rail) (mv : ℕ), s.power.mode ≠ PwrMode.off ∧ s.railOutside r (mv % 2 ^ 16) = true ∧ r = Rail.aux) ∧
    (∃ (s : State) (r : Rail) (mv : ℕ), s.power.mode ≠ PwrMode.off ∧ s.railOutside r (mv % 2 ^ 16) = true ∧ r = Rail.cage) ∧
    (∃ (s : State), s.noPartner = true) ∧
    (∃ (s : State), s.noPartner = false) ∧
    (∃ (s : State) (ua : ℕ), (s.supply.lowPower = false ∨ ua < 19000)) ∧
    (∃ (s : State) (ua : ℕ), s.supply.lowPower = true ∧ 19000 ≤ ua ∧ s.power.mode = PwrMode.deepSleep) :=
  ⟨⟨r, .aux, 0, by decide +kernel⟩,
    ⟨r, .cage, 0, by decide +kernel⟩,
    ⟨deep, by decide +kernel⟩,
    ⟨r, by decide +kernel⟩,
    ⟨r, 0, by decide +kernel⟩,
    ⟨lowPower, 0x70004, by decide +kernel⟩⟩

theorem wit_RailsAndTheCellFollowTheirTables_c :
    (∃ (s : State), s.supply.lowPower = true ∧ (s.supply.mains = true ∨ s.supply.cell ≠ CellState.absent)) ∧
    (∃ (s : State), s.supply.cell = CellState.chargingCc) ∧
    (∃ (s : State), s.supply.cell = CellState.chargingCv) ∧
    (∃ (s : State), s.supply.cell = CellState.tempHold) ∧
    (∃ (s : State), s.supply.cell.charging = true ∧ s.power.mode ≠ PwrMode.off) ∧
    (∃ (s : State) (mv : ℕ), s.power.mode ≠ PwrMode.off ∧ s.supply.cell.charging = false ∧ 3300 < mv % 2 ^ 16 ∧ s.supply.cell ≠
      CellState.absent) :=
  ⟨⟨lowPower, by decide +kernel⟩,
    ⟨cellCc, by decide +kernel⟩,
    ⟨cellCv, by decide +kernel⟩,
    ⟨cellHold, by decide +kernel⟩,
    ⟨cellCc, by decide +kernel⟩,
    ⟨r, duration, by decide +kernel⟩⟩

theorem wit_RailsAndTheCellFollowTheirTables_d :
    (∃ (s : State) (mv : ℕ), s.power.mode ≠ PwrMode.off ∧ s.supply.cell.charging = false ∧ 3300 < mv % 2 ^ 16 ∧ s.supply.cell =
      CellState.absent) ∧
    (∃ (s : State) (mv : ℕ), s.power.mode ≠ PwrMode.off ∧ s.supply.cell.charging = false ∧ mv % 2 ^ 16 ≤ 3300 ∧ s.supply.cell =
      CellState.absent) ∧
    (∃ (s : State) (mv : ℕ), s.power.mode ≠ PwrMode.off ∧ s.supply.cell.charging = false ∧ mv % 2 ^ 16 ≤ 3300 ∧ s.supply.cell =
      CellState.charged) ∧
    (∃ (s : State) (mv : ℕ), s.power.mode ≠ PwrMode.off ∧ s.supply.cell.charging = false ∧ mv % 2 ^ 16 ≤ 3300 ∧ mv % 2 ^ 16 < 2700 ∧
      s.supply.cellLowAt = none) :=
  ⟨⟨cellGone, duration, by decide +kernel⟩,
    ⟨cellGone, 0, by decide +kernel⟩,
    ⟨r, 0, by decide +kernel⟩,
    ⟨r, 0, by decide +kernel⟩⟩

theorem wit_LoopsStepKnobsUnderTheThermalCeiling_a :
    (∃ (s : State), (s.power.mode = PwrMode.run ∨ s.power.mode = PwrMode.idle) ∧ s.loopsHeld = true) ∧
    (∃ (s : State) (k : ℕ) (l : List (ℕ × ℕ × ℕ)), (k = 0 ∨ 7 ≤ k ∧ k < 19) ∧ s.loopsHeld = false ∧ (s.power.mode = PwrMode.run ∨
      s.power.mode = PwrMode.idle) ∧ s.loopDue k = true ∧ (s.knob k).wasPin = false ∧ (((s.fmClose l).knobWants k).1 = true ∨ ((s.fmClose
      l).knobWants k).2 = true)) ∧
    (∃ (s : State) (h : ℤ) (k : ℕ), (s.power.mode = PwrMode.run ∨ s.power.mode = PwrMode.idle ∨ s.power.mode = PwrMode.entering) ∧
      s.foreman.level < 2 ∧ ↑s.fmThermalHot + 10 ≤ h ∧ k < 7) ∧
    (∃ (s : State) (h : ℤ) (k : ℕ), (s.power.mode = PwrMode.run ∨ s.power.mode = PwrMode.idle ∨ s.power.mode = PwrMode.entering) ∧
      s.foreman.level = 0 ∧ ↑s.fmThermalHot ≤ h ∧ h < ↑s.fmThermalHot + 10 ∧ k < 7) ∧
    (∃ (s : State) (h : ℤ) (L : ℕ), (s.power.mode = PwrMode.run ∨ s.power.mode = PwrMode.idle ∨ s.power.mode = PwrMode.entering) ∧
      s.foreman.level = L ∧ (L = 1 ∨ L = 2) ∧ h < ↑s.fmThermalHot + (if L = 2 then 5 else -5) ∧ s.foreman.cool + 1 < 100) ∧
    (∃ (s : State) (h : ℤ) (L : ℕ), (s.power.mode = PwrMode.run ∨ s.power.mode = PwrMode.idle ∨ s.power.mode = PwrMode.entering) ∧
      s.foreman.level = L ∧ (L = 1 ∨ L = 2) ∧ h < ↑s.fmThermalHot + (if L = 2 then 5 else -5) ∧ 100 ≤ s.foreman.cool + 1) :=
  ⟨⟨mgmtAway, by decide +kernel⟩,
    ⟨timed, 0, window, by decide +kernel⟩,
    ⟨r, 106, 0, by decide +kernel⟩,
    ⟨r, 95, 0, by decide +kernel⟩,
    ⟨hot1, 0, 1, by decide +kernel⟩,
    ⟨hot2, 0, 2, by decide +kernel⟩⟩

theorem wit_LoopsStepKnobsUnderTheThermalCeiling_b :
    ∃ (s : State), s.power.mode ≠ PwrMode.run ∧ s.power.mode ≠ PwrMode.idle ∧ s.power.mode ≠ PwrMode.entering :=
  ⟨sleep, by decide +kernel⟩

theorem wit_TetherFramesAreCheckedThenTaken_a :
    (∃ (id : ℕ) (seq : ℕ) (check : ℕ) (p : Bytes), id < 2 ^ 16 ∧ seq < 2 ^ 8 ∧ check < 2 ^ 16 ∧ List.length p ≤ 32) ∧
    (∃ (s : State) (c : Instr) (typ : ℕ) (f : TetherFrame), Framed c typ f ∧ s.tetherRuns = false) ∧
    (∃ (s : State) (c : Instr) (typ : ℕ) (f : TetherFrame) (k : ℕ), Framed c typ f ∧ s.tetherRuns = true ∧ s.rxReject f = some k) ∧
    (∃ (s : State) (c : Instr) (typ : ℕ) (f : TetherFrame), Framed c typ f ∧ s.tetherRuns = true ∧ f.form = RxForm.stuffError) ∧
    (∃ (s : State) (c : Instr) (typ : ℕ) (f : TetherFrame), Framed c typ f ∧ s.tetherRuns = true ∧ f.form = RxForm.formError) ∧
    (∃ (s : State) (c : Instr) (typ : ℕ) (f : TetherFrame), Framed c typ f ∧ s.tetherRuns = true ∧ f.form = RxForm.ok ∧ tetherType (bits
      f.id.toNat 6 7) = none) :=
  ⟨⟨65535, 255, 65535, List.replicate 32 255, by decide⟩,
    ⟨r, cHeart, 3, fHeart, .inr (.inr (.inl ⟨rfl, rfl⟩)), by decide +kernel⟩,
    ⟨joined, cStuff, 17, fStuff, 6, .inr (.inr (.inr (.inr (.inl ⟨rfl, rfl⟩)))), by decide +kernel⟩,
    ⟨joined, cStuff, 17, fStuff, .inr (.inr (.inr (.inr (.inl ⟨rfl, rfl⟩)))), by decide +kernel⟩,
    ⟨joined, cForm, 17, fForm, .inr (.inr (.inr (.inr (.inl ⟨rfl, rfl⟩)))), by decide +kernel⟩,
    ⟨joined, cNoType, 17, fNoType, .inr (.inr (.inr (.inr (.inl ⟨rfl, rfl⟩)))), by decide +kernel⟩⟩

theorem wit_TetherFramesAreCheckedThenTaken_b :
    (∃ (s : State) (c : Instr) (typ : ℕ) (f : TetherFrame) (prio : ℕ) (lo : ℕ) (hi : ℕ), Framed c typ f ∧ s.tetherRuns = true ∧ f.form =
      RxForm.ok ∧ tetherType (bits f.id.toNat 6 7) = some (prio, lo, hi) ∧ (bits f.id.toNat 13 3 ≠ prio ∨ List.length f.payload < lo ∨ hi
      < List.length f.payload)) ∧
    (∃ (s : State) (c : Instr) (typ : ℕ) (f : TetherFrame) (prio : ℕ) (lo : ℕ) (hi : ℕ), Framed c typ f ∧ s.tetherRuns = true ∧ f.form =
      RxForm.ok ∧ tetherType (bits f.id.toNat 6 7) = some (prio, lo, hi) ∧ bits f.id.toNat 13 3 = prio ∧ lo ≤ List.length f.payload ∧
      List.length f.payload ≤ hi ∧ (f.check.toNat ≠ tetherCheck f.id.toNat f.seq.toNat f.payload (s.peer (bits f.id.toNat 0 6)).session ∨
      tetherMember (bits f.id.toNat 6 7) = false ∧ (s.peer (bits f.id.toNat 0 6)).known = false)) ∧
    (∃ (s : State) (c : Instr) (typ : ℕ) (f : TetherFrame), Framed c typ f ∧ s.tetherRuns = true ∧ s.rxReject f = none ∧ bits f.id.toNat 6
      7 ≠ typ) ∧
    (∃ (s : State) (c : Instr) (typ : ℕ) (f : TetherFrame), Framed c typ f ∧ s.tetherRuns = true ∧ s.rxReject f = none ∧ bits f.id.toNat 6
      7 = typ ∧ s.rxRepeat f = true) ∧
    (∃ (s : State) (c : Instr) (typ : ℕ) (f : TetherFrame), Framed c typ f ∧ Accepted typ f s ∧ s.stationHere (bits f.id.toNat 0 6) =
      false) :=
  ⟨⟨joined, cPrio, 17, fPrio, 0, 0, 0, .inr (.inr (.inr (.inr (.inl ⟨rfl, rfl⟩)))), by decide +kernel⟩,
    ⟨joined, cCheck, 17, fCheck, 0, 0, 0, .inr (.inr (.inr (.inr (.inl ⟨rfl, rfl⟩)))), by decide +kernel⟩,
    ⟨joined, cMis, 18, fWake, .inr (.inr (.inr (.inr (.inr (.inl ⟨rfl, rfl⟩))))), by decide +kernel⟩,
    ⟨repeated, cWake, 17, fWake, .inr (.inr (.inr (.inr (.inl ⟨rfl, rfl⟩)))), by decide +kernel⟩,
    ⟨alone, cHeart, 3, fHeart, .inr (.inr (.inl ⟨rfl, rfl⟩)), by unfold Accepted; decide +kernel⟩⟩

theorem wit_TheLowestWaitingFrameIsSentAndRetried_a :
    (∃ (s : State), (s.tetherRuns = false ∨ s.tether.sending ≠ none ∨ s.tether.offered = none)) ∧
    (∃ (s : State) (f : TxFrame) (g : TxFrame), s.tetherRuns = true ∧ s.tether.sending = none ∧ s.tether.offered = some f ∧ g ∈
      s.tether.queue ∧ s.tether.mayOffer g = true) ∧
    (∃ (s : State) (f : TxFrame), s.tether.sending = some f ∧ s.tether.claim ≠ ClaimState.disabled ∧ f.typ = 32) ∧
    (∃ (s : State) (f : TxFrame) (r : TxResult), s.tether.sending = some f ∧ s.tether.claim ≠ ClaimState.disabled ∧ (r = TxResult.bitError
      ∨ r = TxResult.noAck) ∧ f.typ ≠ 32 ∧ r = TxResult.bitError) ∧
    (∃ (s : State) (f : TxFrame) (r : TxResult), s.tether.sending = some f ∧ s.tether.claim ≠ ClaimState.disabled ∧ (r = TxResult.bitError
      ∨ r = TxResult.noAck) ∧ f.typ ≠ 32 ∧ r = TxResult.noAck ∧ s.othersHere = true) ∧
    (∃ (s : State) (f : TxFrame) (r : TxResult), s.tether.sending = some f ∧ s.tether.claim ≠ ClaimState.disabled ∧ (r = TxResult.bitError
      ∨ r = TxResult.noAck) ∧ f.typ ≠ 32 ∧ tetherRetried f.typ = true ∧ f.tries < 3 ∧ f.cancel = false) :=
  ⟨⟨r, by decide +kernel⟩,
    ⟨offering, allTx, heartTx, by decide +kernel⟩,
    ⟨sendingSync, syncTx, by decide +kernel⟩,
    ⟨sendingMsg, msgTx0, .bitError, by decide +kernel⟩,
    ⟨sendingMsg, msgTx0, .noAck, by decide +kernel⟩,
    ⟨sendingMsg, msgTx0, .bitError, by decide +kernel⟩⟩

theorem wit_TheLowestWaitingFrameIsSentAndRetried_b :
    (∃ (s : State) (f : TxFrame) (r : TxResult) (n : ℕ), s.tether.sending = some f ∧ s.tether.claim ≠ ClaimState.disabled ∧ (r =
      TxResult.bitError ∨ r = TxResult.noAck) ∧ f.typ ≠ 32 ∧ tetherRetried f.typ = true ∧ f.tries < 3 ∧ f.cancel = true ∧ f.slot = some n) ∧
    (∃ (s : State) (f : TxFrame) (r : TxResult) (n : ℕ), s.tether.sending = some f ∧ s.tether.claim ≠ ClaimState.disabled ∧ (r =
      TxResult.bitError ∨ r = TxResult.noAck) ∧ f.typ ≠ 32 ∧ (tetherRetried f.typ = false ∨ 3 ≤ f.tries) ∧ f.slot = some n) ∧
    (∃ (s : State) (n : Fin 8), s.noPartner = false ∧ (s.slot ↑n).state ≠ 1 ∧ (s.slot ↑n).len ≤ 32) ∧
    (∃ (s : State) (n : Fin 8), s.noPartner = false ∧ ((s.slot ↑n).state = 1 ∨ 32 < (s.slot ↑n).len)) ∧
    (∃ (s : State) (n : Fin 8), s.noPartner = false ∧ (∃ f ∈ s.tether.queue, f.slot = some ↑n)) ∧
    (∃ (s : State) (n : Fin 8) (f : TxFrame), s.noPartner = false ∧ (∀ f ∈ s.tether.queue, f.slot ≠ some ↑n) ∧ s.tether.sending = some f ∧
      f.slot = some ↑n) :=
  ⟨⟨sendingCancel, msgCancel, .bitError, 7, by decide +kernel⟩,
    ⟨sendingLast, msgLast, .bitError, 7, by decide +kernel⟩,
    ⟨r, 7, by decide +kernel⟩,
    ⟨slotBusy, 7, by decide +kernel⟩,
    ⟨slotBusy, 7, by decide +kernel⟩,
    ⟨sendingMsg, 7, msgTx0, by decide +kernel⟩⟩

theorem wit_TheLowestWaitingFrameIsSentAndRetried_c :
    (∃ (s : State) (c : Instr), s.noPartner = true ∧ ((∃ n, c = Instr.tetherTxSend n ∨ c = Instr.tetherTxCancel n) ∨ c = Instr.tetherRxPop
      ∨ (∃ m h, c = Instr.gsCmdPropose m h) ∨ c = Instr.gsCmdVeto ∨ c = Instr.gsCmdWakeAll)) ∧
    (∃ (s : State) (mode : BitVec 2) (h : ℤ), s.noPartner = false ∧ (mode = 1 ∨ mode = 2) ∧ (if s.tether.claim = ClaimState.joined then
      (s.gsWritten (1 + 4 * mode.toNat)).gsRefusal s.tether.station mode.toNat h else 2) = 0) ∧
    (∃ (s : State) (mode : BitVec 2) (h : ℤ), s.noPartner = false ∧ (mode = 1 ∨ mode = 2) ∧ (if s.tether.claim = ClaimState.joined then
      (s.gsWritten (1 + 4 * mode.toNat)).gsRefusal s.tether.station mode.toNat h else 2) ≠ 0) ∧
    (∃ (s : State) (mode : BitVec 2), s.noPartner = false ∧ mode ≠ 1 ∧ mode ≠ 2) ∧
    (∃ (s : State), s.noPartner = false ∧ s.tether.claim ≠ ClaimState.disabled ∧ (s.tether.gs = GsState.agreed ∨ s.tether.gs =
      GsState.committed) ∧ (∀ f ∈ s.tether.queue, f.typ ≠ 16)) ∧
    (∃ (s : State), s.noPartner = false ∧ s.tether.claim ≠ ClaimState.disabled ∧ s.tether.gs = GsState.none) :=
  ⟨⟨deep, .tetherRxPop, by decide +kernel, .inr (.inl rfl)⟩,
    ⟨elderFree, 0x1#2, 0, by decide +kernel⟩,
    ⟨r, 0x1#2, 0, by decide +kernel⟩,
    ⟨r, 0x0#2, by decide +kernel⟩,
    ⟨memberAgreed, by decide +kernel⟩,
    ⟨joined, by decide +kernel⟩⟩

theorem wit_StationsClaimJoinAndFollowTheReference_a :
    (∃ (s : State), s.tetherRuns = true ∧ s.tether.claim = ClaimState.listening ∧ (∃ n < 64, (s.peer n).present = false) ∧
      s.tetherCtrlPrefEn = 1 ∧ (s.peer s.tetherCtrlPreferred).present = false) ∧
    (∃ (s : State), s.tetherRuns = true ∧ s.tether.claim = ClaimState.listening ∧ (∀ n < 64, (s.peer n).present = true) ∧ (∀ (n : ℕ),
      s.tether.lastNum = some n → n < 64)) ∧
    (∃ (s : State), s.tetherRuns = true ∧ s.tether.claim = ClaimState.claiming ∧ (∀ f ∈ s.tether.queue, f.typ ≠ 1)) ∧
    (∃ (s : State), s.tetherRuns = true ∧ s.tether.claim = ClaimState.backoff) ∧
    (∃ (s : State), s.tetherRuns = true ∧ s.tether.claim = ClaimState.joined ∧ s.tether.timeRef = s.tether.station ∧ s.coreRuns = true) ∧
    (∃ (s : State) (n : Fin 64), (s.peer ↑n).present = true ∧ (s.rtc.count + 2 ^ 48 - (s.peer ↑n).lastAt) % 2 ^ 48 < 32768) :=
  ⟨⟨listening, by decide +kernel⟩,
    ⟨full, by decide +kernel⟩,
    ⟨claiming, by decide +kernel⟩,
    ⟨backing, by decide +kernel⟩,
    ⟨reference, by decide +kernel⟩,
    ⟨joined, 3, by decide +kernel⟩⟩

theorem wit_StationsClaimJoinAndFollowTheReference_b :
    (∃ (s : State) (n : Fin 64) (k : ℕ), (s.peer ↑n).present = true ∧ 32768 ≤ (s.rtc.count + 2 ^ 48 - (s.peer ↑n).lastAt) % 2 ^ 48 ∧ k ≠
      ↑n) ∧
    (∃ (s : State) (c : Instr) (typ : ℕ) (f : TetherFrame), Framed c typ f ∧ Accepted typ f s ∧ typ ≤ 3 ∧ typ = 3 ∧ (bits f.id.toNat 0 6 ≠
      s.tether.station ∨ s.tether.claim ≠ ClaimState.joined)) ∧
    (∃ (s : State) (c : Instr) (typ : ℕ) (f : TetherFrame), Framed c typ f ∧ Accepted typ f s ∧ typ ≤ 3 ∧ bits f.id.toNat 0 6 =
      s.tether.station ∧ s.tether.claim = ClaimState.joined ∧ leAt f.payload 0 8 ≠ Config.serial.toNat ∧ typ = 1) ∧
    (∃ (s : State) (c : Instr) (typ : ℕ) (f : TetherFrame), Framed c typ f ∧ Accepted typ f s ∧ typ ≤ 3 ∧ bits f.id.toNat 0 6 =
      s.tether.station ∧ s.tether.claim = ClaimState.joined ∧ leAt f.payload 0 8 ≠ Config.serial.toNat ∧ typ ≠ 1) ∧
    (∃ (s : State) (c : Instr) (typ : ℕ) (f : TetherFrame), Framed c typ f ∧ Accepted typ f s ∧ typ ≤ 3 ∧ bits f.id.toNat 0 6 =
      s.tether.station ∧ s.tether.claim = ClaimState.claiming ∧ leAt f.payload 0 8 ≠ Config.serial.toNat ∧ typ ≠ 3) ∧
    (∃ (s : State) (f : TetherFrame), Accepted 32 f s) :=
  ⟨⟨gone, 63, 0, by decide +kernel⟩,
    ⟨joined, cHeart, 3, fHeart, .inr (.inr (.inl ⟨rfl, rfl⟩)), by unfold Accepted; decide +kernel⟩,
    let ⟨n, hn, ha, hs⟩ := ownClaim joined (by decide +kernel); ⟨joined, .claim (fOwnClaim n), 1, fOwnClaim n, .inl ⟨rfl, rfl⟩, ha, by
      decide, hn, by decide +kernel, hs, by decide⟩,
    let ⟨n, hn, ha, hs⟩ := ownHeart joined (by decide +kernel); ⟨joined, .heartbeat (fOwnHeart n), 3, fOwnHeart n, .inr (.inr (.inl ⟨rfl,
      rfl⟩)), ha, by decide, hn, by decide +kernel, hs, by decide⟩,
    let ⟨n, hn, ha, hs⟩ := ownClaim claiming (by decide +kernel); ⟨claiming, .claim (fOwnClaim n), 1, fOwnClaim n, .inl ⟨rfl, rfl⟩, ha, by
      decide, hn, by decide +kernel, hs, by decide⟩,
    ⟨joined, fSync, by unfold Accepted; decide +kernel⟩⟩

theorem wit_StationsClaimJoinAndFollowTheReference_c :
    (∃ (s : State) (f : TetherFrame) (st : ℕ), Accepted 33 f s ∧ s.tether.syncSeq = some (byteAt f.payload 8, st) ∧ (s.rxAccept
      f).tether.timeRef = bits f.id.toNat 0 6 ∧ ¬(s.tether.claim = ClaimState.joined ∧ bits f.id.toNat 0 6 = s.tether.station) ∧ f.stamp <
      st + 10000000 ∧ s.timeSrcEnTether = 1 ∧ s.timeGood = false ∧ s.coreRuns = true ∧ Timely s ∧ (s.time.current = none ∨ 3 ≤
      s.time.curSrc) ∧ -2684354 ≤ s.time.rate ∧ s.time.rate ≤ 2684354 ∧ 10000 ≤ ((st : Int) - s.tetherDelayNs - leAt f.payload 0 8).natAbs
      ∧ 0 ≤ (s.time.now : Int) + s.increment - ((st : Int) - s.tetherDelayNs - leAt f.payload 0 8) * 2 ^ 32) ∧
    (∃ (s : State) (f : TetherFrame) (st : ℕ), Accepted 33 f s ∧ s.tether.syncSeq = some (byteAt f.payload 8, st) ∧ (s.rxAccept
      f).tether.timeRef = bits f.id.toNat 0 6 ∧ ¬(s.tether.claim = ClaimState.joined ∧ bits f.id.toNat 0 6 = s.tether.station) ∧ f.stamp <
      st + 10000000 ∧ s.timeSrcEnTether = 1 ∧ s.timeGood = false ∧ s.coreRuns = true ∧ Timely s ∧ (s.time.current = none ∨ 3 ≤
      s.time.curSrc) ∧ -2684354 ≤ s.time.rate ∧ s.time.rate ≤ 2684354 ∧ ((st : Int) - s.tetherDelayNs - leAt f.payload 0 8).natAbs <
      10000) :=
  ⟨⟨following, fFollowNear, syncStamp, by unfold Timely Accepted; decide +kernel⟩,
    ⟨following, fFollowFar, syncStamp, by unfold Timely Accepted; decide +kernel⟩⟩

theorem wit_GroupSleepRoundsAgreeCommitOrAbort_a :
    (∃ (s : State) (f : TetherFrame) (h : ℤ), Accepted 19 f s ∧ s.tether.claim = ClaimState.joined ∧ bit (leAt f.payload 2 8)
      s.tether.station = true ∧ (byteAt f.payload 1 = 1 ∨ byteAt f.payload 1 = 2) ∧ (s.rxAccept f).gsRefusal (bits f.id.toNat 0 6) (byteAt
      f.payload 1) h = 0) ∧
    (∃ (s : State) (f : TetherFrame) (h : ℤ), Accepted 19 f s ∧ s.tether.claim = ClaimState.joined ∧ bit (leAt f.payload 2 8)
      s.tether.station = true ∧ (byteAt f.payload 1 = 1 ∨ byteAt f.payload 1 = 2) ∧ (s.rxAccept f).gsRefusal (bits f.id.toNat 0 6) (byteAt
      f.payload 1) h ≠ 0) ∧
    (∃ (s : State) (f : TetherFrame), Accepted 19 f s ∧ (s.tether.claim ≠ ClaimState.joined ∨ bit (leAt f.payload 2 8) s.tether.station =
      false)) ∧
    (∃ (s : State) (f : TetherFrame), s.answers f = true ∧ bit s.tether.members (bits f.id.toNat 0 6) = true ∧ Accepted 20 f s) ∧
    (∃ (s : State) (f : TetherFrame), s.answers f = true ∧ bit s.tether.members (bits f.id.toNat 0 6) = true ∧ Accepted 21 f s) ∧
    (∃ (s : State) (f : TetherFrame), Accepted 22 f s ∧ s.tether.gs = GsState.agreed ∧ s.tether.round = byteAt f.payload 0 ∧
      s.tether.proposer = bits f.id.toNat 0 6) :=
  ⟨⟨joined, fPropose, 0, by unfold Accepted; decide +kernel⟩,
    ⟨memberAgreed, fPropose, 0, by unfold Accepted; decide +kernel⟩,
    ⟨joined, fProposeOther, by unfold Accepted; decide +kernel⟩,
    ⟨oursProposed, fAgree, by unfold Accepted; decide +kernel⟩,
    ⟨oursProposed, fRefuse, by unfold Accepted; decide +kernel⟩,
    ⟨memberAgreed, fCommit, by unfold Accepted; decide +kernel⟩⟩

theorem wit_GroupSleepRoundsAgreeCommitOrAbort_b :
    (∃ (s : State) (f : TetherFrame), Accepted 18 f s ∧ (s.tether.gs = GsState.agreed ∨ s.tether.gs = GsState.committed) ∧ s.tether.round
      = byteAt f.payload 0 ∧ s.tether.proposer = bits f.id.toNat 0 6) ∧
    (∃ (s : State) (f : TetherFrame), Accepted 16 f s ∧ s.ourRound (byteAt f.payload 0) (byteAt f.payload 1) = true ∧ s.tether.gsP ≤
      f.stamp ∧ (s.tether.gs = GsState.proposed ∨ s.commitWaits = true)) ∧
    (∃ (s : State) (f : TetherFrame), Accepted 16 f s ∧ s.ourRound (byteAt f.payload 0) (byteAt f.payload 1) = true ∧ s.tether.gsP ≤
      f.stamp ∧ s.commitWaits = false ∧ (s.tether.gs = GsState.agreed ∨ s.tether.gs = GsState.committed ∧ f.stamp < s.tether.gsT)) ∧
    (∃ (s : State) (f : TetherFrame), Accepted 16 f s ∧ s.ourRound (byteAt f.payload 0) (byteAt f.payload 1) = true ∧ s.tether.gsP ≤
      f.stamp ∧ s.commitWaits = false ∧ s.tether.gs = GsState.committed ∧ s.tether.gsT ≤ f.stamp) ∧
    (∃ (s : State), s.tether.claim ≠ ClaimState.disabled ∧ s.tether.gs = GsState.proposed ∧ (∀ f ∈ s.tether.queue, f.typ ≠ 19) ∧
      s.tether.gsP + 50000000 ≤ s.time64) ∧
    (∃ (s : State), s.tether.claim ≠ ClaimState.disabled ∧ s.tether.gs = GsState.proposed ∧ (∀ f ∈ s.tether.queue, f.typ ≠ 19) ∧ s.time64
      < s.tether.gsP + 50000000) :=
  ⟨⟨memberAgreed, fAbort, by unfold Accepted; decide +kernel⟩,
    ⟨oursProposed, fVetoOurs, by unfold Accepted; decide +kernel⟩,
    ⟨memberAgreed, fVetoEarly, by unfold Accepted; decide +kernel⟩,
    ⟨memberCommitted, fVetoLate, by unfold Accepted; decide +kernel⟩,
    ⟨proposedLate, by decide +kernel⟩,
    ⟨oursProposed, by decide +kernel⟩⟩

theorem wit_GroupSleepRoundsAgreeCommitOrAbort_c :
    (∃ (s : State), s.tether.claim ≠ ClaimState.disabled ∧ s.tether.gs = GsState.committed ∧ s.commitWaits = true ∧ s.tether.gsP +
      55000000 ≤ s.time64) ∧
    (∃ (s : State), s.tether.claim ≠ ClaimState.disabled ∧ s.tether.gs = GsState.committed ∧ s.commitWaits = true ∧ s.time64 <
      s.tether.gsP + 55000000) ∧
    (∃ (s : State), s.tether.claim ≠ ClaimState.disabled ∧ s.tether.gs = GsState.agreed ∧ s.tether.gsP + 60000000 ≤ s.time64 ∧ (∀ f ∈
      s.tether.queue, f.typ ≠ 16)) ∧
    (∃ (s : State), s.tether.gs = GsState.committed ∧ s.commitWaits = false ∧ s.tether.gsT ≤ s.time64 ∧ (s.power.mode = PwrMode.run ∨
      s.power.mode = PwrMode.idle) ∧ s.power.pendCmd = none ∧ s.pair.fenced = false ∧ s.power.domain = false ∧ s.transition = false ∧
      s.tether.gsMode ≠ 2) ∧
    (∃ (s : State), s.tether.gs = GsState.committed ∧ s.commitWaits = false ∧ s.tether.gsT ≤ s.time64 ∧ (s.power.mode = PwrMode.run ∨
      s.power.mode = PwrMode.idle) ∧ s.power.pendCmd = none ∧ s.pair.fenced = true ∧ s.tether.claim ≠ ClaimState.disabled) ∧
    (∃ (s : State), s.time64 < s.tether.gsT) :=
  ⟨⟨waitsLate, by decide +kernel⟩,
    ⟨oursWaits, by decide +kernel⟩,
    ⟨agreedLate, by decide +kernel⟩,
    ⟨committedLate, by decide +kernel⟩,
    ⟨committedFenced, by decide +kernel⟩,
    ⟨memberAgreed, by decide +kernel⟩⟩

theorem wit_GroupSleepRoundsAgreeCommitOrAbort_d :
    (∃ (s : State) (f : TetherFrame), Accepted 17 f s ∧ (s.power.mode = PwrMode.run ∨ s.power.mode = PwrMode.idle)) ∧
    (∃ (s : State) (f : TetherFrame), Accepted 17 f s ∧ (s.power.mode = PwrMode.sleep ∨ s.power.mode = PwrMode.deepSleep) ∧ bit s.wakeEnEn
      1 = true) ∧
    (∃ (s : State) (f : TetherFrame), Accepted 48 f s) ∧
    (∃ (s : State) (f : TetherFrame), Accepted 64 f s ∧ s.tether.fifo.length < 16) ∧
    (∃ (s : State) (f : TetherFrame), Accepted 64 f s ∧ 16 ≤ s.tether.fifo.length) :=
  ⟨⟨joined, fWake, by unfold Accepted; decide +kernel⟩,
    ⟨joinedSleep, fWake, by unfold Accepted; decide +kernel⟩,
    ⟨joined, fFail, by unfold Accepted; decide +kernel⟩,
    ⟨joined, fMsg, by unfold Accepted; decide +kernel⟩,
    ⟨fifoFull, fMsg, by unfold Accepted; decide +kernel⟩⟩

end Sys2Proof.Tests.W

end
end

section
/-! The lock of set-up (R17, 00_scope): what the arrival of a write leaves alone, how a 4-byte write of OF BAR0 goes by its register, what
staging bits of a word does to the words that staging shows, and SETUP_LOCK on top of them. -/
namespace Sys2Proof.Proofs
open Sys2Proof Sys2Proof.Machine Sys2Proof.Laws

/-! ### The arrival of a write -/

/-- A write that arrives reaches only the parts that ending Idle, a wake and a veto of group sleep do (R298, R301). -/
theorem keeps_arrives (s : State) (f : Nat) : Keeps [.watch, .supply, .power, .tether] s (s.arrives f) := by
  refine does_keeps (does_arrives (M := 0x1610000) (by decide) (does_refl _ s)) _ fun p => ?_
  cases p <;> decide

@[simp] theorem arrives_setup (s : State) (f : Nat) : (s.arrives f).setup = s.setup :=
  keeps_arrives s f .setup (by decide)

@[simp] theorem arrives_ofs (s : State) (f : Nat) : (s.arrives f).ofs = s.ofs :=
  keeps_arrives s f .ofs (by decide)

@[simp] theorem arrives_of (s : State) (f n : Nat) : (s.arrives f).of n = s.of n := by
  simp [State.of]

@[simp] theorem arrives_setupKey (s : State) (f n off : Nat) : (s.arrives f).setupKey n off = s.setupKey n off := by
  simp [State.setupKey]

/-! ### The commands of a partner whose links are up -/

/-- SETUP_LOCK arrives and sets the lock. -/
theorem exec_setupLock {s : State} (of : Fin 4) (hp : s.noPartner = false) :
    exec (.setupLock of) s = .next ((s.arrives (64 + of)).setupLock) := by
  show execSetupLock of s = _
  simp [execSetupLock, hp]

/-- An aligned 4-byte write to OF BAR0 arrives, and its word is written (R381). -/
theorem exec_registerWrite_word {s : State} (of : Fin 4) {off : Nat} (v : BitVec 64) (hp : s.noPartner = false) (ha : off % 4 = 0) :
    exec (.registerWrite (.of of) off 4 v) s = .next ((s.arrives (64 + of)).writeWord of off (v.toNat % 2 ^ 32)) := by
  show execRegisterWrite (.of of) off 4 v s = _
  simp [execRegisterWrite, hp, State.registerWrite, ha, bits]

/-- The lock is set, and SETUP_LOCKED raised on the change (R17). -/
theorem setupLock_open {s : State} (h : s.setup.lock = false) :
    s.setupLock = (s.onSetup (fun u => { u with lock := true })).raise .setupLocked [] := by
  simp [State.setupLock, h]

/-- Under the lock SETUP_LOCK changes nothing. -/
theorem setupLock_locked {s : State} (h : s.setup.lock = true) : s.setupLock = s := by
  simp [State.setupLock, h]

/-- A write of a word without S and K fields goes to its live register (R12). -/
theorem writeWord_live {s : State} {n off v : Nat} {r : RegRow} {ix : List Nat} (hr : regAt off = some (r, ix)) (hm : stagedMask r = 0) :
    s.writeWord n off v = s.liveWrite n r.reg (ix.headD 0) (ix.getD 1 0) off v := by
  simp [State.writeWord, hr, hm]

/-- A write of a word with S or K fields is staged (R12). -/
theorem writeWord_staged {s : State} {n off v : Nat} {r : RegRow} {ix : List Nat} (hr : regAt off = some (r, ix))
    (hm : stagedMask r ≠ 0) : s.writeWord n off v = s.stageWrite n off r v := by
  simp [State.writeWord, hr, hm]

/-! ### Staged bits -/

/-- Two writes of a word lie over it as the later over the earlier. -/
theorem join_over (old new : StagedW) (w : Word) : (old.join new).over w = new.over (old.over w) := by
  ext i hi
  simp only [StagedW.join, StagedW.over, BitVec.getElem_or, BitVec.getElem_and, BitVec.getElem_not]
  cases new.mask[i] <;> cases old.mask[i] <;> simp

/-- Bits with no mask leave a word as it is. -/
theorem over_of_mask_zero {x : StagedW} (h : x.mask = 0) (w : Word) : x.over w = w := by
  change x.mask = 0#32 at h
  rw [StagedW.over, h, BitVec.not_zero, BitVec.and_allOnes, BitVec.and_zero, BitVec.or_zero]

theorem layer_insert_same (t : List (Nat × StagedW)) (key : Nat) (x : StagedW) (w : Word) :
    layer (Tbl.insert t key x) key w = x.over w := by
  simp [layer, find_insert_same]

theorem layer_insert_other (t : List (Nat × StagedW)) {key k : Nat} (x : StagedW) (w : Word) (h : k ≠ key) :
    layer (Tbl.insert t key x) k w = layer t k w := by
  simp [layer, find_insert_other t x h]

/-- Staged bits of a word lie over what staging had for it. -/
theorem layer_stagePut_same (t : List (Nat × StagedW)) (key : Nat) (x : StagedW) (w : Word) :
    layer (stagePut t key x) key w = x.over (layer t key w) := by
  unfold stagePut
  split
  · next hx => rw [over_of_mask_zero hx]
  · split
    · next o ho => rw [layer_insert_same, join_over, layer, ho]
    · next hn => rw [layer_insert_same, layer, hn]

/-- Staging bits of a word leaves every other word. -/
theorem layer_stagePut_other (t : List (Nat × StagedW)) {key k : Nat} (x : StagedW) (w : Word) (h : k ≠ key) :
    layer (stagePut t key x) k w = layer t k w := by
  unfold stagePut
  split
  · rfl
  · split <;> exact layer_insert_other t _ w h

/-- The state with bits of one set-up word put into staging. -/
def stageBits (s : State) (key : Nat) (x : StagedW) : State := s.onSetup (fun u => { u with staged := stagePut u.staged key x })

/-- Putting bits into staging stages them, and does nothing else. -/
theorem stages_stageBits (s : State) (key : Nat) (x : StagedW) : Stages key x.mask x.val s (stageBits s key x) := by
  refine ⟨keeps_onSetup s _, rfl, fun k w => ?_⟩
  split
  · next hk => subst hk; exact layer_stagePut_same s.setup.staged k x w
  · next hk => exact layer_stagePut_other s.setup.staged x w hk

/-! ### A staged write, and the lock -/

/-- The bits of a write's 32-bit value. -/
theorem ofNat_low_word (v : BitVec 64) : BitVec.ofNat 32 (v.toNat % 2 ^ 32) = v.setWidth 32 := by
  apply BitVec.eq_of_toNat_eq
  simp

/-- Where nothing of the word is locked the write stages its S and K bits. -/
theorem stageWrite_unlocked {s : State} {n off key : Nat} {r : RegRow} (v : BitVec 64) (hk : s.setupKey n off = some key)
    (h : s.setup.lock = false ∨ lockedMask r = 0) :
    Stages key (BitVec.ofNat 32 (stagedMask r)) (v.setWidth 32) s (s.stageWrite n off r (v.toNat % 2 ^ 32)) := by
  have hcut : (if s.setup.lock then lockedMask r else 0) = 0 := by
    rcases h with h | h <;> simp [h]
  have hw : s.stageWrite n off r (v.toNat % 2 ^ 32) =
      stageBits s key ⟨BitVec.ofNat 32 (stagedMask r), v.setWidth 32⟩ := by
    simp only [State.stageWrite, hk, hcut, ofNat_low_word]
    rfl
  rw [hw]
  exact stages_stageBits s key _

/-- Under the lock a write of a word with K fields is counted once, LOCKED_WRITE follows within its rate, and the S bits alone
are staged. -/
theorem stageWrite_locked {s : State} {n off key : Nat} {r : RegRow} (v : BitVec 64) (hk : s.setupKey n off = some key)
    (hl : s.setup.lock = true) (hm : lockedMask r ≠ 0) :
    ∃ u, RaisesOnce .lockedWrite n (le 1 (64 + n)) (s.onSetup (fun x => { x with rejects := satAdd 32 x.rejects 1 })) u ∧
      Stages key (BitVec.ofNat 32 (stagedMask r - lockedMask r)) (v.setWidth 32) u (s.stageWrite n off r (v.toNat % 2 ^ 32)) := by
  refine ⟨_, raiseOnce_raises _ _ _ _, ?_⟩
  have hw : s.stageWrite n off r (v.toNat % 2 ^ 32) =
      stageBits ((s.onSetup (fun x => { x with rejects := satAdd 32 x.rejects 1 })).raiseOnce .lockedWrite n (le 1 (64 + n))) key
        ⟨BitVec.ofNat 32 (stagedMask r - lockedMask r), v.setWidth 32⟩ := by
    simp only [State.stageWrite, hk, hl, if_true, if_pos hm, ofNat_low_word]
    rfl
  rw [hw]
  exact stages_stageBits _ key _

/-! ### SETUP_LOCK as a plain write -/

/-- The register at 0x1010 (R22): SETUP_LOCK, which holds no S and no K field. -/
theorem regAt_setupLock : ∃ r, regAt 0x1010 = some (r, []) ∧ r.reg = .setupLock ∧ stagedMask r = 0 :=
  ⟨⟨.setupLock, 0x1010, [], [⟨0, 1, .cmd, 0, none⟩]⟩, by decide⟩

/-- What REGISTER_WRITE does at SETUP_LOCK: the OF's own registers are written with what they hold. -/
theorem liveWrite_setupLock (s : State) (n off v : Nat) :
    s.liveWrite n .setupLock 0 0 off v = s.setOf n (fun o => o) := rfl

/-- A write at SETUP_LOCK by REGISTER_WRITE changes nothing that an OF reads, and nothing else: setting the lock is the
command's own. -/
theorem writeWord_setupLock (s : State) (n v : Nat) :
    Keeps [.ofs] s (s.writeWord n 0x1010 v) ∧ ∀ k, (s.writeWord n 0x1010 v).of k = s.of k := by
  obtain ⟨r, hr, hreg, hm⟩ := regAt_setupLock
  have hw : s.writeWord n 0x1010 v = s.setOf n (fun o => o) := by
    rw [writeWord_live hr hm, hreg]
    exact liveWrite_setupLock s n 0x1010 v
  rw [hw]
  refine ⟨keeps_setOf s n _, fun k => ?_⟩
  by_cases hk : k = n
  · rw [hk, of_setOf_same]
  · exact of_setOf_other s _ hk

/-- Settles O11: each clause by what its write is once it has arrived; the arrival leaves the lock, the staged writes and RX_FN_SEL. -/
theorem setupLockDiscardsWritesOfKFields : Obligations.SetupLockDiscardsWritesOfKFields := by
  unfold Obligations.SetupLockDiscardsWritesOfKFields
  refine ⟨fun s of hp hl => ?_, fun s of hp hl => ?_, fun s of v hp => ?_,
    fun s of off v r ix key hp ha hr hm hk => ⟨fun h => ?_, fun hl hn => ?_⟩, fun s of off v r ix hp ha hr hm => ?_⟩
  · refine ⟨_, exec_setupLock of hp, ?_⟩
    rw [setupLock_open (by simpa using hl)]
    exact raise_raises _ _ _
  · rw [exec_setupLock of hp, setupLock_locked (by simpa using hl)]
  · obtain ⟨hkeep, hof⟩ := writeWord_setupLock (s.arrives (64 + of)) of (v.toNat % 2 ^ 32)
    exact ⟨_, exec_registerWrite_word of v hp (by decide), hkeep, fun n => by rw [hof, arrives_of]⟩
  · refine ⟨_, exec_registerWrite_word of v hp ha, ?_⟩
    rw [writeWord_staged hr hm]
    exact stageWrite_unlocked v (by simpa using hk) (by simpa using h)
  · refine ⟨_, exec_registerWrite_word of v hp ha, ?_⟩
    rw [writeWord_staged hr hm]
    exact stageWrite_locked v (by simpa using hk) (by simpa using hl) hn
  · rw [exec_registerWrite_word of v hp ha, writeWord_live hr hm]

end Sys2Proof.Proofs
end

section
/-! Device time as partners read it (R42, R43, 02_time_and_windows): the fields of the layout of Table 0-4 and TIME64 on them, what the
wake of a read leaves alone, and TIME_NOW with the latch of each OF. -/
namespace Sys2Proof.Proofs
open Sys2Proof Sys2Proof.Machine Sys2Proof.Laws

/-! ### The layout of Table 0-4 and TIME64 -/

/-- The seconds, at bits [95:48]. -/
@[simp] theorem bits_time96_seconds (u : Nat) : bits (time96 u) 48 48 = u / uSec % 2 ^ 48 := by
  simp only [bits, time96]
  omega

/-- The nanoseconds, at bits [47:16]. -/
@[simp] theorem bits_time96_nanoseconds (u : Nat) : bits (time96 u) 16 32 = u / uNs % 1000000000 := by
  simp only [bits, time96]
  omega

/-- Whole seconds are whole nanoseconds without their last nine digits. -/
theorem div_uSec (u : Nat) : u / uSec = u / uNs / 1000000000 := by
  rw [Nat.div_div_eq_div_mul, Nat.mul_comm uNs]
  rfl

/-- Seconds and nanoseconds make up the whole nanoseconds of a time that the seconds field can hold. -/
theorem nanoseconds_of_time96 {u : Nat} (h : u < 2 ^ 48 * uSec) :
    bits (time96 u) 48 48 * 1000000000 + bits (time96 u) 16 32 = u / uNs := by
  rw [bits_time96_seconds, bits_time96_nanoseconds, Nat.mod_eq_of_lt (Nat.div_lt_of_lt_mul (Nat.mul_comm _ uSec ▸ h)), div_uSec]
  exact Nat.div_add_mod' (u / uNs) 1000000000

/-- Settles O17: below 2^48 s the fields of Table 0-4 add up to the whole nanoseconds, whose value modulo 2^64 is TIME64. -/
theorem time64IsNanosecondsModulo64Bits : Obligations.Time64IsNanosecondsModulo64Bits := by
  unfold Obligations.Time64IsNanosecondsModulo64Bits
  intro u hu
  constructor
  · rw [nanoseconds_of_time96 hu, time64Of]
  · rw [bits_time96_nanoseconds]
    exact Nat.mod_lt _ (by decide)

/-! ### The wake by a partner's transaction -/

/-- The wake reaches only the parts that registering a wake and its veto of group sleep do (R301). -/
theorem keeps_partnerWake (s : State) (f : Nat) : Keeps [.watch, .supply, .power, .tether] s (s.partnerWake f) := by
  refine does_keeps (does_partnerWake (M := 0x1610000) (by decide) (does_refl _ s)) _ fun p => ?_
  cases p <;> decide

@[simp] theorem partnerWake_time (s : State) (f : Nat) : (s.partnerWake f).time = s.time :=
  keeps_partnerWake s f .time (by decide)

@[simp] theorem partnerWake_out (s : State) (f : Nat) : (s.partnerWake f).out = s.out :=
  keeps_partnerWake s f .out (by decide)

@[simp] theorem partnerWake_ofs (s : State) (f : Nat) : (s.partnerWake f).ofs = s.ofs :=
  keeps_partnerWake s f .ofs (by decide)

@[simp] theorem partnerWake_of (s : State) (f n : Nat) : (s.partnerWake f).of n = s.of n := by
  simp [State.of]

/-! ### TIME_NOW -/

/-- A read of TIME_NOW_0 while the host links are up: the wake, then the latch and the answer. -/
theorem exec_timeNowRead {s : State} (of : Fin 4) (hp : s.noPartner = false) :
    exec (.timeNowRead of) s = .next ((s.partnerWake (64 + of)).timeNowRead of) := by
  show execTimeNowRead of s = _
  simp [execTimeNowRead, hp]

/-- The read changes the OFs' own registers and sends its answer. -/
theorem keeps_timeNowRead (s : State) (of : Nat) : Keeps [.ofs, .out] s (s.timeNowRead of) :=
  keeps_trans (keeps_mono (keeps_setOf s of _) (by decide)) (keeps_mono (keeps_onOut _ _) (by decide))

/-- The latch of the reading OF holds device time, and every other OF is as before. -/
theorem of_timeNowRead (s : State) (of n : Nat) :
    (s.timeNowRead of).of n = if n = of then { s.of n with timeLatch := time96 s.time.now } else s.of n := by
  change (s.setOf of (fun o => { o with timeLatch := time96 s.time.now })).of n = _
  split
  · next h => rw [h, of_setOf_same]
  · next h => exact of_setOf_other s _ h

/-- The answer is the low word of device time. -/
theorem out_timeNowRead (s : State) (of : Nat) :
    (s.timeNowRead of).out = s.out ++ [.read of (BitVec.ofNat 32 (time96 s.time.now))] := rfl

/-- The row of TIME_NOW in Table 2-4. -/
def timeNowRow : RegRow := ⟨.timeNow, 0x50000, [(0x4, 3)], [⟨0, 32, .ro, 0, none⟩]⟩

/-- The three words of TIME_NOW stand at 0x50000, 0x50004 and 0x50008. -/
theorem regAt_timeNow : ∀ i < 3, regAt (0x50000 + 4 * i) = some (timeNowRow, [i]) := by decide

/-- The registers from 0x50000 up to 0x70000 read as those of the TIME and TALLY blocks (Table 18-1). -/
theorem readLive_time (s : State) (n i j : Nat) (r : Reg) {off : Nat} (hlo : 0x50000 ≤ off) (hhi : off < 0x70000) :
    s.readLive n r i j off = s.readTime n i r := by
  have hpast : ∀ b ≤ 0x50000, ¬ off < b := by omega
  have hident : ¬ 0xF0000 ≤ off := by omega
  simp [State.readLive, hpast, hident, hhi]

/-- A plain read of a word of TIME_NOW goes to the TIME block: the register has no staged bits and is no command. -/
theorem read_timeNow (s : State) (n : Nat) {i : Nat} (h : i < 3) :
    s.read n (0x50000 + 4 * i) 4 = s.readTime n i .timeNow := by
  have haligned : (0x50000 + 4 * i) % 4 = 0 := by omega
  have hlive : s.readLive n timeNowRow.reg i 0 (0x50000 + 4 * i) = s.readTime n i .timeNow :=
    readLive_time s n i 0 .timeNow (by omega) (by omega)
  have hstaged : stagedMask timeNowRow = 0 := by decide
  have hcommand : timeNowRow.reg.command = false := rfl
  simp [State.read, readSized, State.readWord, haligned, regAt_timeNow i h, hstaged, hcommand, hlive]

/-- The words of TIME_NOW after the first return what the reading OF's latch holds. -/
theorem read_timeNow_latched (s : State) (n : Nat) {i : Nat} (h : i < 3) (hi : i ≠ 0) :
    s.read n (0x50000 + 4 * i) 4 = bits (s.of n).timeLatch (32 * i) 32 := by
  rw [read_timeNow s n h]
  exact if_neg hi

/-- Settles O18: the wake leaves device time, the latches and the answers, so the read latches the device time of its own J-cycle; the
other two words read the latch. -/
theorem timeNowIsLatchedForEachOf : Obligations.TimeNowIsLatchedForEachOf := by
  unfold Obligations.TimeNowIsLatchedForEachOf
  refine ⟨fun s of hp => ⟨_, exec_timeNowRead of hp, keeps_timeNowRead _ _, fun n => ?_, ?_⟩, fun s n => ⟨?_, ?_⟩⟩
  · rw [of_timeNowRead, partnerWake_time, partnerWake_of]
  · rw [out_timeNowRead, partnerWake_time, partnerWake_out]
  · exact read_timeNow_latched s n (i := 1) (by decide) (by decide)
  · exact read_timeNow_latched s n (i := 2) (by decide) (by decide)

end Sys2Proof.Proofs
end

section
/-! What every command does, over all commands: the parts it can change are those that `touches` lists, and the invariant stays. Then the
steps and runs of the sled (log 1, log 2). -/
namespace Sys2Proof.Proofs
open Sys2Proof Sys2Proof.Machine Sys2Proof.Laws
set_option Elab.async false -- one thread, within the memory of the check

/-! ### Sets of parts as lists and as bits -/

/-- The bits of a list of parts. -/
def partMask (l : List Part) : Nat := l.foldr (fun p m => 2 ^ bitOf p ||| m) 0

/-- The parts in the order of their bits. -/
def partsInOrder : List Part :=
  [.setup, .ofs, .time, .rtc, .links, .linkDown, .linkAer, .fns, .tx, .rx, .cq, .host, .sched, .hamper, .macs, .cages, .watch, .tally,
    .pair, .acts, .lookout, .supply, .power, .foreman, .tether, .log, .events, .out, .free, .pending]

theorem partsInOrder_bitOf (p : Part) : partsInOrder[bitOf p]? = some p := by cases p <;> rfl

/-- No two parts have the same bit. -/
theorem bitOf_injective {p q : Part} (h : bitOf p = bitOf q) : p = q := by
  have hp := partsInOrder_bitOf p
  rw [h, partsInOrder_bitOf q] at hp
  exact (Option.some.inj hp).symm

theorem mem_of_partMask {l : List Part} {p : Part} (h : (partMask l).testBit (bitOf p) = true) : p ∈ l := by
  induction l with
  | nil => simp [partMask] at h
  | cons q r ih =>
    rw [partMask, List.foldr_cons, Nat.testBit_or, Nat.testBit_two_pow, Bool.or_eq_true, decide_eq_true_eq] at h
    rcases h with h | h
    · rw [bitOf_injective h]
      exact List.mem_cons_self
    · exact List.mem_cons_of_mem q (ih h)

/-- What an operation does to the parts of a list is a frame. -/
theorem keeps_of_partMask {l : List Part} {s t : State} (h : Does (partMask l) s t) : Keeps l s t :=
  does_keeps h l fun _ hp => mem_of_partMask hp

/-- An outcome is a next state, reached with at most these parts changed and the invariants of the blocks kept. -/
def Reached (m : Nat) (s : State) (o : Host.Outcome State Fault Refusal) : Prop := ∃ t, o = .next t ∧ Does m s t

/-- The parts that the lemma of a command's meaning names lie among those that `touches` lists for it. -/
theorem reached_touches {a : Nat} {c : Instr} {s : State} {o : Host.Outcome State Fault Refusal} (h : Reached a s o)
    (hm : Sub a (partMask (touches c)) := by dsimp only [touches]; decide) : Reached (partMask (touches c)) s o := by
  obtain ⟨t, ht, hd⟩ := h
  exact ⟨t, ht, does_mono hd hm⟩

/-- Every command answers a next state, and changes at most what `touches` lists. -/
theorem exec_reached (c : Instr) (s : State) : Reached (partMask (touches c)) s (exec c s) := by
  cases c with
  | registerWrite bar offset size value => exact reached_touches (does_execRegisterWrite bar offset size value s)
  | commit of seq => exact reached_touches (does_execCommit of seq s)
  | discard of => exact reached_touches (does_execDiscard of s)
  | commitApply => exact reached_touches (does_execCommitApply s)
  | setupLock of => exact reached_touches (does_execSetupLock of s)
  | timeNowRead of => exact reached_touches (does_execTimeNowRead of s)
  | timeCtrlRate src => exact reached_touches (does_execTimeCtrlRate src s)
  | timeCtrlStep src => exact reached_touches (does_execTimeCtrlStep src s)
  | timeCtrlSet src => exact reached_touches (does_execTimeCtrlSet src s)
  | timeHoldExpiry => exact reached_touches (does_execTimeHoldExpiry s)
  | rtcAlarm => exact reached_touches (does_execRtcAlarm s)
  | rtcAlarmWrite hi => exact reached_touches (does_execRtcAlarmWrite hi s)
  | rtcCountWrite hi => exact reached_touches (does_execRtcCountWrite hi s)
  | rtcCountRead => exact reached_touches (does_execRtcCountRead s)
  | ptmRequest link => exact reached_touches (does_execPtmRequest link s)
  | readCompletion tag good data => exact reached_touches (does_execReadCompletion tag good data s)
  | cvuAssign => exact reached_touches (does_execCvuAssign s)
  | checkDone unit => exact reached_touches (does_execCheckDone unit s)
  | completionTimeout tag => exact reached_touches (does_execCompletionTimeout tag s)
  | unexpectedCompletion link => exact reached_touches (does_execUnexpectedCompletion link s)
  | unsupportedRequest link => exact reached_touches (does_execUnsupportedRequest link s)
  | aerError link kind => exact reached_touches (does_execAerError link kind s)
  | hlLinkUp link speed width => exact reached_touches (does_execHlLinkUp link speed width s)
  | hlLinkDown link => exact reached_touches (does_execHlLinkDown link s)
  | perstAssert link => exact reached_touches (does_execPerstAssert link s)
  | flr fn => exact reached_touches (does_execFlr fn s)
  | vfDisable pf numVfs => exact reached_touches (does_execVfDisable pf numVfs s)
  | d3hotEntry fn => exact reached_touches (does_execD3hotEntry fn s)
  | busMasterClear fn => exact reached_touches (does_execBusMasterClear fn s)
  | configWrite fn bits => exact reached_touches (does_execConfigWrite fn bits s)
  | l1Exit link => exact reached_touches (does_execL1Exit link s)
  | enrol fn go req => exact reached_touches (does_execEnrol fn go req s)
  | enrolReadDone fn good data => exact reached_touches (does_execEnrolReadDone fn good data s)
  | leave fn go req => exact reached_touches (does_execLeave fn go req s)
  | query fn go req => exact reached_touches (does_execQuery fn go req s)
  | txrCreate fn go req => exact reached_touches (does_execTxrCreate fn go req s)
  | rxrCreate fn go req => exact reached_touches (does_execRxrCreate fn go req s)
  | cqCreate fn go req => exact reached_touches (does_execCqCreate fn go req s)
  | evrCreate fn go req => exact reached_touches (does_execEvrCreate fn go req s)
  | ringDestroy fn go req => exact reached_touches (does_execRingDestroy fn go req s)
  | ringDestroyDone fn => exact reached_touches (does_execRingDestroyDone fn s)
  | fnCmdEvict fn => exact reached_touches (does_execFnCmdEvict fn s)
  | fnCmdRelease fn => exact reached_touches (does_execFnCmdRelease fn s)
  | evictionComplete fn => exact reached_touches (does_execEvictionComplete fn s)
  | doorbellTx fn whole value => exact reached_touches (does_execDoorbellTx fn whole value s)
  | doorbellRx fn whole value => exact reached_touches (does_execDoorbellRx fn whole value s)
  | doorbellCq fn whole value => exact reached_touches (does_execDoorbellCq fn whole value s)
  | doorbellEvr fn whole value => exact reached_touches (does_execDoorbellEvr fn whole value s)
  | doorbellRecall fn whole value => exact reached_touches (does_execDoorbellRecall fn whole value s)
  | doorbellArm fn evr whole value => exact reached_touches (does_execDoorbellArm fn evr whole value s)
  | descriptorFetch rx ring => exact reached_touches (does_execDescriptorFetch rx ring s)
  | txBufferRead ring => exact reached_touches (does_execTxBufferRead ring s)
  | cqModTime queue => exact reached_touches (does_execCqModTime queue s)
  | rxStoreWrite ring => exact reached_touches (does_execRxStoreWrite ring s)
  | rxEarlyStart ring => exact reached_touches (does_execRxEarlyStart ring s)
  | rxWaitExpiry ring => exact reached_touches (does_execRxWaitExpiry ring s)
  | grant m ready => exact reached_touches (does_execGrant m ready s)
  | frameDeparture m => exact reached_touches (does_execFrameDeparture m s)
  | gateEvent m => exact reached_touches (does_execGateEvent m s)
  | gclApplied m => exact reached_touches (does_execGclApplied m s)
  | txEarlyWake m => exact reached_touches (does_execTxEarlyWake m s)
  | lpiEntry m rx => exact reached_touches (does_execLpiEntry m rx s)
  | frameReceived m frame => exact reached_touches (does_execFrameReceived m frame s)
  | flowWrite of index => exact reached_touches (does_execFlowWrite of index s)
  | flowDelete of index => exact reached_touches (does_execFlowDelete of index s)
  | flowRead of index => exact reached_touches (does_execFlowRead of index s)
  | linkTrainingStart m => exact reached_touches (does_execLinkTrainingStart m s)
  | linkUp m far => exact reached_touches (does_execLinkUp m far s)
  | linkTrainTimeout m => exact reached_touches (does_execLinkTrainTimeout m s)
  | linkTrainRetry m => exact reached_touches (does_execLinkTrainRetry m s)
  | laneLoss lane => exact reached_touches (does_execLaneLoss lane s)
  | remoteFault m => exact reached_touches (does_execRemoteFault m s)
  | macControlFrame m frame => exact reached_touches (does_execMacControlFrame m frame s)
  | pauseRegister m => exact reached_touches (does_execPauseRegister m s)
  | pauseEnd m c => exact reached_touches (does_execPauseEnd m c s)
  | pauseWdExpiry m c => exact reached_touches (does_execPauseWdExpiry m c s)
  | fcWdRearm m => exact reached_touches (does_execFcWdRearm m s)
  | controlFrameSend m => exact reached_touches (does_execControlFrameSend m s)
  | pfcRefresh m c => exact reached_touches (does_execPfcRefresh m c s)
  | pauseRefresh m => exact reached_touches (does_execPauseRefresh m s)
  | lldpSend m => exact reached_touches (does_execLldpSend m s)
  | watchFrame p frame => exact reached_touches (does_execWatchFrame p frame s)
  | watchLinkUp p => exact reached_touches (does_execWatchLinkUp p s)
  | watchLinkFail p => exact reached_touches (does_execWatchLinkFail p s)
  | cageInserted p maxPower copper => exact reached_touches (does_execCageInserted p maxPower copper s)
  | cageRemoved p => exact reached_touches (does_execCageRemoved p s)
  | cageReset p => exact reached_touches (does_execCageReset p s)
  | cageResetDone p maxPower copper => exact reached_touches (does_execCageResetDone p maxPower copper s)
  | cageReenable p => exact reached_touches (does_execCageReenable p s)
  | cageFault p => exact reached_touches (does_execCageFault p s)
  | modulePoll p flags => exact reached_touches (does_execModulePoll p flags s)
  | cageMirrorCopy p data => exact reached_touches (does_execCageMirrorCopy p data s)
  | tallyRead of => exact reached_touches (does_execTallyRead of s)
  | snapshotTrigger of set seq => exact reached_touches (does_execSnapshotTrigger of set seq s)
  | tallySnapshot of => exact reached_touches (does_execTallySnapshot of s)
  | energyWindow measured => exact reached_touches (does_execEnergyWindow measured s)
  | mirrorBoundary => exact reached_touches (does_execMirrorBoundary s)
  | relinquish e => exact reached_touches (does_execRelinquish e s)
  | lockstepHandoverEnd => exact reached_touches (does_execLockstepHandoverEnd s)
  | divergence => exact reached_touches (does_execDivergence s)
  | verdictResult test => exact reached_touches (does_execVerdictResult test s)
  | drainEnd => exact reached_touches (does_execDrainEnd s)
  | warmHandoverEnd => exact reached_touches (does_execWarmHandoverEnd s)
  | heartbeatMiss e => exact reached_touches (does_execHeartbeatMiss e s)
  | flitReceived path lane flit => exact reached_touches (does_execFlitReceived path lane flit s)
  | roleSwap => exact reached_touches (does_execRoleSwap s)
  | pairCmdSwap => exact reached_touches (does_execPairCmdSwap s)
  | pairCmdRequalify e => exact reached_touches (does_execPairCmdRequalify e s)
  | warmStandbyReady => exact reached_touches (does_execWarmStandbyReady s)
  | bistCycleDone e pass ecc => exact reached_touches (does_execBistCycleDone e pass ecc s)
  | requalifyDone e pass => exact reached_touches (does_execRequalifyDone e pass s)
  | bulkCopyDone => exact reached_touches (does_execBulkCopyDone s)
  | resyncDone => exact reached_touches (does_execResyncDone s)
  | resyncTimeout => exact reached_touches (does_execResyncTimeout s)
  | junctionFault => exact reached_touches (does_execJunctionFault s)
  | lookoutServe ch => exact reached_touches (does_execLookoutServe ch s)
  | badServe ch pc => exact reached_touches (does_execBadServe ch pc s)
  | lookoutExpiry ch pc => exact reached_touches (does_execLookoutExpiry ch pc s)
  | warningPeriodClose ch pc => exact reached_touches (does_execWarningPeriodClose ch pc s)
  | loCmdTest ch pc => exact reached_touches (does_execLoCmdTest ch pc s)
  | lookoutClockTrip ch otherStopped => exact reached_touches (does_execLookoutClockTrip ch otherStopped s)
  | lookoutResetHold => exact reached_touches (does_execLookoutResetHold s)
  | warningDelivery => exact reached_touches (does_execWarningDelivery s)
  | mgmtRestart => exact reached_touches (does_execMgmtRestart s)
  | supervisorRestarted => exact reached_touches (does_execSupervisorRestarted s)
  | lookoutEvidenceCopy => exact reached_touches (does_execLookoutEvidenceCopy s)
  | acFailRise => exact reached_touches (does_execAcFailRise s)
  | acFailFall => exact reached_touches (does_execAcFailFall s)
  | mainsGraceExpiry => exact reached_touches (does_execMainsGraceExpiry s)
  | mainsReturn test => exact reached_touches (does_execMainsReturn test s)
  | supplyWarn mv crossing => exact reached_touches (does_execSupplyWarn mv crossing s)
  | supplyRecovered => exact reached_touches (does_execSupplyRecovered s)
  | bulkReset mv => exact reached_touches (does_execBulkReset mv s)
  | bulkResetRelease test => exact reached_touches (does_execBulkResetRelease test s)
  | railFault rail mv => exact reached_touches (does_execRailFault rail mv s)
  | auxReenable => exact reached_touches (does_execAuxReenable s)
  | aoBudgetSample ua => exact reached_touches (does_execAoBudgetSample ua s)
  | aoBrownout => exact reached_touches (does_execAoBrownout s)
  | cellCvReached => exact reached_touches (does_execCellCvReached s)
  | chargeComplete => exact reached_touches (does_execChargeComplete s)
  | chargeTempHold => exact reached_touches (does_execChargeTempHold s)
  | chargeTempResume => exact reached_touches (does_execChargeTempResume s)
  | cellRemoved => exact reached_touches (does_execCellRemoved s)
  | cellProbe mv => exact reached_touches (does_execCellProbe mv s)
  | pwrCmdSleep => exact reached_touches (does_execPwrCmdSleep s)
  | pwrCmdDeepSleep hottest => exact reached_touches (does_execPwrCmdDeepSleep hottest s)
  | pwrCmdOff => exact reached_touches (does_execPwrCmdOff s)
  | pwrEntered => exact reached_touches (does_execPwrEntered s)
  | idleEntry => exact reached_touches (does_execIdleEntry s)
  | wakePin => exact reached_touches (does_execWakePin s)
  | readyStageDone test => exact reached_touches (does_execReadyStageDone test s)
  | readyTimeout test => exact reached_touches (does_execReadyTimeout test s)
  | pwrExited => exact reached_touches (does_execPwrExited s)
  | islandAutoWake n => exact reached_touches (does_execIslandAutoWake n s)
  | dvfsCommand mhz mv islands => exact reached_touches (does_execDvfsCommand mhz mv islands s)
  | vReady => exact reached_touches (does_execVReady s)
  | dvfsTimeout => exact reached_touches (does_execDvfsTimeout s)
  | foremanLoop busy => exact reached_touches (does_execForemanLoop busy s)
  | thermalWindow hottest => exact reached_touches (does_execThermalWindow hottest s)
  | tetherTxStart stamp => exact reached_touches (does_execTetherTxStart stamp s)
  | tetherTxEnd res => exact reached_touches (does_execTetherTxEnd res s)
  | tetherTxSend slot => exact reached_touches (does_execTetherTxSend slot s)
  | tetherTxCancel slot => exact reached_touches (does_execTetherTxCancel slot s)
  | gsCmdPropose mode hottest => exact reached_touches (does_execGsCmdPropose mode hottest s)
  | gsCmdVeto => exact reached_touches (does_execGsCmdVeto s)
  | gsCmdWakeAll => exact reached_touches (does_execGsCmdWakeAll s)
  | wakeVeto frame => exact reached_touches (does_execWakeVeto frame s)
  | wakeAll frame => exact reached_touches (does_execWakeAll frame s)
  | abort frame => exact reached_touches (does_execAbort frame s)
  | sync frame => exact reached_touches (does_execSync frame s)
  | follow frame => exact reached_touches (does_execFollow frame s)
  | propose frame hottest => exact reached_touches (does_execPropose frame hottest s)
  | agree frame => exact reached_touches (does_execAgree frame s)
  | refuse frame => exact reached_touches (does_execRefuse frame s)
  | tetherCommit frame => exact reached_touches (does_execTetherCommit frame s)
  | failover frame => exact reached_touches (does_execFailover frame s)
  | claim frame => exact reached_touches (does_execClaim frame s)
  | object frame => exact reached_touches (does_execObject frame s)
  | heartbeat frame => exact reached_touches (does_execHeartbeat frame s)
  | operator frame => exact reached_touches (does_execOperator frame s)
  | listenWindowEnd => exact reached_touches (does_execListenWindowEnd s)
  | claimWindowEnd => exact reached_touches (does_execClaimWindowEnd s)
  | backoffEnd => exact reached_touches (does_execBackoffEnd s)
  | heartbeatSend => exact reached_touches (does_execHeartbeatSend s)
  | tetherStationGone station => exact reached_touches (does_execTetherStationGone station s)
  | syncSend => exact reached_touches (does_execSyncSend s)
  | gsAgreeWindowEnd => exact reached_touches (does_execGsAgreeWindowEnd s)
  | gsMemberTimeout => exact reached_touches (does_execGsMemberTimeout s)
  | gsCommitTime hottest => exact reached_touches (does_execGsCommitTime hottest s)
  | tetherRxPop => exact reached_touches (does_execTetherRxPop s)
  | coldStart how test => exact reached_touches (does_execColdStart how test s)
  | sledReset key test => exact reached_touches (does_execSledReset key test s)
  | chassisReset test => exact reached_touches (does_execChassisReset test s)
  | sledStarted ms => exact reached_touches (does_execSledStarted ms s)
  | fwCmdStage of => exact reached_touches (does_execFwCmdStage of s)
  | fwStaged sigGood svn line raiseFlag build => exact reached_touches (does_execFwStaged sigGood svn line raiseFlag build s)
  | fwCmdActivate of => exact reached_touches (does_execFwCmdActivate of s)
  | logCmdSave lockAfterLoad => exact reached_touches (does_execLogCmdSave lockAfterLoad s)
  | setupImageSaved => exact reached_touches (does_execSetupImageSaved s)
  | logbookScrub row corrected uncorrectable => exact reached_touches (does_execLogbookScrub row corrected uncorrectable s)
  | ledgerEntry => exact reached_touches (does_execLedgerEntry s)
  | evAlertAck => exact reached_touches (does_execEvAlertAck s)
  | evTest of key => exact reached_touches (does_execEvTest of key s)
  | smbStatus => exact reached_touches (does_execSmbStatus s)
  | smbBulkMv => exact reached_touches (does_execSmbBulkMv s)
  | smbInletTemp => exact reached_touches (does_execSmbInletTemp s)
  | smbInputPower => exact reached_touches (does_execSmbInputPower s)
  | smbFanFault => exact reached_touches (does_execSmbFanFault s)
  | smbLogSeq => exact reached_touches (does_execSmbLogSeq s)
  | smbSerial => exact reached_touches (does_execSmbSerial s)
  | smbWake => exact reached_touches (does_execSmbWake s)
  | smbAlertResponse => exact reached_touches (does_execSmbAlertResponse s)
  | fanFailure fan => exact reached_touches (does_execFanFailure fan s)
  | timePairRecord => exact reached_touches (does_execTimePairRecord s)
  | gsCommitDeadline => exact reached_touches (does_execGsCommitDeadline s)
  | bulkRailRecoveryCrossing mv => exact reached_touches (does_execBulkRailRecoveryCrossing mv s)
  | msixVectorUnmask fn dword value => exact reached_touches (does_execMsixVectorUnmask fn dword value s)

/-- The queue is listed for no command. -/
theorem pending_not_touched (c : Instr) : Part.pending ∉ touches c := by
  cases c <;> dsimp only [touches] <;> decide

/-- Settles O4: the frame by the parts that the command can change; the queue is listed for no command. -/
theorem everyCommandKeepsWhatItDoesNotTouch : Obligations.EveryCommandKeepsWhatItDoesNotTouch := by
  unfold Obligations.EveryCommandKeepsWhatItDoesNotTouch
  intro c s t h
  obtain ⟨u, hu, hd⟩ := exec_reached c s
  obtain rfl : u = t := by
    rw [h] at hu
    cases hu
    rfl
  have hk := keeps_of_partMask hd
  exact ⟨hk, hk .pending (pending_not_touched c)⟩

/-- Settles O3: each command by the lemma of its meaning. -/
theorem noCommandStopsTheSled : Obligations.NoCommandStopsTheSled := by
  unfold Obligations.NoCommandStopsTheSled
  intro c s
  obtain ⟨t, ht, -⟩ := exec_reached c s
  exact ⟨t, ht⟩

/-- Settles O1: the step looks at the front of the queue. -/
theorem stepRunsTheCommandInFront : Obligations.StepRunsTheCommandInFront := by
  unfold Obligations.StepRunsTheCommandInFront
  exact fun _ _ _ => rfl

/-! ### The invariant -/

/-- An outcome keeps the rules of the acting part. -/
def KeepsPair (o : Host.Outcome State Fault Refusal) : Prop := ∃ t, o = .next t ∧ PairOk t.pair

/-- A command that does not list the acting part keeps its rules. -/
theorem exec_keepsPair_of_frame {c : Instr} {s : State} (h : PairOk s.pair)
    (hc : Part.acts ∉ touches c := by dsimp only [touches]; decide) : KeepsPair (exec c s) := by
  obtain ⟨t, ht, hd⟩ := exec_reached c s
  exact ⟨t, ht, pairOk_of_eq (keeps_of_partMask hd .acts hc) h⟩

/-- Every command keeps the rules of the acting part: those that can change it by the lemma of their meaning. -/
theorem exec_keepsPair (c : Instr) {s : State} (h : PairOk s.pair) : KeepsPair (exec c s) := by
  cases c with
  | commitApply => exact pairOk_execCommitApply h
  | frameDeparture m => exact pairOk_execFrameDeparture m h
  | relinquish e => exact pairOk_execRelinquish e h
  | lockstepHandoverEnd => exact pairOk_execLockstepHandoverEnd h
  | divergence => exact pairOk_execDivergence h
  | verdictResult test => exact pairOk_execVerdictResult test h
  | drainEnd => exact pairOk_execDrainEnd h
  | warmHandoverEnd => exact pairOk_execWarmHandoverEnd h
  | heartbeatMiss e => exact pairOk_execHeartbeatMiss e h
  | flitReceived path lane flit => exact pairOk_execFlitReceived path lane flit h
  | roleSwap => exact pairOk_execRoleSwap h
  | pairCmdSwap => exact pairOk_execPairCmdSwap h
  | pairCmdRequalify e => exact pairOk_execPairCmdRequalify e h
  | warmStandbyReady => exact pairOk_execWarmStandbyReady h
  | bistCycleDone e pass ecc => exact pairOk_execBistCycleDone e pass ecc h
  | requalifyDone e pass => exact pairOk_execRequalifyDone e pass h
  | resyncDone => exact pairOk_execResyncDone h
  | resyncTimeout => exact pairOk_execResyncTimeout h
  | junctionFault => exact pairOk_execJunctionFault h
  | lookoutResetHold => exact pairOk_execLookoutResetHold h
  | mainsReturn test => exact pairOk_execMainsReturn test h
  | bulkReset mv => exact pairOk_execBulkReset mv h
  | bulkResetRelease test => exact pairOk_execBulkResetRelease test h
  | railFault rail mv => exact pairOk_execRailFault rail mv h
  | aoBrownout => exact pairOk_execAoBrownout h
  | readyStageDone test => exact pairOk_execReadyStageDone test h
  | readyTimeout test => exact pairOk_execReadyTimeout test h
  | pwrExited => exact pairOk_execPwrExited h
  | coldStart how test => exact pairOk_execColdStart how test h
  | sledReset key test => exact pairOk_execSledReset key test h
  | chassisReset test => exact pairOk_execChassisReset test h
  | _ => exact exec_keepsPair_of_frame h

/-- The invariant is kept by every command. -/
theorem exec_keeps_inv (c : Instr) {s t : State} (k : Inv s) (h : exec c s = .next t) : Inv t := by
  obtain ⟨u, hu, hd⟩ := exec_reached c s
  obtain ⟨v, hv, hp⟩ := exec_keepsPair c k.pair
  rw [h] at hu hv
  cases hu
  cases hv
  exact inv_of_does hd hp k

/-- The invariant is kept by a J-cycle, which leaves the acting part alone. -/
theorem tick_keeps_inv {s : State} (k : Inv s) : Inv s.tick :=
  inv_of_does_acts (does_tick (M := 0xe66508e) (by decide) (does_refl _ s)) (by decide) k

/-- The queue is no part of the invariant. -/
theorem inv_pending {s : State} (q : List Instr) (k : Inv s) : Inv { s with pending := q } := ⟨k.log, k.setup, k.tally, k.supply, k.tether, k.pair⟩

/-- A step is a J-cycle on an empty queue, and the command in front of any other. -/
theorem step_cases {s t : State} (h : Steps s t) :
    (s.pending = [] ∧ t = s.tick) ∨ ∃ c rest, s.pending = c :: rest ∧ exec c { s with pending := rest } = .next t := by
  unfold Steps step at h
  split at h
  · next c rest hq => exact .inr ⟨c, rest, hq, h⟩
  · next hq => exact .inl ⟨hq, (Host.Outcome.next.inj h).symm⟩

/-- Settles O6: a step is a J-cycle or a command, each of which keeps the invariant. -/
theorem everyStepKeepsTheInvariant : Obligations.EveryStepKeepsTheInvariant := by
  unfold Obligations.EveryStepKeepsTheInvariant
  intro s t k h
  rcases step_cases h with ⟨-, ht⟩ | ⟨c, rest, -, h⟩
  · rw [ht]
    exact tick_keeps_inv k
  · exact exec_keeps_inv c (inv_pending rest k) h

/-- Settles O5: reset lists nothing in its tables and has engine A alone Active. -/
theorem resetMeetsTheInvariant : Obligations.ResetMeetsTheInvariant := by
  unfold Obligations.ResetMeetsTheInvariant
  exact ⟨⟨reset_memory_wf, nofun, nofun⟩, rfl, ⟨nofun, nofun, nofun⟩, Nat.zero_le 256, Nat.zero_le 16, pairOk_init⟩

/-! ### Runs -/

/-- Every state has a next one. -/
theorem steps_exists (s : State) : ∃ t, Steps s t := by
  cases hq : s.pending with
  | nil => exact ⟨s.tick, by simp [Steps, step, hq]⟩
  | cons c rest =>
    obtain ⟨t, ht, -⟩ := exec_reached c { s with pending := rest }
    exact ⟨t, by simpa [Steps, step, hq] using ht⟩

/-- The invariant holds along every run. -/
theorem runs_keep_inv {s t : State} (k : Inv s) (h : Runs s t) : Inv t := by
  induction h with
  | refl => exact k
  | snoc _ hstep ih => exact everyStepKeepsTheInvariant _ _ ih hstep

/-- Settles O7: the invariant holds along every run, and with it one engine at most acts; every state has a next one. -/
theorem noRunStopsOrHasTwoActiveEngines : Obligations.NoRunStopsOrHasTwoActiveEngines := by
  unfold Obligations.NoRunStopsOrHasTwoActiveEngines
  intro s k
  refine ⟨fun t ht => ⟨runs_keep_inv k ht, steps_exists t⟩, fun t ht => ?_⟩
  have hp := (runs_keep_inv k ht).pair
  exact ⟨hp.lines, hp.one⟩

end Sys2Proof.Proofs
end

section
/-! What flags leave alone, part by part; raised events, counters (R212, R402) and the Logbook's memory (R362). -/
namespace Sys2Proof.Proofs
open Sys2Proof Sys2Proof.Machine Sys2Proof.Laws
set_option Elab.async false -- one thread, within the memory of the check

/-! ### Flags, part by part -/

/-- Flags leave every part that they do not reach. -/
theorem flags_parts {s t : State} (h : Flags s t) :
    t.setup = s.setup ∧ t.time = s.time ∧ t.rtc = s.rtc ∧ t.links = s.links ∧ t.linkDown = s.linkDown ∧ t.linkAer = s.linkAer ∧
    t.tx = s.tx ∧ t.rx = s.rx ∧ t.cq = s.cq ∧ t.host = s.host ∧ t.sched = s.sched ∧ t.hamper = s.hamper ∧ t.macs = s.macs ∧
    t.cages = s.cages ∧ t.watch = s.watch ∧ t.pair = s.pair ∧ t.lookout = s.lookout ∧ t.power = s.power ∧ t.foreman = s.foreman ∧
    t.tether = s.tether ∧ t.free = s.free ∧ t.pending = s.pending := by
  have k (p : Part) (hp : p ∉ flagParts := by decide) : p.same s t := h.keeps p hp
  exact ⟨k .setup, k .time, k .rtc, k .links, k .linkDown, k .linkAer, k .tx, k .rx, k .cq, k .host, k .sched, k .hamper, k .macs,
    k .cages, k .watch, k .pair, k .lookout, k .power, k .foreman, k .tether, k .free, k .pending⟩

/-- Events that are raised leave every part that flags do not reach. -/
@[simp] theorem raise_parts (s : State) (e : Ev) (b : Bytes) :
    (s.raise e b).setup = s.setup ∧ (s.raise e b).time = s.time ∧ (s.raise e b).rtc = s.rtc ∧ (s.raise e b).links = s.links ∧
    (s.raise e b).linkDown = s.linkDown ∧ (s.raise e b).linkAer = s.linkAer ∧ (s.raise e b).tx = s.tx ∧ (s.raise e b).rx = s.rx ∧
    (s.raise e b).cq = s.cq ∧ (s.raise e b).host = s.host ∧ (s.raise e b).sched = s.sched ∧ (s.raise e b).hamper = s.hamper ∧
    (s.raise e b).macs = s.macs ∧ (s.raise e b).cages = s.cages ∧ (s.raise e b).watch = s.watch ∧ (s.raise e b).pair = s.pair ∧
    (s.raise e b).lookout = s.lookout ∧ (s.raise e b).power = s.power ∧ (s.raise e b).foreman = s.foreman ∧
    (s.raise e b).tether = s.tether ∧ (s.raise e b).free = s.free ∧ (s.raise e b).pending = s.pending :=
  flags_parts (flags_raise e b (flags_refl s))

/-- Counters leave every part that flags do not reach. -/
@[simp] theorem countN_parts (s : State) (c : Ctr) (cls obj n : Nat) :
    (s.countN c cls obj n).setup = s.setup ∧ (s.countN c cls obj n).time = s.time ∧ (s.countN c cls obj n).rtc = s.rtc ∧
    (s.countN c cls obj n).links = s.links ∧ (s.countN c cls obj n).linkDown = s.linkDown ∧
    (s.countN c cls obj n).linkAer = s.linkAer ∧ (s.countN c cls obj n).tx = s.tx ∧ (s.countN c cls obj n).rx = s.rx ∧
    (s.countN c cls obj n).cq = s.cq ∧ (s.countN c cls obj n).host = s.host ∧ (s.countN c cls obj n).sched = s.sched ∧
    (s.countN c cls obj n).hamper = s.hamper ∧ (s.countN c cls obj n).macs = s.macs ∧ (s.countN c cls obj n).cages = s.cages ∧
    (s.countN c cls obj n).watch = s.watch ∧ (s.countN c cls obj n).pair = s.pair ∧ (s.countN c cls obj n).lookout = s.lookout ∧
    (s.countN c cls obj n).power = s.power ∧ (s.countN c cls obj n).foreman = s.foreman ∧ (s.countN c cls obj n).tether = s.tether ∧
    (s.countN c cls obj n).free = s.free ∧ (s.countN c cls obj n).pending = s.pending :=
  flags_parts (flags_countN c cls obj n (flags_refl s))

/-- One count is a count of 1 for class 0. -/
@[simp] theorem count_eq_countN (s : State) (c : Ctr) (obj : Nat) : s.count c obj = s.countN c 0 obj 1 := rfl

@[simp] theorem countCls_eq_countN (s : State) (c : Ctr) (cls obj : Nat) : s.countCls c cls obj = s.countN c cls obj 1 := rfl

/-! ### Events (R402) -/

/-- Flags leave the indices of R402. -/
theorem flags_kept {s t : State} (h : Flags s t) : t.events.kept = s.events.kept := by
  exact (congrArg EventSt.kept h.events : t.events.sans.kept = s.events.sans.kept)

@[simp] theorem tget_tput_same (t : List (Nat × Nat)) (k v : Nat) : tget (tput t k v) k = v := get_put_same t k v

theorem tget_tput_other (t : List (Nat × Nat)) {k j : Nat} (v : Nat) (h : j ≠ k) : tget (tput t k v) j = tget t j :=
  get_put_other t v h

/-- After an event of R402 the kept index is that of the present second, whether it was raised now or before. -/
theorem raiseOnce_keeps_second (s : State) (e : Ev) (obj : Nat) (b : Bytes) :
    tget (s.raiseOnce e obj b).events.kept (e.code * 2 ^ 16 + obj) = s.second + 1 := by
  unfold State.raiseOnce
  dsimp only
  split
  · next h => exact h
  · rw [flags_kept (flags_raise e b (flags_refl _))]
    simp

/-- Settles O8: by the lemmas of `raise` and `raiseOnce`. -/
theorem raisingAnEventChangesOnlyFlags : Obligations.RaisingAnEventChangesOnlyFlags := by
  unfold Obligations.RaisingAnEventChangesOnlyFlags
  exact ⟨raise_raises, fun s e obj b => ⟨raiseOnce_raises s e obj b, raiseOnce_keeps_second s e obj b⟩⟩

/-- Settles O9: a counter of another code than EVR_LOST has none of its keys. -/
theorem countersWrapModulo48Bits : Obligations.CountersWrapModulo48Bits := by
  unfold Obligations.CountersWrapModulo48Bits
  exact fun s c cls obj n hcls hobj hc => countN_counts s c cls obj n (count_key c cls obj hcls hobj hc)

/-! ### The Logbook's memory (R362) -/

/-- A stored byte string reads back, and every other byte is as before. -/
theorem get_memStore (m : List Host.Cell) (a : Nat) (b : Bytes) (k : Nat) :
    Tbl.get (fun _ => 0#8) (memStore m a b) k =
      if a ≤ k ∧ k < a + b.length then b.getD (k - a) 0 else Tbl.get (fun _ => 0#8) m k := by
  induction b generalizing m a with
  | nil =>
    rw [if_neg (by simp only [List.length_nil]; omega)]
    rfl
  | cons x r ih =>
    simp only [memStore, ih, List.length_cons]
    rcases Nat.lt_trichotomy k a with hk | rfl | hk
    · rw [if_neg (by omega), if_neg (by omega), get_put_other m x (by omega)]
    · rw [if_neg (by omega), if_pos (by omega), get_put_same, Nat.sub_self, List.getD_cons_zero]
    · obtain ⟨j, rfl⟩ : ∃ j, k = a + 1 + j := ⟨k - (a + 1), by omega⟩
      rw [get_put_other m x (by omega), show a + 1 + j - (a + 1) = j by omega, show a + 1 + j - a = j + 1 by omega,
        List.getD_cons_succ]
      congr 1
      rw [eq_iff_iff]
      omega

/-- Settles O10: by induction on the bytes stored. -/
theorem logbookMemoryReadsBackWhatIsStored : Obligations.LogbookMemoryReadsBackWhatIsStored := by
  unfold Obligations.LogbookMemoryReadsBackWhatIsStored
  exact fun m a b hm => ⟨memStore_wf a b hm, get_memStore m a b⟩

end Sys2Proof.Proofs
end

section
/-! The J-cycle (log 2): what each part of it leaves alone, how device time and the RTC move on (R40, R41, R53, R54), and the jumps of
device time by Steps and Sets (R48, R59). -/
namespace Sys2Proof.Proofs
open Sys2Proof Sys2Proof.Machine Sys2Proof.Laws
set_option Elab.async false -- one thread, within the memory of the check

/-! ### CORE, and folds -/

/-- What every step of a fold leaves alone the fold leaves alone. -/
theorem foldl_keeps {α β γ : Type} {g : β → γ} {f : β → α → β} (hf : ∀ s a, g (f s a) = g s) (l : List α) (s : β) :
    g (l.foldl f s) = g s := by
  induction l generalizing s with
  | nil => rfl
  | cons a r ih => rw [List.foldl_cons, ih, hf]

/-- Whether CORE runs rests on the power mode, the reset of the supply and the boot ROM. -/
theorem coreRuns_of {s t : State} (hp : t.power = s.power) (hr : t.supply.inReset = s.supply.inReset)
    (hb : t.log.bootRom = s.log.bootRom) : t.coreRuns = s.coreRuns := by
  simp only [State.coreRuns, hr, hb, hp]

theorem flags_inReset {s t : State} (h : Flags s t) : t.supply.inReset = s.supply.inReset := by
  exact (congrArg SupplySt.inReset h.supply : t.supply.sans.inReset = s.supply.sans.inReset)

theorem flags_bootRom {s t : State} (h : Flags s t) : t.log.bootRom = s.log.bootRom := by
  exact (congrArg LogSt.bootRom h.log : t.log.sans.bootRom = s.log.sans.bootRom)

theorem flags_coreRuns {s t : State} (h : Flags s t) : t.coreRuns = s.coreRuns :=
  coreRuns_of (h.keeps .power (by decide)) (flags_inReset h) (flags_bootRom h)

@[simp] theorem coreRuns_raise (s : State) (e : Ev) (b : Bytes) : (s.raise e b).coreRuns = s.coreRuns :=
  flags_coreRuns (flags_raise e b (flags_refl s))

@[simp] theorem coreRuns_countN (s : State) (c : Ctr) (cls obj n : Nat) : (s.countN c cls obj n).coreRuns = s.coreRuns :=
  flags_coreRuns (flags_countN c cls obj n (flags_refl s))

@[simp] theorem coreRuns_logRow (s : State) (r : LogRec) : (s.logRow r).coreRuns = s.coreRuns :=
  flags_coreRuns (flags_logRow r (flags_refl s))

@[simp] theorem coreRuns_onTime (s : State) (f : TimeSt → TimeSt) : (s.onTime f).coreRuns = s.coreRuns := rfl
@[simp] theorem coreRuns_onRtc (s : State) (f : RtcSt → RtcSt) : (s.onRtc f).coreRuns = s.coreRuns := rfl
@[simp] theorem coreRuns_onSched (s : State) (f : List (Nat × SchInst) → List (Nat × SchInst)) :
    (s.onSched f).coreRuns = s.coreRuns := rfl
@[simp] theorem coreRuns_setSch (s : State) (m : Nat) (f : SchInst → SchInst) : (s.setSch m f).coreRuns = s.coreRuns := rfl
@[simp] theorem coreRuns_setMac (s : State) (m : Nat) (f : MacInst → MacInst) : (s.setMac m f).coreRuns = s.coreRuns := rfl
@[simp] theorem coreRuns_setFn (s : State) (n : Nat) (f : FnSt → FnSt) : (s.setFn n f).coreRuns = s.coreRuns := rfl

/-! ### Enrolments that end (R92) -/

theorem flags_mbxReply (s : State) (f st op : Nat) :
    Flags (s.setFn f (fun n => { n with replySeq := (s.fn f).goSeq, busy := false, wait := none,
                                        reply := replyRecord f (s.fn f).goOp (s.fn f).goSeq st op })) (s.mbxReply f st op) :=
  flags_msix f 0 (flags_refl _)

@[simp] theorem coreRuns_mbxReply (s : State) (f st op : Nat) : (s.mbxReply f st op).coreRuns = s.coreRuns :=
  (flags_coreRuns (flags_mbxReply s f st op)).trans (coreRuns_setFn s f _)

theorem coreRuns_enrolEnd (s : State) (f : Nat) : (s.enrolEnd f).coreRuns = s.coreRuns := by
  unfold State.enrolEnd
  split
  · simp [State.enrolDone]
  · rfl

@[simp] theorem coreRuns_enrolEnds (s : State) : s.enrolEnds.coreRuns = s.coreRuns := foldl_keeps coreRuns_enrolEnd _ s

theorem did_enrolEnds (s : State) : Does 0xe220082 s s.enrolEnds := does_enrolEnds (by decide) (does_refl _ s)

@[simp] theorem time_enrolEnds (s : State) : s.enrolEnds.time = s.time := (did_enrolEnds s).keeps .time (by decide)
@[simp] theorem rtc_enrolEnds (s : State) : s.enrolEnds.rtc = s.rtc := (did_enrolEnds s).keeps .rtc (by decide)
@[simp] theorem power_enrolEnds (s : State) : s.enrolEnds.power = s.power := (did_enrolEnds s).keeps .power (by decide)
@[simp] theorem setup_enrolEnds (s : State) : s.enrolEnds.setup = s.setup := (did_enrolEnds s).keeps .setup (by decide)
@[simp] theorem sched_enrolEnds (s : State) : s.enrolEnds.sched = s.sched := (did_enrolEnds s).keeps .sched (by decide)

/-! ### The parts of a J-cycle behind the clocks -/

theorem did_idleTick (s : State) : Does 0x400000 s s.idleTick := does_idleTick (by decide) (does_refl _ s)

/-- What follows the clocks in a J-cycle: link idle, the window of Idle, the latch's timer and the health region. -/
def afterClocks (s : State) : State := s.lpiTicks.idleTick.latchTick.healthTick

theorem tick_eq (s : State) : s.tick = afterClocks s.enrolEnds.advanceTime := rfl

theorem did_afterClocks (s : State) : Does 0xe665082 s (afterClocks s) :=
  does_healthTick (by decide) (does_latchTick (by decide) (does_idleTick (by decide) (does_lpiTicks (by decide) (does_refl _ s))))

@[simp] theorem time_afterClocks (s : State) : (afterClocks s).time = s.time := (did_afterClocks s).keeps .time (by decide)
@[simp] theorem rtc_afterClocks (s : State) : (afterClocks s).rtc = s.rtc := (did_afterClocks s).keeps .rtc (by decide)

theorem mode_idleTick (s : State) : s.idleTick.power.mode = s.power.mode := by
  unfold State.idleTick
  split
  · split <;> rfl
  · rfl

@[simp] theorem mode_afterClocks (s : State) : (afterClocks s).power.mode = s.power.mode := by
  have hlate : (afterClocks s).power = s.lpiTicks.idleTick.power :=
    (does_healthTick (M := 0xe220082) (by decide) (does_latchTick (by decide) (does_refl _ s.lpiTicks.idleTick))).keeps .power (by decide)
  have hlpi : s.lpiTicks.power = s.power := (does_lpiTicks (M := 0xe225082) (by decide) (does_refl _ s)).keeps .power (by decide)
  rw [hlate, mode_idleTick, hlpi]

/-! ### Device time (R40, R41, R47, R53) -/

/-- The J-cycle's advance of device time, before the adjustments that fall due. -/
def State.clockOn (s : State) : State :=
  s.fillSlot.onTime (fun t => { t with now := t.now + s.increment, elapsed := t.elapsed + s.increment, jcycle := t.jcycle + 1 })

@[simp] theorem time_fillSlot (s : State) : s.fillSlot.time = s.time :=
  (does_fillSlot (M := 0x40000) (by decide) (does_refl _ s)).keeps .time (by decide)

theorem time_clockOn (s : State) : (State.clockOn s).time =
    { s.time with now := s.time.now + s.increment, elapsed := s.time.elapsed + s.increment, jcycle := s.time.jcycle + 1 } := by
  simp [State.clockOn]

/-- The RTC's advance in a J-cycle outside Off (section 2.4). -/
def rtcOn (r : RtcSt) : RtcSt :=
  if r.phase + 16 < 390625 then { r with phase := r.phase + 16 }
  else { r with phase := r.phase + 16 - 390625, count := (r.count + 1) % 2 ^ 48 }

/-- The clocks in a J-cycle: device time while CORE runs, the RTC outside Off. -/
theorem advanceTime_eq (s : State) : s.advanceTime =
    let u := if s.coreRuns then (State.clockOn s).takeDue.lineMoves else s
    if s.power.mode = .off then u else u.onRtc rtcOn := rfl

@[simp] theorem time_lineMoves (s : State) : s.lineMoves.time = s.time :=
  (does_lineMoves (M := 0x8040000) (by decide) (does_refl _ s)).keeps .time (by decide)

theorem time_advanceTime (s : State) : s.advanceTime.time = if s.coreRuns then (State.clockOn s).takeDue.time else s.time := by
  rw [advanceTime_eq]
  split <;> split <;> simp

theorem power_advanceTime (s : State) : s.advanceTime.power = s.power :=
  (does_advanceTime (M := 0xe26108e) (by decide) (does_refl _ s)).keeps .power (by decide)

theorem rtc_advanceTime (s : State) : s.advanceTime.rtc = if s.power.mode = .off then s.rtc else rtcOn s.rtc := by
  have hu : (State.clockOn s).takeDue.lineMoves.rtc = s.rtc :=
    (does_lineMoves (M := 0xe261086) (by decide) (does_takeDue (by decide) (does_onTime (by decide)
      (does_fillSlot (by decide) (does_refl _ s))))).keeps .rtc (by decide)
  rw [advanceTime_eq]
  split <;> split <;> simp [hu]

/-- Without an adjustment that falls due the J-cycle only advances device time. -/
theorem takeDue_none {s : State} (h : s.time.due = []) : s.takeDue = s.onTime (fun t => { t with due := [] }) := by
  simp [State.takeDue, h]

/-- One adjustment that falls due takes effect. -/
theorem takeDue_one {s : State} {a : Nat × Int} (h : s.time.due = [a]) :
    s.takeDue = (s.onTime (fun t => { t with due := [] })).takeEffect a := by
  simp [State.takeDue, h]

/-- Within the range of R41 a J-cycle never runs backwards. -/
theorem increment_cast {s : State} (h : -2684354 ≤ s.time.rate) : (s.increment : Int) = uJ + s.time.rate := by
  unfold State.increment uJ
  omega

/-- 16/390,625 of a tick passes in a J-cycle, over the wrap at 2^48. -/
theorem rtcOn_moves {r : RtcSt} (hp : r.phase < 390625) :
    (rtcOn r).phase < 390625 ∧ ((rtcOn r).count * 390625 + (rtcOn r).phase) % (2 ^ 48 * 390625) =
      (r.count * 390625 + r.phase + 16) % (2 ^ 48 * 390625) := by
  unfold rtcOn
  split
  · next h => exact ⟨h, by rw [Nat.add_assoc]⟩
  · next h => constructor <;> dsimp only <;> omega

/-- Settles O2: the clocks move on as `advanceTime` has them; nothing behind them reaches device time, the RTC or the mode. -/
theorem idleStepIsOneJCycle : Obligations.IdleStepIsOneJCycle := by
  unfold Obligations.IdleStepIsOneJCycle
  intro s hq hdue hlo hhi
  have hdid : Does (partMask (flagParts ++ [.time, .rtc, .sched, .macs, .pair, .power])) s s.tick := does_tick (by decide) (does_refl _ s)
  have hstep : step s = .next s.tick := by simp [step, hq]
  have htime : s.tick.time = if s.coreRuns then { (State.clockOn s.enrolEnds).time with due := [] } else s.time := by
    rw [tick_eq, time_afterClocks, time_advanceTime, coreRuns_enrolEnds, time_enrolEnds,
      takeDue_none (by rw [time_clockOn, time_enrolEnds]; exact hdue)]
    rfl
  have hrtc : s.tick.rtc = if s.power.mode = .off then s.rtc else rtcOn s.rtc := by
    rw [tick_eq, rtc_afterClocks, rtc_advanceTime, power_enrolEnds, rtc_enrolEnds]
  have hinc : (s.enrolEnds.increment : Int) = uJ + s.time.rate := by
    rw [increment_cast (by simpa using hlo), time_enrolEnds]
  refine ⟨s.tick, hstep, keeps_of_partMask hdid, ?_, hdid.keeps .acts (by decide), fun hrun => ?_, fun hstop => ?_, fun hoff => ?_,
    fun hon _ hp => ?_⟩
  · rw [tick_eq, mode_afterClocks, power_advanceTime, power_enrolEnds]
  · rw [htime, if_pos hrun, time_clockOn, time_enrolEnds]
    refine ⟨?_, ?_, rfl, rfl, rfl⟩
    · rw [Nat.cast_add, hinc, ← Int.add_assoc]
    · rw [Nat.cast_add, hinc, ← Int.add_assoc]
  · rw [htime, if_neg (by simp [hstop])]
  · rw [hrtc, if_pos hoff]
  · rw [hrtc, if_neg hon]
    exact rtcOn_moves hp

end Sys2Proof.Proofs
end

section
/-! Adjustments of device time: the ones that are taken or refused (R44, R47, R60), and the jumps by Steps and Sets (R48, R59). -/
namespace Sys2Proof.Proofs
open Sys2Proof Sys2Proof.Machine Sys2Proof.Laws
set_option Elab.async false -- one thread, within the memory of the check

/-! ### What has left the sled -/

/-- Something stands among what left the sled from one state to another. -/
def Emits (o : Out) (s t : State) : Prop := ∃ l, t.out = s.out ++ l ∧ o ∈ l

theorem emits_before {o : Out} {s t u : State} (h : s.out <+: t.out) (k : Emits o t u) : Emits o s u := by
  obtain ⟨l, hl⟩ := h
  obtain ⟨r, hr, ho⟩ := k
  exact ⟨l ++ r, by rw [hr, ← hl, List.append_assoc], List.mem_append_right l ho⟩

theorem emits_after {o : Out} {s t u : State} (h : Emits o s t) (k : t.out <+: u.out) : Emits o s u := by
  obtain ⟨l, hl, ho⟩ := h
  obtain ⟨r, hr⟩ := k
  exact ⟨l ++ r, by rw [← hr, hl, List.append_assoc], List.mem_append_left r ho⟩

theorem emits_raise (s : State) (e : Ev) (b : Bytes) : Emits (.event e.code s.time64 b) s (s.raise e b) := by
  obtain ⟨l, hl⟩ := (raise_raises s e b).first
  exact ⟨_, hl, List.mem_cons_self⟩

theorem reports_of_emits {e : Ev} {b : Bytes} {n : Nat} {s t : State} (h : Emits (.event e.code n b) s t) : Reports e b s t := by
  obtain ⟨l, hl, ho⟩ := h
  exact ⟨l, n, hl, ho⟩

/-! ### Reasons of refusal (Table 2-8) -/

/-- The active set-up fields rest on the set-up alone. -/
theorem field_congr {s t : State} (h : t.setup = s.setup) (off lo n : Nat) : t.field off lo n = s.field off lo n := by
  simp only [State.field, State.activeWord, h]

/-- The reason rests on the set-up and on device time, its rate and its source. -/
theorem adjustReason_congr {s t : State} (hs : t.setup = s.setup) (hnow : t.time.now = s.time.now) (hrate : t.time.rate = s.time.rate)
    (hcur : t.time.current = s.time.current) (hsrc : t.time.curSrc = s.time.curSrc) (code action : Nat) (x : Int) :
    t.adjustReason code action x = s.adjustReason code action x := by
  have hen : t.srcEnabled code = s.srcEnabled code := by
    unfold State.srcEnabled State.timeSrcEnPtp State.timeSrcEnPtm State.timeSrcEnTether
    rw [field_congr hs, field_congr hs, field_congr hs]
  have hout : t.outranked code = s.outranked code := by simp only [State.outranked, hcur, hsrc]
  have hadj : t.adjusted action x = s.adjusted action x := by simp only [State.adjusted, State.increment, hnow, hrate]
  simp only [State.adjustReason, hen, hout, hadj]

/-- An adjustment where no window is overdue. -/
theorem adjust_timely {s : State} (h : Timely s) (code action : Nat) (x : Int) :
    s.adjust code action x = if s.adjustReason code action x ≠ 0 then
        (s.onTime (fun t => { t with ignored := satAdd 32 t.ignored 1 })).raiseOnce .timeAdjIgnored 0
          (le 1 code ++ le 1 (s.adjustReason code action x) ++ le 1 action)
      else (s.onTime (fun t => { t with due := t.due ++ [(action, x)], accepted := true,
                                        valid := t.valid || decide (action ≠ 1) })).adoptSource code := by
  unfold State.adjust
  extract_lets s0 why
  have h0 : s0 = s := by
    simp only [s0]
    split
    · next c hc => exact if_neg (Nat.not_le.2 (h c hc))
    · rfl
  simp only [why, h0]

@[simp] theorem partnerWake_setup (s : State) (f : Nat) : (s.partnerWake f).setup = s.setup :=
  keeps_partnerWake s f .setup (by decide)

/-- The state in which a write of TIME_CTRL is judged. -/
def ctrlArrived (action : Nat) (src : BitVec 2) (s : State) : State := (s.partnerWake 64).ctrlWritten action src

theorem time_ctrlArrived (action : Nat) (src : BitVec 2) (s : State) :
    (ctrlArrived action src s).time = { s.time with ctrlAct := action, ctrlSrc := src.toNat } := by
  simp [ctrlArrived, State.ctrlWritten]

theorem setup_ctrlArrived (action : Nat) (src : BitVec 2) (s : State) : (ctrlArrived action src s).setup = s.setup := by
  simp [ctrlArrived, State.ctrlWritten]

theorem timely_ctrlArrived {s : State} (h : Timely s) (action : Nat) (src : BitVec 2) : Timely (ctrlArrived action src s) := by
  unfold Timely
  rw [time_ctrlArrived]
  exact h

theorem adjustReason_ctrlArrived (s : State) (a : Nat) (src : BitVec 2) (code action : Nat) (x : Int) :
    (ctrlArrived a src s).adjustReason code action x = s.adjustReason code action x := by
  refine adjustReason_congr (setup_ctrlArrived a src s) ?_ ?_ ?_ ?_ code action x <;> rw [time_ctrlArrived]

/-- A refused adjustment is counted and reported (R60). -/
theorem adjust_ignored {s : State} {src : BitVec 2} {action : Nat} {x : Int} (h : Timely s)
    (hr : s.adjustReason (ctrlSource src) action x ≠ 0) :
    Ignored src action (s.adjustReason (ctrlSource src) action x) s ((ctrlArrived action src s).adjust (ctrlSource src) action x) := by
  rw [adjust_timely (timely_ctrlArrived h action src), adjustReason_ctrlArrived, if_pos hr]
  exact raiseOnce_raises _ _ _ _

theorem exec_timeCtrlRate {s : State} (src : BitVec 2) (hp : s.noPartner = false) : exec (.timeCtrlRate src) s =
    .next ((ctrlArrived 1 src s).adjust (ctrlSource src) 1 s.rateOperand) := by
  show execTimeCtrlRate src s = _
  rw [execTimeCtrlRate, hp]
  rfl

theorem exec_timeCtrlStep {s : State} (src : BitVec 2) (hp : s.noPartner = false) : exec (.timeCtrlStep src) s =
    .next ((ctrlArrived 2 src s).adjust (ctrlSource src) 2 s.stepOperand) := by
  show execTimeCtrlStep src s = _
  rw [execTimeCtrlStep, hp]
  rfl

theorem exec_timeCtrlSet {s : State} (src : BitVec 2) (hp : s.noPartner = false) : exec (.timeCtrlSet src) s =
    .next ((ctrlArrived 3 src s).adjust (ctrlSource src) 3 s.setOperand) := by
  show execTimeCtrlSet src s = _
  rw [execTimeCtrlSet, hp]
  rfl

/-! ### The rows of Table 2-8 -/

theorem srcEnabled_manual (s : State) : s.srcEnabled 4 = true := rfl

theorem outranked_manual (s : State) : s.outranked 4 = false := by simp [State.outranked]

/-- Manual meets the reasons of the operand alone. -/
theorem adjustReason_manual (s : State) (action : Nat) (x : Int) : s.adjustReason 4 action x =
    if action = 1 ∧ (x < -2684354 ∨ 2684354 < x) then 4 else if action = 3 ∧ 999999999 < bits x.toNat 16 32 then 5
    else if s.adjusted action x < 0 then 6 else 0 := by
  simp [State.adjustReason, srcEnabled_manual, outranked_manual]

/-- A source that is not enabled is refused first. -/
theorem adjustReason_disabled {s : State} {code : Nat} (hc : code ≠ 0) (h : s.srcEnabled code = false) (action : Nat) (x : Int) :
    s.adjustReason code action x = 2 := by
  simp [State.adjustReason, hc, h]

/-- Settles O21: a refused adjustment is counted and raised once a second; the reasons by their rows. -/
theorem refusedAdjustmentsAreCountedAndReported : Obligations.RefusedAdjustmentsAreCountedAndReported := by
  unfold Obligations.RefusedAdjustmentsAreCountedAndReported
  refine ⟨fun s src hp ht hr => ⟨_, exec_timeCtrlRate src hp, adjust_ignored ht hr⟩,
    fun s src hp ht hr => ⟨_, exec_timeCtrlStep src hp, adjust_ignored ht hr⟩,
    fun s src hp ht hr => ⟨_, exec_timeCtrlSet src hp, adjust_ignored ht hr⟩,
    fun s action x => ⟨rfl, fun h => ?_, fun h => ?_, fun h => ?_, fun code hlo hhi hen hcur hsrc => ?_, fun h => ?_, fun h0 h => ?_,
      fun h => ?_⟩⟩
  · exact adjustReason_disabled (by decide) (by simp [State.srcEnabled, h]) action x
  · exact adjustReason_disabled (by decide) (by simp [State.srcEnabled, h]) action x
  · exact adjustReason_disabled (by decide) (by simp [State.srcEnabled, h]) action x
  · have hout : s.outranked code = true := by simp [State.outranked, hcur, hhi, hsrc]
    simp [State.adjustReason, hen, hout, Nat.pos_iff_ne_zero.1 hlo]
  · rw [adjustReason_manual, if_pos ⟨rfl, h⟩]
  · rw [adjustReason_manual, if_neg (by simp), if_pos ⟨rfl, h⟩]
  · rw [adjustReason_manual, if_neg (by simp), if_neg (by simp), if_pos]
    simpa [State.adjusted, adjustedFrom] using h

end Sys2Proof.Proofs
end

section
/-! Steps and Sets (R47, R48, R54, R59): what an accepted one leaves at once, and what it does in the J-cycle in which it takes effect. -/
namespace Sys2Proof.Proofs
open Sys2Proof Sys2Proof.Machine Sys2Proof.Laws
set_option Elab.async false -- one thread, within the memory of the check

/-! ### Accepted adjustments -/

@[simp] theorem time_setSource (s : State) (n : TimeSource) : (s.setSource n).time = { s.time with source := n } := by
  unfold State.setSource
  split
  · next h => rw [← h]
  · simp

/-- A Manual adjustment frees device time of a source that is none (R46). -/
theorem time_adoptSource_manual (s : State) : (s.adoptSource 4).time = { s.time with
    source := if s.time.source = .freeRun ∨ s.time.source = .restored then .holdover else s.time.source } := by
  unfold State.adoptSource
  rw [if_pos rfl]
  split
  · next h => simp [h]
  · next h => simp [h]
  · next h1 h2 => rw [if_neg (by rintro (h | h) <;> contradiction)]

/-- Any other source becomes current for TIME_HOLD (R45). -/
theorem time_adoptSource_other (s : State) {code : Nat} (h : code ≠ 4) : (s.adoptSource code).time = { s.time with
    current := some (s.time.elapsed + s.timeHoldMs * uMs), curSrc := code, source := sourceOf code } := by
  simp [State.adoptSource, h]

/-- The four values of TIME_CTRL.SOURCE. -/
theorem ctrlSrc_cases (src : BitVec 2) : src = 0 ∨ src = 1 ∨ src = 2 ∨ src = 3 := by
  revert src
  decide

/-- What TIME_CTRL admits is refused for its operand alone. -/
theorem adjustReason_admitted {s : State} {src : BitVec 2} (h : Admits src s) (action : Nat) (x : Int) :
    s.adjustReason (ctrlSource src) action x = s.adjustReason 4 action x := by
  obtain ⟨h0, hptp, hptm, hcur⟩ := h
  have hen : s.srcEnabled (ctrlSource src) = true := by
    rcases ctrlSrc_cases src with rfl | rfl | rfl | rfl
    · exact absurd rfl h0
    · exact decide_eq_true (hptp rfl)
    · exact decide_eq_true (hptm rfl)
    · rfl
  have hout : s.outranked (ctrlSource src) = false := by
    by_cases h3 : src = 3
    · subst h3
      exact outranked_manual s
    · have hc : ctrlSource src = src.toNat := if_neg h3
      rcases hcur h3 with hn | hle
      · simp [State.outranked, hn]
      · simp [State.outranked, hc, Nat.not_lt.2 hle]
  have hcode : ctrlSource src ≠ 0 := by
    rcases ctrlSrc_cases src with rfl | rfl | rfl | rfl
    · exact absurd rfl h0
    all_goals decide
  simp [State.adjustReason, hcode, hen, hout, srcEnabled_manual, outranked_manual]

/-- The state in which an accepted adjustment is recorded, before its source is adopted. -/
def recorded (action : Nat) (x : Int) (s : State) : State :=
  s.onTime (fun t => { t with due := t.due ++ [(action, x)], accepted := true, valid := t.valid || decide (action ≠ 1) })

/-- An admitted adjustment with a sound operand is recorded, and its source adopted. -/
theorem adjust_admitted {s : State} {src : BitVec 2} {action : Nat} {x : Int} (ht : Timely s) (h : Admits src s)
    (hx : s.adjustReason 4 action x = 0) : (ctrlArrived action src s).adjust (ctrlSource src) action x =
      (recorded action x (ctrlArrived action src s)).adoptSource (ctrlSource src) := by
  rw [adjust_timely (timely_ctrlArrived ht action src), adjustReason_ctrlArrived, adjustReason_admitted h, hx]
  rfl

theorem timeHoldMs_recorded (action : Nat) (x : Int) (src : BitVec 2) (s : State) :
    (recorded action x (ctrlArrived action src s)).timeHoldMs = s.timeHoldMs :=
  field_congr (setup_ctrlArrived action src s) _ _ _

theorem time_recorded (action : Nat) (x : Int) (src : BitVec 2) (s : State) : (recorded action x (ctrlArrived action src s)).time =
    { s.time with ctrlAct := action, ctrlSrc := src.toNat, due := s.time.due ++ [(action, x)], accepted := true,
                  valid := s.time.valid || decide (action ≠ 1) } := by
  simp [recorded, time_ctrlArrived]

/-- What an admitted adjustment leaves at once: it waits for the next J-cycle, and its source stands (R45 to R47). -/
theorem time_adjust_admitted {s : State} {src : BitVec 2} {action : Nat} {x : Int} (ht : Timely s) (h : Admits src s)
    (hx : s.adjustReason 4 action x = 0) :
    let t := (ctrlArrived action src s).adjust (ctrlSource src) action x
    t.time.due = s.time.due ++ [(action, x)] ∧ t.time.now = s.time.now ∧ t.time.rate = s.time.rate ∧
      t.time.valid = (s.time.valid || decide (action ≠ 1)) ∧ Sourced src s t := by
  intro t
  have htime : t.time = ((recorded action x (ctrlArrived action src s)).adoptSource (ctrlSource src)).time := by
    rw [← adjust_admitted ht h hx]
  by_cases h3 : src = 3
  · rw [h3, show ctrlSource 3 = 4 from rfl, time_adoptSource_manual, time_recorded] at htime
    rw [Sourced, htime]
    exact ⟨rfl, rfl, rfl, rfl, fun _ => ⟨rfl, rfl, rfl⟩, fun k => absurd h3 k⟩
  · have hc : ctrlSource src = src.toNat := if_neg h3
    have h4 : src.toNat ≠ 4 := by omega
    rw [hc, time_adoptSource_other _ h4, timeHoldMs_recorded, time_recorded] at htime
    rw [Sourced, htime]
    refine ⟨rfl, rfl, rfl, rfl, fun k => absurd k h3, fun _ => ⟨rfl, rfl, ?_⟩⟩
    rcases ctrlSrc_cases src with rfl | rfl | rfl | rfl
    · exact absurd rfl h.1
    · rfl
    · rfl
    · exact absurd rfl h3

/-! ### Gates over a jump (R59) -/

/-- The gate bits rest on the operating and the pending list. -/
theorem gatesAt_congr {x y : SchInst} (hp : x.pend = y.pend) (ho : x.oper = y.oper) (t : Nat) : x.gatesAt t = y.gatesAt t := by
  simp only [SchInst.gatesAt, SchInst.listAt, hp, ho]

theorem gated_gatesAt_congr {s t : State} {m : Nat} (hs : t.setup = s.setup) (hp : (t.sch m).pend = (s.sch m).pend)
    (ho : (t.sch m).oper = (s.sch m).oper) (u : Nat) : (t.gated m).gatesAt u = (s.gated m).gatesAt u := by
  have hen : t.schCtrlGateEn m = s.schCtrlGateEn m := field_congr hs _ _ _
  unfold State.gated
  rw [hen]
  split
  · exact gatesAt_congr hp ho u
  · exact gatesAt_congr rfl rfl u

/-- A refreshed instance has the gates of its lists at the present instant. -/
theorem gates_gateRefresh (s : State) (m : Nat) : ((s.gateRefresh m).sch m).gates = (s.gated m).gatesAt s.time.now := by
  rw [State.gateRefresh, sch_setSch_same]

theorem sch_gateRefresh_other (s : State) {m k : Nat} (h : k ≠ m) : (s.gateRefresh m).sch k = s.sch k := sch_setSch_other s _ h

/-- The refresh of an instance leaves every list. -/
theorem lists_gateRefresh (s : State) (m k : Nat) :
    ((s.gateRefresh m).sch k).pend = (s.sch k).pend ∧ ((s.gateRefresh m).sch k).oper = (s.sch k).oper := by
  by_cases h : k = m
  · rw [h, State.gateRefresh, sch_setSch_same]
    exact ⟨rfl, rfl⟩
  · rw [sch_gateRefresh_other s h]
    exact ⟨rfl, rfl⟩

/-- After a refresh of several instances each has the gates of its lists at the present instant. -/
theorem gates_foldl_gateRefresh (s : State) (l : List Nat) {m : Nat} (hm : m ∈ l) :
    ((l.foldl State.gateRefresh s).sch m).gates = (s.gated m).gatesAt s.time.now := by
  induction l using List.reverseRecOn with
  | nil => cases hm
  | append_singleton l a ih =>
    rw [List.foldl_append, List.foldl_cons, List.foldl_nil]
    by_cases h : m = a
    · subst h
      rw [gates_gateRefresh, foldl_keeps (g := State.time) (f := State.gateRefresh) (fun _ _ => rfl)]
      exact gated_gatesAt_congr (foldl_keeps (g := State.setup) (f := State.gateRefresh) (fun _ _ => rfl) l s)
        (foldl_keeps (g := fun u => (u.sch m).pend) (fun u k => (lists_gateRefresh u k m).1) l s)
        (foldl_keeps (g := fun u => (u.sch m).oper) (fun u k => (lists_gateRefresh u k m).2) l s) _
    · rw [sch_gateRefresh_other _ h]
      exact ih (by simpa [h] using hm)

theorem gates_gatesRefresh (s : State) {m : Nat} (hm : m < 16) : (s.gatesRefresh.sch m).gates = (s.gated m).gatesAt s.time.now :=
  gates_foldl_gateRefresh s _ (List.mem_range.2 hm)

/-- Link idle leaves every gate. -/
theorem gates_lpiTick (s : State) (m k : Nat) : ((s.lpiTick m).sch k).gates = (s.sch k).gates := by
  have hidle (f : SchInst → SchInst) (hf : ∀ x, (f x).gates = x.gates) : ((s.setSch m f).sch k).gates = (s.sch k).gates := by
    by_cases h : k = m
    · rw [h, sch_setSch_same, hf]
    · rw [sch_setSch_other s f h]
  unfold State.lpiTick
  split
  · split
    · simp [State.sch, State.setMac]
    · rfl
  · split
    · split
      · rfl
      · exact hidle _ fun _ => rfl
    · split
      · exact hidle _ fun _ => rfl
      · rfl

/-! ### A jump of device time (R48, R59) -/

/-- A table changed entry by entry reads as changed where the change leaves the default. -/
theorem get_map {α : Type} (t : List (Nat × α)) (g : α → α) {x : α} (h : g x = x) (k : Nat) :
    Tbl.get (fun _ => x) (t.map (fun e => (e.1, g e.2))) k = g (Tbl.get (fun _ => x) t k) := by
  unfold Tbl.get
  induction t with
  | nil => exact h.symm
  | cons e r ih =>
    simp only [List.map_cons, Tbl.find]
    split
    · rfl
    · exact ih

/-- The current frames move with device time, up to the record of the step. -/
def stepped (s : State) (dest : Nat) : State :=
  (s.onTime (fun t => { t with now := dest, steps := satAdd 32 t.steps 1 })).onSched (fun t =>
    t.map (fun e => (e.1, { e.2 with cur := e.2.cur.map (CurFrame.shift s.time.elapsed ((dest : Int) - s.time.now)) })))

/-- The signed step in 1/65,536 ns. -/
def stepSize (s : State) (dest : Nat) : Int := ((dest / 2 ^ 16 : Nat) : Int) - ((s.time.now / 2 ^ 16 : Nat) : Int)

theorem jump_eq (s : State) (dest : Nat) :
    s.jump dest = ((stepped s dest).raise .timeStepped (le 8 (unsigned 64 (stepSize s dest)))).gatesRefresh := rfl

theorem sch_stepped (s : State) (dest m : Nat) : (stepped s dest).sch m =
    { s.sch m with cur := (s.sch m).cur.map (CurFrame.shift s.time.elapsed ((dest : Int) - s.time.now)) } :=
  get_map s.sched (fun x => { x with cur := x.cur.map (CurFrame.shift s.time.elapsed ((dest : Int) - s.time.now)) }) rfl m

/-- What reaches neither the supply nor the power nor the Logbook leaves CORE. -/
theorem does_coreRuns {m : Nat} {s t : State} (h : Does m s t) (hs : m.testBit 21 = false := by decide)
    (hp : m.testBit 22 = false := by decide) (hl : m.testBit 25 = false := by decide) : t.coreRuns = s.coreRuns :=
  coreRuns_of (h.keeps .power hp) (congrArg SupplySt.inReset (h.keeps .supply hs)) (congrArg LogSt.bootRom (h.keeps .log hl))

theorem did_gatesRefresh (s : State) : Does 0x1000 s s.gatesRefresh := does_gatesRefresh (by decide) (does_refl _ s)

@[simp] theorem time_gatesRefresh (s : State) : s.gatesRefresh.time = s.time := (did_gatesRefresh s).keeps .time (by decide)

theorem coreRuns_gatesRefresh (s : State) : s.gatesRefresh.coreRuns = s.coreRuns :=
  does_coreRuns (did_gatesRefresh s)

theorem time_jump (s : State) (dest : Nat) :
    (s.jump dest).time = { s.time with now := dest, steps := satAdd 32 s.time.steps 1 } := by
  rw [jump_eq, time_gatesRefresh, (raise_parts _ _ _).2.1]
  rfl

theorem coreRuns_jump (s : State) (dest : Nat) : (s.jump dest).coreRuns = s.coreRuns := by
  rw [jump_eq, coreRuns_gatesRefresh, coreRuns_raise]
  rfl

theorem gates_jump (s : State) (dest : Nat) {m : Nat} (hm : m < 16) : ((s.jump dest).sch m).gates = (s.gated m).gatesAt dest := by
  have hsch : (((stepped s dest).raise .timeStepped (le 8 (unsigned 64 (stepSize s dest)))).sch m) = (stepped s dest).sch m := by
    simp [State.sch]
  rw [jump_eq, gates_gatesRefresh _ hm, (raise_parts _ _ _).2.1]
  refine gated_gatesAt_congr ?_ ?_ ?_ dest
  · rw [(raise_parts _ _ _).1]
    rfl
  · rw [hsch, sch_stepped]
  · rw [hsch, sch_stepped]

/-- The stamp while CORE runs is device time (R55). -/
theorem time64_running {s : State} (h : s.coreRuns = true) : s.time64 = time64Of s.time.now := by
  rw [State.time64, h]
  rfl

theorem emits_jump (s : State) (dest : Nat) (h : s.coreRuns = true) :
    Emits (.event Ev.timeStepped.code (time64Of dest) (le 8 (unsigned 64 (stepSize s dest)))) s (s.jump dest) := by
  have hrun : (stepped s dest).coreRuns = true := h
  have hstamp : (stepped s dest).time64 = time64Of dest := time64_running hrun
  have hraise := emits_raise (stepped s dest) .timeStepped (le 8 (unsigned 64 (stepSize s dest)))
  rw [hstamp] at hraise
  exact emits_after (emits_before (List.prefix_refl s.out) hraise) (did_gatesRefresh _).out

/-! ### The J-cycle of a Step or a Set -/

/-- The state in which the adjustments that fall due find device time. -/
def dueState (s : State) : State := (State.clockOn s.enrolEnds).onTime (fun t => { t with due := [] })

theorem did_clockOn (s : State) : Does 0x40004 s (State.clockOn s) := does_onTime (by decide) (does_fillSlot (by decide) (does_refl _ s))

theorem did_dueState (s : State) : Does 0xe260086 s (dueState s) :=
  does_onTime (by decide) (does_trans (does_mono (did_enrolEnds s) (by decide)) (does_mono (did_clockOn _) (by decide)))

theorem time_dueState (s : State) : (dueState s).time =
    { s.time with now := s.time.now + s.increment, elapsed := s.time.elapsed + s.increment, jcycle := s.time.jcycle + 1, due := [] } := by
  simp [dueState, time_clockOn, State.increment]

theorem coreRuns_dueState (s : State) : (dueState s).coreRuns = s.coreRuns := by
  rw [dueState, coreRuns_onTime, does_coreRuns (did_clockOn _), coreRuns_enrolEnds]

theorem coreRuns_lpiTick (s : State) (m : Nat) : (s.lpiTick m).coreRuns = s.coreRuns := by
  unfold State.lpiTick
  split
  · split <;> simp
  · split
    · split <;> simp
    · split <;> simp

theorem coreRuns_idleTick (s : State) : s.idleTick.coreRuns = s.coreRuns := by
  unfold State.idleTick
  split
  · split <;> rfl
  · rfl

theorem coreRuns_latchTick (s : State) : s.latchTick.coreRuns = s.coreRuns := by
  unfold State.latchTick
  split <;> rfl

theorem coreRuns_healthTick (s : State) : s.healthTick.coreRuns = s.coreRuns := by
  have hcounts (l : List Nat) (n : Nat) : (s.onLog (fun x => { x with sumCounts := l, sumSec := n })).coreRuns = s.coreRuns := rfl
  have hsup (p : Nat × Nat) (n : Nat) : (s.onLog (fun x => { x with sumSup := p, sumSec := n })).coreRuns = s.coreRuns := rfl
  unfold State.healthTick
  split
  · rfl
  · split
    · rw [coreRuns_logRow, hcounts]
    · split
      · rw [coreRuns_logRow, hsup]
      · rfl

theorem coreRuns_afterClocks (s : State) : (afterClocks s).coreRuns = s.coreRuns := by
  rw [afterClocks, coreRuns_healthTick, coreRuns_latchTick, coreRuns_idleTick]
  exact foldl_keeps coreRuns_lpiTick _ s

theorem gates_afterClocks (s : State) (m : Nat) : ((afterClocks s).sch m).gates = (s.sch m).gates := by
  have hlate : (afterClocks s).sched = s.lpiTicks.sched :=
    (does_healthTick (M := 0xe620082) (by decide) (does_latchTick (by decide) (does_idleTick (by decide) (does_refl _ s.lpiTicks)))).keeps
      .sched (by decide)
  calc ((afterClocks s).sch m).gates = (s.lpiTicks.sch m).gates := by rw [State.sch, hlate, State.sch]
    _ = (s.sch m).gates := foldl_keeps (g := fun u => (u.sch m).gates) (fun u k => gates_lpiTick u k m) _ s

/-- With one Step or Set falling due, the clocks end in its jump, but for the delay line and the RTC. -/
theorem advanceTime_jumps {s : State} {a : Nat × Int} (hrun : s.coreRuns = true) (hdue : s.time.due = [a]) (ha : a.1 ≠ 1) :
    Does 0x8040008 ((dueState s).jump (adjustedFrom (dueState s).time.now a.1 a.2).toNat) s.enrolEnds.advanceTime := by
  have htake : (State.clockOn s.enrolEnds).takeDue = (dueState s).jump (adjustedFrom (dueState s).time.now a.1 a.2).toNat := by
    rw [takeDue_one (a := a) (by rw [time_clockOn, time_enrolEnds]; exact hdue), State.takeEffect, if_neg ha]
    rfl
  rw [advanceTime_eq, coreRuns_enrolEnds, hrun, ← htake]
  exact does_ite (does_lineMoves (by decide) (does_refl _ _)) (does_onRtc (by decide) (does_lineMoves (by decide) (does_refl _ _)))

/-- The J-cycle in which one accepted Step or Set takes effect: the clocks, then the jump; what follows leaves device time and the gates. -/
theorem tick_jumps {s : State} {a : Nat × Int} (hrun : s.coreRuns = true) (hdue : s.time.due = [a]) (ha : a.1 ≠ 1) {dest : Nat}
    (hdest : adjustedFrom (s.time.now + s.increment : Nat) a.1 a.2 = dest) :
    s.tick.time.now = dest ∧
      Jumped (((dest / 2 ^ 16 : Nat) : Int) - (((s.time.now + s.increment) / 2 ^ 16 : Nat) : Int)) s s.tick := by
  have hadv := advanceTime_jumps hrun hdue ha
  have hnow : (dueState s).time.now = s.time.now + s.increment := by rw [time_dueState]
  have hto : (adjustedFrom (dueState s).time.now a.1 a.2).toNat = dest := by rw [hnow, hdest, Int.toNat_natCast]
  rw [hto] at hadv
  have htime : s.tick.time = { (dueState s).time with now := dest, steps := satAdd 32 (dueState s).time.steps 1 } := by
    rw [tick_eq, time_afterClocks, hadv.keeps .time (by decide), time_jump]
  have hdrun : (dueState s).coreRuns = true := (coreRuns_dueState s).trans hrun
  have htrun : s.tick.coreRuns = true := by
    rw [tick_eq, coreRuns_afterClocks, does_coreRuns hadv, coreRuns_jump, hdrun]
  have hout := emits_before (did_dueState s).out (emits_after (emits_jump (dueState s) dest hdrun)
    (hadv.out.trans (did_afterClocks s.enrolEnds.advanceTime).out))
  refine ⟨by rw [htime], by rw [htime, time_dueState], by rw [htime, time_dueState], by rw [htime, time_dueState],
    by rw [htime, time_dueState], fun m hm => ?_, ?_⟩
  · have hsch : s.enrolEnds.advanceTime.sch m = ((dueState s).jump dest).sch m := by
      rw [State.sch, hadv.keeps .sched (by decide), State.sch]
    have hlists : (dueState s).sch m = s.sch m := by
      rw [State.sch, (did_dueState s).keeps .sched (by decide), State.sch]
    rw [htime, tick_eq, gates_afterClocks, hsch, gates_jump _ _ hm]
    exact gated_gatesAt_congr ((did_dueState s).keeps .setup (by decide)) (by rw [hlists]) (by rw [hlists]) dest
  · rw [time64_running htrun, htime]
    rw [stepSize, hnow] at hout
    exact hout

/-- Settles O20: an admitted Step or Set is recorded at once, and jumps in the J-cycle that follows. -/
theorem stepAndSetMoveDeviceTimeAtOnce : Obligations.StepAndSetMoveDeviceTimeAtOnce := by
  unfold Obligations.StepAndSetMoveDeviceTimeAtOnce
  refine ⟨fun s src hp ht ha => ⟨fun hx => ?_, fun hx => ?_⟩, fun s x hq hrun hdue hx => ?_, fun s x hq hrun hdue => ?_⟩
  · have hr : s.adjustReason 4 2 s.stepOperand = 0 := by
      rw [adjustReason_manual, if_neg (by simp), if_neg (by simp), if_neg]
      simpa [State.adjusted, adjustedFrom] using hx
    obtain ⟨hdue, hnow, hrate, hvalid, hsrc⟩ := time_adjust_admitted ht ha hr
    exact ⟨_, exec_timeCtrlStep src hp, hdue, hnow, hrate, by simpa using hvalid, hsrc⟩
  · have hr : s.adjustReason 4 3 s.setOperand = 0 := by
      rw [adjustReason_manual, if_neg (by simp), if_neg (by simpa using hx), if_neg]
      simp [State.adjusted, adjustedFrom]
    obtain ⟨hdue, hnow, hrate, hvalid, hsrc⟩ := time_adjust_admitted ht ha hr
    exact ⟨_, exec_timeCtrlSet src hp, hdue, hnow, hrate, by simpa using hvalid, hsrc⟩
  · obtain ⟨dest, hdest⟩ := Int.eq_ofNat_of_zero_le hx
    obtain ⟨hnow, hjump⟩ := tick_jumps hrun hdue (by simp) (dest := dest) (by simpa [adjustedFrom] using hdest)
    have hsize : ((dest / 2 ^ 16 : Nat) : Int) - (((s.time.now + s.increment) / 2 ^ 16 : Nat) : Int) = x := by omega
    rw [hsize] at hjump
    exact ⟨s.tick, by simp [step, hq], by rw [hnow, hdest], hjump⟩
  · obtain ⟨hnow, hjump⟩ := tick_jumps hrun hdue (by simp) (dest := ofTime96 x) (by simp [adjustedFrom])
    exact ⟨s.tick, by simp [step, hq], hnow, hjump⟩

end Sys2Proof.Proofs
end

section
/-! The RTC (R11, R52, R54, R62) and wakes (R301 to R304, R385, R392): the start of an exit, and what arrives in each power mode. -/
namespace Sys2Proof.Proofs
open Sys2Proof Sys2Proof.Machine Sys2Proof.Laws
set_option Elab.async false -- one thread, within the memory of the check

/-! ### The start of an exit (R301, R302) -/

/-- The watch lanes stop: lanes 0 and 1 run no more. -/
theorem watchLane_watchStop (s : State) (p : Nat) : s.watchStop.watchLane p =
    if p < 2 then { s.watchLane p with running := false, ready := false } else s.watchLane p := by
  have hstop : s.watchStop = (s.setWatchLane 0 (fun w => { w with running := false, ready := false })).setWatchLane 1
      (fun w => { w with running := false, ready := false }) := rfl
  rw [hstop]
  rcases Nat.lt_trichotomy p 1 with hp | rfl | hp
  · obtain rfl : p = 0 := by omega
    rw [watchLane_setWatchLane_other _ _ (by decide), watchLane_setWatchLane_same]
    rfl
  · rw [watchLane_setWatchLane_same, watchLane_setWatchLane_other _ _ (by decide)]
    rfl
  · rw [watchLane_setWatchLane_other _ _ (by omega), watchLane_setWatchLane_other _ _ (by omega), if_neg (by omega)]

theorem did_watchStop (s : State) : Does 0x10000 s s.watchStop := does_watchStop (by decide) (does_refl _ s)

/-- A wake that begins an exit at once. -/
theorem beginExit_wakes (s : State) (src det : Nat) :
    Wakes src det s (s.beginExit { source := src, detail := det, stamp := s.time64, others := 0 } false) := by
  have hpower : s.watchStop.power = s.power := (did_watchStop s).keeps .power (by decide)
  have hsupply : s.watchStop.supply = s.supply := (did_watchStop s).keeps .supply (by decide)
  refine ⟨keeps_of_partMask (does_beginExit (by decide) (does_refl _ s)), ?_, ?_, watchLane_watchStop s⟩
  · simp [State.beginExit, hpower]
  · simp [State.beginExit, hsupply]

/-- In Sleep and Deep sleep a wake that is taken and is a source of the mode begins the exit. -/
theorem registerWake_wakes {s : State} {src : Nat} (det : Nat) (ht : s.wakeTaken src = true)
    (hm : s.power.mode = .sleep ∨ s.power.mode = .deepSleep) (hs : src ∈ wakeSources s.power.mode) :
    Wakes src det s (s.registerWake src det) := by
  have hbegin : s.registerWake src det = s.beginExit { source := src, detail := det, stamp := s.time64, others := 0 } false := by
    unfold State.registerWake
    rcases hm with h | h <;> simp [ht, h, h ▸ hs]
  rw [hbegin]
  exact beginExit_wakes s src det

/-- Which sources are taken rests on the set-up. -/
theorem wakeTaken_congr {s t : State} (h : t.setup = s.setup) (src : Nat) : t.wakeTaken src = s.wakeTaken src := by
  simp only [State.wakeTaken, State.wakeEnEn, field_congr h]

/-- A wake that WAKE_EN does not take changes nothing. -/
theorem registerWake_not_taken {s : State} {src : Nat} (det : Nat) (h : s.wakeTaken src = false) : s.registerWake src det = s :=
  if_pos h

/-! ### The RTC -/

theorem exec_rtcAlarm (s : State) : exec .rtcAlarm s =
    .next (if s.rtc.armed ∧ s.rtc.alarmEn ∧ s.power.mode ≠ .off then s.alarmFires else s) := rfl

/-- Settles O22: the writes by their equations, the alarm by its record and the wake of source 5. -/
theorem rtcCountsAlarmsAndPairs : Obligations.RtcCountsAlarmsAndPairs := by
  unfold Obligations.RtcCountsAlarmsAndPairs
  refine ⟨fun s hi hp => ?_, fun s hi hp => ?_, fun s hp => ?_, fun s ha he hm => ?_, fun s h => ?_, fun s h => ?_⟩
  · exact congrArg Host.Outcome.next (if_neg (by simp [hp]))
  · exact congrArg Host.Outcome.next (if_neg (by simp [hp]))
  · exact congrArg Host.Outcome.next (if_neg (by simp [hp]))
  · refine ⟨_, (exec_rtcAlarm s).trans (congrArg _ (if_pos ⟨ha, he, hm⟩)), _, raise_raises _ _ _, fun hb => ?_, fun hb hmode => ?_⟩
    · exact registerWake_not_taken 0 ((wakeTaken_congr (raise_parts _ _ _).1 5).trans hb)
    · refine registerWake_wakes 0 ((wakeTaken_congr (raise_parts _ _ _).1 5).trans hb) ?_ ?_
      · simpa using hmode
      · rcases hmode with h | h <;> simp [wakeSources, h]
  · rw [exec_rtcAlarm, if_neg]
    rintro ⟨h1, h2, h3⟩
    rcases h with h | h | h
    · simp [h] at h1
    · simp [h] at h2
    · exact h3 h
  · exact congrArg Host.Outcome.next (if_pos h)

/-! ### Arrivals in each mode -/

theorem mode_of_wakes {src det : Nat} {s t : State} (h : Wakes src det s t) : t.power.mode = .exiting := by
  obtain ⟨-, hpower, -, -⟩ := h
  rw [hpower]

/-- In Sleep a partner's transaction is a wake of source 7. -/
theorem arrives_sleep {s : State} (f : Nat) (hm : s.power.mode = .sleep) : s.arrives f = (s.registerWake 7 (s.fnLink f)).endIdle := by
  simp [State.arrives, State.partnerWake, hm]

/-- Outside Sleep and an entry no transaction is a wake. -/
theorem partnerWake_awake {s : State} (f : Nat) (h1 : s.power.mode ≠ .sleep) (h2 : s.power.mode ≠ .entering) : s.partnerWake f = s := by
  unfold State.partnerWake
  split <;> simp_all

theorem arrives_wakes {s : State} (f : Nat) (hm : s.power.mode = .sleep) (hb : bit s.wakeEnEn 2 = true) :
    Wakes 7 (s.fnLink f) s (s.arrives f) := by
  have hw := registerWake_wakes (s.fnLink f) (src := 7) hb (.inl hm) (by simp [wakeSources, hm])
  rw [arrives_sleep f hm, endIdle_awake _ (by rw [mode_of_wakes hw]; decide)]
  exact hw

theorem arrives_not_taken {s : State} (f : Nat) (hm : s.power.mode = .sleep) (hb : bit s.wakeEnEn 2 = false) : s.arrives f = s := by
  rw [arrives_sleep f hm, registerWake_not_taken (src := 7) _ hb, endIdle_awake _ (by rw [hm]; decide)]

@[simp] theorem arrives_run {s : State} (f : Nat) (hm : s.power.mode = .run) : s.arrives f = s := by
  rw [State.arrives, partnerWake_awake f (by simp [hm]) (by simp [hm]), endIdle_awake _ (by simp [hm])]

/-- In Idle a transaction ends it. -/
theorem arrives_idle {s : State} (f : Nat) (hm : s.power.mode = .idle) : s.arrives f = s.endIdle := by
  rw [State.arrives, partnerWake_awake f (by simp [hm]) (by simp [hm])]

/-- What a member's veto of a round of group sleep reaches. -/
theorem did_vetoWake (s : State) (w : Wake) : Does 0x1000000 s (s.vetoWake w) := does_vetoWake (by decide) (does_refl _ s)

/-- In Run and Idle a wake only vetoes. -/
theorem registerWake_awake {s : State} {src : Nat} (det : Nat) (hm : s.power.mode = .run ∨ s.power.mode = .idle) :
    Does 0x1000000 s (s.registerWake src det) := by
  unfold State.registerWake
  rcases hm with h | h <;> simp only [h] <;>
    exact does_ite (does_refl _ s) (does_ite (did_vetoWake s _) (does_refl _ s))

/-! ### The commands of partners whose links are down (R385) -/

theorem mbxGo_noPartner {s : State} (h : s.noPartner = true) (f : Nat) (go : BitVec 8) (req : MbxReq) : s.mbxGo f go req = s := if_pos h

theorem doorbell_noPartner {s : State} (h : s.noPartner = true) (f : Nat) (k : DbKind) (whole : Bool) (v : Nat) :
    s.doorbell f k whole v = s := if_pos h

theorem flowGo_noPartner {s : State} (h : s.noPartner = true) (of index op : Nat) : s.flowGo of index op = s := if_pos h

theorem fnCmdGo_noPartner {s : State} (h : s.noPartner = true) (f cmd : Nat) : s.fnCmdGo f cmd = s := if_pos h

/-- The links are down in Fenced, Deep sleep and Off. -/
theorem noPartner_cases {s : State} (h : s.noPartner = true) : s.pair.fenced = true ∨ s.power.mode = .deepSleep ∨ s.power.mode = .off := by
  simpa [State.noPartner, or_assoc] using h

/-- The outcome of a command that a partner sends, where it does not arrive. -/
theorem next_of_noPartner {s t : State} (h : s.noPartner = true) :
    (.next (if s.noPartner then s else t) : Host.Outcome State Fault Refusal) = .next s := by rw [if_pos h]

theorem tallyRead_noPartner {s : State} (h : s.noPartner = true) (of : Fin 4) : exec (.tallyRead of) s = .next s := by
  show execTallyRead of s = _
  rcases noPartner_cases h with h | h | h <;> simp [execTallyRead, h]

theorem msixVectorUnmask_noPartner {s : State} (h : s.noPartner = true) (fn : Fin 68) (dword : Fin 256) (v : Word) :
    exec (.msixVectorUnmask fn dword v) s = .next s := by
  show execMsixVectorUnmask fn dword v s = _
  simp [execMsixVectorUnmask, h]

/-- While the host links are down no partner's command arrives, but for the power commands and SLED_RESET. -/
theorem exec_noPartner {s : State} {c : Instr} {f : Nat} (hc : partnerOf c = some f) (h : s.noPartner = true) (h1 : c ≠ .pwrCmdSleep)
    (h2 : ∀ x, c ≠ .pwrCmdDeepSleep x) (h3 : c ≠ .pwrCmdOff) (h4 : ∀ k x, c ≠ .sledReset k x) : exec c s = .next s := by
  cases c with
  | enrol => exact congrArg _ (mbxGo_noPartner h _ _ _)
  | leave => exact congrArg _ (mbxGo_noPartner h _ _ _)
  | query => exact congrArg _ (mbxGo_noPartner h _ _ _)
  | txrCreate => exact congrArg _ (mbxGo_noPartner h _ _ _)
  | rxrCreate => exact congrArg _ (mbxGo_noPartner h _ _ _)
  | cqCreate => exact congrArg _ (mbxGo_noPartner h _ _ _)
  | evrCreate => exact congrArg _ (mbxGo_noPartner h _ _ _)
  | ringDestroy => exact congrArg _ (mbxGo_noPartner h _ _ _)
  | doorbellTx => exact congrArg _ (doorbell_noPartner h _ _ _ _)
  | doorbellRx => exact congrArg _ (doorbell_noPartner h _ _ _ _)
  | doorbellCq => exact congrArg _ (doorbell_noPartner h _ _ _ _)
  | doorbellEvr => exact congrArg _ (doorbell_noPartner h _ _ _ _)
  | doorbellRecall => exact congrArg _ (doorbell_noPartner h _ _ _ _)
  | doorbellArm => exact congrArg _ (doorbell_noPartner h _ _ _ _)
  | flowWrite => exact congrArg _ (flowGo_noPartner h _ _ _)
  | flowDelete => exact congrArg _ (flowGo_noPartner h _ _ _)
  | flowRead => exact congrArg _ (flowGo_noPartner h _ _ _)
  | fnCmdEvict => exact congrArg _ (fnCmdGo_noPartner h _ _)
  | fnCmdRelease => exact congrArg _ (fnCmdGo_noPartner h _ _)
  | tallyRead of => exact tallyRead_noPartner h of
  | msixVectorUnmask fn dword v => exact msixVectorUnmask_noPartner h fn dword v
  | pwrCmdSleep => exact absurd rfl h1
  | pwrCmdDeepSleep x => exact absurd rfl (h2 x)
  | pwrCmdOff => exact absurd rfl h3
  | sledReset k x => exact absurd rfl (h4 k x)
  | registerWrite => exact next_of_noPartner h
  | commit => exact next_of_noPartner h
  | discard => exact next_of_noPartner h
  | setupLock => exact next_of_noPartner h
  | timeNowRead => exact next_of_noPartner h
  | snapshotTrigger => exact next_of_noPartner h
  | fwCmdStage => exact next_of_noPartner h
  | fwCmdActivate => exact next_of_noPartner h
  | evTest => exact next_of_noPartner h
  | timeCtrlRate => exact next_of_noPartner h
  | timeCtrlStep => exact next_of_noPartner h
  | timeCtrlSet => exact next_of_noPartner h
  | rtcAlarmWrite => exact next_of_noPartner h
  | rtcCountWrite => exact next_of_noPartner h
  | rtcCountRead => exact next_of_noPartner h
  | fcWdRearm => exact next_of_noPartner h
  | cageReset => exact next_of_noPartner h
  | cageReenable => exact next_of_noPartner h
  | pairCmdSwap => exact next_of_noPartner h
  | pairCmdRequalify => exact next_of_noPartner h
  | loCmdTest => exact next_of_noPartner h
  | auxReenable => exact next_of_noPartner h
  | tetherTxSend => exact next_of_noPartner h
  | tetherTxCancel => exact next_of_noPartner h
  | gsCmdPropose => exact next_of_noPartner h
  | gsCmdVeto => exact next_of_noPartner h
  | gsCmdWakeAll => exact next_of_noPartner h
  | tetherRxPop => exact next_of_noPartner h
  | logCmdSave => exact next_of_noPartner h
  | evAlertAck => exact next_of_noPartner h
  | _ => cases hc

/-! ### L1.2 exits and the wake pin -/

/-- A link that is up leaves L1.2 with a wake of source 7. -/
theorem exec_l1Exit_up {s : State} {n : Fin 8} (h : (s.link n).up = true) :
    exec (.l1Exit n) s = .next ((s.setLink n (fun x => { x with l12 := false })).registerWake 7 n) :=
  congrArg Host.Outcome.next (if_pos h)

theorem exec_wakePin (s : State) : exec .wakePin s = .next (match s.power.mode with
    | .run | .idle => s.pinRecorded
    | .off => s.pinInOff
    | _ => s.registerWake 2 0) := rfl

/-- In Run and Idle the pin is recorded, and a member vetoes. -/
theorem pinRecorded_gives {s : State} (hm : s.power.mode = .run ∨ s.power.mode = .idle) : Keeps [.power, .tether] s s.pinRecorded ∧
    s.pinRecorded.power = { s.power with wakeSrc := 2, wakeDet := 0, replayed := false, wakeFrom := s.power.mode, wakeOth := 0,
                                         wakeTime := s.time64 } := by
  have hveto : Does 0x1000000 _ s.pinRecorded := registerWake_awake 0 hm
  exact ⟨keeps_of_partMask (does_trans (does_onPower (by decide) (does_refl _ s)) (does_mono hveto (by decide))),
    hveto.keeps .power (by decide)⟩

/-- Settles O23: each mode by what it makes of a wake. -/
theorem wakesAreTakenByTheModeTheyMeet : Obligations.WakesAreTakenByTheModeTheyMeet := by
  unfold Obligations.WakesAreTakenByTheModeTheyMeet
  refine ⟨fun s hm => ?_, fun s m he htgt hm hl => ?_, fun s hm => ?_, fun s hm hmains hlatch => ?_, fun s n hup hm hb => ?_,
    fun s n hup hm hb => ?_, fun s f => ⟨arrives_wakes f, arrives_not_taken f, arrives_run f, fun hm => ?_⟩,
    fun s c f hc h h1 h2 h3 h4 => exec_noPartner hc h h1 h2 h3 h4⟩
  · refine ⟨s.registerWake 2 0, ?_, registerWake_wakes 0 rfl hm (by rcases hm with h | h <;> simp [wakeSources, h])⟩
    rw [exec_wakePin]
    rcases hm with h | h <;> rw [h]
  · have hsrc : 2 ∈ wakeSources m := by rcases hm with rfl | rfl | rfl <;> decide
    rw [exec_wakePin]
    simp [he, State.registerWake, State.wakeTaken, htgt, hsrc, State.onPower, hl]
  · refine ⟨s.pinRecorded, ?_, pinRecorded_gives hm⟩
    rw [exec_wakePin]
    rcases hm with h | h <;> rw [h]
  · rw [exec_wakePin, hm]
    exact congrArg _ (if_pos ⟨hmains, hlatch⟩)
  · exact ⟨_, exec_l1Exit_up hup, registerWake_wakes (src := 7) n hb (.inl hm) (by
      show 7 ∈ wakeSources s.power.mode
      simp [hm, wakeSources])⟩
  · exact (exec_l1Exit_up hup).trans (congrArg _ (registerWake_not_taken (src := 7) n hb))
  · rw [arrives_idle f hm]
    refine ⟨keeps_endIdle s, ?_, ?_⟩ <;> simp [State.endIdle, hm]

end Sys2Proof.Proofs
end

section
/-! COMMIT, DISCARD and COMMIT_APPLY (R12 to R21, 00_scope): what is sealed, what a valid set leaves, and what a refused one gives back. -/
namespace Sys2Proof.Proofs
open Sys2Proof Sys2Proof.Machine Sys2Proof.Laws
set_option Elab.async false -- one thread, within the memory of the check

/-! ### DISCARD (R15) -/

theorem exec_discard {s : State} (of : Fin 4) (hp : s.noPartner = false) :
    exec (.discard of) s = .next (s.arrives (64 + of)).discard :=
  congrArg Host.Outcome.next (if_neg (by simp [hp]))

/-- A sealed set that is discarded shows no words. -/
theorem sealedWords_discarded (x : Option SealedSet) : sealedWords (x.map (fun p => { p with discarded := true })) = [] := by
  cases x <;> rfl

/-- After a DISCARD staging shows the active words. -/
theorem stagingWord_discard (s : State) (k : Nat) : s.discard.stagingWord k = Tbl.get resetWord s.setup.active k := by
  simp only [State.stagingWord, State.discard, onSetup_parts, sealedWords_discarded]
  rfl

/-- The discarded mark has no part in a set's fault. -/
theorem setFault_discarded (s : State) (p : SealedSet) : s.setFault { p with discarded := true } = s.setFault p := rfl

/-- The discarded mark has no part in the application of a set. -/
theorem applySet_discarded (s : State) (p : SealedSet) : s.applySet { p with discarded := true } = s.applySet p := rfl

/-! ### COMMIT -/

theorem exec_commit {s : State} (of : Fin 4) (seq : BitVec 16) (hp : s.noPartner = false) :
    exec (.commit of seq) s = .next ((s.arrives (64 + of)).commit seq.toNat) :=
  congrArg Host.Outcome.next (if_neg (by simp [hp]))

@[simp] theorem arrives_pair (s : State) (f : Nat) : (s.arrives f).pair = s.pair := keeps_arrives s f .pair (by decide)

@[simp] theorem arrives_transition (s : State) (f : Nat) : (s.arrives f).transition = s.transition := by
  simp only [State.transition, arrives_pair]

/-- The first COMMIT: the staged writes are the pending set. -/
theorem commit_first {s : State} (seq : Nat) (h : s.setup.pendingSet = none) :
    let u := s.onSetup (fun x => { x with
      seq := seq, staged := [], flowStaged := [], state := if s.transition then .deferred else .pending,
      pendingSet := some { seq := seq, words := x.staged, flows := x.flowStaged, discarded := false, deferred := s.transition } })
    s.commit seq = if s.transition then u.raise .commitDeferred (le 2 seq) else u := by
  intro u
  simp only [State.commit, h]
  rfl

/-- The second COMMIT: the staged writes are the queued set. -/
theorem commit_second {s : State} (seq : Nat) (h : s.setup.pendingSet ≠ none) (hq : s.setup.queuedSet = none) :
    s.commit seq = s.onSetup (fun x => { x with
      seq := seq, staged := [], flowStaged := [],
      queuedSet := some { seq := seq, words := x.staged, flows := x.flowStaged, discarded := false, deferred := false } }) := by
  obtain ⟨p, hp⟩ := Option.ne_none_iff_exists'.1 h
  simp only [State.commit, hp, hq]
  rfl

/-- A third COMMIT is refused. -/
theorem commit_third {s : State} (seq : Nat) (h : s.setup.pendingSet ≠ none) (hq : s.setup.queuedSet ≠ none) :
    s.commit seq = (s.onSetup (fun x => { x with
      seq := seq, state := if s.transition then .deferred else .refused, faultOff := 0, faultWhy := 3 })).raise .commitRefused
        (le 2 seq ++ le 4 0 ++ le 1 3) := by
  obtain ⟨p, hp⟩ := Option.ne_none_iff_exists'.1 h
  obtain ⟨q, hq⟩ := Option.ne_none_iff_exists'.1 hq
  simp only [State.commit, hp, hq]
  rfl

/-- Settles O13: by the sets that are sealed already. -/
theorem commitSealsTheStagedWrites : Obligations.CommitSealsTheStagedWrites := by
  unfold Obligations.CommitSealsTheStagedWrites
  refine ⟨fun s of seq hp hn => ?_, fun s of seq hp hs hq => ?_, fun s of seq hp hs hq => ?_⟩
  · refine ⟨_, exec_commit of seq hp, ?_⟩
    rw [commit_first seq.toNat (by simpa using hn), arrives_transition]
    cases s.transition
    · exact rfl
    · exact raise_raises _ _ _
  · rw [exec_commit of seq hp, commit_second seq.toNat (by simpa using hs) (by simpa using hq)]
  · refine ⟨_, exec_commit of seq hp, ?_⟩
    rw [commit_third seq.toNat (by simpa using hs) (by simpa using hq), arrives_transition]
    exact raise_raises _ _ _

/-! ### The parts of a set that are written (R12) -/

theorem layer_cons (e : Nat × StagedW) (l : List (Nat × StagedW)) (k : Nat) (w : Word) :
    layer (e :: l) k w = if e.1 = k then e.2.over w else layer l k w := by
  by_cases h : e.1 = k <;> simp [layer, Tbl.find, h]

theorem layer_of_not_mem {l : List (Nat × StagedW)} {k : Nat} (h : k ∉ l.map Prod.fst) (w : Word) : layer l k w = w := by
  induction l with
  | nil => rfl
  | cons e r ih =>
    rw [List.map_cons, List.mem_cons, not_or] at h
    rw [layer_cons, if_neg (Ne.symm h.1), ih h.2]

/-- A set over the active words: each word takes the set's bits, and keeps the others. -/
theorem get_overWords (active : List (Nat × Word)) {l : List (Nat × StagedW)} (h : (l.map Prod.fst).Nodup) (k : Nat) :
    Tbl.get resetWord (overWords active l) k = layer l k (Tbl.get resetWord active k) := by
  induction l generalizing active with
  | nil => rfl
  | cons e r ih =>
    rw [List.map_cons, List.nodup_cons] at h
    have hstep : overWords active (e :: r) =
        overWords (Tbl.put resetWord active e.1 (e.2.over (Tbl.get resetWord active e.1))) r := rfl
    rw [hstep, ih _ h.2, layer_cons]
    split
    · next hk => rw [← hk, layer_of_not_mem h.1, get_put_same]
    · next hk => rw [get_put_other _ _ (Ne.symm hk)]

/-! ### What a refused set gives back (R14) -/

/-- The bits of a write that no later write holds, over the later ones, are the write under them. -/
theorem minus_over (old x : StagedW) (w : Word) : (x.minus old.mask).over (old.over w) = old.over (x.over w) := by
  ext i hi
  simp only [StagedW.minus, StagedW.over, BitVec.getElem_or, BitVec.getElem_and, BitVec.getElem_not]
  cases old.mask[i] <;> cases x.mask[i] <;> simp

theorem minus_zero (x : StagedW) : x.minus 0 = x := by
  have hones : ~~~(0 : Word) = BitVec.allOnes 32 := BitVec.not_zero
  cases x
  simp only [StagedW.minus, hones, BitVec.and_allOnes]

/-- The mask of the staged bits of a word. -/
def stagedBits (t : List (Nat × StagedW)) (k : Nat) : Word := ((Tbl.find t k).map (fun x => x.mask)).getD 0

/-- What lies under the staged bits. -/
theorem layer_minus (t : List (Nat × StagedW)) (k : Nat) (x : StagedW) (w : Word) :
    (x.minus (stagedBits t k)).over (layer t k w) = layer t k (x.over w) := by
  unfold layer stagedBits
  cases Tbl.find t k with
  | none => exact congrArg (fun y => StagedW.over y w) (minus_zero x)
  | some o => exact minus_over o x w

/-- Staging several words changes none but theirs. -/
theorem layer_foldl_other (g : Nat × StagedW → StagedW) {l : List (Nat × StagedW)} (t : List (Nat × StagedW)) {k : Nat}
    (h : k ∉ l.map Prod.fst) (w : Word) : layer (l.foldl (fun t e => stagePut t e.1 (g e)) t) k w = layer t k w := by
  induction l generalizing t with
  | nil => rfl
  | cons e r ih =>
    rw [List.map_cons, List.mem_cons, not_or] at h
    rw [List.foldl_cons, ih _ h.2, layer_stagePut_other _ _ _ h.1]

/-- The words of a set given back to staging lie under the writes made since. -/
theorem layer_given_back (base : List (Nat × StagedW)) {l : List (Nat × StagedW)} (h : (l.map Prod.fst).Nodup)
    (t : List (Nat × StagedW)) {k : Nat} (w : Word) (ht : ∀ w, layer t k w = layer base k w) :
    layer (l.foldl (fun t e => stagePut t e.1 (e.2.minus (stagedBits base e.1))) t) k w = layer base k (layer l k w) := by
  induction l generalizing t with
  | nil => exact ht w
  | cons e r ih =>
    rw [List.map_cons, List.nodup_cons] at h
    rw [List.foldl_cons, layer_cons]
    split
    · next hk =>
      subst hk
      rw [layer_foldl_other _ _ h.1, layer_stagePut_same, ht, layer_minus]
    · next hk => exact ih h.2 _ fun w => by rw [layer_stagePut_other _ _ _ (Ne.symm hk), ht]

/-- A discarded set gives nothing back. -/
theorem returnSet_discarded {s : State} {p : SealedSet} (h : p.discarded = true) : s.returnSet p = s := if_pos h

theorem did_returnSet (s : State) (p : SealedSet) : Does 0x1 s (s.returnSet p) := does_returnSet (by decide) (does_refl _ s)

/-- Giving a set back changes the staged writes alone. -/
theorem setup_returnSet (s : State) (p : SealedSet) :
    { (s.returnSet p).setup with staged := [], flowStaged := [] } = { s.setup with staged := [], flowStaged := [] } := by
  unfold State.returnSet
  split <;> rfl

/-- The bits of a word that the sets and writes made after the pending set hold. -/
def laterBits (u : SetupSt) (k : Nat) : Word :=
  (match u.queuedSet with | some q => stagedBits q.words k | none => 0) ||| stagedBits u.staged k

theorem laterBits_unqueued {u : SetupSt} (h : u.queuedSet = none) : laterBits u = stagedBits u.staged := by
  funext k
  simp only [laterBits, h]
  exact BitVec.zero_or

theorem staged_returnSet {s : State} {p : SealedSet} (hd : p.discarded = false) : (s.returnSet p).setup.staged =
    p.words.foldl (fun t e => stagePut t e.1 (e.2.minus (laterBits s.setup e.1))) s.setup.staged := by
  unfold State.returnSet
  rw [if_neg (by simp [hd])]
  rfl

/-- Without a queued set each write returns to staging under those made since. -/
theorem layer_returnSet {s : State} {p : SealedSet} (hq : s.setup.queuedSet = none) (hd : p.discarded = false)
    (hn : (p.words.map Prod.fst).Nodup) (k : Nat) (w : Word) :
    layer (s.returnSet p).setup.staged k w = layer s.setup.staged k (layer p.words k w) := by
  rw [staged_returnSet hd, laterBits_unqueued hq]
  exact layer_given_back _ hn _ w fun _ => rfl

/-! ### COMMIT_APPLY -/

theorem exec_commitApply (s : State) : exec .commitApply s = .next (match s.setup.pendingSet with
    | some p => if s.transition then s else s.commitApply p
    | none => s) := rfl

theorem exec_commitApply_some {s : State} {p : SealedSet} (hp : s.setup.pendingSet = some p) (ht : s.transition = false) :
    exec .commitApply s = .next (s.commitApply p) := by
  rw [exec_commitApply, hp, ht]
  rfl

/-- The state in which a pending set is judged and applied. -/
def unsealed (s : State) : State := s.onSetup (fun u => { u with pendingSet := none })

theorem commitApply_eq (s : State) (p : SealedSet) : s.commitApply p = (match s.setFault p with
    | some (off, why) => (((unsealed s).returnSet p).refuseCommit p.seq off why).promote
    | none => ((((unsealed s).applySet p).onSetup (fun u => { u with appliedSeq := p.seq, state := .idle })).raise .commitApplied
        (le 2 p.seq)).promote) := rfl

theorem promote_none {s : State} (h : s.setup.queuedSet = none) : s.promote = s := by
  simp only [State.promote, h]

/-- Of a whole application only the set itself reaches the set-up. -/
theorem setup_applySet (s : State) (p : SealedSet) : (s.applySet p).setup = (s.withSet p).setup := by
  let s1 := ((List.range 4).foldl (fun t n => t.applyBifurcate (s.withSet p) n) s).settleAll
  have h1 : Does 0xe227fb2 s s1 :=
    does_settleAll (by decide) (does_foldl (fun _ _ h => does_applyBifurcate (by decide) h) (does_refl _ s))
  have h2 : Does 0xffe7fb2 (s1.withSet p) (s.applySet p) :=
    does_flowAll (by decide) (does_gatesRefresh (by decide) (does_domainSync (by decide) (does_fmRefresh (by decide)
      (does_applyTether (by decide) (does_applyClock (by decide) (does_applyStyle (by decide) (does_applyPair (by decide)
      (does_foldl (fun _ _ h => does_applyEnable (by decide) h) (does_foldl (fun _ _ h => does_applyBreakout (by decide) h)
      (does_foldl (fun _ _ h => does_applySched (by decide) h) (does_foldl (fun _ _ h => does_applyProfile (by decide) h)
      (does_refl _ _))))))))))))
  rw [h2.keeps .setup (by decide)]
  have hs1 : s1.setup = s.setup := h1.keeps .setup (by decide)
  simp only [State.withSet, onSetup_parts, hs1]

/-- A discarded set that is refused leaves staging as it is. -/
theorem staged_refused_discarded {s : State} {p : SealedSet} (hq : s.setup.queuedSet = none) (hd : p.discarded = true)
    {off why : Nat} (hf : s.setFault p = some (off, why)) :
    (s.commitApply p).setup.staged = s.setup.staged ∧ (s.commitApply p).setup.flowStaged = s.setup.flowStaged := by
  have hsetup : ((unsealed s).refuseCommit p.seq off why).setup =
      { s.setup with pendingSet := none, state := .refused, faultOff := off, faultWhy := why } := (raise_parts _ _ _).1
  rw [commitApply_eq, hf]
  simp only
  rw [returnSet_discarded hd, promote_none (by rw [hsetup]; exact hq), hsetup]
  exact ⟨rfl, rfl⟩

/-- Settles O12: staging has no layer left over the active words, and a discarded set goes the way of any other. -/
theorem discardReturnsNothingToStaging : Obligations.DiscardReturnsNothingToStaging := by
  unfold Obligations.DiscardReturnsNothingToStaging
  refine ⟨fun s of hp => ⟨_, exec_discard of hp, keeps_onSetup _ _, ?_, fun k => ?_⟩, fun s p => ⟨setFault_discarded s p, applySet_discarded s p⟩,
    fun s p hp hq ht hd hf => ?_⟩
  · simp [State.discard]
  · rw [stagingWord_discard]
    simp [State.activeWord, State.discard]
  · obtain ⟨⟨off, why⟩, hf⟩ := Option.ne_none_iff_exists'.1 hf
    exact ⟨_, exec_commitApply_some hp ht, staged_refused_discarded hq hd hf⟩

/-! ### Faults (R14) -/

theorem leastOf_none {l : List Nat} : leastOf l = none ↔ l = [] := by
  cases l <;> simp [leastOf]

theorem foldl_min_le (x : Nat) (r : List Nat) : r.foldl min x ≤ x ∧ ∀ y ∈ r, r.foldl min x ≤ y := by
  induction r generalizing x with
  | nil => simp
  | cons a r ih =>
    obtain ⟨hx, hr⟩ := ih (min x a)
    refine ⟨hx.trans (min_le_left x a), fun y hy => ?_⟩
    rcases List.mem_cons.1 hy with rfl | hy
    · exact hx.trans (min_le_right x y)
    · exact hr y hy

theorem foldl_min_mem (x : Nat) (r : List Nat) : r.foldl min x = x ∨ r.foldl min x ∈ r := by
  induction r generalizing x with
  | nil => exact .inl rfl
  | cons a r ih =>
    rw [List.foldl_cons, List.mem_cons]
    rcases ih (min x a) with h | h
    · rcases min_choice x a with hm | hm
      · exact .inl (h.trans hm)
      · exact .inr (.inl (h.trans hm))
    · exact .inr (.inr h)

/-- The least of a list is in it, and at most any of it. -/
theorem leastOf_some {l : List Nat} {o : Nat} (h : leastOf l = some o) : o ∈ l ∧ ∀ x ∈ l, o ≤ x := by
  cases l with
  | nil => simp [leastOf] at h
  | cons x r =>
    obtain rfl : r.foldl min x = o := Option.some.inj h
    obtain ⟨hx, hr⟩ := foldl_min_le x r
    refine ⟨List.mem_cons.2 (foldl_min_mem x r), fun y hy => ?_⟩
    rcases List.mem_cons.1 hy with rfl | hy
    · exact hx
    · exact hr y hy

/-- The offsets of the words of a set that hold a value out of range. -/
def badOffsets (s : State) (p : SealedSet) : List Nat := (p.words.filter (wordBad (s.withSet p))).map (fun e => keyOffset e.1)

theorem setFault_eq (s : State) (p : SealedSet) : s.setFault p = (match leastOf (badOffsets s p) with
    | some o => some (o, 1)
    | none => (leastOf (s.comboHits (s.withSet p) p.words)).map (fun o => (o, 2))) := rfl

theorem mem_badOffsets {s : State} {p : SealedSet} {o : Nat} :
    o ∈ badOffsets s p ↔ ∃ e ∈ p.words, wordBad (s.withSet p) e = true ∧ keyOffset e.1 = o := by
  simp [badOffsets, and_assoc]

theorem badOffsets_nil {s : State} {p : SealedSet} : badOffsets s p = [] ↔ ∀ e ∈ p.words, wordBad (s.withSet p) e = false := by
  simp [badOffsets]

/-- REASON 1 is the lowest offset of a value out of range. -/
theorem setFault_range {s : State} {p : SealedSet} {o : Nat} (h : s.setFault p = some (o, 1)) :
    (∃ e ∈ p.words, wordBad (s.withSet p) e = true ∧ keyOffset e.1 = o) ∧
      ∀ e ∈ p.words, wordBad (s.withSet p) e = true → o ≤ keyOffset e.1 := by
  rw [setFault_eq] at h
  split at h
  · next x hx =>
    obtain rfl : x = o := congrArg Prod.fst (Option.some.inj h)
    obtain ⟨hmem, hle⟩ := leastOf_some hx
    exact ⟨mem_badOffsets.1 hmem, fun e he hb => hle _ (mem_badOffsets.2 ⟨e, he, hb, rfl⟩)⟩
  · simp at h

/-- REASON 2 comes only where no value is out of range, with the lowest offset of a refused combination. -/
theorem setFault_combo {s : State} {p : SealedSet} {o : Nat} (h : s.setFault p = some (o, 2)) :
    (∀ e ∈ p.words, wordBad (s.withSet p) e = false) ∧ o ∈ s.comboHits (s.withSet p) p.words ∧
      ∀ x ∈ s.comboHits (s.withSet p) p.words, o ≤ x := by
  rw [setFault_eq] at h
  split at h
  · simp at h
  · next hb =>
    obtain ⟨x, hx, hxo⟩ := Option.map_eq_some_iff.1 h
    obtain rfl : x = o := congrArg Prod.fst hxo
    exact ⟨badOffsets_nil.1 (leastOf_none.1 hb), leastOf_some hx⟩

/-- A set without a fault holds no value out of range and no refused combination. -/
theorem setFault_none {s : State} {p : SealedSet} : s.setFault p = none ↔
    (∀ e ∈ p.words, wordBad (s.withSet p) e = false) ∧ s.comboHits (s.withSet p) p.words = [] := by
  rw [setFault_eq, ← badOffsets_nil]
  split
  · next x hx =>
    have hne : badOffsets s p ≠ [] := fun h => by rw [h] at hx; cases hx
    simp [hne]
  · next hb => simp [leastOf_none.1 hb, leastOf_none]

/-- The set-up of a refused COMMIT before the queued set moves up. -/
theorem setup_refuseCommit (s : State) (seq off why : Nat) : (s.refuseCommit seq off why).setup =
    { s.setup with state := .refused, faultOff := off, faultWhy := why } := (raise_parts _ _ _).1

theorem setup_unsealed (s : State) : (unsealed s).setup = { s.setup with pendingSet := none } := rfl

/-- A returned set leaves the other sets sealed as they are. -/
theorem queuedSet_returnSet (s : State) (p : SealedSet) : (s.returnSet p).setup.queuedSet = s.setup.queuedSet := by
  unfold State.returnSet
  split <;> rfl

/-- The queued set is pending then, deferred in its turn in a hand-over, a Verdict or a final stall. -/
theorem promote_queued {s : State} {q : SealedSet} (h : s.setup.queuedSet = some q) :
    s.promote.setup.pendingSet.map (fun x => x.words) = some q.words ∧ s.promote.setup.queuedSet = none := by
  have hdefer (t : State) (ht : t.setup.pendingSet = some q) (hn : t.setup.queuedSet = none) :
      t.deferCommit.setup.pendingSet.map (fun x => x.words) = some q.words ∧ t.deferCommit.setup.queuedSet = none := by
    simp only [State.deferCommit, ht]
    split
    · simp [ht, hn]
    · simp [hn]
  simp only [State.promote, h]
  split
  · exact hdefer _ rfl rfl
  · exact ⟨rfl, rfl⟩

/-- Settles O14: COMMIT_APPLY by the fault of its set. -/
theorem commitIsAllOrNothing : Obligations.CommitIsAllOrNothing := by
  unfold Obligations.CommitIsAllOrNothing
  refine ⟨fun s h => ?_, fun s p hp hq ht hf => ?_, fun active l k h => get_overWords active h k, fun s p off why hp hq ht hf => ?_,
    fun s p q hp hq ht => ?_, fun s p => ⟨fun o h => setFault_range h, fun o h => setFault_combo h, setFault_none⟩⟩
  · rw [exec_commitApply]
    rcases h with h | h
    · rw [h]
    · split <;> simp [h]
  · have hsetup : (((unsealed s).applySet p).onSetup (fun u => { u with appliedSeq := p.seq, state := .idle })).setup =
        { s.setup with pendingSet := none, active := overWords s.setup.active p.words, flows := flowOver p.flows s.setup.flows,
                       appliedSeq := p.seq, state := .idle } := by
      rw [(onSetup_parts _ _).1, setup_applySet]
      rfl
    refine ⟨_, exec_commitApply_some hp ht, _, ?_, hsetup⟩
    rw [commitApply_eq, hf]
    simp only
    rw [promote_none (by rw [(raise_parts _ _ _).1, hsetup]; exact hq)]
    exact raise_raises _ _ _
  · refine ⟨_, exec_commitApply_some hp ht,
      ((unsealed s).returnSet p).onSetup (fun u => { u with state := .refused, faultOff := off, faultWhy := why }), ?_, ?_, ?_, ?_⟩
    · rw [commitApply_eq, hf]
      simp only
      rw [promote_none (by rw [setup_refuseCommit]; exact (queuedSet_returnSet (unsealed s) p).trans hq)]
      exact raise_raises _ _ _
    · exact keeps_of_partMask (does_onSetup (by decide) id (does_trans (does_onSetup (by decide) id (does_refl _ s))
        (does_mono (did_returnSet (unsealed s) p) (by decide))))
    · have h := setup_returnSet (unsealed s) p
      rw [setup_unsealed] at h
      rw [(onSetup_parts _ _).1]
      exact congrArg (fun u : SetupSt => { u with state := CommitState.refused, faultOff := off, faultWhy := why }) h
    · intro hd hn k w
      exact layer_returnSet (s := unsealed s) hq hd hn k w
  · refine ⟨_, exec_commitApply_some hp ht, ?_⟩
    rw [commitApply_eq]
    split
    · refine promote_queued ?_
      rw [setup_refuseCommit]
      exact (queuedSet_returnSet (unsealed s) p).trans hq
    · refine promote_queued ?_
      rw [(raise_parts _ _ _).1, (onSetup_parts _ _).1, setup_applySet]
      exact hq

end Sys2Proof.Proofs
end

section
/-! Accesses to BAR0 by size, offset and view (R381, R382, 18_register_map; R22, 00_scope). -/
namespace Sys2Proof.Proofs
open Sys2Proof Sys2Proof.Machine Sys2Proof.Laws
set_option Elab.async false -- one thread, within the memory of the check

/-! ### Reads of a window of words -/

/-- An access of 8 aligned bytes is two of 4, the lower offset first. -/
theorem readSized_double (w : Nat → Nat) {off : Nat} (h : off % 8 = 0) : readSized w off 8 = w off + 2 ^ 32 * w (off + 4) := by
  simp [readSized, h]

/-- Any other size or alignment reads 0. -/
theorem readSized_other (w : Nat → Nat) {off size : Nat} (h4 : ¬(size = 4 ∧ off % 4 = 0)) (h8 : ¬(size = 8 ∧ off % 8 = 0)) :
    readSized w off size = 0 := by
  rw [readSized, if_neg h4, if_neg h8]

/-- A word that reads 0 is an access of 4 bytes that reads 0. -/
theorem readSized_zero {w : Nat → Nat} {off : Nat} (h : w off = 0) : readSized w off 4 = 0 := by
  simp [readSized, h]

/-- What Table 4-5 does not assign in a TF's BAR0. -/
def tfReserved (off : Nat) : Prop := (0x28 ≤ off ∧ off < 0x40) ∨ (0x60 ≤ off ∧ off < 0x1000) ∨ (0x1300 ≤ off ∧ off < 0x3000) ∨
    (0x3080 ≤ off ∧ off < 0x3800) ∨ 0x3804 ≤ off

theorem tfReadWord_reserved (s : State) (f : Nat) {off : Nat} (h : tfReserved off) : s.tfReadWord f off = 0 := by
  unfold tfReserved at h
  have h0 : ¬ off < 0x20 := by omega
  have h1 : ¬ off = 0x20 := by omega
  have h2 : ¬ off = 0x24 := by omega
  have h3 : ¬ (0x40 ≤ off ∧ off < 0x60) := by omega
  have h4 : ¬ (0x3000 ≤ off ∧ off < 0x3080) := by omega
  have h5 : ¬ off = 0x3800 := by omega
  rw [State.tfReadWord, if_neg h0, if_neg h1, if_neg h2, if_neg h3, if_neg h4, if_neg h5]
  split
  · have hx : ¬ off - 0x1000 < 0x100 := by omega
    have hy : ¬ off - 0x1000 < 0x200 := by omega
    have hz : ¬ off - 0x1000 < 0x300 := by omega
    simp [State.tfRingWord, hx, hy, hz]
  · rfl

/-! ### Set-up words -/

theorem land_word {x : Nat} (h : x < 2 ^ 32) : Nat.land x (2 ^ 32 - 1) = x :=
  (Nat.and_two_pow_sub_one_eq_mod x 32).trans (Nat.mod_eq_of_lt h)

/-- The S and K bits of a set-up word, by COMMIT_VIEW. -/
theorem readSetup_eq {s : State} {n off key : Nat} (hk : s.setupKey n off = some key) :
    s.readSetup n off = if (s.of n).activeView then s.activeWord key else (s.stagingWord key).toNat := by
  rw [State.readSetup, hk]

theorem readSetup_lt (s : State) (n off : Nat) : s.readSetup n off < 2 ^ 32 := by
  unfold State.readSetup
  split
  · decide
  · split
    · exact BitVec.isLt _
    · exact BitVec.isLt _

/-- A word of S and K fields alone reads them alone. -/
theorem readWord_setup {s : State} {n off : Nat} {r : RegRow} {ix : List Nat} (hr : regAt off = some (r, ix))
    (hm : stagedMask r = 2 ^ 32 - 1) : s.readWord n off = s.readSetup n off := by
  have hne : ¬ (2 ^ 32 - 1 = 0) := by decide
  simp only [State.readWord, hr, hm, if_neg hne, if_true, Nat.add_zero]
  exact land_word (readSetup_lt s n off)

/-! ### Writes -/

theorem bits_low (x : Nat) : bits (x % 2 ^ 32) 0 32 = bits x 0 32 := by
  simp [bits]

theorem bits_high (v : BitVec 64) : bits (v.toNat / 2 ^ 32) 0 32 = bits v.toNat 32 32 := by
  simp [bits]

/-- A 4-byte write takes the low half of its value. -/
theorem registerWrite_low (s : State) (n off x : Nat) : s.registerWrite n off 4 (x % 2 ^ 32) = s.registerWrite n off 4 x := by
  simp only [State.registerWrite, bits_low]
  rfl

/-- A write of 8 aligned bytes is two of 4, the lower offset first. -/
theorem registerWrite_double (s : State) (n : Nat) {off : Nat} (v : BitVec 64) (h : off % 8 = 0) : s.registerWrite n off 8 v.toNat =
    (s.registerWrite n off 4 (v.toNat % 2 ^ 32)).registerWrite n (off + 4) 4 (v.toNat / 2 ^ 32) := by
  have h4 : off % 4 = 0 := by omega
  have h5 : (off + 4) % 4 = 0 := by omega
  simp only [State.registerWrite, h, h4, h5, bits_low, bits_high]
  rfl

/-- A write of any other size or alignment has no effect. -/
theorem registerWrite_other (s : State) (n : Nat) {off size : Nat} (v : Nat) (h4 : ¬(size = 4 ∧ off % 4 = 0))
    (h8 : ¬(size = 8 ∧ off % 8 = 0)) : s.registerWrite n off size v = s := by
  rw [State.registerWrite, if_neg h4, if_neg h8]

/-- Nor has one of a reserved offset. -/
theorem registerWrite_reserved (s : State) (n : Nat) {off : Nat} (v : Nat) (h : regAt off = none) : s.registerWrite n off 4 v = s := by
  have hw (x : Nat) : s.writeWord n off x = s := by rw [State.writeWord, h]
  simp [State.registerWrite, hw]

/-- Beyond its mailbox record a TF's BAR0 takes no write by REGISTER_WRITE. -/
theorem tfWrite_beyond (s : State) (f : Nat) {off : Nat} (size v : Nat) (h : 0x20 ≤ off) : s.tfWrite f off size v = s := by
  have hw (t : State) (x : Nat) : t.tfWord f off x = t := by rw [State.tfWord, if_pos h]
  have hw4 (t : State) (x : Nat) : t.tfWord f (off + 4) x = t := by rw [State.tfWord, if_pos (by omega)]
  simp [State.tfWrite, hw, hw4]

theorem exec_registerWrite_none {s : State} (b : Bar) (off size : Nat) (v : BitVec 64) (h : s.noPartner = true) :
    exec (.registerWrite b off size v) s = .next s :=
  congrArg Host.Outcome.next (if_pos (by simp [h]))

theorem exec_registerWrite_of {s : State} (of : Fin 4) (off size : Nat) (v : BitVec 64) (h : s.noPartner = false) :
    exec (.registerWrite (.of of) off size v) s = .next ((s.arrives (64 + of)).registerWrite of off size v.toNat) :=
  congrArg Host.Outcome.next (if_neg (by simp [h]))

theorem exec_registerWrite_tf {s : State} (f : Fin 64) (off size : Nat) (v : BitVec 64) (h : s.noPartner = false) :
    exec (.registerWrite (.tf f) off size v) s = .next ((s.arrives f).tfWrite f off size v.toNat) :=
  congrArg Host.Outcome.next (if_neg (by simp [h]))

theorem exec_registerWrite_cf {s : State} (n : Fin 4) (off size : Nat) (v : BitVec 64) (h : s.noPartner = false) :
    exec (.registerWrite (.cf n) off size v) s = .next (s.arrives (68 + n)) :=
  congrArg Host.Outcome.next (if_neg (by simp [h]))

/-- Settles O15: each window by its readSized, and each write by the window it goes to. -/
theorem registerAccessesBySizeAndView : Obligations.RegisterAccessesBySizeAndView := by
  unfold Obligations.RegisterAccessesBySizeAndView
  refine ⟨fun s n off h => readSized_double _ h, fun s b off size h4 h8 => ?_, fun s n off h => readSized_zero ?_,
    fun s f off h => readSized_zero (tfReadWord_reserved s f h), fun s b off size v h => exec_registerWrite_none b off size v h,
    fun s of off size v h h4 h8 => ?_, fun s of off v h hr => ?_, fun s of off v h h8 => ?_, fun s of off v h => ?_,
    fun s f off size v h hb => ?_, fun s n off size v h => exec_registerWrite_cf n off size v h,
    fun s n off r ix key ha hr hm hk => ?_⟩
  · cases b with
    | of n => exact readSized_other _ h4 h8
    | tf f => exact readSized_other _ h4 h8
    | cf n => exact readSized_other _ h4 h8
  · rw [State.readWord, h]
  · rw [exec_registerWrite_of of off size v h, registerWrite_other _ _ _ h4 h8]
  · rw [exec_registerWrite_of of off 4 v h, registerWrite_reserved _ _ _ hr]
  · rw [exec_registerWrite_of of off 8 v h, registerWrite_double _ _ v h8]
  · rw [exec_registerWrite_of of off 4 v h, registerWrite_low]
  · rw [exec_registerWrite_tf f off size v h, tfWrite_beyond _ _ _ _ hb]
  · rw [← readSetup_eq hk, ← readWord_setup hr hm, State.read, readSized, if_pos ⟨rfl, ha⟩]

end Sys2Proof.Proofs
end

section
/-! Live registers take their write at once (Table 0-5, R12, 00_scope). -/
namespace Sys2Proof.Proofs
open Sys2Proof Sys2Proof.Machine Sys2Proof.Laws
set_option Elab.async false -- one thread, within the memory of the check

/-! ### What an arrival leaves of the parts it reaches -/

/-- Nothing in these parts of the state has changed, though a wake reaches parts that hold them. -/
structure WakeKept (s t : State) : Prop where
  islands : t.power.islands = s.power.islands
  rails   : t.supply.rails = s.supply.rails
  slots   : t.tether.slots = s.tether.slots

theorem wakeKept_refl (s : State) : WakeKept s s := ⟨rfl, rfl, rfl⟩

theorem wakeKept_trans {s t u : State} (h : WakeKept s t) (k : WakeKept t u) : WakeKept s u :=
  ⟨k.islands.trans h.islands, k.rails.trans h.rails, k.slots.trans h.slots⟩

theorem wakeKept_tetherQueue (s : State) (typ : Nat) (p : Bytes) : WakeKept s (s.tetherQueue typ p) := by
  unfold State.tetherQueue
  split
  · exact wakeKept_refl s
  · exact ⟨rfl, rfl, rfl⟩

theorem wakeKept_vetoWake (s : State) (w : Wake) : WakeKept s (s.vetoWake w) := by
  have hask : WakeKept s (if s.tether.heldWake.isSome then s
      else (s.tetherQueue 0x10 (le 1 s.tether.round ++ le 1 s.tether.proposer)).onTether (fun t => { t with heldWake := some w })) := by
    split
    · exact wakeKept_refl s
    · exact wakeKept_trans (wakeKept_tetherQueue s _ _) ⟨rfl, rfl, rfl⟩
  unfold State.vetoWake
  split
  · exact hask
  · exact hask
  · exact wakeKept_refl s

theorem wakeKept_beginExit (s : State) (w : Wake) (b : Bool) : WakeKept s (s.beginExit w b) := by
  have hp : s.watchStop.power = s.power := (did_watchStop s).keeps .power (by decide)
  have hs : s.watchStop.supply = s.supply := (did_watchStop s).keeps .supply (by decide)
  have ht : s.watchStop.tether = s.tether := (did_watchStop s).keeps .tether (by decide)
  refine ⟨?_, ?_, ?_⟩
  · simp [State.beginExit, hp]
  · simp [State.beginExit, hs]
  · simp [State.beginExit, ht]

theorem wakeKept_registerWake (s : State) (src det : Nat) : WakeKept s (s.registerWake src det) := by
  unfold State.registerWake
  extract_lets w
  split
  · exact wakeKept_refl s
  · split
    · split
      · exact ⟨rfl, rfl, rfl⟩
      · exact wakeKept_refl s
    · split
      · exact wakeKept_beginExit s w false
      · exact wakeKept_refl s
    · split
      · exact wakeKept_beginExit s w false
      · exact wakeKept_refl s
    · split
      · exact ⟨rfl, rfl, rfl⟩
      · exact wakeKept_refl s
    · split
      · exact wakeKept_vetoWake s w
      · exact wakeKept_refl s
    · split
      · exact wakeKept_vetoWake s w
      · exact wakeKept_refl s
    · exact wakeKept_refl s

theorem wakeKept_partnerWake (s : State) (f : Nat) : WakeKept s (s.partnerWake f) := by
  unfold State.partnerWake
  split
  · exact wakeKept_registerWake s _ _
  · exact wakeKept_registerWake s _ _
  · exact wakeKept_refl s

theorem wakeKept_endIdle (s : State) : WakeKept s s.endIdle := by
  unfold State.endIdle
  split
  · exact ⟨rfl, rfl, rfl⟩
  · exact wakeKept_refl s

theorem wakeKept_arrives (s : State) (f : Nat) : WakeKept s (s.arrives f) :=
  wakeKept_trans (wakeKept_partnerWake s f) (wakeKept_endIdle _)

/-- Whether a request waits rests on the pair and on the islands. -/
theorem partnerHeld_congr {s t : State} (hp : t.pair = s.pair) (hi : t.power.islands = s.power.islands) (l : List Nat) :
    t.partnerHeld l = s.partnerHeld l := by
  simp only [State.partnerHeld, State.holding, State.engIsolated, State.active, State.island, hp, hi]

@[simp] theorem partnerHeld_arrives (s : State) (f : Nat) (l : List Nat) : (s.arrives f).partnerHeld l = s.partnerHeld l :=
  partnerHeld_congr (arrives_pair s f) (wakeKept_arrives s f).islands l

theorem slot_arrives (s : State) (f i : Nat) : (s.arrives f).slot i = s.slot i := by
  simp only [State.slot, (wakeKept_arrives s f).slots]

theorem chan_arrives (s : State) (f i : Nat) : (s.arrives f).chan i = s.chan i := by
  exact congrArg (fun l => Tbl.get LoChan.init (LookoutSt.chans l) i) (keeps_arrives s f .lookout (by decide))

/-! ### Live words -/

/-- The register of a word without S and K fields, with its two indices. -/
def liveAt (off : Nat) : Option (Reg × Nat × Nat) :=
  match regAt off with
  | some (r, ix) => if stagedMask r = 0 then some (r.reg, ix.headD 0, ix.getD 1 0) else none
  | none => none

theorem regAt_of_liveAt {off : Nat} {r : Reg} {i j : Nat} (h : liveAt off = some (r, i, j)) :
    ∃ row ix, regAt off = some (row, ix) ∧ stagedMask row = 0 ∧ row.reg = r ∧ ix.headD 0 = i ∧ ix.getD 1 0 = j := by
  unfold liveAt at h
  split at h
  · next row ix hr =>
    split at h
    · next hm => exact ⟨row, ix, hr, hm, by simpa using h⟩
    · simp at h
  · simp at h

/-- What a write of a live word does once it has arrived. -/
theorem exec_liveWrite {s : State} (of : Fin 4) {off : Nat} {r : Reg} {i j : Nat} (v : BitVec 64) (hp : s.noPartner = false)
    (h : liveAt off = some (r, i, j)) (ha : off % 4 = 0) : exec (.registerWrite (.of of) off 4 v) s =
      .next ((s.arrives (64 + of)).liveWrite of r i j off (v.toNat % 2 ^ 32)) := by
  obtain ⟨row, ix, hr, hm, rfl, rfl, rfl⟩ := regAt_of_liveAt h
  rw [exec_registerWrite_word of v hp ha, writeWord_live hr hm]

/-- A live write into MGMT of the active engine: it waits, or is done there. -/
theorem engTake_eq {s : State} (n : Nat) {off : Nat} (v : Nat) (h : writeIslands off = [5]) :
    s.engTake n off v = if s.partnerHeld [5] then s.hold (.write n off v) else s.engWrite n off v := by
  rw [State.engTake, h]

theorem writeIslands_mgmt {off : Nat} (h : off < 0x4A00 ∨ 0x4A00 < off ∧ off < 0x40000 ∨ 0x42000 ≤ off) : writeIslands off = [5] := by
  rw [writeIslands, if_neg (by omega), if_neg (by omega)]

/-- A flow, mailbox, Tally or snapshot word goes to the active engine. -/
theorem exec_engTake {s : State} (of : Fin 4) {off : Nat} {r : Reg} {i j : Nat} (v : BitVec 64) (hp : s.noPartner = false)
    (h : liveAt off = some (r, i, j)) (ha : off % 4 = 0) (hi : writeIslands off = [5])
    (htake : ∀ (t : State) (x : Nat), t.liveWrite of r i j off x = t.engTake of off x) :
    exec (.registerWrite (.of of) off 4 v) s = .next (if s.partnerHeld [5]
      then (s.arrives (64 + of)).hold (.write of off (v.toNat % 2 ^ 32))
      else (s.arrives (64 + of)).engWrite of off (v.toNat % 2 ^ 32)) := by
  rw [exec_liveWrite of v hp h ha, htake, engTake_eq _ _ hi, partnerHeld_arrives]

/-! ### An OF's own words -/

theorem ofTo_setOf (s : State) (n : Nat) (f : OfSt → OfSt) : OfTo n f s (s.setOf n f) :=
  ⟨keeps_setOf s n f, of_setOf_same s n f, fun _ hk => of_setOf_other s f hk⟩

theorem ofTo_trans {n : Nat} {f g : OfSt → OfSt} {s t u : State} (h : OfTo n f s t) (k : OfTo n g t u) : OfTo n (fun o => g (f o)) s u := by
  obtain ⟨hkeep, hsame, hother⟩ := h
  obtain ⟨kkeep, ksame, kother⟩ := k
  exact ⟨keeps_trans hkeep kkeep, by rw [ksame, hsame], fun x hx => (kother x hx).trans (hother x hx)⟩

theorem ofTo_congr {n : Nat} {f g : OfSt → OfSt} {s t : State} (h : OfTo n f s t) (hfg : f (s.of n) = g (s.of n)) : OfTo n g s t := by
  obtain ⟨hkeep, hsame, hother⟩ := h
  exact ⟨hkeep, hsame.trans hfg, hother⟩

/-- A register that each OF holds for itself. -/
theorem gives_ofWrite {s : State} (of : Fin 4) {off : Nat} {r : Reg} {i j : Nat} (v : BitVec 64) {f : OfSt → OfSt} (hp : s.noPartner = false)
    (h : liveAt off = some (r, i, j)) (ha : off % 4 = 0)
    (hw : ∀ t : State, t.liveWrite of r i j off (v.toNat % 2 ^ 32) = t.setOf of f) :
    Gives (.registerWrite (.of of) off 4 v) s (OfTo of f (s.arrives (64 + of))) := by
  refine ⟨_, exec_liveWrite of v hp h ha, ?_⟩
  rw [hw]
  exact ofTo_setOf _ _ _

/-- One that the active engine acts on, while it takes writes. -/
theorem gives_ofTake {s : State} (of : Fin 4) {off : Nat} {r : Reg} {i j : Nat} (v : BitVec 64) {f : OfSt → OfSt} (hp : s.noPartner = false)
    (h : liveAt off = some (r, i, j)) (ha : off % 4 = 0) (hi : writeIslands off = [5])
    (htake : ∀ (t : State) (x : Nat), t.liveWrite of r i j off x = t.engTake of off x) (hh : s.partnerHeld [5] = false)
    (hw : ∀ t : State, t.engWrite of off (v.toNat % 2 ^ 32) = t.setOf of f) :
    Gives (.registerWrite (.of of) off 4 v) s (OfTo of f (s.arrives (64 + of))) := by
  refine ⟨_, exec_engTake of v hp h ha hi htake, ?_⟩
  rw [hh, if_neg (by decide), hw]
  exact ofTo_setOf _ _ _

/-- A write of 8 aligned bytes to two live words. -/
theorem exec_liveWrite_double {s : State} (of : Fin 4) {off : Nat} {r q : Reg} {i j k l : Nat} (v : BitVec 64) (hp : s.noPartner = false)
    (h : liveAt off = some (r, i, j)) (h' : liveAt (off + 4) = some (q, k, l)) (ha : off % 8 = 0) :
    exec (.registerWrite (.of of) off 8 v) s = .next (((s.arrives (64 + of)).liveWrite of r i j off (v.toNat % 2 ^ 32)).liveWrite of q k l
      (off + 4) (v.toNat / 2 ^ 32)) := by
  obtain ⟨row, ix, hr, hm, rfl, rfl, rfl⟩ := regAt_of_liveAt h
  obtain ⟨row', ix', hr', hm', rfl, rfl, rfl⟩ := regAt_of_liveAt h'
  have hhi : v.toNat / 2 ^ 32 % 2 ^ 32 = v.toNat / 2 ^ 32 := Nat.mod_eq_of_lt (by omega)
  have hne : ¬ (8 = 4 ∧ off % 4 = 0) := by omega
  rw [exec_registerWrite_of of off 8 v hp, State.registerWrite, if_neg hne, if_pos ⟨rfl, ha⟩, writeWord_live hr hm, writeWord_live hr' hm']
  simp only [bits, hhi, Nat.pow_zero, Nat.div_one]

/-! ### The words of each block -/

theorem liveAt_timeSet : ∀ i < 3, liveAt (0x50010 + 4 * i) = some (.timeSet, i, 0) := by decide
theorem liveAt_timeStep : ∀ i < 2, liveAt (0x50020 + 4 * i) = some (.timeStep, i, 0) := by decide
theorem liveAt_txData : ∀ i < 8, ∀ j < 8, liveAt (0x88100 + 0x40 * i + 4 * j) = some (.tetherTxData, i, j) := by decide
theorem liveAt_txLen : ∀ i < 8, liveAt (0x88120 + 0x40 * i) = some (.tetherTxLen, i, 0) := by decide
theorem liveAt_loStatus : ∀ c < 5, liveAt (0x78100 + 0x40 * c) = some (.loStatus, c, 0) := by decide
theorem liveAt_flowKey : ∀ i < 10, liveAt (0x22000 + 4 * i) = some (.flowKey, i, 0) := by decide
theorem liveAt_mbxRequest : ∀ i < 8, liveAt (0x4400 + 4 * i) = some (.mbxRequest, i, 0) := by decide

/-- A key word of the flow table, staged at the active engine. -/
theorem engWrite_flowKey (s : State) (n : Nat) {off i j : Nat} (v : Nat) (h : liveAt off = some (.flowKey, i, j)) :
    s.engWrite n off v = s.onSetup (fun t => { t with flowKey := wput t.flowKey i v }) := by
  obtain ⟨row, ix, hr, -, hreg, rfl, -⟩ := regAt_of_liveAt h
  simp only [State.engWrite, hr, hreg]

theorem engWrite_mbxRequest (s : State) (n : Nat) {off i j : Nat} (v : Nat) (h : liveAt off = some (.mbxRequest, i, j)) :
    s.engWrite n off v = s.recordPut (64 + n) (4 * i) v := by
  obtain ⟨row, ix, hr, -, hreg, rfl, -⟩ := regAt_of_liveAt h
  simp only [State.engWrite, hr, hreg]

theorem engWrite_loStatus (s : State) (n : Nat) {off i j : Nat} (v : Nat) (h : liveAt off = some (.loStatus, i, j)) :
    s.engWrite n off v = if bit v 3 then s.setChan i (fun x => { x with tripped := false }) else s := by
  obtain ⟨row, ix, hr, -, hreg, rfl, -⟩ := regAt_of_liveAt h
  simp only [State.engWrite, hr, hreg]

theorem engWrite_flowAction (s : State) (n : Nat) {off i j : Nat} (v : Nat) (h : liveAt off = some (.flowAction, i, j)) :
    s.engWrite n off v = s.onSetup (fun t => { t with flowRing := v % 32, flowValid := bit v 31 }) := by
  obtain ⟨row, ix, hr, -, hreg, rfl, -⟩ := regAt_of_liveAt h
  simp only [State.engWrite, hr, hreg, bits, Nat.pow_zero, Nat.div_one]
  rfl

/-- The Tally's words of an OF. -/
theorem engWrite_own (s : State) (n : Nat) {off i j : Nat} {r : Reg} (v : Nat) (h : liveAt off = some (r, i, j))
    (hown : r = .tallySel ∨ r = .snapAddrLo ∨ r = .snapAddrHi ∨ r = .snapLen) :
    s.engWrite n off v = s.setOf n (fun o => o.written r v) := by
  obtain ⟨row, ix, hr, -, hreg, rfl, -⟩ := regAt_of_liveAt h
  rcases hown with rfl | rfl | rfl | rfl <;> simp only [State.engWrite, hr, hreg]

/-- TRIPPED clears by writing 1, and no other channel changes. -/
theorem tripped_cleared (s : State) (c : Nat) (b : Bool) (t : State) (ht : t = if b then s.setChan c (fun x => { x with tripped := false }) else s) :
    Keeps [.lookout] s t ∧ (t.chan c).tripped = ((s.chan c).tripped && !b) ∧ ∀ k, k ≠ c → t.chan k = s.chan k := by
  subst ht
  cases b with
  | false => exact ⟨keeps_refl _ s, by simp, fun k _ => rfl⟩
  | true => exact ⟨keeps_setChan s c _, by simp, fun k hk => chan_setChan_other s _ hk⟩

/-- A write to a slot of the Tether, as seen from the state it arrived in. -/
theorem slot_written (s : State) (a i : Nat) (f : SlotSt → SlotSt) :
    Keeps [.tether] (s.arrives a) ((s.arrives a).setSlot i f) ∧ ((s.arrives a).setSlot i f).slot i = f (s.slot i) ∧
      ∀ k, k ≠ i → ((s.arrives a).setSlot i f).slot k = s.slot k := by
  refine ⟨keeps_setSlot _ i f, ?_, fun k hk => ?_⟩
  · rw [slot_setSlot_same, slot_arrives]
  · rw [slot_setSlot_other _ _ hk, slot_arrives]

theorem bit_eq_testBit (x i : Nat) : bit x i = x.testBit i := (Nat.testBit_eq_decide_div_mod_eq).symm

/-- The bits of a vector without those of a mask. -/
theorem sub_and_self {w : Nat} (x y : BitVec w) : x - (x &&& y) = x &&& ~~~y := by
  have hzero : (x &&& y) &&& (x &&& ~~~y) = 0#w := by
    ext i hi
    simp only [BitVec.getElem_and, BitVec.getElem_not, BitVec.getElem_zero]
    cases x[i] <;> cases y[i] <;> rfl
  have hor : (x &&& y) ||| (x &&& ~~~y) = x := by
    ext i hi
    simp only [BitVec.getElem_or, BitVec.getElem_and, BitVec.getElem_not]
    cases x[i] <;> cases y[i] <;> rfl
  have hadd : (x &&& y) + (x &&& ~~~y) = x := (BitVec.add_eq_or_of_and_eq_zero _ _ hzero).trans hor
  calc x - (x &&& y) = ((x &&& y) + (x &&& ~~~y)) - (x &&& y) := by rw [hadd]
    _ = x &&& ~~~y := by rw [BitVec.add_comm, BitVec.add_sub_cancel]

/-- Bits cleared by writing 1: those of the mask go, the others stay. -/
theorem bit_sub_land {w r m i : Nat} (hr : r < 2 ^ w) (hi : i < w) : bit (r - Nat.land r (m % 2 ^ w)) i = (bit r i && !bit m i) := by
  have hsub := sub_and_self (BitVec.ofNat w r) (BitVec.ofNat w m)
  have hle : BitVec.ofNat w r &&& BitVec.ofNat w m ≤ BitVec.ofNat w r := by
    rw [BitVec.le_def, BitVec.toNat_and]
    exact Nat.and_le_left
  have hnat := congrArg BitVec.toNat hsub
  rw [BitVec.toNat_sub_of_le hle, BitVec.toNat_and, BitVec.toNat_ofNat, BitVec.toNat_ofNat, Nat.mod_eq_of_lt hr] at hnat
  have hval : r - Nat.land r (m % 2 ^ w) = (BitVec.ofNat w r &&& ~~~BitVec.ofNat w m).toNat := hnat
  rw [bit_eq_testBit, bit_eq_testBit, bit_eq_testBit, hval, BitVec.testBit_toNat]
  simp only [BitVec.getLsbD_and, BitVec.getLsbD_not, BitVec.getLsbD_ofNat, hi, decide_true, Bool.true_and]

/-- The low bits of a number. -/
theorem bits_zero (x n : Nat) : bits x 0 n = x % 2 ^ n := by simp [bits]

/-- Both halves of an OF's address, by a write of 8 bytes. -/
theorem join_halves (a : Nat) (v : BitVec 64) : (a / 2 ^ 32 * 2 ^ 32 + v.toNat % 2 ^ 32) % 2 ^ 32 + v.toNat / 2 ^ 32 * 2 ^ 32 = v.toNat := by
  omega

theorem join_halves_aligned (a : Nat) (v : BitVec 64) :
    (a / 2 ^ 32 * 2 ^ 32 + v.toNat % 2 ^ 32 / 64 * 64) % 2 ^ 32 + v.toNat / 2 ^ 32 * 2 ^ 32 = v.toNat / 64 * 64 := by
  omega

/-! ### A TF's mailbox record -/

/-- A word of a TF's record. -/
theorem exec_tfRecord {s : State} (f : Fin 64) {i : Nat} (v : BitVec 64) (hi : i < 8) (hp : s.noPartner = false) :
    exec (.registerWrite (.tf f) (4 * i) 4 v) s = .next (if s.partnerHeld [2, 5]
      then (s.arrives f).hold (.record f (4 * i) (v.toNat % 2 ^ 32)) else (s.arrives f).recordPut f (4 * i) (v.toNat % 2 ^ 32)) := by
  have hlow : ¬ 0x20 ≤ 4 * i := by omega
  have ha : 4 * i % 4 = 0 := by omega
  rw [exec_registerWrite_tf f (4 * i) 4 v hp, State.tfWrite, if_pos ⟨rfl, ha⟩, State.tfWord, if_neg hlow, partnerHeld_arrives]
  simp only [bits, Nat.pow_zero, Nat.div_one]

/-! ### The statement -/

/-- The registers that act while the pair does not take the write. -/
theorem liveAlways {s : State} (of : Fin 4) (v : BitVec 64) (hp : s.noPartner = false) :
    let x := v.toNat % 2 ^ 32
    let z := s.arrives (64 + of)
    (∀ i < 3, exec (.registerWrite (.of of) (0x50010 + 4 * i) 4 v) s = .next (z.onTime (fun t => { t with setOp := wput t.setOp i x }))) ∧
    exec (.registerWrite (.of of) 0x5001C 4 v) s = .next (z.onTime (fun t => { t with rateOp := v.setWidth 32 })) ∧
    (∀ i < 2, exec (.registerWrite (.of of) (0x50020 + 4 * i) 4 v) s = .next (z.onTime (fun t => { t with stepOp := wput t.stepOp i x }))) ∧
    exec (.registerWrite (.of of) 0x50200 4 v) s = .next (z.onRtc (fun t => { t with loadLo := v.setWidth 32 })) ∧
    exec (.registerWrite (.of of) 0x50208 4 v) s = .next (z.onRtc (fun t => { t with alarmLo := v.setWidth 32 })) ∧
    exec (.registerWrite (.of of) 0x50210 4 v) s = .next (z.onRtc (fun t => { t with alarmEn := bit x 0 })) ∧
    exec (.registerWrite (.of of) 0x50214 4 v) s =
      .next (z.onRtc (fun t => { t with fired := t.fired && !bit x 0, past := t.past && !bit x 1 })) := by
  refine ⟨fun i hi => exec_liveWrite of v hp (liveAt_timeSet i hi) (by omega), ?_,
    fun i hi => exec_liveWrite of v hp (liveAt_timeStep i hi) (by omega), ?_, ?_,
    exec_liveWrite of v hp (r := .rtcCtrl) (i := 0) (j := 0) (by decide) (by decide),
    exec_liveWrite of v hp (r := .rtcStatus) (i := 0) (j := 0) (by decide) (by decide)⟩
  · rw [exec_liveWrite of v hp (r := .timeRate) (i := 0) (j := 0) (by decide) (by decide), ← ofNat_low_word]
    rfl
  · rw [exec_liveWrite of v hp (r := .rtcCountLo) (i := 0) (j := 0) (by decide) (by decide), ← ofNat_low_word]
    rfl
  · rw [exec_liveWrite of v hp (r := .rtcAlarmLo) (i := 0) (j := 0) (by decide) (by decide), ← ofNat_low_word]
    rfl

/-- RAIL_STATUS clears by writing 1. -/
theorem rails_cleared {s : State} (of : Fin 4) (v : BitVec 64) (hp : s.noPartner = false) :
    Gives (.registerWrite (.of of) 0x8000C 4 v) s (fun t => ∀ i < 6, s.supply.rails < 2 ^ 6 →
      bit t.supply.rails i = (bit s.supply.rails i && !bit (v.toNat % 2 ^ 32) i)) := by
  refine ⟨_, exec_liveWrite of v hp (r := .railStatus) (i := 0) (j := 0) (by decide) (by decide), fun i hi hr => ?_⟩
  have hrails := (wakeKept_arrives s (64 + of)).rails
  rw [← bit_sub_land hr hi]
  have hlow : bits (v.toNat % 2 ^ 32) 0 6 = v.toNat % 2 ^ 32 % 2 ^ 6 := by simp [bits]
  rw [← hlow, ← hrails]
  rfl

/-- Settles O16: each register by its equation, in the state that the write arrived in. -/
theorem liveRegistersTakeTheirWriteAtOnce : Obligations.LiveRegistersTakeTheirWriteAtOnce := by
  unfold Obligations.LiveRegistersTakeTheirWriteAtOnce
  refine ⟨fun s of v hp => ?_, fun s f i v hi hp => ⟨fun hh => ?_, fun hh => ?_⟩⟩
  · extract_lets x z
    obtain ⟨hset, hrate, hstep, hcount, halarm, hctrl, hstat⟩ := liveAlways of v hp
    have hz (l : List Nat) (f : OfSt → OfSt) : (z.setOf of f).partnerHeld l = z.partnerHeld l := rfl
    refine ⟨hset, hrate, hstep, hcount, halarm, hctrl, hstat, rails_cleared of v hp,
      fun i hi j hj => ⟨_, exec_liveWrite of v hp (liveAt_txData i hi j hj) (by omega), slot_written s _ i _⟩,
      fun i hi => ⟨_, exec_liveWrite of v hp (liveAt_txLen i hi) (by omega), ?_⟩,
      gives_ofWrite of v hp (r := .commitView) (i := 0) (j := 0) (by decide) (by decide) (fun _ => rfl),
      gives_ofWrite of v hp (r := .rxFnSel) (i := 0) (j := 0) (by decide) (by decide) (fun _ => ?_),
      gives_ofWrite of v hp (r := .tetherPeerSel) (i := 0) (j := 0) (by decide) (by decide) (fun _ => ?_),
      gives_ofWrite of v hp (r := .logRowSel) (i := 0) (j := 0) (by decide) (by decide) (fun _ => ?_),
      ⟨_, exec_liveWrite_double of v hp (r := .fwAddrLo) (i := 0) (j := 0) (q := .fwAddrHi) (k := 0) (l := 0) (by decide) (by decide)
        (by decide), ?_⟩,
      gives_ofWrite of v hp (r := .fwLen) (i := 0) (j := 0) (by decide) (by decide) (fun _ => ?_), fun hh i hi => ?_, fun hh => ?_⟩
    · have hlen : z.liveWrite of .tetherTxLen i 0 (0x88120 + 0x40 * i) x = z.setSlot i (fun y => { y with len := x % 64 }) :=
        congrArg (fun c => z.setSlot i (fun y => { y with len := c })) (bits_zero x 6)
      exact hlen ▸ slot_written s (64 + of) i (fun y => { y with len := x % 64 })
    · exact congrArg (fun c => State.setOf _ of (fun o => { o with rxFnSel := c })) (bits_zero _ 7)
    · exact congrArg (fun c => State.setOf _ of (fun o => { o with peerSel := c })) (bits_zero _ 6)
    · exact congrArg (fun c => State.setOf _ of (fun o => { o with rowSel := c })) (bits_zero _ 15)
    · refine ofTo_congr (ofTo_trans (ofTo_setOf _ of _) (ofTo_setOf _ of _)) ?_
      exact congrArg (fun c => { z.of of with fwAddr := c }) (join_halves _ v)
    · exact congrArg (fun c => State.setOf _ of (fun o => { o with fwLen := c })) (bits_zero _ 25)
    · rw [exec_engTake of v hp (liveAt_flowKey i hi) (by omega) (writeIslands_mgmt (by omega)) (fun _ _ => rfl), hh, if_pos rfl]
    · refine ⟨fun c hc => ?_, fun i hi => ?_, ?_, fun i hi => ?_,
        gives_ofTake of v hp (r := .tallySel) (i := 0) (j := 0) (by decide) (by decide) (by decide) (fun _ _ => rfl) hh (fun t => ?_),
        ⟨_, exec_liveWrite_double of v hp (r := .snapAddrLo) (i := 0) (j := 0) (q := .snapAddrHi) (k := 0) (l := 0) (by decide) (by decide)
          (by decide), ?_⟩,
        gives_ofTake of v hp (r := .snapLen) (i := 0) (j := 0) (by decide) (by decide) (by decide) (fun _ _ => rfl) hh (fun t => ?_)⟩
      · have hw : z.liveWrite of .loStatus c 0 (0x78100 + 0x40 * c) x =
            if bit x 3 then z.setChan c (fun y => { y with tripped := false }) else z := by
          have heng := engWrite_loStatus z of x (liveAt_loStatus c hc)
          have htake : z.engTake of (0x78100 + 0x40 * c) x = z.engWrite of (0x78100 + 0x40 * c) x := by
            rw [engTake_eq _ _ (writeIslands_mgmt (by omega)), partnerHeld_arrives, hh, if_neg (by decide)]
          rw [← heng]
          by_cases h4 : c = 4
          · exact if_pos h4
          · exact (if_neg h4).trans htake
        refine ⟨_, exec_liveWrite of v hp (liveAt_loStatus c hc) (by omega), ?_⟩
        obtain ⟨hkeep, hsame, hother⟩ := tripped_cleared z c (bit x 3) _ hw
        exact ⟨hkeep, by rw [hsame, chan_arrives], fun k hk => by rw [hother k hk, chan_arrives]⟩
      · rw [exec_engTake of v hp (liveAt_flowKey i hi) (by omega) (writeIslands_mgmt (by omega)) (fun _ _ => rfl), hh, if_neg (by decide),
          engWrite_flowKey _ _ _ (liveAt_flowKey i hi)]
      · rw [exec_engTake of v hp (r := .flowAction) (i := 0) (j := 0) (by decide) (by decide) (by decide) (fun _ _ => rfl), hh,
          if_neg (by decide), engWrite_flowAction (i := 0) (j := 0) _ _ _ (by decide)]
      · rw [exec_engTake of v hp (liveAt_mbxRequest i hi) (by omega) (writeIslands_mgmt (by omega)) (fun _ _ => rfl), hh, if_neg (by decide),
          engWrite_mbxRequest _ _ _ (liveAt_mbxRequest i hi)]
      · rw [engWrite_own (r := .tallySel) (i := 0) (j := 0) _ _ _ (by decide) (.inl rfl)]
        simp only [OfSt.written, bits, x, Nat.pow_zero, Nat.div_one]
        rw [Nat.mod_eq_of_lt (a := _ / 2 ^ 16) (by omega)]
        rfl
      · have hlo : z.engTake of 0x60010 x = z.setOf of (fun o => o.written .snapAddrLo x) := by
          rw [engTake_eq _ _ (by decide), partnerHeld_arrives, hh, if_neg (by decide),
            engWrite_own (r := .snapAddrLo) (i := 0) (j := 0) _ _ _ (by decide) (.inr (.inl rfl))]
        have hhi (t : State) (ht : t.partnerHeld [5] = false) (y : Nat) :
            t.engTake of 0x60014 y = t.setOf of (fun o => o.written .snapAddrHi y) := by
          rw [engTake_eq _ _ (by decide), ht, if_neg (by decide),
            engWrite_own (r := .snapAddrHi) (i := 0) (j := 0) _ _ _ (by decide) (.inr (.inr (.inl rfl)))]
        have hw : (z.engTake of 0x60010 x).engTake of 0x60014 (v.toNat / 2 ^ 32) =
            (z.setOf of (fun o => o.written .snapAddrLo x)).setOf of (fun o => o.written .snapAddrHi (v.toNat / 2 ^ 32)) := by
          rw [hlo, hhi _ (by rw [hz, partnerHeld_arrives, hh])]
        refine ofTo_congr (hw ▸ ofTo_trans (ofTo_setOf z of _) (ofTo_setOf _ of _)) ?_
        exact congrArg (fun c => { z.of of with snapAddr := c }) (join_halves_aligned _ v)
      · rw [engWrite_own (r := .snapLen) (i := 0) (j := 0) _ _ _ (by decide) (.inr (.inr (.inr rfl)))]
        exact congrArg (fun c => State.setOf _ of (fun o => { o with snapLen := c })) (bits_zero _ 24)
  · rw [exec_tfRecord f v hi hp, hh, if_neg (by decide)]
  · rw [exec_tfRecord f v hi hp, hh, if_pos rfl]

end Sys2Proof.Proofs
end

section
/-! Entries by command and their end, and Idle (R286, R293, R298 to R301, 13_islands_and_power_states). -/
namespace Sys2Proof.Proofs
open Sys2Proof Sys2Proof.Machine Sys2Proof.Laws
set_option Elab.async false -- one thread, within the memory of the check

/-! ### A power command has arrived -/

/-- The state in which a power command acts: it has arrived, and PWR_CMD reads its action. -/
def pwrWritten (s : State) (k : Nat) : State := (s.arrives 64).wrote 0x2004 k

@[simp] theorem pwrWritten_pair (s : State) (k : Nat) : (pwrWritten s k).pair = s.pair := arrives_pair s 64

@[simp] theorem pwrWritten_transition (s : State) (k : Nat) : (pwrWritten s k).transition = s.transition := arrives_transition s 64

/-- The stamp rests on device time, the RTC and whether CORE runs. -/
theorem time64_of {s t : State} (h : t.time = s.time) (hr : t.rtc = s.rtc) (hc : t.coreRuns = s.coreRuns) : t.time64 = s.time64 := by
  simp only [State.time64, State.rtcTime, h, hr, hc]

theorem coreRuns_arrives_awake {s : State} (f : Nat) (h : s.power.mode = .run ∨ s.power.mode = .idle) :
    (s.arrives f).coreRuns = s.coreRuns := by
  rcases h with h | h
  · rw [arrives_run f h]
  · rw [arrives_idle f h]
    simp [State.endIdle, State.coreRuns, h]

theorem time64_arrives_awake {s : State} (f : Nat) (h : s.power.mode = .run ∨ s.power.mode = .idle) : (s.arrives f).time64 = s.time64 :=
  time64_of (keeps_arrives s f .time (by decide)) (keeps_arrives s f .rtc (by decide)) (coreRuns_arrives_awake f h)

theorem pwrWritten_time64 {s : State} (k : Nat) (h : s.power.mode = .run ∨ s.power.mode = .idle) : (pwrWritten s k).time64 = s.time64 :=
  time64_arrives_awake 64 h

/-- In Run and Idle it acts in Run, and nothing else of the power state that the entry asks for has changed. -/
theorem power_arrives_awake {s : State} (f : Nat) (h : s.power.mode = .run ∨ s.power.mode = .idle) :
    (s.arrives f).power.mode = .run ∧ (s.arrives f).power.pendCmd = s.power.pendCmd ∧ (s.arrives f).power.domain = s.power.domain ∧
      (s.arrives f).supply = s.supply := by
  rcases h with h | h
  · rw [arrives_run f h]
    exact ⟨h, rfl, rfl, rfl⟩
  · rw [arrives_idle f h]
    simp [State.endIdle, h]

/-- A wake leaves the mode, or begins an exit. -/
theorem mode_registerWake (s : State) (src det : Nat) :
    (s.registerWake src det).power.mode = s.power.mode ∨ (s.registerWake src det).power.mode = .exiting := by
  have hveto (w : Wake) : (s.vetoWake w).power.mode = s.power.mode := congrArg PowerSt.mode ((did_vetoWake s w).keeps .power (by decide))
  unfold State.registerWake
  extract_lets w
  split
  · exact .inl rfl
  · split
    · split
      · exact .inl rfl
      · exact .inl rfl
    · split
      · exact .inr rfl
      · exact .inl rfl
    · split
      · exact .inr rfl
      · exact .inl rfl
    · split
      · exact .inl rfl
      · exact .inl rfl
    · split
      · exact .inl (hveto w)
      · exact .inl rfl
    · split
      · exact .inl (hveto w)
      · exact .inl rfl
    · exact .inl rfl

theorem mode_partnerWake (s : State) (f : Nat) :
    (s.partnerWake f).power.mode = s.power.mode ∨ (s.partnerWake f).power.mode = .exiting := by
  unfold State.partnerWake
  split
  · exact mode_registerWake s _ _
  · exact mode_registerWake s _ _
  · exact .inl rfl

/-- In any other mode it acts in none of Run, Idle and Off. -/
theorem mode_arrives_busy {s : State} (f : Nat)
    (h : s.power.mode = .entering ∨ s.power.mode = .sleep ∨ s.power.mode = .deepSleep ∨ s.power.mode = .exiting) :
    (s.arrives f).power.mode ≠ .run ∧ (s.arrives f).power.mode ≠ .idle ∧ (s.arrives f).power.mode ≠ .off := by
  have hwake : (s.partnerWake f).power.mode ≠ .run ∧ (s.partnerWake f).power.mode ≠ .idle ∧ (s.partnerWake f).power.mode ≠ .off := by
    rcases mode_partnerWake s f with hw | hw
    · rw [hw]
      rcases h with h | h | h | h <;> simp [h]
    · simp [hw]
  rw [State.arrives, endIdle_awake _ hwake.2.1]
  exact hwake

/-! ### The AO budget -/

/-- The set-up fields rest on the active words. -/
theorem field_active {s t : State} (h : t.setup.active = s.setup.active) (off lo n : Nat) : t.field off lo n = s.field off lo n := by
  simp only [State.field, State.activeWord, h]

theorem active_of {s t : State} (hp : t.pair = s.pair) : t.active = s.active := by
  simp only [State.active, hp]

theorem eng_of {s t : State} (hp : t.pair = s.pair) (e : Eng) : t.eng e = s.eng e := by
  cases e
  · exact congrArg PairSt.a hp
  · exact congrArg PairSt.b hp

/-- The estimate rests on the active set-up and on the pair. -/
theorem aoEstimate_congr {s t : State} (h : t.setup.active = s.setup.active) (hp : t.pair = s.pair) (x : Int) :
    t.aoEstimate x = s.aoEstimate x := by
  have hoff : t.pwrCtrlDeepStandbyOff = s.pwrCtrlDeepStandbyOff := field_active h _ _ _
  have hstand : t.standbyOff = s.standbyOff := by rw [State.standbyOff, State.standbyOff, hp, hoff]
  have hret : t.engineRet = s.engineRet := by
    simp only [State.engineRet, State.retSetHamperGroups, State.retSetPort0, State.retSetPort1, State.retSetSched, field_active h]
  have hother : t.otherRet = s.otherRet := by
    unfold State.otherRet
    rw [active_of hp, hret, hstand]
    simp only [eng_of hp]
  have hmargin : t.aoBudgetTempMargin = s.aoBudgetTempMargin := field_active h _ _ _
  rw [State.aoEstimate, State.aoEstimate, hret, hother, hmargin]

theorem aoBudgetUa_congr {s t : State} (h : t.setup.active = s.setup.active) : t.aoBudgetUa = s.aoBudgetUa := by
  simp only [State.aoBudgetUa, field_active h]

/-! ### The start of an entry -/

theorem flags_ledger {s₀ s : State} (h : Flags s₀ s) : Flags s₀ s.ledger := by
  unfold State.ledger
  generalize List.range 9 = l
  induction l generalizing s with
  | nil => exact h
  | cons k r ih => exact ih (flags_logRow _ h)

/-- An entry begins at e. -/
theorem power_beginEntry (s : State) (m : PwrMode) : (s.beginEntry m).power =
    { s.power with mode := .entering, target := some m, entryAt := s.time64,
                   latched := if s.tether.group then s.tether.heldWake else none, pendCmd := none } := by
  unfold State.beginEntry
  extract_lets s1
  split
  · refine (foldl_keeps (g := State.power) (fun t p => ?_) _ s1).trans rfl
    split
    · exact keeps_setWatchLane t p _ .power (by decide)
    · rfl
  · exact (flags_parts (flags_ledger (flags_refl s1))).2.2.2.2.2.2.2.2.2.2.2.2.2.2.2.2.2.1

/-- The ledger's entry leaves the AO check's result. -/
theorem supply_beginEntry (s : State) (m : PwrMode) : (s.beginEntry m).supply.sans = s.supply.sans := by
  unfold State.beginEntry
  extract_lets s1
  split
  · refine (foldl_keeps (g := fun t => t.supply.sans) (fun t p => ?_) _ s1).trans rfl
    split
    · exact congrArg SupplySt.sans (keeps_setWatchLane t p _ .supply (by decide))
    · rfl
  · exact (flags_ledger (flags_refl s1)).supply

theorem refused_beginEntry (s : State) (m : PwrMode) : (s.beginEntry m).supply.refused = s.supply.refused :=
  (congrArg SupplySt.refused (supply_beginEntry s m) : (s.beginEntry m).supply.sans.refused = s.supply.sans.refused)

theorem lastEst_beginEntry (s : State) (m : PwrMode) : (s.beginEntry m).supply.lastEst = s.supply.lastEst :=
  (congrArg SupplySt.lastEst (supply_beginEntry s m) : (s.beginEntry m).supply.sans.lastEst = s.supply.sans.lastEst)

/-! ### What an entry answers (R299) -/

/-- A refusal, with the reason. -/
theorem enter_refused {s : State} {m : PwrMode} {why : Nat} (x : Int) (hoff : s.power.mode ≠ .off) (h : s.entryReason m = why)
    (hne : why ≠ 0) : (s.enter m x).1 = s.entryRefused why := by
  simp only [State.enter, if_neg hoff, h, if_pos hne]

/-- An entry that no reason refuses goes to the AO budget, waits for the pair, or begins. -/
theorem enter_taken {s : State} {m : PwrMode} (x : Int) (hoff : s.power.mode ≠ .off) (h : s.entryReason m = 0) (hm : m ≠ .deepSleep) :
    (s.enter m x).1 = if s.transition then s.onPower (fun p => { p with pendCmd := some m }) else s.beginEntry m := by
  simp only [State.enter, if_neg hoff, h, if_neg hm]
  by_cases ht : s.transition <;> simp [ht]

/-- What the AO check of R286 keeps of its estimate. -/
def aoKept (s : State) (e : Nat) (refused : Bool) : State :=
  s.onSupply (fun p => { p with lastEst := min e (2 ^ 15 - 1), refused := refused })

theorem aoCheck_fits {s : State} {x : Int} (h : s.aoEstimate x ≤ s.aoBudgetUa) :
    s.aoCheck x = (aoKept s (s.aoEstimate x) false, true) := by
  simp [State.aoCheck, h, aoKept]

theorem aoCheck_over {s : State} {x : Int} (h : s.aoBudgetUa < s.aoEstimate x) : s.aoCheck x =
    ((aoKept s (s.aoEstimate x) true).raise .aoBudgetRefused
      (le 4 (s.aoEstimate x) ++ le 1 (unsigned 8 (x + (s.aoBudgetTempMargin : Int)))), false) := by
  have hnot : ¬ s.aoEstimate x ≤ s.aoBudgetUa := by omega
  simp [State.aoCheck, hnot, aoKept]

/-- To Deep sleep it begins where the estimate fits the budget. -/
theorem enter_fits {s : State} {x : Int} (hoff : s.power.mode ≠ .off) (h : s.entryReason .deepSleep = 0) (ht : s.transition = false)
    (hb : s.aoEstimate x ≤ s.aoBudgetUa) :
    (s.enter .deepSleep x).1 = (aoKept s (s.aoEstimate x) false).beginEntry .deepSleep := by
  simp [State.enter, if_neg hoff, h, aoCheck_fits hb, ht]

/-- Above the budget it is refused, with both events. -/
theorem enter_over {s : State} {x : Int} (hoff : s.power.mode ≠ .off) (h : s.entryReason .deepSleep = 0)
    (hb : s.aoBudgetUa < s.aoEstimate x) : (s.enter .deepSleep x).1 = (s.aoCheck x).1.entryRefused 4 := by
  simp only [State.enter, if_neg hoff, h, aoCheck_over hb]
  rfl

/-- No reason refuses an entry in Run. -/
theorem entryReason_run {s : State} {m : PwrMode} (hm : s.power.mode = .run) (hc : s.power.pendCmd = none) (hf : s.pair.fenced = false)
    (hd : s.power.domain = false ∨ m = .off) : s.entryReason m = 0 := by
  rcases hd with hd | hd <;> simp [State.entryReason, hm, hc, hf, hd]

/-- A power command where the sled is not in Off. -/
theorem exec_pwrCmd {s : State} {c : Instr} {m : PwrMode} {k : Nat} (hc : (c = .pwrCmdSleep ∧ m = .sleep ∧ k = 1) ∨
    (c = .pwrCmdOff ∧ m = .off ∧ k = 3)) (hoff : s.power.mode ≠ .off) : exec c s = .next ((pwrWritten s k).enter m 0).1 := by
  rcases hc with ⟨rfl, rfl, rfl⟩ | ⟨rfl, rfl, rfl⟩
  · exact congrArg Host.Outcome.next (if_neg hoff)
  · exact congrArg Host.Outcome.next (if_neg hoff)

theorem exec_pwrCmdDeepSleep {s : State} (x : Int) (hoff : s.power.mode ≠ .off) :
    exec (.pwrCmdDeepSleep x) s = .next ((pwrWritten s 2).enter .deepSleep x).1 :=
  congrArg Host.Outcome.next (if_neg hoff)

/-- A power command with its target. -/
theorem exec_pwrCmd_any {s : State} {c : Instr} {m : PwrMode} {k : Nat} (hc : (c = .pwrCmdSleep ∧ m = .sleep ∧ k = 1) ∨
    ((∃ h, c = .pwrCmdDeepSleep h) ∧ m = .deepSleep ∧ k = 2) ∨ (c = .pwrCmdOff ∧ m = .off ∧ k = 3)) (hoff : s.power.mode ≠ .off) :
    ∃ x, exec c s = .next ((pwrWritten s k).enter m x).1 := by
  rcases hc with h | ⟨⟨x, rfl⟩, rfl, rfl⟩ | h
  · exact ⟨0, exec_pwrCmd (.inl h) hoff⟩
  · exact ⟨x, exec_pwrCmdDeepSleep x hoff⟩
  · exact ⟨0, exec_pwrCmd (.inr h) hoff⟩

/-- One that a reason refuses. -/
theorem gives_entryRefused {s : State} {c : Instr} {m : PwrMode} {k why : Nat} (hc : (c = .pwrCmdSleep ∧ m = .sleep ∧ k = 1) ∨
    ((∃ h, c = .pwrCmdDeepSleep h) ∧ m = .deepSleep ∧ k = 2) ∨ (c = .pwrCmdOff ∧ m = .off ∧ k = 3)) (hoff : s.power.mode ≠ .off)
    (hz : (pwrWritten s k).power.mode ≠ .off) (h : (pwrWritten s k).entryReason m = why) (hne : why ≠ 0) :
    Gives c s (Raises .pwrEntryRefused (le 1 why) (pwrWritten s k)) := by
  obtain ⟨x, hx⟩ := exec_pwrCmd_any hc hoff
  refine ⟨_, hx, ?_⟩
  rw [enter_refused x hz h hne]
  exact raise_raises _ _ _

/-- Settles O24: by the reason that refuses, the AO budget, the pair's transitions, and else the start of the entry. -/
theorem entryCommandsBeginOrAreRefused : Obligations.EntryCommandsBeginOrAreRefused := by
  unfold Obligations.EntryCommandsBeginOrAreRefused
  refine ⟨fun s c m k hc hm hp hf hd => ?_, fun s x hm hp hf hd ht => ?_, fun s c m k hc => ⟨fun hb => ?_, fun hm hp => ⟨fun hf => ?_,
    fun hf hd hne => ?_⟩, fun hoff => ?_⟩⟩
  · obtain ⟨hrun, hpend, hdom, -⟩ := power_arrives_awake 64 hm
    have hoff : s.power.mode ≠ .off := by rcases hm with h | h <;> simp [h]
    have hz : (pwrWritten s k).power.mode = .run := hrun
    have hwhy : (pwrWritten s k).entryReason m = 0 :=
      entryReason_run hz (hpend.trans hp) ((congrArg PairSt.fenced (pwrWritten_pair s k)).trans hf) (hd.imp hdom.trans id)
    have hdeep : m ≠ .deepSleep := by rcases hc with ⟨-, rfl, -⟩ | ⟨-, rfl, -⟩ <;> decide
    have hexec := (exec_pwrCmd hc hoff).trans (congrArg _ (enter_taken 0 (by simp [hz]) hwhy hdeep))
    rw [pwrWritten_transition] at hexec
    refine ⟨fun ht => ⟨(pwrWritten s k).beginEntry m, hexec.trans (congrArg _ (if_neg (by simp [ht]))), ?_⟩,
      fun ht => hexec.trans (congrArg _ (if_pos ht))⟩
    have hpow := power_beginEntry (pwrWritten s k) m
    exact ⟨by rw [hpow], by rw [hpow], by rw [hpow]; exact pwrWritten_time64 k hm, by rw [hpow]⟩
  · obtain ⟨hrun, hpend, hdom, hsup⟩ := power_arrives_awake 64 hm
    have hoff : s.power.mode ≠ .off := by rcases hm with h | h <;> simp [h]
    have hz : (pwrWritten s 2).power.mode = .run := hrun
    have hwhy : (pwrWritten s 2).entryReason .deepSleep = 0 :=
      entryReason_run hz (hpend.trans hp) ((congrArg PairSt.fenced (pwrWritten_pair s 2)).trans hf) (.inl (hdom.trans hd))
    have hset : (pwrWritten s 2).setup.active = s.setup.active := (congrArg SetupSt.active (arrives_setup s 64) :)
    have hest : (pwrWritten s 2).aoEstimate x = s.aoEstimate x := aoEstimate_congr hset (pwrWritten_pair s 2) x
    have hbud : (pwrWritten s 2).aoBudgetUa = s.aoBudgetUa := field_active hset _ _ _
    have hmar : (pwrWritten s 2).aoBudgetTempMargin = s.aoBudgetTempMargin := field_active hset _ _ _
    have hzoff : (pwrWritten s 2).power.mode ≠ .off := by simp [hz]
    refine ⟨fun hb => ?_, fun hb => ?_⟩
    · rw [← hest, ← hbud] at hb
      refine ⟨_, (exec_pwrCmdDeepSleep x hoff).trans (congrArg _ (enter_fits hzoff hwhy ((pwrWritten_transition s 2).trans ht) hb)), ?_⟩
      rw [hest]
      have hpow := power_beginEntry (aoKept (pwrWritten s 2) (s.aoEstimate x) false) .deepSleep
      refine ⟨by rw [hpow], by rw [hpow], by rw [hpow]; exact pwrWritten_time64 2 hm, ?_, ?_⟩
      · rw [refused_beginEntry]
        rfl
      · rw [lastEst_beginEntry]
        rfl
    · have hb' := hb
      rw [← hest, ← hbud] at hb
      refine ⟨_, (exec_pwrCmdDeepSleep x hoff).trans (congrArg _ (enter_over hzoff hwhy hb)), _, ?_, raise_raises _ _ _⟩
      rw [aoCheck_over hb, hest, hmar]
      exact raise_raises _ _ _
  · have hoff : s.power.mode ≠ .off := by
      rcases hb with h | h | h | h | ⟨h | h, -⟩ <;> simp [h]
    rcases or_assoc.2 (or_assoc.2 (or_assoc.2 hb)) with h | ⟨h, hp⟩
    · obtain ⟨h1, h2, h3⟩ := mode_arrives_busy 64 (or_assoc.1 (or_assoc.1 h))
      exact gives_entryRefused hc hoff h3 (if_pos (.inl ⟨h1, h2⟩)) (by decide)
    · obtain ⟨hrun, hpend, -, -⟩ := power_arrives_awake 64 h
      have hz : (pwrWritten s k).power.mode = .run := hrun
      have hsome : (pwrWritten s k).power.pendCmd.isSome = true := by
        rw [show (pwrWritten s k).power.pendCmd = s.power.pendCmd from hpend]
        exact Option.isSome_iff_ne_none.2 hp
      exact gives_entryRefused hc hoff (by simp [hz]) (if_pos (.inr hsome)) (by decide)
  · obtain ⟨hrun, hpend, hdom, -⟩ := power_arrives_awake 64 hm
    have hz : (pwrWritten s k).power.mode = .run := hrun
    have hn : (pwrWritten s k).power.pendCmd = none := hpend.trans hp
    exact gives_entryRefused hc (by rcases hm with h | h <;> simp [h]) (by simp [hz]) (by simp [State.entryReason, hz, hn, hf]) (by decide)
  · obtain ⟨hrun, hpend, hdom, -⟩ := power_arrives_awake 64 hm
    have hz : (pwrWritten s k).power.mode = .run := hrun
    have hn : (pwrWritten s k).power.pendCmd = none := hpend.trans hp
    have hd' : (pwrWritten s k).power.domain = true := hdom.trans hd
    exact gives_entryRefused hc (by rcases hm with h | h <;> simp [h]) (by simp [hz])
      (by simp [State.entryReason, hz, hn, hf, hd', hne]) (by decide)
  · rcases hc with ⟨rfl, -, -⟩ | ⟨⟨x, rfl⟩, -, -⟩ | ⟨rfl, -, -⟩ <;> exact congrArg Host.Outcome.next (if_pos hoff)

end Sys2Proof.Proofs
end

section
/-! The end of an entry (R299, R301, Table 13-2) and the start of Idle (R298). -/
namespace Sys2Proof.Proofs
open Sys2Proof Sys2Proof.Machine Sys2Proof.Laws
set_option Elab.async false -- one thread, within the memory of the check

/-! ### The islands of a mode -/

/-- The power state but for its islands. -/
def barePower (p : PowerSt) : PowerSt := { p with islands := [] }

theorem bare_islandTo (s : State) (i : Nat) (st : IslState) : barePower (s.islandTo i st).power = barePower s.power := rfl

/-- Islands that take their states one after another have them in the end, and the others stay. -/
theorem island_foldl_islandTo (st : Nat → IslState) (l : List Nat) (s : State) (i : Nat) :
    (l.foldl (fun t k => t.islandTo k (st k)) s).island i =
      if i ∈ l then { s.island i with state := st i, isolated := decide (st i ≠ .on), auto := false } else s.island i := by
  induction l generalizing s with
  | nil => rfl
  | cons k r ih =>
    rw [List.foldl_cons, ih]
    by_cases hk : i = k
    · subst hk
      simp [State.islandTo]
    · simp [State.islandTo, island_setIsland_other _ _ hk, hk]

/-- The state of an island in a mode (Table 13-2), as the entry sets it. -/
def modeIsland (s : State) (mode : PwrMode) (i : Nat) : IslState :=
  if i < 7 then s.engIsland mode (s.standbyOff && decide (s.active = some .b)) i
  else if i < 14 then s.engIsland mode (s.standbyOff && decide (s.active = some .a)) (i - 7) else s.junctionIsland mode i

theorem modeIslands_eq (s : State) (mode : PwrMode) :
    s.modeIslands mode = (List.range 20).foldl (fun t i => t.islandTo i (modeIsland s mode i)) s := rfl

theorem bare_modeIslands (s : State) (mode : PwrMode) : barePower (s.modeIslands mode).power = barePower s.power := by
  rw [modeIslands_eq]
  exact foldl_keeps (g := fun t => barePower (State.power t)) (fun t i => bare_islandTo t i _) _ s

theorem island_modeIslands (s : State) (mode : PwrMode) {i : Nat} (h : i < 20) :
    ((s.modeIslands mode).island i).state = modeIsland s mode i := by
  rw [modeIslands_eq, island_foldl_islandTo, if_pos (List.mem_range.2 h)]

theorem modeIsland_off (s : State) (i : Nat) : modeIsland s .off i = .off := by
  simp [modeIsland, State.engIsland, State.junctionIsland]

theorem modeIsland_sleep (s : State) {i : Nat} (h : i < 14) : modeIsland s .sleep i = if i % 7 = 6 then .on else .retention := by
  unfold modeIsland
  split
  · have hmod : i % 7 = i := Nat.mod_eq_of_lt (by omega)
    simp [State.engIsland, hmod]
  · have hmod : i % 7 = i - 7 := by omega
    simp [State.engIsland, hmod]

theorem modeIsland_deepSleep_ao (s : State) : modeIsland s .deepSleep 6 = .on ∧ modeIsland s .deepSleep 13 = .on := by
  simp [modeIsland, State.engIsland]

/-! ### The steps of an entry -/

/-- The state just before the islands take the states of the mode. -/
def beforeIslands (s : State) (m : PwrMode) : State :=
  let s1 := s.rxFlushAll
  match m with
  | .sleep =>
    let v := s1.freeNat 8
    (s1.useFree.onLinks (fun t => t.map (fun e => (e.1, { e.2 with l12 := e.2.up && bit v e.1 })))).netsOff
  | _ => (s1.allLinksLost.netsOff).cagesOff

theorem entrySteps_eq (s : State) (m : PwrMode) : s.entrySteps m = (beforeIslands s m).modeIslands m := by
  cases m <;> rfl

/-- They flush, take links and nets down, and leave the power state. -/
theorem did_beforeIslands (s : State) (m : PwrMode) : Does 0x1e22ffb2 s (beforeIslands s m) := by
  have hflush : Does 0x1e22ffb2 s s.rxFlushAll := does_rxFlushAll (by decide) (does_refl _ s)
  have hsleep : Does 0x1e22ffb2 s ((s.rxFlushAll.useFree.onLinks (fun t => t.map (fun e =>
      (e.1, { e.2 with l12 := e.2.up && bit (s.rxFlushAll.freeNat 8) e.1 })))).netsOff) :=
    does_netsOff (by decide) (does_onLinks (by decide) (does_useFree (by decide) hflush))
  have hother : Does 0x1e22ffb2 s ((s.rxFlushAll.allLinksLost.netsOff).cagesOff) :=
    does_cagesOff (by decide) (does_netsOff (by decide) (does_allLinksLost (by decide) hflush))
  cases m with
  | sleep => exact hsleep
  | run => exact hother
  | idle => exact hother
  | deepSleep => exact hother
  | entering => exact hother
  | exiting => exact hother
  | off => exact hother

theorem bare_entrySteps (s : State) (m : PwrMode) : barePower (s.entrySteps m).power = barePower s.power := by
  rw [entrySteps_eq, bare_modeIslands, (did_beforeIslands s m).keeps .power (by decide)]

theorem island_entrySteps (s : State) (m : PwrMode) {i : Nat} (h : i < 20) :
    ((s.entrySteps m).island i).state = modeIsland (beforeIslands s m) m i := by
  rw [entrySteps_eq, island_modeIslands _ _ h]

theorem did_entrySteps (s : State) (m : PwrMode) : Does 0x1e62ffb2 s (s.entrySteps m) := does_entrySteps (by decide) (does_refl _ s)

/-! ### The wake that an entry latched -/

theorem power_tetherQueue (s : State) (typ : Nat) (p : Bytes) : (s.tetherQueue typ p).power = s.power :=
  (does_tetherQueue (M := 0x1000000) (by decide) (does_refl _ s)).keeps .power (by decide)

theorem power_beginExit (s : State) (w : Wake) (b : Bool) : (s.beginExit w b).power =
    { s.power with mode := .exiting, exitFrom := s.power.mode, stage := 0, retry := 0, wakeSrc := w.source, wakeDet := w.detail,
                   replayed := b, wakeFrom := s.power.mode, wakeOth := w.others, wakeTime := w.stamp, latched := none,
                   replays := if b then satAdd 32 s.power.replays 1 else s.power.replays } := by
  have hpower : s.watchStop.power = s.power := (did_watchStop s).keeps .power (by decide)
  simp [State.beginExit, hpower]

/-- Without a latched wake nothing is replayed. -/
theorem power_replayLatched_none {s : State} (h : s.power.latched = none) : s.replayLatched.power = s.power := by
  simp [State.replayLatched, h]

/-- A latched wake begins the exit, with REPLAYED. -/
theorem power_replayLatched_some {s : State} {w : Wake} (h : s.power.latched = some w) : s.replayLatched.power =
    { s.power with mode := .exiting, exitFrom := s.power.mode, stage := 0, retry := 0, wakeSrc := w.source, wakeDet := w.detail,
                   replayed := true, wakeFrom := s.power.mode, wakeOth := w.others, wakeTime := w.stamp, latched := none,
                   replays := satAdd 32 s.power.replays 1 } := by
  have hexit := power_beginExit (s.onTether (fun t => { t with group := false })) w true
  simp only [State.replayLatched, h]
  split
  · rw [power_tetherQueue, hexit]
    rfl
  · rw [hexit]
    rfl

/-! ### The end of an entry -/

theorem power_raise (s : State) (e : Ev) (b : Bytes) : (s.raise e b).power = s.power :=
  (flags_raise e b (flags_refl s)).keeps .power (by decide)

/-- The sled is in Sleep or Deep sleep, and PWR_ENTERED is raised. -/
def asleep (z : State) (m : PwrMode) (b : Bytes) : State :=
  ((z.onPower (fun p => { p with mode := m, target := none })).lookoutSleep).raise .pwrEntered b

theorem power_asleep (z : State) (m : PwrMode) (b : Bytes) : (asleep z m b).power = { z.power with mode := m, target := none } := by
  have hlook := (does_lookoutSleep (M := 0x100000) (by decide) (does_refl _ (z.onPower (fun p => { p with mode := m, target := none })))).keeps
    .power (by decide)
  exact (power_raise _ _ _).trans hlook

theorem reports_asleep (z : State) (m : PwrMode) (b : Bytes) : Reports .pwrEntered b z (asleep z m b).replayLatched := by
  have hlook := (does_lookoutSleep (M := 0x100000) (by decide) (does_refl _ (z.onPower (fun p => { p with mode := m, target := none }))))
  have hreplay := does_replayLatched (M := 0x1610000) (by decide) (does_refl _ (asleep z m b))
  exact reports_of_emits (emits_after (emits_before (hlook.out : z.out <+: _) (emits_raise _ _ _)) hreplay.out)

/-- What was latched in the entry decides how it ends. -/
theorem asleep_ends (z : State) (m : PwrMode) (b : Bytes) :
    (asleep z m b).replayLatched.power.target = none ∧ (asleep z m b).replayLatched.power.islands = z.power.islands ∧
    (z.power.latched = none → (asleep z m b).replayLatched.power.mode = m ∧ (asleep z m b).replayLatched.power.latched = none) ∧
    ∀ w, z.power.latched = some w → (asleep z m b).replayLatched.power.mode = .exiting ∧ (asleep z m b).replayLatched.power.exitFrom = m ∧
      (asleep z m b).replayLatched.power.stage = 0 ∧ (asleep z m b).replayLatched.power.wakeSrc = w.source ∧
      (asleep z m b).replayLatched.power.wakeDet = w.detail ∧ (asleep z m b).replayLatched.power.wakeTime = w.stamp ∧
      (asleep z m b).replayLatched.power.replayed = true ∧
      (asleep z m b).replayLatched.power.replays = satAdd 32 z.power.replays 1 := by
  have hpower := power_asleep z m b
  cases hl : z.power.latched with
  | none =>
    have hnone : (asleep z m b).power.latched = none := by rw [hpower]; exact hl
    have hend := (power_replayLatched_none hnone).trans hpower
    rw [hend]
    exact ⟨rfl, rfl, fun _ => ⟨rfl, hl⟩, fun w hw => by simp at hw⟩
  | some w =>
    have hsome : (asleep z m b).power.latched = some w := by rw [hpower]; exact hl
    have hend := (power_replayLatched_some hsome)
    rw [hpower] at hend
    rw [hend]
    refine ⟨rfl, rfl, fun h => by simp at h, fun w' hw => ?_⟩
    obtain rfl := Option.some.inj hw
    exact ⟨rfl, rfl, rfl, rfl, rfl, rfl, rfl, rfl⟩

/-- What the entry to a sleep has done before the mode changes. -/
def fallenAsleep (s : State) (m : PwrMode) : State :=
  match m with
  | .deepSleep => ((s.entrySteps .deepSleep).recordPair.saveShutdown 3).onSupply (fun p => { p with lowPower := true })
  | _ => s.entrySteps m

theorem completeEntry_asleep {s : State} {m : PwrMode} (h : m = .sleep ∨ m = .deepSleep) :
    s.completeEntry m = (asleep (fallenAsleep s m) m (le 1 m.code ++ le 8 s.power.entryAt)).replayLatched := by
  rcases h with rfl | rfl <;> rfl

theorem did_lowPower (z : State) : Does 0x200000 z (z.onSupply (fun p => { p with lowPower := true })) :=
  does_onSupply (by decide) id (does_refl _ z)

theorem did_shutdownSaved (z : State) (cause : Nat) : Does 0xe22008a z (z.recordPair.saveShutdown cause) :=
  does_saveShutdown (by decide) (does_recordPair (by decide) (does_refl _ z))

theorem did_fallenAsleep {m : PwrMode} (s : State) (h : m = .sleep ∨ m = .deepSleep) : Does 0x1e62ffba s (fallenAsleep s m) := by
  have hsteps : Does 0x1e62ffba s (s.entrySteps m) := does_mono (did_entrySteps s m) (by decide)
  rcases h with rfl | rfl
  · exact hsteps
  · exact does_trans (does_trans hsteps (does_mono (did_shutdownSaved _ 3) (by decide))) (does_mono (did_lowPower _) (by decide))

theorem power_fallenAsleep {m : PwrMode} (s : State) (h : m = .sleep ∨ m = .deepSleep) :
    (fallenAsleep s m).power = (s.entrySteps m).power := by
  rcases h with rfl | rfl
  · rfl
  · exact ((did_lowPower _).keeps .power (by decide)).trans ((did_shutdownSaved (s.entrySteps .deepSleep) 3).keeps .power (by decide))

/-- Into Off: the shutdown record, then the mode. -/
def fallenOff (s : State) : State := ((s.entrySteps .off).recordPair.saveShutdown 2).intoOff

theorem completeEntry_off (s : State) :
    s.completeEntry .off = (fallenOff s).raise .pwrEntered (le 1 PwrMode.off.code ++ le 8 s.power.entryAt) := rfl

theorem power_intoOff (s : State) : s.intoOff.power =
    { s.power with mode := .off, target := none, pendCmd := none, newPoint := none, queued := none, stepIsl := [] } := by
  have hsave : s.writeDeferred.abandonSave.power = s.power :=
    (does_abandonSave (M := 0x1e220082) (by decide) (does_writeDeferred (by decide) (does_refl _ s))).keeps .power (by decide)
  unfold State.intoOff
  refine ((does_latchCheck (M := 0x200000) (by decide) (does_refl _ _)).keeps .power (by decide)).trans ?_
  simp [hsave]

theorem power_fallenOff (s : State) : (fallenOff s).power =
    { (s.entrySteps .off).power with mode := .off, target := none, pendCmd := none, newPoint := none, queued := none, stepIsl := [] } := by
  rw [fallenOff, power_intoOff, (did_shutdownSaved (s.entrySteps .off) 2).keeps .power (by decide)]

theorem offPower_fields {p q : PowerSt}
    (h : q = { p with mode := .off, target := none, pendCmd := none, newPoint := none, queued := none, stepIsl := [] }) :
    q.mode = .off ∧ q.target = none ∧ q.latched = p.latched ∧ q.islands = p.islands := by
  subst h
  exact ⟨rfl, rfl, rfl, rfl⟩

theorem completeEntry_off_power (s : State) : (s.completeEntry .off).power.mode = .off ∧ (s.completeEntry .off).power.target = none ∧
    (s.completeEntry .off).power.latched = (s.entrySteps .off).power.latched ∧
    (s.completeEntry .off).power.islands = (s.entrySteps .off).power.islands := by
  rw [completeEntry_off, power_raise]
  exact offPower_fields (power_fallenOff s)

theorem did_fallenOff (s : State) : Does 0x1e62ffba s (fallenOff s) :=
  does_intoOff (by decide) (does_trans (does_mono (did_entrySteps s .off) (by decide)) (does_mono (did_shutdownSaved _ 2) (by decide)))

/-- What the steps leave of the wake that the entry latched. -/
theorem latched_entrySteps (s : State) (m : PwrMode) :
    (s.entrySteps m).power.latched = s.power.latched ∧ (s.entrySteps m).power.replays = s.power.replays := by
  have h := bare_entrySteps s m
  exact ⟨(congrArg PowerSt.latched h : (barePower _).latched = (barePower _).latched),
    (congrArg PowerSt.replays h : (barePower _).replays = (barePower _).replays)⟩

theorem exec_pwrEntered {s : State} {m : PwrMode} (hm : s.power.mode = .entering) (ht : s.power.target = some m) (hn : s.transition = false) :
    exec .pwrEntered s = .next (s.completeEntry m) := by
  show execPwrEntered s = _
  simp [execPwrEntered, hm, ht, hn]

theorem island_of {s t : State} (h : t.power.islands = s.power.islands) (i : Nat) : t.island i = s.island i := by
  simp only [State.island, h]

/-- The condition of Idle is due once its window has run. -/
theorem idleDue_iff {s : State} {w : Nat × Nat} (hm : s.power.mode = .run) (hd : s.power.domain = false) (he : s.pwrCtrlIdleEn = 1)
    (ht : s.transition = false) (hf : s.pair.fenced = false) (hi : s.idleOk = true) (hw : s.power.idleSince = some w) :
    s.idleDue = true ↔ w.1 + w.2 ≤ s.time.elapsed := by
  simp [State.idleDue, State.idleMay, hm, hd, he, ht, hf, hi, hw]

/-- Settles O25: the steps of the entry leave what was latched, and set the islands; what was latched decides the end. -/
theorem entriesEndInTheirModeOrReplayTheWake : Obligations.EntriesEndInTheirModeOrReplayTheWake := by
  unfold Obligations.EntriesEndInTheirModeOrReplayTheWake
  refine ⟨fun s m hm ht hmode hn => ⟨_, exec_pwrEntered hm ht hn, ?_⟩, fun s w hm hd he ht hf hi hw => ?_⟩
  · obtain ⟨hlatched, hreplays⟩ := latched_entrySteps s m
    rcases or_assoc.2 hmode with hsleep | rfl
    · have hdid := did_fallenAsleep s hsleep
      have hpow := power_fallenAsleep s hsleep
      obtain ⟨htarget, hisl, hnone, hsome⟩ := asleep_ends (fallenAsleep s m) m (le 1 m.code ++ le 8 s.power.entryAt)
      have hisland (i : Nat) (h : i < 20) : ((s.completeEntry m).island i).state = modeIsland (beforeIslands s m) m i := by
        rw [completeEntry_asleep hsleep, island_of (hisl.trans (congrArg PowerSt.islands hpow)), island_entrySteps s m h]
      have hoff : m ≠ .off := by rcases hsleep with rfl | rfl <;> decide
      rw [hpow, hlatched] at hnone hsome
      rw [hreplays] at hsome
      refine ⟨?_, ?_, fun h => ?_, fun w hw _ => ?_, fun h => absurd h hoff, fun h => ?_, fun h i hi => ?_⟩
      · rw [completeEntry_asleep hsleep]
        obtain ⟨l, n, hl, ho⟩ := reports_asleep (fallenAsleep s m) m (le 1 m.code ++ le 8 s.power.entryAt)
        exact reports_of_emits (emits_before hdid.out ⟨l, hl, ho⟩)
      · rw [completeEntry_asleep hsleep]
        exact htarget
      · have hl := h.resolve_right hoff
        rw [completeEntry_asleep hsleep, hl]
        exact hnone hl
      · rw [completeEntry_asleep hsleep]
        exact hsome w hw
      · subst h
        rw [hisland 6 (by decide), hisland 13 (by decide)]
        exact modeIsland_deepSleep_ao _
      · subst h
        rw [hisland i (by omega), modeIsland_sleep _ hi]
    · obtain ⟨hmoff, htarget, hkept, hisl⟩ := completeEntry_off_power s
      refine ⟨?_, htarget, fun _ => ⟨hmoff, hkept.trans hlatched⟩, fun w _ h => absurd rfl h, fun _ i hi => ?_,
        fun h => by simp at h, fun h => by simp at h⟩
      · rw [completeEntry_off]
        exact reports_of_emits (emits_before (did_fallenOff s).out (emits_raise _ _ _))
      · rw [island_of hisl, island_entrySteps s _ hi, modeIsland_off]
  · refine ⟨fun h => congrArg Host.Outcome.next (if_pos ((idleDue_iff hm hd he ht hf hi hw).2 h)),
      fun h => congrArg Host.Outcome.next (if_neg fun hdue => ?_)⟩
    have := (idleDue_iff hm hd he ht hf hi hw).1 hdue
    omega

end Sys2Proof.Proofs
end

section
/-! An image copy whose body runs past its 8,192 rows, over worn ones, into the event region (R365, R368): a start writes an event row there
and so makes the copy good. -/
namespace Sys2Proof.Proofs
open Sys2Proof Sys2Proof.Machine Sys2Proof.Laws
set_option Elab.async false -- one thread, within the memory of the check

/-! ### Bytes and checks -/

theorem ofLe_le (n x : Nat) : ofLe (le n x) = x % 256 ^ n := by
  induction n generalizing x with
  | zero => simp [le, ofLe, Nat.mod_one]
  | succ n ih =>
    simp only [le, ofLe, ih, BitVec.toNat_ofNat]
    rw [show 256 ^ (n + 1) = 256 * 256 ^ n from Nat.pow_succ']
    exact Nat.mod_mul.symm

theorem length_le (n x : Nat) : (le n x).length = n := by
  induction n generalizing x with
  | zero => rfl
  | succ n ih => simp [le, ih]

theorem crcBit_lt {r : Nat} (h : r < 2 ^ 32) : crcBit (crcCode 1) r < 2 ^ 32 := by
  have hhalf : r / 2 < 2 ^ 32 := by omega
  have hxor : Nat.xor (r / 2) 0xEDB88320 < 2 ^ 32 := Nat.xor_lt_two_pow hhalf (by decide)
  show (if r % 2 = 1 then Nat.xor (r / 2) 0xEDB88320 else r / 2) < 2 ^ 32
  split
  · exact hxor
  · exact hhalf

theorem crcRun_lt (l : Bytes) {r : Nat} (h : r < 2 ^ 32) : crcRun (crcCode 1) r l < 2 ^ 32 := by
  induction l generalizing r with
  | nil => exact h
  | cons b l ih =>
    refine ih ?_
    have hb : Nat.xor r b.toNat < 2 ^ 32 := Nat.xor_lt_two_pow h (by omega)
    exact crcBit_lt (crcBit_lt (crcBit_lt (crcBit_lt (crcBit_lt (crcBit_lt (crcBit_lt (crcBit_lt hb)))))))

/-- A CRC-32 has 32 bits. -/
theorem crcFold_lt (m : Bytes) (addr alive : Nat) : crcFold 1 m addr alive < 2 ^ 32 :=
  Nat.xor_lt_two_pow (crcRun_lt _ (by decide)) (by decide)

/-- The four bytes of a row's check read it back. -/
theorem leAt_check (m : Bytes) (addr alive : Nat) : leAt (le 4 (crcFold 1 m addr alive)) 0 4 = crcFold 1 m addr alive := by
  have hslice : slice (le 4 (crcFold 1 m addr alive)) 0 4 = le 4 (crcFold 1 m addr alive) := by
    rw [slice, List.drop_zero, List.take_of_length_le (by rw [length_le])]
  rw [leAt, hslice, ofLe_le]
  exact Nat.mod_eq_of_lt (crcFold_lt m addr alive)

/-! ### Bytes of the Logbook memory -/

theorem memBytes_congr {s t : State} {a n : Nat} (h : ∀ k, a ≤ k → k < a + n → t.memByte k = s.memByte k) :
    t.memBytes a n = s.memBytes a n := by
  refine List.map_congr_left fun i hi => h _ (by omega) ?_
  have := List.mem_range.1 hi
  omega

/-- A stored string reads back at its place. -/
theorem memBytes_of_stored {s : State} {a n : Nat} {l : Bytes} (hn : l.length = n)
    (h : ∀ k, a ≤ k → k < a + n → s.memByte k = l.getD (k - a) 0) : s.memBytes a n = l := by
  subst hn
  refine List.ext_getElem (by simp [State.memBytes]) fun i hi hj => ?_
  have hget := h (a + i) (by omega) (by omega)
  simp only [State.memBytes, List.getElem_map, List.getElem_range, hget]
  rw [show a + i - a = i by omega, List.getD_eq_getElem _ _ hj]

/-! ### An event row where no event ring is made -/

/-- No event ring is made, no row is marked, and the sled is not braced: an event does nothing but write its row. -/
structure Quiet (z : State) : Prop where
  rings  : z.events.rings = []
  braced : z.supply.braced = false
  bad    : z.log.badRows = []
  rate   : z.log.rateN < 1000

/-- An event's trace, and the alert by its severity. -/
def alerted (z : State) (e : Ev) (b : Bytes) : State :=
  let s1 := z.emit (.event e.code z.time64 b)
  if z.evAlertMinSev ≤ e.severity then s1.onEvents (fun v => { v with alert := true }) else s1

theorem alerted_quiet {z : State} (h : Quiet z) (e : Ev) (b : Bytes) :
    Quiet (alerted z e b) ∧ (alerted z e b).log = z.log ∧ (alerted z e b).time = z.time := by
  obtain ⟨hrings, hbraced, hbad, hrate⟩ := h
  unfold alerted
  extract_lets s1
  split
  · exact ⟨⟨hrings, hbraced, hbad, hrate⟩, rfl, rfl⟩
  · exact ⟨⟨hrings, hbraced, hbad, hrate⟩, rfl, rfl⟩

/-- The state after an event but for its row: the row counts for the rate of R366. -/
def rung (z : State) (e : Ev) (b : Bytes) : State :=
  (alerted z e b).onLog (fun l =>
    { l with rateWin := z.second, rateN := (if z.log.rateWin = z.second then z.log.rateN else 0) + 1 })

theorem evrOne_unused {z : State} (h : z.events.rings = []) (n : Nat) (e : Ev) (b : Bytes) : evrOne z n e b = (z, []) := by
  have hu : (z.evr n).state = .unused := by
    rw [State.evr, h]
    rfl
  rw [evrOne, if_neg (by simp [hu])]

theorem evrAll_unused {z : State} (h : z.events.rings = []) (e : Ev) (b : Bytes) : evrAll z e b = (z, []) := by
  simp [evrAll, evrOne_unused h]

/-- An event's trace and its row. -/
theorem runEv_quiet {z : State} (h : Quiet z) {e : Ev} (he : e.logged = true) (b : Bytes) :
    runEv z e b = (alerted z e b, [.row (evRow z e b)]) := by
  have hall : (if e.logOnly then (alerted z e b, []) else evrAll (alerted z e b) e b) = (alerted z e b, []) := by
    rw [evrAll_unused (alerted_quiet h e b).1.rings, ite_self]
  have hrun : runEv z e b = ((if e.logOnly then (alerted z e b, []) else evrAll (alerted z e b) e b).1,
      (if e.logOnly then (alerted z e b, []) else evrAll (alerted z e b) e b).2 ++
        (if e.logged then [Eff.row (evRow z e b)] else [])) := rfl
  rw [hrun, hall, he]
  rfl

/-- The row passes the rate of R366, and is written. -/
theorem acceptRow_quiet {z : State} (h : Quiet z) (e : Ev) (b : Bytes) :
    acceptRow (alerted z e b) (evRow z e b) = (rowWrite (rung z e b) (evRow z e b), []) := by
  obtain ⟨hq, hlog, htime⟩ := alerted_quiet h e b
  have hsec : (alerted z e b).second = z.second := by rw [State.second, State.second, htime]
  have hn : (if z.log.rateWin = z.second then z.log.rateN else 0) < 1000 := by
    split
    · exact h.rate
    · decide
  have hrate : rateTest (alerted z e b) (evRow z e b) = (rung z e b, true) := by
    rw [rateTest, if_pos (show (evRow z e b).region = 2 from rfl)]
    simp only [hlog, hsec]
    rw [if_pos (.inl hn)]
    rfl
  have hbraced : (alerted z e b).supply.braced = false := hq.braced
  have hbad : (rung z e b).log.badRows = [] := (congrArg LogSt.badRows hlog).trans h.bad
  rw [acceptRow, hrate]
  simp only [hbraced, runRow, hbad]
  simp

/-- A logged event writes its row, and nothing follows from it. -/
theorem raise_quiet {z : State} (h : Quiet z) {e : Ev} (he : e.logged = true) (b : Bytes) :
    z.raise e b = rowWrite (rung z e b) (evRow z e b) := by
  have hfirst : z.raise e b = runEffs (effFuel - 1) [.row (evRow z e b)] (alerted z e b) := by
    show runEffs (effFuel - 1) ((runEv z e b).2 ++ []) (runEv z e b).1 = _
    rw [runEv_quiet h he]
    rfl
  have hsecond : runEffs (effFuel - 1) [.row (evRow z e b)] (alerted z e b) = runEffs (effFuel - 2) [] (rowWrite (rung z e b) (evRow z e b)) := by
    show runEffs (effFuel - 2) ((acceptRow (alerted z e b) (evRow z e b)).2 ++ []) (acceptRow (alerted z e b) (evRow z e b)).1 = _
    rw [acceptRow_quiet h]
    rfl
  rw [hfirst, hsecond]
  rfl

/-! ### The odd copy -/

/-- What the trailer of the odd copy holds: LOCK, GENERATION 1, a body of 1 byte, and the check of the byte 2, the region of an event row. -/
def oddTrailer : Bytes := padTo 60 (le 2 1 ++ le 1 1 ++ le 1 0 ++ le 4 1 ++ le 4 1 ++ le 8 (crcFold 3 [2] 1 1))

/-- Copy 2 with its trailer in place, 8,192 times passed over, so that its body begins at row 16,384, the first of the event region; of `n`
events the first has been written there. -/
structure Odd (n : Nat) (z : State) : Prop extends Quiet z where
  worn    : z.log.wornRows = List.replicate 8192 8192
  head    : z.region 2 = { head := n, lap := 1 }
  few     : z.log.rateN ≤ n
  blank   : z.memBytes (64 * 8191) 60 = List.replicate 60 0
  trailer : z.memBytes (64 * 16383) 60 = oddTrailer
  check   : z.memBytes (64 * 16383 + 60) 4 = le 4 (crcFold 1 oddTrailer 16383 1)
  first   : 0 < n → ∃ r, z.memBytes (64 * 16384) 60 = 2 :: r ∧ z.memBytes (64 * 16384 + 60) 4 = le 4 (crcFold 1 (2 :: r) 16384 1)

/-- It rests on the Logbook, the event rings and the brace. -/
theorem odd_congr {n : Nat} {z t : State} (h : Odd n z) (hr : t.events.rings = z.events.rings) (hs : t.supply.braced = z.supply.braced)
    (hb : t.log.badRows = z.log.badRows) (hn : t.log.rateN = z.log.rateN) (hw : t.log.wornRows = z.log.wornRows)
    (hg : t.log.regions = z.log.regions) (hm : t.log.mem = z.log.mem) : Odd n t := by
  have hbyte (a : Nat) : t.memByte a = z.memByte a := by rw [State.memByte, State.memByte, hm]
  have hbytes (a k : Nat) : t.memBytes a k = z.memBytes a k := memBytes_congr fun _ _ _ => hbyte _
  have hregion : t.region 2 = z.region 2 := by rw [State.region, State.region, hg]
  exact ⟨⟨hr.trans h.rings, hs.trans h.braced, hb.trans h.bad, hn ▸ h.rate⟩, hw.trans h.worn, hregion.trans h.head, hn ▸ h.few,
    (hbytes _ _).trans h.blank, (hbytes _ _).trans h.trailer, (hbytes _ _).trans h.check,
    fun hp => by simpa only [hbytes] using h.first hp⟩

/-- A row of the event region as it is written. -/
theorem length_circularRow (region kind lap row t64 : Nat) (body : Bytes) : (circularRow region kind lap row t64 body).length = 64 := by
  simp only [circularRow, padTo, List.length_append, length_le, List.length_take, List.length_replicate, List.length_cons, List.length_nil]
  omega

/-- The memory after a row of region 2 is written. -/
theorem memByte_rowWrite {z : State} {n : Nat} (h : z.region 2 = { head := n, lap := 1 }) {r : LogRec} (hr : r.region = 2) :
    ∃ body, ∀ k, (rowWrite z r).memByte k = if 64 * (16384 + n) ≤ k ∧ k < 64 * (16384 + n) + 64
      then (circularRow 2 r.kind 1 (16384 + n) r.time64 body).getD (k - 64 * (16384 + n)) 0 else z.memByte k := by
  refine ⟨r.body ++ le 4 (nextLogSeq z.log.logSeq), fun k => ?_⟩
  have hrow : (rowWrite z r).memByte k = Tbl.get (fun _ => 0#8) (memStore z.log.mem (64 * (regionBase r.region + (z.region r.region).head))
      (circularRow r.region r.kind (z.region r.region).lap (regionBase r.region + (z.region r.region).head) r.time64
        (if r.region = 2 then r.body ++ le 4 (nextLogSeq z.log.logSeq) else r.body))) k := rfl
  rw [hrow, get_memStore, length_circularRow, hr, h]
  rfl

/-- The first 60 bytes of an event row, of which the first is 2, and its check. -/
theorem circularRow_split (kind row t64 : Nat) (body : Bytes) : ∃ r : Bytes, (2 :: r : Bytes).length = 60 ∧
    circularRow 2 kind 1 row t64 body = (2 :: r) ++ le 4 (crcFold 1 (2 :: r) row 1) := by
  refine ⟨(le 1 kind ++ le 1 1 ++ [0]) ++ le 8 t64 ++ (padTo 48 body).take 48, ?_, rfl⟩
  simp only [padTo, List.length_append, length_le, List.length_take, List.length_replicate, List.length_cons, List.length_nil]
  omega

/-- Bytes below the event region's present head stay as they are. -/
theorem memBytes_rowWrite_below {z : State} {n : Nat} (h : z.region 2 = { head := n, lap := 1 }) {r : LogRec} (hr : r.region = 2)
    {a k : Nat} (hk : a + k ≤ 64 * (16384 + n)) : (rowWrite z r).memBytes a k = z.memBytes a k := by
  obtain ⟨body, hbyte⟩ := memByte_rowWrite h hr
  exact memBytes_congr fun i _ hi => by rw [hbyte, if_neg (by omega)]

/-- The row that is written. -/
theorem memBytes_rowWrite_at {z : State} {n : Nat} (h : z.region 2 = { head := n, lap := 1 }) {r : LogRec} (hr : r.region = 2) :
    ∃ l, (rowWrite z r).memBytes (64 * (16384 + n)) 60 = 2 :: l ∧
      (rowWrite z r).memBytes (64 * (16384 + n) + 60) 4 = le 4 (crcFold 1 (2 :: l) (16384 + n) 1) := by
  obtain ⟨body, hbyte⟩ := memByte_rowWrite h hr
  obtain ⟨l, hlen, hsplit⟩ := circularRow_split r.kind (16384 + n) r.time64 body
  rw [hsplit] at hbyte
  refine ⟨l, memBytes_of_stored hlen fun k h1 h2 => ?_, memBytes_of_stored (length_le _ _) fun k h1 h2 => ?_⟩
  · rw [hbyte, if_pos (by omega), List.getD_append _ _ _ _ (by omega)]
  · rw [hbyte, if_pos (by omega), List.getD_append_right _ _ _ _ (by omega), hlen]
    congr 1

theorem region_rowWrite {z : State} {n : Nat} (h : z.region 2 = { head := n, lap := 1 }) (hn : n < 900) {r : LogRec} (hr : r.region = 2) :
    (rowWrite z r).region 2 = { head := n + 1, lap := 1 } := by
  have hset : (rowWrite z r).region 2 = RegionSt.next (regionRows r.region) (z.region r.region) := by
    unfold rowWrite
    extract_lets h row q body
    rw [hr]
    exact get_put_same (d := fun _ => RegionSt.init) _ 2 _
  have hrows : n + 1 < regionRows 2 := by
    show n + 1 < 12288
    omega
  rw [hset, hr, h, RegionSt.next, if_pos hrows]

/-- What a row's write leaves of the Logbook and of the parts that events look at. -/
theorem rowWrite_kept (z : State) (r : LogRec) : (rowWrite z r).log.badRows = z.log.badRows ∧ (rowWrite z r).log.wornRows = z.log.wornRows ∧
    (rowWrite z r).log.rateN = z.log.rateN ∧ (rowWrite z r).events = z.events ∧ (rowWrite z r).supply = z.supply := ⟨rfl, rfl, rfl, rfl, rfl⟩

theorem log_onLog (s : State) (f : LogSt → LogSt) : (s.onLog f).log = f s.log := rfl

theorem log_rung {z : State} (h : Quiet z) (e : Ev) (b : Bytes) : (rung z e b).log =
    { z.log with rateWin := z.second, rateN := (if z.log.rateWin = z.second then z.log.rateN else 0) + 1 } := by
  have hlog := (alerted_quiet h e b).2.1
  unfold rung
  rw [log_onLog, hlog]

/-- One more event. -/
theorem odd_raise {n : Nat} {z : State} (h : Odd n z) (hn : n < 900) {e : Ev} (he : e.logged = true) (b : Bytes) : Odd (n + 1) (z.raise e b) := by
  obtain ⟨hq, hworn, hhead, hfew, hblank, htrailer, hcheck, hfirst⟩ := h
  have hlog := log_rung hq e b
  have hquiet := (alerted_quiet hq e b).1
  obtain ⟨hbad, hwornR, hrateR, hevents, hsupply⟩ := rowWrite_kept (rung z e b) (evRow z e b)
  have hregion : (rung z e b).region 2 = { head := n, lap := 1 } := by
    rw [← hhead, State.region, hlog, State.region]
  have hold {a k : Nat} (hk : a + k ≤ 64 * (16384 + n)) : (rowWrite (rung z e b) (evRow z e b)).memBytes a k = z.memBytes a k := by
    rw [memBytes_rowWrite_below hregion rfl hk]
    exact memBytes_congr fun i _ _ => by rw [State.memByte, hlog, State.memByte]
  have hrate : (rung z e b).log.rateN ≤ n + 1 := by
    rw [hlog]
    show (if z.log.rateWin = z.second then z.log.rateN else 0) + 1 ≤ n + 1
    split <;> omega
  rw [raise_quiet hq he]
  refine ⟨⟨?_, ?_, ?_, by omega⟩, ?_, region_rowWrite hregion hn rfl, by omega, ?_, ?_, ?_, fun _ => ?_⟩
  · rw [hevents]
    exact hquiet.rings
  · rw [hsupply]
    exact hquiet.braced
  · rw [hbad, hlog, hq.bad]
  · rw [hwornR, hlog, hworn]
  · rw [hold (by omega), hblank]
  · rw [hold (by omega), htrailer]
  · rw [hold (by omega), hcheck]
  · rcases Nat.eq_zero_or_pos n with rfl | hp
    · exact memBytes_rowWrite_at hregion rfl
    · rw [hold (by omega), hold (by omega)]
      exact hfirst hp

/-! ### The odd copy is good -/

theorem foldr_sortIn_replicate (n x : Nat) : (List.replicate n x).foldr sortIn [] = List.replicate n x := by
  induction n with
  | zero => rfl
  | succ n ih =>
    rw [List.replicate_succ, List.foldr_cons, ih]
    cases n with
    | zero => rfl
    | succ n => simp [List.replicate_succ, sortIn]

theorem wornOf_odd {n : Nat} {z : State} (h : Odd n z) : z.wornOf 1 = [] ∧ z.wornOf 2 = List.replicate 8192 8192 := by
  constructor
  · rw [State.wornOf, h.worn, List.filter_replicate, if_neg (by decide)]
    rfl
  · rw [State.wornOf, h.worn, List.filter_replicate, if_pos (by decide), foldr_sortIn_replicate]

/-- Each passed-over row moves a row on by one. -/
theorem pass_replicate (n : Nat) {w r : Nat} (h : w ≤ r) : (List.replicate n w).foldl (fun r w => if w ≤ r then r + 1 else r) r = r + n := by
  induction n generalizing r with
  | zero => rfl
  | succ n ih =>
    rw [List.replicate_succ, List.foldl_cons, if_pos h, ih (by omega)]
    omega

theorem back_replicate (n : Nat) {w r : Nat} (h : w ≠ r) : (List.replicate n w).foldl (fun r w => if w = r then r - 1 else r) r = r := by
  induction n with
  | zero => rfl
  | succ n ih => rw [List.replicate_succ, List.foldl_cons, if_neg h, ih]

theorem copyRow_odd {n : Nat} {z : State} (h : Odd n z) : z.copyRow 2 0 = 16384 := by
  rw [State.copyRow, (wornOf_odd h).2, pass_replicate _ (by decide)]
  rfl

theorem trailerRow_odd {n : Nat} {z : State} (h : Odd n z) : z.trailerRow 1 = 8191 ∧ z.trailerRow 2 = 16383 := by
  constructor
  · rw [State.trailerRow, (wornOf_odd h).1]
    rfl
  · rw [State.trailerRow, (wornOf_odd h).2, List.reverse_replicate, back_replicate _ (by decide)]
    rfl

theorem trailer_odd {n : Nat} {z : State} (h : Odd n z) : z.trailer 2 = oddTrailer ∧ z.trailer 1 = List.replicate 60 0 := by
  rw [State.trailer, State.trailer, (trailerRow_odd h).1, (trailerRow_odd h).2]
  exact ⟨h.trailer, h.blank⟩

theorem oddTrailer_fields : leAt oddTrailer 4 4 = 1 ∧ leAt oddTrailer 8 4 = 1 ∧ leAt oddTrailer 12 8 = crcFold 3 [2] 1 1 ∧
    bit (byteAt oddTrailer 2) 0 = true := by decide +kernel

theorem copyGen_odd {n : Nat} {z : State} (h : Odd n z) : z.copyGen 1 = 0 ∧ z.copyGen 2 = 1 := by
  rw [State.copyGen, State.copyGen, (trailer_odd h).1, (trailer_odd h).2]
  exact ⟨by decide, oddTrailer_fields.1⟩

theorem copyLen_odd {n : Nat} {z : State} (h : Odd n z) : z.copyLen 2 = 1 := by
  rw [State.copyLen, (trailer_odd h).1]
  exact oddTrailer_fields.2.1

theorem copyLock_odd {n : Nat} {z : State} (h : Odd n z) : z.copyLock 2 = true := by
  rw [State.copyLock, (trailer_odd h).1]
  exact oddTrailer_fields.2.2.2

/-- A row whose check is in place is good. -/
theorem rowGood_of {z : State} {row alive : Nat} {l : Bytes} (hb : z.log.badRows = []) (hl : z.memBytes (64 * row) 60 = l)
    (hc : z.memBytes (64 * row + 60) 4 = le 4 (crcFold 1 l row (alive % 256))) : z.rowGood row alive = true := by
  rw [State.rowGood, hb, State.rowChecks, hl, hc, leAt_check]
  simp

/-- Once an event has been written the odd copy verifies. -/
theorem copyGood_odd {n : Nat} {z : State} (h : Odd n z) (hn : 0 < n) : z.copyGood 2 = true := by
  obtain ⟨r, hrow, hcheck⟩ := h.first hn
  have hgen := (copyGen_odd h).2
  have hlen := copyLen_odd h
  have htrailer : z.rowGood (z.trailerRow 2) (z.copyGen 2) = true := by
    rw [(trailerRow_odd h).2, hgen]
    exact rowGood_of h.bad h.trailer h.check
  have hbody : z.rowGood (z.copyRow 2 0) 1 = true := by
    rw [copyRow_odd h]
    exact rowGood_of h.bad hrow hcheck
  have hbytes : z.copyBody 2 = [2] := by
    rw [State.copyBody, hlen]
    show ((z.memBytes (64 * z.copyRow 2 0) 60) ++ []).take 1 = [2]
    rw [copyRow_odd h, hrow]
    rfl
  rw [State.copyGood, htrailer, hlen, hbytes, hgen, (trailer_odd h).1, oddTrailer_fields.2.2.1]
  show (true && true && (z.rowGood (z.copyRow 2 0) 1 && true) && decide (crcFold 3 [2] (copyWord 2) (1 % 256) = crcFold 3 [2] 1 1)) = true
  rw [hbody]
  simp [copyWord]

/-- It holds no run record. -/
theorem copyWords_odd {n : Nat} {z : State} (h : Odd n z) (hn : 0 < n) : z.copyWords 2 = [] := by
  obtain ⟨r, hrow, -⟩ := h.first hn
  have hbytes : z.copyBody 2 = [2] := by
    rw [State.copyBody, copyLen_odd h]
    show ((z.memBytes (64 * z.copyRow 2 0) 60) ++ []).take 1 = [2]
    rw [copyRow_odd h, hrow]
    rfl
  rw [State.copyWords, copyLen_odd h, hbytes]
  rfl

/-! ### A start on the odd copy -/

/-- The odd copy is the first that stage 4 tries. -/
theorem imageOrder_odd {n : Nat} {z : State} (h : Odd n z) (hn : 0 < n) : ∃ l, z.imageOrder = 2 :: l := by
  have hlt : z.copyGen 1 < z.copyGen 2 := by
    rw [(copyGen_odd h).1, (copyGen_odd h).2]
    decide
  exact ⟨[1].filter z.copyGood, by rw [State.imageOrder, if_pos hlt, List.filter_cons_of_pos (copyGood_odd h hn)]⟩

/-- A set without words has no fault. -/
theorem setFault_empty (z : State) : z.setFault (imageSet []) = none := by
  rw [setFault_none]
  exact ⟨by simp [imageSet], by simp [imageSet, State.comboHits, combosOf]⟩

/-- The copy is applied, and its LOCK locks the set-up. -/
theorem imageTry_odd {n : Nat} {z : State} (h : Odd n z) (hn : 0 < n) : (z.imageTry 2).2 = true ∧ (z.imageTry 2).1.setup.lock = true := by
  have htry : z.imageTry 2 = z.imageEnds 2 (imageSet []) none := by
    rw [State.imageTry, copyWords_odd h hn]
    simp only [setFault_empty]
  rw [htry]
  simp only [State.imageEnds, copyLock_odd h, if_true]
  refine ⟨trivial, ?_⟩
  unfold State.setupLock
  split
  · next hl => exact hl
  · rw [(raise_parts _ _ _).1]
    rfl

theorem imageStage_odd {n : Nat} {z : State} (h : Odd n z) (hn : 0 < n) (h8 : n < 800) : z.imageStage.setup.lock = true := by
  have hstep {k : Nat} {t : State} (ht : Odd k t) (hk : 0 < k ∧ k < 900) (c : Nat) :
      ∃ m, 0 < m ∧ m ≤ k + 1 ∧ Odd m (if t.copyGood c then t else t.raise .setupImageFallback (le 1 c)) := by
    split
    · exact ⟨k, hk.1, by omega, ht⟩
    · exact ⟨k + 1, by omega, le_refl _, odd_raise ht hk.2 rfl _⟩
  obtain ⟨k, hk0, hk1, hk⟩ := hstep h ⟨hn, by omega⟩ 1
  obtain ⟨m, hm0, -, hm⟩ := hstep hk ⟨hk0, by omega⟩ 2
  unfold State.imageStage
  extract_lets s1 r
  have hs1 : Odd m s1 := hm
  obtain ⟨l, hl⟩ := imageOrder_odd hs1 hm0
  obtain ⟨hdone, hlock⟩ := imageTry_odd hs1 hm0
  have hr : r = s1.imageTry 2 := by
    show s1.imageRun s1.imageOrder = _
    rw [hl]
    exact if_pos hdone
  rw [hr, if_pos hdone]
  exact hlock

/-- Stages 3 and 4 of a start in which both engines pass. -/
theorem startRest_paired {z : State} (hf : z.pair.fenced = false) {test : SelfTest} (hA : test.passA = true) (hB : test.passB = true)
    (cold : Bool) : z.startRest test cold = ((((if cold
      then (z.onLog (fun l => { l with stage := 2 })).raise .pwrExited (le 4 z.wakeWord ++ le 8 z.power.wakeTime)
      else z.onLog (fun l => { l with stage := 2 })).onLog (fun l => { l with stage := 3 })).imageStage.onLog (fun l =>
        { l with stage := 4 })).fmRefresh (fun _ => false)) := by
  have hform (t : State) : t.formPair test = t := by simp [State.formPair, hA, hB]
  unfold State.startRest
  rw [hform]
  exact if_neg (by simp [hf])

theorem setup_fmRefresh (s : State) (f : Nat → Bool) : (s.fmRefresh f).setup = s.setup :=
  (does_fmRefresh (M := 0xef20082) (by decide) (does_refl _ s)).keeps .setup (by decide)

/-- So the start leaves the set-up locked. -/
theorem startRest_odd {n : Nat} {z : State} (h : Odd n z) (hn : 0 < n) (h7 : n < 700) (hf : z.pair.fenced = false) {test : SelfTest}
    (hA : test.passA = true) (hB : test.passB = true) (cold : Bool) : (z.startRest test cold).setup.lock = true := by
  have hlog (t : State) {k : Nat} (ht : Odd k t) (x : Nat) : Odd k (t.onLog (fun l => { l with stage := x })) :=
    odd_congr ht rfl rfl rfl rfl rfl rfl rfl
  obtain ⟨m, hm0, hm1, hm⟩ : ∃ m, 0 < m ∧ m ≤ n + 1 ∧ Odd m (if cold
      then (z.onLog (fun l => { l with stage := 2 })).raise .pwrExited (le 4 z.wakeWord ++ le 8 z.power.wakeTime)
      else z.onLog (fun l => { l with stage := 2 })) := by
    split
    · exact ⟨n + 1, by omega, le_refl _, odd_raise (hlog z h 2) (by omega) rfl _⟩
    · exact ⟨n, hn, by omega, hlog z h 2⟩
  have himage := imageStage_odd (hlog _ hm 3) hm0 (by omega)
  rw [startRest_paired hf hA hB, setup_fmRefresh, (onLog_parts _ _).1]
  exact himage

/-! ### A sled with the odd copy -/

/-- The odd copy's trailer row. -/
def oddRow : Bytes := oddTrailer ++ le 4 (crcFold 1 oddTrailer 16383 1)

/-- Nothing but the odd copy's trailer stands in the Logbook. -/
def oddMem : List Host.Cell := memStore [] (64 * 16383) oddRow

def oddLog (l : LogSt) : LogSt := { l with mem := oddMem, wornRows := List.replicate 8192 8192 }

/-- The sled after reset, with the odd copy. -/
def oddState : State := State.reset.onLog oddLog

theorem length_oddTrailer : oddTrailer.length = 60 := by decide +kernel

theorem memByte_oddState (k : Nat) : oddState.memByte k = if 64 * 16383 ≤ k ∧ k < 64 * 16383 + 64
    then oddRow.getD (k - 64 * 16383) 0 else 0 := by
  have hlen : oddRow.length = 64 := by
    rw [oddRow, List.length_append, length_oddTrailer, length_le]
  have hget := get_memStore [] (64 * 16383) oddRow k
  rw [hlen] at hget
  have hmem : oddState.log.mem = oddMem := by simp only [oddState, log_onLog, oddLog]
  rw [State.memByte, hmem, oddMem]
  exact hget

theorem memBytes_oddState_blank {a n : Nat} (h : a + n ≤ 64 * 16383 ∨ 64 * 16384 ≤ a) : oddState.memBytes a n = List.replicate n 0 :=
  memBytes_of_stored (List.length_replicate ..) fun k h1 h2 => by
    rw [memByte_oddState, if_neg (by omega)]
    simp

theorem odd_oddState : Odd 0 oddState := by
  have h60 := length_oddTrailer
  refine ⟨⟨rfl, rfl, rfl, by decide⟩, rfl, rfl, by decide, memBytes_oddState_blank (.inl (by decide)),
    memBytes_of_stored length_oddTrailer fun k h1 h2 => ?_, memBytes_of_stored (length_le _ _) fun k h1 h2 => ?_, fun h => absurd h (by decide)⟩
  · rw [memByte_oddState, if_pos (by omega), oddRow, List.getD_append _ _ _ _ (by omega)]
  · rw [memByte_oddState, if_pos (by omega), oddRow, List.getD_append_right _ _ _ _ (by omega), h60, Nat.sub_sub]

theorem blank_checks : crcFold 1 (List.replicate 60 0) 8191 0 ≠ 0 ∧ crcFold 1 (List.replicate 60 0) 16384 1 ≠ 0 := by decide +kernel

/-- A blank row has no check in place. -/
theorem rowGood_blank {z : State} {row alive : Nat} (hl : z.memBytes (64 * row) 60 = List.replicate 60 0)
    (hc : z.memBytes (64 * row + 60) 4 = List.replicate 4 0) (hne : crcFold 1 (List.replicate 60 0) row (alive % 256) ≠ 0) :
    z.rowGood row alive = false := by
  have hzero : leAt (List.replicate 4 0) 0 4 = 0 := by decide
  rw [State.rowGood, State.rowChecks, hl, hc, hzero, decide_eq_false hne, Bool.and_false]

/-- Neither copy is good before the event. -/
theorem copyGood_oddLog {z : State} (h : Odd 0 z) (hl : z.log = oddState.log) : z.copyGood 1 = false ∧ z.copyGood 2 = false := by
  have hblank {a n : Nat} (ha : a + n ≤ 64 * 16383 ∨ 64 * 16384 ≤ a) : z.memBytes a n = List.replicate n 0 := by
    rw [← memBytes_oddState_blank ha]
    exact memBytes_congr fun k _ _ => by rw [State.memByte, hl, State.memByte]
  have h1 : z.rowGood (z.trailerRow 1) (z.copyGen 1) = false := by
    rw [(trailerRow_odd h).1, (copyGen_odd h).1]
    exact rowGood_blank h.blank (hblank (.inl (by decide))) blank_checks.1
  have h2 : z.rowGood (z.copyRow 2 0) (z.copyGen 2) = false := by
    rw [copyRow_odd h, (copyGen_odd h).2]
    exact rowGood_blank (hblank (.inr (by decide))) (hblank (.inr (by decide))) blank_checks.2
  have hbody : (List.range ((z.copyLen 2 + 59) / 60)).all (fun k => z.rowGood (z.copyRow 2 k) (z.copyGen 2)) = false := by
    rw [copyLen_odd h]
    show (z.rowGood (z.copyRow 2 0) (z.copyGen 2) && true) = false
    rw [h2]
    rfl
  constructor
  · simp only [State.copyGood, h1, Bool.false_and]
  · simp only [State.copyGood, hbody, Bool.and_false, Bool.false_and]

/-! ### Resets and cold starts of it -/

/-- The firmware of the next slot is run where it is valid (R359). -/
theorem bootFirmware_valid {z : State} (h : (z.fwSlot z.log.next).valid z.log.minSvn = true) :
    z.bootFirmware = z.onLog (fun l => { l with running := l.next }) := by
  have hchoice : z.fwChoice = some z.log.next := if_pos h
  unfold State.bootFirmware
  extract_lets fell s1
  have hfell : ¬ fell := by
    show ¬ (z.fwSlot z.log.next).valid z.log.minSvn = false
    simp [h]
  rw [if_neg hfell]
  show (match z.fwChoice with | some n => _ | none => _) = _
  rw [hchoice]
  rfl

theorem mount_fresh {z : State} (h : z.log.logSeq = 0) : z.mount = z := if_pos h

theorem abandonSave_none {z : State} (h : z.log.saving = none) : z.abandonSave = z := by
  simp only [State.abandonSave, h]

/-- The Logbook after what a start clears. -/
def clearedLog (l : LogSt) (x : Nat) : LogSt := { (l.startCleared 0 x).saveKept with logCmd := 0, fwState := 0, fwWhy := 0, fwLast := 0 }

/-- What a sled reset leaves of the Logbook. -/
theorem log_sledCleared {z : State} (h : z.log.saving = none) (x : Nat) : (z.sledCleared x).log = clearedLog z.log x := by
  unfold State.sledCleared
  rw [abandonSave_none h]
  rfl

theorem clearedLog_kept (l : LogSt) (x : Nat) : (clearedLog l x).badRows = l.badRows ∧ (clearedLog l x).rateN = l.rateN ∧
    (clearedLog l x).wornRows = l.wornRows ∧ (clearedLog l x).regions = l.regions ∧ (clearedLog l x).mem = l.mem ∧
    (clearedLog l x).logSeq = l.logSeq ∧ (clearedLog l x).slot0 = l.slot0 ∧ (clearedLog l x).slot1 = l.slot1 ∧
    (clearedLog l x).next = l.next ∧ (clearedLog l x).minSvn = l.minSvn ∧ (clearedLog l x).bootRom = false := by
  unfold clearedLog LogSt.saveKept
  split <;> exact ⟨rfl, rfl, rfl, rfl, rfl, rfl, rfl, rfl, rfl, rfl, rfl⟩

/-- The odd copy stays through what a start clears. -/
theorem odd_cleared {z t : State} (h : Odd 0 z) {x : Nat} (hr : t.events.rings = []) (hs : t.supply.braced = z.supply.braced)
    (hl : t.log = clearedLog z.log x) : Odd 0 t := by
  obtain ⟨hbad, hrate, hworn, hregions, hmem, -⟩ := clearedLog_kept z.log x
  exact odd_congr h (hr.trans h.rings.symm) hs (by rw [hl, hbad]) (by rw [hl, hrate]) (by rw [hl, hworn]) (by rw [hl, hregions])
    (by rw [hl, hmem])

/-- A state that holds the odd copy and can start. -/
structure OddStart (z : State) : Prop extends Odd 0 z where
  saving : z.log.saving = none
  fresh  : z.log.logSeq = 0
  valid  : (z.fwSlot z.log.next).valid z.log.minSvn = true

/-- Stage 1 of a sled reset. -/
theorem odd_bootFirmware {z t : State} (h : OddStart z) {x : Nat} (hr : t.events.rings = []) (hs : t.supply.braced = z.supply.braced)
    (hl : t.log = clearedLog z.log x) : t.mount.bootFirmware = t.onLog (fun l => { l with running := l.next }) ∧
      Odd 0 (t.onLog (fun l => { l with running := l.next })) := by
  obtain ⟨-, -, -, -, -, hseq, h0, h1, hnext, hsvn, -⟩ := clearedLog_kept z.log x
  have hmount : t.mount = t := mount_fresh (by rw [hl, hseq, h.fresh])
  have hslot : (t.fwSlot t.log.next).valid t.log.minSvn = true := by
    rw [← h.valid]
    simp only [State.fwSlot, hl, h0, h1, hnext, hsvn]
  rw [hmount, bootFirmware_valid hslot]
  exact ⟨rfl, odd_congr (odd_cleared h.toOdd hr hs hl) rfl rfl rfl rfl rfl rfl rfl⟩

/-- Other parts after what a sled reset clears. -/
theorem sledCleared_parts {z : State} (h : z.log.saving = none) (x : Nat) : (z.sledCleared x).supply = z.supply.kept ∧
    (z.sledCleared x).pair = PairSt.init ∧ (z.sledCleared x).time = z.time.cleared ∧ (z.sledCleared x).events.rings = [] := by
  unfold State.sledCleared
  rw [abandonSave_none h]
  exact ⟨rfl, rfl, rfl, rfl⟩

theorem odd_onTime {n : Nat} {z : State} (h : Odd n z) (f : TimeSt → TimeSt) : Odd n (z.onTime f) :=
  odd_congr h rfl rfl rfl rfl rfl rfl rfl

/-- A change of source is an event. -/
theorem odd_setSource {n : Nat} {z : State} (h : Odd n z) (hn : n < 900) {src : TimeSource} (hs : z.time.source ≠ src) :
    Odd (n + 1) (z.setSource src) := by
  have hset : z.setSource src = (z.onTime (fun t => { t with source := src })).raise .timeSourceChanged
      (le 1 z.time.source.code ++ le 1 src.code) := if_neg hs
  rw [hset]
  exact odd_raise (odd_onTime h _) hn (e := .timeSourceChanged) rfl _

theorem source_setNow (z : State) (x : Nat) : (z.onTime (fun t => { t with now := x })).time.source = z.time.source := rfl

theorem timeRestart_eq (z : State) : z.timeRestart = (z.onTime (fun t => { t with now := z.rtcTime })).setSource .restored := by
  unfold State.timeRestart
  rfl

/-- Device time restarts with an event. -/
theorem odd_timeRestart {n : Nat} {z : State} (h : Odd n z) (hn : n < 900) (hs : z.time.source ≠ .restored) : Odd (n + 1) z.timeRestart := by
  rw [timeRestart_eq]
  exact odd_setSource (odd_onTime h _) hn (by rw [source_setNow]; exact hs)

theorem pair_setSource (z : State) (src : TimeSource) : (z.setSource src).pair = z.pair := by
  unfold State.setSource
  split
  · rfl
  · exact (flags_raise _ _ (flags_refl _)).keeps .pair (by decide)

theorem sledReset_eq (z : State) (x : Nat) (test : SelfTest) : z.sledReset x test =
    if (z.sledCleared x).mount.bootFirmware.log.bootRom then (z.sledCleared x).mount.bootFirmware
    else if z.supply.inReset then (z.sledCleared x).mount.bootFirmware.heldReset
    else (z.sledCleared x).mount.bootFirmware.timeRestart.startRest test false := by
  unfold State.sledReset
  rfl

/-- Stages 1 to 4 of a sled reset whose firmware runs. -/
theorem sledReset_booted {z u : State} {x : Nat} (hboot : (z.sledCleared x).mount.bootFirmware = u) (hrom : u.log.bootRom = false)
    (hi : z.supply.inReset = false) (test : SelfTest) : z.sledReset x test = u.timeRestart.startRest test false := by
  rw [sledReset_eq, hboot, hrom, hi, if_neg (by decide), if_neg (by decide)]

theorem pair_timeRestart (u : State) : u.timeRestart.pair = u.pair := by
  rw [timeRestart_eq, pair_setSource]
  simp only [onTime_parts]

/-- Stages 2 to 4 leave the set-up locked. -/
theorem restarted_odd {u : State} (h : Odd 0 u) (hs : u.time.source ≠ .restored) (hp : u.pair.fenced = false) {test : SelfTest}
    (hA : test.passA = true) (hB : test.passB = true) : (u.timeRestart.startRest test false).setup.lock = true := by
  have hfen : u.timeRestart.pair.fenced = false := by
    rw [pair_timeRestart]
    exact hp
  exact startRest_odd (odd_timeRestart h (by decide) hs) (by decide) (by decide) hfen hA hB false

/-- After a sled reset the set-up is locked. -/
theorem sledReset_odd {z : State} (h : OddStart z) (hi : z.supply.inReset = false) {test : SelfTest} (hA : test.passA = true)
    (hB : test.passB = true) (x : Nat) : (z.sledReset x test).setup.lock = true := by
  obtain ⟨hsupply, hpair, htime, hrings⟩ := sledCleared_parts h.saving x
  have hlog := log_sledCleared h.saving x
  have hrom := (clearedLog_kept z.log x).2.2.2.2.2.2.2.2.2.2
  rw [← hlog] at hrom
  have hbraced : (z.sledCleared x).supply.braced = z.supply.braced := by
    rw [hsupply]
    rfl
  have hsource : (z.sledCleared x).time.source ≠ .restored := by
    rw [htime]
    show TimeSource.freeRun ≠ .restored
    decide
  have hfen : (z.sledCleared x).pair.fenced = false := by
    rw [hpair]
    rfl
  obtain ⟨hboot, hodd⟩ := odd_bootFirmware h hrings hbraced hlog
  rw [sledReset_booted hboot (by rw [log_onLog]; exact hrom) hi]
  exact restarted_odd hodd hsource hfen hA hB

/-- The odd copy in a sled that can start. -/
theorem oddStart_of {z : State} (hl : z.log = oddState.log) (hr : z.events.rings = []) (hb : z.supply.braced = false) : OddStart z := by
  refine ⟨odd_congr odd_oddState hr hb (by rw [hl]) (by rw [hl]) (by rw [hl]) (by rw [hl]) (by rw [hl]), ?_, ?_, ?_⟩
  · rw [hl]
    rfl
  · rw [hl]
    rfl
  · rw [State.fwSlot, hl]
    decide

theorem bootable_odd {z : State} (hl : z.log = oddState.log) (hr : z.events.rings = []) (hb : z.supply.braced = false)
    (hi : z.supply.inReset = false) : Bootable ⟨true, true⟩ z := by
  have h := oddStart_of hl hr hb
  exact ⟨h.valid, hi, rfl, rfl, h.saving, copyGood_oddLog h.toOdd hl⟩

/-- A reset of such a sled does not end as `Restarted` says. -/
theorem not_restarted_odd {z : State} (hl : z.log = oddState.log) (hr : z.events.rings = []) (hb : z.supply.braced = false)
    (hi : z.supply.inReset = false) (x y : Nat) (w : State) : ¬ Restarted y w (z.sledReset x ⟨true, true⟩) := by
  intro hrest
  have hlock := sledReset_odd (oddStart_of hl hr hb) hi (test := ⟨true, true⟩) rfl rfl x
  rw [hrest.1] at hlock
  exact absurd hlock (by decide)

/-- Refutes O28: at the chassis reset of `oddState` the event of the change of source makes copy 2 good, and its LOCK locks the set-up. -/
theorem not_sledResetsClearSetupAndRings : ¬ Obligations.SledResetsClearSetupAndRings := by
  unfold Obligations.SledResetsClearSetupAndRings
  rintro ⟨-, hchassis, -, -⟩
  have hexec : exec (.chassisReset ⟨true, true⟩) oddState = .next (oddState.sledReset 2 ⟨true, true⟩) :=
    congrArg Host.Outcome.next (if_neg (by decide))
  obtain ⟨t, ht, hrest⟩ := hchassis oddState ⟨true, true⟩ (bootable_odd rfl rfl rfl rfl) (by decide)
  obtain rfl := Host.Outcome.next.inj (hexec.symm.trans ht)
  exact not_restarted_odd rfl rfl rfl rfl 2 2 oddState hrest

/-- The odd sled in a ready chain that has failed twice. -/
def oddExit : State := oddState.onPower (fun p => { p with mode := .exiting, stage := 0, retry := 2 })

/-- Refutes O26: at the third timeout of `oddExit` the sled reset applies copy 2, which the event of the change of source has made good. -/
theorem not_theReadyChainEndsInRun : ¬ Obligations.TheReadyChainEndsInRun := by
  unfold Obligations.TheReadyChainEndsInRun
  rintro ⟨-, -, htimeout, -⟩
  have hexec : exec (.readyTimeout ⟨true, true⟩) oddExit = .next (oddExit.sledReset 4 ⟨true, true⟩) :=
    congrArg Host.Outcome.next ((if_pos (by decide)).trans (if_neg (by decide)))
  obtain ⟨-, hthird⟩ := htimeout oddExit ⟨true, true⟩ rfl (by decide) rfl rfl
  obtain ⟨t, ht, hrest⟩ := hthird (by decide) (bootable_odd rfl rfl rfl rfl)
  obtain rfl := Host.Outcome.next.inj (hexec.symm.trans ht)
  exact not_restarted_odd rfl rfl rfl rfl 4 4 oddExit hrest

/-! ### A cold start of it -/

/-- What stage 1 asks of the Logbook, and that no engine has fenced the sled. -/
structure Sound (z : State) : Prop where
  valid  : (z.fwSlot z.log.next).valid z.log.minSvn = true
  rom    : z.log.bootRom = false
  fenced : z.pair.fenced = false

theorem sound_congr {z t : State} (h : Sound z) (h0 : t.log.slot0 = z.log.slot0) (h1 : t.log.slot1 = z.log.slot1)
    (hn : t.log.next = z.log.next) (hm : t.log.minSvn = z.log.minSvn) (hb : t.log.bootRom = z.log.bootRom)
    (hp : t.pair.fenced = z.pair.fenced) : Sound t := by
  refine ⟨?_, hb.trans h.rom, hp.trans h.fenced⟩
  rw [← h.valid]
  simp only [State.fwSlot, h0, h1, hn, hm]

theorem sound_raise {z : State} (h : Sound z) (e : Ev) (b : Bytes) : Sound (z.raise e b) := by
  have hlog := (flags_raise e b (flags_refl z)).log
  exact sound_congr h (congrArg LogSt.slot0 hlog : (z.raise e b).log.sans.slot0 = z.log.sans.slot0)
    (congrArg LogSt.slot1 hlog : (z.raise e b).log.sans.slot1 = z.log.sans.slot1)
    (congrArg LogSt.next hlog : (z.raise e b).log.sans.next = z.log.sans.next)
    (congrArg LogSt.minSvn hlog : (z.raise e b).log.sans.minSvn = z.log.sans.minSvn)
    (congrArg LogSt.bootRom hlog : (z.raise e b).log.sans.bootRom = z.log.sans.bootRom)
    (congrArg PairSt.fenced ((flags_raise e b (flags_refl z)).keeps .pair (by decide)))

/-- An event that is raised or not. -/
theorem odd_raise_if {n m : Nat} {z : State} (h : Odd n z ∧ Sound z) (hn : n < 900) (hm : n ≤ m) {c : Prop} [Decidable c] {e : Ev}
    (he : e.logged = true) (b : Bytes) : ∃ k, n ≤ k ∧ k ≤ m + 1 ∧ Odd k (if c then z.raise e b else z) ∧ Sound (if c then z.raise e b else z) := by
  split
  · exact ⟨n + 1, by omega, by omega, odd_raise h.1 hn he b, sound_raise h.2 e b⟩
  · exact ⟨n, le_refl _, by omega, h⟩

/-- The events that a cold start reports. -/
theorem odd_coldEvents {n : Nat} {z : State} (h : Odd n z ∧ Sound z) (hn : n < 800) (codes : List Nat) :
    ∃ k, n ≤ k ∧ k ≤ n + 3 ∧ Odd k (z.coldEvents codes) ∧ Sound (z.coldEvents codes) := by
  obtain ⟨k1, hk1, hm1, h1⟩ := odd_raise_if (c := 0 < z.supply.tries) h (by omega) (le_refl n) (e := .wakePinNoMains) rfl (le 4 z.supply.tries)
  obtain ⟨k2, hk2, hm2, h2⟩ := odd_raise_if (c := 0x12 ∈ codes) h1 (by omega) hm1 (e := .cellLost) rfl []
  obtain ⟨k3, hk3, hm3, h3⟩ := odd_raise_if (c := 0x13 ∈ codes) h2 (by omega) hm2 (e := .aoBrownout) rfl []
  exact ⟨k3, by omega, hm3, odd_congr h3.1 rfl rfl rfl rfl rfl rfl rfl, sound_congr h3.2 rfl rfl rfl rfl rfl rfl⟩

/-- The reason of a cold start (Table 16-2). -/
def coldReason : StartBy → Nat
  | .aoBrownout => 6
  | _ => 1

/-- A cold start until the Logbook is mounted. -/
def coldCleared (z : State) (how : StartBy) : State :=
  let s2 := (z.sledCleared (coldReason how)).onRtc (fun r => { RtcSt.init with
    count := r.savedC, latchHi := bits r.savedC 32 16, pairD := r.savedD, pairC := r.savedP, savedC := r.savedC, savedD := r.savedD, savedP := r.savedP })
  ((s2.onTime (fun t => { t with now := s2.rtcTime, valid := false })).onSupply (fun x =>
    { x with mains := true, acFail := false, braced := false, minMv := 0xFFFF, deferred := [], graceAt := none, recovery := none })).calibrated

/-- A cold start until its firmware is chosen. -/
def coldReported (z : State) (how : StartBy) : State :=
  (((coldCleared z how).mount.coldWake (z.coldCodes how) (z.power.latched.isSome && decide (0x10 ∈ z.coldCodes how))).raise
    .timeRestored []).coldEvents (z.coldCodes how)

theorem coldStart_eq (z : State) (how : StartBy) (test : SelfTest) : z.coldStart how test =
    if (coldReported z how).bootFirmware.log.bootRom then (coldReported z how).bootFirmware
    else (coldReported z how).bootFirmware.startRest test true := by
  unfold State.coldStart coldReported coldCleared coldReason
  cases how <;> rfl

/-- What of a cold start's beginning bears on the copies and the firmware. -/
theorem coldCleared_parts {z : State} (h : z.log.saving = none) (how : StartBy) :
    (coldCleared z how).log = clearedLog z.log (coldReason how) ∧ (coldCleared z how).events.rings = [] ∧
    (coldCleared z how).supply.braced = false ∧ (coldCleared z how).pair = PairSt.init := by
  obtain ⟨-, hpair, -, hrings⟩ := sledCleared_parts h (coldReason how)
  exact ⟨log_sledCleared h (coldReason how), hrings, rfl, hpair⟩

/-- The odd copy and the firmware, once a cold start has reported its events. -/
theorem odd_coldReported {z : State} (h : OddStart z) (how : StartBy) :
    ∃ k, 1 ≤ k ∧ k ≤ 4 ∧ Odd k (coldReported z how) ∧ Sound (coldReported z how) := by
  obtain ⟨hlog, hrings, hbraced, hpair⟩ := coldCleared_parts h.saving how
  obtain ⟨hbad, hrate, hworn, hregions, hmem, hseq, h0, h1, hnext, hsvn, hrom⟩ := clearedLog_kept z.log (coldReason how)
  have hmount : (coldCleared z how).mount = coldCleared z how := mount_fresh (by rw [hlog, hseq, h.fresh])
  have hodd : Odd 0 (coldCleared z how) := odd_congr h.toOdd (hrings.trans h.rings.symm) (hbraced.trans h.braced.symm) (by rw [hlog, hbad])
    (by rw [hlog, hrate]) (by rw [hlog, hworn]) (by rw [hlog, hregions]) (by rw [hlog, hmem])
  have hsound : Sound (coldCleared z how) := by
    refine ⟨?_, by rw [hlog, hrom], by rw [hpair]; rfl⟩
    rw [← h.valid]
    simp only [State.fwSlot, hlog, h0, h1, hnext, hsvn]
  have hwoken : Odd 0 ((coldCleared z how).mount.coldWake (z.coldCodes how) (z.power.latched.isSome && decide (0x10 ∈ z.coldCodes how))) ∧
      Sound ((coldCleared z how).mount.coldWake (z.coldCodes how) (z.power.latched.isSome && decide (0x10 ∈ z.coldCodes how))) := by
    rw [hmount]
    exact ⟨odd_congr hodd rfl rfl rfl rfl rfl rfl rfl, sound_congr hsound rfl rfl rfl rfl rfl rfl⟩
  exact odd_coldEvents ⟨odd_raise hwoken.1 (by decide) (e := .timeRestored) rfl [], sound_raise hwoken.2 _ _⟩ (by decide) _

/-- After a cold start the set-up is locked. -/
theorem coldStart_odd {z : State} (h : OddStart z) (how : StartBy) {test : SelfTest} (hA : test.passA = true) (hB : test.passB = true) :
    (z.coldStart how test).setup.lock = true := by
  obtain ⟨k, h1, h4, hodd, hsound⟩ := odd_coldReported h how
  rw [coldStart_eq, bootFirmware_valid hsound.valid, if_neg (by rw [log_onLog]; simp [hsound.rom])]
  have hchosen : Odd k ((coldReported z how).onLog (fun l => { l with running := l.next })) := odd_congr hodd rfl rfl rfl rfl rfl rfl rfl
  exact startRest_odd hchosen h1 (by omega) hsound.fenced hA hB true

/-- Refutes O29: at a start of `oddState` with the mains the event of the restored time makes copy 2 good, and its LOCK locks the set-up. -/
theorem not_coldStartsRestoreTimeAndReportTheCause : ¬ Obligations.ColdStartsRestoreTimeAndReportTheCause := by
  unfold Obligations.ColdStartsRestoreTimeAndReportTheCause
  rintro ⟨hstart, -⟩
  have hcan : oddState.canStart .mains = true := rfl
  have hexec : exec (.coldStart .mains ⟨true, true⟩) oddState = .next (oddState.coldStart .mains ⟨true, true⟩) :=
    congrArg Host.Outcome.next (if_pos hcan)
  obtain ⟨t, ht, -, -, -, -, -, -, -, -, -, -, hsetup, -⟩ := hstart oddState .mains ⟨true, true⟩ hcan (bootable_odd rfl rfl rfl rfl)
  obtain rfl := Host.Outcome.next.inj (hexec.symm.trans ht)
  have hlock := coldStart_odd (oddStart_of (z := oddState) rfl rfl rfl) .mains (test := ⟨true, true⟩) rfl rfl
  rw [hsetup] at hlock
  exact absurd hlock (by decide)

end Sys2Proof.Proofs
end

section
/-! Firmware bundles, the alert and the SMBus target (16_start_up_and_logbook, 18_register_map, 19_electrical_and_mechanical). -/
namespace Sys2Proof.Proofs
open Sys2Proof Sys2Proof.Machine Sys2Proof.Laws
set_option Elab.async false -- one thread, within the memory of the check

/-! ### Firmware bundles (R359, R360) -/

@[simp] theorem arrives_log (s : State) (f : Nat) : (s.arrives f).log = s.log := keeps_arrives s f .log (by decide)

@[simp] theorem arrives_host (s : State) (f : Nat) : (s.arrives f).host = s.host := keeps_arrives s f .host (by decide)

@[simp] theorem arrives_out (s : State) (f : Nat) : (s.arrives f).out = s.out := keeps_arrives s f .out (by decide)

/-- A function's link rests on the set-up. -/
theorem fnLink_congr {s t : State} (h : t.setup = s.setup) (f : Nat) : t.fnLink f = s.fnLink f := by
  unfold State.fnLink State.hlCtrlBifurcate
  rw [field_congr h]

/-- The fences rest on the set-up. -/
theorem fenceOk_congr {s t : State} (h : t.setup = s.setup) (f addr len : Nat) : t.fenceOk f addr len = s.fenceOk f addr len := by
  have hbase : t.fenceBase f = s.fenceBase f := by
    funext w
    simp only [State.fenceBase, State.fenceBaseLoBase, State.fenceBaseHiBase, field_congr h]
  have hend : t.fenceEnd f = s.fenceEnd f := by
    funext w
    simp only [State.fenceEnd, State.fenceLimitLoLimit, State.fenceLimitHiLimit, field_congr h]
  unfold State.fenceOk
  rw [hbase, hend]

theorem freeTag_congr {s t : State} (h : t.host.reads = s.host.reads) (l : Nat) : t.freeTag l = s.freeTag l := by
  simp only [State.freeTag, h]

/-- A read leaves at once with the lowest free tag where none waits. -/
theorem issueRead_at_once {s : State} {f tag : Nat} (h : s.freeTag (s.fnLink f) = some tag) (ha : s.host.asks = []) (k : ReadKind)
    (addr len : Nat) : s.issueRead f k addr len = s.sendRead { fn := f, kind := k, addr := addr, len := len } tag := by
  unfold State.issueRead
  simp [h, ha]

theorem fwStage_locked {s : State} (h : s.setup.lock = true) (n : Nat) : s.fwStage n = s.fwSet 3 5 1 := if_pos h

theorem fwActivate_locked {s : State} (h : s.setup.lock = true) : s.fwActivate = s.fwSet 3 5 2 := if_pos h

theorem fwStage_reads {s : State} {n : Nat} (hl : s.setup.lock = false) (hs : s.log.fwState ≠ 1) (hlen : (s.of n).fwLen ≤ 16777216)
    (hf : s.fenceOk (64 + n) (s.of n).fwAddr (s.of n).fwLen = true) :
    s.fwStage n = (s.fwSet 1 0 1).issueRead (64 + n) .firmware (s.of n).fwAddr (s.of n).fwLen := by
  unfold State.fwStage
  extract_lets o
  rw [if_neg (by simp [hl]), if_neg hs, if_neg (Nat.not_lt.mpr hlen), if_pos hf]

theorem fwActivate_verified {s : State} (hl : s.setup.lock = false) (h : s.log.fwState = 2) :
    s.fwActivate = s.onLog (fun l => { l with next := 1 - l.running, fwLast := 2 }) := by
  unfold State.fwActivate
  rw [if_neg (by simp [hl]), if_pos h]

/-- The slot that is written is the one that does not run. -/
theorem fwSlot_setFwSlot (s : State) (n : Nat) (x : FwSlot) : (s.setFwSlot (1 - n) x).fwSlot (if n = 0 then 1 else 0) = x := by
  unfold State.setFwSlot State.fwSlot State.onLog
  by_cases h : n = 0 <;> simp [h, show 1 - n = 0 ↔ n ≠ 0 by omega]

/-- An event leaves what the Logbook block holds of the firmware. -/
theorem raise_firmware (s : State) (e : Ev) (b : Bytes) : (s.raise e b).log.fwState = s.log.fwState ∧ (s.raise e b).log.fwWhy = s.log.fwWhy ∧
    ∀ n, (s.raise e b).fwSlot n = s.fwSlot n := by
  have hlog := (flags_raise e b (flags_refl s)).log
  have h0 : (s.raise e b).log.slot0 = s.log.slot0 := (congrArg LogSt.slot0 hlog : (s.raise e b).log.sans.slot0 = s.log.sans.slot0)
  have h1 : (s.raise e b).log.slot1 = s.log.slot1 := (congrArg LogSt.slot1 hlog : (s.raise e b).log.sans.slot1 = s.log.sans.slot1)
  exact ⟨(congrArg LogSt.fwState hlog : (s.raise e b).log.sans.fwState = s.log.sans.fwState),
    (congrArg LogSt.fwWhy hlog : (s.raise e b).log.sans.fwWhy = s.log.sans.fwWhy), fun n => by unfold State.fwSlot; rw [h0, h1]⟩

/-- A bundle that has been read is kept in the slot that does not run, with its state and its reason, and reported. -/
theorem fwVerified_status (s : State) (x : FwSlot) :
    (s.fwVerified x).log.fwState = (if x.whyBad s.log.minSvn = 0 then 2 else 3) ∧ (s.fwVerified x).log.fwWhy = x.whyBad s.log.minSvn ∧
    (s.fwVerified x).fwSlot (if s.log.running = 0 then 1 else 0) = x ∧
    Reports .fwStaged (le 1 (if x.whyBad s.log.minSvn = 0 then 2 else 3) ++ le 1 (x.whyBad s.log.minSvn)) s (s.fwVerified x) := by
  unfold State.fwVerified
  extract_lets why st
  obtain ⟨hstate, hwhy, hslot⟩ := raise_firmware (((s.setFwSlot (1 - s.log.running) x).onHost (fun h =>
    { h with reads := h.reads.filter (fun r => r.kind ≠ .firmware) })).fwSet st why s.log.fwLast) .fwStaged (le 1 st ++ le 1 why)
  rw [hstate, hwhy, hslot]
  exact ⟨rfl, rfl, fwSlot_setFwSlot s s.log.running x, reports_of_emits (emits_before (List.prefix_refl s.out) (emits_raise _ .fwStaged _))⟩

theorem exec_fwCmdStage {s : State} (hp : s.noPartner = false) (n : Fin 4) :
    exec (.fwCmdStage n) s = .next ((s.arrives (64 + n)).fwStage n) := congrArg Host.Outcome.next (if_neg (by simp [hp]))

theorem exec_fwCmdActivate {s : State} (hp : s.noPartner = false) (n : Fin 4) :
    exec (.fwCmdActivate n) s = .next (s.arrives (64 + n)).fwActivate := congrArg Host.Outcome.next (if_neg (by simp [hp]))

/-- Settles O30: the two commands by their branches, and the bundle that was read by what verifying it keeps and reports. -/
theorem firmwareIsStagedVerifiedThenActivated : Obligations.FirmwareIsStagedVerifiedThenActivated := by
  unfold Obligations.FirmwareIsStagedVerifiedThenActivated
  refine ⟨fun s n hp hl => ⟨?_, ?_⟩, fun s n tag hp hl hs hlen hf ht ha => ?_, fun s good svn line r build hs => ?_,
    fun s n hp hl hs => ?_⟩
  · rw [exec_fwCmdStage hp, fwStage_locked (by rw [arrives_setup, hl])]
    rfl
  · rw [exec_fwCmdActivate hp, fwActivate_locked (by rw [arrives_setup, hl])]
    rfl
  · have hsetup : ((s.arrives (64 + n)).fwSet 1 0 1).setup = s.setup := arrives_setup s (64 + n)
    have hhost : ((s.arrives (64 + n)).fwSet 1 0 1).host = s.host := arrives_host s (64 + n)
    have hof : (s.arrives (64 + n)).of n = s.of n := arrives_of s (64 + n) n
    refine ⟨_, exec_fwCmdStage hp n, ?_⟩
    rw [fwStage_reads (by rw [arrives_setup, hl]) (by rw [arrives_log]; exact hs) (by rw [hof]; exact hlen)
      (by rw [fenceOk_congr (arrives_setup s _), hof]; exact hf),
      issueRead_at_once (tag := tag) (by rw [freeTag_congr (congrArg HostSt.reads hhost), fnLink_congr hsetup]; exact ht) (by rw [hhost]; exact ha), hof]
    refine ⟨?_, ?_, ?_⟩
    · show { (s.arrives (64 + n)).log with fwState := 1, fwWhy := 0, fwLast := 1 } = _
      rw [arrives_log]
    · show (s.arrives (64 + n)).host.reads ++ _ = _
      rw [arrives_host]
    · show (s.arrives (64 + n)).out ++ _ = _
      rw [arrives_out]
  · exact ⟨_, congrArg Host.Outcome.next (if_pos hs), fwVerified_status s
      { good := good, svn := svn.toNat, line := line, raise := r, build := build.toNat }⟩
  · rw [exec_fwCmdActivate hp, fwActivate_verified (by rw [arrives_setup, hl]) (by rw [arrives_log, hs])]
    show _ = Host.Outcome.next ((s.arrives (64 + n)).onLog (fun l => { l with next := 1 - s.log.running, fwLast := 2 }))
    rw [← arrives_log s (64 + n)]
    rfl

/-! ### The SMBus target and the lights (R393, R397) -/

/-- The fields of a status byte. -/
theorem statusByte_fields : ∀ n < 8, ∀ a b c d e : Bool,
    let x := n + 8 * ofBool a + 16 * ofBool b + 32 * ofBool c + 64 * ofBool d + 128 * ofBool e
    (BitVec.ofNat 8 x).toNat % 8 = n ∧ (BitVec.ofNat 8 x).getLsbD 3 = a ∧ (BitVec.ofNat 8 x).getLsbD 4 = b ∧
      (BitVec.ofNat 8 x).getLsbD 5 = c ∧ (BitVec.ofNat 8 x).getLsbD 6 = d ∧ (BitVec.ofNat 8 x).getLsbD 7 = e := by
  decide

theorem smbState_lt (s : State) : s.smbState < 8 := by
  unfold State.smbState
  split
  · decide
  · split
    · decide
    · cases s.power.mode <;> decide

theorem smbRuns_of {s : State} (hm : s.power.mode ≠ .off) (hr : s.lookout.supRest = false) : s.smbRuns = true := by
  simp [State.smbRuns, hm, hr]

theorem smbAnswer_runs {s : State} (hr : s.smbRuns = true) (hb : s.log.bootRom = false) (cmd : Nat) (d : Bytes) :
    s.smbAnswer cmd d = s.emit (.smb d (smbPec cmd d)) := if_pos ⟨hr, hb⟩

theorem keeps_emit (s : State) (o : Out) : Keeps [.out] s (s.emit o) := keeps_onOut s _

/-- A free reading changes what leaves and the count of free values. -/
theorem keeps_emit_useFree (s : State) (o : Out) : Keeps [.out, .free] s (s.emit o).useFree :=
  keeps_trans (keeps_mono (keeps_emit s o) (by decide)) (keeps_mono (keeps_onFree (s.emit o) (· + 1)) (by decide))

/-- The status answers in every mode but Off. -/
theorem smbStatus_gives {s : State} (hr : s.smbRuns = true) :
    Gives .smbStatus s (fun t => Keeps [.out] s t ∧ ∃ b : BitVec 8, t.out = s.out ++ [.smb [b] (smbPec 1 [b])] ∧
      b.toNat % 8 = (if s.log.bootRom then 7 else if s.pair.fenced then 6 else s.power.mode.code) ∧
      (b.getLsbD 3 = s.alertOut) ∧ (b.getLsbD 4 = s.log.ready) ∧ (b.getLsbD 5 = decide (s.sledCode = 3)) ∧
      (b.getLsbD 6 = decide (s.events.fans ≠ 0)) ∧ (b.getLsbD 7 = s.cellBad)) :=
  ⟨_, congrArg Host.Outcome.next (if_pos hr), keeps_emit s _, BitVec.ofNat 8 s.smbStatusByte, rfl,
    statusByte_fields s.smbState (smbState_lt s) _ _ _ _ _⟩

/-- The lights pass on while the levels are not held. -/
theorem lights_now {s : State} (hl : s.pair.levels = none) (hd : s.power.mode ≠ .deepSleep) (ho : s.power.mode ≠ .off) : s.lights =
    { pwr := match s.power.mode with
        | .entering | .exiting => .green1Hz
        | .sleep => .greenHalfHz
        | _ => .green,
      pair := if s.pair.fenced then .red else if s.pair.resync.isSome then .amber1Hz else if s.paired then .green else .amber,
      attn := if s.pair.fenced then .red else if s.events.alert then .amber
        else if s.events.fans ≠ 0 ∨ s.cellBad then .amber1Hz else .off,
      lnk0 := s.portLamp 0, lnk1 := s.portLamp 1 } := by
  have hnow : s.lights = s.lightsNow := by
    unfold State.lights State.levelsOut
    rw [hl]
    rfl
  rw [hnow]
  exact (if_neg (by simp [hd, ho])).trans rfl

/-- Settles O32: the alert and the test event by their commands, the target by its answers, the lights by their table. -/
theorem theAlertAndTheSmbusTargetReportTheSled : Obligations.TheAlertAndTheSmbusTargetReportTheSled := by
  unfold Obligations.TheAlertAndTheSmbusTargetReportTheSled
  refine ⟨fun s hp => ?_, fun s hf => ?_, fun s n hp => ?_, fun s n key hp hk => ?_, fun s fan => rfl, fun s hm hr => ?_,
    fun s hl hd ho => ?_⟩
  · exact congrArg Host.Outcome.next (if_neg (by simp [hp]))
  · exact congrArg Host.Outcome.next (if_pos (by simp [State.noPartner, hf]))
  · exact ⟨_, congrArg Host.Outcome.next (if_neg (by simp [hp])), raise_raises _ _ _⟩
  · exact congrArg Host.Outcome.next ((if_neg (by simp [hp])).trans (if_neg hk))
  · have hruns := smbRuns_of hm hr
    refine ⟨smbStatus_gives hruns, fun hb => ⟨?_, ?_, ?_, ?_, ?_, ?_, ?_, fun ha => ?_, fun ha => ?_⟩⟩
    · exact congrArg Host.Outcome.next (smbAnswer_runs hruns hb _ _)
    · exact congrArg Host.Outcome.next (smbAnswer_runs hruns hb _ _)
    · exact congrArg Host.Outcome.next (smbAnswer_runs hruns hb _ _)
    · exact congrArg Host.Outcome.next (smbAnswer_runs hruns hb _ _)
    · exact congrArg Host.Outcome.next (smbAnswer_runs hruns hb _ _)
    · exact ⟨_, congrArg (fun t : State => Host.Outcome.next t.useFree) (smbAnswer_runs hruns hb _ _), keeps_emit_useFree s _, rfl⟩
    · exact ⟨_, congrArg (fun t : State => Host.Outcome.next t.useFree) (smbAnswer_runs hruns hb _ _), keeps_emit_useFree s _, rfl⟩
    · exact ⟨_, congrArg Host.Outcome.next (if_pos ⟨ha, hruns, hb⟩), keeps_emit s _, _, rfl⟩
    · exact congrArg Host.Outcome.next (if_neg (by simp [ha]))
  · rw [lights_now hl hd ho]
    refine ⟨?_, fun hm => by rw [hm], fun hf => by simp [hf], fun hf hr => ?_, fun hf hr => by simp [hf, hr], fun hf ha => by simp [hf, ha]⟩
    · cases hm : s.power.mode <;> simp_all
    · simp [hf, Option.isSome_iff_ne_none.mpr hr]

end Sys2Proof.Proofs
end

section
/-! Functions and host links: what an operation does to one function, and leaves of the others (04_host_links). -/
namespace Sys2Proof.Proofs
open Sys2Proof Sys2Proof.Machine Sys2Proof.Laws
set_option Elab.async false -- one thread, within the memory of the check

/-! ### What holds still -/

/-- Set-up, clocks, links and pair are as before, and CORE runs as before. -/
structure Base (s t : State) : Prop where
  setup : t.setup = s.setup
  time  : t.time = s.time
  rtc   : t.rtc = s.rtc
  links : t.links = s.links
  pair  : t.pair = s.pair
  runs  : t.coreRuns = s.coreRuns

theorem base_refl (s : State) : Base s s := ⟨rfl, rfl, rfl, rfl, rfl, rfl⟩

theorem base_trans {s t u : State} (h : Base s t) (k : Base t u) : Base s u :=
  ⟨k.setup.trans h.setup, k.time.trans h.time, k.rtc.trans h.rtc, k.links.trans h.links, k.pair.trans h.pair, k.runs.trans h.runs⟩

theorem time64_base {s t : State} (h : Base s t) : t.time64 = s.time64 := time64_of h.time h.rtc h.runs

/-- These and the functions are as before, but for interrupts that are pending. -/
structure Still (s t : State) : Prop extends Base s t where
  fns : ∀ k, (t.fn k).sans = (s.fn k).sans

theorem still_refl (s : State) : Still s s := ⟨base_refl s, fun _ => rfl⟩

theorem still_trans {s t u : State} (h : Still s t) (k : Still t u) : Still s u :=
  ⟨base_trans h.toBase k.toBase, fun n => (k.fns n).trans (h.fns n)⟩

theorem still_ite {c : Prop} [Decidable c] {s t u : State} (h : Still s t) (k : Still s u) : Still s (if c then t else u) := by
  split
  · exact h
  · exact k

theorem still_of_flags {s t : State} (h : Flags s t) : Still s t :=
  ⟨⟨h.keeps .setup (by decide), h.keeps .time (by decide), h.keeps .rtc (by decide), h.keeps .links (by decide), h.keeps .pair (by decide),
    flags_coreRuns h⟩, h.fns⟩

theorem still_raise (s : State) (e : Ev) (b : Bytes) : Still s (s.raise e b) := still_of_flags (flags_raise e b (flags_refl s))

theorem fn_congr {s t : State} (h : t.fns = s.fns) (k : Nat) : t.fn k = s.fn k := by simp only [State.fn, h]

/-- An operation whose mask names none of these parts. -/
theorem still_of_does {m : Nat} {s t : State} (h : Does m s t)
    (hm : ([0, 2, 3, 4, 7, 18, 21, 22, 25].all (fun i => !m.testBit i)) = true := by decide) : Still s t := by
  simp only [List.all_cons, List.all_nil, Bool.and_true, Bool.and_eq_true, Bool.not_eq_true'] at hm
  obtain ⟨h0, h2, h3, h4, h7, h18, h21, h22, h25⟩ := hm
  exact ⟨⟨h.keeps .setup h0, h.keeps .time h2, h.keeps .rtc h3, h.keeps .links h4, h.keeps .pair h18, does_coreRuns h h21 h22 h25⟩,
    fun k => congrArg FnSt.sans (fn_congr (h.keeps .fns h7) k)⟩

/-! ### What one function becomes -/

/-- Function `f` has become `q`, and every other function is as before, but for interrupts that are pending. -/
structure FnTo (f : Nat) (q : FnSt) (s t : State) : Prop extends Base s t where
  same  : (t.fn f).sans = q.sans
  other : ∀ k, k ≠ f → (t.fn k).sans = (s.fn k).sans

theorem fnTo_refl (s : State) (f : Nat) : FnTo f (s.fn f) s s := ⟨base_refl s, rfl, fun _ _ => rfl⟩

theorem fnTo_of_still {s t : State} (h : Still s t) (f : Nat) : FnTo f (s.fn f) s t := ⟨h.toBase, h.fns f, fun k _ => h.fns k⟩

theorem fnTo_trans {f : Nat} {q r : FnSt} {s t u : State} (h : FnTo f q s t) (k : FnTo f r t u) : FnTo f r s u :=
  ⟨base_trans h.toBase k.toBase, k.same, fun n hn => (k.other n hn).trans (h.other n hn)⟩

theorem fnTo_still {f : Nat} {q : FnSt} {s t u : State} (h : FnTo f q s t) (k : Still t u) : FnTo f q s u :=
  ⟨base_trans h.toBase k.toBase, (k.fns f).trans h.same, fun n hn => (k.fns n).trans (h.other n hn)⟩

theorem still_fnTo {f : Nat} {q : FnSt} {s t u : State} (h : Still s t) (k : FnTo f q t u) : FnTo f q s u :=
  fnTo_trans (fnTo_of_still h f) k

theorem fnTo_congr {f : Nat} {q r : FnSt} {s t : State} (h : FnTo f q s t) (k : q.sans = r.sans) : FnTo f r s t :=
  { h with same := h.same.trans k }

theorem fnTo_setFn (s : State) (f : Nat) (g : FnSt → FnSt) : FnTo f (g (s.fn f)) s (s.setFn f g) :=
  ⟨⟨rfl, rfl, rfl, rfl, rfl, rfl⟩, congrArg FnSt.sans (fn_setFn_same s f g), fun _ hk => congrArg FnSt.sans (fn_setFn_other s g hk)⟩

/-! ### Mailbox replies and evictions -/

/-- A function whose mailbox shows a reply. -/
def replied (q : FnSt) (f status op0 : Nat) : FnSt :=
  { q with replySeq := q.goSeq, busy := false, wait := none, reply := replyRecord f q.goOp q.goSeq status op0 }

theorem fnTo_mbxReply (s : State) (f status op0 : Nat) : FnTo f (replied (s.fn f) f status op0) s (s.mbxReply f status op0) := by
  have hshown := fnTo_setFn s f (fun n => { n with
    replySeq := (s.fn f).goSeq, busy := false, wait := none, reply := replyRecord f (s.fn f).goOp (s.fn f).goSeq status op0 })
  exact fnTo_still hshown (still_of_flags (flags_mbxReply s f status op0))

/-- A function that begins to be evicted. -/
def evicted (q : FnSt) (f cause t0 : Nat) (keep : Bool) : FnSt :=
  { (if q.busy ∧ keep = false then replied q f 0x0A 0 else q) with state := .evicting, evT0 := t0, evCause := cause }

/-- Steps 3 to 7 of an eviction leave the functions alone. -/
theorem still_evictSteps (s : State) (f : Nat) :
    Still s ((((((s.dropFrames f).quietFrames f).dropReads f).dropRings f).flowAll).abortSnap f) := by
  have hframes : Still s (s.dropFrames f) :=
    still_trans (still_of_flags (flags_countN .evictDrop 0 f (s.copiesOf f) (flags_refl s)))
      (still_of_does (does_onHamper (m := 0x2000) (by decide) (does_refl _ _)))
  exact still_trans hframes (still_of_does (m := 0x4007f02) (does_abortSnap (by decide) (does_flowAll (by decide) (does_dropRings (by decide)
    (does_dropReads (by decide) (does_quietFrames (by decide) (does_refl _ _)))))))

theorem fnTo_beginEvict (s : State) (f cause : Nat) (keep : Bool) :
    FnTo f (evicted (s.fn f) f cause s.time64 keep) s (s.beginEvict f cause keep) := by
  unfold State.beginEvict
  extract_lets s1 s2 s3
  have h1 : FnTo f (if (s.fn f).busy ∧ keep = false then replied (s.fn f) f 0x0A 0 else s.fn f) s s1 := by
    show FnTo f _ s (if (s.fn f).busy ∧ keep = false then s.mbxReply f 0x0A 0 else s)
    split
    · exact fnTo_mbxReply s f 0x0A 0
    · exact fnTo_refl s f
  have h2 := fnTo_still h1 (still_ite (c := (s.fn f).state = .checking) (still_raise s1 .fnEnrolRefused (le 1 f ++ le 1 0x0A)) (still_refl s1))
  have h3 := fnTo_trans h2 (fnTo_setFn s2 f (fun n => { n with state := .evicting, evT0 := s.time64, evCause := cause, msixPend := 0 }))
  refine fnTo_still (fnTo_congr h3 ?_) (still_evictSteps s3 f)
  exact congrArg (fun q : FnSt => { q with state := .evicting, evT0 := s.time64, evCause := cause }) h2.same

/-- A function without its mailbox's state. -/
def boxReset (q : FnSt) : FnSt := { q with replySeq := 0, busy := false, wait := none, reply := [] }

/-- A function whose presence ends. -/
def ended (q : FnSt) (f cause t0 : Nat) (reset : Bool) : FnSt :=
  match q.state with
  | .enrolled | .checking => evicted (if reset then boxReset q else q) f cause t0 false
  | .idle | .disabled => { (if reset then boxReset q else q) with state := .absent }
  | _ => if reset then boxReset q else q

theorem fnTo_mbxReset (s : State) (f : Nat) : FnTo f (boxReset (s.fn f)) s (s.mbxReset f) :=
  still_fnTo (u := s.mbxReset f) (still_of_does (m := 0x800) (t := s.dropRequest f) (does_dropRequest (by decide) (does_refl _ s)))
    (fnTo_setFn (s.dropRequest f) f boxReset)

theorem sans_inj {q r : FnSt} (h : q.sans = r.sans) : ∃ x, q = { r with msixPend := x } := by
  refine ⟨q.msixPend, ?_⟩
  cases q
  cases r
  simp_all [FnSt.sans]

/-- What an eviction makes of a function does not rest on its pending interrupts. -/
theorem evicted_congr {q r : FnSt} (h : q.sans = r.sans) (f cause t0 : Nat) (keep : Bool) :
    (evicted q f cause t0 keep).sans = (evicted r f cause t0 keep).sans := by
  obtain ⟨x, rfl⟩ := sans_inj h
  unfold evicted
  dsimp only
  split <;> rfl

theorem fnTo_endPresence (s : State) (f cause : Nat) (reset : Bool) :
    FnTo f (ended (s.fn f) f cause s.time64 reset) s (s.endPresence f cause reset) := by
  unfold State.endPresence
  extract_lets s1
  have h1 : FnTo f (if reset then boxReset (s.fn f) else s.fn f) s s1 := by
    show FnTo f _ s (if reset then s.mbxReset f else s)
    split
    · exact fnTo_mbxReset s f
    · exact fnTo_refl s f
  have hevict := fnTo_congr (fnTo_trans h1 (fnTo_beginEvict s1 f cause false)) (evicted_congr h1.same f cause _ false)
  rw [time64_base h1.toBase] at hevict
  have hgone := fnTo_congr (fnTo_trans h1 (fnTo_setFn s1 f (fun n => { n with state := .absent })))
    (r := { (if reset then boxReset (s.fn f) else s.fn f) with state := .absent })
    (congrArg (fun q : FnSt => { q with state := .absent }) h1.same)
  unfold ended
  cases hst : (s.fn f).state with
  | enrolled | checking => exact hevict
  | idle | disabled => exact hgone
  | absent | evicting | quarantined => exact h1

theorem boxReset_congr {q r : FnSt} (h : q.sans = r.sans) (reset : Bool) :
    (if reset then boxReset q else q).sans = (if reset then boxReset r else r).sans := by
  obtain ⟨x, rfl⟩ := sans_inj h
  cases reset <;> rfl

theorem ended_congr {q r : FnSt} (h : q.sans = r.sans) (f cause t0 : Nat) (reset : Bool) :
    (ended q f cause t0 reset).sans = (ended r f cause t0 reset).sans := by
  have hbox := boxReset_congr h reset
  have hst : q.state = r.state := (congrArg FnSt.state h : q.sans.state = r.sans.state)
  unfold ended
  rw [hst]
  cases r.state with
  | enrolled | checking => exact evicted_congr hbox f cause t0 false
  | idle | disabled => exact congrArg (fun q : FnSt => { q with state := .absent }) hbox
  | absent | evicting | quarantined => exact hbox

/-- A function in the state of one whose presence has ended. -/
theorem ended_of_core {f cause : Nat} {reset : Bool} {q : FnSt} {s t : State} (hst : (t.fn f).state = (ended q f cause s.time64 reset).state)
    (hcause : (t.fn f).evCause = (ended q f cause s.time64 reset).evCause) (ht0 : (t.fn f).evT0 = (ended q f cause s.time64 reset).evT0)
    (hq : q.state = (s.fn f).state) : Ended f cause s t := by
  have hstay : (if reset then boxReset q else q).state = q.state := by cases reset <;> rfl
  unfold Ended
  rw [hst, hcause, ht0, ← hq]
  unfold ended
  cases hs : q.state <;> simp [evicted, hstay, hs]

theorem ended_of {f cause : Nat} {reset : Bool} {q : FnSt} {s t : State} (h : (t.fn f).sans = (ended q f cause s.time64 reset).sans)
    (hq : q.state = (s.fn f).state) : Ended f cause s t :=
  ended_of_core (congrArg FnSt.state h : (t.fn f).sans.state = _) (congrArg FnSt.evCause h : (t.fn f).sans.evCause = _)
    (congrArg FnSt.evT0 h : (t.fn f).sans.evT0 = _) hq

/-! ### Several functions in turn -/

/-- Each function of a list has become what `g` makes of it, and every other function is as before, but for pending interrupts. -/
structure FnsTo (l : List Nat) (g : Nat → FnSt → FnSt) (s t : State) : Prop extends Base s t where
  inside  : ∀ k ∈ l, (t.fn k).sans = (g k (s.fn k)).sans
  outside : ∀ k, k ∉ l → (t.fn k).sans = (s.fn k).sans

/-- What an operation makes of one function after another, where it keeps a condition that it rests on. -/
theorem fnsTo_foldl {op : State → Nat → State} {g : Nat → FnSt → FnSt} {I : State → Prop}
    (hstep : ∀ u, I u → ∀ f, I (op u f) ∧ FnTo f (g f (u.fn f)) u (op u f))
    (hg : ∀ f q r, q.sans = r.sans → (g f q).sans = (g f r).sans) {l : List Nat} (hl : l.Nodup) {s : State} (hs : I s) :
    FnsTo l g s (l.foldl op s) := by
  induction l generalizing s with
  | nil => exact ⟨base_refl s, fun k hk => absurd hk List.not_mem_nil, fun _ _ => rfl⟩
  | cons f r ih =>
    obtain ⟨hf, hr⟩ := List.nodup_cons.mp hl
    obtain ⟨hI, hone⟩ := hstep s hs f
    have hrest := ih hr hI
    refine ⟨base_trans hone.toBase hrest.toBase, fun k hk => ?_, fun k hk => ?_⟩
    · rcases List.mem_cons.mp hk with rfl | hk
      · exact (hrest.outside k hf).trans hone.same
      · have hne : k ≠ f := fun h => hf (h ▸ hk)
        exact (hrest.inside k hk).trans (hg k _ _ (hone.other k hne))
    · obtain ⟨hne, hk⟩ := List.ne_and_not_mem_of_not_mem_cons hk
      exact (hrest.outside k hk).trans (hone.other k hne)

/-- A field that `sans` keeps, of a function that is as before. -/
theorem fn_field {α : Type} {t : State} {f : Nat} {q : FnSt} (p : FnSt → α) (h : (t.fn f).sans = q.sans) (hp : ∀ r, p r.sans = p r := by intro r; rfl) :
    p (t.fn f) = p q := by
  rw [← hp, h, hp]

/-! ### Links that go down (R83, R99) -/

theorem nodup_linkFns (s : State) {l : Nat} (hl : l < 8) : (s.linkFns l).Nodup := by
  refine List.Nodup.filter _ (List.nodup_cons.mpr ⟨?_, List.Nodup.map (fun a b h => by simpa using h) List.nodup_range⟩)
  simp only [List.mem_map, List.mem_range, not_exists, not_and]
  intro i hi
  omega

theorem endAll_eq_foldl (s : State) (cause : Nat) (l : List Nat) :
    s.endAll cause l = l.foldl (fun t f => (t.setFn f FnSt.configReset).endPresence f cause true) s := by
  induction l generalizing s with
  | nil => rfl
  | cons f r ih => exact ih _

theorem configReset_congr {q r : FnSt} (h : q.sans = r.sans) : (FnSt.configReset q).sans = (FnSt.configReset r).sans := by
  obtain ⟨x, rfl⟩ := sans_inj h
  rfl

theorem fnsTo_endAll (s : State) (cause : Nat) {l : List Nat} (hl : l.Nodup) :
    FnsTo l (fun f q => ended q.configReset f cause s.time64 true) s (s.endAll cause l) := by
  rw [endAll_eq_foldl]
  refine fnsTo_foldl (I := Base s) (fun u hu f => ?_) (fun f q r h => ended_congr (configReset_congr h) f cause _ true) hl (base_refl s)
  have hset := fnTo_setFn u f FnSt.configReset
  have hend := fnTo_trans hset (fnTo_endPresence (u.setFn f FnSt.configReset) f cause true)
  rw [fn_setFn_same, time64_base hset.toBase, time64_base hu] at hend
  exact ⟨base_trans hu hend.toBase, hend⟩

/-- A link that was up has gone down. -/
structure LinkGone (l : Nat) (s t : State) : Prop where
  link   : t.link l = LinkSt.init
  others : ∀ k, k ≠ l → t.link k = s.link k
  count  : tget t.linkDown (l / 2) = satAdd 32 (tget s.linkDown (l / 2)) 1
  report : Reports .hlLinkDown (le 1 l ++ le 1 (s.link l).speed ++ le 1 (s.link l).width) s t
  ends   : ∀ f ∈ s.linkFns l, Ended f 3 s t
  stay   : ∀ f, f ∉ s.linkFns l → (t.fn f).state = (s.fn f).state

theorem linkLost_up {s : State} {l : Nat} (h : (s.link l).up = true) : s.linkLost l =
    (((((s.setLink l (fun _ => LinkSt.init)).onLinkDown (fun t => tput t (l / 2) (satAdd 32 (tget t (l / 2)) 1))).endAll 3
      (s.linkFns l)).setFn (linkPf l) FnSt.configReset).raise .hlLinkDown (le 1 l ++ le 1 (s.link l).speed ++ le 1 (s.link l).width)) :=
  if_pos h

theorem did_endAll (s : State) (cause : Nat) (l : List Nat) : Does 0xe227f82 s (s.endAll cause l) := does_endAll (by decide) (does_refl _ s)

/-- The states of all functions are as before, with what stands of their last eviction. -/
def StatesKept (s t : State) : Prop :=
  ∀ k, (t.fn k).state = (s.fn k).state ∧ (t.fn k).evCause = (s.fn k).evCause ∧ (t.fn k).evT0 = (s.fn k).evT0

theorem statesKept_of_still {s t : State} (h : Still s t) : StatesKept s t :=
  fun k => ⟨fn_field FnSt.state (h.fns k), fn_field FnSt.evCause (h.fns k), fn_field FnSt.evT0 (h.fns k)⟩

theorem statesKept_trans {s t u : State} (h : StatesKept s t) (k : StatesKept t u) : StatesKept s u :=
  fun n => ⟨(k n).1.trans (h n).1, (k n).2.1.trans (h n).2.1, (k n).2.2.trans (h n).2.2⟩

theorem statesKept_configReset (s : State) (f : Nat) : StatesKept s (s.setFn f FnSt.configReset) := by
  intro k
  by_cases hk : k = f
  · rw [hk, fn_setFn_same]
    exact ⟨rfl, rfl, rfl⟩
  · rw [fn_setFn_other _ _ hk]
    exact ⟨rfl, rfl, rfl⟩

theorem ended_kept {f cause : Nat} {s t u : State} (h : Ended f cause s t) (k : StatesKept t u) : Ended f cause s u := by
  unfold Ended
  rw [(k f).1, (k f).2.1, (k f).2.2]
  exact h

theorem ended_from {f cause : Nat} {s t u : State} (h : Ended f cause t u) (k : StatesKept s t) (ht : t.time64 = s.time64) : Ended f cause s u := by
  unfold Ended at h ⊢
  rw [(k f).1, ht] at h
  exact h

theorem linkGone_linkLost {s : State} {l : Nat} (hl : l < 8) (h : (s.link l).up = true) : LinkGone l s (s.linkLost l) := by
  rw [linkLost_up h]
  generalize hs0 : (s.setLink l (fun _ => LinkSt.init)).onLinkDown (fun t => tput t (l / 2) (satAdd 32 (tget t (l / 2)) 1)) = s0
  have hdown : s0.linkDown = tput s.linkDown (l / 2) (satAdd 32 (tget s.linkDown (l / 2)) 1) := by rw [← hs0]; rfl
  have hlinks : s0.links = (s.setLink l (fun _ => LinkSt.init)).links := by rw [← hs0]; rfl
  have hfns : StatesKept s s0 := by rw [← hs0]; exact fun k => ⟨rfl, rfl, rfl⟩
  have ht64 : s0.time64 = s.time64 := by rw [← hs0]; rfl
  have hout : s0.out = s.out := by rw [← hs0]; rfl
  have hend := fnsTo_endAll s0 3 (nodup_linkFns s hl)
  have hdid := did_endAll s0 3 (s.linkFns l)
  generalize s0.endAll 3 (s.linkFns l) = s1 at hend hdid
  have hset : Does 0x80 s1 (s1.setFn (linkPf l) FnSt.configReset) := does_setFn (by decide) (does_refl _ _)
  have hkept := statesKept_configReset s1 (linkPf l)
  generalize s1.setFn (linkPf l) FnSt.configReset = s2 at hset hkept
  have hfin := flags_raise .hlLinkDown (le 1 l ++ le 1 (s.link l).speed ++ le 1 (s.link l).width) (flags_refl s2)
  have hlast := statesKept_trans hkept (statesKept_of_still (still_of_flags hfin))
  have hlink : (s2.raise .hlLinkDown (le 1 l ++ le 1 (s.link l).speed ++ le 1 (s.link l).width)).links = s0.links :=
    (hfin.keeps .links (by decide)).trans ((hset.keeps .links (by decide)).trans hend.links)
  refine ⟨?_, fun k hk => ?_, ?_, ?_, fun f hf => ?_, fun f hf => ?_⟩
  · rw [State.link, hlink, hlinks]
    exact link_setLink_same s l _
  · rw [State.link, hlink, hlinks]
    exact link_setLink_other s _ hk
  · rw [hfin.keeps .linkDown (by decide), hset.keeps .linkDown (by decide), hdid.keeps .linkDown (by decide), hdown, tget_tput_same]
  · exact reports_of_emits (emits_before (hout ▸ hdid.out.trans hset.out) (emits_raise s2 .hlLinkDown _))
  · exact ended_from (ended_kept (ended_of (hend.inside f hf) rfl) hlast) hfns ht64
  · exact (hlast f).1.trans ((fn_field FnSt.state (hend.outside f hf)).trans (hfns f).1)

/-! ### Links that come up (R81, R83) -/

/-- What presence rests on in a function's configuration. -/
def cfgOf (q : FnSt) : Bool × Bool × Bool × Nat := (q.d0, q.bme, q.vfEn, q.numVfs)

/-- The set-up, the links and the functions' configurations are as before. -/
structure Held (s t : State) : Prop where
  base : Base s t
  cfg  : ∀ k, cfgOf (t.fn k) = cfgOf (s.fn k)

theorem held_refl (s : State) : Held s s := ⟨base_refl s, fun _ => rfl⟩

theorem held_trans {s t u : State} (h : Held s t) (k : Held t u) : Held s u := ⟨base_trans h.base k.base, fun n => (k.cfg n).trans (h.cfg n)⟩

theorem held_of_still {s t : State} (h : Still s t) : Held s t := ⟨h.toBase, fun k => fn_field cfgOf (h.fns k)⟩

theorem held_of_fnTo {f : Nat} {q : FnSt} {s t : State} (h : FnTo f q s t) (hq : cfgOf q = cfgOf (s.fn f)) : Held s t := by
  refine ⟨h.toBase, fun k => ?_⟩
  by_cases hk : k = f
  · rw [hk, fn_field cfgOf h.same, hq]
  · exact fn_field cfgOf (h.other k hk)

theorem vfOn_held {s t : State} (h : Held s t) (f : Nat) : t.vfOn f = s.vfOn f := by
  have hlink := fnLink_congr h.base.setup f
  have hpf := h.cfg (linkPf (s.fnLink f))
  simp only [cfgOf, Prod.mk.injEq] at hpf
  unfold State.vfOn
  dsimp only
  rw [hlink, hpf.2.2.1, hpf.2.2.2]

theorem present_held {s t : State} (h : Held s t) (f : Nat) : t.present f = s.present f := by
  have hlink := fnLink_congr h.base.setup f
  have hfn := h.cfg f
  simp only [cfgOf, Prod.mk.injEq] at hfn
  unfold State.present
  rw [vfOn_held h, hlink, hfn.1, hfn.2.1, State.link, h.base.links]
  rfl

theorem enabled_congr {s t : State} (h : t.setup = s.setup) (f : Nat) : t.enabled f = s.enabled f := by
  unfold State.enabled State.profCtrlEnable
  rw [field_congr h]

/-- A function that has become present. -/
def madePresent (q : FnSt) (enabled : Bool) : FnSt :=
  match q.state with
  | .absent => { q with state := if enabled then .idle else .disabled }
  | _ => q

theorem fnTo_becomePresent (s : State) (f : Nat) : FnTo f (madePresent (s.fn f) (s.enabled f)) s (s.becomePresent f) := by
  unfold State.becomePresent madePresent
  cases (s.fn f).state with
  | absent => exact fnTo_still (fnTo_setFn s f (fun n => { n with state := if s.enabled f then .idle else .disabled })) (still_raise _ _ _)
  | evicting | quarantined => exact fnTo_of_still (still_raise s _ _) f
  | idle | disabled | enrolled | checking => exact fnTo_refl s f

theorem madePresent_congr {q r : FnSt} (h : q.sans = r.sans) (b : Bool) : (madePresent q b).sans = (madePresent r b).sans := by
  have hst : q.state = r.state := (congrArg FnSt.state h : q.sans.state = r.sans.state)
  unfold madePresent
  rw [hst]
  cases r.state with
  | absent => exact congrArg (fun q : FnSt => { q with state := if b then .idle else .disabled }) h
  | idle | disabled | enrolled | checking | evicting | quarantined => exact h

theorem cfgOf_madePresent (q : FnSt) (b : Bool) : cfgOf (madePresent q b) = cfgOf q := by
  unfold madePresent
  cases q.state <;> rfl

theorem arrive_eq_foldl (s : State) (l : List Nat) : s.arrive l = l.foldl (fun t f => if t.present f then t.becomePresent f else t) s := by
  induction l generalizing s with
  | nil => rfl
  | cons f r ih => exact ih _

theorem fnsTo_arrive (s : State) {l : List Nat} (hl : l.Nodup) :
    FnsTo l (fun f q => if s.present f then madePresent q (s.enabled f) else q) s (s.arrive l) := by
  rw [arrive_eq_foldl]
  refine fnsTo_foldl (I := Held s) (fun u hu f => ?_) (fun f q r h => ?_) hl (held_refl s)
  · rw [present_held hu f, ← enabled_congr hu.base.setup f]
    split
    · have hmade := fnTo_becomePresent u f
      exact ⟨held_trans hu (held_of_fnTo hmade (cfgOf_madePresent _ _)), hmade⟩
    · exact ⟨hu, fnTo_refl u f⟩
  · split
    · exact madePresent_congr h _
    · exact h

theorem trainWidth_le (s : State) (l w : Nat) : s.trainWidth l w ≤ s.fullWidth l := by
  unfold State.trainWidth
  extract_lets x
  have hx : x ≤ s.fullWidth l := Nat.min_le_right _ _
  split
  · omega
  · split
    · omega
    · split <;> omega

theorem linkFns_congr {s t : State} (h : t.setup = s.setup) (l : Nat) : t.linkFns l = s.linkFns l := by
  have hfn : t.fnLink = s.fnLink := funext (fnLink_congr h)
  unfold State.linkFns
  rw [hfn]

theorem mem_linkFns {s : State} {l f : Nat} (h : f ∈ s.linkFns l) : s.fnLink f = l := by
  have := (List.mem_filter.mp h).2
  exact of_decide_eq_true this

theorem reports_after {e : Ev} {b : Bytes} {s t u : State} (h : Reports e b s t) (k : t.out <+: u.out) : Reports e b s u := by
  obtain ⟨l, n, hl, ho⟩ := h
  exact reports_of_emits (emits_after ⟨l, hl, ho⟩ k)

theorem out_raise (s : State) (e : Ev) (b : Bytes) : s.out <+: (s.raise e b).out := (does_raise (by decide) (does_refl 0xe220082 s)).out

theorem reports_raise (s : State) (e : Ev) (b : Bytes) : Reports e b s (s.raise e b) := reports_of_emits (emits_raise s e b)

theorem reports_before {e : Ev} {b : Bytes} {s t u : State} (h : s.out <+: t.out) (k : Reports e b t u) : Reports e b s u := by
  obtain ⟨l, n, hl, ho⟩ := k
  exact reports_of_emits (emits_before h ⟨l, hl, ho⟩)

/-- The state of a link that has trained. -/
def linkOn (s : State) (l v w : Nat) : State := s.setLink l (fun _ => { up := true, speed := v, width := w, l12 := false })

/-- The link that has come up, before its functions arrive. -/
def linkTrained (s : State) (l v w : Nat) : State :=
  let s1 := (linkOn s l v w).raise .hlLinkUp (le 1 l ++ le 1 v ++ le 1 w)
  if w < s.fullWidth l ∨ v < s.hlCtrlMaxSpeed (l / 2) then s1.raise .hlLinkDegraded (le 1 l) else s1

theorem linkUp_trains {s : State} {l speed width : Nat} (hc : s.linkCan l = true) (hu : (s.link l).up = false) (hv : 0 < s.trainSpeed l speed)
    (hw : 0 < s.trainWidth l width) : s.linkUp l speed width =
      (linkTrained s l (s.trainSpeed l speed) (s.trainWidth l width)).arrive
        ((linkTrained s l (s.trainSpeed l speed) (s.trainWidth l width)).linkFns l) := by
  unfold State.linkUp linkTrained
  exact if_pos ⟨hc, hu, hv, hw⟩

/-- Training is the link's new state, and events. -/
theorem flags_linkTrained (s : State) (l v w : Nat) : Flags (linkOn s l v w) (linkTrained s l v w) := by
  have hraise := flags_raise .hlLinkUp (le 1 l ++ le 1 v ++ le 1 w) (flags_refl (linkOn s l v w))
  unfold linkTrained
  extract_lets s1
  split
  · exact flags_trans hraise (flags_raise _ _ (flags_refl _))
  · exact hraise

theorem reports_linkTrained (s : State) (l v w : Nat) : Reports .hlLinkUp (le 1 l ++ le 1 v ++ le 1 w) s (linkTrained s l v w) := by
  have hone : Reports .hlLinkUp (le 1 l ++ le 1 v ++ le 1 w) s ((linkOn s l v w).raise .hlLinkUp (le 1 l ++ le 1 v ++ le 1 w)) :=
    reports_before (List.prefix_refl s.out) (reports_raise _ _ _)
  unfold linkTrained
  extract_lets s1
  split
  · exact reports_after hone (out_raise _ _ _)
  · exact hone

theorem present_linkOn {s : State} {l v w f : Nat} (hf : f ∈ s.linkFns l) (hd : (s.fn f).d0 = true) (hb : (s.fn f).bme = true)
    (hon : isOf f = true ∨ s.vfOn f = true) : (linkOn s l v w).present f = true := by
  have hlink : (linkOn s l v w).fnLink f = l := mem_linkFns hf
  have hup : ((linkOn s l v w).link l).up = true := by rw [linkOn, link_setLink_same]
  have hvf : (linkOn s l v w).vfOn f = s.vfOn f := rfl
  have hfn : (linkOn s l v w).fn f = s.fn f := rfl
  unfold State.present
  rw [hlink, hup, hvf, hfn, hd, hb]
  simpa using hon

/-- What DL_Up does to the link and to a function that waits for it. -/
theorem linkUp_gives {s : State} {l speed width : Nat} (hl : l < 8) (hc : s.linkCan l = true) (hu : (s.link l).up = false)
    (hv : 0 < s.trainSpeed l speed) (hw : 0 < s.trainWidth l width) :
    (s.linkUp l speed width).link l = { up := true, speed := s.trainSpeed l speed, width := s.trainWidth l width, l12 := false } ∧
    (∀ k, k ≠ l → (s.linkUp l speed width).link k = s.link k) ∧
    Reports .hlLinkUp (le 1 l ++ le 1 (s.trainSpeed l speed) ++ le 1 (s.trainWidth l width)) s (s.linkUp l speed width) ∧
    ∀ f ∈ s.linkFns l, (s.fn f).state = .absent → (s.fn f).d0 = true → (s.fn f).bme = true → isOf f = true ∨ s.vfOn f = true →
      ((s.linkUp l speed width).fn f).state = if s.enabled f then .idle else .disabled := by
  rw [linkUp_trains hc hu hv hw]
  have hflags := flags_linkTrained s l (s.trainSpeed l speed) (s.trainWidth l width)
  have hreport := reports_linkTrained s l (s.trainSpeed l speed) (s.trainWidth l width)
  generalize linkTrained s l (s.trainSpeed l speed) (s.trainWidth l width) = u at hflags hreport
  have hstill := still_of_flags hflags
  have hfns : u.linkFns l = s.linkFns l := linkFns_congr (s := s) (t := u) hstill.setup l
  have harr := fnsTo_arrive u (nodup_linkFns u hl)
  have hdid : Does 0xe220082 u (u.arrive (u.linkFns l)) := does_arrive (by decide) (does_refl _ u)
  have hlink : ∀ k, (u.arrive (u.linkFns l)).link k = (linkOn s l (s.trainSpeed l speed) (s.trainWidth l width)).link k := fun k => by
    simp only [State.link, harr.links, hstill.links]
  refine ⟨by rw [hlink, linkOn, link_setLink_same], fun k hk => by rw [hlink, linkOn, link_setLink_other _ _ hk],
    reports_after hreport hdid.out, fun f hf hst hd hb hon => ?_⟩
  have hpresent : u.present f = true := (present_held (held_of_still hstill) f).trans (present_linkOn hf hd hb hon)
  have hone : (u.fn f).state = .absent := (fn_field FnSt.state (hstill.fns f)).trans hst
  have hfin := fn_field FnSt.state (harr.inside f (hfns ▸ hf))
  rw [hfin, if_pos hpresent, madePresent, hone, enabled_congr (s := s) (t := u) hstill.setup]

/-! ### Read errors (R79) -/

theorem ended_of_evicted {f cause : Nat} {keep : Bool} {s t : State} (h : (t.fn f).sans = (evicted (s.fn f) f cause s.time64 keep).sans)
    (hst : (s.fn f).state = .enrolled ∨ (s.fn f).state = .checking) : Ended f cause s t := by
  refine ⟨fun _ => ⟨(congrArg FnSt.state h : _), (congrArg FnSt.evCause h : _), (congrArg FnSt.evT0 h : _)⟩, fun h' => ?_, fun h' => ?_⟩
  · rcases hst with hst | hst <;> simp [hst] at h'
  · rcases hst with hst | hst <;> simp [hst] at h'

/-- An eviction makes reads void, and adds none. -/
theorem reads_beginEvict (s : State) (f cause : Nat) (keep : Bool) : (s.beginEvict f cause keep).host.reads =
    s.host.reads.map (fun r => if r.fn = f then { r with void := true } else r) := by
  unfold State.beginEvict
  extract_lets s1 s2 s3
  have h1 : Does 0xe220082 s s1 := does_ite (does_mbxReply (by decide) (does_refl _ s)) (does_refl _ s)
  have h3 : Does 0xe220082 s s3 := does_setFn (by decide) (does_ite (does_raise (by decide) h1) h1)
  have hframes : Does 0xe223082 s ((s3.dropFrames f).quietFrames f) := does_quietFrames (by decide) (does_dropFrames (by decide) (does_mono h3 (by decide)))
  have hhost : ((s3.dropFrames f).quietFrames f).host = s.host := hframes.keeps .host (by decide)
  have hlast : Does 0x4007702 (((s3.dropFrames f).quietFrames f).dropReads f)
      ((((((s3.dropFrames f).quietFrames f).dropReads f).dropRings f).flowAll).abortSnap f) :=
    does_abortSnap (by decide) (does_flowAll (by decide) (does_dropRings (by decide) (does_refl _ _)))
  rw [hlast.keeps .host (by decide), ← hhost]
  rfl

theorem reads_aer (s : State) (l : Nat) (b : Bool) : (s.aer l b).host = s.host :=
  (does_aer (M := 0xe2200c2) (by decide) (does_refl _ s)).keeps .host (by decide)

/-- An error that is counted leaves the functions alone. -/
theorem still_aer (s : State) (l : Nat) (b : Bool) : Still s (s.aer l b) := by
  unfold State.aer
  extract_lets s1
  have h1 : Still s s1 := ⟨⟨rfl, rfl, rfl, rfl, rfl, rfl⟩, fun _ => rfl⟩
  split
  · exact still_trans h1 (still_raise _ _ _)
  · exact h1

theorem reports_aer (s : State) (l : Nat) : Reports .hlAer (le 1 l) s (s.aer l true) :=
  reports_before (List.prefix_refl s.out) (reports_raise _ _ _)

theorem did_aer (s : State) (l : Nat) (b : Bool) : Does 0xe2200c2 s (s.aer l b) := does_aer (by decide) (does_refl _ s)

/-- A read error after the read has been marked or dropped. -/
theorem readError_gives {s s1 : State} {f l : Nat} (h : Still s s1) (hout : s.out <+: s1.out) (hst : (s.fn f).state = .enrolled) :
    Ended f 6 s ((s1.readError f).aer l true) ∧ Reports .hlAer (le 1 l) s ((s1.readError f).aer l true) ∧
    ((s1.readError f).aer l true).host.reads = s1.host.reads.map (fun r => if r.fn = f then { r with void := true } else r) := by
  have hone : (s1.fn f).state = .enrolled := (fn_field FnSt.state (h.fns f)).trans hst
  have hev : s1.readError f = s1.beginEvict f 6 false := by
    unfold State.readError
    rw [hone]
  have hto := fnTo_still (fnTo_beginEvict s1 f 6 false) (still_aer (s1.beginEvict f 6 false) l true)
  have hdid : Does 0xe227f82 s1 (s1.beginEvict f 6 false) := does_beginEvict (by decide) (does_refl _ s1)
  rw [hev]
  refine ⟨ended_from (ended_of_evicted hto.same (.inl hone)) (statesKept_of_still h) (time64_base h.toBase),
    reports_before (hout.trans hdid.out) (reports_aer _ l), ?_⟩
  rw [reads_aer, reads_beginEvict]

theorem still_dropTag (s : State) (tag : Nat) : Still s (s.dropTag tag) :=
  still_of_does (m := 0x8000800) (does_dropTag (by decide) (does_refl _ s))

/-- A tag is free, where no read waits for it. -/
theorem reads_dropTag {s : State} (h : s.host.asks = []) (tag : Nat) : (s.dropTag tag).host.reads = s.host.reads.filter (fun r => r.tag ≠ tag) := by
  unfold State.dropTag
  extract_lets s1
  have hnone : s1.host.asks.find? (fun r => s1.fnLink r.fn = tag / 1024) = none := by
    show s.host.asks.find? _ = none
    rw [h]
    rfl
  rw [hnone]
  rfl

/-! ### The end of Idle -/

theorem coreRuns_endIdle (s : State) : s.endIdle.coreRuns = s.coreRuns := by
  by_cases h : s.power.mode = .idle
  · have hrun : s.endIdle.power.mode = .run := by
      unfold State.endIdle
      rw [if_pos h]
      rfl
    have hs : s.endIdle.supply = s.supply := keeps_endIdle s .supply (by decide)
    have hl : s.endIdle.log = s.log := keeps_endIdle s .log (by decide)
    unfold State.coreRuns
    rw [hrun, h, hs, hl]
  · rw [endIdle_awake s h]

theorem still_endIdle (s : State) : Still s s.endIdle :=
  ⟨⟨keeps_endIdle s .setup (by decide), keeps_endIdle s .time (by decide), keeps_endIdle s .rtc (by decide), keeps_endIdle s .links (by decide),
    keeps_endIdle s .pair (by decide), coreRuns_endIdle s⟩, fun k => congrArg FnSt.sans (fn_congr (keeps_endIdle s .fns (by decide)) k)⟩

theorem linkGone_endIdle {l : Nat} {s t : State} (h : LinkGone l s.endIdle t) : LinkGone l s t := by
  have hstill := still_endIdle s
  have hlink : ∀ k, s.endIdle.link k = s.link k := fun k => by simp only [State.link, hstill.links]
  have hdown : s.endIdle.linkDown = s.linkDown := keeps_endIdle s .linkDown (by decide)
  have hout : s.endIdle.out = s.out := keeps_endIdle s .out (by decide)
  have hkept := statesKept_of_still hstill
  have hfns := linkFns_congr (s := s) (t := s.endIdle) hstill.setup l
  exact ⟨h.link, fun k hk => (h.others k hk).trans (hlink k), hdown ▸ h.count, by rw [← hlink]; exact reports_before (by rw [hout]) h.report,
    fun f hf => ended_from (h.ends f (hfns ▸ hf)) hkept (time64_base hstill.toBase), fun f hf => (h.stay f (hfns ▸ hf)).trans (hkept f).1⟩

theorem linkGone_aer {l : Nat} {s t : State} (h : LinkGone l s t) (k : Nat) : LinkGone l s (t.aer k true) := by
  have hstill := still_aer t k true
  have hdid := did_aer t k true
  have hkept := statesKept_of_still hstill
  have hlink : ∀ k', (t.aer k true).link k' = t.link k' := fun k' => by simp only [State.link, hstill.links]
  exact ⟨(hlink l).trans h.link, fun n hn => (hlink n).trans (h.others n hn), (hdid.keeps .linkDown (by decide) : (t.aer k true).linkDown = t.linkDown) ▸ h.count,
    reports_after h.report hdid.out, fun f hf => ended_kept (h.ends f hf) hkept, fun f hf => (hkept f).1.trans (h.stay f hf)⟩

/-- Each of the four commands takes the link down. -/
theorem linkGone_of_cmd {s : State} {n : Fin 8} {c : Instr}
    (hc : c = .hlLinkDown n ∨ c = .perstAssert n ∨ c = .aerError n .malformed ∨ c = .aerError n .surpriseDown) (hup : (s.link n).up = true) :
    Gives c s (LinkGone n s) := by
  have hlost := linkGone_linkLost n.isLt hup
  have hup' : (s.endIdle.link n).up = true := by
    rw [State.link, (still_endIdle s).links]
    exact hup
  rcases hc with rfl | rfl | rfl | rfl
  · exact ⟨_, rfl, hlost⟩
  · exact ⟨_, rfl, linkGone_endIdle (linkGone_linkLost n.isLt hup')⟩
  · exact ⟨_, rfl, linkGone_aer hlost n⟩
  · exact ⟨_, rfl, linkGone_aer hlost n⟩

theorem exec_completionTimeout {s : State} {tag : Nat} {r : ReadReq} (h : s.readOf tag = some r) (hv : r.void = false) :
    exec (.completionTimeout tag) s = .next (((s.onHost (fun h => { h with reads := h.reads.map (fun q =>
      if q.tag = tag then { q with void := true, timedOut := true } else q) })).readError r.fn).aer (s.fnLink r.fn) true) := by
  show execCompletionTimeout tag s = _
  unfold execCompletionTimeout
  rw [h]
  exact congrArg Host.Outcome.next (if_neg (by simp [hv]))

theorem exec_poisoned {s : State} {tag : Nat} {r : ReadReq} (h : s.readOf tag = some r) (hv : r.void = false) (n : Fin 8) :
    exec (.aerError n (.poisoned tag)) s = .next (((s.dropTag tag).readError r.fn).aer n true) := by
  show execAerError n (.poisoned tag) s = _
  unfold execAerError
  dsimp only
  rw [h]
  exact congrArg (fun t : State => Host.Outcome.next (t.aer n true)) (if_neg (by simp [hv]))

/-- Settles O33: DL_Up and the losses by what they do to each function of the link, the rest by their commands. -/
theorem hostLinksComeUpAndGoDown : Obligations.HostLinksComeUpAndGoDown := by
  unfold Obligations.HostLinksComeUpAndGoDown
  refine ⟨fun s n speed width hc hu hv hw => ?_, fun s n c hcmd hup => ?_, fun s n hup => congrArg Host.Outcome.next (if_pos hup), fun s n => rfl,
    fun s n => ⟨_, rfl, raise_raises _ _ _⟩, fun s n k hk => ?_, fun s r hr hvoid hst => ⟨?_, fun n => ?_⟩⟩
  · obtain ⟨hlink, hothers, hrep, hfns⟩ := linkUp_gives n.isLt hc hu hv hw
    exact ⟨_, rfl, hlink, Nat.min_le_right _ _, trainWidth_le s n width, hothers, hrep, hfns⟩
  · obtain ⟨t, ht, h⟩ := linkGone_of_cmd hcmd hup
    exact ⟨t, ht, h.link, h.others, h.count, h.report, h.ends, h.stay⟩
  · rcases hk with rfl | rfl | rfl | rfl | rfl <;> rfl
  · have hmark : Still s (s.onHost (fun h => { h with reads := h.reads.map (fun q =>
        if q.tag = r.tag then { q with void := true, timedOut := true } else q) })) := ⟨⟨rfl, rfl, rfl, rfl, rfl, rfl⟩, fun _ => rfl⟩
    obtain ⟨hended, hrep, hreads⟩ := readError_gives (l := s.fnLink r.fn) hmark (List.prefix_refl _) hst
    refine ⟨_, exec_completionTimeout hr hvoid, hended, hrep, fun q hq htag => ?_⟩
    rw [hreads] at hq
    obtain ⟨p, hp, rfl⟩ := List.mem_map.mp hq
    obtain ⟨o, ho, rfl⟩ := List.mem_map.mp hp
    by_cases hot : o.tag = r.tag
    · simp only [hot, if_true]
      split <;> exact ⟨rfl, rfl⟩
    · exfalso
      rw [if_neg hot] at htag
      split at htag <;> exact hot htag
  · obtain ⟨hended, hrep, hreads⟩ := readError_gives (l := n) (still_dropTag s r.tag) (does_dropTag (M := 0x8000800) (by decide) (does_refl _ s)).out hst
    refine ⟨_, exec_poisoned hr hvoid n, hended, hrep, fun ha q hq htag => ?_⟩
    rw [hreads, reads_dropTag ha] at hq
    obtain ⟨p, hp, rfl⟩ := List.mem_map.mp hq
    have hne : p.tag ≠ r.tag := by simpa using (List.mem_filter.mp hp).2
    split at htag <;> exact hne htag

end Sys2Proof.Proofs
end

section
/-! The end of presence, and release (04_host_links). -/
namespace Sys2Proof.Proofs
open Sys2Proof Sys2Proof.Machine Sys2Proof.Laws
set_option Elab.async false -- one thread, within the memory of the check

/-! ### Function-level resets (R82, R87) -/

theorem nodup_linkTfs (s : State) (l : Nat) : (s.linkTfs l).Nodup :=
  List.Nodup.filter _ (List.Nodup.map (fun a b h => by simpa using h) List.nodup_range)

theorem isOf_iff (f : Nat) : isOf f = true ↔ 64 ≤ f ∧ f < 68 := by simp [isOf]

theorem fnLink_of {f : Nat} (h : isOf f = true) (s : State) : s.fnLink f = 2 * (f - 64) := if_pos h

theorem pfLink_lt {p : Nat} (h1 : 64 ≤ p) (h2 : p < 72) : pfLink p < 8 := by
  unfold pfLink
  split <;> omega

/-- A tenant function of a link lies below the physical functions. -/
theorem linkTfs_lt {s : State} {l f : Nat} (hl : l < 8) (h : f ∈ s.linkTfs l) : f < 64 := by
  obtain ⟨hf, -⟩ := List.mem_filter.mp h
  obtain ⟨i, hi, rfl⟩ := List.mem_map.mp hf
  have := List.mem_range.mp hi
  omega

theorem nodup_flrFns (s : State) (f : Fin 72) : (s.flrFns f).Nodup := by
  unfold State.flrFns
  split
  next h =>
    rw [fnLink_of h]
    have := (isOf_iff f).mp h
    exact nodup_linkFns s (by omega)
  next =>
    split
    · exact List.nodup_singleton _
    · exact nodup_linkTfs s _

/-- What a function-level reset makes of a function. -/
def flrMade (t0 f : Nat) (q : FnSt) : FnSt := (ended q f 4 t0 true).configReset

theorem fnsTo_flr (s : State) {l : List Nat} (hl : l.Nodup) : FnsTo l (flrMade s.time64) s (l.foldl State.flrOne s) := by
  refine fnsTo_foldl (I := Base s) (fun u hu f => ?_) (fun f q r h => configReset_congr (ended_congr h f 4 _ true)) hl (base_refl s)
  have hend := fnTo_endPresence u f 4 true
  have hset := fnTo_trans hend (fnTo_setFn (u.endPresence f 4 true) f FnSt.configReset)
  rw [time64_base hu] at hend
  exact ⟨base_trans hu hset.toBase, fnTo_congr hset (configReset_congr hend.same)⟩

/-- A function-level reset ends the presence of the functions it takes with it, and leaves their configuration at reset. -/
theorem flr_gives (s : State) (f : Fin 72) : Gives (.flr f) s (fun t => (∀ k ∈ s.flrFns f, Ended k 4 s t ∧ (t.fn k).d0 = true ∧
    (t.fn k).bme = false ∧ (t.fn k).msixEn = false ∧ (t.fn k).ro = false) ∧
    (t.fn f).vfEn = false ∧ (t.fn f).numVfs = 0 ∧ (t.fn f).mrrs = 2 ∧ (t.fn f).msixMask = BitVec.allOnes 64) := by
  refine ⟨_, rfl, fun k hk => ?_, ?_⟩
  · have hall := fnsTo_flr s.endIdle (nodup_flrFns s f)
    have hone := hall.inside k hk
    have hkept := statesKept_configReset ((s.flrFns f).foldl State.flrOne s.endIdle) f
    have hstill := still_endIdle s
    have hst : Ended k 4 s.endIdle ((s.flrFns f).foldl State.flrOne s.endIdle) :=
      ended_of_core (q := s.endIdle.fn k) (reset := true) (fn_field (q := flrMade s.endIdle.time64 k (s.endIdle.fn k)) FnSt.state hone)
        (fn_field (q := flrMade s.endIdle.time64 k (s.endIdle.fn k)) FnSt.evCause hone)
        (fn_field (q := flrMade s.endIdle.time64 k (s.endIdle.fn k)) FnSt.evT0 hone) rfl
    refine ⟨ended_from (ended_kept hst hkept) (statesKept_of_still hstill) (time64_base hstill.toBase), ?_⟩
    by_cases hkf : k = f
    · rw [hkf, fn_setFn_same]
      exact ⟨rfl, rfl, rfl, rfl⟩
    · rw [fn_setFn_other _ _ hkf]
      exact ⟨fn_field FnSt.d0 hone, fn_field FnSt.bme hone, fn_field FnSt.msixEn hone, fn_field FnSt.ro hone⟩
  · rw [fn_setFn_same]
    exact ⟨rfl, rfl, rfl, rfl⟩

/-! ### VF Enable and NumVFs (R81, R82) -/

/-- The end of presence leaves what presence rests on in the configuration. -/
theorem cfgOf_ended (q : FnSt) (f cause t0 : Nat) (reset : Bool) : cfgOf (ended q f cause t0 reset) = cfgOf q := by
  have hbox : cfgOf (if reset then boxReset q else q) = cfgOf q := by cases reset <;> rfl
  have hev : ∀ r, cfgOf (evicted r f cause t0 false) = cfgOf r := by
    intro r
    unfold evicted
    split <;> rfl
  unfold ended
  cases q.state with
  | enrolled | checking => exact (hev _).trans hbox
  | idle | disabled => exact hbox
  | absent | evicting | quarantined => exact hbox

theorem held_of_fnsTo {l : List Nat} {g : Nat → FnSt → FnSt} {s t : State} (h : FnsTo l g s t) (hg : ∀ f q, cfgOf (g f q) = cfgOf q) : Held s t := by
  refine ⟨h.toBase, fun k => ?_⟩
  by_cases hk : k ∈ l
  · rw [fn_field cfgOf (h.inside k hk), hg]
  · exact fn_field cfgOf (h.outside k hk)

theorem vfsGone_eq_foldl (was s : State) (l : List Nat) : State.vfsGone was s l =
    l.foldl (fun t f => if was.vfOn f ∧ t.vfOn f = false then t.endPresence f 0x0A true else t) s := by
  induction l generalizing s with
  | nil => rfl
  | cons f r ih => exact ih _

/-- What of the functions of a list VF Enable and NumVFs cover no more. -/
def vfGone (was s : State) (f : Nat) (q : FnSt) : FnSt := if was.vfOn f ∧ s.vfOn f = false then ended q f 0x0A s.time64 true else q

theorem cfgOf_vfGone (was s : State) (f : Nat) (q : FnSt) : cfgOf (vfGone was s f q) = cfgOf q := by
  unfold vfGone
  split
  · exact cfgOf_ended _ _ _ _ _
  · rfl

theorem fnsTo_vfsGone (was s : State) {l : List Nat} (hl : l.Nodup) : FnsTo l (vfGone was s) s (State.vfsGone was s l) := by
  rw [vfsGone_eq_foldl]
  refine fnsTo_foldl (I := Held s) (fun u hu f => ?_) (fun f q r h => ?_) hl (held_refl s)
  · rw [vfOn_held hu f]
    unfold vfGone
    split
    · have hend := fnTo_endPresence u f 0x0A true
      rw [time64_base hu.base] at hend
      exact ⟨held_trans hu (held_of_fnTo hend (cfgOf_ended _ _ _ _ _)), hend⟩
    · exact ⟨hu, fnTo_refl u f⟩
  · unfold vfGone
    split
    · exact ended_congr h _ _ _ _
    · exact h

/-- A physical function with VF Enable and NumVFs as written. -/
def withVfs (s : State) (p : Nat) (en : Bool) (n : Nat) : State := s.setFn p (fun q => { q with vfEn := en, numVfs := n })

theorem fnsTo_setVfs (s : State) (p : Nat) (en : Bool) (n : Nat) :
    FnsTo (s.linkTfs (pfLink p)) (vfGone s (withVfs s p en n)) (withVfs s p en n) (s.setVfs p en n) :=
  fnsTo_vfsGone s (withVfs s p en n) (nodup_linkTfs s _)

theorem statesKept_withVfs (s : State) (p : Nat) (en : Bool) (n : Nat) : StatesKept s (withVfs s p en n) := by
  intro k
  unfold withVfs
  by_cases hk : k = p
  · rw [hk, fn_setFn_same]
    exact ⟨rfl, rfl, rfl⟩
  · rw [fn_setFn_other _ _ hk]
    exact ⟨rfl, rfl, rfl⟩

theorem linkTfs_congr {s t : State} (h : t.setup = s.setup) (l : Nat) : t.linkTfs l = s.linkTfs l := by
  have hfn : t.fnLink = s.fnLink := funext (fnLink_congr h)
  unfold State.linkTfs
  rw [hfn]

/-- A physical function keeps what is written to it; the functions that are covered no more end. -/
theorem setVfs_gives (s : State) {p : Nat} (h1 : 64 ≤ p) (h2 : p < 72) (en : Bool) (n : Nat) :
    ((s.setVfs p en n).fn p).sans = ({ s.fn p with vfEn := en, numVfs := n } : FnSt).sans ∧
    ∀ f ∈ s.linkTfs (pfLink p), (s.vfOn f = true → (s.setVfs p en n).vfOn f = false → Ended f 0x0A s (s.setVfs p en n)) ∧
      (s.vfOn f = (s.setVfs p en n).vfOn f → ((s.setVfs p en n).fn f).state = (s.fn f).state) := by
  have hall := fnsTo_setVfs s p en n
  have hheld := held_of_fnsTo hall (cfgOf_vfGone _ _)
  have hkept := statesKept_withVfs s p en n
  refine ⟨?_, fun f hf => ?_⟩
  · have hp : p ∉ s.linkTfs (pfLink p) := fun h => by
      have := linkTfs_lt (pfLink_lt h1 h2) h
      omega
    exact (hall.outside p hp).trans (congrArg FnSt.sans (fn_setFn_same s p _))
  · rw [vfOn_held hheld]
    have hone := hall.inside f hf
    unfold vfGone at hone
    refine ⟨fun hon hoff => ?_, fun heq => ?_⟩
    · rw [if_pos ⟨hon, hoff⟩] at hone
      exact ended_from (ended_of hone rfl) hkept rfl
    · rw [if_neg (by rw [heq]; simp)] at hone
      exact (fn_field FnSt.state hone).trans (hkept f).1

/-- VF Enable cleared, or NumVFs lowered. -/
theorem vfDisable_gives (s : State) (p : Fin 8) (k : Option (Fin 17)) : Gives (.vfDisable p k) s (fun t =>
    (t.fn (pfFn p)).vfEn = (k.isSome && (s.fn (pfFn p)).vfEn) ∧
    (t.fn (pfFn p)).numVfs = (match k with | none => (s.fn (pfFn p)).numVfs | some n => min n.val (s.fn (pfFn p)).numVfs) ∧
    ∀ f ∈ s.linkTfs (pfLink (pfFn p)), (s.vfOn f = true → t.vfOn f = false → Ended f 0x0A s t) ∧
      (s.vfOn f = t.vfOn f → (t.fn f).state = (s.fn f).state)) := by
  have hstill := still_endIdle s
  have hheld := held_of_still hstill
  have hkept := statesKept_of_still hstill
  have hp : 64 ≤ pfFn p ∧ pfFn p < 72 := by
    unfold pfFn
    omega
  have hmain : ∀ en n, (((s.endIdle.setVfs (pfFn p) en n).fn (pfFn p)).vfEn = en ∧ ((s.endIdle.setVfs (pfFn p) en n).fn (pfFn p)).numVfs = n) ∧
      ∀ f ∈ s.linkTfs (pfLink (pfFn p)), (s.vfOn f = true → (s.endIdle.setVfs (pfFn p) en n).vfOn f = false →
        Ended f 0x0A s (s.endIdle.setVfs (pfFn p) en n)) ∧
        (s.vfOn f = (s.endIdle.setVfs (pfFn p) en n).vfOn f → ((s.endIdle.setVfs (pfFn p) en n).fn f).state = (s.fn f).state) := by
    intro en n
    obtain ⟨hpf, hfns⟩ := setVfs_gives s.endIdle hp.1 hp.2 en n
    refine ⟨⟨fn_field FnSt.vfEn hpf, fn_field FnSt.numVfs hpf⟩, fun f hf => ?_⟩
    rw [← linkTfs_congr (s := s) (t := s.endIdle) hstill.setup] at hf
    obtain ⟨hend, hstay⟩ := hfns f hf
    rw [vfOn_held hheld] at hend hstay
    exact ⟨fun h1 h2 => ended_from (hend h1 h2) hkept (time64_base hstill.toBase), fun h => (hstay h).trans (hkept f).1⟩
  cases k with
  | none =>
    obtain ⟨⟨hen, hn⟩, hfns⟩ := hmain false (s.fn (pfFn p)).numVfs
    exact ⟨_, rfl, hen, hn, hfns⟩
  | some n =>
    obtain ⟨⟨hen, hn⟩, hfns⟩ := hmain (s.fn (pfFn p)).vfEn (min n.val (s.fn (pfFn p)).numVfs)
    exact ⟨_, rfl, hen, hn, hfns⟩

/-! ### Power state and Bus Master Enable (R82) -/

/-- A function that moves to D3hot. -/
def inD3 (q : FnSt) (f t0 : Nat) : FnSt := if q.d0 then ended { q with d0 := false } f 5 t0 true else q

/-- A function whose Bus Master Enable is cleared. -/
def busOff (q : FnSt) (f t0 : Nat) : FnSt := if q.bme then ended { q with bme := false } f 0x0B t0 false else q

theorem fnTo_toD3 (s : State) (f : Nat) : FnTo f (inD3 (s.fn f) f s.time64) s (s.toD3 f) := by
  unfold State.toD3 inD3
  split
  · have hset := fnTo_setFn s f (fun q => { q with d0 := false })
    have hend := fnTo_trans hset (fnTo_endPresence (s.setFn f (fun q => { q with d0 := false })) f 5 true)
    rw [fn_setFn_same, time64_base hset.toBase] at hend
    exact hend
  · exact fnTo_refl s f

theorem fnTo_bmeOff (s : State) (f : Nat) : FnTo f (busOff (s.fn f) f s.time64) s (s.bmeOff f) := by
  unfold State.bmeOff busOff
  split
  · have hset := fnTo_setFn s f (fun q => { q with bme := false })
    have hend := fnTo_trans hset (fnTo_endPresence (s.setFn f (fun q => { q with bme := false })) f 0x0B false)
    rw [fn_setFn_same, time64_base hset.toBase] at hend
    exact hend
  · exact fnTo_refl s f

theorem d0_inD3 (q : FnSt) (f t0 : Nat) : (inD3 q f t0).d0 = false := by
  unfold inD3
  split
  · exact congrArg Prod.fst (cfgOf_ended { q with d0 := false } f 5 t0 true)
  next h => simpa using h

theorem bme_busOff (q : FnSt) (f t0 : Nat) : (busOff q f t0).bme = false := by
  unfold busOff
  split
  · exact congrArg (fun c => c.2.1) (cfgOf_ended { q with bme := false } f 0x0B t0 false)
  next h => simpa using h

theorem d3hot_gives (s : State) (f : Fin 72) : Gives (.d3hotEntry f) s (fun t => (t.fn f).d0 = false ∧
    (f.val < 68 → (s.fn f).d0 = true → Ended f 5 s t)) := by
  by_cases hf : f.val < 68
  · have hto := still_fnTo (still_endIdle s) (fnTo_toD3 s.endIdle f)
    refine ⟨_, congrArg Host.Outcome.next (if_pos hf), (fn_field FnSt.d0 hto.same).trans (d0_inD3 _ _ _), fun _ hd => ?_⟩
    have hd' : (s.endIdle.fn f).d0 = true := (fn_field FnSt.d0 ((still_endIdle s).fns f)).trans hd
    have hone := hto.same
    rw [inD3, if_pos hd', time64_base (still_endIdle s).toBase] at hone
    exact ended_of hone (fn_field FnSt.state ((still_endIdle s).fns f))
  · exact ⟨_, congrArg Host.Outcome.next (if_neg hf), by rw [fn_setFn_same], fun h => absurd h hf⟩

theorem busMaster_gives (s : State) (f : Fin 72) : Gives (.busMasterClear f) s (fun t => (t.fn f).bme = false ∧
    (f.val < 68 → (s.fn f).bme = true → Ended f 0x0B s t)) := by
  by_cases hf : f.val < 68
  · have hto := still_fnTo (still_endIdle s) (fnTo_bmeOff s.endIdle f)
    refine ⟨_, congrArg Host.Outcome.next (if_pos hf), (fn_field FnSt.bme hto.same).trans (bme_busOff _ _ _), fun _ hb => ?_⟩
    have hb' : (s.endIdle.fn f).bme = true := (fn_field FnSt.bme ((still_endIdle s).fns f)).trans hb
    have hone := hto.same
    rw [busOff, if_pos hb', time64_base (still_endIdle s).toBase] at hone
    exact ended_of hone (fn_field FnSt.state ((still_endIdle s).fns f))
  · exact ⟨_, congrArg Host.Outcome.next (if_neg hf), by rw [fn_setFn_same], fun h => absurd h hf⟩

/-! ### Pending messages (R80, R114) -/

/-- One pending message of a function leaves where it may. -/
def flushOne (f : Nat) (t : State) (k : Nat) : State :=
  if (t.fn f).msixEn ∧ (t.fn f).msixPend.getLsbD k ∧ (t.fn f).msixMask.getLsbD k = false then
    (t.setFn f (fun n => { n with msixPend := n.msixPend &&& ~~~(BitVec.ofNat 64 (2 ^ k)) })).msix f k
  else t

theorem msixFlush_succ (s : State) (f k : Nat) : s.msixFlush f (k + 1) = flushOne f (s.msixFlush f k) k := rfl

theorem still_flushOne (f : Nat) (t : State) (k : Nat) : Still t (flushOne f t k) := by
  unfold flushOne
  split
  · have hclear : Still t (t.setFn f (fun n => { n with msixPend := n.msixPend &&& ~~~(BitVec.ofNat 64 (2 ^ k)) })) :=
      still_of_flags (flags_setFn (fun _ => rfl) (flags_refl t))
    exact still_trans hclear (still_of_flags (flags_msix f k (flags_refl _)))
  · exact still_refl t

theorem still_msixFlush (s : State) (f k : Nat) : Still s (s.msixFlush f k) := by
  induction k with
  | zero => exact still_refl s
  | succ k ih => exact still_trans ih (still_flushOne f _ k)

/-- While MSI-X is disabled nothing leaves. -/
theorem msixFlush_disabled {s : State} {f : Nat} (h : (s.fn f).msixEn = false) (k : Nat) : s.msixFlush f k = s := by
  induction k with
  | zero => rfl
  | succ k ih =>
    rw [msixFlush_succ, ih]
    exact if_neg (by simp [h])

theorem out_flushOne (f : Nat) (t : State) (k : Nat) : t.out <+: (flushOne f t k).out := by
  unfold flushOne
  split
  · exact (does_msix (M := 0xc000080) (by decide) (does_setFn (by decide) (does_refl _ t))).out
  · exact List.prefix_refl _

/-- A message of a vector that may send leaves, or is held with the level outputs; its function stays. -/
theorem msix_open {s : State} {f v : Nat} (hm : (s.fn f).msixMask.getLsbD v = false) (he : (s.fn f).msixEn = true) :
    (s.msix f v).fn f = s.fn f ∧ (s.pair.levels = none → Emits (.msix f v (tget (s.fn f).msixAddr v) (tget (s.fn f).msixData v)) s (s.msix f v)) := by
  unfold State.msix
  rw [if_neg (by simp [hm, he])]
  split
  next h => exact ⟨rfl, fun hn => by simp [hn] at h⟩
  · exact ⟨rfl, fun _ => ⟨_, rfl, List.mem_singleton_self _⟩⟩

theorem getLsbD_clear {x : BitVec 64} {k v : Nat} (hv : v < 64) :
    (x &&& ~~~(BitVec.ofNat 64 (2 ^ k))).getLsbD v = (x.getLsbD v && !decide (v = k)) := by
  have hpow : (BitVec.ofNat 64 (2 ^ k)).getLsbD v = decide (v = k) := by
    rw [BitVec.getLsbD_ofNat, Nat.testBit_two_pow]
    simp [hv, eq_comm]
  rw [BitVec.getLsbD_and, BitVec.getLsbD_not, hpow]
  simp [hv]

/-- Only the vector's own pending bit can move. -/
theorem pend_flushOne {f k v : Nat} (t : State) (hv : v < 64) : ((flushOne f t k).fn f).msixPend.getLsbD v =
    ((t.fn f).msixPend.getLsbD v && !decide (v = k ∧ (t.fn f).msixEn = true ∧ (t.fn f).msixMask.getLsbD k = false)) := by
  unfold flushOne
  split
  next h =>
    obtain ⟨he, hp, hm⟩ := h
    rw [(msix_open (f := f) (v := k) (by rw [fn_setFn_same]; exact hm) (by rw [fn_setFn_same]; exact he)).1, fn_setFn_same, getLsbD_clear hv]
    simp [he, hm]
  next h =>
    by_cases hvk : v = k
    · subst hvk
      by_cases hp : (t.fn f).msixPend.getLsbD v = true
      · have hno : ¬ ((t.fn f).msixEn = true ∧ (t.fn f).msixMask.getLsbD v = false) := fun hc => h ⟨hc.1, hp, hc.2⟩
        simp [hno]
      · simp [hp]
    · simp [hvk]

/-- What of a vector that may send has become of its pending message. -/
theorem msixFlush_sends {s : State} {f k v : Nat} (hk : k ≤ 64) (hv : v < k) (he : (s.fn f).msixEn = true) (hm : (s.fn f).msixMask.getLsbD v = false)
    (hp : (s.fn f).msixPend.getLsbD v = true) : ((s.msixFlush f k).fn f).msixPend.getLsbD v = false ∧ (s.pair.levels = none →
      Emits (.msix f v (tget (s.fn f).msixAddr v) (tget (s.fn f).msixData v)) s (s.msixFlush f k)) := by
  have hkeep : ∀ j ≤ v, ((s.msixFlush f j).fn f).msixPend.getLsbD v = true := by
    intro j hj
    induction j with
    | zero => exact hp
    | succ j ih =>
      rw [msixFlush_succ, pend_flushOne _ (by omega), ih (by omega)]
      simp [show v ≠ j by omega]
  have hstill := still_msixFlush s f v
  have he' := (fn_field FnSt.msixEn (hstill.fns f)).trans he
  have hm' := (congrArg (fun x => x.getLsbD v) (fn_field FnSt.msixMask (hstill.fns f))).trans hm
  induction k with
  | zero => omega
  | succ k ih =>
    rw [msixFlush_succ]
    by_cases hvk : v = k
    · subst hvk
      refine ⟨by rw [pend_flushOne _ (by omega)]; simp [he', hm'], fun hl => ?_⟩
      have hout := (does_msixFlush (M := 0xc000080) (f := f) (n := v) (by decide) (does_refl _ s)).out
      refine emits_before hout ?_
      unfold flushOne
      rw [if_pos ⟨he', hkeep v (le_refl v), hm'⟩]
      have hsent := (msix_open (s := (s.msixFlush f v).setFn f (fun n => { n with msixPend := n.msixPend &&& ~~~(BitVec.ofNat 64 (2 ^ v)) }))
        (f := f) (v := v) (by rw [fn_setFn_same]; exact hm') (by rw [fn_setFn_same]; exact he')).2 (by rw [← hl, ← hstill.pair]; rfl)
      rw [fn_setFn_same] at hsent
      rw [← fn_field FnSt.msixAddr (hstill.fns f), ← fn_field FnSt.msixData (hstill.fns f)]
      exact hsent
    · obtain ⟨hpend, hsent⟩ := ih (by omega) (by omega)
      exact ⟨by rw [pend_flushOne _ (by omega), hpend]; rfl, fun hl => emits_after (hsent hl) (out_flushOne _ _ _)⟩

theorem vectors_le (f : Nat) : vectors f ≤ 64 := by
  unfold vectors
  split
  · exact le_refl _
  · split <;> decide

/-- The mask bit of a vector is that of the word written to its vector control. -/
theorem mask_msixEntry (n : FnSt) {v : Nat} (hv : v < 64) (x : Word) : (n.msixEntry v 3 x.toNat).msixMask.getLsbD v = x.getLsbD 0 := by
  have hbit : (BitVec.ofNat 64 (x.toNat % 2 * 2 ^ v)).getLsbD v = x.getLsbD 0 := by
    rw [BitVec.getLsbD_ofNat, Nat.testBit_mul_two_pow]
    simp [hv, BitVec.getLsbD, Nat.testBit_zero]
  have hclear : ((n.msixMask &&& ~~~(BitVec.ofNat 64 (2 ^ v))) ||| BitVec.ofNat 64 (x.toNat % 2 * 2 ^ v)).getLsbD v = x.getLsbD 0 := by
    rw [BitVec.getLsbD_or, getLsbD_clear hv, hbit]
    simp
  exact hclear

theorem msixEntry_kept (n : FnSt) (v dw x : Nat) : (n.msixEntry v dw x).msixEn = n.msixEn ∧ (n.msixEntry v dw x).msixPend = n.msixPend := by
  unfold FnSt.msixEntry
  dsimp only
  split
  · exact ⟨rfl, rfl⟩
  · split
    · exact ⟨rfl, rfl⟩
    · split <;> exact ⟨rfl, rfl⟩

theorem unmask_gives {s : State} (f : Fin 68) (dw : Fin 256) (x : Word) (hp : s.noPartner = false) (hv : dw.val / 4 < vectors f) :
    Gives (.msixVectorUnmask f dw x) s (fun t =>
      let v := dw.val / 4
      let n := (s.fn f).msixEntry v (dw.val % 4) x.toNat
      (t.fn f).msixMask = n.msixMask ∧ (t.fn f).msixAddr = n.msixAddr ∧ (t.fn f).msixData = n.msixData ∧
      (dw.val % 4 = 3 → (t.fn f).msixMask.getLsbD v = x.getLsbD 0) ∧
      ((s.fn f).msixEn = true → n.msixMask.getLsbD v = false → (s.fn f).msixPend.getLsbD v = true →
        (t.fn f).msixPend.getLsbD v = false ∧ (s.pair.levels = none →
          ∃ l, t.out = s.out ++ l ∧ Out.msix f v (tget n.msixAddr v) (tget n.msixData v) ∈ l)) ∧
      ((s.fn f).msixEn = false → (t.fn f).msixPend = (s.fn f).msixPend ∧ t.out = s.out)) := by
  refine ⟨_, congrArg Host.Outcome.next (if_pos ⟨hv, hp⟩), ?_⟩
  have hfn : (s.arrives f).fn f = s.fn f := fn_congr (keeps_arrives s f .fns (by decide)) f
  have hset : ((s.arrives f).setFn f (fun n => n.msixEntry (dw.val / 4) (dw.val % 4) x.toNat)).fn f =
      (s.fn f).msixEntry (dw.val / 4) (dw.val % 4) x.toNat := by rw [fn_setFn_same, hfn]
  have hout : ((s.arrives f).setFn f (fun n => n.msixEntry (dw.val / 4) (dw.val % 4) x.toNat)).out = s.out := arrives_out s f
  have hpair : ((s.arrives f).setFn f (fun n => n.msixEntry (dw.val / 4) (dw.val % 4) x.toNat)).pair = s.pair := arrives_pair s f
  generalize (s.arrives f).setFn f (fun n => n.msixEntry (dw.val / 4) (dw.val % 4) x.toNat) = u at hset hout hpair
  obtain ⟨hen, hpend⟩ := msixEntry_kept (s.fn f) (dw.val / 4) (dw.val % 4) x.toNat
  have hstill := still_msixFlush u f (vectors f)
  have hmask := fn_field FnSt.msixMask (hstill.fns f)
  rw [hset] at hmask
  refine ⟨hmask, by rw [← hset]; exact fn_field FnSt.msixAddr (hstill.fns f), by rw [← hset]; exact fn_field FnSt.msixData (hstill.fns f),
    fun h3 => ?_, fun he hm hp => ?_, fun he => ?_⟩
  · rw [hmask, h3]
    exact mask_msixEntry _ (Nat.lt_of_lt_of_le hv (vectors_le f)) x
  · obtain ⟨hgone, hsent⟩ := msixFlush_sends (s := u) (f := f) (v := dw.val / 4) (vectors_le f) hv (by rw [hset, hen, he]) (by rw [hset]; exact hm)
      (by rw [hset, hpend]; exact hp)
    refine ⟨hgone, fun hl => ?_⟩
    have hem := hsent (by rw [hpair]; exact hl)
    rw [hset] at hem
    exact emits_before (by rw [hout]) hem
  · rw [msixFlush_disabled (by rw [hset, hen, he])]
    exact ⟨by rw [hset, hpend], hout⟩

/-! ### The operator's commands (R97, Table 4-11) -/

theorem statesKept_of_fns {s t : State} (h : t.fns = s.fns) : StatesKept s t := fun k => by rw [fn_congr h]; exact ⟨rfl, rfl, rfl⟩

/-- A command register that reads back as written bears on nothing else. -/
theorem wrote_parts (s : State) (off v f : Nat) : (s.wrote off v).present f = s.present f ∧ (s.wrote off v).enabled f = s.enabled f ∧
    (s.wrote off v).time64 = s.time64 ∧ (s.wrote off v).fns = s.fns := ⟨rfl, rfl, rfl, rfl⟩

theorem did_partnerWake (s : State) (f : Nat) : Does 0x1610000 s (s.partnerWake f) := does_partnerWake (by decide) (does_refl _ s)

theorem exec_fnCmdEvict {s : State} {f : Fin 68} (hp : s.noPartner = false) (hh : s.partnerHeld [2, 5] = false)
    (hst : (s.fn f).state = .enrolled ∨ (s.fn f).state = .checking) :
    exec (.fnCmdEvict f) s = .next (((s.endIdle.wrote 0x4A00 (f + 256 * 1)).beginEvict f 8 false).partnerWake 64) := by
  have hst' : ((s.endIdle.wrote 0x4A00 (f + 256 * 1)).fn f).state = (s.fn f).state :=
    congrArg FnSt.state (fn_congr ((wrote_parts s.endIdle _ _ 0).2.2.2.trans (keeps_endIdle s .fns (by decide))) f)
  have hev : (s.endIdle.wrote 0x4A00 (f + 256 * 1)).fnEvict f = (s.endIdle.wrote 0x4A00 (f + 256 * 1)).beginEvict f 8 false := by
    unfold State.fnEvict
    rw [hst']
    rcases hst with hst | hst <;> rw [hst]
  show Host.Outcome.next (s.fnCmdGo f 1) = _
  rw [← hev]
  unfold State.fnCmdGo
  dsimp only
  rw [if_neg (by simp [hp]), if_neg (by simp [hh])]
  rfl

theorem fnCmdEvict_gives {s : State} {f : Fin 68} (hp : s.noPartner = false) (hh : s.partnerHeld [2, 5] = false)
    (hst : (s.fn f).state = .enrolled ∨ (s.fn f).state = .checking) : Gives (.fnCmdEvict f) s (fun t => Ended f 8 s t ∧
      ((s.fn f).busy = true → Answered f (s.fn f).goOp (s.fn f).goSeq 0x0A 0 t)) := by
  refine ⟨_, exec_fnCmdEvict hp hh hst, ?_⟩
  obtain ⟨-, -, ht, hf⟩ := wrote_parts s.endIdle 0x4A00 (f + 256 * 1) f
  have hfns : (s.endIdle.wrote 0x4A00 (f + 256 * 1)).fn f = s.fn f := fn_congr (hf.trans (keeps_endIdle s .fns (by decide))) f
  have ht64 : (s.endIdle.wrote 0x4A00 (f + 256 * 1)).time64 = s.time64 := ht.trans (time64_base (still_endIdle s).toBase)
  have hto := fnTo_beginEvict (s.endIdle.wrote 0x4A00 (f + 256 * 1)) f 8 false
  rw [hfns, ht64] at hto
  generalize (s.endIdle.wrote 0x4A00 (f + 256 * 1)).beginEvict f 8 false = u at hto
  have hwake : (u.partnerWake 64).fns = u.fns := (did_partnerWake u 64).keeps .fns (by decide)
  refine ⟨ended_kept (ended_of_evicted hto.same hst) (statesKept_of_fns hwake), fun hb => ?_⟩
  unfold Answered
  rw [fn_congr hwake]
  have hsame := hto.same
  rw [evicted, if_pos ⟨hb, rfl⟩] at hsame
  exact ⟨fn_field FnSt.replySeq hsame, fn_field FnSt.busy hsame, fn_field FnSt.wait hsame, fn_field FnSt.reply hsame⟩

theorem fnCmdRelease_gives {s : State} {f : Fin 68} (hp : s.noPartner = false) (hh : s.partnerHeld [2, 5] = false)
    (hst : (s.fn f).state = .quarantined) : Gives (.fnCmdRelease f) s (fun t => ∃ u, Raises .fnReleased (le 1 f.val)
      ((s.endIdle.wrote 0x4A00 (f.val + 512)).setFn f (fun q =>
        { q with state := if s.present f = false then .absent else if s.enabled f = false then .disabled else .idle, fenceN := 0 })) u ∧
      t = u.partnerWake 64) := by
  obtain ⟨hp', he', -, hf'⟩ := wrote_parts s.endIdle 0x4A00 (f + 512) f
  have hst' : ((s.endIdle.wrote 0x4A00 (f + 512)).fn f).state = .quarantined :=
    (congrArg FnSt.state (fn_congr (hf'.trans (keeps_endIdle s .fns (by decide))) f)).trans hst
  have hpresent := hp'.trans (present_held (held_of_still (still_endIdle s)) f)
  have henabled := he'.trans (enabled_congr (still_endIdle s).setup f)
  have hrel : (s.endIdle.wrote 0x4A00 (f + 512)).fnRelease f = ((s.endIdle.wrote 0x4A00 (f.val + 512)).setFn f (fun q =>
      { q with state := if s.present f = false then .absent else if s.enabled f = false then .disabled else .idle, fenceN := 0 })).raise
        .fnReleased (le 1 f) := by
    unfold State.fnRelease
    rw [if_pos hst', hpresent, henabled]
  refine ⟨_, ?_, _, raise_raises _ _ _, rfl⟩
  show Host.Outcome.next (s.fnCmdGo f 2) = _
  rw [← hrel]
  unfold State.fnCmdGo
  dsimp only
  rw [if_neg (by simp [hp]), if_neg (by simp [hh])]
  rfl

/-! ### The end of an eviction (R98, Table 4-11) -/

/-- A function whose eviction has ended, before what waited for it. -/
def freed (q : FnSt) (next : FnState) : FnSt := { q with state := next, cause := q.evCause, grantTx := 0, grantRx := 0, grantCq := 0 }

/-- The end of an eviction before what waited for it. -/
def evictReported (s : State) (f : Nat) : State :=
  ((s.setFn f (fun q => { q with state := s.afterEvict f, cause := (s.fn f).evCause, grantTx := 0, grantRx := 0, grantCq := 0 })).count
    .evictCount f).raise .fnEvicted (le 1 f ++ le 1 (s.fn f).evCause ++ le 8 (s.fn f).evT0)

theorem fnTo_evictReported (s : State) (f : Nat) : FnTo f (freed (s.fn f) (s.afterEvict f)) s (evictReported s f) :=
  fnTo_still (fnTo_setFn s f (fun q => { q with state := s.afterEvict f, cause := (s.fn f).evCause, grantTx := 0, grantRx := 0, grantCq := 0 }))
    (still_of_flags (flags_raise _ _ (flags_count _ _ (flags_refl _))))

theorem reports_evictReported (s : State) (f : Nat) :
    Reports .fnEvicted (le 1 f ++ le 1 (s.fn f).evCause ++ le 8 (s.fn f).evT0) s (evictReported s f) :=
  reports_before (does_countN (M := 0xe2200a2) (by decide) (does_setFn (by decide) (does_refl _ s))).out (reports_raise _ _ _)

theorem evictionComplete_gives {s : State} {f : Fin 68} (hst : (s.fn f).state = .evicting) (hw : (s.fn f).wait = none ∨ (s.fn f).wait = some .leave) :
    Gives (.evictionComplete f) s (fun t =>
      (t.fn f).state = (if (s.fn f).evCause = 7 then .quarantined else if s.present f = false then .absent
        else if s.enabled f = false then .disabled else .idle) ∧ (t.fn f).cause = (s.fn f).evCause ∧
      (t.fn f).grantTx = 0 ∧ (t.fn f).grantRx = 0 ∧ (t.fn f).grantCq = 0 ∧
      Reports .fnEvicted (le 1 f.val ++ le 1 (s.fn f).evCause ++ le 8 (s.fn f).evT0) s t ∧
      ((s.fn f).wait = some .leave → Answered f (s.fn f).goOp (s.fn f).goSeq 0 0 t)) := by
  refine ⟨_, congrArg Host.Outcome.next (if_pos hst), ?_⟩
  have hflow : Does 0x7000 (s.finishEvict f) (s.finishEvict f).flowAll := does_flowAll (by decide) (does_refl _ _)
  have hto := fnTo_evictReported s f
  have hrep := reports_evictReported s f
  rcases hw with hw | hw
  · have hfin : s.finishEvict f = evictReported s f := by
      unfold State.finishEvict
      dsimp only
      rw [hw]
      rfl
    rw [hfin] at hflow ⊢
    have hone := (fnTo_still hto (still_of_does hflow)).same
    exact ⟨fn_field FnSt.state hone, fn_field FnSt.cause hone, fn_field FnSt.grantTx hone, fn_field FnSt.grantRx hone, fn_field FnSt.grantCq hone,
      reports_after hrep hflow.out, fun h => by rw [hw] at h; simp at h⟩
  · have hfin : s.finishEvict f = (evictReported s f).mbxReply f 0 0 := by
      unfold State.finishEvict
      dsimp only
      rw [hw]
      rfl
    rw [hfin] at hflow ⊢
    have hone := (fnTo_still (fnTo_mbxReply (evictReported s f) f 0 0) (still_of_does hflow)).same
    have hreply : Does 0xc000080 (evictReported s f) ((evictReported s f).mbxReply f 0 0) := does_mbxReply (by decide) (does_refl _ _)
    have hop : ((evictReported s f).fn f).goOp = (freed (s.fn f) (s.afterEvict f)).goOp := fn_field FnSt.goOp hto.same
    have hseq : ((evictReported s f).fn f).goSeq = (freed (s.fn f) (s.afterEvict f)).goSeq := fn_field FnSt.goSeq hto.same
    generalize evictReported s f = u at hone hop hseq hto hrep hreply hflow
    refine ⟨(fn_field FnSt.state hone).trans (fn_field FnSt.state hto.same), (fn_field FnSt.cause hone).trans (fn_field FnSt.cause hto.same),
      (fn_field FnSt.grantTx hone).trans (fn_field FnSt.grantTx hto.same), (fn_field FnSt.grantRx hone).trans (fn_field FnSt.grantRx hto.same),
      (fn_field FnSt.grantCq hone).trans (fn_field FnSt.grantCq hto.same), reports_after hrep (hreply.out.trans hflow.out), fun _ => ?_⟩
    refine ⟨(fn_field FnSt.replySeq hone).trans hseq, fn_field FnSt.busy hone, fn_field FnSt.wait hone, (fn_field FnSt.reply hone).trans ?_⟩
    rw [replied, hop, hseq]
    rfl

/-! ### Configuration writes (R81, R82) -/

/-- Function `f` has become `q`, but for interrupts that are pending; other functions may have changed. -/
structure FnAt (f : Nat) (q : FnSt) (s t : State) : Prop extends Base s t where
  same : (t.fn f).sans = q.sans

theorem fnAt_still {f : Nat} {q : FnSt} {s t u : State} (h : FnAt f q s t) (k : Still t u) : FnAt f q s u :=
  ⟨base_trans h.toBase k.toBase, (k.fns f).trans h.same⟩

/-- A physical function's VF Enable and NumVFs as a configuration write leaves them. -/
def cfgVfs (f : Nat) (b : CfgBits) (q : FnSt) : FnSt := if f < 64 then q else { q with vfEn := b.vfEn, numVfs := b.numVfs.val }

/-- What a configuration write clears has ended presence. -/
def cfgEnds (f : Nat) (b : CfgBits) (t0 : Nat) (q : FnSt) : FnSt :=
  let r := if b.d0 then q else inD3 q f t0
  if b.bme then r else busOff r f t0

/-- The bits of a configuration write. -/
def cfgPut (f : Nat) (b : CfgBits) (q : FnSt) : FnSt :=
  { q with d0 := b.d0, bme := b.bme, mrrs := if f < 64 then q.mrrs else b.mrrs.val, msixEn := b.msixEn, ro := b.ro }

/-- A configuration write until its functions arrive. -/
def cfgSet (s : State) (f : Nat) (b : CfgBits) : State :=
  let s1 := if f < 64 then s else s.setVfs f b.vfEn b.numVfs.val
  let s2 := if b.d0 then s1 else s1.toD3 f
  let s3 := if b.bme then s2 else s2.bmeOff f
  (s3.setFn f (cfgPut f b)).msixFlush f (vectors f)

theorem configWrite_stays {s : State} {f : Nat} {b : CfgBits} (h : b.d0 = true → (s.fn f).d0 = true) :
    s.configWrite f b = State.arriveNew s (cfgSet s f b) ((cfgSet s f b).configFns f) := by
  unfold State.configWrite
  rw [if_neg (fun hc => by rw [h hc.1] at hc; simp at hc)]
  rfl

theorem inD3_congr {q r : FnSt} (h : q.sans = r.sans) (f t0 : Nat) : (inD3 q f t0).sans = (inD3 r f t0).sans := by
  have hd : q.d0 = r.d0 := (congrArg FnSt.d0 h : q.sans.d0 = r.sans.d0)
  unfold inD3
  rw [hd]
  split
  · exact ended_congr (congrArg (fun q : FnSt => { q with d0 := false }) h) _ _ _ _
  · exact h

theorem busOff_congr {q r : FnSt} (h : q.sans = r.sans) (f t0 : Nat) : (busOff q f t0).sans = (busOff r f t0).sans := by
  have hb : q.bme = r.bme := (congrArg FnSt.bme h : q.sans.bme = r.sans.bme)
  unfold busOff
  rw [hb]
  split
  · exact ended_congr (congrArg (fun q : FnSt => { q with bme := false }) h) _ _ _ _
  · exact h

theorem cfgPut_congr {q r : FnSt} (h : q.sans = r.sans) (f : Nat) (b : CfgBits) : (cfgPut f b q).sans = (cfgPut f b r).sans :=
  congrArg (cfgPut f b) h

theorem fnAt_cfgSet (s : State) (f : Fin 72) (b : CfgBits) : FnAt f (cfgPut f b (cfgEnds f b s.time64 (cfgVfs f b (s.fn f)))) s (cfgSet s f b) := by
  unfold cfgSet cfgEnds
  extract_lets r s1 s2 s3
  have h1 : FnAt f (cfgVfs f b (s.fn f)) s s1 := by
    show FnAt f (if f.val < 64 then s.fn f else { s.fn f with vfEn := b.vfEn, numVfs := b.numVfs.val }) s
      (if f.val < 64 then s else s.setVfs f b.vfEn b.numVfs.val)
    by_cases h : f.val < 64
    · rw [if_pos h, if_pos h]
      exact ⟨base_refl s, rfl⟩
    · rw [if_neg h, if_neg h]
      have hall := fnsTo_setVfs s f b.vfEn b.numVfs.val
      have hset : Base s (withVfs s f b.vfEn b.numVfs.val) := (fnTo_setFn s f _).toBase
      exact ⟨base_trans hset hall.toBase, (setVfs_gives s (by omega) f.isLt b.vfEn b.numVfs.val).1⟩
  have h2 : FnAt f r s s2 := by
    show FnAt f (if b.d0 then _ else _) s (if b.d0 then s1 else s1.toD3 f)
    split
    · exact h1
    · exact ⟨base_trans h1.toBase (fnTo_toD3 s1 f).toBase,
        (fnTo_toD3 s1 f).same.trans (by rw [time64_base h1.toBase]; exact inD3_congr h1.same f _)⟩
  have h3 : FnAt f (if b.bme then r else busOff r f s.time64) s s3 := by
    show FnAt f _ s (if b.bme then s2 else s2.bmeOff f)
    split
    · exact h2
    · exact ⟨base_trans h2.toBase (fnTo_bmeOff s2 f).toBase,
        (fnTo_bmeOff s2 f).same.trans (by rw [time64_base h2.toBase]; exact busOff_congr h2.same f _)⟩
  have h4 := fnTo_setFn s3 f (cfgPut f b)
  exact fnAt_still ⟨base_trans h3.toBase h4.toBase, h4.same.trans (cfgPut_congr h3.same f b)⟩ (still_msixFlush _ f _)

/-! ### Functions that arrive (R81) -/

theorem arriveNew_eq_foldl (was s : State) (l : List Nat) : State.arriveNew was s l =
    l.foldl (fun t f => if was.present f = false ∧ t.present f then t.becomePresent f else t) s := by
  induction l generalizing s with
  | nil => rfl
  | cons f r ih => exact ih _

/-- What of a function a configuration write makes present. -/
def cfgArrives (was s : State) (f : Nat) (q : FnSt) : FnSt :=
  if was.present f = false ∧ s.present f = true then madePresent q (s.enabled f) else q

theorem cfgOf_cfgArrives (was s : State) (f : Nat) (q : FnSt) : cfgOf (cfgArrives was s f q) = cfgOf q := by
  unfold cfgArrives
  split
  · exact cfgOf_madePresent _ _
  · rfl

theorem arriveOne (was : State) {s u : State} (hu : Held s u) (f : Nat) :
    FnTo f (cfgArrives was s f (u.fn f)) u (if was.present f = false ∧ u.present f then u.becomePresent f else u) := by
  rw [present_held hu f]
  unfold cfgArrives
  split
  · rw [← enabled_congr hu.base.setup f]
    exact fnTo_becomePresent u f
  · exact fnTo_refl u f

theorem fnsTo_arriveNew (was s : State) {l : List Nat} (hl : l.Nodup) : FnsTo l (cfgArrives was s) s (State.arriveNew was s l) := by
  rw [arriveNew_eq_foldl]
  refine fnsTo_foldl (I := Held s) (fun u hu f => ?_) (fun f q r h => ?_) hl (held_refl s)
  · have hone := arriveOne was hu f
    exact ⟨held_trans hu (held_of_fnTo hone (cfgOf_cfgArrives _ _ _ _)), hone⟩
  · unfold cfgArrives
    split
    · exact madePresent_congr h _
    · exact h

/-- A function that a write makes present is reported, in a state that its presence does not end. -/
theorem reports_arriveNew {was s : State} {l : List Nat} (hl : l.Nodup) {f : Nat} (hf : f ∈ l) (hnot : was.present f = false) (hnow : s.present f = true)
    (hst : (s.fn f).state = .absent ∨ (s.fn f).state = .evicting ∨ (s.fn f).state = .quarantined) :
    Reports .fnPresent (le 1 f) s (State.arriveNew was s l) := by
  obtain ⟨a, b, rfl⟩ := List.append_of_mem hf
  have hna : f ∉ a := fun h => (List.nodup_append.mp hl).2.2 f h f List.mem_cons_self rfl
  have ha : a.Nodup := (List.nodup_append.mp hl).1
  have hsplit : State.arriveNew was s (a ++ f :: b) = State.arriveNew was ((State.arriveNew was s a).becomePresent f) b := by
    have hheld := held_of_fnsTo (fnsTo_arriveNew was s ha) (cfgOf_cfgArrives _ _)
    rw [arriveNew_eq_foldl, List.foldl_append, ← arriveNew_eq_foldl, ← arriveNew_eq_foldl]
    show State.arriveNew was (if was.present f = false ∧ (State.arriveNew was s a).present f then (State.arriveNew was s a).becomePresent f
      else State.arriveNew was s a) b = _
    rw [if_pos ⟨hnot, (present_held hheld f).trans hnow⟩]
  have hkept := fn_field FnSt.state ((fnsTo_arriveNew was s ha).outside f hna)
  have hbefore : Does 0xe220082 s (State.arriveNew was s a) := does_arriveNew (by decide) (does_refl _ s)
  have hafter : Does 0xe220082 ((State.arriveNew was s a).becomePresent f) (State.arriveNew was ((State.arriveNew was s a).becomePresent f) b) :=
    does_arriveNew (by decide) (does_refl _ _)
  rw [hsplit]
  refine reports_before hbefore.out (reports_after ?_ hafter.out)
  unfold State.becomePresent
  rw [hkept]
  rcases hst with h | h | h <;> rw [h]
  · exact reports_before (List.prefix_refl _) (reports_raise _ _ _)
  · exact reports_raise _ _ _
  · exact reports_raise _ _ _

theorem nodup_configFns (s : State) (f : Fin 72) : (s.configFns f).Nodup := by
  unfold State.configFns
  split
  · exact List.nodup_singleton _
  next h =>
    have hlt : ∀ k ∈ s.linkTfs (pfLink f), k < 64 := fun k hk => linkTfs_lt (pfLink_lt (by omega) f.isLt) hk
    split
    · refine List.nodup_cons.mpr ⟨fun hm => h (hlt f hm), nodup_linkTfs s _⟩
    · exact nodup_linkTfs s _

theorem mem_configFns {s : State} {f : Nat} (hf : f < 68) : f ∈ s.configFns f := by
  unfold State.configFns
  rw [if_pos hf]
  split
  · exact List.mem_singleton_self f
  · exact List.mem_append_left _ (List.mem_singleton_self f)

/-! ### Their sum -/

theorem cfgEnds_cfg (f : Nat) (b : CfgBits) (t0 : Nat) (q : FnSt) : (cfgEnds f b t0 q).vfEn = q.vfEn ∧ (cfgEnds f b t0 q).numVfs = q.numVfs := by
  have hd : ∀ r, (inD3 r f t0).vfEn = r.vfEn ∧ (inD3 r f t0).numVfs = r.numVfs := by
    intro r
    unfold inD3
    split
    · have := cfgOf_ended { r with d0 := false } f 5 t0 true
      exact ⟨congrArg (fun c => c.2.2.1) this, congrArg (fun c => c.2.2.2) this⟩
    · exact ⟨rfl, rfl⟩
  have hb : ∀ r, (busOff r f t0).vfEn = r.vfEn ∧ (busOff r f t0).numVfs = r.numVfs := by
    intro r
    unfold busOff
    split
    · have := cfgOf_ended { r with bme := false } f 0x0B t0 false
      exact ⟨congrArg (fun c => c.2.2.1) this, congrArg (fun c => c.2.2.2) this⟩
    · exact ⟨rfl, rfl⟩
  unfold cfgEnds
  dsimp only
  split
  · split
    · exact ⟨rfl, rfl⟩
    · exact hd q
  · split
    · exact hb q
    · exact ⟨(hb _).1.trans (hd q).1, (hb _).2.trans (hd q).2⟩

/-- A function whose presence has ended does not end again. -/
theorem ended_again (q : FnSt) (f c c' t0 t1 : Nat) (r : Bool) (p : FnSt → FnSt) (hp : ∀ x, (p x).state = x.state ∧ (p x).evCause = x.evCause ∧ (p x).evT0 = x.evT0) :
    (ended (p (ended q f c t0 r)) f c' t1 false).state = (ended q f c t0 r).state ∧
    (ended (p (ended q f c t0 r)) f c' t1 false).evCause = (ended q f c t0 r).evCause ∧
    (ended (p (ended q f c t0 r)) f c' t1 false).evT0 = (ended q f c t0 r).evT0 := by
  have hgone : (ended q f c t0 r).state = .absent ∨ (ended q f c t0 r).state = .evicting ∨ (ended q f c t0 r).state = .quarantined := by
    have hbox : (if r then boxReset q else q).state = q.state := by cases r <;> rfl
    unfold ended
    cases hq : q.state with
    | enrolled | checking => exact .inr (.inl rfl)
    | idle | disabled => exact .inl rfl
    | absent | evicting | quarantined => simp [hbox, hq]
  obtain ⟨h1, h2, h3⟩ := hp (ended q f c t0 r)
  generalize ended q f c t0 r = x at hgone h1 h2 h3
  have hsame : ended (p x) f c' t1 false = p x := by
    unfold ended
    rw [h1]
    rcases hgone with h | h | h <;> rw [h] <;> rfl
  rw [hsame]
  exact ⟨h1, h2, h3⟩

theorem d0_cfgVfs (f : Nat) (b : CfgBits) (q : FnSt) : (cfgVfs f b q).d0 = q.d0 := by
  unfold cfgVfs
  split <;> rfl

theorem bme_cfgVfs (f : Nat) (b : CfgBits) (q : FnSt) : (cfgVfs f b q).bme = q.bme := by
  unfold cfgVfs
  split <;> rfl

theorem state_cfgVfs (f : Nat) (b : CfgBits) (q : FnSt) : (cfgVfs f b q).state = q.state := by
  unfold cfgVfs
  split <;> rfl

/-- A write that leaves D0 ends presence with POWER_STATE, whatever it does to Bus Master Enable. -/
theorem cfgEnds_d3 {f t0 : Nat} {b : CfgBits} {q : FnSt} (hb : b.d0 = false) (hq : q.d0 = true) :
    (cfgEnds f b t0 q).state = (ended { q with d0 := false } f 5 t0 true).state ∧
    (cfgEnds f b t0 q).evCause = (ended { q with d0 := false } f 5 t0 true).evCause ∧
    (cfgEnds f b t0 q).evT0 = (ended { q with d0 := false } f 5 t0 true).evT0 := by
  unfold cfgEnds
  rw [hb]
  have hin : inD3 q f t0 = ended { q with d0 := false } f 5 t0 true := if_pos hq
  simp only [Bool.false_eq_true, if_false, hin]
  split
  · exact ⟨rfl, rfl, rfl⟩
  · unfold busOff
    split
    · exact ended_again { q with d0 := false } f 5 0x0B t0 t0 true (fun x => { x with bme := false }) (fun x => ⟨rfl, rfl, rfl⟩)
    · exact ⟨rfl, rfl, rfl⟩

theorem cfgEnds_bme {f t0 : Nat} {b : CfgBits} {q : FnSt} (hd : b.d0 = true) (hb : b.bme = false) (hq : q.bme = true) :
    (cfgEnds f b t0 q).state = (ended { q with bme := false } f 0x0B t0 false).state ∧
    (cfgEnds f b t0 q).evCause = (ended { q with bme := false } f 0x0B t0 false).evCause ∧
    (cfgEnds f b t0 q).evT0 = (ended { q with bme := false } f 0x0B t0 false).evT0 := by
  have hends : cfgEnds f b t0 q = ended { q with bme := false } f 0x0B t0 false := by
    unfold cfgEnds
    rw [hd, hb]
    exact if_pos hq
  rw [hends]
  exact ⟨rfl, rfl, rfl⟩

theorem out_cfgSet (s : State) (f : Nat) (b : CfgBits) : s.out <+: (cfgSet s f b).out := by
  have h1 : Does 0xe227f82 s (if f < 64 then s else s.setVfs f b.vfEn b.numVfs.val) := does_ite (does_refl _ s) (does_setVfs (by decide) (does_refl _ s))
  have h2 := does_ite (c := b.d0 = true) h1 (does_toD3 (f := f) (by decide) h1)
  have h3 := does_ite (c := b.bme = true) h2 (does_bmeOff (f := f) (by decide) h2)
  exact (does_msixFlush (f := f) (n := vectors f) (by decide) (does_setFn (n := f) (f := cfgPut f b) (by decide) h3)).out

/-- What a list of functions that arrive leaves of one of the configuration's, or of none. -/
theorem arrived_at {was u t : State} {l : List Nat} (h : FnsTo l (cfgArrives was u) u t) (f : Nat) :
    (∃ st, (t.fn f).sans = ({ u.fn f with state := st } : FnSt).sans) ∧ (u.present f = false → (t.fn f).sans = (u.fn f).sans) := by
  by_cases hf : f ∈ l
  · have hone := h.inside f hf
    refine ⟨?_, fun hp => by rw [hone, cfgArrives, if_neg (by simp [hp])]⟩
    have hmade : ∃ st, cfgArrives was u f (u.fn f) = { u.fn f with state := st } := by
      unfold cfgArrives madePresent
      split
      · cases (u.fn f).state <;> exact ⟨_, rfl⟩
      · exact ⟨_, rfl⟩
    obtain ⟨st, hst⟩ := hmade
    exact ⟨st, by rw [hone, hst]⟩
  · exact ⟨⟨_, h.outside f hf⟩, fun _ => h.outside f hf⟩

theorem present_bits {s : State} {f : Nat} (h : s.present f = true) : (s.fn f).d0 = true ∧ (s.fn f).bme = true := by
  unfold State.present at h
  simp only [Bool.and_eq_true] at h
  exact ⟨h.1.1.2, h.1.2⟩

/-- What a configuration write leaves of a function that stays in its power state, or leaves D0. -/
theorem configWrite_stays_gives {s : State} {f : Fin 72} {b : CfgBits} (hd : b.d0 = true → (s.fn f).d0 = true) :
    Gives (.configWrite f b) s (fun t => (t.fn f).d0 = b.d0 ∧ (t.fn f).bme = b.bme ∧
      (t.fn f).msixEn = b.msixEn ∧ (t.fn f).ro = b.ro ∧ (64 ≤ f.val → (t.fn f).vfEn = b.vfEn ∧ (t.fn f).numVfs = b.numVfs.val ∧
        (t.fn f).mrrs = b.mrrs.val) ∧
      (f.val < 68 → b.d0 = false → (s.fn f).d0 = true → Ended f 5 s t) ∧
      (f.val < 68 → b.d0 = true → b.bme = false → (s.fn f).bme = true → Ended f 0x0B s t) ∧
      (f.val < 68 → s.present f = false → t.present f = true →
        ((s.fn f).state = .absent → (t.fn f).state = if s.enabled f then .idle else .disabled) ∧
        ((s.fn f).state = .absent ∨ (s.fn f).state = .evicting ∨ (s.fn f).state = .quarantined → Reports .fnPresent (le 1 f.val) s t))) := by
  have hstill := still_endIdle s
  have hkept := statesKept_of_still hstill
  have hd' : b.d0 = true → (s.endIdle.fn f).d0 = true := fun h => (fn_field FnSt.d0 (hstill.fns f)).trans (hd h)
  have hset := fnAt_cfgSet s.endIdle f b
  have hout : s.out <+: (cfgSet s.endIdle f b).out := (keeps_endIdle s .out (by decide) : s.endIdle.out = s.out) ▸ out_cfgSet s.endIdle f b
  refine ⟨_, congrArg Host.Outcome.next (configWrite_stays hd'), ?_⟩
  have hnodup := nodup_configFns (cfgSet s.endIdle f b) f
  have hmem := mem_configFns (s := cfgSet s.endIdle f b) (f := f)
  generalize cfgSet s.endIdle f b = u at hset hout hnodup hmem
  have harr := fnsTo_arriveNew s.endIdle u hnodup
  have hheld := held_of_fnsTo harr (cfgOf_cfgArrives _ _)
  have hrep := @reports_arriveNew s.endIdle u (u.configFns f) hnodup f
  generalize State.arriveNew s.endIdle u (u.configFns f) = t at harr hheld hrep
  obtain ⟨⟨st, hat⟩, habsent⟩ := arrived_at harr f
  have hu := hset.same
  have hbits : (u.fn f).d0 = b.d0 ∧ (u.fn f).bme = b.bme := ⟨fn_field FnSt.d0 hu, fn_field FnSt.bme hu⟩
  have hcfg := cfgEnds_cfg f b s.endIdle.time64 (cfgVfs f b (s.endIdle.fn f))
  refine ⟨(fn_field FnSt.d0 hat).trans hbits.1, (fn_field FnSt.bme hat).trans hbits.2, (fn_field FnSt.msixEn hat).trans (fn_field FnSt.msixEn hu),
    (fn_field FnSt.ro hat).trans (fn_field FnSt.ro hu), fun hf => ?_, fun hf hb hs => ?_, fun hf hb0 hb hs => ?_, fun hf hnot hnow => ?_⟩
  · have hge : ¬ f.val < 64 := by omega
    have hvfs : (cfgVfs f b (s.endIdle.fn f)).vfEn = b.vfEn ∧ (cfgVfs f b (s.endIdle.fn f)).numVfs = b.numVfs.val := by
      rw [cfgVfs, if_neg hge]
      exact ⟨rfl, rfl⟩
    refine ⟨(fn_field FnSt.vfEn hat).trans ((fn_field FnSt.vfEn hu).trans (hcfg.1.trans hvfs.1)),
      (fn_field FnSt.numVfs hat).trans ((fn_field FnSt.numVfs hu).trans (hcfg.2.trans hvfs.2)),
      (fn_field FnSt.mrrs hat).trans ((fn_field FnSt.mrrs hu).trans (if_neg hge))⟩
  · have hgone : u.present f = false := by
      by_contra h
      have := (present_bits (by simpa using h)).1
      rw [hbits.1, hb] at this
      exact absurd this (by decide)
    have hs' : (cfgVfs f b (s.endIdle.fn f)).d0 = true := (d0_cfgVfs f b _).trans ((fn_field FnSt.d0 (hstill.fns f)).trans hs)
    obtain ⟨hst, hcause, ht0⟩ := cfgEnds_d3 (f := f) (t0 := s.endIdle.time64) hb hs'
    have hone := (habsent hgone).trans hu
    exact ended_from (ended_of_core ((fn_field FnSt.state hone).trans hst) ((fn_field FnSt.evCause hone).trans hcause)
      ((fn_field FnSt.evT0 hone).trans ht0) (state_cfgVfs f b _)) hkept (time64_base hstill.toBase)
  · have hgone : u.present f = false := by
      by_contra h
      have := (present_bits (by simpa using h)).2
      rw [hbits.2, hb] at this
      exact absurd this (by decide)
    have hs' : (cfgVfs f b (s.endIdle.fn f)).bme = true := (bme_cfgVfs f b _).trans ((fn_field FnSt.bme (hstill.fns f)).trans hs)
    obtain ⟨hst, hcause, ht0⟩ := cfgEnds_bme (f := f) (t0 := s.endIdle.time64) hb0 hb hs'
    have hone := (habsent hgone).trans hu
    exact ended_from (ended_of_core ((fn_field FnSt.state hone).trans hst) ((fn_field FnSt.evCause hone).trans hcause)
      ((fn_field FnSt.evT0 hone).trans ht0) (state_cfgVfs f b _)) hkept (time64_base hstill.toBase)
  · have hnot' : s.endIdle.present f = false := (present_held (held_of_still hstill) f).trans hnot
    have hnow' : u.present f = true := (present_held hheld f).symm.trans hnow
    obtain ⟨h1, h2⟩ := present_bits hnow'
    have hends : cfgEnds f b s.endIdle.time64 (cfgVfs f b (s.endIdle.fn f)) = cfgVfs f b (s.endIdle.fn f) := by
      rw [cfgEnds, ← hbits.1, ← hbits.2, h1, h2]
      rfl
    rw [hends] at hu
    have hstate : (u.fn f).state = (s.fn f).state := (fn_field FnSt.state hu).trans ((state_cfgVfs f b _).trans (hkept f).1)
    refine ⟨fun hs => ?_, fun hs => reports_before hout (hrep (hmem hf) hnot' hnow' (by rw [hstate]; exact hs))⟩
    have hone := harr.inside f (hmem hf)
    rw [cfgArrives, if_pos ⟨hnot', hnow'⟩] at hone
    rw [fn_field FnSt.state hone, madePresent, hstate, hs, enabled_congr (s := s) (base_trans hstill.toBase hset.toBase).setup f]

/-- A return to D0 leaves the configuration at reset. -/
theorem configWrite_returns_gives {s : State} {f : Fin 72} {b : CfgBits} (hb : b.d0 = true) (hd : (s.fn f).d0 = false) :
    Gives (.configWrite f b) s (fun t => (t.fn f).d0 = true ∧ (t.fn f).bme = false ∧
      (t.fn f).msixEn = false ∧ (t.fn f).ro = false ∧ (t.fn f).vfEn = false ∧ (t.fn f).msixMask = BitVec.allOnes 64) := by
  have hd' : (s.endIdle.fn f).d0 = false := (fn_field FnSt.d0 ((still_endIdle s).fns f)).trans hd
  refine ⟨_, congrArg Host.Outcome.next (if_pos ⟨hb, hd'⟩), ?_⟩
  have hfn : (s.endIdle.toD0 f).fn f = FnSt.configReset ((if f.val < 64 then s.endIdle else s.endIdle.setVfs f false 0).fn f) := fn_setFn_same _ _ _
  exact ⟨by rw [hfn]; rfl, by rw [hfn]; rfl, by rw [hfn]; rfl, by rw [hfn]; rfl, by rw [hfn]; rfl, by rw [hfn]; rfl⟩

/-- Settles O34: each command by what it makes of its functions. -/
theorem presenceEndsWithItsCause : Obligations.PresenceEndsWithItsCause := by
  unfold Obligations.PresenceEndsWithItsCause
  exact ⟨flr_gives, vfDisable_gives, d3hot_gives, busMaster_gives, fun s f b => ⟨configWrite_stays_gives, configWrite_returns_gives⟩,
    fun s f hp hh => ⟨fnCmdEvict_gives hp hh, fnCmdRelease_gives hp hh⟩, fun s f hst hw => evictionComplete_gives hst hw,
    fun s f dw x hp hv => unmask_gives f dw x hp hv⟩

end Sys2Proof.Proofs
end

section
/-! Rings by mailbox (04_host_links, 05_rings_and_doorbells). -/
namespace Sys2Proof.Proofs
open Sys2Proof Sys2Proof.Machine Sys2Proof.Laws
set_option Elab.async false -- one thread, within the memory of the check

/-! ### What events leave of an event ring -/

/-- An event ring but for what writing records and signalling them moves. -/
def evrSans (q : CqRing) : CqRing := { q with w := 0, unsig := 0, armed := false }

/-- Every event ring is as before, but for records that were written and signalled. -/
def EvrKept (s t : State) : Prop := ∀ n, evrSans (t.evr n) = evrSans (s.evr n)

theorem evrKept_trans {s t u : State} (h : EvrKept s t) (k : EvrKept t u) : EvrKept s u := fun n => (k n).trans (h n)

theorem evrKept_of_rings {s t : State} (h : t.events.rings = s.events.rings) : EvrKept s t := fun n => by simp only [State.evr, h]

theorem evrKept_of_does {m : Nat} {s t : State} (h : Does m s t) (hm : m.testBit 26 = false := by decide) : EvrKept s t :=
  evrKept_of_rings (congrArg EventSt.rings (h.keeps .events hm))

theorem evrKept_setEvr (s : State) (n : Nat) (g : CqRing → CqRing) (hg : ∀ q, evrSans (g q) = evrSans q) : EvrKept s (s.setEvr n g) := by
  intro k
  by_cases hk : k = n
  · rw [hk, evr_setEvr_same, hg]
  · rw [evr_setEvr_other _ _ hk]

theorem evrKept_emit (s : State) (o : Out) : EvrKept s (s.emit o) := evrKept_of_rings rfl

theorem evrKept_setOf (s : State) (n : Nat) (g : OfSt → OfSt) : EvrKept s (s.setOf n g) := evrKept_of_rings rfl

theorem evrKept_setFn (s : State) (n : Nat) (g : FnSt → FnSt) : EvrKept s (s.setFn n g) := evrKept_of_rings rfl

theorem evrKept_recordUse (s : State) (f n : Nat) : EvrKept s (s.recordUse f n) :=
  evrKept_of_does (m := 0x20000) (does_recordUse (by decide) (does_refl _ s))

theorem evrKept_refl (s : State) : EvrKept s s := fun _ => rfl

theorem evrKept_ite {c : Prop} [Decidable c] {s t u : State} (h : EvrKept s t) (k : EvrKept s u) : EvrKept s (if c then t else u) := by
  split
  · exact h
  · exact k

theorem evrKept_msix (s : State) (f v : Nat) : EvrKept s (s.msix f v) :=
  evrKept_ite (evrKept_setFn s f _) (evrKept_ite (evrKept_of_rings rfl) (evrKept_emit s _))

theorem evrKept_evrSignal (s : State) (n : Nat) : EvrKept s (evrSignal s n) := by
  unfold evrSignal
  refine evrKept_ite ?_ (evrKept_refl s)
  refine evrKept_trans (t := s.setEvr n (fun q => { q with armed := false, unsig := 0 })) ?_ (evrKept_msix _ _ _)
  exact evrKept_setEvr s n _ (fun _ => rfl)

theorem evrKept_evrWrite (s : State) (n : Nat) (e : Ev) (b : Bytes) : EvrKept s (evrWrite s n e b) := by
  unfold evrWrite
  refine evrKept_trans ?_ (evrKept_evrSignal _ _)
  refine evrKept_trans ?_ (evrKept_setOf _ _ _)
  refine evrKept_trans ?_ (evrKept_setEvr _ n _ (fun _ => rfl))
  exact evrKept_trans (evrKept_emit s _) (evrKept_recordUse _ _ _)

theorem evrKept_evrLost (s : State) (n : Nat) : EvrKept s (evrLost s n).1 := by
  unfold evrLost
  dsimp only
  split
  · refine evrKept_trans ?_ (evrKept_setOf _ _ _)
    exact evrKept_trans (evrKept_emit s _) (evrKept_evrWrite _ _ _ _)
  · exact evrKept_refl s

theorem evrKept_evrOne (s : State) (n : Nat) (e : Ev) (b : Bytes) : EvrKept s (evrOne s n e b).1 := by
  unfold evrOne
  dsimp only
  split
  · refine evrKept_trans (evrKept_evrLost s n) ?_
    split
    · exact evrKept_evrWrite _ _ _ _
    · exact evrKept_setOf _ _ _
  · exact evrKept_refl s

theorem evrKept_evrAll (s : State) (e : Ev) (b : Bytes) : EvrKept s (evrAll s e b).1 := by
  have h1 := evrKept_evrOne s 0 e b
  have h2 := evrKept_trans h1 (evrKept_evrOne _ 1 e b)
  have h3 := evrKept_trans h2 (evrKept_evrOne _ 2 e b)
  have h4 := evrKept_trans h3 (evrKept_evrOne _ 3 e b)
  unfold evrAll
  dsimp only
  exact h4

theorem evrKept_runEv (s : State) (e : Ev) (b : Bytes) : EvrKept s (runEv s e b).1 := by
  have halert : EvrKept s (if s.evAlertMinSev ≤ e.severity then (s.emit (.event e.code s.time64 b)).onEvents (fun v => { v with alert := true })
      else s.emit (.event e.code s.time64 b)) :=
    evrKept_ite (evrKept_trans (evrKept_emit s _) (evrKept_of_rings rfl)) (evrKept_emit s _)
  unfold runEv
  dsimp only
  split
  · exact halert
  · exact evrKept_trans halert (evrKept_evrAll _ _ _)

theorem evrKept_run (x : Eff) (s : State) : EvrKept s (x.run s).1 := by
  cases x with
  | ev e b => exact evrKept_runEv s e b
  | count code cls obj n => exact evrKept_of_does (m := 0x20000) (does_runCount (by decide) (does_refl _ s))
  | row r => exact evrKept_of_does (m := 0x2200000) (does_acceptRow (by decide) (does_refl _ s))

theorem evrKept_runEffs (n : Nat) (l : List Eff) (s : State) : EvrKept s (runEffs n l s) := by
  induction n generalizing l s with
  | zero => exact evrKept_of_rings rfl
  | succ n ih =>
    cases l with
    | nil => exact evrKept_of_rings rfl
    | cons x r => exact evrKept_trans (evrKept_run x s) (ih _ _)

theorem evrKept_raise (s : State) (e : Ev) (b : Bytes) : EvrKept s (s.raise e b) := evrKept_runEffs _ _ s

/-- A field of an event ring that stays. -/
theorem evr_field {α : Type} {s t : State} (h : EvrKept s t) (n : Nat) (p : CqRing → α) (hp : ∀ q, p (evrSans q) = p q := by intro q; rfl) :
    p (t.evr n) = p (s.evr n) := by
  rw [← hp, h n, hp]

/-! ### A mailbox request that is taken -/

/-- A state whose functions are `fns`, once a write to a mailbox has arrived. -/
def mbxAt (s : State) (f go : Nat) (fns : List (Nat × FnSt)) : State := (s.endIdle.wroteGo f go).onFns (fun _ => fns)

/-- A function but for its request record. -/
def noReq (q : FnSt) : FnSt := { q with req := [] }

theorem noReq_recordPut (s : State) (f off v k : Nat) : noReq ((s.recordPut f off v).fn k) = noReq (s.fn k) := by
  unfold State.recordPut
  by_cases hk : k = f
  · rw [hk, fn_setFn_same]
    rfl
  · rw [fn_setFn_other _ _ hk]

/-- Writing the words of a record moves the record alone. -/
theorem recordPuts (s : State) (f : Nat) (l : List (Nat × Nat)) : ∃ fns, l.foldl (fun t w => t.recordPut f w.1 w.2) s = s.onFns (fun _ => fns) ∧
    ∀ k, noReq ((s.onFns (fun _ => fns)).fn k) = noReq (s.fn k) := by
  induction l generalizing s with
  | nil => exact ⟨s.fns, rfl, fun _ => rfl⟩
  | cons w r ih =>
    obtain ⟨fns, heq, hfns⟩ := ih (s.recordPut f w.1 w.2)
    refine ⟨fns, heq, fun k => ?_⟩
    exact (hfns k).trans (noReq_recordPut s f w.1 w.2 k)

/-- What stands of the state once a write to a mailbox has arrived: all but the power state and the command registers. -/
theorem mbxAt_parts (s : State) (f go : Nat) (F : List (Nat × FnSt)) : (mbxAt s f go F).setup.active = s.setup.active ∧
    (mbxAt s f go F).tx = s.tx ∧ (mbxAt s f go F).rx = s.rx ∧ (mbxAt s f go F).cq = s.cq ∧ (mbxAt s f go F).events = s.events ∧
    (mbxAt s f go F).host = s.host ∧ (mbxAt s f go F).tally = s.tally ∧ (mbxAt s f go F).out = s.out ∧ (mbxAt s f go F).lookout = s.lookout ∧
    (mbxAt s f go F).links = s.links ∧ (mbxAt s f go F).hamper = s.hamper :=
  ⟨(congrArg SetupSt.active (keeps_endIdle s .setup (by decide) : s.endIdle.setup = s.setup) : s.endIdle.setup.active = _), keeps_endIdle s .tx (by decide), keeps_endIdle s .rx (by decide),
    keeps_endIdle s .cq (by decide), keeps_endIdle s .events (by decide), keeps_endIdle s .host (by decide), keeps_endIdle s .tally (by decide),
    keeps_endIdle s .out (by decide), keeps_endIdle s .lookout (by decide), keeps_endIdle s .links (by decide), keeps_endIdle s .hamper (by decide)⟩

theorem noReq_field {α : Type} {q r : FnSt} (p : FnSt → α) (h : noReq q = noReq r) (hp : ∀ x, p (noReq x) = p x := by intro x; rfl) : p q = p r := by
  rw [← hp, h, hp]

/-- The functions while a request is in progress: the mailbox's is busy with its GO and opcode. -/
def reqTaken (f go op : Nat) (F : List (Nat × FnSt)) : List (Nat × FnSt) :=
  Tbl.modify (fun _ => FnSt.init) F f (fun n => { n with busy := true, goSeq := go, goOp := op, wait := none })

/-- A function whose mailbox has a request in progress. -/
def inBox (q : FnSt) (go op : Nat) : FnSt := { q with busy := true, goSeq := go, goOp := op, wait := none }

/-- Which of a function's fields a request that is taken leaves. -/
structure Taken (f go op : Nat) (s : State) (F : List (Nat × FnSt)) : Prop where
  self  : noReq ((mbxAt s f go F).fn f) = noReq (inBox (s.fn f) go op)
  other : ∀ k, k ≠ f → noReq ((mbxAt s f go F).fn k) = noReq (s.fn k)

theorem fnLink_active {s t : State} (h : t.setup.active = s.setup.active) (f : Nat) : t.fnLink f = s.fnLink f := by
  unfold State.fnLink State.hlCtrlBifurcate
  rw [field_active h]

/-- Presence after a write has arrived, where the functions' configurations are as before. -/
theorem present_mbxAt {s : State} {f go : Nat} {F : List (Nat × FnSt)} (h : ∀ k, noReq ((mbxAt s f go F).fn k) = noReq (s.fn k)) (n : Nat) :
    (mbxAt s f go F).present n = s.present n := by
  obtain ⟨hactive, -, -, -, -, -, -, -, -, hlinks, -⟩ := mbxAt_parts s f go F
  have hlink := fnLink_active hactive n
  have hcfg : ∀ k, cfgOf ((mbxAt s f go F).fn k) = cfgOf (s.fn k) := fun k => noReq_field cfgOf (h k)
  have hn := hcfg n
  have hp := hcfg (linkPf (s.fnLink n))
  simp only [cfgOf, Prod.mk.injEq] at hn hp
  unfold State.present State.vfOn
  dsimp only
  rw [hlink, hn.1, hn.2.1, hp.2.2.1, hp.2.2.2, State.link, hlinks]
  rfl

theorem toNat_ofNat8 {op : Nat} (h : op < 256) : (BitVec.ofNat 8 op).toNat = op := by
  rw [BitVec.toNat_ofNat]
  exact Nat.mod_eq_of_lt h

/-- A request that is posted comes to the tests of its opcode (R86). -/
theorem mbxGo_posted {op : Nat} {f : Fin 68} {go : BitVec 8} {req : MbxReq} {s : State} (ho : op < 256) (h : Posted op f go req s) :
    ∃ F, Taken f go.toNat op s F ∧
      s.mbxGo f go (mbxWithOp req op) = ((mbxAt s f go.toNat F).mbxOpcode f (mbxWithOp req op)).partnerWake f := by
  obtain ⟨⟨hpart, hheld, hunit, hrestart, hpresent, hstate, hbusy, hgo⟩, hseq, hstatus, hrsv, hcheck⟩ := h
  obtain ⟨F, hput, hF⟩ := recordPuts (s.endIdle.wroteGo f go.toNat) f (mbxWords (mbxWithOp req op))
  have hfns : ∀ k, noReq ((mbxAt s f go.toNat F).fn k) = noReq (s.fn k) := fun k => by
    rw [show noReq (s.fn k) = noReq ((s.endIdle.wroteGo f go.toNat).fn k) from congrArg noReq (fn_congr (keeps_endIdle s .fns (by decide)) k).symm]
    exact hF k
  obtain ⟨-, -, -, -, -, hhost, -, -, hlook, -, -⟩ := mbxAt_parts s f go.toNat F
  have hself := hfns f
  refine ⟨reqTaken f go.toNat op F, ⟨?_, fun k hk => ?_⟩, ?_⟩
  · show noReq (((mbxAt s f go.toNat F).setFn f _).fn f) = _
    rw [fn_setFn_same]
    exact congrArg (fun q : FnSt => { q with busy := true, goSeq := go.toNat, goOp := op, wait := none }) hself
  · show noReq (((mbxAt s f go.toNat F).setFn f _).fn k) = _
    rw [fn_setFn_other _ _ hk]
    exact hfns k
  · have hrun : (mbxAt s f go.toNat F).mbxRun f go.toNat (mbxWithOp req op) =
        ((mbxAt s f go.toNat F).setFn f (fun n => { n with busy := true, goSeq := go.toNat, goOp := (mbxWithOp req op).opcode.toNat, wait := none })).mbxChecked
          f (mbxWithOp req op) (mbxWant f (mbxWithOp req op)) := by
      unfold State.mbxRun
      dsimp only
      rw [if_neg ?_, if_pos ?_]
      · unfold State.unitNow State.freeUnit
        rw [hhost]
        exact hunit
      · rw [present_mbxAt hfns, hpresent, noReq_field FnSt.state hself, noReq_field FnSt.replySeq hself, noReq_field FnSt.busy hself, hlook, hrestart, hbusy]
        simp [hstate, hgo]
    have hchecked : ∀ t : State, (t.fn f).goSeq = go.toNat → t.mbxChecked f (mbxWithOp req op) (mbxWant f (mbxWithOp req op)) =
        t.mbxOpcode f (mbxWithOp req op) := by
      intro t ht
      unfold State.mbxChecked
      rw [if_neg (by simpa [mbxWithOp] using hcheck), if_neg (by simp [mbxWithOp, hseq, hstatus, hrsv, ht])]
    unfold State.mbxGo
    dsimp only
    rw [if_neg (by simp [hpart]), if_neg (by simp [hheld]), hput]
    refine congrArg (fun t : State => t.partnerWake f) (hrun.trans ?_)
    rw [hchecked _ (by rw [fn_setFn_same]), show (mbxWithOp req op).opcode.toNat = op from toNat_ofNat8 ho]
    rfl

/-- What a taken request's reply shows. -/
theorem answered_mbxReply (s : State) (f st op0 : Nat) : Answered f (s.fn f).goOp (s.fn f).goSeq st op0 (s.mbxReply f st op0) := by
  have h := (fnTo_mbxReply s f st op0).same
  exact ⟨fn_field FnSt.replySeq h, fn_field FnSt.busy h, fn_field FnSt.wait h, fn_field FnSt.reply h⟩

theorem answered_kept {f op seq st op0 : Nat} {s t : State} (h : Answered f op seq st op0 s) (k : (t.fn f).sans = (s.fn f).sans) :
    Answered f op seq st op0 t := by
  obtain ⟨h1, h2, h3, h4⟩ := h
  exact ⟨(fn_field FnSt.replySeq k).trans h1, (fn_field FnSt.busy k).trans h2, (fn_field FnSt.wait k).trans h3, (fn_field FnSt.reply k).trans h4⟩

/-- The operands that a request in progress leaves for its reply. -/
theorem taken_go {f go op : Nat} {s : State} {F : List (Nat × FnSt)} (h : Taken f go op s F) :
    ((mbxAt s f go F).fn f).goOp = op ∧ ((mbxAt s f go F).fn f).goSeq = go ∧ ((mbxAt s f go F).fn f).busy = true ∧
    ((mbxAt s f go F).fn f).state = (s.fn f).state :=
  ⟨noReq_field FnSt.goOp h.self, noReq_field FnSt.goSeq h.self, noReq_field FnSt.busy h.self, (noReq_field FnSt.state h.self).trans rfl⟩

/-! ### Creating a ring (R103, R105) -/

/-- What the tests of a ring create and of a RING_DESTROY rest on. -/
structure RingsAlike (f : Nat) (s t : State) : Prop where
  active : t.setup.active = s.setup.active
  tx     : t.tx = s.tx
  rx     : t.rx = s.rx
  cq     : t.cq = s.cq
  evr    : t.events.rings = s.events.rings
  state  : (t.fn f).state = (s.fn f).state
  grants : (t.fn f).grantTx = (s.fn f).grantTx ∧ (t.fn f).grantRx = (s.fn f).grantRx ∧ (t.fn f).grantCq = (s.fn f).grantCq

theorem ringsAlike_taken {f go op : Nat} {s : State} {F : List (Nat × FnSt)} (h : Taken f go op s F) : RingsAlike f s (mbxAt s f go F) := by
  obtain ⟨hactive, htx, hrx, hcq, hev, -⟩ := mbxAt_parts s f go F
  exact ⟨hactive, htx, hrx, hcq, congrArg EventSt.rings hev, (noReq_field FnSt.state h.self).trans rfl,
    (noReq_field FnSt.grantTx h.self).trans rfl, (noReq_field FnSt.grantRx h.self).trans rfl, (noReq_field FnSt.grantCq h.self).trans rfl⟩

theorem ringNumber_alike {f : Nat} {s t : State} (h : RingsAlike f s t) (kind loc : Nat) : t.ringNumber f kind loc = s.ringNumber f kind loc := by
  unfold State.ringNumber State.ringAllocTxBase State.ringAllocRxBase State.ringAllocCqBase
  rw [field_active h.active, field_active h.active, field_active h.active]

theorem ringState_alike {f : Nat} {s t : State} (h : RingsAlike f s t) (kind n : Nat) : t.ringState f kind n = s.ringState f kind n := by
  unfold State.ringState State.txr State.rxr State.cqr State.evr
  rw [h.tx, h.rx, h.cq, h.evr]

theorem fenceOk_active {s t : State} (h : t.setup.active = s.setup.active) (f addr len : Nat) : t.fenceOk f addr len = s.fenceOk f addr len := by
  have hbase : t.fenceBase f = s.fenceBase f := by
    funext w
    simp only [State.fenceBase, State.fenceBaseLoBase, State.fenceBaseHiBase, field_active h]
  have hend : t.fenceEnd f = s.fenceEnd f := by
    funext w
    simp only [State.fenceEnd, State.fenceLimitLoLimit, State.fenceLimitHiLimit, field_active h]
  unfold State.fenceOk
  rw [hbase, hend]

theorem grantOf_alike {f : Nat} {s t : State} (h : RingsAlike f s t) (kind : Nat) : t.grantOf f kind = s.grantOf f kind := by
  obtain ⟨h0, h1, h2⟩ := h.grants
  unfold State.grantOf
  rw [h0, h1, h2]

theorem createStatus_alike {f : Nat} {s t : State} (h : RingsAlike f s t) (op op0 op1 : Nat) : t.createStatus f op op0 op1 = s.createStatus f op op0 op1 := by
  unfold State.createStatus
  dsimp only
  rw [ringNumber_alike h, ringNumber_alike h, ringState_alike h, ringState_alike h, grantOf_alike h, fenceOk_active h.active, h.state]

theorem destroyStatus_alike {f : Nat} {s t : State} (h : RingsAlike f s t) (op0 op1 : Nat) : t.destroyStatus f op0 op1 = s.destroyStatus f op0 op1 := by
  have hbound : t.cqBound = s.cqBound := by
    funext q
    unfold State.cqBound
    rw [h.tx, h.rx]
  unfold State.destroyStatus
  dsimp only
  rw [ringNumber_alike h, ringState_alike h, grantOf_alike h, h.state, hbound]

/-- An opcode that creates a ring comes to its tests. -/
theorem mbxOpcode_create (s : State) (f : Nat) {op : Nat} (req : MbxReq) (h1 : 0x10 ≤ op) (h2 : op ≤ 0x13) :
    s.mbxOpcode f (mbxWithOp req op) = s.mbxCreate f op req.op0.toNat req.op1.toNat := by
  have hop : (mbxWithOp req op).opcode.toNat = op := toNat_ofNat8 (by omega)
  unfold State.mbxOpcode
  dsimp only
  rw [hop, if_neg (by omega), if_neg (by omega), if_neg (by omega), if_pos ⟨h1, h2⟩]
  rfl

theorem mbxOpcode_destroy (s : State) (f : Nat) (req : MbxReq) : s.mbxOpcode f (mbxWithOp req 0x14) = s.mbxDestroy f req.op0.toNat req.op1.toNat := rfl

/-- A ring that has been made, with its event, its reply and the wake of the write. -/
def ringMade (w : State) (f n : Nat) (p : Bytes) : State := ((w.raise .ringCreated p).mbxReply f 0 n).partnerWake f

/-- What follows the making of a ring leaves the rings, and answers. -/
theorem ringMade_gives (w : State) (f n : Nat) (p : Bytes) : (ringMade w f n p).tx = w.tx ∧ (ringMade w f n p).rx = w.rx ∧
    (ringMade w f n p).cq = w.cq ∧ EvrKept w (ringMade w f n p) ∧ Answered f (w.fn f).goOp (w.fn f).goSeq 0 n (ringMade w f n p) ∧
    Reports .ringCreated p w (ringMade w f n p) := by
  have hraise := flags_raise .ringCreated p (flags_refl w)
  have hfn := hraise.fns f
  have hevr := evrKept_raise w .ringCreated p
  have hrep := reports_raise w .ringCreated p
  generalize hz : w.raise .ringCreated p = z at hraise hfn hevr hrep
  have hreply : Does 0xc000080 z (z.mbxReply f 0 n) := does_mbxReply (by decide) (does_refl _ z)
  have hrings : EvrKept z (z.mbxReply f 0 n) := evrKept_trans (evrKept_setFn z f _) (evrKept_msix _ _ _)
  have hans := answered_mbxReply z f 0 n
  have hwake := did_partnerWake (z.mbxReply f 0 n) f
  unfold ringMade
  rw [hz]
  refine ⟨?_, ?_, ?_, evrKept_trans hevr (evrKept_trans hrings (evrKept_of_does hwake)), ?_, reports_after hrep (hreply.out.trans hwake.out)⟩
  · rw [hwake.keeps .tx (by decide), hreply.keeps .tx (by decide), hraise.keeps .tx (by decide)]
  · rw [hwake.keeps .rx (by decide), hreply.keeps .rx (by decide), hraise.keeps .rx (by decide)]
  · rw [hwake.keeps .cq (by decide), hreply.keeps .cq (by decide), hraise.keeps .cq (by decide)]
  · rw [← fn_field FnSt.goOp hfn, ← fn_field FnSt.goSeq hfn]
    exact answered_kept hans (congrArg FnSt.sans (fn_congr (hwake.keeps .fns (by decide)) f))

theorem mbxCreate_made {x : State} {f op op0 op1 : Nat} (h : x.createStatus f op op0 op1 = 0) :
    (x.mbxCreate f op op0 op1).partnerWake f = ringMade (x.createRing f op op0 op1) f (x.ringNumber f (opKind op) (ringAsk op1).loc)
      (ringPayload f (opKind op) (x.ringNumber f (opKind op) (ringAsk op1).loc)) := by
  unfold State.mbxCreate ringMade
  dsimp only
  rw [if_pos h]

/-- A ring create that no test refuses, on the state in which its request has been taken. -/
theorem create_posted {op : Nat} {f : Fin 68} {go : BitVec 8} {req : MbxReq} {s : State} (h1 : 0x10 ≤ op) (h2 : op ≤ 0x13) (h : Posted op f go req s)
    (hst : s.createStatus f op req.op0.toNat req.op1.toNat = 0) : ∃ x, RingsAlike f s x ∧ x.out = s.out ∧ (x.fn f).goOp = op ∧
      (x.fn f).goSeq = go.toNat ∧ s.mbxGo f go (mbxWithOp req op) = ringMade (x.createRing f op req.op0.toNat req.op1.toNat) f
        (s.ringNumber f (opKind op) (ringAsk req.op1.toNat).loc)
        (ringPayload f (opKind op) (s.ringNumber f (opKind op) (ringAsk req.op1.toNat).loc)) := by
  obtain ⟨F, htaken, hgo⟩ := mbxGo_posted (by omega) h
  have halike := ringsAlike_taken htaken
  obtain ⟨hop, hseq, -, -⟩ := taken_go htaken
  obtain ⟨-, -, -, -, -, -, -, hout, -⟩ := mbxAt_parts s f go.toNat F
  refine ⟨mbxAt s f go.toNat F, halike, hout, hop, hseq, ?_⟩
  rw [hgo, mbxOpcode_create _ _ _ h1 h2, mbxCreate_made (by rw [createStatus_alike halike]; exact hst), ringNumber_alike halike]

theorem createRing_kept (x : State) (f op op0 op1 : Nat) : (x.createRing f op op0 op1).fn f = x.fn f ∧ (x.createRing f op op0 op1).out = x.out := by
  have h : Does 0x4000700 x (x.createRing f op op0 op1) := does_createRing (by decide) (does_refl _ x)
  exact ⟨fn_congr (h.keeps .fns (by decide)) f, h.keeps .out (by decide)⟩

/-- What a create answers and reports, whatever its kind. -/
theorem created_answers {op : Nat} {f : Fin 68} {go : BitVec 8} {req : MbxReq} {s : State} (h1 : 0x10 ≤ op) (h2 : op ≤ 0x13) (h : Posted op f go req s)
    (hst : s.createStatus f op req.op0.toNat req.op1.toNat = 0) :
    let n := s.ringNumber f (opKind op) (ringAsk req.op1.toNat).loc
    ∃ x t, RingsAlike f s x ∧ s.mbxGo f go (mbxWithOp req op) = t ∧ t.tx = (x.createRing f op req.op0.toNat req.op1.toNat).tx ∧
      t.rx = (x.createRing f op req.op0.toNat req.op1.toNat).rx ∧ t.cq = (x.createRing f op req.op0.toNat req.op1.toNat).cq ∧
      EvrKept (x.createRing f op req.op0.toNat req.op1.toNat) t ∧ Answered f op go.toNat 0 n t ∧
      Reports .ringCreated (ringPayload f (opKind op) n) s t := by
  obtain ⟨x, halike, hout, hop, hseq, hgo⟩ := create_posted h1 h2 h hst
  obtain ⟨hfn, hkeep⟩ := createRing_kept x f op req.op0.toNat req.op1.toNat
  obtain ⟨htx, hrx, hcq, hev, hans, hrep⟩ := ringMade_gives (x.createRing f op req.op0.toNat req.op1.toNat) f
    (s.ringNumber f (opKind op) (ringAsk req.op1.toNat).loc) (ringPayload f (opKind op) (s.ringNumber f (opKind op) (ringAsk req.op1.toNat).loc))
  rw [hfn, hop, hseq] at hans
  exact ⟨x, _, halike, hgo, htx, hrx, hcq, hev, hans, reports_before (by rw [hkeep, hout]) hrep⟩

theorem txrCreate_gives {f : Fin 68} {go : BitVec 8} {req : MbxReq} {s : State} (h : Posted 0x10 f go req s)
    (hst : s.createStatus f 0x10 req.op0.toNat req.op1.toNat = 0) : Gives (.txrCreate f go req) s (fun t =>
      let a := ringAsk req.op1.toNat
      let n := s.ringAllocTxBase f + a.loc
      t.txr n = { TxRing.init with state := .active, fn := f, base := req.op0.toNat, size := a.size, cq := s.ringAllocCqBase f + a.cq,
                                   inst := a.inst, cls := a.cls, c := ringN a.size, h := ringN a.size, f := ringN a.size,
                                   commit := ringN a.size } ∧
      (∀ k, k ≠ n → t.txr k = s.txr k) ∧ Answered f 0x10 go.toNat 0 n t ∧ Reports .ringCreated (ringPayload f 0 n) s t) := by
  obtain ⟨x, t, halike, ht, htx, -, -, -, hans, hrep⟩ := created_answers (by decide) (by decide) h hst
  have hmade : x.createRing f 0x10 req.op0.toNat req.op1.toNat = x.setTxr (x.ringNumber f 0 (ringAsk req.op1.toNat).loc) (fun _ =>
      { TxRing.init with state := .active, fn := f, base := req.op0.toNat, size := (ringAsk req.op1.toNat).size,
                         cq := x.ringNumber f 2 (ringAsk req.op1.toNat).cq, inst := (ringAsk req.op1.toNat).inst, cls := (ringAsk req.op1.toNat).cls,
                         c := ringN (ringAsk req.op1.toNat).size, h := ringN (ringAsk req.op1.toNat).size,
                         f := ringN (ringAsk req.op1.toNat).size, commit := ringN (ringAsk req.op1.toNat).size }) := rfl
  rw [hmade, ringNumber_alike halike, ringNumber_alike halike] at htx
  have htxr : ∀ k, t.txr k = _ := fun k => congrArg (fun l => Tbl.get (fun _ => TxRing.init) l k) htx
  have hold : ∀ k, x.txr k = s.txr k := fun k => congrArg (fun l => Tbl.get (fun _ => TxRing.init) l k) halike.tx
  refine ⟨t, congrArg Host.Outcome.next ht, ?_, fun k hk => ?_, hans, hrep⟩
  · exact (htxr _).trans (txr_setTxr_same x _ _)
  · exact (htxr k).trans ((txr_setTxr_other x _ hk).trans (hold k))

theorem rxrCreate_gives {f : Fin 68} {go : BitVec 8} {req : MbxReq} {s : State} (h : Posted 0x11 f go req s)
    (hst : s.createStatus f 0x11 req.op0.toNat req.op1.toNat = 0) : Gives (.rxrCreate f go req) s (fun t =>
      let a := ringAsk req.op1.toNat
      let n := s.ringAllocRxBase f + a.loc
      t.rxr n = { RxRing.init with state := .active, fn := f, base := req.op0.toNat, size := a.size, cq := s.ringAllocCqBase f + a.cq,
                                   early := a.early, c := ringN a.size, h := ringN a.size, f := ringN a.size } ∧
      (∀ k, k ≠ n → t.rxr k = s.rxr k) ∧ Answered f 0x11 go.toNat 0 n t ∧ Reports .ringCreated (ringPayload f 1 n) s t) := by
  obtain ⟨x, t, halike, ht, -, hrx, -, -, hans, hrep⟩ := created_answers (by decide) (by decide) h hst
  have hmade : x.createRing f 0x11 req.op0.toNat req.op1.toNat = x.setRxr (x.ringNumber f 1 (ringAsk req.op1.toNat).loc) (fun _ =>
      { RxRing.init with state := .active, fn := f, base := req.op0.toNat, size := (ringAsk req.op1.toNat).size,
                         cq := x.ringNumber f 2 (ringAsk req.op1.toNat).cq, early := (ringAsk req.op1.toNat).early,
                         c := ringN (ringAsk req.op1.toNat).size, h := ringN (ringAsk req.op1.toNat).size,
                         f := ringN (ringAsk req.op1.toNat).size }) := rfl
  rw [hmade, ringNumber_alike halike, ringNumber_alike halike] at hrx
  have hrxr : ∀ k, t.rxr k = _ := fun k => congrArg (fun l => Tbl.get (fun _ => RxRing.init) l k) hrx
  have hold : ∀ k, x.rxr k = s.rxr k := fun k => congrArg (fun l => Tbl.get (fun _ => RxRing.init) l k) halike.rx
  refine ⟨t, congrArg Host.Outcome.next ht, ?_, fun k hk => ?_, hans, hrep⟩
  · exact (hrxr _).trans (rxr_setRxr_same x _ _)
  · exact (hrxr k).trans ((rxr_setRxr_other x _ hk).trans (hold k))

theorem cqCreate_gives {f : Fin 68} {go : BitVec 8} {req : MbxReq} {s : State} (h : Posted 0x12 f go req s)
    (hst : s.createStatus f 0x12 req.op0.toNat req.op1.toNat = 0) : Gives (.cqCreate f go req) s (fun t =>
      let a := ringAsk req.op1.toNat
      let n := s.ringAllocCqBase f + a.loc
      t.cqr n = { CqRing.init with state := .active, fn := f, base := req.op0.toNat, size := a.size, vector := a.vector,
                                   modCount := a.modCount, modTime := a.modTime, w := ringN a.size, c := ringN a.size } ∧
      (∀ k, k ≠ n → t.cqr k = s.cqr k) ∧ Answered f 0x12 go.toNat 0 n t ∧ Reports .ringCreated (ringPayload f 2 n) s t) := by
  obtain ⟨x, t, halike, ht, -, -, hcq, -, hans, hrep⟩ := created_answers (by decide) (by decide) h hst
  have hmade : x.createRing f 0x12 req.op0.toNat req.op1.toNat = x.setCqr (x.ringNumber f 2 (ringAsk req.op1.toNat).loc) (fun _ =>
      { CqRing.init with state := .active, fn := f, base := req.op0.toNat, size := (ringAsk req.op1.toNat).size,
                         vector := (ringAsk req.op1.toNat).vector, modCount := (ringAsk req.op1.toNat).modCount,
                         modTime := (ringAsk req.op1.toNat).modTime, w := ringN (ringAsk req.op1.toNat).size,
                         c := ringN (ringAsk req.op1.toNat).size }) := rfl
  rw [hmade, ringNumber_alike halike] at hcq
  have hcqr : ∀ k, t.cqr k = _ := fun k => congrArg (fun l => Tbl.get (fun _ => CqRing.init) l k) hcq
  have hold : ∀ k, x.cqr k = s.cqr k := fun k => congrArg (fun l => Tbl.get (fun _ => CqRing.init) l k) halike.cq
  refine ⟨t, congrArg Host.Outcome.next ht, ?_, fun k hk => ?_, hans, hrep⟩
  · exact (hcqr _).trans (cqr_setCqr_same x _ _)
  · exact (hcqr k).trans ((cqr_setCqr_other x _ hk).trans (hold k))

theorem evrCreate_gives {f : Fin 68} {go : BitVec 8} {req : MbxReq} {s : State} (h : Posted 0x13 f go req s)
    (hst : s.createStatus f 0x13 req.op0.toNat req.op1.toNat = 0) : Gives (.evrCreate f go req) s (fun t =>
      (t.evr (f.val - 64)).state = .active ∧ (t.evr (f.val - 64)).base = req.op0.toNat ∧ (t.evr (f.val - 64)).size = (ringAsk req.op1.toNat).size ∧
      (t.evr (f.val - 64)).vector = (ringAsk req.op1.toNat).vector ∧ (t.evr (f.val - 64)).c = ringN (ringAsk req.op1.toNat).size ∧
      Answered f 0x13 go.toNat 0 (f.val - 64) t ∧ Reports .ringCreated (ringPayload f 3 (f.val - 64)) s t) := by
  obtain ⟨x, t, halike, ht, -, -, -, hev, hans, hrep⟩ := created_answers (by decide) (by decide) h hst
  have hmade : x.createRing f 0x13 req.op0.toNat req.op1.toNat = x.setEvr (f.val - 64) (fun _ =>
      { CqRing.init with state := .active, fn := f, base := req.op0.toNat, size := (ringAsk req.op1.toNat).size,
                         vector := (ringAsk req.op1.toNat).vector, modCount := 1, modTime := 0, w := ringN (ringAsk req.op1.toNat).size,
                         c := ringN (ringAsk req.op1.toNat).size }) := rfl
  have hone := evr_setEvr_same x (f.val - 64) (fun _ =>
      { CqRing.init with state := .active, fn := f, base := req.op0.toNat, size := (ringAsk req.op1.toNat).size,
                         vector := (ringAsk req.op1.toNat).vector, modCount := 1, modTime := 0, w := ringN (ringAsk req.op1.toNat).size,
                         c := ringN (ringAsk req.op1.toNat).size })
  rw [← hmade] at hone
  exact ⟨t, congrArg Host.Outcome.next ht, (evr_field hev _ CqRing.state).trans (congrArg CqRing.state hone),
    (evr_field hev _ CqRing.base).trans (congrArg CqRing.base hone), (evr_field hev _ CqRing.size).trans (congrArg CqRing.size hone),
    (evr_field hev _ CqRing.vector).trans (congrArg CqRing.vector hone), (evr_field hev _ CqRing.c).trans (congrArg CqRing.c hone), hans, hrep⟩

/-! ### Requests that are refused (R105) -/

/-- A request brings its opcode's record to the mailbox. -/
theorem exec_request {c : Instr} {f : Fin 68} {go : BitVec 8} {req : MbxReq} {op : Nat} (h : Requests c f go req op) (s : State) :
    exec c s = .next (s.mbxGo f go (mbxWithOp req op)) := by
  rcases h with ⟨rfl, rfl⟩ | ⟨rfl, rfl⟩ | ⟨rfl, rfl⟩ | ⟨rfl, rfl⟩ | ⟨rfl, rfl⟩ | ⟨rfl, rfl⟩ | ⟨rfl, rfl⟩ | ⟨rfl, rfl⟩
  case inr.inr.inl =>
    have hsame : mbxWithOp req req.opcode.toNat = req := by
      unfold mbxWithOp
      rw [BitVec.ofNat_toNat, BitVec.setWidth_eq]
    rw [hsame]
    rfl
  all_goals rfl

/-- The parts that a request reaches when all it brings is its reply. -/
theorem keeps_refused (s : State) (f go st : Nat) (F : List (Nat × FnSt)) :
    Keeps [.setup, .fns, .watch, .supply, .power, .tether, .events, .out] s (((mbxAt s f go F).mbxReply f st 0).partnerWake f) := by
  have hat : Keeps [.power, .setup, .fns] s (mbxAt s f go F) :=
    keeps_trans (keeps_mono (keeps_endIdle s) (by decide))
      (keeps_trans (keeps_mono (keeps_onSetup s.endIdle _) (by decide)) (keeps_mono (keeps_onFns (s.endIdle.wroteGo f go) (fun _ => F)) (by decide)))
  have hrest : Does 0xd610080 (mbxAt s f go F) (((mbxAt s f go F).mbxReply f st 0).partnerWake f) :=
    does_partnerWake (by decide) (does_mbxReply (by decide) (does_refl _ _))
  have hmask : Does (partMask [.fns, .watch, .supply, .power, .tether, .events, .out]) (mbxAt s f go F) (((mbxAt s f go F).mbxReply f st 0).partnerWake f) := hrest
  exact keeps_trans (keeps_mono hat (by decide)) (keeps_mono (keeps_of_partMask hmask) (by decide))

/-- A refusal other than that of the fences is its reply. -/
theorem create_refused {c : Instr} {op : Nat} {f : Fin 68} {go : BitVec 8} {req : MbxReq} {s : State} (hc : Requests c f go req op) (h1 : 0x10 ≤ op)
    (h2 : op ≤ 0x13) (h : Posted op f go req s) (h0 : s.createStatus f op req.op0.toNat req.op1.toNat ≠ 0)
    (h6 : s.createStatus f op req.op0.toNat req.op1.toNat ≠ 6) : Gives c s (fun t =>
      Keeps [.setup, .fns, .watch, .supply, .power, .tether, .events, .out] s t ∧
      Answered f op go.toNat (s.createStatus f op req.op0.toNat req.op1.toNat) 0 t) := by
  obtain ⟨F, htaken, hgo⟩ := mbxGo_posted (by omega) h
  obtain ⟨hop, hseq, -, -⟩ := taken_go htaken
  have hst := createStatus_alike (ringsAlike_taken htaken) op req.op0.toNat req.op1.toNat
  have hmade : (mbxAt s f go.toNat F).mbxCreate f op req.op0.toNat req.op1.toNat =
      (mbxAt s f go.toNat F).mbxReply f (s.createStatus f op req.op0.toNat req.op1.toNat) 0 := by
    unfold State.mbxCreate
    dsimp only
    rw [hst, if_neg h0, if_neg h6]
  rw [mbxOpcode_create _ _ _ h1 h2, hmade] at hgo
  refine ⟨_, (exec_request hc s).trans (congrArg Host.Outcome.next hgo), keeps_refused s f go.toNat _ F, ?_⟩
  have hans := answered_mbxReply (mbxAt s f go.toNat F) f (s.createStatus f op req.op0.toNat req.op1.toNat) 0
  rw [hop, hseq] at hans
  exact answered_kept hans (congrArg FnSt.sans (fn_congr ((did_partnerWake _ f).keeps .fns (by decide)) f))

/-! ### Requests that the fences refuse (R86, R96) -/

/-- What a function's mailbox shows of its request and reply. -/
def boxOf (q : FnSt) : Nat × Bool × Option MbxWait × Bytes := (q.replySeq, q.busy, q.wait, q.reply)

theorem boxOf_evicted (q : FnSt) (f cause t0 : Nat) (h : q.busy = false) : boxOf (evicted q f cause t0 false) = boxOf q := by
  unfold evicted boxOf
  rw [if_neg (by simp [h])]

theorem still_raiseOnce (s : State) (e : Ev) (obj : Nat) (b : Bytes) : Still s (s.raiseOnce e obj b) := by
  unfold State.raiseOnce
  dsimp only
  split
  · exact still_of_flags (flags_refl s)
  · exact still_trans (t := s.onEvents _) ⟨⟨rfl, rfl, rfl, rfl, rfl, rfl⟩, fun _ => rfl⟩ (still_raise _ _ _)

/-- A function with its window of violations (R96). -/
def hitFence (q : FnSt) (n win : Nat) : FnSt := { q with fenceN := n, fenceWin := win }

/-- A violation counted and reported. -/
def fenceHit (s : State) (f n : Nat) : State :=
  ((s.setFn f (fun q => hitFence q n s.second)).count .fenceViolation f).raiseOnce .fenceHit f (le 1 f)

theorem fnTo_fenceHit (s : State) (f n : Nat) : FnTo f (hitFence (s.fn f) n s.second) s (fenceHit s f n) :=
  fnTo_still (fnTo_still (fnTo_setFn s f (fun q => hitFence q n s.second)) (still_of_flags (flags_countN .fenceViolation 0 f 1 (flags_refl _))))
    (still_raiseOnce _ _ _ _)

/-- A fence violation leaves a mailbox with no request in progress as it stands. -/
theorem box_violation (s : State) (f : Nat) (h : (s.fn f).busy = false) : boxOf ((s.violation f).fn f) = boxOf (s.fn f) := by
  unfold State.violation
  extract_lets n s1
  have hhit : FnTo f (hitFence (s.fn f) n s.second) s s1 := fnTo_fenceHit s f n
  have hbox : boxOf (s1.fn f) = boxOf (s.fn f) := (fn_field boxOf hhit.same).trans rfl
  generalize s1 = u at hbox
  split
  case isFalse => exact hbox
  case isTrue =>
    split
    · have hz : boxOf ((u.raise .fnQuarantined (le 1 f)).fn f) = boxOf (u.fn f) := fn_field boxOf ((still_raise u .fnQuarantined (le 1 f)).fns f)
      have hb : ((u.raise .fnQuarantined (le 1 f)).fn f).busy = false :=
        (congrArg (fun b : Nat × Bool × Option MbxWait × Bytes => b.2.1) (hz.trans hbox)).trans h
      exact (fn_field boxOf (fnTo_beginEvict _ f 7 false).same).trans ((boxOf_evicted _ f 7 _ hb).trans (hz.trans hbox))
    · have hto := fnTo_still (fnTo_setFn u f (fun q => { q with state := .quarantined })) (still_raise _ .fnQuarantined (le 1 f))
      exact ((fn_field boxOf hto.same).trans rfl).trans hbox
    · exact hbox

/-- Counters of which an eviction takes none. -/
def EvictCountsKept (s t : State) : Prop :=
  ∀ k, k / 2 ^ 15 ≠ Ctr.evrLost.code → k / 2 ^ 15 ≠ Ctr.evictDrop.code → tget t.tally.count k = tget s.tally.count k

theorem evictCounts_trans {s t u : State} (h : EvictCountsKept s t) (k : EvictCountsKept t u) : EvictCountsKept s u :=
  fun i h1 h2 => (k i h1 h2).trans (h i h1 h2)

theorem evictCounts_of {s t : State} (h : CountsKept s t) : EvictCountsKept s t := fun k h1 _ => h k h1

theorem evictCounts_does {m : Nat} {s t : State} (h : Does m s t) (hm : m.testBit 17 = false := by decide) : EvictCountsKept s t :=
  evictCounts_of (countsKept_of_count (congrArg TallySt.count (h.keeps .tally hm)))

theorem key_code {code obj : Nat} (h : obj < 2 ^ 12) : tallyKey code 0 obj / 2 ^ 15 = code := by
  unfold tallyKey
  omega

/-- An eviction counts frames it drops, and nothing else but EVR_LOST (R98). -/
theorem counts_beginEvict (s : State) {f : Nat} (hf : f < 2 ^ 12) (cause : Nat) (keep : Bool) : EvictCountsKept s (s.beginEvict f cause keep) := by
  unfold State.beginEvict
  extract_lets s1 s2 s3
  have h1 : EvictCountsKept s s1 := by
    show EvictCountsKept s (if (s.fn f).busy ∧ keep = false then s.mbxReply f 0x0A 0 else s)
    split
    · exact evictCounts_does (m := 0xc000080) (does_mbxReply (by decide) (does_refl _ s))
    · exact fun _ _ _ => rfl
  have h2 : EvictCountsKept s1 s2 := by
    show EvictCountsKept s1 (if (s.fn f).state = .checking then s1.raise .fnEnrolRefused (le 1 f ++ le 1 0x0A) else s1)
    split
    · exact evictCounts_of (countsKept_raise _ _ _)
    · exact fun _ _ _ => rfl
  have h3 : EvictCountsKept s2 s3 := fun _ _ _ => rfl
  have h4 : EvictCountsKept s3 (s3.dropFrames f) := by
    intro k hl hd
    have hkey := key_code (code := Ctr.evictDrop.code) hf
    have hc := countN_counts s3 .evictDrop 0 f (s3.copiesOf f) (by rw [hkey]; decide)
    exact hc.others k (fun hk => hd (by rw [hk, hkey])) hl
  refine evictCounts_trans (evictCounts_trans (evictCounts_trans h1 h2) h3) (evictCounts_trans h4 (evictCounts_does (m := 0x4007f02) ?_))
  exact does_abortSnap (by decide) (does_flowAll (by decide) (does_dropRings (by decide) (does_dropReads (by decide)
    (does_quietFrames (by decide) (does_refl _ (s3.dropFrames f))))))

theorem counts_raiseOnce (s : State) (e : Ev) (obj : Nat) (b : Bytes) : CountsKept s (s.raiseOnce e obj b) := by
  unfold State.raiseOnce
  dsimp only
  split
  · exact fun _ _ => rfl
  · exact countsKept_trans (t := s.onEvents _) (countsKept_of_count rfl) (countsKept_raise _ _ _)

/-- A violation counts once (R96), whatever its quarantine brings. -/
theorem counted_violation (s : State) {f : Nat} (hf : f < 2 ^ 12) : Counted .fenceViolation 0 f 1 s (s.violation f) := by
  have hkey := key_code (code := Ctr.fenceViolation.code) hf
  have hlost : tallyKey Ctr.fenceViolation.code 0 f / 2 ^ 15 ≠ Ctr.evrLost.code := by rw [hkey]; decide
  have hdrop : tallyKey Ctr.fenceViolation.code 0 f / 2 ^ 15 ≠ Ctr.evictDrop.code := by rw [hkey]; decide
  unfold State.violation
  extract_lets n s1
  have h1 : Counted .fenceViolation 0 f 1 s s1 :=
    (counts_raiseOnce _ .fenceHit f (le 1 f) _ hlost).trans
      (countN_counts (s.setFn f (fun q => { q with fenceN := n, fenceWin := s.second })) .fenceViolation 0 f 1 hlost).value
  have hstep : ∀ t, EvictCountsKept s1 t → Counted .fenceViolation 0 f 1 s t := fun t ht => (ht _ hlost hdrop).trans h1
  split
  case isFalse => exact h1
  case isTrue =>
    split
    · exact hstep _ (evictCounts_trans (evictCounts_of (countsKept_raise _ _ _)) (counts_beginEvict _ hf 7 false))
    · exact hstep _ (evictCounts_trans (t := s1.setFn f _) (fun _ _ _ => rfl) (evictCounts_of (countsKept_raise _ _ _)))
    · exact h1

theorem answered_box {f op seq st op0 : Nat} {s t : State} (h : Answered f op seq st op0 s) (k : boxOf (t.fn f) = boxOf (s.fn f)) :
    Answered f op seq st op0 t := by
  simp only [boxOf, Prod.mk.injEq] at k
  obtain ⟨k1, k2, k3, k4⟩ := k
  obtain ⟨h1, h2, h3, h4⟩ := h
  exact ⟨k1.trans h1, k2.trans h2, k3.trans h3, k4.trans h4⟩

theorem create_fenced {c : Instr} {op : Nat} {f : Fin 68} {go : BitVec 8} {req : MbxReq} {s : State} (hc : Requests c f go req op) (h1 : 0x10 ≤ op)
    (h2 : op ≤ 0x13) (h : Posted op f go req s) (h6 : s.createStatus f op req.op0.toNat req.op1.toNat = 6) :
    Gives c s (fun t => Answered f op go.toNat 6 0 t ∧ Counted .fenceViolation 0 f 1 s t) := by
  obtain ⟨F, htaken, hgo⟩ := mbxGo_posted (by omega) h
  obtain ⟨hop, hseq, -, -⟩ := taken_go htaken
  obtain ⟨-, -, -, -, -, -, htally, -, -, -, -⟩ := mbxAt_parts s f go.toNat F
  have hf : f.val < 2 ^ 12 := lt_trans f.isLt (by decide)
  have hst := createStatus_alike (ringsAlike_taken htaken) op req.op0.toNat req.op1.toNat
  have hmade : (mbxAt s f go.toNat F).mbxCreate f op req.op0.toNat req.op1.toNat = ((mbxAt s f go.toNat F).mbxReply f 6 0).violation f := by
    unfold State.mbxCreate
    dsimp only
    rw [hst, h6, if_neg (by decide), if_pos rfl]
  rw [mbxOpcode_create _ _ _ h1 h2, hmade] at hgo
  have hans := answered_mbxReply (mbxAt s f go.toNat F) f 6 0
  rw [hop, hseq] at hans
  have hcount : ((mbxAt s f go.toNat F).mbxReply f 6 0).tally = s.tally :=
    ((does_mbxReply (by decide) (does_refl 0xc000080 _) : Does 0xc000080 (mbxAt s f go.toNat F) _).keeps .tally (by decide)).trans htally
  generalize (mbxAt s f go.toNat F).mbxReply f 6 0 = u at hgo hans hcount
  have hwake := did_partnerWake (u.violation f) f
  refine ⟨_, (exec_request hc s).trans (congrArg Host.Outcome.next hgo), ?_, ?_⟩
  · exact answered_kept (answered_box hans (box_violation u f hans.2.1)) (congrArg FnSt.sans (fn_congr (hwake.keeps .fns (by decide)) f))
  · have hv := counted_violation u hf
    unfold Counted at hv ⊢
    rw [show ((u.violation f).partnerWake f).tally = (u.violation f).tally from hwake.keeps .tally (by decide), hv, hcount]

/-! ### RING_DESTROY (R105, R106) -/

/-- What frames that wait for a ring leave behind when they are given up: the functions, the clocks and the ring's owner and state. -/
theorem dropWaiting_gives (s : State) (n : Nat) : Still s (s.dropWaiting n) ∧ (s.dropWaiting n).tx = s.tx ∧ (s.dropWaiting n).cq = s.cq ∧
    EvrKept s (s.dropWaiting n) ∧ ((s.dropWaiting n).rxr n).fn = (s.rxr n).fn := by
  unfold State.dropWaiting
  extract_lets ids
  have hcount := flags_countN .rxNoRing 0 (s.rxr n).fn ids.length (flags_refl s)
  have hevr : EvrKept s (s.countN .rxNoRing 0 (s.rxr n).fn ids.length) := evrKept_runEffs _ _ s
  generalize s.countN .rxNoRing 0 (s.rxr n).fn ids.length = u at hcount hevr
  generalize hv : (u.onHamper fun x => { x with frames := (x.frames.map (fun h => if h.id ∈ ids then dropRing n h else h)).filter (fun h => h.copies ≠ []) }) = v
  have hdid : Does 0x2000 u v := hv ▸ does_onHamper (by decide) (does_refl _ u)
  generalize hw : v.setRxr n (fun r => { r with wait := r.wait.filter (fun i => i ∉ ids) }) = w
  have hset : Does 0x200 v w := hw ▸ does_setRxr (by decide) (does_refl _ v)
  have hone : (w.rxr n).fn = (v.rxr n).fn := by rw [← hw, rxr_setRxr_same]
  have hflow : Does 0x7000 w w.flowAll := does_flowAll (by decide) (does_refl _ w)
  have hrest : Does 0x7200 u w.flowAll := does_trans (does_mono hdid (by decide)) (does_trans (does_mono hset (by decide)) (does_mono hflow (by decide)))
  have hrx : ∀ a b : State, b.rx = a.rx → (b.rxr n).fn = (a.rxr n).fn := fun a b h => by simp only [State.rxr, h]
  refine ⟨still_trans (still_of_flags hcount) (still_of_does hrest (by decide)), ?_, ?_, evrKept_trans hevr (evrKept_of_does hrest (by decide)), ?_⟩
  · rw [hrest.keeps .tx (by decide), hcount.keeps .tx (by decide)]
  · rw [hrest.keeps .cq (by decide), hcount.keeps .cq (by decide)]
  · exact (hrx _ _ (hflow.keeps .rx (by decide))).trans (hone.trans ((hrx _ _ (hdid.keeps .rx (by decide))).trans (hrx _ _ (hcount.keeps .rx (by decide)))))

theorem still_setRxr (s : State) (n : Nat) (g : RxRing → RxRing) : Still s (s.setRxr n g) :=
  still_of_does (m := 0x200) (does_setRxr (by decide) (does_refl _ s))

theorem still_closeRing (s : State) (kind n : Nat) : Still s (s.closeRing kind n) := by
  unfold State.closeRing
  split
  · exact still_of_does (m := 0x1100) (does_tidy (by decide) (does_setTxr (by decide) (does_refl _ s)))
  split
  · exact still_trans (dropWaiting_gives s n).1 (still_setRxr _ _ _)
  split
  · exact still_of_does (m := 0x400) (does_setCqr (by decide) (does_refl _ s))
  · exact still_of_does (m := 0x4000000) (does_setEvr (by decide) (does_refl _ s))

/-- The rings of a kind, of which the state of a ring is one. -/
theorem ringState_congr {s t : State} (htx : t.tx = s.tx) (hrx : t.rx = s.rx) (hcq : t.cq = s.cq) (hevr : EvrKept s t) (f kind n : Nat) :
    t.ringState f kind n = s.ringState f kind n := by
  unfold State.ringState State.txr State.rxr State.cqr
  rw [evr_field hevr n CqRing.state, htx, hrx, hcq]

/-- A ring that was Active is Closing once it is destroyed (R106). -/
theorem closing_closeRing {s : State} {f kind n : Nat} (h : s.ringState f kind n = .active) : (s.closeRing kind n).ringState f kind n = .closing := by
  unfold State.ringState at h ⊢
  unfold State.closeRing
  by_cases h0 : kind = 0
  · rw [if_pos h0] at h
    rw [if_pos h0, if_pos h0]
    generalize hz : (s.setTxr n fun r => { r with
      state := .closing, cur := [], f := r.h,
      sends := r.sends.filter (fun x => match x.st with | .granted _ => true | .done => x.wasSent | _ => false) }) = z
    have htidy : Does 0x1000 z (z.tidy (s.txr n).inst (s.txr n).cls) := does_tidy (by decide) (does_refl _ z)
    have htx : (z.tidy (s.txr n).inst (s.txr n).cls).txr n = z.txr n := congrArg (fun l => Tbl.get (fun _ => TxRing.init) l n) (htidy.keeps .tx (by decide))
    rw [htx, ← hz, txr_setTxr_same]
    by_cases hfn : (s.txr n).fn = f
    · exact if_pos hfn
    · rw [if_neg hfn] at h
      exact absurd h (by decide)
  by_cases h1 : kind = 1
  · rw [if_neg h0, if_pos h1] at h
    rw [if_neg h0, if_pos h1, if_neg h0, if_pos h1, rxr_setRxr_same]
    obtain ⟨-, -, -, -, hown⟩ := dropWaiting_gives s n
    by_cases hfn : (s.rxr n).fn = f
    · exact if_pos (hown.trans hfn)
    · rw [if_neg hfn] at h
      exact absurd h (by decide)
  by_cases h2 : kind = 2
  · rw [if_neg h0, if_neg h1, if_pos h2] at h
    rw [if_neg h0, if_neg h1, if_pos h2, if_neg h0, if_neg h1, if_pos h2, cqr_setCqr_same]
    by_cases hfn : (s.cqr n).fn = f
    · exact if_pos hfn
    · rw [if_neg hfn] at h
      exact absurd h (by decide)
  · rw [if_neg h0, if_neg h1, if_neg h2, if_neg h0, if_neg h1, if_neg h2, evr_setEvr_same]

/-- A RING_DESTROY that no test refuses names a ring that is Active. -/
theorem active_of_destroyStatus {s : State} {f op0 op1 : Nat} (h : s.destroyStatus f op0 op1 = 0) :
    s.ringState f (bits op0 0 2) (s.ringNumber f (bits op0 0 2) (bits op0 2 5)) = .active := by
  unfold State.destroyStatus at h
  dsimp only at h
  generalize bits op0 0 2 = kind at h ⊢
  generalize bits op0 2 5 = loc at h ⊢
  split at h
  · simp at h
  split at h
  · simp at h
  next hopen =>
    split at h
    · simp at h
    next hform =>
      simp only [not_or, not_and] at hopen hform
      by_contra hno
      have h3 := hopen.2.1 hno
      have hkind : kind = 3 := by
        by_contra hk
        exact h3.1 hk
      exact hform.2.2 hkind h3.2

theorem ringDestroy_gives {f : Fin 68} {go : BitVec 8} {req : MbxReq} {s : State} (h : Posted 0x14 f go req s) :
    (s.destroyStatus f req.op0.toNat req.op1.toNat = 0 → Gives (.ringDestroy f go req) s (fun t =>
      let kind := bits req.op0.toNat 0 2
      t.ringState f kind (s.ringNumber f kind (bits req.op0.toNat 2 5)) = .closing ∧
      (t.fn f).wait = some (.destroy kind (bits req.op0.toNat 2 5)) ∧ (t.fn f).busy = true)) ∧
    (s.destroyStatus f req.op0.toNat req.op1.toNat ≠ 0 → Gives (.ringDestroy f go req) s
      (Answered f 0x14 go.toNat (s.destroyStatus f req.op0.toNat req.op1.toNat) 0)) := by
  obtain ⟨F, htaken, hgo⟩ := mbxGo_posted (by decide) h
  obtain ⟨hop, hseq, hbusy, -⟩ := taken_go htaken
  have halike := ringsAlike_taken htaken
  rw [mbxOpcode_destroy] at hgo
  generalize mbxAt s f go.toNat F = x at hgo hop hseq hbusy halike
  have hst := destroyStatus_alike halike req.op0.toNat req.op1.toNat
  constructor
  · intro h0
    have hactive := active_of_destroyStatus h0
    rw [← ringState_alike halike] at hactive
    have hclosing := closing_closeRing hactive
    have hstill := still_closeRing x (bits req.op0.toNat 0 2) (s.ringNumber f (bits req.op0.toNat 0 2) (bits req.op0.toNat 2 5))
    have hmade : x.mbxDestroy f req.op0.toNat req.op1.toNat =
        (x.closeRing (bits req.op0.toNat 0 2) (s.ringNumber f (bits req.op0.toNat 0 2) (bits req.op0.toNat 2 5))).setFn f
          (fun q => { q with wait := some (.destroy (bits req.op0.toNat 0 2) (bits req.op0.toNat 2 5)) }) := by
      unfold State.mbxDestroy
      dsimp only
      rw [hst, if_pos h0, ringNumber_alike halike]
    rw [hmade] at hgo
    generalize x.closeRing _ _ = y at hclosing hstill hgo
    have hset := fn_setFn_same y f (fun q => { q with wait := some (.destroy (bits req.op0.toNat 0 2) (bits req.op0.toNat 2 5)) })
    have hring : (y.setFn f (fun q => { q with wait := some (.destroy (bits req.op0.toNat 0 2) (bits req.op0.toNat 2 5)) })).ringState f
        (bits req.op0.toNat 0 2) (s.ringNumber f (bits req.op0.toNat 0 2) (bits req.op0.toNat 2 5)) = .closing := hclosing
    generalize y.setFn f (fun q => { q with wait := some (.destroy (bits req.op0.toNat 0 2) (bits req.op0.toNat 2 5)) }) = z at hset hring hgo
    have hwake := did_partnerWake z f
    have hfn : (z.partnerWake f).fn f = z.fn f := fn_congr (hwake.keeps .fns (by decide)) f
    refine ⟨_, congrArg Host.Outcome.next hgo, ?_, ?_, ?_⟩
    · exact (ringState_congr (hwake.keeps .tx (by decide)) (hwake.keeps .rx (by decide)) (hwake.keeps .cq (by decide))
        (evrKept_of_does hwake) _ _ _).trans hring
    · rw [hfn, hset]
    · rw [hfn, hset]
      exact (fn_field FnSt.busy (hstill.fns f)).trans hbusy
  · intro h0
    have hmade : x.mbxDestroy f req.op0.toNat req.op1.toNat = x.mbxReply f (s.destroyStatus f req.op0.toNat req.op1.toNat) 0 := by
      unfold State.mbxDestroy
      dsimp only
      rw [hst, if_neg h0]
    rw [hmade] at hgo
    have hans := answered_mbxReply x f (s.destroyStatus f req.op0.toNat req.op1.toNat) 0
    rw [hop, hseq] at hans
    exact ⟨_, congrArg Host.Outcome.next hgo,
      answered_kept hans (congrArg FnSt.sans (fn_congr ((did_partnerWake _ f).keeps .fns (by decide)) f))⟩

/-! ### The end of a RING_DESTROY (R106) -/

theorem still_removeRing (s : State) (kind n : Nat) : Still s (s.removeRing kind n) := by
  unfold State.removeRing
  split
  · exact still_of_does (m := 0x100) (does_setTxr (by decide) (does_refl _ s))
  split
  · exact still_trans (dropWaiting_gives s n).1 (still_setRxr _ _ _)
  split
  · exact still_of_does (m := 0x400) (does_setCqr (by decide) (does_refl _ s))
  · exact still_of_does (m := 0x4000000) (does_setEvr (by decide) (does_refl _ s))

theorem unused_removeRing (s : State) (f kind n : Nat) : (s.removeRing kind n).ringState f kind n = .unused := by
  unfold State.ringState State.removeRing
  by_cases h0 : kind = 0
  · rw [if_pos h0, if_pos h0, txr_setTxr_same]
    split <;> rfl
  by_cases h1 : kind = 1
  · rw [if_neg h0, if_pos h1, if_neg h0, if_pos h1, rxr_setRxr_same]
    split <;> rfl
  by_cases h2 : kind = 2
  · rw [if_neg h0, if_neg h1, if_pos h2, if_neg h0, if_neg h1, if_pos h2, cqr_setCqr_same]
    split <;> rfl
  · rw [if_neg h0, if_neg h1, if_neg h2, if_neg h0, if_neg h1, if_neg h2, evr_setEvr_same]
    rfl

theorem ringDestroyDone_gives {s : State} {f : Fin 68} {kind loc : Nat} (hwait : (s.fn f).wait = some (.destroy kind loc))
    (hidle : s.ringIdle kind (s.ringNumber f kind loc) = true) (hrestart : s.lookout.restart = false) (hheld : s.partnerHeld [2, 5] = false) :
    Gives (.ringDestroyDone f) s (fun t =>
      t.ringState f kind (s.ringNumber f kind loc) = .unused ∧ Answered f (s.fn f).goOp (s.fn f).goSeq 0 0 t ∧
      Reports .ringDestroyed (ringPayload f kind (s.ringNumber f kind loc)) s t) := by
  have hdone : s.destroyDone f = ((s.removeRing kind (s.ringNumber f kind loc)).raise .ringDestroyed
      (ringPayload f kind (s.ringNumber f kind loc))).mbxReply f 0 0 := by
    unfold State.destroyDone
    rw [hwait]
    exact if_pos hidle
  generalize s.ringNumber f kind loc = n at hidle hdone ⊢
  have hexec : exec (.ringDestroyDone f) s = .next (((s.removeRing kind n).raise .ringDestroyed (ringPayload f kind n)).mbxReply f 0 0) :=
    congrArg Host.Outcome.next ((if_neg (by simp [hrestart, hheld])).trans hdone)
  have hremove : Does 0xe227782 s (s.removeRing kind n) := does_removeRing (by decide) (does_refl _ s)
  have hgone := unused_removeRing s f kind n
  have hstill := still_removeRing s kind n
  generalize s.removeRing kind n = u at hexec hremove hgone hstill
  have hraise := flags_raise .ringDestroyed (ringPayload f kind n) (flags_refl u)
  have hevr := evrKept_raise u .ringDestroyed (ringPayload f kind n)
  have hrep := reports_raise u .ringDestroyed (ringPayload f kind n)
  generalize u.raise .ringDestroyed (ringPayload f kind n) = z at hexec hraise hevr hrep
  have hreply : Does 0xc000080 z (z.mbxReply f 0 0) := does_mbxReply (by decide) (does_refl _ z)
  have hrings : EvrKept z (z.mbxReply f 0 0) := evrKept_trans (evrKept_setFn z f _) (evrKept_msix _ _ _)
  have hans := answered_mbxReply z f 0 0
  have hfn : (z.fn f).sans = (s.fn f).sans := (hraise.fns f).trans (hstill.fns f)
  rw [fn_field FnSt.goOp hfn, fn_field FnSt.goSeq hfn] at hans
  refine ⟨_, hexec, ?_, hans, reports_after (reports_before hremove.out hrep) hreply.out⟩
  exact (ringState_congr ((hreply.keeps .tx (by decide)).trans (hraise.keeps .tx (by decide))) ((hreply.keeps .rx (by decide)).trans (hraise.keeps .rx (by decide)))
    ((hreply.keeps .cq (by decide)).trans (hraise.keeps .cq (by decide))) (evrKept_trans hevr hrings) _ _ _).trans hgone

/-- Settles O36: a create that no test refuses makes its ring and answers its number, a refusal answers its status, and RING_DESTROY closes its
ring and answers once nothing of it is in flight. -/
theorem ringsAreMadeAndDestroyedByMailbox : Obligations.RingsAreMadeAndDestroyedByMailbox := by
  unfold Obligations.RingsAreMadeAndDestroyedByMailbox
  refine ⟨fun s f go req h h0 => txrCreate_gives h h0, fun s f go req h h0 => rxrCreate_gives h h0, fun s f go req h h0 => cqCreate_gives h h0,
    fun s f go req h h0 => evrCreate_gives h h0, fun s f go req c op hc h1 h2 h => ⟨create_refused hc h1 h2 h, create_fenced hc h1 h2 h⟩,
    fun s f go req h => ringDestroy_gives h, fun s f kind loc _ hwait hidle hrestart hheld => ringDestroyDone_gives hwait hidle hrestart hheld⟩

end Sys2Proof.Proofs
end

section
/-! The flow table in staging: the flow commands where the engine takes them, the key registers after a FLOW_READ, and O43. -/
namespace Sys2Proof.Proofs
open Sys2Proof Sys2Proof.Machine Sys2Proof.Laws
set_option Elab.async false -- one thread, within the memory of the check

/-! ### The key registers -/

theorem ofLe_lt (l : Bytes) : ofLe l < 256 ^ l.length := by
  induction l with
  | nil => exact Nat.one_pos
  | cons b r ih =>
    have hb : b.toNat < 256 := b.isLt
    rw [ofLe, List.length_cons, Nat.pow_succ]
    omega

theorem le_ofLe (l : Bytes) : le l.length (ofLe l) = l := by
  induction l with
  | nil => rfl
  | cons b r ih =>
    have hb : b.toNat < 256 := b.isLt
    have hdiv : (b.toNat + 256 * ofLe r) / 256 = ofLe r := by omega
    have hhead : BitVec.ofNat 8 (b.toNat + 256 * ofLe r) = b := BitVec.eq_of_toNat_eq (by rw [BitVec.toNat_ofNat]; omega)
    rw [ofLe, List.length_cons, le, hdiv, ih, hhead]

/-- Word i of a key is in its register, and its bytes are the key's. -/
theorem keyWord_bytes {k : Bytes} (hk : k.length = 40) {i : Nat} (hi : i < 10) : le 4 (wget (keyWords k) i) = slice k (4 * i) 4 := by
  have hlen : (slice k (4 * i) 4).length = 4 := by simp only [slice, List.length_take, List.length_drop]; omega
  have hlt := ofLe_lt (slice k (4 * i) 4)
  have hword : wget (keyWords k) i = ofLe (slice k (4 * i) 4) := by
    have hget : Tbl.get (fun _ => 0#32) (keyWords k) i = BitVec.ofNat 32 (leAt k (4 * i) 4) := by
      unfold keyWords wput
      simp only [List.range_succ, List.range_zero, List.nil_append, List.cons_append, List.foldl_cons, List.foldl_nil]
      interval_cases i <;> simp [get_put_same, get_put_other]
    rw [hlen] at hlt
    rw [wget, hget, BitVec.toNat_ofNat, leAt]
    exact Nat.mod_eq_of_lt hlt
  have hback := le_ofLe (slice k (4 * i) 4)
  rw [hlen] at hback
  rw [hword, hback]

/-- The registers show the key that was read into them. -/
theorem flowKeyReg_keyWords {s : State} {k : Bytes} (hk : k.length = 40) (h : s.setup.flowKey = keyWords k) : s.flowKeyReg = k := by
  have hmap : (List.range 10).map (fun i => le 4 (wget s.setup.flowKey i)) = (List.range 10).map (fun i => slice k (4 * i) 4) :=
    List.map_congr_left (fun i hi => by rw [h, keyWord_bytes hk (List.mem_range.mp hi)])
  rw [State.flowKeyReg, hmap]
  have hchunks (l : Bytes) (m : Nat) : l.length = 4 * m → ((List.range m).map (fun i => slice l (4 * i) 4)).flatten = l := by
    induction m generalizing l with
    | zero => intro h; rw [List.eq_nil_of_length_eq_zero h]; rfl
    | succ m ih =>
      intro h
      have htail := ih (l.drop 4) (by rw [List.length_drop]; omega)
      have hshift : (fun i => slice l (4 * (i + 1)) 4) = fun i => slice (l.drop 4) (4 * i) 4 := by
        funext i
        rw [slice, slice, List.drop_drop]
        congr 2
        omega
      rw [List.range_succ_eq_map, List.map_cons, List.map_map, List.flatten_cons]
      exact (congrArg (slice l 0 4 ++ ·) ((congrArg (fun g => ((List.range m).map g).flatten) hshift).trans htail)).trans
        (List.take_append_drop 4 l)
  exact hchunks k 10 hk

theorem flowKeyReg_none {s : State} (h : s.setup.flowKey = []) : s.flowKeyReg = List.replicate 40 0#8 := by
  rw [State.flowKeyReg, h]
  rfl

/-! ### A flow command -/

theorem flowGo_taken {s : State} (n i op : Nat) (hp : s.noPartner = false) (hh : s.partnerHeld [5] = false) :
    s.flowGo n i op = ((s.endIdle.wrote 0x2202C (i + op * 2 ^ 16)).flowCmd i op).partnerWake (64 + n) :=
  (if_neg (by simp [hp])).trans (congrArg (fun t : State => t.partnerWake (64 + n)) (if_neg (by simp [hh])))

theorem flowGo_held {s : State} (n i op : Nat) (hp : s.noPartner = false) (hh : s.partnerHeld [5] = true) :
    s.flowGo n i op =
      ((s.endIdle.wrote 0x2202C (i + op * 2 ^ 16)).hold (.write n 0x2202C (i + op * 2 ^ 16))).partnerWake (64 + n) :=
  (if_neg (by simp [hp])).trans (congrArg (fun t : State => t.partnerWake (64 + n)) (if_pos hh))

/-- The command register and the end of Idle are no part of the flow table. -/
theorem flows_wrote (s : State) (off v : Nat) : (s.endIdle.wrote off v).flowStaging = s.flowStaging ∧
    (s.endIdle.wrote off v).flowKeyReg = s.flowKeyReg ∧ (s.endIdle.wrote off v).setup.flowValid = s.setup.flowValid ∧
    (s.endIdle.wrote off v).setup.flowRing = s.setup.flowRing ∧ (s.endIdle.wrote off v).setup.flowStaged = s.setup.flowStaged := by
  have h : s.endIdle.setup = s.setup := keeps_endIdle s .setup (by decide)
  have hst := congrArg (fun u : SetupSt =>
    flowOver u.flowStaged (flowOver (sealedFlows u.queuedSet) (flowOver (sealedFlows u.pendingSet) u.flows))) h
  have hkey := congrArg (fun u : SetupSt => ((List.range 10).map (fun i => le 4 (wget u.flowKey i))).flatten) h
  have hvalid := congrArg SetupSt.flowValid h
  have hring := congrArg SetupSt.flowRing h
  have hstaged := congrArg SetupSt.flowStaged h
  exact ⟨hst, hkey, hvalid, hring, hstaged⟩

/-- FLOW_WRITE with a key that is free for the entry. -/
theorem flowWrite_staged {s : State} {i : Nat} (hk : byteAt s.flowKeyReg 3 = 0)
    (hf : s.setup.flowValid = false ∨ ∀ e ∈ s.flowStaging, e.1 = i ∨ e.2.key ≠ s.flowKeyReg) :
    s.flowWrite i = s.onSetup (fun u => { u with
      flowStaged := Tbl.insert u.flowStaged i (if s.setup.flowValid then some { key := s.flowKeyReg, ring := s.setup.flowRing } else none),
      flowResult := 0 }) := by
  have hfree : ¬ (s.setup.flowValid = true ∧ s.flowStaging.any (fun e => e.1 ≠ i && e.2.key = s.flowKeyReg) = true) := by
    rintro ⟨hv, ha⟩
    obtain ⟨e, he, hne⟩ := List.any_eq_true.mp ha
    simp only [Bool.and_eq_true, decide_eq_true_eq] at hne
    rcases hf with hf | hf
    · simp [hf] at hv
    · exact (hf e he).elim hne.1 (fun h => h hne.2)
  rw [State.flowWrite]
  dsimp only
  rw [if_neg (not_not.mpr hk), if_neg hfree]
  rfl

/-- FLOW_WRITE with a key that another valid entry holds. -/
theorem flowWrite_taken {s : State} {i : Nat} (hk : byteAt s.flowKeyReg 3 = 0) (hv : s.setup.flowValid = true)
    (hf : ∃ e ∈ s.flowStaging, e.1 ≠ i ∧ e.2.key = s.flowKeyReg) : s.flowWrite i = s.onSetup (fun u => { u with flowResult := 1 }) := by
  obtain ⟨e, he, hne, hkey⟩ := hf
  have hany : s.flowStaging.any (fun e => e.1 ≠ i && e.2.key = s.flowKeyReg) = true :=
    List.any_eq_true.mpr ⟨e, he, by simp [hne, hkey]⟩
  rw [State.flowWrite]
  dsimp only
  rw [if_neg (not_not.mpr hk), if_pos ⟨hv, hany⟩]
  rfl

theorem flowWrite_reserved {s : State} {i : Nat} (hk : byteAt s.flowKeyReg 3 ≠ 0) :
    s.flowWrite i = s.onSetup (fun u => { u with flowResult := 2 }) := by
  rw [State.flowWrite]
  dsimp only
  rw [if_pos hk]
  rfl

/-- What a taken FLOW_READ leaves of the parts outside the set-up. -/
theorem keeps_flowRead (s : State) (off v i n : Nat) :
    Keeps [.setup, .watch, .supply, .power, .tether] s (((s.endIdle.wrote off v).flowRead i).partnerWake n) := by
  have hread : Keeps [.setup] (s.endIdle.wrote off v) ((s.endIdle.wrote off v).flowRead i) :=
    keeps_trans (keeps_onSetup _ _) (keeps_onSetup _ _)
  exact keeps_trans (keeps_mono (keeps_endIdle s) (by decide)) (keeps_trans (keeps_mono (keeps_onSetup s.endIdle _) (by decide))
    (keeps_trans (keeps_mono hread (by decide)) (keeps_mono (keeps_partnerWake _ n) (by decide))))

theorem flowCmd_delete (s : State) (i : Nat) :
    s.flowCmd i 2 = s.onSetup (fun u => { u with flowStaged := Tbl.insert u.flowStaged i none, flowResult := 0 }) := rfl

/-- What FLOW_READ shows of the entry in staging. -/
theorem flowRead_shows (s : State) (i : Nat) :
    (s.flowRead i).setup = { s.setup with
      flowKey := (Tbl.find s.flowStaging i).elim [] (fun e => keyWords e.key),
      flowRing := (Tbl.find s.flowStaging i).elim 0 FlowEntry.ring, flowValid := (Tbl.find s.flowStaging i).isSome, flowResult := 0 } := by
  unfold State.flowRead
  cases Tbl.find s.flowStaging i <;> rfl

theorem flowStaged_flowRead (s : State) (i : Nat) : (s.flowRead i).setup.flowStaged = s.setup.flowStaged :=
  (congrArg SetupSt.flowStaged (flowRead_shows s i)).trans rfl

/-- Settles O43: a command that is taken acts as its operation says, one that is held waits. -/
theorem flowEntriesAreStagedByIndex : Obligations.FlowEntriesAreStagedByIndex := by
  unfold Obligations.FlowEntriesAreStagedByIndex
  refine ⟨fun s n i hp hh => ?_, fun s n i c op hc hp hh => ?_⟩
  · obtain ⟨hst, hkr, hv, hr, -⟩ := flows_wrote s 0x2202C (i + 1 * 2 ^ 16)
    have hgo (op : Nat) := flowGo_taken n.val i.val op hp hh
    have hshow := flowRead_shows (s.endIdle.wrote 0x2202C (i + 3 * 2 ^ 16)) i.val
    obtain ⟨hstaging, -, -, -, hsd₃⟩ := flows_wrote s 0x2202C (i + 3 * 2 ^ 16)
    have hstaged := (flowStaged_flowRead (s.endIdle.wrote 0x2202C (i + 3 * 2 ^ 16)) i.val).trans hsd₃
    rw [hstaging] at hshow
    have hkept := keeps_flowRead s 0x2202C (i + 3 * 2 ^ 16) i.val (64 + n.val)
    refine ⟨fun hk hf => ?_, fun hk hval hf => ?_, fun hk => ?_, congrArg Host.Outcome.next ((hgo 2).trans
        (congrArg (fun t : State => t.partnerWake (64 + n.val)) (flowCmd_delete _ i.val))), fun hnone => ?_, fun e he hlen => ?_⟩
    · refine congrArg Host.Outcome.next ((hgo 1).trans (congrArg (fun t : State => t.partnerWake (64 + n.val)) ?_))
      refine (flowWrite_staged (hkr ▸ hk) (by rw [hv, hst, hkr]; exact hf)).trans ?_
      rw [hv, hkr, hr]
    · exact congrArg Host.Outcome.next ((hgo 1).trans (congrArg (fun t : State => t.partnerWake (64 + n.val))
        (flowWrite_taken (hkr ▸ hk) (hv ▸ hval) (by rw [hst, hkr]; exact hf))))
    · exact congrArg Host.Outcome.next ((hgo 1).trans (congrArg (fun t : State => t.partnerWake (64 + n.val))
        (flowWrite_reserved (hkr ▸ hk))))
    · rw [hnone] at hshow
      have hsetup := (keeps_partnerWake _ (64 + n.val) .setup (by decide)).trans hshow
      exact ⟨_, congrArg Host.Outcome.next (hgo 3), hkept, congrArg SetupSt.flowValid hsetup,
        flowKeyReg_none (congrArg SetupSt.flowKey hsetup), congrArg SetupSt.flowRing hsetup, congrArg SetupSt.flowResult hsetup⟩
    · rw [he] at hshow
      have hsetup := (keeps_partnerWake _ (64 + n.val) .setup (by decide)).trans hshow
      exact ⟨_, congrArg Host.Outcome.next (hgo 3), hkept, congrArg SetupSt.flowValid hsetup,
        flowKeyReg_keyWords hlen (congrArg SetupSt.flowKey hsetup), congrArg SetupSt.flowRing hsetup,
        (congrArg SetupSt.flowStaged (keeps_partnerWake _ (64 + n.val) .setup (by decide))).trans hstaged⟩
  · have hgo := flowGo_held n.val i.val op hp hh
    rcases hc with ⟨rfl, rfl⟩ | ⟨rfl, rfl⟩ | ⟨rfl, rfl⟩
    · exact congrArg Host.Outcome.next hgo
    · exact congrArg Host.Outcome.next hgo
    · exact congrArg Host.Outcome.next hgo

end Sys2Proof.Proofs
end

section
/-! Which counters an operation moves, told by their codes; what an instance's Down leaves of its MAC state; and O44. -/
namespace Sys2Proof.Proofs
open Sys2Proof Sys2Proof.Machine Sys2Proof.Laws
set_option Elab.async false -- one thread, within the memory of the check

/-! ### The counters that an operation moves -/

/-- No counter has moved but those of the listed codes. -/
def CodesKept (l : List Ctr) (s t : State) : Prop :=
  ∀ k, (∀ c ∈ l, k / 2 ^ 15 ≠ c.code) → tget t.tally.count k = tget s.tally.count k

theorem codesKept_refl (l : List Ctr) (s : State) : CodesKept l s s := fun _ _ => rfl

theorem codesKept_trans {l : List Ctr} {s t u : State} (h : CodesKept l s t) (k : CodesKept l t u) : CodesKept l s u :=
  fun i hi => (k i hi).trans (h i hi)

theorem codesKept_mono {l m : List Ctr} {s t : State} (h : CodesKept l s t) (hl : ∀ c ∈ l, c ∈ m) : CodesKept m s t :=
  fun i hi => h i (fun c hc => hi c (hl c hc))

theorem codesKept_ite {l : List Ctr} {s t u : State} {p : Prop} [Decidable p] (ht : CodesKept l s t) (hu : CodesKept l s u) :
    CodesKept l s (if p then t else u) := by
  split
  · exact ht
  · exact hu

theorem codesKept_foldl {α : Type} {l : List Ctr} {f : State → α → State} (xs : List α) (s : State)
    (h : ∀ t, ∀ x ∈ xs, CodesKept l t (f t x)) : CodesKept l s (xs.foldl f s) := by
  induction xs generalizing s with
  | nil => exact codesKept_refl l s
  | cons x xs ih =>
    exact codesKept_trans (h s x List.mem_cons_self) (ih (f s x) (fun t y hy => h t y (List.mem_cons_of_mem x hy)))

theorem codesKept_of {l : List Ctr} {s t : State} (h : CountsKept s t) (he : Ctr.evrLost ∈ l := by decide) : CodesKept l s t :=
  fun i hi => h i (hi _ he)

/-- An operation that does not touch the Tally. -/
theorem codesKept_does {l : List Ctr} {m : Nat} {s t : State} (h : Does m s t) (hm : m.testBit 17 = false := by decide) :
    CodesKept l s t :=
  fun _ _ => congrArg (fun y : TallySt => tget y.count _) (h.keeps .tally hm)

theorem codesKept_raise {l : List Ctr} (s : State) (e : Ev) (b : Bytes) (he : Ctr.evrLost ∈ l := by decide) :
    CodesKept l s (s.raise e b) :=
  codesKept_of (countsKept_raise s e b) he

theorem cls_key_code {code cls obj : Nat} (hcls : cls < 8) (h : obj < 2 ^ 12) : tallyKey code cls obj / 2 ^ 15 = code := by
  unfold tallyKey
  omega

theorem codesKept_countN {l : List Ctr} (s : State) (c : Ctr) {cls obj : Nat} (n : Nat) (hcls : cls < 8) (ho : obj < 2 ^ 12)
    (hl : c ∈ l := by decide) (he : Ctr.evrLost ∈ l := by decide) (hc : c.code ≠ Ctr.evrLost.code := by decide) :
    CodesKept l s (s.countN c cls obj n) := by
  have hkey := cls_key_code (code := c.code) hcls ho
  exact fun k hk => (countN_counts s c cls obj n (by rw [hkey]; exact hc)).others k
    (fun h => hk c hl (by rw [h, hkey])) (hk _ he)

/-- A counter that goes up among operations that leave its code alone. -/
theorem counted_mid {l : List Ctr} {c : Ctr} {cls obj n : Nat} {s u v t : State} (hcls : cls < 8) (ho : obj < 2 ^ 12)
    (h : CodesKept l s u) (hc : Counted c cls obj n u v) (k : CodesKept l v t) (hl : ∀ d ∈ l, c.code ≠ d.code := by decide) :
    Counted c cls obj n s t := by
  have hout : ∀ d ∈ l, tallyKey c.code cls obj / 2 ^ 15 ≠ d.code := fun d hd => by rw [cls_key_code hcls ho]; exact hl d hd
  unfold Counted at hc ⊢
  rw [k _ hout, hc, h _ hout]

theorem counted_countN (s : State) (c : Ctr) {cls obj : Nat} (n : Nat) (hcls : cls < 8) (ho : obj < 2 ^ 12)
    (hc : c.code ≠ Ctr.evrLost.code := by decide) : Counted c cls obj n s (s.countN c cls obj n) :=
  (countN_counts s c cls obj n (by rw [cls_key_code hcls ho]; exact hc)).value

/-! ### An instance through its Down -/

theorem mac_congr {s t : State} (h : t.macs = s.macs) (m : Nat) : t.mac m = s.mac m :=
  congrArg (fun l => Tbl.get (fun _ => MacInst.init) l m) h

theorem mac_of_does {n : Nat} {s t : State} (h : Does n s t) (m : Nat) (hn : n.testBit 14 = false := by decide) : t.mac m = s.mac m :=
  mac_congr (h.keeps .macs hn) m

/-- The set-up decides the instances of a port. -/
theorem laneInst_congr {s t : State} (h : t.setup = s.setup) (lane : Nat) : t.laneInst lane = s.laneInst lane := by
  unfold State.laneInst State.portCfgBreakout State.field State.activeWord
  rw [h]

/-- A MAC instance but for what link idle keeps of itself. -/
def lpiless (x : MacInst) : MacInst := { x with txLpi := false, entering := none, lpiShort := 0, rxLpi := false }

theorem lpiless_setMac (s : State) (n m : Nat) (f : MacInst → MacInst) (h : ∀ x, lpiless (f x) = lpiless x) :
    lpiless ((s.setMac n f).mac m) = lpiless (s.mac m) := by
  by_cases hm : m = n
  · rw [hm, mac_setMac_same]
    exact h _
  · rw [mac_setMac_other s f hm]

/-- The counters that the end of an instance's link moves. -/
def downCtrs : List Ctr := [.evrLost, .linkDownCount, .txLpiTime, .rxLpiTime]

theorem endLpi_lpiless (s : State) (m k : Nat) : lpiless ((s.endLpi m).mac k) = lpiless (s.mac k) := by
  unfold State.endLpi
  extract_lets s1
  have h1 : s1.mac k = s.mac k := by
    show (if (s.mac m).txLpi then s.countN _ _ _ _ else s).mac k = _
    split
    · exact mac_congr (flags_parts (flags_countN _ _ _ _ (flags_refl s))).2.2.2.2.2.2.2.2.2.2.2.2.1 k
    · rfl
  split
  · exact (lpiless_setMac s1 m k (fun x => { x with
      txLpi := false, entering := none,
      lpiShort := if x.txLpi ∧ s.time.elapsed < x.lpiAt + 2 * x.tw * uNs then x.lpiShort + 1 else x.lpiShort }) (fun _ => rfl)).trans
        (congrArg lpiless h1)
  · rw [h1]

theorem endRxLpi_lpiless (s : State) (m k : Nat) : lpiless ((s.endRxLpi m).mac k) = lpiless (s.mac k) := by
  unfold State.endRxLpi
  split
  · exact (lpiless_setMac _ m k (fun x => { x with rxLpi := false }) (fun _ => rfl)).trans
      (congrArg lpiless (mac_congr (flags_parts (flags_countN _ _ _ _ (flags_refl s))).2.2.2.2.2.2.2.2.2.2.2.2.1 k))
  · rfl

/-- The end of link idle around a grant that is kept. -/
def linkStops (s : State) (m : Nat) : State := (((s.settle m).endLpi m).endRxLpi m).keepGrant m

theorem leaveUp_up {s : State} {m : Nat} (h : (s.mac m).link = .up) (cause : Nat) :
    s.leaveUp m cause = ((linkStops s m).count .linkDownCount m).raise .linkDown (le 1 m ++ le 1 cause) := if_pos h

theorem linkStops_lpiless (s : State) (m k : Nat) : lpiless ((linkStops s m).mac k) = lpiless (s.mac k) := by
  have hkeep : (linkStops s m).mac k = (((s.settle m).endLpi m).endRxLpi m).mac k :=
    mac_of_does (does_keepGrant (by decide) (does_refl 0x1000 (((s.settle m).endLpi m).endRxLpi m))) k
  rw [hkeep, endRxLpi_lpiless, endLpi_lpiless]
  exact congrArg lpiless (mac_of_does (does_settle (by decide) (does_refl 0x1000 s)) k)

theorem leaveUp_lpiless (s : State) (m cause k : Nat) : lpiless ((s.leaveUp m cause).mac k) = lpiless (s.mac k) := by
  by_cases h : (s.mac m).link = .up
  · rw [leaveUp_up h]
    have hflags : Flags (linkStops s m) (((linkStops s m).count .linkDownCount m).raise .linkDown (le 1 m ++ le 1 cause)) :=
      flags_raise _ _ (flags_count _ _ (flags_refl _))
    rw [mac_congr (hflags.keeps .macs (by decide)) k, linkStops_lpiless]
  · exact congrArg (fun t : State => lpiless (t.mac k)) (if_neg h)

theorem codesKept_linkStops (s : State) {m : Nat} (hm : m < 2 ^ 12) : CodesKept [.evrLost, .txLpiTime, .rxLpiTime] s (linkStops s m) := by
  have hsettle : CodesKept [.evrLost, .txLpiTime, .rxLpiTime] s (s.settle m) := codesKept_does (does_settle (by decide) (does_refl 0x1000 s))
  have hlpi (t : State) : CodesKept [.evrLost, .txLpiTime, .rxLpiTime] t (t.endLpi m) := by
    unfold State.endLpi
    extract_lets t1
    have h1 : CodesKept [.evrLost, .txLpiTime, .rxLpiTime] t t1 := codesKept_ite (codesKept_countN t _ _ (by decide) hm) (codesKept_refl _ t)
    split
    · exact h1
    · exact h1
  have hrx (t : State) : CodesKept [.evrLost, .txLpiTime, .rxLpiTime] t (t.endRxLpi m) := by
    unfold State.endRxLpi
    split
    · exact codesKept_countN t _ _ (by decide) hm
    · exact codesKept_refl _ t
  exact codesKept_trans hsettle (codesKept_trans (hlpi _) (codesKept_trans (hrx _)
    (codesKept_does (does_keepGrant (by decide) (does_refl 0x1000 _)))))

theorem codesKept_leaveUp (s : State) {m : Nat} (hm : m < 2 ^ 12) (cause : Nat) : CodesKept downCtrs s (s.leaveUp m cause) := by
  by_cases h : (s.mac m).link = .up
  · rw [leaveUp_up h]
    exact codesKept_trans (codesKept_mono (codesKept_linkStops s hm) (by decide))
      (codesKept_trans (codesKept_countN _ _ 1 (by decide) hm) (codesKept_raise _ _ _))
  · have hsame : s.leaveUp m cause = s := if_neg h
    rw [hsame]
    exact codesKept_refl _ s

theorem codesKept_instDown (s : State) {m : Nat} (hm : m < 2 ^ 12) (cause : Nat) (next : LinkStage) :
    CodesKept downCtrs s (s.instDown m cause next) := codesKept_leaveUp s hm cause

/-- A Down from Up is counted once. -/
theorem counted_instDown {s : State} {m : Nat} (hm : m < 2 ^ 12) (h : (s.mac m).link = .up) (cause : Nat) (next : LinkStage) :
    Counted .linkDownCount 0 m 1 s (s.instDown m cause next) := by
  have hcount := counted_countN (linkStops s m) .linkDownCount (cls := 0) 1 (by decide) hm
  rw [State.instDown, leaveUp_up h]
  exact counted_mid (by decide) hm (codesKept_linkStops s hm) hcount
    (codesKept_trans (codesKept_raise _ _ _) (codesKept_does (does_setMac (by decide) (does_refl 0x4000 _))))

theorem did_linkStops (s : State) (m : Nat) : Does 0xe225082 s (linkStops s m) := by
  unfold linkStops
  exact does_keepGrant (by decide) (does_endRxLpi (by decide) (does_endLpi (by decide) (does_settle (by decide) (does_refl 0xe225082 s))))

theorem reports_leaveUp {s : State} {m : Nat} (h : (s.mac m).link = .up) (cause : Nat) :
    Reports .linkDown (le 1 m ++ le 1 cause) s (s.leaveUp m cause) := by
  have hcount : Does 0xe225082 s ((linkStops s m).count .linkDownCount m) := does_count (by decide) (did_linkStops s m)
  rw [leaveUp_up h]
  exact reports_before hcount.out (reports_raise _ _ _)

theorem reports_instDown {s : State} {m : Nat} (h : (s.mac m).link = .up) (cause : Nat) (next : LinkStage) :
    Reports .linkDown (le 1 m ++ le 1 cause) s (s.instDown m cause next) :=
  reports_after (reports_leaveUp h cause) (List.prefix_refl _)

/-- The MAC state of an instance that goes Down, but for link idle. -/
def downed (next : LinkStage) (x : MacInst) : MacInst :=
  lpiless { x with link := next, paused := [], pausedJ := [], wd := [], wdS := [], ctrlIn := [], train := false }

theorem instDown_mac (s : State) (m cause : Nat) (next : LinkStage) : lpiless ((s.instDown m cause next).mac m) = downed next (s.mac m) := by
  have hdown (x y : MacInst) (h : lpiless x = lpiless y) : downed next x = downed next y := by
    have hd (z : MacInst) : downed next z = downed next (lpiless z) := rfl
    rw [hd x, h, ← hd y]
  rw [State.instDown, mac_setMac_same]
  exact hdown _ _ (leaveUp_lpiless s m cause m)

theorem instDown_mac_other (s : State) {m k : Nat} (hk : k ≠ m) (cause : Nat) (next : LinkStage) :
    lpiless ((s.instDown m cause next).mac k) = lpiless (s.mac k) := by
  rw [State.instDown, mac_setMac_other _ _ hk, leaveUp_lpiless]

/-! ### A lane that is lost (R187) -/

/-- The lanes that are good once one is lost. -/
def lanesLess (x a : Nat) : Nat := if bit x a then x - 2 ^ a else x

theorem lanesLess_eq {x a : Nat} (h : bit x a = true) : x - 2 ^ a = 2 ^ a * (x / 2 ^ a - 1) + x % 2 ^ a := by
  have hpos : 0 < x / 2 ^ a := by
    simp only [bit, decide_eq_true_eq] at h
    generalize x / 2 ^ a = q at h
    omega
  have hdiv := Nat.div_add_mod x (2 ^ a)
  have hle : 2 ^ a ≤ 2 ^ a * (x / 2 ^ a) := Nat.le_mul_of_pos_right _ hpos
  rw [Nat.mul_sub, Nat.mul_one]
  omega

theorem bit_lanesLess_same (x a : Nat) : bit (lanesLess x a) a = false := by
  unfold lanesLess
  split
  case isFalse h => exact eq_false_of_ne_true h
  case isTrue h =>
    rw [lanesLess_eq h, bit_eq_testBit, Nat.testBit_two_pow_mul_add _ (Nat.mod_lt x (Nat.two_pow_pos a)), if_neg (Nat.lt_irrefl a),
      Nat.sub_self, Nat.testBit_zero]
    simp only [bit, decide_eq_true_eq] at h
    generalize x / 2 ^ a = q at h
    simp only [decide_eq_false_iff_not]
    omega

theorem bit_lanesLess_other (x : Nat) {a b : Nat} (h : b ≠ a) : bit (lanesLess x a) b = bit x b := by
  unfold lanesLess
  split
  case isFalse => rfl
  case isTrue hx =>
    have hlt := Nat.mod_lt x (Nat.two_pow_pos a)
    have hsplit : x.testBit b = (2 ^ a * (x / 2 ^ a) + x % 2 ^ a).testBit b := by rw [Nat.div_add_mod]
    rw [bit_eq_testBit, bit_eq_testBit, hsplit, lanesLess_eq hx, Nat.testBit_two_pow_mul_add _ hlt, Nat.testBit_two_pow_mul_add _ hlt]
    split
    · rfl
    · obtain ⟨c, hc⟩ : ∃ c, b - a = c + 1 := ⟨b - a - 1, by omega⟩
      have hhalf : (x / 2 ^ a - 1) / 2 = x / 2 ^ a / 2 := by
        simp only [bit, decide_eq_true_eq] at hx
        generalize x / 2 ^ a = q at hx
        omega
      rw [hc, Nat.testBit_succ, Nat.testBit_succ, hhalf]

/-- A lane is lost, counted and reported. -/
def laneGone (s : State) (lane : Nat) : State :=
  ((s.count .laneLoss lane).raise .laneLoss (le 1 lane)).setMac (s.laneInst lane) (fun x =>
    { x with laneOk := lanesLess x.laneOk (lane - s.laneInst lane) })

/-- An instance that is Up or in training. -/
def Trains (s : State) (m : Nat) : Prop := (s.mac m).link = .up ∨ (s.mac m).link = .training

theorem laneLost_trains {s : State} {lane : Nat} (h : Trains s (s.laneInst lane)) (cause : Nat) :
    s.laneLost cause lane = (laneGone s lane).instDown (s.laneInst lane) cause .down := by
  unfold State.laneLost
  dsimp only
  rcases h with h | h
  · rw [h]
    rfl
  · rw [h]
    rfl

theorem laneLost_rests {s : State} {lane : Nat} (h : ¬ Trains s (s.laneInst lane)) (cause : Nat) :
    s.laneLost cause lane = laneGone s lane := by
  unfold State.laneLost
  dsimp only
  cases hl : (s.mac (s.laneInst lane)).link
  case up => exact absurd (.inl hl) h
  case training => exact absurd (.inr hl) h
  case down => rfl
  case disabled => rfl

theorem laneGone_flags (s : State) (lane : Nat) : Flags s ((s.count .laneLoss lane).raise .laneLoss (le 1 lane)) :=
  flags_raise _ _ (flags_count _ _ (flags_refl s))

theorem laneGone_mac (s : State) (lane : Nat) : (laneGone s lane).mac (s.laneInst lane) =
    { s.mac (s.laneInst lane) with laneOk := lanesLess (s.mac (s.laneInst lane)).laneOk (lane - s.laneInst lane) } := by
  rw [laneGone, mac_setMac_same, mac_congr ((laneGone_flags s lane).keeps .macs (by decide))]

theorem laneGone_mac_other (s : State) {lane k : Nat} (h : k ≠ s.laneInst lane) : (laneGone s lane).mac k = s.mac k := by
  rw [laneGone, mac_setMac_other _ _ h, mac_congr ((laneGone_flags s lane).keeps .macs (by decide))]

/-- The instance of a lane that is lost. -/
theorem laneLost_mac (s : State) (lane cause : Nat) :
    let x := s.mac (s.laneInst lane)
    let y := (s.laneLost cause lane).mac (s.laneInst lane)
    y.laneOk = lanesLess x.laneOk (lane - s.laneInst lane) ∧
    (Trains s (s.laneInst lane) → y.link = .down ∧ y.paused = []) ∧ (¬ Trains s (s.laneInst lane) → y.link = x.link) := by
  intro x y
  by_cases h : Trains s (s.laneInst lane)
  · have hy : lpiless y = downed .down ((laneGone s lane).mac (s.laneInst lane)) := by
      show lpiless ((s.laneLost cause lane).mac _) = _
      rw [laneLost_trains h]
      exact instDown_mac _ _ _ _
    rw [laneGone_mac] at hy
    have hok : (lpiless y).laneOk = _ := congrArg MacInst.laneOk hy
    have hlink : (lpiless y).link = _ := congrArg MacInst.link hy
    have hpaused : (lpiless y).paused = _ := congrArg MacInst.paused hy
    exact ⟨hok, fun _ => ⟨hlink, hpaused⟩, fun hn => absurd h hn⟩
  · have hy : y = (laneGone s lane).mac (s.laneInst lane) := congrArg (fun t : State => t.mac _) (laneLost_rests h cause)
    rw [laneGone_mac] at hy
    have hlink : y.link = _ := congrArg MacInst.link hy
    exact ⟨congrArg MacInst.laneOk hy, fun ht => absurd ht h, fun _ => hlink⟩

theorem laneLost_mac_other (s : State) {lane k : Nat} (hk : k ≠ s.laneInst lane) (cause : Nat) :
    lpiless ((s.laneLost cause lane).mac k) = lpiless (s.mac k) := by
  by_cases h : Trains s (s.laneInst lane)
  · rw [laneLost_trains h, instDown_mac_other _ hk, laneGone_mac_other s hk]
  · rw [laneLost_rests h, laneGone_mac_other s hk]

theorem laneInst_le (s : State) (lane : Nat) : s.laneInst lane ≤ lane := by
  have h := Nat.div_mul_le_self (lane % 8) (lanesPer (s.portCfgBreakout (lane / 8)))
  unfold State.laneInst
  omega

/-- What follows a lane's loss moves the counters of a Down alone. -/
theorem codesKept_laneDowns (s : State) {lane : Nat} (hl : lane < 2 ^ 12) (cause : Nat) :
    CodesKept downCtrs (s.count .laneLoss lane) (s.laneLost cause lane) := by
  have hgone : CodesKept downCtrs (s.count .laneLoss lane) (laneGone s lane) :=
    codesKept_trans (codesKept_raise _ _ _) (codesKept_does (does_setMac (by decide) (does_refl 0x4000 _)))
  by_cases h : Trains s (s.laneInst lane)
  · rw [laneLost_trains h]
    exact codesKept_trans hgone (codesKept_instDown _ ((laneInst_le s lane).trans_lt hl) cause .down)
  · rw [laneLost_rests h]
    exact hgone

theorem counted_laneLost (s : State) {lane : Nat} (hl : lane < 2 ^ 12) (cause : Nat) : Counted .laneLoss 0 lane 1 s (s.laneLost cause lane) :=
  counted_mid (by decide) hl (codesKept_refl _ s) (counted_countN s .laneLoss 1 (by decide) hl) (codesKept_laneDowns s hl cause)

theorem did_laneGone (s : State) (lane : Nat) : Does 0xe224082 s (laneGone s lane) := by
  unfold laneGone
  exact does_setMac (by decide) (does_raise (by decide) (does_count (by decide) (does_refl 0xe224082 s)))

theorem reports_laneLost (s : State) (lane cause : Nat) : Reports .laneLoss (le 1 lane) s (s.laneLost cause lane) := by
  have hcount : Does 0xe224082 s (s.count .laneLoss lane) := does_count (by decide) (does_refl 0xe224082 s)
  have hgone : Reports .laneLoss (le 1 lane) s (laneGone s lane) :=
    reports_after (reports_before hcount.out (reports_raise _ _ _)) (does_setMac (by decide) (does_refl 0x4000 _)).out
  by_cases h : Trains s (s.laneInst lane)
  · rw [laneLost_trains h]
    exact reports_after hgone (does_instDown (by decide) (does_refl 0xe225082 _)).out
  · rw [laneLost_rests h]
    exact hgone

/-- A lane lost by an instance that is Up takes it Down. -/
theorem laneLost_up {s : State} {lane : Nat} (hl : lane < 2 ^ 12) (h : (s.mac (s.laneInst lane)).link = .up) (cause : Nat) :
    Counted .linkDownCount 0 (s.laneInst lane) 1 s (s.laneLost cause lane) ∧
    Reports .linkDown (le 1 (s.laneInst lane) ++ le 1 cause) s (s.laneLost cause lane) := by
  have hup : ((laneGone s lane).mac (s.laneInst lane)).link = .up := by rw [laneGone_mac]; exact h
  have hinst : s.laneInst lane < 2 ^ 12 := (laneInst_le s lane).trans_lt hl
  have hbefore : CodesKept [.laneLoss, .evrLost] s (laneGone s lane) := by
    exact codesKept_trans (codesKept_countN _ _ 1 (by decide) hl) (codesKept_trans (codesKept_raise _ _ _)
      (codesKept_does (does_setMac (by decide) (does_refl 0x4000 _))))
  rw [laneLost_trains (.inl h)]
  exact ⟨counted_mid (by decide) hinst hbefore (counted_instDown hinst hup cause .down) (codesKept_refl _ _),
    reports_before (did_laneGone s lane).out (reports_instDown hup cause .down)⟩

/-! ### An instance that comes Up (Table 8-3) -/

/-- A link's wake and a queued control frame leave the rest of the MAC and the credits. -/
structure Woken (m : Nat) (s t : State) : Prop where
  mac : ∀ k, lpiless (t.mac k) = lpiless (s.mac k)
  credit : ∀ k c, t.creditOf k c = s.creditOf k c

theorem woken_refl (m : Nat) (s : State) : Woken m s s := ⟨fun _ => rfl, fun _ _ => rfl⟩

theorem woken_trans {m : Nat} {s t u : State} (h : Woken m s t) (k : Woken m t u) : Woken m s u :=
  ⟨fun i => (k.mac i).trans (h.mac i), fun i c => (k.credit i c).trans (h.credit i c)⟩

theorem woken_setMac (s : State) (m : Nat) (f : MacInst → MacInst) (h : ∀ x, lpiless (f x) = lpiless x) : Woken m s (s.setMac m f) :=
  ⟨fun k => lpiless_setMac s m k f h, fun _ _ => rfl⟩

theorem woken_setSch (s : State) (m : Nat) (f : SchInst → SchInst) (h : ∀ x, (f x).credit = x.credit) : Woken m s (s.setSch m f) := by
  refine ⟨fun _ => rfl, fun k c => ?_⟩
  have hcredit : ((s.setSch m f).sch k).credit = (s.sch k).credit := by
    by_cases hk : k = m
    · rw [hk, sch_setSch_same]
      exact h _
    · rw [sch_setSch_other s f hk]
  exact congrArg (fun l => Tbl.get (fun _ => (0 : Int)) l c) hcredit

theorem woken_wakeLink (s : State) (m : Nat) : Woken m s (s.wakeLink m) := by
  unfold State.wakeLink
  split
  · exact woken_trans (woken_setSch s m (fun x => { x with wakeReq := some s.time.elapsed }) (fun _ => rfl))
      (woken_setMac _ m (fun x => { x with entering := none }) (fun _ => rfl))
  · exact woken_refl m s

theorem woken_queueCtrl (s : State) (m : Nat) (x : CtrlFrame) : Woken m s (s.queueCtrl m x) := by
  unfold State.queueCtrl
  split
  · exact woken_trans (woken_setSch s m (fun c => { c with ctrl := c.ctrl ++ [x] }) (fun _ => rfl)) (woken_wakeLink _ m)
  · exact woken_refl m s

theorem woken_foldl {α : Type} {m : Nat} {f : State → α → State} (l : List α) (s : State) (h : ∀ t x, Woken m t (f t x)) :
    Woken m s (l.foldl f s) := by
  induction l generalizing s with
  | nil => exact woken_refl m s
  | cons x r ih => exact woken_trans (h s x) (ih (f s x))

theorem woken_xoffAgain (s : State) (m : Nat) : Woken m s (s.xoffAgain m) := by
  unfold State.xoffAgain
  split
  · refine woken_foldl _ s (fun t c => ?_)
    split
    · exact woken_queueCtrl _ _ _
    · exact woken_refl m t
  · split
    · exact woken_queueCtrl _ _ _
    · exact woken_refl m s

theorem woken_releaseGrant (s : State) (m : Nat) : Woken m s (s.releaseGrant m) :=
  woken_setSch s m (fun x => { x with cur := x.cur.map (fun f =>
    if f.held then { f with held := false, start := s.admitStart m f, at_ := s.timeAt (s.admitStart m f) } else f) }) (fun _ => rfl)

theorem woken_flags {m : Nat} {s t : State} (h : Flags s t) : Woken m s t :=
  ⟨fun k => congrArg lpiless (mac_congr (h.keeps .macs (by decide)) k),
    fun k c => congrArg (fun l => Tbl.get (fun _ => (0 : Int)) (SchInst.credit (Tbl.get (fun _ => SchInst.init) l k)) c)
      (h.keeps .sched (by decide))⟩

/-- The instance that comes Up has the FEC, no failed run and no credit, and reports it. -/
theorem instUp_gives (s : State) (m fec : Nat) :
    ((s.instUp m fec).mac m).link = .up ∧ ((s.instUp m fec).mac m).fec = fec ∧ ((s.instUp m fec).mac m).fails = 0 ∧
    (∀ c, (s.instUp m fec).creditOf m c = 0) ∧ Reports .linkUp (le 1 m ++ le 4 (s.rate m) ++ le 1 fec) s (s.instUp m fec) := by
  unfold State.instUp
  extract_lets rate idle twMin s1
  have hmac : (s1.mac m).link = .up ∧ (s1.mac m).fec = fec ∧ (s1.mac m).fails = 0 := by
    have h1 : s1.mac m = _ := (mac_of_does (does_zeroCredits (by decide) (does_refl 0x1000 _)) m).trans (mac_setMac_same s m _)
    rw [h1]
    exact ⟨rfl, rfl, rfl⟩
  have hcredit (c : Nat) : s1.creditOf m c = 0 :=
    congrArg (fun x : SchInst => Tbl.get (fun _ => (0 : Int)) x.credit c) (sch_setSch_same _ m _)
  have hrest : Woken m s1 (((s1.raise .linkUp (le 1 m ++ le 4 rate ++ le 1 fec)).releaseGrant m).xoffAgain m) :=
    woken_trans (woken_flags (flags_raise _ _ (flags_refl s1))) (woken_trans (woken_releaseGrant _ m) (woken_xoffAgain _ m))
  have hlast : Does 0x5000 (s1.raise .linkUp (le 1 m ++ le 4 rate ++ le 1 fec))
      (((s1.raise .linkUp (le 1 m ++ le 4 rate ++ le 1 fec)).releaseGrant m).xoffAgain m) :=
    does_xoffAgain (by decide) (does_releaseGrant (by decide) (does_refl 0x5000 _))
  have hfirst : Does 0x5000 s s1 := does_zeroCredits (by decide) (does_setMac (by decide) (does_refl 0x5000 s))
  generalize ((s1.raise .linkUp (le 1 m ++ le 4 rate ++ le 1 fec)).releaseGrant m).xoffAgain m = t at hrest hlast
  have hkeep := hrest.mac m
  have hlink : (lpiless (t.mac m)).link = _ := congrArg MacInst.link hkeep
  have hfec : (lpiless (t.mac m)).fec = _ := congrArg MacInst.fec hkeep
  have hfails : (lpiless (t.mac m)).fails = _ := congrArg MacInst.fails hkeep
  exact ⟨hlink.trans hmac.1, hfec.trans hmac.2.1, hfails.trans hmac.2.2, fun c => (hrest.credit m c).trans (hcredit c),
    reports_after (reports_before hfirst.out (reports_raise _ _ _)) hlast.out⟩

/-- Settles O44: each command by its row of Table 8-3, a lane's loss by the instance it belongs to. -/
theorem linksTrainComeUpAndGoDown : Obligations.LinksTrainComeUpAndGoDown := by
  unfold Obligations.LinksTrainComeUpAndGoDown
  refine ⟨fun s m he hl hu hn => congrArg Host.Outcome.next (if_pos ⟨he, hl, hu, hn⟩), fun s m far he hl hn ha => ?_,
    fun s m hl ht ha => ⟨fun hf => ?_, fun hf => ?_⟩, fun s m hl hf => congrArg Host.Outcome.next (if_pos ⟨hl, hf⟩), fun s lane h => ?_,
    fun s m hl => ?_⟩
  · have hgo : exec (.linkUp m far) s = .next (match s.fecOf m far.toNat with | some fec => s.instUp m fec | none => s) :=
      congrArg Host.Outcome.next (if_pos ⟨he, hl, hn, ha⟩)
    refine ⟨fun fec hfec => ?_, fun hfec => ?_, fun hr => ?_, fun hr => ?_⟩
    · rw [hfec] at hgo
      obtain ⟨hlink, hf, hfails, hcredit, hrep⟩ := instUp_gives s m fec
      exact ⟨_, hgo, hlink, hf, hfails, fun c _ => hcredit c, hrep⟩
    · rw [hfec] at hgo
      exact hgo
    · rw [State.fecOf, if_pos hr]
      exact congrArg (fun g => List.find? g (fecModes (s.rate m))) (funext fun k => bit_eq_testBit _ k)
    · exact ⟨_, if_neg (by simp [hr])⟩
  · have hgo : exec (.linkTrainTimeout m) s = .next ((s.setMac m (fun x => { x with fails := 3, train := false })).raise
        .linkTrainFail (le 1 m.val)) := by
      refine congrArg Host.Outcome.next ((if_pos ⟨hl, ht, ha⟩).trans ?_)
      dsimp only
      rw [hf]
      rfl
    exact ⟨_, hgo, raise_raises _ _ _⟩
  · refine congrArg Host.Outcome.next ((if_pos ⟨hl, ht, ha⟩).trans ?_)
    dsimp only
    rw [if_neg (by omega), decide_eq_true (show (s.mac m).fails + 1 < 3 by omega)]
  · have hlt : lane.val < 2 ^ 12 := by omega
    obtain ⟨hok, hdown, hrest⟩ := laneLost_mac s lane.val 1
    have hgo : exec (.laneLoss lane) s = .next (s.laneLost 1 lane) := by
      refine congrArg Host.Outcome.next ?_
      dsimp only
      rcases h with h | h | ⟨h, hb⟩
      · rw [h]
      · rw [h]
      · rw [h]
        exact if_pos hb
    refine ⟨_, hgo, ?_, hok ▸ bit_lanesLess_same _ _, counted_laneLost s hlt 1, reports_laneLost s lane.val 1, fun hup => ?_⟩
    · by_cases ht : Trains s (s.laneInst lane)
      · exact (hdown ht).1
      · rcases h with h | h | ⟨h, -⟩
        · exact absurd (.inl h) ht
        · exact absurd (.inr h) ht
        · exact (hrest ht).trans h
    · obtain ⟨hc, hr⟩ := laneLost_up hlt hup 1
      exact ⟨(hdown (.inl hup)).2, hc, hr⟩
  · have hmac := instDown_mac s m.val 2 .down
    have hlink : (lpiless ((s.instDown m 2 .down).mac m)).link = _ := congrArg MacInst.link hmac
    have hpaused : (lpiless ((s.instDown m 2 .down).mac m)).paused = _ := congrArg MacInst.paused hmac
    exact ⟨_, congrArg Host.Outcome.next (if_pos hl), hlink, hpaused, counted_instDown (by omega) hl 2 .down, reports_instDown hl 2 .down⟩

end Sys2Proof.Proofs
end

section
/-! Watch lanes and cages: the wake of a matched frame, the lanes of a port that fail together, and O46. -/
namespace Sys2Proof.Proofs
open Sys2Proof Sys2Proof.Machine Sys2Proof.Laws
set_option Elab.async false -- one thread, within the memory of the check

/-! ### The lanes of a port fail (R187, R208, R209) -/

/-- A lane that its instance counts among the good ones. -/
def goodLane (s : State) (lane : Nat) : Bool := bit (s.mac (s.laneInst lane)).laneOk (lane - s.laneInst lane)

/-- One lane of a port that fails. -/
def laneFails (cause : Nat) (s : State) (lane : Nat) : State := if goodLane s lane then s.laneLost cause lane else s

theorem setup_laneLost (s : State) (lane cause : Nat) : (s.laneLost cause lane).setup = s.setup :=
  (does_laneLost (by decide) (does_refl 0xe225082 s)).keeps .setup (by decide)

theorem goodLane_laneLost (s : State) {lane k : Nat} (hk : k ≠ lane) (cause : Nat) :
    goodLane (s.laneLost cause lane) k = goodLane s k := by
  have hle := laneInst_le s lane
  have hlek := laneInst_le s k
  unfold goodLane
  rw [laneInst_congr (setup_laneLost s lane cause)]
  by_cases hm : s.laneInst k = s.laneInst lane
  · rw [hm, (laneLost_mac s lane cause).1]
    exact bit_lanesLess_other _ (by omega)
  · have hmac := laneLost_mac_other s hm cause
    have hok : (lpiless ((s.laneLost cause lane).mac (s.laneInst k))).laneOk = _ := congrArg MacInst.laneOk hmac
    exact congrArg (fun x => bit x (k - s.laneInst k)) hok

theorem goodLane_laneFails (s : State) {lane k : Nat} (hk : k ≠ lane) (cause : Nat) : goodLane (laneFails cause s lane) k = goodLane s k := by
  unfold laneFails
  split
  · exact goodLane_laneLost s hk cause
  · rfl

/-- A lane's loss is counted for no other lane. -/
theorem laneFails_count_other (s : State) {lane k : Nat} (hl : lane < 2 ^ 12) (hkl : k < 2 ^ 12) (hk : k ≠ lane) (cause : Nat) :
    tget (laneFails cause s lane).tally.count (tallyKey Ctr.laneLoss.code 0 k) = tget s.tally.count (tallyKey Ctr.laneLoss.code 0 k) := by
  have hkey := key_code (code := Ctr.laneLoss.code) hl
  have hkeyk := key_code (code := Ctr.laneLoss.code) hkl
  have hne : tallyKey Ctr.laneLoss.code 0 k ≠ tallyKey Ctr.laneLoss.code 0 lane := by
    unfold tallyKey
    omega
  have hdown : ∀ c ∈ downCtrs, tallyKey Ctr.laneLoss.code 0 k / 2 ^ 15 ≠ c.code := by
    rw [hkeyk]
    decide
  unfold laneFails
  split
  · rw [codesKept_laneDowns s hl cause _ hdown]
    exact (countN_counts s .laneLoss 0 lane 1 (by rw [hkey]; decide)).others _ hne (by rw [hkeyk]; decide)
  · rfl

theorem lanesFail_count_other {l : List Nat} (s : State) {k : Nat} (hl : ∀ x ∈ l, x < 2 ^ 12) (hkl : k < 2 ^ 12) (hk : k ∉ l) (cause : Nat) :
    tget (l.foldl (laneFails cause) s).tally.count (tallyKey Ctr.laneLoss.code 0 k) =
      tget s.tally.count (tallyKey Ctr.laneLoss.code 0 k) := by
  induction l generalizing s with
  | nil => rfl
  | cons x r ih =>
    have hx : k ≠ x := fun h => hk (h ▸ List.mem_cons_self)
    have hr : k ∉ r := fun h => hk (List.mem_cons_of_mem x h)
    exact (ih _ (fun y hy => hl y (List.mem_cons_of_mem x hy)) hr).trans
      (laneFails_count_other s (hl x List.mem_cons_self) hkl hx cause)

/-- Each good lane among those that fail is counted once. -/
theorem lanesFail_counted {l : List Nat} (s : State) {k : Nat} (hn : l.Nodup) (hl : ∀ x ∈ l, x < 2 ^ 12) (hk : k ∈ l)
    (hg : goodLane s k = true) (cause : Nat) : Counted .laneLoss 0 k 1 s (l.foldl (laneFails cause) s) := by
  induction l generalizing s with
  | nil => exact absurd hk List.not_mem_nil
  | cons x r ih =>
    obtain ⟨hx, hr⟩ := List.nodup_cons.mp hn
    have hlr := fun y hy => hl y (List.mem_cons_of_mem x hy)
    have hkl := hl k hk
    by_cases h : k = x
    · subst h
      have hstep : laneFails cause s k = s.laneLost cause k := if_pos hg
      have hone := counted_laneLost s hkl cause
      have hrest := lanesFail_count_other (s.laneLost cause k) hlr hkl hx cause
      unfold Counted at hone ⊢
      rw [List.foldl_cons, hstep, hrest, hone]
    · have hkr : k ∈ r := (List.mem_cons.mp hk).resolve_left h
      have hrest := ih (laneFails cause s x) hr hlr hkr ((goodLane_laneFails s h cause).trans hg)
      unfold Counted at hrest ⊢
      rw [List.foldl_cons, hrest, laneFails_count_other s (hl x List.mem_cons_self) hkl h cause]

/-! ### The instances of a port go Down -/

/-- One instance of a port that goes Down. -/
def instFails (cause : Nat) (s : State) (m : Nat) : State :=
  match (s.mac m).link with
  | .up | .training => s.instDown m cause .down
  | _ => s

theorem instFails_cases (s : State) (m cause : Nat) :
    (Trains s m ∧ instFails cause s m = s.instDown m cause .down) ∨ (¬ Trains s m ∧ instFails cause s m = s) := by
  unfold instFails
  cases h : (s.mac m).link
  case up => exact .inl ⟨.inl h, rfl⟩
  case training => exact .inl ⟨.inr h, rfl⟩
  case down => exact .inr ⟨by simp [Trains, h], rfl⟩
  case disabled => exact .inr ⟨by simp [Trains, h], rfl⟩

theorem instFails_same (s : State) (m cause : Nat) : ¬ Trains (instFails cause s m) m := by
  rcases instFails_cases s m cause with ⟨-, h⟩ | ⟨ht, h⟩
  · have hlink : (lpiless ((s.instDown m cause .down).mac m)).link = _ := congrArg MacInst.link (instDown_mac s m cause .down)
    have hdown : ((s.instDown m cause .down).mac m).link = .down := hlink
    rw [h]
    simp [Trains, hdown]
  · rwa [h]

theorem instFails_stays (s : State) {k : Nat} (m cause : Nat) (hk : ¬ Trains s k) : ¬ Trains (instFails cause s m) k := by
  by_cases hm : k = m
  · rw [hm]
    exact instFails_same s m cause
  · rcases instFails_cases s m cause with ⟨-, h⟩ | ⟨-, h⟩
    · have hlink : (lpiless ((s.instDown m cause .down).mac k)).link = _ := congrArg MacInst.link (instDown_mac_other s hm cause .down)
      have hsame : ((s.instDown m cause .down).mac k).link = (s.mac k).link := hlink
      rw [h]
      simpa [Trains, hsame] using hk
    · rwa [h]

theorem instsFail_down {l : List Nat} (s : State) {k : Nat} (cause : Nat) (h : k ∈ l ∨ ¬ Trains s k) :
    ¬ Trains (l.foldl (instFails cause) s) k := by
  induction l generalizing s with
  | nil => exact h.resolve_left List.not_mem_nil
  | cons x r ih =>
    refine ih _ ?_
    rcases h with h | h
    · rcases List.mem_cons.mp h with h | h
      · exact .inr (h ▸ instFails_same s k cause)
      · exact .inl h
    · exact .inr (instFails_stays s x cause h)

/-- The lanes of a port. -/
def portLanes (p : Nat) : List Nat := (List.range 8).map (fun j => 8 * p + j)

theorem mem_portLanes (p : Nat) {j : Nat} (hj : j < 8) : 8 * p + j ∈ portLanes p := List.mem_map.mpr ⟨j, List.mem_range.mpr hj, rfl⟩

theorem portLanes_nodup (p : Nat) : (portLanes p).Nodup :=
  List.Nodup.map (fun _ _ h => Nat.add_left_cancel h) List.nodup_range

theorem portLanes_lt {p x : Nat} (hp : p < 2) (h : x ∈ portLanes p) : x < 2 ^ 12 := by
  obtain ⟨j, hj, rfl⟩ := List.mem_map.mp h
  have := List.mem_range.mp hj
  omega

theorem lanesFail_eq (s : State) (p cause : Nat) : s.lanesFail p cause = (portLanes p).foldl (laneFails cause) s := rfl

theorem portDown_eq (s : State) (p cause : Nat) : s.portDown p cause = (portLanes p).foldl (instFails cause) s := by
  unfold State.portDown portLanes instFails
  rfl

theorem codesKept_portDown (s : State) {p : Nat} (hp : p < 2) (cause : Nat) : CodesKept downCtrs s (s.portDown p cause) := by
  rw [portDown_eq]
  refine codesKept_foldl _ s (fun t m hm => ?_)
  rcases instFails_cases t m cause with ⟨-, h⟩ | ⟨-, h⟩
  · rw [h]
    exact codesKept_instDown t (portLanes_lt hp hm) cause .down
  · rw [h]
    exact codesKept_refl _ t

/-- A port whose lanes fail and whose instances go Down. -/
theorem portLost (s : State) {p j : Nat} (hp : p < 2) (hj : j < 8) (cause : Nat) :
    let t := (s.lanesFail p cause).portDown p cause
    (t.mac (8 * p + j)).link ≠ .up ∧ (t.mac (8 * p + j)).link ≠ .training ∧
      (goodLane s (8 * p + j) = true → Counted .laneLoss 0 (8 * p + j) 1 s t) := by
  intro t
  have hdown : ¬ Trains t (8 * p + j) := by
    show ¬ Trains ((s.lanesFail p cause).portDown p cause) _
    rw [portDown_eq]
    exact instsFail_down _ cause (.inl (mem_portLanes p hj))
  exact ⟨fun h => hdown (.inl h), fun h => hdown (.inr h), fun hg => counted_mid (by decide) (portLanes_lt hp (mem_portLanes p hj))
    (codesKept_refl _ s) (lanesFail_counted s (portLanes_nodup p) (fun x => portLanes_lt hp) (mem_portLanes p hj) hg cause)
    (codesKept_portDown _ hp cause)⟩

theorem codesKept_of_count {l : List Ctr} {s t : State} (h : t.tally.count = s.tally.count) : CodesKept l s t :=
  fun _ _ => by rw [h]

theorem out_of_flags {s t : State} (h : Flags s t) : s.out <+: t.out := h.out.imp (fun _ hl => hl.symm)

/-! ### Watch lanes (R204 to R206) -/

/-- Activity is no counter. -/
theorem count_uses (s : State) (k : Act) (f n : Nat) : (s.uses k f n).tally.count = s.tally.count := by
  have huse (u : Nat) : (s.use k f u).tally.count = s.tally.count := rfl
  exact huse _

/-- A frame that a watch lane examines is counted. -/
def watched (s : State) (p : Fin 2) (x : RxFrame) : State := (s.uses .watch actOperator (x.bytes.length + 4)).count .watchFrames p

/-- What WATCH_FRAME does with a good frame. -/
theorem exec_watchFrame {s : State} {p : Fin 2} {x : RxFrame} (hr : (s.watchLane p).running = true) (hy : (s.watchLane p).ready = true)
    (hf : x.fcsGood = true) (hs : x.sofGood = true) (h64 : 64 ≤ x.bytes.length + 4) (h2048 : x.bytes.length + 4 ≤ 2048) :
    exec (.watchFrame p x) s = .next (if ((List.range 32).find? (s.patMatch p x.bytes)).isSome ∨ s.magic p x.bytes then
      (watched s p x).watchMatch p ((List.range 32).find? (s.patMatch p x.bytes)) (s.magic p x.bytes) else watched s p x) :=
  congrArg Host.Outcome.next ((if_pos ⟨hr, hy⟩).trans (if_pos ⟨hf, hs, h64, h2048⟩))

theorem watched_counts (s : State) (p : Fin 2) (x : RxFrame) : Counts .watchFrames 0 p 1 s (watched s p x) := by
  have hc := countN_counts (s.uses .watch actOperator (x.bytes.length + 4)) .watchFrames 0 p 1
    (by rw [key_code (by omega)]; decide)
  have hv := hc.value
  have ho := hc.others
  rw [count_uses] at hv ho
  exact ⟨flags_count _ _ (flags_uses _ _ _ (flags_refl s)), hv, ho⟩

/-- A match before its wake: counted, kept and reported. -/
def matched (s : State) (p : Nat) (n : Nat) : State :=
  ((s.count .watchMatch p).setWatchLane p (fun w => { w with last := n, matched := true })).raise .wakeFrame (le 1 p ++ le 1 n)

theorem did_matched (s : State) (p n : Nat) : Does 0xe230082 s (matched s p n) := by
  unfold matched
  exact does_raise (by decide) (does_setWatchLane (by decide) (does_count (by decide) (does_refl 0xe230082 s)))

theorem counted_matched (s : State) {p : Nat} (hp : p < 2) (n : Nat) : Counted .watchMatch 0 p 1 s (matched s p n) :=
  counted_mid (by decide) (by omega) (codesKept_refl _ s) (counted_countN s .watchMatch 1 (by decide) (by omega))
    (codesKept_trans (codesKept_does (does_setWatchLane (by decide) (does_refl 0x10000 _))) (codesKept_raise _ _ _) :
      CodesKept [.evrLost] _ _)

theorem reports_matched (s : State) (p n : Nat) : Reports .wakeFrame (le 1 p ++ le 1 n) s (matched s p n) := by
  have hset : Does 0xe230082 s ((s.count .watchMatch p).setWatchLane p (fun w => { w with last := n, matched := true })) :=
    does_setWatchLane (by decide) (does_count (by decide) (does_refl 0xe230082 s))
  exact reports_before hset.out (reports_raise _ _ _)

/-- A matched frame wakes the sled from Sleep where its source is taken (R206, R301). -/
theorem matched_wakes {s : State} {p : Fin 2} (x : RxFrame) (n src det : Nat) (hm : s.power.mode = .sleep) (ht : s.wakeTaken src = true)
    (hs : src ∈ wakeSources .sleep) :
    let t := (matched (watched s p x) p n).registerWake src det
    t.power.mode = .exiting ∧ t.power.wakeSrc = src ∧ t.power.wakeDet = det ∧ Counted .watchFrames 0 p 1 s t ∧
      Counted .watchMatch 0 p 1 s t ∧ Reports .wakeFrame (le 1 p.val ++ le 1 n) s t := by
  intro t
  have hd := did_matched (watched s p x) p n
  have hw : Flags s (watched s p x) := (watched_counts s p x).toFlags
  have hpower : (matched (watched s p x) p n).power = s.power := (hd.keeps .power (by decide)).trans (hw.keeps .power (by decide))
  have hsetup : (matched (watched s p x) p n).setup = s.setup := (hd.keeps .setup (by decide)).trans (hw.keeps .setup (by decide))
  obtain ⟨-, hwake, -, -⟩ := registerWake_wakes det ((wakeTaken_congr hsetup src).trans ht) (.inl (hpower ▸ hm)) (by rw [hpower, hm]; exact hs)
  have hreg : Does 0x1610000 (matched (watched s p x) p n) t := does_registerWake (by decide) (does_refl _ _)
  have huses : CodesKept [.watchFrames, .evrLost] s (watched s p x) :=
    codesKept_trans (t := s.uses .watch actOperator (x.bytes.length + 4))
      (codesKept_of_count (count_uses _ _ _ _)) (codesKept_countN _ _ _ (by decide) (by omega))
  have hmatch : CodesKept [.watchMatch, .evrLost] (watched s p x) (matched (watched s p x) p n) :=
    codesKept_trans (codesKept_countN _ _ _ (by decide) (by omega))
      (codesKept_trans (codesKept_does (does_setWatchLane (by decide) (does_refl 0x10000 _))) (codesKept_raise _ _ _))
  have hlast : Counted .watchMatch 0 p 1 (watched s p x) t :=
    counted_mid (l := []) (by decide) (by omega) (codesKept_refl _ _) (counted_matched _ p.isLt n) (codesKept_does hreg)
  exact ⟨congrArg PowerSt.mode hwake, congrArg PowerSt.wakeSrc hwake, congrArg PowerSt.wakeDet hwake,
    counted_mid (by decide) (by omega) (codesKept_refl _ s) (watched_counts s p x).value (codesKept_trans hmatch (codesKept_does hreg)),
    counted_mid (by decide) (by omega) huses hlast (codesKept_refl _ t),
    reports_after (reports_before (out_of_flags hw) (reports_matched _ p.val n)) hreg.out⟩

theorem watchMatch_eq (s : State) (p : Nat) {pat : Option Nat} (g : Bool) {n : Nat} (hn : pat.getD 32 = n) : s.watchMatch p pat g =
    if pat.isSome ∧ (s.wakeTaken 8 ∨ g = false) then (matched s p n).registerWake 8 (32 * p + n)
    else (matched s p n).registerWake 9 (32 * p) := by
  subst hn
  unfold State.watchMatch matched
  rfl

theorem watchMatch_pattern {s : State} (p i : Nat) (g : Bool) (h : s.wakeTaken 8 = true) :
    s.watchMatch p (some i) g = (matched s p i).registerWake 8 (32 * p + i) :=
  (watchMatch_eq s p g rfl).trans (if_pos ⟨rfl, .inl h⟩)

theorem watchMatch_magic (s : State) (p : Nat) (g : Bool) : s.watchMatch p none g = (matched s p 32).registerWake 9 (32 * p) :=
  (watchMatch_eq s p g rfl).trans (if_neg (fun h => Bool.false_ne_true h.1))

/-! ### Cages (R207 to R209) -/

/-- What the power check makes of the module (R207). -/
theorem powerCheck_gives (s : State) (p w : Nat) (cu : Bool) :
    (s.powerCheck p w cu).cage p = { s.cage p with maxPower := w, copper := cu, highPower := decide (w ≤ 80) } ∧
    (80 < w → Reports .cagePowerDenied (le 1 p ++ le 1 w) s (s.powerCheck p w cu)) ∧ s.out <+: (s.powerCheck p w cu).out := by
  refine ⟨?_, fun hw => ?_, (does_powerCheck (by decide) (does_refl 0xe228082 s)).out⟩
  · unfold State.powerCheck
    extract_lets s1
    have h1 : s1.cage p = { s.cage p with maxPower := w, copper := cu, highPower := decide (w ≤ 80) } := cage_setCage_same s p _
    split
    · exact h1
    · exact (congrArg (fun l => Tbl.get (fun _ => CageSt.init) l p) ((raise_raises s1 _ _).toFlags.keeps .cages (by decide))).trans h1
  · have hdenied : s.powerCheck p w cu = (s.setCage p (fun k =>
        { k with maxPower := w, copper := cu, highPower := decide (w ≤ 80) })).raise .cagePowerDenied (le 1 p ++ le 1 w) :=
      if_neg (by omega)
    rw [hdenied]
    exact reports_before (does_setCage (by decide) (does_refl 0x8000 s)).out (reports_raise _ _ _)

/-- The lanes of a port fail, its instances go Down, its cage changes and an event is raised. -/
def cageFails (s : State) (p cause : Nat) (f : CageSt → CageSt) (e : Ev) : State :=
  (((s.lanesFail p cause).portDown p cause).setCage p f).raise e (le 1 p)

theorem cageLost (s : State) {p : Fin 2} (cause : Nat) (f : CageSt → CageSt) (e : Ev) :
    let t := cageFails s p cause f e
    t.cage p = f (s.cage p) ∧ Reports e (le 1 p.val) s t ∧ ∀ j < 8, (t.mac (8 * p.val + j)).link ≠ .up ∧
      (t.mac (8 * p.val + j)).link ≠ .training ∧ (goodLane s (8 * p.val + j) = true → Counted .laneLoss 0 (8 * p.val + j) 1 s t) := by
  intro t
  have hdown : Does 0xe225082 s ((s.lanesFail p cause).portDown p cause) :=
    does_portDown (by decide) (does_lanesFail (by decide) (does_refl 0xe225082 s))
  have hlost (j : Nat) (hj : j < 8) := portLost s p.isLt hj cause
  have ht : t = (((s.lanesFail p cause).portDown p cause).setCage p f).raise e (le 1 p.val) := rfl
  clear_value t
  generalize (s.lanesFail p cause).portDown p cause = u at *
  have hset : Does 0xe22d082 s (u.setCage p f) := does_setCage (by decide) (does_mono hdown (by decide))
  have hraise : Flags (u.setCage p f) t := ht ▸ (raise_raises _ e (le 1 p.val)).toFlags
  have hkept : CodesKept [.evrLost] u t := by
    rw [ht]
    exact codesKept_trans (codesKept_does (does_setCage (by decide) (does_refl 0x8000 u))) (codesKept_raise _ _ _)
  have hrep : Reports e (le 1 p.val) s t := by
    rw [ht]
    exact reports_before hset.out (reports_raise _ _ _)
  have hcage : t.cage p = f (s.cage p) := by
    have h1 : t.cage p = (u.setCage p f).cage p :=
      congrArg (fun l => Tbl.get (fun _ => CageSt.init) l p) (hraise.keeps .cages (by decide))
    have h2 : u.cage p = s.cage p := congrArg (fun l => Tbl.get (fun _ => CageSt.init) l p) (hdown.keeps .cages (by decide))
    rw [h1, cage_setCage_same, h2]
  refine ⟨hcage, hrep, fun j hj => ?_⟩
  obtain ⟨hup, htr, hcount⟩ := hlost j hj
  have hmac : t.mac (8 * p + j) = u.mac (8 * p + j) := mac_congr (hraise.keeps .macs (by decide)) _
  rw [hmac]
  exact ⟨hup, htr, fun hg => counted_mid (by decide) (by omega) (codesKept_refl _ s) (hcount hg) hkept⟩

theorem cage_onSetup (s : State) (f : SetupSt → SetupSt) (p : Nat) : (s.onSetup f).cage p = s.cage p := rfl

theorem cage_arrives (s : State) (f p : Nat) : (s.arrives f).cage p = s.cage p :=
  congrArg (fun l => Tbl.get (fun _ => CageSt.init) l p) (keeps_arrives s f .cages (by decide))

theorem padTo_take {n : Nat} {d : Bytes} (h : d.length = n) : (padTo n d).take n = d := by
  rw [padTo, h, Nat.sub_self, List.replicate_zero, List.append_nil, ← h, List.take_length]

/-- Settles O46: the watch lanes by what they match, the cages by the power check and the lanes they take down. -/
theorem watchLanesWakeAndCagesPowerModules : Obligations.WatchLanesWakeAndCagesPowerModules := by
  unfold Obligations.WatchLanesWakeAndCagesPowerModules
  refine ⟨fun s p x hr hy hf hs h64 h2048 => ?_, fun s p hr => ⟨congrArg Host.Outcome.next (if_pos hr), fun hy => ?_⟩,
    fun s p w cu hc hp hm => ?_, fun s p hc hp => ?_, fun s p hs hf => ?_, fun s p hp hs => ⟨fun hn => ?_, fun d hd => ?_, fun v hv => ?_⟩,
    fun s p w cu hr => ?_, fun s p hn hf hp => ?_⟩
  · have hgo := exec_watchFrame hr hy hf hs h64 h2048
    refine ⟨fun i hi hm hb => ?_, fun hi hg hm hb => ?_, fun hi hg => ?_⟩
    · have htake : (watched s p x).wakeTaken 8 = true :=
        (wakeTaken_congr ((watched_counts s p x).toFlags.keeps .setup (by decide)) 8).trans hb
      rw [hi] at hgo
      rw [if_pos (.inl rfl), watchMatch_pattern p.val i _ htake] at hgo
      exact ⟨_, hgo, matched_wakes x i 8 (32 * p.val + i) hm hb (by decide)⟩
    · rw [hi] at hgo
      rw [if_pos (.inr hg), watchMatch_magic] at hgo
      obtain ⟨hmode, hsrc, hdet, -, hcount, hrep⟩ := matched_wakes x 32 9 (32 * p.val) hm hb (by decide)
      exact ⟨_, hgo, hmode, hsrc, hdet, hcount, hrep⟩
    · rw [hi, hg] at hgo
      exact ⟨_, hgo.trans (congrArg Host.Outcome.next (if_neg (by decide))), watched_counts s p x⟩
  · exact ⟨_, congrArg Host.Outcome.next (if_pos ⟨hr, hy⟩), raise_raises _ _ _⟩
  · obtain ⟨hcage, hdenied, hout⟩ := powerCheck_gives ((s.setCage p (fun k => { k with present := true, fault := false, supply := true })).raise
      .cageInserted (le 1 p.val)) p.val w.toNat cu
    have hset : ((s.setCage p (fun k => { k with present := true, fault := false, supply := true })).raise .cageInserted (le 1 p.val)).cage p =
        { s.cage p with present := true, fault := false, supply := true } :=
      (congrArg (fun l => Tbl.get (fun _ => CageSt.init) l p) ((raise_raises _ _ _).toFlags.keeps .cages (by decide))).trans
        (cage_setCage_same s p _)
    have hins : Reports .cageInserted (le 1 p.val) s
        ((s.setCage p (fun k => { k with present := true, fault := false, supply := true })).raise .cageInserted (le 1 p.val)) :=
      reports_before (does_setCage (by decide) (does_refl 0x8000 s)).out (reports_raise _ _ _)
    rw [hset] at hcage
    have hgo : exec (.cageInserted p w cu) s = .next (State.powerCheck
        ((s.setCage p (fun k => { k with present := true, fault := false, supply := true })).raise .cageInserted (le 1 p.val)) p w.toNat cu) := by
      refine congrArg Host.Outcome.next ((if_pos ⟨hc, hp⟩).trans ((if_pos hm).trans ?_))
      rw [decide_eq_true hm]
    obtain ⟨l, hl⟩ := id hins
    exact ⟨_, hgo, congrArg CageSt.present hcage, congrArg CageSt.supply hcage, congrArg CageSt.highPower hcage,
      congrArg CageSt.maxPower hcage, congrArg CageSt.copper hcage, reports_after hins hout,
      fun h80 => reports_before (hins.imp fun l h => h.choose_spec.1.symm) (hdenied h80)⟩
  · obtain ⟨hcage, hrep, hlanes⟩ := cageLost s (p := p) 3 (fun k =>
      { k with present := false, highPower := false, fault := false, copper := false, maxPower := 0, inReset := false }) .cageRemoved
    exact ⟨_, congrArg Host.Outcome.next (if_pos ⟨hc, hp⟩), congrArg CageSt.present hcage, congrArg CageSt.highPower hcage, hrep, hlanes⟩
  · obtain ⟨hcage, hrep, hlanes⟩ := cageLost s (p := p) 1 (fun k =>
      { k with fault := true, supply := false, highPower := false, inReset := false }) .cageFault
    exact ⟨_, congrArg Host.Outcome.next (if_pos ⟨hs, hf⟩), congrArg CageSt.fault hcage, congrArg CageSt.supply hcage, hrep,
      fun j hj => ⟨(hlanes j hj).1, (hlanes j hj).2.1⟩⟩
  · exact congrArg Host.Outcome.next ((if_neg (by simp [hn])).trans (if_pos ⟨hp, hs⟩))
  · refine congrArg Host.Outcome.next ((if_pos ⟨hp, hs⟩).trans ?_)
    dsimp only
    rw [padTo_take hd]
  · exact ⟨_, congrArg Host.Outcome.next (if_pos ⟨hp, hs, hv⟩), raiseOnce_raises _ _ _ _⟩
  · obtain ⟨hcage, hrep, -⟩ := powerCheck_gives (s.setCage p (fun k => { k with inReset := false })) p.val w.toNat cu
    rw [cage_setCage_same] at hcage
    exact ⟨_, congrArg Host.Outcome.next (if_pos hr), congrArg CageSt.inReset hcage, congrArg CageSt.highPower hcage,
      fun h80 => reports_before (does_setCage (by decide) (does_refl 0x8000 s)).out (hrep h80)⟩
  · have hc : (((s.arrives 64).wrote (0x46004 + 0x400 * p) 2)).cage p = s.cage p := cage_arrives s 64 p
    have hgo : exec (.cageReenable p) s = .next ((((s.arrives 64).wrote (0x46004 + 0x400 * p) 2).setCage p
        (fun k => { k with fault := false, supply := true })).powerCheck p (s.cage p).maxPower (s.cage p).copper) := by
      refine congrArg Host.Outcome.next ((if_neg (by simp [hn])).trans ((if_pos (by rw [hc]; exact hf)).trans ((if_pos (by rw [hc]; exact hp)).trans ?_)))
      rw [hc]
    obtain ⟨hcage, -, -⟩ := powerCheck_gives (((s.arrives 64).wrote (0x46004 + 0x400 * p) 2).setCage p
      (fun k => { k with fault := false, supply := true })) p.val (s.cage p).maxPower (s.cage p).copper
    rw [cage_setCage_same, hc] at hcage
    exact ⟨_, hgo, congrArg CageSt.fault hcage, congrArg CageSt.supply hcage, congrArg CageSt.highPower hcage⟩

end Sys2Proof.Proofs
end

section
/-! Pauses, their watchdog and the control frames of an instance: what each step leaves of its tables, and O45. -/
namespace Sys2Proof.Proofs
open Sys2Proof Sys2Proof.Machine Sys2Proof.Laws
set_option Elab.async false -- one thread, within the memory of the check

/-! ### A pause of one class (R193) -/

/-- An instance one of whose classes is no longer paused. -/
def unpaused (c : Nat) (x : MacInst) : MacInst :=
  { x with paused := Tbl.erase x.paused c, pausedJ := Tbl.erase x.pausedJ c, wd := Tbl.erase x.wd c, wdS := Tbl.erase x.wdS c }

theorem unpause_mac (s : State) (m c : Nat) : lpiless ((s.unpause m c).mac m) = lpiless (unpaused c (s.mac m)) := by
  unfold State.unpause
  extract_lets s1
  have h1 : s1.mac m = unpaused c (s.mac m) := mac_setMac_same s m _
  split
  · rw [(woken_wakeLink s1 m).mac m, h1]
  · rw [h1]

theorem did_unpause (s : State) (m c : Nat) : Does 0x5000 s (s.unpause m c) := does_unpause (by decide) (does_refl _ s)

/-- The end of a class's pause, or `none`, for the quanta of a pause that is registered now. -/
def pauseEnds (s : State) (m quanta : Nat) : Option Nat :=
  if quanta = 0 then none else some (s.time.elapsed + bitsU (512 * quanta) (s.rate m))

theorem pauseEnds_congr {s t : State} (hs : t.setup = s.setup) (ht : t.time = s.time) (m q : Nat) : pauseEnds t m q = pauseEnds s m q := by
  unfold pauseEnds State.rate State.breakout State.portCfgBreakout
  rw [field_congr hs, ht]

theorem did_pauseOne (m : Nat) (s : State) (p : Nat × Nat) : Does 0x5000 s (State.pauseOne m s p) := does_pauseOne (by decide) (does_refl _ s)

/-- One class takes the pause, the others keep theirs. -/
theorem pauseOne_find (m : Nat) (s : State) (p : Nat × Nat) (c : Nat) :
    Tbl.find ((State.pauseOne m s p).mac m).paused c = if c = p.1 then pauseEnds s m p.2 else Tbl.find (s.mac m).paused c := by
  unfold State.pauseOne pauseEnds
  split
  · have hmac := unpause_mac s m p.1
    have hpaused : (lpiless ((s.unpause m p.1).mac m)).paused = _ := congrArg MacInst.paused hmac
    have hfind : Tbl.find ((s.unpause m p.1).mac m).paused c = Tbl.find (Tbl.erase (s.mac m).paused p.1) c :=
      congrArg (fun l => Tbl.find l c) hpaused
    rw [hfind]
    split
    case isTrue h => rw [h, find_erase_same]
    case isFalse h => exact find_erase_other _ h
  · rw [mac_setMac_same]
    dsimp only
    split
    case isTrue h => rw [h, find_insert_same]
    case isFalse h => exact find_insert_other _ _ h

/-- What registering a pause leaves of the instance. -/
theorem pauseOne_rest (m : Nat) (s : State) (p : Nat × Nat) : ((State.pauseOne m s p).mac m).ctrlIn = (s.mac m).ctrlIn := by
  unfold State.pauseOne
  split
  · have hctrl : (lpiless ((s.unpause m p.1).mac m)).ctrlIn = _ := congrArg MacInst.ctrlIn (unpause_mac s m p.1)
    exact hctrl
  · rw [mac_setMac_same]

theorem pauses_other (m : Nat) {l : List (Nat × Nat)} (s : State) {c : Nat} (h : c ∉ l.map (fun p => p.1)) :
    Tbl.find ((l.foldl (State.pauseOne m) s).mac m).paused c = Tbl.find (s.mac m).paused c := by
  induction l generalizing s with
  | nil => rfl
  | cons x r ih =>
    have hx : c ≠ x.1 := fun e => h (e ▸ List.mem_cons_self)
    have hr : c ∉ r.map (fun p => p.1) := fun e => h (List.mem_cons_of_mem _ e)
    rw [List.foldl_cons, ih _ hr, pauseOne_find, if_neg hx]

/-- Each class of a pause is paused for its quanta. -/
theorem pauses_find (m : Nat) {l : List (Nat × Nat)} (s : State) (hn : (l.map (fun p => p.1)).Nodup) {p : Nat × Nat} (hp : p ∈ l) :
    Tbl.find ((l.foldl (State.pauseOne m) s).mac m).paused p.1 = pauseEnds s m p.2 := by
  induction l generalizing s with
  | nil => exact absurd hp List.not_mem_nil
  | cons x r ih =>
    obtain ⟨hx, hr⟩ := List.nodup_cons.mp hn
    have hd := did_pauseOne m s x
    rw [List.foldl_cons]
    rcases List.mem_cons.mp hp with h | h
    · rw [h, pauses_other m _ hx, pauseOne_find, if_pos rfl]
    · rw [ih _ hr h, pauseEnds_congr (hd.keeps .setup (by decide)) (hd.keeps .time (by decide))]

theorem pauses_ctrlIn (m : Nat) (l : List (Nat × Nat)) (s : State) : ((l.foldl (State.pauseOne m) s).mac m).ctrlIn = (s.mac m).ctrlIn := by
  induction l generalizing s with
  | nil => rfl
  | cons x r ih => rw [List.foldl_cons, ih, pauseOne_rest]

theorem did_pauses (m : Nat) (l : List (Nat × Nat)) (s : State) : Does 0x5000 s (l.foldl (State.pauseOne m) s) :=
  does_foldl (fun t x ht => does_trans ht (did_pauseOne m t x)) (does_refl _ s)

/-! ### The pauses that have come in -/

/-- What a watchdog run that begins leaves of the instance. -/
theorem wdCheck_mac (s : State) (m : Nat) :
    ((s.wdCheck m).mac m).paused = (s.mac m).paused ∧ ((s.wdCheck m).mac m).ctrlIn = (s.mac m).ctrlIn := by
  have hone (t : State) (c : Nat) : ((State.wdOne m t c).mac m).paused = (t.mac m).paused ∧
      ((State.wdOne m t c).mac m).ctrlIn = (t.mac m).ctrlIn := by
    unfold State.wdOne
    split
    · rw [mac_setMac_same]
      exact ⟨rfl, rfl⟩
    · exact ⟨rfl, rfl⟩
  have hall (l : List Nat) : ∀ t : State, ((l.foldl (State.wdOne m) t).mac m).paused = (t.mac m).paused ∧
      ((l.foldl (State.wdOne m) t).mac m).ctrlIn = (t.mac m).ctrlIn := by
    induction l with
    | nil => exact fun t => ⟨rfl, rfl⟩
    | cons x r ih => exact fun t => ⟨(ih _).1.trans (hone t x).1, (ih _).2.trans (hone t x).2⟩
  exact hall _ s

theorem macs_count (s : State) (c : Ctr) (n : Nat) : (s.count c n).macs = s.macs := (flags_count c n (flags_refl s)).keeps .macs (by decide)

/-- An instance that ignores pauses counts each of them (R199). -/
theorem pauses_ignored {m : Nat} (hm : m < 2 ^ 12) (x : List (Nat × Nat)) (l : List (List (Nat × Nat))) (s : State)
    (h : (s.mac m).ignoring = true) : ((x :: l).foldl (State.pauseRegister m) s).macs = s.macs ∧
      Counted .pauseIgnored 0 m (l.length + 1) s ((x :: l).foldl (State.pauseRegister m) s) := by
  have hone : State.pauseRegister m s x = s.count .pauseIgnored m := if_pos h
  have hmacs := macs_count s .pauseIgnored m
  have hfirst := counted_countN s .pauseIgnored 1 (cls := 0) (by decide) hm
  rw [List.foldl_cons, hone]
  induction l generalizing s x with
  | nil => exact ⟨hmacs, hfirst⟩
  | cons y r ih =>
    have hy : ((s.count .pauseIgnored m).mac m).ignoring = true := (congrArg MacInst.ignoring (mac_congr hmacs m)).trans h
    obtain ⟨hmac, hcount⟩ := ih y (s.count .pauseIgnored m) hy (if_pos hy) (macs_count _ _ _) (counted_countN _ .pauseIgnored 1 (by decide) hm)
    rw [List.foldl_cons, show State.pauseRegister m (s.count .pauseIgnored m) y = _ from if_pos hy]
    refine ⟨hmac.trans hmacs, ?_⟩
    unfold Counted at hcount hfirst ⊢
    rw [hcount, State.count, hfirst, Nat.mod_add_mod, List.length_cons, Nat.add_assoc, Nat.add_comm 1]

/-- The instance once the pauses that are due are taken from those that have come in. -/
def pausesTaken (s : State) (m : Nat) : State :=
  (s.settle m).setMac m (fun x => { x with ctrlIn := x.ctrlIn.filter (fun e => decide (s.time.elapsed < e.1)) })

theorem wdCloses_none {s : State} {m : Nat} (h : ∀ c < 8, s.wdClosed m c = false) : s.wdCloses m = s := by
  have hnil : (List.range 8).filter (fun c => s.wdClosed m c) = [] :=
    List.filter_eq_nil_iff.mpr (fun c hc => by simp [h c (List.mem_range.mp hc)])
  unfold State.wdCloses
  rw [hnil]
  rfl

theorem exec_pauseRegister {s : State} {m : Fin 16} (h : ∀ c < 8, s.wdClosed m c = false) :
    exec (.pauseRegister m) s = .next (if (s.mac m).ctrlIn.filter (fun e => decide (e.1 ≤ s.time.elapsed)) = [] then s
      else (((s.mac m).ctrlIn.filter (fun e => decide (e.1 ≤ s.time.elapsed))).map (fun e => e.2)).foldl (State.pauseRegister m)
        (pausesTaken s m)) := by
  refine congrArg Host.Outcome.next ?_
  dsimp only
  rw [wdCloses_none h]
  rfl

theorem did_pausesTaken (s : State) (m : Nat) : Does 0x5000 s (pausesTaken s m) := by
  unfold pausesTaken
  exact does_setMac (by decide) (does_settle (by decide) (does_refl 0x5000 s))

theorem pausesTaken_mac (s : State) (m : Nat) : (pausesTaken s m).mac m =
    { s.mac m with ctrlIn := (s.mac m).ctrlIn.filter (fun e => decide (s.time.elapsed < e.1)) } := by
  rw [pausesTaken, mac_setMac_same, mac_of_does (does_settle (by decide) (does_refl 0x1000 s)) m]

/-- Credits leave the current frame. -/
theorem settle_cur (s : State) (m : Nat) : ((s.settle m).sch m).cur = (s.sch m).cur := by
  have hcredit (t : State) (c : Nat) (v : Int) : ((t.setCredit m c v).sch m).cur = (t.sch m).cur :=
    (congrArg SchInst.cur (sch_setSch_same t m _)).trans rfl
  have hone (t : State) (c : Nat) : ((State.settleOne m t c).sch m).cur = (t.sch m).cur := by
    unfold State.settleOne
    split
    · exact hcredit t c _
    · rfl
  have hall (l : List Nat) : ∀ t : State, ((l.foldl (State.settleOne m) t).sch m).cur = (t.sch m).cur := by
    induction l with
    | nil => exact fun t => rfl
    | cons x r ih => exact fun t => (ih _).trans (hone t x)
  exact hall _ s

/-- One pause that has come in is registered (R193). -/
theorem pauseRegister_gives {s : State} {m : Nat} (hm : m < 2 ^ 12) (l : List (Nat × Nat)) (hi : (s.mac m).ignoring = false)
    (hn : (l.map (fun p => p.1)).Nodup) :
    ((State.pauseRegister m s l).mac m).ctrlIn = (s.mac m).ctrlIn ∧
    (∀ p ∈ l, Tbl.find ((State.pauseRegister m s l).mac m).paused p.1 = pauseEnds s m p.2) ∧
    ∀ f p, (s.sch m).cur = some f → p ∈ l → p.1 = f.cls → 0 < p.2 → Counted .pauseHeld 0 m 1 s (State.pauseRegister m s l) := by
  unfold State.pauseRegister
  rw [if_neg (by simp [hi])]
  extract_lets s1 found
  have hmacs : (if found then s1.count .pauseHeld m else s1).macs = s1.macs := by
    split
    · exact macs_count s1 .pauseHeld m
    · rfl
  obtain ⟨hpaused, hctrl⟩ := wdCheck_mac (if found then s1.count .pauseHeld m else s1) m
  rw [hpaused, hctrl, mac_congr hmacs m]
  refine ⟨pauses_ctrlIn m l s, fun p hp => pauses_find m s hn hp, fun f p hf hp hc hq => ?_⟩
  have hfound : found = true := by
    show (s.sch m).cur.any _ = true
    rw [hf]
    exact List.any_eq_true.mpr ⟨p, hp, by simp [hc, hq]⟩
  rw [if_pos hfound]
  exact counted_mid (l := []) (by decide) hm (codesKept_does (did_pauses m l s)) (counted_countN s1 .pauseHeld 1 (by decide) hm)
    (codesKept_does (does_wdCheck (by decide) (does_refl 0x4000 _)))

/-! ### The watchdog (R198, R199) -/

/-- A watchdog run whose class is still held: its pause ends, counted and reported. -/
def wdBroken (s : State) (m c : Nat) : State :=
  (((s.settle m).unpause m c).countCls .pauseWdExpire c m).raise .pauseBroken (le 1 m ++ le 1 c ++ le 8 (tget (s.mac m).wdS c))

theorem wdClose_held (s : State) (m c : Nat) : State.wdClose m true s c =
    if s.pauseWdMode m = 1 then (wdBroken s m c).setMac m (fun x => { x with ignoring := true }) else wdBroken s m c := rfl

theorem wdClose_free (s : State) (m c : Nat) : State.wdClose m false s c =
    s.setMac m (fun x => { x with wd := Tbl.erase x.wd c, wdS := Tbl.erase x.wdS c }) := rfl

theorem wdBroken_mac (s : State) (m c : Nat) : lpiless ((wdBroken s m c).mac m) = lpiless (unpaused c (s.mac m)) := by
  have hflags : Flags ((s.settle m).unpause m c) (wdBroken s m c) := flags_raise _ _ (flags_countCls _ _ _ (flags_refl _))
  rw [mac_congr (hflags.keeps .macs (by decide)) m, unpause_mac, mac_of_does (does_settle (by decide) (does_refl 0x1000 s)) m]

theorem did_wdClose (s : State) (m : Nat) (held : Bool) (c : Nat) : Does 0xe225082 s (State.wdClose m held s c) :=
  does_wdClose (by decide) (does_refl _ s)

theorem lpiless_parts {x y : MacInst} (h : lpiless x = lpiless y) :
    x.paused = y.paused ∧ x.wdS = y.wdS ∧ x.ignoring = y.ignoring ∧ x.wd = y.wd := by
  simp only [lpiless, MacInst.mk.injEq] at h
  simp_all

theorem wdBroken_parts (s : State) (m c : Nat) :
    ((wdBroken s m c).mac m).paused = Tbl.erase (s.mac m).paused c ∧ ((wdBroken s m c).mac m).wdS = Tbl.erase (s.mac m).wdS c ∧
      ((wdBroken s m c).mac m).ignoring = (s.mac m).ignoring := by
  obtain ⟨hpaused, hwdS, hign, -⟩ := lpiless_parts (wdBroken_mac s m c)
  exact ⟨hpaused, hwdS, hign⟩

/-- The instance after a run of one of its classes has closed. -/
theorem wdClose_mac (s : State) (m : Nat) (held : Bool) (c : Nat) :
    ((State.wdClose m held s c).mac m).paused = (if held then Tbl.erase (s.mac m).paused c else (s.mac m).paused) ∧
    ((State.wdClose m held s c).mac m).wdS = Tbl.erase (s.mac m).wdS c ∧
    ((State.wdClose m held s c).mac m).ignoring = ((s.mac m).ignoring || (held && decide (s.pauseWdMode m = 1))) := by
  cases held
  case false =>
    rw [wdClose_free, mac_setMac_same]
    simp
  case true =>
    obtain ⟨hpaused, hwdS, hign⟩ := wdBroken_parts s m c
    rw [wdClose_held]
    split
    case isTrue h =>
      rw [mac_setMac_same]
      exact ⟨hpaused, hwdS, by simp [h]⟩
    case isFalse h => exact ⟨hpaused, hwdS, by rw [hign]; simp [h]⟩

/-- A broken pause is counted for its class and no other. -/
theorem wdBroken_count (s : State) {m c d : Nat} (hm : m < 2 ^ 12) (hc : c < 8) (hd : d < 8) :
    tget (wdBroken s m c).tally.count (tallyKey Ctr.pauseWdExpire.code d m) =
      if d = c then (tget s.tally.count (tallyKey Ctr.pauseWdExpire.code d m) + 1) % 2 ^ 48
      else tget s.tally.count (tallyKey Ctr.pauseWdExpire.code d m) := by
  have hkey (e : Nat) (he : e < 8) := cls_key_code (code := Ctr.pauseWdExpire.code) he hm
  have hlost : tallyKey Ctr.pauseWdExpire.code d m / 2 ^ 15 ≠ Ctr.evrLost.code := by rw [hkey d hd]; decide
  have hbefore : ((s.settle m).unpause m c).tally = s.tally :=
    (does_unpause (by decide) (does_settle (by decide) (does_refl 0x5000 s))).keeps .tally (by decide)
  have hcount := countN_counts ((s.settle m).unpause m c) .pauseWdExpire c m 1 (by rw [hkey c hc]; decide)
  rw [wdBroken, countsKept_raise _ _ _ _ hlost]
  split
  case isTrue h =>
    subst h
    exact hcount.value.trans (by rw [hbefore])
  case isFalse h =>
    have hne : tallyKey Ctr.pauseWdExpire.code d m ≠ tallyKey Ctr.pauseWdExpire.code c m := by
      unfold tallyKey
      omega
    exact (hcount.others _ hne hlost).trans (by rw [hbefore])

theorem wdClose_count (s : State) {m c d : Nat} (hm : m < 2 ^ 12) (hc : c < 8) (hd : d < 8) (held : Bool) :
    tget (State.wdClose m held s c).tally.count (tallyKey Ctr.pauseWdExpire.code d m) =
      if held ∧ d = c then (tget s.tally.count (tallyKey Ctr.pauseWdExpire.code d m) + 1) % 2 ^ 48
      else tget s.tally.count (tallyKey Ctr.pauseWdExpire.code d m) := by
  cases held
  case false =>
    rw [if_neg (fun h => Bool.false_ne_true h.1), wdClose_free]
    exact congrArg (fun y : TallySt => tget y.count _) ((does_setMac (by decide) (does_refl 0x4000 s)).keeps .tally (by decide))
  case true =>
    have hset : (State.wdClose m true s c).tally = (wdBroken s m c).tally := by
      rw [wdClose_held]
      split
      · exact (does_setMac (by decide) (does_refl 0x4000 _)).keeps .tally (by decide)
      · rfl
    rw [hset, wdBroken_count s hm hc hd]
    simp

/-- The closes of other classes leave a class's pause, its run's stamp and its counter. -/
structure RunKept (m c : Nat) (s t : State) : Prop where
  setup : t.setup = s.setup
  paused : Tbl.find (t.mac m).paused c = Tbl.find (s.mac m).paused c
  stamp : tget (t.mac m).wdS c = tget (s.mac m).wdS c
  count : tget t.tally.count (tallyKey Ctr.pauseWdExpire.code c m) = tget s.tally.count (tallyKey Ctr.pauseWdExpire.code c m)
  out : s.out <+: t.out

theorem tget_erase_other (t : List (Nat × Nat)) {k j : Nat} (h : j ≠ k) : tget (Tbl.erase t k) j = tget t j :=
  congrArg (fun o : Option Nat => o.getD 0) (find_erase_other t h)

theorem runKept_wdClose (s : State) {m c d : Nat} (hm : m < 2 ^ 12) (hc : c < 8) (hd : d < 8) (h : c ≠ d) (held : Bool) :
    RunKept m c s (State.wdClose m held s d) := by
  obtain ⟨hpaused, hstamp, -⟩ := wdClose_mac s m held d
  have hdid := did_wdClose s m held d
  refine ⟨hdid.keeps .setup (by decide), ?_, ?_, ?_, hdid.out⟩
  · rw [hpaused]
    split
    · exact find_erase_other _ h
    · rfl
  · rw [hstamp]
    exact tget_erase_other _ h
  · rw [wdClose_count s hm hd hc held]
    exact if_neg (fun hh => h hh.2)

theorem runKept_fold {m c : Nat} (hm : m < 2 ^ 12) (hc : c < 8) (held : Nat → Bool) (l : List Nat) (hl : ∀ d ∈ l, d < 8) (hcl : c ∉ l) (s : State) :
    RunKept m c s (l.foldl (fun t d => t.wdClose m (held d) d) s) := by
  induction l generalizing s with
  | nil => exact ⟨rfl, rfl, rfl, rfl, List.prefix_refl _⟩
  | cons x r ih =>
    have hx := runKept_wdClose s hm hc (hl x List.mem_cons_self) (fun e => hcl (e ▸ List.mem_cons_self)) (held x)
    have hr := ih (fun d hd => hl d (List.mem_cons_of_mem x hd)) (fun e => hcl (List.mem_cons_of_mem x e)) (State.wdClose m (held x) s x)
    exact ⟨hr.setup.trans hx.setup, hr.paused.trans hx.paused, hr.stamp.trans hx.stamp, hr.count.trans hx.count, hx.out.trans hr.out⟩

theorem wdFold_ignoring {m : Nat} (held : Nat → Bool) (l : List Nat) (s : State) :
    ((l.foldl (fun t d => t.wdClose m (held d) d) s).mac m).ignoring =
      ((s.mac m).ignoring || (l.any held && decide (s.pauseWdMode m = 1))) := by
  induction l generalizing s with
  | nil => simp
  | cons x r ih =>
    have hmode : (State.wdClose m (held x) s x).pauseWdMode m = s.pauseWdMode m := field_congr ((did_wdClose s m (held x) x).keeps .setup (by decide)) _ _ _
    rw [List.foldl_cons, ih, hmode, (wdClose_mac s m (held x) x).2.2, List.any_cons, Bool.or_assoc, ← Bool.and_or_distrib_right]

/-- The runs of an instance that close together, one of them of a class that is held (R198, R199). -/
theorem wdCloses_held {s : State} {m c : Nat} (hm : m < 2 ^ 12) (hc : c < 8) (hcl : s.wdClosed m c = true) (hh : s.heldClass m c = true) :
    Tbl.find ((s.wdCloses m).mac m).paused c = none ∧ Counted .pauseWdExpire c m 1 s (s.wdCloses m) ∧
    Reports .pauseBroken (le 1 m ++ le 1 c ++ le 8 (tget (s.mac m).wdS c)) s (s.wdCloses m) ∧
    ((s.wdCloses m).mac m).ignoring = ((s.mac m).ignoring || decide (s.pauseWdMode m = 1)) := by
  have hmem : c ∈ (List.range 8).filter (fun c => s.wdClosed m c) := List.mem_filter.mpr ⟨List.mem_range.mpr hc, hcl⟩
  have hnodup : ((List.range 8).filter (fun c => s.wdClosed m c)).Nodup := List.nodup_range.filter _
  have hlt : ∀ d ∈ (List.range 8).filter (fun c => s.wdClosed m c), d < 8 := fun d hd => List.mem_range.mp (List.mem_of_mem_filter hd)
  have hign := wdFold_ignoring (m := m) (fun c => s.heldClass m c) ((List.range 8).filter (fun c => s.wdClosed m c)) s
  rw [List.any_eq_true.mpr ⟨c, hmem, hh⟩, Bool.true_and] at hign
  obtain ⟨l₁, l₂, hl⟩ := List.append_of_mem hmem
  rw [hl] at hnodup hlt
  have hc₁ : c ∉ l₁ := fun h => (List.nodup_append.mp hnodup).2.2 c h c List.mem_cons_self rfl
  have hc₂ : c ∉ l₂ := (List.nodup_cons.mp (List.nodup_append.mp hnodup).2.1).1
  have hall : s.wdCloses m = l₂.foldl (fun t d => t.wdClose m (s.heldClass m d) d)
      (State.wdClose m true (l₁.foldl (fun t d => t.wdClose m (s.heldClass m d) d) s) c) := by
    unfold State.wdCloses
    rw [hl, List.foldl_append, List.foldl_cons, hh]
  have h₁ := runKept_fold hm hc (fun d => s.heldClass m d) l₁ (fun d hd => hlt d (List.mem_append_left _ hd)) hc₁ s
  have h₂ := runKept_fold hm hc (fun d => s.heldClass m d) l₂
    (fun d hd => hlt d (List.mem_append_right _ (List.mem_cons_of_mem c hd))) hc₂
    (State.wdClose m true (l₁.foldl (fun t d => t.wdClose m (s.heldClass m d) d) s) c)
  refine ⟨?_, ?_, ?_, hign⟩
  · rw [hall, h₂.paused, (wdClose_mac _ m true c).1]
    exact find_erase_same _ c
  · have hone := wdClose_count (l₁.foldl (fun t d => t.wdClose m (s.heldClass m d) d) s) hm hc hc true
    rw [if_pos ⟨rfl, rfl⟩, h₁.count] at hone
    unfold Counted
    rw [hall, h₂.count, hone]
  · rw [hall, ← h₁.stamp]
    generalize l₁.foldl (fun t d => t.wdClose m (s.heldClass m d) d) s = u at h₁ h₂ ⊢
    have hbefore : Does 0xe225082 u (((u.settle m).unpause m c).countCls .pauseWdExpire c m) :=
      does_countCls (by decide) (does_unpause (by decide) (does_settle (by decide) (does_refl 0xe225082 u)))
    have hbroken : Reports .pauseBroken (le 1 m ++ le 1 c ++ le 8 (tget (u.mac m).wdS c)) u (wdBroken u m c) :=
      reports_before hbefore.out (reports_raise _ _ _)
    have hclose : (wdBroken u m c).out <+: (State.wdClose m true u c).out := by
      rw [wdClose_held]
      split
      · exact (does_setMac (by decide) (does_refl 0x4000 _)).out
      · exact List.prefix_refl _
    exact reports_after (reports_after (reports_before h₁.out hbroken) hclose) h₂.out

/-- The only run that closes, of a class that is not held. -/
theorem wdCloses_free {s : State} {m c : Nat} (hc : c < 8) (hcl : s.wdClosed m c = true) (hh : s.heldClass m c = false)
    (ho : ∀ d < 8, d ≠ c → s.wdClosed m d = false) :
    s.wdCloses m = s.setMac m (fun x => { x with wd := Tbl.erase x.wd c, wdS := Tbl.erase x.wdS c }) := by
  have hone : (List.range 8).filter (fun c => s.wdClosed m c) = [c] := by
    have hcongr : (List.range 8).filter (fun d => s.wdClosed m d) = (List.range 8).filter (fun d => d == c) := by
      refine List.filter_congr (fun d hd => ?_)
      by_cases h : d = c
      · rw [h, hcl, beq_self_eq_true]
      · rw [ho d (List.mem_range.mp hd) h, beq_eq_false_iff_ne.mpr h]
    rw [hcongr]
    interval_cases c <;> rfl
  unfold State.wdCloses
  rw [hone, List.foldl_cons, List.foldl_nil, hh, wdClose_free]

/-! ### Control frames (R195 to R197) -/

theorem codesKept_endLpi (s : State) {m : Nat} (hm : m < 2 ^ 12) : CodesKept [.evrLost, .txLpiTime] s (s.endLpi m) := by
  unfold State.endLpi
  extract_lets s1
  have h1 : CodesKept [.evrLost, .txLpiTime] s s1 := codesKept_ite (codesKept_countN s _ _ (by decide) hm) (codesKept_refl _ s)
  split
  · exact h1
  · exact h1

/-- A control frame that leaves: what waits behind it, the counters, and the wire. -/
theorem ctrlOut_gives (s : State) {m : Nat} (hm : m < 2 ^ 12) (bytes : Bytes) (rest : List CtrlFrame) :
    ((s.ctrlOut m bytes rest).sch m).ctrl = rest ∧ CodesKept [.evrLost, .txLpiTime] s (s.ctrlOut m bytes rest) ∧
      Emits (.wire m (s.departAt m 0) bytes) s (s.ctrlOut m bytes rest) := by
  unfold State.ctrlOut
  extract_lets start
  have hlpi : Does 0xe225082 s (s.endLpi m) := does_endLpi (by decide) (does_refl 0xe225082 s)
  have hrest : Does 0x21000 ((s.endLpi m).emit (.wire m (s.timeAt start) bytes))
      ((((s.endLpi m).emit (.wire m (s.timeAt start) bytes)).wireUse m actOperator bytes.length).setSch m (fun x =>
        { x with ctrl := rest, free := start + bitsU ((8 + bytes.length + 12) * 8) (s.rate m) })) :=
    does_setSch (by decide) (does_wireUse (by decide) (does_refl 0x21000 _))
  have hctrl : ((((s.endLpi m).emit (.wire m (s.timeAt start) bytes)).wireUse m actOperator bytes.length).setSch m (fun x =>
        { x with ctrl := rest, free := start + bitsU ((8 + bytes.length + 12) * 8) (s.rate m) })).sch m =
      { (((s.endLpi m).emit (.wire m (s.timeAt start) bytes)).wireUse m actOperator bytes.length).sch m with
        ctrl := rest, free := start + bitsU ((8 + bytes.length + 12) * 8) (s.rate m) } := sch_setSch_same _ m _
  refine ⟨by rw [hctrl], ?_, ?_⟩
  · have hset : CodesKept [.evrLost, .txLpiTime] (((s.endLpi m).emit (.wire m (s.timeAt start) bytes)).wireUse m actOperator bytes.length)
        ((((s.endLpi m).emit (.wire m (s.timeAt start) bytes)).wireUse m actOperator bytes.length).setSch m (fun x =>
          { x with ctrl := rest, free := start + bitsU ((8 + bytes.length + 12) * 8) (s.rate m) })) :=
      codesKept_does (does_setSch (by decide) (does_refl 0x1000 _))
    have huse : CodesKept [.evrLost, .txLpiTime] ((s.endLpi m).emit (.wire m (s.timeAt start) bytes))
        (((s.endLpi m).emit (.wire m (s.timeAt start) bytes)).wireUse m actOperator bytes.length) := codesKept_of_count (count_uses _ _ _ _)
    exact codesKept_trans (codesKept_endLpi s hm) (codesKept_trans (codesKept_does (does_emit (by decide) (does_refl 0x8000000 _)))
      (codesKept_trans huse hset))
  · exact emits_before hlpi.out (emits_after ⟨_, rfl, List.mem_singleton_self _⟩ hrest.out)

/-- Each class of a vector is counted once. -/
theorem countClasses (ctr : Ctr) {m : Nat} (hm : m < 2 ^ 12) (he : ctr.code ≠ Ctr.evrLost.code) {l : List Nat} (hn : l.Nodup) (hl : ∀ c ∈ l, c < 8)
    {c : Nat} (hc : c < 8) (s : State) :
    tget (l.foldl (fun u c => u.countCls ctr c m) s).tally.count (tallyKey ctr.code c m) =
      if c ∈ l then (tget s.tally.count (tallyKey ctr.code c m) + 1) % 2 ^ 48 else tget s.tally.count (tallyKey ctr.code c m) := by
  induction l generalizing s with
  | nil => exact (if_neg List.not_mem_nil).symm
  | cons x r ih =>
    obtain ⟨hx, hr⟩ := List.nodup_cons.mp hn
    have hx8 := hl x List.mem_cons_self
    have hkey (e : Nat) (h8 : e < 8) := cls_key_code (code := ctr.code) h8 hm
    have hone := countN_counts s ctr x m 1 (by rw [hkey x hx8]; exact he)
    rw [List.foldl_cons, ih hr (fun d hd => hl d (List.mem_cons_of_mem x hd))]
    by_cases h : c = x
    · subst h
      rw [if_neg hx, if_pos List.mem_cons_self]
      exact hone.value
    · have hne : tallyKey ctr.code c m ≠ tallyKey ctr.code x m := by
        unfold tallyKey
        omega
      have hsame : tget (s.countCls ctr x m).tally.count (tallyKey ctr.code c m) = tget s.tally.count (tallyKey ctr.code c m) :=
        hone.others _ hne (by rw [hkey c hc]; exact he)
      rw [hsame]
      simp [h]

theorem sched_countN (s : State) (c : Ctr) (cls obj n : Nat) : (s.countN c cls obj n).sched = s.sched :=
  (flags_countN c cls obj n (flags_refl s)).keeps .sched (by decide)

theorem sch_congr {s t : State} (h : t.sched = s.sched) (m : Nat) : t.sch m = s.sch m :=
  congrArg (fun l => Tbl.get (fun _ => SchInst.init) l m) h

theorem sched_countClasses (ctr : Ctr) (m : Nat) (l : List Nat) (s : State) : (l.foldl (fun u c => u.countCls ctr c m) s).sched = s.sched := by
  induction l generalizing s with
  | nil => rfl
  | cons x r ih => exact (ih _).trans (sched_countN s ctr x m 1)

/-- A control frame that is queued on an instance that is Up. -/
theorem queueCtrl_gives {s : State} {m : Nat} (h : (s.mac m).link = .up) (x : CtrlFrame) :
    Keeps [.sched, .macs] s (s.queueCtrl m x) ∧ ((s.queueCtrl m x).sch m).ctrl = (s.sch m).ctrl ++ [x] := by
  have hwake (t : State) : ((t.wakeLink m).sch m).ctrl = (t.sch m).ctrl := by
    unfold State.wakeLink
    split
    · have hset := congrArg SchInst.ctrl (sch_setSch_same t m (fun y => { y with wakeReq := some t.time.elapsed }))
      exact hset
    · rfl
  refine ⟨keeps_of_partMask (does_queueCtrl (by decide) (does_refl _ s)), ?_⟩
  rw [State.queueCtrl, if_pos h]
  exact (hwake _).trans (congrArg SchInst.ctrl (sch_setSch_same s m _))

/-! ### The statement -/

/-- The pauses that have come in, by their cases. -/
theorem pauseRegister_cases {s : State} {m : Fin 16} (h : ∀ c < 8, s.wdClosed m c = false) :
    let due := (s.mac m).ctrlIn.filter (fun e => decide (e.1 ≤ s.time.elapsed))
    let rest := (s.mac m).ctrlIn.filter (fun e => decide (s.time.elapsed < e.1))
    (due = [] → exec (.pauseRegister m) s = .next s) ∧
    (due ≠ [] → (s.mac m).ignoring = true → Gives (.pauseRegister m) s (fun t => Counted .pauseIgnored 0 m due.length s t ∧
      (t.mac m).ctrlIn = rest ∧ (t.mac m).paused = (s.mac m).paused)) ∧
    (∀ e l, due = [(e, l)] → (s.mac m).ignoring = false → (l.map (fun p => p.1)).Nodup → Gives (.pauseRegister m) s (fun t =>
      (t.mac m).ctrlIn = rest ∧ (∀ p ∈ l, Tbl.find (t.mac m).paused p.1 =
        if p.2 = 0 then none else some (s.time.elapsed + bitsU (512 * p.2) (s.rate m))) ∧
      (∀ f p, (s.sch m).cur = some f → p ∈ l → p.1 = f.cls → 0 < p.2 → Counted .pauseHeld 0 m 1 s t))) := by
  intro due rest
  have hm : m.val < 2 ^ 12 := by omega
  have hgo : exec (.pauseRegister m) s =
      .next (if due = [] then s else (due.map (fun e => e.2)).foldl (State.pauseRegister m) (pausesTaken s m)) := exec_pauseRegister h
  have hd := did_pausesTaken s m
  have hmac := pausesTaken_mac s m
  refine ⟨fun hnil => by rw [hgo, if_pos hnil], fun hne hi => ?_, fun e l hone hi hn => ?_⟩
  · rw [if_neg hne] at hgo
    obtain ⟨x, r, hxr⟩ := List.exists_cons_of_ne_nil hne
    have hig : ((pausesTaken s m).mac m).ignoring = true := by rw [hmac]; exact hi
    obtain ⟨hmacs, hcount⟩ := pauses_ignored hm x.2 (r.map (fun e => e.2)) (pausesTaken s m) hig
    rw [hxr, List.map_cons] at hgo
    rw [hxr]
    refine ⟨_, hgo, ?_, ?_, ?_⟩
    · rw [List.length_map] at hcount
      exact counted_mid (l := []) (by decide) hm (codesKept_does hd) hcount (codesKept_refl _ _)
    · rw [mac_congr hmacs m, hmac]
    · rw [mac_congr hmacs m, hmac]
  · rw [hone, if_neg (List.cons_ne_nil _ _)] at hgo
    have hig : ((pausesTaken s m).mac m).ignoring = false := by rw [hmac]; exact hi
    obtain ⟨hctrl, hfind, hheld⟩ := pauseRegister_gives hm l hig hn
    have hcur : ((pausesTaken s m).sch m).cur = (s.sch m).cur := settle_cur s m
    rw [hmac] at hctrl
    refine ⟨_, hgo, hctrl, fun p hp => ?_, fun f p hf hp hc hq => ?_⟩
    · exact (hfind p hp).trans (pauseEnds_congr (hd.keeps .setup (by decide)) (hd.keeps .time (by decide)) m p.2)
    · exact counted_mid (l := []) (by decide) hm (codesKept_does hd) (hheld f p (hcur.trans hf) hp hc hq) (codesKept_refl _ _)

/-- A control frame that is no PFC frame. -/
def noPfc (x : CtrlFrame) : Bool := match x with | .pfc _ _ => false | _ => true

/-- Every PFC frame that waits has left in one. -/
def pfcSent (s : State) (m : Nat) (x : Nat × List Nat) (rest : List CtrlFrame) : State :=
  (s.vectorClasses m x.1).foldl (fun u c => u.countCls .pfcTx c m)
    (s.ctrlOut m (macFrame (s.macAddr m) 0x0101 (be 2 x.1 ++ (x.2.map (be 2)).flatten)) (rest.filter noPfc))

theorem pfcSent_gives (s : State) {m : Nat} (hm : m < 2 ^ 12) (x : Nat × List Nat) (rest : List CtrlFrame) :
    ((pfcSent s m x rest).sch m).ctrl = rest.filter noPfc ∧
      ∀ c ∈ s.vectorClasses m x.1, Counted .pfcTx c m 1 s (pfcSent s m x rest) := by
  obtain ⟨hctrl, hkept, -⟩ := ctrlOut_gives s hm (macFrame (s.macAddr m) 0x0101 (be 2 x.1 ++ (x.2.map (be 2)).flatten)) (rest.filter noPfc)
  unfold pfcSent
  generalize s.ctrlOut m _ (rest.filter noPfc) = u at hctrl hkept ⊢
  have hlt (c : Nat) (hc : c ∈ s.vectorClasses m x.1) : c < 8 := List.mem_range.mp (List.mem_of_mem_filter hc)
  have hnodup : (s.vectorClasses m x.1).Nodup := List.nodup_range.filter _
  refine ⟨(congrArg SchInst.ctrl (sch_congr (sched_countClasses .pfcTx m _ u) m)).trans hctrl, fun c hc => ?_⟩
  have hcount := countClasses .pfcTx hm (by decide) hnodup hlt (hlt c hc) u
  rw [if_pos hc] at hcount
  exact counted_mid (hlt c hc) hm hkept hcount (codesKept_refl _ _)

/-- A waiting control frame, by its kind. -/
theorem controlFrameSend_cases {s : State} {m : Fin 16} {rest : List CtrlFrame} (hl : (s.mac m).link = .up) (hc : (s.sch m).cur = none)
    (hn : s.netOn (m / 8) = true) (hi : s.idleEngine [m / 8] = false) :
    (∀ q, (s.sch m).ctrl = .pause q :: rest → Gives (.controlFrameSend m) s (fun t => (t.sch m).ctrl = rest ∧ Counted .pauseTx 0 m 1 s t ∧
      ∃ l, t.out = s.out ++ l ∧ Out.wire m (s.departAt m 0) (macFrame (s.macAddr m) 1 (be 2 q)) ∈ l)) ∧
    ((s.sch m).ctrl = .lldp :: rest → Gives (.controlFrameSend m) s (fun t => (t.sch m).ctrl = rest ∧ Counted .lldpTx 0 m 1 s t)) ∧
    (∀ v q, (s.sch m).ctrl = .pfc v q :: rest → Gives (.controlFrameSend m) s (fun t =>
      (∀ w r, .pfc w r ∉ (t.sch m).ctrl) ∧ (∀ r, .pause r ∈ rest → .pause r ∈ (t.sch m).ctrl) ∧
      (∀ c ∈ s.vectorClasses m (((s.sch m).ctrl.foldl pfcMerge (0, [])).1), Counted .pfcTx c m 1 s t))) := by
  have hm : m.val < 2 ^ 12 := by omega
  refine ⟨fun q hq => ?_, fun hq => ?_, fun v q hq => ?_⟩
  · have hgo : exec (.controlFrameSend m) s = .next ((s.ctrlOut m (macFrame (s.macAddr m) 1 (be 2 q)) rest).count .pauseTx m) := by
      refine congrArg Host.Outcome.next ((if_pos ⟨hl, hc, hn, hi⟩).trans ?_)
      rw [hq]
    obtain ⟨hctrl, hkept, hwire⟩ := ctrlOut_gives s hm (macFrame (s.macAddr m) 1 (be 2 q)) rest
    generalize s.ctrlOut m (macFrame (s.macAddr m) 1 (be 2 q)) rest = u at hgo hctrl hkept hwire
    exact ⟨_, hgo, (congrArg SchInst.ctrl (sch_congr (sched_countN u _ _ _ _) m)).trans hctrl,
      counted_mid (by decide) hm hkept (counted_countN u .pauseTx 1 (by decide) hm) (codesKept_refl _ _),
      emits_after hwire (out_of_flags (flags_count _ _ (flags_refl u)))⟩
  · have hgo : exec (.controlFrameSend m) s = .next ((s.ctrlOut m
        (lldpFrame (s.macAddr m) (((s.mac m).tw + 999) / 1000) (((s.mac m).twMin + 999) / 1000)) rest).count .lldpTx m) := by
      refine congrArg Host.Outcome.next ((if_pos ⟨hl, hc, hn, hi⟩).trans ?_)
      rw [hq]
    obtain ⟨hctrl, hkept, -⟩ := ctrlOut_gives s hm (lldpFrame (s.macAddr m) (((s.mac m).tw + 999) / 1000) (((s.mac m).twMin + 999) / 1000)) rest
    generalize s.ctrlOut m _ rest = u at hgo hctrl hkept
    exact ⟨_, hgo, (congrArg SchInst.ctrl (sch_congr (sched_countN u _ _ _ _) m)).trans hctrl,
      counted_mid (by decide) hm hkept (counted_countN u .lldpTx 1 (by decide) hm) (codesKept_refl _ _)⟩
  · have hgo : exec (.controlFrameSend m) s = .next (pfcSent s m ((CtrlFrame.pfc v q :: rest).foldl pfcMerge (0, [])) rest) := by
      refine congrArg Host.Outcome.next ((if_pos ⟨hl, hc, hn, hi⟩).trans ?_)
      rw [hq]
      rfl
    rw [hq]
    generalize (CtrlFrame.pfc v q :: rest).foldl pfcMerge (0, []) = x at hgo ⊢
    obtain ⟨hctrl, hcount⟩ := pfcSent_gives s hm x rest
    refine ⟨_, hgo, fun w r hmem => ?_, fun r hr => ?_, hcount⟩
    · rw [hctrl] at hmem
      exact Bool.false_ne_true (List.mem_filter.mp hmem).2
    · rw [hctrl]
      exact List.mem_filter.mpr ⟨hr, rfl⟩

/-- Settles O45: each command by its own rule. -/
theorem pausesHoldTheirClassesForTheirQuanta : Obligations.PausesHoldTheirClassesForTheirQuanta := by
  unfold Obligations.PausesHoldTheirClassesForTheirQuanta
  refine ⟨fun s m h => pauseRegister_cases h, fun s m c e he => ⟨fun hle => ?_, fun hlt => ?_⟩, fun s m c hcl => ⟨fun hh => ?_, fun hh ho => ?_⟩,
    fun s m hp hh => ?_, fun s m rest hl hc hn hi => controlFrameSend_cases hl hc hn hi, fun s m hl => ⟨fun c hon hx => ?_, fun hf hx => ?_, fun ha => ?_⟩⟩
  · have hgo : exec (.pauseEnd m c) s = .next ((s.settle m).unpause m c) := by
      refine congrArg Host.Outcome.next ?_
      rw [he]
      exact if_pos hle
    obtain ⟨hpaused, -, -, hwd⟩ := lpiless_parts (unpause_mac (s.settle m) m c)
    refine ⟨_, hgo, ?_, ?_, keeps_of_partMask (does_unpause (by decide) (does_settle (by decide) (does_refl _ s)))⟩
    · rw [hpaused]
      exact find_erase_same _ _
    · rw [hwd]
      exact find_erase_same _ _
  · refine congrArg Host.Outcome.next ?_
    rw [he]
    exact if_neg (by omega)
  · obtain ⟨hpaused, hcount, hrep, hign⟩ := wdCloses_held (show m.val < 2 ^ 12 by omega) c.isLt hcl hh
    exact ⟨_, congrArg Host.Outcome.next (if_pos hcl), hpaused, hcount, hrep, hign⟩
  · exact congrArg Host.Outcome.next ((if_pos hcl).trans (wdCloses_free c.isLt hcl hh ho))
  · exact ⟨_, congrArg Host.Outcome.next ((if_neg (by simp [hp])).trans (if_neg (by simp [hh]))), raise_raises _ _ _⟩
  · exact ⟨_, congrArg Host.Outcome.next (if_pos ⟨hon, hx⟩), queueCtrl_gives hl _⟩
  · exact ⟨_, congrArg Host.Outcome.next (if_pos ⟨hf, hx⟩), queueCtrl_gives hl _⟩
  · exact ⟨_, congrArg Host.Outcome.next (if_pos ha), queueCtrl_gives hl _⟩

end Sys2Proof.Proofs
end

section
/-! The engine pair: what failing an engine, fencing the sled, the start of a hand-over and the settling of the pair do to it. -/
namespace Sys2Proof.Proofs
open Sys2Proof Sys2Proof.Machine Sys2Proof.Laws
set_option Elab.async false -- one thread, within the memory of the check

/-! ### One engine of the pair -/

/-- The pair with one engine replaced. -/
def withEng (p : PairSt) (e : Eng) (g : EngSt) : PairSt := match e with | .a => { p with a := g } | .b => { p with b := g }

/-- An engine of the pair. -/
def engIn (p : PairSt) (e : Eng) : EngSt := match e with | .a => p.a | .b => p.b

theorem eng_eq (s : State) (e : Eng) : s.eng e = engIn s.pair e := rfl

@[simp] theorem engIn_withEng_same (p : PairSt) (e : Eng) (g : EngSt) : engIn (withEng p e g) e = g := by cases e <;> rfl

@[simp] theorem engIn_withEng_other (p : PairSt) (e : Eng) (g : EngSt) : engIn (withEng p e g) (engOther e) = engIn p (engOther e) := by
  cases e <;> rfl

@[simp] theorem withEng_twice (p : PairSt) (e : Eng) (g h : EngSt) : withEng (withEng p e g) e h = withEng p e h := by cases e <;> rfl

@[simp] theorem withEng_fields (p : PairSt) (e : Eng) (g : EngSt) :
    (withEng p e g).handover = p.handover ∧ (withEng p e g).verdict = p.verdict ∧ (withEng p e g).resync = p.resync ∧
    (withEng p e g).fenced = p.fenced ∧ (withEng p e g).warm = p.warm ∧ (withEng p e g).levels = p.levels ∧
    (withEng p e g).holdAt = p.holdAt ∧ (withEng p e g).locks = p.locks ∧ (withEng p e g).held = p.held ∧
    (withEng p e g).merge = p.merge ∧ (withEng p e g).reads = p.reads ∧ (withEng p e g).hold = p.hold ∧
    (withEng p e g).swapDue = p.swapDue ∧ (withEng p e g).ready = p.ready ∧ (withEng p e g).suspect = p.suspect ∧
    (withEng p e g).diverged = p.diverged ∧ (withEng p e g).relq = p.relq := by
  cases e <;> exact ⟨rfl, rfl, rfl, rfl, rfl, rfl, rfl, rfl, rfl, rfl, rfl, rfl, rfl, rfl, rfl, rfl, rfl⟩

theorem pair_setEng (s : State) (e : Eng) (f : EngSt → EngSt) : (s.setEng e f).pair = withEng s.pair e (f (s.eng e)) := by
  cases e <;> rfl

theorem pair_of_does {n : Nat} {s t : State} (h : Does n s t) (hn : n.testBit 18 = false := by decide) : t.pair = s.pair := h.keeps .pair hn

theorem pair_raise (s : State) (e : Ev) (b : Bytes) : (s.raise e b).pair = s.pair := (raise_parts s e b).2.2.2.2.2.2.2.2.2.2.2.2.2.2.2.1

theorem pair_announce (s : State) (k c : Nat) : (s.announce k c).pair = s.pair := pair_of_does (does_announce (by decide) (does_refl 0x1000000 s))

/-! ### An engine that fails (Table 10-1) -/

/-- An engine that has left service for its failure. -/
def OutOfService (cause : Nat) (g : EngSt) : Prop :=
  g.act = false ∧ g.cause = cause ∧ (g.state = .failed ∨ g.state = .requalifying ∨ g.state = .retired)

/-- The first thing that failing an engine does. -/
def failMarked (s : State) (e : Eng) (cause : Nat) : State :=
  (s.setEng e (fun g => { g with state := .failed, act := false, cause := cause, fails := s.failsHour e ++ [s.time.elapsed] })).raise
    .engineFailed (le 1 (engCode e) ++ le 1 cause)

theorem failEngine_eq (s : State) (e : Eng) (cause : Nat) : s.failEngine e cause =
    if s.pairCtrlAutoResync = 1 ∧ s.pair.fenced = false then
      if (s.failsHour e ++ [s.time.elapsed]).length < 3 then (failMarked s e cause).setEng e (fun g => { g with state := .requalifying })
      else (((failMarked s e cause).setEng e (fun g => { g with state := .retired })).raise .engineRetired (le 1 (engCode e))).announce 5 cause
    else failMarked s e cause := rfl

theorem pair_failEngine (s : State) (e : Eng) (cause : Nat) :
    ∃ g, (s.failEngine e cause).pair = withEng s.pair e g ∧ OutOfService cause g := by
  have hmark : (failMarked s e cause).pair = withEng s.pair e
      { s.eng e with state := .failed, act := false, cause := cause, fails := s.failsHour e ++ [s.time.elapsed] } := by
    rw [failMarked, pair_raise, pair_setEng]
  have hset (st : EngState) : ((failMarked s e cause).setEng e (fun g => { g with state := st })).pair = withEng s.pair e
      { s.eng e with state := st, act := false, cause := cause, fails := s.failsHour e ++ [s.time.elapsed] } := by
    rw [pair_setEng, eng_eq, hmark, withEng_twice, engIn_withEng_same]
  rw [failEngine_eq]
  split
  · split
    · exact ⟨_, hset .requalifying, rfl, rfl, .inr (.inl rfl)⟩
    · rw [pair_announce, pair_raise]
      exact ⟨_, hset .retired, rfl, rfl, .inr (.inr rfl)⟩
  · exact ⟨_, hmark, rfl, rfl, .inl rfl⟩

theorem did_failEngine (s : State) (e : Eng) (cause : Nat) : Does 0xf2e0082 s (s.failEngine e cause) := does_failEngine (by decide) (does_refl _ s)

theorem failMarked_after (s : State) (e : Eng) (cause : Nat) :
    CodesKept [.evrLost] (failMarked s e cause) (s.failEngine e cause) ∧ (failMarked s e cause).out <+: (s.failEngine e cause).out := by
  rw [failEngine_eq]
  split
  · split
    · exact ⟨codesKept_does (does_setEng (by decide) (does_refl 0xc0000 _)), (does_setEng (by decide) (does_refl 0xc0000 _)).out⟩
    · have hset : Does 0xc0000 (failMarked s e cause) ((failMarked s e cause).setEng e (fun g => { g with state := .retired })) :=
        does_setEng (by decide) (does_refl _ _)
      generalize (failMarked s e cause).setEng e (fun g => { g with state := .retired }) = u at hset ⊢
      have hann (v : State) : Does 0x1000000 v (v.announce 5 cause) := does_announce (by decide) (does_refl _ v)
      exact ⟨codesKept_trans (codesKept_does hset) (codesKept_trans (codesKept_raise u _ _) (codesKept_does (hann _))),
        hset.out.trans ((out_raise u _ _).trans (hann _).out)⟩
  · exact ⟨codesKept_refl _ _, List.prefix_refl _⟩

theorem reports_failEngine (s : State) (e : Eng) (cause : Nat) :
    Reports .engineFailed (le 1 (engCode e) ++ le 1 cause) s (s.failEngine e cause) :=
  reports_after (reports_before (does_setEng (by decide) (does_refl 0xc0000 s)).out (reports_raise _ _ _)) (failMarked_after s e cause).2

theorem codesKept_failEngine (s : State) (e : Eng) (cause : Nat) : CodesKept [.evrLost] s (s.failEngine e cause) :=
  codesKept_trans (codesKept_trans (codesKept_does (does_setEng (by decide) (does_refl 0xc0000 s))) (codesKept_raise _ _ _))
    (failMarked_after s e cause).1

/-! ### The start of a hand-over (10.3) -/

theorem pair_deferCommit (s : State) : s.deferCommit.pair = s.pair := pair_of_does (does_deferCommit (by decide) (does_refl 0xe220083 s))

theorem codesKept_deferCommit (s : State) : CodesKept [.evrLost] s s.deferCommit := by
  unfold State.deferCommit
  split
  · split
    · exact codesKept_refl _ s
    · exact codesKept_trans (t := s.onSetup _) (fun _ _ => rfl) (codesKept_raise _ _ _)
  · exact codesKept_refl _ s

theorem pair_warmStart (s : State) : s.warmStart.pair = s.pair := by
  unfold State.warmStart
  exact (pair_of_does (does_tallyBack (by decide) (does_refl 0xe220082 _))).trans rfl

theorem pair_cut (s : State) : (s.cutFrames.cutTlps).pair = s.pair :=
  pair_of_does (does_cutTlps (by decide) (does_cutFrames (by decide) (does_refl 0x18001000 s)))

/-- What the start of a hand-over does before an ACT line falls: the mirrors stand, the wire is cut, or the levels are held. -/
def handoverFirst (s : State) (swap : Bool) : State :=
  if s.pair.warm then (if swap then s.warmStart else (s.warmStart.cutFrames.cutTlps).holdWords) else s.holdLevels

/-- The record of a hand-over that begins. -/
def handoverOf (s : State) (out : Eng) (cause : Nat) (swap fallen : Bool) : Handover :=
  { warm := s.pair.warm, swap := swap, out := out, cause := cause, x := s.time.jcycle, t0 := s.time.now, fallen := fallen,
    lowAt := s.time.jcycle + 1, drained := false }

theorem startHandover_eq (s : State) (out : Eng) (cause : Nat) (swap : Bool) : s.startHandover out cause swap =
    if s.pair.warm && swap && s.onWire then
      ((handoverFirst s swap).onPair (fun p => { p with handover := some (handoverOf s out cause swap false), ready := false })).deferCommit
    else (if swap then ((handoverFirst s swap).lowerAct (handoverOf s out cause swap false)).setEng out (fun g => { g with state := .standby })
      else ((handoverFirst s swap).lowerAct (handoverOf s out cause swap false)).failEngine out cause).deferCommit := rfl

theorem eng_holdWords (s : State) (e : Eng) : s.holdWords.eng e = s.eng e := by cases e <;> rfl

theorem eng_holdLevels (s : State) (e : Eng) : s.holdLevels.eng e = s.eng e := by cases e <;> rfl

/-- A hand-over's first steps leave the clock and the engines. -/
theorem handoverFirst_keeps (s : State) (swap : Bool) : (handoverFirst s swap).time = s.time ∧ (∀ e, (handoverFirst s swap).eng e = s.eng e) ∧
    s.out <+: (handoverFirst s swap).out := by
  unfold handoverFirst
  split
  · split
    · have hd : Does 0xe260382 s s.warmStart := does_warmStart (by decide) (does_refl _ s)
      exact ⟨hd.keeps .time (by decide), fun e => by rw [eng_eq, pair_warmStart, eng_eq], hd.out⟩
    · have hd : Does 0x1e261382 s (s.warmStart.cutFrames.cutTlps).holdWords :=
        does_holdWords (by decide) (does_cutTlps (by decide) (does_cutFrames (by decide) (does_warmStart (by decide) (does_refl _ s))))
      refine ⟨hd.keeps .time (by decide), fun e => ?_, hd.out⟩
      rw [eng_holdWords, eng_eq, pair_cut, pair_warmStart, eng_eq]
  · have hd : Does 0x40000 s s.holdLevels := does_holdLevels (by decide) (does_refl _ s)
    exact ⟨hd.keeps .time (by decide), eng_holdLevels s, hd.out⟩

/-- The pair once the outgoing ACT line has fallen. -/
theorem pair_lowerAct (s : State) (h : Handover) : (s.lowerAct h).pair =
    { withEng s.pair h.out { s.eng h.out with act := false } with
      handover := some { h with fallen := true, lowAt := s.time.jcycle + 1 }, ready := false } := by
  have hset : (s.setEng h.out (fun g => { g with act := false })).pair = _ := pair_setEng s h.out _
  unfold State.lowerAct
  show (fun p : PairSt => { p with handover := some { h with fallen := true, lowAt := s.time.jcycle + 1 }, ready := false })
    (s.setEng h.out (fun g => { g with act := false })).pair = _
  rw [hset]

theorem engIn_handover (p : PairSt) (h : Option Handover) (r : Bool) (e : Eng) : engIn { p with handover := h, ready := r } e = engIn p e := by
  cases e <;> rfl

/-- A hand-over begins as 10.3 says, whatever its cause. -/
theorem startHandover_handsOver (s : State) (e : Eng) (cause : Nat) (swap : Bool) : HandsOver e cause swap s (s.startHandover e cause swap) := by
  obtain ⟨htime, heng, hout⟩ := handoverFirst_keeps s swap
  rw [startHandover_eq]
  unfold HandsOver
  by_cases hw : (s.pair.warm && swap && s.onWire) = true
  · rw [if_pos hw, if_pos hw, eng_eq, pair_deferCommit, hw]
    exact ⟨rfl, (engIn_handover _ _ _ e).trans (heng e)⟩
  · rw [if_neg hw, if_neg hw, eng_eq, pair_deferCommit, eq_false_of_ne_true hw]
    generalize handoverFirst s swap = u at htime heng hout
    have hlow := pair_lowerAct u (handoverOf s e cause swap false)
    have hhand : (u.lowerAct (handoverOf s e cause swap false)).pair.handover = some (handoverOf s e cause swap true) := by
      rw [hlow, htime]
      rfl
    have hact : engIn (u.lowerAct (handoverOf s e cause swap false)).pair e = { s.eng e with act := false } := by
      rw [hlow, engIn_handover]
      exact (engIn_withEng_same _ e _).trans (by rw [heng]; rfl)
    have hlowout : s.out <+: (u.lowerAct (handoverOf s e cause swap false)).out :=
      hout.trans (does_lowerAct (by decide) (does_refl 0xc0000 u)).out
    generalize u.lowerAct (handoverOf s e cause swap false) = v at hhand hact hlowout
    cases swap
    case true =>
      rw [if_pos rfl, pair_setEng, (withEng_fields _ _ _).1, hhand, engIn_withEng_same, eng_eq, hact]
      exact ⟨rfl, rfl, EngState.noConfusion, fun _ => rfl, fun h => absurd h (by decide)⟩
    case false =>
      obtain ⟨g, hg, hgact, hgcause, hgstate⟩ := pair_failEngine v e cause
      have hrep := reports_after (reports_before hlowout (reports_failEngine v e cause))
        (does_deferCommit (by decide) (does_refl 0xe220083 (v.failEngine e cause))).out
      rw [if_neg (by decide), hg, (withEng_fields _ _ _).1, hhand, engIn_withEng_same]
      refine ⟨rfl, hgact, ?_, fun h => absurd h (by decide), fun _ => ⟨hgcause, hrep⟩⟩
      rcases hgstate with h | h | h
      · rw [h]; decide
      · rw [h]; decide
      · rw [h]; decide

/-- In lockstep a hand-over moves no counter but EVR_LOST's. -/
theorem codesKept_startHandover {s : State} (h : s.pair.warm = false) (e : Eng) (cause : Nat) (swap : Bool) :
    CodesKept [.evrLost] s (s.startHandover e cause swap) := by
  have hfirst : handoverFirst s swap = s.holdLevels := if_neg (by simp [h])
  rw [startHandover_eq, if_neg (by simp [h]), hfirst]
  have hlow : CodesKept [.evrLost] s (s.holdLevels.lowerAct (handoverOf s e cause swap false)) :=
    codesKept_does (does_lowerAct (by decide) (does_holdLevels (by decide) (does_refl 0xc0000 s)))
  refine codesKept_trans (t := if swap then (s.holdLevels.lowerAct (handoverOf s e cause swap false)).setEng e (fun g => { g with state := .standby })
    else (s.holdLevels.lowerAct (handoverOf s e cause swap false)).failEngine e cause) ?_ (codesKept_deferCommit _)
  split
  · exact codesKept_trans hlow (codesKept_does (does_setEng (by decide) (does_refl 0xc0000 _)))
  · exact codesKept_trans hlow (codesKept_failEngine _ e cause)

/-- A hand-over in progress keeps the pair from settling. -/
theorem pairSettled_transition {s : State} (h : s.transition = true) : s.pairSettled = s := if_pos h

theorem transition_handover {s : State} {h : Handover} (k : s.pair.handover = some h) : s.transition = true := by
  unfold State.transition
  rw [k]
  rfl

/-! ### Nothing waits for the pair to settle (R19, R239, R242, R247, R300) -/

theorem onPair_id {s : State} {f : PairSt → PairSt} (h : f s.pair = s.pair) : s.onPair f = s := by
  unfold State.onPair
  rw [h]

/-- Nothing is held for the engines. -/
def NoneHeld (p : PairSt) : Prop := p.held = [] ∧ p.merge = [] ∧ p.reads = [] ∧ p.hold = []

/-- The hold buffer is closed. -/
def unheld (s : State) : State := s.onPair (fun p => { p with holdAt := none })

theorem deliverHeld_none {s : State} (h : s.pair.held = [] ∧ s.pair.merge = [] ∧ s.pair.reads = []) : s.deliverHeld = s := by
  obtain ⟨hheld, hmerge, hreads⟩ := h
  have hclear : s.onPair (fun p => { p with held := [], merge := [] }) = s := by
    refine onPair_id ?_
    cases hp : s.pair
    rw [hp] at hheld hmerge
    rw [PairSt.mk.injEq]
    simp_all
  have hanswer : s.answerReads = s := by
    have hread : s.onPair (fun p => { p with reads := [] }) = s := onPair_id (by rw [← hreads])
    unfold State.answerReads
    rw [hread, hreads]
    rfl
  unfold State.deliverHeld
  rw [hclear, hheld, hmerge, List.append_nil, List.foldl_nil]
  dsimp only
  rw [hanswer]
  exact ite_self _

theorem deliverFrames_none {s : State} (h : s.pair.hold = []) : s.deliverFrames none = unheld s := by
  have hempty : s.onPair (fun p => { p with hold := [], holdAt := none }) = unheld s := by
    unfold unheld State.onPair
    rw [← h]
  unfold State.deliverFrames
  split
  case h_1 hat => exact (onPair_id (by rw [← hat])).symm
  case h_2 t0 hat =>
    dsimp only
    rw [h, List.foldl_nil, hempty, if_neg (fun hh => Bool.false_ne_true hh.1)]

/-- Delivering what was held where nothing was closes the hold buffer, unless it still fills. -/
theorem released_none {s : State} (h : NoneHeld s.pair) : s.released = if s.holding then s else unheld s := by
  obtain ⟨hheld, hmerge, hreads, hhold⟩ := h
  unfold State.released
  rw [deliverFrames_none hhold, deliverHeld_none (s := unheld s) ⟨hheld, hmerge, hreads⟩]

/-- The pair settles where nothing waits for it: the hold buffer is closed, and a deferred COMMIT is released. -/
theorem pairSettled_settled {s : State} (h : Settled s) (ht : s.transition = false) : s.pairSettled = s.released.releaseCommit := by
  obtain ⟨hheld, hmerge, hreads, hhold, hswap, hcmd⟩ := h
  have hrel := released_none (s := s) ⟨hheld, hmerge, hreads, hhold⟩
  have hpower : s.released.releaseCommit.power = s.power := by
    have hd : Does 0x40001 s s.released.releaseCommit := by
      rw [hrel]
      refine does_releaseCommit (by decide) (does_ite (does_refl _ s) (does_onPair (by decide) rfl (does_refl _ s)))
    exact hd.keeps .power (by decide)
  have hdue : s.released.releaseCommit.pair.swapDue = false := by
    have hpair : s.released.releaseCommit.pair = s.released.pair := pair_of_does (does_releaseCommit (by decide) (does_refl 0x1 _))
    rw [hpair, hrel]
    split
    · exact hswap
    · exact hswap
  have hresume : s.released.releaseCommit.resumeEntry = s.released.releaseCommit := by
    unfold State.resumeEntry
    rw [hpower, hcmd]
  unfold State.pairSettled
  rw [if_neg (by simp [ht]), hresume, State.dueSwap, if_neg (by simp [hdue])]

/-! ### Fenced (R252) -/

theorem pair_freeLevels (s : State) : s.freeLevels.pair = { s.pair with levels := none } := by
  have hsend (l : List (Nat × Nat)) (u : State) : (l.foldl (fun t e => t.msixSend e.1 e.2) u).pair = u.pair :=
    pair_of_does (does_foldl (fun x a hx => does_msixSend (M := 0x8000000) (by decide) hx) (does_refl _ u))
  unfold State.freeLevels
  exact (hsend _ _).trans rfl

/-- The pair of a sled that enters Fenced. -/
def fencedPair (p : PairSt) (cause : Nat) : PairSt :=
  { p.emptied with fenced := true, fencedWhy := cause, handover := none, verdict := false, resync := none, ready := false,
                   a := { p.a with act := false }, b := { p.b with act := false }, levels := none }

/-- The sled as it is fenced, before the alert. -/
def fencedFirst (s : State) (cause : Nat) : State :=
  ((s.onPair (fun p => { p.emptied with
      fenced := true, fencedWhy := cause, handover := none, verdict := false, resync := none, ready := false,
      a := { p.a with act := false }, b := { p.b with act := false } })).freeLevels).cutFrames.allLinksLost

theorem fence_eq {s : State} (h : s.pair.fenced = false) (cause : Nat) : s.fence cause =
    (((fencedFirst s cause).onEvents (fun v => { v with alert := true })).raise .fenced (le 1 cause)).announce 4 cause :=
  if_neg (by simp [h])

theorem pair_fencedFirst (s : State) (cause : Nat) : (fencedFirst s cause).pair = fencedPair s.pair cause := by
  have hlast (u : State) : (u.cutFrames.allLinksLost).pair = u.pair :=
    pair_of_does (does_allLinksLost (by decide) (does_cutFrames (by decide) (does_refl 0xe227fb2 u)))
  rw [fencedFirst, hlast, pair_freeLevels]
  rfl

/-- The alert, the event and the announcement of a sled that is Fenced. -/
theorem fencedLast_gives (u : State) (cause : Nat) :
    let t := ((u.onEvents (fun v => { v with alert := true })).raise .fenced (le 1 cause)).announce 4 cause
    t.pair = u.pair ∧ t.events.alert = true ∧ Reports .fenced (le 1 cause) u t := by
  intro t
  have hann (v : State) : Does 0x1000000 v (v.announce 4 cause) := does_announce (by decide) (does_refl _ v)
  have halert : ((u.onEvents (fun v => { v with alert := true })).raise .fenced (le 1 cause)).events.alert = true :=
    (flags_raise _ _ (flags_refl _)).alert rfl
  have hrep : Reports .fenced (le 1 cause) u ((u.onEvents (fun v => { v with alert := true })).raise .fenced (le 1 cause)) :=
    reports_before (List.prefix_refl u.out) (reports_raise _ _ _)
  have hpair : ((u.onEvents (fun v => { v with alert := true })).raise .fenced (le 1 cause)).pair = u.pair := pair_raise _ _ _
  exact ⟨(pair_announce _ _ _).trans hpair, (congrArg EventSt.alert ((hann _).keeps .events (by decide))).trans halert,
    reports_after hrep (hann _).out⟩

theorem pair_fence {s : State} (h : s.pair.fenced = false) (cause : Nat) : (s.fence cause).pair = fencedPair s.pair cause := by
  rw [fence_eq h, (fencedLast_gives _ cause).1, pair_fencedFirst]

theorem did_fence (s : State) (cause : Nat) : Does 0xf2e7fb2 s (s.fence cause) := does_fence (by decide) (does_refl _ s)

/-- Fencing the sled is what Fenced says, and leaves nothing held. -/
theorem fence_fencedBy {s : State} (h : s.pair.fenced = false) (cause : Nat) : FencedBy cause s (s.fence cause) ∧
    NoneHeld (s.fence cause).pair ∧ (s.fence cause).pair.resync = none := by
  have hpair := pair_fence h cause
  have hfirst : Does 0xf2e7fb2 s (fencedFirst s cause) := by
    unfold fencedFirst
    exact does_allLinksLost (by decide) (does_cutFrames (by decide) (does_freeLevels (by decide)
      (does_onPairActs (by decide) (does_refl _ s))))
  obtain ⟨-, halert, hrep⟩ := fencedLast_gives (fencedFirst s cause) cause
  rw [← fence_eq h] at halert hrep
  unfold FencedBy NoneHeld
  rw [hpair]
  exact ⟨⟨rfl, rfl, rfl, rfl, rfl, rfl, halert, reports_before hfirst.out hrep⟩, ⟨rfl, rfl, rfl, rfl⟩, rfl⟩

/-- A fenced sled settles as it is. -/
theorem fencedBy_settled {s u : State} {cause : Nat} (h : FencedBy cause s u) (hn : NoneHeld u.pair) (hr : u.pair.resync = none) :
    FencedBy cause s u.pairSettled ∧ Does 0xf660083 u u.pairSettled := by
  obtain ⟨hf, hwhy, ha, hb, hhand, hverd, halert, hrep⟩ := h
  have htrans : u.transition = false := by simp [State.transition, hhand, hverd, hr]
  have hhold : u.holding = false := by simp [State.holding, hhand, hverd, hr]
  have hrel : u.released = unheld u := (released_none hn).trans (if_neg (by simp [hhold]))
  have hcommit : Does 0x1 (unheld u) (unheld u).releaseCommit := does_releaseCommit (by decide) (does_refl _ _)
  have hfenced : (unheld u).releaseCommit.pair.fenced = true := (congrArg PairSt.fenced (pair_of_does hcommit)).trans hf
  have hresume : Does 0xf620082 (unheld u).releaseCommit (unheld u).releaseCommit.resumeEntry ∧
      ((unheld u).releaseCommit.events.alert = true → (unheld u).releaseCommit.resumeEntry.events.alert = true) := by
    generalize (unheld u).releaseCommit = v at hfenced
    unfold State.resumeEntry
    split
    · split
      · exact ⟨does_refl _ v, id⟩
      · have hgroup (w : State) : Does 0x1000000 w w.groupRefused := does_groupRefused (by decide) (does_refl _ w)
        refine ⟨does_groupRefused (by decide) (does_entryRefused (by decide) (does_onPower (by decide) (does_refl _ v))), fun halert => ?_⟩
        rw [(hgroup _).keeps .events (by decide)]
        exact (flags_raise _ _ (flags_refl _)).alert halert
    · exact ⟨does_refl _ v, id⟩
  obtain ⟨hdid, hstays⟩ := hresume
  have hpair : (unheld u).releaseCommit.resumeEntry.pair = (unheld u).pair := (pair_of_does hdid).trans (pair_of_does hcommit)
  have hsettle : u.pairSettled = (unheld u).releaseCommit.resumeEntry := by
    unfold State.pairSettled
    rw [if_neg (by simp [htrans]), hrel, State.dueSwap, if_neg]
    rintro ⟨-, hpaired, -⟩
    rw [State.paired, hpair] at hpaired
    simp [unheld, State.onPair, hf] at hpaired
  have hopen : Does 0xf660083 u (unheld u) := does_onPair (by decide) rfl (does_refl _ u)
  rw [hsettle]
  refine ⟨?_, does_trans hopen (does_trans (does_mono hcommit (by decide)) (does_mono hdid (by decide)))⟩
  unfold FencedBy
  rw [hpair]
  have hevents : (unheld u).releaseCommit.events = u.events := hcommit.keeps .events (by decide)
  exact ⟨hf, hwhy, ha, hb, hhand, hverd, hstays (by rw [hevents]; exact halert),
    reports_after hrep ((List.prefix_refl _ : u.out <+: (unheld u).out).trans (hcommit.out.trans hdid.out))⟩

/-! ### A fault of the engine that acts (Table 10-1) -/

/-- The divergence that a fault explains (10.4). -/
def explained (s : State) : State := s.onPair (fun p => { p with diverged := none })

theorem eng_explained (s : State) (e : Eng) : (explained s).eng e = s.eng e := by cases e <;> rfl

/-- A fault that nothing stands in the way of. -/
theorem engineFault_alone {s : State} (e : Eng) (cause : Nat) (hf : s.pair.fenced = false) (hv : s.pair.verdict = false)
    (hd : s.divergedLate = false) (hh : s.pair.handover = none) (hi : s.isolated = false) :
    s.engineFault e cause = (explained s).faultAlone e cause := by
  have hnone : (explained s).pair.handover = none := hh
  have hlate : ¬ (s.pair.verdict = true ∨ s.divergedLate = true) := by simp [hv, hd]
  unfold State.engineFault
  rw [if_neg (by simp [hf]), if_neg hlate, if_neg (by simp [hi])]
  dsimp only
  split
  case h_1 h heq => exact absurd (hnone.symm.trans heq) (by simp)
  case h_2 => rfl

theorem faultAlone_active {s : State} {e : Eng} (cause : Nat) (ha : (s.eng e).state = .active) : s.faultAlone e cause =
    if (s.eng (engOther e)).state = .standby then s.startHandover e cause false else (s.failEngine e cause).fence cause := by
  unfold State.faultAlone
  rw [ha]

theorem engineFault_acting {s : State} {e : Eng} (h : Acting e s) (cause : Nat) :
    s.engineFault e cause = (explained s).startHandover e cause false := by
  obtain ⟨ha, hs, -, hf, hv, hd, hh, hi⟩ := h
  rw [engineFault_alone e cause hf hv hd hh hi, faultAlone_active cause (by rw [eng_explained]; exact ha),
    if_pos (by rw [eng_explained]; exact hs)]

/-- A fault's hand-over told from the state before what the command did first. -/
theorem handsOver_from {e : Eng} {cause : Nat} {s u t : State} (hw : u.pair.warm = s.pair.warm) (ht : u.time = s.time) (ho : s.out <+: u.out)
    (h : HandsOver e cause false u t) : HandsOver e cause false s t := by
  unfold HandsOver at h ⊢
  simp only [Bool.and_false, Bool.false_and, Bool.not_false, Bool.false_eq_true, if_false] at h ⊢
  obtain ⟨hhand, hact, hst, hsw, hfail⟩ := h
  rw [hw, ht] at hhand
  exact ⟨hhand, hact, hst, hsw, fun hs => ⟨(hfail hs).1, reports_before ho (hfail hs).2⟩⟩

/-- The acting engine's fault hands over, and the pair has yet to settle. -/
theorem fault_handsOver {s u : State} {e : Eng} (h : Acting e u) (cause : Nat) (hw : u.pair.warm = s.pair.warm) (ht : u.time = s.time)
    (ho : s.out <+: u.out) : HandsOver e cause false s (u.engineFault e cause) ∧ (u.engineFault e cause).pairSettled = u.engineFault e cause ∧
      (u.pair.warm = false → CodesKept [.evrLost] u (u.engineFault e cause)) := by
  rw [engineFault_acting h]
  have hover := startHandover_handsOver (explained u) e cause false
  refine ⟨handsOver_from (u := explained u) hw ht ho hover, pairSettled_transition (transition_handover hover.1), fun hlock => ?_⟩
  exact codesKept_trans (t := explained u) (fun _ _ => rfl) (codesKept_startHandover (s := explained u) hlock e cause false)

theorem acting_congr {s u : State} {e : Eng} (h : Acting e s) (hp : u.pair = s.pair) (ht : u.time = s.time) (hw : u.power = s.power) :
    Acting e u := by
  unfold Acting State.active State.divergedLate State.isolated at *
  simp only [eng_eq] at *
  rw [hp, ht, hw]
  exact h

end Sys2Proof.Proofs
end

section
/-! What a Lookout reset does: the end of its hold, the warning's delivery, the two restarts and the evidence; and O53. -/
namespace Sys2Proof.Proofs
open Sys2Proof Sys2Proof.Machine Sys2Proof.Laws
set_option Elab.async false -- one thread, within the memory of the check

/-! ### A management restart begins (R271) -/

/-- One function as a management restart begins. -/
def mgmtOne (t : State) (f : Nat) : State :=
  (if (t.fn f).state = .checking then
      (t.setFn f (fun q => { q with state := .idle })).onHost (fun h =>
        { h with reads := h.reads.map (fun r => if r.fn = f ∧ r.kind = .enrol then { r with void := true } else r) })
    else t).setFn f (fun q => { q with wait := match q.wait with | some (.destroy k l) => some (.destroy k l) | _ => none })

theorem mgmtBegin_eq (s : State) : s.mgmtBegin =
    (((List.range 68).foldl mgmtOne s).onHost (fun h =>
      { h with msgs := h.msgs.filter (fun m => !m.kept), units := h.units.filter (fun e => !e.2.msg.kept),
               asks := h.asks.filter (fun a => decide (a.kind ≠ .enrol)) })).onLookout (fun l => { l with restart := true }) := by
  unfold State.mgmtBegin mgmtOne
  rfl

theorem mgmtOne_state (t : State) (f k : Nat) :
    ((mgmtOne t f).fn k).state = if k = f ∧ (t.fn k).state = .checking then .idle else (t.fn k).state := by
  unfold mgmtOne
  by_cases hk : k = f
  · rw [hk, fn_setFn_same]
    by_cases hc : (t.fn f).state = .checking
    · rw [if_pos hc, if_pos (And.intro rfl hc)]
      exact congrArg FnSt.state (fn_setFn_same t f (fun q => { q with state := .idle }))
    · rw [if_neg hc, if_neg (fun h : f = f ∧ (t.fn f).state = .checking => hc h.2)]
  · rw [fn_setFn_other _ _ hk, if_neg (fun h : k = f ∧ (t.fn k).state = .checking => hk h.1)]
    by_cases hc : (t.fn f).state = .checking
    · rw [if_pos hc]
      exact congrArg FnSt.state (fn_setFn_other t (fun q => { q with state := .idle }) hk)
    · rw [if_neg hc]

theorem mgmtOne_msgs (t : State) (f : Nat) : (mgmtOne t f).host.msgs = t.host.msgs := by
  unfold mgmtOne
  split
  · rfl
  · rfl

theorem mgmtOnes_idle (l : List Nat) (s : State) {k : Nat} (h : (s.fn k).state = .idle ∨ (k ∈ l ∧ (s.fn k).state = .checking)) :
    ((l.foldl mgmtOne s).fn k).state = .idle := by
  induction l generalizing s with
  | nil => exact h.resolve_right (fun h => List.not_mem_nil h.1)
  | cons x r ih =>
    refine ih _ ?_
    rw [mgmtOne_state]
    rcases h with h | ⟨hk, hc⟩
    · exact .inl (by rw [h]; exact if_neg (fun hh => FnState.noConfusion hh.2))
    · by_cases hx : k = x
      · exact .inl (if_pos ⟨hx, hc⟩)
      · exact .inr ⟨(List.mem_cons.mp hk).resolve_left hx, (if_neg (fun hh => hx hh.1)).trans hc⟩

theorem did_mgmtOne (t : State) (f : Nat) : Does 0x880 t (mgmtOne t f) := by
  unfold mgmtOne
  exact does_setFn (by decide) (does_ite (does_onHost (by decide) (does_setFn (by decide) (does_refl _ t))) (does_refl _ t))

theorem did_mgmtOnes (l : List Nat) (s : State) : Does 0x880 s (l.foldl mgmtOne s) :=
  does_foldl (fun x f hx => does_trans hx (did_mgmtOne x f)) (does_refl _ s)

theorem mgmtOnes_msgs (l : List Nat) (s : State) : (l.foldl mgmtOne s).host.msgs = s.host.msgs := by
  induction l generalizing s with
  | nil => rfl
  | cons x r ih => exact (ih _).trans (mgmtOne_msgs s x)

/-! ### A management restart ends (R271) -/

/-- A mailbox whose request in progress is answered ABORTED. -/
def aborted (f : Nat) (q : FnSt) : FnSt := if q.busy then replied q f 0x0A 0 else q

theorem fnTo_mgmtAbort (s : State) (f : Nat) : FnTo f (aborted f (s.fn f)) s (s.mgmtAbort f) := by
  unfold State.mgmtAbort aborted
  extract_lets q s1
  have h1 : Still s s1 := by
    show Still s (match (s.fn f).wait with
      | some (.destroy kind loc) =>
        (s.removeRing kind (s.ringNumber f kind loc)).raise .ringDestroyed (ringPayload f kind (s.ringNumber f kind loc))
      | _ => s)
    split
    · exact still_trans (still_removeRing s _ _) (still_raise _ _ _)
    · exact still_refl s
  have hreply (u : State) (hu : Still s u) : FnTo f (replied (s.fn f) f 0x0A 0) s (u.mbxReply f 0x0A 0) := by
    refine fnTo_congr (still_fnTo hu (fnTo_mbxReply u f 0x0A 0)) ?_
    obtain ⟨x, hx⟩ := sans_inj (hu.fns f)
    rw [hx]
    rfl
  split
  · split
    · exact hreply _ (still_trans h1 (still_raise s1 _ _))
    · exact hreply s1 h1
  · exact fnTo_of_still h1 f

theorem aborted_congr (f : Nat) (q r : FnSt) (h : q.sans = r.sans) : (aborted f q).sans = (aborted f r).sans := by
  obtain ⟨x, rfl⟩ := sans_inj h
  unfold aborted
  dsimp only
  split <;> rfl

theorem mgmtAborts (s : State) : FnsTo (List.range 68) aborted s ((List.range 68).foldl State.mgmtAbort s) :=
  fnsTo_foldl (I := fun _ => True) (fun u _ f => ⟨trivial, fnTo_mgmtAbort u f⟩) aborted_congr List.nodup_range trivial

theorem chan_congr {s t : State} (h : t.lookout = s.lookout) (c : Nat) : t.chan c = s.chan c :=
  congrArg (fun l : LookoutSt => Tbl.get LoChan.init l.chans c) h

theorem loStart_same (s : State) (ch : Nat) : ((s.loStart ch).chan ch).state = .counting :=
  congrArg LoChan.state (chan_setChan_same s ch _)

/-- The last steps of a management restart. -/
def mgmtEnded (s : State) : State := ((s.loStart 0).loStart 1).raise .mgmtRestart []

theorem mgmtEnded_gives (s : State) : (mgmtEnded s).lookout.restart = s.lookout.restart ∧ ((mgmtEnded s).chan 0).state = .counting ∧
    ((mgmtEnded s).chan 1).state = .counting ∧ Reports .mgmtRestart [] s (mgmtEnded s) ∧ ∀ f, ((mgmtEnded s).fn f).sans = (s.fn f).sans := by
  have hflags : Flags ((s.loStart 0).loStart 1) (mgmtEnded s) := (raise_raises _ _ _).toFlags
  have hlook := hflags.keeps .lookout (by decide)
  have hlook : (mgmtEnded s).lookout = ((s.loStart 0).loStart 1).lookout := hlook
  refine ⟨(congrArg LookoutSt.restart hlook).trans rfl, ?_, ?_, reports_before (List.prefix_refl s.out) (reports_raise _ _ _), hflags.fns⟩
  · rw [chan_congr hlook]
    exact (congrArg LoChan.state (chan_setChan_other (s.loStart 0) _ (by decide))).trans (loStart_same s 0)
  · rw [chan_congr hlook]
    exact loStart_same _ 1

/-- A warning interrupt is raised anew for those that receive it. -/
theorem mem_delivered (old new : List Nat) (c : Nat) : c ∈ old.filter (fun c => c ∉ new) ++ new ↔ c ∈ old ∨ c ∈ new := by
  simp only [List.mem_append, List.mem_filter, decide_eq_true_eq]
  tauto

/-! ### The evidence (R274) -/

/-- A row that the rate does not limit, while the sled is not braced and the row at the head is good. -/
theorem logRow_written {s : State} {r : LogRec} (hr : r.region ≠ 2) (hb : s.supply.braced = false)
    (hrow : regionBase r.region + (s.region r.region).head ∉ s.log.badRows) : s.logRow r = rowWrite s r := by
  have hrun : runRow s r = (rowWrite s r, []) := if_neg hrow
  have haccept : acceptRow s r = (rowWrite s r, []) := by
    unfold acceptRow rateTest
    rw [if_neg hr]
    dsimp only
    rw [if_pos rfl, hb, if_neg (by decide), hrun]
  have hone (n : Nat) : runEffs (n + 1) [.row r] s = runEffs n ((acceptRow s r).2 ++ []) (acceptRow s r).1 := rfl
  have hnil (n : Nat) (u : State) : runEffs n [] u = u := by cases n <;> rfl
  have hfuel : effFuel = 39999 + 1 := rfl
  rw [State.logRow, hfuel, hone, haccept, List.append_nil, hnil]

theorem region_setRegion_same (s : State) (r : Nat) (f : RegionSt → RegionSt) : (s.setRegion r f).region r = f (s.region r) :=
  get_modify_same (d := fun _ => RegionSt.init) s.log.regions r f

/-- The restart of the Supervisor up to its event. -/
def supervised (s : State) : State := ((s.onLookout (fun l => { l with supRest := false })).tetherRestart).loStart 4

theorem supervised_gives (s : State) : ((supervised s).raise .supervisorRestarted []).lookout.supRest = false ∧
    (((supervised s).raise .supervisorRestarted []).chan 4).state = .counting ∧
    ((supervised s).raise .supervisorRestarted []).tether.session = (s.tether.session + 1) % 256 ∧
    ((supervised s).raise .supervisorRestarted []).tether.counts = s.tether.counts ∧
    ((supervised s).raise .supervisorRestarted []).tether.claim = (if s.tetherCtrlEn = 1 then .listening else .disabled) ∧
    Reports .supervisorRestarted [] s ((supervised s).raise .supervisorRestarted []) := by
  have hflags := (raise_raises (supervised s) .supervisorRestarted []).toFlags
  have hlook : State.lookout _ = State.lookout _ := hflags.keeps .lookout (by decide)
  have htether : State.tether _ = State.tether _ := hflags.keeps .tether (by decide)
  have hfirst : (supervised s).lookout.supRest = false ∧ (supervised s).tether.session = (s.tether.session + 1) % 256 ∧
      (supervised s).tether.counts = s.tether.counts ∧
      (supervised s).tether.claim = (if s.tetherCtrlEn = 1 then .listening else .disabled) ∧ (supervised s).out = s.out := ⟨rfl, rfl, rfl, rfl, rfl⟩
  have hchan : ((supervised s).chan 4).state = .counting := loStart_same _ 4
  generalize supervised s = u at *
  rw [chan_congr hlook, hlook, htether]
  exact ⟨hfirst.1, hchan, hfirst.2.1, hfirst.2.2.1, hfirst.2.2.2.1, reports_before (by rw [hfirst.2.2.2.2]) (reports_raise u _ _)⟩

/-- Settles O53: the end of a hold by who requested it, the delivery by who receives, and the two restarts. -/
theorem resetsRelinquishRestartOrFence : Obligations.ResetsRelinquishRestartOrFence := by
  unfold Obligations.ResetsRelinquishRestartOrFence
  refine ⟨fun s e r hh => ?_, fun s e r hw => ?_, fun s hr => ?_, fun s hr => ?_, fun s e r he => ?_⟩
  · have hgo : exec .lookoutResetHold s =
        .next (if e.2.1 + 16 ≤ s.time.jcycle then (s.onLookout (fun l => { l with hold := r })).loHoldEnd e else s) := by
      refine congrArg Host.Outcome.next ?_
      rw [hh]
    refine ⟨fun hlt => hgo.trans (congrArg Host.Outcome.next (if_neg (by omega))), fun hle hone ha => ?_, fun hle hboth hl => ?_, fun hle hboth hl hf => ?_⟩
    · rw [if_pos hle, State.loHoldEnd, hone] at hgo
      have hacting : Acting (loEngine e.1) (s.onLookout (fun l => { l with hold := r })) := acting_congr ha rfl rfl rfl
      obtain ⟨hover, hsettled, -⟩ := fault_handsOver (s := s) hacting 5 rfl rfl (List.prefix_refl _)
      have hdid : Does 0x1f2e7fb3 (s.onLookout (fun l => { l with hold := r })) _ := does_engineFault (e := loEngine e.1) (cause := 5) (by decide) (does_refl _ _)
      have hlook := hdid.keeps .lookout (by decide)
      rw [if_neg Bool.false_ne_true, hsettled] at hgo
      exact ⟨_, hgo, hover, congrArg LookoutSt.hold hlook⟩
    · rw [if_pos hle, State.loHoldEnd, if_pos hboth, if_pos hl, mgmtBegin_eq] at hgo
      have hd := did_mgmtOnes (List.range 68) (s.onLookout (fun l => { l with hold := r }))
      have hidle (f : Nat) (hf : f < 68) (hc : (s.fn f).state = .checking) :=
        mgmtOnes_idle (List.range 68) (s.onLookout (fun l => { l with hold := r })) (k := f) (.inr ⟨List.mem_range.mpr hf, hc⟩)
      have hmsgs := mgmtOnes_msgs (List.range 68) (s.onLookout (fun l => { l with hold := r }))
      have hlook := hd.keeps .lookout (by decide)
      generalize (List.range 68).foldl mgmtOne (s.onLookout (fun l => { l with hold := r })) = u at hgo hidle hmsgs hlook
      exact ⟨_, hgo, rfl, congrArg LookoutSt.hold hlook, congrArg (List.filter (fun m : Msg => !m.kept)) hmsgs, hidle⟩
    · rw [if_pos hle, State.loHoldEnd, if_pos hboth, if_neg (by omega)] at hgo
      have hf' : (s.onLookout (fun l => { l with hold := r })).pair.fenced = false := hf
      obtain ⟨hby, hnone, hres⟩ := fence_fencedBy hf' 5
      have hlook := (did_fence (s.onLookout (fun l => { l with hold := r })) 5).keeps .lookout (by decide)
      obtain ⟨hsettled, hdid⟩ := fencedBy_settled hby hnone hres
      exact ⟨_, hgo, hsettled, (congrArg LookoutSt.hold (hdid.keeps .lookout (by decide))).trans (congrArg LookoutSt.hold hlook)⟩
  · have hgo : exec .warningDelivery s =
        .next (if e.2 + 16 ≤ s.time.jcycle then (s.onLookout (fun l => { l with warnAt := r })).loDeliver e.1 else s) := by
      refine congrArg Host.Outcome.next ?_
      rw [hw]
    refine ⟨fun hlt => hgo.trans (congrArg Host.Outcome.next (if_neg (by omega))), fun hle => ?_⟩
    rw [if_pos hle] at hgo
    refine ⟨_, hgo, rfl, fun c => ?_⟩
    have hmem : c ∈ ((if s.pair.warm then [e.1] else [e.1, loPartner e.1]).filter (fun c => s.receives (loEngine c))) ↔
        (c = e.1 ∨ (s.pair.warm = false ∧ c = loPartner e.1)) ∧ s.receives (loEngine c) = true := by
      rw [List.mem_filter]
      cases s.pair.warm <;> simp
    rw [← hmem]
    exact mem_delivered s.lookout.warnInt _ c
  · have hall := mgmtAborts (s.onLookout (fun l => { l with restart := false }))
    have hd : Does 0xe227782 (s.onLookout (fun l => { l with restart := false }))
        ((List.range 68).foldl State.mgmtAbort (s.onLookout (fun l => { l with restart := false }))) :=
      does_foldl (fun x f hx => does_mgmtAbort (by decide) hx) (does_refl _ _)
    have hgo : exec .mgmtRestart s = .next (mgmtEnded
        ((List.range 68).foldl State.mgmtAbort (s.onLookout (fun l => { l with restart := false })))) := congrArg Host.Outcome.next (if_pos hr)
    obtain ⟨hlook, h0, h1, hrep, hfns⟩ := mgmtEnded_gives ((List.range 68).foldl State.mgmtAbort (s.onLookout (fun l => { l with restart := false })))
    refine ⟨_, hgo, ?_, h0, h1, reports_before hd.out hrep, fun f hf hb => ?_⟩
    · rw [hlook]
      exact congrArg LookoutSt.restart (hd.keeps .lookout (by decide))
    · have hfn := (hfns f).trans (hall.inside f (List.mem_range.mpr hf))
      have haborted : aborted f ((s.onLookout (fun l => { l with restart := false })).fn f) = replied (s.fn f) f 0x0A 0 := if_pos hb
      rw [haborted] at hfn
      exact ⟨fn_field FnSt.replySeq hfn, fn_field FnSt.busy hfn, fn_field FnSt.wait hfn, fn_field FnSt.reply hfn⟩
  · exact ⟨_, congrArg Host.Outcome.next (if_pos hr), supervised_gives s⟩
  · refine ⟨fun hs => ?_, fun hs hb hrow => ?_⟩
    · refine congrArg Host.Outcome.next ?_
      rw [hs]
    · have hgo : exec .lookoutEvidenceCopy s = .next (rowWrite (s.onLookout (fun l => { l with evidence := r })) (evidenceRow e)) := by
        refine congrArg Host.Outcome.next ?_
        rw [hs, he]
        exact logRow_written (s := s.onLookout (fun l => { l with evidence := r })) (show (3 : Nat) ≠ 2 by decide) hb hrow
      refine ⟨_, hgo, ?_, rfl, region_setRegion_same _ 3 _, rfl⟩
      exact keeps_trans (t := s.onLookout (fun l => { l with evidence := r })) (keeps_mono (keeps_onLookout s _) (by decide))
        (keeps_mono (keeps_trans (keeps_onLog _ _) (keeps_onLog _ _)) (by decide) : Keeps [.lookout, .log] _ _)

end Sys2Proof.Proofs
end

section
/-! The Lookout's channels: serves, expiries and warnings, resets and the clock monitor (R262 to R268, R273); and O52. -/
namespace Sys2Proof.Proofs
open Sys2Proof Sys2Proof.Machine Sys2Proof.Laws
set_option Elab.async false -- one thread, within the memory of the check

/-! ### The islands of a channel (R269, R273) -/

/-- Of an L channel only the clock it counts on follows the islands. -/
theorem chan_loFollow (s : State) (c : Nat) {ch : Nat} (h : ch < 2) : ∃ r, (s.loFollow c).chan ch = { s.chan ch with ref32 := r } := by
  have hsame : ∃ r, s.chan ch = { s.chan ch with ref32 := r } := ⟨_, rfl⟩
  unfold State.loFollow
  split
  · by_cases hc : ch = c
    · rw [← hc, chan_setChan_same]
      split
      · exact ⟨_, rfl⟩
      · exact ⟨_, rfl⟩
    · rw [chan_setChan_other _ _ hc]
      exact hsame
  · have hc : ch ≠ c := by omega
    split
    · rw [chan_setChan_other _ _ hc]
      exact hsame
    · split
      · rw [State.loStart, chan_setChan_other _ _ hc]
        exact hsame
      · exact hsame

theorem chan_loFollows (l : List Nat) (s : State) {ch : Nat} (h : ch < 2) :
    ∃ r, (l.foldl State.loFollow s).chan ch = { s.chan ch with ref32 := r } := by
  induction l generalizing s with
  | nil => exact ⟨_, rfl⟩
  | cons c l ih =>
    obtain ⟨r, hr⟩ := chan_loFollow s c h
    obtain ⟨q, hq⟩ := ih (s.loFollow c)
    exact ⟨q, by rw [List.foldl_cons, hq, hr]⟩

/-- The MGMT island of a channel's engine is powered up. -/
def powered (s : State) (ch : Nat) : State := s.setIsland (loIsland ch) (fun i => { i with state := .on, isolated := false, auto := true })

/-- The island of a channel runs. -/
def Woke (s : State) (ch : Nat) : Prop := (s.island (loIsland ch)).state = .on ∧ (s.island (loIsland ch)).isolated = false

theorem loPowerUp_eq {s : State} {ch : Nat} (h : ch < 2 ∧ s.power.domain = true ∧ s.loStopped ch = true ∧ s.loAsleep = false) :
    s.loPowerUp ch = (powered s ch).loFollowAll.released := if_pos h

theorem loPowerUp_none {s : State} {ch : Nat} (h : ¬(ch < 2 ∧ s.power.domain = true ∧ s.loStopped ch = true ∧ s.loAsleep = false)) :
    s.loPowerUp ch = s := if_neg h

theorem coreRuns_powered (s : State) (ch : Nat) : (powered s ch).coreRuns = s.coreRuns := rfl

theorem coreRuns_loFollowAll (s : State) : s.loFollowAll.coreRuns = s.coreRuns := by
  have hd : Does 0x100000 s s.loFollowAll := does_loFollowAll (by decide) (does_refl _ s)
  exact coreRuns_of (hd.keeps .power (by decide)) (congrArg SupplySt.inReset (hd.keeps .supply (by decide)))
    (congrArg LogSt.bootRom (hd.keeps .log (by decide)))

theorem woke_loFollowAll (s : State) (ch : Nat) : Woke (powered s ch).loFollowAll ch := by
  have hd : Does 0x100000 (powered s ch) (powered s ch).loFollowAll := does_loFollowAll (by decide) (does_refl _ _)
  have hisl : (powered s ch).loFollowAll.island (loIsland ch) = { s.island (loIsland ch) with state := .on, isolated := false, auto := true } :=
    (congrArg (fun p : PowerSt => Tbl.get (fun _ => IslSt.init) p.islands (loIsland ch)) (hd.keeps .power (by decide))).trans
      (island_setIsland_same s _ _)
  unfold Woke
  rw [hisl]
  exact ⟨rfl, rfl⟩

/-- Where nothing waits for the pair, its release leaves the Lookout and the islands. -/
theorem released_lookout {s : State} (h : NoneHeld s.pair) :
    Does 0x40000 s s.released ∧ s.released.lookout = s.lookout ∧ s.released.coreRuns = s.coreRuns ∧ s.released.power = s.power := by
  rw [released_none h]
  split
  · exact ⟨does_refl _ s, rfl, rfl, rfl⟩
  · exact ⟨does_onPair (by decide) rfl (does_refl _ s), rfl, rfl, rfl⟩

/-- Where nothing waits for the pair, powering an island up leaves a channel but for its clock, and whether CORE runs. -/
theorem loPowerUp_gives {s : State} (h : NoneHeld s.pair) (ch : Nat) :
    Does 0x540000 s (s.loPowerUp ch) ∧ (∃ r, (s.loPowerUp ch).chan ch = { s.chan ch with ref32 := r }) ∧
    (s.loPowerUp ch).coreRuns = s.coreRuns ∧
    (ch < 2 → s.power.domain = true → s.loStopped ch = true → s.loAsleep = false → Woke (s.loPowerUp ch) ch) := by
  by_cases hup : ch < 2 ∧ s.power.domain = true ∧ s.loStopped ch = true ∧ s.loAsleep = false
  · rw [loPowerUp_eq hup]
    have hdid : Does 0x500000 s (powered s ch).loFollowAll :=
      does_loFollowAll (by decide) (does_setIsland (by decide) (does_refl _ s))
    have hpair : (powered s ch).loFollowAll.pair = s.pair := pair_of_does hdid
    obtain ⟨r, hchan⟩ := chan_loFollows (List.range 4) (powered s ch) hup.1
    have hchan : (powered s ch).loFollowAll.chan ch = { s.chan ch with ref32 := r } := hchan
    have hcore := (coreRuns_loFollowAll (powered s ch)).trans (coreRuns_powered s ch)
    have hwoke := woke_loFollowAll s ch
    generalize (powered s ch).loFollowAll = u at *
    obtain ⟨hrel, hlook, hrun, hpow⟩ := released_lookout (hpair.symm ▸ h : NoneHeld u.pair)
    refine ⟨does_trans (does_mono hdid (by decide)) (does_mono hrel (by decide)), ⟨r, (chan_congr hlook ch).trans hchan⟩, hrun.trans hcore, fun _ _ _ _ => ?_⟩
    unfold Woke State.island at *
    rw [hpow]
    exact hwoke
  · rw [loPowerUp_none hup]
    exact ⟨does_refl _ s, ⟨_, rfl⟩, rfl, fun h1 h2 h3 h4 => absurd ⟨h1, h2, h3, h4⟩ hup⟩

/-! ### A wake leaves the clock of the sled (R301) -/

theorem coreRuns_vetoWake (s : State) (w : Wake) : (s.vetoWake w).coreRuns = s.coreRuns :=
  coreRuns_of ((did_vetoWake s w).keeps .power (by decide)) (congrArg SupplySt.inReset ((did_vetoWake s w).keeps .supply (by decide)))
    (congrArg LogSt.bootRom ((did_vetoWake s w).keeps .log (by decide)))

/-- CORE runs in Sleep, and in an exit from it; in Deep sleep it stands, and until its exit reaches stage 5. -/
theorem coreRuns_beginExit {s : State} (w : Wake) (b : Bool) (h : s.power.mode = .sleep ∨ s.power.mode = .deepSleep) :
    (s.beginExit w b).coreRuns = s.coreRuns := by
  have hlog : (s.beginExit w b).log = s.log := (does_beginExit (M := 0x610000) (by decide) (does_refl _ s)).keeps .log (by decide)
  have hsup : (s.beginExit w b).supply.inReset = s.supply.inReset :=
    (congrArg SupplySt.inReset ((did_watchStop s).keeps .supply (by decide) : s.watchStop.supply = s.supply) : s.watchStop.supply.inReset = _)
  have hmode : (s.beginExit w b).power.mode = .exiting := rfl
  have hstage : (s.beginExit w b).power.stage = 0 := rfl
  have hfrom : (s.beginExit w b).power.exitFrom = s.power.mode :=
    (congrArg PowerSt.mode ((did_watchStop s).keeps .power (by decide) : s.watchStop.power = s.power) : s.watchStop.power.mode = _)
  unfold State.coreRuns
  rw [hlog, hsup, hmode, hstage, hfrom]
  rcases h with h | h <;> simp [h]

theorem coreRuns_registerWake (s : State) (src det : Nat) : (s.registerWake src det).coreRuns = s.coreRuns := by
  unfold State.registerWake
  extract_lets w
  split
  · rfl
  · split
    · split
      next hm _ => simp only [State.coreRuns, State.onPower, hm]
      next => rfl
    · split
      next hm _ => exact coreRuns_beginExit w false (.inl hm)
      next => rfl
    · split
      next hm _ => exact coreRuns_beginExit w false (.inr hm)
      next => rfl
    · split
      next hm _ => simp only [State.coreRuns, State.onPower, hm]
      next => rfl
    · split
      · exact coreRuns_vetoWake s w
      · rfl
    · split
      · exact coreRuns_vetoWake s w
      · rfl
    · rfl

/-! ### A warning (R265, R273) -/

/-- A channel in Warning: its record, and the warning period that it opens. -/
def warned (x : LoChan) (pc : Nat) (test : Bool) (now : Nat) (asleep : Bool) (r : Bool) : LoChan :=
  { x with state := .warning, warnPc := pc, latched := x.lastServe, warns := satAdd 32 x.warns 1, test := test, opened := now,
           stalled := asleep, ref32 := r }

/-- The part of a warning that comes before its wake. -/
def loWarns (s : State) (ch pc : Nat) (test : Bool) : State :=
  ((s.setChan ch (fun x => warned x pc test s.time.elapsed s.loAsleep x.ref32)).loInterrupt ch).raise .lookoutWarning
    (le 1 ch ++ le 4 pc ++ le 8 (s.chan ch).lastServe ++ le 1 (ofBool test))

theorem loExpire_eq (s : State) (ch pc : Nat) (test : Bool) : s.loExpire ch pc test =
    (((loWarns s ch pc test).loEvidence ch).registerWake 3 ch).loPowerUp ch := by
  have hlast : ((s.setChan ch (fun x => warned x pc test s.time.elapsed s.loAsleep x.ref32)).chan ch).latched = (s.chan ch).lastServe :=
    congrArg LoChan.latched (chan_setChan_same s ch _)
  unfold loWarns
  rw [← hlast]
  rfl

theorem chan_loInterrupt (s : State) (ch c : Nat) : (s.loInterrupt ch).chan c = s.chan c := by
  unfold State.loInterrupt
  split
  · rfl
  · split <;> rfl

theorem did_loWarns (s : State) (ch pc : Nat) (test : Bool) : Does 0xe320082 s (loWarns s ch pc test) :=
  does_raise (by decide) (does_loInterrupt (by decide) (does_setChan (by decide) (does_refl _ s)))

theorem chan_loWarns (s : State) (ch pc : Nat) (test : Bool) :
    (loWarns s ch pc test).chan ch = warned (s.chan ch) pc test s.time.elapsed s.loAsleep (s.chan ch).ref32 := by
  unfold loWarns
  rw [chan_congr ((raise_raises _ _ _).toFlags.keeps .lookout (by decide)), chan_loInterrupt, chan_setChan_same]

theorem coreRuns_loWarns (s : State) (ch pc : Nat) (test : Bool) : (loWarns s ch pc test).coreRuns = s.coreRuns := by
  unfold loWarns
  rw [coreRuns_raise]
  have hd : Does 0x100000 s ((s.setChan ch (fun x => warned x pc test s.time.elapsed s.loAsleep x.ref32)).loInterrupt ch) :=
    does_loInterrupt (by decide) (does_setChan (by decide) (does_refl _ s))
  exact coreRuns_of (hd.keeps .power (by decide)) (congrArg SupplySt.inReset (hd.keeps .supply (by decide)))
    (congrArg LogSt.bootRom (hd.keeps .log (by decide)))

/-- What a warning leaves, where nothing waits for the pair. -/
theorem loExpire_gives {s : State} (h : NoneHeld s.pair) (ch pc : Nat) (test : Bool) :
    (∃ r, (s.loExpire ch pc test).chan ch = warned (s.chan ch) pc test s.time.elapsed s.loAsleep r) ∧
    (s.loExpire ch pc test).time64 = s.time64 ∧
    Reports .lookoutWarning (le 1 ch ++ le 4 pc ++ le 8 (s.chan ch).lastServe ++ le 1 (ofBool test)) s (s.loExpire ch pc test) ∧
    (ch < 2 → s.power.domain = true → s.loStopped ch = true → s.power.mode = .run ∨ s.power.mode = .idle →
      Woke (s.loExpire ch pc test) ch) := by
  rw [loExpire_eq]
  have hwarn := did_loWarns s ch pc test
  have hcore : (loWarns s ch pc test).coreRuns = s.coreRuns := coreRuns_loWarns s ch pc test
  have hrep : Reports .lookoutWarning (le 1 ch ++ le 4 pc ++ le 8 (s.chan ch).lastServe ++ le 1 (ofBool test)) s (loWarns s ch pc test) :=
    reports_before (does_loInterrupt (M := 0x100000) (by decide) (does_setChan (by decide) (does_refl _ s))).out (reports_raise _ _ _)
  have hchan := chan_loWarns s ch pc test
  generalize loWarns s ch pc test = u at *
  have hwake : Does 0x1610000 (u.loEvidence ch) ((u.loEvidence ch).registerWake 3 ch) := does_registerWake (by decide) (does_refl _ _)
  have hevid : Does 0x100000 u (u.loEvidence ch) := does_loEvidence (by decide) (does_refl _ u)
  have hdid : Does 0xff30082 s ((u.loEvidence ch).registerWake 3 ch) :=
    does_trans (does_mono hwarn (by decide)) (does_trans (does_mono hevid (by decide)) (does_mono hwake (by decide)))
  have hcore' : ((u.loEvidence ch).registerWake 3 ch).coreRuns = s.coreRuns := (coreRuns_registerWake _ _ _).trans hcore
  have hawake (hm : s.power.mode = .run ∨ s.power.mode = .idle) : ((u.loEvidence ch).registerWake 3 ch).power = s.power :=
    ((registerWake_awake ch (by rw [show (u.loEvidence ch).power = s.power from hwarn.keeps .power (by decide)]; exact hm)).keeps .power (by decide)).trans (hwarn.keeps .power (by decide))
  have hchan' : ((u.loEvidence ch).registerWake 3 ch).chan ch = u.chan ch := chan_congr (s := u.loEvidence ch) (hwake.keeps .lookout (by decide)) ch
  have hrep' := reports_after hrep (hevid.out.trans hwake.out)
  generalize (u.loEvidence ch).registerWake 3 ch = v at *
  have hpair : v.pair = s.pair := pair_of_does hdid
  obtain ⟨hup, ⟨r, hr⟩, hc, hisl⟩ := loPowerUp_gives (hpair.symm ▸ h : NoneHeld v.pair) ch
  have hall : Does 0xff70082 s (v.loPowerUp ch) := does_trans (does_mono hdid (by decide)) (does_mono hup (by decide))
  refine ⟨⟨r, by rw [hr, hchan', hchan]; rfl⟩, time64_of (hall.keeps .time (by decide)) (hall.keeps .rtc (by decide)) (hc.trans hcore'),
    reports_after hrep' hup.out, fun h1 h2 h3 h4 => ?_⟩
  have hpow := hawake h4
  refine hisl h1 (by rw [hpow]; exact h2) ?_ ?_
  · rw [← h3]
    unfold State.loStopped State.island
    rw [hpow]
  · rcases h4 with h4 | h4 <;> simp [State.loAsleep, hpow, h4]

/-! ### A serve (R262, R263) -/

/-- A channel that starts a full period. -/
def restarted (x : LoChan) (now len : Nat) : LoChan :=
  { x with state := .counting, opened := now, len := len, test := false, stalled := false }

theorem chan_loStart_same (s : State) (ch : Nat) :
    (s.loStart ch).chan ch = restarted (s.chan ch) s.time.elapsed (s.loLen ch (s.chan ch).ref32) := chan_setChan_same s ch _

theorem chan_loClear (s : State) (ch c : Nat) : (s.loClear ch).chan c = s.chan c := rfl

theorem warnInt_loClear (s : State) (ch : Nat) : ch ∉ (s.loClear ch).lookout.warnInt := fun h =>
  absurd rfl (of_decide_eq_true (List.mem_filter.mp (h : ch ∈ s.lookout.warnInt.filter (· ≠ ch))).2)

/-- A channel as its serve finds it. -/
def served (x : LoChan) (now : Nat) (ref : Bool) : LoChan := { x with lastServe := now, ref32 := ref }

theorem loLen_congr {s t : State} (h : t.setup = s.setup) (ch : Nat) (b : Bool) : t.loLen ch b = s.loLen ch b := by
  unfold State.loLen State.loLCtrlPeriodMs State.loFCtrlPeriodUs State.loSCtrlPeriodMs
  simp only [field_congr h]

theorem chan_loServe (s : State) (ch : Nat) : ∃ r, (s.loServe ch).chan ch = restarted (served (s.chan ch) s.time64 r) s.time.elapsed (s.loLen ch r) := by
  have hset := chan_setChan_same s ch (fun x => { x with lastServe := s.time64, ref32 := if x.moved then x.ref32 else s.loRef ch })
  unfold State.loServe
  rw [chan_loClear, chan_loStart_same, hset]
  exact ⟨_, rfl⟩

theorem chan_loServe_other (s : State) {ch c : Nat} (h : c ≠ ch) : (s.loServe ch).chan c = s.chan c := by
  unfold State.loServe State.loStart
  rw [chan_loClear, chan_setChan_other _ _ h, chan_setChan_other _ _ h]

/-! ### A reset (R266, R270) -/

/-- A channel as its reset finds it: its cause marked, its count, and the clock of the set-up. -/
def resetting (x : LoChan) (mark : LoChan → LoChan) (ref : Bool) : LoChan :=
  { mark { x with expiry := false, badServe := false, clockLoss := false, common := false } with
      resets := satAdd 32 x.resets 1, moved := false, ref32 := ref }

/-- A reset up to its request. -/
def loAsked (s : State) (ch : Nat) (mark : LoChan → LoChan) : State :=
  (s.setChan ch (fun x => resetting x mark (s.loRef ch))).loTarget ch

/-- A reset up to its report. -/
def loAgain (s : State) (ch : Nat) (mark : LoChan → LoChan) : State := ((loAsked s ch mark).loStart ch).loClear ch

theorem loReset_eq (s : State) (ch : Nat) (mark : LoChan → LoChan) : s.loReset ch mark =
    ((loAgain s ch mark).raise .lookoutReset (le 1 ch ++ le 2 ((loAsked s ch mark).chan ch).cause)).loEvidence ch := rfl

theorem did_loAgain (s : State) (ch : Nat) (mark : LoChan → LoChan) : Does 0x100000 s (loAgain s ch mark) :=
  does_loClear (by decide) (does_loStart (by decide) (does_loTarget (by decide) (does_setChan (by decide) (does_refl _ s))))

theorem lookout_loEvidence (s : State) (ch : Nat) : ∃ e, (s.loEvidence ch).lookout = { s.lookout with evidence := e } := ⟨_, rfl⟩

/-- What a reset leaves of the Lookout is what stood before its report, but for the evidence. -/
theorem loReset_lookout (s : State) (ch : Nat) (mark : LoChan → LoChan) :
    ∃ e, (s.loReset ch mark).lookout = { (loAgain s ch mark).lookout with evidence := e } := by
  have hlook : ((loAgain s ch mark).raise .lookoutReset (le 1 ch ++ le 2 ((loAsked s ch mark).chan ch).cause)).lookout =
      (loAgain s ch mark).lookout := (raise_raises _ _ _).toFlags.keeps .lookout (by decide)
  rw [loReset_eq]
  obtain ⟨e, he⟩ := lookout_loEvidence ((loAgain s ch mark).raise .lookoutReset (le 1 ch ++ le 2 ((loAsked s ch mark).chan ch).cause)) ch
  exact ⟨e, by rw [he, hlook]⟩

theorem reports_loReset (s : State) (ch : Nat) (mark : LoChan → LoChan) :
    Reports .lookoutReset (le 1 ch ++ le 2 ((loAsked s ch mark).chan ch).cause) s (s.loReset ch mark) := by
  rw [loReset_eq]
  exact reports_after (reports_before (did_loAgain s ch mark).out (reports_raise _ _ _)) (does_loEvidence (M := 0x100000) (by decide) (does_refl _ _)).out

/-- A request of an engine channel is joint where the other engine's channel of the kind has requested within its hold. -/
def Joint (s : State) (ch : Nat) : Prop := ∃ e ∈ s.lookout.hold, e.1 = loPartner ch ∧ s.time.jcycle < e.2.1 + 16

theorem loPartner_ne {ch : Nat} : loPartner ch ≠ ch := by
  unfold loPartner
  split <;> omega

theorem any_joint (s : State) (ch : Nat) :
    s.lookout.hold.any (fun e => decide (e.1 = loPartner ch) && decide (s.time.jcycle < e.2.1 + 16)) = true ↔ Joint s ch := by
  simp [Joint, List.any_eq_true]

theorem loRequest_joint {s : State} {ch : Nat} (h : Joint s ch) : (s.loRequest ch).chan ch = { s.chan ch with common := true } ∧
    ∀ e ∈ (s.loRequest ch).lookout.hold, e.1 = loPartner ch → e.2.2 = true := by
  unfold State.loRequest
  rw [if_pos ((any_joint s ch).mpr h), chan_setChan_other _ _ (Ne.symm loPartner_ne), chan_setChan_same]
  refine ⟨rfl, fun e he hp => ?_⟩
  obtain ⟨e', -, rfl⟩ := List.mem_map.mp (he : e ∈ s.lookout.hold.map (fun e => if e.1 = loPartner ch then (e.1, e.2.1, true) else e))
  by_cases hc : e'.1 = loPartner ch
  · rw [if_pos hc]
  · rw [if_neg hc] at hp
    exact absurd hp hc

theorem loRequest_alone {s : State} {ch : Nat} (h : ¬Joint s ch) :
    s.loRequest ch = s.onLookout (fun l => { l with hold := l.hold ++ [(ch, s.time.jcycle, false)] }) :=
  if_neg (fun hc => h ((any_joint s ch).mp hc))

/-- A channel as its request leaves it: the request may be joint. -/
theorem chan_loAsked (s : State) (ch : Nat) (mark : LoChan → LoChan) : (loAsked s ch mark).chan ch =
    { resetting (s.chan ch) mark (s.loRef ch) with common := ((loAsked s ch mark).chan ch).common } ∧
    (ch = 4 ∨ ¬Joint s ch → ((loAsked s ch mark).chan ch).common = (resetting (s.chan ch) mark (s.loRef ch)).common) := by
  have hset := chan_setChan_same s ch (fun x => resetting x mark (s.loRef ch))
  unfold loAsked State.loTarget
  split
  next h4 =>
    have hone : ((s.setChan ch (fun x => resetting x mark (s.loRef ch))).onLookout (fun l => { l with supRest := true })).chan ch = _ := hset
    rw [hone]
    exact ⟨rfl, fun _ => rfl⟩
  next h4 =>
    by_cases hj : Joint s ch
    · rw [(loRequest_joint (s := s.setChan ch _) hj).1, hset]
      exact ⟨rfl, fun h => absurd hj (h.resolve_left h4)⟩
    · rw [loRequest_alone (s := s.setChan ch _) hj]
      have hone : ((s.setChan ch (fun x => resetting x mark (s.loRef ch))).onLookout (fun l =>
        { l with hold := l.hold ++ [(ch, (s.setChan ch (fun x => resetting x mark (s.loRef ch))).time.jcycle, false)] })).chan ch = _ := hset
      rw [hone]
      exact ⟨rfl, fun _ => rfl⟩

theorem chan_loReset (s : State) (ch : Nat) (mark : LoChan → LoChan) : (s.loReset ch mark).chan ch =
    restarted ((loAsked s ch mark).chan ch) s.time.elapsed (s.loLen ch ((loAsked s ch mark).chan ch).ref32) := by
  obtain ⟨e, he⟩ := loReset_lookout s ch mark
  have hd : Does 0x100000 s (loAsked s ch mark) := does_loTarget (by decide) (does_setChan (by decide) (does_refl _ s))
  have htime : (loAsked s ch mark).time = s.time := hd.keeps .time (by decide)
  have hsetup : (loAsked s ch mark).setup = s.setup := hd.keeps .setup (by decide)
  have hagain : (loAgain s ch mark).chan ch = restarted ((loAsked s ch mark).chan ch) (loAsked s ch mark).time.elapsed
      ((loAsked s ch mark).loLen ch ((loAsked s ch mark).chan ch).ref32) := (chan_loClear _ ch ch).trans (chan_loStart_same _ ch)
  have hchan : (s.loReset ch mark).chan ch = (loAgain s ch mark).chan ch := by
    unfold State.chan
    rw [he]
  rw [hchan, hagain, htime, loLen_congr hsetup]

theorem warnInt_loReset (s : State) (ch : Nat) (mark : LoChan → LoChan) : ch ∉ (s.loReset ch mark).lookout.warnInt := by
  obtain ⟨e, he⟩ := loReset_lookout s ch mark
  rw [he]
  exact warnInt_loClear _ ch

theorem hold_loReset (s : State) (ch : Nat) (mark : LoChan → LoChan) :
    (s.loReset ch mark).lookout.hold = (loAsked s ch mark).lookout.hold ∧ (s.loReset ch mark).lookout.supRest = (loAsked s ch mark).lookout.supRest := by
  obtain ⟨e, he⟩ := loReset_lookout s ch mark
  rw [he]
  exact ⟨rfl, rfl⟩

/-- The cause that a reset marks is the one of `x`. -/
def Marks (mark : LoChan → LoChan) (x : LoChan) : Prop :=
  (x.clockLoss = false ∧ x.common = false) ∧ ∀ (y : LoChan) (b : Bool), (resetting y mark b).expiry = x.expiry ∧
    (resetting y mark b).badServe = x.badServe ∧ (resetting y mark b).clockLoss = false ∧ (resetting y mark b).common = false ∧
    (resetting y mark b).resets = satAdd 32 y.resets 1

/-- What a reset gives (R266, R270, R271). -/
def ResetGives (s : State) (ch : Nat) (x : LoChan) (t : State) : Prop :=
  (t.chan ch).state = .counting ∧ (t.chan ch).opened = s.time.elapsed ∧ (t.chan ch).resets = satAdd 32 (s.chan ch).resets 1 ∧
  (t.chan ch).expiry = x.expiry ∧ (t.chan ch).badServe = x.badServe ∧ (t.chan ch).clockLoss = false ∧ ch ∉ t.lookout.warnInt ∧
  (ch = 4 → t.lookout.supRest = true ∧ Reports .lookoutReset (le 1 ch ++ le 2 x.cause) s t) ∧
  (ch ≠ 4 → (∀ e ∈ s.lookout.hold, e.1 ≠ loPartner ch ∨ e.2.1 + 16 ≤ s.time.jcycle) →
    t.lookout.hold = s.lookout.hold ++ [(ch, s.time.jcycle, false)] ∧ (t.chan ch).common = false ∧
    Reports .lookoutReset (le 1 ch ++ le 2 x.cause) s t) ∧
  (ch ≠ 4 → (∃ e ∈ s.lookout.hold, e.1 = loPartner ch ∧ s.time.jcycle < e.2.1 + 16) →
    (∀ e ∈ t.lookout.hold, e.1 = loPartner ch → e.2.2 = true) ∧ (t.chan ch).common = true ∧
    Reports .lookoutReset (le 1 ch ++ le 2 (x.cause + 256)) s t)

theorem loReset_gives (s : State) (ch : Nat) {mark : LoChan → LoChan} {x : LoChan} (hm : Marks mark x) :
    ResetGives s ch x (s.loReset ch mark) := by
  obtain ⟨⟨hxc, hxm⟩, hmark⟩ := hm
  obtain ⟨hexp, hbad, hclk, hcom, hres⟩ := hmark (s.chan ch) (s.loRef ch)
  obtain ⟨hasked, halone⟩ := chan_loAsked s ch mark
  have hcause : ((loAsked s ch mark).chan ch).cause = x.cause + 256 * ofBool ((loAsked s ch mark).chan ch).common := by
    rw [LoChan.cause, LoChan.cause, hasked]
    simp [hexp, hbad, hclk, hxc, hxm, ofBool]
  have hrep := reports_loReset s ch mark
  obtain ⟨hhold, hsup⟩ := hold_loReset s ch mark
  have hint := warnInt_loReset s ch mark
  rw [hcause] at hrep
  unfold ResetGives
  rw [chan_loReset, hhold, hsup]
  have hlone (hl : ch = 4 ∨ ¬Joint s ch) : ((loAsked s ch mark).chan ch).common = false ∧
      Reports .lookoutReset (le 1 ch ++ le 2 x.cause) s (s.loReset ch mark) := by
    have hc := (halone hl).trans hcom
    rw [hc] at hrep
    exact ⟨hc, hrep⟩
  refine ⟨rfl, rfl, ?_, ?_, ?_, ?_, hint, fun h4 => ⟨?_, (hlone (.inl h4)).2⟩, fun h4 hno => ?_, fun h4 hj => ?_⟩
  · exact (congrArg LoChan.resets hasked).trans hres
  · exact (congrArg LoChan.expiry hasked).trans hexp
  · exact (congrArg LoChan.badServe hasked).trans hbad
  · exact (congrArg LoChan.clockLoss hasked).trans hclk
  · exact congrArg (fun u : State => u.lookout.supRest) (if_pos h4 : (s.setChan ch (fun x => resetting x mark (s.loRef ch))).loTarget ch = _)
  · have hnot : ¬Joint s ch := fun ⟨e, he, h1, h2⟩ => (hno e he).elim (fun h => h h1) (fun h => by omega)
    obtain ⟨hc, hr⟩ := hlone (.inr hnot)
    refine ⟨?_, hc, hr⟩
    have htarget : loAsked s ch mark = (s.setChan ch (fun x => resetting x mark (s.loRef ch))).loRequest ch := if_neg h4
    rw [htarget, loRequest_alone (s := s.setChan ch _) hnot]
    rfl
  · have htarget : loAsked s ch mark = (s.setChan ch (fun x => resetting x mark (s.loRef ch))).loRequest ch := if_neg h4
    obtain ⟨hchan, hall⟩ := loRequest_joint (s := s.setChan ch (fun x => resetting x mark (s.loRef ch))) hj
    rw [← htarget] at hchan hall
    have hc : ((loAsked s ch mark).chan ch).common = true := by rw [hchan]
    rw [hc] at hrep
    exact ⟨hall, hc, hrep⟩

theorem loReset_lastServe (s : State) (ch : Nat) {mark : LoChan → LoChan} (hm : ∀ y : LoChan, (mark y).lastServe = y.lastServe) :
    ((s.loReset ch mark).chan ch).lastServe = (s.chan ch).lastServe := by
  rw [chan_loReset]
  exact (congrArg LoChan.lastServe (chan_loAsked s ch mark).1).trans (hm _)

theorem marks_expiry (ch : Nat) : Marks (fun x => { x with expiry := true }) { LoChan.init ch with expiry := true } :=
  ⟨⟨rfl, rfl⟩, fun _ _ => ⟨rfl, rfl, rfl, rfl, rfl⟩⟩

theorem marks_badServe (ch : Nat) : Marks (fun x => { x with badServe := true }) { LoChan.init ch with badServe := true } :=
  ⟨⟨rfl, rfl⟩, fun _ _ => ⟨rfl, rfl, rfl, rfl, rfl⟩⟩

theorem noneHeld_of_settled {s : State} (h : Settled s) : NoneHeld s.pair := by
  obtain ⟨hheld, hmerge, hreads, hhold, -, -⟩ := h
  exact ⟨hheld, hmerge, hreads, hhold⟩

theorem loWrite_counts {s : State} {ch pc : Nat} {act : State → State} (hc : s.loCounts ch = true) (ho : s.loOver ch = false) :
    s.loWrite ch pc act = act s :=
  (if_neg (by simp [hc])).trans (if_neg (by simp [ho]))

theorem loWrite_over {s : State} {ch pc : Nat} {act : State → State} (hc : s.loCounts ch = true) (ho : s.loOver ch = true) :
    s.loWrite ch pc act = if (s.chan ch).state = .counting ∨ (s.chan ch).test then act (s.loClose ch pc) else s.loClose ch pc :=
  (if_neg (by simp [hc])).trans (if_pos ho)

theorem exec_serve_over {s : State} {ch : Fin 5} (hc : s.loCounts ch = true) (ho : s.loOver ch = true) :
    exec (.lookoutServe ch) s = .next (if (s.chan ch).state = .counting ∨ (s.chan ch).test then
      (s.useFree.loClose ch (s.freeNat 32)).loServe ch else s.useFree.loClose ch (s.freeNat 32)) :=
  congrArg Host.Outcome.next ((if_pos ho).trans (loWrite_over (s := s.useFree) hc ho))

/-- A warning as its statement asks for it. -/
def WarnGives (s : State) (ch pc : Nat) (test : Bool) (t : State) : Prop :=
  (t.chan ch).state = .warning ∧ (t.chan ch).warnPc = pc ∧ (t.chan ch).latched = (s.chan ch).lastServe ∧
  (t.chan ch).warns = satAdd 32 (s.chan ch).warns 1 ∧ (t.chan ch).test = test ∧
  (ch < 2 → s.power.domain = true → s.loStopped ch = true → s.power.mode = .run ∨ s.power.mode = .idle → Woke t ch) ∧
  Reports .lookoutWarning (le 1 ch ++ le 4 pc ++ le 8 (s.chan ch).lastServe ++ le 1 (ofBool test)) s t

theorem loExpire_warns {s : State} (h : NoneHeld s.pair) (ch pc : Nat) (test : Bool) : WarnGives s ch pc test (s.loExpire ch pc test) := by
  obtain ⟨⟨r, hr⟩, -, hrep, hwoke⟩ := loExpire_gives h ch pc test
  unfold WarnGives
  rw [hr]
  exact ⟨rfl, rfl, rfl, rfl, rfl, hwoke, hrep⟩

/-- A warning after a step that leaves what it rests on. -/
theorem warnGives_of {s u t : State} {ch pc : Nat} {test : Bool} (h : WarnGives u ch pc test t)
    (hlast : (u.chan ch).lastServe = (s.chan ch).lastServe) (hwarns : (u.chan ch).warns = (s.chan ch).warns) (hout : s.out <+: u.out)
    (hisl : u.power.islands = s.power.islands)
    (hmode : s.power.mode = .run ∨ s.power.mode = .idle → (u.power.mode = .run ∨ u.power.mode = .idle) ∧ u.power.domain = s.power.domain) :
    WarnGives s ch pc test t := by
  obtain ⟨h1, h2, h3, h4, h5, h6, h7⟩ := h
  rw [hlast] at h3 h7
  rw [hwarns] at h4
  have hstop : u.loStopped ch = s.loStopped ch := by
    unfold State.loStopped State.island
    rw [hisl]
  rw [hstop] at h6
  exact ⟨h1, h2, h3, h4, h5, fun a b c d => h6 a ((hmode d).2.trans b) c (hmode d).1, reports_before hout h7⟩

theorem mode_arrives_off {s : State} (h : s.power.mode ≠ .off) : (s.arrives 64).power.mode ≠ .off := by
  have hawake (hm : s.power.mode = .run ∨ s.power.mode = .idle) : (s.arrives 64).power.mode ≠ .off := by
    rw [(power_arrives_awake 64 hm).1]
    exact PwrMode.noConfusion
  cases hm : s.power.mode with
  | run => exact hawake (.inl hm)
  | idle => exact hawake (.inr hm)
  | sleep => exact (mode_arrives_busy 64 (.inr (.inl hm))).2.2
  | deepSleep => exact (mode_arrives_busy 64 (.inr (.inr (.inl hm)))).2.2
  | entering => exact (mode_arrives_busy 64 (.inl hm)).2.2
  | exiting => exact (mode_arrives_busy 64 (.inr (.inr (.inr hm)))).2.2
  | off => exact absurd hm h

/-- The state in which a TEST acts: it has arrived, and LO_CMD reads it. -/
def testWrote (s : State) (ch : Nat) : State := (s.arrives 64).wrote 0x7800C (ch + 256)

theorem testWrote_warns {s : State} {ch : Fin 5} (pc : Word) (hc : s.loCounts ch = true) (hp : s.noPartner = false) (hn : NoneHeld s.pair) :
    Gives (.loCmdTest ch pc) s (WarnGives s ch pc.toNat true) := by
  have hlook : (testWrote s ch).lookout = s.lookout := keeps_arrives s 64 .lookout (by decide)
  have hpair : (testWrote s ch).pair = s.pair := arrives_pair s 64
  have hchan : (testWrote s ch).chan ch = s.chan ch := chan_arrives s 64 ch
  have hcounts : (testWrote s ch).loCounts ch = true := by
    unfold State.loCounts at hc ⊢
    rw [hchan, hlook, show (testWrote s ch).power.mode = (s.arrives 64).power.mode from rfl]
    simp only [Bool.and_eq_true, decide_eq_true_eq, ne_eq] at hc ⊢
    exact ⟨⟨mode_arrives_off hc.1.1, hc.1.2⟩, hc.2⟩
  have hgo : exec (.loCmdTest ch pc) s = .next ((testWrote s ch).loExpire ch pc.toNat true) :=
    congrArg Host.Outcome.next ((if_neg (by simp [hp])).trans (if_pos hcounts))
  refine ⟨_, hgo, warnGives_of (loExpire_warns (hpair.symm ▸ hn) ch pc.toNat true) (congrArg LoChan.lastServe hchan)
    (congrArg LoChan.warns hchan) ?_ (wakeKept_arrives s 64).islands fun hm => ?_⟩
  · exact (arrives_out s 64).symm ▸ List.prefix_refl _
  · obtain ⟨hrun, -, hdom, -⟩ := power_arrives_awake 64 hm
    exact ⟨.inl hrun, hdom⟩

/-- A bad serve is counted. -/
def counted (s : State) (ch : Nat) : State := s.setChan ch (fun x => { x with bads := satAdd 32 x.bads 1 })

theorem chan_counted (s : State) (ch : Nat) : ((counted s ch).chan ch).lastServe = (s.chan ch).lastServe ∧
    ((counted s ch).chan ch).warns = (s.chan ch).warns ∧ ((counted s ch).chan ch).resets = (s.chan ch).resets := by
  rw [counted, chan_setChan_same]
  exact ⟨rfl, rfl, rfl⟩

/-- The monitor of an L channel has moved it. -/
def tripped (s : State) (ch : Nat) : State :=
  (s.setChan ch (fun x => { x with tripped := true, moved := true, ref32 := !(s.chan ch).ref32 })).raise .lookoutClockTrip
    (le 1 ch ++ le 1 (ofBool (s.chan ch).ref32))

theorem chan_tripped (s : State) (ch : Nat) : (tripped s ch).chan ch =
    { s.chan ch with tripped := true, moved := true, ref32 := !(s.chan ch).ref32 } := by
  unfold tripped
  rw [chan_congr ((raise_raises _ _ _).toFlags.keeps .lookout (by decide)), chan_setChan_same]

theorem exec_badServe {s : State} {ch : Fin 5} (pc : Word) (hc : s.loCounts ch = true) (ho : s.loOver ch = false) :
    exec (.badServe ch pc) s = .next (if (s.chan ch).state = .warning then (counted s ch).loReset ch (fun x => { x with badServe := true })
      else (counted s ch).loExpire ch pc.toNat false) :=
  congrArg Host.Outcome.next (loWrite_counts hc ho)

/-- Settles O52: serves, warnings and resets, each by what it leaves of its channel. -/
theorem channelsWarnThenReset : Obligations.ChannelsWarnThenReset := by
  unfold Obligations.ChannelsWarnThenReset
  refine ⟨fun s ch hc ho => ?_, fun s ch hc ho => ?_, fun s ch hc ho hs => ⟨fun hst => ?_, fun hst htest => ?_⟩,
    fun s ch pc c test hc hs hcmd => ?_, fun s ch pc c x hc hst hcmd => ?_, fun s ch pc hc hst hstall htest hs => ?_, fun s ch hch hm => ⟨?_, ?_⟩⟩
  · exact congrArg Host.Outcome.next ((if_neg (by simp [ho])).trans (if_pos hc))
  · have hgo : exec (.lookoutServe ch) s = .next (s.loServe ch) :=
      congrArg Host.Outcome.next ((if_neg (by simp [ho])).trans (loWrite_counts hc ho))
    obtain ⟨r, hr⟩ := chan_loServe s ch
    refine ⟨_, hgo, ?_⟩
    beta_reduce
    rw [hr]
    exact ⟨rfl, rfl, rfl, rfl, warnInt_loClear _ ch, fun c hne => chan_loServe_other s hne⟩
  · have hclose : s.useFree.loClose ch (s.freeNat 32) = s.useFree.loExpire ch (s.freeNat 32) false := if_pos (.inl hst)
    have hgo := exec_serve_over hc ho
    rw [if_pos (.inl hst), hclose] at hgo
    obtain ⟨⟨r, hr⟩, htime, hrep, -⟩ := loExpire_gives (s := s.useFree) (noneHeld_of_settled hs) ch (s.freeNat 32) false
    generalize s.useFree.loExpire ch (s.freeNat 32) false = u at *
    obtain ⟨q, hq⟩ := chan_loServe u ch
    refine ⟨_, hgo, ?_⟩
    beta_reduce
    rw [hq, hr]
    exact ⟨rfl, htime, rfl, s.freeNat 32, reports_after (u := u.loServe ch) hrep (List.prefix_refl _)⟩
  · have hnot : ¬((s.chan ch).state = .counting ∨ (s.chan ch).test = true) := by simp [hst, htest]
    have hclose : s.useFree.loClose ch (s.freeNat 32) = s.useFree.loReset ch (fun x => { x with expiry := true }) := if_neg hnot
    have hgo := exec_serve_over hc ho
    rw [if_neg hnot, hclose] at hgo
    obtain ⟨h1, -, h3, h4, -⟩ := loReset_gives s.useFree ch (marks_expiry ch)
    exact ⟨_, hgo, h1, loReset_lastServe s.useFree ch (fun _ => rfl), h3, h4⟩
  · have hn := noneHeld_of_settled hs
    rcases hcmd with ⟨hst, rfl, rfl⟩ | ⟨hp, rfl, rfl⟩ | ⟨hst, ho, rfl, rfl⟩
    · exact ⟨_, congrArg Host.Outcome.next (if_pos ⟨hc, hst⟩), loExpire_warns hn ch pc.toNat false⟩
    · exact testWrote_warns pc hc hp hn
    · have hgo := exec_badServe pc hc ho
      rw [if_neg (by simp [hst])] at hgo
      obtain ⟨hlast, hwarns, -⟩ := chan_counted s ch
      exact ⟨_, hgo, warnGives_of (loExpire_warns (s := counted s ch) hn ch pc.toNat false) hlast hwarns (List.prefix_refl s.out) rfl (fun hm => ⟨hm, rfl⟩)⟩
  · rcases hcmd with ⟨rfl, ho, rfl⟩ | ⟨rfl, hstall, htest, rfl⟩
    · have hgo := exec_badServe pc hc ho
      rw [if_pos hst] at hgo
      obtain ⟨h1, h2, h3, hrest⟩ := loReset_gives (counted s ch) ch (marks_badServe ch)
      rw [(chan_counted s ch).2.2] at h3
      exact ⟨_, hgo, h1, h2, h3, hrest⟩
    · have hnot : ¬((s.chan ch).state = .counting ∨ (s.chan ch).test = true) := by simp [hst, htest]
      have hgo : exec (.warningPeriodClose ch pc) s = .next (s.loReset ch (fun x => { x with expiry := true })) :=
        congrArg Host.Outcome.next ((if_pos ⟨hc, hst, hstall⟩).trans (if_neg hnot))
      exact ⟨_, hgo, loReset_gives s ch (marks_expiry ch)⟩
  · have hgo : exec (.warningPeriodClose ch pc) s = .next (s.loExpire ch pc.toNat false) :=
      congrArg Host.Outcome.next ((if_pos ⟨hc, hst, hstall⟩).trans (if_pos (.inr htest)))
    obtain ⟨h1, -, -, h4, h5, -, h7⟩ := loExpire_warns (noneHeld_of_settled hs) ch pc.toNat false
    exact ⟨_, hgo, h1, h5, h4, h7⟩
  · exact ⟨_, congrArg Host.Outcome.next (if_pos ⟨hch, hm⟩), raise_raises _ _ _⟩
  · have hgo : exec (.lookoutClockTrip ch true) s = .next ((tripped s ch).loReset ch (fun x => { x with clockLoss := true })) :=
      congrArg Host.Outcome.next (if_pos ⟨hch, hm⟩)
    have hasked := (chan_loAsked (tripped s ch) ch (fun x => { x with clockLoss := true })).1
    rw [chan_tripped] at hasked
    refine ⟨_, hgo, ?_⟩
    beta_reduce
    rw [chan_loReset, hasked]
    exact ⟨rfl, rfl, rfl, rfl⟩

end Sys2Proof.Proofs
end

section
/-! Crosscut flits (R253, R254, Table 10-7): the scrambler, the check, and what a lane reads. -/
namespace Sys2Proof.Proofs
open Sys2Proof Sys2Proof.Machine Sys2Proof.Laws
set_option Elab.async false -- one thread, within the memory of the check

/-! ### The scrambler (R253) -/

/-- A number whose bits from i on are those of a multiple of 2^i: the low part does not count. -/
theorem bit_add_mul (low q i : Nat) (h : low < 2 ^ i) : bit (low + q * 2 ^ i) i = decide (q % 2 = 1) := by
  unfold bit
  rw [Nat.add_mul_div_right _ _ (Nat.two_pow_pos i), Nat.div_eq_of_lt h, Nat.zero_add]

/-- The scrambled bits from i on are a multiple of 2^i below 2^(i + n). -/
theorem scramble_mul (n x i scr : Nat) : ∃ q, (scramble n x i scr).1 = q * 2 ^ i ∧ q < 2 ^ n := by
  induction n generalizing i scr with
  | zero => exact ⟨0, by simp [scramble], Nat.one_pos⟩
  | succ n ih =>
    obtain ⟨q, hq, hlt⟩ := ih (i + 1) (scrPush scr (bit x i != scrTap scr))
    have hb : ofBool (bit x i != scrTap scr) < 2 := by unfold ofBool; split <;> decide
    refine ⟨ofBool (bit x i != scrTap scr) + 2 * q, ?_, ?_⟩
    · simp only [scramble, hq]
      ring
    · rw [Nat.pow_succ]
      omega

/-- A receiver in step with its sender reads what was scrambled, and stays in step (R253). -/
theorem descramble_scramble (n x i scr low : Nat) (h : low < 2 ^ i) :
    descramble n (low + (scramble n x i scr).1) i scr = (x / 2 ^ i % 2 ^ n * 2 ^ i, (scramble n x i scr).2) := by
  induction n generalizing i scr low with
  | zero => simp [descramble, scramble, Nat.mod_one]
  | succ n ih =>
    set b := bit x i != scrTap scr with hb
    obtain ⟨q, hq, -⟩ := scramble_mul n x (i + 1) (scrPush scr b)
    have hsum : (scramble (n + 1) x i scr).1 = ofBool b * 2 ^ i + (scramble n x (i + 1) (scrPush scr b)).1 := rfl
    have hreg : (scramble (n + 1) x i scr).2 = (scramble n x (i + 1) (scrPush scr b)).2 := rfl
    have hbit : bit (low + (scramble (n + 1) x i scr).1) i = b := by
      have hform : low + (scramble (n + 1) x i scr).1 = low + (ofBool b + 2 * q) * 2 ^ i := by
        rw [hsum, hq]
        ring
      rw [hform, bit_add_mul low _ i h]
      cases b <;> simp [ofBool, Nat.add_mod]
    have hlow : low + ofBool b * 2 ^ i < 2 ^ (i + 1) := by
      have : ofBool b ≤ 1 := by unfold ofBool; split <;> decide
      rw [Nat.pow_succ]
      nlinarith [Nat.two_pow_pos i]
    have hrest := ih (i + 1) (scrPush scr b) (low + ofBool b * 2 ^ i) hlow
    rw [Nat.add_assoc, ← hsum] at hrest
    have hout : (b != scrTap scr) = bit x i := by
      rw [hb]
      cases bit x i <;> cases scrTap scr <;> rfl
    simp only [descramble, hbit, hrest, hreg, hout, Prod.mk.injEq, and_true]
    have hx : ofBool (bit x i) = x / 2 ^ i % 2 := by
      unfold ofBool bit
      have := Nat.mod_two_eq_zero_or_one (x / 2 ^ i)
      split <;> simp_all
    rw [hx, Nat.pow_succ, ← Nat.div_div_eq_div_mul, Nat.pow_succ' (m := 2) (n := n), Nat.mod_mul]
    ring

theorem scramble_lt (n x scr : Nat) : (scramble n x 0 scr).1 < 2 ^ n := by
  obtain ⟨q, hq, hlt⟩ := scramble_mul n x 0 scr
  rw [hq, pow_zero, Nat.mul_one]
  exact hlt

/-! ### The check of a flit -/

theorem crcBit_check (r : Nat) : crcBit (crcCode 0) r < 2 ^ 16 := by
  show (if r / 2 ^ 15 % 2 = 1 then Nat.xor (2 * r) 0x1021 % 2 ^ 16 else 2 * r % 2 ^ 16) < 2 ^ 16
  split
  · exact Nat.mod_lt _ (by decide)
  · exact Nat.mod_lt _ (by decide)

theorem crcRun_check (l : Bytes) {r : Nat} (h : r < 2 ^ 16) : crcRun (crcCode 0) r l < 2 ^ 16 := by
  induction l generalizing r with
  | nil => exact h
  | cons b l ih => exact ih (crcBit_check _)

/-- The check of a flit has 16 bits. -/
theorem flitCheck_lt (payload seq epoch : Nat) : flitCheck payload seq epoch < 2 ^ 16 :=
  Nat.xor_lt_two_pow (crcRun_check _ (by decide)) (by decide)

/-! ### The fields of a flit (Table 10-5) -/

theorem flitOf_fields {m p : Nat} (seq ep : Nat) (hm : m < 2 ^ 16) (hp : p < 2 ^ 256) : bits (flitOf m p seq ep) 0 16 = m ∧
    flitPayload (flitOf m p seq ep) = p ∧ bits (flitOf m p seq ep) 272 16 = flitCheck p seq ep := by
  have hc := flitCheck_lt p seq ep
  unfold flitPayload flitOf bits
  generalize flitCheck p seq ep = c at hc
  refine ⟨?_, ?_, ?_⟩
  · omega
  · omega
  · omega

theorem readEpoch_epochFlit {e : Nat} (peer : Bool) (he : e < 256) : readEpoch (epochFlit e peer) = .epoch e peer := by
  have hb : ofBool peer < 2 := by cases peer <;> decide
  obtain ⟨hm, hp, hc⟩ := flitOf_fields (m := 0xA1D4) (p := e + 256 * ofBool peer) 0 e (by decide) (by omega)
  have he' : bits (e + 256 * ofBool peer) 0 8 = e := by
    unfold bits
    omega
  have hpeer : bit (e + 256 * ofBool peer) 8 = peer := by
    have hdiv : (e + 256 * ofBool peer) / 2 ^ 8 = ofBool peer := by omega
    unfold bit
    rw [hdiv]
    cases peer <;> rfl
  unfold readEpoch epochFlit
  simp only [hm, hp, hc, he', hpeer, and_self, if_true]

theorem read_scrambled {payload seq ep scr : Nat} {l : LaneRx} (hp : payload < 2 ^ 256) (h1 : l.seq = seq) (h2 : l.ep = ep) (h3 : l.scr = scr) :
    l.read (flitOf 0x5E2B (scramble 256 payload 0 scr).1 seq ep) = .data payload (scramble 256 payload 0 scr).2 := by
  obtain ⟨hm, hpay, hc⟩ := flitOf_fields (m := 0x5E2B) seq ep (by decide) (scramble_lt 256 payload scr)
  have hplain := descramble_scramble 256 payload 0 scr 0 Nat.one_pos
  rw [Nat.zero_add, pow_zero, Nat.div_one, Nat.mul_one, Nat.mod_eq_of_lt hp] at hplain
  unfold LaneRx.read
  rw [h1, h2, h3, hm, hpay, hc]
  dsimp only
  rw [if_pos ⟨rfl, rfl⟩, hplain]

end Sys2Proof.Proofs
end

section
/-! Faults and received flits (R231, R249, R252 to R255, Tables 10-1 and 10-7); and O48. -/
namespace Sys2Proof.Proofs
open Sys2Proof Sys2Proof.Machine Sys2Proof.Laws
set_option Elab.async false -- one thread, within the memory of the check

/-! ### The locks of the link directions -/

theorem flitKey_reverse (p : FlitPath) : flitKey (flitReverse p) ≠ flitKey p := by
  cases p with
  | fromEng e => cases e <;> decide
  | toEng e => cases e <;> decide
  | mirrorTo e => cases e <;> decide

theorem lockOf_congr {s t : State} (h : t.pair.locks = s.pair.locks) (p : FlitPath) : t.lockOf p = s.lockOf p :=
  congrArg (fun l => Tbl.get (fun _ => LockSt.init) l (flitKey p)) h

theorem lockOf_setLockOf_same (s : State) (p : FlitPath) (f : LockSt → LockSt) : (s.setLockOf p f).lockOf p = f (s.lockOf p) :=
  get_modify_same (d := fun _ => LockSt.init) s.pair.locks (flitKey p) f

theorem lockOf_setLockOf_other (s : State) {p q : FlitPath} (f : LockSt → LockSt) (h : flitKey q ≠ flitKey p) :
    (s.setLockOf p f).lockOf q = s.lockOf q :=
  get_modify_other (d := fun _ => LockSt.init) s.pair.locks f h

theorem lane_setLane_same (l : LockSt) (i : Nat) (x : LaneRx) : (l.setLane i x).lane i = x := get_put_same _ _ _

/-- From `s` to `t` nothing of the pair has changed but the lock of one link direction. -/
def LockOnly (p : FlitPath) (s t : State) : Prop :=
  (∃ l, t.pair = { s.pair with locks := l }) ∧ ∀ q, flitKey q ≠ flitKey p → t.lockOf q = s.lockOf q

theorem lockOnly_of_pair {p : FlitPath} {s t : State} (h : t.pair = s.pair) : LockOnly p s t :=
  ⟨⟨s.pair.locks, h⟩, fun q _ => lockOf_congr (congrArg PairSt.locks h) q⟩

theorem lockOnly_refl (p : FlitPath) (s : State) : LockOnly p s s := lockOnly_of_pair rfl

theorem lockOnly_trans {p : FlitPath} {s t u : State} (h : LockOnly p s t) (k : LockOnly p t u) : LockOnly p s u := by
  obtain ⟨⟨l, hl⟩, hq⟩ := h
  obtain ⟨⟨m, hm⟩, hr⟩ := k
  exact ⟨⟨m, by rw [hm, hl]⟩, fun q hne => (hr q hne).trans (hq q hne)⟩

theorem lockOnly_setLockOf (s : State) (p : FlitPath) (f : LockSt → LockSt) : LockOnly p s (s.setLockOf p f) :=
  ⟨⟨_, rfl⟩, fun _ h => lockOf_setLockOf_other s f h⟩

theorem lockOnly_sendMode (s : State) (p : FlitPath) : LockOnly p s (s.sendMode p) := by
  unfold State.sendMode
  dsimp only
  split
  · exact lockOnly_refl p s
  · split
    · exact lockOnly_setLockOf s p _
    · exact lockOnly_setLockOf s p _

theorem lockOnly_sendOn (s : State) (p : FlitPath) (lane core : Nat) : LockOnly p s (s.sendOn p lane core).1 := by
  unfold State.sendOn
  dsimp only
  split
  · exact lockOnly_refl p s
  · exact lockOnly_setLockOf s p _

theorem lockOnly_sendFlit (s : State) (p : FlitPath) (lane : Nat) : LockOnly p s (s.sendFlit p lane) := by
  unfold State.sendFlit
  exact lockOnly_trans (lockOnly_sendMode s p) (lockOnly_trans (lockOnly_sendOn _ p lane _) (lockOnly_of_pair rfl))

theorem lane_lost (l : LockSt) {n i : Nat} (h : i < n) : ((l.lost n).lane i).st = .search := by
  have hfold (is : List Nat) (t : List (Nat × LaneRx)) (hi : i ∈ is ∨ (Tbl.get (fun _ => LaneRx.init) t i).st = .search) :
      (Tbl.get (fun _ => LaneRx.init) (is.foldl (fun t i => Tbl.modify (fun _ => LaneRx.init) t i
        (fun x => { x with st := .search, run := 0, bads := 0 })) t) i).st = .search := by
    induction is generalizing t with
    | nil => exact hi.resolve_left List.not_mem_nil
    | cons j is ih =>
      refine ih _ ?_
      by_cases hj : i = j
      · right
        rw [hj, get_modify_same]
      · rw [get_modify_other _ _ hj]
        exact hi.imp_left (fun hm => (List.mem_cons.mp hm).resolve_left hj)
  exact hfold (List.range n) l.rx (.inl (List.mem_range.mpr h))

theorem locked_lost (l : LockSt) {n : Nat} (h : 0 < n) : (l.lost n).locked n = false := by
  refine Bool.eq_false_iff.mpr fun hall => ?_
  have hone := List.all_eq_true.mp hall 0 (List.mem_range.mpr h)
  simp [lane_lost l h] at hone

/-! ### What a fault rests on -/

/-- An engine acts as long as the pair, its clock and the power mode say so. -/
theorem acting_of {s u : State} {e : Eng} (h : Acting e s) (hst : ∀ g, (u.eng g).state = (s.eng g).state) (hact : u.active = s.active)
    (hf : u.pair.fenced = s.pair.fenced) (hv : u.pair.verdict = s.pair.verdict) (hd : u.pair.diverged = s.pair.diverged)
    (hh : u.pair.handover = s.pair.handover) (ht : u.time = s.time) (hp : u.power = s.power) : Acting e u := by
  unfold Acting State.divergedLate State.isolated at *
  rw [hst, hst, hact, hf, hv, hd, hh, ht, hp]
  exact h

theorem eng_lockOnly {p : FlitPath} {s t : State} (h : LockOnly p s t) (e : Eng) : t.eng e = s.eng e := by
  obtain ⟨⟨l, hl⟩, -⟩ := h
  rw [eng_eq, hl]
  cases e <;> rfl

theorem acting_lockOnly {p : FlitPath} {s u : State} {e : Eng} (h : Acting e s) (hl : LockOnly p s u) (ht : u.time = s.time)
    (hp : u.power = s.power) : Acting e u := by
  have heng := eng_lockOnly hl
  obtain ⟨⟨l, hl⟩, -⟩ := hl
  refine acting_of h (fun g => by rw [heng g]) ?_ (by rw [hl]) (by rw [hl]) (by rw [hl]) (by rw [hl]) ht hp
  unfold State.active
  rw [hl]

theorem locks_holdWords (s : State) : s.holdWords.pair.locks = s.pair.locks := rfl

theorem locks_handoverFirst (s : State) (swap : Bool) : (handoverFirst s swap).pair.locks = s.pair.locks := by
  unfold handoverFirst
  split
  · split
    · rw [pair_warmStart]
    · rw [locks_holdWords, pair_cut, pair_warmStart]
  · rfl

/-- The start of a hand-over leaves the locks. -/
theorem locks_startHandover (s : State) (e : Eng) (cause : Nat) (swap : Bool) : (s.startHandover e cause swap).pair.locks = s.pair.locks := by
  have hfirst := locks_handoverFirst s swap
  have hwith (p : PairSt) (g : EngSt) : (withEng p e g).locks = p.locks := by cases e <;> rfl
  have hlow : ((handoverFirst s swap).lowerAct (handoverOf s e cause swap false)).pair.locks = s.pair.locks := by
    rw [pair_lowerAct]
    exact (hwith _ _).trans hfirst
  rw [startHandover_eq]
  split
  · rw [pair_deferCommit]
    exact hfirst
  · rw [pair_deferCommit]
    split
    · rw [pair_setEng, hwith, hlow]
    · obtain ⟨g, hg, -⟩ := pair_failEngine ((handoverFirst s swap).lowerAct (handoverOf s e cause swap false)) e cause
      rw [hg, hwith, hlow]

/-! ### The pair settles unpaired -/

/-- What settles while the sled is not paired leaves the acting part: no swap is due to it. -/
theorem acts_pairSettled_unpaired {s : State} (h : s.paired = false) : s.pairSettled.pair.acts = s.pair.acts := by
  have hd : Does 0x1f777f83 s (s.released.releaseCommit.resumeEntry) :=
    does_resumeEntry (by decide) (does_releaseCommit (by decide) (does_released (by decide) (does_refl _ s)))
  have hacts : s.released.releaseCommit.resumeEntry.pair.acts = s.pair.acts := hd.keeps .acts (by decide)
  have hpaired : s.released.releaseCommit.resumeEntry.paired = s.paired := by
    have ha : (s.released.releaseCommit.resumeEntry).pair.a.state = s.pair.a.state := congrArg Acts.stA hacts
    have hb : (s.released.releaseCommit.resumeEntry).pair.b.state = s.pair.b.state := congrArg Acts.stB hacts
    have hf : (s.released.releaseCommit.resumeEntry).pair.fenced = s.pair.fenced := congrArg Acts.fenc hacts
    unfold State.paired EngSt.healthy
    rw [ha, hb, hf]
  unfold State.pairSettled
  split
  · rfl
  · rw [State.dueSwap, if_neg (by rw [hpaired, h]; simp)]
    exact hacts

theorem did_pairSettled (s : State) : Does 0x1f7f7f83 s s.pairSettled := does_pairSettled (by decide) (does_refl _ s)

theorem engState_acts {s t : State} (h : t.pair.acts = s.pair.acts) (e : Eng) : (t.eng e).state = (s.eng e).state ∧ (t.eng e).act = (s.eng e).act := by
  cases e with
  | a => exact ⟨congrArg Acts.stA h, congrArg Acts.actA h⟩
  | b => exact ⟨congrArg Acts.stB h, congrArg Acts.actB h⟩

theorem unpaired_of {s : State} {e : Eng} {cause : Nat} (h : OutOfService cause (s.eng e)) : s.paired = false := by
  have hnot : (s.eng e).healthy = false := by
    obtain ⟨-, -, hst⟩ := h
    unfold EngSt.healthy
    rcases hst with h | h | h <;> rw [h] <;> decide
  unfold State.paired
  cases e with
  | a => rw [show s.pair.a.healthy = false from hnot]; rfl
  | b => rw [show s.pair.b.healthy = false from hnot]; simp

/-! ### A fault of the standby, and of an engine alone (Table 10-1) -/

/-- What the failure of the standby leaves, before the pair settles. -/
def soloed (s : State) (e : Eng) (cause : Nat) : State :=
  (((s.onPair (fun p => { p with ready := false })).failEngine e cause).raise .soloEntered []).announce 2 cause

theorem faultAlone_standby {s : State} {e : Eng} (cause : Nat) (h : (s.eng e).state = .standby) : s.faultAlone e cause = soloed s e cause := by
  unfold State.faultAlone
  rw [h]
  rfl

theorem soloed_gives (s : State) (e : Eng) (cause : Nat) : OutOfService cause ((soloed s e cause).eng e) ∧
    (soloed s e cause).pair.fenced = s.pair.fenced ∧
    Reports .engineFailed (le 1 (engCode e) ++ le 1 cause) s (soloed s e cause) ∧ Reports .soloEntered [] s (soloed s e cause) := by
  obtain ⟨g, hg, hout⟩ := pair_failEngine (s.onPair (fun p => { p with ready := false })) e cause
  have hpair : (soloed s e cause).pair = withEng (s.onPair (fun p => { p with ready := false })).pair e g := by
    rw [soloed, pair_announce, pair_raise, hg]
  have hfail := reports_failEngine (s.onPair (fun p => { p with ready := false })) e cause
  have hdid := did_failEngine (s.onPair (fun p => { p with ready := false })) e cause
  have hann (v : State) : Does 0x1000000 v (v.announce 2 cause) := does_announce (by decide) (does_refl _ v)
  have hrep1 : Reports .engineFailed (le 1 (engCode e) ++ le 1 cause) s (soloed s e cause) :=
    reports_after (reports_before (List.prefix_refl s.out) hfail) ((out_raise _ _ _).trans (hann _).out)
  have hrep2 : Reports .soloEntered [] s (soloed s e cause) :=
    reports_after (reports_before ((List.prefix_refl s.out).trans hdid.out) (reports_raise _ _ _)) (hann _).out
  rw [eng_eq, hpair, engIn_withEng_same]
  exact ⟨hout, (withEng_fields _ _ _).2.2.2.1, hrep1, hrep2⟩

/-- The fault of an Active engine that no Standby can stand in for fences the sled. -/
theorem fault_fences {s : State} {e : Eng} (cause : Nat) (hf : s.pair.fenced = false) :
    FencedBy cause s ((s.failEngine e cause).fence cause).pairSettled := by
  obtain ⟨g, hg, -⟩ := pair_failEngine s e cause
  have hfenced : (s.failEngine e cause).pair.fenced = false := by
    rw [hg, (withEng_fields _ _ _).2.2.2.1]
    exact hf
  obtain ⟨hby, hnone, hres⟩ := fence_fencedBy hfenced cause
  obtain ⟨⟨h1, h2, h3, h4, h5, h6, h7, hrep⟩, -⟩ := fencedBy_settled hby hnone hres
  exact ⟨h1, h2, h3, h4, h5, h6, h7, reports_before (did_failEngine s e cause).out hrep⟩

/-! ### The fourth bad flit in a row (Table 10-7) -/

theorem exec_flitReceived {s : State} {p : FlitPath} {lane : Fin 12} (w : BitVec 288) (hi : s.isolated = false) (hl : lane.val < flitLanes p) :
    exec (.flitReceived p lane w) s = .next ((s.flitIn p lane w.toNat).sendFlit (flitReverse p) lane).pairSettled :=
  congrArg Host.Outcome.next (if_neg (by simp [hi, Nat.not_le.mpr hl]))

/-- A bad flit is counted, and its lane takes it. -/
def badCounted (s : State) (p : FlitPath) (lane : Nat) (x : LaneRx) : State :=
  (s.count (flitBad p) 0).setLockOf p (fun l => l.setLane lane x.missed)

/-- The direction's lock is lost, counted and reported. -/
def lockLost (s : State) (p : FlitPath) : State :=
  ((s.setLockOf p (fun l => l.lost (flitLanes p))).count (flitLoss p) 0).raise .linkLockLost (le 1 (flitLink p) ++ le 1 (flitDir p))

theorem pair_count (s : State) (c : Ctr) (obj : Nat) : (s.count c obj).pair = s.pair := (flags_count c obj (flags_refl s)).keeps .pair (by decide)

theorem lockOnly_badCounted (s : State) (p : FlitPath) (lane : Nat) (x : LaneRx) : LockOnly p s (badCounted s p lane x) :=
  lockOnly_trans (lockOnly_of_pair (pair_count s _ _)) (lockOnly_setLockOf _ p _)

theorem pair_lockLost (s : State) (p : FlitPath) : (lockLost s p).pair = (s.setLockOf p (fun l => l.lost (flitLanes p))).pair := by
  rw [lockLost, pair_raise, pair_count]

theorem lockOnly_lockLost (s : State) (p : FlitPath) : LockOnly p s (lockLost s p) :=
  lockOnly_trans (lockOnly_setLockOf s p _) (lockOnly_of_pair (pair_lockLost s p))

theorem lockedDir_lockLost (s : State) (p : FlitPath) : (lockLost s p).lockedDir p = false := by
  have hpos : 0 < flitLanes p := by cases p <;> exact Nat.succ_pos _
  unfold State.lockedDir
  rw [lockOf_congr (congrArg PairSt.locks (pair_lockLost s p)), lockOf_setLockOf_same]
  exact locked_lost _ hpos

theorem did_badCounted (s : State) (p : FlitPath) (lane : Nat) (x : LaneRx) : Does 0xe260082 s (badCounted s p lane x) :=
  does_setLockOf (by decide) (does_count (by decide) (does_refl _ s))

theorem did_lockLost (s : State) (p : FlitPath) : Does 0xe260082 s (lockLost s p) :=
  does_raise (by decide) (does_count (by decide) (does_setLockOf (by decide) (does_refl _ s)))

theorem reports_lockLost (s : State) (p : FlitPath) : Reports .linkLockLost (le 1 (flitLink p) ++ le 1 (flitDir p)) s (lockLost s p) :=
  reports_before (does_count (M := 0xe260082) (by decide) (does_setLockOf (by decide) (does_refl _ s))).out (reports_raise _ _ _)

theorem flitOn_locked (s : State) (p : FlitPath) (lane cur : Nat) {x : LaneRx} (h : x.st = .locked) :
    s.flitOn p lane cur x = s.flitLocked p lane (x.flit cur) { x with prev := cur } := by
  unfold State.flitOn
  split
  · rfl
  · next hn => exact absurd h hn

theorem flitOn_train (s : State) (p : FlitPath) (lane cur : Nat) {x : LaneRx} (h : x.st ≠ .locked) :
    s.flitOn p lane cur x = s.setLockOf p (fun l => l.setLane lane (x.train cur)) := by
  unfold State.flitOn
  split
  · next hn => exact absurd hn h
  · rfl

theorem flitLocked_bad (s : State) (p : FlitPath) (lane : Nat) {raw : Nat} {x : LaneRx} (h : x.read raw = .bad) :
    s.flitLocked p lane raw x = s.badFlit p lane x := by
  unfold State.flitLocked
  rw [h]

theorem flitLocked_good (s : State) (p : FlitPath) (lane : Nat) {raw : Nat} {x : LaneRx} (h : x.read raw ≠ .bad) :
    s.flitLocked p lane raw x = s.goodFlit p lane raw x (x.read raw) := by
  unfold State.flitLocked
  split
  · next hb => exact absurd hb h
  · rfl

theorem badFlit_lost (s : State) (p : FlitPath) (lane : Nat) {x : LaneRx} (hd : s.lockedDir p = true) (hb : 3 ≤ x.bads) :
    s.badFlit p lane x = (lockLost (badCounted s p lane x) p).flitLost p true := by
  unfold State.badFlit
  dsimp only
  rw [if_neg (by omega), if_pos hd]
  rfl

/-- A flit on a lane of a direction that is Locked, bad as the three before it. -/
theorem flitIn_lost {s : State} {p : FlitPath} {lane cur : Nat} {x : LaneRx} (hl : lane < flitLanes p) (hd : s.lockedDir p = true)
    (hx : (s.lockOf p).lane lane = x) (hr : ({ x with prev := cur } : LaneRx).read (x.flit cur) = .bad) (hb : 3 ≤ x.bads) :
    s.flitIn p lane cur = (lockLost (badCounted s p lane { x with prev := cur }) p).flitLost p true := by
  have hst : x.st = .locked := by
    have hone := List.all_eq_true.mp hd lane (List.mem_range.mpr hl)
    rw [hx] at hone
    simp only [Bool.and_eq_true, decide_eq_true_eq] at hone
    exact hone.1
  unfold State.flitIn
  rw [hx, flitOn_locked _ _ _ _ hst, flitLocked_bad _ _ _ hr, badFlit_lost _ _ _ hd (show 3 ≤ ({ x with prev := cur } : LaneRx).bads from hb)]

theorem codesKept_lockLost (s : State) (e : Eng) : CodesKept [.evrLost, flitLoss (.toEng e)] s (lockLost s (.toEng e)) := by
  have hcount := codesKept_countN (l := [.evrLost, flitLoss (.toEng e)]) (s.setLockOf (.toEng e) (fun l => l.lost (flitLanes (.toEng e))))
    (flitLoss (.toEng e)) (cls := 0) (obj := 0) 1 (by decide) (by decide) (by simp) (by simp) (by cases e <;> decide)
  exact codesKept_trans (codesKept_trans (codesKept_does (does_setLockOf (by decide) (does_refl 0x40000 s))) hcount)
    (codesKept_raise _ _ _ (by simp))

/-- A hand-over begun in the J-cycle's flit, before the other direction sends its own. -/
theorem handsOver_sent {s t : State} {e : Eng} {cause : Nat} (h : HandsOver e cause false s t) (p : FlitPath) (lane : Nat) :
    HandsOver e cause false s (t.sendFlit p lane) := by
  have hlock := lockOnly_sendFlit t p lane
  have hout : t.out <+: (t.sendFlit p lane).out := (does_sendFlit (M := 0x18040000) (by decide) (does_refl _ t)).out
  have heng := eng_lockOnly hlock
  obtain ⟨⟨l, hl⟩, -⟩ := hlock
  unfold HandsOver at h ⊢
  simp only [Bool.and_false, Bool.false_and, Bool.not_false, Bool.false_eq_true, if_false] at h ⊢
  obtain ⟨hhand, hact, hst, hsw, hfail⟩ := h
  rw [heng, hl]
  exact ⟨hhand, hact, hst, hsw, fun hs => ⟨(hfail hs).1, reports_after (hfail hs).2 hout⟩⟩

/-- The statement's clause on the fourth bad flit. -/
theorem flitLost_handsOver {s : State} {e : Eng} (ha : Acting e s) (lane : Fin 12) (w : BitVec 288) {x : LaneRx}
    (hx : (s.lockOf (.toEng e)).lane lane = x) (hd : s.lockedDir (.toEng e) = true)
    (hr : ({ x with prev := w.toNat } : LaneRx).read (x.flit w.toNat) = .bad) (hb : 3 ≤ x.bads) :
    Gives (.flitReceived (.toEng e) lane w) s (fun t => HandsOver e 4 false s t ∧ t.lockedDir (.toEng e) = false ∧
      (s.pair.warm = false → Counted (flitBad (.toEng e)) 0 0 1 s t ∧ Counted (flitLoss (.toEng e)) 0 0 1 s t) ∧
      Reports .linkLockLost (le 1 (engCode e) ++ le 1 1) s t) := by
  have hiso : s.isolated = false := by
    obtain ⟨-, -, -, -, -, -, -, hi⟩ := ha
    exact hi
  have hgo := exec_flitReceived (p := .toEng e) w hiso lane.isLt
  rw [flitIn_lost (p := .toEng e) lane.isLt hd hx hr hb] at hgo
  set b := badCounted s (.toEng e) lane { x with prev := w.toNat } with hbdef
  have hbad : Does 0xe260082 s b := did_badCounted s _ _ _
  have hlost := did_lockLost b (.toEng e)
  have hlock : LockOnly (.toEng e) s (lockLost b (.toEng e)) := lockOnly_trans (lockOnly_badCounted s _ _ _) (lockOnly_lockLost b _)
  have hdown := lockedDir_lockLost b (.toEng e)
  have hkept := codesKept_lockLost b e
  have hrep : Reports .linkLockLost (le 1 (engCode e) ++ le 1 1) s (lockLost b (.toEng e)) := by
    have h := reports_before hbad.out (reports_lockLost b (.toEng e))
    cases e <;> exact h
  have hboth : Does 0xe260082 s (lockLost b (.toEng e)) := does_trans hbad hlost
  have hcount : Counted (flitBad (.toEng e)) 0 0 1 s b :=
    counted_mid (l := [.evrLost]) (by decide) (by decide) (codesKept_refl _ s) (counted_countN s _ 1 (by decide) (by decide) (by cases e <;> decide))
      (codesKept_does (does_setLockOf (by decide) (does_refl 0x40000 _))) (by cases e <;> decide)
  have hloss : Counted (flitLoss (.toEng e)) 0 0 1 b (lockLost b (.toEng e)) :=
    counted_mid (l := [.evrLost]) (by decide) (by decide) (codesKept_does (does_setLockOf (by decide) (does_refl 0x40000 b)))
      (counted_countN _ _ 1 (by decide) (by decide) (by cases e <;> decide)) (codesKept_raise _ _ _) (by cases e <;> decide)
  have hbkept : CodesKept [.evrLost, flitBad (.toEng e)] s b :=
    codesKept_trans (codesKept_countN s _ 1 (by decide) (by decide) (by simp) (by simp) (by cases e <;> decide))
      (codesKept_does (does_setLockOf (by decide) (does_refl 0x40000 _)))
  generalize lockLost b (.toEng e) = u at *
  have hwarm : u.pair.warm = s.pair.warm := by
    obtain ⟨⟨l, hl⟩, -⟩ := hlock
    rw [hl]
  obtain ⟨hover, -, hcodes⟩ := fault_handsOver (s := s) (acting_lockOnly ha hlock (hboth.keeps .time (by decide)) (hboth.keeps .power (by decide))) 4
    hwarm (hboth.keeps .time (by decide)) hboth.out
  have hlocks : (u.engineFault e 4).pair.locks = u.pair.locks := by
    rw [engineFault_acting (acting_lockOnly ha hlock (hboth.keeps .time (by decide)) (hboth.keeps .power (by decide)))]
    exact locks_startHandover (explained u) e 4 false
  have hfault : Does 0x1f2e7fb3 u (u.engineFault e 4) := does_engineFault (by decide) (does_refl _ u)
  change exec _ s = .next ((u.engineFault e 4).sendFlit (flitReverse (.toEng e)) lane).pairSettled at hgo
  generalize u.engineFault e 4 = v at *
  have hsent := handsOver_sent hover (flitReverse (.toEng e)) lane
  have hsend : Does 0x18040000 v (v.sendFlit (flitReverse (.toEng e)) lane) := does_sendFlit (by decide) (does_refl _ v)
  have hother := (lockOnly_sendFlit v (flitReverse (.toEng e)) lane).2 (.toEng e) (flitKey_reverse (.toEng e)).symm
  rw [pairSettled_transition (transition_handover hsent.1)] at hgo
  refine ⟨_, hgo, hsent, ?_, fun hcold => ?_, reports_after (reports_after hrep hfault.out) hsend.out⟩
  · unfold State.lockedDir at hdown ⊢
    rw [hother, lockOf_congr hlocks]
    exact hdown
  · have hlast : CodesKept [.evrLost] u (v.sendFlit (flitReverse (.toEng e)) lane) :=
      codesKept_trans (hcodes (hwarm.trans hcold)) (codesKept_does hsend)
    exact ⟨counted_mid (l := [.evrLost, flitLoss (.toEng e)]) (by decide) (by decide) (codesKept_refl _ s) hcount
        (codesKept_trans hkept (codesKept_mono hlast (by simp))) (by cases e <;> decide),
      counted_mid (l := [.evrLost, flitBad (.toEng e)]) (by decide) (by decide) hbkept hloss
        (codesKept_mono hlast (by simp)) (by cases e <;> decide)⟩

/-! ### Where nothing waits, a flit changes its lane alone -/

theorem settled_lockOnly {p : FlitPath} {s t : State} (h : Settled s) (hl : LockOnly p s t) (hp : t.power = s.power) : Settled t := by
  obtain ⟨⟨l, hl⟩, -⟩ := hl
  unfold Settled at *
  rw [hl, hp]
  exact h

/-- Settling where nothing waits leaves the locks. -/
theorem locks_pairSettled {s : State} (h : Settled s) : s.pairSettled.pair.locks = s.pair.locks := by
  by_cases ht : s.transition = true
  · rw [pairSettled_transition ht]
  · have hrel := released_none (noneHeld_of_settled h)
    have hpair : s.released.releaseCommit.pair = s.released.pair := pair_of_does (does_releaseCommit (by decide) (does_refl 0x1 _))
    rw [pairSettled_settled h (Bool.eq_false_iff.mpr ht), hpair, hrel]
    split
    · rfl
    · rfl

/-- The lane of a direction, after its flit has been taken, through the rest of FLIT_RECEIVED. -/
theorem lane_received {s u : State} {p : FlitPath} {lane : Fin 12} {w : BitVec 288} {y : LaneRx} (hi : s.isolated = false)
    (hl : lane.val < flitLanes p) (hs : Settled u) (hin : s.flitIn p lane w.toNat = u) (hy : (u.lockOf p).lane lane = y) :
    Gives (.flitReceived p lane w) s (fun t => (t.lockOf p).lane lane = y) := by
  have hgo := exec_flitReceived w hi hl
  rw [hin] at hgo
  have hsend : Does 0x18040000 u (u.sendFlit (flitReverse p) lane) := does_sendFlit (by decide) (does_refl _ u)
  have hlock := lockOnly_sendFlit u (flitReverse p) lane
  refine ⟨_, hgo, ?_⟩
  beta_reduce
  rw [lockOf_congr (locks_pairSettled (settled_lockOnly hs hlock (hsend.keeps .power (by decide)))),
    hlock.2 p (flitKey_reverse p).symm]
  exact hy

theorem locks_present (s : State) (e : Eng) (lane raw w : Nat) : (s.present_ e lane raw w).pair.locks = s.pair.locks := by
  unfold State.present_
  split
  · split <;> rfl
  · cases e <;> rfl

theorem settled_present {s : State} (h : Settled s) (e : Eng) (lane raw w : Nat) : Settled (s.present_ e lane raw w) := by
  unfold State.present_
  split
  · split
    · exact h
    · exact h
  · cases e
    · exact h
    · exact h

/-- A good flit leaves its lane as its flit says. -/
theorem goodFlit_gives {s : State} (h : Settled s) (p : FlitPath) (lane raw : Nat) (x : LaneRx) (d : FlitIn) :
    Settled (s.goodFlit p lane raw x d) ∧ ((s.goodFlit p lane raw x d).lockOf p).lane lane = x.good d := by
  have hset (peer : Bool) : Settled (s.setLockOf p (fun l => { (l.setLane lane (x.good d)) with peer := peer })) ∧
      ((s.setLockOf p (fun l => { (l.setLane lane (x.good d)) with peer := peer })).lockOf p).lane lane = x.good d := by
    rw [lockOf_setLockOf_same]
    exact ⟨h, lane_setLane_same _ _ _⟩
  unfold State.goodFlit
  extract_lets peer s1
  have hset : Settled s1 ∧ (s1.lockOf p).lane lane = x.good d := hset peer
  generalize s1 = u at hset
  split
  · split
    · rw [lockOf_congr (locks_present u _ _ _ _)]
      exact ⟨settled_present hset.1 _ _ _ _, hset.2⟩
    · exact hset
  · exact hset

/-! ### The self-test -/

/-- A self-test cycle is counted and recorded. -/
def bistDone (s : State) (e : Eng) (pass : Bool) (ecc : BitVec 16) : State :=
  (s.count .bistCycles 0).setEng e (fun g => { g with ecc := ecc.toNat, bistS := if pass then s.time.now / uSec % 2 ^ 32 else g.bistS,
                                                      bistAt := s.time.elapsed, bistDur := s.time.elapsed - g.bistAt })

theorem exec_bistCycleDone {s : State} {e : Eng} (pass : Bool) (ecc : BitVec 16) (h : s.bistRuns e = true) : exec (.bistCycleDone e pass ecc) s =
    .next (if pass then bistDone s e pass ecc else ((bistDone s e pass ecc).engineFault e 8).pairSettled) :=
  congrArg Host.Outcome.next (if_pos h)

theorem counted_bistDone (s : State) (e : Eng) (pass : Bool) (ecc : BitVec 16) : Counted .bistCycles 0 0 1 s (bistDone s e pass ecc) :=
  counted_mid (l := [.evrLost]) (by decide) (by decide) (codesKept_refl _ s) (counted_countN s _ 1 (by decide) (by decide))
    (codesKept_does (does_setEng (by decide) (does_refl 0xc0000 _)))

/-- A record of an engine's that leaves its state and its ACT line leaves the acting part. -/
theorem does_setEng_record {m : Nat} {s₀ s : State} {e : Eng} {f : EngSt → EngSt} (hm : Sub 0x40000 m)
    (hst : (f (s.eng e)).state = (s.eng e).state) (hact : (f (s.eng e)).act = (s.eng e).act) (h : Does m s₀ s) : Does m s₀ (s.setEng e f) := by
  refine does_onPair hm ?_ h
  cases e with
  | a =>
    unfold PairSt.acts
    exact congrArg₂ (fun x y => { s.pair.acts with stA := x, actA := y }) hst hact
  | b =>
    unfold PairSt.acts
    exact congrArg₂ (fun x y => { s.pair.acts with stB := x, actB := y }) hst hact

theorem did_bistDone (s : State) (e : Eng) (pass : Bool) (ecc : BitVec 16) :
    Does (partMask (flagParts ++ [.pair])) s (bistDone s e pass ecc) := by
  exact does_setEng_record (by decide) rfl rfl (does_count (by decide) (does_refl _ s))

/-- The record of a cycle leaves what the pair acts by. -/
theorem acts_bistDone (s : State) (e : Eng) (pass : Bool) (ecc : BitVec 16) : (bistDone s e pass ecc).pair.acts = s.pair.acts := by
  have hpair := pair_count s .bistCycles 0
  rw [bistDone, pair_setEng, eng_eq, hpair]
  cases e <;> rfl

theorem pair_bistDone (s : State) (e : Eng) (pass : Bool) (ecc : BitVec 16) : ∃ g, (bistDone s e pass ecc).pair = withEng s.pair e g ∧
    g = { s.eng e with ecc := ecc.toNat, bistS := if pass then s.time.now / uSec % 2 ^ 32 else (s.eng e).bistS,
                       bistAt := s.time.elapsed, bistDur := s.time.elapsed - (s.eng e).bistAt } := by
  have hpair := pair_count s .bistCycles 0
  refine ⟨_, ?_, rfl⟩
  rw [bistDone, pair_setEng, eng_eq, eng_eq, hpair]

/-- In an engine that acts, the failed cycle can only be one in lockstep. -/
theorem cold_of_bistRuns {s : State} {e : Eng} (h : s.bistRuns e = true) (ha : (s.eng e).state = .active) : s.pair.warm = false := by
  unfold State.bistRuns at h
  cases hw : s.pair.warm with
  | false => rfl
  | true => simp [hw, ha] at h

/-- Settles O48: each fault by the state of its engine, and each flit by what its lane reads. -/
theorem faultsHandOverOrFence : Obligations.FaultsHandOverOrFence := by
  unfold Obligations.FaultsHandOverOrFence
  refine ⟨fun s e ha => ⟨?_, ?_, fun ecc hb => ?_, fun lane w hd hr hb => flitLost_handsOver ha lane w rfl hd hr hb, ?_⟩,
    fun s e hf hv hd hh hi ha hs => ?_, fun s e hf hv hq => ?_, fun s hc hf => ?_, fun s e ecc hb => ?_,
    fun payload seq ep scr l hp h1 h2 h3 => read_scrambled hp h1 h2 h3, fun e peer he => readEpoch_epochFlit peer he,
    fun s p lane w hi hl hs => ⟨fun hst => ?_, fun d hst hr hd => ?_⟩⟩
  · obtain ⟨hover, hsettled, -⟩ := fault_handsOver (s := s) ha 1 rfl rfl (List.prefix_refl _)
    exact ⟨_, congrArg Host.Outcome.next hsettled, hover⟩
  · have hflags := flags_count .heartbeatMiss 0 (flags_refl s)
    have hbeats : s.beats e = true := by
      obtain ⟨hst, -, -, hf, -, -, -, hi⟩ := ha
      simp [State.beats, hi, hf, EngSt.healthy, hst]
    have hgo : exec (.heartbeatMiss e) s = .next ((s.count .heartbeatMiss 0).engineFault e 3).pairSettled := congrArg Host.Outcome.next (if_pos hbeats)
    have hcount : Counted .heartbeatMiss 0 0 1 s (s.count .heartbeatMiss 0) := counted_countN s _ 1 (by decide) (by decide)
    have hact := acting_congr ha (hflags.keeps .pair (by decide)) (hflags.keeps .time (by decide)) (hflags.keeps .power (by decide))
    have hwarm : (s.count .heartbeatMiss 0).pair.warm = s.pair.warm := congrArg PairSt.warm (pair_count s _ _)
    obtain ⟨hover, hsettled, hcodes⟩ := fault_handsOver (s := s) hact 3 hwarm (hflags.keeps .time (by decide)) (out_of_flags hflags)
    rw [hsettled] at hgo
    exact ⟨_, hgo, hover, fun hcold => counted_mid (l := [.evrLost]) (by decide) (by decide) (codesKept_refl _ s) hcount (hcodes (hwarm.trans hcold))⟩
  · have hacts := acts_bistDone s e false ecc
    have hd : Does 0xe2e0082 s (bistDone s e false ecc) := does_setEng (by decide) (does_count (by decide) (does_refl _ s))
    have hgo := exec_bistCycleDone false ecc hb
    rw [if_neg Bool.false_ne_true] at hgo
    have hcold := cold_of_bistRuns hb ha.1
    obtain ⟨g, hg, -⟩ := pair_bistDone s e false ecc
    have hfields := withEng_fields s.pair e g
    have hwarm : (bistDone s e false ecc).pair.warm = s.pair.warm := by rw [hg]; exact hfields.2.2.2.2.1
    have hact : Acting e (bistDone s e false ecc) := acting_of ha (fun e' => (engState_acts hacts e').1) (Laws.active_of hacts)
      (by rw [hg]; exact hfields.2.2.2.1) (by rw [hg]; exact hfields.2.1) (by rw [hg]; cases e <;> rfl) (by rw [hg]; exact hfields.1)
      (hd.keeps .time (by decide)) (hd.keeps .power (by decide))
    obtain ⟨hover, hsettled, hcodes⟩ := fault_handsOver (s := s) hact 8 hwarm (hd.keeps .time (by decide)) hd.out
    rw [hsettled] at hgo
    exact ⟨_, hgo, hover, counted_mid (l := [.evrLost]) (by decide) (by decide) (codesKept_refl _ s) (counted_bistDone s e false ecc)
      (hcodes (hwarm.trans hcold))⟩
  · obtain ⟨-, hst, -, hf, hv, hd, hh, hi⟩ := ha
    have hfault : s.engineFault (engOther e) 1 = soloed (explained s) (engOther e) 1 := by
      rw [engineFault_alone _ 1 hf hv hd hh hi, faultAlone_standby 1 (by rw [eng_explained]; exact hst)]
    obtain ⟨hout, hfenced, hrep1, hrep2⟩ := soloed_gives (explained s) (engOther e) 1
    have hgo : exec (.relinquish (engOther e)) s = .next (soloed (explained s) (engOther e) 1).pairSettled :=
      congrArg (fun u : State => Host.Outcome.next u.pairSettled) hfault
    generalize soloed (explained s) (engOther e) 1 = u at *
    have hacts := acts_pairSettled_unpaired (unpaired_of hout)
    obtain ⟨hstate, hact⟩ := engState_acts hacts (engOther e)
    have hsettle := (did_pairSettled u).out
    have hfen : u.pairSettled.pair.fenced = u.pair.fenced := congrArg Acts.fenc hacts
    obtain ⟨hlow, -, hgone⟩ := hout
    refine ⟨_, hgo, hact.trans hlow, ?_, ?_, hfen.trans (hfenced.trans hf), reports_after hrep1 hsettle, reports_after hrep2 hsettle⟩
    · rw [hstate]
      rcases hgone with h | h | h <;> rw [h] <;> decide
    · rw [hstate]
      rcases hgone with h | h | h <;> rw [h] <;> decide
  · have hgo : exec (.relinquish e) s = .next (((explained s).failEngine e 1).fence 1).pairSettled := by
      refine congrArg (fun u : State => Host.Outcome.next u.pairSettled) ?_
      rw [engineFault_alone e 1 hf hv hd hh hi, faultAlone_active 1 (by rw [eng_explained]; exact ha),
        if_neg (by rw [eng_explained]; exact hs)]
    exact ⟨_, hgo, fault_fences (s := explained s) 1 hf⟩
  · have hany : s.pair.relq.any (fun x => x.1 = e) = false := by
      rw [List.any_eq_false]
      exact fun x hx => by simp [hq x hx]
    have htrans : (s.onPair (fun p => { p with relq := p.relq ++ [(e, 1)] })).transition = true := by simp [State.transition, State.onPair, hv]
    refine congrArg Host.Outcome.next ((congrArg State.pairSettled ?_).trans (pairSettled_transition htrans))
    unfold State.engineFault State.onPair
    rw [if_neg (by simp [hf]), if_pos (.inl hv)]
    beta_reduce
    rw [hany]
    rfl
  · have hgo : exec .junctionFault s = .next (s.fence 0xA) := congrArg Host.Outcome.next (if_pos hc)
    exact ⟨_, hgo, (fence_fencedBy hf 0xA).1⟩
  · have hgo := exec_bistCycleDone true ecc hb
    rw [if_pos rfl] at hgo
    obtain ⟨g, hg, hval⟩ := pair_bistDone s e true ecc
    refine ⟨_, hgo, counted_bistDone s e true ecc, ?_, ?_⟩
    · exact keeps_mono (keeps_of_partMask (did_bistDone s e true ecc)) (by decide)
    · rw [eng_eq, hg, engIn_withEng_same, hval, if_pos rfl]
  · have hin : s.flitIn p lane w.toNat = s.setLockOf p (fun l => l.setLane lane (((s.lockOf p).lane lane).train w.toNat)) := flitOn_train s p lane w.toNat hst
    refine lane_received (w := w) hi hl (settled_lockOnly hs (lockOnly_setLockOf s p _) rfl) hin ?_
    rw [lockOf_setLockOf_same]
    exact lane_setLane_same _ _ _
  · have hin := flitOn_locked s p lane w.toNat hst
    rw [flitLocked_good s p lane (by rw [hr]; exact hd), hr] at hin
    obtain ⟨hset, hlane⟩ := goodFlit_gives hs p lane (((s.lockOf p).lane lane).flit w.toNat) { (s.lockOf p).lane lane with prev := w.toNat } d
    exact lane_received (w := w) hi hl hset hin hlane

end Sys2Proof.Proofs
end

section
/-! Hand-overs and their ends (R230, R236, R241, R243, R245, R247, R248); and O49. -/
namespace Sys2Proof.Proofs
open Sys2Proof Sys2Proof.Machine Sys2Proof.Laws
set_option Elab.async false -- one thread, within the memory of the check

/-! ### Role swaps (R247, R248) -/

/-- A wake that an entry meets is only latched. -/
theorem mode_registerWake_entering {s : State} (src det : Nat) (h : s.power.mode = .entering) : (s.registerWake src det).power.mode = .entering := by
  unfold State.registerWake
  extract_lets w
  rw [h]
  dsimp only
  split
  · exact h
  · split
    · exact h
    · exact h

/-- A partner's write leaves the engines' clocks running. -/
theorem isolated_arrives {s : State} (h : s.isolated = false) : (s.arrives 64).isolated = false := by
  have hof (u : State) (hm : u.power.mode = .run ∨ u.power.mode = .entering) : u.isolated = false := by
    unfold State.isolated
    rcases hm with hm | hm <;> simp [hm]
  cases hm : s.power.mode with
  | run => exact hof _ (.inl (power_arrives_awake 64 (.inl hm)).1)
  | idle => exact hof _ (.inl (power_arrives_awake 64 (.inr hm)).1)
  | entering =>
    have hwake : (s.partnerWake 64).power.mode = .entering := by
      unfold State.partnerWake
      rw [hm]
      exact mode_registerWake_entering 7 _ hm
    rw [State.arrives, endIdle_awake _ (by rw [hwake]; decide)]
    exact hof _ (.inr hwake)
  | exiting =>
    rw [State.arrives, partnerWake_awake 64 (by simp [hm]) (by simp [hm]), endIdle_awake _ (by simp [hm])]
    exact h
  | sleep => simp [State.isolated, hm] at h
  | deepSleep => simp [State.isolated, hm] at h
  | off => simp [State.isolated, hm] at h

/-- The state in which PAIR_CMD acts. -/
def pairWrote (s : State) (v : Nat) : State := (s.arrives 64).wrote 0x70010 v

theorem pair_pairWrote (s : State) (v : Nat) : (pairWrote s v).pair = s.pair := arrives_pair s 64

theorem swapRefused_of {s t : State} (hp : t.pair = s.pair) (hi : t.isolated = s.isolated) : t.swapRefused = s.swapRefused := by
  unfold State.swapRefused State.paired State.transition
  rw [hp, hi]

/-- What PAIR_CMD SWAP does where it acts. -/
def swapAct (s : State) : State :=
  match s.swapRefused, s.active with
  | false, some e => if s.pair.warm then s.onPair (fun p => { p with ready := true }) else s.startHandover e 7 true
  | _, _ => s.raise .pairCmdRefused []

theorem exec_pairCmdSwap {s : State} (h : s.noPartner = false) : exec .pairCmdSwap s = .next (swapAct (pairWrote s 1)) :=
  congrArg Host.Outcome.next (if_neg (by simp [h]))

theorem swapAct_taken {s : State} {e : Eng} (h : s.swapRefused = false) (ha : s.active = some e) :
    swapAct s = if s.pair.warm then s.onPair (fun p => { p with ready := true }) else s.startHandover e 7 true := by
  unfold swapAct
  rw [h, ha]

theorem swapAct_refused {s : State} (h : s.swapRefused = true) : swapAct s = s.raise .pairCmdRefused [] := by
  unfold swapAct
  rw [h]

/-- A swap told from the state before the command. -/
theorem handsOver_swap {e : Eng} {cause : Nat} {s u t : State} (hp : u.pair.warm = s.pair.warm) (he : u.eng e = s.eng e) (ht : u.time = s.time) (hs : u.sched = s.sched)
    (h : HandsOver e cause true u t) : HandsOver e cause true s t := by
  have hwire : u.onWire = s.onWire := by
    unfold State.onWire State.sch
    rw [hs]
  unfold HandsOver at h ⊢
  rw [hp, ht, hwire, he] at h
  obtain ⟨hhand, hrest⟩ := h
  refine ⟨hhand, ?_⟩
  by_cases hw : (s.pair.warm && true && s.onWire) = true
  · rw [if_pos hw] at hrest ⊢
    exact hrest
  · rw [if_neg hw] at hrest ⊢
    obtain ⟨h1, h2, h3, -⟩ := hrest
    exact ⟨h1, h2, h3, fun h => absurd h (by decide)⟩

theorem startHandover_ready (s : State) (e : Eng) (cause : Nat) (swap : Bool) : (s.startHandover e cause swap).pair.ready = false ∧
    (s.startHandover e cause swap).pair.swapDue = s.pair.swapDue := by
  have hfirst : (handoverFirst s swap).pair.swapDue = s.pair.swapDue := by
    unfold handoverFirst
    split
    · split
      · rw [pair_warmStart]
      · have hhold (u : State) : u.holdWords.pair.swapDue = u.pair.swapDue := rfl
        rw [hhold, pair_cut, pair_warmStart]
    · rfl
  have hwith (p : PairSt) (g : EngSt) : (withEng p e g).ready = p.ready ∧ (withEng p e g).swapDue = p.swapDue := by cases e <;> exact ⟨rfl, rfl⟩
  have hlow : ((handoverFirst s swap).lowerAct (handoverOf s e cause swap false)).pair.ready = false ∧
      ((handoverFirst s swap).lowerAct (handoverOf s e cause swap false)).pair.swapDue = s.pair.swapDue := by
    rw [pair_lowerAct]
    exact ⟨rfl, (hwith _ _).2.trans hfirst⟩
  rw [startHandover_eq]
  split
  · rw [pair_deferCommit]
    exact ⟨rfl, hfirst⟩
  · rw [pair_deferCommit]
    split
    · rw [pair_setEng, (hwith _ _).1, (hwith _ _).2]
      exact hlow
    · obtain ⟨g, hg, -⟩ := pair_failEngine ((handoverFirst s swap).lowerAct (handoverOf s e cause swap false)) e cause
      rw [hg, (hwith _ _).1, (hwith _ _).2]
      exact hlow

/-! ### The islands of a standby (10.5) -/

theorem power_islandsTo (s : State) (l : List Nat) (st : IslState) : ∃ i, (s.islandsTo l st).power = { s.power with islands := i } := by
  have hbare : barePower (s.islandsTo l st).power = barePower s.power :=
    foldl_keeps (g := fun t => barePower (State.power t)) (fun t i => bare_islandTo t i st) l s
  refine ⟨(s.islandsTo l st).power.islands, ?_⟩
  exact (congrArg (fun p : PowerSt => { p with islands := (s.islandsTo l st).power.islands }) hbare : _)

theorem island_islandsTo (s : State) {l : List Nat} (st : IslState) {i : Nat} (h : i ∈ l) :
    (s.islandsTo l st).island i = { s.island i with state := st, isolated := decide (st ≠ .on), auto := false } :=
  (island_foldl_islandTo (fun _ => st) l s i).trans (if_pos h)

/-! ### The end of a hand-over (R236, R246) -/

/-- The pair once a hand-over has ended. -/
def endedPair (p : PairSt) (h : Handover) (d : Nat) : PairSt :=
  { withEng p (engOther h.out) { engIn p (engOther h.out) with state := .active, act := true } with
    handover := none, lastWhy := h.cause, lastDur := min d 65535 }

/-- The counter of a hand-over. -/
def endCtr (h : Handover) : Ctr := if h.swap then .swapCount else .handoverCount

/-- A hand-over's end, up to its announcement. -/
def handoverTold (s : State) (h : Handover) : State :=
  (((((s.setEng (engOther h.out) (fun g => { g with state := .active, act := true })).onPair (fun p =>
    { p with handover := none, lastWhy := h.cause, lastDur := min (s.handoverCycles h) 65535 })).count (endCtr h) 0).raise .handover
    (le 1 h.cause ++ le 1 (engCode h.out) ++ le 4 (min (s.handoverCycles h) (2 ^ 32 - 1)))).announce 1 h.cause)

theorem handoverEnds_eq (s : State) (h : Handover) : s.handoverEnds h =
    if h.swap then handoverTold s h else ((handoverTold s h).raise .soloEntered []).announce 2 h.cause := rfl

theorem pair_handoverTold (s : State) (h : Handover) : (handoverTold s h).pair = endedPair s.pair h (s.time.jcycle - h.x) := by
  have hpair (u : State) : (u.onPair (fun p => { p with handover := none, lastWhy := h.cause, lastDur := min (s.handoverCycles h) 65535 })).pair =
    { u.pair with handover := none, lastWhy := h.cause, lastDur := min (s.handoverCycles h) 65535 } := rfl
  rw [handoverTold, pair_announce, pair_raise, pair_count, hpair, pair_setEng]
  rfl

theorem endCtr_ne (h : Handover) : (endCtr h).code ≠ Ctr.evrLost.code ∧ (endCtr h).code ≠ Ctr.holdGapNs.code := by
  unfold endCtr
  split <;> exact ⟨by decide, by decide⟩

theorem handoverTold_gives (s : State) (h : Handover) : Counted (endCtr h) 0 0 1 s (handoverTold s h) ∧
    CodesKept [.evrLost, endCtr h] s (handoverTold s h) ∧
    Reports .handover (le 1 h.cause ++ le 1 (engCode h.out) ++ le 4 (min (s.time.jcycle - h.x) (2 ^ 32 - 1))) s (handoverTold s h) := by
  obtain ⟨hne, -⟩ := endCtr_ne h
  unfold handoverTold
  have hfirst : Does 0xc0000 s ((s.setEng (engOther h.out) (fun g => { g with state := .active, act := true })).onPair (fun p =>
      { p with handover := none, lastWhy := h.cause, lastDur := min (s.handoverCycles h) 65535 })) :=
    does_onPairActs (by decide) (does_setEng (by decide) (does_refl _ s))
  generalize (s.setEng (engOther h.out) (fun g => { g with state := .active, act := true })).onPair (fun p =>
      { p with handover := none, lastWhy := h.cause, lastDur := min (s.handoverCycles h) 65535 }) = u at hfirst
  have hann (v : State) : Does 0x1000000 v (v.announce 1 h.cause) := does_announce (by decide) (does_refl _ v)
  have hcount : Does 0xe220082 u (u.count (endCtr h) 0) := does_count (by decide) (does_refl _ u)
  refine ⟨?_, ?_, ?_⟩
  · exact counted_mid (l := [.evrLost]) (by decide) (by decide) (codesKept_does hfirst) (counted_countN u _ 1 (by decide) (by decide) hne)
      (codesKept_trans (codesKept_raise _ _ _) (codesKept_does (hann _))) (fun d hd => by rw [List.mem_singleton.mp hd]; exact hne)
  · exact codesKept_trans (codesKept_does hfirst) (codesKept_trans
      (codesKept_countN u (endCtr h) 1 (by decide) (by decide) (by simp) (by simp) hne)
      (codesKept_trans (codesKept_raise _ _ _ (by simp)) (codesKept_does (hann _))))
  · exact reports_after (reports_before (hfirst.out.trans hcount.out) (reports_raise _ _ _)) (hann _).out

/-- The end of a hand-over: the pair, what is counted, and what is reported. -/
theorem handoverEnds_gives (s : State) (h : Handover) : (s.handoverEnds h).pair = endedPair s.pair h (s.time.jcycle - h.x) ∧
    Counted (endCtr h) 0 0 1 s (s.handoverEnds h) ∧ CodesKept [.evrLost, endCtr h] s (s.handoverEnds h) ∧
    Reports .handover (le 1 h.cause ++ le 1 (engCode h.out) ++ le 4 (min (s.time.jcycle - h.x) (2 ^ 32 - 1))) s (s.handoverEnds h) ∧
    (h.swap = false → Reports .soloEntered [] s (s.handoverEnds h)) := by
  obtain ⟨hcount, hkept, hrep⟩ := handoverTold_gives s h
  have hpair := pair_handoverTold s h
  have hdid : Does 0xf2e0082 s (handoverTold s h) := by
    unfold handoverTold
    exact does_announce (by decide) (does_raise (by decide) (does_count (by decide) (does_onPairActs (by decide) (does_setEng (by decide) (does_refl _ s)))))
  rw [handoverEnds_eq]
  generalize handoverTold s h = u at *
  have hann (v : State) : Does 0x1000000 v (v.announce 2 h.cause) := does_announce (by decide) (does_refl _ v)
  split
  next hs => exact ⟨hpair, hcount, hkept, hrep, fun hn => absurd hs (by simp [hn])⟩
  next hs =>
    have hlast : CodesKept [.evrLost] u ((u.raise .soloEntered []).announce 2 h.cause) :=
      codesKept_trans (codesKept_raise _ _ _) (codesKept_does (hann _))
    have hout := (out_raise u .soloEntered []).trans (hann (u.raise .soloEntered [])).out
    rw [pair_announce, pair_raise]
    exact ⟨hpair, counted_mid (l := [.evrLost]) (by decide) (by decide) (codesKept_refl _ s) hcount hlast
        (fun d hd => by rw [List.mem_singleton.mp hd]; exact (endCtr_ne h).1),
      codesKept_trans hkept (codesKept_mono hlast (by simp)), reports_after hrep hout,
      fun _ => reports_after (reports_before hdid.out (reports_raise _ _ _)) (hann _).out⟩

theorem eng_endedPair (p : PairSt) (h : Handover) (d : Nat) : engIn (endedPair p h d) (engOther h.out) =
    { engIn p (engOther h.out) with state := .active, act := true } := by
  unfold endedPair
  cases h.out <;> rfl

theorem noneHeld_endedPair {p : PairSt} (h : Handover) (d : Nat) (hp : NoneHeld p) : NoneHeld (endedPair p h d) ∧
    (endedPair p h d).swapDue = p.swapDue ∧ (endedPair p h d).levels = p.levels ∧ (endedPair p h d).holdAt = p.holdAt := by
  unfold NoneHeld endedPair at *
  cases h.out <;> exact ⟨hp, rfl, rfl, rfl⟩

/-! ### Settling after an end -/

/-- Settling where nothing waits closes the hold buffer at most, and releases a COMMIT. -/
theorem pairSettled_gives {s : State} (h : Settled s) : Does 0x40001 s s.pairSettled ∧
    (s.pairSettled.pair = s.pair ∨ s.pairSettled.pair = { s.pair with holdAt := none }) := by
  by_cases ht : s.transition = true
  · rw [pairSettled_transition ht]
    exact ⟨does_refl _ s, .inl rfl⟩
  · have hrel := released_none (noneHeld_of_settled h)
    have hcommit : Does 0x1 s.released s.released.releaseCommit := does_releaseCommit (by decide) (does_refl _ _)
    rw [pairSettled_settled h (Bool.eq_false_iff.mpr ht)]
    rw [pair_of_does hcommit]
    rw [hrel] at hcommit ⊢
    split at hcommit
    next hh =>
      rw [if_pos hh]
      exact ⟨does_mono hcommit (by decide), .inl rfl⟩
    next hh =>
      rw [if_neg hh]
      exact ⟨does_trans (does_onPair (by decide) rfl (does_refl _ s)) (does_mono hcommit (by decide)), .inr rfl⟩

theorem engIn_holdAt (p : PairSt) (x : Option Nat) (e : Eng) : engIn { p with holdAt := x } e = engIn p e := by cases e <;> rfl

theorem engIn_levels (p : PairSt) (x : Option Levels) (e : Eng) : engIn { p with levels := x } e = engIn p e := by cases e <;> rfl

/-- The level outputs pass on again. -/
theorem msixHeld_freeLevels (s : State) : s.freeLevels.events.msixHeld = [] := rfl

/-! ### The hold buffer, where it holds no frame (R239) -/

theorem deliverFrames_gaps {s : State} (c : Ctr) (h : s.pair.hold = []) : (s.deliverFrames (some c)).pair = (unheld s).pair ∧
    Does 0xe260082 s (s.deliverFrames (some c)) ∧ CodesKept [.evrLost, .holdGapNs] s (s.deliverFrames (some c)) ∧
    ∀ t0, s.pair.holdAt = some t0 → tget s.tally.count (tallyKey Ctr.holdGapNs.code 0 0) < 2 ^ 48 →
      Counted .holdGapNs 0 0 (s.holdGap t0 0 + s.holdGap t0 1) s (s.deliverFrames (some c)) := by
  have hempty : s.onPair (fun p => { p with hold := [], holdAt := none }) = unheld s := by
    unfold unheld State.onPair
    rw [← h]
  have hdid : Does 0x40000 s (unheld s) := does_onPair (by decide) rfl (does_refl _ s)
  unfold State.deliverFrames
  split
  case h_1 hat =>
    exact ⟨congrArg State.pair (onPair_id (by rw [← hat]) : unheld s = s).symm, does_refl _ s, codesKept_refl _ s,
      fun t0 ht => absurd (hat.symm.trans ht) (by simp)⟩
  case h_2 t0 hat =>
    dsimp only
    rw [h, List.foldl_nil, hempty]
    split
    next hg =>
      refine ⟨?_, ?_, ?_, fun t1 ht _ => ?_⟩
      · exact (flags_countN _ 0 0 _ (flags_refl (unheld s))).keeps .pair (by decide)
      · exact does_countN (by decide) (does_mono hdid (by decide))
      · exact codesKept_trans (codesKept_does hdid) (codesKept_countN _ _ _ (by decide) (by decide))
      · obtain rfl : t0 = t1 := Option.some.inj (hat.symm.trans ht)
        exact counted_mid (l := [.evrLost]) (by decide) (by decide) (codesKept_does hdid) (counted_countN _ _ _ (by decide) (by decide))
          (codesKept_refl _ _)
    next hg =>
      refine ⟨rfl, does_mono hdid (by decide), codesKept_does hdid, fun t1 ht hlt => ?_⟩
      obtain rfl : t0 = t1 := Option.some.inj (hat.symm.trans ht)
      have hzero : s.holdGap t0 0 + s.holdGap t0 1 = 0 := Nat.eq_zero_of_not_pos (fun hp => hg ⟨rfl, hp⟩)
      have hsame : tget (unheld s).tally.count (tallyKey Ctr.holdGapNs.code 0 0) = tget s.tally.count (tallyKey Ctr.holdGapNs.code 0 0) := rfl
      unfold Counted
      rw [hzero, hsame, Nat.add_zero, Nat.mod_eq_of_lt hlt]

/-- The gap of a port rests on the set-up, the lanes and the time. -/
theorem holdGap_congr {s t : State} (hset : t.setup.active = s.setup.active) (htime : t.time = s.time)
    (hmac : ∀ m, (t.mac m).laneOk = (s.mac m).laneOk ∧ (t.mac m).fec = (s.mac m).fec) (t0 p : Nat) : t.holdGap t0 p = s.holdGap t0 p := by
  have hbreak (m : Nat) : t.breakout m = s.breakout m := by
    unfold State.breakout State.portCfgBreakout State.field State.activeWord
    rw [hset]
  have hexists (m : Nat) : t.instExists m = s.instExists m := by
    unfold State.instExists
    rw [hbreak]
  have hrate (m : Nat) : t.rate m = s.rate m := by
    unfold State.rate
    rw [hbreak]
  have hraw : t.portRaw p = s.portRaw p := by
    unfold State.portRaw State.portInsts
    simp only [hexists, hrate, (hmac _).1, (hmac _).2]
  unfold State.holdGap State.holdFull
  rw [hraw, htime]

/-! ### The drain (R243) -/

/-- The Hamper but for its standing requests. -/
def xoffless (h : HamperSt) : HamperSt := { h with xoff := [] }

theorem xoffless_xoffSet (s : State) (m c : Nat) (on : Bool) : xoffless (s.xoffSet m c on).hamper = xoffless s.hamper := by
  unfold State.xoffSet
  dsimp only
  split
  · rfl
  · have hq (u : State) (x : CtrlFrame) : (u.queueCtrl m x).hamper = u.hamper :=
      (does_queueCtrl (M := 0x5000) (by decide) (does_refl _ u)).keeps .hamper (by decide)
    rw [hq]
    rfl

theorem hamper_pauseSet (s : State) (m : Nat) (on : Bool) : (s.pauseSet m on).hamper = s.hamper := by
  unfold State.pauseSet
  split
  · rfl
  · exact (does_queueCtrl (M := 0x5000) (by decide) (does_setMac (by decide) (does_refl _ s))).keeps .hamper (by decide)

/-- Flow control changes the standing requests alone. -/
theorem xoffless_flowCheck (s : State) (m : Nat) : xoffless (s.flowCheck m).hamper = xoffless s.hamper := by
  have hone (u : State) (c : Nat) : xoffless (State.flowOne m u c).hamper = xoffless u.hamper := by
    unfold State.flowOne
    split
    · split
      · exact xoffless_xoffSet u m c true
      · split
        · exact xoffless_xoffSet u m c false
        · rfl
    · rfl
  have hall := foldl_keeps (g := fun v : State => xoffless v.hamper) (f := State.flowOne m) hone (List.range 8) s
  unfold State.flowCheck
  dsimp only
  split
  · split
    · rw [hamper_pauseSet]
      exact hall
    · split
      · rw [hamper_pauseSet]
        exact hall
      · exact hall
  · exact hall

/-- Flow control holds and frees no frame. -/
theorem frames_flowAll (s : State) : s.flowAll.hamper.frames = s.hamper.frames :=
  (congrArg HamperSt.frames (foldl_keeps (g := fun v : State => xoffless v.hamper) (f := State.flowCheck) xoffless_flowCheck (List.range 16) s) :
    (xoffless _).frames = (xoffless _).frames)

theorem count_recordUse (s : State) (f n : Nat) : (s.recordUse f n).tally.count = s.tally.count :=
  (count_uses _ _ _ _).trans (count_uses _ _ _ _)

theorem count_cqWrite (s : State) (n : Nat) (c : Cpl) (held : Bool) : (s.cqWrite n c held).tally.count = s.tally.count := by
  have hmaybe (u : State) (k : Nat) : (u.cqMaybe k).tally = u.tally := by
    unfold State.cqMaybe
    split
    · exact (does_msix (M := 0xc000480) (by decide) (does_onEvents (by decide) (does_setCqr (by decide) (does_refl _ u)))).keeps .tally (by decide)
    · rfl
  unfold State.cqWrite
  dsimp only
  rw [hmaybe]
  exact count_recordUse _ _ _

/-- A receive ring that advances counts its guard slots alone. -/
theorem codesKept_rxAdvanceN (n k : Nat) (s : State) : CodesKept [.evrLost, .guardReturned] s (State.rxAdvanceN n k s) := by
  have hpass (u : State) (rest : List RxSlot) : (u.rxPass n rest).tally = u.tally := rfl
  induction k generalizing s with
  | zero => exact codesKept_refl _ s
  | succ k ih =>
    unfold State.rxAdvanceN
    dsimp only
    split
    · next x rest hslots =>
      split
      · exact codesKept_refl _ s
      · split
        · exact codesKept_trans (codesKept_of_count (congrArg TallySt.count (hpass s rest))) (ih _)
        · split
          · split
            · exact codesKept_trans (codesKept_of_count (count_cqWrite s _ _ _)) (ih _)
            · exact codesKept_refl _ s
          · split
            · exact codesKept_refl _ s
            · split
              · split
                · exact codesKept_trans (codesKept_of_count (count_cqWrite s _ _ _)) (ih _)
                · exact codesKept_refl _ s
              · split
                · have hwrite : ((s.cqWrite (s.rxr n).cq (returnCpl n (s.rxr n) x) false).rxPass n rest).tally.count = s.tally.count := count_cqWrite s _ _ _
                  exact codesKept_trans (codesKept_trans (codesKept_of_count hwrite) (codesKept_countN _ _ 1 (by decide) (by decide))) (ih _)
                · exact codesKept_refl _ s
    · exact codesKept_refl _ s

/-- The drain's end, up to the rings' advance. -/
def drained (s : State) (h : Handover) : State :=
  let lost := s.hamper.frames.filter (fun x => !x.inc)
  let s1 := (s.onPair (fun p => { p with handover := some { h with drained := true } })).countN .warmHamperLost 0 0 lost.length
  (((lost.flatMap (fun x => x.copies)).foldl (fun t c => if c.dma then t.cqRelease (t.rxr c.ring).cq else t) s1).onHamper
    (fun x => { x with frames := x.frames.filter (fun g => g.inc) })).onRx (fun t => t.map (fun e => (e.1, e.2.drained (lost.map (fun x => x.id)))))

theorem drainEnds_eq (s : State) (h : Handover) : s.drainEnds h =
    (((drained s h).rx.map (fun e => e.1)).foldl State.rxAdvance (drained s h)).flowAll := rfl

theorem drained_gives (s : State) (h : Handover) : (drained s h).hamper.frames = s.hamper.frames.filter (fun x => x.inc) ∧
    (drained s h).pair.handover = some { h with drained := true } ∧
    Counted .warmHamperLost 0 0 (s.hamper.frames.filter (fun x => !x.inc)).length s (drained s h) := by
  unfold drained
  extract_lets lost s1
  have hcount : Counted .warmHamperLost 0 0 lost.length s s1 :=
    counted_mid (l := [.evrLost]) (by decide) (by decide) (codesKept_does (does_onPairActs (by decide) (does_refl 0xc0000 s)))
      (counted_countN _ _ _ (by decide) (by decide)) (codesKept_refl _ _)
  have hflags : Flags (s.onPair (fun p => { p with handover := some { h with drained := true } })) s1 := flags_countN _ _ _ _ (flags_refl _)
  have hpair : s1.pair = { s.pair with handover := some { h with drained := true } } := hflags.keeps .pair (by decide)
  have hham : s1.hamper = s.hamper := hflags.keeps .hamper (by decide)
  generalize s1 = u at *
  have hfold : Does 0x400 u ((lost.flatMap (fun x => x.copies)).foldl (fun t c => if c.dma then t.cqRelease (t.rxr c.ring).cq else t) u) :=
    does_foldl (fun x c hx => does_ite (does_cqRelease (by decide) hx) hx) (does_refl _ u)
  generalize (lost.flatMap (fun x => x.copies)).foldl (fun t c => if c.dma then t.cqRelease (t.rxr c.ring).cq else t) u = v at *
  have hv : v.hamper = s.hamper := (hfold.keeps .hamper (by decide)).trans hham
  have hkeep : v.hamper.frames.filter (fun g => g.inc) = s.hamper.frames.filter (fun g => g.inc) := by rw [hv]
  refine ⟨hkeep, ?_, ?_⟩
  · exact (congrArg PairSt.handover ((hfold.keeps .pair (by decide) : v.pair = u.pair).trans hpair) : v.pair.handover = _)
  · exact counted_mid (l := [.evrLost]) (by decide) (by decide) (codesKept_refl _ s) hcount
      (codesKept_trans (codesKept_does hfold) (codesKept_does (does_onRx (by decide) (does_onHamper (by decide) (does_refl 0x2200 v)))))

theorem drainEnds_gives (s : State) (h : Handover) : (s.drainEnds h).hamper.frames = s.hamper.frames.filter (fun x => x.inc) ∧
    (s.drainEnds h).pair.handover = some { h with drained := true } ∧
    Counted .warmHamperLost 0 0 (s.hamper.frames.filter (fun x => !x.inc)).length s (s.drainEnds h) := by
  obtain ⟨hframes, hhand, hcount⟩ := drained_gives s h
  rw [drainEnds_eq]
  generalize drained s h = u at *
  have hkept : CodesKept [.evrLost, .guardReturned] u ((u.rx.map (fun e => e.1)).foldl State.rxAdvance u) :=
    codesKept_foldl _ u (fun t n _ => codesKept_rxAdvanceN n _ t)
  have hrings : Does 0xe220682 u ((u.rx.map (fun e => e.1)).foldl State.rxAdvance u) :=
    does_foldl (fun x n hx => does_rxAdvance (by decide) hx) (does_refl _ u)
  generalize (u.rx.map (fun e => e.1)).foldl State.rxAdvance u = v at *
  have hflow : Does 0x7000 v v.flowAll := does_flowAll (by decide) (does_refl _ v)
  refine ⟨?_, ?_, counted_mid (l := [.evrLost, .guardReturned]) (by decide) (by decide) (codesKept_refl _ s) hcount
    (codesKept_trans hkept (codesKept_does hflow))⟩
  · rw [frames_flowAll, (hrings.keeps .hamper (by decide) : v.hamper = u.hamper), hframes]
  · rw [pair_of_does hflow, pair_of_does hrings, hhand]

/-! ### The incoming engine takes over (R245, R246) -/

/-- The incoming engine fetches every transmit ring again from C. -/
theorem tx_takeOver (s : State) : s.takeOver.tx = s.tx.map (fun e => (e.1, e.2.taken)) := by
  unfold State.takeOver
  extract_lets s1 s2 s3 s4 s5
  have h4 : Does 0x1000 s3 s4 := does_foldl (fun x m hx => does_zeroCredits (by decide) hx) (does_refl _ s3)
  have h5 : Does 0x80 s4 s5 := does_foldl (fun x f hx => does_setFn (by decide) hx) (does_refl _ s4)
  have h6 : Does 0x800000 s5 ((List.range 28).foldl (fun t k => t.setKnob k (fun q => { q with changed := t.time.elapsed, dwell := t.fmDwellUs k })) s5) :=
    does_foldl (fun x k hx => does_setKnob (by decide) hx) (does_refl _ s5)
  exact (h6.keeps .tx (by decide)).trans ((h5.keeps .tx (by decide)).trans (h4.keeps .tx (by decide)))

theorem txr_takeOver (s : State) (n : Nat) : s.takeOver.txr n = (s.txr n).taken := by
  unfold State.txr
  rw [tx_takeOver]
  exact get_map s.tx TxRing.taken rfl n

theorem txr_congr {s t : State} (h : t.tx = s.tx) (n : Nat) : t.txr n = s.txr n :=
  congrArg (fun l => Tbl.get (fun _ => TxRing.init) l n) h

/-- The pauses that the mirror may miss leave the lanes. -/
theorem lanes_pausesMissed (t0 : Nat) (s : State) (m k : Nat) :
    ((State.pausesMissed t0 s m).mac k).laneOk = (s.mac k).laneOk ∧ ((State.pausesMissed t0 s m).mac k).fec = (s.mac k).fec := by
  unfold State.pausesMissed
  extract_lets v gone
  by_cases hk : k = m
  · rw [hk, mac_setMac_same]
    exact ⟨rfl, rfl⟩
  · rw [mac_setMac_other _ _ hk]
    exact ⟨rfl, rfl⟩

/-- A warm hand-over's end, up to the announcement: the islands wake, the rings are taken, and pauses may be missed. -/
def warmTaken (s : State) (h : Handover) : State := (List.range 16).foldl (State.pausesMissed h.x) (s.warmWake (engOther h.out)).takeOver

theorem warmTaken_gives (s : State) (h : Handover) : Does 0x10c07f80 s (warmTaken s h) ∧ (∃ i, (warmTaken s h).power = { s.power with islands := i }) ∧
    (∀ m, ((warmTaken s h).mac m).laneOk = (s.mac m).laneOk ∧ ((warmTaken s h).mac m).fec = (s.mac m).fec) ∧
    ∀ n, (warmTaken s h).txr n = (s.txr n).taken := by
  have hwake : Does 0x400000 s (s.warmWake (engOther h.out)) := does_warmWake (by decide) (does_refl _ s)
  have htake : Does 0x803f80 (s.warmWake (engOther h.out)) (s.warmWake (engOther h.out)).takeOver := does_takeOver (by decide) (does_refl _ _)
  have hmiss (u : State) : Does 0x10004000 u ((List.range 16).foldl (State.pausesMissed h.x) u) :=
    does_foldl (fun x m hx => does_pausesMissed (by decide) hx) (does_refl _ u)
  have hlanes (u : State) (k : Nat) : (((List.range 16).foldl (State.pausesMissed h.x) u).mac k).laneOk = (u.mac k).laneOk ∧
      (((List.range 16).foldl (State.pausesMissed h.x) u).mac k).fec = (u.mac k).fec :=
    ⟨foldl_keeps (g := fun v : State => (v.mac k).laneOk) (fun v m => (lanes_pausesMissed h.x v m k).1) _ u,
      foldl_keeps (g := fun v : State => (v.mac k).fec) (fun v m => (lanes_pausesMissed h.x v m k).2) _ u⟩
  obtain ⟨i, hi⟩ := power_islandsTo s (warmIslands (engOther h.out)) .on
  have hi' : (s.warmWake (engOther h.out)).power = { s.power with islands := i } := hi
  have hall : Does 0x10c07f80 s (warmTaken s h) :=
    does_trans (does_mono hwake (by decide)) (does_trans (does_mono htake (by decide)) (does_mono (hmiss _) (by decide)))
  unfold warmTaken at *
  refine ⟨hall, ⟨i, ?_⟩, fun m => ?_, fun n => ?_⟩
  · rw [(hmiss _).keeps .power (by decide), htake.keeps .power (by decide), hi']
  · obtain ⟨hok, hfec⟩ := hlanes (s.warmWake (engOther h.out)).takeOver m
    rw [hok, hfec, mac_of_does htake, mac_of_does hwake]
    exact ⟨rfl, rfl⟩
  · rw [txr_congr ((hmiss _).keeps .tx (by decide)), txr_takeOver, txr_congr (hwake.keeps .tx (by decide))]

/-- The outgoing engine of a planned hand-over rests. -/
def warmRested (s : State) (h : Handover) : State := if h.swap then s.warmRest h.out else s

theorem warmRested_gives (s : State) (h : Handover) : Does 0x400000 s (warmRested s h) ∧
    ∃ i, (warmRested s h).power = { s.power with islands := i } := by
  unfold warmRested
  split
  · exact ⟨does_warmRest (by decide) (does_refl _ s), power_islandsTo s (warmIslands h.out) .retention⟩
  · exact ⟨does_refl _ s, s.power.islands, rfl⟩

theorem exec_warmHandoverEnd {s : State} {h : Handover} (hh : s.pair.handover = some h) (hw : h.warm = true) (hd : h.drained = true)
    (hc : s.canRaise h = true) : exec .warmHandoverEnd s =
      .next ((warmRested ((warmTaken s h).handoverEnds h) h).deliverFrames (some .handoverRxDrop)).pairSettled := by
  refine congrArg Host.Outcome.next ?_
  rw [hh]
  exact if_pos ⟨hw, hd, hc⟩

/-- What the end of a warm hand-over gives. -/
def WarmEnded (s : State) (h : Handover) (t : State) : Prop :=
  engIn t.pair (engOther h.out) = { s.eng (engOther h.out) with state := .active, act := true } ∧
  t.pair.handover = none ∧ t.pair.lastWhy = h.cause ∧ t.pair.holdAt = none ∧
  (∀ t0, s.pair.holdAt = some t0 → tget s.tally.count (tallyKey Ctr.holdGapNs.code 0 0) < 2 ^ 48 →
    Counted .holdGapNs 0 0 (s.holdGap t0 0 + s.holdGap t0 1) s t) ∧
  Counted (endCtr h) 0 0 1 s t ∧ ∀ n, t.txr n = (s.txr n).taken

theorem warmEnd_gives {s : State} {h : Handover} (hset : Settled s) :
    WarmEnded s h ((warmRested ((warmTaken s h).handoverEnds h) h).deliverFrames (some .handoverRxDrop)).pairSettled := by
  obtain ⟨htaken, ⟨i, hpow⟩, hlanes, htx⟩ := warmTaken_gives s h
  obtain ⟨hpair1, hcount, hkept, -, -⟩ := handoverEnds_gives (warmTaken s h) h
  have hends : Does 0xf2e0082 (warmTaken s h) ((warmTaken s h).handoverEnds h) := does_handoverEnds (by decide) (does_refl _ _)
  obtain ⟨hnone, hswap, -, hat⟩ := noneHeld_endedPair h ((warmTaken s h).time.jcycle - h.x) (noneHeld_of_settled hset)
  have heng := eng_endedPair s.pair h ((warmTaken s h).time.jcycle - h.x)
  obtain ⟨-, -, -, -, hdue, hcmd⟩ := hset
  rw [pair_of_does htaken] at hpair1
  have hended : (endedPair s.pair h ((warmTaken s h).time.jcycle - h.x)).handover = none ∧
    (endedPair s.pair h ((warmTaken s h).time.jcycle - h.x)).lastWhy = h.cause := ⟨rfl, rfl⟩
  rw [← hpair1] at hnone hswap hat heng hended
  generalize warmTaken s h = u at *
  generalize u.handoverEnds h = v at *
  obtain ⟨hrest, ⟨j, hpow2⟩⟩ := warmRested_gives v h
  rw [← pair_of_does hrest] at hnone hswap hat heng hended
  generalize warmRested v h = w at *
  obtain ⟨hpairx, hdidx, hkeptx, hgap⟩ := deliverFrames_gaps (s := w) .handoverRxDrop hnone.2.2.2
  generalize w.deliverFrames (some .handoverRxDrop) = x at *
  have hpowx : x.power.pendCmd = none := by
    rw [hdidx.keeps .power (by decide), hpow2, hends.keeps .power (by decide), hpow]
    exact hcmd
  have hsettled : Settled x := by
    obtain ⟨h1, h2, h3, h4⟩ := hnone
    unfold Settled
    rw [hpairx]
    exact ⟨h1, h2, h3, h4, hswap.trans hdue, hpowx⟩
  obtain ⟨hlast, hpairt⟩ := pairSettled_gives hsettled
  have hpairt : x.pairSettled.pair = (unheld w).pair := by
    rcases hpairt with hp | hp
    · rw [hp, hpairx]
    · rw [hp, hpairx]
      rfl
  generalize x.pairSettled = t at *
  have hsmall : ∀ d ∈ ([.evrLost, .holdGapNs] : List Ctr), (endCtr h).code ≠ d.code := by
    obtain ⟨h1, h2⟩ := endCtr_ne h
    intro d hd
    rcases List.mem_cons.mp hd with rfl | hd
    · exact h1
    · rw [List.mem_singleton.mp hd]
      exact h2
  have hsmall2 : ∀ d ∈ [.evrLost, endCtr h], Ctr.holdGapNs.code ≠ d.code := by
    intro d hd
    rcases List.mem_cons.mp hd with rfl | hd
    · decide
    · rw [List.mem_singleton.mp hd]
      exact (endCtr_ne h).2.symm
  have hbefore : CodesKept [.evrLost, endCtr h] s w :=
    codesKept_trans (codesKept_does htaken) (codesKept_trans hkept (codesKept_does hrest))
  unfold WarmEnded
  rw [hpairt]
  refine ⟨(engIn_holdAt _ _ _).trans heng, hended.1, hended.2, rfl, fun t0 ht0 hlt => ?_, ?_, fun n => ?_⟩
  · have hsame : tget w.tally.count (tallyKey Ctr.holdGapNs.code 0 0) = tget s.tally.count (tallyKey Ctr.holdGapNs.code 0 0) :=
      hbefore _ (fun d hd => by rw [cls_key_code (by decide) (by decide)]; exact hsmall2 d hd)
    have hgapw (p : Nat) : w.holdGap t0 p = s.holdGap t0 p := by
      refine holdGap_congr ?_ ?_ (fun m => ?_) t0 p
      · rw [hrest.keeps .setup (by decide), hends.keeps .setup (by decide), htaken.keeps .setup (by decide)]
      · rw [hrest.keeps .time (by decide), hends.keeps .time (by decide), htaken.keeps .time (by decide)]
      · rw [mac_of_does hrest, mac_of_does hends]
        exact hlanes m
    have hc := hgap t0 (hat.trans ht0) (by rw [hsame]; exact hlt)
    rw [hgapw, hgapw] at hc
    exact counted_mid (by decide) (by decide) hbefore hc (codesKept_does hlast) hsmall2
  · exact counted_mid (l := [.evrLost, .holdGapNs]) (by decide) (by decide) (codesKept_does htaken) hcount
      (codesKept_trans (codesKept_does hrest) (codesKept_trans hkeptx (codesKept_does hlast))) hsmall
  · rw [txr_congr (hlast.keeps .tx (by decide)), txr_congr (hdidx.keeps .tx (by decide)), txr_congr (hrest.keeps .tx (by decide)),
      txr_congr (hends.keeps .tx (by decide))]
    exact htx n

/-! ### The end of a hand-over in lockstep (R236) -/

theorem exec_lockstepHandoverEnd {s : State} {h : Handover} (hh : s.pair.handover = some h) (hw : h.warm = false) :
    exec .lockstepHandoverEnd s = .next (if s.canRaise h = false then s else (s.handoverEnds h).freeLevels.pairSettled) := by
  refine congrArg Host.Outcome.next ?_
  rw [hh]
  dsimp only
  rw [hw]
  simp only [Bool.false_eq_true, false_or]

/-- Settles O49: each start by the record it leaves, each end by its steps. -/
theorem handOversEndWithTheOtherEngineActive : Obligations.HandOversEndWithTheOtherEngineActive := by
  unfold Obligations.HandOversEndWithTheOtherEngineActive
  refine ⟨fun s e hp ha ht hi => ?_, fun s e hp ha ht hr hw => ?_, fun s hp => ⟨fun hn => ?_, fun hw hf hs => ?_⟩,
    fun s h hh hw => ⟨fun hc => ?_, fun hc hs => ?_⟩, fun s h hh hw hfall hd => ?_, fun s h hh hw hd hc hs => ?_⟩
  · have hpair := pair_pairWrote s 1
    have hnot : (pairWrote s 1).swapRefused = false := by
      have hiso : (pairWrote s 1).isolated = s.isolated := (isolated_arrives hi).trans hi.symm
      rw [swapRefused_of hpair hiso]
      simp [State.swapRefused, hp, ht, hi]
    have hact : (pairWrote s 1).active = some e := (Laws.active_of (congrArg PairSt.acts hpair)).trans ha
    refine ⟨fun hn hw => ?_, fun hn hw => ?_, fun hw hsp => ?_⟩
    · have hgo := exec_pairCmdSwap hn
      rw [swapAct_taken hnot hact, hpair, if_neg (by simp [hw])] at hgo
      exact ⟨_, hgo, handsOver_swap (congrArg PairSt.warm hpair) (congrArg (fun p => engIn p e) hpair) (keeps_arrives s 64 .time (by decide))
        (keeps_arrives s 64 .sched (by decide)) (startHandover_handsOver _ e 7 true)⟩
    · rw [exec_pairCmdSwap hn, swapAct_taken hnot hact, hpair, if_pos hw]
      rfl
    · have hfen : s.pair.fenced = false := by
        unfold State.paired at hp
        simp at hp
        exact hp.2
      have hgo2 : exec .roleSwap s = .next ((s.onPair (fun p => { p with swapDue := true })).dueSwap) :=
        congrArg Host.Outcome.next (if_neg (by simp [hw, hfen, hsp]))
      have hdue : (s.onPair (fun p => { p with swapDue := true })).dueSwap =
          ((s.onPair (fun p => { p with swapDue := true })).onPair (fun p => { p with swapDue := false })).startHandover e 6 true := by
        have hall : (s.onPair (fun p => { p with swapDue := true })).pair.swapDue = true ∧ (s.onPair (fun p => { p with swapDue := true })).paired = true ∧
          (s.onPair (fun p => { p with swapDue := true })).pair.warm = false ∧ (s.onPair (fun p => { p with swapDue := true })).transition = false ∧
          (s.onPair (fun p => { p with swapDue := true })).isolated = false := ⟨rfl, hp, hw, ht, hi⟩
        have hact2 : (s.onPair (fun p => { p with swapDue := true })).active = some e := ha
        unfold State.dueSwap
        rw [if_pos hall, hact2]
      rw [hdue] at hgo2
      refine ⟨_, hgo2, ?_, (startHandover_ready _ e 6 true).2⟩
      refine handsOver_swap (s := s) (u := (s.onPair (fun p => { p with swapDue := true })).onPair (fun p => { p with swapDue := false })) rfl ?_ rfl rfl
        (startHandover_handsOver _ e 6 true)
      cases e <;> rfl
  · have hwake : Does 0x400000 s (s.warmWake (engOther e)) := does_warmWake (by decide) (does_refl _ s)
    have hgo : exec .warmStandbyReady s = .next ((s.warmWake (engOther e)).startHandover e 7 true) := by
      have hgate : (s.pair.ready && s.pair.warm && s.paired && !s.transition) = true := by simp [hr, hw, hp, ht]
      refine congrArg Host.Outcome.next ?_
      rw [hgate, ha]
    have hisl (i : Nat) (h : i ∈ warmIslands (engOther e)) : ((s.warmWake (engOther e)).island i).state = .on ∧
        ((s.warmWake (engOther e)).island i).isolated = false := by
      rw [State.warmWake, island_islandsTo s .on h]
      exact ⟨rfl, rfl⟩
    have hpair := pair_of_does hwake
    have htime := hwake.keeps .time (by decide)
    have hsched := hwake.keeps .sched (by decide)
    generalize s.warmWake (engOther e) = u at *
    have hstart : Does 0x1f2e1383 u (u.startHandover e 7 true) := does_startHandover (by decide) (does_refl _ u)
    refine ⟨_, hgo, handsOver_swap (congrArg PairSt.warm hpair) (congrArg (fun p => engIn p e) hpair) htime hsched (startHandover_handsOver u e 7 true),
      (startHandover_ready u e 7 true).1, fun i hi => ?_⟩
    rw [island_of (congrArg PowerSt.islands (hstart.keeps .power (by decide))) i]
    exact hisl i hi
  · have hpair := pair_pairWrote s 1
    have hrefused : (pairWrote s 1).swapRefused = true := by
      have hpaired : (pairWrote s 1).paired = false := by
        unfold State.paired at hp ⊢
        rw [hpair]
        exact hp
      simp [State.swapRefused, hpaired]
    refine ⟨_, exec_pairCmdSwap hn, ?_⟩
    rw [swapAct_refused hrefused]
    exact raise_raises _ _ _
  · refine congrArg Host.Outcome.next ((if_neg (by simp [hw, hf, hs])).trans ?_)
    have hpaired : (s.onPair (fun p => { p with swapDue := true })).paired = false := hp
    unfold State.dueSwap
    rw [if_neg (fun hh => by rw [hpaired] at hh; exact Bool.false_ne_true hh.2.1)]
  · rw [exec_lockstepHandoverEnd hh hw, if_pos hc]
  · have hgo := exec_lockstepHandoverEnd hh hw
    rw [if_neg (by simp [hc])] at hgo
    obtain ⟨hpair, hcount, hkept, hrep, hsolo⟩ := handoverEnds_gives s h
    have hends : Does 0xf2e0082 s (s.handoverEnds h) := does_handoverEnds (by decide) (does_refl _ s)
    obtain ⟨hnone, hswap, -, hat⟩ := noneHeld_endedPair h (s.time.jcycle - h.x) (noneHeld_of_settled hs)
    have heng := eng_endedPair s.pair h (s.time.jcycle - h.x)
    have hended : (endedPair s.pair h (s.time.jcycle - h.x)).handover = none ∧ (endedPair s.pair h (s.time.jcycle - h.x)).lastWhy = h.cause ∧
      (endedPair s.pair h (s.time.jcycle - h.x)).lastDur = min (s.time.jcycle - h.x) 65535 := ⟨rfl, rfl, rfl⟩
    obtain ⟨-, -, -, -, hdue, hcmd⟩ := hs
    rw [← hpair] at hnone hswap heng hended
    generalize s.handoverEnds h = u at *
    have hfree : Does 0xc040000 u u.freeLevels := does_freeLevels (by decide) (does_refl _ u)
    have hpairf := pair_freeLevels u
    have hmsix := msixHeld_freeLevels u
    generalize u.freeLevels = v at *
    have hsettled : Settled v := by
      obtain ⟨h1, h2, h3, h4⟩ := hnone
      unfold Settled
      rw [hpairf]
      exact ⟨h1, h2, h3, h4, hswap.trans hdue, by rw [hfree.keeps .power (by decide), hends.keeps .power (by decide)]; exact hcmd⟩
    obtain ⟨hlast, hpairt⟩ := pairSettled_gives hsettled
    have hafter : CodesKept [.evrLost] u v.pairSettled := codesKept_trans (codesKept_does hfree) (codesKept_does hlast)
    have hout : u.out <+: v.pairSettled.out := hfree.out.trans hlast.out
    refine ⟨_, hgo, ?_⟩
    have hpairs : ∃ x, v.pairSettled.pair = { u.pair with levels := none, holdAt := x } := by
      rcases hpairt with hp | hp
      · exact ⟨u.pair.holdAt, hp.trans hpairf⟩
      · exact ⟨none, by rw [hp, hpairf]⟩
    obtain ⟨x, hx⟩ := hpairs
    have hengt : v.pairSettled.eng (engOther h.out) = { engIn s.pair (engOther h.out) with state := .active, act := true } := by
      rw [eng_eq, hx]
      exact (engIn_holdAt { u.pair with levels := none } x _).trans ((engIn_levels u.pair none _).trans heng)
    beta_reduce
    rw [hengt, hx]
    exact ⟨rfl, rfl, hended.1, hended.2.1, hended.2.2, counted_mid (l := [.evrLost]) (by decide) (by decide) (codesKept_refl _ s) hcount hafter
        (fun d hd => by rw [List.mem_singleton.mp hd]; exact (endCtr_ne h).1),
      rfl, (congrArg EventSt.msixHeld (hlast.keeps .events (by decide))).trans hmsix, reports_after hrep hout, fun hs => reports_after (hsolo hs) hout⟩
  · have hgo : exec .drainEnd s = .next (s.drainEnds h) := by
      refine congrArg Host.Outcome.next ?_
      rw [hh]
      exact if_pos ⟨hw, hfall, hd⟩
    exact ⟨_, hgo, drainEnds_gives s h⟩
  · obtain ⟨heng, h1, h2, h3, h4, h5, h6⟩ := warmEnd_gives (h := h) hs
    refine ⟨_, exec_warmHandoverEnd hh hw hd hc, ?_⟩
    generalize ((warmRested ((warmTaken s h).handoverEnds h) h).deliverFrames (some .handoverRxDrop)).pairSettled = t at *
    refine ⟨congrArg EngSt.state heng, congrArg EngSt.act heng, h1, h2, h3, h4, h5, fun n => ?_⟩
    rw [h6]
    exact ⟨rfl, rfl, rfl⟩

end Sys2Proof.Proofs
end

section
/-! Requalification, resynchronisation, and what waits while no engine takes it (R242, R250, R251); and O51. -/
namespace Sys2Proof.Proofs
open Sys2Proof Sys2Proof.Machine Sys2Proof.Laws
set_option Elab.async false -- one thread, within the memory of the check

/-! ### The final stall (R250) -/

/-- A COMMIT that is pending is deferred. -/
theorem deferCommit_pending {s : State} {p : SealedSet} (h : s.setup.pendingSet = some p) (hd : p.deferred = false) :
    s.deferCommit.setup.state = .deferred ∧ Reports .commitDeferred (le 2 p.seq) s s.deferCommit := by
  have hgo : s.deferCommit = (s.onSetup (fun u => { u with pendingSet := some { p with deferred := true }, state := .deferred })).raise
      .commitDeferred (le 2 p.seq) := by
    unfold State.deferCommit
    rw [h]
    exact if_neg (by simp [hd])
  rw [hgo]
  have hset : State.setup _ = State.setup _ := (raise_raises (s.onSetup (fun u => { u with pendingSet := some { p with deferred := true }, state := .deferred }))
    .commitDeferred (le 2 p.seq)).toFlags.keeps .setup (by decide)
  exact ⟨(congrArg SetupSt.state hset).trans rfl, reports_before (List.prefix_refl s.out) (reports_raise _ _ _)⟩

/-- The state in which a final stall begins. -/
def stalled (s : State) : State :=
  ((s.onPair (fun p => { p with resync := some .quiesce })).onPair (fun p => { p with resync := some .stall })).holdWords

theorem exec_bulkCopyDone {s : State} (h : s.pair.resync = some .copy) : exec .bulkCopyDone s =
    .next (if s.onWire = false then (stalled s).deferCommit else s.onPair (fun p => { p with resync := some .quiesce })) := by
  refine congrArg Host.Outcome.next ?_
  rw [h]
  unfold State.quiesceEnds
  by_cases hw : s.onWire = false
  · rw [if_pos hw, if_pos ⟨rfl, hw⟩]
    rfl
  · rw [if_neg hw, if_neg (fun hh => hw hh.2)]

/-! ### The join (R250, R251) -/

theorem count_mirrorNow (s : State) : CodesKept [.evrLost] s s.mirrorNow := by
  unfold State.mirrorNow
  refine codesKept_trans (t := s.onTally (fun t => t.mirrored s.time.jcycle s.time64)) (codesKept_of_count rfl)
    (codesKept_foldl _ _ (fun t x _ => ?_))
  unfold State.mirrorCross
  exact codesKept_trans (t := t.onTally _) (codesKept_of_count rfl) (codesKept_raise _ _ _)

/-- What the join does to the Tally and the islands. -/
def joinFirst (s : State) (e : Eng) : State := if s.pairModeMode = 1 then s.mirrorNow.warmRest e else s.mirrorBoundary.warmWake e

theorem joinFirst_gives (s : State) (e : Eng) : CodesKept [.evrLost] s (joinFirst s e) ∧ Does 0xe620082 s (joinFirst s e) ∧
    (joinFirst s e).power.pendCmd = s.power.pendCmd := by
  have hmir : Does 0xe220082 s s.mirrorNow := does_mirrorNow (by decide) (does_refl _ s)
  have hbound : CodesKept [.evrLost] s s.mirrorBoundary ∧ Does 0xe220082 s s.mirrorBoundary := by
    unfold State.mirrorBoundary
    split
    · exact ⟨count_mirrorNow s, hmir⟩
    · exact ⟨codesKept_refl _ s, does_refl _ s⟩
  have hisl (u : State) (l : List Nat) (st : IslState) : Does 0x400000 u (u.islandsTo l st) ∧ (u.islandsTo l st).power.pendCmd = u.power.pendCmd := by
    obtain ⟨i, hi⟩ := power_islandsTo u l st
    exact ⟨does_islandsTo (by decide) (does_refl _ u), by rw [hi]⟩
  unfold joinFirst
  split
  · obtain ⟨hd, hp⟩ := hisl s.mirrorNow (warmIslands e) .retention
    exact ⟨codesKept_trans (count_mirrorNow s) (codesKept_does hd), does_trans (does_mono hmir (by decide)) (does_mono hd (by decide)),
      hp.trans (congrArg PowerSt.pendCmd (hmir.keeps .power (by decide)))⟩
  · obtain ⟨hd, hp⟩ := hisl s.mirrorBoundary (warmIslands e) .on
    exact ⟨codesKept_trans hbound.1 (codesKept_does hd), does_trans (does_mono hbound.2 (by decide)) (does_mono hd (by decide)),
      hp.trans (congrArg PowerSt.pendCmd (hbound.2.keeps .power (by decide)))⟩

/-- The joining engine is Standby, and the pair in its mode. -/
def joined (s : State) (e : Eng) (warm : Bool) : State :=
  (s.setEng e (fun g => { g with state := .standby })).onPair (fun p => { p with resync := none, suspect := false, warm := warm })

/-- What is told of a join. -/
def joinTold (s : State) (e : Eng) : State :=
  (((s.count .resyncCount 0).raise .resyncDone (le 1 (engCode e))).useFree).announce 3 (s.freeNat 8)

theorem join_eq (s : State) (e : Eng) : s.join e = joinTold (joined (joinFirst s e) e (decide (s.pairModeMode = 1))) e := by
  unfold State.join joinFirst
  by_cases h : s.pairModeMode = 1
  · simp only [h, decide_true, if_true]
    rfl
  · simp only [h, decide_false, if_false, Bool.false_eq_true]
    rfl

/-- With nothing in progress nothing is held. -/
theorem holding_of_transition {s : State} (h : s.transition = false) : s.holding = false := by
  simp only [State.transition, Bool.or_eq_false_iff, Option.isSome_eq_false_iff, Option.isNone_iff_eq_none] at h
  simp [State.holding, h.1.1, h.1.2, h.2]

/-- Where nothing waits and nothing is in progress, settling closes the hold buffer. -/
theorem pair_pairSettled_open {s : State} (h : Settled s) (ht : s.transition = false) : s.pairSettled.pair = (unheld s).pair := by
  have hrel : s.released = unheld s := (released_none (noneHeld_of_settled h)).trans (if_neg (by simp [holding_of_transition ht]))
  rw [pairSettled_settled h ht, pair_of_does (does_releaseCommit (by decide) (does_refl 0x1 _)), hrel]

theorem joinTold_gives (s : State) (e : Eng) : (joinTold s e).pair = s.pair ∧ Counted .resyncCount 0 0 1 s (joinTold s e) ∧
    Reports .resyncDone (le 1 (engCode e)) s (joinTold s e) ∧ Does 0x1f220082 s (joinTold s e) := by
  have hcount : Does 0xe220082 s (s.count .resyncCount 0) := does_count (by decide) (does_refl _ s)
  have hlast : Does 0x11000000 ((s.count .resyncCount 0).raise .resyncDone (le 1 (engCode e))) (joinTold s e) :=
    does_announce (by decide) (does_useFree (by decide) (does_refl _ _))
  refine ⟨?_, ?_, ?_, ?_⟩
  · rw [pair_of_does hlast, pair_raise, pair_count]
  · exact counted_mid (l := [.evrLost]) (by decide) (by decide) (codesKept_refl _ s) (counted_countN s _ 1 (by decide) (by decide))
      (codesKept_trans (codesKept_raise _ _ _) (codesKept_does hlast))
  · exact reports_after (reports_before hcount.out (reports_raise _ _ _)) hlast.out
  · exact does_trans (does_mono (does_raise (M := 0xe220082) (by decide) hcount) (by decide)) (does_mono hlast (by decide))

/-- The engine that joins is the one that resynchronises. -/
theorem joining_state {s : State} {e : Eng} (h : s.joining = some e) : (s.eng e).state = .resyncing := by
  unfold State.joining at h
  split at h
  next ha =>
    cases e with
    | a => exact ha
    | b => simp at h
  next ha =>
    split at h
    next hb =>
      cases e with
      | a => simp at h
      | b => exact hb
    next hb => simp at h

/-- The pair once an engine has joined. -/
theorem pair_joined (s : State) (e : Eng) (warm : Bool) : (joined s e warm).pair =
    { withEng s.pair e { s.eng e with state := .standby } with resync := none, suspect := false, warm := warm } := by
  have hset := pair_setEng s e (fun g => { g with state := .standby })
  unfold joined
  generalize s.setEng e (fun g => { g with state := .standby }) = u at hset
  show { u.pair with resync := none, suspect := false, warm := warm } = _
  rw [hset]

/-- What an engine's join leaves of the pair. -/
theorem joined_fields (s : State) (e : Eng) (warm : Bool) : ((joined s e warm).eng e).state = .standby ∧ (joined s e warm).pair.resync = none ∧
    (joined s e warm).pair.suspect = false ∧ (joined s e warm).pair.warm = warm ∧ (joined s e warm).pair.handover = s.pair.handover ∧
    (joined s e warm).pair.verdict = s.pair.verdict ∧ (joined s e warm).pair.held = s.pair.held ∧ (joined s e warm).pair.merge = s.pair.merge ∧
    (joined s e warm).pair.reads = s.pair.reads ∧ (joined s e warm).pair.hold = s.pair.hold ∧ (joined s e warm).pair.swapDue = s.pair.swapDue := by
  rw [eng_eq, pair_joined]
  cases e <;> exact ⟨rfl, rfl, rfl, rfl, rfl, rfl, rfl, rfl, rfl, rfl, rfl⟩

theorem eng_unheld (s : State) (e : Eng) : engIn (unheld s).pair e = s.eng e := engIn_holdAt s.pair none e

/-- The clause on the join. -/
theorem resyncDone_gives {s : State} {e : Eng} (hr : s.pair.resync = some .stall) (hj : s.joining = some e) (hs : Settled s)
    (hh : s.pair.handover = none) (hv : s.pair.verdict = false) :
    Gives .resyncDone s (fun t => (t.eng e).state = .standby ∧ t.pair.resync = none ∧ t.pair.suspect = false ∧ t.pair.holdAt = none ∧
      t.pair.warm = decide (s.pairModeMode = 1) ∧ Counted .resyncCount 0 0 1 s t ∧ Reports .resyncDone (le 1 (engCode e)) s t) := by
  have hgo : exec .resyncDone s = .next (s.join e).pairSettled := by
    refine congrArg Host.Outcome.next ?_
    rw [hr, hj]
  rw [join_eq] at hgo
  obtain ⟨hkept, hdid, hcmd⟩ := joinFirst_gives s e
  have hpair := pair_of_does hdid
  generalize joinFirst s e = u at *
  obtain ⟨h1, h2, h3, h4, h5, h6, h7, h8, h9, h10, h11⟩ := joined_fields u e (decide (s.pairModeMode = 1))
  have hjoin : Does 0xc0000 u (joined u e (decide (s.pairModeMode = 1))) :=
    does_onPairActs (by decide) (does_setEng (by decide) (does_refl _ u))
  generalize joined u e (decide (s.pairModeMode = 1)) = v at *
  obtain ⟨hpairt, hcount, hrep, htold⟩ := joinTold_gives v e
  generalize joinTold v e = w at *
  have hset : Settled w := by
    obtain ⟨k1, k2, k3, k4, k5, k6⟩ := hs
    unfold Settled
    rw [hpairt, h7, h8, h9, h10, h11, hpair]
    exact ⟨k1, k2, k3, k4, k5, by rw [htold.keeps .power (by decide), hjoin.keeps .power (by decide), hcmd]; exact k6⟩
  have htrans : w.transition = false := by
    unfold State.transition
    rw [hpairt, h5, h6, h2, hpair, hh, hv]
    rfl
  have hend := pair_pairSettled_open hset htrans
  obtain ⟨hlast, -⟩ := pairSettled_gives hset
  refine ⟨_, hgo, ?_⟩
  beta_reduce
  rw [eng_eq, hend, eng_unheld, eng_eq, hpairt]
  have hun : (unheld w).pair.resync = v.pair.resync ∧ (unheld w).pair.suspect = v.pair.suspect ∧ (unheld w).pair.warm = v.pair.warm :=
    ⟨(congrArg PairSt.resync hpairt : w.pair.resync = _), (congrArg PairSt.suspect hpairt : w.pair.suspect = _),
      (congrArg PairSt.warm hpairt : w.pair.warm = _)⟩
  exact ⟨h1, hun.1.trans h2, hun.2.1.trans h3, rfl, hun.2.2.trans h4,
    counted_mid (l := [.evrLost]) (by decide) (by decide) (codesKept_trans hkept (codesKept_does hjoin)) hcount (codesKept_does hlast),
    reports_after (reports_before (hdid.out.trans hjoin.out) hrep) hlast.out⟩

/-! ### The timeout (R250) -/

/-- A resynchronisation that is given up is reported. -/
def resyncLost (s : State) (e : Eng) : State :=
  (s.useFree.onPair (fun p => { p with resync := none })).raise .resyncFailed (le 1 (engCode e))

theorem pair_resyncLost (s : State) (e : Eng) : (resyncLost s e).pair = { s.pair with resync := none } := pair_raise _ _ _

theorem resyncTimeout_gives {s : State} {e : Eng} (hr : s.pair.resync ≠ none) (hj : s.joining = some e) (hs : Settled s) :
    Gives .resyncTimeout s (fun t => t.pair.resync = none ∧ (t.eng e).act = false ∧ (t.eng e).state ≠ .resyncing ∧
      (t.eng e).state ≠ .standby ∧ Reports .resyncFailed (le 1 (engCode e)) s t) := by
  obtain ⟨r, hr⟩ := Option.ne_none_iff_exists'.mp hr
  have hgo : exec .resyncTimeout s = .next ((resyncLost s e).failEngine e (s.freeNat 8)).pairSettled := by
    refine congrArg Host.Outcome.next ?_
    rw [hr, hj]
    rfl
  have hpair := pair_resyncLost s e
  have hfirst : Does 0x1e260082 s (resyncLost s e) := does_raise (by decide) (does_onPair (by decide) rfl (does_useFree (by decide) (does_refl _ s)))
  have hrep : Reports .resyncFailed (le 1 (engCode e)) s (resyncLost s e) := reports_before (List.prefix_refl s.out) (reports_raise _ _ _)
  generalize resyncLost s e = u at *
  obtain ⟨g, hg, hact, -, hst⟩ := pair_failEngine u e (s.freeNat 8)
  have hfail := did_failEngine u e (s.freeNat 8)
  generalize u.failEngine e (s.freeNat 8) = v at *
  have hfields : v.pair.held = s.pair.held ∧ v.pair.merge = s.pair.merge ∧ v.pair.reads = s.pair.reads ∧ v.pair.hold = s.pair.hold ∧
      v.pair.swapDue = s.pair.swapDue ∧ v.pair.resync = none := by
    rw [hg, hpair]
    cases e <;> exact ⟨rfl, rfl, rfl, rfl, rfl, rfl⟩
  obtain ⟨f1, f2, f3, f4, f5, f6⟩ := hfields
  have hset : Settled v := by
    obtain ⟨k1, k2, k3, k4, k5, k6⟩ := hs
    unfold Settled
    rw [f1, f2, f3, f4, f5, hfail.keeps .power (by decide), hfirst.keeps .power (by decide)]
    exact ⟨k1, k2, k3, k4, k5, k6⟩
  obtain ⟨hlast, hend⟩ := pairSettled_gives hset
  have heng : v.pairSettled.eng e = g ∧ v.pairSettled.pair.resync = none := by
    rcases hend with h | h
    · rw [eng_eq, h]
      exact ⟨by rw [hg]; exact engIn_withEng_same _ _ _, f6⟩
    · rw [eng_eq, h, engIn_holdAt]
      exact ⟨by rw [hg]; exact engIn_withEng_same _ _ _, f6⟩
  refine ⟨_, hgo, ?_⟩
  beta_reduce
  rw [heng.1]
  refine ⟨heng.2, hact, ?_, ?_, reports_after hrep (hfail.out.trans hlast.out)⟩
  · rcases hst with h | h | h <;> rw [h] <;> decide
  · rcases hst with h | h | h <;> rw [h] <;> decide

/-! ### What waits while no engine takes it (R242) -/

/-- A transaction that waits with its stamp. -/
def waiting (s : State) (o : HeldOp) : HeldTx := { op := o, stamp := s.time64 }

/-- The transactions that wait of a link. -/
def queuedOf (s : State) (f : Nat) : Nat := (s.pair.held.filter (fun y => s.heldLink y.op = s.fnLink f)).length

/-- More transactions wait. -/
def alsoHeld (l : List HeldTx) (s : State) : State := s.onPair (fun p => { p with held := p.held ++ l })

theorem alsoHeld_nil (s : State) : alsoHeld [] s = s := onPair_id (by rw [List.append_nil])

theorem alsoHeld_twice (l m : List HeldTx) (s : State) : alsoHeld m (alsoHeld l s) = alsoHeld (l ++ m) s := by
  unfold alsoHeld State.onPair
  dsimp only
  rw [List.append_assoc]

theorem hold_evicted {s : State} {o : HeldOp} (h : s.pair.handover.isSome = true) (he : (s.fn o.fn).state = .evicting) : s.hold o = s :=
  if_pos ⟨h, he⟩

theorem not_evicted {s : State} {f : Nat} (h : s.pair.handover = none ∨ (s.fn f).state ≠ .evicting) :
    ¬(s.pair.handover.isSome = true ∧ (s.fn f).state = .evicting) := by
  rintro ⟨h1, h2⟩
  rcases h with h | h
  · rw [h] at h1
    exact absurd h1 (by decide)
  · exact h h2

theorem hold_queued {s : State} {o : HeldOp} (hne : s.pair.handover = none ∨ (s.fn o.fn).state ≠ .evicting)
    (hn : s.holding = false ∨ queuedOf s o.fn < 8192) : s.hold o = alsoHeld [waiting s o] s :=
  (if_neg (not_evicted hne)).trans (if_pos hn)

/-- Beyond the queue the merge store takes the transaction, in the place of one with its key. -/
def mergedIn (s : State) (o : HeldOp) : State :=
  s.onPair (fun p => { p with merge := p.merge.filter (fun y => y.op.sameKey o = false) ++ [waiting s o] })

theorem hold_merged {s : State} {f page : Nat} {whole : Bool} {v : Nat} (hne : s.pair.handover = none ∨ (s.fn f).state ≠ .evicting)
    (hh : s.holding = true) (hn : 8192 ≤ queuedOf s f) : s.hold (.doorbell f page whole v) =
      if s.pair.merge.any (fun y => y.op.sameKey (.doorbell f page whole v)) then (mergedIn s (.doorbell f page whole v)).count .handoverDbMerged 0
      else mergedIn s (.doorbell f page whole v) := by
  have hfull : ¬(s.holding = false ∨ queuedOf s f < 8192) := by
    rintro (h | h)
    · simp [hh] at h
    · omega
  exact (if_neg (not_evicted hne)).trans (if_neg hfull)

theorem queuedOf_wroteGo (s : State) (g v f : Nat) : queuedOf (s.wroteGo g v) f = queuedOf s f := rfl

/-- What an end of Idle leaves of what a transaction waits by. -/
theorem endIdle_kept (s : State) : s.endIdle.pair = s.pair ∧ s.endIdle.time64 = s.time64 ∧ (∀ f, s.endIdle.fn f = s.fn f) ∧
    (∀ f, queuedOf s.endIdle f = queuedOf s f) := by
  have hpair : s.endIdle.pair = s.pair := keeps_endIdle s .pair (by decide)
  have hlink (f : Nat) : s.endIdle.fnLink f = s.fnLink f := fnLink_congr (keeps_endIdle s .setup (by decide)) f
  refine ⟨hpair, time64_of (keeps_endIdle s .time (by decide)) (keeps_endIdle s .rtc (by decide)) (coreRuns_endIdle s),
    fun f => fn_congr (keeps_endIdle s .fns (by decide)) f, fun f => ?_⟩
  unfold queuedOf State.heldLink
  simp only [hpair, hlink]

theorem holding_endIdle (s : State) : s.endIdle.holding = s.holding := by
  have hpair : s.endIdle.pair = s.pair := keeps_endIdle s .pair (by decide)
  unfold State.holding
  rw [hpair, Laws.active_of (congrArg PairSt.acts hpair)]

theorem exec_rung {c : Instr} {f : Fin 68} {whole : Bool} {k : DbKind} {v : BitVec 64} (h : Rung c f whole k v) (s : State) :
    exec c s = .next (s.doorbell f k whole v.toNat) := by
  rcases h with ⟨x, rfl, rfl, rfl⟩ | ⟨rfl, rfl⟩ | ⟨rfl, rfl⟩ | ⟨rfl, rfl⟩ | ⟨x, rfl, rfl, rfl⟩ | ⟨x, rfl, rfl, rfl⟩ | ⟨x, rfl, rfl, rfl⟩
  all_goals rfl

/-- A doorbell that no engine takes. -/
theorem doorbell_held {s : State} (f : Nat) (k : DbKind) (whole : Bool) (v : Nat) (hn : s.noPartner = false) (hh : s.partnerHeld [2] = true) :
    s.doorbell f k whole v = (s.endIdle.hold (.doorbell f k.page whole v)).partnerWake f := by
  unfold State.doorbell
  rw [if_neg (by simp [hn]), if_pos hh]

/-- Outside the modes of Run and Idle a partner's wake reaches no Tether, and in them there is none. -/
theorem keeps_wokenUp (s : State) (f : Nat) : Keeps [.watch, .supply, .power] s (s.partnerWake f) := by
  have hbegin (w : Wake) : Keeps [.watch, .supply, .power] s (s.beginExit w false) :=
    keeps_of_partMask (does_beginExit (by decide) (does_refl _ s))
  unfold State.partnerWake
  split
  next hm =>
    unfold State.registerWake
    dsimp only
    rw [hm]
    dsimp only
    split
    · exact keeps_refl _ s
    · split
      · exact hbegin _
      · exact keeps_refl _ s
  next hm =>
    unfold State.registerWake
    dsimp only
    rw [hm]
    dsimp only
    split
    · exact keeps_refl _ s
    · split
      · exact keeps_mono (keeps_onPower s _) (by decide)
      · exact keeps_refl _ s
  next => exact keeps_refl _ s

theorem pair_partnerWake (s : State) (f : Nat) : (s.partnerWake f).pair = s.pair := keeps_wokenUp s f .pair (by decide)

/-- A run of transactions of one function waits in order, while its link has room. -/
theorem holds_queued {s : State} {f : Nat} (hne : s.pair.handover = none ∨ (s.fn f).state ≠ .evicting) (l : List HeldOp) (hl : ∀ o ∈ l, o.fn = f)
    (hn : queuedOf s f + l.length ≤ 8192) :
    l.foldl State.hold s = alsoHeld (l.map (waiting s)) s := by
  induction l generalizing s with
  | nil => exact (alsoHeld_nil s).symm
  | cons o l ih =>
    have hof : o.fn = f := hl o List.mem_cons_self
    rw [List.length_cons] at hn
    have hone : s.hold o = alsoHeld [waiting s o] s := hold_queued (by rw [hof]; exact hne) (.inr (by rw [hof]; omega))
    have hcount : queuedOf (alsoHeld [waiting s o] s) f = queuedOf s f + 1 := by
      have hlink : s.heldLink (waiting s o).op = s.fnLink f := congrArg s.fnLink hof
      show ((s.pair.held ++ [waiting s o]).filter (fun y => decide (s.heldLink y.op = s.fnLink f))).length = _
      rw [List.filter_append, List.length_append, List.filter_cons_of_pos (by simp [hlink])]
      rfl
    have hrest := ih (s := alsoHeld [waiting s o] s) hne (fun o' ho' => hl o' (List.mem_cons_of_mem o ho')) (by rw [hcount]; omega)
    rw [List.foldl_cons, hone, hrest, alsoHeld_twice]
    rfl

theorem waiting_congr {s t : State} (h : t.time64 = s.time64) (o : HeldOp) : waiting t o = waiting s o := by
  unfold waiting
  rw [h]

/-- A snapshot that a trigger captures rests on the pair, the clock, the Tally and what the OF holds. -/
theorem snapShot_congr {s t : State} (hpair : t.pair = s.pair) (htime : t.time64 = s.time64) (htally : t.tally = s.tally) (hclock : t.time = s.time)
    (hofs : t.ofs = s.ofs) (n set seq : Nat) : t.snapShot n set seq = s.snapShot n set seq := by
  have hof : t.of n = s.of n := congrArg (fun l => Tbl.get (fun _ => OfSt.init) l n) hofs
  have hcode : t.activeCode = s.activeCode := by
    unfold State.activeCode
    rw [Laws.active_of (congrArg PairSt.acts hpair)]
  have hseen : t.tallySeen = s.tallySeen := by
    funext key
    unfold State.tallySeen
    rw [hpair, htally, hclock]
  unfold State.snapShot State.snapHeader State.crossings State.seenJ
  rw [hpair, htime, htally, hof, hclock, hcode, hseen]

/-- The snapshot that a trigger captures does not rest on the power mode. -/
theorem snapShot_endIdle (s : State) (n set seq : Nat) : s.endIdle.snapShot n set seq = s.snapShot n set seq :=
  snapShot_congr (endIdle_kept s).1 (endIdle_kept s).2.1 (keeps_endIdle s .tally (by decide)) (keeps_endIdle s .time (by decide))
    (keeps_endIdle s .ofs (by decide)) n set seq

theorem mailbox_held {s : State} (f : Nat) (go : BitVec 8) (req : MbxReq) (hn : s.noPartner = false) (hh : s.partnerHeld [2, 5] = true) :
    s.mbxGo f go req = ((((mbxWords req).map (fun w : Nat × Nat => HeldOp.record f w.1 w.2)) ++ [HeldOp.mailbox f go.toNat]).foldl State.hold
      (s.endIdle.wroteGo f go.toNat)).partnerWake f := by
  unfold State.mbxGo
  rw [if_neg (by simp [hn])]
  dsimp only
  rw [if_pos hh, List.foldl_append, List.foldl_map]
  rfl

/-- Settles O51: each step of a resynchronisation by the pair it leaves, and what waits by the queue it joins. -/
theorem enginesRejoinThroughTheBulkCopy : Obligations.EnginesRejoinThroughTheBulkCopy := by
  unfold Obligations.EnginesRejoinThroughTheBulkCopy
  refine ⟨fun s e hn hst => ?_, fun s e hst => ⟨?_, ?_⟩, fun s hr => ⟨fun hw => ?_, fun hw => ?_⟩,
    fun s e hr hj hs hh hv => resyncDone_gives hr hj hs hh hv, fun s e hr hj hs => resyncTimeout_gives hr hj hs,
    fun s c f whole k v hc hn hh => ⟨fun h1 h2 => ?_, fun hne => ⟨fun hroom => ?_, fun hhold hfull => ?_⟩⟩,
    fun s c f go req op hc hn hh hne hroom => ?_, fun s n set seq hn hh hne hroom => ?_⟩
  · have heng : (pairWrote s (16 * engCode e - 14)).eng e = s.eng e := congrArg (fun p => engIn p e) (pair_pairWrote s _)
    refine congrArg Host.Outcome.next ((if_neg (by simp [hn])).trans ?_)
    show (match ((pairWrote s (16 * engCode e - 14)).eng e).state with | .failed | .retired => _ | _ => _) = _
    rw [heng]
    rcases hst with h | h
    · rw [h]
    · rw [h]
  · have hgo : exec (.requalifyDone e true) s =
        .next ((s.setEng e (fun g => { g with state := .resyncing })).onPair (fun p => { p with resync := some .copy })) := by
      refine congrArg Host.Outcome.next ?_
      rw [hst]
      rfl
    refine ⟨_, hgo, ?_, ?_, ?_, rfl⟩
    · have hd : Does (partMask [.pair, .acts]) s ((s.setEng e (fun g => { g with state := .resyncing })).onPair (fun p => { p with resync := some .copy })) :=
        does_onPairActs (by decide) (does_setEng (by decide) (does_refl _ s))
      exact keeps_of_partMask hd
    · cases e <;> rfl
    · cases e <;> rfl
  · have hgo : exec (.requalifyDone e false) s = .next (s.failEngine e 1) := by
      refine congrArg Host.Outcome.next ?_
      rw [hst]
      rfl
    obtain ⟨g, hg, hact, hcause, hstate⟩ := pair_failEngine s e 1
    have heng : (s.failEngine e 1).eng e = g := by rw [eng_eq, hg, engIn_withEng_same]
    refine ⟨_, hgo, ?_⟩
    beta_reduce
    rw [heng]
    refine ⟨hact, hcause, ?_, reports_failEngine s e 1⟩
    rcases hstate with h | h | h <;> rw [h] <;> decide
  · rw [exec_bulkCopyDone hr, if_neg (by simp [hw])]
  · have hgo := exec_bulkCopyDone hr
    rw [if_pos hw] at hgo
    have hdefer : Does 0xe220083 (stalled s) (stalled s).deferCommit := does_deferCommit (by decide) (does_refl _ _)
    refine ⟨_, hgo, (congrArg PairSt.resync (pair_of_does hdefer)).trans rfl, (congrArg PairSt.holdAt (pair_of_does hdefer)).trans rfl, fun p hp hd => ?_⟩
    obtain ⟨hst, hrep⟩ := deferCommit_pending (s := stalled s) hp hd
    exact ⟨hst, reports_before (List.prefix_refl s.out) hrep⟩
  · obtain ⟨hpair, -, hfn, -⟩ := endIdle_kept s
    refine ⟨_, (exec_rung hc s).trans (congrArg Host.Outcome.next (doorbell_held f k whole v.toNat hn hh)), ?_⟩
    beta_reduce
    rw [pair_partnerWake, hold_evicted (s := s.endIdle) (by rw [hpair]; exact h1) (by rw [hfn]; exact h2), hpair]
  · obtain ⟨hpair, htime, hfn, hqueue⟩ := endIdle_kept s
    have hone := hold_queued (s := s.endIdle) (o := .doorbell f k.page whole v.toNat) (by rw [hpair, hfn]; exact hne) (by rw [holding_endIdle, hqueue]; exact hroom)
    refine ⟨_, (exec_rung hc s).trans (congrArg Host.Outcome.next (doorbell_held f k whole v.toNat hn hh)), ?_, ?_⟩
    · rw [hone]
      exact keeps_trans (keeps_mono (keeps_endIdle s) (by decide)) (keeps_trans (keeps_of_partMask (l := [.watch, .supply, .power, .pair])
        (does_onPair (by decide) rfl (does_refl _ s.endIdle))) (keeps_mono (keeps_wokenUp _ _) (by decide)))
    · rw [pair_partnerWake, hone, waiting_congr htime]
      exact congrArg (fun p : PairSt => { p with held := p.held ++ [waiting s (.doorbell f k.page whole v.toNat)] }) hpair
  · obtain ⟨hpair, htime, hfn, hqueue⟩ := endIdle_kept s
    have htally : s.endIdle.tally = s.tally := keeps_endIdle s .tally (by decide)
    have hone := hold_merged (s := s.endIdle) (f := f) (page := k.page) (whole := whole) (v := v.toNat) (by rw [hpair, hfn]; exact hne)
      (by rw [holding_endIdle]; exact hhold) (by rw [hqueue]; exact hfull)
    have hgo := (exec_rung hc s).trans (congrArg Host.Outcome.next (doorbell_held f k whole v.toNat hn hh))
    have hmerged : (mergedIn s.endIdle (.doorbell f k.page whole v.toNat)).pair.held = s.pair.held ∧
        (mergedIn s.endIdle (.doorbell f k.page whole v.toNat)).pair.merge =
          s.pair.merge.filter (fun y => y.op.sameKey (.doorbell f k.page whole v.toNat) = false) ++ [waiting s (.doorbell f k.page whole v.toNat)] := by
      rw [← hpair, ← waiting_congr htime]
      exact ⟨rfl, rfl⟩
    have hcount : CodesKept [.evrLost] s (mergedIn s.endIdle (.doorbell f k.page whole v.toNat)) := codesKept_of_count (congrArg TallySt.count htally)
    refine ⟨_, hgo, ?_⟩
    rw [hone, hpair]
    generalize mergedIn s.endIdle (.doorbell f k.page whole v.toNat) = u at hmerged hcount
    have hwake (w : State) : CodesKept [.evrLost] w (w.partnerWake f) := codesKept_does (did_partnerWake w f)
    by_cases hany : s.pair.merge.any (fun y => y.op.sameKey (.doorbell f k.page whole v.toNat)) = true
    · rw [if_pos hany]
      rw [pair_partnerWake, pair_count]
      exact ⟨hmerged.1, hmerged.2, fun _ => counted_mid (l := [.evrLost]) (by decide) (by decide) hcount (counted_countN u _ 1 (by decide) (by decide)) (hwake _)⟩
    · rw [if_neg hany]
      rw [pair_partnerWake]
      exact ⟨hmerged.1, hmerged.2, fun ⟨y, hy, hs⟩ => absurd (List.any_eq_true.mpr ⟨y, hy, hs⟩) hany⟩
  · obtain ⟨hpair, htime, hfn, hqueue⟩ := endIdle_kept s
    have hqueue' : queuedOf (s.endIdle.wroteGo f go.toNat) f = queuedOf s f := (queuedOf_wroteGo _ _ _ _).trans (hqueue f)
    have hheld := holds_queued (s := s.endIdle.wroteGo f go.toNat) (f := f) (by rw [← hpair, ← hfn] at hne; exact hne)
      (((mbxWords (mbxWithOp req op)).map (fun w : Nat × Nat => HeldOp.record f w.1 w.2)) ++ [HeldOp.mailbox f go.toNat])
      (fun o ho => by
        rcases List.mem_append.mp ho with h | h
        · obtain ⟨w, -, rfl⟩ := List.mem_map.mp h
          rfl
        · rw [List.mem_singleton.mp h]
          rfl) (by rw [hqueue']; exact hroom)
    refine ⟨_, (exec_request hc s).trans (congrArg Host.Outcome.next (mailbox_held f go (mbxWithOp req op) hn hh)), ?_⟩
    rw [hheld]
    beta_reduce
    rw [pair_partnerWake]
    have hwait : waiting (s.endIdle.wroteGo f go.toNat) = waiting s := funext (fun o => waiting_congr htime o)
    rw [hwait]
    exact congrArg (fun p : PairSt => p.held ++ _) hpair
  · obtain ⟨hpair, htime, hfn, hqueue⟩ := endIdle_kept s
    have hpartner : s.endIdle.partnerHeld [5] = true := (partnerHeld_congr hpair (wakeKept_endIdle s).islands [5]).trans hh
    have hgo : exec (.snapshotTrigger n set seq) s =
        .next (s.endIdle.takeIn (.snap n set.toNat seq.toNat (s.endIdle.snapShot n set.toNat seq.toNat))) :=
      congrArg Host.Outcome.next ((if_neg (by simp [hn])).trans (if_pos hpartner))
    rw [snapShot_endIdle] at hgo
    have hone := hold_queued (s := s.endIdle) (o := .snap n set.toNat seq.toNat (s.snapShot n set.toNat seq.toNat)) (by rw [hpair, hfn]; exact hne)
      (.inr (by rw [hqueue]; exact hroom))
    refine ⟨_, hgo, ?_⟩
    unfold State.takeIn
    rw [hone]
    beta_reduce
    rw [pair_partnerWake, waiting_congr htime]
    exact congrArg (fun p : PairSt => p.held ++ [waiting s (.snap n set.toNat seq.toNat (s.snapShot n set.toNat seq.toNat))]) hpair

end Sys2Proof.Proofs
end

section
/-! The comparator and the Verdict (R233, R234, R237 to R239; R403, 05_rings_and_doorbells); and O50. -/
namespace Sys2Proof.Proofs
open Sys2Proof Sys2Proof.Machine Sys2Proof.Laws
set_option Elab.async false -- one thread, within the memory of the check

/-! ### The comparator (R233) -/

theorem comparing_of {s t : State} (h : t.pair = s.pair) : t.comparing = s.comparing := by
  unfold State.comparing State.paired
  rw [h]

/-- A difference of the flits present is kept, with its J-cycle, TYPE and stamp, and both slots are empty again. -/
theorem fillSlot_differs {s : State} {typ : Nat} (hc : s.comparing = true) (hd : s.pair.differs = some typ) (hn : s.pair.diverged = none) :
    s.fillSlot.pair.diverged = some (s.time.jcycle, typ, s.time64) ∧ s.fillSlot.pair.slotA = [] ∧ s.fillSlot.pair.slotB = [] := by
  have hsome : ¬ (s.pair.slotA = [] ∧ s.pair.slotB = []) := by
    rintro ⟨ha, hb⟩
    have hnone : s.pair.differs = none := by
      unfold PairSt.differs
      rw [ha, hb]
      rfl
    exact absurd (hnone.symm.trans hd) (by simp)
  have hpair : s.fillSlot.pair.diverged = if s.comparing = true ∧ s.pair.diverged = none then
      s.pair.differs.map (fun t => (s.time.jcycle, t, s.time64)) else s.pair.diverged := by
    unfold State.fillSlot
    rw [if_neg hsome]
    rfl
  unfold State.fillSlot at hpair ⊢
  rw [if_neg hsome] at hpair ⊢
  rw [hpair, if_pos ⟨hc, hn⟩, hd]
  exact ⟨rfl, rfl, rfl⟩

/-- The delay line's slots leave; nothing else of the pair moves. -/
theorem pair_lineMoves (s : State) : ∃ l, s.lineMoves.pair = { s.pair with line := l } := by
  have hemit (e : Eng) (l : List LineSlot) (u : State) : (l.foldl (fun t x => t.emitSlot e x) u).pair = u.pair :=
    pair_of_does (does_foldl (fun x a hx => does_emitSlot (M := 0x8000000) (by decide) hx) (does_refl _ u))
  have hset (f : PairSt → PairSt) (u : State) : (u.onPair f).pair = f u.pair := rfl
  unfold State.lineMoves
  split
  · exact ⟨s.pair.line, rfl⟩
  · split
    · exact ⟨s.pair.line.filter (fun x => !s.slotLeaves x), by rw [hset, hemit]⟩
    · exact ⟨s.pair.line, rfl⟩

theorem pair_afterClocks (s : State) : (afterClocks s).pair = s.pair :=
  pair_of_does (does_healthTick (M := 0xe625082) (by decide) (does_latchTick (by decide) (does_idleTick (by decide)
    (does_lpiTicks (by decide) (does_refl _ s)))))

/-- A J-cycle in which no adjustment falls due fills the slot, and moves the line. -/
theorem pair_tick {s : State} (hr : s.coreRuns = true) (hd : s.time.due = []) :
    ∃ l, s.tick.pair = { s.enrolEnds.fillSlot.pair with line := l } := by
  obtain ⟨l, hl⟩ := pair_lineMoves (State.clockOn s.enrolEnds).takeDue
  have hdue : (State.clockOn s.enrolEnds).time.due = [] := by
    rw [time_clockOn, time_enrolEnds]
    exact hd
  have htake : (State.clockOn s.enrolEnds).takeDue.pair = s.enrolEnds.fillSlot.pair := by rw [takeDue_none hdue]; rfl
  refine ⟨l, ?_⟩
  rw [tick_eq, pair_afterClocks, advanceTime_eq, coreRuns_enrolEnds, if_pos hr, ← htake, ← hl]
  split
  · rfl
  · rfl

theorem tick_diverges {s : State} {typ : Nat} (hr : s.coreRuns = true) (hc : s.comparing = true) (hd : s.pair.differs = some typ)
    (hn : s.pair.diverged = none) (hdue : s.time.due = []) :
    s.tick.pair.diverged = some (s.time.jcycle, typ, s.time64) ∧ s.tick.pair.slotA = [] ∧ s.tick.pair.slotB = [] := by
  obtain ⟨l, hl⟩ := pair_tick hr hdue
  have hpair : s.enrolEnds.pair = s.pair := pair_of_does (did_enrolEnds s)
  have hfill := fillSlot_differs (s := s.enrolEnds) ((comparing_of hpair).trans hc) (by rw [hpair]; exact hd) (by rw [hpair]; exact hn)
  rw [time_enrolEnds, time64_of (time_enrolEnds s) (rtc_enrolEnds s) (coreRuns_enrolEnds s)] at hfill
  rw [hl]
  exact hfill

/-! ### Operations that visit the instances one by one -/

theorem mem_range16 {m : Nat} (h : m < 16) : m ∈ List.range 16 := List.mem_range.mpr h

/-- A step for one instance leaves the schedule of the others, and what it reads of the instances and the clock. -/
def OneInst (f : State → Nat → State) : Prop :=
  ∀ s m, (f s m).macs = s.macs ∧ (f s m).time = s.time ∧ ∀ k, k ≠ m → (f s m).sch k = s.sch k

/-- What visiting each instance once gives for one of them: what its own step gives from its schedule as it was. -/
theorem foldl_oneInst {f : State → Nat → State} (hf : OneInst f) {m : Nat} {l : List Nat} (hn : l.Nodup) (hm : m ∈ l) (s : State) :
    ∃ u, u.macs = s.macs ∧ u.time = s.time ∧ u.sch m = s.sch m ∧ (l.foldl f s).sch m = (f u m).sch m := by
  induction l generalizing s with
  | nil => exact absurd hm (by simp)
  | cons a l ih =>
    obtain ⟨ha, hl⟩ := List.nodup_cons.mp hn
    by_cases he : a = m
    · have hrest (r : List Nat) (hr : m ∉ r) (t : State) : (r.foldl f t).sch m = t.sch m := by
        induction r generalizing t with
        | nil => rfl
        | cons b r ihr =>
          rw [List.mem_cons, not_or] at hr
          rw [List.foldl_cons, ihr hr.2, (hf t b).2.2 m hr.1]
      refine ⟨s, rfl, rfl, rfl, ?_⟩
      rw [List.foldl_cons, he, hrest l (by rw [← he]; exact ha)]
    · have hin : m ∈ l := (List.mem_cons.mp hm).resolve_left (fun h => he h.symm)
      obtain ⟨h1, h2, h3⟩ := hf s a
      obtain ⟨u, k1, k2, k3, k4⟩ := ih hl hin (f s a)
      exact ⟨u, k1.trans h1, k2.trans h2, k3.trans (h3 m (fun h => he h.symm)), k4⟩

/-! ### The freeze (R237) -/

theorem sch_emit (s : State) (o : Out) (m : Nat) : (s.emit o).sch m = s.sch m := rfl

theorem did_freezeOne (s : State) (m : Nat) : Does 0x8001000 s (s.freezeOne m) := does_freezeOne (by decide) (does_refl _ s)

/-- A frame that has begun is cut and kept. -/
theorem freezeOne_cur {s : State} {m : Nat} {f : CurFrame} (hc : (s.sch m).cur = some f) (hu : (s.mac m).link = .up)
    (ht : f.start ≤ s.time.elapsed) : ((s.freezeOne m).sch m).cur = some { f with held := true } := by
  unfold State.freezeOne
  rw [hc]
  dsimp only
  rw [if_pos ⟨hu, ht⟩, sch_emit, sch_setSch_same]

theorem oneInst_freeze : OneInst State.freezeOne := by
  intro s m
  have hd := did_freezeOne s m
  refine ⟨hd.keeps .macs (by decide), hd.keeps .time (by decide), fun k hk => ?_⟩
  unfold State.freezeOne
  split
  · split
    · rw [sch_emit, sch_setSch_other s _ hk]
    · rfl
  · rfl

/-- The freeze up to what it does to the pair. -/
def frozenFirst (s : State) : State := ((List.range 16).foldl State.freezeOne s).cutTlps

theorem did_frozenFirst (s : State) : Does 0x18001000 s (frozenFirst s) :=
  does_cutTlps (by decide) (does_foldl (fun x a hx => does_freezeOne (by decide) hx) (does_refl _ s))

/-- The level outputs rest on the pair's state, the mode, the alert, the supply, the ports and the set-up. -/
theorem levelsNow_congr {s t : State} (hset : t.setup = s.setup) (hmac : t.macs = s.macs) (hsup : t.supply = s.supply) (hpow : t.power = s.power)
    (hev : t.events = s.events) (hpair : t.pair.fenced = s.pair.fenced ∧ t.pair.resync = s.pair.resync ∧ t.pair.a = s.pair.a ∧ t.pair.b = s.pair.b) :
    t.levelsNow = s.levelsNow := by
  obtain ⟨hf, hr, ha, hb⟩ := hpair
  have hbreak (m : Nat) : t.breakout m = s.breakout m := by
    unfold State.breakout State.portCfgBreakout State.field State.activeWord
    rw [hset]
  have hlamp (p : Nat) : t.portLamp p = s.portLamp p := by
    have henable (m : Nat) : t.macCfgEnable m = s.macCfgEnable m := by
      unfold State.macCfgEnable State.field State.activeWord
      rw [hset]
    unfold State.portLamp State.portInsts State.instExists
    simp only [hbreak, henable, mac_congr hmac]
  unfold State.levelsNow State.lightsNow State.paired State.cellBad
  rw [hlamp, hlamp, hf, hr, ha, hb, hsup, hpow, hev]

/-- The pair of a sled that freezes. -/
def frozenPair (s : State) : PairSt :=
  { s.pair with verdict := true, frozenAt := s.time.jcycle, cutTlp := s.tlpsBusy, levels := some (s.pair.levels.getD s.levelsNow),
                holdAt := some (s.pair.holdAt.getD s.time.elapsed) }

/-- The Junction marks the freeze, before it holds anything. -/
def frozenMarked (s : State) : State :=
  (frozenFirst s).onPair (fun p => { p with verdict := true, frozenAt := s.time.jcycle, cutTlp := s.tlpsBusy })

theorem did_frozenMarked (s : State) : Does 0x180c1000 s (frozenMarked s) := by
  unfold frozenMarked
  exact does_onPairActs (by decide) (does_mono (did_frozenFirst s) (by decide))

theorem freeze_eq (s : State) : s.freeze = (frozenMarked s).holdLevels.holdWords := rfl

theorem pair_freeze (s : State) : s.freeze.pair = frozenPair s := by
  have hd := did_frozenFirst s
  have hmark : (frozenMarked s).pair = { s.pair with verdict := true, frozenAt := s.time.jcycle, cutTlp := s.tlpsBusy } := by
    unfold frozenMarked State.onPair
    rw [pair_of_does hd]
  have hmarked := did_frozenMarked s
  have hlevels : (frozenMarked s).levelsNow = s.levelsNow :=
    levelsNow_congr (hmarked.keeps .setup (by decide)) (hmarked.keeps .macs (by decide)) (hmarked.keeps .supply (by decide))
      (hmarked.keeps .power (by decide)) (hmarked.keeps .events (by decide)) (by rw [hmark]; exact ⟨rfl, rfl, rfl, rfl⟩)
  have htime : (frozenMarked s).time = s.time := hmarked.keeps .time (by decide)
  rw [freeze_eq]
  generalize frozenMarked s = u at *
  have hlast : u.holdLevels.holdWords.pair =
      { u.pair with levels := some (u.pair.levels.getD u.levelsNow), holdAt := some (u.pair.holdAt.getD u.time.elapsed) } := rfl
  rw [hlast, hlevels, htime, hmark]
  rfl

theorem did_freeze (s : State) : Does 0x180c1000 s s.freeze := by
  rw [freeze_eq]
  exact does_holdWords (by decide) (does_holdLevels (by decide) (did_frozenMarked s))

theorem freeze_cur (s : State) {m : Nat} (hm : m < 16) {f : CurFrame} (hc : (s.sch m).cur = some f) (hu : (s.mac m).link = .up)
    (ht : f.start ≤ s.time.elapsed) : (s.freeze.sch m).cur = some { f with held := true } := by
  have hrest : s.freeze.sched = ((List.range 16).foldl State.freezeOne s).sched :=
    (does_holdWords (M := 0x180c0000) (by decide) (does_holdLevels (by decide) (does_onPairActs (by decide)
      (does_cutTlps (by decide) (does_refl _ _))))).keeps .sched (by decide)
  obtain ⟨u, h1, h2, h3, h4⟩ := foldl_oneInst oneInst_freeze List.nodup_range (mem_range16 hm) s
  rw [sch_congr hrest, h4]
  exact freezeOne_cur (by rw [h3]; exact hc) (by rw [mac_congr h1]; exact hu) (by rw [h2]; exact ht)

/-- What the Junction does for a divergence that nothing has explained. -/
theorem frozen_gives (s : State) (typ t64 : Nat) :
    let t := ((s.freeze.count .divergenceCount 0).raise .divergence (le 1 typ ++ le 8 t64)).deferCommit
    t.pair = frozenPair s ∧ Counted .divergenceCount 0 0 1 s t ∧ Reports .divergence (le 1 typ ++ le 8 t64) s t ∧
    t.sched = s.freeze.sched := by
  have hd := did_freeze s
  have hpair := pair_freeze s
  intro t
  have hcount : Does 0xe220082 s.freeze (s.freeze.count .divergenceCount 0) := does_count (by decide) (does_refl _ _)
  have hrep : Reports .divergence (le 1 typ ++ le 8 t64) s ((s.freeze.count .divergenceCount 0).raise .divergence (le 1 typ ++ le 8 t64)) :=
    reports_before (hd.out.trans hcount.out) (reports_raise _ _ _)
  have hlast : Does 0xe220083 ((s.freeze.count .divergenceCount 0).raise .divergence (le 1 typ ++ le 8 t64)) t :=
    does_deferCommit (by decide) (does_refl _ _)
  have hall : Does 0xe220083 s.freeze t := does_deferCommit (by decide) (does_raise (by decide) (does_count (by decide) (does_refl _ _)))
  refine ⟨?_, ?_, reports_after hrep hlast.out, hall.keeps .sched (by decide)⟩
  · rw [pair_of_does hall, hpair]
  · exact counted_mid (l := [.evrLost]) (by decide) (by decide) (codesKept_does hd) (counted_countN _ _ 1 (by decide) (by decide))
      (codesKept_trans (codesKept_raise _ _ _) (codesKept_deferCommit _))

/-! ### What fencing the sled counts (R98, R252) -/

theorem codesKept_mbxReply {l : List Ctr} (s : State) (f st op : Nat) : CodesKept l s (s.mbxReply f st op) :=
  codesKept_does (does_mbxReply (M := 0xc000080) (by decide) (does_refl _ s))

theorem codesKept_beginEvict (s : State) {f : Nat} (hf : f < 2 ^ 12) (cause : Nat) (keep : Bool) :
    CodesKept [.evrLost, .evictDrop] s (s.beginEvict f cause keep) := by
  unfold State.beginEvict
  extract_lets s1 s2 s3
  have h1 : CodesKept [.evrLost, .evictDrop] s s1 := codesKept_ite (codesKept_mbxReply s f 0x0A 0) (codesKept_refl _ s)
  have h2 : CodesKept [.evrLost, .evictDrop] s1 s2 := codesKept_ite (codesKept_raise _ _ _) (codesKept_refl _ s1)
  have h3 : CodesKept [.evrLost, .evictDrop] s2 s3 := fun _ _ => rfl
  have h4 : CodesKept [.evrLost, .evictDrop] s3 (s3.dropFrames f) :=
    codesKept_trans (codesKept_countN s3 .evictDrop (s3.copiesOf f) (by decide) hf) (fun _ _ => rfl)
  have h5 : CodesKept [.evrLost, .evictDrop] (s3.dropFrames f) ((((((s3.dropFrames f).quietFrames f).dropReads f).dropRings f).flowAll).abortSnap f) :=
    codesKept_does (does_abortSnap (M := 0x4007f02) (by decide) (does_flowAll (by decide) (does_dropRings (by decide)
      (does_dropReads (by decide) (does_quietFrames (by decide) (does_refl _ _))))))
  exact codesKept_trans h1 (codesKept_trans h2 (codesKept_trans h3 (codesKept_trans h4 h5)))

theorem codesKept_endPresence (s : State) {f : Nat} (hf : f < 2 ^ 12) (cause : Nat) (reset : Bool) :
    CodesKept [.evrLost, .evictDrop] s (s.endPresence f cause reset) := by
  unfold State.endPresence
  extract_lets s1
  have h1 : CodesKept [.evrLost, .evictDrop] s s1 :=
    codesKept_ite (codesKept_does (does_mbxReset (M := 0x880) (by decide) (does_refl _ s))) (codesKept_refl _ s)
  have hev := codesKept_trans h1 (codesKept_beginEvict s1 hf cause false)
  have hab : CodesKept [.evrLost, .evictDrop] s (s1.setFn f (fun n => { n with state := .absent })) := codesKept_trans h1 (fun _ _ => rfl)
  split
  · exact hev
  · exact hev
  · exact hab
  · exact hab
  · exact h1

theorem codesKept_endAll (cause : Nat) (l : List Nat) (hl : ∀ f ∈ l, f < 2 ^ 12) (s : State) :
    CodesKept [.evrLost, .evictDrop] s (s.endAll cause l) := by
  induction l generalizing s with
  | nil => exact codesKept_refl _ s
  | cons f r ih =>
    have h1 := codesKept_endPresence (s.setFn f FnSt.configReset) (hl f List.mem_cons_self) cause true
    exact codesKept_trans (codesKept_trans (fun _ _ => rfl) h1) (ih (fun g hg => hl g (List.mem_cons_of_mem f hg)) _)

theorem linkFns_lt (s : State) {l : Nat} (hl : l < 8) {f : Nat} (h : f ∈ s.linkFns l) : f < 2 ^ 12 := by
  rcases List.mem_cons.mp (List.mem_of_mem_filter h) with rfl | hm
  · omega
  · obtain ⟨i, hi, rfl⟩ := List.mem_map.mp hm
    have := List.mem_range.mp hi
    omega

theorem codesKept_linkLost (s : State) {l : Nat} (hl : l < 8) : CodesKept [.evrLost, .evictDrop] s (s.linkLost l) := by
  unfold State.linkLost
  extract_lets k s1
  refine codesKept_ite ?_ (codesKept_refl _ s)
  have h1 : CodesKept [.evrLost, .evictDrop] s s1 := by
    have hend := codesKept_endAll 3 (s.linkFns l) (fun f hf => linkFns_lt s hl hf)
      ((s.setLink l (fun _ => LinkSt.init)).onLinkDown (fun t => tput t (l / 2) (satAdd 32 (tget t (l / 2)) 1)))
    exact codesKept_trans (codesKept_trans (fun _ _ => rfl) hend) (fun _ _ => rfl)
  exact codesKept_trans h1 (codesKept_raise _ _ _)

theorem codesKept_allLinksLost (s : State) : CodesKept [.evrLost, .evictDrop] s s.allLinksLost := by
  have h (u : State) (l : Fin 8) : CodesKept [.evrLost, .evictDrop] u (u.linkLost l) := codesKept_linkLost u l.isLt
  have ht {u v : State} (hv : CodesKept [.evrLost, .evictDrop] u v) (l : Fin 8) : CodesKept [.evrLost, .evictDrop] u (v.linkLost l) :=
    codesKept_trans hv (h v l)
  exact ht (ht (ht (ht (ht (ht (ht (h s 0) 1) 2) 3) 4) 5) 6) 7

theorem codesKept_fence (s : State) (cause : Nat) : CodesKept [.evrLost, .evictDrop] s (s.fence cause) := by
  by_cases hf : s.pair.fenced = true
  · rw [State.fence, if_pos hf]
    exact codesKept_refl _ s
  · rw [fence_eq (Bool.eq_false_iff.mpr hf)]
    have hfirst : CodesKept [.evrLost, .evictDrop] s (fencedFirst s cause) := by
      unfold fencedFirst
      refine codesKept_trans (codesKept_does (m := 0xc0c1000) ?_) (codesKept_allLinksLost _)
      exact does_cutFrames (by decide) (does_freeLevels (by decide) (does_onPairActs (by decide) (does_refl _ s)))
    generalize fencedFirst s cause = u at *
    have hann (v : State) : Does 0x1000000 v (v.announce 4 cause) := does_announce (by decide) (does_refl _ v)
    have halert : CodesKept [.evrLost, .evictDrop] u (u.onEvents (fun v => { v with alert := true })) := fun _ _ => rfl
    generalize u.onEvents (fun v => { v with alert := true }) = v at *
    exact codesKept_trans hfirst (codesKept_trans halert (codesKept_trans (codesKept_raise v _ _) (codesKept_does (hann _))))

/-! ### The end of a Verdict (R238, R239) -/

theorem did_resumeOne (s : State) (m : Nat) : Does 0xe221082 s (s.resumeOne m) := does_resumeOne (by decide) (does_refl _ s)

/-- A frame that departs again, from now on. -/
def CurFrame.again (s : State) (f : CurFrame) : CurFrame :=
  { f with held := false, start := s.time.elapsed, at_ := s.timeAt s.time.elapsed }

/-- The instance sends its frame again. -/
def sentAgain (s : State) (m : Nat) (f : CurFrame) : State := s.setSch m (fun x => { x with cur := some (CurFrame.again s f) })

theorem resumeOne_eq {s : State} {m : Nat} {f : CurFrame} (hc : (s.sch m).cur = some f) : s.resumeOne m =
    if (s.mac m).link = .up then
      (if f.held then (sentAgain s m f).count .verdictResent 0 else if f.start < s.time.elapsed then sentAgain s m f else s)
    else s := by
  unfold State.resumeOne
  rw [hc]
  rfl

theorem resumeOne_free {s : State} {m : Nat} (hc : (s.sch m).cur = none) : s.resumeOne m = s := by
  unfold State.resumeOne
  rw [hc]

theorem sched_count (s : State) (c : Ctr) (n : Nat) : (s.count c n).sched = s.sched := sched_countN s c 0 n 1

/-- A frame that the freeze cut is sent again from now on. -/
theorem resumeOne_cur {s : State} {m : Nat} {f : CurFrame} (hc : (s.sch m).cur = some f) (hh : f.held = true) (hu : (s.mac m).link = .up) :
    ((s.resumeOne m).sch m).cur = some (CurFrame.again s f) := by
  rw [resumeOne_eq hc, if_pos hu, if_pos hh, sch_congr (sched_count _ _ _), sentAgain, sch_setSch_same]

theorem oneInst_resume : OneInst State.resumeOne := by
  intro s m
  have hd := did_resumeOne s m
  refine ⟨hd.keeps .macs (by decide), hd.keeps .time (by decide), fun k hk => ?_⟩
  cases hc : (s.sch m).cur with
  | none => rw [resumeOne_free hc]
  | some f =>
    have hset : (sentAgain s m f).sch k = s.sch k := sch_setSch_other s _ hk
    rw [resumeOne_eq hc]
    split
    · split
      · rw [sch_congr (sched_count _ _ _), hset]
      · split
        · exact hset
        · rfl
    · rfl

theorem codesKept_resumeOne (s : State) (m : Nat) : CodesKept [.evrLost, .verdictResent] s (s.resumeOne m) := by
  cases hc : (s.sch m).cur with
  | none =>
    rw [resumeOne_free hc]
    exact codesKept_refl _ s
  | some f =>
    have hset : CodesKept [.evrLost, .verdictResent] s (sentAgain s m f) := fun _ _ => rfl
    rw [resumeOne_eq hc]
    exact codesKept_ite (codesKept_ite (codesKept_trans hset (codesKept_countN _ _ 1 (by decide) (by decide)))
      (codesKept_ite hset (codesKept_refl _ s))) (codesKept_refl _ s)

/-- The line goes on, and the TLPs cut are sent again. -/
def resumeFirst (s : State) : State := (s.thawLine.emit (.resent s.thawLine.pair.cutTlp)).onPair (fun p => { p with cutTlp := 0 })

theorem resumeAll_eq (s : State) : s.resumeAll = (List.range 16).foldl State.resumeOne (resumeFirst s) := rfl

theorem did_resumeFirst (s : State) : Does 0x80c0000 s (resumeFirst s) := by
  have hthaw : Does 0x80c0000 s s.thawLine := does_thawLine (by decide) (does_refl _ s)
  unfold resumeFirst
  generalize s.thawLine = u at hthaw
  exact does_onPairActs (by decide) (does_emit (by decide) hthaw)

/-- What the outputs' resuming gives. -/
theorem resumeAll_gives (s : State) : (∃ l, s.resumeAll.pair = { s.pair with diverged := none, line := l, cutTlp := 0 }) ∧
    Does 0xe2e1082 s s.resumeAll ∧ CodesKept [.evrLost, .verdictResent] s s.resumeAll ∧
    ∀ m < 16, ∀ f, (s.sch m).cur = some f → f.held = true → (s.mac m).link = .up →
      (s.resumeAll.sch m).cur = some { f with held := false, start := s.time.elapsed, at_ := s.timeAt s.time.elapsed } := by
  have hd := did_resumeFirst s
  have hpair : (resumeFirst s).pair = { s.pair with
    diverged := none, line := s.pair.line.map (fun x => { x with cycle := x.cycle + (s.time.jcycle - s.pair.frozenAt) }), cutTlp := 0 } := rfl
  rw [resumeAll_eq]
  generalize resumeFirst s = u at *
  have hfold : Does 0xe221082 u ((List.range 16).foldl State.resumeOne u) := does_foldl (fun x a hx => does_resumeOne (by decide) hx) (does_refl _ u)
  refine ⟨⟨_, (pair_of_does hfold).trans hpair⟩, does_trans (does_mono hd (by decide)) (does_mono hfold (by decide)),
    codesKept_trans (codesKept_does hd) (codesKept_foldl _ u (fun t x _ => codesKept_resumeOne t x)), fun m hm f hc hh hu => ?_⟩
  obtain ⟨v, h1, h2, h3, h4⟩ := foldl_oneInst oneInst_resume List.nodup_range (mem_range16 hm) u
  have hcv : (v.sch m).cur = some f := by rw [h3, sch_congr (hd.keeps .sched (by decide))]; exact hc
  have hag : CurFrame.again v f = CurFrame.again s f := by
    have htime : v.time = s.time := h2.trans (hd.keeps .time (by decide))
    unfold CurFrame.again State.timeAt
    rw [htime]
  rw [h4, resumeOne_cur hcv hh (by rw [mac_congr h1, mac_congr (hd.keeps .macs (by decide))]; exact hu), hag]
  rfl

/-- The pair once the outputs have resumed and nothing is held for it. -/
def resumedPair (p : PairSt) (x : Option Levels) (l : List LineSlot) : PairSt :=
  { p with levels := x, diverged := none, line := l, cutTlp := 0, holdAt := none }

/-- What the end of a Verdict gives where the sled is not Fenced. -/
def VerdictOver (u t : State) : Prop :=
  (∃ x l, t.pair = resumedPair u.pair x l) ∧ u.out <+: t.out ∧ CodesKept [.evrLost, .verdictResent, .holdGapNs] u t ∧
  (∀ t0, u.pair.holdAt = some t0 → tget u.tally.count (tallyKey Ctr.holdGapNs.code 0 0) < 2 ^ 48 →
    Counted .holdGapNs 0 0 (u.holdGap t0 0 + u.holdGap t0 1) u t) ∧
  ∀ m < 16, ∀ f, (u.sch m).cur = some f → f.held = true → (u.mac m).link = .up →
    (t.sch m).cur = some { f with held := false, start := u.time.elapsed, at_ := u.timeAt u.time.elapsed }

/-- The level outputs pass on again, but hold on through a hand-over. -/
def levelsFreed (s : State) : State := if s.pair.handover.isSome then s else s.freeLevels

theorem verdictEnds_eq {s : State} (h : s.pair.fenced = false) : s.verdictEnds =
    (((levelsFreed s).resumeAll.deliverFrames (some .verdictDrop)).deliverHeld).pairSettled := if_neg (by simp [h])

theorem levelsFreed_gives (s : State) : (∃ x, (levelsFreed s).pair = { s.pair with levels := x }) ∧ Does 0xc0c0000 s (levelsFreed s) := by
  unfold levelsFreed
  split
  · exact ⟨⟨s.pair.levels, rfl⟩, does_refl _ s⟩
  · exact ⟨⟨none, pair_freeLevels s⟩, does_freeLevels (by decide) (does_refl _ s)⟩

/-- The hold buffer delivered, empty as it is, and the pair settled. -/
theorem delivered_gives {u : State} (c : Ctr) (hset : Settled u) :
    (((u.deliverFrames (some c)).deliverHeld).pairSettled).pair = (unheld u).pair ∧
    Does 0xe260083 u (((u.deliverFrames (some c)).deliverHeld).pairSettled) ∧
    CodesKept [.evrLost, .holdGapNs] u (((u.deliverFrames (some c)).deliverHeld).pairSettled) ∧
    ∀ t0, u.pair.holdAt = some t0 → tget u.tally.count (tallyKey Ctr.holdGapNs.code 0 0) < 2 ^ 48 →
      Counted .holdGapNs 0 0 (u.holdGap t0 0 + u.holdGap t0 1) u (((u.deliverFrames (some c)).deliverHeld).pairSettled) := by
  obtain ⟨hheld, hmerge, hreads, hhold, hdue, hcmd⟩ := hset
  obtain ⟨hpair, hdid, hkept, hgap⟩ := deliverFrames_gaps c hhold
  have hset2 : Settled (u.deliverFrames (some c)) := by
    unfold Settled
    rw [hpair, hdid.keeps .power (by decide)]
    exact ⟨hheld, hmerge, hreads, hhold, hdue, hcmd⟩
  rw [deliverHeld_none ⟨hset2.1, hset2.2.1, hset2.2.2.1⟩]
  obtain ⟨hlast, hpairt⟩ := pairSettled_gives hset2
  generalize u.deliverFrames (some c) = v at *
  refine ⟨?_, does_trans (does_mono hdid (by decide)) (does_mono hlast (by decide)), codesKept_trans hkept (codesKept_does hlast), fun t0 h0 hlt => ?_⟩
  · rcases hpairt with hp | hp
    · rw [hp, hpair]
    · rw [hp, hpair]
      rfl
  · exact counted_mid (l := []) (by decide) (by decide) (codesKept_refl _ u) (hgap t0 h0 hlt) (codesKept_does hlast) (by simp)

theorem verdictEnds_over {u : State} (hf : u.pair.fenced = false) (hset : Settled u) : VerdictOver u u.verdictEnds := by
  obtain ⟨⟨x, hx⟩, hfree⟩ := levelsFreed_gives u
  rw [verdictEnds_eq hf]
  generalize levelsFreed u = v at *
  obtain ⟨⟨l, hl⟩, hdr, hkr, hcur⟩ := resumeAll_gives v
  have hgap0 (t0 p : Nat) : v.resumeAll.holdGap t0 p = u.holdGap t0 p := by
    have hmac (m : Nat) : v.resumeAll.mac m = u.mac m := (mac_of_does hdr m).trans (mac_of_does hfree m)
    exact holdGap_congr (congrArg SetupSt.active ((hdr.keeps .setup (by decide)).trans (hfree.keeps .setup (by decide))))
      ((hdr.keeps .time (by decide)).trans (hfree.keeps .time (by decide))) (fun m => by rw [hmac]; exact ⟨rfl, rfl⟩) t0 p
  generalize v.resumeAll = w at *
  have hpairw : w.pair = { u.pair with levels := x, diverged := none, line := l, cutTlp := 0 } := by rw [hl, hx]
  have hsetw : Settled w := by
    obtain ⟨h1, h2, h3, h4, h5, h6⟩ := hset
    unfold Settled
    rw [hpairw, hdr.keeps .power (by decide), hfree.keeps .power (by decide)]
    exact ⟨h1, h2, h3, h4, h5, h6⟩
  obtain ⟨hpair, hdid, hkept, hgap⟩ := delivered_gives .verdictDrop hsetw
  generalize ((w.deliverFrames (some .verdictDrop)).deliverHeld).pairSettled = t at *
  have hbefore : CodesKept [.evrLost, .verdictResent] u w := codesKept_trans (codesKept_does hfree) hkr
  unfold VerdictOver
  refine ⟨⟨x, l, ?_⟩, hfree.out.trans (hdr.out.trans hdid.out), ?_, fun t0 h0 hlt => ?_, fun m hm f hc hh hu => ?_⟩
  · rw [hpair]
    unfold unheld State.onPair resumedPair
    rw [hpairw]
  · exact codesKept_trans (codesKept_mono hbefore (by simp)) (codesKept_mono hkept (by simp))
  · have hsame : tget w.tally.count (tallyKey Ctr.holdGapNs.code 0 0) = tget u.tally.count (tallyKey Ctr.holdGapNs.code 0 0) :=
      hbefore _ (fun d hd => by
        rw [cls_key_code (by decide) (by decide)]
        rcases List.mem_cons.mp hd with rfl | hd
        · decide
        · rw [List.mem_singleton.mp hd]; decide)
    have hone := hgap t0 (by rw [hpairw]; exact h0) (by rw [hsame]; exact hlt)
    rw [hgap0, hgap0] at hone
    exact counted_mid (l := [.evrLost, .verdictResent]) (by decide) (by decide) hbefore hone (codesKept_refl _ t)
  · have htime : v.time = u.time := hfree.keeps .time (by decide)
    have h := hcur m hm f (by rw [sch_congr (hfree.keeps .sched (by decide))]; exact hc) hh (by rw [mac_of_does hfree]; exact hu)
    unfold State.timeAt at h ⊢
    rw [htime] at h
    rw [sch_congr (hdid.keeps .sched (by decide))]
    exact h

/-! ### The outcome for the engines (R238) -/

/-- What the outcome of a Verdict leaves for its end, unless it fences the sled. -/
def Judged (u v : State) : Prop :=
  (v.pair.held = u.pair.held ∧ v.pair.merge = u.pair.merge ∧ v.pair.reads = u.pair.reads ∧ v.pair.hold = u.pair.hold ∧
    v.pair.swapDue = u.pair.swapDue ∧ v.pair.holdAt = u.pair.holdAt ∧ v.pair.fenced = u.pair.fenced ∧ v.pair.verdict = u.pair.verdict) ∧
  Does 0xf2e0083 u v ∧ CodesKept [.evrLost] u v ∧ v.setup.active = u.setup.active

/-- The registered failures are spent. -/
def voted (u : State) : State := u.onPair (fun p => { p with relq := [] })

theorem did_voted (u : State) : Does 0x40000 u (voted u) := does_onPair (by decide) rfl (does_refl _ u)

/-- The Standby resynchronises as a suspect. -/
def suspected (u : State) (sb : Eng) : State :=
  ((((voted u).setEng sb (fun g => { g with state := .resyncing })).onPair (fun p => { p with suspect := true, resync := some .copy })).raise
    .engineSuspect (le 1 (engCode sb)) |>.raise .soloEntered []).announce 2 2

/-- The Standby that failed leaves the sled solo. -/
def leftSolo (u : State) (sb : Eng) : State :=
  (((voted u).failEngine sb (u.voteCause sb)).raise .soloEntered []).announce 2 2

/-- Both engines failed. -/
def bothFailed (u : State) (act : Eng) : State :=
  ((voted u).failEngine act (u.voteCause act)).failEngine (engOther act) (u.voteCause (engOther act))

theorem judge_eq (u : State) (act : Eng) (a b : Bool) : u.judge act a b =
    if a ∧ b then suspected u (engOther act) else if a then leftSolo u (engOther act)
    else if b then (voted u).startHandover act 2 false else (bothFailed u act).fence 2 := rfl

/-- What follows the state of the engines in an outcome: events and an announcement. -/
theorem told_does (w : State) (k c : Nat) : Does 0xf220082 w ((w.raise .soloEntered []).announce k c) :=
  does_announce (by decide) (does_raise (by decide) (does_refl _ w))

theorem told_codes (w : State) (k c : Nat) : CodesKept [.evrLost] w ((w.raise .soloEntered []).announce k c) := by
  have hann (v : State) : Does 0x1000000 v (v.announce k c) := does_announce (by decide) (does_refl _ v)
  exact codesKept_trans (codesKept_raise w .soloEntered []) (codesKept_does (hann _))

theorem told_reports (w : State) (k c : Nat) : Reports .soloEntered [] w ((w.raise .soloEntered []).announce k c) :=
  reports_after (reports_raise w .soloEntered []) (does_announce (M := 0x1000000) (by decide) (does_refl _ _)).out

/-- The pair with a suspect. -/
def suspectPair (p : PairSt) (sb : Eng) : PairSt :=
  { withEng p sb { engIn p sb with state := .resyncing } with relq := [], suspect := true, resync := some .copy }

/-- The pair once the Standby is marked a suspect, before the events. -/
def suspectMarked (u : State) (sb : Eng) : State :=
  ((voted u).setEng sb (fun g => { g with state := .resyncing })).onPair (fun p => { p with suspect := true, resync := some .copy })

theorem suspectMarked_gives (u : State) (sb : Eng) : (suspectMarked u sb).pair = suspectPair u.pair sb ∧ Does 0xc0000 u (suspectMarked u sb) := by
  refine ⟨by cases sb <;> rfl, ?_⟩
  unfold suspectMarked
  exact does_onPairActs (by decide) (does_setEng (by decide) (does_mono (did_voted u) (by decide)))

theorem suspected_gives (u : State) (sb : Eng) : (suspected u sb).pair = suspectPair u.pair sb ∧ Judged u (suspected u sb) ∧
    Reports .engineSuspect (le 1 (engCode sb)) u (suspected u sb) := by
  have heq : suspected u sb = (((suspectMarked u sb).raise .engineSuspect (le 1 (engCode sb))).raise .soloEntered []).announce 2 2 := rfl
  obtain ⟨hpair, hdid⟩ := suspectMarked_gives u sb
  rw [heq]
  generalize suspectMarked u sb = v at *
  have hraise : Does 0xe220082 v (v.raise .engineSuspect (le 1 (engCode sb))) := does_raise (by decide) (does_refl _ v)
  have hrep := reports_before hdid.out (reports_raise v .engineSuspect (le 1 (engCode sb)))
  have hcodes : CodesKept [.evrLost] u (v.raise .engineSuspect (le 1 (engCode sb))) :=
    codesKept_trans (codesKept_does hdid) (codesKept_raise _ _ _)
  have hpairw := (pair_raise v .engineSuspect (le 1 (engCode sb))).trans hpair
  have hdidw : Does 0xf2e0083 u (v.raise .engineSuspect (le 1 (engCode sb))) := does_trans (does_mono hdid (by decide)) (does_mono hraise (by decide))
  generalize v.raise .engineSuspect (le 1 (engCode sb)) = w at *
  have hlast := told_does w 2 2
  have hall : Does 0xf2e0082 u ((w.raise .soloEntered []).announce 2 2) :=
    does_trans (does_mono hdid (by decide)) (does_trans (does_mono hraise (by decide)) (does_mono hlast (by decide)))
  have hpairt := (pair_of_does hlast).trans hpairw
  refine ⟨hpairt, ⟨?_, does_mono hall (by decide), codesKept_trans hcodes (told_codes w 2 2), congrArg SetupSt.active (hall.keeps .setup (by decide))⟩,
    reports_after hrep hlast.out⟩
  rw [hpairt]
  cases sb <;> exact ⟨rfl, rfl, rfl, rfl, rfl, rfl, rfl, rfl⟩

/-- An engine that fails leaves the rest of the pair. -/
theorem withEng_judged {p q : PairSt} {e : Eng} {g : EngSt} (h : q = withEng p e g) : q.held = p.held ∧ q.merge = p.merge ∧ q.reads = p.reads ∧
    q.hold = p.hold ∧ q.swapDue = p.swapDue ∧ q.holdAt = p.holdAt ∧ q.fenced = p.fenced ∧ q.verdict = p.verdict := by
  obtain ⟨-, h2, -, h4, -, -, h7, -, h9, h10, h11, h12, h13, -, -, -, -⟩ := withEng_fields p e g
  rw [h]
  exact ⟨h9, h10, h11, h12, h13, h7, h4, h2⟩

theorem leftSolo_gives (u : State) (sb : Eng) : Judged u (leftSolo u sb) ∧ (engIn (leftSolo u sb).pair sb).act = false ∧
    engIn (leftSolo u sb).pair (engOther sb) = engIn u.pair (engOther sb) ∧
    Reports .engineFailed (le 1 (engCode sb) ++ le 1 (u.voteCause sb)) u (leftSolo u sb) ∧ Reports .soloEntered [] u (leftSolo u sb) := by
  have hv := did_voted u
  have hvote : (voted u).pair = { u.pair with relq := [] } := rfl
  unfold leftSolo
  obtain ⟨g, hg, hgact, -⟩ := pair_failEngine (voted u) sb (u.voteCause sb)
  have hfail := did_failEngine (voted u) sb (u.voteCause sb)
  have hcodes := codesKept_failEngine (voted u) sb (u.voteCause sb)
  have hrep := reports_before hv.out (reports_failEngine (voted u) sb (u.voteCause sb))
  generalize (voted u).failEngine sb (u.voteCause sb) = w at *
  have hlast := told_does w 2 2
  have hall : Does 0xf2e0082 u ((w.raise .soloEntered []).announce 2 2) :=
    does_trans (does_mono hv (by decide)) (does_trans hfail (does_mono hlast (by decide)))
  rw [hvote] at hg
  have hpairt := (pair_of_does hlast).trans hg
  rw [hpairt]
  refine ⟨⟨?_, does_mono hall (by decide), codesKept_trans (codesKept_trans (codesKept_does hv) hcodes) (told_codes w 2 2),
    congrArg SetupSt.active (hall.keeps .setup (by decide))⟩, ?_, ?_, reports_after hrep hlast.out,
    reports_before (hv.out.trans hfail.out) (told_reports w 2 2)⟩
  · exact withEng_judged (p := { u.pair with relq := [] }) hpairt
  · rw [engIn_withEng_same]
    exact hgact
  · rw [engIn_withEng_other]
    cases sb <;> rfl

theorem active_deferCommit (s : State) : s.deferCommit.setup.active = s.setup.active := by
  unfold State.deferCommit
  split
  · split
    · rfl
    · exact (congrArg SetupSt.active ((does_raise (M := 0xe220082) (by decide) (does_refl _ _)).keeps .setup (by decide))).trans rfl
  · rfl

/-- A hand-over from an engine that failed in a Verdict, in lockstep. -/
theorem handedOver_gives {u : State} (hw : u.pair.warm = false) (act : Eng) : Judged u ((voted u).startHandover act 2 false) ∧
    HandsOver act 2 false u ((voted u).startHandover act 2 false) := by
  have hv := did_voted u
  have hover : HandsOver act 2 false u ((voted u).startHandover act 2 false) :=
    handsOver_from (u := voted u) rfl rfl hv.out (startHandover_handsOver (voted u) act 2 false)
  have hcodes : CodesKept [.evrLost] u ((voted u).startHandover act 2 false) :=
    codesKept_trans (codesKept_does hv) (codesKept_startHandover (s := voted u) hw act 2 false)
  have hfirst : handoverFirst (voted u) false = (voted u).holdLevels := if_neg (by simp [voted, State.onPair, hw])
  have hwarm : ((voted u).pair.warm && false && (voted u).onWire) = false := by simp
  refine ⟨⟨?_, ?_, hcodes, ?_⟩, hover⟩
  all_goals rw [startHandover_eq, if_neg (by rw [hwarm]; decide), hfirst, if_neg (by decide)]
  · rw [pair_deferCommit]
    obtain ⟨g, hg, -⟩ := pair_failEngine ((voted u).holdLevels.lowerAct (handoverOf (voted u) act 2 false false)) act 2
    have hlow := pair_lowerAct (voted u).holdLevels (handoverOf (voted u) act 2 false false)
    obtain ⟨k1, k2, k3, k4, k5, k6, k7, k8⟩ := withEng_judged hg
    obtain ⟨-, j2, -, j4, -, -, j7, -, j9, j10, j11, j12, j13, -, -, -, -⟩ :=
      withEng_fields (voted u).holdLevels.pair act { (voted u).holdLevels.eng act with act := false }
    rw [hlow] at k1 k2 k3 k4 k5 k6 k7 k8
    exact ⟨k1.trans j9, k2.trans j10, k3.trans j11, k4.trans j12, k5.trans j13, k6.trans j7, k7.trans j4, k8.trans j2⟩
  · exact does_deferCommit (by decide) (does_failEngine (by decide) (does_lowerAct (by decide) (does_holdLevels (by decide) (does_mono hv (by decide)))))
  · have hbefore : Does 0xf2e0082 u (((voted u).holdLevels.lowerAct (handoverOf (voted u) act 2 false false)).failEngine act 2) :=
      does_failEngine (by decide) (does_lowerAct (by decide) (does_holdLevels (by decide) (does_mono hv (by decide))))
    rw [active_deferCommit, hbefore.keeps .setup (by decide)]

/-- Both engines failed: the sled is Fenced. -/
theorem bothFailed_gives {u : State} (hf : u.pair.fenced = false) (act : Eng) : FencedBy 2 u ((bothFailed u act).fence 2) ∧
    CodesKept [.evrLost, .evictDrop] u ((bothFailed u act).fence 2) ∧ Does 0xf2e7fb2 u ((bothFailed u act).fence 2) := by
  have hv := did_voted u
  have hone : (bothFailed u act).pair.fenced = false ∧ Does 0xf2e0082 u (bothFailed u act) ∧ CodesKept [.evrLost] u (bothFailed u act) := by
    unfold bothFailed
    have hfv : (voted u).pair.fenced = false := hf
    obtain ⟨g, hg, -⟩ := pair_failEngine (voted u) act (u.voteCause act)
    have hd1 := did_failEngine (voted u) act (u.voteCause act)
    have hc1 := codesKept_failEngine (voted u) act (u.voteCause act)
    generalize (voted u).failEngine act (u.voteCause act) = w at *
    obtain ⟨k, hk, -⟩ := pair_failEngine w (engOther act) (u.voteCause (engOther act))
    refine ⟨?_, does_trans (does_mono hv (by decide)) (does_trans hd1 (did_failEngine w _ _)),
      codesKept_trans (codesKept_does hv) (codesKept_trans hc1 (codesKept_failEngine w _ _))⟩
    exact (withEng_judged hk).2.2.2.2.2.2.1.trans ((withEng_judged hg).2.2.2.2.2.2.1.trans hfv)
  obtain ⟨hfen, hdid, hcodes⟩ := hone
  generalize bothFailed u act = w at *
  obtain ⟨h1, h2, h3, h4, h5, h6, h7, h8⟩ := (fence_fencedBy hfen 2).1
  exact ⟨⟨h1, h2, h3, h4, h5, h6, h7, reports_before hdid.out h8⟩, codesKept_trans (codesKept_mono hcodes (by simp)) (codesKept_fence w 2),
    does_trans (does_mono hdid (by decide)) (did_fence w 2)⟩

/-! ### VERDICT_RESULT -/

/-- The record of a Verdict's result. -/
def verdictRecord (s : State) (test : SelfTest) : Bytes :=
  le 1 (if s.selfPass test .a then 1 else 2) ++ le 1 (if s.selfPass test .b then 1 else 2)

/-- A Verdict that is over and counted. -/
def verdictCounted (s : State) : State := (s.onPair (fun p => { p with verdict := false, diverged := none })).count .verdictCount 0

/-- A Verdict that is over and reported, before its outcome for the engines. -/
def verdictTold (s : State) (test : SelfTest) : State := (verdictCounted s).raise .verdictResult (verdictRecord s test)

/-- The pair of a Verdict that is over. -/
def toldPair (p : PairSt) : PairSt := { p with verdict := false, diverged := none }

theorem exec_verdictResult {s : State} {e : Eng} (hv : s.pair.verdict = true) (ha : s.active = some e) (test : SelfTest) :
    exec (.verdictResult test) s = .next ((verdictTold s test).judge e (s.selfPass test e) (s.selfPass test (engOther e))).verdictEnds := by
  refine congrArg Host.Outcome.next ?_
  rw [hv, ha]
  rfl

theorem verdictTold_gives (s : State) (test : SelfTest) : (verdictTold s test).pair = toldPair s.pair ∧
    Does 0xe2e0082 s (verdictTold s test) ∧ Counted .verdictCount 0 0 1 s (verdictTold s test) ∧
    CodesKept [.evrLost, .verdictCount] s (verdictTold s test) ∧ Reports .verdictResult (verdictRecord s test) s (verdictTold s test) := by
  have hfirst : Does 0xc0000 s (s.onPair (fun p => { p with verdict := false, diverged := none })) := does_onPairActs (by decide) (does_refl _ s)
  have hpair : (s.onPair (fun p => { p with verdict := false, diverged := none })).pair = toldPair s.pair := rfl
  unfold verdictTold verdictCounted
  generalize s.onPair (fun p => { p with verdict := false, diverged := none }) = u at *
  have hcount : Does 0xe220082 u (u.count .verdictCount 0) := does_count (by decide) (does_refl _ u)
  have hraise : Does 0xe220082 (u.count .verdictCount 0) ((u.count .verdictCount 0).raise .verdictResult (verdictRecord s test)) :=
    does_raise (by decide) (does_refl _ _)
  refine ⟨?_, ?_, ?_, ?_, ?_⟩
  · rw [pair_raise, pair_count, hpair]
  · exact does_trans (does_mono hfirst (by decide)) (does_trans (does_mono hcount (by decide)) (does_mono hraise (by decide)))
  · exact counted_mid (l := [.evrLost]) (by decide) (by decide) (codesKept_does hfirst) (counted_countN u _ 1 (by decide) (by decide))
      (codesKept_raise _ _ _)
  · exact codesKept_trans (codesKept_does hfirst) (codesKept_trans (codesKept_countN u _ 1 (by decide) (by decide)) (codesKept_raise _ _ _))
  · exact reports_before (hfirst.out.trans hcount.out) (reports_raise _ _ _)

theorem voteCause_congr {s u : State} (h : u.pair.relq = s.pair.relq) (e : Eng) : u.voteCause e = s.voteCause e := by
  unfold State.voteCause
  rw [h]

/-- What every Verdict gives whose outcome does not fence the sled. -/
def Resumed (s t : State) : Prop :=
  t.pair.holdAt = none ∧
  (∀ t0, s.pair.holdAt = some t0 → tget s.tally.count (tallyKey Ctr.holdGapNs.code 0 0) < 2 ^ 48 →
    Counted .holdGapNs 0 0 (s.holdGap t0 0 + s.holdGap t0 1) s t) ∧
  ∀ m < 16, ∀ f, (s.sch m).cur = some f → f.held = true → (s.mac m).link = .up →
    (t.sch m).cur = some { f with held := false, start := s.time.elapsed, at_ := s.timeAt s.time.elapsed }

/-- The outcome that does not fence the sled, and the end of the Verdict after it. -/
theorem verdict_resumed {s u v : State} (hup : u.pair = toldPair s.pair) (hu : Does 0xe2e0082 s u) (hcount : Counted .verdictCount 0 0 1 s u)
    (hkept : CodesKept [.evrLost, .verdictCount] s u) (hf : s.pair.fenced = false) (hset : Settled s) (hj : Judged u v) :
    Resumed s v.verdictEnds ∧ Counted .verdictCount 0 0 1 s v.verdictEnds ∧ v.verdictEnds.pair.verdict = false ∧ v.out <+: v.verdictEnds.out ∧
    ∃ x l, v.verdictEnds.pair = resumedPair v.pair x l := by
  obtain ⟨⟨k1, k2, k3, k4, k5, k6, k7, k8⟩, hdid, hcodes, hact⟩ := hj
  obtain ⟨h1, h2, h3, h4, h5, h6⟩ := hset
  rw [hup] at k1 k2 k3 k4 k5 k6 k7 k8
  have hsetv : Settled v := by
    refine ⟨k1.trans h1, k2.trans h2, k3.trans h3, k4.trans h4, k5.trans h5, ?_⟩
    rw [hdid.keeps .power (by decide), hu.keeps .power (by decide)]
    exact h6
  obtain ⟨⟨x, l, hpair⟩, hout, hend, hgap, hcur⟩ := verdictEnds_over (k7.trans hf) hsetv
  have htime : v.time = s.time := (hdid.keeps .time (by decide)).trans (hu.keeps .time (by decide))
  have hmac (m : Nat) : v.mac m = s.mac m := (mac_of_does hdid m).trans (mac_of_does hu m)
  have hsch (m : Nat) : v.sch m = s.sch m := sch_congr ((hdid.keeps .sched (by decide)).trans (hu.keeps .sched (by decide))) m
  have hgapv (t0 p : Nat) : v.holdGap t0 p = s.holdGap t0 p :=
    holdGap_congr (hact.trans (congrArg SetupSt.active (hu.keeps .setup (by decide)))) htime (fun m => by rw [hmac]; exact ⟨rfl, rfl⟩) t0 p
  have hbefore : CodesKept [.evrLost, .verdictCount] s v := codesKept_trans hkept (codesKept_mono hcodes (by simp))
  generalize v.verdictEnds = t at *
  refine ⟨⟨?_, fun t0 h0 hlt => ?_, fun m hm f hc hh hl => ?_⟩, ?_, ?_, hout, x, l, hpair⟩
  · rw [hpair]
    rfl
  · have hsame : tget v.tally.count (tallyKey Ctr.holdGapNs.code 0 0) = tget s.tally.count (tallyKey Ctr.holdGapNs.code 0 0) :=
      hbefore _ (fun d hd => by
        rw [cls_key_code (by decide) (by decide)]
        rcases List.mem_cons.mp hd with rfl | hd
        · decide
        · rw [List.mem_singleton.mp hd]; decide)
    have hone := hgap t0 (k6.trans h0) (by rw [hsame]; exact hlt)
    rw [hgapv, hgapv] at hone
    exact counted_mid (l := [.evrLost, .verdictCount]) (by decide) (by decide) hbefore hone (codesKept_refl _ t)
  · have hone := hcur m hm f (by rw [hsch]; exact hc) hh (by rw [hmac]; exact hl)
    unfold State.timeAt at hone ⊢
    rw [htime] at hone
    exact hone
  · exact counted_mid (l := [.evrLost, .verdictResent, .holdGapNs]) (by decide) (by decide) (codesKept_refl _ s) hcount
      (codesKept_trans (codesKept_mono hcodes (by simp)) hend)
  · rw [hpair]
    exact k8

theorem engIn_resumedPair (p : PairSt) (x : Option Levels) (l : List LineSlot) (e : Eng) : engIn (resumedPair p x l) e = engIn p e := by
  cases e <;> rfl

theorem engOther_twice (e : Eng) : engOther (engOther e) = e := by cases e <;> rfl

theorem act_of_active {s : State} {e : Eng} (h : s.active = some e) : (engIn s.pair e).act = true := by
  unfold State.active at h
  split at h
  · next ha =>
    obtain rfl := Option.some.inj h
    exact ha
  · split at h
    · next hb =>
      obtain rfl := Option.some.inj h
      exact hb
    · exact absurd h (by simp)

/-- Told for the acting engine and the other, both engines are told. -/
theorem both_of {P : Eng → Prop} {e : Eng} (h : P e) (k : P (engOther e)) : P .a ∧ P .b := by
  cases e
  · exact ⟨h, k⟩
  · exact ⟨k, h⟩

/-- Settles O50: the slot that a J-cycle fills, the freeze, and each outcome of the Verdict by the state it leaves. -/
theorem divergencesEndInAVerdict : Obligations.DivergencesEndInAVerdict := by
  unfold Obligations.DivergencesEndInAVerdict
  refine ⟨fun s typ hq hr hc hd hn hdue => ?_, fun s e typ t64 hdiv hc ht hi => ⟨fun hl => ?_, fun hl => ?_⟩,
    fun s e test hv ha hh hf hw hset => ?_⟩
  · exact ⟨s.tick, by simp [step, hq], tick_diverges hr hc hd hn hdue⟩
  · refine congrArg Host.Outcome.next ?_
    have hlate : s.divergedLate = false := by simp [State.divergedLate, hdiv]; omega
    rw [hdiv]
    exact if_neg (by simp [hlate])
  · have hlate : s.divergedLate = true := by simp [State.divergedLate, hdiv, hl]
    have hgo : exec .divergence s = .next ((s.freeze.count .divergenceCount 0).raise .divergence (le 1 typ ++ le 8 t64)).deferCommit := by
      refine congrArg Host.Outcome.next ?_
      rw [hdiv]
      exact if_pos ⟨hlate, hc, ht, hi⟩
    obtain ⟨hpair, hcount, hrep, hsched⟩ := frozen_gives s typ t64
    refine ⟨_, hgo, ?_⟩
    generalize ((s.freeze.count .divergenceCount 0).raise .divergence (le 1 typ ++ le 8 t64)).deferCommit = t at *
    rw [hpair]
    refine ⟨rfl, rfl, hcount, hrep, rfl, rfl, rfl, fun m hm f hcur hu hs => ?_⟩
    rw [sch_congr hsched]
    exact freeze_cur s hm hcur hu hs
  · obtain ⟨hup, hu, hcount, hkept, hrep⟩ := verdictTold_gives s test
    have hgo := exec_verdictResult hv ha test
    rw [judge_eq] at hgo
    have hvote (d : Eng) : (verdictTold s test).voteCause d = s.voteCause d := voteCause_congr (by rw [hup]; rfl) d
    have hact := act_of_active ha
    have heng (d : Eng) : engIn (toldPair s.pair) d = engIn s.pair d := by cases d <;> rfl
    generalize verdictTold s test = u at *
    have hover {v : State} (hj : Judged u v) := verdict_resumed hup hu hcount hkept hf hset hj
    have hrest {v t : State} (hj : Judged u v) (hvt : v.out <+: t.out) : Reports .verdictResult (verdictRecord s test) s t :=
      reports_after hrep (hj.2.1.out.trans hvt)
    cases hpe : s.selfPass test e with
    | true =>
      cases hpo : s.selfPass test (engOther e) with
      | true =>
        obtain ⟨hpa, hpb⟩ := both_of (P := fun d => s.selfPass test d = true) hpe hpo
        rw [hpe, hpo, if_pos ⟨rfl, rfl⟩] at hgo
        obtain ⟨hpair, hj, hsus⟩ := suspected_gives u (engOther e)
        obtain ⟨hres, hcnt, hver, hout, x, l, hend⟩ := hover hj
        refine ⟨_, hgo, hver, hcnt, hrest hj hout, fun _ _ => ?_, fun _ hn => absurd hn (by simp), fun hn => absurd hn (by simp),
          fun hn => absurd (hpa.symm.trans hn) (by simp), fun _ => hres⟩
        rw [eng_eq, eng_eq, hend, hpair, hup, engIn_resumedPair, engIn_resumedPair]
        refine ⟨?_, rfl, rfl, ?_, reports_after (reports_before hu.out hsus) hout⟩
        · exact (congrArg EngSt.state (by cases e <;> rfl : engIn (suspectPair (toldPair s.pair) (engOther e)) (engOther e) =
            { engIn s.pair (engOther e) with state := .resyncing }))
        · have hsame : engIn (suspectPair (toldPair s.pair) (engOther e)) e = engIn s.pair e := by cases e <;> rfl
          rw [hsame]
          exact hact
      | false =>
        have hone : ¬ (s.selfPass test .a = true ∧ s.selfPass test .b = true) := by cases e <;> simp_all [engOther]
        have htwo : ¬ (s.selfPass test .a = false ∧ s.selfPass test .b = false) := by cases e <;> simp_all [engOther]
        rw [hpe, hpo, if_neg (by decide), if_pos rfl] at hgo
        obtain ⟨hj, hlow, hother, hfail, hsolo⟩ := leftSolo_gives u (engOther e)
        obtain ⟨hres, hcnt, hver, hout, x, l, hend⟩ := hover hj
        refine ⟨_, hgo, hver, hcnt, hrest hj hout, fun h1 h2 => absurd ⟨h1, h2⟩ hone, fun _ _ => ?_, fun hn => absurd hn (by simp),
          fun h1 h2 => absurd ⟨h1, h2⟩ htwo, fun _ => hres⟩
        rw [engOther_twice, hup, heng] at hother
        rw [eng_eq, eng_eq, hend, engIn_resumedPair, engIn_resumedPair, hother]
        rw [hvote] at hfail
        exact ⟨hlow, hact, reports_after (reports_before hu.out hfail) hout, reports_after (reports_before hu.out hsolo) hout⟩
    | false =>
      cases hpo : s.selfPass test (engOther e) with
      | true =>
        have hone : ¬ (s.selfPass test .a = true ∧ s.selfPass test .b = true) := by cases e <;> simp_all [engOther]
        have htwo : ¬ (s.selfPass test .a = false ∧ s.selfPass test .b = false) := by cases e <;> simp_all [engOther]
        rw [hpe, hpo, if_neg (by decide), if_neg (by decide), if_pos rfl] at hgo
        obtain ⟨hj, hhand⟩ := handedOver_gives (u := u) (by rw [hup]; exact hw) e
        obtain ⟨hres, hcnt, hver, hout, x, l, hend⟩ := hover hj
        refine ⟨_, hgo, hver, hcnt, hrest hj hout, fun h1 h2 => absurd ⟨h1, h2⟩ hone, fun hn => absurd hn (by simp), fun _ _ => ?_,
          fun h1 h2 => absurd ⟨h1, h2⟩ htwo, fun _ => hres⟩
        have hfrom := handsOver_from (s := s) (by rw [hup]; rfl) (hu.keeps .time (by decide)) hu.out hhand
        unfold HandsOver at hfrom ⊢
        simp only [Bool.and_false, Bool.false_and, Bool.not_false, Bool.false_eq_true, if_false] at hfrom ⊢
        obtain ⟨h1, h2, h3, h4, h5⟩ := hfrom
        rw [eng_eq] at h2 h3 h5 ⊢
        rw [hend, engIn_resumedPair]
        exact ⟨h1, h2, h3, h4, fun hs => ⟨(h5 hs).1, reports_after (h5 hs).2 hout⟩⟩
      | false =>
        obtain ⟨hpa, hpb⟩ := both_of (P := fun d => s.selfPass test d = false) hpe hpo
        rw [hpe, hpo, if_neg (by decide), if_neg (by decide), if_neg (by decide)] at hgo
        obtain ⟨hfen, hcodes, hdid⟩ := bothFailed_gives (u := u) (by rw [hup]; exact hf) e
        have hlast : ((bothFailed u e).fence 2).verdictEnds = (bothFailed u e).fence 2 := if_pos hfen.1
        rw [hlast] at hgo
        refine ⟨_, hgo, hfen.2.2.2.2.2.1, counted_mid (by decide) (by decide) (codesKept_refl [.evrLost, .evictDrop] s) hcount hcodes,
          reports_after hrep hdid.out, fun h => absurd (hpa.symm.trans h) (by simp), fun h => absurd h (by simp), fun _ h => absurd h (by simp),
          fun _ _ => ?_, fun h => ?_⟩
        · obtain ⟨h1, h2, h3, h4, h5, h6, h7, h8⟩ := hfen
          exact ⟨h1, h2, h3, h4, h5, h6, h7, reports_before hu.out h8⟩
        · rcases h with h | h
          · exact absurd (hpa.symm.trans h) (by simp)
          · exact absurd (hpb.symm.trans h) (by simp)

end Sys2Proof.Proofs
end

section
/-! The Tally: reads, snapshots, the mirror and energy (R31, 01_the_sled; R219 to R227); and O47. -/
namespace Sys2Proof.Proofs
open Sys2Proof Sys2Proof.Machine Sys2Proof.Laws
set_option Elab.async false -- one thread, within the memory of the check

theorem of_congr {s t : State} (h : t.ofs = s.ofs) (n : Nat) : t.of n = s.of n := congrArg (fun l => Tbl.get (fun _ => OfSt.init) l n) h

/-! ### A transaction that finds an engine (R219, R220) -/

/-- The state in which a read or a trigger of function f acts. -/
def woken (s : State) (f : Nat) : State := s.endIdle.partnerWake f

theorem keeps_woken (s : State) (f : Nat) : Keeps [.watch, .supply, .power] s (woken s f) :=
  keeps_trans (keeps_mono (keeps_endIdle s) (by decide)) (keeps_wokenUp s.endIdle f)

theorem time64_woken (s : State) (f : Nat) : (woken s f).time64 = s.time64 := by
  have hcore : (woken s f).coreRuns = s.coreRuns := by
    refine Eq.trans ?_ (coreRuns_endIdle s)
    unfold woken State.partnerWake
    split
    · exact coreRuns_registerWake _ _ _
    · exact coreRuns_registerWake _ _ _
    · rfl
  exact time64_of (keeps_woken s f .time (by decide)) (keeps_woken s f .rtc (by decide)) hcore

/-- In the modes in which the host links are up and no wake is due, only the power mode can change. -/
theorem keeps_woken_up {s : State} (h : s.power.mode = .run ∨ s.power.mode = .idle ∨ s.power.mode = .entering) (f : Nat) :
    Keeps [.power] s (woken s f) := by
  rcases h with h | h | h
  · have hsame : woken s f = s := by
      unfold woken
      rw [endIdle_awake _ (by simp [h]), partnerWake_awake f (by simp [h]) (by simp [h])]
    rw [hsame]
    exact keeps_refl _ s
  · have hrun : s.endIdle.power.mode = .run := by
      unfold State.endIdle
      rw [if_pos h]
      rfl
    have hsame : woken s f = s.endIdle := partnerWake_awake f (by simp [hrun]) (by simp [hrun])
    rw [hsame]
    exact keeps_endIdle s
  · have hsame : woken s f = s.registerWake 7 (s.fnLink f) := by
      unfold woken State.partnerWake
      rw [endIdle_awake _ (by simp [h]), h]
    rw [hsame]
    unfold State.registerWake
    dsimp only
    rw [h]
    dsimp only
    split
    · exact keeps_refl _ s
    · split
      · exact keeps_onPower s _
      · exact keeps_refl _ s

theorem partnerHeld_endIdle (s : State) (l : List Nat) : s.endIdle.partnerHeld l = s.partnerHeld l := by
  refine partnerHeld_congr (keeps_endIdle s .pair (by decide)) ?_ l
  unfold State.endIdle
  split
  · rfl
  · rfl

/-! ### Direct reads (R219) -/

theorem exec_tallyRead {s : State} (n : Fin 4) (hf : s.pair.fenced = false)
    (hm : s.power.mode = .run ∨ s.power.mode = .idle ∨ s.power.mode = .entering) :
    exec (.tallyRead n) s = .next (if s.partnerHeld [5] then s.queueRead n else (woken s (64 + n)).tallyRead n) := by
  refine congrArg Host.Outcome.next ((if_neg (by simp [hf])).trans ?_)
  rcases hm with hm | hm | hm
  · rw [hm]
    rfl
  · rw [hm]
    rfl
  · rw [hm]
    rfl

theorem tallySelected_congr {s t : State} (hpair : t.pair = s.pair) (htally : t.tally = s.tally) (htime : t.time = s.time) (hofs : t.ofs = s.ofs)
    (n : Nat) : t.tallySelected n = s.tallySelected n := by
  unfold State.tallySelected State.tallySeen
  rw [of_congr hofs, hpair, htally, htime]

/-- A read that finds its engine latches the selected counter for its OF, and answers the low word. -/
theorem tallyRead_gives {s : State} (n : Fin 4) (hm : s.power.mode = .run ∨ s.power.mode = .idle ∨ s.power.mode = .entering) :
    Keeps [.ofs, .power, .out] s ((woken s (64 + n)).tallyRead n) ∧
    ((woken s (64 + n)).tallyRead n).of n = { s.of n with tallyLatch := s.tallySelected n } ∧
    (∀ m, m ≠ n.val → ((woken s (64 + n)).tallyRead n).of m = s.of m) ∧
    ((woken s (64 + n)).tallyRead n).out = s.out ++ [.read n (BitVec.ofNat 32 (s.tallySelected n))] := by
  have hup := keeps_woken_up hm (64 + n)
  have hsel := tallySelected_congr (hup .pair (by decide)) (hup .tally (by decide)) (hup .time (by decide)) (hup .ofs (by decide)) n
  have hofs : (woken s (64 + n)).ofs = s.ofs := hup .ofs (by decide)
  have hout : (woken s (64 + n)).out = s.out := hup .out (by decide)
  have hemit (u : State) (o : Out) (k : Nat) : (u.emit o).of k = u.of k := rfl
  unfold State.tallyRead State.tallyAnswer
  rw [hsel]
  generalize woken s (64 + n) = u at *
  refine ⟨keeps_trans (keeps_mono hup (by decide)) (keeps_trans (keeps_mono (keeps_setOf u n _) (by decide)) (keeps_mono (keeps_emit _ _) (by decide))),
    ?_, fun m hne => ?_, congrArg (· ++ [_]) hout⟩
  · rw [hemit, of_setOf_same, of_congr hofs]
  · rw [hemit, of_setOf_other u _ hne, of_congr hofs]

/-! ### Snapshots (R220) -/

theorem exec_snapshotTrigger {s : State} (n : Fin 4) (set : BitVec 4) (seq : BitVec 16) (hn : s.noPartner = false) (hh : s.partnerHeld [5] = false) :
    exec (.snapshotTrigger n set seq) s = .next ((woken s (64 + n)).snapTrigger n set.toNat seq.toNat) :=
  congrArg Host.Outcome.next ((if_neg (by simp [hn])).trans (if_neg (by rw [partnerHeld_endIdle]; simp [hh])))

/-- What an OF holds after a trigger. -/
def triggered (o : OfSt) (set seq why : Nat) (shot : Snapshot) : OfSt :=
  if why ≠ 0 then { o with snapSet := set, snapSeq := seq, snapState := 3, snapWhy := why }
  else { o with snapSet := set, snapSeq := seq, snapState := 1, snapWhy := 0, snapNow := some shot }

theorem snapStart_gives (s : State) (n set seq : Nat) (shot : Snapshot) : Keeps [.ofs] s (s.snapStart n set seq shot) ∧
    (s.snapStart n set seq shot).of n = triggered (s.of n) set seq (s.snapRefusal n set) shot := by
  unfold State.snapStart triggered
  extract_lets why s1
  split
  · exact ⟨keeps_trans (keeps_setOf _ _ _) (keeps_setOf _ _ _), by rw [of_setOf_same, of_setOf_same]⟩
  · exact ⟨keeps_trans (keeps_setOf _ _ _) (keeps_setOf _ _ _), by rw [of_setOf_same, of_setOf_same]⟩

theorem snapRefusal_congr {s t : State} (hofs : t.ofs = s.ofs) (hset : t.setup = s.setup) (n set : Nat) : t.snapRefusal n set = s.snapRefusal n set := by
  have hfence (a l : Nat) : t.fenceOk (64 + n) a l = s.fenceOk (64 + n) a l := fenceOk_congr hset _ _ _
  unfold State.snapRefusal
  dsimp only
  rw [of_congr hofs, hfence]

theorem triggered_gives (o : OfSt) (set seq : Nat) (shot : Snapshot) (why : Nat) : (triggered o set seq why shot).snapSet = set ∧
    (triggered o set seq why shot).snapSeq = seq ∧
    (why ≠ 0 → (triggered o set seq why shot).snapState = 3 ∧ (triggered o set seq why shot).snapWhy = why) ∧
    (why = 0 → (triggered o set seq why shot).snapState = 1 ∧ (triggered o set seq why shot).snapNow = some shot) := by
  unfold triggered
  split
  next h => exact ⟨rfl, rfl, fun _ => ⟨rfl, rfl⟩, fun k => absurd k h⟩
  next h => exact ⟨rfl, rfl, fun k => absurd k h, fun _ => ⟨rfl, rfl⟩⟩

/-- The end of a snapshot, before its event. -/
def snapWritten (s : State) (n : Nat) (x : Snapshot) : State :=
  ((s.emit (.memWrite (64 + n) x.addr (x.header ++ (x.body.map (le 8)).flatten) false)).dmaUse actOperator
    (x.header ++ (x.body.map (le 8)).flatten).length).setOf n (fun o =>
      { o with snapNow := none, snapState := 2, snapWhy := 0, snapPrev := tput o.snapPrev x.set x.upto })

/-- Flags leave the snapshot of an OF. -/
theorem flags_snap {s t : State} (h : Flags s t) (n : Nat) : (t.of n).snapNow = (s.of n).snapNow ∧ (t.of n).snapState = (s.of n).snapState := by
  have hsans := h.ofs n
  generalize t.of n = o at *
  generalize s.of n = p at *
  exact ⟨(congrArg OfSt.snapNow hsans : o.sans.snapNow = p.sans.snapNow), (congrArg OfSt.snapState hsans : o.sans.snapState = p.sans.snapState)⟩

theorem exec_tallySnapshot {s : State} (n : Fin 4) {x : Snapshot} (hi : s.idleEngine [2, 5] = false) (hx : (s.of n).snapNow = some x) :
    exec (.tallySnapshot n) s = .next ((snapWritten s n x).raise .tallySnapshot (le 1 (64 + n.val) ++ le 2 x.seq ++ le 4 x.status)) := by
  refine congrArg Host.Outcome.next ((if_neg (by simp [hi])).trans ?_)
  unfold State.snapDone
  rw [hx]
  rfl

theorem snapWritten_gives (s : State) (n : Nat) (x : Snapshot) : ((snapWritten s n x).of n).snapNow = none ∧ ((snapWritten s n x).of n).snapState = 2 ∧
    (snapWritten s n x).out = s.out ++ [.memWrite (64 + n) x.addr (x.header ++ (x.body.map (le 8)).flatten) false] := by
  unfold snapWritten
  rw [of_setOf_same]
  exact ⟨rfl, rfl, rfl⟩

/-! ### The mirror (R223) -/

theorem find_absent {l : List (Nat × Nat)} {k : Nat} (h : k ∉ l.map (fun e => e.1)) : Tbl.find l k = none := by
  induction l with
  | nil => rfl
  | cons e l ih =>
    rw [List.map_cons, List.mem_cons, not_or] at h
    exact (if_neg (fun hk => h.1 hk.symm)).trans (ih h.2)

/-- The J-cycle's base over the counters, key by key. -/
theorem tget_foldl_tput (l : List (Nat × Nat)) (hn : (l.map (fun e => e.1)).Nodup) (m : List (Nat × Nat)) (k : Nat) :
    tget (l.foldl (fun m e => tput m e.1 e.2) m) k = (Tbl.find l k).getD (tget m k) := by
  induction l generalizing m with
  | nil => rfl
  | cons e l ih =>
    rw [List.map_cons, List.nodup_cons] at hn
    obtain ⟨hout, hl⟩ := hn
    rw [List.foldl_cons, ih hl]
    by_cases hk : e.1 = k
    · have hsome : Tbl.find (e :: l) k = some e.2 := if_pos hk
      rw [hsome, find_absent (by rw [← hk]; exact hout), ← hk]
      exact tget_tput_same m e.1 e.2
    · have hsame : Tbl.find (e :: l) k = Tbl.find l k := if_neg hk
      rw [hsame, tget_tput_other m e.2 (fun h => hk h.symm)]

theorem flags_mirrorCross {s₀ s : State} (h : Flags s₀ s) (e : Nat × Nat × Bool) : Flags s₀ (s.mirrorCross e) :=
  flags_raise _ _ (flags_onTally rfl h)

/-- At a boundary the mirror takes what a read of this J-cycle sees, and the boundary's stamp. -/
theorem mirrorNow_gives (s : State) (hn : (s.tally.base.map (fun e => e.1)).Nodup) :
    (∀ k, tget s.mirrorNow.tally.mirror k = s.tally.before s.time.jcycle k) ∧ s.mirrorNow.tally.mirror64 = s.time64 := by
  have hflags : Flags (s.onTally (fun t => t.mirrored s.time.jcycle s.time64)) s.mirrorNow := by
    unfold State.mirrorNow
    generalize s.onTally (fun t => t.mirrored s.time.jcycle s.time64) = u
    generalize s.tally.pend.filter (fun e => decide (e.1 < s.time.jcycle)) = l
    have hfold (l : List (Nat × Nat × Bool)) (v : State) (hv : Flags u v) : Flags u (l.foldl State.mirrorCross v) := by
      induction l generalizing v with
      | nil => exact hv
      | cons e l ih => exact ih _ (flags_mirrorCross hv e)
    exact hfold l u (flags_refl u)
  have hmirror : s.mirrorNow.tally.mirror = (s.tally.mirrored s.time.jcycle s.time64).mirror :=
    (congrArg TallySt.mirror hflags.tally : s.mirrorNow.tally.sans.mirror = _)
  have hstamp : s.mirrorNow.tally.mirror64 = s.time64 :=
    (congrArg TallySt.mirror64 hflags.tally : s.mirrorNow.tally.sans.mirror64 = _)
  refine ⟨fun k => ?_, hstamp⟩
  rw [hmirror]
  unfold TallySt.mirrored TallySt.before
  dsimp only
  split
  · exact tget_foldl_tput _ hn _ k
  · rfl

/-! ### Energy (R225 to R227) -/

/-- The carried fractions once energy has been added to a counter. -/
theorem frac_addEnergy (s : State) (c : Ctr) (obj units : Nat) : (s.addEnergy c obj units).tally.frac =
    tput s.tally.frac (tallyKey c.code 0 obj) ((tget s.tally.frac (tallyKey c.code 0 obj) + units) % 2 ^ 16) := by
  have hcount (u : State) (n : Nat) : (u.countN c 0 obj n).tally.frac = u.tally.frac :=
    (congrArg TallySt.frac (flags_countN c 0 obj n (flags_refl u)).tally : (u.countN c 0 obj n).tally.sans.frac = u.tally.sans.frac)
  unfold State.addEnergy
  extract_lets key t s1
  split
  · rfl
  · rw [hcount]
    rfl

/-- Energy added to a counter moves it by the whole microjoules. -/
theorem count_addEnergy (s : State) (c : Ctr) {obj : Nat} (units : Nat) (ho : obj < 2 ^ 12) (hc : c.code ≠ Ctr.evrLost.code)
    (hlt : tget s.tally.count (tallyKey c.code 0 obj) < 2 ^ 48) :
    Counted c 0 obj ((tget s.tally.frac (tallyKey c.code 0 obj) + units) / 2 ^ 16) s (s.addEnergy c obj units) := by
  unfold State.addEnergy
  extract_lets key t s1
  have hsame : s1.tally.count = s.tally.count := rfl
  split
  next h =>
    have hzero : (tget s.tally.frac (tallyKey c.code 0 obj) + units) / 2 ^ 16 = 0 := h
    unfold Counted
    rw [hsame, hzero, Nat.add_zero, Nat.mod_eq_of_lt hlt]
  next => exact counted_countN s1 c (t / ujUnit) (by decide) ho hc

/-- It moves no other counter but EVR_LOST's. -/
theorem count_addEnergy_other (s : State) (c : Ctr) {obj k : Nat} (units : Nat) (ho : obj < 2 ^ 12) (hc : c.code ≠ Ctr.evrLost.code)
    (hk : k ≠ tallyKey c.code 0 obj) (he : k / 2 ^ 15 ≠ Ctr.evrLost.code) :
    tget (s.addEnergy c obj units).tally.count k = tget s.tally.count k := by
  unfold State.addEnergy
  extract_lets key t s1
  split
  · rfl
  · exact (countN_counts s1 c 0 obj _ (by rw [cls_key_code (by decide) ho]; exact hc)).others k hk he

theorem codesKept_addEnergy (s : State) (c : Ctr) {obj : Nat} (units : Nat) (ho : obj < 2 ^ 12) (hc : c.code ≠ Ctr.evrLost.code) :
    CodesKept [.evrLost, c] s (s.addEnergy c obj units) := by
  intro k hk
  refine count_addEnergy_other s c units ho hc (fun h => ?_) (hk .evrLost (by simp))
  exact hk c (by simp) (by rw [h, cls_key_code (by decide) ho])

/-- One function's charge of a window. -/
def charged (part : Nat → Nat) (s : State) (f : Nat) : State := if part f = 0 then s else s.addEnergy .energyUj f (part f)

theorem energyKey_lt {f : Nat} (hf : f < 2 ^ 12) : tallyKey Ctr.energyUj.code 0 f / 2 ^ 15 ≠ Ctr.evrLost.code := by
  rw [cls_key_code (by decide) hf]
  decide

theorem charged_same (part : Nat → Nat) (s : State) {f : Nat} (hf : f < 2 ^ 12) (hlt : tget s.tally.count (tallyKey Ctr.energyUj.code 0 f) < 2 ^ 48)
    (hfr : tget s.tally.frac (tallyKey Ctr.energyUj.code 0 f) < 2 ^ 16) :
    Counted .energyUj 0 f ((tget s.tally.frac (tallyKey Ctr.energyUj.code 0 f) + part f) / 2 ^ 16) s (charged part s f) := by
  unfold charged
  split
  next h =>
    unfold Counted
    rw [h, Nat.add_zero, Nat.div_eq_of_lt hfr, Nat.add_zero, Nat.mod_eq_of_lt hlt]
  next => exact count_addEnergy s .energyUj (part f) hf (by decide) hlt

theorem charged_other (part : Nat → Nat) (s : State) {f g : Nat} (hf : f < 2 ^ 12) (hg : g < 2 ^ 12) (h : g ≠ f) :
    tget (charged part s f).tally.count (tallyKey Ctr.energyUj.code 0 g) = tget s.tally.count (tallyKey Ctr.energyUj.code 0 g) ∧
    tget (charged part s f).tally.frac (tallyKey Ctr.energyUj.code 0 g) = tget s.tally.frac (tallyKey Ctr.energyUj.code 0 g) := by
  have hkey : tallyKey Ctr.energyUj.code 0 g ≠ tallyKey Ctr.energyUj.code 0 f := by
    unfold tallyKey
    omega
  unfold charged
  split
  · exact ⟨rfl, rfl⟩
  · refine ⟨count_addEnergy_other s .energyUj (part f) hf (by decide) hkey (energyKey_lt hg), ?_⟩
    rw [frac_addEnergy, tget_tput_other _ _ hkey]

/-- Charging each function of a list once charges one of them its own part. -/
theorem charges_counted (part : Nat → Nat) {l : List Nat} (hn : l.Nodup) (hl : ∀ x ∈ l, x < 2 ^ 12) {f : Nat} (hf : f ∈ l) (s : State)
    (hlt : tget s.tally.count (tallyKey Ctr.energyUj.code 0 f) < 2 ^ 48) (hfr : tget s.tally.frac (tallyKey Ctr.energyUj.code 0 f) < 2 ^ 16) :
    Counted .energyUj 0 f ((tget s.tally.frac (tallyKey Ctr.energyUj.code 0 f) + part f) / 2 ^ 16) s (l.foldl (charged part) s) := by
  have hrest (r : List Nat) (hr : ∀ x ∈ r, x < 2 ^ 12) (hout : f ∉ r) (t : State) :
      tget (r.foldl (charged part) t).tally.count (tallyKey Ctr.energyUj.code 0 f) = tget t.tally.count (tallyKey Ctr.energyUj.code 0 f) := by
    induction r generalizing t with
    | nil => rfl
    | cons b r ihr =>
      rw [List.mem_cons, not_or] at hout
      rw [List.foldl_cons, ihr (fun x hx => hr x (List.mem_cons_of_mem b hx)) hout.2]
      exact (charged_other part t (hr b List.mem_cons_self) (hl f hf) hout.1).1
  induction l generalizing s with
  | nil => exact absurd hf (by simp)
  | cons a l ih =>
    obtain ⟨ha, hnl⟩ := List.nodup_cons.mp hn
    have hll : ∀ x ∈ l, x < 2 ^ 12 := fun x hx => hl x (List.mem_cons_of_mem a hx)
    by_cases he : f = a
    · subst he
      unfold Counted
      rw [List.foldl_cons, hrest l hll ha]
      exact charged_same part s (hl f hf) hlt hfr
    · have hin : f ∈ l := (List.mem_cons.mp hf).resolve_left he
      obtain ⟨h1, h2⟩ := charged_other part s (hl a List.mem_cons_self) (hl f hf) he
      have h := ih hnl hll hin (charged part s a) (by rw [h1]; exact hlt) (by rw [h2]; exact hfr)
      unfold Counted at h ⊢
      rw [List.foldl_cons, h, h1, h2]

/-! ### A window (R226, R227) -/

/-- Charging functions leaves the fractions of every other counter. -/
theorem frac_charges (part : Nat → Nat) {l : List Nat} (hl : ∀ x ∈ l, x < 2 ^ 12) {k : Nat} (hk : k / 2 ^ 15 ≠ Ctr.energyUj.code) (s : State) :
    tget (l.foldl (charged part) s).tally.frac k = tget s.tally.frac k := by
  induction l generalizing s with
  | nil => rfl
  | cons a l ih =>
    rw [List.foldl_cons, ih (fun x hx => hl x (List.mem_cons_of_mem a hx))]
    unfold charged
    split
    · rfl
    · rw [frac_addEnergy, tget_tput_other]
      intro h
      rw [h, cls_key_code (by decide) (hl a List.mem_cons_self)] at hk
      exact hk rfl

/-- A list of values put at their places. -/
theorem tget_foldl_place (v : Nat → Nat) (l : List Nat) {i : Nat} (p : List (Nat × Nat)) (h : i ∈ l ∨ tget p i = v i) :
    tget (l.foldl (fun p i => tput p i (v i)) p) i = v i := by
  induction l generalizing p with
  | nil => exact h.resolve_left (by simp)
  | cons a l ih =>
    refine ih (tput p a (v a)) ?_
    by_cases hia : i = a
    · exact .inr (by rw [hia, tget_tput_same])
    · rcases h with h | h
      · exact .inl ((List.mem_cons.mp h).resolve_left hia)
      · exact .inr (by rw [tget_tput_other _ _ hia, h])

theorem closeWindow_gives (s : State) (w : List Nat) (u : State) : (State.closeWindow s w).tally.count = s.tally.count ∧
    (State.closeWindow s w).tally.act = [] ∧ (State.closeWindow s w).tally.skipEnergy = s.tally.skipEnergy ∧
    ((∀ i, s.measured w i = u.measured w i) → ∀ i < 20, tget (State.closeWindow s w).tally.powerMw i = min (u.measured w i) 65535) := by
  refine ⟨rfl, rfl, rfl, fun hm i hi => ?_⟩
  rw [← hm]
  exact tget_foldl_place (fun i => min (s.measured w i) 65535) (List.range 20) s.tally.powerMw (.inl (List.mem_range.mpr hi))

theorem measured_congr {s t : State} (h : t.power = s.power) (w : List Nat) (i : Nat) : t.measured w i = s.measured w i := by
  unfold State.measured
  rw [island_of (congrArg PowerSt.islands h)]

theorem did_addEnergy (s : State) (c : Ctr) (obj units : Nat) : Does 0xe220082 s (s.addEnergy c obj units) := does_addEnergy (by decide) (does_refl _ s)

theorem did_charges (part : Nat → Nat) (l : List Nat) (s : State) : Does 0xe220082 s (l.foldl (charged part) s) :=
  does_foldl (fun x a hx => does_ite hx (does_addEnergy (by decide) hx)) (does_refl _ s)

/-- All of a window's energy goes to the Shell. -/
theorem shell_counted {s u : State} (w : List Nat) (hf : tget u.tally.frac (tallyKey Ctr.shellEnergyUj.code 0 0) = tget s.tally.frac (tallyKey Ctr.shellEnergyUj.code 0 0))
    (hc : CodesKept [.evrLost, .energyUj, .operatorEnergyUj] s u) (hfr : tget s.tally.frac (tallyKey Ctr.shellEnergyUj.code 0 0) < 2 ^ 16)
    (hlt : tget s.tally.count (tallyKey Ctr.shellEnergyUj.code 0 0) < 2 ^ 48) :
    Counted .shellEnergyUj 0 0 ((List.range 20).map (s.measured w)).sum s (u.addEnergy .shellEnergyUj 0 (s.winAll w)) := by
  have hsame : tget u.tally.count (tallyKey Ctr.shellEnergyUj.code 0 0) = tget s.tally.count (tallyKey Ctr.shellEnergyUj.code 0 0) :=
    hc _ (fun d hd => by
      rw [cls_key_code (by decide) (by decide)]
      simp only [List.mem_cons, List.not_mem_nil, or_false] at hd
      rcases hd with rfl | rfl | rfl
      · decide
      · decide
      · decide)
  have hone := count_addEnergy u .shellEnergyUj (obj := 0) (s.winAll w) (by decide) (by decide) (by rw [hsame]; exact hlt)
  have hunits : (tget u.tally.frac (tallyKey Ctr.shellEnergyUj.code 0 0) + s.winAll w) / 2 ^ 16 = ((List.range 20).map (s.measured w)).sum := by
    rw [hf]
    unfold State.winAll ujUnit
    omega
  rw [hunits] at hone
  exact counted_mid (by decide) (by decide) hc hone (codesKept_refl _ _)

/-- An attributed window: every TF its share, the Shell all of it. -/
theorem attribute_gives (s : State) (w : List Nat) :
    (tget s.tally.frac (tallyKey Ctr.shellEnergyUj.code 0 0) < 2 ^ 16 → tget s.tally.count (tallyKey Ctr.shellEnergyUj.code 0 0) < 2 ^ 48 →
      Counted .shellEnergyUj 0 0 ((List.range 20).map (s.measured w)).sum s (s.attribute w)) ∧
    (∀ f < 64, tget s.tally.count (tallyKey Ctr.energyUj.code 0 f) < 2 ^ 48 → tget s.tally.frac (tallyKey Ctr.energyUj.code 0 f) < 2 ^ 16 →
      Counted .energyUj 0 f ((tget s.tally.frac (tallyKey Ctr.energyUj.code 0 f) + s.winPart w f) / 2 ^ 16) s (s.attribute w)) ∧
    Does 0xe220082 s (s.attribute w) := by
  have heq : s.attribute w = (((List.range 64).foldl (charged (s.winPart w)) s).addEnergy .operatorEnergyUj 0
      (s.winAll w - ((List.range 64).map (s.winPart w)).sum)).addEnergy .shellEnergyUj 0 (s.winAll w) := rfl
  have hsmall : ∀ x ∈ List.range 64, x < 2 ^ 12 := fun x hx => lt_trans (List.mem_range.mp hx) (by decide)
  have hcharges := fun (f : Nat) (hf : f < 64) => charges_counted (s.winPart w) List.nodup_range hsmall (List.mem_range.mpr hf) s
  have hkept : CodesKept [.evrLost, .energyUj] s ((List.range 64).foldl (charged (s.winPart w)) s) :=
    codesKept_foldl _ s (fun t x hx => codesKept_ite (codesKept_refl _ t) (codesKept_addEnergy t .energyUj _ (hsmall x hx) (by decide)))
  have hfrac := frac_charges (s.winPart w) hsmall (k := tallyKey Ctr.shellEnergyUj.code 0 0) (by decide) s
  have hdid := did_charges (s.winPart w) (List.range 64) s
  rw [heq]
  generalize (List.range 64).foldl (charged (s.winPart w)) s = u at *
  generalize s.winAll w - ((List.range 64).map (s.winPart w)).sum = rest
  have hop : CodesKept [.evrLost, .operatorEnergyUj] u (u.addEnergy .operatorEnergyUj 0 rest) := codesKept_addEnergy u _ rest (by decide) (by decide)
  have hopf : tget (u.addEnergy .operatorEnergyUj 0 rest).tally.frac (tallyKey Ctr.shellEnergyUj.code 0 0) =
      tget s.tally.frac (tallyKey Ctr.shellEnergyUj.code 0 0) := by
    rw [frac_addEnergy, tget_tput_other _ _ (by decide), hfrac]
  have hdid2 := did_addEnergy u .operatorEnergyUj 0 rest
  generalize u.addEnergy .operatorEnergyUj 0 rest = v at *
  refine ⟨fun hfr hlt => shell_counted w hopf (codesKept_trans (codesKept_mono hkept (by simp)) (codesKept_mono hop (by simp))) hfr hlt,
    fun f hf hlt hfr => ?_, does_addEnergy (by decide) (does_trans hdid hdid2)⟩
  exact counted_mid (l := [.evrLost, .operatorEnergyUj, .shellEnergyUj]) (by decide) (lt_trans hf (by decide)) (codesKept_refl _ s) (hcharges f hf hlt hfr)
    (codesKept_trans (codesKept_mono hop (by simp)) (codesKept_mono (codesKept_addEnergy v .shellEnergyUj _ (by decide) (by decide)) (by simp)))

/-- The mark that a warm hand-over left on the window is cleared. -/
def unskipped (s : State) : State := s.onTally (fun t => { t with skipEnergy := false })

/-- A window that a warm hand-over fell into goes to the Shell, and counts as unmeasured. -/
def skipped (s : State) (w : List Nat) : State := ((unskipped s).addEnergy .shellEnergyUj 0 (s.winAll w)).count .unmeasuredMs 0

theorem skip_addEnergy (s : State) (c : Ctr) (obj units : Nat) : (s.addEnergy c obj units).tally.skipEnergy = s.tally.skipEnergy := by
  have hcount (u : State) (n : Nat) : (u.countN c 0 obj n).tally.skipEnergy = u.tally.skipEnergy :=
    (congrArg TallySt.skipEnergy (flags_countN c 0 obj n (flags_refl u)).tally : (u.countN c 0 obj n).tally.sans.skipEnergy = u.tally.sans.skipEnergy)
  unfold State.addEnergy
  extract_lets key t s1
  split
  · rfl
  · exact hcount s1 _

theorem skipped_gives (s : State) (w : List Nat) (hfr : tget s.tally.frac (tallyKey Ctr.shellEnergyUj.code 0 0) < 2 ^ 16)
    (hlt : tget s.tally.count (tallyKey Ctr.shellEnergyUj.code 0 0) < 2 ^ 48) :
    Counted .shellEnergyUj 0 0 ((List.range 20).map (s.measured w)).sum s (skipped s w) ∧ Counted .unmeasuredMs 0 0 1 s (skipped s w) ∧
    (skipped s w).tally.skipEnergy = false ∧ Does 0xe220082 s (skipped s w) := by
  have hshell := shell_counted (s := s) (u := unskipped s) w rfl (codesKept_refl _ _) hfr hlt
  have hskip := skip_addEnergy (unskipped s) .shellEnergyUj 0 (s.winAll w)
  have hkept : CodesKept [.evrLost, .shellEnergyUj] s ((unskipped s).addEnergy .shellEnergyUj 0 (s.winAll w)) :=
    codesKept_trans (t := unskipped s) (fun _ _ => rfl) (codesKept_addEnergy _ .shellEnergyUj _ (by decide) (by decide))
  have hdid : Does 0xe220082 s ((unskipped s).addEnergy .shellEnergyUj 0 (s.winAll w)) :=
    does_addEnergy (by decide) (does_onTally (by decide) (fun h => ⟨h.count, h.base, h.mirror⟩) (does_refl _ s))
  have hoff : (unskipped s).tally.skipEnergy = false := rfl
  unfold skipped
  rw [hoff] at hskip
  generalize (unskipped s).addEnergy .shellEnergyUj 0 (s.winAll w) = u at *
  refine ⟨?_, ?_, ?_, does_count (by decide) hdid⟩
  · exact counted_mid (l := [.evrLost, .unmeasuredMs]) (by decide) (by decide) (codesKept_refl _ s) hshell
      (codesKept_countN u .unmeasuredMs 1 (by decide) (by decide))
  · exact counted_mid (l := [.evrLost, .shellEnergyUj]) (by decide) (by decide) hkept (counted_countN u .unmeasuredMs 1 (by decide) (by decide))
      (codesKept_refl _ _)
  · exact (congrArg TallySt.skipEnergy (flags_countN .unmeasuredMs 0 0 1 (flags_refl u)).tally :
      (u.count .unmeasuredMs 0).tally.sans.skipEnergy = u.tally.sans.skipEnergy).trans hskip

theorem unmeasured_counts (s : State) : Counts .unmeasuredMs 0 0 1 s ((s.onTally (fun t => { t with act := [] })).count .unmeasuredMs 0) := by
  have hact : Flags s (s.onTally (fun t => { t with act := [] })) := flags_onTally rfl (flags_refl s)
  have hsame : (s.onTally (fun t => { t with act := [] })).tally.count = s.tally.count := rfl
  generalize s.onTally (fun t => { t with act := [] }) = u at *
  have hcnt := countN_counts u .unmeasuredMs 0 0 1 (by decide)
  refine ⟨flags_countN _ _ _ _ hact, ?_, fun k hk he => ?_⟩
  · rw [← hsame]
    exact hcnt.value
  · rw [← hsame]
    exact hcnt.others k hk he

theorem exec_energyWindow {s : State} (w : List Nat) (h : s.coreRuns = true) : exec (.energyWindow w) s =
    .next (State.closeWindow (if s.tally.skipEnergy then skipped s w else s.attribute w) w) := by
  refine congrArg Host.Outcome.next ((if_neg (by simp [h])).trans ?_)
  split
  · rfl
  · rfl

/-- Settles O47: each answer by the state that it finds, the mirror by its fold, and each window by what it adds. -/
theorem tallyReadsFreezeWhatTheyShow : Obligations.TallyReadsFreezeWhatTheyShow := by
  unfold Obligations.TallyReadsFreezeWhatTheyShow
  refine ⟨fun s n hf hm => ⟨fun hh => ?_, fun hh => ?_⟩, fun s n set seq hn hh => ?_, fun s n x hi hx => ?_, fun s => ⟨fun hw => ?_, fun hw hn => ?_⟩,
    fun s w => ⟨fun hc => ?_, fun hc hfr hlt => ?_⟩⟩
  · have hgo := exec_tallyRead n hf hm
    rw [if_neg (by simp [hh])] at hgo
    exact ⟨_, hgo, tallyRead_gives n hm⟩
  · have hgo := exec_tallyRead n hf hm
    rw [if_pos hh] at hgo
    exact hgo
  · have hgo := exec_snapshotTrigger n set seq hn hh
    have hup := keeps_woken s (64 + n)
    have hshot := snapShot_congr (hup .pair (by decide)) (time64_woken s (64 + n)) (hup .tally (by decide)) (hup .time (by decide))
      (hup .ofs (by decide)) n set.toNat seq.toNat
    have hwhy := snapRefusal_congr (hup .ofs (by decide)) (hup .setup (by decide)) n set.toNat
    have hof := of_congr (hup .ofs (by decide)) n
    generalize woken s (64 + n) = u at *
    obtain ⟨hkeeps, hgives⟩ := snapStart_gives u n set.toNat seq.toNat (u.snapShot n set.toNat seq.toNat)
    rw [hshot, hwhy, hof] at hgives
    obtain ⟨h1, h2, h3, h4⟩ := triggered_gives (s.of n) set.toNat seq.toNat (s.snapShot n set.toNat seq.toNat) (s.snapRefusal n set.toNat)
    have hread : u.snapTrigger n set.toNat seq.toNat = u.snapStart n set.toNat seq.toNat (u.snapShot n set.toNat seq.toNat) := rfl
    refine ⟨_, hgo, keeps_trans (keeps_mono hup (by decide)) (keeps_mono (hread ▸ hkeeps) (by decide)), ?_⟩
    rw [hread, hshot, hgives]
    refine ⟨h1, h2, fun hb => ?_, fun hb hg => ?_, fun hb hg hl => ?_, fun hb hg hl => ?_⟩
    · have hr : s.snapRefusal n set.toNat = 1 := if_pos (Option.isSome_iff_ne_none.mpr hb)
      rw [hr] at h3 ⊢
      exact h3 (by decide)
    · have hr : s.snapRefusal n set.toNat = 5 := (if_neg (by simp [hb])).trans (if_pos hg)
      rw [hr] at h3 ⊢
      exact h3 (by decide)
    · have hr : s.snapRefusal n set.toNat = 3 := (if_neg (by simp [hb])).trans ((if_neg (by simp [hg])).trans (if_pos hl))
      rw [hr] at h3 ⊢
      exact h3 (by decide)
    · have hr : s.snapRefusal n set.toNat = if s.fenceOk (64 + n) (s.of n).snapBuf (s.of n).snapLen then 0 else 2 :=
        (if_neg (by simp [hb])).trans ((if_neg (by simp [hg])).trans (if_neg (by omega)))
      split
      next hok =>
        rw [if_pos hok] at hr
        rw [hr] at h4 ⊢
        obtain ⟨k1, k2⟩ := h4 rfl
        exact ⟨k1, by rw [k2]; rfl⟩
      next hno =>
        rw [if_neg hno] at hr
        rw [hr] at h3 ⊢
        exact h3 (by decide)
  · obtain ⟨h1, h2, h3⟩ := snapWritten_gives s n x
    refine ⟨_, exec_tallySnapshot n hi hx, ?_⟩
    generalize snapWritten s n x = u at *
    have hflags : Flags u (u.raise .tallySnapshot (le 1 (64 + n.val) ++ le 2 x.seq ++ le 4 x.status)) := flags_raise _ _ (flags_refl u)
    obtain ⟨hnow, hstate⟩ := flags_snap hflags n
    have hrep := reports_raise u .tallySnapshot (le 1 (64 + n.val) ++ le 2 x.seq ++ le 4 x.status)
    obtain ⟨l, hl⟩ := hflags.out
    generalize u.raise .tallySnapshot (le 1 (64 + n.val) ++ le 2 x.seq ++ le 4 x.status) = v at *
    refine ⟨hnow.trans h1, hstate.trans h2, reports_before (by rw [h3]; exact List.prefix_append _ _) hrep, l, ?_⟩
    rw [hl, h3, List.append_assoc]
    rfl
  · exact congrArg Host.Outcome.next (if_neg (by simp [hw]))
  · exact ⟨s.mirrorNow, congrArg Host.Outcome.next (if_pos hw), mirrorNow_gives s hn⟩
  · exact ⟨_, congrArg Host.Outcome.next (if_pos hc), unmeasured_counts s⟩
  · have hgo := exec_energyWindow w hc
    obtain ⟨hshell, hfn, hdid⟩ := attribute_gives s w
    obtain ⟨kshell, kms, kskip, kdid⟩ := skipped_gives s w hfr hlt
    refine ⟨_, hgo, ?_⟩
    cases hs : s.tally.skipEnergy with
    | true =>
      rw [if_pos rfl]
      obtain ⟨hcount, hact, hskip, hmw⟩ := closeWindow_gives (skipped s w) w s
      have hlast : CodesKept [] (skipped s w) (State.closeWindow (skipped s w) w) := fun k _ => congrArg (fun l => tget l k) hcount
      refine ⟨counted_mid (by decide) (by decide) (codesKept_refl [] s) kshell hlast (by simp), hact,
        hmw (fun i => measured_congr (kdid.keeps .power (by decide)) w i), fun _ => ⟨hskip.trans kskip, ?_⟩, fun hn => absurd hn (by simp)⟩
      exact counted_mid (by decide) (by decide) (codesKept_refl [] s) kms hlast (by simp)
    | false =>
      rw [if_neg (by decide)]
      obtain ⟨hcount, hact, hskip, hmw⟩ := closeWindow_gives (s.attribute w) w s
      have hlast : CodesKept [] (s.attribute w) (State.closeWindow (s.attribute w) w) := fun k _ => congrArg (fun l => tget l k) hcount
      refine ⟨counted_mid (by decide) (by decide) (codesKept_refl [] s) (hshell hfr hlt) hlast (by simp), hact,
        hmw (fun i => measured_congr (hdid.keeps .power (by decide)) w i), fun hn => absurd hn (by simp), fun _ f hf h1 h2 => ?_⟩
      exact counted_mid (by decide) (lt_trans hf (by decide)) (codesKept_refl [] s) (hfn f hf h1 h2) hlast (by simp)

end Sys2Proof.Proofs
end

section
/-! The grant (R130, R131, R134, R135, R197); and O39. -/
namespace Sys2Proof.Proofs
open Sys2Proof Sys2Proof.Machine Sys2Proof.Laws
set_option Elab.async false -- one thread, within the memory of the check

/-! ### What a decision reads -/

/-- A scheduler instance but for its credits. -/
def uncredited (x : SchInst) : SchInst := { x with credit := [], creditAt := [] }

/-- Bringing the credits up to the present changes the credits alone (R137). -/
theorem settle_uncredited (s : State) (m k : Nat) : uncredited ((s.settle m).sch k) = uncredited (s.sch k) := by
  have hcredit (t : State) (c : Nat) (v : Int) : uncredited ((t.setCredit m c v).sch k) = uncredited (t.sch k) := by
    by_cases hk : k = m
    · rw [hk, State.setCredit, sch_setSch_same]
      rfl
    · rw [State.setCredit, sch_setSch_other t _ hk]
  have hone (t : State) (c : Nat) : uncredited ((State.settleOne m t c).sch k) = uncredited (t.sch k) := by
    unfold State.settleOne
    split
    · exact hcredit t c _
    · rfl
  exact foldl_keeps (g := fun t : State => uncredited (t.sch k)) hone (List.range 8) s

theorem did_settle (s : State) (m : Nat) : Does 0x1000 s (s.settle m) := does_settle (by decide) (does_refl _ s)

/-- Candidates rest on the rings, the completion queues and the set-up. -/
theorem cands_congr {s t : State} (htx : t.tx = s.tx) (hcq : t.cq = s.cq) (hset : t.setup = s.setup) (m c : Nat) : t.cands m c = s.cands m c := by
  have hask (r : TxRing) (x : Send) : t.sendAsk r x = s.sendAsk r x := by
    unfold State.sendAsk State.forcedTag State.profCtrlStagForce State.profCtrlStagVid State.field State.activeWord
    rw [hset]
  have hcqr (n : Nat) : t.cqr n = s.cqr n := congrArg (fun l => Tbl.get (fun _ => CqRing.init) l n) hcq
  have hring (n : Nat) (r : TxRing) (l : List Send) : t.ringCand n r l = s.ringCand n r l := by
    induction l with
    | nil => rfl
    | cons x rest ih =>
      unfold State.ringCand
      dsimp only
      rw [hask, hcqr, ih]
  unfold State.cands
  rw [htx]
  simp only [hring]

/-- The lists that gate an instance rest on its own and on the set-up. -/
theorem gated_lists {s t : State} {m : Nat} (hset : t.setup = s.setup) (ho : (t.sch m).oper = (s.sch m).oper) (hp : (t.sch m).pend = (s.sch m).pend) :
    (t.gated m).oper = (s.gated m).oper ∧ (t.gated m).pend = (s.gated m).pend := by
  have hen : t.schCtrlGateEn m = s.schCtrlGateEn m := field_congr hset _ _ _
  unfold State.gated
  rw [hen]
  split
  · exact ⟨ho, hp⟩
  · exact ⟨rfl, rfl⟩

theorem closeOf_congr {x y : SchInst} (ho : y.oper = x.oper) (hp : y.pend = x.pend) (c t : Nat) : y.closeOf c t = x.closeOf c t := by
  unfold SchInst.closeOf SchInst.listAt
  rw [ho, hp]

theorem startAt_congr {s t : State} {m : Nat} (hsch : (t.sch m).free = (s.sch m).free ∧ (t.sch m).wakeReq = (s.sch m).wakeReq)
    (hmac : t.mac m = s.mac m) (htime : t.time = s.time) (ready : Nat) : t.startAt m ready = s.startAt m ready := by
  obtain ⟨hf, hw⟩ := hsch
  unfold State.startAt
  rw [hf, hw, hmac, htime]

theorem timeAt_congr {s t : State} (h : t.time = s.time) (n : Nat) : t.timeAt n = s.timeAt n := by
  unfold State.timeAt
  rw [h]

theorem rate_congr {s t : State} (h : t.setup = s.setup) (m : Nat) : t.rate m = s.rate m := by
  unfold State.rate State.breakout State.portCfgBreakout State.field State.activeWord
  rw [h]

/-- What the credits' settling leaves for the decision. -/
theorem settled_reads (s : State) (m : Nat) (ready : Nat) : (∀ d, (s.settle m).cands m d = s.cands m d) ∧
    (s.settle m).startAt m ready = s.startAt m ready ∧ (∀ n, (s.settle m).timeAt n = s.timeAt n) ∧
    (((s.settle m).gated m).oper = (s.gated m).oper ∧ ((s.settle m).gated m).pend = (s.gated m).pend) ∧ (s.settle m).rate m = s.rate m := by
  have hd := did_settle s m
  have hsch := settle_uncredited s m m
  have htime : (s.settle m).time = s.time := hd.keeps .time (by decide)
  have hset : (s.settle m).setup = s.setup := hd.keeps .setup (by decide)
  refine ⟨fun d => cands_congr (hd.keeps .tx (by decide)) (hd.keeps .cq (by decide)) hset m d, startAt_congr ⟨?_, ?_⟩ (mac_of_does hd m) htime ready,
    fun n => timeAt_congr htime n, gated_lists hset ?_ ?_, rate_congr hset m⟩
  · exact (congrArg SchInst.free hsch : (uncredited _).free = (uncredited _).free)
  · exact (congrArg SchInst.wakeReq hsch : (uncredited _).wakeReq = (uncredited _).wakeReq)
  · exact (congrArg SchInst.oper hsch : (uncredited _).oper = (uncredited _).oper)
  · exact (congrArg SchInst.pend hsch : (uncredited _).pend = (uncredited _).pend)

/-! ### The choice among one candidate (R130 item 6, R134) -/

theorem candFns_one {y : Cand} (hy : y.fn < 68) : candFns [y] = [y.fn] := by
  have hfun : (fun f => [y].any (fun x => decide (x.fn = f))) = (fun f => decide (y.fn = f)) := by
    funext f
    simp
  unfold candFns
  rw [hfun]
  have hcount (n a : Nat) (l : List Nat) (hl : l = (List.range' a n)) (ha : a ≤ y.fn) (hlt : y.fn < a + n) :
      l.filter (fun f => decide (y.fn = f)) = [y.fn] := by
    subst hl
    induction n generalizing a with
    | zero => omega
    | succ n ih =>
      rw [List.range'_succ, List.filter_cons]
      by_cases h : y.fn = a
      · have hnone : (List.range' (a + 1) n).filter (fun f => decide (y.fn = f)) = [] := by
          rw [List.filter_eq_nil_iff]
          intro f hf
          have := (List.mem_range'_1.mp hf).1
          simp
          omega
        rw [if_pos (by simpa using h), hnone, h]
      · rw [if_neg (by simpa using h)]
        exact ih (a + 1) (by omega) (by omega)
  exact hcount 68 0 _ List.range_eq_range' (Nat.zero_le _) (by omega)

theorem candOf_one (y : Cand) (last : Nat) : candOf [y] last y.fn = some y := by
  unfold candOf
  simp only [decide_true, List.filter_cons_of_pos, List.filter_nil]
  split
  next x hx =>
    have := List.mem_of_find?_eq_some hx
    rw [List.mem_singleton.mp this]
  next => rfl

/-- Buckets defer nothing where the one function has tokens. -/
theorem throttle_one {s : State} {m c : Nat} {y : Cand} (hy : y.fn < 68) (ht : s.tokenOk y.fn = true) : s.throttle m c [y] = s := by
  unfold State.throttle
  rw [candFns_one hy, List.filter_cons_of_neg (by simp [ht])]
  rfl

theorem nextOf_one (last f : Nat) : nextOf last [f] = f := by
  unfold nextOf
  cases h : List.find? (fun f => decide (last < f)) [f] with
  | none => rfl
  | some g => exact (List.mem_singleton.mp (List.mem_of_find?_eq_some h))

/-- The one candidate is chosen at its function's first visit, where one quantum covers it. -/
theorem dwrr_one {s : State} {m c : Nat} {y : Cand} (hy : y.fn < 68) (ht : s.tokenOk y.fn = true) (hq : y.len ≤ s.fnTxQuantum y.fn) :
    ∃ d, s.dwrr m c [y] = some (y, d) := by
  unfold State.dwrr
  extract_lets x rg len ok cur pick
  have hok : ok = [y.fn] := by
    show (candFns [y]).filter s.tokenOk = _
    rw [candFns_one hy, List.filter_cons_of_pos ht, List.filter_nil]
  have hlen : len y.fn = y.len := by
    show ((candOf [y] (rg y.fn) y.fn).map (fun y => y.len)).getD 0 = _
    rw [candOf_one]
    rfl
  have hpick (d : List (Nat × Nat)) : pick y.fn d = some (y, d) := by
    show (candOf [y] (rg y.fn) y.fn).map (fun y => (y, d)) = _
    rw [candOf_one]
    rfl
  rw [hok, if_neg (by simp)]
  split
  next h =>
    rw [List.mem_singleton.mp h.1]
    exact ⟨x.deficit, hpick _⟩
  next =>
    have hgo : ∃ d, dwrrGo c s.fnTxQuantum len [y.fn] dwrrFuel cur x.deficit = some (y.fn, d) := by
      refine ⟨tput x.deficit (cfKey c y.fn) (tget x.deficit (cfKey c y.fn) + s.fnTxQuantum y.fn), ?_⟩
      unfold dwrrFuel dwrrGo
      rw [nextOf_one]
      dsimp only
      rw [if_pos (by rw [hlen]; omega)]
    obtain ⟨d, hd⟩ := hgo
    exact ⟨d, by rw [hd]; exact hpick d⟩

/-! ### The grant of a candidate (R131) -/

/-- The end of link idle leaves the current frame. -/
theorem endLpi_cur (s : State) (m : Nat) : ((s.endLpi m).sch m).cur = (s.sch m).cur := by
  unfold State.endLpi
  extract_lets s1
  have h1 : s1.sched = s.sched := by
    show (if (s.mac m).txLpi then s.countN _ _ _ _ else s).sched = _
    split
    · exact sched_countN _ _ _ _ _
    · rfl
  split
  · have hmac (f : MacInst → MacInst) : (s1.setMac m f).sch m = s.sch m := sch_congr h1 m
    rw [sch_setSch_same, hmac]
  · rw [sch_congr h1]

theorem tidy_cur (s : State) (m c : Nat) : ((s.tidy m c).sch m).cur = (s.sch m).cur := by
  unfold State.tidy
  dsimp only
  rw [sch_setSch_same]

theorem sched_charge (s : State) (f len : Nat) : (s.charge f len).sched = s.sched := by
  unfold State.charge
  split
  · rfl
  · rfl

/-- The frame of a candidate that is granted with its departure at t, from its send. -/
def grantedFrame (s : State) (y : Cand) (c t : Nat) (x : Send) : CurFrame :=
  { ring := y.ring, first := y.first, seg := y.seg, cls := c, at_ := s.timeAt t, start := t,
    bytes := (s.sendAsk (s.txr y.ring) x).wire x.held y.seg, flags := x.flags,
    padded := (s.sendAsk (s.txr y.ring) x).short x.bytes y.seg, fn := y.fn, quiet := false, held := false }

/-- The candidate's frame becomes the current one. -/
theorem grantCand_cur (s : State) (m c : Nat) {y : Cand} (t : Nat) (h : ∃ x ∈ (s.txr y.ring).sends, x.first = y.first) :
    ∃ f : CurFrame, ((s.grantCand m c y t).sch m).cur = some f ∧ f.ring = y.ring ∧ f.first = y.first ∧ f.seg = y.seg ∧
      f.cls = c ∧ f.fn = y.fn ∧ f.at_ = s.timeAt t ∧ f.start = t ∧ f.quiet = false ∧ f.held = false := by
  obtain ⟨x, hx⟩ : ∃ x, (s.txr y.ring).sends.find? (fun x => x.first = y.first) = some x := by
    obtain ⟨x, hm, he⟩ := h
    exact Option.isSome_iff_exists.mp (List.find?_isSome.mpr ⟨x, hm, by simpa using he⟩)
  unfold State.grantCand
  dsimp only
  rw [hx]
  dsimp only
  generalize (if x.rsvCq then s else s.cqReserve (s.txr y.ring).cq) = s1
  have hset (u : State) (f : Nat) (g : FnSt → FnSt) : (u.setFn f g).sched = u.sched := rfl
  refine ⟨grantedFrame s y c t x, ?_, rfl, rfl, rfl, rfl, rfl, rfl, rfl, rfl, rfl⟩
  rw [tidy_cur, endLpi_cur, sch_congr (hset _ _ _), sch_congr (sched_charge _ _ _), sch_setSch_same]
  rfl

/-! ### The decision, class by class -/

/-- A class with no candidate is passed over. -/
theorem grantScan_empty {s : State} {m t c : Nat} (h : s.cands m c = []) : State.grantScan m t (c + 1) s = State.grantScan m t c s := by
  unfold State.grantScan
  dsimp only
  rw [if_neg (by simp [h])]
  cases c <;> rfl

/-- Every class above c is passed over where none has a candidate. -/
theorem grantScan_down {s : State} {m t c n : Nat} (hc : c < n) (h : ∀ d, c < d → d < n → s.cands m d = []) :
    State.grantScan m t n s = State.grantScan m t (c + 1) s := by
  induction n with
  | zero => omega
  | succ n ih =>
    by_cases hn : n = c
    · rw [hn]
    · rw [grantScan_empty (h n (by omega) (by omega))]
      exact ih (by omega) (fun d hd hdn => h d hd (by omega))

/-- The one candidate of an open class is granted. -/
theorem grantScan_one {s : State} {m t c : Nat} {y : Cand} (hl : s.cands m c = [y]) (hy : y.fn < 68) (ht : s.tokenOk y.fn = true)
    (hq : y.len ≤ s.fnTxQuantum y.fn) (ho : s.classOpen m c (s.timeAt t) = true)
    (hfit : ∀ k, (s.gated m).closeOf c (s.timeAt t) = some k → fits (s.timeAt t) y.len (s.rate m) k = true) :
    ∃ g : SchInst → SchInst, State.grantScan m t (c + 1) s = (s.setSch m g).grantCand m c y t := by
  obtain ⟨d, hd⟩ := dwrr_one (m := m) (c := c) hy ht hq
  refine ⟨fun x => { x with deficit := d, lastFn := tput x.lastFn c y.fn }, ?_⟩
  have hclose : ((s.setSch m (fun x => { x with deficit := d, lastFn := tput x.lastFn c y.fn })).gated m).closeOf c (s.timeAt t) =
      (s.gated m).closeOf c (s.timeAt t) := by
    obtain ⟨h1, h2⟩ := gated_lists (s := s) (t := s.setSch m (fun x => { x with deficit := d, lastFn := tput x.lastFn c y.fn })) (m := m) rfl
      (by rw [sch_setSch_same]) (by rw [sch_setSch_same])
    exact closeOf_congr h1 h2 c _
  have hrate : (s.setSch m (fun x => { x with deficit := d, lastFn := tput x.lastFn c y.fn })).rate m = s.rate m := rfl
  unfold State.grantScan
  dsimp only
  rw [hl, if_pos ⟨ho, by simp⟩, throttle_one hy ht, hd]
  dsimp only
  rw [hclose, hrate]
  split
  next k hk => rw [if_pos (hfit k hk)]
  next => rfl

/-- Settles O39: the scan passes over the higher classes, and grants the one candidate. -/
theorem theHighestOpenClassIsGranted : Obligations.TheHighestOpenClassIsGranted := by
  unfold Obligations.TheHighestOpenClassIsGranted
  intro s m ready c y hg he hu hcur hctrl hc hhigh hl hy hsend htok hq hopen hfit
  have hgo : exec (.grant m ready) s = .next (State.grantScan m ((s.settle m).startAt m ready) 8 (s.settle m)) :=
    congrArg Host.Outcome.next (if_pos ⟨hg, he, hu, hcur, hctrl⟩)
  obtain ⟨hcands, hstart, htime, ⟨hoper, hpend⟩, hrate⟩ := settled_reads s m ready
  have hd := did_settle s m
  have htx : ∀ n, (s.settle m).txr n = s.txr n := txr_congr (hd.keeps .tx (by decide))
  have htok' : (s.settle m).tokenOk y.fn = true := by
    have hfn : (s.settle m).fn y.fn = s.fn y.fn := fn_congr (hd.keeps .fns (by decide)) _
    have hsame : (s.settle m).tokenOk y.fn = s.tokenOk y.fn := by
      unfold State.tokenOk State.tokens State.bucketFull State.tbRateMbps State.tbBurstBytes State.field State.activeWord
      rw [hfn, hd.keeps .setup (by decide), hd.keeps .time (by decide)]
    rw [hsame]
    exact htok
  have hq' : y.len ≤ (s.settle m).fnTxQuantum y.fn := by
    have hsame : (s.settle m).fnTxQuantum y.fn = s.fnTxQuantum y.fn := field_congr (hd.keeps .setup (by decide)) _ _ _
    rw [hsame]
    exact hq
  rw [hstart] at hgo
  generalize s.settle m = u at *
  obtain ⟨g, hscan⟩ := grantScan_one (s := u) (m := m) (t := s.startAt m ready) (c := c) (y := y) (by rw [hcands]; exact hl) hy htok' hq'
    (by rw [htime]; exact hopen) (fun k hk => by
      rw [closeOf_congr hoper hpend, htime] at hk
      rw [htime, hrate]
      exact hfit k hk)
  rw [grantScan_down hc (fun d hcd hdn => by rw [hcands]; exact hhigh d hcd hdn), hscan] at hgo
  obtain ⟨f, h1, h2, h3, h4, h5, h6, h7, h8, h9, h10⟩ := grantCand_cur (u.setSch m g) m c (y := y) (s.startAt m ready)
    (by rw [txr_congr (t := u.setSch m g) (s := u) rfl y.ring, htx]; exact hsend)
  refine ⟨_, hgo, f, h1, h2, h3, h4, h5, h6, ?_, h8, h9, h10⟩
  rw [h7]
  exact (timeAt_congr (s := u) rfl _).trans (htime _)

end Sys2Proof.Proofs
end

section
/-! A received frame (R158 to R192; R239, 10_engine_pair); and O41. -/
namespace Sys2Proof.Proofs
open Sys2Proof Sys2Proof.Machine Sys2Proof.Laws
set_option Elab.async false -- one thread, within the memory of the check

/-! ### Counters and activity -/

/-- Activity after a count is no further count. -/
theorem counts_uses {c : Ctr} {cls obj n : Nat} {s t : State} (h : Counts c cls obj n s t) (k : Act) (f u : Nat) :
    Counts c cls obj n s (t.uses k f u) := by
  refine ⟨flags_uses k f u h.toFlags, ?_, fun i hi he => ?_⟩
  · rw [count_uses]
    exact h.value
  · rw [count_uses]
    exact h.others i hi he

theorem codesKept_uses {l : List Ctr} (s : State) (k : Act) (f n : Nat) : CodesKept l s (s.uses k f n) :=
  codesKept_of_count (count_uses s k f n)

/-- A frame of an instance that is counted once, and otherwise is activity of the operator. -/
theorem counts_wired (s : State) (c : Ctr) {m : Nat} (len : Nat) (hm : m < 2 ^ 12) (hc : c.code ≠ Ctr.evrLost.code := by decide) :
    Counts c 0 m 1 s ((s.count c m).wireUse m actOperator len) :=
  counts_uses (countN_counts s c 0 m 1 (by rw [cls_key_code (by decide) hm]; exact hc)) _ _ _

/-! ### To the reference plane (R158, R191, R239) -/

/-- What an arriving frame brings before its words reach the plane: codewords are counted, and receive LPI ends. -/
def decoded (s : State) (m : Nat) (x : RxFrame) : State := (s.fecCount m x).endRxLpi m

theorem rxArrives_reached {s : State} {m : Nat} {x : RxFrame} (hn : s.netRuns = true) (hw : (s.watchLane (m / 8)).running = false)
    (hcut : (!s.instExists m || decide ((s.mac m).link ≠ .up)) = true → (rxSettled x).fcsGood = false) (hh : (decoded s m x).rxHeld m = false) :
    s.rxArrives m x = ((decoded s m x).endIdle).rxFrame m (rxSettled x) (!s.instExists m || decide ((s.mac m).link ≠ .up))
      ((decoded s m x).rxStamp m x.offset) := by
  unfold State.rxArrives
  dsimp only
  rw [if_neg]
  · exact if_neg (by simpa [decoded] using hh)
  · rintro (h | ⟨h, -⟩ | ⟨h, k⟩)
    · simp [hn] at h
    · simp [hw] at h
    · rw [hcut h] at k
      exact Bool.false_ne_true k

theorem uncut {s : State} {m : Nat} (he : s.instExists m = true) (hu : (s.mac m).link = .up) :
    (!s.instExists m || decide ((s.mac m).link ≠ .up)) = false := by
  rw [he, hu]
  rfl

theorem decoded_plain {s : State} {m : Nat} (x : RxFrame) (hf : (s.mac m).fec < 2) (hr : (s.mac m).rxLpi = false) : decoded s m x = s := by
  have hfec : s.fecCount m x = s := if_neg (by omega)
  rw [decoded, hfec]
  exact if_neg (by simp [hr])

/-- A frame that reaches its plane is classified, its bytes load of its port. -/
theorem rxArrives_classified {s : State} {m : Fin 16} {x : RxFrame} (h : Reaches m s) :
    s.rxArrives m x = (s.loaded m x).rxClassify m (rxSettled x) false (s.rxStamp m x.offset) := by
  obtain ⟨hn, hw, he, hu, hf, hr, hh⟩ := h
  have hplain := decoded_plain x hf hr
  have hcut := uncut he hu
  rw [rxArrives_reached hn hw (fun k => by rw [hcut] at k; exact absurd k (by decide)) (by rw [hplain]; exact hh), hplain, hcut]
  rfl

theorem exec_frameReceived {s : State} {m : Fin 16} {x : RxFrame} (h : Reaches m s) :
    exec (.frameReceived m x) s = .next ((s.loaded m x).rxClassify m (rxSettled x) false (s.rxStamp m x.offset)) :=
  congrArg Host.Outcome.next (rxArrives_classified h)

theorem exec_macControlFrame {s : State} {m : Fin 16} {x : RxFrame} (h : Reaches m s) (ht : beAt x.bytes 12 2 = 0x8808) :
    exec (.macControlFrame m x) s = .next ((s.loaded m x).rxClassify m (rxSettled x) false (s.rxStamp m x.offset)) :=
  congrArg Host.Outcome.next ((if_pos ht).trans (rxArrives_classified h))

/-! ### The rows of Table 9-3 -/

theorem rxClassify_badSof (s : State) (m : Nat) {x : RxFrame} (cut : Bool) (stamp : Nat) (h : x.sofGood = false) :
    s.rxClassify m x cut stamp = (s.count .rxBadSof m).wireUse m actOperator (x.bytes.length + 4) := if_pos h

theorem rxClassify_runt (s : State) (m : Nat) {x : RxFrame} (cut : Bool) (stamp : Nat) (h : x.sofGood = true) (hl : x.bytes.length + 4 ≤ 63) :
    s.rxClassify m x cut stamp = (s.count .rxRunt m).wireUse m actOperator (x.bytes.length + 4) :=
  (if_neg (by simp [h])).trans (if_pos hl)

theorem rxClassify_control (s : State) (m : Nat) {x : RxFrame} (cut : Bool) (stamp : Nat) (h : x.sofGood = true) (hl : 64 ≤ x.bytes.length + 4)
    (ht : beAt x.bytes 12 2 = 0x8808) : s.rxClassify m x cut stamp = (s.macControl m x).wireUse m actOperator (x.bytes.length + 4) :=
  (if_neg (by simp [h])).trans ((if_neg (by omega)).trans (if_pos ht))

theorem hframe_gives (s : State) (m cls len fcs : Nat) (big : Bool) (stamp l3 l4 : Nat) (l : Bytes) (c : List RxCopy) :
    (s.hframe m cls len fcs big stamp l3 l4 l c).bytes = l ∧ (s.hframe m cls len fcs big stamp l3 l4 l c).inst = m ∧
    (s.hframe m cls len fcs big stamp l3 l4 l c).cls = cls := ⟨rfl, rfl, rfl⟩

/-- The frame that classification takes, with what its headers say. -/
def goodFrame (s : State) (m : Nat) (l : Bytes) (stamp : Nat) : HFrame :=
  s.hframe m (s.rxClass m l (parse l)) (l.length + 4) 0 false stamp (rxL3 l (parse l)) (rxL4 l (parse l)) l []

/-- The counters of a good frame. -/
def goodCounted (s : State) (m : Nat) (l : Bytes) : State :=
  s.rxCounters m (s.rxClass m l (parse l)) (l.length + 4) false (castOf l) (rxL3 l (parse l)) (rxL4 l (parse l))

theorem goodFrame_gives (s : State) (m : Nat) (l : Bytes) (stamp : Nat) : (goodFrame s m l stamp).bytes = l ∧ (goodFrame s m l stamp).inst = m ∧
    (goodFrame s m l stamp).cls = s.rxClass m l (parse l) := hframe_gives _ _ _ _ _ _ _ _ _ _ _

/-- A good frame is counted and classified. -/
theorem rxClassify_good (s : State) (m : Nat) {x : RxFrame} {l : Bytes} (stamp : Nat) (hb : x.bytes = l) (h : x.sofGood = true) (hl : 64 ≤ l.length + 4)
    (hg : x.fcsGood = true) (hlim : l.length + 4 ≤ s.lenLimit m (bufTags l)) (h1 : beAt l 12 2 ≠ 0x8808) (h2 : beAt l 12 2 ≠ 0x88CC) :
    s.rxClassify m x false stamp = (goodCounted s m l).classify m (goodFrame s m l stamp) (parse l) := by
  subst hb
  exact (if_neg (by simp [h])).trans ((if_neg (by omega)).trans ((if_neg h1).trans ((if_neg (fun k => h2 k.2.2.1)).trans
    ((if_neg (by decide)).trans ((if_neg (by omega)).trans (if_neg (by simp [hg])))))))

/-- A frame that a Down cuts short, of 512 bytes at most, is counted only where FCS_KEEP is 0. -/
theorem rxClassify_fragment (s : State) (m : Nat) {x : RxFrame} (stamp : Nat) (h : x.sofGood = true) (hl : 64 ≤ x.bytes.length + 4)
    (hs : x.bytes.length ≤ 512) (hg : x.fcsGood = false) (h1 : beAt x.bytes 12 2 ≠ 0x8808)
    (hk : ((s.count .rxFragment m).count .rxFcsErr m).rxCtrlFcsKeep m = 0) :
    s.rxClassify m x true stamp = ((s.count .rxFragment m).count .rxFcsErr m).wireUse m actOperator (x.bytes.length + 4) := by
  have hcut : s.rxClassify m x true stamp = (s.count .rxFragment m).badFcs m (x.bytes.length + 4) stamp x.bytes :=
    (if_neg (by simp [h])).trans ((if_neg (by omega)).trans ((if_neg h1).trans ((if_neg (by simp [hg])).trans (if_pos rfl))))
  rw [hcut]
  generalize s.count .rxFragment m = u at *
  have hearly : (u.count .rxFcsErr m).earlyCopies m x.bytes (parse x.bytes) = [] := if_pos hs
  unfold State.badFcs
  extract_lets p s1 early h2 s2
  have he : early = [] := hearly
  rw [if_neg (by simp [he]), if_neg (by rw [show s1.rxCtrlFcsKeep m = 0 from hk]; decide)]
  rfl

/-! ### MAC control frames (R192) -/

theorem macControl_bad (s : State) (m : Nat) {x : RxFrame} (h : x.fcsGood = false) : s.macControl m x = s.count .ctrlBad m := if_pos (.inl h)

/-- A good control frame meets the rows of its opcode. -/
theorem macControl_good (s : State) (m : Nat) {x : RxFrame} (hg : x.fcsGood = true) (hl : 64 ≤ x.bytes.length + 4)
    (hmax : x.bytes.length + 4 ≤ s.maxlenBytes m) (hda : beAt x.bytes 0 6 = 0x0180C2000001) :
    ¬ (x.fcsGood = false ∨ x.bytes.length + 4 < 64 ∨ s.maxlenBytes m < x.bytes.length + 4 ∨
      (beAt x.bytes 0 6 ≠ 0x0180C2000001 ∧ leAt x.bytes 0 6 ≠ s.macAddr m)) := by
  rintro (h | h | h | ⟨h, -⟩)
  · simp [hg] at h
  · omega
  · omega
  · exact h hda

theorem macControl_pause (s : State) (m : Nat) {x : RxFrame} (hg : x.fcsGood = true) (hl : 64 ≤ x.bytes.length + 4)
    (hmax : x.bytes.length + 4 ≤ s.maxlenBytes m) (hda : beAt x.bytes 0 6 = 0x0180C2000001) (ho : beAt x.bytes 14 2 = 1)
    (hm : s.macCfgFcMode m = 1) (hi : (s.mac m).ignoring = false) :
    s.macControl m x = (s.count .pauseRx m).pauseIn m ((List.range 8).map (fun c => (c, beAt x.bytes 16 2))) :=
  (if_neg (macControl_good s m hg hl hmax hda)).trans ((if_pos ⟨ho, hm⟩).trans (if_neg (by simp [hi])))

theorem macControl_ignored (s : State) (m : Nat) {x : RxFrame} (hg : x.fcsGood = true) (hl : 64 ≤ x.bytes.length + 4)
    (hmax : x.bytes.length + 4 ≤ s.maxlenBytes m) (hda : beAt x.bytes 0 6 = 0x0180C2000001) (ho : beAt x.bytes 14 2 = 1)
    (hm : s.macCfgFcMode m ≠ 1) : s.macControl m x = s.count .ctrlIgnored m :=
  (if_neg (macControl_good s m hg hl hmax hda)).trans ((if_neg (fun k => hm k.2)).trans
    ((if_neg (fun k => absurd (k.1.symm.trans ho) (by decide))).trans (if_pos (.inl ho))))

theorem macControl_unknown (s : State) (m : Nat) {x : RxFrame} (hg : x.fcsGood = true) (hl : 64 ≤ x.bytes.length + 4)
    (hmax : x.bytes.length + 4 ≤ s.maxlenBytes m) (hda : beAt x.bytes 0 6 = 0x0180C2000001) (ho : beAt x.bytes 14 2 ≠ 1)
    (hp : beAt x.bytes 14 2 ≠ 0x0101) : s.macControl m x = s.count .ctrlUnknown m :=
  (if_neg (macControl_good s m hg hl hmax hda)).trans ((if_neg (fun k => ho k.1)).trans
    ((if_neg (fun k => hp k.1)).trans (if_neg (fun k => k.elim ho hp))))

/-! ### What classification reads (7.4) -/

/-- A register array of the active set-up, as a whole. -/
theorem fields_congr {s t : State} (h : t.setup = s.setup) (off : Nat → Nat) (lo n : Nat) :
    (fun i => t.field (off i) lo n) = fun i => s.field (off i) lo n :=
  funext (fun i => field_congr h (off i) lo n)

/-- Classification rests on the set-up. -/
theorem classed_congr {s t : State} (h : t.setup = s.setup) : (∀ l, t.stagOwner l = s.stagOwner l) ∧ (∀ o, t.rxCands o = s.rxCands o) ∧
    (∀ l m c, t.daMatch l m c = s.daMatch l m c) ∧ (∀ f tag, t.ctagOk f tag = s.ctagOk f tag) ∧ (∀ m l p, t.rxClass m l p = s.rxClass m l p) ∧
    (∀ m n, t.lenLimit m n = s.lenLimit m n) ∧ ∀ m, t.rxCtrlUnmatched m = s.rxCtrlUnmatched m := by
  have hf := field_congr h
  have hforce : t.profCtrlStagForce = s.profCtrlStagForce := fields_congr h _ _ _
  have hvid : t.profCtrlStagVid = s.profCtrlStagVid := fields_congr h _ _ _
  have hvalid : t.daEntryHiValid = s.daEntryHiValid := fields_congr h _ _ _
  have hlo : t.daEntryLoAddr = s.daEntryLoAddr := fields_congr h _ _ _
  have hhi : t.daEntryHiAddr = s.daEntryHiAddr := fields_congr h _ _ _
  have hports : t.daEntryHiPorts = s.daEntryHiPorts := fields_congr h _ _ _
  have hfn : t.daEntryHiFn = s.daEntryHiFn := fields_congr h _ _ _
  have hbcast : t.rxFnBcastEn = s.rxFnBcastEn := fields_congr h _ _ _
  have hmcast : t.rxFnMcastEn = s.rxFnMcastEn := fields_congr h _ _ _
  have hhash : t.mcastHash = s.mcastHash := by
    funext f i
    exact congrArg (fun u : SetupSt => (Tbl.get resetWord u.active (fnWindowKey f (0x23200 + 4 * i))).toNat) h
  have hhit : t.daHit = s.daHit := by
    funext l m c i
    unfold State.daHit
    rw [hvalid, hlo, hhi, hports, hfn]
  refine ⟨fun l => ?_, fun o => ?_, fun l m c => ?_, fun f tag => ?_, fun m l p => ?_, fun m n => ?_, fun m => hf _ _ _⟩
  · unfold State.stagOwner
    rw [hforce, hvid]
  · unfold State.rxCands
    rw [hforce]
  · unfold State.daMatch State.daEntries
    rw [hhit, hfn, hbcast, hmcast, hhash, h]
  · have hvlan : t.rxFnVlanEn f = s.rxFnVlanEn f := hf _ _ _
    have huntag : t.rxFnUntaggedOk f = s.rxFnUntaggedOk f := hf _ _ _
    have hfilter : t.vlanFilter f = s.vlanFilter f := by
      funext i
      exact congrArg (fun u : SetupSt => (Tbl.get resetWord u.active (fnWindowKey f (0x23400 + 4 * i))).toNat) h
    unfold State.ctagOk
    rw [hvlan, huntag, hfilter]
  · have hclass : t.rxCtrlDefaultClass m = s.rxCtrlDefaultClass m := hf _ _ _
    have hmap : t.rxPcpMapMap m = s.rxPcpMapMap m := hf _ _ _
    unfold State.rxClass
    rw [hclass, hmap]
  · have hmax : t.maxlenBytes m = s.maxlenBytes m := hf _ _ _
    have htag : t.macCfgTagAllow m = s.macCfgTagAllow m := hf _ _ _
    unfold State.lenLimit
    rw [hmax, htag]

theorem rxr_congr {s t : State} (h : t.rx = s.rx) (n : Nat) : t.rxr n = s.rxr n :=
  congrArg (fun l => Tbl.get (fun _ => RxRing.init) l n) h

/-- A function's copy rests on the set-up and the receive rings. -/
theorem copyFor_congr {s t : State} (h : t.setup = s.setup) (hr : t.rx = s.rx) (l : Bytes) (p : Parsed) (o : Option Nat) (f : Nat) :
    t.copyFor l p o f = s.copyFor l p o f := by
  have hf := field_congr h
  have hring (n : Nat) : t.rxr n = s.rxr n := rxr_congr hr n
  have hlocal : t.rxLocal f = s.rxLocal f := by
    funext loc
    have hbase : t.ringAllocRxBase f = s.ringAllocRxBase f := hf _ _ _
    unfold State.rxLocal
    dsimp only
    rw [hbase, hring]
  have hkey : t.hashKeyOf f = s.hashKeyOf f := by
    unfold State.hashKeyOf State.hashKey State.activeWord
    rw [h]
  have hindir : t.indirOf f = s.indirOf f := by
    funext j
    unfold State.indirOf
    rw [hf]
  have hflow : t.flowOf = s.flowOf := by
    funext k
    unfold State.flowOf
    rw [h]
  have hen : t.rxFnHashEn f = s.rxFnHashEn f := hf _ _ _
  have hdef : t.rxFnDefaultRing f = s.rxFnDefaultRing f := hf _ _ _
  have hstrip : t.rxFnStripC f = s.rxFnStripC f := hf _ _ _
  unfold State.copyFor
  rw [hlocal, hkey, hindir, hflow, hen, hdef, hstrip]

/-- The shared test rests on the set-up, the Hamper, the transmit rings, the pair and the Foreman's knobs. -/
theorem sharedTest_congr {s t : State} (h : t.setup = s.setup) (hh : t.hamper = s.hamper) (htx : t.tx = s.tx) (hp : t.pair = s.pair)
    (hk : t.foreman = s.foreman) (cls : Nat) (a : Adm) (c : RxCopy) : t.sharedTest cls a c = s.sharedTest cls a c := by
  have hplan : t.planned = s.planned := by
    unfold State.planned
    rw [hp]
  have hframes : t.frames = s.frames := by
    unfold State.frames
    rw [hh, hplan]
  have hfree : t.poolFree = s.poolFree := by
    have hroom : t.headroomCells = s.headroomCells := fields_congr h _ _ _
    unfold State.poolFree State.poolSize State.headroomSum State.txCells
    rw [hframes, hplan, htx, hroom]
  have hknob (k : Nat) : t.knob k = s.knob k := by
    unfold State.knob
    rw [hk]
  have hcap : t.rxFnCapCells c.fn = s.rxFnCapCells c.fn := field_congr h _ _ _
  unfold State.sharedTest State.occFn State.occQ
  rw [hfree, hframes, hknob, hcap]

/-! ### Admission (R172) -/

/-- The walk over a single-copy frame whose every cell passes. -/
def passing (c : RxCopy) (k : Nat) : Adm := { cell := k, pool := k, head := 0, resv := 0, copies := [c], refused := [] }

theorem admitCells_passing {s : State} {m cls : Nat} {c : RxCopy} {n : Nat} (h : ∀ k < n, s.sharedTest cls (passing c k) c = 0) (j k : Nat)
    (hj : j + k = n) : s.admitCells m cls true j (passing c k) = passing c n := by
  induction j generalizing k with
  | zero => rw [← hj, Nat.zero_add]; rfl
  | succ j ih =>
    have hone : s.admitSingle m cls (passing c k) c = passing c (k + 1) := by
      unfold State.admitSingle
      rw [h k (by omega)]
      rfl
    have hstep : s.admitCells m cls true (j + 1) (passing c k) = s.admitCells m cls true j (s.admitSingle m cls (passing c k) c) := rfl
    rw [hstep, hone]
    exact ih (k + 1) (by omega)

/-- A frame of a single copy, as it is held in the pool. -/
def heldFrame (s : State) (h : HFrame) (c : RxCopy) : HFrame :=
  s.pipeIn { h with id := s.hamper.nextId, pool := cellsOf h.bytes.length, head := 0, resv := 0, copies := [c] }

theorem heldFrame_gives (s : State) (h : HFrame) (c : RxCopy) : (heldFrame s h c).id = s.hamper.nextId ∧ (heldFrame s h c).bytes = h.bytes ∧
    (heldFrame s h c).inst = h.inst ∧ (heldFrame s h c).cls = h.cls ∧ (heldFrame s h c).copies = [c] ∧
    (heldFrame s h c).pool = cellsOf h.bytes.length := ⟨rfl, rfl, rfl, rfl, rfl, rfl⟩

/-- A frame joins the Hamper, before its copies queue. -/
def hampered (s : State) (h : HFrame) (c : RxCopy) : State :=
  (s.onHamper (fun x => { x with frames := x.frames ++ [heldFrame s h c], nextId := s.hamper.nextId + 1,
                                 pipe := tput x.pipe (h.inst / 8) (heldFrame s h c).pipeTo })).poolMark.flowCheck h.inst

theorem takeFrame_single {s : State} {h : HFrame} {c : RxCopy} (hc : h.copies = [c]) (hr : c.reserve = false)
    (hp : ∀ k < cellsOf h.bytes.length, s.sharedTest h.cls (passing c k) c = 0) :
    s.takeFrame h = (hampered s h c).queueCopies (heldFrame s h c) := by
  have hadm : s.admitCells h.inst h.cls (decide (h.copies.length = 1)) (cellsOf h.bytes.length)
      { cell := 0, pool := 0, head := 0, resv := 0, copies := h.copies, refused := [] } = passing c (cellsOf h.bytes.length) := by
    rw [hc]
    exact admitCells_passing hp _ 0 (Nat.add_zero _)
  have hcopy : ({ c with reserve := decide (0 < 0) } : RxCopy) = c := by
    have hzero : decide (0 < 0) = c.reserve := by rw [hr]; rfl
    rw [hzero]
  have hheld : s.pipeIn { h with id := s.hamper.nextId, pool := cellsOf h.bytes.length, head := 0, resv := 0, copies := [{ c with reserve := decide (0 < 0) }] } =
      heldFrame s h c :=
    congrArg (fun x => s.pipeIn { h with id := s.hamper.nextId, pool := cellsOf h.bytes.length, head := 0, resv := 0, copies := [x] }) hcopy
  unfold State.takeFrame
  extract_lets single a id entered g s1 s2 s3
  have ha : a = passing c (cellsOf h.bytes.length) := hadm
  have hg : g = heldFrame s h c := by
    refine Eq.trans ?_ hheld
    show s.pipeIn _ = _
    rw [ha]
    rfl
  have hne : (passing c (cellsOf h.bytes.length)).copies ≠ [] := List.cons_ne_nil c []
  have hs1 : s1 = hampered s h c := by
    show ((s.onHamper _).poolMark.flowCheck h.inst) = _
    rw [hg, ha]
    simp only [if_neg hne]
    rfl
  have hs3 : s3 = s1 := by
    have hno : ¬ entered := fun hf => by
      have : 0 < a.resv := hf.1
      rw [ha] at this
      exact absurd this (Nat.lt_irrefl 0)
    have hs2 : s2 = s1 := by
      show a.refused.foldl (State.refuse h) s1 = s1
      rw [ha]
      rfl
    exact (if_neg hno).trans hs2
  rw [if_neg (by rw [ha]; simp [passing]), hs3, hs1, hg]

theorem hamper_poolMark (s : State) : s.poolMark.hamper.frames = s.hamper.frames ∧ s.poolMark.hamper.nextId = s.hamper.nextId := by
  unfold State.poolMark
  split
  · exact ⟨rfl, rfl⟩
  · exact ⟨rfl, rfl⟩

theorem held_flowCheck (s : State) (m : Nat) : (s.flowCheck m).hamper.frames = s.hamper.frames ∧ (s.flowCheck m).hamper.nextId = s.hamper.nextId := by
  have h := xoffless_flowCheck s m
  exact ⟨(congrArg HamperSt.frames h : (xoffless _).frames = (xoffless _).frames), (congrArg HamperSt.nextId h : (xoffless _).nextId = (xoffless _).nextId)⟩

theorem hampered_gives (s : State) (h : HFrame) (c : RxCopy) : (hampered s h c).hamper.frames = s.hamper.frames ++ [heldFrame s h c] ∧
    (hampered s h c).hamper.nextId = s.hamper.nextId + 1 ∧ (hampered s h c).rx = s.rx := by
  have hrest (u : State) : (u.poolMark.flowCheck h.inst).rx = u.rx :=
    (does_flowCheck (M := 0x7000) (by decide) (does_poolMark (by decide) (does_refl _ u))).keeps .rx (by decide)
  unfold hampered
  rw [hrest, (held_flowCheck _ _).1, (held_flowCheck _ _).2, (hamper_poolMark _).1, (hamper_poolMark _).2]
  exact ⟨rfl, rfl, rfl⟩

/-- A held copy waits on its ring, behind what waits there. -/
theorem queueCopies_single (s : State) {g : HFrame} {c : RxCopy} (hc : g.copies = [c]) (hr : c.reserve = false) :
    ((s.queueCopies g).rxr c.ring).wait = (s.rxr c.ring).wait ++ [g.id] ∧ (s.queueCopies g).hamper = s.hamper := by
  have hone : s.queueCopies g = (s.setRxr c.ring (fun r => { r with wait := r.wait ++ [g.id] })).uses .hamper c.fn g.cells := by
    unfold State.queueCopies
    rw [hc, List.foldl_cons, List.foldl_nil]
    exact if_neg (by simp [hr])
  have hset : ((s.setRxr c.ring (fun r => { r with wait := r.wait ++ [g.id] })).rxr c.ring).wait = (s.rxr c.ring).wait ++ [g.id] := by
    rw [rxr_setRxr_same]
  have hham : (s.setRxr c.ring (fun r => { r with wait := r.wait ++ [g.id] })).hamper = s.hamper := rfl
  rw [hone]
  generalize s.setRxr c.ring (fun r => { r with wait := r.wait ++ [g.id] }) = u at *
  have hflags := flags_uses .hamper c.fn g.cells (flags_refl u)
  exact ⟨(congrArg RxRing.wait (rxr_congr (hflags.keeps .rx (by decide)) c.ring)).trans hset, (hflags.keeps .hamper (by decide)).trans hham⟩

/-- A frame of one copy that the pool takes waits on its ring, held whole. -/
theorem takeFrame_waits {s : State} {h : HFrame} {c : RxCopy} (hc : h.copies = [c]) (hr : c.reserve = false)
    (hp : ∀ k < cellsOf h.bytes.length, s.sharedTest h.cls (passing c k) c = 0) :
    ((s.takeFrame h).rxr c.ring).wait = (s.rxr c.ring).wait ++ [s.hamper.nextId] ∧ (s.takeFrame h).hamper.nextId = s.hamper.nextId + 1 ∧
    heldFrame s h c ∈ (s.takeFrame h).hamper.frames := by
  obtain ⟨hf, hn, hrx⟩ := hampered_gives s h c
  obtain ⟨hid, -, -, -, hcopies, -⟩ := heldFrame_gives s h c
  obtain ⟨hwait, hkept⟩ := queueCopies_single (hampered s h c) hcopies hr
  rw [takeFrame_single hc hr hp, hwait, hkept, hf, hn, rxr_congr hrx, hid]
  exact ⟨rfl, rfl, List.mem_append_right _ (List.mem_singleton.mpr rfl)⟩

/-! ### Classification (R163, R169) -/

theorem classify_unmatched {s : State} {m : Nat} {h : HFrame} {p : Parsed} (hd : s.daMatch h.bytes m (s.rxCands (s.stagOwner h.bytes)) = [])
    (hu : s.rxCtrlUnmatched m = 0) : s.classify m h p = (s.unmatchedDrop m).wireUse h.inst actOperator h.wireLen := by
  unfold State.classify
  dsimp only
  rw [hd, List.filter_nil, List.filter_nil, if_pos rfl, if_neg (by simp [hu])]
  rfl

theorem classify_one {s : State} {m f : Nat} {h : HFrame} {p : Parsed} {c : RxCopy}
    (hd : s.daMatch h.bytes m (s.rxCands (s.stagOwner h.bytes)) = [f])
    (ht : s.ctagOk f (ctagFrom h.bytes p.tags (if (s.stagOwner h.bytes).isSome then 1 else 0)) = true) (he : (s.fn f).state = .enrolled)
    (hc : s.copyFor h.bytes p (s.stagOwner h.bytes) f = some c) :
    s.classify m h p = (s.rxUse h.inst h.wireLen [c]).takeFrame { h with copies := [c] } := by
  have hone : State.copyOne h.bytes p (s.stagOwner h.bytes) (s, []) f = (s, [c]) := by
    unfold State.copyOne
    dsimp only
    rw [he]
    dsimp only
    rw [hc]
    rfl
  have henter : s.enterHamper h [c] = (s.rxUse h.inst h.wireLen [c]).takeFrame { h with copies := [c] } := by
    unfold State.enterHamper
    dsimp only
    rw [if_neg (List.cons_ne_nil c [])]
  generalize hn : (if (s.stagOwner h.bytes).isSome then 1 else 0) = n at ht
  have hpass : [f].filter (fun f => s.ctagOk f (ctagFrom h.bytes p.tags n)) = [f] := List.filter_cons_of_pos ht
  have hfail : [f].filter (fun f => decide (s.ctagOk f (ctagFrom h.bytes p.tags n) = false)) = [] := List.filter_cons_of_neg (by simp [ht])
  unfold State.classify
  dsimp only
  rw [hd, hn, hpass, hfail, List.foldl_nil, if_neg (List.cons_ne_nil f []), List.foldl_cons, List.foldl_nil, hone]
  exact henter

/-- The counters of a classified frame (Table 9-3, R216). -/
def rxCtrs : List Ctr :=
  [.evrLost, .rxFrames, .rxOctets, .rxBcast, .rxMcast, .rxUcast, .rxSize0, .rxSize1, .rxSize2, .rxSize3, .rxSize4, .rxSize5, .rxSize6, .rxSize7,
    .rxSize8, .rxSize9, .rxL3Bad, .rxL4Bad]

theorem rxSize_mem (b : Nat) : rxSize b ∈ rxCtrs := by
  unfold rxSize
  split
  all_goals decide

theorem rxSize_ne (b : Nat) : (rxSize b).code ≠ Ctr.evrLost.code := by
  unfold rxSize
  split
  all_goals decide

theorem castCtr_mem (k : Nat) : (if k = 2 then Ctr.rxBcast else if k = 1 then .rxMcast else .rxUcast) ∈ rxCtrs ∧
    (if k = 2 then Ctr.rxBcast else if k = 1 then .rxMcast else .rxUcast).code ≠ Ctr.evrLost.code := by
  split
  · exact ⟨by decide, by decide⟩
  · split
    · exact ⟨by decide, by decide⟩
    · exact ⟨by decide, by decide⟩

/-- A good frame's counters are flags, and move no other counter. -/
theorem rxCounters_gives (s : State) {m cls : Nat} (hm : m < 2 ^ 12) (hcls : cls < 8) (len cast l3 l4 : Nat) :
    Flags s (s.rxCounters m cls len false cast l3 l4) ∧ CodesKept rxCtrs s (s.rxCounters m cls len false cast l3 l4) := by
  obtain ⟨hcast, hcastne⟩ := castCtr_mem cast
  have hcount (u : State) (c : Ctr) (h : c ∈ rxCtrs) (he : c.code ≠ Ctr.evrLost.code) : CodesKept rxCtrs u (u.count c m) :=
    codesKept_countN u c 1 (by decide) hm h (by decide) he
  unfold State.rxCounters
  extract_lets s1 s2 s3 s4 s5
  have h2 : Flags s s2 ∧ CodesKept rxCtrs s s2 :=
    ⟨flags_countN _ _ _ _ (flags_countCls _ _ _ (flags_refl s)), codesKept_trans (codesKept_countN s .rxFrames 1 hcls hm)
      (codesKept_countN _ .rxOctets _ hcls hm)⟩
  have h3 : Flags s s3 ∧ CodesKept rxCtrs s s3 := ⟨flags_count _ _ h2.1, codesKept_trans h2.2 (hcount s2 _ hcast hcastne)⟩
  have h4 : Flags s s4 ∧ CodesKept rxCtrs s s4 := ⟨flags_count _ _ h3.1, codesKept_trans h3.2 (hcount s3 _ (rxSize_mem _) (rxSize_ne _))⟩
  have h5 : Flags s s5 ∧ CodesKept rxCtrs s s5 :=
    ⟨flags_ite (flags_count _ _ h4.1) h4.1, codesKept_ite (codesKept_trans h4.2 (hcount s4 _ (by decide) (by decide))) h4.2⟩
  exact ⟨flags_ite (flags_count _ _ h5.1) h5.1, codesKept_ite (codesKept_trans h5.2 (hcount s5 _ (by decide) (by decide))) h5.2⟩

theorem rxClass_lt (s : State) (m : Nat) (l : Bytes) (p : Parsed) : s.rxClass m l p < 8 := by
  unfold State.rxClass State.rxCtrlDefaultClass State.field bits
  split
  · exact Nat.mod_lt _ (by decide)
  · exact Nat.mod_lt _ (by decide)

theorem flags_enrolled {s t : State} (h : Flags s t) (f : Nat) : (t.fn f).state = (s.fn f).state := by
  have hsans := h.fns f
  generalize t.fn f = x at *
  generalize s.fn f = y at *
  exact (congrArg FnSt.state hsans : x.sans.state = y.sans.state)

/-- A copy that classification makes is of the pool. -/
theorem copyFor_pool {s : State} {l : Bytes} {p : Parsed} {o : Option Nat} {f : Nat} {c : RxCopy} (h : s.copyFor l p o f = some c) :
    c.reserve = false := by
  unfold State.copyFor at h
  obtain ⟨n, -, rfl⟩ := Option.map_eq_some_iff.mp h
  rfl

/-- A frame is held whole, with one copy, and waits on the copy's ring. -/
def HeldWhole (h : HFrame) (c : RxCopy) (s t : State) : Prop :=
  (t.rxr c.ring).wait = (s.rxr c.ring).wait ++ [s.hamper.nextId] ∧ t.hamper.nextId = s.hamper.nextId + 1 ∧
  ∃ g ∈ t.hamper.frames, g.id = s.hamper.nextId ∧ g.bytes = h.bytes ∧ g.inst = h.inst ∧ g.cls = h.cls ∧ g.copies = [c] ∧
    g.pool = cellsOf h.bytes.length

theorem takeFrame_heldWhole {s v : State} {h : HFrame} {c : RxCopy} (hr : c.reserve = false) (hham : v.hamper = s.hamper) (hrx : v.rx = s.rx)
    (hp : ∀ k < cellsOf h.bytes.length, v.sharedTest h.cls (passing c k) c = 0) : HeldWhole h c s (v.takeFrame { h with copies := [c] }) := by
  obtain ⟨hwait, hnext, hheld⟩ := takeFrame_waits (s := v) (h := { h with copies := [c] }) rfl hr hp
  obtain ⟨hid, hb, hi, hk, hcopies, hpool⟩ := heldFrame_gives v { h with copies := [c] } c
  unfold HeldWhole
  rw [hwait, hnext, rxr_congr hrx, hham]
  exact ⟨rfl, rfl, _, hheld, hid.trans (congrArg HamperSt.nextId hham), hb, hi, hk, hcopies, hpool⟩

/-- A good frame that one Enrolled function takes, with room for it all, is held and waits on its ring. -/
theorem classify_heldWhole {s u : State} {m f : Nat} {h : HFrame} {p : Parsed} {c : RxCopy}
    (hd : s.daMatch h.bytes m (s.rxCands (s.stagOwner h.bytes)) = [f])
    (ht : s.ctagOk f (ctagFrom h.bytes p.tags (if (s.stagOwner h.bytes).isSome then 1 else 0)) = true) (he : (s.fn f).state = .enrolled)
    (hc : s.copyFor h.bytes p (s.stagOwner h.bytes) f = some c)
    (hp : ∀ k < cellsOf h.bytes.length, s.sharedTest h.cls (passing c k) c = 0) (hu : Flags s u) : HeldWhole h c s (u.classify m h p) := by
  have hset : u.setup = s.setup := hu.keeps .setup (by decide)
  have hrx : u.rx = s.rx := hu.keeps .rx (by decide)
  obtain ⟨hstag, hcands, hda, htag, -, -, -⟩ := classed_congr hset
  have huse : Does 0x20000 u (u.rxUse h.inst h.wireLen [c]) := does_rxUse (by decide) (does_refl _ u)
  rw [classify_one (s := u) (f := f) (c := c) (by rw [hda, hcands, hstag]; exact hd) (by rw [htag, hstag]; exact ht)
    ((flags_enrolled hu f).trans he) (by rw [copyFor_congr hset hrx, hstag]; exact hc)]
  have htest (k : Nat) (hk : k < cellsOf h.bytes.length) : (u.rxUse h.inst h.wireLen [c]).sharedTest h.cls (passing c k) c = 0 := by
    rw [sharedTest_congr (s := s) ((huse.keeps .setup (by decide)).trans hset)
      ((huse.keeps .hamper (by decide)).trans (hu.keeps .hamper (by decide))) ((huse.keeps .tx (by decide)).trans (hu.keeps .tx (by decide)))
      ((huse.keeps .pair (by decide)).trans (hu.keeps .pair (by decide))) ((huse.keeps .foreman (by decide)).trans (hu.keeps .foreman (by decide)))]
    exact hp k hk
  exact takeFrame_heldWhole (copyFor_pool hc) ((huse.keeps .hamper (by decide)).trans (hu.keeps .hamper (by decide)))
    ((huse.keeps .rx (by decide)).trans hrx) htest

/-- A good frame that nobody takes is counted as unmatched, and nothing is held. -/
theorem received_unmatched {s u : State} {m : Fin 16} {h : HFrame} {p : Parsed}
    (hd : s.daMatch h.bytes m (s.rxCands (s.stagOwner h.bytes)) = []) (hum : s.rxCtrlUnmatched m = 0) (hu : Flags s u) (hk : CodesKept rxCtrs s u) :
    Counted .rxUnmatchedDrop 0 m 1 s (u.classify m h p) ∧ (u.classify m h p).hamper = s.hamper ∧ (u.classify m h p).rx = s.rx := by
  obtain ⟨hstag, hcands, hda, -, -, -, hun⟩ := classed_congr (hu.keeps .setup (by decide))
  have hm : m.val < 2 ^ 12 := lt_trans m.isLt (by decide)
  rw [classify_unmatched (s := u) (by rw [hda, hcands, hstag]; exact hd) ((hun m).trans hum)]
  have hdrop : Does 0xe220082 u ((u.unmatchedDrop m).wireUse h.inst actOperator h.wireLen) :=
    does_wireUse (by decide) (does_raiseOnce (by decide) (does_count (by decide) (does_refl _ u)))
  refine ⟨?_, (hdrop.keeps .hamper (by decide)).trans (hu.keeps .hamper (by decide)), (hdrop.keeps .rx (by decide)).trans (hu.keeps .rx (by decide))⟩
  have hraise : CodesKept [.evrLost] (u.count .rxUnmatchedDrop m) (u.unmatchedDrop m) := codesKept_of (counts_raiseOnce _ _ _ _)
  refine counted_mid (l := rxCtrs) (by decide) hm hk (counted_countN u _ 1 (by decide) hm) ?_
  exact codesKept_trans (codesKept_mono hraise (by decide)) (codesKept_uses _ _ _ _)

/-! ### What the load of a port leaves -/

theorem loaded_does (s : State) (m : Nat) (x : RxFrame) : Does 0x420000 s (s.loaded m x) :=
  does_onTally (by decide) (fun h => ⟨h.count, h.base, h.mirror⟩) (does_endIdle (by decide) (does_refl _ s))

theorem count_loaded (s : State) (m : Nat) (x : RxFrame) : (s.loaded m x).tally.count = s.tally.count := by
  have h : s.endIdle.tally = s.tally := keeps_endIdle s .tally (by decide)
  unfold State.loaded
  generalize s.endIdle = u at *
  show u.tally.count = s.tally.count
  rw [h]

/-- What is counted over the load of a port is counted over the state before it. -/
theorem counted_loaded {c : Ctr} {cls obj n : Nat} {s t : State} {m : Nat} {x : RxFrame} (h : Counted c cls obj n (s.loaded m x) t) :
    Counted c cls obj n s t := by
  unfold Counted at h ⊢
  rw [h, count_loaded]

theorem codesKept_loaded {l : List Ctr} (s : State) (m : Nat) (x : RxFrame) : CodesKept l s (s.loaded m x) :=
  codesKept_of_count (count_loaded s m x)

/-! ### The decoder's counters (R191, R202) -/

/-- Codewords are counted, and the receive LPI that ends; no other counter moves. -/
theorem codesKept_endRxLpi (s : State) {m : Nat} (hm : m < 2 ^ 12) : CodesKept [.evrLost, .rxLpiTime] s (s.endRxLpi m) := by
  unfold State.endRxLpi
  refine codesKept_ite ?_ (codesKept_refl _ s)
  exact codesKept_trans (codesKept_countN s _ _ (by decide) hm)
    (codesKept_does (m := 0x4000) (does_setMac (by decide) (does_refl _ _)))

theorem codesKept_decoded (s : State) {m : Nat} (x : RxFrame) (hm : m < 2 ^ 12) :
    CodesKept [.evrLost, .rxLpiTime, .fecCorrected, .fecUncorrected] s (decoded s m x) := by
  refine codesKept_trans ?_ (codesKept_mono (codesKept_endRxLpi _ hm) (by decide))
  unfold State.fecCount
  exact codesKept_ite (codesKept_trans (codesKept_countN s _ _ (by decide) hm) (codesKept_countN _ _ _ (by decide) hm)) (codesKept_refl _ s)

/-- The codewords of an RS mode are counted. -/
theorem decoded_counts {s : State} {m : Nat} (x : RxFrame) (hm : m < 2 ^ 12) (hf : 2 ≤ (s.mac m).fec) :
    Counted .fecCorrected 0 m x.corrected s (decoded s m x) ∧ Counted .fecUncorrected 0 m x.uncorrected s (decoded s m x) := by
  have hfec : s.fecCount m x = (s.countN .fecCorrected 0 m x.corrected).countN .fecUncorrected 0 m x.uncorrected := if_pos hf
  have hlpi := codesKept_endRxLpi (s.fecCount m x) hm
  rw [decoded]
  rw [hfec] at hlpi ⊢
  constructor
  · exact counted_mid (by decide) hm (codesKept_refl [.evrLost, .rxLpiTime, .fecUncorrected] s) (counted_countN s _ _ (by decide) hm)
      (codesKept_trans (codesKept_countN _ _ _ (by decide) hm) (codesKept_mono hlpi (by decide)))
  · exact counted_mid (by decide) hm (codesKept_countN (l := [.evrLost, .rxLpiTime, .fecCorrected]) s _ _ (by decide) hm)
      (counted_countN _ _ _ (by decide) hm) (codesKept_mono hlpi (by decide))

/-- Where lane words go rests on the pair, the active engine and the islands. -/
theorem rxHeld_congr {s t : State} (hp : t.pair = s.pair) (hw : t.power = s.power) (m : Nat) : t.rxHeld m = s.rxHeld m := by
  simp only [State.rxHeld, State.holding, State.planned, State.engIsolated, State.active, State.island, hp, hw]

theorem decoded_does (s : State) (m : Nat) (x : RxFrame) : Does 0xe224082 s (decoded s m x) :=
  does_endRxLpi (by decide) (does_fecCount (by decide) (does_refl _ s))

/-- A frame that is not held is classified after the decoder. -/
theorem exec_frameReceived_decoded {s : State} {m : Fin 16} {x : RxFrame} (hn : s.netRuns = true) (hw : (s.watchLane (m / 8)).running = false)
    (hh : s.rxHeld m = false) (hcut : (!s.instExists m || decide ((s.mac m).link ≠ .up)) = true → (rxSettled x).fcsGood = false) :
    Gives (.frameReceived m x) s (fun t => ∃ stamp, t = ((decoded s m x).loaded m x).rxClassify m (rxSettled x)
      (!s.instExists m || decide ((s.mac m).link ≠ .up)) stamp) := by
  have hdoes := decoded_does s m x
  have hheld : (decoded s m x).rxHeld m = false :=
    (rxHeld_congr (hdoes.keeps .pair (by decide)) (hdoes.keeps .power (by decide)) m).trans hh
  exact ⟨_, congrArg Host.Outcome.next (rxArrives_reached hn hw hcut hheld), _, rfl⟩

/-! ### The clauses -/

/-- Bad starts and runts are counted only. -/
theorem exec_frameReceived_short {s : State} {m : Fin 16} {x : RxFrame} (h : Reaches m s) :
    (x.sofGood = false → Gives (.frameReceived m x) s (Counts .rxBadSof 0 m 1 (s.loaded m x))) ∧
    (x.sofGood = true → x.bytes.length + 4 ≤ 63 → Gives (.frameReceived m x) s (Counts .rxRunt 0 m 1 (s.loaded m x))) := by
  have hm : m.val < 2 ^ 12 := lt_trans m.isLt (by decide)
  refine ⟨fun hs => ⟨_, exec_frameReceived h, ?_⟩, fun hs hl => ⟨_, exec_frameReceived h, ?_⟩⟩
  · rw [rxClassify_badSof _ _ _ _ (show (rxSettled x).sofGood = false from hs)]
    exact counts_wired _ _ _ hm
  · rw [rxClassify_runt _ _ _ _ (show (rxSettled x).sofGood = true from hs) hl]
    exact counts_wired _ _ _ hm

theorem settled_good {x : RxFrame} (hg : x.fcsGood = true) (hk : x.marked = false) : (rxSettled x).fcsGood = true := by
  simp [rxSettled, hg, hk]

/-- A good frame is counted, and classified with its class. -/
theorem exec_frameReceived_good {s : State} {m : Fin 16} {x : RxFrame} (h : Reaches m s) (hs : x.sofGood = true) (hg : x.fcsGood = true)
    (hk : x.marked = false) (hl : 64 ≤ x.bytes.length + 4) (hlim : x.bytes.length + 4 ≤ s.lenLimit m (bufTags x.bytes))
    (h1 : beAt x.bytes 12 2 ≠ 0x8808) (h2 : beAt x.bytes 12 2 ≠ 0x88CC) :
    ∃ u g, exec (.frameReceived m x) s = .next (u.classify m g (parse x.bytes)) ∧ Flags (s.loaded m x) u ∧ CodesKept rxCtrs (s.loaded m x) u ∧
      g.bytes = x.bytes ∧ g.inst = m.val ∧ g.cls = s.rxClass m x.bytes (parse x.bytes) := by
  have hm : m.val < 2 ^ 12 := lt_trans m.isLt (by decide)
  obtain ⟨-, -, -, -, hclass, hlimit, -⟩ := classed_congr ((loaded_does s m x).keeps .setup (by decide))
  have hgood := rxClassify_good (s.loaded m x) m (x := rxSettled x) (l := x.bytes) (s.rxStamp m x.offset) rfl hs hl (settled_good hg hk)
    (by rw [hlimit]; exact hlim) h1 h2
  obtain ⟨hb, hi, hcls⟩ := goodFrame_gives (s.loaded m x) m x.bytes (s.rxStamp m x.offset)
  obtain ⟨hflags, hkept⟩ : Flags (s.loaded m x) (goodCounted (s.loaded m x) m x.bytes) ∧ CodesKept rxCtrs (s.loaded m x) (goodCounted (s.loaded m x) m x.bytes) :=
    rxCounters_gives (s.loaded m x) hm (rxClass_lt (s.loaded m x) m x.bytes (parse x.bytes)) _ _ _ _
  exact ⟨_, _, (exec_frameReceived h).trans (congrArg Host.Outcome.next hgood), hflags, hkept, hb, hi, hcls.trans (hclass m _ _)⟩

/-- A good frame that exactly one Enrolled function takes, with room for it all, is held and waits on its ring. -/
theorem exec_frameReceived_held {s : State} {m : Fin 16} {x : RxFrame} (h : Reaches m s) (hs : x.sofGood = true) (hg : x.fcsGood = true)
    (hk : x.marked = false) (hl : 64 ≤ x.bytes.length + 4) (hlim : x.bytes.length + 4 ≤ s.lenLimit m (bufTags x.bytes))
    (h1 : beAt x.bytes 12 2 ≠ 0x8808) (h2 : beAt x.bytes 12 2 ≠ 0x88CC) {f : Nat} {c : RxCopy}
    (hd : s.daMatch x.bytes m (s.rxCands (s.stagOwner x.bytes)) = [f])
    (ht : s.ctagOk f (ctagFrom x.bytes (parse x.bytes).tags (if (s.stagOwner x.bytes).isSome then 1 else 0)) = true)
    (he : (s.fn f).state = .enrolled) (hc : s.copyFor x.bytes (parse x.bytes) (s.stagOwner x.bytes) f = some c)
    (hp : ∀ k < cellsOf x.bytes.length, s.sharedTest (s.rxClass m x.bytes (parse x.bytes)) (passing c k) c = 0) :
    Gives (.frameReceived m x) s (fun t => (t.rxr c.ring).wait = (s.rxr c.ring).wait ++ [s.hamper.nextId] ∧
      t.hamper.nextId = s.hamper.nextId + 1 ∧ ∃ h ∈ t.hamper.frames, h.id = s.hamper.nextId ∧ h.bytes = x.bytes ∧ h.inst = m.val ∧
        h.cls = s.rxClass m x.bytes (parse x.bytes) ∧ h.copies = [c] ∧ h.pool = cellsOf x.bytes.length) := by
  obtain ⟨u, g, hexec, hflags, -, hb, hi, hcls⟩ := exec_frameReceived_good h hs hg hk hl hlim h1 h2
  have hdoes := loaded_does s m x
  have hset : (s.loaded m x).setup = s.setup := hdoes.keeps .setup (by decide)
  have hrx : (s.loaded m x).rx = s.rx := hdoes.keeps .rx (by decide)
  have hham : (s.loaded m x).hamper = s.hamper := hdoes.keeps .hamper (by decide)
  have hfn : ((s.loaded m x).fn f).state = .enrolled := by
    have hfns : (s.loaded m x).fns = s.fns := hdoes.keeps .fns (by decide)
    unfold State.fn at he ⊢
    rw [hfns]
    exact he
  have htest : ∀ k < cellsOf x.bytes.length, (s.loaded m x).sharedTest (s.rxClass m x.bytes (parse x.bytes)) (passing c k) c = 0 :=
    fun k hk => (sharedTest_congr hset hham (hdoes.keeps .tx (by decide)) (hdoes.keeps .pair (by decide)) (hdoes.keeps .foreman (by decide)) _ _ _).trans (hp k hk)
  obtain ⟨hstag, hcands, hda, htag, -, -, -⟩ := classed_congr hset
  generalize s.loaded m x = v at *
  obtain ⟨hw, hn, w, hmem, hid, hwb, hwi, hwc, hcop, hpool⟩ := classify_heldWhole (s := v) (u := u) (m := m) (f := f) (h := g) (p := parse x.bytes) (c := c)
    (by rw [hb, hda, hcands, hstag]; exact hd) (by rw [hb, htag, hstag]; exact ht) hfn
    (by rw [hb, copyFor_congr hset hrx, hstag]; exact hc) (by rw [hb, hcls]; exact htest) hflags
  rw [rxr_congr hrx, hham] at hw
  rw [hham] at hn hid
  exact ⟨_, hexec, hw, hn, w, hmem, hid, hwb.trans hb, hwi.trans hi, hwc.trans hcls, hcop, by rw [hpool, hb]⟩

/-- A good frame that nobody takes is counted as unmatched. -/
theorem exec_frameReceived_unmatched {s : State} {m : Fin 16} {x : RxFrame} (h : Reaches m s) (hs : x.sofGood = true) (hg : x.fcsGood = true)
    (hk : x.marked = false) (hl : 64 ≤ x.bytes.length + 4) (hlim : x.bytes.length + 4 ≤ s.lenLimit m (bufTags x.bytes))
    (h1 : beAt x.bytes 12 2 ≠ 0x8808) (h2 : beAt x.bytes 12 2 ≠ 0x88CC)
    (hd : s.daMatch x.bytes m (s.rxCands (s.stagOwner x.bytes)) = []) (hum : s.rxCtrlUnmatched m = 0) :
    Gives (.frameReceived m x) s (fun t => Counted .rxUnmatchedDrop 0 m 1 s t ∧ t.hamper = s.hamper ∧ t.rx = s.rx) := by
  obtain ⟨u, g, hexec, hflags, hkept, hb, -, -⟩ := exec_frameReceived_good h hs hg hk hl hlim h1 h2
  have hdoes := loaded_does s m x
  obtain ⟨hstag, hcands, hda, -, -, -, hun⟩ := classed_congr (hdoes.keeps .setup (by decide))
  obtain ⟨hc, hham, hrx⟩ := received_unmatched (m := m) (h := g) (p := parse x.bytes) (by rw [hb, hda, hcands, hstag]; exact hd)
    ((hun m).trans hum) hflags hkept
  exact ⟨_, hexec, counted_loaded hc, hham.trans (hdoes.keeps .hamper (by decide)), hrx.trans (hdoes.keeps .rx (by decide))⟩

/-- The codewords of a frame count, whatever its start delimiter. -/
theorem exec_frameReceived_codewords {s : State} {m : Fin 16} {x : RxFrame} (hn : s.netRuns = true) (hw : (s.watchLane (m / 8)).running = false)
    (hh : s.rxHeld m = false) (hf : 2 ≤ (s.mac m).fec) (he : s.instExists m = true) (hu : (s.mac m).link = .up) (hs : x.sofGood = false) :
    Gives (.frameReceived m x) s (fun t => Counted .fecCorrected 0 m x.corrected s t ∧ Counted .fecUncorrected 0 m x.uncorrected s t) := by
  have hm : m.val < 2 ^ 12 := lt_trans m.isLt (by decide)
  have hcut := uncut he hu
  obtain ⟨t, hexec, stamp, rfl⟩ := exec_frameReceived_decoded (x := x) hn hw hh (fun k => by rw [hcut] at k; exact absurd k (by decide))
  obtain ⟨hc, hc'⟩ := decoded_counts x hm hf
  refine ⟨_, hexec, ?_⟩
  rw [rxClassify_badSof _ _ _ _ (show (rxSettled x).sofGood = false from hs)]
  generalize decoded s m x = u at *
  have hafter : CodesKept [.evrLost, .rxBadSof] u (((u.loaded m x).count .rxBadSof m).wireUse m actOperator ((rxSettled x).bytes.length + 4)) :=
    codesKept_trans (codesKept_loaded u m x) (codesKept_trans (codesKept_countN _ _ _ (by decide) hm) (codesKept_uses _ _ _ _))
  exact ⟨counted_mid (by decide) hm (codesKept_refl _ s) hc hafter, counted_mid (by decide) hm (codesKept_refl _ s) hc' hafter⟩

/-- A frame that a Down cuts short is counted as a fragment and for its FCS. -/
theorem exec_frameReceived_fragment {s : State} {m : Fin 16} {x : RxFrame} (hn : s.netRuns = true) (hw : (s.watchLane (m / 8)).running = false)
    (hh : s.rxHeld m = false) (hu : (s.mac m).link ≠ .up) (hg : x.fcsGood = false) (hs : x.sofGood = true) (hl : 64 ≤ x.bytes.length + 4)
    (hlen : x.bytes.length ≤ 512) (h1 : beAt x.bytes 12 2 ≠ 0x8808) (hk : s.rxCtrlFcsKeep m = 0) :
    Gives (.frameReceived m x) s (fun t => Counted .rxFragment 0 m 1 s t ∧ Counted .rxFcsErr 0 m 1 s t ∧ t.hamper = s.hamper ∧ t.rx = s.rx) := by
  have hm : m.val < 2 ^ 12 := lt_trans m.isLt (by decide)
  have hbad : (rxSettled x).fcsGood = false := by simp [rxSettled, hg]
  have hcut : (!s.instExists m || decide ((s.mac m).link ≠ .up)) = true := by simp [hu]
  obtain ⟨t, hexec, stamp, rfl⟩ := exec_frameReceived_decoded (x := x) hn hw hh (fun _ => hbad)
  rw [hcut] at hexec
  have hdoes : Does 0xe624082 s ((decoded s m x).loaded m x) :=
    does_trans (does_mono (decoded_does s m x) (by decide)) (does_mono (loaded_does _ m x) (by decide))
  have hkept : CodesKept [.evrLost, .rxLpiTime, .fecCorrected, .fecUncorrected] s ((decoded s m x).loaded m x) :=
    codesKept_trans (codesKept_decoded s x hm) (codesKept_loaded _ m x)
  generalize (decoded s m x).loaded m x = u at *
  have hflags : Flags u ((u.count .rxFragment m).count .rxFcsErr m) := flags_count _ _ (flags_count _ _ (flags_refl u))
  have hfrag := rxClassify_fragment u m (x := rxSettled x) stamp hs hl hlen hbad h1
    ((field_congr ((hflags.keeps .setup (by decide)).trans (hdoes.keeps .setup (by decide))) _ _ _).trans hk)
  rw [hfrag] at hexec
  have hwire := flags_uses (.port (m / 8)) actOperator ((rxSettled x).bytes.length + 4) hflags
  have hbefore (c : Ctr) : CodesKept [c, .evrLost, .rxLpiTime, .fecCorrected, .fecUncorrected] s u :=
    codesKept_mono hkept (fun _ h => List.mem_cons_of_mem _ h)
  refine ⟨_, hexec, ?_, ?_, ?_, ?_⟩
  · exact counted_mid (by decide) hm (hbefore .rxFcsErr) (counted_countN u _ 1 (by decide) hm)
      (codesKept_trans (codesKept_countN _ _ _ (by decide) hm) (codesKept_uses _ _ _ _))
  · exact counted_mid (by decide) hm (codesKept_trans (hbefore .rxFragment) (codesKept_countN u _ _ (by decide) hm))
      (counted_countN _ _ 1 (by decide) hm) (codesKept_uses _ _ _ _)
  · exact (hwire.keeps .hamper (by decide)).trans (hdoes.keeps .hamper (by decide))
  · exact (hwire.keeps .rx (by decide)).trans (hdoes.keeps .rx (by decide))

/-- While lane words go to the hold buffer, the frame waits there with its timestamp. -/
theorem exec_frameReceived_holds {s : State} {m : Fin 16} (x : RxFrame) (hn : s.netRuns = true) (hw : (s.watchLane (m / 8)).running = false)
    (he : s.instExists m = true) (hu : (s.mac m).link = .up) (hf : (s.mac m).fec < 2) (hr : (s.mac m).rxLpi = false) (hh : s.rxHeld m = true) :
    exec (.frameReceived m x) s = .next (s.holdFrame m (rxSettled x) false) := by
  refine congrArg Host.Outcome.next ?_
  show s.rxArrives m x = _
  have hplain : (s.fecCount m x).endRxLpi m = s := decoded_plain x hf hr
  have hcut := uncut he hu
  unfold State.rxArrives
  dsimp only
  rw [hplain, hh, hcut]
  refine (if_neg ?_).trans (if_pos rfl)
  rintro (h | ⟨h, -⟩ | ⟨h, -⟩)
  · simp [hn] at h
  · simp [hw] at h
  · exact Bool.false_ne_true h

theorem holdFrame_gives (s : State) (m : Nat) (f : RxFrame) (cut : Bool) : Keeps [.pair] s (s.holdFrame m f cut) ∧
    (s.holdFrame m f cut).pair.hold = s.pair.hold ++ [{ m := m, frame := f, cut := cut, stamp := s.rxStamp m f.offset, start := s.time.elapsed, stop := s.time.elapsed + wireU (f.bytes.length + 4) (s.rate m) }] :=
  ⟨keeps_of_partMask (does_holdFrame (M := partMask [.pair]) (by decide) (does_refl _ s)), rfl⟩

/-- A MAC control frame long enough meets the control rows, its bytes counted as activity. -/
theorem exec_macControlFrame_rows {s : State} {m : Fin 16} {x : RxFrame} (h : Reaches m s) (hs : x.sofGood = true) (ht : beAt x.bytes 12 2 = 0x8808)
    (hl : 64 ≤ x.bytes.length + 4) : exec (.macControlFrame m x) s =
      .next (((s.loaded m x).macControl m (rxSettled x)).wireUse m actOperator (x.bytes.length + 4)) :=
  (exec_macControlFrame h ht).trans (congrArg Host.Outcome.next (rxClassify_control _ m (x := rxSettled x) false _ hs hl ht))

/-- What is counted alone among the control frames. -/
theorem control_counts {s : State} {m : Fin 16} {x : RxFrame} (h : Reaches m s) (hs : x.sofGood = true) (ht : beAt x.bytes 12 2 = 0x8808)
    (hl : 64 ≤ x.bytes.length + 4) {c : Ctr} (hc : (s.loaded m x).macControl m (rxSettled x) = (s.loaded m x).count c m)
    (hne : c.code ≠ Ctr.evrLost.code := by decide) : Gives (.macControlFrame m x) s (Counts c 0 m 1 (s.loaded m x)) :=
  ⟨_, exec_macControlFrame_rows h hs ht hl, by
    rw [hc]
    exact counts_wired _ _ _ (lt_trans m.isLt (by decide)) hne⟩

theorem mac_loaded (s : State) (m : Nat) (x : RxFrame) : (s.loaded m x).mac m = s.mac m :=
  mac_congr ((loaded_does s m x).keeps .macs (by decide)) m

theorem pauseIn_gives (s : State) (m : Nat) {l : List (Nat × Nat)} (h : l ≠ []) :
    ((s.pauseIn m l).mac m).ctrlIn = (s.mac m).ctrlIn ++ [(s.time.elapsed + 40 * uNs, l)] ∧ Does 0x4000 s (s.pauseIn m l) := by
  unfold State.pauseIn
  rw [if_neg h]
  exact ⟨by rw [mac_setMac_same], does_setMac (by decide) (does_refl _ s)⟩

/-- A PAUSE that is honoured reaches all classes 40 ns later. -/
theorem exec_macControlFrame_pause {s : State} {m : Fin 16} {x : RxFrame} (h : Reaches m s) (hs : x.sofGood = true) (ht : beAt x.bytes 12 2 = 0x8808)
    (hl : 64 ≤ x.bytes.length + 4) (hc : (s.loaded m x).macControl m (rxSettled x) =
      ((s.loaded m x).count .pauseRx m).pauseIn m ((List.range 8).map (fun c => (c, beAt x.bytes 16 2)))) :
    Gives (.macControlFrame m x) s (fun t => Counted .pauseRx 0 m 1 s t ∧ (t.mac m).ctrlIn = (s.mac m).ctrlIn ++
      [(s.time.elapsed + 40 * uNs, (List.range 8).map (fun c => (c, beAt x.bytes 16 2)))]) := by
  have hm : m.val < 2 ^ 12 := lt_trans m.isLt (by decide)
  have hmac := mac_loaded s m x
  have htime : (s.loaded m x).time = s.time := (loaded_does s m x).keeps .time (by decide)
  have hcount := codesKept_loaded (l := [.evrLost]) s m x
  refine ⟨_, exec_macControlFrame_rows h hs ht hl, ?_⟩
  rw [hc]
  generalize s.loaded m x = u at *
  have hflags : Flags u (u.count .pauseRx m) := flags_count _ _ (flags_refl u)
  obtain ⟨hin, hdoes⟩ := pauseIn_gives (u.count .pauseRx m) m (l := (List.range 8).map (fun c => (c, beAt x.bytes 16 2))) (by simp)
  rw [hflags.keeps .time (by decide), mac_congr (hflags.keeps .macs (by decide)), hmac, htime] at hin
  refine ⟨counted_mid (by decide) hm hcount (counted_countN u _ 1 (by decide) hm) (codesKept_trans (codesKept_does hdoes) (codesKept_uses _ _ _ _)), ?_⟩
  have hwire := flags_uses (.port (m / 8)) actOperator (x.bytes.length + 4) (flags_refl ((u.count .pauseRx m).pauseIn m ((List.range 8).map (fun c => (c, beAt x.bytes 16 2)))))
  exact (congrArg (·.ctrlIn) (mac_congr (hwire.keeps .macs (by decide)) m)).trans hin

/-- Settles O41: the rows of Table 9-3 in their order, over a frame that has reached the reference plane. -/
theorem receivedFramesAreHeldOrCounted : Obligations.ReceivedFramesAreHeldOrCounted := by
  refine ⟨fun s m x h => ?_, fun s m x hn hw hh => ⟨fun hf he hu hs => exec_frameReceived_codewords hn hw hh hf he hu hs,
    fun hu hg hs hl hlen h1 hk => exec_frameReceived_fragment hn hw hh hu hg hs hl hlen h1 hk⟩,
    fun s m x hn hw he hu hf hr hh => ⟨_, exec_frameReceived_holds x hn hw he hu hf hr hh, holdFrame_gives _ _ _ _⟩, fun s m x h hs ht => ?_⟩
  · obtain ⟨hsof, hrunt⟩ := exec_frameReceived_short (x := x) h
    exact ⟨hsof, hrunt, fun hs hg hk hl hlim h1 h2 =>
      ⟨fun f c _ hd htag he hc hp => exec_frameReceived_held h hs hg hk hl hlim h1 h2 hd htag he hc hp,
        fun hd hum => exec_frameReceived_unmatched h hs hg hk hl hlim h1 h2 hd hum⟩⟩
  · have hset := field_congr ((loaded_does s m x).keeps .setup (by decide))
    have hmode : (s.loaded m x).macCfgFcMode m = s.macCfgFcMode m := hset _ _ _
    have hmax : (s.loaded m x).maxlenBytes m = s.maxlenBytes m := hset _ _ _
    refine ⟨fun hl => ⟨_, exec_macControlFrame h ht, ?_⟩, fun hl hg => control_counts h hs ht hl (macControl_bad _ m (x := rxSettled x) (by simp [rxSettled, hg])),
      fun hg hk hl hlen hda => ⟨fun ho hm hi => ?_, fun ho hm => ?_, fun ho hp => ?_⟩⟩
    · rw [rxClassify_runt _ _ _ _ (show (rxSettled x).sofGood = true from hs) hl]
      exact counts_wired _ _ _ (lt_trans m.isLt (by decide))
    · exact exec_macControlFrame_pause h hs ht hl (macControl_pause _ m (x := rxSettled x) (settled_good hg hk) hl (hmax ▸ hlen) hda ho (hmode.trans hm)
        (by rw [mac_loaded]; exact hi))
    · exact control_counts h hs ht hl (macControl_ignored _ m (x := rxSettled x) (settled_good hg hk) hl (hmax ▸ hlen) hda ho (fun k => hm (hmode.symm.trans k)))
    · exact control_counts h hs ht hl (macControl_unknown _ m (x := rxSettled x) (settled_good hg hk) hl (hmax ▸ hlen) hda ho hp)

end Sys2Proof.Proofs
end

section
/-! Departures, gates and link idle (R51, R61, R131, R139 to R143, R155, R201, R202, R216); and O40. -/
namespace Sys2Proof.Proofs
open Sys2Proof Sys2Proof.Machine Sys2Proof.Laws
set_option Elab.async false -- one thread, within the memory of the check

/-! ### What flow control leaves of the schedule -/

/-- The frame that an instance sends, and the end of the last one. -/
def lineOf (x : SchInst) : Option CurFrame × Nat := (x.cur, x.free)

theorem line_eq {x y : SchInst} (h : lineOf x = lineOf y) : x.cur = y.cur ∧ x.free = y.free := ⟨congrArg Prod.fst h, congrArg Prod.snd h⟩

theorem line_setSch (s : State) (m k : Nat) {f : SchInst → SchInst} (h : ∀ x, lineOf (f x) = lineOf x) :
    lineOf ((s.setSch m f).sch k) = lineOf (s.sch k) := by
  by_cases hk : k = m
  · rw [hk, sch_setSch_same]
    exact h _
  · rw [sch_setSch_other s f hk]

theorem line_congr {s t : State} (h : t.sched = s.sched) (k : Nat) : lineOf (t.sch k) = lineOf (s.sch k) := by rw [sch_congr h]

theorem line_wakeLink (s : State) (m k : Nat) : lineOf ((s.wakeLink m).sch k) = lineOf (s.sch k) := by
  unfold State.wakeLink
  split
  · exact line_setSch s m k (f := fun x => { x with wakeReq := some s.time.elapsed }) (fun _ => rfl)
  · rfl

theorem line_queueCtrl (s : State) (m k : Nat) (x : CtrlFrame) : lineOf ((s.queueCtrl m x).sch k) = lineOf (s.sch k) := by
  unfold State.queueCtrl
  split
  · exact (line_wakeLink _ m k).trans (line_setSch s m k (f := fun c => { c with ctrl := c.ctrl ++ [x] }) (fun _ => rfl))
  · rfl

theorem line_xoffSet (s : State) (m c k : Nat) (on : Bool) : lineOf ((s.xoffSet m c on).sch k) = lineOf (s.sch k) := by
  unfold State.xoffSet
  dsimp only
  split
  · rfl
  · exact line_queueCtrl _ m k _

theorem line_pauseSet (s : State) (m k : Nat) (on : Bool) : lineOf ((s.pauseSet m on).sch k) = lineOf (s.sch k) := by
  unfold State.pauseSet
  split
  · rfl
  · exact line_queueCtrl _ m k _

theorem line_flowCheck (k : Nat) (s : State) (m : Nat) : lineOf ((s.flowCheck m).sch k) = lineOf (s.sch k) := by
  have hone (u : State) (c : Nat) : lineOf ((State.flowOne m u c).sch k) = lineOf (u.sch k) := by
    unfold State.flowOne
    split
    · split
      · exact line_xoffSet u m c k true
      · split
        · exact line_xoffSet u m c k false
        · rfl
    · rfl
  have hall := foldl_keeps (g := fun v : State => lineOf (v.sch k)) (f := State.flowOne m) hone (List.range 8) s
  unfold State.flowCheck
  dsimp only
  split
  · split
    · exact (line_pauseSet _ m k true).trans hall
    · split
      · exact (line_pauseSet _ m k false).trans hall
      · exact hall
  · exact hall

/-- Flow control neither sends nor ends a frame. -/
theorem line_flowAll (s : State) (k : Nat) : lineOf (s.flowAll.sch k) = lineOf (s.sch k) :=
  foldl_keeps (g := fun v : State => lineOf (v.sch k)) (f := State.flowCheck) (line_flowCheck k) (List.range 16) s

/-! ### The counters of a departure (R216, R218) -/

/-- What a frame counts between its octets and its function. -/
def txMid : List Ctr :=
  [.evrLost, .txBcast, .txMcast, .txUcast, .txSize0, .txSize1, .txSize2, .txSize3, .txSize4, .txSize5, .txSize6, .txSize7, .txSize8, .txSize9,
    .txSegments, .txPadded]

/-- What a departed frame counts, but for a skipped one-step request. -/
def txCtrs : List Ctr := [.txFrames, .txOctets, .fnTxFrames, .fnTxOctets] ++ txMid

theorem codesKept_txMid (s : State) {c : Ctr} {m : Nat} (hm : m < 2 ^ 12) (h : c ∈ txMid ∧ c.code ≠ Ctr.evrLost.code) : CodesKept txMid s (s.count c m) :=
  codesKept_countN s c 1 (by decide) hm h.1 (by decide) h.2

theorem castTx_mid (k : Nat) : (if k = 2 then Ctr.txBcast else if k = 1 then .txMcast else .txUcast) ∈ txMid ∧
    (if k = 2 then Ctr.txBcast else if k = 1 then .txMcast else .txUcast).code ≠ Ctr.evrLost.code := by
  split
  · exact ⟨by decide, by decide⟩
  · split
    · exact ⟨by decide, by decide⟩
    · exact ⟨by decide, by decide⟩

theorem txSize_mid (b : Nat) : txSize b ∈ txMid ∧ (txSize b).code ≠ Ctr.evrLost.code := by
  unfold txSize
  split
  all_goals exact ⟨by decide, by decide⟩

/-- A departed frame is counted once for its class and once for its function, with its octets; nothing else is but what `txCtrs` lists. -/
theorem txCounters_gives (s : State) {m : Nat} {f : CurFrame} (len : Nat) (seg padded : Bool) (hm : m < 2 ^ 12) (hcls : f.cls < 8) (hfn : f.fn < 2 ^ 12) :
    Counted .txFrames f.cls m 1 s (s.txCounters m f len seg padded) ∧ Counted .txOctets f.cls m len s (s.txCounters m f len seg padded) ∧
    Counted .fnTxFrames 0 f.fn 1 s (s.txCounters m f len seg padded) ∧ CodesKept txCtrs s (s.txCounters m f len seg padded) := by
  unfold State.txCounters
  extract_lets k s1 s2 s3 s4
  have hframes : Counted .txFrames f.cls m 1 s (s.countCls .txFrames f.cls m) := counted_countN s _ 1 hcls hm
  have hframesK : CodesKept [.evrLost, .txFrames] s (s.countCls .txFrames f.cls m) := codesKept_countN s _ 1 hcls hm
  have hmid : CodesKept txMid ((s.countCls .txFrames f.cls m).countN .txOctets f.cls m len) s4 := by
    have h1 := codesKept_txMid ((s.countCls .txFrames f.cls m).countN .txOctets f.cls m len) hm (castTx_mid k)
    have h2 : CodesKept txMid _ s2 := codesKept_trans h1 (codesKept_txMid s1 hm (txSize_mid _))
    have h3 : CodesKept txMid _ s3 := codesKept_ite (codesKept_trans h2 (codesKept_txMid s2 hm (by decide))) h2
    exact codesKept_ite (codesKept_trans h3 (codesKept_txMid s3 hm (by decide))) h3
  generalize s.countCls .txFrames f.cls m = u at hframes hframesK hmid ⊢
  have hoctets : Counted .txOctets f.cls m len u (u.countN .txOctets f.cls m len) := counted_countN u _ len hcls hm
  have hoctetsK : CodesKept [.evrLost, .txOctets] u (u.countN .txOctets f.cls m len) := codesKept_countN u _ len hcls hm
  generalize u.countN .txOctets f.cls m len = v at hoctets hoctetsK hmid ⊢
  generalize s4 = w at hmid ⊢
  have hfnK : CodesKept [.evrLost, .fnTxFrames] w (w.count .fnTxFrames f.fn) := codesKept_countN w _ 1 (by decide) hfn
  have hfnC : Counted .fnTxFrames 0 f.fn 1 w (w.count .fnTxFrames f.fn) := counted_countN w _ 1 (by decide) hfn
  have hend (x : State) : CodesKept [.evrLost, .fnTxOctets] x
      ((((x.countN .fnTxOctets 0 f.fn len).wireUse m f.fn len).uses .sched f.fn len).uses .hamper f.fn (cellsOf f.bytes.length)) :=
    codesKept_trans (codesKept_trans (codesKept_trans (codesKept_countN x _ len (by decide) hfn) (codesKept_uses _ _ _ _)) (codesKept_uses _ _ _ _))
      (codesKept_uses _ _ _ _)
  generalize w.count .fnTxFrames f.fn = x at hfnK hfnC ⊢
  have hlast := hend x
  generalize ((((x.countN .fnTxOctets 0 f.fn len).wireUse m f.fn len).uses .sched f.fn len).uses .hamper f.fn (cellsOf f.bytes.length)) = y at hlast ⊢
  have hafter : CodesKept ([.fnTxFrames, .fnTxOctets] ++ txMid) v y :=
    codesKept_trans (codesKept_mono hmid (by decide)) (codesKept_trans (codesKept_mono hfnK (by decide)) (codesKept_mono hlast (by decide)))
  refine ⟨?_, ?_, ?_, ?_⟩
  · exact counted_mid (l := [.txOctets, .fnTxFrames, .fnTxOctets] ++ txMid) hcls hm (codesKept_refl _ s) hframes
      (codesKept_trans (codesKept_mono hoctetsK (by decide)) (codesKept_mono hafter (by decide)))
  · exact counted_mid (l := [.txFrames, .fnTxFrames, .fnTxOctets] ++ txMid) hcls hm (codesKept_mono hframesK (by decide)) hoctets
      (codesKept_mono hafter (by decide))
  · exact counted_mid (l := [.txFrames, .txOctets, .fnTxOctets] ++ txMid) (by decide) hfn (codesKept_trans (codesKept_mono hframesK (by decide))
      (codesKept_trans (codesKept_mono hoctetsK (by decide)) (codesKept_mono hmid (by decide)))) hfnC (codesKept_mono hlast (by decide))
  · exact codesKept_trans (codesKept_mono hframesK (by decide)) (codesKept_trans (codesKept_mono hoctetsK (by decide)) (codesKept_mono hafter (by decide)))

/-! ### What follows a departure (R111) -/

/-- The completions of a transmit ring count the recalls they carry, and no more. -/
theorem codesKept_txCompleteOne (s : State) {n : Nat} (hn : n < 2 ^ 12) :
    CodesKept [.evrLost, .txRecalled, .txRecallLate] s (s.txCompleteOne n).1 := by
  unfold State.txCompleteOne
  dsimp only
  split
  next x rest _ =>
    split
    · have hbase (F : TxRing → TxRing) : CodesKept [.evrLost, .txRecalled, .txRecallLate] s
          ((s.cqWrite (s.txr n).cq (x.cpl n (s.txr n)) x.rsvCq).setTxr n F) :=
        codesKept_trans (codesKept_of_count (count_cqWrite s _ _ _)) (codesKept_does (m := 0x100) (does_setTxr (by decide) (does_refl _ _)))
      exact codesKept_ite (codesKept_trans (hbase _) (codesKept_countN _ .txRecalled 1 (by decide) hn))
        (codesKept_ite (codesKept_trans (hbase _) (codesKept_countN _ .txRecallLate 1 (by decide) hn)) (hbase _))
    · exact codesKept_refl _ s
  · exact codesKept_refl _ s

theorem codesKept_txCompleteN {n : Nat} (hn : n < 2 ^ 12) (k : Nat) (s : State) :
    CodesKept [.evrLost, .txRecalled, .txRecallLate] s (State.txCompleteN n k s) := by
  induction k generalizing s with
  | zero => exact codesKept_refl _ s
  | succ k ih =>
    have h1 := codesKept_txCompleteOne s hn
    unfold State.txCompleteN
    dsimp only
    exact codesKept_ite (codesKept_trans h1 (ih _)) h1

/-- A send's frame has left: its completions, flow control and the watchdogs follow. -/
def afterDeparture (s : State) (m ring first : Nat) (g : Send → Send) : State := ((s.setSend ring first g).txComplete ring).flowAll.wdCheck m

theorem afterDeparture_gives (s : State) (m : Nat) {ring : Nat} (first : Nat) (g : Send → Send) (hr : ring < 2 ^ 12) :
    lineOf ((afterDeparture s m ring first g).sch m) = lineOf (s.sch m) ∧
    CodesKept [.evrLost, .txRecalled, .txRecallLate] s (afterDeparture s m ring first g) ∧ s.out <+: (afterDeparture s m ring first g).out := by
  have hsend : Does 0x100 s (s.setSend ring first g) := does_setSend (by decide) (does_refl _ s)
  have hcpl : Does 0xe220582 (s.setSend ring first g) ((s.setSend ring first g).txComplete ring) := does_txComplete (by decide) (does_refl _ _)
  have hcplK := codesKept_txCompleteN hr ((s.setSend ring first g).txr ring).sends.length (s.setSend ring first g)
  have hsendK : CodesKept [.evrLost, .txRecalled, .txRecallLate] s (s.setSend ring first g) := codesKept_does hsend
  unfold afterDeparture
  rw [State.txComplete] at hcpl ⊢
  generalize State.txCompleteN ring ((s.setSend ring first g).txr ring).sends.length (s.setSend ring first g) = u at hcpl hcplK ⊢
  have hflow : Does 0x7000 u u.flowAll := does_flowAll (by decide) (does_refl _ u)
  have hline := line_flowAll u m
  generalize u.flowAll = v at hflow hline ⊢
  have hwd : Does 0x4000 v (v.wdCheck m) := does_wdCheck (by decide) (does_refl _ v)
  refine ⟨?_, ?_, ?_⟩
  · rw [line_congr (hwd.keeps .sched (by decide)), hline, line_congr (hcpl.keeps .sched (by decide)), line_congr (hsend.keeps .sched (by decide))]
  · exact codesKept_trans hsendK (codesKept_trans hcplK (codesKept_trans (codesKept_does hflow) (codesKept_does hwd)))
  · exact hsend.out.trans (hcpl.out.trans (hflow.out.trans hwd.out))

/-! ### The departure (R131, R61) -/

/-- The bytes of a one-step Sync that is honoured, with its departure written into it. -/
def oneStepped (s : State) (m : Nat) (f : CurFrame) : Option Bytes :=
  if bit f.flags 2 = true ∧ bit f.flags 3 = false ∧ bit s.tsOnestepEnEn m = true then oneStep f.bytes (s.txStamp m f.at_) else none

theorem counted_of_tally {c : Ctr} {cls obj n : Nat} {s s' t t' : State} (h : Counted c cls obj n s t) (hs : s'.tally = s.tally)
    (ht : t'.tally = t.tally) : Counted c cls obj n s' t' := by
  unfold Counted at h ⊢
  rw [hs, ht, h]

theorem codesKept_of_tally {l : List Ctr} {s s' t t' : State} (h : CodesKept l s t) (hs : s'.tally = s.tally) (ht : t'.tally = t.tally) :
    CodesKept l s' t' := by
  intro k hk
  rw [hs, ht]
  exact h k hk

/-- An instance has sent its frame, and is free from an instant on. -/
def lineFreed (s : State) (m free : Nat) (sent : Option (Nat × Nat × Nat)) : State :=
  s.setSch m (fun q => { q with cur := none, free := free, sending := sent })

theorem lineFreed_gives (s : State) (m free : Nat) (sent : Option (Nat × Nat × Nat)) : ((lineFreed s m free sent).sch m).cur = none ∧
    ((lineFreed s m free sent).sch m).free = free ∧ (lineFreed s m free sent).tally = s.tally ∧ (lineFreed s m free sent).out = s.out := by
  unfold lineFreed
  rw [sch_setSch_same]
  exact ⟨rfl, rfl, rfl, rfl⟩

theorem emitted (s : State) (o : Out) : Emits o s (s.emit o) ∧ (s.emit o).tally = s.tally := ⟨⟨[o], rfl, List.mem_singleton.mpr rfl⟩, rfl⟩

/-- The frame leaves the instance, on the wire, counted. -/
def departedLine (s : State) (m : Nat) (f : CurFrame) (rate : Nat) (l : Bytes) : State :=
  lineFreed ((s.emit (.wire m f.at_ (withFcs l))).txCounters m f (f.bytes.length + 4) (bit f.flags 3) f.padded) m
    (f.start + bitsU ((8 + (f.bytes.length + 4) + 12) * 8) rate) (some (f.cls, f.start, f.start + wireU (f.bytes.length + 4) rate))

/-- A one-step request that is not honoured has been counted, once for its send. -/
def skippedOnce (s : State) (m : Nat) (f : CurFrame) : State :=
  if (bit f.flags 2 && (oneStepped s m f).isNone) = true ∧ f.seg = 0 then s.oneStepSkip m else s

/-- A departure is the frame's line, and what follows for its send where the function is still there. -/
theorem depart_line (s : State) (m : Nat) (f : CurFrame) :
    s.depart m f = departedLine (skippedOnce s m f) m f (s.rate m) ((oneStepped s m f).getD f.bytes) ∨
    ∃ g, s.depart m f = afterDeparture (departedLine (skippedOnce s m f) m f (s.rate m) ((oneStepped s m f).getD f.bytes)) m f.ring f.first g := by
  unfold State.depart
  extract_lets stamp r x seg ask done skip len s0 s1
  have h1 : s1 = departedLine (skippedOnce s m f) m f (s.rate m) ((oneStepped s m f).getD f.bytes) := rfl
  rw [h1]
  clear_value x
  cases x with
  | some y => exact .inr ⟨fun z => z.departed ((s.sendAsk r y).frames y.bytes) len (time64Of stamp) skip, rfl⟩
  | none => exact .inl rfl

theorem departedLine_gives (s : State) {m : Nat} {f : CurFrame} (rate : Nat) (l : Bytes) (hm : m < 2 ^ 12) (hcls : f.cls < 8) (hfn : f.fn < 2 ^ 12) :
    ((departedLine s m f rate l).sch m).cur = none ∧
    ((departedLine s m f rate l).sch m).free = f.start + bitsU ((8 + (f.bytes.length + 4) + 12) * 8) rate ∧
    Counted .txFrames f.cls m 1 s (departedLine s m f rate l) ∧ Counted .txOctets f.cls m (f.bytes.length + 4) s (departedLine s m f rate l) ∧
    Counted .fnTxFrames 0 f.fn 1 s (departedLine s m f rate l) ∧ CodesKept txCtrs s (departedLine s m f rate l) ∧
    Emits (.wire m f.at_ (withFcs l)) s (departedLine s m f rate l) := by
  obtain ⟨hsent, htally⟩ := emitted s (.wire m f.at_ (withFcs l))
  obtain ⟨h1, h2, h3, h4⟩ := txCounters_gives (s.emit (.wire m f.at_ (withFcs l))) (f.bytes.length + 4) (bit f.flags 3) f.padded hm hcls hfn
  have hd : Does 0xe220082 (s.emit (.wire m f.at_ (withFcs l)))
      ((s.emit (.wire m f.at_ (withFcs l))).txCounters m f (f.bytes.length + 4) (bit f.flags 3) f.padded) := does_txCounters (by decide) (does_refl _ _)
  unfold departedLine
  generalize s.emit (.wire m f.at_ (withFcs l)) = v at *
  generalize v.txCounters m f (f.bytes.length + 4) (bit f.flags 3) f.padded = u at *
  obtain ⟨hcur, hfree, ht, ho⟩ := lineFreed_gives u m (f.start + bitsU ((8 + (f.bytes.length + 4) + 12) * 8) rate)
    (some (f.cls, f.start, f.start + wireU (f.bytes.length + 4) rate))
  exact ⟨hcur, hfree, counted_of_tally h1 htally.symm ht, counted_of_tally h2 htally.symm ht, counted_of_tally h3 htally.symm ht,
    codesKept_of_tally h4 htally.symm ht, emits_after hsent (hd.out.trans (by rw [ho]))⟩

theorem skippedOnce_gives (s : State) {m : Nat} (f : CurFrame) (hm : m < 2 ^ 12) :
    CodesKept [.evrLost, .onestepSkip] s (skippedOnce s m f) ∧ s.out <+: (skippedOnce s m f).out ∧
    (bit f.flags 2 = true → oneStepped s m f = none → f.seg = 0 → Counted .onestepSkip 0 m 1 s (skippedOnce s m f)) := by
  have hraise : CodesKept [.evrLost] (s.count .onestepSkip m) (s.oneStepSkip m) := codesKept_of (counts_raiseOnce _ _ _ _)
  have hkept : CodesKept [.evrLost, .onestepSkip] s (s.oneStepSkip m) :=
    codesKept_trans (codesKept_countN s _ 1 (by decide) hm) (codesKept_mono hraise (by decide))
  have hcount : Counted .onestepSkip 0 m 1 s (s.oneStepSkip m) :=
    counted_mid (by decide) hm (codesKept_refl _ s) (counted_countN s _ 1 (by decide) hm) hraise
  have hd : Does 0xe220082 s (s.oneStepSkip m) := does_raiseOnce (by decide) (does_count (by decide) (does_refl _ s))
  unfold skippedOnce
  split
  · exact ⟨hkept, hd.out, fun _ _ _ => hcount⟩
  next h => exact ⟨codesKept_refl _ s, List.prefix_refl _, fun ha hn hs => absurd ⟨by rw [ha, hn]; rfl, hs⟩ h⟩

/-- The current frame has left in full: the instance, the counters, the wire. -/
theorem depart_gives (s : State) {m : Nat} {f : CurFrame} (hm : m < 2 ^ 12) (hcls : f.cls < 8) (hfn : f.fn < 2 ^ 12) (hr : f.ring < 2 ^ 12) :
    ((s.depart m f).sch m).cur = none ∧ ((s.depart m f).sch m).free = f.start + bitsU ((8 + (f.bytes.length + 4) + 12) * 8) (s.rate m) ∧
    Counted .txFrames f.cls m 1 s (s.depart m f) ∧ Counted .txOctets f.cls m (f.bytes.length + 4) s (s.depart m f) ∧
    Counted .fnTxFrames 0 f.fn 1 s (s.depart m f) ∧
    (bit f.flags 2 = true → oneStepped s m f = none → f.seg = 0 → Counted .onestepSkip 0 m 1 s (s.depart m f)) ∧
    Emits (.wire m f.at_ (withFcs ((oneStepped s m f).getD f.bytes))) s (s.depart m f) := by
  obtain ⟨hskipK, hskipO, hskip⟩ := skippedOnce_gives s f hm
  have hline := depart_line s m f
  generalize oneStepped s m f = one at *
  generalize s.depart m f = t at *
  generalize skippedOnce s m f = u at *
  obtain ⟨hcur, hfree, hf, ho, hn, hk, he⟩ := departedLine_gives u (s.rate m) (one.getD f.bytes) hm hcls hfn
  generalize departedLine u m f (s.rate m) (one.getD f.bytes) = v at *
  have htail : lineOf (t.sch m) = lineOf (v.sch m) ∧ CodesKept [.evrLost, .txRecalled, .txRecallLate] v t ∧ v.out <+: t.out := by
    rcases hline with h | ⟨g, h⟩
    · rw [h]
      exact ⟨rfl, codesKept_refl _ _, List.prefix_refl _⟩
    · rw [h]
      exact afterDeparture_gives v m f.first g hr
  obtain ⟨hl, htailK, htailO⟩ := htail
  obtain ⟨hcur', hfree'⟩ := line_eq hl
  have hother {c : Ctr} {cls obj n : Nat} (h : Counted c cls obj n u v) (hc : cls < 8) (hobj : obj < 2 ^ 12)
      (hne : ∀ d ∈ [Ctr.evrLost, .onestepSkip, .txRecalled, .txRecallLate], c.code ≠ d.code) : Counted c cls obj n s t :=
    counted_mid (l := [.evrLost, .onestepSkip, .txRecalled, .txRecallLate]) hc hobj (codesKept_mono hskipK (by decide)) h
      (codesKept_mono htailK (by decide)) hne
  refine ⟨hcur'.trans hcur, hfree'.trans hfree, hother hf hcls hm (by decide), hother ho hcls hm (by decide), hother hn (by decide) hfn (by decide),
    fun ha hnone hs => ?_, emits_before hskipO (emits_after he htailO)⟩
  exact counted_mid (l := txCtrs ++ [.txRecalled, .txRecallLate]) (by decide) hm (codesKept_refl _ s) (hskip ha hnone hs)
    (codesKept_trans (codesKept_mono hk (by decide)) (codesKept_mono htailK (by decide)))

/-! ### What waits for the last frame on the wire (R248, R250) -/

theorem did_actFalls (s : State) : Does 0xc0000 s s.actFalls := by
  unfold State.actFalls State.lowerAct State.setEng
  split
  · split
    · exact does_onPairActs (by decide) (does_onPairActs (by decide) (does_onPairActs (by decide) (does_refl _ s)))
    · exact does_refl _ s
  · exact does_refl _ s

theorem codesKept_quiesceEnds (s : State) : CodesKept [.evrLost] s s.quiesceEnds := by
  unfold State.quiesceEnds
  refine codesKept_ite ?_ (codesKept_refl _ s)
  refine codesKept_trans (t := (s.onPair _).holdWords) ?_ (codesKept_deferCommit _)
  exact codesKept_does (m := 0x40000) (does_holdWords (by decide) (does_onPair (by decide) rfl (does_refl _ s)))

/-- The end of the last frame on the wire counts nothing of its own. -/
theorem codesKept_wireIdle (s : State) : CodesKept [.evrLost] s s.wireIdle :=
  codesKept_trans (codesKept_does (did_actFalls s)) (codesKept_quiesceEnds _)

theorem oneStepped_congr {s t : State} (h : t.setup = s.setup) (m : Nat) (f : CurFrame) : oneStepped t m f = oneStepped s m f := by
  have hf := field_congr h
  have hen : t.tsOnestepEnEn = s.tsOnestepEnEn := hf _ _ _
  have hstamp : t.txStamp m f.at_ = s.txStamp m f.at_ := by
    have hadj : t.tsAdjTxAdj m = s.tsAdjTxAdj m := hf _ _ _
    unfold State.txStamp
    rw [hadj]
  unfold oneStepped
  rw [hen, hstamp]

/-- FRAME_DEPARTURE: the current frame leaves in full. -/
theorem exec_frameDeparture {s : State} {m : Fin 16} {f : CurFrame} (hc : (s.sch m).cur = some f) (hh : f.held = false)
    (hv : s.pair.verdict = false) : exec (.frameDeparture m) s = .next ((s.settle m).depart m f).wireIdle := by
  refine congrArg Host.Outcome.next ?_
  rw [hc]
  refine if_neg ?_
  rw [hh, hv]
  decide

theorem frameDeparture_gives {s : State} {m : Fin 16} {f : CurFrame} (hc : (s.sch m).cur = some f) (hh : f.held = false)
    (hv : s.pair.verdict = false) (hcls : f.cls < 8) (hfn : f.fn < 68) (hr : f.ring < 1024) : Gives (.frameDeparture m) s (fun t =>
      (t.sch m).cur = none ∧ (t.sch m).free = f.start + bitsU ((8 + (f.bytes.length + 4) + 12) * 8) (s.rate m) ∧
      Counted .txFrames f.cls m 1 s t ∧ Counted .txOctets f.cls m (f.bytes.length + 4) s t ∧ Counted .fnTxFrames 0 f.fn 1 s t ∧
      (bit f.flags 2 = true → oneStepped s m f = none → f.seg = 0 → Counted .onestepSkip 0 m 1 s t) ∧
      ∃ l, t.out = s.out ++ l ∧ Out.wire m f.at_ (withFcs ((oneStepped s m f).getD f.bytes)) ∈ l) := by
  have hm : m.val < 2 ^ 12 := lt_trans m.isLt (by decide)
  have hfn' : f.fn < 2 ^ 12 := lt_trans hfn (by decide)
  have hsettle := did_settle s m
  obtain ⟨hcur, hfree, h1, h2, h3, hskip, hemit⟩ := depart_gives (s.settle m) hm hcls hfn' (lt_trans hr (by decide))
  rw [oneStepped_congr (hsettle.keeps .setup (by decide))] at hskip hemit
  rw [rate_congr (hsettle.keeps .setup (by decide))] at hfree
  refine ⟨_, exec_frameDeparture hc hh hv, ?_⟩
  have htally : (s.settle m).tally = s.tally := hsettle.keeps .tally (by decide)
  have hout := hsettle.out
  generalize s.settle m = u at *
  generalize u.depart m f = v at *
  have hidle : Does 0xe2e0083 v v.wireIdle := does_wireIdle (by decide) (does_refl _ v)
  have hsched : v.wireIdle.sched = v.sched := hidle.keeps .sched (by decide)
  have hafter {c : Ctr} {cls obj n : Nat} (h : Counted c cls obj n u v) (hc : cls < 8) (ho : obj < 2 ^ 12) (hne : ∀ d ∈ [Ctr.evrLost], c.code ≠ d.code) :
      Counted c cls obj n s v.wireIdle :=
    counted_of_tally (s := u) (counted_mid hc ho (codesKept_refl _ u) h (codesKept_wireIdle v) hne) htally.symm rfl
  exact ⟨by rw [sch_congr hsched, hcur], by rw [sch_congr hsched, hfree], hafter h1 hcls hm (by decide), hafter h2 hcls hm (by decide),
    hafter h3 (by decide) hfn' (by decide), fun ha hn hs => hafter (hskip ha hn hs) (by decide) hm (by decide),
    emits_before hout (emits_after hemit hidle.out)⟩

/-! ### Gates (R139, R140) -/

theorem settle_other (s : State) {m k : Nat} (h : k ≠ m) : (s.settle m).sch k = s.sch k := by
  have hone (t : State) (c : Nat) : (State.settleOne m t c).sch k = t.sch k := by
    unfold State.settleOne
    split
    · exact sch_setSch_other t _ h
    · rfl
  exact foldl_keeps (g := fun v : State => v.sch k) (f := State.settleOne m) hone (List.range 8) s

theorem gateEvent_gives (s : State) (m : Fin 16) : Gives (.gateEvent m) s (fun t => Keeps [.sched] s t ∧
    (t.sch m).gates = (s.gated m).gatesAt s.time.now ∧ (t.sch m).cur = (s.sch m).cur ∧ ∀ k, k ≠ m.val → t.sch k = s.sch k) := by
  have hsettle := did_settle s m
  have hlists := settle_uncredited s m m
  have hpend : ((s.settle m).sch m).pend = (s.sch m).pend := (congrArg SchInst.pend hlists : (uncredited _).pend = (uncredited _).pend)
  have hoper : ((s.settle m).sch m).oper = (s.sch m).oper := (congrArg SchInst.oper hlists : (uncredited _).oper = (uncredited _).oper)
  have htime : (s.settle m).time = s.time := hsettle.keeps .time (by decide)
  have hcur (u : State) : ((u.gateRefresh m).sch m).cur = (u.sch m).cur := by rw [State.gateRefresh, sch_setSch_same]
  refine ⟨(s.settle m).gateRefresh m, rfl, keeps_of_partMask (does_gateRefresh (M := partMask [.sched]) (by decide) hsettle), ?_, (hcur _).trans (settle_cur s m),
    fun k hk => (sch_gateRefresh_other _ hk).trans (settle_other s hk)⟩
  rw [gates_gateRefresh, gated_gatesAt_congr (hsettle.keeps .setup (by decide)) hpend hoper, htime]

/-- What a gate list governs, and the gates as they stand. -/
def gatesOf (x : SchInst) : Option GateList × Option GateList × Nat := (x.oper, x.pend, x.gates)

theorem gatesOf_setSch (s : State) (m k : Nat) {f : SchInst → SchInst} (h : ∀ x, gatesOf (f x) = gatesOf x) :
    gatesOf ((s.setSch m f).sch k) = gatesOf (s.sch k) := by
  by_cases hk : k = m
  · rw [hk, sch_setSch_same]
    exact h _
  · rw [sch_setSch_other s f hk]

/-- What changed gate lists bring to the sends leaves the lists and the gates. -/
theorem gatesOf_gateLists (s : State) (m k : Nat) : gatesOf ((s.gateLists m).sch k) = gatesOf (s.sch k) := by
  have hring (t : State) (n : Nat) : gatesOf ((State.retestRing t n).sch k) = gatesOf (t.sch k) := by
    rw [sch_congr ((does_retestRing (M := 0xe220582) (by decide) (does_refl _ t)).keeps .sched (by decide))]
  have hone (t : State) (c : Nat) : gatesOf ((State.stuckOne m t c).sch k) = gatesOf (t.sch k) := by
    have hset (g : Nat) : gatesOf ((t.setSch m (fun x => { x with stuck := x.stuck + g })).sch k) = gatesOf (t.sch k) :=
      gatesOf_setSch t m k (fun _ => rfl)
    unfold State.stuckOne
    dsimp only
    split
    · split
      · rfl
      · rw [sch_congr ((does_raise (M := 0xe220082) (by decide) (does_refl _ _)).keeps .sched (by decide))]
        exact hset _
    · split
      · exact gatesOf_setSch t m k (f := fun x => { x with stuck := x.stuck - 2 ^ c }) (fun _ => rfl)
      · rfl
  have hrings (l : List Nat) (t : State) : gatesOf ((l.foldl State.retestRing t).sch k) = gatesOf (t.sch k) :=
    foldl_keeps (g := fun v : State => gatesOf (v.sch k)) hring l t
  have hstuck (l : List Nat) (t : State) : gatesOf ((l.foldl (State.stuckOne m) t).sch k) = gatesOf (t.sch k) :=
    foldl_keeps (g := fun v : State => gatesOf (v.sch k)) hone l t
  unfold State.gateLists State.stuckCheck
  rw [hstuck, hrings]

/-- The pending list has become the operating one. -/
def listTaken (s : State) (m : Nat) (g : GateList) : State := (s.settle m).setSch m (fun x => { x with oper := some g, pend := none })

theorem listTaken_gives (s : State) (m : Nat) (g : GateList) : Does 0x1000 s (listTaken s m g) ∧ ((listTaken s m g).sch m).oper = some g ∧
    ((listTaken s m g).sch m).pend = none := by
  have hsettle := did_settle s m
  unfold listTaken
  generalize s.settle m = u at *
  refine ⟨does_setSch (by decide) hsettle, ?_⟩
  rw [sch_setSch_same]
  exact ⟨rfl, rfl⟩

/-- The gates are those of the new list at the present instant. -/
def listApplied (s : State) (m : Nat) (g : GateList) : State := (listTaken s m g).gateRefresh m

theorem listApplied_gives (s : State) (m : Nat) (g : GateList) : Does 0x1000 s (listApplied s m g) ∧ ((listApplied s m g).sch m).oper = some g ∧
    ((listApplied s m g).sch m).pend = none ∧ ((listApplied s m g).sch m).gates = ((listApplied s m g).gated m).gatesAt s.time.now := by
  obtain ⟨hset, h1, h2⟩ := listTaken_gives s m g
  unfold listApplied
  generalize listTaken s m g = u at *
  obtain ⟨hpend, hoper⟩ := lists_gateRefresh u m m
  have hrefresh : Does 0x1000 u (u.gateRefresh m) := does_gateRefresh (by decide) (does_refl _ u)
  have htime : u.time = s.time := hset.keeps .time (by decide)
  refine ⟨does_trans hset hrefresh, hoper.trans h1, hpend.trans h2, ?_⟩
  rw [gates_gateRefresh, gated_gatesAt_congr (hrefresh.keeps .setup (by decide)) hpend hoper, htime]

theorem exec_gclApplied {s : State} {m : Fin 16} {g : GateList} (h : (s.sch m).pend = some g) :
    exec (.gclApplied m) s = .next (((listApplied s m g).raise .gclApplied (le 1 m.val ++ le 8 (time64Of g.start))).gateLists m) := by
  refine congrArg Host.Outcome.next ?_
  rw [h]
  rfl

theorem gclApplied_gives {s : State} {m : Fin 16} {g : GateList} (h : (s.sch m).pend = some g) : Gives (.gclApplied m) s (fun t =>
    (t.sch m).oper = some g ∧ (t.sch m).pend = none ∧ (t.sch m).gates = (t.gated m).gatesAt s.time.now ∧
    Reports .gclApplied (le 1 m.val ++ le 8 (time64Of g.start)) s t) := by
  obtain ⟨hd, hoper, hpend, hgates⟩ := listApplied_gives s m g
  refine ⟨_, exec_gclApplied h, ?_⟩
  generalize listApplied s m g = u at *
  have hraise : Does 0xe220082 u (u.raise .gclApplied (le 1 m.val ++ le 8 (time64Of g.start))) := does_raise (by decide) (does_refl _ u)
  have hrep := reports_of_emits (emits_raise u .gclApplied (le 1 m.val ++ le 8 (time64Of g.start)))
  generalize u.raise .gclApplied (le 1 m.val ++ le 8 (time64Of g.start)) = v at *
  have hlists : Does 0xe221582 v (v.gateLists m) := does_gateLists (by decide) (does_refl _ v)
  have hkept := gatesOf_gateLists v m m
  generalize v.gateLists m = t at *
  have hsame : gatesOf (t.sch m) = gatesOf (u.sch m) := by rw [hkept, sch_congr (hraise.keeps .sched (by decide))]
  obtain ⟨ho, hp, hg⟩ : (t.sch m).oper = (u.sch m).oper ∧ (t.sch m).pend = (u.sch m).pend ∧ (t.sch m).gates = (u.sch m).gates := by
    simpa [gatesOf] using hsame
  refine ⟨ho.trans hoper, hp.trans hpend, ?_, reports_before hd.out (reports_after hrep hlists.out)⟩
  rw [hg, hgates, gated_gatesAt_congr ((hlists.keeps .setup (by decide)).trans (hraise.keeps .setup (by decide))) hp ho]

/-! ### Link idle (R143, R201, R202) -/

theorem txEarlyWake_gives {s : State} {m : Fin 16} (hi : (s.mac m).txLpi = true ∨ (s.mac m).entering.isSome = true) (hw : (s.sch m).wakeReq = none)
    (ho : ∃ c < 8, s.opensSoon m c = true) : Gives (.txEarlyWake m) s (Counts .txEarlyWake 0 m 1
      ((s.setSch m (fun x => { x with wakeReq := some s.time.elapsed })).setMac m (fun x => { x with entering := none }))) := by
  obtain ⟨c, hc, hopen⟩ := ho
  have hany : (List.range 8).any (s.opensSoon m) = true := List.any_eq_true.mpr ⟨c, List.mem_range.mpr hc, hopen⟩
  have hwake : s.wakeLink m = (s.setSch m (fun x => { x with wakeReq := some s.time.elapsed })).setMac m (fun x => { x with entering := none }) :=
    if_pos ⟨hi, hw⟩
  refine ⟨(s.wakeLink m).count .txEarlyWake m, congrArg Host.Outcome.next (if_pos ⟨hi, hw, hany⟩), ?_⟩
  rw [hwake]
  exact countN_counts _ .txEarlyWake 0 m 1 (by rw [cls_key_code (by decide) (lt_trans m.isLt (by decide))]; decide)

theorem exec_lpiEntry_closes {s : State} {m : Fin 16} {t0 len : Nat} (hi : s.lpiIdles m = true) (hw : (s.sch m).idle = some (t0, len))
    (ht : t0 + len ≤ s.time.elapsed) : exec (.lpiEntry m false) s = .next ((s.setMac m (fun x =>
      { x with entering := some (s.time.elapsed + (Config.lpiSleep (s.rate m / 1000) x.fec).toNat * uNs) })).setSch m
        (fun x => { x with idle := none, wakeReq := none })) :=
  congrArg Host.Outcome.next (if_pos (c := s.lpiIdles m = true ∧ (s.sch m).idle.any (fun w => decide (w.1 + w.2 ≤ s.time.elapsed)) = true)
    ⟨hi, by rw [hw]; exact decide_eq_true ht⟩)

theorem exec_lpiEntry_far {s : State} {m : Fin 16} (hu : (s.mac m).link = .up) (hc : (s.mac m).lpiCap = true) (hr : (s.mac m).rxLpi = false) :
    exec (.lpiEntry m true) s = .next (s.setMac m (fun x => { x with rxLpi := true, rxLpiAt := s.time.elapsed })) :=
  congrArg Host.Outcome.next (if_pos (c := (s.mac m).link = .up ∧ (s.mac m).lpiCap = true ∧ (s.mac m).rxLpi = false) ⟨hu, hc, hr⟩)

/-! ### The end of entry signalling -/

/-- A walk over distinct elements, where what the others do is kept: one element's own step stands between. -/
theorem foldl_around {α σ : Type} {f : σ → α → σ} {R : σ → σ → Prop} (hr : ∀ s, R s s) (ht : ∀ s t u, R s t → R t u → R s u) {x : α}
    {l : List α} (hf : ∀ s, ∀ y ∈ l, y ≠ x → R s (f s y)) (hn : l.Nodup) (hx : x ∈ l) (s : σ) : ∃ u, R s u ∧ R (f u x) (l.foldl f s) := by
  have hrest (r : List α) (hl : ∀ y ∈ r, y ∈ l) (h : x ∉ r) (t : σ) : R t (r.foldl f t) := by
    induction r generalizing t with
    | nil => exact hr t
    | cons b r ih =>
      rw [List.mem_cons, not_or] at h
      exact ht _ _ _ (hf t b (hl b List.mem_cons_self) (Ne.symm h.1)) (ih (fun y hy => hl y (List.mem_cons_of_mem _ hy)) h.2 _)
  obtain ⟨a, b, rfl⟩ := List.append_of_mem hx
  rw [List.nodup_append] at hn
  obtain ⟨-, hb, hd⟩ := hn
  refine ⟨a.foldl f s, hrest a (fun y hy => List.mem_append_left _ hy) (fun h => hd x h x List.mem_cons_self rfl) s, ?_⟩
  rw [List.foldl_append, List.foldl_cons]
  exact hrest b (fun y hy => List.mem_append_right _ (List.mem_cons_of_mem _ hy)) (List.nodup_cons.mp hb).1 _

/-- What one instance's link idle rests on, and its count of entries. -/
def Aside (m : Nat) (s t : State) : Prop :=
  t.mac m = s.mac m ∧ t.time = s.time ∧
  tget t.tally.count (tallyKey Ctr.txLpiEntries.code 0 m) = tget s.tally.count (tallyKey Ctr.txLpiEntries.code 0 m)

theorem aside_trans {m : Nat} {s t u : State} (h : Aside m s t) (k : Aside m t u) : Aside m s u := by
  obtain ⟨h1, h2, h3⟩ := h
  obtain ⟨k1, k2, k3⟩ := k
  exact ⟨k1.trans h1, k2.trans h2, k3.trans h3⟩

/-- Entry signalling ends: the link is in LPI, before it is counted. -/
def lpiEntered (s : State) (m : Nat) : State := s.setMac m (fun x => { x with txLpi := true, entering := none, lpiAt := s.time.elapsed })

theorem lpiTick_enters {s : State} {m e : Nat} (h : (s.mac m).entering = some e) (ht : e ≤ s.time.elapsed) :
    s.lpiTick m = (lpiEntered s m).count .txLpiEntries m := by
  unfold State.lpiTick
  rw [h]
  exact if_pos ht

/-- Link idle of another instance leaves an instance alone. -/
theorem aside_lpiTick {m k : Nat} (hm : m < 2 ^ 12) (s : State) (hk : k ≠ m) (hk' : k < 2 ^ 12) : Aside m s (s.lpiTick k) := by
  have hsched (F : SchInst → SchInst) : Aside m s (s.setSch k F) := ⟨rfl, rfl, rfl⟩
  cases he : (s.mac k).entering with
  | some e =>
    by_cases ht : e ≤ s.time.elapsed
    · rw [lpiTick_enters he ht]
      have hmac : (lpiEntered s k).mac m = s.mac m := mac_setMac_other s _ (Ne.symm hk)
      have htime : (lpiEntered s k).time = s.time := rfl
      have htally : (lpiEntered s k).tally = s.tally := rfl
      generalize lpiEntered s k = u at *
      have hc := countN_counts u .txLpiEntries 0 k 1 (by rw [cls_key_code (by decide) hk']; decide)
      have hne : tallyKey Ctr.txLpiEntries.code 0 m ≠ tallyKey Ctr.txLpiEntries.code 0 k := by
        unfold tallyKey
        omega
      refine ⟨(mac_congr (hc.toFlags.keeps .macs (by decide)) m).trans hmac, (hc.toFlags.keeps .time (by decide)).trans htime, ?_⟩
      exact (hc.others _ hne (by rw [cls_key_code (by decide) hm]; decide)).trans (by rw [htally])
    · have hstay : s.lpiTick k = s := by
        unfold State.lpiTick
        rw [he]
        exact if_neg ht
      rw [hstay]
      exact ⟨rfl, rfl, rfl⟩
  | none =>
    unfold State.lpiTick
    rw [he]
    dsimp only
    split
    · split
      · exact ⟨rfl, rfl, rfl⟩
      · exact hsched _
    · split
      · exact hsched _
      · exact ⟨rfl, rfl, rfl⟩

/-- In a J-cycle that begins, entry signalling that has come to its end leaves the link in LPI, counted. -/
theorem lpiTicks_enters {s : State} {m : Fin 16} {e : Nat} (h : (s.mac m).entering = some e) (ht : e ≤ s.time.elapsed) :
    (s.lpiTicks.mac m).txLpi = true ∧ (s.lpiTicks.mac m).entering = none ∧ Counted .txLpiEntries 0 m 1 s s.lpiTicks := by
  have hm : m.val < 2 ^ 12 := lt_trans m.isLt (by decide)
  obtain ⟨u, ⟨hmac, htime, hcount⟩, kmac, -, kcount⟩ := foldl_around (R := Aside m) (f := State.lpiTick) (fun _ => ⟨rfl, rfl, rfl⟩) (fun _ _ _ => aside_trans)
    (fun t k hk hne => aside_lpiTick hm t hne (lt_trans (List.mem_range.mp hk) (by decide))) List.nodup_range (mem_range16 m.isLt) s
  rw [lpiTick_enters (s := u) (by rw [hmac]; exact h) (by rw [htime]; exact ht)] at kmac kcount
  have hin : ((lpiEntered u m).mac m).txLpi = true ∧ ((lpiEntered u m).mac m).entering = none := by
    unfold lpiEntered
    rw [mac_setMac_same]
    exact ⟨rfl, rfl⟩
  have htally : (lpiEntered u m).tally = u.tally := rfl
  have hflags : Flags (lpiEntered u m) ((lpiEntered u m).count .txLpiEntries m) := flags_count _ _ (flags_refl _)
  have hc := counted_countN (lpiEntered u m) .txLpiEntries (cls := 0) (obj := m) 1 (by decide) hm
  rw [mac_congr (hflags.keeps .macs (by decide))] at kmac
  unfold State.lpiTicks
  generalize (List.range 16).foldl State.lpiTick s = t at *
  generalize lpiEntered u m = v at *
  unfold Counted at hc ⊢
  rw [kmac, kcount]
  exact ⟨hin.1, hin.2, by rw [← hcount, ← htally]; exact hc⟩

/-! ### The rest of a J-cycle -/

/-- Enrolments, and adjustments of time, count nothing. -/
theorem codesKept_enrolEnds (s : State) : CodesKept [.evrLost] s s.enrolEnds := by
  refine codesKept_foldl _ _ (fun t f _ => ?_)
  unfold State.enrolEnd
  split
  · unfold State.enrolDone
    extract_lets tag sticky s1
    exact codesKept_trans (codesKept_trans (codesKept_does (m := 0x80) (does_setFn (by decide) (does_refl _ t))) (codesKept_raise _ _ _)) (codesKept_mbxReply _ _ _ _)
  · exact codesKept_refl _ t

theorem codesKept_jump (s : State) (d : Nat) : CodesKept [.evrLost] s (s.jump d) := by
  unfold State.jump
  extract_lets x
  refine codesKept_trans (codesKept_trans (codesKept_does (m := 0x1004) ?_) (codesKept_raise _ _ _)) (codesKept_does (m := 0x1000) (does_gatesRefresh (by decide) (does_refl _ _)))
  exact does_onSched (by decide) (does_onTime (by decide) (does_refl _ s))

theorem elapsed_jump (s : State) (d : Nat) : (s.jump d).time.elapsed = s.time.elapsed := by
  have hraise (t : State) (b : Bytes) : (t.raise .timeStepped b).gatesRefresh.time = t.time :=
    (does_gatesRefresh (M := 0xe221082) (by decide) (does_raise (by decide) (does_refl _ t))).keeps .time (by decide)
  unfold State.jump
  dsimp only
  rw [hraise]
  rfl

/-- The adjustments that fall due leave the elapsed time, and count nothing. -/
theorem takeDue_gives (s : State) : s.takeDue.time.elapsed = s.time.elapsed ∧ CodesKept [.evrLost] s s.takeDue := by
  have hone (t : State) (a : Nat × Int) : (t.takeEffect a).time.elapsed = t.time.elapsed ∧ CodesKept [.evrLost] t (t.takeEffect a) := by
    unfold State.takeEffect
    split
    · exact ⟨rfl, codesKept_of_count rfl⟩
    · exact ⟨elapsed_jump t _, codesKept_jump t _⟩
  refine ⟨(foldl_keeps (g := fun v : State => v.time.elapsed) (fun t a => (hone t a).1) s.time.due _).trans rfl, ?_⟩
  exact codesKept_trans (t := s.onTime (fun t => { t with due := [] })) (codesKept_of_count rfl) (codesKept_foldl _ _ (fun t a _ => (hone t a).2))

theorem advanceTime_gives (s : State) : s.time.elapsed ≤ s.advanceTime.time.elapsed ∧ CodesKept [.evrLost] s s.advanceTime := by
  obtain ⟨he, hk⟩ := takeDue_gives (State.clockOn s)
  have hclock : Does 0x40004 s (State.clockOn s) := does_onTime (by decide) (does_fillSlot (by decide) (does_refl _ s))
  refine ⟨?_, ?_⟩
  · rw [time_advanceTime]
    split
    · rw [he, time_clockOn]
      exact Nat.le_add_right _ _
    · exact le_refl _
  · have hmoves : CodesKept [.evrLost] s (State.clockOn s).takeDue.lineMoves :=
      codesKept_trans (codesKept_does hclock) (codesKept_trans hk (codesKept_does (m := 0x8040000) (does_lineMoves (by decide) (does_refl _ _))))
    have hrtc (u : State) (h : CodesKept [.evrLost] s u) : CodesKept [.evrLost] s (if s.power.mode = .off then u else u.onRtc rtcOn) :=
      codesKept_ite h (codesKept_trans h (codesKept_does (m := 8) (does_onRtc (by decide) (does_refl _ u))))
    rw [advanceTime_eq]
    exact hrtc _ (codesKept_ite hmoves (codesKept_refl _ s))

theorem codesKept_healthTick (s : State) : CodesKept [.evrLost] s s.healthTick := by
  have hrow (f : LogSt → LogSt) (r : LogRec) : CodesKept [.evrLost] s ((s.onLog f).logRow r) :=
    codesKept_trans (t := s.onLog f) (codesKept_of_count rfl) (codesKept_of (countsKept_logRow _ _))
  unfold State.healthTick
  exact codesKept_ite (codesKept_refl _ s) (codesKept_ite (hrow _ _) (codesKept_ite (hrow _ _) (codesKept_refl _ s)))

/-- A J-cycle that begins at or after the end of entry signalling counts the entry. -/
theorem tick_enters {s : State} {m : Fin 16} {e : Nat} (h : (s.mac m).entering = some e) (ht : e ≤ s.time.elapsed) :
    (s.tick.mac m).txLpi = true ∧ (s.tick.mac m).entering = none ∧ Counted .txLpiEntries 0 m 1 s s.tick := by
  have hm : m.val < 2 ^ 12 := lt_trans m.isLt (by decide)
  have henrol := did_enrolEnds s
  have henrolK := codesKept_enrolEnds s
  rw [tick_eq]
  generalize s.enrolEnds = u at *
  obtain ⟨hle, hclockK⟩ := advanceTime_gives u
  have hclock : Does 0xe26108e u u.advanceTime := does_advanceTime (by decide) (does_refl _ u)
  generalize u.advanceTime = v at *
  have hmac : v.mac m = s.mac m := (mac_congr (hclock.keeps .macs (by decide)) m).trans (mac_congr (henrol.keeps .macs (by decide)) m)
  have htime : u.time = s.time := henrol.keeps .time (by decide)
  obtain ⟨h1, h2, h3⟩ := lpiTicks_enters (s := v) (m := m) (by rw [hmac]; exact h) (le_trans ht (by rw [← htime]; exact hle))
  unfold afterClocks
  generalize v.lpiTicks = w at *
  have hlate : Does 0x600000 w w.idleTick.latchTick := does_latchTick (by decide) (does_idleTick (by decide) (does_refl _ w))
  have hrest : Does 0xe620082 w w.idleTick.latchTick.healthTick := does_healthTick (by decide) (does_mono hlate (by decide))
  rw [mac_congr (hrest.keeps .macs (by decide))]
  exact ⟨h1, h2, counted_mid (by decide) hm (codesKept_trans henrolK hclockK) h3 (codesKept_trans (codesKept_does hlate) (codesKept_healthTick _))⟩

/-- Settles O40: each command's own lemma above. -/
theorem framesDepartUnderTheirGates : Obligations.FramesDepartUnderTheirGates :=
  ⟨fun _ _ _ hc hh hv hcls hfn hr => frameDeparture_gives hc hh hv hcls hfn hr, fun s m => gateEvent_gives s m, fun _ _ _ h => gclApplied_gives h,
    fun _ _ hi hw ho => txEarlyWake_gives hi hw ho, fun _ _ _ _ hi hw ht => exec_lpiEntry_closes hi hw ht, fun _ _ hu hc hr => exec_lpiEntry_far hu hc hr,
    fun s _ _ hp he ht => ⟨s.tick, by rw [step, hp], tick_enters he ht⟩⟩

end Sys2Proof.Proofs
end

section
/-! Descriptors on their way, and O38: the clause on a failed check does not hold of every state. -/
namespace Sys2Proof.Proofs
open Sys2Proof Sys2Proof.Machine Sys2Proof.Laws
set_option Elab.async false -- one thread, within the memory of the check

/-! ### A state in which a failed check counts twice

The table of transmit rings lists ring 0 twice. Behind the failed descriptor stands a whole send outside the fences: its violation
quarantines the function, whose eviction takes the first entry away. The second entry then stands for the ring; it belongs to a number
that is no function, and the violation of its own send is counted under the key of the ring's failed checks. -/

/-- A send of one descriptor of one byte, outside every fence. -/
def unfenced (pos : Nat) : TxDesc :=
  { pos := pos, addr := 0, len := 1, flags := 1, tci := 0, mss := 0, l3 := 0, l4 := 0, hdr := 0, sendLen := 1, cookie := 0, rsv := false, ok := true }

/-- A number whose violations are counted under the key of ring 0's failed checks. -/
def keyFn : Nat := (Ctr.txRingCheckFail.code - Ctr.fenceViolation.code) * 2 ^ 15

/-- A message of ring 0 whose check does not verify. -/
def badMsg : Cvu := { msg := { fn := 0, kind := .tx 0 1, data := [] }, reg := 1 }

/-- Function 0 is one violation short of quarantine. -/
def nearLimit (s : State) (n : FnSt) : FnSt := { n with state := .enrolled, fenceWin := s.second, fenceN := s.fenceLimitLimit 0 - 1 }

def twoEntries : State :=
  ((State.reset.setFn 0 (nearLimit State.reset)).onTx (fun _ => [(0, { TxRing.init with state := .active, cur := [unfenced 0] }),
    (0, { TxRing.init with fn := keyFn, cur := [unfenced 1] })])).onHost (fun h => { h with units := [(0, badMsg)] })

/-- The failed checks of ring 0, in the state that a command leaves. -/
def failsAfter (c : Instr) (s : State) : Nat :=
  match exec c s with
  | .next t => tget t.tally.count (tallyKey Ctr.txRingCheckFail.code 0 0)
  | _ => 0

theorem failsAfter_next {c : Instr} {s t : State} (h : exec c s = .next t) :
    failsAfter c s = tget t.tally.count (tallyKey Ctr.txRingCheckFail.code 0 0) := by
  unfold failsAfter
  rw [h]

theorem twoEntries_unit : Tbl.find twoEntries.host.units 0 = some badMsg := rfl

/-- One failed check moves the counter by two. -/
theorem twoEntries_fails : tget twoEntries.tally.count (tallyKey Ctr.txRingCheckFail.code 0 0) = 0 ∧ failsAfter (.checkDone 0) twoEntries = 2 := by
  decide +kernel

/-- Refutes O38: where the table of rings lists a ring twice, a failed check counts twice. -/
theorem not_descriptorsAreFetchedCheckedAndTurnedIntoSends : ¬ Obligations.DescriptorsAreFetchedCheckedAndTurnedIntoSends := by
  rintro ⟨-, -, -, -, -, -, h, -⟩
  have hidle : twoEntries.idleEngine [2] = false := by decide +kernel
  obtain ⟨t, ht, -, hcount⟩ := (h twoEntries 0 badMsg 0 1 hidle twoEntries_unit rfl (by decide) (by decide)).1 (by decide)
  obtain ⟨hbefore, hafter⟩ := twoEntries_fails
  rw [failsAfter_next ht] at hafter
  unfold Counted at hcount
  rw [hafter, hbefore] at hcount
  exact absurd hcount (by decide)

end Sys2Proof.Proofs
end

section
/-! Supply loss, and O54: the clause on the release of a bulk reset does not hold of every state. -/
namespace Sys2Proof.Proofs
open Sys2Proof Sys2Proof.Machine Sys2Proof.Laws
set_option Elab.async false -- one thread, within the memory of the check

/-! ### What is reported where no event ring is made

Outside a brace, with no event ring made and no row marked, an event is reported and nothing follows from it. -/

/-- An event does nothing but report itself and write its row. -/
structure Calm (z : State) : Prop where
  rings  : z.events.rings = []
  braced : z.supply.braced = false
  bad    : z.log.badRows = []

theorem calm_congr {s t : State} (h : Calm s) (hr : t.events.rings = s.events.rings) (hb : t.supply.braced = s.supply.braced)
    (hl : t.log.badRows = s.log.badRows) : Calm t := ⟨hr.trans h.rings, hb.trans h.braced, hl.trans h.bad⟩

/-- From a calm state on, no event of a code is reported. -/
def Hush (c : Nat) (s t : State) : Prop := Calm s → Calm t ∧ ∃ l, t.out = s.out ++ l ∧ ∀ n b, Out.event c n b ∉ l

theorem hush_refl (c : Nat) (s : State) : Hush c s s := fun h => ⟨h, [], (List.append_nil _).symm, by simp⟩

theorem hush_trans {c : Nat} {s t u : State} (h : Hush c s t) (k : Hush c t u) : Hush c s u := by
  intro hs
  obtain ⟨ht, l, hl, hno⟩ := h hs
  obtain ⟨hu, r, hr, hno'⟩ := k ht
  refine ⟨hu, l ++ r, by rw [hr, hl, List.append_assoc], fun n b hin => ?_⟩
  rcases List.mem_append.mp hin with hin | hin
  · exact hno n b hin
  · exact hno' n b hin

theorem hush_ite {c : Nat} {s t u : State} {p : Prop} [Decidable p] (ht : Hush c s t) (hu : Hush c s u) : Hush c s (if p then t else u) := by
  split
  · exact ht
  · exact hu

theorem hush_foldl {α : Type} {c : Nat} {f : State → α → State} (h : ∀ t x, Hush c t (f t x)) (l : List α) (s : State) : Hush c s (l.foldl f s) := by
  induction l generalizing s with
  | nil => exact hush_refl c s
  | cons x l ih => exact hush_trans (h s x) (ih _)

/-- What leaves the supply, the Logbook, the events and the trace reports nothing. -/
theorem hush_same {c : Nat} {s t : State} (hr : t.events = s.events) (hb : t.supply = s.supply) (hl : t.log = s.log) (ho : t.out = s.out) :
    Hush c s t :=
  fun h => ⟨calm_congr h (by rw [hr]) (by rw [hb]) (by rw [hl]), [], by rw [ho, List.append_nil], by simp⟩

theorem hush_does {c m : Nat} {s t : State} (h : Does m s t)
    (hm : m.testBit 21 = false ∧ m.testBit 25 = false ∧ m.testBit 26 = false ∧ m.testBit 27 = false := by decide) : Hush c s t :=
  hush_same (h.keeps .events hm.2.2.1) (h.keeps .supply hm.1) (h.keeps .log hm.2.1) (h.keeps .out hm.2.2.2)

/-- A stage number of the start reports nothing. -/
theorem hush_onLog {c : Nat} (s : State) {f : LogSt → LogSt} (h : ∀ l, (f l).badRows = l.badRows) : Hush c s (s.onLog f) :=
  fun hs => ⟨calm_congr hs rfl rfl (h s.log), [], (List.append_nil _).symm, by simp⟩

/-! ### An event in a calm state -/

/-- A row that is accepted, or dropped by the rate of R366, leads to nothing. -/
theorem acceptRow_calm {z : State} (h : Calm z) (r : LogRec) :
    Calm (acceptRow z r).1 ∧ (acceptRow z r).1.out = z.out ∧ (acceptRow z r).2 = [] := by
  have hrate : Calm (rateTest z r).1 ∧ (rateTest z r).1.out = z.out := by
    unfold rateTest
    extract_lets n
    split
    · split
      · exact ⟨calm_congr h rfl rfl rfl, rfl⟩
      · exact ⟨calm_congr h rfl rfl rfl, rfl⟩
    · exact ⟨h, rfl⟩
  obtain ⟨hcalm, hout⟩ := hrate
  unfold acceptRow
  extract_lets t
  have ht : t = rateTest z r := rfl
  rw [← ht] at hcalm hout
  split
  · rw [h.braced]
    have hrow : runRow t.1 r = (rowWrite t.1 r, []) := by
      unfold runRow
      rw [hcalm.bad]
      exact if_neg (by simp)
    rw [if_neg (by decide), hrow]
    exact ⟨calm_congr hcalm rfl rfl rfl, hout, rfl⟩
  · exact ⟨hcalm, hout, rfl⟩

theorem runEv_calm {z : State} (h : Calm z) (e : Ev) (b : Bytes) :
    Calm (runEv z e b).1 ∧ (runEv z e b).1.out = z.out ++ [.event e.code z.time64 b] ∧ ((runEv z e b).2 = [] ∨ (runEv z e b).2 = [.row (evRow z e b)]) := by
  have halert : Calm (alerted z e b) ∧ (alerted z e b).out = z.out ++ [.event e.code z.time64 b] := by
    unfold alerted
    extract_lets s1
    split
    · exact ⟨calm_congr h rfl rfl rfl, rfl⟩
    · exact ⟨calm_congr h rfl rfl rfl, rfl⟩
  have hrun : runEv z e b = ((if e.logOnly then (alerted z e b, []) else evrAll (alerted z e b) e b).1,
      (if e.logOnly then (alerted z e b, []) else evrAll (alerted z e b) e b).2 ++ (if e.logged then [Eff.row (evRow z e b)] else [])) := rfl
  rw [hrun, evrAll_unused halert.1.rings, ite_self]
  refine ⟨halert.1, halert.2, ?_⟩
  cases e.logged with
  | true => exact .inr rfl
  | false => exact .inl rfl

/-- A calm state reports the event that is raised, and no other. -/
theorem raise_calm {z : State} (h : Calm z) (e : Ev) (b : Bytes) : Calm (z.raise e b) ∧ (z.raise e b).out = z.out ++ [.event e.code z.time64 b] := by
  obtain ⟨hcalm, hout, heff⟩ := runEv_calm h e b
  have hfirst : z.raise e b = runEffs (effFuel - 1) ((runEv z e b).2 ++ []) (runEv z e b).1 := rfl
  rw [hfirst]
  generalize (runEv z e b).1 = u at *
  rcases heff with heff | heff
  · rw [heff]
    exact ⟨hcalm, hout⟩
  · obtain ⟨hc, ho, hnil⟩ := acceptRow_calm hcalm (evRow z e b)
    have hsecond : runEffs (effFuel - 1) ([.row (evRow z e b)] ++ []) u = runEffs (effFuel - 2) ((acceptRow u (evRow z e b)).2 ++ []) (acceptRow u (evRow z e b)).1 := rfl
    rw [heff, hsecond, hnil]
    exact ⟨hc, ho.trans hout⟩

theorem hush_raise {c : Nat} (s : State) {e : Ev} (b : Bytes) (h : e.code ≠ c) : Hush c s (s.raise e b) := by
  intro hs
  obtain ⟨hcalm, hout⟩ := raise_calm hs e b
  refine ⟨hcalm, _, hout, fun n x hin => ?_⟩
  rw [List.mem_singleton] at hin
  exact h (Out.event.inj hin).1.symm

/-! ### The Foreman's refresh -/

theorem hush_knobUpdate {c : Nat} (hc : Ev.policyClamp.code ≠ c) (he : Ev.policyClampEnd.code ≠ c) (r : Nat → Bool) (s : State) (k : Nat) :
    Hush c s (State.knobUpdate r s k) := by
  have hset (f : KnobSt → KnobSt) : Hush c s (s.setKnob k f) := hush_does (m := 0x800000) (does_setKnob (by decide) (does_refl _ s))
  unfold State.knobUpdate
  extract_lets q pin back loop e a cut clamped moved report again s1
  exact hush_ite (hush_trans (hset _) (hush_raise s1 _ hc)) (hush_ite (hush_trans (hset _) (hush_raise s1 _ he)) (hset _))

/-- Bringing the knobs up to date reports clamps alone. -/
theorem hush_fmRefresh {c : Nat} (hc : Ev.policyClamp.code ≠ c) (he : Ev.policyClampEnd.code ≠ c) (s : State) (r : Nat → Bool) :
    Hush c s (s.fmRefresh r) := by
  have hknobs := hush_foldl (hush_knobUpdate hc he r) (List.range 28) s
  unfold State.fmRefresh
  extract_lets s1 s2 s3
  have h2 : Hush c s s2 := hush_ite (hush_trans hknobs (hush_does (m := 0x400000) (does_dvfsSync (by decide) (does_refl _ s1)))) hknobs
  have h3 : Hush c s s3 := hush_trans h2 (hush_does (m := 0x400000) (does_ceilingApply (by decide) (does_refl _ s2)))
  exact hush_trans h3 (hush_does (m := 0x500000) (does_domainSync (by decide) (does_refl _ s3)))

/-! ### A set without words on a sled with the reset set-up -/

theorem withSet_empty (s : State) : s.withSet (imageSet []) = s := rfl

theorem wrote_empty (k m : Nat) : (imageSet []).wrote k m = false := rfl

theorem wroteIn_empty (a b : Nat) : (imageSet []).wroteIn a b = false := rfl

theorem foldl_same {α σ : Type} {f : σ → α → σ} {s : σ} {l : List α} (h : ∀ x ∈ l, f s x = s) : l.foldl f s = s := by
  induction l with
  | nil => rfl
  | cons x l ih => rw [List.foldl_cons, h x List.mem_cons_self, ih (fun y hy => h y (List.mem_cons_of_mem x hy))]

/-- The set-up is at reset, and no function is present. -/
structure Blank (z : State) : Prop where
  active : z.setup.active = []
  absent : ∀ f, (z.fn f).state = .absent

theorem blank_congr {s t : State} (h : Blank s) (ha : t.setup.active = s.setup.active) (hf : ∀ f, (t.fn f).state = (s.fn f).state) : Blank t :=
  ⟨ha.trans h.active, fun f => (hf f).trans (h.absent f)⟩

/-- A field of the reset set-up. -/
theorem field_blank {z : State} (h : Blank z) (off lo n : Nat) : z.field off lo n = State.reset.field off lo n := by
  unfold State.field State.activeWord
  rw [h.active]
  rfl

theorem gates_blank {z : State} (h : Blank z) {m : Nat} (hm : m < 16) : z.schCtrlGateEn m ≠ 1 := by
  have hreset : ∀ m < 16, State.reset.schCtrlGateEn m ≠ 1 := by decide +kernel
  have heq : z.schCtrlGateEn m = State.reset.schCtrlGateEn m := field_blank h _ _ _
  rw [heq]
  exact hreset m hm

theorem pairMode_blank {z : State} (h : Blank z) : z.pairModeMode ≠ 1 := by
  have hreset : State.reset.pairModeMode ≠ 1 := by decide +kernel
  have heq : z.pairModeMode = State.reset.pairModeMode := field_blank h _ _ _
  rw [heq]
  exact hreset

theorem state_setFn (s : State) (k f : Nat) {g : FnSt → FnSt} (h : ∀ x, (g x).state = x.state) : ((s.setFn k g).fn f).state = (s.fn f).state := by
  by_cases hk : f = k
  · rw [hk, fn_setFn_same, h]
  · rw [fn_setFn_other s g hk]

theorem states_settleAll (s : State) (f : Nat) : (s.settleAll.fn f).state = (s.fn f).state := by
  have hsettle (t : State) (m : Nat) : ((t.settle m).fn f).state = (t.fn f).state := by
    rw [show (t.settle m).fn f = t.fn f from congrArg (fun l => Tbl.get (fun _ => FnSt.init) l f) ((did_settle t m).keeps .fns (by decide))]
  have h1 (l : List Nat) (t : State) : ((l.foldl State.settle t).fn f).state = (t.fn f).state :=
    foldl_keeps (g := fun v : State => (v.fn f).state) hsettle l t
  have h2 (l : List Nat) (t : State) :
      ((l.foldl (fun t k => t.setFn k (fun q => { q with tbLevel := t.tokens k, tbAt := t.time.elapsed })) t).fn f).state = (t.fn f).state :=
    foldl_keeps (g := fun v : State => (v.fn f).state)
      (fun u k => state_setFn u k f (g := fun q => { q with tbLevel := u.tokens k, tbAt := u.time.elapsed }) (fun _ => rfl)) l t
  unfold State.settleAll
  dsimp only
  rw [h2, h1]

/-- The profile of an absent function changes a token level alone. -/
theorem applyProfile_absent {z : State} (h : Blank z) (f : Nat) : State.applyProfile (imageSet []) z f =
    z.setFn f (fun q => { q with tbLevel := min q.tbLevel (z.bucketFull f) }) := by
  have habsent : ((z.setFn f (fun q => { q with tbLevel := min q.tbLevel (z.bucketFull f) })).fn f).state = .absent :=
    (state_setFn z f f (g := fun q => { q with tbLevel := min q.tbLevel (z.bucketFull f) }) (fun _ => rfl)).trans (h.absent f)
  unfold State.applyProfile
  simp only [wrote_empty, Bool.or_self, Bool.false_eq_true, if_false]
  rw [habsent]

theorem blank_applyProfile {z : State} (h : Blank z) (f : Nat) : Blank (State.applyProfile (imageSet []) z f) := by
  rw [applyProfile_absent h]
  exact blank_congr h rfl (fun k => state_setFn z f k (g := fun q => { q with tbLevel := min q.tbLevel (z.bucketFull f) }) (fun _ => rfl))

/-- The profiles of absent functions report nothing. -/
theorem hush_profiles (c : Nat) (l : List Nat) {z : State} (h : Blank z) :
    Hush c z (l.foldl (State.applyProfile (imageSet [])) z) ∧ Blank (l.foldl (State.applyProfile (imageSet [])) z) ∧
    (l.foldl (State.applyProfile (imageSet [])) z).setup = z.setup := by
  induction l generalizing z with
  | nil => exact ⟨hush_refl c z, h, rfl⟩
  | cons f l ih =>
    obtain ⟨h1, h2, h3⟩ := ih (blank_applyProfile h f)
    have hone : Does 0x80 z (State.applyProfile (imageSet []) z f) := by
      rw [applyProfile_absent h]
      exact does_setFn (by decide) (does_refl _ z)
    exact ⟨hush_trans (hush_does hone) h1, h2, h3.trans (hone.keeps .setup (by decide))⟩

/-- A scheduler whose set-up stays and whose gates are off stays as it is. -/
theorem applySched_still {old z : State} (hs : z.setup = old.setup) {m : Nat} (hg : z.schCtrlGateEn m ≠ 1) :
    State.applySched (imageSet []) old z m = z := by
  have hcbs : old.schCtrlCbsEn m = z.schCtrlCbsEn m := (field_congr hs _ _ _).symm
  have hen : z.schCtrlGateEn m = old.schCtrlGateEn m := field_congr hs _ _ _
  have hcredit : (List.range 8).foldl (fun t c =>
      if bit (t.schCtrlCbsEn m) c ∧ bit (old.schCtrlCbsEn m) c = false then t.setCredit m c 0 else t) z = z := by
    refine List.foldl_fixed' (fun c => ?_) _
    rw [hcbs]
    exact if_neg (fun h => by simp [h.2] at h)
  unfold State.applySched
  rw [hcredit]
  dsimp only
  rw [wroteIn_empty, wroteIn_empty, wrote_empty, decide_eq_false hg]
  exact if_pos hen

/-- Applying a set without words reports clamps of knobs alone. -/
theorem hush_applySet {c : Nat} (hc : Ev.policyClamp.code ≠ c) (he : Ev.policyClampEnd.code ≠ c) {z : State} (h : Blank z) :
    Hush c z (z.applySet (imageSet [])) := by
  have hbifurcate : (List.range 4).foldl (fun t n => t.applyBifurcate (z.withSet (imageSet [])) n) z = z := by
    refine List.foldl_fixed' (fun n => ?_) _
    rw [withSet_empty]
    exact if_pos rfl
  have hsettle : Does 0x1080 z z.settleAll := does_settleAll (by decide) (does_refl _ z)
  have hset1 : z.settleAll.setup = z.setup := hsettle.keeps .setup (by decide)
  have hblank1 : Blank z.settleAll := blank_congr h (by rw [hset1]) (states_settleAll z)
  obtain ⟨hprof, hblank, hset2⟩ := hush_profiles c (List.range 64) hblank1
  unfold State.applySet
  dsimp only
  rw [hbifurcate, withSet_empty]
  generalize (List.range 64).foldl (State.applyProfile (imageSet [])) z.settleAll = u at *
  have hsetup : u.setup = z.setup := hset2.trans hset1
  have hsched : (List.range 16).foldl (State.applySched (imageSet []) z) u = u :=
    foldl_same (fun m hm => applySched_still hsetup (gates_blank hblank (List.mem_range.mp hm)))
  have hbreakout : (List.range 2).foldl (State.applyBreakout z) u = u :=
    foldl_same (fun p _ => if_pos (field_congr hsetup _ _ _))
  have henable : (List.range 16).foldl (State.applyEnable z) u = u :=
    foldl_same (fun m _ => if_pos (field_congr hsetup _ _ _))
  have hfirst : Hush c z u := hush_trans (hush_does hsettle) hprof
  rw [hsched, hbreakout, henable]
  have hpair : Hush c u u.applyPair := by
    unfold State.applyPair
    rw [if_neg (pairMode_blank hblank)]
    split
    · split
      · exact hush_ite (hush_does (m := 0xc0000) (does_onPairActs (by decide) (does_onPairActs (by decide) (does_refl _ u)))) (hush_refl c u)
      · exact hush_refl c u
    · exact hush_refl c u
  have hclock (t : State) : t.applyClock (imageSet []) = t := if_neg (by simp [wrote_empty])
  have htether (t : State) : Hush c t t.applyTether :=
    hush_ite (hush_does (m := 0x1000000) (does_tetherEnable (by decide) (does_refl _ t)))
      (hush_does (m := 0x1000000) (does_tetherDisable (by decide) (does_refl _ t)))
  have hstyle : Hush c u.applyPair u.applyPair.applyStyle :=
    hush_does (m := 0x500000) (does_applyStyle (by decide) (does_refl _ u.applyPair))
  have hlast (t : State) (k : Nat → Bool) (w : Nat → Bool) : Hush c t (((t.fmRefresh k).domainSync w).gatesRefresh.flowAll) :=
    hush_trans (hush_fmRefresh hc he t k)
      (hush_does (m := 0x507000) (does_flowAll (by decide) (does_gatesRefresh (by decide) (does_domainSync (by decide) (does_refl _ _)))))
  rw [hclock]
  refine hush_trans hfirst (hush_trans hpair (hush_trans hstyle ?_))
  exact hush_trans (htether _) (hlast _ _ _)

/-! ### Stage 4 on the odd copy -/

theorem blank_raise {z : State} (h : Blank z) (e : Ev) (b : Bytes) : Blank (z.raise e b) :=
  blank_congr h (by rw [(raise_parts z e b).1]) (flags_enrolled (flags_raise e b (flags_refl z)))

theorem blank_onTime {z : State} (h : Blank z) (f : TimeSt → TimeSt) : Blank (z.onTime f) := blank_congr h rfl (fun _ => rfl)

theorem blank_setSource {z : State} (h : Blank z) (src : TimeSource) : Blank (z.setSource src) := by
  unfold State.setSource
  split
  · exact h
  · exact blank_raise (blank_onTime h _) _ _

theorem hush_setSource {c : Nat} (hc : Ev.timeSourceChanged.code ≠ c) (z : State) (src : TimeSource) : Hush c z (z.setSource src) :=
  hush_ite (hush_refl c z) (hush_trans (hush_does (m := 4) (does_onTime (by decide) (does_refl _ z))) (hush_raise _ _ hc))

theorem hush_onSetup (c : Nat) (s : State) (f : SetupSt → SetupSt) : Hush c s (s.onSetup f) := hush_same rfl rfl rfl rfl

theorem hush_setupLock {c : Nat} (hc : Ev.setupLocked.code ≠ c) (z : State) : Hush c z z.setupLock :=
  hush_ite (hush_refl c z) (hush_trans (hush_onSetup c z _) (hush_raise _ _ hc))

/-- An image without words that is applied reports the commit, the lock and clamps of knobs. -/
theorem hush_imageEnds {c : Nat} (hc : Ev.policyClamp.code ≠ c ∧ Ev.policyClampEnd.code ≠ c ∧ Ev.commitApplied.code ≠ c ∧ Ev.setupLocked.code ≠ c)
    {z : State} (h : Blank z) (k : Nat) : Hush c z (z.imageEnds k (imageSet []) none).1 := by
  obtain ⟨hclamp, hend, hcommit, hlock⟩ := hc
  have hblank : Blank (z.onSetup (fun u => { u with staged := [], flowStaged := [] })) := blank_congr h rfl (fun _ => rfl)
  have happly := hush_trans (hush_onSetup c z _) (hush_applySet hclamp hend hblank)
  unfold State.imageEnds
  dsimp only
  generalize State.applySet _ _ = u at *
  have hraise := hush_trans (hush_trans happly (hush_onSetup c u (fun u => { u with appliedSeq := 0, seq := 0, state := .idle })))
    (hush_raise _ (le 2 0) hcommit)
  have hlog := hush_trans hraise (hush_onLog _ (f := fun l => { l with imgUsed := k, imgGen := z.copyGen k }) (fun _ => rfl))
  exact hush_ite (hush_trans hlog (hush_setupLock hlock _)) hlog

/-- Stage 4 applies the odd copy, so it does not report that there is none. -/
theorem hush_imageStage {n : Nat} {z : State} (h : Odd n z) (hn : 0 < n) (h8 : n < 800) (hb : Blank z) : Hush Ev.setupImageNone.code z z.imageStage := by
  have hstep {k : Nat} {t : State} (ht : Odd k t ∧ Blank t) (hk : 0 < k ∧ k < 900) (c : Nat) :
      ∃ m, 0 < m ∧ m ≤ k + 1 ∧ Odd m (if t.copyGood c then t else t.raise .setupImageFallback (le 1 c)) ∧
        Blank (if t.copyGood c then t else t.raise .setupImageFallback (le 1 c)) := by
    split
    · exact ⟨k, hk.1, by omega, ht⟩
    · exact ⟨k + 1, by omega, le_refl _, odd_raise ht.1 hk.2 rfl _, blank_raise ht.2 _ _⟩
  obtain ⟨k, hk0, hk1, hk⟩ := hstep ⟨h, hb⟩ ⟨hn, by omega⟩ 1
  obtain ⟨m, hm0, -, hm⟩ := hstep hk ⟨hk0, by omega⟩ 2
  have hfall := hush_foldl (c := Ev.setupImageNone.code)
    (f := fun t c => if t.copyGood c then t else t.raise .setupImageFallback (le 1 c))
    (fun t c => hush_ite (hush_refl _ t) (hush_raise t _ (by decide))) [1, 2] z
  unfold State.imageStage
  extract_lets s1 r
  obtain ⟨hs1, hb1⟩ : Odd m s1 ∧ Blank s1 := hm
  obtain ⟨l, hl⟩ := imageOrder_odd hs1 hm0
  obtain ⟨hdone, -⟩ := imageTry_odd hs1 hm0
  have hr : r = s1.imageTry 2 := by
    show s1.imageRun s1.imageOrder = _
    rw [hl]
    exact if_pos hdone
  have htry : s1.imageTry 2 = s1.imageEnds 2 (imageSet []) none := by
    rw [State.imageTry, copyWords_odd hs1 hm0]
    simp only [setFault_empty]
  rw [hr, if_pos hdone, htry]
  exact hush_trans hfall (hush_imageEnds (by decide) hb1 2)

/-- So a start in which both engines pass does not report it. -/
theorem hush_startRest {n : Nat} {z : State} (h : Odd n z) (hn : 0 < n) (h7 : n < 700) (hf : z.pair.fenced = false) (hb : Blank z) {test : SelfTest}
    (hA : test.passA = true) (hB : test.passB = true) : Hush Ev.setupImageNone.code z (z.startRest test false) := by
  have hstage (t : State) (x : Nat) : Hush Ev.setupImageNone.code t (t.onLog (fun l => { l with stage := x })) := hush_onLog t (fun _ => rfl)
  have hodd {t : State} {k : Nat} (ht : Odd k t) (x : Nat) : Odd k (t.onLog (fun l => { l with stage := x })) :=
    odd_congr ht rfl rfl rfl rfl rfl rfl rfl
  have hblank {t : State} (ht : Blank t) (x : Nat) : Blank (t.onLog (fun l => { l with stage := x })) := blank_congr ht rfl (fun _ => rfl)
  rw [startRest_paired hf hA hB, if_neg (by decide)]
  have himage := hush_imageStage (hodd (hodd h 2) 3) hn (by omega) (hblank (hblank hb 2) 3)
  exact hush_trans (hush_trans (hstage z 2) (hstage _ 3)) (hush_trans himage
    (hush_trans (hstage _ 4) (hush_fmRefresh (by decide) (by decide) _ _)))

/-! ### The release of the bulk reset -/

/-- The sled of the odd copy, held in a bulk reset. -/
def heldState : State := oddState.onSupply (fun x => { x with inReset := true })

/-- What the release leaves before device time restarts. -/
def letGo (s : State) : State :=
  ((s.onSupply (fun x => { x with inReset := false })).onPower (fun p => { p with mode := .run, exitFrom := .run })).onPair (fun _ => PairSt.init)

theorem bulkReleased_eq (s : State) (test : SelfTest) : s.bulkReleased test = (letGo s).timeRestart.startRest test false := by
  unfold State.bulkReleased letGo
  rfl

theorem letGo_parts (s : State) : (letGo s).events = s.events ∧ (letGo s).supply.braced = s.supply.braced ∧ (letGo s).log = s.log ∧
    (letGo s).setup = s.setup ∧ (letGo s).fns = s.fns ∧ (letGo s).time = s.time ∧ (letGo s).out = s.out ∧ (letGo s).pair = PairSt.init :=
  ⟨rfl, rfl, rfl, rfl, rfl, rfl, rfl, rfl⟩

theorem heldState_parts : heldState.events = oddState.events ∧ heldState.supply.braced = oddState.supply.braced ∧ heldState.log = oddState.log ∧
    heldState.supply.inReset = true := ⟨rfl, rfl, rfl, rfl⟩

theorem odd_heldState : Odd 0 heldState := odd_congr odd_oddState rfl rfl rfl rfl rfl rfl rfl

theorem blank_heldState : Blank heldState := ⟨rfl, fun _ => rfl⟩

theorem calm_of_odd {n : Nat} {z : State} (h : Odd n z) : Calm z := ⟨h.rings, h.braced, h.bad⟩

/-- The release reports no missing set-up image. -/
theorem hush_released {test : SelfTest} (hA : test.passA = true) (hB : test.passB = true) :
    Hush Ev.setupImageNone.code heldState (heldState.bulkReleased test) := by
  obtain ⟨he, hbr, hl, hset, hfns, ht, hout, hpair⟩ := letGo_parts heldState
  have hsrc : heldState.time.source ≠ .restored := by decide
  have hodd : Odd 0 (letGo heldState) := odd_congr odd_heldState (by rw [he]) hbr (by rw [hl]) (by rw [hl]) (by rw [hl]) (by rw [hl]) (by rw [hl])
  have hblank : Blank (letGo heldState) := blank_congr blank_heldState (by rw [hset]) (fun f => by rw [State.fn, hfns, State.fn])
  have hletGo : Hush Ev.setupImageNone.code heldState (letGo heldState) :=
    fun hc => ⟨calm_congr hc (by rw [he]) hbr (by rw [hl]), [], by rw [hout, List.append_nil], by simp⟩
  rw [bulkReleased_eq]
  rw [← ht] at hsrc
  generalize letGo heldState = u at *
  have hfen : u.timeRestart.pair.fenced = false := by
    rw [pair_timeRestart, hpair]
    rfl
  have htime : Hush Ev.setupImageNone.code u u.timeRestart := by
    rw [timeRestart_eq]
    exact hush_trans (hush_does (m := 4) (does_onTime (by decide) (does_refl _ u))) (hush_setSource (by decide) _ _)
  have hblank' : Blank u.timeRestart := by
    rw [timeRestart_eq]
    exact blank_setSource (blank_onTime hblank _) _
  have hodd' : Odd 1 u.timeRestart := odd_timeRestart hodd (by decide) hsrc
  have hrest : Hush Ev.setupImageNone.code u.timeRestart (u.timeRestart.startRest test false) :=
    hush_startRest hodd' (by decide) (by decide) hfen hblank' hA hB
  exact hush_trans hletGo (hush_trans htime hrest)

theorem exec_bulkResetRelease {s : State} (h : s.supply.inReset = true) (test : SelfTest) :
    exec (.bulkResetRelease test) s = .next (s.bulkReleased test) := congrArg Host.Outcome.next (if_pos h)

/-- Refutes O54: the last clause has no premise that the odd set-up image of `oddState` does not meet. Neither copy of it is good
before the release, but the event of the time source that the release brings completes one; stage 4 applies it, and
SETUP_IMAGE_NONE is not reported. -/
theorem not_supplyLossBracesResetsAndShutsDown : ¬ Obligations.SupplyLossBracesResetsAndShutsDown := by
  unfold Obligations.SupplyLossBracesResetsAndShutsDown
  rintro ⟨-, -, -, -, -, -, -, -, -, hrelease⟩
  obtain ⟨-, -, hl, hheld⟩ := heldState_parts
  obtain ⟨h1, h2⟩ := copyGood_oddLog odd_heldState hl
  obtain ⟨t, hstep, -, -, -, -, -, -, l, stamp, hout, hin⟩ := hrelease heldState ⟨true, true⟩ hheld rfl rfl h1 h2
  rw [exec_bulkResetRelease hheld] at hstep
  obtain ⟨-, r, hquiet, hno⟩ := hush_released (test := ⟨true, true⟩) rfl rfl (calm_of_odd odd_heldState)
  rw [Host.Outcome.next.inj hstep, hout] at hquiet
  exact hno stamp [] (List.append_cancel_left hquiet ▸ hin)

end Sys2Proof.Proofs
end

section
/-! Rails, the AO regulator and the backup cell: O55. -/
namespace Sys2Proof.Proofs
open Sys2Proof Sys2Proof.Machine Sys2Proof.Laws
set_option Elab.async false -- one thread, within the memory of the check

/-! ### What leaves the supply alone but for the records it defers -/

/-- The supply is as before but for the records it defers. -/
def SupplyKept (s t : State) : Prop := t.supply.sans = s.supply.sans

theorem supplyKept_refl (s : State) : SupplyKept s s := rfl

theorem supplyKept_trans {s t u : State} (h : SupplyKept s t) (k : SupplyKept t u) : SupplyKept s u := Eq.trans k h

theorem supplyKept_ite {s t u : State} {p : Prop} [Decidable p] (ht : SupplyKept s t) (hu : SupplyKept s u) : SupplyKept s (if p then t else u) := by
  split
  · exact ht
  · exact hu

theorem supplyKept_does {m : Nat} {s t : State} (h : Does m s t) (hm : m.testBit 21 = false := by decide) : SupplyKept s t :=
  congrArg SupplySt.sans (h.keeps .supply hm)

theorem supplyKept_raise (s : State) (e : Ev) (b : Bytes) : SupplyKept s (s.raise e b) := (flags_raise e b (flags_refl s)).supply

theorem supplyKept_foldl {α : Type} {f : State → α → State} (h : ∀ t x, SupplyKept t (f t x)) (l : List α) (s : State) :
    SupplyKept s (l.foldl f s) :=
  foldl_keeps (g := fun v : State => v.supply.sans) h l s

/-- The fields that are no deferred records. -/
theorem supplyKept_fields {s t : State} (h : SupplyKept s t) : t.supply.rails = s.supply.rails ∧ t.supply.mains = s.supply.mains ∧
    t.supply.cell = s.supply.cell ∧ t.supply.cellMv = s.supply.cellMv ∧ t.supply.cellLow = s.supply.cellLow ∧
    t.supply.cellLowAt = s.supply.cellLowAt := by
  unfold SupplyKept at h
  generalize t.supply = x at *
  generalize s.supply = y at *
  exact ⟨(congrArg SupplySt.rails h : x.sans.rails = y.sans.rails), (congrArg SupplySt.mains h : x.sans.mains = y.sans.mains),
    (congrArg SupplySt.cell h : x.sans.cell = y.sans.cell), (congrArg SupplySt.cellMv h : x.sans.cellMv = y.sans.cellMv),
    (congrArg SupplySt.cellLow h : x.sans.cellLow = y.sans.cellLow), (congrArg SupplySt.cellLowAt h : x.sans.cellLowAt = y.sans.cellLowAt)⟩

/-! ### A save that is abandoned -/

theorem supplyKept_retire (s : State) (row : Nat) : SupplyKept s (s.retire row) := by
  have hlog (t : State) (f : LogSt → LogSt) : SupplyKept t (t.onLog f) := rfl
  unfold State.retire
  extract_lets s1
  exact supplyKept_ite (supplyKept_trans (supplyKept_trans (hlog s _) (hlog s1 _)) (supplyKept_raise _ _ _))
    (supplyKept_trans (supplyKept_trans (hlog s _) (hlog s1 _)) (supplyKept_raise _ _ _))

theorem supplyKept_abandonSave (s : State) : SupplyKept s s.abandonSave := by
  have hrow (t : State) (row gen : Nat) (b : Bytes) : SupplyKept t (t.writeImageRow row gen b) :=
    supplyKept_does (does_writeImageRow (M := 0x2000000) (by decide) (does_refl _ t))
  unfold State.abandonSave
  split
  · unfold State.savedPart State.saveRows
    dsimp only
    refine supplyKept_trans (supplyKept_trans ?_ (supplyKept_foldl (fun t _ => hrow t _ _ _) _ _)) rfl
    exact supplyKept_trans (t := s.useFree) rfl (supplyKept_foldl supplyKept_retire _ _)
  · exact supplyKept_refl s

/-! ### Evictions and the host links -/

theorem supplyKept_beginEvict (s : State) (f cause : Nat) (keep : Bool) : SupplyKept s (s.beginEvict f cause keep) := by
  unfold State.beginEvict
  extract_lets s1 s2 s3
  have h1 : SupplyKept s s1 := supplyKept_ite (supplyKept_does (does_mbxReply (M := 0xc000080) (by decide) (does_refl _ s))) (supplyKept_refl s)
  have h2 : SupplyKept s1 s2 := supplyKept_ite (supplyKept_raise _ _ _) (supplyKept_refl s1)
  have h3 : SupplyKept s2 s3 := rfl
  have h4 : SupplyKept s3 (s3.dropFrames f) := (flags_countN .evictDrop 0 f (s3.copiesOf f) (flags_refl s3)).supply
  have h5 : SupplyKept (s3.dropFrames f) ((((((s3.dropFrames f).quietFrames f).dropReads f).dropRings f).flowAll).abortSnap f) :=
    supplyKept_does (does_abortSnap (M := 0x4007f02) (by decide) (does_flowAll (by decide) (does_dropRings (by decide)
      (does_dropReads (by decide) (does_quietFrames (by decide) (does_refl _ _))))))
  exact supplyKept_trans h1 (supplyKept_trans h2 (supplyKept_trans h3 (supplyKept_trans h4 h5)))

theorem supplyKept_endPresence (s : State) (f cause : Nat) (reset : Bool) : SupplyKept s (s.endPresence f cause reset) := by
  unfold State.endPresence
  extract_lets s1
  have h1 : SupplyKept s s1 := supplyKept_ite (supplyKept_does (does_mbxReset (M := 0x880) (by decide) (does_refl _ s))) (supplyKept_refl s)
  have hev := supplyKept_trans h1 (supplyKept_beginEvict s1 f cause false)
  have hab : SupplyKept s (s1.setFn f (fun n => { n with state := .absent })) := supplyKept_trans h1 rfl
  split
  · exact hev
  · exact hev
  · exact hab
  · exact hab
  · exact h1

theorem supplyKept_endAll (cause : Nat) (l : List Nat) (s : State) : SupplyKept s (s.endAll cause l) := by
  induction l generalizing s with
  | nil => exact supplyKept_refl s
  | cons f r ih => exact supplyKept_trans (supplyKept_trans (t := s.setFn f FnSt.configReset) rfl (supplyKept_endPresence _ f cause true)) (ih _)

theorem supplyKept_linkLost (s : State) (l : Nat) : SupplyKept s (s.linkLost l) := by
  unfold State.linkLost
  extract_lets k s1
  have h1 : SupplyKept s s1 := supplyKept_trans (supplyKept_trans (t := (s.setLink l (fun _ => LinkSt.init)).onLinkDown (fun t =>
    tput t (l / 2) (satAdd 32 (tget t (l / 2)) 1))) rfl (supplyKept_endAll 3 (s.linkFns l) _)) rfl
  exact supplyKept_ite (supplyKept_trans h1 (supplyKept_raise _ _ _)) (supplyKept_refl s)

theorem supplyKept_allLinksLost (s : State) : SupplyKept s s.allLinksLost := by
  have ht {u : State} (hu : SupplyKept s u) (l : Nat) : SupplyKept s (u.linkLost l) := supplyKept_trans hu (supplyKept_linkLost u l)
  exact ht (ht (ht (ht (ht (ht (ht (ht (supplyKept_refl s) 0) 1) 2) 3) 4) 5) 6) 7

/-! ### Faults of the pair

A fault leaves the supply alone, and nothing waits for the pair to settle that did not wait before. -/

/-- Nothing is held for the engines, and no role swap has fallen due. -/
def Unwaited (p : PairSt) : Prop := NoneHeld p ∧ p.swapDue = false

/-- The supply is kept, and the pair stays unwaited. -/
def FaultKept (s t : State) : Prop := SupplyKept s t ∧ (Unwaited s.pair → Unwaited t.pair)

theorem faultKept_refl (s : State) : FaultKept s s := ⟨supplyKept_refl s, id⟩

theorem faultKept_trans {s t u : State} (h : FaultKept s t) (k : FaultKept t u) : FaultKept s u :=
  ⟨supplyKept_trans h.1 k.1, fun hs => k.2 (h.2 hs)⟩

theorem faultKept_ite {s t u : State} {p : Prop} [Decidable p] (ht : FaultKept s t) (hu : FaultKept s u) : FaultKept s (if p then t else u) := by
  split
  · exact ht
  · exact hu

theorem faultKept_of {s t : State} (h : SupplyKept s t) (hp : t.pair = s.pair) : FaultKept s t := ⟨h, fun hs => hp ▸ hs⟩

theorem faultKept_does {m : Nat} {s t : State} (h : Does m s t) (hm : m.testBit 21 = false ∧ m.testBit 18 = false := by decide) : FaultKept s t :=
  faultKept_of (supplyKept_does h hm.1) (h.keeps .pair hm.2)

theorem faultKept_raise (s : State) (e : Ev) (b : Bytes) : FaultKept s (s.raise e b) := faultKept_of (supplyKept_raise s e b) (pair_raise s e b)

theorem faultKept_announce (s : State) (k c : Nat) : FaultKept s (s.announce k c) :=
  faultKept_does (does_announce (M := 0x1000000) (by decide) (does_refl _ s))

theorem unwaited_withEng {p : PairSt} (e : Eng) (g : EngSt) (h : Unwaited p) : Unwaited (withEng p e g) := by
  cases e <;> exact h

theorem faultKept_setEng (s : State) (e : Eng) (f : EngSt → EngSt) : FaultKept s (s.setEng e f) :=
  ⟨supplyKept_does (does_setEng (M := 0xc0000) (by decide) (does_refl _ s)), fun h => by
    rw [pair_setEng]
    exact unwaited_withEng e _ h⟩

theorem faultKept_onPair (s : State) {f : PairSt → PairSt} (h : ∀ p, Unwaited p → Unwaited (f p) := by exact fun _ hp => hp) :
    FaultKept s (s.onPair f) :=
  ⟨rfl, h s.pair⟩

theorem faultKept_failEngine (s : State) (e : Eng) (cause : Nat) : FaultKept s (s.failEngine e cause) := by
  have hmark : FaultKept s (failMarked s e cause) := faultKept_trans (faultKept_setEng s e _) (faultKept_raise _ _ _)
  rw [failEngine_eq]
  generalize failMarked s e cause = u at *
  refine faultKept_ite (faultKept_ite ?_ ?_) hmark
  · exact faultKept_trans hmark (faultKept_setEng u e _)
  · exact faultKept_trans (faultKept_trans (faultKept_trans hmark (faultKept_setEng u e _)) (faultKept_raise _ _ _)) (faultKept_announce _ _ _)

theorem faultKept_fence (s : State) (cause : Nat) : FaultKept s (s.fence cause) := by
  cases hf : s.pair.fenced with
  | true =>
    rw [State.fence, if_pos hf]
    exact faultKept_refl s
  | false =>
    have hfirst : SupplyKept s (fencedFirst s cause) := by
      unfold fencedFirst
      refine supplyKept_trans (supplyKept_does (m := 0xc0c1000) ?_) (supplyKept_allLinksLost _)
      exact does_cutFrames (by decide) (does_freeLevels (by decide) (does_onPairActs (by decide) (does_refl _ s)))
    refine ⟨?_, fun h => ?_⟩
    · rw [fence_eq hf]
      generalize fencedFirst s cause = u at *
      exact supplyKept_trans hfirst (supplyKept_trans (supplyKept_trans (t := u.onEvents (fun v => { v with alert := true })) rfl
        (supplyKept_raise _ _ _)) (faultKept_announce _ 4 cause).1)
    · rw [pair_fence hf]
      exact ⟨⟨rfl, rfl, rfl, rfl⟩, h.2⟩

theorem faultKept_deferCommit (s : State) : FaultKept s s.deferCommit := by
  refine faultKept_of ?_ (pair_deferCommit s)
  unfold State.deferCommit
  split
  · exact supplyKept_ite (supplyKept_refl s) (supplyKept_trans (t := s.onSetup _) rfl (supplyKept_raise _ _ _))
  · exact supplyKept_refl s

theorem faultKept_warmStart (s : State) : FaultKept s s.warmStart := by
  have habort (t : State) (n : Nat) : SupplyKept t (t.abortSnap n) := supplyKept_does (does_abortSnap (M := 2) (by decide) (does_refl _ t))
  have hback (t : State) : SupplyKept t t.tallyBack := by
    have hfold := supplyKept_foldl (fun v n => habort v (64 + n)) (List.range 4) t
    exact supplyKept_trans hfold (supplyKept_trans (t := State.onTally _ _) rfl (supplyKept_raise _ _ _))
  exact faultKept_of (supplyKept_trans (t := (s.onTx _).onRx _) rfl (hback _)) (pair_warmStart s)

theorem faultKept_holdWords (s : State) : FaultKept s s.holdWords := faultKept_onPair s

theorem faultKept_cut (s : State) : FaultKept s (s.cutFrames.cutTlps) :=
  faultKept_does (does_cutTlps (M := 0x18001000) (by decide) (does_cutFrames (by decide) (does_refl _ s)))

theorem faultKept_lowerAct (s : State) (h : Handover) : FaultKept s (s.lowerAct h) :=
  faultKept_trans (faultKept_setEng s _ _) (faultKept_onPair _)

theorem faultKept_startHandover (s : State) (e : Eng) (cause : Nat) (swap : Bool) : FaultKept s (s.startHandover e cause swap) := by
  have hfirst : FaultKept s (handoverFirst s swap) := by
    have hcut := faultKept_trans (faultKept_trans (faultKept_warmStart s) (faultKept_cut s.warmStart)) (faultKept_holdWords _)
    exact faultKept_ite (faultKept_ite (faultKept_warmStart s) hcut) (faultKept_onPair s)
  rw [startHandover_eq]
  generalize handoverFirst s swap = u at *
  have hlow := faultKept_trans hfirst (faultKept_lowerAct u (handoverOf s e cause swap false))
  refine faultKept_ite ?_ (faultKept_trans (faultKept_ite ?_ ?_) (faultKept_deferCommit _))
  · exact faultKept_trans (faultKept_trans hfirst (faultKept_onPair u)) (faultKept_deferCommit _)
  · exact faultKept_trans hlow (faultKept_setEng _ e _)
  · exact faultKept_trans hlow (faultKept_failEngine _ e cause)

/-- An engine that fails leaves the sled solo. -/
theorem faultKept_solo (s : State) (e : Eng) (cause : Nat) : FaultKept s (((s.failEngine e cause).raise .soloEntered []).announce 2 cause) :=
  faultKept_trans (faultKept_trans (faultKept_failEngine s e cause) (faultKept_raise _ _ _)) (faultKept_announce _ _ _)

theorem faultKept_faultAlone (s : State) (e : Eng) (cause : Nat) : FaultKept s (s.faultAlone e cause) := by
  unfold State.faultAlone
  split
  · exact faultKept_ite (faultKept_startHandover s e cause false) (faultKept_trans (faultKept_failEngine s e cause) (faultKept_fence _ cause))
  · exact faultKept_trans (faultKept_onPair s) (faultKept_solo _ e cause)
  · exact faultKept_trans (faultKept_trans (faultKept_onPair s) (faultKept_raise _ _ _)) (faultKept_failEngine _ e cause)
  · exact faultKept_failEngine s e cause
  · exact faultKept_refl s

theorem faultKept_faultInHandover (s : State) (h : Handover) (e : Eng) (cause : Nat) : FaultKept s (s.faultInHandover h e cause) := by
  unfold State.faultInHandover
  refine faultKept_ite (faultKept_ite ?_ ?_) (faultKept_ite (faultKept_refl s) (faultKept_ite ?_ (faultKept_ite ?_ (faultKept_solo s e cause))))
  · exact faultKept_trans (faultKept_failEngine s e cause) (faultKept_fence _ cause)
  · exact faultKept_trans (faultKept_onPair s) (faultKept_solo _ e cause)
  · exact faultKept_trans (faultKept_trans (faultKept_trans (faultKept_cut s) (faultKept_holdWords _)) (faultKept_lowerAct _ _))
      (faultKept_failEngine _ e cause)
  · exact faultKept_trans (faultKept_onPair s) (faultKept_failEngine _ e cause)

theorem faultKept_engineFault (s : State) (e : Eng) (cause : Nat) : FaultKept s (s.engineFault e cause) := by
  unfold State.engineFault
  refine faultKept_ite (faultKept_refl s) (faultKept_ite (faultKept_onPair s) (faultKept_ite (faultKept_onPair s) ?_))
  dsimp only
  split
  · exact faultKept_trans (faultKept_onPair s) (faultKept_faultInHandover _ _ e cause)
  · exact faultKept_trans (faultKept_onPair s) (faultKept_faultAlone _ e cause)

/-- A fault after which the pair settles, where nothing waits for it. -/
theorem supplyKept_faultSettled {s : State} (h : Settled s) (e : Eng) (cause : Nat) : SupplyKept s (s.engineFault e cause).pairSettled := by
  obtain ⟨hheld, hmerge, hreads, hhold, hswap, hcmd⟩ := h
  obtain ⟨hsup, hwait⟩ := faultKept_engineFault s e cause
  have hpower : (s.engineFault e cause).power = s.power := (does_engineFault (M := 0x1f2e7fb3) (by decide) (does_refl _ s)).keeps .power (by decide)
  obtain ⟨⟨hheld', hmerge', hreads', hhold'⟩, hswap'⟩ := hwait ⟨⟨hheld, hmerge, hreads, hhold⟩, hswap⟩
  have hsettled : Settled (s.engineFault e cause) := ⟨hheld', hmerge', hreads', hhold', hswap', by rw [hpower]; exact hcmd⟩
  exact supplyKept_trans hsup (supplyKept_does (pairSettled_gives hsettled).1)

/-! ### The AO domain browns out (R287) -/

/-- What a brown-out leaves before the latch is tested. -/
def brownedOut (s : State) : State :=
  ((s.abandonSave.shellCleared.islandsTo (List.range 20) .off).onPower (fun p => { p with mode := .off })).onSupply (fun x =>
    { x with brownout := true, braced := false, deferred := [], graceAt := none, recovery := none })

theorem aoBrown_eq (s : State) : s.aoBrown = (brownedOut s).latchCheck := by
  unfold State.aoBrown brownedOut
  rfl

theorem islandsTo_off (s : State) {i : Nat} (h : i < 20) : ((s.islandsTo (List.range 20) .off).island i).state = .off ∧
    ((s.islandsTo (List.range 20) .off).island i).isolated = true := by
  have hfold := island_foldl_islandTo (fun _ => IslState.off) (List.range 20) s i
  rw [if_pos (List.mem_range.mpr h)] at hfold
  rw [State.islandsTo, hfold]
  exact ⟨rfl, rfl⟩

theorem latchCheck_fed {s : State} (h : s.supply.mains = true ∨ s.supply.cell ≠ .absent) : s.latchCheck = s := by
  refine if_neg ?_
  rintro ⟨-, hm, hc⟩
  rcases h with h | h
  · simp [h] at hm
  · exact h hc

theorem brownedOut_parts (s : State) : (brownedOut s).power.mode = .off ∧ (brownedOut s).supply.brownout = true ∧
    (brownedOut s).supply.braced = false ∧ (brownedOut s).supply.deferred = [] := ⟨rfl, rfl, rfl, rfl⟩

/-- The latch stays fed from the mains or the cell that were there. -/
theorem brownedOut_fed {s : State} (h : s.supply.mains = true ∨ s.supply.cell ≠ .absent) :
    (brownedOut s).supply.mains = true ∨ (brownedOut s).supply.cell ≠ .absent := by
  have hisl (u : State) : (u.islandsTo (List.range 20) .off).supply = u.supply :=
    (does_islandsTo (M := 0x400000) (by decide) (does_refl _ u)).keeps .supply (by decide)
  obtain ⟨-, hm, hc, -⟩ := supplyKept_fields (supplyKept_abandonSave s)
  have hmains : (brownedOut s).supply.mains = s.supply.mains := by
    rw [← hm]
    exact (congrArg SupplySt.mains (hisl s.abandonSave.shellCleared)).trans rfl
  have hcell : (brownedOut s).supply.cell = s.supply.cell := by
    rw [← hc]
    exact (congrArg SupplySt.cell (hisl s.abandonSave.shellCleared)).trans rfl
  rw [hmains, hcell]
  exact h

theorem island_brownedOut (s : State) (i : Nat) :
    (brownedOut s).island i = (s.abandonSave.shellCleared.islandsTo (List.range 20) .off).island i := by
  unfold brownedOut
  generalize s.abandonSave.shellCleared.islandsTo (List.range 20) .off = u
  exact island_of rfl i

theorem aoBrown_gives {s : State} (h : s.supply.mains = true ∨ s.supply.cell ≠ .absent) : s.aoBrown.power.mode = .off ∧
    s.aoBrown.supply.brownout = true ∧ s.aoBrown.supply.braced = false ∧ s.aoBrown.supply.deferred = [] ∧
    ∀ i < 20, (s.aoBrown.island i).state = .off ∧ (s.aoBrown.island i).isolated = true := by
  obtain ⟨hmode, hbrown, hbraced, hdef⟩ := brownedOut_parts s
  rw [aoBrown_eq, latchCheck_fed (brownedOut_fed h)]
  refine ⟨hmode, hbrown, hbraced, hdef, fun i hi => ?_⟩
  rw [island_brownedOut]
  exact islandsTo_off _ hi

/-! ### Rails (R285, Table 12-4) -/

/-- The bit of a rail, and its event. -/
def railNoted (s : State) (r : Rail) (mv : Nat) : State :=
  (s.onSupply (fun x => { x with rails := Nat.lor x.rails (2 ^ railRow r) })).raise .railFault (le 1 (railRow r + 1) ++ le 2 mv)

theorem exec_railFault (s : State) (r : Rail) (mv : Nat) : exec (.railFault r mv) s =
    .next (if s.power.mode ≠ .off ∧ s.railOutside r (mv % 2 ^ 16) then (railNoted s r (mv % 2 ^ 16)).railOutcome r else s) := rfl

theorem bit_lor_self (x n : Nat) : bit (Nat.lor x (2 ^ n)) n = true := by
  have hor : (x ||| 2 ^ n).testBit n = true := by rw [Nat.testBit_or, Nat.testBit_two_pow_self, Bool.or_true]
  rw [Nat.testBit_eq_decide_div_mod_eq] at hor
  exact hor

/-- What the note of a rail leaves. -/
theorem railNoted_kept (s : State) (r : Rail) (mv : Nat) : bit (railNoted s r mv).supply.rails (railRow r) = true ∧
    (railNoted s r mv).pair = s.pair ∧ (railNoted s r mv).time = s.time ∧ (railNoted s r mv).power = s.power ∧
    (railNoted s r mv).supply.mains = s.supply.mains ∧ (railNoted s r mv).supply.cell = s.supply.cell ∧ s.out <+: (railNoted s r mv).out ∧
    Reports .railFault (le 1 (railRow r + 1) ++ le 2 mv) s (railNoted s r mv) := by
  unfold railNoted
  have hset : Does 0x200000 s (s.onSupply (fun x => { x with rails := Nat.lor x.rails (2 ^ railRow r) })) :=
    does_onSupply (by decide) id (does_refl _ s)
  have hbit : bit (s.onSupply (fun x => { x with rails := Nat.lor x.rails (2 ^ railRow r) })).supply.rails (railRow r) = true := bit_lor_self _ _
  have hm : (s.onSupply (fun x => { x with rails := Nat.lor x.rails (2 ^ railRow r) })).supply.mains = s.supply.mains := rfl
  have hc : (s.onSupply (fun x => { x with rails := Nat.lor x.rails (2 ^ railRow r) })).supply.cell = s.supply.cell := rfl
  generalize s.onSupply (fun x => { x with rails := Nat.lor x.rails (2 ^ railRow r) }) = u at *
  have hflags := flags_raise .railFault (le 1 (railRow r + 1) ++ le 2 mv) (flags_refl u)
  obtain ⟨hrails, hmains, hcell, -⟩ := supplyKept_fields (supplyKept_raise u .railFault (le 1 (railRow r + 1) ++ le 2 mv))
  refine ⟨by rw [hrails]; exact hbit, (hflags.keeps .pair (by decide)).trans (hset.keeps .pair (by decide)),
    (hflags.keeps .time (by decide)).trans (hset.keeps .time (by decide)),
    (hflags.keeps .power (by decide)).trans (hset.keeps .power (by decide)), hmains.trans hm, hcell.trans hc,
    hset.out.trans (out_of_flags hflags), reports_before hset.out (reports_raise _ _ _)⟩

/-- A core rail's fault is the engine's. -/
theorem coreFault_gives {s u : State} (hp : u.pair = s.pair) (ht : u.time = s.time) (hw : u.power = s.power) (ho : s.out <+: u.out) (e : Eng) :
    (Settled s → SupplyKept u (u.engineFault e 1).pairSettled) ∧ (Acting e s → HandsOver e 1 false s (u.engineFault e 1).pairSettled) := by
  refine ⟨fun h => supplyKept_faultSettled ?_ e 1, fun h => ?_⟩
  · unfold Settled at *
    rw [hp, hw]
    exact h
  · obtain ⟨hover, hsettled, -⟩ := fault_handsOver (acting_congr h hp ht hw) 1 (by rw [hp]) ht ho
    rw [hsettled]
    exact hover

theorem fencedBy_before {s u t : State} {cause : Nat} (ho : s.out <+: u.out) (h : FencedBy cause u t) : FencedBy cause s t := by
  obtain ⟨h1, h2, h3, h4, h5, h6, h7, hrep⟩ := h
  exact ⟨h1, h2, h3, h4, h5, h6, h7, reports_before ho hrep⟩

/-- What follows a fault of each rail. -/
theorem railOutcome_gives {s u : State} {r : Rail} (hp : u.pair = s.pair) (ht : u.time = s.time) (hw : u.power = s.power) (ho : s.out <+: u.out) :
    (r ≠ .ao → Settled s → (u.railOutcome r).supply.rails = u.supply.rails) ∧
    (r = .coreA → Acting .a s → HandsOver .a 1 false s (u.railOutcome r)) ∧ (r = .coreB → Acting .b s → HandsOver .b 1 false s (u.railOutcome r)) ∧
    (r = .junction ∨ r = .serdes → s.pair.fenced = false → FencedBy 0xA s (u.railOutcome r)) ∧ u.out <+: (u.railOutcome r).out := by
  have hsettle (v : State) : v.out <+: v.pairSettled.out := (did_pairSettled v).out
  have hfault (e : Eng) : u.out <+: (u.engineFault e 1).out := (does_engineFault (M := 0x1f2e7fb3) (by decide) (does_refl _ u)).out
  have hfence : s.pair.fenced = false → FencedBy 0xA s (u.fence 0xA) :=
    fun hf => fencedBy_before ho (fence_fencedBy (by rw [hp]; exact hf) 0xA).1
  cases r with
  | coreA =>
    obtain ⟨hkept, hover⟩ := coreFault_gives hp ht hw ho .a
    exact ⟨fun _ hs => (supplyKept_fields (hkept hs)).1, fun _ => hover, nofun, nofun, (hfault .a).trans (hsettle _)⟩
  | coreB =>
    obtain ⟨hkept, hover⟩ := coreFault_gives hp ht hw ho .b
    exact ⟨fun _ hs => (supplyKept_fields (hkept hs)).1, nofun, fun _ => hover, nofun, (hfault .b).trans (hsettle _)⟩
  | junction => exact ⟨fun _ _ => (supplyKept_fields (faultKept_fence u 0xA).1).1, nofun, nofun, fun _ => hfence, (did_fence u 0xA).out⟩
  | serdes => exact ⟨fun _ _ => (supplyKept_fields (faultKept_fence u 0xA).1).1, nofun, nofun, fun _ => hfence, (did_fence u 0xA).out⟩
  | ao =>
    have hbrown : Does 0x1fffffff u u.aoBrown := does_aoBrown (by decide) (does_refl _ u)
    exact ⟨fun h => absurd rfl h, nofun, nofun, nofun, hbrown.out⟩
  | aux => exact ⟨fun _ _ => rfl, nofun, nofun, nofun, List.prefix_refl _⟩
  | cage => exact ⟨fun _ _ => rfl, nofun, nofun, nofun, List.prefix_refl _⟩

theorem railFault_gives (s : State) (r : Rail) (mv : Nat) :
    let t := (railNoted s r mv).railOutcome r
    Reports .railFault (le 1 (railRow r + 1) ++ le 2 mv) s t ∧ (r ≠ .ao → Settled s → bit t.supply.rails (railRow r) = true) ∧
      (r = .coreA → Acting .a s → HandsOver .a 1 false s t) ∧ (r = .coreB → Acting .b s → HandsOver .b 1 false s t) ∧
      (r = .junction ∨ r = .serdes → s.pair.fenced = false → FencedBy 0xA s t) ∧
      (r = .ao → s.supply.mains = true ∨ s.supply.cell ≠ .absent → t.power.mode = .off ∧ t.supply.brownout = true ∧
        ∀ i < 20, (t.island i).state = .off ∧ (t.island i).isolated = true) ∧
      (r = .aux → t.supply.auxOn = false) ∧
      (r = .cage → Raises .railFault (le 1 (railRow r + 1) ++ le 2 mv)
        (s.onSupply (fun x => { x with rails := Nat.lor x.rails (2 ^ railRow r) })) t) := by
  intro t
  obtain ⟨hbit, hp, ht, hw, hm, hc, ho, hrep⟩ := railNoted_kept s r mv
  obtain ⟨hrails, hA, hB, hfence, hout⟩ := railOutcome_gives (r := r) hp ht hw ho
  have hcage : r = .cage → Raises .railFault (le 1 (railRow r + 1) ++ le 2 mv)
      (s.onSupply (fun x => { x with rails := Nat.lor x.rails (2 ^ railRow r) })) t := by
    rintro rfl
    exact raise_raises _ _ _
  have hao : r = .ao → s.supply.mains = true ∨ s.supply.cell ≠ .absent → t.power.mode = .off ∧ t.supply.brownout = true ∧
      ∀ i < 20, (t.island i).state = .off ∧ (t.island i).isolated = true := by
    rintro rfl hfed
    obtain ⟨hmode, hbrown, -, -, hisl⟩ := aoBrown_gives (s := railNoted s .ao mv) (by rw [hm, hc]; exact hfed)
    exact ⟨hmode, hbrown, hisl⟩
  have haux : r = .aux → t.supply.auxOn = false := by
    rintro rfl
    rfl
  exact ⟨reports_after hrep hout, fun hr hs => by rw [hrails hr hs]; exact hbit, hA, hB, hfence, hao, haux, hcage⟩

/-! ### The cell (R289, Table 12-7) -/

/-- The report of a low cell. -/
theorem lowMarked_gives {u v t : State} {mv : Nat} (ht : t = v.raise .cellLow []) (hmv : mv < 2700) (h1 : v.supply.cellMv = u.supply.cellMv)
    (h2 : v.supply.cell = u.supply.cell) (h3 : v.supply.cellLow = true) (h4 : v.supply.cellLowAt = some u.rtc.count) (ho : u.out <+: v.out) :
    t.supply.cellMv = u.supply.cellMv ∧ t.supply.cell = u.supply.cell ∧ t.supply.cellLow = decide (mv < 2700) ∧ u.out <+: t.out ∧
    (mv < 2700 → u.supply.cellLowAt = none → Reports .cellLow [] u t ∧ t.supply.cellLowAt = some u.rtc.count) := by
  obtain ⟨-, -, k2, k1, k3, k4⟩ := supplyKept_fields (supplyKept_raise v .cellLow [])
  rw [ht]
  exact ⟨k1.trans h1, k2.trans h2, by rw [k3, h3, decide_eq_true hmv], ho.trans (out_of_flags (flags_raise _ _ (flags_refl v))),
    fun _ _ => ⟨reports_before ho (reports_raise _ _ _), k4.trans h4⟩⟩

theorem cellLowCheck_gives (u : State) (mv : Nat) :
    let t := u.cellLowCheck mv
    t.supply.cellMv = u.supply.cellMv ∧ t.supply.cell = u.supply.cell ∧ t.supply.cellLow = decide (mv < 2700) ∧ u.out <+: t.out ∧
    (mv < 2700 → u.supply.cellLowAt = none → Reports .cellLow [] u t ∧ t.supply.cellLowAt = some u.rtc.count) := by
  intro t
  by_cases hmv : mv < 2700
  · by_cases hdue : u.supply.cellLowAt.all (fun t => decide (t + 3600 * 32768 ≤ u.rtc.count)) = true
    · have ht : t = ((u.onSupply (fun x => { x with cellLow := true })).onSupply (fun x => { x with cellLowAt := some u.rtc.count })).raise .cellLow [] :=
        (if_pos hmv).trans (if_pos hdue)
      exact lowMarked_gives ht hmv rfl rfl rfl rfl (List.prefix_refl _)
    · have ht : t = u.onSupply (fun x => { x with cellLow := true }) := (if_pos hmv).trans (if_neg hdue)
      rw [ht]
      exact ⟨rfl, rfl, (decide_eq_true hmv).symm, List.prefix_refl _, fun _ hn => absurd (by rw [hn]; rfl) hdue⟩
  · have ht : t = u.onSupply (fun x => { x with cellLow := false }) := if_neg hmv
    rw [ht]
    exact ⟨rfl, rfl, (decide_eq_false hmv).symm, List.prefix_refl _, fun h _ => absurd h hmv⟩

/-- What a probe that finds a cell makes of the charger. -/
def cellSeen (s : State) (mv : Nat) : State :=
  match s.supply.cell with
  | .absent => (s.cellTo (if 2950 ≤ mv then .charged else .chargingCc)).raise .cellPresent []
  | .charged => if mv < 2950 then s.cellTo .chargingCc else s
  | _ => s

theorem cellFound_eq (s : State) (mv : Nat) : s.cellFound mv = (cellSeen s mv).cellLowCheck mv := rfl

theorem cellSeen_gives (s : State) (mv : Nat) :
    let t := cellSeen s mv
    t.supply.cellMv = s.supply.cellMv ∧ t.supply.cellLowAt = s.supply.cellLowAt ∧ t.rtc = s.rtc ∧ s.out <+: t.out ∧
    (s.supply.cell = .absent → t.supply.cell = (if 2950 ≤ mv then .charged else .chargingCc) ∧ Reports .cellPresent [] s t) ∧
    (s.supply.cell = .charged → t.supply.cell = (if 2950 ≤ mv then .charged else .chargingCc)) := by
  intro t
  have ht : t = cellSeen s mv := rfl
  unfold cellSeen at ht
  split at ht
  next hcell =>
    obtain ⟨-, -, h1, h2, -, h4⟩ := supplyKept_fields (supplyKept_raise (s.cellTo (if 2950 ≤ mv then .charged else .chargingCc)) .cellPresent [])
    have hflags := flags_raise .cellPresent [] (flags_refl (s.cellTo (if 2950 ≤ mv then .charged else .chargingCc)))
    have hout := out_of_flags hflags
    rw [ht]
    exact ⟨h2.trans rfl, h4.trans rfl, (hflags.keeps .rtc (by decide)).trans rfl, hout,
      fun _ => ⟨h1.trans rfl, reports_before (List.prefix_refl s.out) (reports_raise _ _ _)⟩, fun h => absurd (hcell.symm.trans h) (by decide)⟩
  next hcell =>
    split at ht
    next hlt =>
      rw [ht]
      exact ⟨rfl, rfl, rfl, List.prefix_refl _, fun h => absurd (hcell.symm.trans h) (by decide), fun _ => (if_neg (by omega)).symm⟩
    next hge =>
      rw [ht]
      exact ⟨rfl, rfl, rfl, List.prefix_refl _, fun h => absurd (hcell.symm.trans h) (by decide), fun _ => hcell.trans (if_pos (by omega)).symm⟩
  next hna hnc =>
    rw [ht]
    exact ⟨rfl, rfl, rfl, List.prefix_refl _, fun h => absurd h hna, fun h => absurd h hnc⟩

theorem cellFound_gives (s : State) (mv : Nat) :
    let t := s.cellFound mv
    t.supply.cellMv = s.supply.cellMv ∧ t.supply.cellLow = decide (mv < 2700) ∧
    (s.supply.cell = .absent → t.supply.cell = (if 2950 ≤ mv then .charged else .chargingCc) ∧ Reports .cellPresent [] s t) ∧
    (s.supply.cell = .charged → t.supply.cell = (if 2950 ≤ mv then .charged else .chargingCc)) ∧
    (mv < 2700 → s.supply.cellLowAt = none → Reports .cellLow [] s t ∧ t.supply.cellLowAt = some s.rtc.count) := by
  intro t
  obtain ⟨hmv, hat, hrtc, hout, habs, hchg⟩ := cellSeen_gives s mv
  obtain ⟨hmv', hcell, hlow, hout', hrep⟩ := cellLowCheck_gives (cellSeen s mv) mv
  rw [show t = (cellSeen s mv).cellLowCheck mv from cellFound_eq s mv]
  generalize cellSeen s mv = u at *
  refine ⟨hmv'.trans hmv, hlow, fun h => ⟨hcell.trans (habs h).1, reports_after (habs h).2 hout'⟩, fun h => hcell.trans (hchg h), fun h hn => ?_⟩
  obtain ⟨hr, ha⟩ := hrep h (hat.trans hn)
  exact ⟨reports_before hout hr, by rw [ha, hrtc]⟩

theorem exec_cellProbe (s : State) (mv : Nat) (hm : s.power.mode ≠ .off) (hc : s.supply.cell.charging = false) : exec (.cellProbe mv) s =
    .next (if mv % 2 ^ 16 ≤ 3300 then (s.onSupply (fun x => { x with cellMv := mv % 2 ^ 16 })).cellFound (mv % 2 ^ 16)
      else match s.supply.cell with
        | .absent => s.onSupply (fun x => { x with cellMv := mv % 2 ^ 16 })
        | _ => (s.onSupply (fun x => { x with cellMv := mv % 2 ^ 16 })).cellGone) :=
  congrArg Host.Outcome.next (if_neg (by simp [hm, hc]))

/-- What a probe reports. -/
theorem cellProbe_gives (s : State) (mv : Nat) (hm : s.power.mode ≠ .off) (hc : s.supply.cell.charging = false) :
    (3300 < mv % 2 ^ 16 → s.supply.cell ≠ .absent → Gives (.cellProbe mv) s (Raises .cellAbsent [] (s.onSupply (fun x =>
      { x with cellMv := mv % 2 ^ 16, cell := .absent, cellLow := false, absents := satAdd 32 x.absents 1 })))) ∧
    (3300 < mv % 2 ^ 16 → s.supply.cell = .absent → exec (.cellProbe mv) s =
      .next (s.onSupply (fun x => { x with cellMv := mv % 2 ^ 16 }))) ∧
    (mv % 2 ^ 16 ≤ 3300 → exec (.cellProbe mv) s =
      .next ((s.onSupply (fun x => { x with cellMv := mv % 2 ^ 16 })).cellFound (mv % 2 ^ 16))) := by
  have hgo := exec_cellProbe s mv hm hc
  refine ⟨fun hlt hne => ?_, fun hlt he => ?_, fun hle => ?_⟩
  · rw [if_neg (by omega)] at hgo
    split at hgo
    next he => exact absurd he hne
    next => exact ⟨_, hgo, raise_raises _ _ _⟩
  · rw [if_neg (by omega), he] at hgo
    exact hgo
  · rw [if_pos hle] at hgo
    exact hgo

/-! ### The service output and the AO regulator -/

theorem exec_auxReenable (s : State) : exec .auxReenable s =
    .next (if s.noPartner then s else ((s.arrives 64).wrote 0x8001C 1).onSupply (fun x => { x with auxOn := true })) := rfl

theorem exec_aoBudgetSample (ua : Nat) (s : State) : exec (.aoBudgetSample ua) s =
    .next (if s.supply.lowPower ∧ 19000 ≤ ua then s.registerWake 4 0 else s) := rfl

/-- In Deep sleep the regulator's current wakes. -/
theorem aoBudget_wakes {s : State} (h : s.power.mode = .deepSleep) : Wakes 4 0 s (s.registerWake 4 0) :=
  registerWake_wakes 0 (if_neg (by decide)) (.inr h) (by rw [h]; decide)

theorem chargeTempHold_gives {s : State} (h : s.supply.cell.charging = true) : Gives .chargeTempHold s (Raises .chargeTempHold [] (s.cellTo .tempHold)) :=
  ⟨_, congrArg Host.Outcome.next (if_pos h), raise_raises _ _ _⟩

theorem cellRemoved_gives {s : State} (h : s.supply.cell.charging = true) (hm : s.power.mode ≠ .off) :
    Gives .cellRemoved s (Raises .cellAbsent [] (s.onSupply (fun x =>
      { x with cell := .absent, cellLow := false, absents := satAdd 32 x.absents 1 }))) :=
  ⟨_, congrArg Host.Outcome.next ((if_neg hm).trans (if_pos h)), raise_raises _ _ _⟩

/-- Settles O55: the rails by the outcome of each, the brown-out by what clears, the cell by its table. -/
theorem railsAndTheCellFollowTheirTables : Obligations.RailsAndTheCellFollowTheirTables := by
  unfold Obligations.RailsAndTheCellFollowTheirTables
  refine ⟨fun s r mv => ⟨fun h => ?_, fun hm hout => ?_⟩, fun s => ⟨fun h => ?_, fun h => ?_⟩, fun s ua => ⟨fun h => ?_, fun hl hua hm => ?_⟩,
    fun s hl hfed => ?_, fun s => ⟨fun h => ?_, fun h => ?_, fun h => ?_, fun h => ⟨chargeTempHold_gives h, cellRemoved_gives h⟩⟩, fun s mv hm hc => ?_⟩
  · rw [exec_railFault, if_neg]
    rintro ⟨hm, ho⟩
    rcases h with h | h
    · exact hm h
    · exact Bool.false_ne_true (h.symm.trans ho)
  · have hgo := exec_railFault s r mv
    rw [if_pos ⟨hm, hout⟩] at hgo
    exact ⟨_, hgo, railFault_gives s r (mv % 2 ^ 16)⟩
  · rw [exec_auxReenable, if_pos h]
  · rw [exec_auxReenable, if_neg (by simp [h])]
  · rw [exec_aoBudgetSample, if_neg]
    rintro ⟨hl, hua⟩
    rcases h with h | h
    · simp [h] at hl
    · omega
  · have hgo := exec_aoBudgetSample ua s
    rw [if_pos ⟨hl, hua⟩] at hgo
    exact ⟨_, hgo, aoBudget_wakes hm⟩
  · obtain ⟨hmode, hbrown, hbraced, hdef, -⟩ := aoBrown_gives hfed
    exact ⟨_, congrArg Host.Outcome.next (if_pos hl), hmode, hbrown, hbraced, hdef⟩
  · show Host.Outcome.next _ = _
    rw [h]
    rfl
  · show Host.Outcome.next _ = _
    rw [h]
  · show Host.Outcome.next _ = _
    rw [h]
  · obtain ⟨habs, hstay, hfound⟩ := cellProbe_gives s mv hm hc
    exact ⟨habs, hstay, fun hle => ⟨_, hfound hle, cellFound_gives _ _⟩⟩

end Sys2Proof.Proofs
end

section
/-! The loops of the Foreman and the thermal ceiling: O56. -/
namespace Sys2Proof.Proofs
open Sys2Proof Sys2Proof.Machine Sys2Proof.Laws
set_option Elab.async false -- one thread, within the memory of the check

/-! ### Steps that go over the knobs one after another -/

/-- Among steps that each change one knob, each knob is changed by its own step, on a state that the others have left. -/
theorem knob_foldl {F : State → Nat → State} {R : State → State → Prop} (hrefl : ∀ s, R s s) (htrans : ∀ {s t u}, R s t → R t u → R s u)
    (hstep : ∀ s x, R s (F s x)) (hother : ∀ s x k, k ≠ x → (F s x).knob k = s.knob k) {l : List Nat} (hl : l.Nodup) {k : Nat} (hk : k ∈ l) (s : State) :
    ∃ v, R s v ∧ v.knob k = s.knob k ∧ (l.foldl F s).knob k = (F v k).knob k := by
  have hrest (l : List Nat) (s : State) (hk : k ∉ l) : (l.foldl F s).knob k = s.knob k := by
    induction l generalizing s with
    | nil => rfl
    | cons x l ih =>
      obtain ⟨hne, hnot⟩ := not_or.mp (fun h => hk (List.mem_cons.mpr h))
      exact (ih _ hnot).trans (hother s x k hne)
  induction l generalizing s with
  | nil => exact absurd hk List.not_mem_nil
  | cons x l ih =>
    obtain ⟨hx, hl'⟩ := List.nodup_cons.mp hl
    by_cases hkx : k = x
    · subst hkx
      exact ⟨s, hrefl s, rfl, hrest l _ hx⟩
    · obtain ⟨v, hR, hsame, hlast⟩ := ih hl' ((List.mem_cons.mp hk).resolve_left hkx) (F s x)
      exact ⟨v, htrans (hstep s x) hR, hsame.trans (hother s x k hkx), hlast⟩

/-! ### Bringing the knobs up to date -/

/-- What an update of a knob rests on beside the knobs: the set-up, the clock, the brace and the thermal level; the history stays. -/
structure FmSame (s t : State) : Prop where
  setup  : t.setup = s.setup
  time   : t.time = s.time
  braced : t.supply.braced = s.supply.braced
  level  : t.foreman.level = s.foreman.level
  hist   : t.foreman.hist = s.foreman.hist
  cool   : t.foreman.cool = s.foreman.cool

theorem fmSame_refl (s : State) : FmSame s s := ⟨rfl, rfl, rfl, rfl, rfl, rfl⟩

theorem fmSame_trans {s t u : State} (h : FmSame s t) (k : FmSame t u) : FmSame s u :=
  ⟨k.setup.trans h.setup, k.time.trans h.time, k.braced.trans h.braced, k.level.trans h.level, k.hist.trans h.hist, k.cool.trans h.cool⟩

theorem fmSame_setKnob (s : State) (k : Nat) (f : KnobSt → KnobSt) : FmSame s (s.setKnob k f) := ⟨rfl, rfl, rfl, rfl, rfl, rfl⟩

theorem knob_congr {s t : State} (h : t.foreman = s.foreman) (k : Nat) : t.knob k = s.knob k :=
  congrArg (fun m : ForemanSt => Tbl.get KnobSt.init m.knobs k) h

theorem foreman_raise (s : State) (e : Ev) (b : Bytes) : (s.raise e b).foreman = s.foreman :=
  (flags_raise e b (flags_refl s)).keeps .foreman (by decide)

theorem fmSame_raise (s : State) (e : Ev) (b : Bytes) : FmSame s (s.raise e b) := by
  have hflags := flags_raise e b (flags_refl s)
  have hsans := hflags.supply
  have hfm := foreman_raise s e b
  refine ⟨hflags.keeps .setup (by decide), hflags.keeps .time (by decide), ?_, congrArg ForemanSt.level hfm, congrArg ForemanSt.hist hfm,
    congrArg ForemanSt.cool hfm⟩
  generalize (s.raise e b).supply = x at *
  generalize s.supply = y at *
  exact (congrArg SupplySt.braced hsans : x.sans.braced = y.sans.braced)

/-- The loop value that an update takes: the applied value where a pin has been taken off. -/
def loopTaken (s : State) (k : Nat) : Int := if (s.knob k).wasPin && !(decide (s.fmModePinEn k = 1)) then (s.knob k).applied else (s.knob k).loop

/-- The value that an update applies. -/
def appliedNext (s : State) (k : Nat) : Int := (s.knobEval k (loopTaken s k)).2.1.1

/-- An update writes its knob, and may report a clamp. -/
theorem knobUpdate_eq (r : Nat → Bool) (s : State) (k : Nat) : ∃ q : KnobSt, q.applied = appliedNext s k ∧
    (q.applied ≠ (s.knob k).applied → q.changed = s.time.elapsed ∧ q.changes = satAdd 32 (s.knob k).changes 1) ∧
    (State.knobUpdate r s k = s.setKnob k (fun _ => q) ∨ ∃ e b, State.knobUpdate r s k = (s.setKnob k (fun _ => q)).raise e b) := by
  unfold State.knobUpdate
  extract_lets q pin back loop e a cut clamped moved report again s1
  have ha : a = appliedNext s k := rfl
  refine ⟨{ applied := a, loop := if e.2.2 then a else loop, clamped := clamped, src := if cut then e.2.1.2 else if clamped then q.src else 0,
            changes := if moved then satAdd 32 q.changes 1 else q.changes, changed := if again then s.time.elapsed else q.changed,
            dwell := if again then s.fmDwellUs k else q.dwell, wasPin := pin, reported := report || (q.reported && clamped) }, ha, fun hne => ?_, ?_⟩
  · have hmoved : moved = true := decide_eq_true hne
    have hagain : again = true := by simp only [again, hmoved, Bool.true_or]
    exact ⟨if_pos hagain, if_pos hmoved⟩
  · split
    · exact .inr ⟨_, _, rfl⟩
    · split
      · exact .inr ⟨_, _, rfl⟩
      · exact .inl rfl

theorem fmSame_knobUpdate (r : Nat → Bool) (s : State) (k : Nat) : FmSame s (State.knobUpdate r s k) := by
  obtain ⟨q, -, -, h | ⟨e, b, h⟩⟩ := knobUpdate_eq r s k
  · rw [h]
    exact fmSame_setKnob s k _
  · rw [h]
    exact fmSame_trans (fmSame_setKnob s k _) (fmSame_raise _ e b)

theorem knob_knobUpdate_other (r : Nat → Bool) (s : State) (x k : Nat) (h : k ≠ x) : (State.knobUpdate r s x).knob k = s.knob k := by
  obtain ⟨q, -, -, hu | ⟨e, b, hu⟩⟩ := knobUpdate_eq r s x
  · rw [hu, knob_setKnob_other s _ h]
  · rw [hu, knob_congr (foreman_raise _ e b), knob_setKnob_other s _ h]

theorem knob_knobUpdate_same (r : Nat → Bool) (s : State) (k : Nat) : ((State.knobUpdate r s k).knob k).applied = appliedNext s k ∧
    (((State.knobUpdate r s k).knob k).applied ≠ (s.knob k).applied →
      ((State.knobUpdate r s k).knob k).changed = s.time.elapsed ∧ ((State.knobUpdate r s k).knob k).changes = satAdd 32 (s.knob k).changes 1) := by
  obtain ⟨q, happ, hmoved, hu | ⟨e, b, hu⟩⟩ := knobUpdate_eq r s k
  · rw [hu, knob_setKnob_same]
    exact ⟨happ, hmoved⟩
  · rw [hu, knob_congr (foreman_raise _ e b), knob_setKnob_same]
    exact ⟨happ, hmoved⟩

/-- What follows the knobs in a refresh leaves them. -/
theorem fmRefresh_eq (s : State) (r : Nat → Bool) : Does 0x500000 ((List.range 28).foldl (State.knobUpdate r) s) (s.fmRefresh r) := by
  unfold State.fmRefresh
  extract_lets s1 s2 s3
  have h2 : Does 0x500000 s1 s2 := does_ite (does_dvfsSync (by decide) (does_refl _ s1)) (does_refl _ s1)
  exact does_domainSync (by decide) (does_ceilingApply (by decide) h2)

/-- A refresh keeps what it rests on. -/
theorem fmSame_fmRefresh (s : State) (r : Nat → Bool) : FmSame s (s.fmRefresh r) := by
  have hfold : FmSame s ((List.range 28).foldl (State.knobUpdate r) s) := by
    have hall (l : List Nat) (u : State) : FmSame u (l.foldl (State.knobUpdate r) u) := by
      induction l generalizing u with
      | nil => exact fmSame_refl u
      | cons x l ih => exact fmSame_trans (fmSame_knobUpdate r u x) (ih _)
    exact hall _ s
  have hrest := fmRefresh_eq s r
  generalize (List.range 28).foldl (State.knobUpdate r) s = u at *
  have hfm : (s.fmRefresh r).foreman = u.foreman := hrest.keeps .foreman (by decide)
  exact fmSame_trans hfold ⟨hrest.keeps .setup (by decide), hrest.keeps .time (by decide),
    congrArg SupplySt.braced (hrest.keeps .supply (by decide)), congrArg ForemanSt.level hfm, congrArg ForemanSt.hist hfm, congrArg ForemanSt.cool hfm⟩

/-- A knob after a refresh: its own update, on a state that the updates of the knobs before it have left. -/
theorem knob_fmRefresh (s : State) (r : Nat → Bool) {k : Nat} (hk : k < 28) : ∃ v, FmSame s v ∧ v.knob k = s.knob k ∧
    ((s.fmRefresh r).knob k).applied = appliedNext v k ∧ (((s.fmRefresh r).knob k).applied ≠ (s.knob k).applied →
      ((s.fmRefresh r).knob k).changed = s.time.elapsed ∧ ((s.fmRefresh r).knob k).changes = satAdd 32 (s.knob k).changes 1) := by
  obtain ⟨v, hsame, hknob, hlast⟩ := knob_foldl (R := FmSame) fmSame_refl fmSame_trans (fmSame_knobUpdate r) (knob_knobUpdate_other r)
    List.nodup_range (List.mem_range.mpr hk) s
  have hfinal : (s.fmRefresh r).knob k = (State.knobUpdate r v k).knob k :=
    (knob_congr ((fmRefresh_eq s r).keeps .foreman (by decide)) k).trans hlast
  obtain ⟨happ, hmoved⟩ := knob_knobUpdate_same r v k
  rw [hknob, hsame.time] at hmoved
  rw [hfinal]
  exact ⟨v, hsame, hknob, happ, hmoved⟩

/-! ### The thermal ceiling (R317, R318) -/

/-- A frequency knob stays under the thermal ceiling. -/
theorem knobClamp_le {s : State} {k : Nat} (hk : k < 7) (target : Int) :
    (s.knobClamp k target).1 ≤ (rowMhz (if s.foreman.level = 0 then 0 else s.foreman.level + 1) : Int) := by
  have hlimit : (s.knobLimit k).1 ≤ (rowMhz (if s.foreman.level = 0 then 0 else s.foreman.level + 1) : Int) := by
    unfold State.knobLimit
    extract_lets brace heat main
    split
    next h => exact le_trans (le_of_lt h.2) (min_le_right _ _)
    next =>
      split
      next h => exact h
      next => exact le_refl _
  unfold State.knobClamp
  rw [if_pos hk]
  dsimp only
  split
  next h => exact le_trans h hlimit
  next => exact hlimit

theorem applied_fmRefresh_le (s : State) (r : Nat → Bool) {k : Nat} (hk : k < 7) :
    ((s.fmRefresh r).knob k).applied ≤ (rowMhz (if s.foreman.level = 0 then 0 else s.foreman.level + 1) : Int) := by
  obtain ⟨v, hsame, -, happ, -⟩ := knob_fmRefresh s r (show k < 28 by omega)
  rw [happ, ← hsame.level]
  exact knobClamp_le hk _

theorem exec_thermalWindow {s : State} (h : Int) (hm : s.power.mode = .run ∨ s.power.mode = .idle ∨ s.power.mode = .entering) :
    exec (.thermalWindow h) s = .next (s.thermal h) := by
  show Host.Outcome.next _ = _
  rcases hm with hm | hm | hm <;> rw [hm]

/-- A reading that changes the ceiling. -/
theorem thermal_moves {s : State} {h : Int} {L : Nat} (hn : thermalNext s.fmThermalHot s.foreman.level s.foreman.cool h = (L, 0))
    (hne : L ≠ s.foreman.level) : (s.thermal h).foreman.level = L ∧ (s.thermal h).foreman.cool = 0 ∧
      (∀ k < 7, ((s.thermal h).knob k).applied ≤ (rowMhz (if L = 0 then 0 else L + 1) : Int)) ∧
      Reports .fmThermalLevel (le 1 s.foreman.level ++ le 1 L ++ le 1 (unsigned 8 h)) s (s.thermal h) := by
  have hgo : s.thermal h = ((s.onForeman (fun f => { f with level := L, cool := 0 })).raise .fmThermalLevel
      (le 1 s.foreman.level ++ le 1 L ++ le 1 (unsigned 8 h))).fmEnvelope := by
    unfold State.thermal
    rw [hn]
    exact if_neg hne
  have hfm := foreman_raise (s.onForeman (fun f => { f with level := L, cool := 0 })) .fmThermalLevel
    (le 1 s.foreman.level ++ le 1 L ++ le 1 (unsigned 8 h))
  have hrep : Reports .fmThermalLevel (le 1 s.foreman.level ++ le 1 L ++ le 1 (unsigned 8 h)) s
      ((s.onForeman (fun f => { f with level := L, cool := 0 })).raise .fmThermalLevel (le 1 s.foreman.level ++ le 1 L ++ le 1 (unsigned 8 h))) :=
    reports_before (List.prefix_refl s.out) (reports_raise _ _ _)
  rw [hgo]
  generalize (s.onForeman (fun f => { f with level := L, cool := 0 })).raise .fmThermalLevel
    (le 1 s.foreman.level ++ le 1 L ++ le 1 (unsigned 8 h)) = u at *
  have hlevel : u.foreman.level = L := congrArg ForemanSt.level hfm
  have hsame := fmSame_fmRefresh u (fun k => decide (k < 7))
  refine ⟨hsame.level.trans hlevel, hsame.cool.trans (congrArg ForemanSt.cool hfm), fun k hk => ?_,
    reports_after hrep (does_fmEnvelope (M := 0xef20082) (by decide) (does_refl _ u)).out⟩
  rw [← hlevel]
  exact applied_fmRefresh_le u _ hk

theorem thermalNext_hot {hot level cool : Nat} {t : Int} (hl : level < 2) (ht : (hot : Int) + 10 ≤ t) : thermalNext hot level cool t = (2, 0) :=
  if_pos ⟨ht, hl⟩

theorem thermalNext_warm {hot level cool : Nat} {t : Int} (hl : level = 0) (ht : (hot : Int) ≤ t) (hlt : t < (hot : Int) + 10) :
    thermalNext hot level cool t = (1, 0) :=
  (if_neg fun h => absurd h.1 (not_le.mpr hlt)).trans (if_pos ⟨ht, by omega⟩)

/-- A window below the threshold of the step in force. -/
theorem thermalNext_cool {hot level cool : Nat} {t : Int} (hl : level = 1 ∨ level = 2) (ht : t < (hot : Int) + (if level = 2 then 5 else -5)) :
    thermalNext hot level cool t = if cool + 1 < 100 then (level, cool + 1) else (level - 1, 0) := by
  have hbelow : t < (if level = 2 then (hot : Int) + 5 else (hot : Int) - 5) := by
    split at ht
    next h => rw [if_pos h]; exact ht
    next h => rw [if_neg h]; omega
  have h1 : ¬((hot : Int) + 10 ≤ t ∧ level < 2) := by
    rintro ⟨ha, hb⟩
    rw [if_neg (by omega)] at ht
    omega
  have h2 : ¬((hot : Int) ≤ t ∧ level < 1) := by
    rintro ⟨-, hb⟩
    omega
  have h3 : level ≠ 0 := by omega
  exact (if_neg h1).trans ((if_neg h2).trans ((if_neg h3).trans (if_pos hbelow)))

/-- A cool window that does not lift the step is counted. -/
theorem thermal_counted {s : State} {h : Int} (hn : thermalNext s.fmThermalHot s.foreman.level s.foreman.cool h = (s.foreman.level, s.foreman.cool + 1)) :
    s.thermal h = s.onForeman (fun f => { f with cool := f.cool + 1 }) := by
  unfold State.thermal
  rw [hn]
  exact if_pos rfl

/-! ### The loops (R313, R319) -/

/-- Loops that act write values of their own alone. -/
def Looped (s t : State) : Prop := ∃ l, t = s.onForeman (fun m => { m with knobs := l })

theorem looped_refl (s : State) : Looped s s := ⟨s.foreman.knobs, rfl⟩

theorem looped_trans {s t u : State} (h : Looped s t) (k : Looped t u) : Looped s u := by
  obtain ⟨l, rfl⟩ := h
  obtain ⟨r, rfl⟩ := k
  exact ⟨r, rfl⟩

theorem looped_loopOne (s : State) (k : Nat) : Looped s (s.loopOne k) := by
  unfold State.loopOne
  dsimp only
  split
  · exact ⟨_, rfl⟩
  · exact looped_refl s

theorem knob_loopOne_other (s : State) (x k : Nat) (h : k ≠ x) : (s.loopOne x).knob k = s.knob k := by
  unfold State.loopOne
  dsimp only
  split
  · exact knob_setKnob_other s _ h
  · rfl

theorem fmSame_looped {s t : State} (h : Looped s t) : FmSame s t := by
  obtain ⟨l, rfl⟩ := h
  exact ⟨rfl, rfl, rfl, rfl, rfl, rfl⟩

/-- Which loops are in use rests on the set-up. -/
theorem loopOn_congr {s t : State} (h : t.setup = s.setup) (k : Nat) : t.loopOn k = s.loopOn k := by
  have hen : t.fmCtrlLoopsEn = s.fmCtrlLoopsEn := field_congr h _ _ _
  have hloop : t.fmModeLoopEn k = s.fmModeLoopEn k := field_congr h _ _ _
  unfold State.loopOn
  rw [hen, hloop]

/-- What a loop measures and may do rests on its own knob. -/
theorem loop_looped {s t : State} (h : Looped s t) {k : Nat} (hk : t.knob k = s.knob k) :
    t.knobWants k = s.knobWants k ∧ t.loopDue k = s.loopDue k ∧ t.fmFloorValue k = s.fmFloorValue k ∧ t.fmCeilingValue k = s.fmCeilingValue k := by
  obtain ⟨l, rfl⟩ := h
  have hlast : (s.onForeman (fun m => { m with knobs := l })).fmLast k = s.fmLast k := by
    unfold State.fmLast
    rw [hk]
    rfl
  have hset : (s.onForeman (fun m => { m with knobs := l })).setup = s.setup := rfl
  have hon : (s.onForeman (fun m => { m with knobs := l })).loopOn k = s.loopOn k := loopOn_congr hset k
  refine ⟨?_, ?_, field_congr hset _ _ _, field_congr hset _ _ _⟩
  · unfold State.knobWants
    rw [hk, hlast]
    rfl
  · unfold State.loopDue
    rw [hk, hon, show State.fmModePinEn _ k = s.fmModePinEn k from field_congr hset _ _ _]
    rfl

/-- The value of a loop that steps its knob (R313, R319). -/
def loopStep (s : State) (k : Nat) (v : Int) (up : Bool) : Int :=
  min (max (knobStep k v up) (knobValue k (s.fmFloorValue k))) (knobValue k (s.fmCeilingValue k))

/-- A due loop whose row asks for a step takes it. -/
theorem knob_loops {s : State} {k : Nat} (hk : k < 28) (hdue : s.loopDue k = true) (hw : (s.knobWants k).1 = true ∨ (s.knobWants k).2 = true) :
    ((List.range 28).foldl State.loopOne s).knob k = { s.knob k with loop := loopStep s k (s.knob k).applied (s.knobWants k).1 } := by
  obtain ⟨v, hloop, hsame, hlast⟩ := knob_foldl (R := Looped) looped_refl looped_trans looped_loopOne knob_loopOne_other
    List.nodup_range (List.mem_range.mpr hk) s
  obtain ⟨hwants, hdue', hfloor, hceil⟩ := loop_looped hloop hsame
  have hone : v.loopOne k = v.setKnob k (fun q => { q with loop := loopStep v k q.applied (v.knobWants k).1 }) :=
    if_pos ⟨hdue'.trans hdue, hwants ▸ hw⟩
  rw [hlast, hone, knob_setKnob_same, hsame, hwants]
  simp only [loopStep, hfloor, hceil]

theorem looped_loops (s : State) : Looped s ((List.range 28).foldl State.loopOne s) := by
  have hall (l : List Nat) (u : State) : Looped u (l.foldl State.loopOne u) := by
    induction l generalizing u with
    | nil => exact looped_refl u
    | cons x l ih => exact looped_trans (looped_loopOne u x) (ih _)
  exact hall _ s

/-- A loop's value inside its bounds is the target, and the envelope bears on it. -/
theorem appliedNext_loop {v : State} {k : Nat} (hpin : v.fmModePinEn k = 0) (hon : v.loopOn k = true) (hw : (v.knob k).wasPin = false) :
    appliedNext v k = (v.knobClamp k (min (max (v.knob k).loop (knobValue k (v.fmFloorValue k))) (knobValue k (v.fmCeilingValue k)))).1 := by
  have htaken : loopTaken v k = (v.knob k).loop := by simp [loopTaken, hw]
  unfold appliedNext State.knobEval
  simp only [htaken, hpin, hon, Nat.zero_ne_one, if_false, if_true]

theorem clamp_twice (x f c : Int) : min (max (min (max x f) c) f) c = min (max x f) c := by omega

/-- The envelope of the knobs whose loop does not follow another knob. -/
theorem knobClamp_loop {v : State} {k : Nat} (hk : k = 0 ∨ (7 ≤ k ∧ k < 19)) (x : Int) : (v.knobClamp k x).1 =
    if k = 0 then min x (v.knobLimit 0).1 else if k = 18 ∧ x < 100 then max x (min 100 (Config.bistNeed v.time.elapsed : Int)) else x := by
  unfold State.knobClamp
  rcases hk with rfl | ⟨hlo, hhi⟩
  · rw [if_pos (by decide), if_pos rfl]
    dsimp only
    split
    next h => exact (min_eq_left h).symm
    next h => exact (min_eq_right (by omega)).symm
  · have h0 : k ≠ 0 := by omega
    rw [if_neg (by omega), if_neg h0]
    by_cases h18 : k = 18 ∧ x < 100
    · rw [if_pos h18, if_pos h18]
      dsimp only
      push_cast
      split
      next h => exact (max_eq_right (le_of_lt h)).symm
      next h => exact (max_eq_left (not_lt.mp h)).symm
    · rw [if_neg h18, if_neg h18, if_pos hhi]

theorem limit_of {s v : State} (hb : v.supply.braced = s.supply.braced) (hl : v.foreman.level = s.foreman.level) : (v.knobLimit 0).1 = (s.knobLimit 0).1 := by
  have hnot (a b : Int) : ¬(0 < 0 ∧ a < b) := by omega
  unfold State.knobLimit
  dsimp only
  rw [hb, hl, if_neg (hnot _ _), if_neg (hnot _ _)]

/-! ### The close of a window (R319) -/

theorem fmClose_parts (s : State) (l : List (Nat × Nat × Nat)) : (s.fmClose l).setup = s.setup ∧ (s.fmClose l).time = s.time ∧
    (s.fmClose l).supply = s.supply ∧ (s.fmClose l).pair = s.pair ∧ (s.fmClose l).lookout = s.lookout ∧ (s.fmClose l).tether = s.tether ∧
    (s.fmClose l).foreman = { s.foreman with hist := (s.fmWindow l :: s.foreman.hist).take 1000 } ∧ (s.fmClose l).power.domain = s.power.domain := by
  have hd : Does 0x4c26000 s (s.fmClose l) := does_fmClose (by decide) (does_refl _ s)
  refine ⟨hd.keeps .setup (by decide), hd.keeps .time (by decide), hd.keeps .supply (by decide), hd.keeps .pair (by decide),
    hd.keeps .lookout (by decide), hd.keeps .tether (by decide), ?_, ?_⟩
  · unfold State.fmClose
    rfl
  · unfold State.fmClose
    rfl

theorem loopsHeld_fmClose (s : State) (l : List (Nat × Nat × Nat)) : (s.fmClose l).loopsHeld = s.loopsHeld := by
  obtain ⟨-, -, -, hpair, hlo, hteth, -, -⟩ := fmClose_parts s l
  unfold State.loopsHeld State.transition
  rw [hpair, hlo, hteth]

theorem exec_foremanLoop {s : State} (l : List (Nat × Nat × Nat)) (h : s.power.mode = .run ∨ s.power.mode = .idle) : exec (.foremanLoop l) s =
    .next (if s.loopsHeld then s.fmClose l else ((List.range 28).foldl State.loopOne (s.fmClose l)).fmRefresh (fun _ => false)) := by
  have hgo : exec (.foremanLoop l) s =
      .next (if (s.fmClose l).loopsHeld then s.fmClose l else ((List.range 28).foldl State.loopOne (s.fmClose l)).fmRefresh (fun _ => false)) :=
    congrArg Host.Outcome.next (if_pos h)
  rw [hgo, loopsHeld_fmClose]

theorem hist_foremanLoop {s : State} (l : List (Nat × Nat × Nat)) (h : s.power.mode = .run ∨ s.power.mode = .idle) :
    Gives (.foremanLoop l) s (fun t => t.foreman.hist = (s.fmWindow l :: s.foreman.hist).take 1000) := by
  refine ⟨_, exec_foremanLoop l h, ?_⟩
  obtain ⟨-, -, -, -, -, -, hfm, -⟩ := fmClose_parts s l
  generalize s.fmClose l = u at *
  have hclosed : u.foreman.hist = (s.fmWindow l :: s.foreman.hist).take 1000 := congrArg ForemanSt.hist hfm
  split
  · exact hclosed
  · exact ((fmSame_trans (fmSame_looped (looped_loops u)) (fmSame_fmRefresh _ _)).hist).trans hclosed

/-- What the close of a window does to a knob whose loop steps. -/
theorem foremanLoop_steps {s : State} {k : Nat} {l : List (Nat × Nat × Nat)} (hk : k = 0 ∨ (7 ≤ k ∧ k < 19)) (hheld : s.loopsHeld = false)
    (hm : s.power.mode = .run ∨ s.power.mode = .idle) (hdue : s.loopDue k = true) (hpin : (s.knob k).wasPin = false)
    (hw : ((s.fmClose l).knobWants k).1 = true ∨ ((s.fmClose l).knobWants k).2 = true) : Gives (.foremanLoop l) s (fun t =>
      (let x := loopStep s k (s.knob k).applied ((s.fmClose l).knobWants k).1
       (t.knob k).applied = if k = 0 then min x (s.knobLimit 0).1
         else if k = 18 ∧ x < 100 then max x (min 100 (Config.bistNeed s.time.elapsed : Int)) else x) ∧
      ((t.knob k).applied ≠ (s.knob k).applied →
        (t.knob k).changed = s.time.elapsed ∧ (t.knob k).changes = satAdd 32 (s.knob k).changes 1)) := by
  have hgo := exec_foremanLoop l hm
  rw [hheld, if_neg Bool.false_ne_true] at hgo
  refine ⟨_, hgo, ?_⟩
  obtain ⟨hset, htime, hsup, -, -, -, hfm, hdom⟩ := fmClose_parts s l
  have hknob : (s.fmClose l).knob k = s.knob k := by
    unfold State.knob
    rw [hfm]
  have hlevel : (s.fmClose l).foreman.level = s.foreman.level := by rw [hfm]
  generalize s.fmClose l = u at *
  have hmode : u.fmModePinEn k = s.fmModePinEn k := field_congr hset _ _ _
  have hon : u.loopOn k = s.loopOn k := loopOn_congr hset k
  have hdue' : u.loopDue k = true := by
    rw [← hdue]
    unfold State.loopDue
    rw [hon, hknob, htime, hdom, hmode]
  obtain ⟨hon', hmode'⟩ : s.loopOn k = true ∧ s.fmModePinEn k = 0 := by
    unfold State.loopDue at hdue
    simp only [Bool.and_eq_true, decide_eq_true_eq] at hdue
    obtain ⟨⟨hboth, -⟩, -⟩ := hdue
    exact hboth
  have hstep : loopStep u k (u.knob k).applied (u.knobWants k).1 = loopStep s k (s.knob k).applied (u.knobWants k).1 := by
    unfold loopStep
    rw [hknob, show u.fmFloorValue k = s.fmFloorValue k from field_congr hset _ _ _, show u.fmCeilingValue k = s.fmCeilingValue k from field_congr hset _ _ _]
  have hloops := knob_loops (s := u) (show k < 28 by omega) hdue' hw
  rw [hstep, hknob] at hloops
  have hsame : FmSame u ((List.range 28).foldl State.loopOne u) := fmSame_looped (looped_loops u)
  generalize (List.range 28).foldl State.loopOne u = w at *
  generalize hx : loopStep s k (s.knob k).applied (u.knobWants k).1 = x at *
  have hbound : min (max x (knobValue k (s.fmFloorValue k))) (knobValue k (s.fmCeilingValue k)) = x := by
    rw [← hx]
    exact clamp_twice _ _ _
  obtain ⟨v, hv, hvknob, happ, hmoved⟩ := knob_fmRefresh w (fun _ => false) (show k < 28 by omega)
  have hvset : v.setup = s.setup := hv.setup.trans (hsame.setup.trans hset)
  have hvtime : v.time = s.time := hv.time.trans (hsame.time.trans htime)
  have hvon : v.loopOn k = true := (loopOn_congr hvset k).trans hon'
  have hvmode : v.fmModePinEn k = 0 := (field_congr hvset _ _ _ : v.fmModePinEn k = s.fmModePinEn k).trans hmode'
  have hlimit : (v.knobLimit 0).1 = (s.knobLimit 0).1 := limit_of (by rw [hv.braced, hsame.braced, hsup]) (by rw [hv.level, hsame.level, hlevel])
  rw [appliedNext_loop hvmode hvon (by rw [hvknob, hloops]; exact hpin), hvknob, hloops, show v.fmFloorValue k = s.fmFloorValue k from field_congr hvset _ _ _,
    show v.fmCeilingValue k = s.fmCeilingValue k from field_congr hvset _ _ _] at happ
  dsimp only at happ
  rw [hbound, knobClamp_loop hk, hlimit, hvtime] at happ
  rw [hloops, hsame.time, htime] at hmoved
  exact ⟨happ, hmoved⟩

/-- Settles O56: each knob by its own update, the ceiling by the next level of each reading. -/
theorem loopsStepKnobsUnderTheThermalCeiling : Obligations.LoopsStepKnobsUnderTheThermalCeiling := by
  unfold Obligations.LoopsStepKnobsUnderTheThermalCeiling
  refine ⟨fun s l hr hi => ?_, fun s l hm => ⟨hist_foremanLoop l hm, fun hheld => ?_⟩, fun s k l hk hheld hm hdue hpin hw =>
    foremanLoop_steps hk hheld hm hdue hpin hw, fun s h hm => ⟨fun hl ht => ?_, fun hl ht hlt => ?_, fun L hL h12 ht => ⟨fun hc => ?_, fun hc => ?_⟩⟩,
    fun s h hr hi he => ?_⟩
  · refine congrArg Host.Outcome.next (if_neg ?_)
    rintro (h | h)
    · exact hr h
    · exact hi h
  · rw [exec_foremanLoop l hm, if_pos hheld]
  · exact ⟨_, exec_thermalWindow h hm, thermal_moves (L := 2) (thermalNext_hot hl ht) (by omega)⟩
  · have hmoves := thermal_moves (L := 1) (thermalNext_warm (cool := s.foreman.cool) hl ht hlt) (by omega)
    rw [hl] at hmoves
    exact ⟨_, exec_thermalWindow h hm, hmoves⟩
  · subst hL
    have hn := thermalNext_cool (cool := s.foreman.cool) h12 ht
    rw [if_pos hc] at hn
    rw [exec_thermalWindow h hm, thermal_counted hn]
  · subst hL
    have hn := thermalNext_cool (cool := s.foreman.cool) h12 ht
    rw [if_neg (by omega)] at hn
    obtain ⟨hlevel, hcool, -, hrep⟩ := thermal_moves hn (by omega)
    exact ⟨_, exec_thermalWindow h hm, hlevel, hcool, hrep⟩
  · show Host.Outcome.next _ = _
    congr 1
    split
    next h => exact absurd h hr
    next h => exact absurd h hi
    next h => exact absurd h he
    next => rfl

end Sys2Proof.Proofs
end

section
/-! The bits of a Tether frame: what a sender stuffs its receivers read (R327, R328). -/
namespace Sys2Proof.Proofs
open Sys2Proof Sys2Proof.Machine Sys2Proof.Laws
set_option Elab.async false -- one thread, within the memory of the check

/-! ### Numbers and bytes as bits -/

theorem length_msbBits (n x : Nat) : (msbBits n x).length = n := by
  induction n with
  | zero => rfl
  | succ n ih => exact congrArg Nat.succ ih

theorem foldl_msbBits (n x a : Nat) : (msbBits n x).foldl (fun m b => 2 * m + ofBool b) a = a * 2 ^ n + x % 2 ^ n := by
  have hbit (k : Nat) : ofBool (bit x k) = x / 2 ^ k % 2 := by
    unfold bit ofBool
    rcases Nat.mod_two_eq_zero_or_one (x / 2 ^ k) with h | h <;> simp [h]
  induction n generalizing a with
  | zero => simp [msbBits, Nat.mod_one]
  | succ n ih =>
    rw [msbBits, List.foldl_cons, ih, hbit, Nat.mod_pow_succ, Nat.pow_succ]
    ring

theorem ofMsb_msbBits {n x : Nat} (h : x < 2 ^ n) : ofMsb (msbBits n x) = x := by
  rw [ofMsb, foldl_msbBits, Nat.mod_eq_of_lt h, Nat.zero_mul, Nat.zero_add]

theorem length_byteBits (p : Bytes) : (byteBits p).length = 8 * p.length := by
  induction p with
  | nil => rfl
  | cons b p ih =>
    have hcons : byteBits (b :: p) = msbBits 8 b.toNat ++ byteBits p := rfl
    rw [hcons, List.length_append, ih, length_msbBits, List.length_cons]
    omega

theorem bitsBytes_byteBits (p : Bytes) (r : List Bool) : bitsBytes p.length (byteBits p ++ r) = p := by
  induction p with
  | nil => rfl
  | cons b p ih =>
    have hcons : byteBits (b :: p) ++ r = msbBits 8 b.toNat ++ (byteBits p ++ r) := List.append_assoc _ _ _
    have hlen : (msbBits 8 b.toNat).length = 8 := length_msbBits _ _
    have hhead : ((msbBits 8 b.toNat ++ (byteBits p ++ r)).drop (8 * 0)).take 8 = msbBits 8 b.toNat := List.take_left' hlen
    have htail (i : Nat) : (msbBits 8 b.toNat ++ (byteBits p ++ r)).drop (8 * (i + 1)) = (byteBits p ++ r).drop (8 * i) := by
      rw [show 8 * (i + 1) = 8 + 8 * i by omega, ← List.drop_drop, List.drop_left' hlen]
    have hrest : (List.range p.length).map (fun i => BitVec.ofNat 8 (ofMsb (((msbBits 8 b.toNat ++ (byteBits p ++ r)).drop (8 * (i + 1))).take 8))) =
        bitsBytes p.length (byteBits p ++ r) := List.map_congr_left fun i _ => by rw [htail]
    rw [hcons, List.length_cons, bitsBytes, List.range_succ_eq_map, List.map_cons, List.map_map, hhead, ofMsb_msbBits b.isLt]
    exact congrArg₂ List.cons (BitVec.ofNat_toNat 8 b) (hrest.trans ih)

/-! ### Stuffing and reading back -/

/-- A run of five is ended by a stuff bit, which is the first of the next run. -/
theorem stuffBits_full (prev : Bool) (l : List Bool) : stuffBits prev 5 l = (!prev) :: stuffBits (!prev) 1 l := by
  cases l with
  | nil => rfl
  | cons b l =>
    have hrun : (if b = prev then 1 else 2) = if b = !prev then 1 + 1 else 1 := by cases b <;> cases prev <;> rfl
    rw [stuffBits, if_pos rfl, hrun, stuffBits.eq_def (!prev) 1 (b :: l)]
    rfl

theorem destuff_full (n : Nat) (prev : Bool) (l : List Bool) : destuff n prev 5 ((!prev) :: l) = destuff n (!prev) 1 l := by
  have hne : ¬((!prev) = prev) := by cases prev <;> decide
  cases n with
  | zero => rw [destuff, if_pos rfl, if_neg hne]
  | succ n => rw [destuff, if_pos rfl, if_neg hne]

/-- A run that a bit does not fill. -/
theorem run_lt {c : Prop} [Decidable c] {run : Nat} (h : run < 5) (hne : (if c then run + 1 else 1) ≠ 5) : (if c then run + 1 else 1) < 5 := by
  split
  next hc =>
    rw [if_pos hc] at hne
    omega
  next => decide

/-- A reader of some of the bits that a sender stuffs reads them, and is then where the sender was. -/
theorem destuff_stuffBits (h d rest : List Bool) {prev : Bool} {run : Nat} (hrun : run < 5) : ∃ p r, r < 5 ∧
    destuff h.length prev run (stuffBits prev run (h ++ d) ++ rest) = some (h, p, r, stuffBits p r d ++ rest) := by
  induction h generalizing prev run with
  | nil =>
    refine ⟨prev, run, hrun, ?_⟩
    show destuff 0 prev run (stuffBits prev run d ++ rest) = _
    generalize stuffBits prev run d ++ rest = l
    cases l with
    | nil => rfl
    | cons b l => rw [destuff, if_neg (by omega)]
  | cons b h ih =>
    have hnext : ∃ p r, r < 5 ∧ destuff h.length b (if b = prev then run + 1 else 1)
        (stuffBits b (if b = prev then run + 1 else 1) (h ++ d) ++ rest) = some (h, p, r, stuffBits p r d ++ rest) := by
      by_cases hfive : (if b = prev then run + 1 else 1) = 5
      · rw [hfive, stuffBits_full, List.cons_append, destuff_full]
        exact ih (by decide)
      · exact ih (run_lt hrun hfive)
    obtain ⟨p, r, hr, hread⟩ := hnext
    refine ⟨p, r, hr, ?_⟩
    rw [List.cons_append, stuffBits, if_neg (by omega), List.cons_append, List.length_cons, destuff, if_neg (by omega), hread]
    rfl

/-! ### Frames -/

/-- The first 24 bits: SOF, ID, SW and LEN. -/
def wireHead (id n : Nat) : List Bool := false :: msbBits 16 id ++ true :: msbBits 6 n

/-- The bits behind LEN. -/
def wireBody (seq : Nat) (p : Bytes) (check : Nat) : List Bool := msbBits 8 seq ++ (byteBits p ++ msbBits 16 check)

theorem tetherFields_eq (id seq : Nat) (p : Bytes) (check : Nat) : tetherFields id seq p check = wireHead id p.length ++ wireBody seq p check := by
  simp only [tetherFields, wireHead, wireBody, List.append_assoc, List.cons_append]

theorem wireHead_reads {id n : Nat} (hid : id < 2 ^ 16) (hn : n < 2 ^ 6) : (wireHead id n).length = 24 ∧ (wireHead id n).headD true = false ∧
    (wireHead id n).getD 17 false = true ∧ ofMsb (((wireHead id n).drop 1).take 16) = id ∧ ofMsb ((wireHead id n).drop 18) = n := by
  have hlen : (false :: msbBits 16 id).length = 17 := by rw [List.length_cons, length_msbBits]
  refine ⟨?_, rfl, ?_, ?_, ?_⟩
  · rw [wireHead, List.length_append, hlen, List.length_cons, length_msbBits]
  · rw [wireHead, List.getD_append_right _ _ _ _ (le_of_eq hlen), hlen]
    rfl
  · have htake : ((wireHead id n).drop 1).take 16 = msbBits 16 id := List.take_left' (length_msbBits _ _)
    rw [htake, ofMsb_msbBits hid]
  · have hdrop : (wireHead id n).drop 18 = msbBits 6 n := by
      rw [wireHead, show 18 = 17 + 1 from rfl, ← List.drop_drop, List.drop_left' hlen]
      rfl
    rw [hdrop, ofMsb_msbBits hn]

theorem wireBody_reads {seq check : Nat} (p : Bytes) (hs : seq < 2 ^ 8) (hc : check < 2 ^ 16) : (wireBody seq p check).length = 24 + 8 * p.length ∧
    ofMsb ((wireBody seq p check).take 8) = seq ∧ bitsBytes p.length ((wireBody seq p check).drop 8) = p ∧
    ofMsb ((wireBody seq p check).drop (8 + 8 * p.length)) = check := by
  have hlen : (msbBits 8 seq).length = 8 := length_msbBits _ _
  have hdrop : (wireBody seq p check).drop 8 = byteBits p ++ msbBits 16 check := List.drop_left' hlen
  refine ⟨?_, ?_, ?_, ?_⟩
  · rw [wireBody, List.length_append, List.length_append, hlen, length_byteBits, length_msbBits]
    omega
  · rw [wireBody, List.take_left' hlen, ofMsb_msbBits hs]
  · rw [hdrop, bitsBytes_byteBits]
  · rw [← List.drop_drop, hdrop, List.drop_left' (length_byteBits p), ofMsb_msbBits hc]

/-- What a sender stuffs its receivers read. -/
theorem readWire_tetherWire {id seq check : Nat} {p : Bytes} (hid : id < 2 ^ 16) (hs : seq < 2 ^ 8) (hc : check < 2 ^ 16) (hp : p.length ≤ 32) :
    readWire (tetherWire id seq p check) = (.ok, id, seq, p, check) := by
  obtain ⟨hlen, hsof, hsw, hread, hn⟩ := wireHead_reads hid (show p.length < 2 ^ 6 by omega)
  obtain ⟨hblen, hseq, hbytes, hcheck⟩ := wireBody_reads p hs hc
  obtain ⟨p1, r1, hr1, hfirst⟩ := destuff_stuffBits (wireHead id p.length) (wireBody seq p check) (List.replicate 10 true) (prev := true)
    (run := 0) (by decide)
  obtain ⟨p2, r2, hr2, hsecond⟩ := destuff_stuffBits (wireBody seq p check) [] (List.replicate 10 true) (prev := p1) hr1
  have hend : stuffBits p2 r2 [] ++ List.replicate 10 true = List.replicate 10 true := by
    rw [stuffBits, if_neg (by omega), List.nil_append]
  rw [hlen] at hfirst
  rw [List.append_nil, hblen, hend] at hsecond
  have hhead : ¬((wireHead id p.length).length < 24 ∨ (wireHead id p.length).headD true = true ∨ (wireHead id p.length).getD 17 false = false ∨
      32 < p.length) := by
    rw [hlen, hsof, hsw]
    simp [hp]
  unfold readWire
  rw [tetherWire, tetherFields_eq, hfirst]
  dsimp only
  rw [hn, if_neg hhead, hsecond, hread]
  dsimp only
  rw [hseq, hbytes, hcheck, if_pos ⟨hblen, by decide⟩]

end Sys2Proof.Proofs
end

section
/-! Received Tether frames: O57, and what the acceptance of a frame leaves to the act of its type. -/
namespace Sys2Proof.Proofs
open Sys2Proof Sys2Proof.Machine Sys2Proof.Laws
set_option Elab.async false -- one thread, within the memory of the check

/-! ### What the acts of received frames leave alone -/

/-- The record of a station's last frame stays, and so does the count of accepted frames; what left the sled stands. -/
structure PeerKept (n : Nat) (s t : State) : Prop where
  present : (t.peer n).present = (s.peer n).present
  lastOk  : (t.peer n).lastOk = (s.peer n).lastOk
  lastId  : (t.peer n).lastId = (s.peer n).lastId
  lastSeq : (t.peer n).lastSeq = (s.peer n).lastSeq
  counted : tget t.tether.counts 1 = tget s.tether.counts 1
  out     : s.out <+: t.out

theorem peerKept_refl (n : Nat) (s : State) : PeerKept n s s := ⟨rfl, rfl, rfl, rfl, rfl, List.prefix_refl _⟩

theorem peerKept_trans {n : Nat} {s t u : State} (h : PeerKept n s t) (k : PeerKept n t u) : PeerKept n s u :=
  ⟨k.present.trans h.present, k.lastOk.trans h.lastOk, k.lastId.trans h.lastId, k.lastSeq.trans h.lastSeq, k.counted.trans h.counted,
    h.out.trans k.out⟩

theorem peerKept_ite {n : Nat} {s t u : State} {p : Prop} [Decidable p] (ht : PeerKept n s t) (hu : PeerKept n s u) :
    PeerKept n s (if p then t else u) := by
  split
  · exact ht
  · exact hu

theorem peer_congr {s t : State} (h : t.tether.peers = s.tether.peers) (n : Nat) : t.peer n = s.peer n :=
  congrArg (fun l => Tbl.get (fun _ => PeerSt.init) l n) h

theorem peerKept_of {n : Nat} {s t : State} (hp : t.tether.peers = s.tether.peers) (hc : t.tether.counts = s.tether.counts) (ho : s.out <+: t.out) :
    PeerKept n s t := by
  have hpeer := peer_congr hp n
  exact ⟨by rw [hpeer], by rw [hpeer], by rw [hpeer], by rw [hpeer], by rw [hc], ho⟩

theorem peerKept_onTether (n : Nat) (s : State) {f : TetherSt → TetherSt} (hp : ∀ t, (f t).peers = t.peers := by exact fun _ => rfl)
    (hc : ∀ t, (f t).counts = t.counts := by exact fun _ => rfl) : PeerKept n s (s.onTether f) :=
  peerKept_of (hp s.tether) (hc s.tether) (List.prefix_refl _)

theorem peerKept_does {n m : Nat} {s t : State} (h : Does m s t) (hm : m.testBit 24 = false := by decide) : PeerKept n s t := by
  have ht : t.tether = s.tether := h.keeps .tether hm
  exact peerKept_of (by rw [ht]) (by rw [ht]) h.out

theorem tether_raise (s : State) (e : Ev) (b : Bytes) : (s.raise e b).tether = s.tether := (flags_raise e b (flags_refl s)).keeps .tether (by decide)

theorem peerKept_raise (n : Nat) (s : State) (e : Ev) (b : Bytes) : PeerKept n s (s.raise e b) :=
  peerKept_of (by rw [tether_raise]) (by rw [tether_raise]) (out_of_flags (flags_raise e b (flags_refl s)))

theorem peerKept_tetherQueue (n : Nat) (s : State) (typ : Nat) (b : Bytes) : PeerKept n s (s.tetherQueue typ b) :=
  peerKept_ite (peerKept_refl n s) (peerKept_onTether n s)

theorem peerKept_tetherCount (n : Nat) (s : State) {k : Nat} (h : k ≠ 1) : PeerKept n s (s.tetherCount k) :=
  ⟨rfl, rfl, rfl, rfl, tget_tput_other _ _ (Ne.symm h), List.prefix_refl _⟩

/-- A record of a station that leaves its last frame. -/
theorem peerKept_setPeer (n : Nat) (s : State) (k : Nat) {f : PeerSt → PeerSt}
    (hf : ∀ p, (f p).present = p.present ∧ (f p).lastOk = p.lastOk ∧ (f p).lastId = p.lastId ∧ (f p).lastSeq = p.lastSeq :=
      by exact fun _ => ⟨rfl, rfl, rfl, rfl⟩) : PeerKept n s (s.setPeer k f) := by
  by_cases hk : n = k
  · subst hk
    obtain ⟨h1, h2, h3, h4⟩ := hf (s.peer n)
    refine ⟨?_, ?_, ?_, ?_, rfl, List.prefix_refl _⟩
    · rw [peer_setPeer_same, h1]
    · rw [peer_setPeer_same, h2]
    · rw [peer_setPeer_same, h3]
    · rw [peer_setPeer_same, h4]
  · have hother := peer_setPeer_other s f hk
    exact ⟨by rw [hother], by rw [hother], by rw [hother], by rw [hother], rfl, List.prefix_refl _⟩

theorem peerKept_elderRefresh (n : Nat) (s : State) : PeerKept n s s.elderRefresh :=
  peerKept_ite (peerKept_onTether n s) (peerKept_trans (peerKept_onTether n s) (peerKept_raise n _ _ _))

theorem peerKept_refRefresh (n : Nat) (s : State) : PeerKept n s s.refRefresh :=
  peerKept_ite (peerKept_onTether n s) (peerKept_trans (peerKept_onTether n s) (peerKept_raise n _ _ _))

theorem peerKept_tableRefresh (n : Nat) (s : State) : PeerKept n s s.tableRefresh :=
  peerKept_trans (peerKept_elderRefresh n s) (peerKept_refRefresh n _)

/-! ### The acts by type -/

theorem peerKept_recordMember (n : Nat) (s : State) (k : Nat) (f : TetherFrame) : PeerKept n s (s.recordMember k f) :=
  peerKept_setPeer n s k

theorem peerKept_toListening (n : Nat) (s : State) : PeerKept n s s.toListening := peerKept_onTether n s

theorem peerKept_choose (n : Nat) (s : State) : PeerKept n s s.choose := by
  unfold State.choose
  split
  · exact peerKept_trans (peerKept_onTether n s) (peerKept_tetherQueue n _ _ _)
  · exact peerKept_trans (peerKept_toListening n s) (peerKept_raise n _ _ _)

theorem peerKept_chooseAgain (n : Nat) (s : State) : PeerKept n s s.chooseAgain := peerKept_trans (peerKept_onTether n s) (peerKept_choose n _)

theorem peerKept_duplicate (n : Nat) (s : State) (serial : Nat) : PeerKept n s (s.duplicate serial) := peerKept_raise n s _ _

theorem peerKept_joinedTwice (n : Nat) (s : State) (serial : Nat) : PeerKept n s (s.joinedTwice serial) :=
  peerKept_ite (peerKept_trans (peerKept_toListening n s) (peerKept_duplicate n _ serial)) (peerKept_tetherQueue n s _ _)

theorem peerKept_claimIn (n : Nat) (f : TetherFrame) (s : State) (k : Nat) : PeerKept n s (State.claimIn f s k) := by
  have hrec := peerKept_recordMember n s k f
  unfold State.claimIn
  dsimp only
  refine peerKept_ite hrec ?_
  split
  · exact peerKept_trans hrec (peerKept_tetherQueue n _ _ _)
  · exact peerKept_ite (peerKept_trans (peerKept_trans hrec (peerKept_duplicate n _ _)) (peerKept_chooseAgain n _)) hrec
  · exact hrec

theorem peerKept_objectIn (n : Nat) (f : TetherFrame) (s : State) (k : Nat) : PeerKept n s (State.objectIn f s k) := by
  have hrec := peerKept_recordMember n s k f
  unfold State.objectIn
  dsimp only
  refine peerKept_ite hrec ?_
  split
  · exact peerKept_trans hrec (peerKept_chooseAgain n _)
  · exact peerKept_trans hrec (peerKept_joinedTwice n _ _)
  · exact hrec

theorem peerKept_heartbeatIn (n : Nat) (f : TetherFrame) (s : State) (k : Nat) : PeerKept n s (State.heartbeatIn f s k) := by
  have hrec := peerKept_recordMember n s k f
  unfold State.heartbeatIn
  dsimp only
  refine peerKept_ite (peerKept_ite hrec (peerKept_trans hrec (peerKept_joinedTwice n _ _))) ?_
  exact peerKept_trans (peerKept_trans hrec (peerKept_setPeer n _ k)) (peerKept_tableRefresh n _)

theorem peerKept_gsAbort (n : Nat) (s : State) (reason : Nat) : PeerKept n s (s.gsAbort reason) :=
  peerKept_trans (peerKept_onTether n s) (peerKept_raise n _ _ _)

theorem peerKept_elderAbort (n : Nat) (s : State) (reason : Nat) : PeerKept n s (s.elderAbort reason) :=
  peerKept_trans (peerKept_gsAbort n s reason) (peerKept_tetherQueue n _ _ _)

theorem peerKept_gsCommit (n : Nat) (s : State) : PeerKept n s s.gsCommit :=
  peerKept_ite (peerKept_trans (peerKept_onTether n s) (peerKept_tetherQueue n _ _ _)) (peerKept_refl n s)

theorem peerKept_vetoIn (n : Nat) (f : TetherFrame) (s : State) (k : Nat) : PeerKept n s (State.vetoIn f s k) :=
  peerKept_ite (peerKept_ite (peerKept_elderAbort n s 7) (peerKept_ite (peerKept_refl n s) (peerKept_gsAbort n s 7))) (peerKept_refl n s)

theorem peerKept_registerWake (n : Nat) (s : State) (src det : Nat) : PeerKept n s (s.registerWake src det) := by
  have hpower (f : PowerSt → PowerSt) : PeerKept n s (s.onPower f) := peerKept_does (does_onPower (m := 0x400000) (by decide) (does_refl _ s))
  have hexit (w : Wake) : PeerKept n s (s.beginExit w false) := peerKept_does (does_beginExit (M := 0x610000) (by decide) (does_refl _ s))
  have hveto (w : Wake) : PeerKept n s (s.vetoWake w) := by
    have hgo := peerKept_ite (p := s.tether.heldWake.isSome = true) (peerKept_refl n s)
      (peerKept_trans (peerKept_tetherQueue n s 0x10 (le 1 s.tether.round ++ le 1 s.tether.proposer))
        (peerKept_onTether n _ (f := fun t => { t with heldWake := some w })))
    unfold State.vetoWake
    split
    · exact hgo
    · exact hgo
    · exact peerKept_refl n s
  unfold State.registerWake
  dsimp only
  refine peerKept_ite (peerKept_refl n s) ?_
  split
  · exact peerKept_ite (hpower _) (peerKept_refl n s)
  · exact peerKept_ite (hexit _) (peerKept_refl n s)
  · exact peerKept_ite (hexit _) (peerKept_refl n s)
  · exact peerKept_ite (hpower _) (peerKept_refl n s)
  · exact peerKept_ite (hveto _) (peerKept_refl n s)
  · exact peerKept_ite (hveto _) (peerKept_refl n s)
  · exact peerKept_refl n s

theorem peerKept_wakeAllIn (n : Nat) (s : State) (k : Nat) : PeerKept n s (s.wakeAllIn k) := by
  unfold State.wakeAllIn
  split
  · exact peerKept_registerWake n s 6 k
  · exact peerKept_registerWake n s 6 k
  · exact peerKept_registerWake n s 6 k
  · exact peerKept_registerWake n s 6 k
  · exact peerKept_refl n s

theorem peerKept_abortIn (n : Nat) (f : TetherFrame) (s : State) (k : Nat) : PeerKept n s (State.abortIn f s k) :=
  peerKept_ite (peerKept_gsAbort n s _) (peerKept_refl n s)

theorem peerKept_proposeIn (n : Nat) (f : TetherFrame) (h : Int) (s : State) (k : Nat) : PeerKept n s (State.proposeIn f h s k) :=
  peerKept_ite (peerKept_refl n s) (peerKept_ite (peerKept_tetherQueue n s _ _) (peerKept_trans (peerKept_onTether n s) (peerKept_tetherQueue n _ _ _)))

theorem peerKept_agreeIn (n : Nat) (f : TetherFrame) (s : State) (k : Nat) : PeerKept n s (State.agreeIn f s k) :=
  peerKept_ite (peerKept_trans (peerKept_onTether n s) (peerKept_gsCommit n _)) (peerKept_refl n s)

theorem peerKept_refuseIn (n : Nat) (f : TetherFrame) (s : State) (k : Nat) : PeerKept n s (State.refuseIn f s k) :=
  peerKept_ite (peerKept_elderAbort n s 8) (peerKept_refl n s)

theorem peerKept_commitIn (n : Nat) (f : TetherFrame) (s : State) (k : Nat) : PeerKept n s (State.commitIn f s k) :=
  peerKept_ite (peerKept_trans (peerKept_onTether n s) (peerKept_raise n _ _ _)) (peerKept_refl n s)

theorem peerKept_syncIn (n : Nat) (f : TetherFrame) (s : State) (k : Nat) : PeerKept n s (State.syncIn f s k) :=
  peerKept_ite (peerKept_onTether n s) (peerKept_refl n s)

theorem peerKept_followIn (n : Nat) (f : TetherFrame) (s : State) (k : Nat) : PeerKept n s (State.followIn f s k) := by
  have hadj (t : State) (a : Nat) (x : Int) : PeerKept n t (t.adjust 3 a x) := peerKept_does (does_adjust (M := 0xe221086) (by decide) (does_refl _ t))
  have hfree (t : State) : PeerKept n t t.useFree := peerKept_does (does_useFree (M := 0x10000000) (by decide) (does_refl _ t))
  unfold State.followIn
  split
  · extract_lets offset s1 big x s2
    have h2 : PeerKept n s s2 := by
      have h1 : PeerKept n s s1 := peerKept_onTether n s
      exact peerKept_ite (peerKept_trans h1 (hadj s1 2 x)) (peerKept_trans (peerKept_trans h1 (hfree s1)) (hadj _ 1 x))
    exact peerKept_ite (peerKept_trans h2 (peerKept_tetherCount n s2 (by decide))) h2
  · exact peerKept_refl n s

theorem peerKept_failoverIn (n : Nat) (f : TetherFrame) (s : State) (k : Nat) : PeerKept n s (State.failoverIn f s k) :=
  peerKept_trans (peerKept_setPeer n s k) (peerKept_raise n _ _ _)

theorem peerKept_operatorIn (n : Nat) (f : TetherFrame) (s : State) (k : Nat) : PeerKept n s (State.operatorIn f s k) :=
  peerKept_ite (peerKept_trans (peerKept_onTether n s) (peerKept_raise n _ _ _)) (peerKept_tetherCount n s (by decide))

/-- Every command that brings a frame tests it for its type, and then acts by an act that leaves the sender's record. -/
theorem framed_act {c : Instr} {typ : Nat} {f : TetherFrame} (h : Framed c typ f) : ∃ act : State → Nat → State,
    (∀ s, exec c s = .next (s.tetherIn typ f act)) ∧ ∀ n s k, PeerKept n s (act s k) := by
  rcases h with ⟨rfl, rfl⟩ | ⟨rfl, rfl⟩ | ⟨rfl, rfl⟩ | ⟨rfl, rfl⟩ | ⟨rfl, rfl⟩ | ⟨rfl, rfl⟩ | ⟨⟨h, rfl⟩, rfl⟩ | ⟨rfl, rfl⟩ | ⟨rfl, rfl⟩ |
    ⟨rfl, rfl⟩ | ⟨rfl, rfl⟩ | ⟨rfl, rfl⟩ | ⟨rfl, rfl⟩ | ⟨rfl, rfl⟩
  · exact ⟨State.claimIn f, fun _ => rfl, fun n s k => peerKept_claimIn n f s k⟩
  · exact ⟨State.objectIn f, fun _ => rfl, fun n s k => peerKept_objectIn n f s k⟩
  · exact ⟨State.heartbeatIn f, fun _ => rfl, fun n s k => peerKept_heartbeatIn n f s k⟩
  · exact ⟨State.vetoIn f, fun _ => rfl, fun n s k => peerKept_vetoIn n f s k⟩
  · exact ⟨State.wakeAllIn, fun _ => rfl, fun n s k => peerKept_wakeAllIn n s k⟩
  · exact ⟨State.abortIn f, fun _ => rfl, fun n s k => peerKept_abortIn n f s k⟩
  · exact ⟨State.proposeIn f h, fun _ => rfl, fun n s k => peerKept_proposeIn n f h s k⟩
  · exact ⟨State.agreeIn f, fun _ => rfl, fun n s k => peerKept_agreeIn n f s k⟩
  · exact ⟨State.refuseIn f, fun _ => rfl, fun n s k => peerKept_refuseIn n f s k⟩
  · exact ⟨State.commitIn f, fun _ => rfl, fun n s k => peerKept_commitIn n f s k⟩
  · exact ⟨State.syncIn f, fun _ => rfl, fun n s k => peerKept_syncIn n f s k⟩
  · exact ⟨State.followIn f, fun _ => rfl, fun n s k => peerKept_followIn n f s k⟩
  · exact ⟨State.failoverIn f, fun _ => rfl, fun n s k => peerKept_failoverIn n f s k⟩
  · exact ⟨State.operatorIn f, fun _ => rfl, fun n s k => peerKept_operatorIn n f s k⟩

/-! ### The tests of a frame (R329, R330, R333) -/

theorem rxReject_form {s : State} {f : TetherFrame} (h : f.form = .ok) {prio lo hi : Nat} (ht : tetherType (bits f.id.toNat 6 7) = some (prio, lo, hi)) :
    s.rxReject f = if bits f.id.toNat 13 3 ≠ prio ∨ f.payload.length < lo ∨ hi < f.payload.length then some 7
      else if tetherMember (bits f.id.toNat 6 7) = false ∧ (s.peer (bits f.id.toNat 0 6)).known = false then some 5
      else if f.check.toNat ≠ tetherCheck f.id.toNat f.seq.toNat f.payload (s.peer (bits f.id.toNat 0 6)).session then some 5 else none := by
  unfold State.rxReject
  dsimp only
  rw [h, ht]

theorem rxReject_stuff {s : State} {f : TetherFrame} (h : f.form = .stuffError) : s.rxReject f = some 6 := by
  unfold State.rxReject
  rw [h]

theorem rxReject_error {s : State} {f : TetherFrame} (h : f.form = .formError) : s.rxReject f = some 7 := by
  unfold State.rxReject
  rw [h]

theorem rxReject_type {s : State} {f : TetherFrame} (h : f.form = .ok) (ht : tetherType (bits f.id.toNat 6 7) = none) : s.rxReject f = some 7 := by
  unfold State.rxReject
  dsimp only
  rw [h, ht]

/-- A wrong check, or a sender that is not known, is counted under 5. -/
theorem rxReject_check {s : State} {f : TetherFrame} (h : f.form = .ok) {prio lo hi : Nat} (ht : tetherType (bits f.id.toNat 6 7) = some (prio, lo, hi))
    (hp : bits f.id.toNat 13 3 = prio) (hlo : lo ≤ f.payload.length) (hhi : f.payload.length ≤ hi)
    (hc : f.check.toNat ≠ tetherCheck f.id.toNat f.seq.toNat f.payload (s.peer (bits f.id.toNat 0 6)).session ∨
      (tetherMember (bits f.id.toNat 6 7) = false ∧ (s.peer (bits f.id.toNat 0 6)).known = false)) : s.rxReject f = some 5 := by
  rw [rxReject_form h ht, if_neg (by omega)]
  rcases hc with hc | hc
  · rw [if_pos hc, ite_self]
  · rw [if_pos hc]

theorem tetherIn_rejected {s : State} {f : TetherFrame} {k : Nat} (hr : s.tetherRuns = true) (h : s.rxReject f = some k) (typ : Nat)
    (act : State → Nat → State) : s.tetherIn typ f act = s.tetherCount k := by
  unfold State.tetherIn
  rw [if_neg (by simp [hr]), h]

theorem tetherIn_passed {s : State} {f : TetherFrame} (hr : s.tetherRuns = true) (h : s.rxReject f = none) (typ : Nat) (act : State → Nat → State) :
    s.tetherIn typ f act = if bits f.id.toNat 6 7 ≠ typ then s
      else if s.rxRepeat f then (s.emit .tetherAck).tetherCount 8 else act (s.rxAccept f) (bits f.id.toNat 0 6) := by
  unfold State.tetherIn
  rw [if_neg (by simp [hr]), h]

/-- An accepted frame reaches the act of its type. -/
theorem tetherIn_accepted {s : State} {f : TetherFrame} {typ : Nat} (h : Accepted typ f s) (act : State → Nat → State) :
    s.tetherIn typ f act = act (s.rxAccept f) (bits f.id.toNat 0 6) := by
  obtain ⟨hr, ht, hn, hrep⟩ := h
  rw [tetherIn_passed hr hn, if_neg (by simp [ht]), if_neg (by simp [hrep])]

/-! ### An accepted frame (R333, R340) -/

/-- The acknowledge, the count and the station's record. -/
def rxNoted (s : State) (f : TetherFrame) : State :=
  ((s.emit .tetherAck).tetherCount 1).setPeer (bits f.id.toNat 0 6) (fun p =>
    { p with present := true, lastAt := s.rtc.count, lastOk := some s.rtc.count, lastId := f.id.toNat, lastSeq := f.seq.toNat })

theorem rxAccept_eq (s : State) (f : TetherFrame) : s.rxAccept f =
    (if s.stationHere (bits f.id.toNat 0 6) then rxNoted s f
      else (rxNoted s f).raise .tetherStationUp (le 1 (bits f.id.toNat 0 6))).tableRefresh := rfl

theorem peer_rxNoted (s : State) (f : TetherFrame) : (rxNoted s f).peer (bits f.id.toNat 0 6) =
    { s.peer (bits f.id.toNat 0 6) with present := true, lastAt := s.rtc.count, lastOk := some s.rtc.count, lastId := f.id.toNat, lastSeq := f.seq.toNat } := by
  unfold rxNoted
  rw [peer_setPeer_same]
  rfl

theorem counts_rxNoted (s : State) (f : TetherFrame) : tget (rxNoted s f).tether.counts 1 = satAdd 32 (tget s.tether.counts 1) 1 :=
  tget_tput_same _ _ _

/-- What follows the note of an accepted frame. -/
theorem rxAccept_gives (s : State) (f : TetherFrame) : PeerKept (bits f.id.toNat 0 6) (rxNoted s f) (s.rxAccept f) ∧
    (s.stationHere (bits f.id.toNat 0 6) = false → Reports .tetherStationUp (le 1 (bits f.id.toNat 0 6)) s (s.rxAccept f)) := by
  have hout : s.out <+: (rxNoted s f).out := List.prefix_append _ _
  rw [rxAccept_eq]
  generalize rxNoted s f = u at *
  have hraise := peerKept_raise (bits f.id.toNat 0 6) u .tetherStationUp (le 1 (bits f.id.toNat 0 6))
  refine ⟨peerKept_trans (peerKept_ite (peerKept_refl _ u) hraise) (peerKept_tableRefresh _ _), fun h => ?_⟩
  rw [if_neg (by simp [h])]
  exact reports_after (reports_before hout (reports_raise _ _ _)) (peerKept_tableRefresh (bits f.id.toNat 0 6) _).out

/-- What an accepted frame leaves, whatever its act. -/
theorem accepted_leaves {s t : State} {f : TetherFrame} (h : PeerKept (bits f.id.toNat 0 6) (s.rxAccept f) t) :
    (t.peer (bits f.id.toNat 0 6)).present = true ∧ (t.peer (bits f.id.toNat 0 6)).lastOk = some s.rtc.count ∧
    (t.peer (bits f.id.toNat 0 6)).lastId = f.id.toNat ∧ (t.peer (bits f.id.toNat 0 6)).lastSeq = f.seq.toNat ∧
    tget t.tether.counts 1 = satAdd 32 (tget s.tether.counts 1) 1 ∧ (∃ l, t.out = s.out ++ .tetherAck :: l) ∧
    (s.stationHere (bits f.id.toNat 0 6) = false → Reports .tetherStationUp (le 1 (bits f.id.toNat 0 6)) s t) := by
  obtain ⟨hkept, hup⟩ := rxAccept_gives s f
  have hall := peerKept_trans hkept h
  have hpeer := peer_rxNoted s f
  obtain ⟨l, hl⟩ := hall.out
  have hack : (rxNoted s f).out = s.out ++ [.tetherAck] := rfl
  refine ⟨by rw [hall.present, hpeer], by rw [hall.lastOk, hpeer], by rw [hall.lastId, hpeer], by rw [hall.lastSeq, hpeer],
    hall.counted.trans (counts_rxNoted s f), ⟨l, ?_⟩, fun hs => reports_after (hup hs) h.out⟩
  rw [← hl, hack, List.append_assoc]
  rfl

/-- Settles O57: the wire by reading back what is stuffed, the frames by the tests and the act of their type. -/
theorem tetherFramesAreCheckedThenTaken : Obligations.TetherFramesAreCheckedThenTaken := by
  unfold Obligations.TetherFramesAreCheckedThenTaken
  refine ⟨fun id seq check p hid hs hc hp => readWire_tetherWire hid hs hc hp, fun s c typ f hframed => ?_⟩
  obtain ⟨act, hgo, hkept⟩ := framed_act hframed
  rw [hgo]
  refine ⟨fun hr => ?_, fun hr => ⟨fun k hk => ?_, rxReject_stuff, rxReject_error, rxReject_type, fun prio lo hi hf ht => ⟨fun hbad => ?_, fun hp hlo hhi hc =>
    rxReject_check hf ht hp hlo hhi hc⟩, fun hn hne => ?_, fun hn he hrep => ?_⟩, fun hacc => ?_⟩
  · exact congrArg Host.Outcome.next (if_pos hr)
  · rw [tetherIn_rejected hr hk]
  · rw [rxReject_form hf ht, if_pos hbad]
  · rw [tetherIn_passed hr hn, if_pos hne]
  · rw [tetherIn_passed hr hn, if_neg (by simp [he]), if_pos hrep]
  · refine ⟨_, hgo s, ?_⟩
    rw [tetherIn_accepted hacc]
    exact accepted_leaves (hkept _ _ _)

end Sys2Proof.Proofs
end

section
/-! Sending on the Tether, the operator slots and the commands of group sleep: O58. -/
namespace Sys2Proof.Proofs
open Sys2Proof Sys2Proof.Machine Sys2Proof.Laws
set_option Elab.async false -- one thread, within the memory of the check

/-! ### The frame that is offered (R331) -/

/-- The choice between the frame offered so far and the next that waits. -/
def offerNext (station : Nat) (b : Option TxFrame) (f : TxFrame) : Option TxFrame :=
  match b with
  | none => some f
  | some g => if tetherId f.typ station < tetherId g.typ station then some f else some g

theorem foldl_offerNext (station : Nat) (l : List TxFrame) (b : Option TxFrame) {f : TxFrame} (h : l.foldl (offerNext station) b = some f) :
    (f ∈ l ∨ b = some f) ∧ (∀ g ∈ l, tetherId f.typ station ≤ tetherId g.typ station) ∧
      ∀ g, b = some g → tetherId f.typ station ≤ tetherId g.typ station := by
  induction l generalizing b with
  | nil =>
    rw [List.foldl_nil] at h
    subst h
    exact ⟨.inr rfl, nofun, fun g hg => by cases hg; exact le_refl _⟩
  | cons x l ih =>
    obtain ⟨hin, hle, hb⟩ := ih _ h
    have hnext : ∃ g, offerNext station b x = some g ∧ (g = x ∨ b = some g) ∧ tetherId g.typ station ≤ tetherId x.typ station ∧
        ∀ y, b = some y → tetherId g.typ station ≤ tetherId y.typ station := by
      cases b with
      | none => exact ⟨x, rfl, .inl rfl, le_refl _, nofun⟩
      | some y =>
        by_cases hlt : tetherId x.typ station < tetherId y.typ station
        · exact ⟨x, if_pos hlt, .inl rfl, le_refl _, fun z hz => by cases hz; exact le_of_lt hlt⟩
        · exact ⟨y, if_neg hlt, .inr rfl, not_lt.mp hlt, fun z hz => by cases hz; exact le_refl _⟩
    obtain ⟨g, hg, hfrom, hgx, hgb⟩ := hnext
    have hfg := hb g hg
    refine ⟨?_, fun y hy => ?_, fun y hy => le_trans hfg (hgb y hy)⟩
    · rcases hin with hin | hin
      · exact .inl (List.mem_cons_of_mem x hin)
      · rw [hg, Option.some.injEq] at hin
        subst hin
        rcases hfrom with hfrom | hfrom
        · exact .inl (hfrom ▸ List.mem_cons_self)
        · exact .inr hfrom
    · rcases List.mem_cons.mp hy with rfl | hy
      · exact le_trans hfg hgx
      · exact hle y hy

theorem offered_lowest {t : TetherSt} {f : TxFrame} (h : t.offered = some f) : f ∈ t.queue ∧
    ∀ g ∈ t.queue, t.mayOffer g = true → tetherId f.typ t.station ≤ tetherId g.typ t.station := by
  obtain ⟨hin, hle, -⟩ := foldl_offerNext t.station (t.queue.filter t.mayOffer) none h
  refine ⟨(List.mem_filter.mp (hin.resolve_right (by simp))).1, fun g hg hm => hle g (List.mem_filter.mpr ⟨hg, hm⟩)⟩

/-! ### An attempt (R331, R334) -/

/-- The attempt in progress stays, and what left the sled stands. -/
structure SofKept (s t : State) : Prop where
  sending : t.tether.sending = s.tether.sending
  sendAt  : t.tether.sendAt = s.tether.sendAt
  seq     : t.tether.seq = s.tether.seq
  out     : s.out <+: t.out

theorem sofKept_refl (s : State) : SofKept s s := ⟨rfl, rfl, rfl, List.prefix_refl _⟩

theorem sofKept_trans {s t u : State} (h : SofKept s t) (k : SofKept t u) : SofKept s u :=
  ⟨k.sending.trans h.sending, k.sendAt.trans h.sendAt, k.seq.trans h.seq, h.out.trans k.out⟩

theorem sofKept_ite {s t u : State} {p : Prop} [Decidable p] (ht : SofKept s t) (hu : SofKept s u) : SofKept s (if p then t else u) := by
  split
  · exact ht
  · exact hu

theorem sofKept_onTether (s : State) {f : TetherSt → TetherSt}
    (hf : ∀ t, (f t).sending = t.sending ∧ (f t).sendAt = t.sendAt ∧ (f t).seq = t.seq := by exact fun _ => ⟨rfl, rfl, rfl⟩) :
    SofKept s (s.onTether f) := by
  obtain ⟨h1, h2, h3⟩ := hf s.tether
  exact ⟨h1, h2, h3, List.prefix_refl _⟩

theorem sofKept_raise (s : State) (e : Ev) (b : Bytes) : SofKept s (s.raise e b) := by
  have ht := tether_raise s e b
  exact ⟨by rw [ht], by rw [ht], by rw [ht], out_of_flags (flags_raise e b (flags_refl s))⟩

theorem sofKept_tetherQueue (s : State) (typ : Nat) (b : Bytes) : SofKept s (s.tetherQueue typ b) :=
  sofKept_ite (sofKept_refl s) (sofKept_onTether s)

theorem sofKept_tableRefresh (s : State) : SofKept s s.tableRefresh := by
  have helder (u : State) : SofKept u u.elderRefresh := sofKept_ite (sofKept_onTether u) (sofKept_trans (sofKept_onTether u) (sofKept_raise _ _ _))
  have href (u : State) : SofKept u u.refRefresh := sofKept_ite (sofKept_onTether u) (sofKept_trans (sofKept_onTether u) (sofKept_raise _ _ _))
  exact sofKept_trans (helder s) (href _)

theorem sofKept_gsCommit (s : State) : SofKept s s.gsCommit :=
  sofKept_ite (sofKept_trans (sofKept_onTether s) (sofKept_tetherQueue _ _ _)) (sofKept_refl s)

theorem sofKept_gsAbort (s : State) (reason : Nat) : SofKept s (s.gsAbort reason) := sofKept_trans (sofKept_onTether s) (sofKept_raise _ _ _)

theorem sofKept_sofEffect (s : State) (f : TxFrame) (stamp : Nat) : SofKept s (s.sofEffect f stamp) := by
  unfold State.sofEffect
  refine sofKept_ite (sofKept_trans (sofKept_onTether s) (sofKept_gsCommit _)) (sofKept_ite (sofKept_onTether s) (sofKept_ite (sofKept_gsAbort s 7)
    (sofKept_ite (sofKept_trans (sofKept_onTether s) (sofKept_tableRefresh _)) (sofKept_refl s))))

/-- The frame as it goes on the bus: its SEQ, and the payload that a COMMIT gets at its SOF. -/
def sofFrame (s : State) (f : TxFrame) (stamp : Nat) : TxFrame :=
  { f with seq := some (f.seq.getD s.tether.seq),
           payload := if f.typ = 0x16 ∧ f.seq.isNone then le 1 s.tether.round ++ le 1 s.tether.gsMode ++ le 8 (s.commitT stamp) else f.payload }

/-- The operator slot of an attempt shows its SEQ. -/
def slotSeq (s : State) (f : TxFrame) (q : Nat) : State :=
  match f.slot with
  | some n => s.setSlot n (fun x => { x with seq := q })
  | none => s

theorem slotSeq_gives (s : State) (f : TxFrame) (q : Nat) : (slotSeq s f q).tether.sending = s.tether.sending ∧
    (slotSeq s f q).tether.sendAt = s.tether.sendAt ∧ (slotSeq s f q).tether.seq = s.tether.seq ∧ (slotSeq s f q).out = s.out := by
  unfold slotSeq
  split
  · exact ⟨rfl, rfl, rfl, rfl⟩
  · exact ⟨rfl, rfl, rfl, rfl⟩

/-- An attempt before its SOF has an effect. -/
def sofStarted (s : State) (f : TxFrame) (stamp : Nat) : State :=
  slotSeq (s.onTether (fun t => { t with queue := dropFirst f t.queue, sending := some (sofFrame s f stamp), sendAt := stamp,
                                         seq := if f.seq.isNone then (t.seq + 1) % 256 else t.seq })) f (f.seq.getD s.tether.seq)

/-- The bits of an attempt. -/
def sofWire (s : State) (f : TxFrame) (stamp : Nat) : List Bool :=
  tetherWire (tetherId f.typ s.tether.station) (f.seq.getD s.tether.seq) (sofFrame s f stamp).payload
    (tetherCheck (tetherId f.typ s.tether.station) (f.seq.getD s.tether.seq) (sofFrame s f stamp).payload s.tether.session)

theorem attempt_eq (s : State) (f : TxFrame) (stamp : Nat) :
    s.attempt f stamp = ((sofStarted s f stamp).emit (.tether (sofWire s f stamp))).sofEffect { f with payload := (sofFrame s f stamp).payload } stamp := by
  unfold State.attempt sofStarted slotSeq sofWire sofFrame
  rfl

theorem sofStarted_gives (s : State) (f : TxFrame) (stamp : Nat) : (sofStarted s f stamp).tether.sending = some (sofFrame s f stamp) ∧
    (sofStarted s f stamp).tether.sendAt = stamp ∧ (sofStarted s f stamp).tether.seq = (if f.seq.isNone then (s.tether.seq + 1) % 256 else s.tether.seq) ∧
    (sofStarted s f stamp).out = s.out := by
  obtain ⟨hsend, hat, hseq, hout⟩ := slotSeq_gives (s.onTether (fun t =>
    { t with queue := dropFirst f t.queue, sending := some (sofFrame s f stamp), sendAt := stamp,
             seq := if f.seq.isNone then (t.seq + 1) % 256 else t.seq })) f (f.seq.getD s.tether.seq)
  exact ⟨hsend, hat, hseq, hout⟩

theorem attempt_gives (s : State) (f : TxFrame) (stamp : Nat) : (s.attempt f stamp).tether.sending = some (sofFrame s f stamp) ∧
    (s.attempt f stamp).tether.sendAt = stamp ∧ (s.attempt f stamp).tether.seq = (if f.seq.isNone then (s.tether.seq + 1) % 256 else s.tether.seq) ∧
    ∃ l, (s.attempt f stamp).out = s.out ++ .tether (sofWire s f stamp) :: l := by
  obtain ⟨hsend, hat, hseq, hout⟩ := sofStarted_gives s f stamp
  have hkept := sofKept_sofEffect ((sofStarted s f stamp).emit (.tether (sofWire s f stamp))) { f with payload := (sofFrame s f stamp).payload } stamp
  rw [← attempt_eq] at hkept
  obtain ⟨l, hl⟩ := hkept.out
  have hemit : ((sofStarted s f stamp).emit (.tether (sofWire s f stamp))).out = s.out ++ [.tether (sofWire s f stamp)] := by
    show (sofStarted s f stamp).out ++ _ = _
    rw [hout]
  refine ⟨hkept.sending.trans hsend, hkept.sendAt.trans hat, hkept.seq.trans hseq, l, ?_⟩
  rw [← hl, hemit, List.append_assoc]
  rfl

theorem exec_tetherTxStart_none {s : State} (stamp : Nat) (h : s.tetherRuns = false ∨ s.tether.sending ≠ none ∨ s.tether.offered = none) :
    exec (.tetherTxStart stamp) s = .next s := by
  refine congrArg Host.Outcome.next ?_
  split
  next hr hs ho =>
    rcases h with h | h | h
    · exact absurd (hr.symm.trans h) (by decide)
    · exact absurd hs h
    · exact absurd (ho.symm.trans h) (by simp)
  next => rfl

theorem exec_tetherTxStart {s : State} {f : TxFrame} (stamp : Nat) (hr : s.tetherRuns = true) (hs : s.tether.sending = none)
    (ho : s.tether.offered = some f) : exec (.tetherTxStart stamp) s = .next (s.attempt f stamp) := by
  refine congrArg Host.Outcome.next ?_
  rw [hr, hs, ho]

/-- The lowest waiting identifier starts. -/
theorem tetherTxStart_gives {s : State} {f : TxFrame} (stamp : Nat) (hr : s.tetherRuns = true) (hs : s.tether.sending = none)
    (ho : s.tether.offered = some f) : Gives (.tetherTxStart stamp) s (fun t =>
      let q := f.seq.getD s.tether.seq
      let p := if f.typ = 0x16 ∧ f.seq = none then le 1 s.tether.round ++ le 1 s.tether.gsMode ++ le 8 (s.commitT stamp) else f.payload
      f ∈ s.tether.queue ∧ (∀ g ∈ s.tether.queue, s.tether.mayOffer g = true → tetherId f.typ s.tether.station ≤ tetherId g.typ s.tether.station) ∧
      t.tether.sending = some { f with seq := some q, payload := p } ∧ t.tether.sendAt = stamp ∧
      t.tether.seq = (if f.seq = none then (s.tether.seq + 1) % 256 else s.tether.seq) ∧
      ∃ l, t.out = s.out ++ .tether (tetherWire (tetherId f.typ s.tether.station) q p
        (tetherCheck (tetherId f.typ s.tether.station) q p s.tether.session)) :: l) := by
  obtain ⟨hsend, hat, hseq, hout⟩ := attempt_gives s f stamp
  obtain ⟨hin, hle⟩ := offered_lowest ho
  simp only [sofWire, sofFrame, Option.isNone_iff_eq_none] at hsend hseq hout
  exact ⟨_, exec_tetherTxStart stamp hr hs ho, hin, hle, hsend, hat, hseq, hout⟩

/-! ### The end of an attempt (R332, R334, R336) -/

/-- The frame has left the bus. -/
def unsent (s : State) : State := s.onTether (fun t => { t with sending := none })

theorem exec_tetherTxEnd {s : State} {f : TxFrame} (h : s.tether.sending = some f) (r : TxResult) :
    exec (.tetherTxEnd r) s = .next ((unsent s).txEnd f r) := by
  refine congrArg Host.Outcome.next ?_
  rw [h]
  rfl

/-- A slot's state is all that changes with it. -/
theorem slotState_gives (s : State) (f : TxFrame) (st : Nat) : (s.slotState f st).tether.queue = s.tether.queue ∧
    (s.slotState f st).tether.sending = s.tether.sending ∧ (s.slotState f st).tether.counts = s.tether.counts ∧
    (s.slotState f st).tether.claim = s.tether.claim ∧ (s.slotState f st).tether.sendAt = s.tether.sendAt ∧ (s.slotState f st).time = s.time ∧
    (s.slotState f st).out = s.out ∧ ∀ n, f.slot = some n → ((s.slotState f st).slot n).state = st := by
  unfold State.slotState
  split
  next n hn =>
    refine ⟨rfl, rfl, rfl, rfl, rfl, rfl, rfl, fun m hm => ?_⟩
    rw [hn, Option.some.injEq] at hm
    rw [← hm, slot_setSlot_same]
  next hn => exact ⟨rfl, rfl, rfl, rfl, rfl, rfl, rfl, fun m hm => absurd (hn.symm.trans hm) (by simp)⟩

theorem tetherCount_gives (s : State) (k : Nat) : (s.tetherCount k).tether.queue = s.tether.queue ∧ (s.tetherCount k).tether.sending = s.tether.sending ∧
    tget (s.tetherCount k).tether.counts k = satAdd 32 (tget s.tether.counts k) 1 ∧ (s.tetherCount k).tether.claim = s.tether.claim ∧
    (s.tetherCount k).tether.sendAt = s.tether.sendAt ∧ (s.tetherCount k).time = s.time ∧ (s.tetherCount k).out = s.out :=
  ⟨rfl, rfl, tget_tput_same _ _ _, rfl, rfl, rfl, rfl⟩

theorem tetherQueue_gives {s : State} (h : s.tether.claim ≠ .disabled) (typ : Nat) (p : Bytes) :
    s.tetherQueue typ p = s.onTether (fun t => { t with queue := t.queue ++ [ownFrame typ p] }) := if_neg h

/-- A frame that is offered again waits in front, unless its cancel was held. -/
theorem offerAgain_gives (s : State) (f : TxFrame) : (s.offerAgain f).tether.sending = s.tether.sending ∧
    (s.offerAgain f).tether.counts = s.tether.counts ∧ (s.offerAgain f).out = s.out ∧
    (f.cancel = false → (s.offerAgain f).tether.queue = f :: s.tether.queue) ∧
    (f.cancel = true → (s.offerAgain f).tether.queue = s.tether.queue ∧ ∀ n, f.slot = some n → ((s.offerAgain f).slot n).state = 3) := by
  unfold State.offerAgain
  cases hc : f.cancel with
  | true =>
    obtain ⟨hq, hs, hcount, -, -, -, hout, hst⟩ := slotState_gives s f 3
    exact ⟨hs, hcount, hout, nofun, fun _ => ⟨hq, hst⟩⟩
  | false => exact ⟨rfl, rfl, rfl, fun _ => rfl, nofun⟩

theorem txFailed_gives (s : State) (f : TxFrame) : (s.txFailed f).tether.sending = s.tether.sending ∧ (s.txFailed f).tether.counts = s.tether.counts ∧
    (tetherRetried f.typ = true → f.tries < 3 → f.cancel = false → (s.txFailed f).tether.queue = { f with tries := f.tries + 1 } :: s.tether.queue) ∧
    (tetherRetried f.typ = true → f.tries < 3 → f.cancel = true → (s.txFailed f).tether.queue = s.tether.queue ∧
      ∀ n, f.slot = some n → ((s.txFailed f).slot n).state = 3) ∧
    (tetherRetried f.typ = false ∨ 3 ≤ f.tries → (s.txFailed f).tether.queue = s.tether.queue ∧
      ∀ n, f.slot = some n → ((s.txFailed f).slot n).state = 5) := by
  by_cases hagain : tetherRetried f.typ = true ∧ f.tries < 3
  · obtain ⟨hs, hcount, -, hq, hcancel⟩ := offerAgain_gives s { f with tries := f.tries + 1 }
    rw [State.txFailed, if_pos hagain]
    refine ⟨hs, hcount, fun _ _ hc => hq hc, fun _ _ hc => hcancel hc, fun h => ?_⟩
    obtain ⟨hr, ht⟩ := hagain
    rcases h with h | h
    · exact absurd (hr.symm.trans h) (by decide)
    · omega
  · obtain ⟨hq, hs, hcount, -, -, -, -, hst⟩ := slotState_gives s f 5
    rw [State.txFailed, if_neg hagain]
    exact ⟨hs, hcount, fun hr ht => absurd ⟨hr, ht⟩ hagain, fun hr ht => absurd ⟨hr, ht⟩ hagain, fun _ => ⟨hq, hst⟩⟩

theorem followUp_other {f : TxFrame} (h : f.typ ≠ 0x20) (s : State) : s.followUp f = s := if_neg h

/-- An acknowledged frame. -/
theorem acked_gives {s : State} {f : TxFrame} (h : s.tether.sending = some f) (hc : s.tether.claim ≠ .disabled) :
    Gives (.tetherTxEnd .acked) s (fun t => t.tether.sending = none ∧ tget t.tether.counts 0 = satAdd 32 (tget s.tether.counts 0) 1 ∧
      (∀ n, f.slot = some n → (t.slot n).state = if f.cancel then 4 else 2) ∧ (f.typ ≠ 0x20 → t.tether.queue = s.tether.queue) ∧
      (f.typ = 0x20 → Queued 0x21 (le 8 s.tether.sendAt ++ le 1 (f.seq.getD 0) ++ le 1 s.time.source.code) s t)) := by
  obtain ⟨hq1, hs1, hn1, hc1, ha1, ht1, -⟩ := tetherCount_gives (unsent s) 0
  obtain ⟨hq, hs, hn, hcl, ha, ht, -, hst⟩ := slotState_gives ((unsent s).tetherCount 0) f (if f.cancel then 4 else 2)
  have hgo : exec (.tetherTxEnd .acked) s = .next ((((unsent s).tetherCount 0).slotState f (if f.cancel then 4 else 2)).followUp f) :=
    exec_tetherTxEnd h .acked
  refine ⟨_, hgo, ?_⟩
  generalize ((unsent s).tetherCount 0).slotState f (if f.cancel then 4 else 2) = u at *
  have hqueue : u.tether.queue = s.tether.queue := hq.trans hq1
  have hcount : tget u.tether.counts 0 = satAdd 32 (tget s.tether.counts 0) 1 := by rw [hn]; exact hn1
  have hsend : u.tether.sending = none := hs.trans hs1
  by_cases hsync : f.typ = 0x20
  · have hclaim : u.tether.claim ≠ .disabled := by rw [hcl, hc1]; exact hc
    have hfollow : u.followUp f = u.onTether (fun t => { t with queue := t.queue ++
        [ownFrame 0x21 (le 8 u.tether.sendAt ++ le 1 (f.seq.getD 0) ++ le 1 u.time.source.code)] }) := (if_pos hsync).trans (tetherQueue_gives hclaim _ _)
    have hat : u.tether.sendAt = s.tether.sendAt := ha.trans ha1
    have htime : u.time = s.time := ht.trans ht1
    rw [hat, htime] at hfollow
    rw [hfollow]
    refine ⟨hsend, hcount, hst, fun hne => absurd hsync hne, fun _ => ?_⟩
    show u.tether.queue ++ _ = _
    rw [hqueue]
  · rw [followUp_other hsync]
    exact ⟨hsend, hcount, hst, fun _ => hqueue, fun he => absurd he hsync⟩

/-- An attempt that fails. -/
theorem failed_gives {s : State} {f : TxFrame} (h : s.tether.sending = some f) {r : TxResult} (hr : r = .bitError ∨ r = .noAck) (hf : f.typ ≠ 0x20) :
    Gives (.tetherTxEnd r) s (fun t => t.tether.sending = none ∧
      (r = .bitError → tget t.tether.counts 4 = satAdd 32 (tget s.tether.counts 4) 1) ∧
      (r = .noAck → s.othersHere = true → tget t.tether.counts 3 = satAdd 32 (tget s.tether.counts 3) 1) ∧
      (tetherRetried f.typ = true → f.tries < 3 → f.cancel = false →
        t.tether.queue = { f with tries := f.tries + 1 } :: s.tether.queue) ∧
      (tetherRetried f.typ = true → f.tries < 3 → f.cancel = true → t.tether.queue = s.tether.queue ∧
        ∀ n, f.slot = some n → (t.slot n).state = 3) ∧
      (tetherRetried f.typ = false ∨ 3 ≤ f.tries → t.tether.queue = s.tether.queue ∧
        ∀ n, f.slot = some n → (t.slot n).state = 5)) := by
  have hgo := exec_tetherTxEnd h r
  have hcounted : ∃ u : State, (unsent s).txEnd f r = u.txFailed f ∧ u.tether.queue = s.tether.queue ∧ u.tether.sending = none ∧
      (r = .bitError → tget u.tether.counts 4 = satAdd 32 (tget s.tether.counts 4) 1) ∧
      (r = .noAck → s.othersHere = true → tget u.tether.counts 3 = satAdd 32 (tget s.tether.counts 3) 1) := by
    rcases hr with rfl | rfl
    · obtain ⟨hq, hs, hn, -⟩ := tetherCount_gives (unsent s) 4
      exact ⟨_, rfl, hq, hs, fun _ => hn, nofun⟩
    · obtain ⟨hq, hs, hn, -⟩ := tetherCount_gives (unsent s) 3
      refine ⟨if (unsent s).othersHere then (unsent s).tetherCount 3 else unsent s, followUp_other hf _, ?_, ?_, nofun, fun _ ho => ?_⟩
      · split
        · exact hq
        · rfl
      · split
        · exact hs
        · rfl
      · rw [if_pos (show (unsent s).othersHere = true from ho)]
        exact hn
  obtain ⟨u, hu, hqueue, hsend, h4, h3⟩ := hcounted
  obtain ⟨hs, hcount, hagain, hcancel, hlast⟩ := txFailed_gives u f
  rw [hu] at hgo
  rw [hqueue] at hagain hcancel hlast
  exact ⟨_, hgo, hs.trans hsend, fun hb => by rw [hcount]; exact h4 hb, fun hn ho => by rw [hcount]; exact h3 hn ho, hagain, hcancel, hlast⟩

theorem arbLost_gives {s : State} {f : TxFrame} (h : s.tether.sending = some f) : Gives (.tetherTxEnd .arbLost) s (fun t => t.tether.sending = none ∧
    tget t.tether.counts 2 = satAdd 32 (tget s.tether.counts 2) 1 ∧ (f.cancel = false → t.tether.queue = f :: s.tether.queue) ∧
    (f.cancel = true → t.tether.queue = s.tether.queue ∧ ∀ n, f.slot = some n → (t.slot n).state = 3)) := by
  obtain ⟨hq1, hs1, hn1, -⟩ := tetherCount_gives (unsent s) 2
  obtain ⟨hs, hcount, -, hq, hcancel⟩ := offerAgain_gives ((unsent s).tetherCount 2) f
  have hgo : exec (.tetherTxEnd .arbLost) s = .next (((unsent s).tetherCount 2).offerAgain f) := exec_tetherTxEnd h .arbLost
  refine ⟨_, hgo, hs.trans hs1, ?_, fun hc => (hq hc).trans (congrArg _ hq1), fun hc => ⟨(hcancel hc).1.trans hq1, (hcancel hc).2⟩⟩
  rw [hcount]
  exact hn1

theorem lateCollision_gives {s : State} {f : TxFrame} (h : s.tether.sending = some f) : Gives (.tetherTxEnd .lateCollision) s (fun t =>
    t.tether.sending = none ∧ t.tether.claim = .backoff ∧ tget t.tether.counts 9 = satAdd 32 (tget s.tether.counts 9) 1 ∧
    Reports .tetherLateCollision [] s t) := by
  obtain ⟨hs1, hn1, hout, -⟩ := offerAgain_gives (unsent s) f
  obtain ⟨-, hs, hn, -, -, -, hout'⟩ := tetherCount_gives ((unsent s).offerAgain f) 9
  have hgo : exec (.tetherTxEnd .lateCollision) s = .next ((((((unsent s).offerAgain f).tetherCount 9).onTether (fun t =>
    { t with claim := .backoff, queue := t.queue.filter (fun g => g.typ ≠ 1) })).raise .tetherLateCollision [])) :=
    exec_tetherTxEnd h .lateCollision
  refine ⟨_, hgo, ?_⟩
  dsimp only
  rw [tether_raise]
  rw [hn1] at hn
  rw [hout] at hout'
  generalize ((unsent s).offerAgain f).tetherCount 9 = u at *
  have hprefix : s.out <+: u.out := by
    rw [hout']
    exact List.prefix_refl _
  exact ⟨hs.trans hs1, rfl, hn, reports_before hprefix (reports_raise _ _ _)⟩

/-! ### Operator slots and commands (R336, R347, R348, R351) -/

/-- Where no member vetoes, a wake leaves the Tether. -/
theorem did_registerWake {s : State} (hr : s.power.mode ≠ .run) (hi : s.power.mode ≠ .idle) (src det : Nat) :
    Does 0x610000 s (s.registerWake src det) := by
  unfold State.registerWake
  extract_lets w
  refine does_ite (does_refl _ s) ?_
  split
  · exact does_ite (does_onPower (by decide) (does_refl _ s)) (does_refl _ s)
  · exact does_ite (does_beginExit (by decide) (does_refl _ s)) (does_refl _ s)
  · exact does_ite (does_beginExit (by decide) (does_refl _ s)) (does_refl _ s)
  · exact does_ite (does_onPower (by decide) (does_refl _ s)) (does_refl _ s)
  next hm => exact absurd hm hr
  next hm => exact absurd hm hi
  · exact does_refl _ s

/-- A write of a partner leaves the Tether. -/
theorem tether_arrives (s : State) (f : Nat) : (s.arrives f).tether = s.tether := by
  have hpartner : Does 0x610000 s (s.partnerWake f) := by
    unfold State.partnerWake
    split
    next hm => exact did_registerWake (by rw [hm]; decide) (by rw [hm]; decide) 7 _
    next hm => exact did_registerWake (by rw [hm]; decide) (by rw [hm]; decide) 7 _
    next => exact does_refl _ s
  exact (does_endIdle (by decide) hpartner).keeps .tether (by decide)

/-- TETHER_TX_CMD as it is written. -/
def txWritten (s : State) (v : Nat) : State := (s.arrives 64).wrote 0x88040 v

theorem tether_txWritten (s : State) (v : Nat) : (txWritten s v).tether = s.tether := tether_arrives s 64

theorem slot_congr {s t : State} (h : t.tether.slots = s.tether.slots) (n : Nat) : t.slot n = s.slot n :=
  congrArg (fun l => Tbl.get (fun _ => SlotSt.init) l n) h

theorem slot_txWritten (s : State) (v n : Nat) : (txWritten s v).slot n = s.slot n := slot_congr (by rw [tether_txWritten]) n

theorem exec_tetherTxSend {s : State} (h : s.noPartner = false) (n : Fin 8) : exec (.tetherTxSend n) s = .next ((txWritten s (n + 256)).txSend n) :=
  congrArg Host.Outcome.next (if_neg (by simp [h]))

theorem exec_tetherTxCancel {s : State} (h : s.noPartner = false) (n : Fin 8) :
    exec (.tetherTxCancel n) s = .next ((txWritten s (n + 512)).txCancel n) :=
  congrArg Host.Outcome.next (if_neg (by simp [h]))

theorem tetherTxSend_gives {s : State} (h : s.noPartner = false) {n : Fin 8} (h1 : (s.slot n).state ≠ 1) (hl : (s.slot n).len ≤ 32) :
    Gives (.tetherTxSend n) s (fun t => (t.slot n).state = 1 ∧
      t.tether.queue = s.tether.queue ++ [{ ownFrame 0x40 (s.slot n).payload with slot := some n.val }]) := by
  refine ⟨_, exec_tetherTxSend h n, ?_⟩
  have hslot := slot_txWritten s (n + 256) n
  have htether := tether_txWritten s (n + 256)
  generalize txWritten s (n + 256) = u at *
  have hsend : u.txSend n = (u.setSlot n (fun x => { x with state := 1 })).onTether (fun t => { t with queue := t.queue ++
      [{ typ := 0x40, payload := (u.slot n).payload, slot := some n.val, seq := none, tries := 0, cancel := false }] }) := by
    refine if_neg ?_
    rw [hslot]
    omega
  rw [hsend, hslot, ← htether]
  refine ⟨?_, rfl⟩
  have hset : (u.setSlot n (fun x => { x with state := 1 })).slot n = { u.slot n with state := 1 } := slot_setSlot_same u n _
  exact congrArg SlotSt.state ((slot_congr rfl n).trans hset)

theorem tetherTxSend_ignored {s : State} (h : s.noPartner = false) {n : Fin 8} (h1 : (s.slot n).state = 1 ∨ 32 < (s.slot n).len) :
    exec (.tetherTxSend n) s = .next (txWritten s (n + 256)) := by
  have hslot := slot_txWritten s (n + 256) n
  rw [exec_tetherTxSend h]
  generalize txWritten s (n + 256) = u at *
  refine congrArg Host.Outcome.next (if_pos ?_)
  rw [hslot]
  exact h1

theorem tetherTxCancel_waiting {s : State} (h : s.noPartner = false) {n : Fin 8} (hw : ∃ f ∈ s.tether.queue, f.slot = some n.val) :
    Gives (.tetherTxCancel n) s (fun t => (t.slot n).state = 3 ∧ t.tether.queue = s.tether.queue.filter (fun f => f.slot ≠ some n.val)) := by
  refine ⟨_, exec_tetherTxCancel h n, ?_⟩
  have htether := tether_txWritten s (n + 512)
  generalize txWritten s (n + 512) = u at *
  have hany : u.tether.queue.any (fun f => f.slot = some n.val) = true := by
    obtain ⟨f, hf, hs⟩ := hw
    rw [htether]
    exact List.any_eq_true.mpr ⟨f, hf, decide_eq_true hs⟩
  have hcancel : u.txCancel n = (u.onTether (fun t => { t with queue := t.queue.filter (fun f => f.slot ≠ some n.val) })).setSlot n
    (fun x => { x with state := 3 }) := if_pos hany
  rw [hcancel, ← htether]
  refine ⟨?_, rfl⟩
  rw [slot_setSlot_same]

theorem tetherTxCancel_sending {s : State} (h : s.noPartner = false) {n : Fin 8} (hw : ∀ f ∈ s.tether.queue, f.slot ≠ some n.val) {f : TxFrame}
    (hs : s.tether.sending = some f) (hf : f.slot = some n.val) :
    Gives (.tetherTxCancel n) s (fun t => t.tether.sending = some { f with cancel := true } ∧ t.tether.queue = s.tether.queue) := by
  refine ⟨_, exec_tetherTxCancel h n, ?_⟩
  have htether := tether_txWritten s (n + 512)
  generalize txWritten s (n + 512) = u at *
  have hany : ¬u.tether.queue.any (fun f => f.slot = some n.val) = true := by
    rw [htether, List.any_eq_true]
    rintro ⟨g, hg, hgs⟩
    exact hw g hg (of_decide_eq_true hgs)
  have hcancel : u.txCancel n = u.onTether (fun t =>
    { t with sending := t.sending.map (fun f => if f.slot = some n.val then { f with cancel := true } else f) }) := if_neg hany
  rw [hcancel, ← htether]
  refine ⟨?_, rfl⟩
  show u.tether.sending.map _ = _
  rw [htether, hs, Option.map_some, if_pos hf]

/-- While the host links are down none of these commands arrives. -/
theorem exec_tetherCmd_noPartner {s : State} {c : Instr} (h : s.noPartner = true) (hc : (∃ n, c = .tetherTxSend n ∨ c = .tetherTxCancel n) ∨ c = .tetherRxPop ∨
    (∃ m h, c = .gsCmdPropose m h) ∨ c = .gsCmdVeto ∨ c = .gsCmdWakeAll) : exec c s = .next s := by
  rcases hc with ⟨n, rfl | rfl⟩ | rfl | ⟨m, x, rfl⟩ | rfl | rfl
  · exact congrArg Host.Outcome.next (if_pos h)
  · exact congrArg Host.Outcome.next (if_pos h)
  · exact congrArg Host.Outcome.next (if_pos h)
  · exact congrArg Host.Outcome.next (if_pos h)
  · exact congrArg Host.Outcome.next (if_pos h)
  · exact congrArg Host.Outcome.next (if_pos h)

/-! ### Group sleep by command (R345, R348, R351) -/

theorem tether_gsWritten (s : State) (v : Nat) : (s.gsWritten v).tether = { s.tether with gsCmdBits := v } := by
  have h := tether_arrives s 64
  unfold State.gsWritten
  generalize s.arrives 64 = u at *
  rw [← h]
  rfl

theorem stationHere_congr {s t : State} (hp : t.tether.peers = s.tether.peers) (hc : t.tether.claim = s.tether.claim)
    (hs : t.tether.station = s.tether.station) (n : Nat) : t.stationHere n = s.stationHere n := by
  unfold State.stationHere
  rw [peer_congr hp, hc, hs]

theorem presentMap_congr {s t : State} (hp : t.tether.peers = s.tether.peers) (hc : t.tether.claim = s.tether.claim)
    (hs : t.tether.station = s.tether.station) : t.presentMap = s.presentMap := by
  unfold State.presentMap
  simp only [stationHere_congr hp hc hs]

theorem exec_gsCmdPropose {s : State} (h : s.noPartner = false) (mode : BitVec 2) (x : Int) : exec (.gsCmdPropose mode x) s =
    .next (if mode = 1 ∨ mode = 2 then (s.gsWritten (1 + 4 * mode.toNat)).gsPropose mode.toNat x else s.gsWritten (1 + 4 * mode.toNat)) :=
  congrArg Host.Outcome.next (if_neg (by simp [h]))

/-- A proposal that nothing refuses. -/
theorem gsPropose_opens {u : State} {mode : Nat} {x : Int} (hc : u.tether.claim = .joined) (hw : u.gsRefusal u.tether.station mode x = 0) :
    (u.gsPropose mode x).tether.gs = .proposed ∧ (u.gsPropose mode x).tether.proposer = u.tether.station ∧
    (u.gsPropose mode x).tether.round = (u.tether.round + 1) % 256 ∧ (u.gsPropose mode x).tether.gsMode = mode ∧
    (u.gsPropose mode x).tether.members = u.presentMap ∧ Queued 0x13 (le 1 ((u.tether.round + 1) % 256) ++ le 1 mode ++ le 8 u.presentMap) u
      (u.gsPropose mode x) := by
  have hgo : u.gsPropose mode x = (u.onTether (fun t =>
      { t with gs := .proposed, gsStat := .proposed, round := (t.round + 1) % 256, proposer := t.station, reason := 0,
               gsMode := mode, members := u.presentMap, agreed := 0 })).tetherQueue 0x13
        (le 1 ((u.tether.round + 1) % 256) ++ le 1 mode ++ le 8 u.presentMap) := by
    unfold State.gsPropose
    dsimp only
    rw [if_pos hc, if_neg (by simp [hw])]
    rfl
  have hopen : (u.onTether (fun t =>
      { t with gs := .proposed, gsStat := .proposed, round := (t.round + 1) % 256, proposer := t.station, reason := 0,
               gsMode := mode, members := u.presentMap, agreed := 0 })).tether.claim ≠ .disabled :=
    fun h => absurd (hc.symm.trans h) (by decide)
  rw [hgo, tetherQueue_gives hopen]
  exact ⟨rfl, rfl, rfl, rfl, rfl, rfl⟩

theorem gsPropose_refused {u : State} {mode : Nat} {x : Int} {why : Nat}
    (hw : (if u.tether.claim = .joined then u.gsRefusal u.tether.station mode x else 2) = why) (hne : why ≠ 0) :
    u.gsPropose mode x = u.onTether (fun t => { t with gsStat := .refused, reason := why }) := by
  subst hw
  exact if_pos hne

theorem exec_gsCmdWakeAll {s : State} (h : s.noPartner = false) : exec .gsCmdWakeAll s = .next ((s.gsWritten 3).tetherQueue 0x11 []) :=
  congrArg Host.Outcome.next (if_neg (by simp [h]))

theorem exec_gsCmdVeto {s : State} (h : s.noPartner = false) : exec .gsCmdVeto s = .next (s.gsWritten 2).gsVeto :=
  congrArg Host.Outcome.next (if_neg (by simp [h]))

/-- A member that has agreed vetoes. -/
theorem gsVeto_queues {u : State} (hc : u.tether.claim ≠ .disabled) (hg : u.tether.gs = .agreed ∨ u.tether.gs = .committed)
    (hq : ∀ f ∈ u.tether.queue, f.typ ≠ 0x10) : u.gsVeto = u.onTether (fun t => { t with queue := t.queue ++
      [ownFrame 0x10 (le 1 u.tether.round ++ le 1 u.tether.proposer)] }) :=
  (if_pos ⟨hg, List.all_eq_true.mpr fun f hf => decide_eq_true (hq f hf)⟩).trans (tetherQueue_gives hc _ _)

/-- Settles O58: the attempt by its SOF, its end by each result, the commands by their writes. -/
theorem theLowestWaitingFrameIsSentAndRetried : Obligations.TheLowestWaitingFrameIsSentAndRetried := by
  unfold Obligations.TheLowestWaitingFrameIsSentAndRetried
  refine ⟨fun s stamp => ⟨exec_tetherTxStart_none stamp, fun f hr hs ho => tetherTxStart_gives stamp hr hs ho⟩,
    fun s f hs hc => ⟨acked_gives hs hc, fun r hr hf => failed_gives hs hr hf, arbLost_gives hs, lateCollision_gives hs⟩,
    fun s n h => ⟨fun h1 hl => tetherTxSend_gives h h1 hl, fun h1 => tetherTxSend_ignored h h1, fun hw => tetherTxCancel_waiting h hw,
      fun hw f hs hf => tetherTxCancel_sending h hw hs hf⟩,
    fun s h => congrArg Host.Outcome.next (if_neg (by simp [h])), fun s c h hc => exec_tetherCmd_noPartner h hc, fun s mode x h hm => ?_,
    fun s mode x h h1 h2 => ?_, fun s h hc => ⟨?_, fun hg hq => ?_, fun hg => ?_⟩⟩
  · have hgo := exec_gsCmdPropose h mode x
    rw [if_pos hm] at hgo
    have ht := tether_gsWritten s (1 + 4 * mode.toNat)
    intro u why
    have hu : u = s.gsWritten (1 + 4 * mode.toNat) := rfl
    have hwhy : why = if u.tether.claim = .joined then u.gsRefusal u.tether.station mode.toNat x else 2 := by
      rw [hu, ht]
    rw [← hu] at hgo ht
    have hmap : u.presentMap = s.presentMap := presentMap_congr (by rw [ht]) (by rw [ht]) (by rw [ht])
    clear_value u
    refine ⟨fun h0 => ?_, fun hne => ?_⟩
    · have hjoined : u.tether.claim = .joined := by
        by_contra hn
        rw [if_neg hn] at hwhy
        omega
      rw [if_pos hjoined] at hwhy
      have hopens := gsPropose_opens hjoined (hwhy.symm.trans h0)
      unfold Queued at hopens
      rw [hmap, ht] at hopens
      exact ⟨_, hgo, hopens⟩
    · rw [gsPropose_refused hwhy.symm hne] at hgo
      have hgs : u.tether.gs = s.tether.gs := by rw [ht]
      have hqueue : u.tether.queue = s.tether.queue := by rw [ht]
      exact ⟨_, hgo, rfl, rfl, hgs, hqueue⟩
  · rw [exec_gsCmdPropose h, if_neg (not_or.mpr ⟨h1, h2⟩)]
  · have ht := tether_gsWritten s 3
    have hgo := exec_gsCmdWakeAll h
    generalize s.gsWritten 3 = u at *
    rw [tetherQueue_gives (by rw [ht]; exact hc)] at hgo
    have hqueue : u.tether.queue = s.tether.queue := by rw [ht]
    exact ⟨_, hgo, congrArg (fun q => q ++ [ownFrame 0x11 []]) hqueue⟩
  · have ht := tether_gsWritten s 2
    have hgo := exec_gsCmdVeto h
    generalize s.gsWritten 2 = u at *
    rw [gsVeto_queues (by rw [ht]; exact hc) (by rw [ht]; exact hg) (by rw [ht]; exact hq)] at hgo
    have hround : u.tether.round = s.tether.round ∧ u.tether.proposer = s.tether.proposer := by
      rw [ht]
      exact ⟨rfl, rfl⟩
    have hqueue : u.tether.queue = s.tether.queue := by rw [ht]
    rw [hround.1, hround.2] at hgo
    exact ⟨_, hgo, congrArg (fun q => q ++ [ownFrame 0x10 (le 1 s.tether.round ++ le 1 s.tether.proposer)]) hqueue⟩
  · have ht := tether_gsWritten s 2
    have hgo := exec_gsCmdVeto h
    generalize s.gsWritten 2 = u at *
    have hno : u.gsVeto = u := by
      refine if_neg ?_
      rintro ⟨hg', -⟩
      rw [ht] at hg'
      change s.tether.gs = .agreed ∨ s.tether.gs = .committed at hg'
      rw [hg] at hg'
      rcases hg' with hg' | hg' <;> exact absurd hg' (by decide)
    rw [hno] at hgo
    have hqueue : u.tether.queue = s.tether.queue := by rw [ht]
    exact ⟨_, hgo, hqueue⟩

end Sys2Proof.Proofs
end

section
/-! Group sleep, and the other messages of the Tether: O60. -/
namespace Sys2Proof.Proofs
open Sys2Proof Sys2Proof.Machine Sys2Proof.Laws
set_option Elab.async false -- one thread, within the memory of the check

/-! ### What the acceptance of a frame leaves to its act -/

/-- Only the station table, the counters, the Elder and the time reference of the Tether have changed, and flags. -/
structure Admitted (s t : State) : Prop where
  did    : Does 0xf220082 s t
  tether : ∃ ps cs e r, t.tether = { s.tether with peers := ps, counts := cs, elder := e, timeRef := r }

/-- A new look at the station table changes the Elder and the time reference. -/
theorem tether_elderRefresh (s : State) : ∃ e, s.elderRefresh.tether = { s.tether with elder := e } := by
  unfold State.elderRefresh
  dsimp only
  split
  · exact ⟨_, rfl⟩
  · exact ⟨_, tether_raise _ _ _⟩

theorem tether_refRefresh (s : State) : ∃ r, s.refRefresh.tether = { s.tether with timeRef := r } := by
  unfold State.refRefresh
  dsimp only
  split
  · exact ⟨_, rfl⟩
  · exact ⟨_, tether_raise _ _ _⟩

theorem tether_tableRefresh (s : State) : ∃ e r, s.tableRefresh.tether = { s.tether with elder := e, timeRef := r } := by
  obtain ⟨e, he⟩ := tether_elderRefresh s
  obtain ⟨r, hr⟩ := tether_refRefresh s.elderRefresh
  exact ⟨e, r, by rw [State.tableRefresh, hr, he]⟩

theorem admitted_tableRefresh {s u : State} (h : Admitted s u) : Admitted s u.tableRefresh := by
  obtain ⟨hd, ps, cs, e, r, ht⟩ := h
  obtain ⟨e', r', ht'⟩ := tether_tableRefresh u
  exact ⟨does_tableRefresh (by decide) hd, ps, cs, e', r', by rw [ht', ht]⟩

theorem admitted_raise {s u : State} (h : Admitted s u) (e : Ev) (b : Bytes) : Admitted s (u.raise e b) :=
  ⟨does_raise (by decide) h.did, by rw [tether_raise]; exact h.tether⟩

theorem admitted_rxNoted (s : State) (f : TetherFrame) : Admitted s (rxNoted s f) :=
  ⟨does_setPeer (by decide) (does_tetherCount (by decide) (does_emit (by decide) (does_refl _ s))), _, _, _, _, rfl⟩

theorem admitted_rxAccept (s : State) (f : TetherFrame) : Admitted s (s.rxAccept f) := by
  have hnoted := admitted_rxNoted s f
  rw [rxAccept_eq]
  generalize rxNoted s f = u at *
  refine admitted_tableRefresh ?_
  split
  · exact hnoted
  · exact admitted_raise hnoted _ _

/-- The fields of the Tether that acceptance leaves. -/
theorem admitted_fields {s u : State} (h : Admitted s u) : u.tether.claim = s.tether.claim ∧ u.tether.station = s.tether.station ∧
    u.tether.queue = s.tether.queue ∧ u.tether.gs = s.tether.gs ∧ u.tether.round = s.tether.round ∧ u.tether.proposer = s.tether.proposer ∧
    u.tether.members = s.tether.members ∧ u.tether.agreed = s.tether.agreed ∧ u.tether.gsP = s.tether.gsP ∧ u.tether.gsT = s.tether.gsT ∧
    u.tether.fifo = s.tether.fifo := by
  obtain ⟨ps, cs, e, r, ht⟩ := h.tether
  rw [ht]
  exact ⟨rfl, rfl, rfl, rfl, rfl, rfl, rfl, rfl, rfl, rfl, rfl⟩

theorem enabled_of_accepted {typ : Nat} {f : TetherFrame} {s : State} (h : Accepted typ f s) : s.tether.claim ≠ .disabled := by
  obtain ⟨hr, -⟩ := h
  intro hc
  simp [State.tetherRuns, hc] at hr

/-! ### The end of a round (R347, R348) -/

theorem gsAbort_tether (u : State) (reason : Nat) : (u.gsAbort reason).tether =
    { u.tether with gs := .none, gsStat := .aborted, reason := reason, heldWake := none, queue := u.tether.queue.filter (fun f => !roundFrame f) } := by
  unfold State.gsAbort
  rw [tether_raise]
  rfl

theorem gsAbort_reports (u : State) (reason : Nat) : Reports .gsAborted (le 1 u.tether.round ++ le 1 reason) u (u.gsAbort reason) :=
  reports_before (List.prefix_refl u.out) (reports_raise _ _ _)

/-- A member's round ends. -/
theorem gsAbort_ends {s u : State} (hq : u.tether.queue = s.tether.queue) (hr : u.tether.round = s.tether.round) (ho : s.out <+: u.out) (reason : Nat) :
    RoundEnds reason false s (u.gsAbort reason) := by
  have hrep := gsAbort_reports u reason
  rw [hr] at hrep
  unfold RoundEnds
  rw [gsAbort_tether, hq, if_neg Bool.false_ne_true, List.append_nil]
  exact ⟨rfl, rfl, rfl, rfl, reports_before ho hrep⟩

/-- The Elder's round ends with ABORT. -/
theorem elderAbort_ends {s u : State} (hc : u.tether.claim ≠ .disabled) (hq : u.tether.queue = s.tether.queue) (hr : u.tether.round = s.tether.round)
    (ho : s.out <+: u.out) (reason : Nat) : RoundEnds reason true s (u.elderAbort reason) := by
  have hrep := gsAbort_reports u reason
  have ht := gsAbort_tether u reason
  unfold State.elderAbort
  rw [hr] at hrep ⊢
  generalize u.gsAbort reason = v at *
  rw [tetherQueue_gives (by rw [ht]; exact hc)]
  have hqueue : v.tether.queue = s.tether.queue.filter (fun f => !roundFrame f) := by rw [ht, hq]
  have hfields : v.tether.gs = .none ∧ v.tether.gsStat = .aborted ∧ v.tether.reason = reason := by
    rw [ht]
    exact ⟨rfl, rfl, rfl⟩
  obtain ⟨h1, h2, h3⟩ := hfields
  exact ⟨h1, h2, h3, congrArg (fun q => q ++ [ownFrame 0x12 (le 1 s.tether.round ++ le 1 reason)]) hqueue,
    reports_after (reports_before ho hrep) (List.prefix_refl _)⟩

/-! ### Proposals and answers (R346, R347) -/

theorem exec_propose {s : State} {f : TetherFrame} (h : Int) (ha : Accepted 0x13 f s) :
    exec (.propose f h) s = .next (State.proposeIn f h (s.rxAccept f) (bits f.id.toNat 0 6)) := congrArg Host.Outcome.next (tetherIn_accepted ha _)

/-- The round of a PROPOSE that a member agrees to. -/
def agreedRound (f : TetherFrame) (n : Nat) (t : TetherSt) : TetherSt :=
  { t with gs := .agreed, gsStat := .agreed, round := byteAt f.payload 0, proposer := n, reason := 0, gsMode := byteAt f.payload 1,
           members := leAt f.payload 2 8, agreed := 0, gsP := f.stamp }

/-- A PROPOSE that names this station. -/
theorem proposeIn_named {u : State} {f : TetherFrame} {h : Int} {n : Nat} (hc : u.tether.claim = .joined)
    (hb : bit (leAt f.payload 2 8) u.tether.station = true) (hm : byteAt f.payload 1 = 1 ∨ byteAt f.payload 1 = 2) : State.proposeIn f h u n =
      if u.gsRefusal n (byteAt f.payload 1) h ≠ 0 then u.tetherQueue 0x15 (le 1 (byteAt f.payload 0) ++ le 1 n ++ le 1 (u.gsRefusal n (byteAt f.payload 1) h))
      else (u.onTether (agreedRound f n)).tetherQueue 0x14 (le 1 (byteAt f.payload 0) ++ le 1 n) := by
  refine if_neg ?_
  rintro (h | h | h)
  · exact h hc
  · exact Bool.false_ne_true (h.symm.trans hb)
  · exact h hm

theorem propose_agreed {s : State} {f : TetherFrame} {h : Int} (ha : Accepted 0x13 f s) (hc : s.tether.claim = .joined)
    (hb : bit (leAt f.payload 2 8) s.tether.station = true) (hm : byteAt f.payload 1 = 1 ∨ byteAt f.payload 1 = 2)
    (hw : (s.rxAccept f).gsRefusal (bits f.id.toNat 0 6) (byteAt f.payload 1) h = 0) : Gives (.propose f h) s (fun t =>
      t.tether.gs = .agreed ∧ t.tether.round = byteAt f.payload 0 ∧ t.tether.proposer = bits f.id.toNat 0 6 ∧ t.tether.gsP = f.stamp ∧
      t.tether.gsMode = byteAt f.payload 1 ∧ Queued 0x14 (le 1 (byteAt f.payload 0) ++ le 1 (bits f.id.toNat 0 6)) s t) := by
  have hgo := exec_propose h ha
  obtain ⟨hclaim, hst, hq, -⟩ := admitted_fields (admitted_rxAccept s f)
  rw [proposeIn_named (hclaim.trans hc) (by rw [hst]; exact hb) hm, if_neg (by simp [hw])] at hgo
  generalize s.rxAccept f = u at *
  have hopen : (u.onTether (agreedRound f (bits f.id.toNat 0 6))).tether.claim ≠ .disabled :=
    fun hd => absurd ((hclaim.trans hc).symm.trans hd) (by decide)
  rw [tetherQueue_gives hopen] at hgo
  exact ⟨_, hgo, rfl, rfl, rfl, rfl, rfl, congrArg (fun q => q ++ [ownFrame 0x14 (le 1 (byteAt f.payload 0) ++ le 1 (bits f.id.toNat 0 6))]) hq⟩

theorem propose_refused {s : State} {f : TetherFrame} {h : Int} (ha : Accepted 0x13 f s) (hc : s.tether.claim = .joined)
    (hb : bit (leAt f.payload 2 8) s.tether.station = true) (hm : byteAt f.payload 1 = 1 ∨ byteAt f.payload 1 = 2) {why : Nat}
    (hw : (s.rxAccept f).gsRefusal (bits f.id.toNat 0 6) (byteAt f.payload 1) h = why) (hne : why ≠ 0) : Gives (.propose f h) s (fun t =>
      t.tether.gs = s.tether.gs ∧ t.tether.round = s.tether.round ∧
      Queued 0x15 (le 1 (byteAt f.payload 0) ++ le 1 (bits f.id.toNat 0 6) ++ le 1 why) s t) := by
  have hgo := exec_propose h ha
  obtain ⟨hclaim, hst, hq, hgs, hround, -⟩ := admitted_fields (admitted_rxAccept s f)
  rw [proposeIn_named (hclaim.trans hc) (by rw [hst]; exact hb) hm, hw, if_pos hne] at hgo
  generalize s.rxAccept f = u at *
  rw [tetherQueue_gives (by rw [hclaim, hc]; decide)] at hgo
  exact ⟨_, hgo, hgs, hround, congrArg (fun q => q ++ [ownFrame 0x15 (le 1 (byteAt f.payload 0) ++ le 1 (bits f.id.toNat 0 6) ++ le 1 why)]) hq⟩

theorem propose_other {s : State} {f : TetherFrame} {h : Int} (ha : Accepted 0x13 f s)
    (hno : s.tether.claim ≠ .joined ∨ bit (leAt f.payload 2 8) s.tether.station = false) : Gives (.propose f h) s (fun t =>
      t.tether.gs = s.tether.gs ∧ t.tether.queue = s.tether.queue) := by
  obtain ⟨hclaim, hst, hq, hgs, -⟩ := admitted_fields (admitted_rxAccept s f)
  have hstay : State.proposeIn f h (s.rxAccept f) (bits f.id.toNat 0 6) = s.rxAccept f := by
    refine if_pos ?_
    rw [hclaim, hst]
    rcases hno with hno | hno
    · exact .inl hno
    · exact .inr (.inl hno)
  have hgo := exec_propose h ha
  rw [hstay] at hgo
  exact ⟨_, hgo, hgs, hq⟩

theorem ourRound_congr {s u : State} (h1 : u.tether.gs = s.tether.gs) (h2 : u.tether.round = s.tether.round) (h3 : u.tether.proposer = s.tether.proposer)
    (r p : Nat) : u.ourRound r p = s.ourRound r p := by
  unfold State.ourRound
  rw [h1, h2, h3]

theorem answers_admitted {s u : State} (h : Admitted s u) (f : TetherFrame) : u.answers f = s.answers f := by
  obtain ⟨-, -, -, hgs, hround, hprop, -, -, hP, -⟩ := admitted_fields h
  unfold State.answers
  rw [ourRound_congr hgs hround hprop, hgs, hP]

theorem proposed_of_answers {s : State} {f : TetherFrame} (h : s.answers f = true) : s.tether.gs = .proposed := by
  unfold State.answers at h
  simp only [Bool.and_eq_true, decide_eq_true_eq] at h
  obtain ⟨⟨⟨hgs, -⟩, -⟩, -⟩ := h
  exact hgs

/-- An AGREE counts, and the last one brings COMMIT. -/
theorem agree_gives {s : State} {f : TetherFrame} (ha : Accepted 0x14 f s) (hans : s.answers f = true)
    (hb : bit s.tether.members (bits f.id.toNat 0 6) = true) : Gives (.agree f) s (fun t =>
      t.tether.agreed = Nat.lor s.tether.agreed (2 ^ bits f.id.toNat 0 6) ∧
      ({ s.tether with agreed := t.tether.agreed }.allAgreed = true → t.tether.gs = .committed ∧ Queued 0x16 [] s t) ∧
      ({ s.tether with agreed := t.tether.agreed }.allAgreed = false → t.tether.gs = .proposed ∧ t.tether.queue = s.tether.queue)) := by
  have hadm := admitted_rxAccept s f
  obtain ⟨hclaim, hst, hq, hgs, -, -, hmem, hagr, -⟩ := admitted_fields hadm
  have hin : State.agreeIn f (s.rxAccept f) (bits f.id.toNat 0 6) =
      ((s.rxAccept f).onTether (fun t => { t with agreed := Nat.lor t.agreed (2 ^ bits f.id.toNat 0 6) })).gsCommit :=
    if_pos ⟨(answers_admitted hadm f).trans hans, by rw [hmem]; exact hb⟩
  have hgo : exec (.agree f) s = .next (State.agreeIn f (s.rxAccept f) (bits f.id.toNat 0 6)) := congrArg Host.Outcome.next (tetherIn_accepted ha _)
  rw [hin] at hgo
  generalize s.rxAccept f = u at *
  have hprop : u.tether.gs = .proposed := hgs.trans (proposed_of_answers hans)
  have hor : Nat.lor u.tether.agreed (2 ^ bits f.id.toNat 0 6) = Nat.lor s.tether.agreed (2 ^ bits f.id.toNat 0 6) := by rw [hagr]
  have hall : (u.onTether (fun t => { t with agreed := Nat.lor t.agreed (2 ^ bits f.id.toNat 0 6) })).tether.allAgreed =
      { s.tether with agreed := Nat.lor s.tether.agreed (2 ^ bits f.id.toNat 0 6) }.allAgreed := by
    unfold TetherSt.allAgreed
    rw [← hor, ← hst, ← hmem]
    rfl
  cases hdone : { s.tether with agreed := Nat.lor s.tether.agreed (2 ^ bits f.id.toNat 0 6) }.allAgreed with
  | true =>
    have hclaimed : ((u.onTether (fun t => { t with agreed := Nat.lor t.agreed (2 ^ bits f.id.toNat 0 6) })).onTether (fun t =>
        { t with gs := .committed, gsStat := .committed })).tether.claim ≠ .disabled :=
      fun hd => enabled_of_accepted ha (hclaim.symm.trans hd)
    have hcommit : (u.onTether (fun t => { t with agreed := Nat.lor t.agreed (2 ^ bits f.id.toNat 0 6) })).gsCommit =
        (((u.onTether (fun t => { t with agreed := Nat.lor t.agreed (2 ^ bits f.id.toNat 0 6) })).onTether (fun t =>
          { t with gs := .committed, gsStat := .committed })).onTether (fun t => { t with queue := t.queue ++ [ownFrame 0x16 []] })) :=
      (if_pos ⟨hprop, hall.trans hdone⟩).trans (tetherQueue_gives hclaimed 0x16 [])
    rw [hcommit] at hgo
    refine ⟨_, hgo, hor, fun _ => ⟨rfl, congrArg (fun q => q ++ [ownFrame 0x16 []]) hq⟩, fun hno => ?_⟩
    have hyes : { s.tether with agreed := Nat.lor u.tether.agreed (2 ^ bits f.id.toNat 0 6) }.allAgreed = true := by
      rw [hor]
      exact hdone
    exact absurd (hyes.symm.trans hno) (by decide)
  | false =>
    have hstay : (u.onTether (fun t => { t with agreed := Nat.lor t.agreed (2 ^ bits f.id.toNat 0 6) })).gsCommit =
        u.onTether (fun t => { t with agreed := Nat.lor t.agreed (2 ^ bits f.id.toNat 0 6) }) := by
      refine if_neg ?_
      rintro ⟨-, h⟩
      exact absurd ((hall.trans hdone).symm.trans h) (by decide)
    rw [hstay] at hgo
    refine ⟨_, hgo, hor, fun hyes => ?_, fun _ => ⟨hprop, hq⟩⟩
    have hno : { s.tether with agreed := Nat.lor u.tether.agreed (2 ^ bits f.id.toNat 0 6) }.allAgreed = false := by
      rw [hor]
      exact hdone
    exact absurd (hno.symm.trans hyes) (by decide)

theorem refuse_gives {s : State} {f : TetherFrame} (ha : Accepted 0x15 f s) (hans : s.answers f = true)
    (hb : bit s.tether.members (bits f.id.toNat 0 6) = true) : Gives (.refuse f) s (RoundEnds 8 true s) := by
  have hadm := admitted_rxAccept s f
  obtain ⟨hclaim, -, hq, -, hround, -, hmem, -⟩ := admitted_fields hadm
  have hin : State.refuseIn f (s.rxAccept f) (bits f.id.toNat 0 6) = (s.rxAccept f).elderAbort 8 :=
    if_pos ⟨(answers_admitted hadm f).trans hans, by rw [hmem]; exact hb⟩
  have hgo : exec (.refuse f) s = .next (State.refuseIn f (s.rxAccept f) (bits f.id.toNat 0 6)) := congrArg Host.Outcome.next (tetherIn_accepted ha _)
  rw [hin] at hgo
  exact ⟨_, hgo, elderAbort_ends (by rw [hclaim]; exact enabled_of_accepted ha) hq hround hadm.did.out 8⟩

/-! ### COMMIT, ABORT and WAKE_VETO (R347 to R349) -/

theorem ourRound_of {s : State} {r p : Nat} (h1 : s.tether.gs ≠ .none) (h2 : s.tether.round = r) (h3 : s.tether.proposer = p) : s.ourRound r p = true := by
  simp [State.ourRound, h1, h2, h3]

theorem tetherCommit_gives {s : State} {f : TetherFrame} (ha : Accepted 0x16 f s) (hg : s.tether.gs = .agreed) (hr : s.tether.round = byteAt f.payload 0)
    (hp : s.tether.proposer = bits f.id.toNat 0 6) : Gives (.tetherCommit f) s (fun t => t.tether.gs = .committed ∧
      t.tether.gsT = leAt f.payload 2 8 ∧ t.tether.gsMode = byteAt f.payload 1 ∧
      Reports .gsCommitted (le 1 (byteAt f.payload 0) ++ le 1 (byteAt f.payload 1) ++ le 8 (leAt f.payload 2 8)) s t) := by
  have hadm := admitted_rxAccept s f
  obtain ⟨-, -, -, hgs, hround, hprop, -⟩ := admitted_fields hadm
  have hin : State.commitIn f (s.rxAccept f) (bits f.id.toNat 0 6) = ((s.rxAccept f).onTether (fun t =>
      { t with gs := .committed, gsStat := .committed, gsMode := byteAt f.payload 1, gsT := leAt f.payload 2 8 })).raise .gsCommitted
        (le 1 (byteAt f.payload 0) ++ le 1 (byteAt f.payload 1) ++ le 8 (leAt f.payload 2 8)) :=
    if_pos ⟨hgs.trans hg, ourRound_of (by rw [hgs, hg]; decide) (hround.trans hr) (hprop.trans hp)⟩
  have hgo : exec (.tetherCommit f) s = .next (State.commitIn f (s.rxAccept f) (bits f.id.toNat 0 6)) := congrArg Host.Outcome.next (tetherIn_accepted ha _)
  have hout := hadm.did.out
  rw [hin] at hgo
  generalize s.rxAccept f = u at *
  refine ⟨_, hgo, ?_⟩
  dsimp only
  rw [tether_raise]
  exact ⟨rfl, rfl, rfl, reports_before hout (reports_raise _ _ _)⟩

theorem abort_gives {s : State} {f : TetherFrame} (ha : Accepted 0x12 f s) (hg : s.tether.gs = .agreed ∨ s.tether.gs = .committed)
    (hr : s.tether.round = byteAt f.payload 0) (hp : s.tether.proposer = bits f.id.toNat 0 6) : Gives (.abort f) s (RoundEnds (byteAt f.payload 1) false s) := by
  have hadm := admitted_rxAccept s f
  obtain ⟨-, -, hq, hgs, hround, hprop, -⟩ := admitted_fields hadm
  have hopen : s.tether.gs ≠ .none ∧ s.tether.gs ≠ .proposed := by
    rcases hg with hg | hg <;> rw [hg] <;> decide
  have hin : State.abortIn f (s.rxAccept f) (bits f.id.toNat 0 6) = (s.rxAccept f).gsAbort (byteAt f.payload 1) :=
    if_pos ⟨ourRound_of (by rw [hgs]; exact hopen.1) (hround.trans hr) (hprop.trans hp), by rw [hgs]; exact hopen.2⟩
  have hgo : exec (.abort f) s = .next (State.abortIn f (s.rxAccept f) (bits f.id.toNat 0 6)) := congrArg Host.Outcome.next (tetherIn_accepted ha _)
  rw [hin] at hgo
  exact ⟨_, hgo, gsAbort_ends hq hround hadm.did.out _⟩

/-- A WAKE_VETO of the open round. -/
theorem wakeVeto_round {s : State} {f : TetherFrame} (ha : Accepted 0x10 f s) (hr : s.ourRound (byteAt f.payload 0) (byteAt f.payload 1) = true)
    (hP : s.tether.gsP ≤ f.stamp) : exec (.wakeVeto f) s = .next (if s.tether.gs = .proposed ∨ s.commitWaits then (s.rxAccept f).elderAbort 7
      else if s.tether.gs = .committed ∧ s.tether.gsT ≤ f.stamp then s.rxAccept f else (s.rxAccept f).gsAbort 7) := by
  have hadm := admitted_rxAccept s f
  obtain ⟨-, -, hq, hgs, hround, hprop, -, -, hP', hT, -⟩ := admitted_fields hadm
  have hgo : exec (.wakeVeto f) s = .next (State.vetoIn f (s.rxAccept f) (bits f.id.toNat 0 6)) := congrArg Host.Outcome.next (tetherIn_accepted ha _)
  have hwaits : (s.rxAccept f).commitWaits = s.commitWaits := by rw [State.commitWaits, hq, State.commitWaits]
  rw [hgo, State.vetoIn, if_pos ⟨(ourRound_congr hgs hround hprop _ _).trans hr, by rw [hP']; exact hP⟩, hgs, hwaits, hT]

theorem wakeVeto_elder {s : State} {f : TetherFrame} (ha : Accepted 0x10 f s) (hr : s.ourRound (byteAt f.payload 0) (byteAt f.payload 1) = true)
    (hP : s.tether.gsP ≤ f.stamp) (h : s.tether.gs = .proposed ∨ s.commitWaits = true) : Gives (.wakeVeto f) s (RoundEnds 7 true s) := by
  have hadm := admitted_rxAccept s f
  obtain ⟨hclaim, -, hq, -, hround, -⟩ := admitted_fields hadm
  have hgo := wakeVeto_round ha hr hP
  rw [if_pos h] at hgo
  exact ⟨_, hgo, elderAbort_ends (by rw [hclaim]; exact enabled_of_accepted ha) hq hround hadm.did.out 7⟩

theorem wakeVeto_member {s : State} {f : TetherFrame} (ha : Accepted 0x10 f s) (hr : s.ourRound (byteAt f.payload 0) (byteAt f.payload 1) = true)
    (hP : s.tether.gsP ≤ f.stamp) (hw : s.commitWaits = false) (h : s.tether.gs = .agreed ∨ (s.tether.gs = .committed ∧ f.stamp < s.tether.gsT)) :
    Gives (.wakeVeto f) s (RoundEnds 7 false s) := by
  have hadm := admitted_rxAccept s f
  obtain ⟨-, -, hq, -, hround, -⟩ := admitted_fields hadm
  have hgo := wakeVeto_round ha hr hP
  have hnot : ¬(s.tether.gs = .proposed ∨ s.commitWaits = true) := by
    rintro (hg | hg)
    · rw [hg] at h
      rcases h with h | ⟨h, -⟩ <;> exact absurd h (by decide)
    · exact Bool.false_ne_true (hw.symm.trans hg)
  have hearly : ¬(s.tether.gs = .committed ∧ s.tether.gsT ≤ f.stamp) := by
    rintro ⟨hg, ht⟩
    rcases h with h | ⟨-, h⟩
    · exact absurd (h.symm.trans hg) (by decide)
    · omega
  rw [if_neg hnot, if_neg hearly] at hgo
  exact ⟨_, hgo, gsAbort_ends hq hround hadm.did.out 7⟩

theorem wakeVeto_late {s : State} {f : TetherFrame} (ha : Accepted 0x10 f s) (hr : s.ourRound (byteAt f.payload 0) (byteAt f.payload 1) = true)
    (hP : s.tether.gsP ≤ f.stamp) (hw : s.commitWaits = false) (hg : s.tether.gs = .committed) (hT : s.tether.gsT ≤ f.stamp) :
    Gives (.wakeVeto f) s (fun t => t.tether.gs = .committed ∧ t.tether.queue = s.tether.queue) := by
  obtain ⟨-, -, hq, hgs, -⟩ := admitted_fields (admitted_rxAccept s f)
  have hgo := wakeVeto_round ha hr hP
  rw [if_neg (by simp [hg, hw]), if_pos ⟨hg, hT⟩] at hgo
  exact ⟨_, hgo, hgs.trans hg, hq⟩

/-! ### The windows of a round (R347, R348) -/

theorem exec_gsAgreeWindowEnd (s : State) : exec .gsAgreeWindowEnd s = .next (if s.tether.gs = .proposed ∧
    s.tether.queue.all (fun f => decide (f.typ ≠ 0x13)) ∧ s.tether.gsP + 50000000 ≤ s.time64 then s.elderAbort 6 else s) := rfl

theorem exec_gsCommitDeadline (s : State) : exec .gsCommitDeadline s = .next (if s.tether.gs = .committed ∧ s.commitWaits ∧
    s.tether.gsP + 55000000 ≤ s.time64 then s.elderAbort 6 else s) := rfl

theorem exec_gsMemberTimeout (s : State) : exec .gsMemberTimeout s = .next (if s.tether.gs = .agreed ∧ s.tether.gsP + 60000000 ≤ s.time64
    then s.gsVeto else s) := rfl

theorem windows_give {s : State} (hc : s.tether.claim ≠ .disabled) :
    (s.tether.gs = .proposed → (∀ f ∈ s.tether.queue, f.typ ≠ 0x13) →
      (s.tether.gsP + 50000000 ≤ s.time64 → Gives .gsAgreeWindowEnd s (RoundEnds 6 true s)) ∧
      (s.time64 < s.tether.gsP + 50000000 → exec .gsAgreeWindowEnd s = .next s)) ∧
    (s.tether.gs = .committed → s.commitWaits = true →
      (s.tether.gsP + 55000000 ≤ s.time64 → Gives .gsCommitDeadline s (RoundEnds 6 true s)) ∧
      (s.time64 < s.tether.gsP + 55000000 → exec .gsCommitDeadline s = .next s)) ∧
    (s.tether.gs = .agreed → s.tether.gsP + 60000000 ≤ s.time64 → (∀ f ∈ s.tether.queue, f.typ ≠ 0x10) →
      Gives .gsMemberTimeout s (fun t => Keeps [.tether] s t ∧ Queued 0x10 (le 1 s.tether.round ++ le 1 s.tether.proposer) s t)) := by
  have habort : RoundEnds 6 true s (s.elderAbort 6) := elderAbort_ends hc rfl rfl (List.prefix_refl _) 6
  refine ⟨fun hg hq => ⟨fun ht => ⟨_, ?_, habort⟩, fun ht => ?_⟩, fun hg hw => ⟨fun ht => ⟨_, ?_, habort⟩, fun ht => ?_⟩, fun hg ht hq => ⟨s.gsVeto, ?_, ?_⟩⟩
  · rw [exec_gsAgreeWindowEnd, if_pos ⟨hg, List.all_eq_true.mpr fun f hf => decide_eq_true (hq f hf), ht⟩]
  · rw [exec_gsAgreeWindowEnd, if_neg]
    rintro ⟨-, -, h⟩
    omega
  · rw [exec_gsCommitDeadline, if_pos ⟨hg, hw, ht⟩]
  · rw [exec_gsCommitDeadline, if_neg]
    rintro ⟨-, -, h⟩
    omega
  · rw [exec_gsMemberTimeout, if_pos ⟨hg, ht⟩]
  · rw [gsVeto_queues hc (.inl hg) hq]
    exact ⟨keeps_onTether s _, rfl⟩

/-! ### T (R349, R350) -/

/-- At T a member's round is over; it takes part in the group's entry, and a veto that has not started is cancelled. -/
def groupTime (s : State) : State :=
  s.onTether (fun t => { t with gs := .none, gsStat := .none, group := true, queue := t.queue.filter (fun f => f.typ ≠ 0x10) })

theorem exec_gsCommitTime {s : State} (h : Int) (hg : s.tether.gs = .committed) (hw : s.commitWaits = false) (ht : s.tether.gsT ≤ s.time64) :
    exec (.gsCommitTime h) s = .next (s.gsTime h) := congrArg Host.Outcome.next (if_pos ⟨hg, hw, ht⟩)

theorem exec_gsCommitTime_early {s : State} (h : Int) (ht : s.time64 < s.tether.gsT) : exec (.gsCommitTime h) s = .next s := by
  refine congrArg Host.Outcome.next (if_neg ?_)
  rintro ⟨-, -, hle⟩
  omega

theorem gsTime_taken {s : State} {h : Int} {v : State} (he : (groupTime s).enter (groupTime s).tether.gsTarget h = (v, 0)) : s.gsTime h = v := by
  have hgo : s.gsTime h = if ((groupTime s).enter (groupTime s).tether.gsTarget h).2 = 0
      then ((groupTime s).enter (groupTime s).tether.gsTarget h).1 else ((groupTime s).enter (groupTime s).tether.gsTarget h).1.groupRefused := rfl
  rw [he] at hgo
  exact hgo

theorem gsTime_refused {s : State} {h : Int} {v : State} {why : Nat} (he : (groupTime s).enter (groupTime s).tether.gsTarget h = (v, why))
    (hne : why ≠ 0) : s.gsTime h = v.groupRefused := by
  have hgo : s.gsTime h = if ((groupTime s).enter (groupTime s).tether.gsTarget h).2 = 0
      then ((groupTime s).enter (groupTime s).tether.gsTarget h).1 else ((groupTime s).enter (groupTime s).tether.gsTarget h).1.groupRefused := rfl
  rw [he] at hgo
  exact hgo.trans (if_neg hne)

theorem entryReason_awake {u : State} (hm : u.power.mode = .run ∨ u.power.mode = .idle) (hp : u.power.pendCmd = none) (target : PwrMode) :
    u.entryReason target = if u.pair.fenced then 2 else if u.power.domain ∧ target ≠ .off then 3 else 0 := by
  refine if_neg ?_
  rw [hp]
  rcases hm with h | h <;> simp [h]

theorem enter_sleep {u : State} (hm : u.power.mode = .run ∨ u.power.mode = .idle) (hp : u.power.pendCmd = none) (hf : u.pair.fenced = false)
    (hd : u.power.domain = false) (ht : u.transition = false) (h : Int) : u.enter .sleep h = (u.beginEntry .sleep, 0) := by
  have hoff : u.power.mode ≠ .off := by rcases hm with hm | hm <;> simp [hm]
  have hwhy : u.entryReason .sleep = 0 := by simp [entryReason_awake hm hp, hf, hd]
  simp [State.enter, hoff, hwhy, ht]

theorem enter_fenced {u : State} (hm : u.power.mode = .run ∨ u.power.mode = .idle) (hp : u.power.pendCmd = none) (hf : u.pair.fenced = true)
    (target : PwrMode) (h : Int) : u.enter target h = (u.entryRefused 2, 2) := by
  have hoff : u.power.mode ≠ .off := by rcases hm with hm | hm <;> simp [hm]
  have hwhy : u.entryReason target = 2 := by simp [entryReason_awake hm hp, hf]
  simp [State.enter, hoff, hwhy]

theorem tether_beginSleep (s : State) : (s.beginEntry .sleep).tether = { s.tether with heldWake := none } := by
  unfold State.beginEntry
  extract_lets s1
  rw [if_pos rfl]
  refine (foldl_keeps (g := State.tether) (fun t p => ?_) _ s1).trans rfl
  split
  · exact keeps_setWatchLane t p _ .tether (by decide)
  · rfl

/-- The entry of the group begins. -/
theorem gsCommitTime_enters {s : State} (h : Int) (hg : s.tether.gs = .committed) (hw : s.commitWaits = false) (ht : s.tether.gsT ≤ s.time64)
    (hm : s.power.mode = .run ∨ s.power.mode = .idle) (hp : s.power.pendCmd = none) (hf : s.pair.fenced = false) (hd : s.power.domain = false)
    (htr : s.transition = false) (hs : s.tether.gsMode ≠ 2) : Gives (.gsCommitTime h) s (fun t =>
      t.power.mode = .entering ∧ t.power.target = some .sleep ∧ t.tether.gs = .none ∧ t.power.latched = s.tether.heldWake ∧
      t.tether.queue = s.tether.queue.filter (fun f => f.typ ≠ 0x10)) := by
  have htarget : (groupTime s).tether.gsTarget = .sleep := if_neg hs
  have henter : (groupTime s).enter (groupTime s).tether.gsTarget h = ((groupTime s).beginEntry .sleep, 0) := by
    rw [htarget]
    exact enter_sleep (u := groupTime s) hm hp hf hd htr h
  refine ⟨(groupTime s).beginEntry .sleep, ?_, ?_⟩
  · rw [exec_gsCommitTime h hg hw ht, gsTime_taken henter]
  · dsimp only
    rw [power_beginEntry, tether_beginSleep]
    exact ⟨rfl, rfl, rfl, rfl, rfl⟩

/-- A fenced member refuses its entry, and wakes the others. -/
theorem gsCommitTime_fenced {s : State} (h : Int) (hg : s.tether.gs = .committed) (hw : s.commitWaits = false) (ht : s.tether.gsT ≤ s.time64)
    (hm : s.power.mode = .run ∨ s.power.mode = .idle) (hp : s.power.pendCmd = none) (hf : s.pair.fenced = true) (hc : s.tether.claim ≠ .disabled) :
    Gives (.gsCommitTime h) s (fun t => t.power = s.power ∧ Reports .pwrEntryRefused (le 1 2) s t ∧
      t.tether.queue = s.tether.queue.filter (fun f => f.typ ≠ 0x10) ++ [ownFrame 0x11 []]) := by
  have hgo : exec (.gsCommitTime h) s = .next ((groupTime s).entryRefused 2).groupRefused := by
    rw [exec_gsCommitTime h hg hw ht, gsTime_refused (enter_fenced (u := groupTime s) hm hp hf _ h) (by decide)]
  have hrep : Reports .pwrEntryRefused (le 1 2) s ((groupTime s).entryRefused 2) := reports_before (List.prefix_refl s.out) (reports_raise _ _ _)
  have hpow : ((groupTime s).entryRefused 2).power = s.power := (flags_raise _ _ (flags_refl (groupTime s))).keeps .power (by decide)
  have htether : ((groupTime s).entryRefused 2).tether = (groupTime s).tether := tether_raise _ _ _
  generalize (groupTime s).entryRefused 2 = v at *
  have hrefused : v.groupRefused = (v.tetherQueue 0x11 []).onTether (fun t => { t with group := false, heldWake := none }) :=
    if_pos (by rw [htether]; rfl)
  rw [hrefused, tetherQueue_gives (by rw [htether]; exact hc)] at hgo
  refine ⟨_, hgo, hpow, reports_after hrep (List.prefix_refl _), ?_⟩
  have hqueue : v.tether.queue = s.tether.queue.filter (fun f => f.typ ≠ 0x10) := by
    rw [htether]
    rfl
  exact congrArg (fun q => q ++ [ownFrame 0x11 []]) hqueue

/-! ### WAKE_ALL, FAILOVER and OPERATOR (R351 to R353) -/

theorem exec_wakeAll {s : State} {f : TetherFrame} (ha : Accepted 0x11 f s) :
    exec (.wakeAll f) s = .next ((s.rxAccept f).wakeAllIn (bits f.id.toNat 0 6)) := congrArg Host.Outcome.next (tetherIn_accepted ha _)

theorem wakeAll_awake {s : State} {f : TetherFrame} (ha : Accepted 0x11 f s) (hm : s.power.mode = .run ∨ s.power.mode = .idle) :
    Gives (.wakeAll f) s (fun t => t.power = s.power) := by
  have hpow : (s.rxAccept f).power = s.power := (admitted_rxAccept s f).did.keeps .power (by decide)
  have hgo := exec_wakeAll ha
  have hstay : (s.rxAccept f).wakeAllIn (bits f.id.toNat 0 6) = s.rxAccept f := by
    unfold State.wakeAllIn
    rw [hpow]
    rcases hm with hm | hm <;> rw [hm]
  rw [hstay] at hgo
  exact ⟨_, hgo, hpow⟩

theorem wakeAll_wakes {s : State} {f : TetherFrame} (ha : Accepted 0x11 f s) (hm : s.power.mode = .sleep ∨ s.power.mode = .deepSleep)
    (hb : bit s.wakeEnEn 1 = true) : Gives (.wakeAll f) s (fun t =>
      t.power.mode = .exiting ∧ t.power.wakeSrc = 6 ∧ t.power.wakeDet = bits f.id.toNat 0 6) := by
  have hadm := admitted_rxAccept s f
  have hpow : (s.rxAccept f).power = s.power := hadm.did.keeps .power (by decide)
  have hset : (s.rxAccept f).setup = s.setup := hadm.did.keeps .setup (by decide)
  have hgo := exec_wakeAll ha
  have hwake : (s.rxAccept f).wakeAllIn (bits f.id.toNat 0 6) = (s.rxAccept f).registerWake 6 (bits f.id.toNat 0 6) := by
    unfold State.wakeAllIn
    rw [hpow]
    rcases hm with hm | hm <;> rw [hm]
  rw [hwake] at hgo
  have hw := registerWake_wakes (s := s.rxAccept f) (src := 6) (bits f.id.toNat 0 6) ((wakeTaken_congr hset 6).trans hb) (by rw [hpow]; exact hm)
    (by rw [hpow]; rcases hm with h | h <;> simp [wakeSources, h])
  generalize (s.rxAccept f).registerWake 6 (bits f.id.toNat 0 6) = t at *
  obtain ⟨-, hpower, -⟩ := hw
  exact ⟨t, hgo, by rw [hpower], by rw [hpower], by rw [hpower]⟩

theorem failover_gives {s : State} {f : TetherFrame} (ha : Accepted 0x30 f s) : Gives (.failover f) s (fun t =>
    (t.peer (bits f.id.toNat 0 6)).kind = bits (byteAt f.payload 0) 0 3 ∧
    Reports .standFailover (le 1 (bits f.id.toNat 0 6) ++ le 1 (byteAt f.payload 0) ++ le 1 (byteAt f.payload 1)) s t) := by
  have hout := (admitted_rxAccept s f).did.out
  have hgo : exec (.failover f) s = .next (State.failoverIn f (s.rxAccept f) (bits f.id.toNat 0 6)) := congrArg Host.Outcome.next (tetherIn_accepted ha _)
  generalize s.rxAccept f = u at *
  refine ⟨_, hgo, ?_, ?_⟩
  · have hpeer := peer_congr (congrArg TetherSt.peers (tether_raise (u.setPeer (bits f.id.toNat 0 6) (fun p => { p with kind := bits (byteAt f.payload 0) 0 3 }))
      .standFailover (le 1 (bits f.id.toNat 0 6) ++ le 1 (byteAt f.payload 0) ++ le 1 (byteAt f.payload 1)))) (bits f.id.toNat 0 6)
    exact congrArg PeerSt.kind (hpeer.trans (peer_setPeer_same _ _ _))
  · exact reports_before (hout.trans (List.prefix_refl _)) (reports_raise _ _ _)

theorem counts_tableRefresh (s : State) : s.tableRefresh.tether.counts = s.tether.counts := by
  obtain ⟨e, r, ht⟩ := tether_tableRefresh s
  rw [ht]

/-- The acceptance counts the frame itself, and nothing else. -/
theorem counts_rxAccept (s : State) (f : TetherFrame) {k : Nat} (hk : k ≠ 1) : tget (s.rxAccept f).tether.counts k = tget s.tether.counts k := by
  have hnoted : tget (rxNoted s f).tether.counts k = tget s.tether.counts k := tget_tput_other _ _ hk
  rw [rxAccept_eq, counts_tableRefresh]
  split
  · exact hnoted
  · rw [tether_raise]
    exact hnoted

theorem exec_operator {s : State} {f : TetherFrame} (ha : Accepted 0x40 f s) :
    exec (.operator f) s = .next (State.operatorIn f (s.rxAccept f) (bits f.id.toNat 0 6)) := congrArg Host.Outcome.next (tetherIn_accepted ha _)

theorem operator_stored {s : State} {f : TetherFrame} (ha : Accepted 0x40 f s) (hl : s.tether.fifo.length < 16) :
    Gives (.operator f) s (fun t => t.tether.fifo = s.tether.fifo ++
      [{ station := bits f.id.toNat 0 6, seq := f.seq.toNat, stamp := f.stamp, data := f.payload }] ∧
      Reports .tetherMsg (le 1 (bits f.id.toNat 0 6)) s t) := by
  have hadm := admitted_rxAccept s f
  obtain ⟨-, -, -, -, -, -, -, -, -, -, hfifo⟩ := admitted_fields hadm
  have hout := hadm.did.out
  have hgo := exec_operator ha
  generalize s.rxAccept f = u at *
  have hin : State.operatorIn f u (bits f.id.toNat 0 6) = (u.onTether (fun t => { t with fifo := t.fifo ++
      [{ station := bits f.id.toNat 0 6, seq := f.seq.toNat, stamp := f.stamp, data := f.payload }] })).raise .tetherMsg (le 1 (bits f.id.toNat 0 6)) :=
    if_pos (by rw [hfifo]; exact hl)
  rw [hin] at hgo
  refine ⟨_, hgo, ?_, reports_before hout (reports_before (List.prefix_refl u.out) (reports_raise _ _ _))⟩
  rw [tether_raise, ← hfifo]
  rfl

theorem operator_overflows {s : State} {f : TetherFrame} (ha : Accepted 0x40 f s) (hl : 16 ≤ s.tether.fifo.length) :
    Gives (.operator f) s (fun t => t.tether.fifo = s.tether.fifo ∧ tget t.tether.counts 10 = satAdd 32 (tget s.tether.counts 10) 1) := by
  obtain ⟨-, -, -, -, -, -, -, -, -, -, hfifo⟩ := admitted_fields (admitted_rxAccept s f)
  have hcount := counts_rxAccept s f (k := 10) (by decide)
  have hgo := exec_operator ha
  generalize s.rxAccept f = u at *
  have hin : State.operatorIn f u (bits f.id.toNat 0 6) = u.tetherCount 10 := if_neg (by rw [hfifo]; omega)
  rw [hin] at hgo
  refine ⟨_, hgo, hfifo, ?_⟩
  rw [← hcount]
  exact tget_tput_same _ _ _

/-- Settles O60: every message and window of a round by the state it meets. -/
theorem groupSleepRoundsAgreeCommitOrAbort : Obligations.GroupSleepRoundsAgreeCommitOrAbort := by
  unfold Obligations.GroupSleepRoundsAgreeCommitOrAbort
  refine ⟨fun s f h ha => ?_, fun s f hans hb => ⟨fun ha => agree_gives ha hans hb, fun ha => refuse_gives ha hans hb⟩,
    fun s f ha hg hr hp => tetherCommit_gives ha hg hr hp, fun s f ha hg hr hp => abort_gives ha hg hr hp,
    fun s f ha hr hP => ⟨fun hw => wakeVeto_elder ha hr hP hw, fun hw hg => wakeVeto_member ha hr hP hw hg,
      fun hw hg hT => wakeVeto_late ha hr hP hw hg hT⟩,
    fun s hc => windows_give hc, fun s h hg hw ht hm hp => ⟨fun hf hd htr hs => gsCommitTime_enters h hg hw ht hm hp hf hd htr hs,
      fun hf hc => gsCommitTime_fenced h hg hw ht hm hp hf hc⟩,
    fun s h ht => exec_gsCommitTime_early h ht, fun s f ha => ⟨wakeAll_awake ha, wakeAll_wakes ha⟩, fun s f ha => failover_gives ha,
    fun s f ha => ⟨operator_stored ha, operator_overflows ha⟩⟩
  dsimp only
  exact ⟨fun hc hb hm => ⟨fun hw => propose_agreed ha hc hb hm hw, fun hw => propose_refused ha hc hb hm rfl hw⟩, fun hno => propose_other ha hno⟩

end Sys2Proof.Proofs
end

section
/-! The claim of a station number, the station table and fallback time on the Tether: O59. -/
namespace Sys2Proof.Proofs
open Sys2Proof Sys2Proof.Machine Sys2Proof.Laws
set_option Elab.async false -- one thread, within the memory of the check

/-! ### The choice of a number (R338) -/

theorem tetherCtrlPreferred_lt (s : State) : s.tetherCtrlPreferred < 64 := Nat.mod_lt _ (by decide)

/-- The number last held, or the lowest free one. -/
def unpreferred (s : State) : Option Nat :=
  match s.tether.lastNum with
  | some n => if s.numFree n then some n else (List.range 64).find? s.numFree
  | none => (List.range 64).find? s.numFree

theorem pickNum_eq (s : State) : s.pickNum =
    if s.tetherCtrlPrefEn = 1 ∧ s.numFree s.tetherCtrlPreferred then some s.tetherCtrlPreferred else unpreferred s := rfl

theorem unpreferred_free {s : State} {n : Nat} (h : unpreferred s = some n) : s.numFree n = true := by
  unfold unpreferred at h
  split at h
  · split at h
    · next hfree =>
      cases h
      exact hfree
    · exact List.find?_some h
  · exact List.find?_some h

/-- The number chosen is free. -/
theorem pickNum_free {s : State} {n : Nat} (h : s.pickNum = some n) : s.numFree n = true := by
  rw [pickNum_eq] at h
  split at h
  · next hpref =>
    obtain ⟨-, hfree⟩ := hpref
    cases h
    exact hfree
  · exact unpreferred_free h

/-- Where a number is free, one is chosen. -/
theorem pickNum_some {s : State} (h : ∃ n < 64, s.numFree n = true) : ∃ n, s.pickNum = some n := by
  obtain ⟨n, hn, hfree⟩ := h
  have hfind : ∃ k, (List.range 64).find? s.numFree = some k :=
    Option.isSome_iff_exists.mp (List.find?_isSome.mpr ⟨n, List.mem_range.mpr hn, hfree⟩)
  rw [pickNum_eq]
  split
  · exact ⟨_, rfl⟩
  · unfold unpreferred
    split
    · split
      · exact ⟨_, rfl⟩
      · exact hfind
    · exact hfind

theorem pickNum_none {s : State} (h : ∀ n < 64, s.numFree n = false) (hl : ∀ n, s.tether.lastNum = some n → n < 64) : s.pickNum = none := by
  rcases hp : s.pickNum with - | n
  · rfl
  · exfalso
    have hnone : (List.range 64).find? s.numFree = none :=
      List.find?_eq_none.mpr fun k hk => by rw [h k (List.mem_range.mp hk)]; exact Bool.false_ne_true
    rw [pickNum_eq, if_neg (by rw [h _ (tetherCtrlPreferred_lt s)]; simp)] at hp
    unfold unpreferred at hp
    split at hp
    · next k hk =>
      rw [h k (hl k hk), if_neg Bool.false_ne_true, hnone] at hp
      exact absurd hp (by simp)
    · rw [hnone] at hp
      exact absurd hp (by simp)

theorem pickNum_preferred {s : State} (he : s.tetherCtrlPrefEn = 1) (hf : s.numFree s.tetherCtrlPreferred = true) :
    s.pickNum = some s.tetherCtrlPreferred := if_pos ⟨he, hf⟩

/-- A station that has chosen a number: its CLAIM waits. -/
def chosen (s : State) (n : Nat) : State :=
  s.onTether (fun t => { t with claim := .claiming, station := n, queue := t.queue.filter (fun f => f.typ ≠ 1) ++ [ownFrame 0x01 s.identity] })

theorem choose_some {s : State} {n : Nat} (h : s.pickNum = some n) : s.choose = chosen s n := by
  unfold State.choose
  rw [h]
  exact tetherQueue_gives (fun hd => absurd (show ClaimState.claiming = .disabled from hd) (by decide)) _ _

theorem choose_none {s : State} (h : s.pickNum = none) : s.choose = s.toListening.raise .tetherFull [] := by
  unfold State.choose
  rw [h]

/-- A Listening station at the end of its window: no number is shut out. -/
def listened (s : State) : State := s.onTether (fun t => { t with excluded := [] })

theorem exec_listenWindowEnd {s : State} (hr : s.tetherRuns = true) (hc : s.tether.claim = .listening) :
    exec .listenWindowEnd s = .next (listened s).choose := congrArg Host.Outcome.next (if_pos ⟨hr, hc⟩)

theorem numFree_listened (s : State) (n : Nat) : (listened s).numFree n = !(s.peer n).present := by
  have h : (listened s).numFree n = (!(s.peer n).present && decide (n ∉ ([] : List Nat))) := rfl
  simp [h]

theorem listenWindowEnd_chooses {s : State} (hr : s.tetherRuns = true) (hc : s.tether.claim = .listening) (hf : ∃ n < 64, (s.peer n).present = false) :
    Gives .listenWindowEnd s (fun t => t.tether.claim = .claiming ∧ (s.peer t.tether.station).present = false ∧
      (s.tetherCtrlPrefEn = 1 → (s.peer s.tetherCtrlPreferred).present = false → t.tether.station = s.tetherCtrlPreferred) ∧
      t.tether.queue = s.tether.queue.filter (fun f => f.typ ≠ 1) ++ [ownFrame 0x01 s.identity]) := by
  obtain ⟨k, hk, hfree⟩ := hf
  obtain ⟨n, hn⟩ := pickNum_some (s := listened s) ⟨k, hk, by rw [numFree_listened, hfree]; rfl⟩
  have hgo := exec_listenWindowEnd hr hc
  rw [choose_some hn] at hgo
  have hpick : (s.peer n).present = false := by simpa [numFree_listened] using pickNum_free hn
  refine ⟨_, hgo, rfl, hpick, fun he hp => ?_, rfl⟩
  have hpref := pickNum_preferred (s := listened s) he (by rw [numFree_listened]; exact congrArg not hp)
  exact Option.some.inj (hn.symm.trans hpref)

theorem listenWindowEnd_full {s : State} (hr : s.tetherRuns = true) (hc : s.tether.claim = .listening) (hf : ∀ n < 64, (s.peer n).present = true)
    (hl : ∀ n, s.tether.lastNum = some n → n < 64) : Gives .listenWindowEnd s (fun t => t.tether.claim = .listening ∧ Reports .tetherFull [] s t) := by
  have hnone : (listened s).pickNum = none := pickNum_none (fun n hn => by rw [numFree_listened, hf n hn]; rfl) hl
  have hgo := exec_listenWindowEnd hr hc
  rw [choose_none hnone] at hgo
  refine ⟨_, hgo, ?_, reports_before (List.prefix_refl s.out) (reports_raise _ _ _)⟩
  rw [tether_raise]
  rfl

/-! ### Joining, heartbeats and SYNC (R338, R340, R342) -/

/-- A station that joins: its number is its last, and its HEARTBEAT waits. -/
def joining (s : State) : State :=
  s.onTether (fun t => { t with claim := .joined, lastNum := some t.station, excluded := [], queue := t.queue ++ [ownFrame 0x03 s.heartbeat] })

theorem joinStand_eq (s : State) : s.joinStand = ((joining s).raise .tetherJoined (le 1 s.tether.station)).tableRefresh := by
  have hq : (s.onTether (fun t => { t with claim := .joined, lastNum := some t.station, excluded := [] })).tetherQueue 0x03 s.heartbeat = joining s :=
    tetherQueue_gives (fun hd => absurd (show ClaimState.joined = .disabled from hd) (by decide)) _ _
  rw [← hq]
  rfl

theorem claimWindowEnd_joins {s : State} (hr : s.tetherRuns = true) (hc : s.tether.claim = .claiming) (hq : ∀ f ∈ s.tether.queue, f.typ ≠ 1) :
    Gives .claimWindowEnd s (fun t => t.tether.claim = .joined ∧ t.tether.lastNum = some s.tether.station ∧ Queued 0x03 s.heartbeat s t ∧
      Reports .tetherJoined (le 1 s.tether.station) s t) := by
  have hgo : exec .claimWindowEnd s = .next s.joinStand :=
    congrArg Host.Outcome.next (if_pos ⟨hr, hc, List.all_eq_true.mpr fun f hf => decide_eq_true (hq f hf)⟩)
  rw [joinStand_eq] at hgo
  have hrep : Reports .tetherJoined (le 1 s.tether.station) s ((joining s).raise .tetherJoined (le 1 s.tether.station)) :=
    reports_before (List.prefix_refl s.out) (reports_raise _ _ _)
  have htether := tether_raise (joining s) .tetherJoined (le 1 s.tether.station)
  generalize (joining s).raise .tetherJoined (le 1 s.tether.station) = u at *
  obtain ⟨e, r, ht⟩ := tether_tableRefresh u
  have hout : u.out <+: u.tableRefresh.out := (does_tableRefresh (by decide) (does_refl 0xf220082 u)).out
  rw [htether] at ht
  refine ⟨_, hgo, ?_, ?_, ?_, reports_after hrep hout⟩
  · rw [ht]
    rfl
  · rw [ht]
    rfl
  · rw [Queued, ht]
    rfl

theorem backoffEnd_listens {s : State} (hr : s.tetherRuns = true) (hc : s.tether.claim = .backoff) : Gives .backoffEnd s (fun t =>
    Keeps [.tether] s t ∧ t.tether.claim = .listening ∧ t.tether.excluded = []) :=
  ⟨s.toListening, congrArg Host.Outcome.next (if_pos ⟨hr, hc⟩), keeps_onTether s _, rfl, rfl⟩

theorem heartbeatSend_queues {s : State} (hr : s.tetherRuns = true) (hc : s.tether.claim = .joined) :
    Gives .heartbeatSend s (Queued 0x03 s.heartbeat s) := by
  have hgo : exec .heartbeatSend s = .next (s.tetherQueue 0x03 s.heartbeat) := congrArg Host.Outcome.next (if_pos ⟨hr, hc⟩)
  rw [tetherQueue_gives (by rw [hc]; decide)] at hgo
  exact ⟨_, hgo, rfl⟩

theorem syncSend_queues {s : State} (hr : s.tetherRuns = true) (hc : s.tether.claim = .joined) (ht : s.tether.timeRef = s.tether.station)
    (hcore : s.coreRuns = true) : Gives .syncSend s (Queued 0x20 [] s) := by
  have hgo : exec .syncSend s = .next (s.tetherQueue 0x20 []) := congrArg Host.Outcome.next (if_pos ⟨hr, hc, ht, hcore⟩)
  rw [tetherQueue_gives (by rw [hc]; decide)] at hgo
  exact ⟨_, hgo, rfl⟩

/-! ### A station that is gone (R340) -/

theorem peers_tableRefresh (s : State) : s.tableRefresh.tether.peers = s.tether.peers := by
  obtain ⟨e, r, ht⟩ := tether_tableRefresh s
  rw [ht]

/-- The record of a station that is gone. -/
def goneStation (s : State) (n : Nat) : State := s.setPeer n (fun p => { p with present := false, timeGood := false })

theorem tetherStationGone_waits {s : State} {n : Fin 64} (ht : (s.rtc.count + 2 ^ 48 - (s.peer n).lastAt) % 2 ^ 48 < 32768) :
    exec (.tetherStationGone n) s = .next s := by
  refine congrArg Host.Outcome.next (if_neg ?_)
  rintro ⟨-, hle⟩
  omega

theorem tetherStationGone_gives {s : State} {n : Fin 64} (hp : (s.peer n).present = true)
    (ht : 32768 ≤ (s.rtc.count + 2 ^ 48 - (s.peer n).lastAt) % 2 ^ 48) : Gives (.tetherStationGone n) s (fun t =>
      (t.peer n).present = false ∧ (t.peer n).timeGood = false ∧ Reports .tetherStationGone (le 1 n.val) s t ∧
      ∀ k, k ≠ n.val → t.peer k = s.peer k) := by
  have hgo : exec (.tetherStationGone n) s = .next (((goneStation s n).raise .tetherStationGone (le 1 n.val)).tableRefresh) :=
    congrArg Host.Outcome.next (if_pos ⟨hp, ht⟩)
  have hrep : Reports .tetherStationGone (le 1 n.val) s ((goneStation s n).raise .tetherStationGone (le 1 n.val)) :=
    reports_before (List.prefix_refl s.out) (reports_raise _ _ _)
  have htether := tether_raise (goneStation s n) .tetherStationGone (le 1 n.val)
  generalize (goneStation s n).raise .tetherStationGone (le 1 n.val) = u at *
  have hpeer (k : Nat) : u.tableRefresh.peer k = (goneStation s n).peer k :=
    peer_congr ((peers_tableRefresh u).trans (congrArg TetherSt.peers htether)) k
  have hout : u.out <+: u.tableRefresh.out := (does_tableRefresh (by decide) (does_refl 0xf220082 u)).out
  have hsame : (goneStation s n).peer n = { s.peer n with present := false, timeGood := false } := peer_setPeer_same s n _
  refine ⟨_, hgo, ?_, ?_, reports_after hrep hout, fun k hk => ?_⟩
  · rw [hpeer, hsame]
  · rw [hpeer, hsame]
  · rw [hpeer]
    exact peer_setPeer_other s _ hk

/-! ### Membership frames (R337, R339) -/

/-- SERIAL and SESSION of a membership frame stand in the record of its station. -/
def MemberRecorded (f : TetherFrame) (t : State) : Prop :=
  (t.peer (bits f.id.toNat 0 6)).serial = leAt f.payload 0 8 ∧ (t.peer (bits f.id.toNat 0 6)).session = byteAt f.payload 8 ∧
  (t.peer (bits f.id.toNat 0 6)).known = true

theorem memberRecorded_congr {f : TetherFrame} {t u : State} (h : MemberRecorded f t) (hp : u.tether.peers = t.tether.peers) : MemberRecorded f u := by
  unfold MemberRecorded
  rw [peer_congr hp]
  exact h

/-- The state in which a membership frame of the station's number is judged: the frame is accepted and recorded. -/
def memberNoted (s : State) (f : TetherFrame) : State := (s.rxAccept f).recordMember (bits f.id.toNat 0 6) f

theorem memberRecorded_memberNoted (s : State) (f : TetherFrame) : MemberRecorded f (memberNoted s f) := by
  have h : (memberNoted s f).peer (bits f.id.toNat 0 6) = { (s.rxAccept f).peer (bits f.id.toNat 0 6) with
    serial := leAt f.payload 0 8, session := byteAt f.payload 8, known := true } := peer_setPeer_same _ _ _
  unfold MemberRecorded
  rw [h]
  exact ⟨rfl, rfl, rfl⟩

theorem recordMember_fields (u : State) (n : Nat) (f : TetherFrame) : (u.recordMember n f).tether.claim = u.tether.claim ∧
    (u.recordMember n f).tether.station = u.tether.station ∧ (u.recordMember n f).tether.queue = u.tether.queue ∧ (u.recordMember n f).out = u.out :=
  ⟨rfl, rfl, rfl, rfl⟩

/-- What the record leaves of the Tether. -/
theorem memberNoted_fields (s : State) (f : TetherFrame) : (memberNoted s f).tether.claim = s.tether.claim ∧
    (memberNoted s f).tether.station = s.tether.station ∧ (memberNoted s f).tether.queue = s.tether.queue ∧ s.out <+: (memberNoted s f).out := by
  have hadm := admitted_rxAccept s f
  obtain ⟨hclaim, hst, hq, -⟩ := admitted_fields hadm
  have hout := hadm.did.out
  obtain ⟨hclaim', hst', hq', hout'⟩ := recordMember_fields (s.rxAccept f) (bits f.id.toNat 0 6) f
  exact ⟨hclaim'.trans hclaim, hst'.trans hst, hq'.trans hq, by rw [memberNoted, hout']; exact hout⟩

theorem identity_recordMember (u : State) (n : Nat) (f : TetherFrame) : (u.recordMember n f).identity = u.identity := rfl

theorem identity_rxAccept (s : State) (f : TetherFrame) : (s.rxAccept f).identity = s.identity := by
  obtain ⟨ps, cs, e, r, ht⟩ := (admitted_rxAccept s f).tether
  unfold State.identity
  rw [ht]

theorem peers_tetherQueue (v : State) (typ : Nat) (b : Bytes) : (v.tetherQueue typ b).tether.peers = v.tether.peers := by
  unfold State.tetherQueue
  split <;> rfl

theorem peers_choose (v : State) : v.choose.tether.peers = v.tether.peers := by
  rcases h : v.pickNum with - | n
  · rw [choose_none h, tether_raise]
    rfl
  · rw [choose_some h]
    rfl

theorem peers_chooseAgain (v : State) : v.chooseAgain.tether.peers = v.tether.peers := peers_choose _

theorem tether_duplicate (v : State) (serial : Nat) : (v.duplicate serial).tether = v.tether := tether_raise _ _ _

theorem peers_duplicate (v : State) (serial : Nat) : (v.duplicate serial).tether.peers = v.tether.peers := by rw [tether_duplicate]

theorem peers_joinedTwice (v : State) (serial : Nat) : (v.joinedTwice serial).tether.peers = v.tether.peers := by
  unfold State.joinedTwice
  split
  · exact peers_duplicate _ serial
  · exact peers_tetherQueue v _ _

/-- A station that gives up its number takes another, or none. -/
theorem chooseAgain_gives (v : State) : (v.chooseAgain.tether.claim = .claiming ∧ v.chooseAgain.tether.station ≠ v.tether.station) ∨
    v.chooseAgain.tether.claim = .listening := by
  have hgo : v.chooseAgain = (v.onTether (fun t => { t with excluded := t.station :: t.excluded })).choose := rfl
  rcases h : (v.onTether (fun t => { t with excluded := t.station :: t.excluded })).pickNum with - | n
  · rw [choose_none h] at hgo
    refine .inr ?_
    rw [hgo, tether_raise]
    rfl
  · rw [choose_some h] at hgo
    have hfree : (!(v.peer n).present && decide (n ∉ v.tether.station :: v.tether.excluded)) = true := pickNum_free h
    simp only [Bool.and_eq_true, decide_eq_true_eq, List.mem_cons, not_or] at hfree
    obtain ⟨-, hne, -⟩ := hfree
    rw [hgo]
    exact .inl ⟨rfl, hne⟩

/-- Of two Joined stations of one number the one with the higher serial gives it up. -/
theorem joinedTwice_gives {v : State} (h : v.tether.claim = .joined) (serial : Nat) :
    (v.joinedTwice serial).tether.claim = (if serial < Config.serial.toNat then .listening else .joined) ∧
    if serial < Config.serial.toNat then Reports .tetherDuplicate (le 8 Config.serial.toNat ++ le 8 serial) v (v.joinedTwice serial)
    else Queued 0x02 v.identity v (v.joinedTwice serial) := by
  unfold State.joinedTwice
  by_cases hlt : serial < Config.serial.toNat
  · rw [if_pos hlt, if_pos hlt, if_pos hlt]
    refine ⟨?_, reports_before (List.prefix_refl v.out) (reports_raise _ _ _)⟩
    rw [tether_duplicate]
    rfl
  · rw [if_neg hlt, if_neg hlt, if_neg hlt, tetherQueue_gives (by rw [h]; decide)]
    exact ⟨h, rfl⟩

/-- The same from the state before the frame. -/
theorem joinedTwice_noted {s : State} {f : TetherFrame} (h : s.tether.claim = .joined) (serial : Nat) :
    ((memberNoted s f).joinedTwice serial).tether.claim = (if serial < Config.serial.toNat then .listening else .joined) ∧
    if serial < Config.serial.toNat then Reports .tetherDuplicate (le 8 Config.serial.toNat ++ le 8 serial) s ((memberNoted s f).joinedTwice serial)
    else Queued 0x02 s.identity s ((memberNoted s f).joinedTwice serial) := by
  obtain ⟨hclaim, -, hq, hout⟩ := memberNoted_fields s f
  have hid : (memberNoted s f).identity = s.identity := (identity_recordMember _ _ f).trans (identity_rxAccept s f)
  have hboth := joinedTwice_gives (hclaim.trans h) serial
  generalize (memberNoted s f).joinedTwice serial = t at *
  obtain ⟨hc, hrest⟩ := hboth
  refine ⟨hc, ?_⟩
  by_cases hlt : serial < Config.serial.toNat
  · rw [if_pos hlt] at hrest ⊢
    exact reports_before hout hrest
  · rw [if_neg hlt] at hrest ⊢
    rw [Queued, ← hq, ← hid]
    exact hrest

/-- What a membership frame of a type leaves. -/
def MemberTaken (typ : Nat) (f : TetherFrame) (s t : State) : Prop :=
  let n := bits f.id.toNat 0 6
  let serial := leAt f.payload 0 8
  (t.peer n).serial = serial ∧ (t.peer n).session = byteAt f.payload 8 ∧ (t.peer n).known = true ∧
  (typ = 3 → n ≠ s.tether.station ∨ s.tether.claim ≠ .joined → (t.peer n).timeGood = bit (byteAt f.payload 9) 0) ∧
  (n = s.tether.station → s.tether.claim = .joined → serial ≠ Config.serial.toNat →
    (typ = 1 → t.tether.claim = .joined ∧ Queued 0x02 s.identity s t) ∧
    (typ ≠ 1 → t.tether.claim = (if serial < Config.serial.toNat then .listening else .joined) ∧
      if serial < Config.serial.toNat then Reports .tetherDuplicate (le 8 Config.serial.toNat ++ le 8 serial) s t
      else Queued 0x02 s.identity s t)) ∧
  (n = s.tether.station → s.tether.claim = .claiming → serial ≠ Config.serial.toNat →
    (typ ≠ 3 → if typ = 2 ∨ serial < Config.serial.toNat then
        (t.tether.claim = .claiming ∧ t.tether.station ≠ s.tether.station) ∨ t.tether.claim = .listening
      else t.tether.claim = .claiming ∧ t.tether.station = s.tether.station))

theorem memberTaken_intro {typ : Nat} {f : TetherFrame} {s t : State} (hrec : MemberRecorded f t)
    (htime : typ = 3 → bits f.id.toNat 0 6 ≠ s.tether.station ∨ s.tether.claim ≠ .joined →
      (t.peer (bits f.id.toNat 0 6)).timeGood = bit (byteAt f.payload 9) 0)
    (hjoined : bits f.id.toNat 0 6 = s.tether.station → s.tether.claim = .joined → leAt f.payload 0 8 ≠ Config.serial.toNat →
      (typ = 1 → t.tether.claim = .joined ∧ Queued 0x02 s.identity s t) ∧
      (typ ≠ 1 → t.tether.claim = (if leAt f.payload 0 8 < Config.serial.toNat then .listening else .joined) ∧
        if leAt f.payload 0 8 < Config.serial.toNat then Reports .tetherDuplicate (le 8 Config.serial.toNat ++ le 8 (leAt f.payload 0 8)) s t
        else Queued 0x02 s.identity s t))
    (hclaiming : bits f.id.toNat 0 6 = s.tether.station → s.tether.claim = .claiming → leAt f.payload 0 8 ≠ Config.serial.toNat →
      (typ ≠ 3 → if typ = 2 ∨ leAt f.payload 0 8 < Config.serial.toNat then
          (t.tether.claim = .claiming ∧ t.tether.station ≠ s.tether.station) ∨ t.tether.claim = .listening
        else t.tether.claim = .claiming ∧ t.tether.station = s.tether.station)) : MemberTaken typ f s t := by
  obtain ⟨h1, h2, h3⟩ := hrec
  exact ⟨h1, h2, h3, htime, hjoined, hclaiming⟩

/-! CLAIM -/

theorem exec_claim {s : State} {f : TetherFrame} (ha : Accepted 1 f s) :
    exec (.claim f) s = .next (State.claimIn f (s.rxAccept f) (bits f.id.toNat 0 6)) := congrArg Host.Outcome.next (tetherIn_accepted ha _)

/-- What a CLAIM does by the state of the claim of its number. -/
theorem claimIn_same {u : State} {f : TetherFrame} {n : Nat} (hn : n = u.tether.station) (hs : leAt f.payload 0 8 ≠ Config.serial.toNat) :
    State.claimIn f u n = match u.tether.claim with
      | .joined => (u.recordMember n f).tetherQueue 0x02 u.identity
      | .claiming => if leAt f.payload 0 8 < Config.serial.toNat then ((u.recordMember n f).duplicate (leAt f.payload 0 8)).chooseAgain else u.recordMember n f
      | _ => u.recordMember n f := by
  refine (if_neg ?_).trans rfl
  rintro (h | h)
  · exact h hn
  · exact hs h

theorem peers_lowerClaim (v : State) (serial : Nat) : (v.duplicate serial).chooseAgain.tether.peers = v.tether.peers :=
  (peers_chooseAgain _).trans (peers_duplicate v serial)

theorem peers_claimIn (u : State) (f : TetherFrame) (n : Nat) : (State.claimIn f u n).tether.peers = (u.recordMember n f).tether.peers := by
  unfold State.claimIn
  dsimp only
  split
  · rfl
  · split
    · exact peers_tetherQueue _ _ _
    · split
      · exact peers_lowerClaim _ _
      · rfl
    · rfl

/-- A Joined station's answer waits behind what waited. -/
theorem joined_queues {s v : State} (hc : v.tether.claim = .joined) (hq : v.tether.queue = s.tether.queue) (typ : Nat) (b : Bytes) :
    (v.tetherQueue typ b).tether.claim = .joined ∧ Queued typ b s (v.tetherQueue typ b) := by
  rw [tetherQueue_gives (by rw [hc]; decide)]
  exact ⟨hc, congrArg (fun q => q ++ [ownFrame typ b]) hq⟩

theorem claim_taken {s : State} {f : TetherFrame} (ha : Accepted 1 f s) : Gives (.claim f) s (MemberTaken 1 f s) := by
  have hgo := exec_claim ha
  obtain ⟨hclaim, hst, -⟩ := admitted_fields (admitted_rxAccept s f)
  obtain ⟨hclaim', hst', hq', -⟩ := memberNoted_fields s f
  have hrec : MemberRecorded f (State.claimIn f (s.rxAccept f) (bits f.id.toNat 0 6)) :=
    memberRecorded_congr (memberRecorded_memberNoted s f) (peers_claimIn _ f _)
  refine ⟨_, hgo, memberTaken_intro hrec (fun h => absurd h (by decide)) (fun hn hc hs => ⟨fun _ => ?_, fun h => absurd rfl h⟩)
    (fun hn hc hs _ => ?_)⟩
  · rw [claimIn_same (hn.trans hst.symm) hs, hclaim, hc]
    dsimp only
    rw [identity_rxAccept]
    exact joined_queues (hclaim'.trans hc) hq' 0x02 s.identity
  · rw [claimIn_same (hn.trans hst.symm) hs, hclaim, hc]
    dsimp only
    by_cases hlt : leAt f.payload 0 8 < Config.serial.toNat
    · rw [if_pos (.inr hlt), if_pos hlt]
      have hagain := chooseAgain_gives ((memberNoted s f).duplicate (leAt f.payload 0 8))
      rw [tether_duplicate, hst'] at hagain
      exact hagain
    · rw [if_neg (by rintro (h | h); exacts [absurd h (by decide), hlt h]), if_neg hlt]
      exact ⟨hclaim'.trans hc, hst'⟩

/-! OBJECT -/

theorem exec_object {s : State} {f : TetherFrame} (ha : Accepted 2 f s) :
    exec (.object f) s = .next (State.objectIn f (s.rxAccept f) (bits f.id.toNat 0 6)) := congrArg Host.Outcome.next (tetherIn_accepted ha _)

/-- What an OBJECT does by the state of the claim of its number. -/
theorem objectIn_same {u : State} {f : TetherFrame} {n : Nat} (hn : n = u.tether.station) (hs : leAt f.payload 0 8 ≠ Config.serial.toNat) :
    State.objectIn f u n = match u.tether.claim with
      | .claiming => (u.recordMember n f).chooseAgain
      | .joined => (u.recordMember n f).joinedTwice (leAt f.payload 0 8)
      | _ => u.recordMember n f := by
  refine (if_neg ?_).trans rfl
  rintro (h | h)
  · exact h hn
  · exact hs h

theorem peers_objectIn (u : State) (f : TetherFrame) (n : Nat) : (State.objectIn f u n).tether.peers = (u.recordMember n f).tether.peers := by
  unfold State.objectIn
  dsimp only
  split
  · rfl
  · split
    · exact peers_chooseAgain _
    · exact peers_joinedTwice _ _
    · rfl

theorem object_taken {s : State} {f : TetherFrame} (ha : Accepted 2 f s) : Gives (.object f) s (MemberTaken 2 f s) := by
  have hgo := exec_object ha
  obtain ⟨hclaim, hst, -⟩ := admitted_fields (admitted_rxAccept s f)
  obtain ⟨-, hst', -⟩ := memberNoted_fields s f
  have hrec : MemberRecorded f (State.objectIn f (s.rxAccept f) (bits f.id.toNat 0 6)) :=
    memberRecorded_congr (memberRecorded_memberNoted s f) (peers_objectIn _ f _)
  refine ⟨_, hgo, memberTaken_intro hrec (fun h => absurd h (by decide)) (fun hn hc hs => ⟨fun h => absurd h (by decide), fun _ => ?_⟩)
    (fun hn hc hs _ => ?_)⟩
  · rw [objectIn_same (hn.trans hst.symm) hs, hclaim, hc]
    exact joinedTwice_noted hc _
  · rw [objectIn_same (hn.trans hst.symm) hs, hclaim, hc, if_pos (.inl rfl)]
    have hagain := chooseAgain_gives (memberNoted s f)
    rw [hst'] at hagain
    exact hagain

/-! HEARTBEAT -/

theorem exec_heartbeat {s : State} {f : TetherFrame} (ha : Accepted 3 f s) :
    exec (.heartbeat f) s = .next (State.heartbeatIn f (s.rxAccept f) (bits f.id.toNat 0 6)) := congrArg Host.Outcome.next (tetherIn_accepted ha _)

/-- The record of a station with the TIME_GOOD of its HEARTBEAT. -/
def goodNoted (v : State) (n : Nat) (f : TetherFrame) : State := v.setPeer n (fun p => { p with timeGood := bit (byteAt f.payload 9) 0 })

theorem heartbeatIn_own {u : State} {f : TetherFrame} {n : Nat} (hn : n = u.tether.station) (hc : u.tether.claim = .joined) :
    State.heartbeatIn f u n = if leAt f.payload 0 8 = Config.serial.toNat then u.recordMember n f else (u.recordMember n f).joinedTwice (leAt f.payload 0 8) :=
  if_pos ⟨hn, hc⟩

theorem heartbeatIn_other {u : State} {f : TetherFrame} {n : Nat} (h : n ≠ u.tether.station ∨ u.tether.claim ≠ .joined) :
    State.heartbeatIn f u n = (goodNoted (u.recordMember n f) n f).tableRefresh := by
  refine if_neg ?_
  rintro ⟨hn, hc⟩
  rcases h with h | h
  · exact h hn
  · exact h hc

theorem peer_goodNoted (v : State) (n : Nat) (f : TetherFrame) : (goodNoted v n f).tableRefresh.peer n =
    { v.peer n with timeGood := bit (byteAt f.payload 9) 0 } :=
  (peer_congr (peers_tableRefresh _) n).trans (peer_setPeer_same v n _)

theorem memberRecorded_goodNoted {v : State} {f : TetherFrame} (h : MemberRecorded f v) :
    MemberRecorded f (goodNoted v (bits f.id.toNat 0 6) f).tableRefresh := by
  unfold MemberRecorded
  rw [peer_goodNoted]
  exact h

theorem memberRecorded_heartbeatIn (s : State) (f : TetherFrame) : MemberRecorded f (State.heartbeatIn f (s.rxAccept f) (bits f.id.toNat 0 6)) := by
  have hnoted := memberRecorded_memberNoted s f
  by_cases h : bits f.id.toNat 0 6 = (s.rxAccept f).tether.station ∧ (s.rxAccept f).tether.claim = .joined
  · obtain ⟨hn, hc⟩ := h
    rw [heartbeatIn_own hn hc]
    split
    · exact hnoted
    · exact memberRecorded_congr hnoted (peers_joinedTwice _ _)
  · rw [heartbeatIn_other (not_and_or.mp h)]
    exact memberRecorded_goodNoted hnoted

theorem heartbeat_taken {s : State} {f : TetherFrame} (ha : Accepted 3 f s) : Gives (.heartbeat f) s (MemberTaken 3 f s) := by
  have hgo := exec_heartbeat ha
  obtain ⟨hclaim, hst, -⟩ := admitted_fields (admitted_rxAccept s f)
  refine ⟨_, hgo, memberTaken_intro (memberRecorded_heartbeatIn s f) (fun _ hno => ?_)
    (fun hn hc hs => ⟨fun h => absurd h (by decide), fun _ => ?_⟩) (fun _ _ _ h => absurd rfl h)⟩
  · rw [← hst, ← hclaim] at hno
    rw [heartbeatIn_other hno, peer_goodNoted]
  · rw [heartbeatIn_own (hn.trans hst.symm) (hclaim.trans hc), if_neg hs]
    exact joinedTwice_noted hc _

/-- Every membership frame that is accepted. -/
theorem member_taken {s : State} {c : Instr} {typ : Nat} {f : TetherFrame} (hf : Framed c typ f) (ha : Accepted typ f s) (ht : typ ≤ 3) :
    Gives c s (MemberTaken typ f s) := by
  rcases hf with ⟨rfl, rfl⟩ | ⟨rfl, rfl⟩ | ⟨rfl, rfl⟩ | ⟨-, rfl⟩ | ⟨-, rfl⟩ | ⟨-, rfl⟩ | ⟨-, rfl⟩ | ⟨-, rfl⟩ | ⟨-, rfl⟩ | ⟨-, rfl⟩ | ⟨-, rfl⟩ | ⟨-, rfl⟩ | ⟨-, rfl⟩ | ⟨-, rfl⟩
  · exact claim_taken ha
  · exact object_taken ha
  · exact heartbeat_taken ha
  all_goals exact absurd ht (by decide)

/-! ### Fallback time: SYNC and FOLLOW (R342, R343) -/

theorem sync_kept {s : State} {f : TetherFrame} (ha : Accepted 0x20 f s) : Gives (.sync f) s (fun t =>
    t.tether.syncSeq = if bits f.id.toNat 0 6 = t.tether.timeRef then some (f.seq.toNat, f.stamp) else s.tether.syncSeq) := by
  obtain ⟨ps, cs, e, r, ht⟩ := (admitted_rxAccept s f).tether
  have hgo : exec (.sync f) s = .next (State.syncIn f (s.rxAccept f) (bits f.id.toNat 0 6)) := congrArg Host.Outcome.next (tetherIn_accepted ha _)
  have hsync : (s.rxAccept f).tether.syncSeq = s.tether.syncSeq := by rw [ht]
  generalize s.rxAccept f = u at *
  refine ⟨_, hgo, ?_⟩
  unfold State.syncIn
  by_cases href : bits f.id.toNat 0 6 = u.tether.timeRef
  · rw [if_pos href]
    exact (if_pos href).symm
  · rw [if_neg href]
    exact hsync.trans (if_neg href).symm

theorem coreRuns_elderRefresh (s : State) : s.elderRefresh.coreRuns = s.coreRuns := by
  unfold State.elderRefresh
  dsimp only
  split
  · rfl
  · exact coreRuns_raise _ _ _

theorem coreRuns_refRefresh (s : State) : s.refRefresh.coreRuns = s.coreRuns := by
  unfold State.refRefresh
  dsimp only
  split
  · rfl
  · exact coreRuns_raise _ _ _

theorem coreRuns_rxAccept (s : State) (f : TetherFrame) : (s.rxAccept f).coreRuns = s.coreRuns := by
  have hnoted : (rxNoted s f).coreRuns = s.coreRuns := rfl
  rw [rxAccept_eq]
  generalize rxNoted s f = u at *
  unfold State.tableRefresh
  rw [coreRuns_refRefresh, coreRuns_elderRefresh]
  split
  · exact hnoted
  · rw [coreRuns_raise]
    exact hnoted

/-- The offset in ns that a FOLLOW of the SYNC of `st` tells. -/
def followOffset (s : State) (f : TetherFrame) (st : Nat) : Int := (st : Int) - (s.tetherDelayNs : Int) - (leAt f.payload 0 8 : Int)

/-- The last offsets, with the new one. -/
def offsetNoted (s : State) (o : Int) : State := s.onTether (fun t => { t with offsets := (t.offsets ++ [o]).drop (t.offsets.length - 15) })

/-- A Tether adjustment that is taken is counted. -/
def countTaken (s t : State) : State := if s.time.due.length < t.time.due.length then t.tetherCount 11 else t

theorem followIn_steps {u : State} {f : TetherFrame} {n st : Nat} (h : u.followSync n f = some st) (hb : 10000 ≤ (followOffset u f st).natAbs) :
    State.followIn f u n = countTaken (offsetNoted u (followOffset u f st)) ((offsetNoted u (followOffset u f st)).adjust 3 2 (-followOffset u f st * 65536)) := by
  unfold State.followIn
  rw [h]
  unfold followOffset at *
  dsimp only
  rw [decide_eq_true hb]
  rfl

theorem followIn_rates {u : State} {f : TetherFrame} {n st : Nat} (h : u.followSync n f = some st) (hb : (followOffset u f st).natAbs < 10000) :
    State.followIn f u n = countTaken (offsetNoted u (followOffset u f st))
      ((offsetNoted u (followOffset u f st)).useFree.adjust 3 1 (u.followRate (followOffset u f st))) := by
  unfold State.followIn
  rw [h]
  unfold followOffset at *
  dsimp only
  rw [decide_eq_false (Nat.not_le.mpr hb)]
  rfl

theorem tether_setSource (s : State) (n : TimeSource) : (s.setSource n).tether = s.tether := by
  unfold State.setSource
  split
  · rfl
  · exact tether_raise _ _ _

theorem tether_adoptTether (s : State) : (s.adoptSource 3).tether = s.tether := by
  unfold State.adoptSource
  rw [if_neg (by decide)]
  exact tether_setSource _ _

/-- What a Tether adjustment that is taken leaves of device time. -/
def tetherAdjusted (s : State) (action : Nat) (x : Int) : TimeSt :=
  { s.time with due := s.time.due ++ [(action, x)], accepted := true, valid := s.time.valid || decide (action ≠ 1),
                current := some (s.time.elapsed + s.timeHoldMs * uMs), curSrc := 3, source := .tether }

theorem adjust_tether {v : State} (ht : Timely v) {action : Nat} {x : Int} (h : v.adjustReason 3 action x = 0) :
    (v.adjust 3 action x).time = tetherAdjusted v action x ∧ (v.adjust 3 action x).tether = v.tether := by
  have hgo : v.adjust 3 action x = (recorded action x v).adoptSource 3 := by
    rw [adjust_timely ht, h]
    rfl
  rw [hgo, time_adoptSource_other _ (by decide), tether_adoptTether]
  exact ⟨rfl, rfl⟩

/-- An enabled Tether that nothing outranks is refused for its operand alone. -/
theorem adjustReason_tether {v : State} (he : v.timeSrcEnTether = 1) (hc : v.time.current = none ∨ 3 ≤ v.time.curSrc) {action : Nat} {x : Int}
    (hx : v.adjustReason 4 action x = 0) : v.adjustReason 3 action x = 0 := by
  have hen : v.srcEnabled 3 = true := decide_eq_true he
  have hout : v.outranked 3 = false := by
    rcases hc with hn | hle
    · simp [State.outranked, hn]
    · simp [State.outranked, Nat.not_lt.2 hle]
  have hsame : v.adjustReason 3 action x = v.adjustReason 4 action x := by
    simp [State.adjustReason, hen, hout, srcEnabled_manual, outranked_manual]
  exact hsame.trans hx

theorem adjustReason_step {v : State} {x : Int} (h : 0 ≤ v.adjusted 2 x) : v.adjustReason 4 2 x = 0 := by
  rw [adjustReason_manual]
  simp [Int.not_lt.mpr h]

theorem adjustReason_rate {v : State} {x : Int} (h1 : -2684354 ≤ x) (h2 : x ≤ 2684354) : v.adjustReason 4 1 x = 0 := by
  have hadj : 0 ≤ v.adjusted 1 x := Int.add_nonneg (Int.natCast_nonneg _) (Int.natCast_nonneg _)
  rw [adjustReason_manual]
  simp [Int.not_lt.mpr hadj, Int.not_lt.mpr h1, Int.not_lt.mpr h2]

/-- The rate that a FOLLOW asks for moves by at most 20 ppm, inside R41's range. -/
theorem followRate_bounds {u : State} (h1 : -2684354 ≤ u.time.rate) (h2 : u.time.rate ≤ 2684354) (o : Int) :
    -2684354 ≤ u.followRate o ∧ u.followRate o ≤ 2684354 ∧ u.time.rate - 107374 ≤ u.followRate o ∧ u.followRate o ≤ u.time.rate + 107374 := by
  unfold State.followRate
  extract_lets term r
  omega

/-- The adjustment of a FOLLOW is taken and counted. -/
theorem follow_taken {s u v : State} {action : Nat} {x : Int} (hset : v.setup = s.setup) (htime : v.time = s.time) (hdue : u.time = s.time)
    (hcount : tget v.tether.counts 11 = tget s.tether.counts 11) (ht : Timely s) (hadj : s.adjustReason 3 action x = 0) :
    (countTaken u (v.adjust 3 action x)).time = tetherAdjusted s action x ∧
    tget (countTaken u (v.adjust 3 action x)).tether.counts 11 = satAdd 32 (tget s.tether.counts 11) 1 := by
  have hsame : v.adjustReason 3 action x = 0 :=
    (adjustReason_congr hset (by rw [htime]) (by rw [htime]) (by rw [htime]) (by rw [htime]) 3 action x).trans hadj
  have htimely : Timely v := by
    unfold Timely
    rw [htime]
    exact ht
  have hhold : tetherAdjusted v action x = tetherAdjusted s action x := by
    unfold tetherAdjusted State.timeHoldMs
    rw [htime, field_congr hset]
  obtain ⟨htaken, htether⟩ := adjust_tether htimely hsame
  rw [hhold] at htaken
  generalize v.adjust 3 action x = t at *
  have hcounted : countTaken u t = t.tetherCount 11 := if_pos (by rw [htaken, hdue]; simp [tetherAdjusted])
  rw [hcounted]
  refine ⟨htaken, ?_⟩
  rw [← hcount, ← htether]
  exact tget_tput_same _ _ _

/-- The SYNC that a FOLLOW of the reference names. -/
theorem followSync_rxAccept {s : State} {f : TetherFrame} {st : Nat} (hq : s.tether.syncSeq = some (byteAt f.payload 8, st))
    (href : (s.rxAccept f).tether.timeRef = bits f.id.toNat 0 6) (hnot : ¬(s.tether.claim = .joined ∧ bits f.id.toNat 0 6 = s.tether.station))
    (hstamp : f.stamp < st + 10000000) (hen : s.timeSrcEnTether = 1) (hgood : s.timeGood = false) (hcore : s.coreRuns = true) :
    (s.rxAccept f).followSync (bits f.id.toNat 0 6) f = some st := by
  have hadm := admitted_rxAccept s f
  obtain ⟨hclaim, hstation, -⟩ := admitted_fields hadm
  obtain ⟨ps, cs, e, r, ht⟩ := hadm.tether
  have hsync : (s.rxAccept f).tether.syncSeq = some (byteAt f.payload 8, st) := by rw [ht]; exact hq
  have hset : (s.rxAccept f).timeSrcEnTether = 1 := (field_congr (hadm.did.keeps .setup (by decide)) _ _ _).trans hen
  have htime : (s.rxAccept f).timeGood = false := by
    rw [State.timeGood, hadm.did.keeps .time (by decide)]
    exact hgood
  have hrun : (s.rxAccept f).coreRuns = true := (coreRuns_rxAccept s f).trans hcore
  generalize s.rxAccept f = u at *
  unfold State.followSync
  rw [hsync]
  exact if_pos ⟨href.symm, by rw [hclaim, hstation]; exact hnot, rfl, hstamp, hset, htime, hrun⟩

theorem exec_follow {s : State} {f : TetherFrame} (ha : Accepted 0x21 f s) :
    exec (.follow f) s = .next (State.followIn f (s.rxAccept f) (bits f.id.toNat 0 6)) := congrArg Host.Outcome.next (tetherIn_accepted ha _)

theorem followOffset_rxAccept (s : State) (f : TetherFrame) (st : Nat) : followOffset (s.rxAccept f) f st = followOffset s f st := by
  have hdelay : (s.rxAccept f).tetherDelayNs = s.tetherDelayNs := field_congr ((admitted_rxAccept s f).did.keeps .setup (by decide)) _ _ _
  unfold followOffset
  rw [hdelay]

theorem follow_steps {s : State} {f : TetherFrame} {st : Nat} (ha : Accepted 0x21 f s)
    (hf : (s.rxAccept f).followSync (bits f.id.toNat 0 6) f = some st) (hen : s.timeSrcEnTether = 1) (ht : Timely s)
    (hc : s.time.current = none ∨ 3 ≤ s.time.curSrc) (hbig : 10000 ≤ (followOffset s f st).natAbs)
    (hpos : 0 ≤ (s.time.now : Int) + s.increment - followOffset s f st * 2 ^ 32) : Gives (.follow f) s (fun t =>
      t.time = tetherAdjusted s 2 (-followOffset s f st * 65536) ∧ tget t.tether.counts 11 = satAdd 32 (tget s.tether.counts 11) 1) := by
  have hadm := admitted_rxAccept s f
  have hset : (s.rxAccept f).setup = s.setup := hadm.did.keeps .setup (by decide)
  have htime : (s.rxAccept f).time = s.time := hadm.did.keeps .time (by decide)
  have hcount := counts_rxAccept s f (k := 11) (by decide)
  have hoff := followOffset_rxAccept s f st
  have hgo := exec_follow ha
  generalize s.rxAccept f = u at *
  rw [followIn_steps hf (by rw [hoff]; exact hbig), hoff] at hgo
  have hadj : 0 ≤ s.adjusted 2 (-followOffset s f st * 65536) := by
    show 0 ≤ (s.time.now : Int) + s.increment + (-followOffset s f st * 65536) * 2 ^ 16
    omega
  exact ⟨_, hgo, follow_taken (v := offsetNoted u (followOffset s f st)) hset htime htime hcount ht (adjustReason_tether hen hc (adjustReason_step hadj))⟩

theorem follow_rates {s : State} {f : TetherFrame} {st : Nat} (ha : Accepted 0x21 f s)
    (hf : (s.rxAccept f).followSync (bits f.id.toNat 0 6) f = some st) (hen : s.timeSrcEnTether = 1) (ht : Timely s)
    (hc : s.time.current = none ∨ 3 ≤ s.time.curSrc) (h1 : -2684354 ≤ s.time.rate) (h2 : s.time.rate ≤ 2684354)
    (hsmall : (followOffset s f st).natAbs < 10000) : Gives (.follow f) s (fun t => ∃ r : Int, t.time = tetherAdjusted s 1 r ∧
      (-2684354 ≤ r ∧ r ≤ 2684354 ∧ s.time.rate - 107374 ≤ r ∧ r ≤ s.time.rate + 107374) ∧
      tget t.tether.counts 11 = satAdd 32 (tget s.tether.counts 11) 1) := by
  have hadm := admitted_rxAccept s f
  have hset : (s.rxAccept f).setup = s.setup := hadm.did.keeps .setup (by decide)
  have htime : (s.rxAccept f).time = s.time := hadm.did.keeps .time (by decide)
  have hcount := counts_rxAccept s f (k := 11) (by decide)
  have hoff := followOffset_rxAccept s f st
  have hgo := exec_follow ha
  generalize s.rxAccept f = u at *
  rw [followIn_rates hf (by rw [hoff]; exact hsmall), hoff] at hgo
  have hrate := followRate_bounds (u := u) (by rw [htime]; exact h1) (by rw [htime]; exact h2) (followOffset s f st)
  generalize u.followRate (followOffset s f st) = x at *
  rw [htime] at hrate
  obtain ⟨hlo, hhi, hstep⟩ := hrate
  obtain ⟨hnow, hcounted⟩ := follow_taken (v := (offsetNoted u (followOffset s f st)).useFree) (u := offsetNoted u (followOffset s f st)) hset htime htime hcount
    ht (adjustReason_tether hen hc (adjustReason_rate hlo hhi))
  exact ⟨_, hgo, x, hnow, ⟨hlo, hhi, hstep⟩, hcounted⟩

/-- Settles O59: the claim by the choice of a number, the frames by the record they leave, a FOLLOW by the adjustment it makes. -/
theorem stationsClaimJoinAndFollowTheReference : Obligations.StationsClaimJoinAndFollowTheReference := by
  unfold Obligations.StationsClaimJoinAndFollowTheReference
  refine ⟨fun s hr hc => ⟨listenWindowEnd_chooses hr hc, listenWindowEnd_full hr hc⟩, fun s hr hc hq => claimWindowEnd_joins hr hc hq,
    fun s hr hc => backoffEnd_listens hr hc, fun s hr hc => ⟨heartbeatSend_queues hr hc, syncSend_queues hr hc⟩,
    fun s n hp => ⟨tetherStationGone_waits, tetherStationGone_gives hp⟩, fun s c typ f hf ha ht => member_taken hf ha ht,
    fun s f ha => sync_kept ha, ?_⟩
  intro s f st ha hq href hnot hstamp hen hgood hcore ht hc h1 h2
  have hf := followSync_rxAccept hq href hnot hstamp hen hgood hcore
  refine ⟨fun hbig hpos => ?_, fun hsmall => ?_⟩
  · obtain ⟨t, hgo, htime, hcount⟩ := follow_steps ha hf hen ht hc hbig hpos
    refine ⟨t, hgo, ?_, ?_, ?_, ?_, ?_, hcount⟩ <;> rw [htime] <;> rfl
  · obtain ⟨t, hgo, x, htime, hrate, hcount⟩ := follow_rates ha hf hen ht hc h1 h2 hsmall
    refine ⟨t, hgo, ?_, ?_, ⟨x, ?_, hrate⟩, ?_, hcount⟩ <;> rw [htime] <;> rfl

end Sys2Proof.Proofs
end
